-- ==== Sys2Proof/Word.lean ====
section
/-! DEFINITION. Word.lean: the word types of the device and the plainest list and counter arithmetic. -/

namespace Sys2Proof

/-- A 32-bit register word (R11). -/
abbrev Word := BitVec 32

/-- A byte of memory. -/
abbrev Byte := BitVec 8

/-- One bit per group, group 0 in bit 0. -/
abbrev Mask := BitVec 16

/-- A Q40.24 axis position (R210), in units of 2^-24 count. -/
abbrev Pos := BitVec 64

/-- A binary32 value as its 32 bits. -/
abbrev F32 := BitVec 32

/-- Element `i` of a table, the default record where the table has none. -/
def nth {α : Type} [Inhabited α] (l : List α) (i : Nat) : α := l.getD i default

/-- `l` with element `i` replaced by `f` of itself; a table is never lengthened. -/
def updAt {α : Type} : List α → Nat → (α → α) → List α
  | [], _, _ => []
  | x :: xs, 0, f => f x :: xs
  | x :: xs, n + 1, f => x :: updAt xs n f

/-- `l` with each element and its index mapped. -/
def mapIdx {α β : Type} (f : Nat → α → β) : Nat → List α → List β
  | _, [] => []
  | n, x :: xs => f n x :: mapIdx f (n + 1) xs

/-- A counter that saturates at `m`. -/
def satAdd (m n k : Nat) : Nat := min m (n + k)

/-- The value stored under key `k` of an association list. -/
def assoc {α : Type} : List (Nat × α) → Nat → Option α
  | [], _ => none
  | (j, v) :: r, k => if j = k then some v else assoc r k

/-- Store `v` under `k` in a list whose keys rise strictly. -/
def assocPut {α : Type} : List (Nat × α) → Nat → α → List (Nat × α)
  | [], k, v => [(k, v)]
  | (j, w) :: r, k, v =>
    if k < j then (k, v) :: (j, w) :: r
    else if k = j then (k, v) :: r
    else (j, w) :: assocPut r k v

/-- Remove key `k`. -/
def assocDel {α : Type} (l : List (Nat × α)) (k : Nat) : List (Nat × α) := l.filter (fun p => p.1 != k)

/-- Bit `i` of a group mask. -/
def hasBit {n : Nat} (m : BitVec n) (i : Nat) : Bool := m.getLsbD i

/-- The mask of one bit. -/
def bitOf (n i : Nat) : BitVec n := BitVec.ofNat n (2 ^ i)

/-- The bits of a mask in ascending order. -/
def bitsOf {n : Nat} (m : BitVec n) : List Nat := (List.range n).filter (fun i => m.getLsbD i)

/-- A mask from a predicate on bit numbers. -/
def maskOf (n : Nat) (f : Nat → Bool) : BitVec n :=
  (List.range n).foldl (fun m i => if f i then m ||| bitOf n i else m) 0

end Sys2Proof
end

