-- ==== Sys2Proof/Types.lean ====
section
/-! DEFINITION. Types.lean: the plain records that the configuration image, the signed commands, the frames and the
events of the device carry: the operands of the commands of Syntax.lean. -/

namespace Sys2Proof

/-- The part (R1, R2). -/
inductive Variant where
  | v6128 | v6064 | v6016
  deriving DecidableEq, Repr, Inhabited

/-- The regions of the device; `Region.id` gives the region id of R443 and R47. -/
inductive Region where
  | chip | time | ring | axio | mot | sol | trl | saf | host
  deriving DecidableEq, Repr, Inhabited

/-- Region ids: the high byte of an event code. -/
def Region.id : Region → Nat
  | .chip => 1 | .time => 2 | .ring => 3 | .axio => 4 | .mot => 5
  | .sol => 6 | .trl => 7 | .saf => 8 | .host => 9

/-- The region of an id (R61, R415). -/
def Region.ofId : Nat → Option Region
  | 1 => some .chip | 2 => some .time | 3 => some .ring | 4 => some .axio | 5 => some .mot
  | 6 => some .sol | 7 => some .trl | 8 => some .saf | 9 => some .host | _ => none

/-- Where an axis takes its feedback or sends its set-point (R16, ACFG.SRC and DST). -/
inductive Port where
  | none
  | axio (ch : Nat)
  | ring (r node entry : Nat)
  deriving DecidableEq, Repr, Inhabited

/-- One axis of the image (R16, R210 to R215, R309): ACFG, limits, offset and the safety record. -/
structure AxisCfg where
  defined : Bool := false
  group : Nat := 0
  index : Nat := 0
  src : Port := .none
  dst : Port := .none
  endless : Bool := false
  abs : Bool := false
  conc : Bool := false
  avmax : F32 := 0
  aamax : F32 := 0
  ajmax : F32 := 0
  vlimLo : Pos := 0
  vlimHi : Pos := 0
  aofs : Pos := 0
  amon : F32 := 0
  astop : F32 := 0
  etol : F32 := 0
  vstill : F32 := 0
  vsls : F32 := 0
  deriving DecidableEq, Repr, Inhabited

/-- One joint record of a group model (R238). -/
structure JointCfg where
  prismatic : Bool := false
  axis : Nat := 0
  frame : List F32 := []
  scale : F32 := 0
  zero : Pos := 0
  inertial : List F32 := []
  rated : F32 := 0
  rev : Pos := 0
  deriving DecidableEq, Repr, Inhabited

/-- The identity fields of a tool record or identity block (R349). -/
structure ToolId where
  vendor : Nat := 0
  product : Nat := 0
  serial : Nat := 0
  toolType : Nat := 0
  hw : Nat := 0
  nax : Nat := 0
  deriving DecidableEq, Repr, Inhabited

/-- One group of the image (R17, R18, R233, R238, R286, R329, R349). -/
structure GroupCfg where
  defined : Bool := false
  kind : Nat := 0
  nj : Nat := 1
  naux : Nat := 0
  baseg : Nat := 255
  baselink : Nat := 0
  kdeb : Nat := 0
  dynOn : Bool := false
  taskmask : BitVec 6 := 0
  brkdly : Nat := 0
  ovr : Nat := 32768
  sramp : Nat := 32768
  vred : Nat := 250
  syncTmo : Nat := 0
  sets : Mask := 0
  base : List F32 := []
  tool : List F32 := []
  quatsOk : Bool := true
  joints : List JointCfg := []
  damp : F32 := 0
  iktol : F32 := 0
  payload : Bool := false
  grav : List F32 := []
  pmass : F32 := 0
  pcom : List F32 := []
  piner : List F32 := []
  -- safety record (R329)
  tss1max : Nat := 0
  kdly : Nat := 0
  nstill : Nat := 1
  slstcp : Nat := 0
  tcptol : Nat := 0
  degf : Nat := 32768
  tdeg : Nat := 1
  sres : Nat := 0
  nres : Nat := 0
  autores : Bool := false
  atcp : F32 := 0
  -- Trellis record (R286, R288, R289, R290)
  vlink : F32 := 0
  tdrv : F32 := 0
  ts0 : F32 := 0
  abrk : F32 := 0
  zr : F32 := 0
  vtol : F32 := 0
  smin : Nat := 1
  zpri : Nat := 0
  -- tool record (R349)
  tsrc : Nat := 0
  toolId : ToolId := {}
  toolSpare : Nat := 0
  toolRing : Nat := 0
  deriving DecidableEq, Repr, Inhabited

/-- One servo slice of the image (R179): its two axis slots, shifts, instruction and data memory. -/
structure SliceCfg where
  b : Nat := 0
  s : Nat := 0
  ax0 : Nat := 255
  ax1 : Nat := 255
  esh0 : Nat := 0
  vsh0 : Nat := 0
  ash0 : Nat := 0
  osh0 : Nat := 0
  esh1 : Nat := 0
  vsh1 : Nat := 0
  ash1 : Nat := 0
  osh1 : Nat := 0
  imem : List (BitVec 32) := []
  dmem : List (Nat × BitVec 24) := []
  deriving DecidableEq, Repr, Inhabited

/-- One AXIO channel of the image: CHCFG, CPR, LIMCFG, HOMECFG, STEPCFG, STALL, EMFCAL and SC fields. -/
structure ChanCfg where
  upEntry : Option Nat := none
  dnEntry : Option Nat := none
  mode : Nat := 0
  qthr : Nat := 0
  filt : Nat := 0
  dirie : Bool := false
  zgate : Bool := false
  cpr : Nat := 0
  cmpSrc : Bool := false
  cmpPol : Bool := false
  cmpWidth : Nat := 0
  lpol : BitVec 3 := 0
  deb : Nat := 0
  chn : Nat := 8
  chw : Nat := 20
  hmode : Nat := 0
  hdir : Bool := false
  hspd : Nat := 0
  hdec : Nat := 0
  homepos : BitVec 64 := 0
  stepw : Nat := 4
  dirsu : Nat := 4
  maxstep : Nat := 0
  smode : Nat := 0
  stalln : Nat := 1
  lamax : Nat := 0
  devwin : Nat := 0
  encch : Nat := 0
  vminla : Nat := 0
  ratio : Nat := 0
  ke : Nat := 0
  eofs : Nat := 0
  rmin : Nat := 64
  rmax : Nat := 166
  sofs : BitVec 12 := 0
  cofs : BitVec 12 := 0
  gainr : Nat := 128
  deriving DecidableEq, Repr, Inhabited

/-- What one sampling instant brings to a channel: the levels of A and B with the samples for which each has held (R153), or a
conversion of the sine and cosine inputs in ADC units (R176). [DESIGN CHOICE, log 14] -/
inductive ChanSample where
  | levels (a b : Bool) (heldA heldB : Nat)
  | conversion (sine cosine : Int)
  deriving DecidableEq, Repr, Inhabited

/-- One schedule table entry (R123), times in 8 ns units. -/
structure SlotCfg where
  start : Nat := 0
  len : Nat := 0
  kind : Nat := 0
  dir : Nat := 0
  owner : Nat := 0
  segFirst : Nat := 0
  nseg : Nat := 0
  plen : Nat := 0
  deriving DecidableEq, Repr, Inhabited

/-- One segment table entry (R123). -/
structure SegCfg where
  node : Nat := 0
  spare : Bool := false
  nax : Nat := 0
  offset : Nat := 0
  spareId : Nat := 0
  deriving DecidableEq, Repr, Inhabited

/-- One declared spare slot of a ring (R141). -/
structure SpareCfg where
  id : Nat := 0
  node : Nat := 0
  vendor : Nat := 0
  product : Nat := 0
  deriving DecidableEq, Repr, Inhabited

/-- One ring of the image (R119, R120, R123, R148, R149, R151). `nodes` lists the present node numbers in clockwise order, `group`
and `addr` are the ring group address and the own ring address, `standby` the node number of the standby, `sched` the first 4
bytes of the schedule's SHA-256 digest. -/
structure RingCfg where
  role : Nat := 0
  rank : Nat := 0
  dllim : Nat := 0
  node : Nat := 0
  etype : Nat := 0x88B5
  rttmax : Nat := 0
  nodes : List Nat := []
  slots : List SlotCfg := []
  segs : List SegCfg := []
  spares : List SpareCfg := []
  mailbox : Nat := 16
  group : Nat := 0
  addr : Nat := 0
  standby : Nat := 255
  sched : Word := 0
  deriving DecidableEq, Repr, Inhabited

/-- One solver problem descriptor (R248) with its initial values. -/
structure ProbCfg where
  id : Nat := 0
  op : Nat := 0
  sparse : Bool := false
  uplo : Bool := false
  anytime : Bool := false
  en : Bool := false
  graft : Bool := false
  refact : Bool := false
  fww : Bool := false
  lane : Nat := 0
  block : Nat := 0
  lg : Nat := 1
  period : Nat := 1
  phase : Nat := 0
  n : Nat := 1
  m : Nat := 1
  nnz : Nat := 0
  iter : Nat := 0
  npos : Nat := 0
  gsrc : Nat := 0
  rho : F32 := 0
  alpha : F32 := 0
  tol : F32 := 0
  shash : Word := 0
  matOfs : Nat := 0
  vecOfs : Nat := 0
  patOfs : Nat := 0
  outOfs : Nat := 0
  pat : List Nat := []
  use : Nat := 0
  group : Nat := 0
  h : Nat := 0
  d : Nat := 0
  wj : F32 := 0
  wt : F32 := 0
  mat : List F32 := []
  vecB : List F32 := []
  vecL : List F32 := []
  vecU : List F32 := []
  deriving DecidableEq, Repr, Inhabited

/-- Roles of a geometry primitive (R273). -/
inductive PrimRole where
  | body | keepout | zoneVol | field | shape
  deriving DecidableEq, Repr, Inhabited

/-- One geometry primitive (R273). -/
structure PrimCfg where
  kind : Nat := 0
  att : Nat := 0
  owner : Nat := 0
  link : Nat := 0
  role : PrimRole := .body
  pko : Bool := false
  ref : Nat := 0
  clr : F32 := 0
  slow : F32 := 0
  gmask : Mask := 0
  omask : BitVec 32 := 0
  a : List F32 := []
  b : List F32 := []
  r : F32 := 0
  q : List F32 := []
  reservedOk : Bool := true
  deriving DecidableEq, Repr, Inhabited

/-- One safety sensor descriptor. -/
structure SensorCfg where
  defined : Bool := false
  pduId : Nat := 0
  ageMax : Nat := 1
  vhMin : Nat := 1600
  cIntr : Nat := 0
  spos : List F32 := []
  sq : List F32 := []
  deriving DecidableEq, Repr, Inhabited

/-- One tracked object of the image (R21). -/
structure ObjCfg where
  defined : Bool := false
  person : Bool := false
  sensor : Nat := 0
  deriving DecidableEq, Repr, Inhabited

/-- One safety input pair record (R329). -/
structure InputCfg where
  func : Nat := 0
  srcA : Nat := 0
  srcB : Nat := 1
  gmask : Mask := 0
  disc : Nat := 1
  sfilt : Nat := 0
  deriving DecidableEq, Repr, Inhabited

/-- The header of the safety parameter block (R329): its counts and the safety program version. -/
structure SafHead where
  ngrp : Nat := 0
  nin : Nat := 0
  nrx : Nat := 0
  ntx : Nat := 0
  version : Nat := 0
  deriving DecidableEq, Repr, Inhabited

/-- One receive PDU record (R329). -/
structure RxCfg where
  defined : Bool := false
  pduId : Nat := 0
  len : Nat := 0
  wdog : Nat := 4
  gmask : Mask := 0
  deriving DecidableEq, Repr, Inhabited

/-- One send PDU record (R329). -/
structure TxCfg where
  defined : Bool := false
  pduId : Nat := 0
  period : Nat := 1
  phase : Nat := 0
  content : Nat := 1
  portA : Nat := 0
  portB : Nat := 0
  deriving DecidableEq, Repr, Inhabited

/-- One snapshot entry (R367); `data` holds the image bytes of SKIND 1. -/
structure SnapCfg where
  skind : Nat := 0
  index : Nat := 0
  count : Nat := 0
  dstofs : Nat := 0
  src : Nat := 0
  len : Nat := 0
  data : List Byte := []
  deriving DecidableEq, Repr, Inhabited

/-- One flow descriptor (R356). -/
structure FlowCfg where
  id : Nat := 0
  type : Nat := 0
  en : Bool := false
  missact : Nat := 0
  notrace : Bool := false
  cores : BitVec 8 := 0
  maxpend : Nat := 1
  entry : Nat := 0
  stackOfs : Nat := 0
  stackLen : Nat := 0
  reldl : Nat := 0
  maxrun : Nat := 0
  bind : Nat := 0
  tperiod : Nat := 0
  period : Nat := 1
  phase : Nat := 0
  gdep : Mask := 0
  snapFirst : Nat := 0
  snaps : List SnapCfg := []
  outOfs : Nat := 0
  outLen : Nat := 8
  deriving DecidableEq, Repr, Inhabited

/-- One hardware queue's configuration (R372, QCFG, QBASE). -/
structure QueueCfg where
  overwrite : Bool := false
  cons : Nat := 8
  fw : Bool := false
  depth : Nat := 0
  base : Word := 0
  deriving DecidableEq, Repr, Inhabited

/-- Key roles (R382). -/
inductive KeyRole where
  | empty | operator | engineering | safety | maintenance
  deriving DecidableEq, Repr, Inhabited

/-- One slot of the key table (R382): its role and the two coordinates of its P-256 point. -/
structure KeySlot where
  role : KeyRole := .empty
  x : Nat := 0
  y : Nat := 0
  deriving DecidableEq, Repr, Inhabited

/-- One plant network's addresses (R379). -/
structure NetCfg where
  vid : Nat := 0
  pcp : Nat := 0
  mac : Nat := 0
  ip4 : Nat := 0
  ip6 : Nat := 0
  cmdPort : Nat := 49410
  pduPort : Nat := 49411
  mailbox : Option Nat := none
  deriving DecidableEq, Repr, Inhabited

/-- The addresses of a personality on one plant network (R423, R424). -/
structure PersonNet where
  mac : Nat := 0
  ip4 : Nat := 0
  ip6 : Nat := 0
  deriving DecidableEq, Repr, Inhabited

/-- The pair configuration section (R423); `hip` is the 128-bit host address and `hport` its port. -/
structure PairImg where
  hbn : Nat := 2
  autoho : Bool := false
  hmbox : Nat := 0
  rankA : Nat := 0
  rankB : Nat := 1
  nodeA : List Nat := [0, 0]
  nodeB : List Nat := [1, 1]
  netsA : List PersonNet := []
  netsB : List PersonNet := []
  hip : Nat := 0
  hport : Nat := 0
  deriving DecidableEq, Repr, Inhabited

/-- The phase plan (R25, R32): the start and the deadline of every row, offsets from E0 in ns. The rows at 0 start there in every
plan. -/
structure PhasePlan where
  zone : Nat := 500
  up : Nat := 5000
  tg : Nat := 5000
  fb : Nat := 5000
  kdeStart : Nat := 5000
  poses : Nat := 7000
  hedge : Nat := 5000
  dynStart : Nat := 7000
  ff : Nat := 9000
  trlStart : Nat := 7000
  trl : Nat := 17000
  solStart : Nat := 7000
  sol : Nat := 28000
  servoStart : Nat := 9000
  servo : Nat := 15000
  saf : Nat := 17000
  sto : Nat := 17200
  fin : Nat := 18000
  axio : Nat := 18000
  downStart : Nat := 18000
  downEnd : Nat := 24000
  acyStart : Nat := 24000
  acyEnd : Nat := 31050
  deriving DecidableEq, Repr, Inhabited

/-- One entry of a variant profile (R408): UNIT, ACTION (1 unused, 2 replace), OLD and NEW. -/
structure ProfEntry where
  unit : Nat := 0
  action : Nat := 1
  old : Nat := 0
  new : Nat := 0
  deriving DecidableEq, Repr, Inhabited

/-- A variant profile of a portable image (R408): the variant it serves, its check value as printed and its replacements. -/
structure Profile where
  variant : Variant := .v6064
  check : Word := 0
  entries : List ProfEntry := []
  deriving DecidableEq, Repr, Inhabited

/-- An entry of the section table (R404). -/
structure Section where
  type : Nat := 1
  index : Nat := 0
  offset : Nat := 0
  length : Nat := 0
  deriving DecidableEq, Repr, Inhabited

/-- A section table with one section of every region and none that meets another. -/
def wholeTable : List Section :=
  [⟨1, 0, 2048, 64⟩, ⟨4, 0, 2112, 64⟩, ⟨8, 0, 2176, 64⟩, ⟨2, 1, 2240, 64⟩, ⟨2, 2, 2304, 64⟩, ⟨2, 3, 2368, 64⟩, ⟨2, 4, 2432, 64⟩,
   ⟨2, 5, 2496, 64⟩, ⟨2, 6, 2560, 64⟩, ⟨2, 7, 2624, 64⟩, ⟨2, 8, 2688, 64⟩, ⟨2, 9, 2752, 64⟩]

/-- The Seedbed image (R403, R404): its header, its section table and its sections as records. The cryptographic outcome (`sigOk`)
stands as the fact it establishes. [DESIGN CHOICE, log 4] -/
structure Image where
  magic : BitVec 64 := 0x3144454244454553
  format : Nat := 1
  tvar : Nat := 1
  portable : Bool := false
  compat : Bool := false
  pair : Bool := false
  imgSeq : Nat := 1
  length : Nat := 4096
  sections : List Section := wholeTable
  sigOk : Bool := true
  keyDigest : Nat := 0
  digest : Nat := 0
  tlockwait : Nat := 0
  rechold : Nat := 0
  wdt : Nat := 0
  precnt : Nat := 16
  check : Word := 0
  k : Nat := 0
  plan : PhasePlan := {}
  profile : Nat := 0
  transport : Nat := 0
  doma : Nat := 0
  domb : Nat := 0
  revert : Nat := 0
  disagree : Nat := 10
  phmax : Nat := 10
  slew : Nat := 10
  tc : Nat := 4
  stepth : Nat := 100
  portlat : List (Nat × Nat) := []
  nullLim : Nat := 2
  hold : Mask := 0
  vmode : Nat := 0
  vfloor : Nat := 125
  vmin : Nat := 40
  vmax : Nat := 76
  vrail : Nat := 0
  vaddr : Nat := 0
  recEnable : Bool := false
  recStop : Nat := 32768
  ckptC : Nat := 14
  missLim : Nat := 4
  axes : List AxisCfg := []
  groups : List GroupCfg := []
  slices : List SliceCfg := []
  chans : List ChanCfg := []
  stoMap : List (Option Nat) := []
  rings : List RingCfg := []
  probs : List ProbCfg := []
  prims : List PrimCfg := []
  sensors : List SensorCfg := []
  objs : List ObjCfg := []
  zones : List (Nat × Nat) := []
  syncSets : List Mask := []
  tpp : Nat := 10
  tpw : Nat := 20
  tps : Nat := 10
  safHead : SafHead := {}
  inputs : List InputCfg := []
  rx : List RxCfg := []
  tx : List TxCfg := []
  flows : List FlowCfg := []
  mtvec : Word := 0
  fwImem : List Byte := []
  fwDmem : List (List Byte) := []
  queues : List QueueCfg := []
  pubs : List (Nat × Nat) := []
  traceMask : Mask := 0
  keys : List KeySlot := []
  cellId : Nat := 0
  nets : List NetCfg := []
  pairCfg : PairImg := {}
  reqPri : List Nat := []
  dwin : BitVec 24 := 0
  rwdog : List Nat := []
  vio : List Bool := []
  recordsOk : Bool := true
  profiles : List Profile := []
  deriving DecidableEq, Repr, Inhabited

/-- What a command does to the bytes of the inactive slot: an erase without data, a write with them (R393). -/
structure FlashEdit where
  ofs : Nat := 0
  len : Nat := 0
  data : List Byte := []
  deriving DecidableEq, Repr, Inhabited

/-- The flash (R401, R402): its two slots, blank or holding an image; for a portable image the image after the replacements of
each of its profiles (R408); what commands have erased and written in each slot, oldest first; the size in bytes that SFDP reports,
and whether it offers 8D-8D-8D. -/
structure Flash where
  slotA : Option Image := none
  slotB : Option Image := none
  replA : List (Variant × Image) := []
  replB : List (Variant × Image) := []
  editsA : List FlashEdit := []
  editsB : List FlashEdit := []
  size : Nat := 67108864
  octal : Bool := true
  deriving DecidableEq, Repr, Inhabited

/-- A motion segment (R217). `flags`: bit 0 BLEND, 1 SYNC, 2 TRACK, 3 CMP, 4 ZREQ, 5 ZREL, 7-6 reserved. -/
structure Segment where
  kind : Nat := 4
  flags : BitVec 8 := 0
  segId : Nat := 0
  zreq : Nat := 0
  zrel : Nat := 0
  sync : Nat := 0
  trk : Nat := 0
  cmpIdx : Nat := 0
  vmax : F32 := 0
  amax : F32 := 0
  jmax : F32 := 0
  wmax : F32 := 0
  blend : F32 := 0
  cmpFrac : F32 := 0
  targets : List Pos := []
  pose : List F32 := []
  dwell : Nat := 0
  reservedOk : Bool := true
  deriving DecidableEq, Repr, Inhabited

/-- What a segment's profile depends on (R223): the segment, its start references by group axis index and its start pose (position and
quaternion in the base frame), the group, its axes by group axis index, and the tick exponent. -/
structure PathIn where
  seg : Segment := {}
  start : List Pos := []
  pose0 : List Rat := []
  grp : GroupCfg := {}
  axes : List AxisCfg := []
  k : Nat := 0
  deriving DecidableEq, Repr, Inhabited

/-- An instant of a segment's path: the path parameter its profile starts from, path time in 2^-45 tick after the stretch of
R226, and the ticks since halting began with the path time of that moment (R219). -/
structure PathAt where
  inp : PathIn := {}
  s0 : Nat := 0
  tau : Nat := 0
  halt : Option Nat := none
  deriving DecidableEq, Repr, Inhabited

/-- The network or port a datagram came by. -/
inductive Net where
  | a | b | pendant
  deriving DecidableEq, Repr, Inhabited

/-- Where a released command came from: its reply's address and identity. -/
structure Origin where
  key : Nat := 0
  seq : Nat := 0
  net : Net := .a
  digest : Nat := 0
  relTick : Nat := 0
  deriving DecidableEq, Repr, Inhabited

/-- The words of a TRIGGER command or a tick-locked TYPE 3 record (R393, R371): START in ns, fraction, PERIOD, control. -/
structure TrigWords where
  startNs : Nat := 0
  startFr : Nat := 0
  perNs : Nat := 0
  perFr : Nat := 0
  ctl : Word := 0
  deriving DecidableEq, Repr, Inhabited

/-- The body of a signed command (R393). -/
inductive CmdBody where
  | query
  | segment (g : Nat) (segs : List Segment)
  | flush (m : Mask)
  | halt (m : Mask)
  | resume (m : Mask)
  | enable (m : Mask)
  | disable (m : Mask)
  | override (m : Mask) (ovr : Nat)
  | home (a : Nat)
  | zoneRelease (g z : Nat)
  | sliceParam (b s : Nat) (ws : List (BitVec 24))
  | stop (m : Mask)
  | ack (m : Mask)
  | mode (m : Nat)
  | confirm (v : Word)
  | flowmsg (f : Nat) (data : List Byte)
  | mailbox (q : Nat) (data : List Byte)
  | trigger (i : Nat) (w : TrigWords)
  | prune (kind region index : Nat)
  | imageErase (ofs len : Nat)
  | imageWrite (ofs : Nat) (data : List Byte)
  | read (addr len : Nat)
  | reset (kind : Nat)
  | switchback
  | unknown (opcode : Nat)
  deriving DecidableEq, Repr, Inhabited

/-- A command datagram (R381). `rsOk` and `sigOk` are the outcomes of the range check and of the ECDSA verification. [DESIGN CHOICE, log 4] -/
structure Datagram where
  vers : Nat := 1
  lenOk : Bool := true
  reservedOk : Bool := true
  badOfs : Nat := 0
  key : Nat := 0
  seq : Nat := 0
  relTick : Nat := 0
  cellId : Nat := 0
  nonce : Nat := 0
  digest : Nat := 0
  rsOk : Bool := true
  sigOk : Bool := true
  bodyOk : Bool := true
  bodyOfs : Nat := 0
  body : CmdBody := .query
  deriving DecidableEq, Repr, Inhabited

/-- A safety PDU copy as it arrives (R323): its fields, the reserved byte and the CRC it carries. [DESIGN CHOICE, log 4] -/
structure Pdu where
  id : Nat := 0
  len : Nat := 0
  rsv : Byte := 0
  seq : BitVec 32 := 0
  captick : Nat := 0
  payload : List Byte := []
  crc : BitVec 32 := 0
  deriving DecidableEq, Repr, Inhabited

/-- One axis entry of an uplink segment (R120). -/
structure UpEntry where
  pos : BitVec 32 := 0
  posf : BitVec 16 := 0
  trq : BitVec 16 := 0
  axstat : BitVec 16 := 0
  deriving DecidableEq, Repr, Inhabited

/-- One uplink segment (R121); NAX is the number of its entries. -/
structure UpSeg where
  node : Nat := 0
  null : Bool := false
  spare : Bool := false
  loop : Bool := false
  tchk : BitVec 8 := 0
  early : Bool := false
  late : Bool := false
  rdy : Bool := false
  fault : Bool := false
  status : Word := 0
  entries : List UpEntry := []
  deriving DecidableEq, Repr, Inhabited

/-- One axis entry of a downlink segment (R120, R215). -/
structure DownEntry where
  pos : BitVec 32 := 0
  posf : BitVec 16 := 0
  vff : BitVec 32 := 0
  tff : BitVec 16 := 0
  ctl : BitVec 16 := 0
  deriving DecidableEq, Repr, Inhabited

/-- One downlink segment (R121); NAX is the number of its entries. -/
structure DownSeg where
  node : Nat := 0
  null : Bool := false
  spare : Bool := false
  tchk : BitVec 8 := 0
  hold : Bool := false
  sto : BitVec 32 := 0
  entries : List DownEntry := []
  deriving DecidableEq, Repr, Inhabited

/-- The addresses, EtherType, header and FCS verdict of a ring frame (R120, R121). Addresses are the 6 bytes as a number, low byte
first; `kind` to `plen` are the fields of the 16-byte header, `hchk` its check. [DESIGN CHOICE, log 4] -/
structure RingHead where
  dst : Nat := 0
  sa : Nat := 0
  etype : Nat := 0x88B5
  vlan : Bool := false
  fcsOk : Bool := true
  ver : Nat := 1
  kind : Nat := 0
  null : Bool := false
  healed : Bool := false
  subst : Bool := false
  loop : Bool := false
  ring : Nat := 0
  src : Nat := 0
  slot : Nat := 0
  tickno : Nat := 0
  plen : Nat := 0
  hchk : BitVec 16 := 0
  deriving DecidableEq, Repr, Inhabited

/-- Window of arrival of a frame (R131). -/
inductive Window where
  | inside | early | late
  deriving DecidableEq, Repr, Inhabited

/-- One entry of a beacon (R122's beacon payload, ENTRY0-4). -/
inductive BeaconEntry where
  | resync (node : Nat) (value : Int)
  | confirm (node spare : Nat)
  | deny (node spare reason : Nat)
  deriving DecidableEq, Repr, Inhabited

/-- The beacon payload (R122). Times in ns. -/
structure Beacon where
  next : Nat := 0
  e0 : Nat := 0
  tx : Nat := 0
  hops : Nat := 0
  state : Nat := 0
  corr : Nat := 0
  tstart : Nat := 0
  rate : Int := 0
  brkA : Nat := 255
  brkB : Nat := 255
  loopBy : Nat := 255
  takeover : Bool := false
  master : Nat := 0
  members : BitVec 32 := 0
  silent : BitVec 32 := 0
  outw : BitVec 32 := 0
  eff : Nat := 0
  count : Nat := 0
  sched : Word := 0
  entries : List BeaconEntry := []
  deriving DecidableEq, Repr, Inhabited

/-- A claim (R122, R141). -/
structure ClaimMsg where
  type : Nat := 1
  hopCw : Nat := 255
  hopCcw : Nat := 255
  node : Nat := 255
  vendor : Nat := 0
  product : Nat := 0
  serial : Nat := 0
  idDig : Nat := 0
  deriving DecidableEq, Repr, Inhabited

/-- What a probe exchange brings (R135): a neighbour's probe with its transmit timestamp t1, the answer with t2 and t3, or the link
delay that another node has measured on its upstream link. -/
inductive ProbeMsg where
  | request (t1 : Nat)
  | answer (t2 t3 : Nat)
  | reported (node delay : Nat)
  deriving DecidableEq, Repr, Inhabited

/-- The 32-byte heartbeat payload (R435). -/
structure Heartbeat where
  tick : Nat := 0
  role : Nat := 0
  fit : Bool := false
  ho : Bool := false
  esc : Bool := false
  rst : Bool := false
  pstate : Nat := 1
  hotick : Nat := 0
  deriving DecidableEq, Repr, Inhabited

/-- Payload of a ring frame (R120 to R122, R435); `zero` is the zero payload of a NULL single-sender frame (R133). -/
inductive RingPay where
  | collect (segs : List UpSeg)
  | distribute (segs : List DownSeg)
  | beacon (b : Beacon)
  | claim (m : ClaimMsg)
  | probe (tx : Nat) (rx : Option Nat)
  | heartbeat (h : Heartbeat)
  | zero
  | other
  deriving DecidableEq, Repr, Inhabited

/-- A frame that left a ring port in this tick: the port, the TB instant of its start, whether it was forwarded, and whether its FCS was
inverted (R121). -/
structure RingTx where
  ccw : Bool := false
  at_ : Nat := 0
  fwd : Bool := false
  badFcs : Bool := false
  head : RingHead := {}
  pay : RingPay := .zero
  deriving DecidableEq, Repr, Inhabited

/-- A tool's identity block (R349); `digest` is its SHA-256. -/
structure IdBlock where
  id : ToolId := {}
  digest : Nat := 0
  deriving DecidableEq, Repr, Inhabited

/-- The INPUT frame of a pair (R428). -/
structure InputFrame where
  tick : Nat := 0
  nonce : Nat := 0
  ho : Bool := false
  esc : Bool := false
  rst : Bool := false
  pstate : Nat := 1
  hotick : Nat := 0
  digest : Nat := 0
  cmask : Mask := 0
  lstop : Mask := 0
  ldeg : Mask := 0
  samples : BitVec 64 := 0
  imgDig : Nat := 0
  pdus : List (Nat × BitVec 32) := []
  cmds : List (Nat × Nat) := []
  deriving DecidableEq, Repr, Inhabited

/-- The STATUS frame of a standby (R434). -/
structure StatusFrame where
  tick : Nat := 0
  fit : Bool := false
  unfit : Nat := 0
  fed : Bool := false
  ackHo : Bool := false
  digest : Nat := 0
  deriving DecidableEq, Repr, Inhabited

/-- The health report of a standby (R441). -/
structure HealthReport where
  tick : Nat := 0
  role : Nat := 0
  fit : Bool := false
  unfit : Nat := 0
  paths : Nat := 0
  compares : Nat := 0
  skips : Nat := 0
  divs : Nat := 0
  firstDiv : Nat := 0
  rounds : Nat := 0
  vcore : Nat := 0
  tj : Nat := 0
  unfed : Nat := 0
  check : Word := 0
  imgDig : Nat := 0
  serial : Nat := 0
  deriving DecidableEq, Repr, Inhabited

/-- Where a feedback value comes from: a ring node or an AXIO channel (R31, R157). -/
inductive FbSource where
  | node (r j : Nat)
  | chan (c : Nat)
  deriving DecidableEq, Repr, Inhabited

/-- Who issues a register access: a core, a debug access, or another requester id (R449). [DEDUCED, log 134] -/
inductive Who where
  | core (c : Nat)
  | other (id : Nat)
  deriving DecidableEq, Repr, Inhabited

/-- What the ECC of LP4X DRAM says of a word read (R47): sound, corrected, or beyond correction. [DESIGN CHOICE, log 4] -/
inductive Ecc where
  | ok | corrected | lost
  deriving DecidableEq, Repr, Inhabited

/-- The grandmaster data set and sender of an Announce message (R96). [PRESUMED, log 128] -/
structure GmSet where
  pri1 : Nat := 128
  cls : Nat := 248
  acc : Nat := 0xFE
  var : Nat := 0xFFFF
  pri2 : Nat := 128
  id : Nat := 0
  steps : Nat := 0
  sender : Nat := 0
  deriving DecidableEq, Repr, Inhabited

/-- What identifies a PTP message on the wire (R105): messageType, domain, the port identity that its exchange is matched by, and
sequenceId. [DESIGN CHOICE, log 34] -/
structure PtpId where
  type : Nat := 0
  domain : Nat := 0
  src : Nat := 0
  seq : Nat := 0
  deriving DecidableEq, Repr, Inhabited

/-- Pair classes of the Trellis in issue order (R279, R283). -/
inductive PairClass where
  | k | p | w | z | o | l
  deriving DecidableEq, Repr, Inhabited

/-- One record of a tick-locked output buffer (R371). -/
inductive OutRec where
  | deltas (ps : List (Nat × Nat × Nat × F32))
  | segment (g : Nat) (seg : Segment)
  | trigger (i : Nat) (w : TrigWords)
  | data (bs : List Byte)
  | reserved (t : Nat)
  | badLength (t : Nat)
  deriving DecidableEq, Repr, Inhabited

/-- A tick-locked output buffer: its records, whether a TYPE 0 record ends it within OUTLEN, and its bytes up to that record
(R371). -/
structure OutBuf where
  recs : List OutRec := []
  ended : Bool := true
  raw : List Byte := []
  deriving DecidableEq, Repr, Inhabited

end Sys2Proof
end

