-- ==== Sys2Proof/Syntax.lean ====
section
/-! DEFINITION. Syntax.lean: the commands of the device, one constructor per row of the opcode table: the steps of the
part, each whole and indivisible. Operands carry what comes from outside the step: addresses and values written, messages
and their arrival facts, and outcomes that only wires or cryptography decide. -/

namespace Sys2Proof

/-- What fails as a block does: a block's own arbiter or shared local memory (R43), or a region-level unit, whose fault its region
handles as a block loss (R40). -/
inductive RegionUnit where
  | block (r : Region) (b : Nat)
  | generator | problemStore (p : Nat) | deltaGate | geometryTable | zoneArbiter | scheduler | cryptoEngine
  | plantPort (p : Nat) | pendantPort | nvm
  deriving DecidableEq, Repr, Inhabited

/-- The commands of the device. `b` and `s` of a slice instruction name the servo slice b.s that executes it. -/
inductive Instr where
  /-- TICK_EDGE (R23): The time base reaches E0 of tick n: TICKNO advances and every per-tick start-of-tick action begins. -/
  | tickEdge (emf : List Nat) (recOk : Bool)
  /-- ZONE_ARBITER_DECISION (R290): The zone arbiter decides every zone's parked and new requests. -/
  | zoneArbiterDecision
  /-- PHASE_COMPLETION (R75): A producer's completion token for a monitored phase is registered in TIME. -/
  | phaseCompletion (p : Nat) (groups : Mask) (at_ : Nat)
  /-- PHASE_DEADLINE (R75): A monitored phase deadline passes, releasing results that are in time and judging the others as misses. -/
  | phaseDeadline (p : Nat)
  /-- FEEDBACK_DEADLINE (R25): At 5.0 µs missing feedback becomes null and held, and ring entries are unwrapped. -/
  | feedbackDeadline
  /-- FEEDBACK_NULL_LIMIT (R31): A node's or channel's consecutive null count passes its limit and its groups enter SS1-r. -/
  | feedbackNullLimit (src : FbSource)
  /-- DELTA_GATE (R258): At 7.0 µs pending solver values are copied to the working copies and due jobs are dispatched. -/
  | deltaGate
  /-- SOLVER_JOB_DONE (R251): A solver job completes and the next job of its lane group starts. -/
  | solverJobDone (p : Nat)
  /-- ANYTIME_STOP (R256): An anytime job is stopped at its first break point after 27.5 µs and publishes its last iterate. -/
  | anytimeStop (p iters : Nat)
  /-- SOLVER_RELEASE (R261): At 28.0 µs in-time job results are published and unfinished jobs are abandoned as misses. -/
  | solverRelease
  /-- SOLVER_MISS_LIMIT (R262): A problem's count of not-valid due ticks passes its limit and its groups enter SS1-r. -/
  | solverMissLimit (p : Nat)
  /-- PAIR_BATCH_DONE (R284): A distance pipe completes a batch of pair checks. -/
  | pairBatchDone (id : Nat) (differ : List Nat)
  /-- OBJECT_STALE (R278): A tracked object's PDU age exceeds AGEMAX and the sensor field replaces it as a person. -/
  | objectStale (j : Nat)
  /-- SAF_DECISION (R307): At 17.0 µs SAF latches run, scaled, SS1-r or STO for every group. -/
  | safDecision (kdeOff : Bool)
  /-- STO_LINE_SWITCH (R311): At 17.2 µs the STO lines are switched to the decision. -/
  | stoLineSwitch
  /-- SETPOINT_RELEASE (R25): At 18.0 µs finalised set-points go to step generators, compare units and the downlink, and the pair digest is formed. -/
  | setpointRelease
  /-- STEP_PULSE (R171): A scheduled step pulse instant comes and the pulse leaves AXn_STEP. -/
  | stepPulse (c : Nat)
  /-- ENABLE_COMPLETE (R233): A group that has been ENABLING for BRKDLY further ticks passes to IDLE. -/
  | enableComplete (g : Nat)
  /-- SYNC_TIMEOUT (R226): A group waiting for its sync set longer than SYNCTMO raises MOT_SYNC_TIMEOUT. -/
  | syncTimeout (g : Nat)
  /-- REMOTE_HOME_TIMEOUT (R213): No HBUSY within 64 ticks of HGO fails remote homing. -/
  | remoteHomeTimeout (a : Nat)
  /-- STANDSTILL (R310): NSTILL still ticks complete and SAF decides STO with cause standstill. -/
  | standstill (g : Nat)
  /-- SS1_TIMEOUT (R310): SS1-r reaches TSS1MAX without standstill and SAF decides STO. -/
  | ss1Timeout (g : Nat)
  /-- AUTO_RESTART (R316): A group stopped only by STOPREQ leaves Cloche after NRES ticks of sufficient scale. -/
  | autoRestart (g : Nat)
  /-- DEGRADED_EXPIRY (R321): TLEFT reaches 0 and SAF decides SS1-r with cause expired. -/
  | degradedExpiry (g : Nat)
  /-- STO_REFRESH (R300): The safety core refreshes the STO output stage every 25 µs. -/
  | stoRefresh (word : Bool)
  /-- REFRESH_TIMEOUT (R300): No refresh or a repeated refresh word drives every STO line low until reset. -/
  | refreshTimeout
  /-- FLOW_SIGNATURE_CHECK (R302): The program-flow signature of the safety program is checked at 16.8 µs. -/
  | flowSignatureCheck (ok : Bool) (sig : Word)
  /-- STO_READBACK (R314): The STO line level is read back after a switch or at 17.2 µs and compared. -/
  | stoReadback (level : Mask)
  /-- VOLTAGE_MONITOR_TRIP (R302): A rail out of range for 10 µs is a class A fault that escalates. -/
  | voltageMonitorTrip (vcore : Nat)
  /-- TEMPERATURE_MONITOR_TRIP (R302): Tj above 105 °C or 110 °C raises a class B or class A condition. -/
  | temperatureMonitorTrip (tj : Nat)
  /-- TEST_PULSE (R304): A test-pulse output drives its low pulse and the channels are checked against it. -/
  | testPulse (tpo : Nat) (lvA lvB : Mask)
  /-- SAFETY_INPUT_CHANGE (R305): A safety input channel level holds for SFILT and is accepted, changing the pair's demand. -/
  | safetyInputChange (line : Nat) (chB high : Bool) (held : Nat)
  /-- INPUT_DISCREPANCY (R305): Two channels of a pair differ for longer than DISC. -/
  | inputDiscrepancy (line : Nat)
  /-- PDU_COPY_RECEIVED (R324): A safety PDU copy arrives, is validated, and opens or closes a compare window. -/
  | pduCopyReceived (netB : Bool) (pdu : Pdu)
  /-- PDU_COMPARE_WINDOW_EXPIRY (R325): A 2 ms compare window expires and its single copy is accepted. -/
  | pduCompareWindowExpiry (p : Nat)
  /-- PDU_WATCHDOG (R326): A network's time since the last valid copy passes WDOG. -/
  | pduWatchdog (p : Nat) (netB : Bool)
  /-- PENDANT_PRESENT (R341): PEN_PRES closed for 200 ms makes the pendant present. -/
  | pendantPresent
  /-- PENDANT_ABSENT (R342): Presence lost outside a bridge is an emergency stop of every group. -/
  | pendantAbsent
  /-- WITHDRAW_REQUEST (R343): PEN_WDR held 0.5 s completes a withdraw request, granted or refused. -/
  | withdrawRequest
  /-- BRIDGE_EXPIRY (R344): BRLEFT reaches 0 and the pendant lines are evaluated again. -/
  | bridgeExpiry
  /-- TOOL_IDENTITY (R350): A tool's identity block arrives and is checked against the tool record. -/
  | toolIdentity (g : Nat) (blk : IdBlock)
  /-- TOOL_CHECK_TIMEOUT (R350): No identity block within 64 ticks of the confirming beacon fails the tool check. -/
  | toolCheckTimeout (g : Nat)
  /-- SLICE_FAULT (R41): A slice detects a fault, stops and is contained by its block. -/
  | sliceFault (r : Region) (b sl cause : Nat)
  /-- QUARANTINED_ACCESS (R44): An access into a quarantined block completes with an error token. -/
  | quarantinedAccess (r : Region) (b : Nat)
  /-- ABSENT_UNIT_ACCESS (R3): An access to an absent unit completes at once, reads 0 and raises CHIP_ABSENT. -/
  | absentUnitAccess (addr : Word) (write : Bool)
  /-- ACCESS_SIZE_ERROR (R11): A byte or halfword access to register space completes with an error token. -/
  | accessSizeError (who : Who) (addr : Word) (half : Bool) (wr : Option (BitVec 16))
  /-- DECODE_ERROR (R444): An access to an unmapped address completes with an error token. -/
  | decodeError (addr : Nat) (dma : Bool)
  /-- REGISTER_WRITE (R13): A write to a register with no behaviour of its own takes effect by its access code. -/
  | registerWrite (who : Who) (addr v : Word)
  /-- WIDE_REGISTER_READ (R95): A read of word 0 of a multi-word value latches the other words. -/
  | wideRegisterRead (who : Who) (addr : Word)
  /-- LOCK_REQUEST (R48): A requester asks for a lock on an interconnect target, refused if out of rank. -/
  | lockRequest (n id : Nat)
  /-- GRANT_REQUEST (R48): A requester asks for a grant on an interconnect target. -/
  | grantRequest (n id len : Nat)
  /-- LOCK_RELEASE (R48): A requester releases a lock it holds. -/
  | lockRelease (n id : Nat)
  /-- ARBITER_DECISION (R50): At a break point the arbiter chooses among the holder and waiting requests. -/
  | arbiterDecision (n : Nat)
  /-- LOCK_TIMEOUT (R54): A lock held longer than 100 µs is broken. -/
  | lockTimeout (n : Nat)
  /-- ARB_FREEZE (R53): FRZ written 1 stops new grants at an arbiter. -/
  | arbFreeze (n : Nat)
  /-- ARB_UNFREEZE (R53): FRZ written 0 makes the arbiter decide among all requests at once. -/
  | arbUnfreeze (n : Nat)
  /-- CROSSING_ACCESS (R55): An access crosses from the fabric into a clocked domain. -/
  | crossingAccess (id sl dom pulses : Nat)
  /-- CROSSING_WATCHDOG (R57): The region watchdog ends a crossing access waiting on a stopped clock. -/
  | crossingWatchdog (id : Nat)
  /-- CROSSING_LATE_RESPONSE (R58): A response for an access already completed with an error token arrives and is discarded. -/
  | crossingLateResponse (id dom : Nat)
  /-- PRUNE_SOLVER_JOB (R60): A Prune of KIND 1 abandons one solver job. -/
  | pruneSolverJob (index : Nat)
  /-- PRUNE_TRELLIS_BATCH (R60): A Prune of KIND 2 invalidates one Trellis batch. -/
  | pruneTrellisBatch (index : Nat)
  /-- PRUNE_WORK_ITEM (R60): A Prune of KIND 3 ends one work item. -/
  | pruneWorkItem (index : Nat)
  /-- PRUNE_FLOW (R60): A Prune of KIND 4 ends a flow's item, discards its pending items and disables it. -/
  | pruneFlow (index : Nat)
  /-- PRUNE_CROSSING_ACCESS (R60): A Prune of KIND 5 completes one pending crossing access with an error token. -/
  | pruneCrossingAccess (index : Nat)
  /-- PRUNE_PLANT_QUEUE (R60): A Prune of KIND 6 empties one plant-network transmit queue. -/
  | prunePlantQueue (index : Nat)
  /-- PRUNE_REGION (R61): A Prune of KIND 7 stops a whole region, or is refused. -/
  | pruneRegion (region : Nat) (signed : Bool)
  /-- PRUNE_KIND_INVALID (R60): A Prune write with KIND 0 or 8 to 15 is refused with RESULT 2. -/
  | pruneKindInvalid (kind : Nat)
  /-- PRUNE_COMPLETE (R490): A running Prune ends on its target and a Prune waiting behind it starts. -/
  | pruneComplete (signed : Bool) (elapsed : Nat) (bound : Bool)
  /-- SLACK_CLEAR (R81): A write of CLR sets LOW of every slack register to 0x7FFF. -/
  | slackClear
  /-- VREC_WINDOW (R82): Each millisecond the core-voltage recommendation is updated from slack and sent. -/
  | vrecWindow
  /-- VREG_READBACK_CHECK (R83): 500 µs after a write the regulator read-back is checked and MODE may drop to 0. -/
  | vregReadbackCheck
  /-- CHECKPOINT (R91): Every 2^c ticks the persistent state is captured as a checkpoint. -/
  | checkpoint
  /-- CHECKPOINT_COPY_DONE (R91): The background copy of a checkpoint completes. -/
  | checkpointCopyDone
  /-- CHECKPOINT_COPY_TIMEOUT (R91): A checkpoint copy not done within 64 ticks is discarded. -/
  | checkpointCopyTimeout
  /-- RECORDING_STOP (R90): Recording stops the set number of ticks after the first miss or class A fault. -/
  | recordingStop
  /-- SYNC_RECEIVED (R99): A Sync of a tracked domain updates its offset and the rate servo. -/
  | syncReceived (domB : Bool) (time : Nat) (rate : Int) (at_ : Nat)
  /-- ANNOUNCE_RECEIVED (R97): An Announce message feeds the best master clock choice of its domain. -/
  | announceReceived (domB : Bool) (gm : GmSet) (at_ : Nat)
  /-- DOMAIN_TIMEOUT (R97): A domain's Announce or Sync timeout expires and it becomes invalid. -/
  | domainTimeout (domB announce : Bool) (at_ : Nat)
  /-- DOMAIN_REVERT (R98): Domain A valid for REVERT seconds makes the device follow A again. -/
  | domainRevert (at_ : Nat)
  /-- PTP_EVENT_FORWARD (R104): A PTP event message is forwarded at its scheduled egress with its residence time added. -/
  | ptpEventForward (port ingress len : Nat) (fcsOk twoStep oneStepPeer : Bool) (m : PtpId) (wireEnd up : Nat)
  /-- TRIGGER_ARM (R110): ARM written 1 takes the pending START and PERIOD and arms a trigger. -/
  | triggerArm (who : Who) (i : Nat) (ctl : Word) (now : Nat)
  /-- TRIGGER_DISARM (R110): ARM written 0 disarms a trigger. -/
  | triggerDisarm (who : Who) (i now : Nat)
  /-- TRIGGER_EDGE (R110): An armed trigger reaches its next instant and drives its active edge. -/
  | triggerEdge (i : Nat)
  /-- TRIGGER_PULSE_END (R110): A trigger pulse returns after WIDTH ns. -/
  | triggerPulseEnd (i : Nat)
  /-- CAPTURE_EDGE (R113): An accepted edge on a capture input is timestamped and queued. -/
  | captureEdge (j tb : Nat) (rise : Bool) (held : Nat)
  /-- CAPTURE_READ (R113): A read of CAPTS0 takes the oldest timestamp from the queue. -/
  | captureRead (j : Nat)
  /-- TIME_CROSS_CHECK (R116): Each millisecond the oscillator periods are counted and checked. -/
  | timeCrossCheck (count : Nat)
  /-- REFERENCE_LOSS (R117): No reference edge for 200 ns stops TB and the tick. -/
  | referenceLoss
  /-- PLL_UNLOCK (R117): The time PLL loses lock, stopping TB and the tick. -/
  | pllUnlock
  /-- RING_SLOT_START (R123): A schedule slot starts and its frame or part is sent or opened. -/
  | ringSlotStart (r slot : Nat)
  /-- SUBSTITUTE_OPEN (R129): The opener's part is late, so the next member opens it with SUBST. -/
  | substituteOpen (r slot : Nat) (ccw : Bool) (at_ : Nat)
  /-- COLLECT_FRAME (R127): A COLLECT frame or part passes a node or reaches the master. -/
  | collectFrame (r : Nat) (ccw : Bool) (at_ : Nat) (h : RingHead) (segs : List UpSeg)
  /-- DISTRIBUTE_FRAME (R128): A DISTRIBUTE frame passes a node, which reads and applies its segment. -/
  | distributeFrame (r : Nat) (ccw : Bool) (at_ : Nat) (h : RingHead) (segs : List DownSeg)
  /-- BEACON_RECEIVED (R136): A beacon is forwarded, followed for time, and its states and entries applied. -/
  | beaconReceived (r : Nat) (ccw : Bool) (at_ egress : Nat) (h : RingHead) (b : Beacon)
  /-- CLAIM (R141): A claim in the join slot is decided by CONFIRM or DENY in the next beacon. -/
  | claim (r : Nat) (ccw : Bool) (at_ : Nat) (h : RingHead) (m : ClaimMsg)
  /-- CLAIM_RETRY (R142): A claimant that saw no answer retries after its backoff. -/
  | claimRetry (r at_ : Nat)
  /-- PROBE (R135): A probe or probe answer is exchanged and the link delay updated. -/
  | probe (r : Nat) (ccw : Bool) (at_ : Nat) (h : RingHead) (m : ProbeMsg)
  /-- ACYCLIC_FRAME (R134): A received acyclic frame goes to its core mailbox. -/
  | acyclicFrame (r : Nat) (ccw : Bool) (at_ : Nat) (h : RingHead) (data : List Byte)
  /-- HEARTBEAT_FRAME (R435): A heartbeat frame of the peer arrives in its ring 0 slot. -/
  | heartbeatFrame (ccw : Bool) (at_ : Nat) (h : RingHead) (m : Heartbeat)
  /-- PORT_DOWN (R144): A ring port loses synchronisation and returns frames at the break. -/
  | portDown (r : Nat) (ccw : Bool)
  /-- PORT_UP (R147): A broken ring link comes back and is probed for restoration. -/
  | portUp (r : Nat) (ccw : Bool)
  /-- LINK_STABLE_TIMER (R147): A link that broke again soon after restoration has stayed up for 10 s. -/
  | linkStableTimer (r : Nat)
  /-- GUARDIAN_SILENCE (R138): Three consecutive out-of-window cycles silence a node. -/
  | guardianSilence (r node : Nat)
  /-- BEACON_LOSS (R139): No valid beacon for 8 cycles makes a node silence itself. -/
  | beaconLoss (r : Nat)
  /-- REJOIN_CLAIM (R140): A silenced node in sync for 16 beacons sends a TYPE 2 claim. -/
  | rejoinClaim (r at_ : Nat)
  /-- SPARE_RELEASE (R143): A spare whose node has been silent for 32 ticks becomes free. -/
  | spareRelease (r node : Nat)
  /-- COLD_START (R148): A master-capable device hearing no frame for its quiet time starts the ring. -/
  | coldStart (r at_ : Nat)
  /-- OWN_BEACON_RETURN (R149): The starter's own beacon returns and the ring passes to MEASURE. -/
  | ownBeaconReturn (r : Nat) (ccw : Bool) (at_ : Nat) (h : RingHead) (b : Beacon)
  /-- MEASURE_DONE (R149): 16 probe rounds end MEASURE, to PRE-RUN or RING_RTT_LONG. -/
  | measureDone (r : Nat)
  /-- RING_START (R108): COUNT reaches 0 at T_start and the ring starts with TICKNO 0 and a new run nonce. -/
  | ringStart (nonce : Nat)
  /-- NODE_DL_LOST (R151): A node-mode device without a used downlink beyond DLLIM removes torque. -/
  | nodeDlLost
  /-- QUAD_EDGE (R155): A filtered encoder edge is counted, or a simultaneous edge is a quadrature error. -/
  | quadEdge (c : Nat) (x : ChanSample)
  /-- WIRE_FAULT (R154): Both wires of a pair at one level too long declare the feedback faulty. -/
  | wireFault (c pair samples : Nat)
  /-- AXIO_CONDITION_CLEAR (R154): WIRE or AMP returns to 0 after 1 ms of good signals. -/
  | axioConditionClear (c : Nat) (ampCond : Bool) (held : Nat)
  /-- FEEDBACK_FAULT_CLEAR (R157): A write of 1 to FAULT clears it unless a holding condition applies. -/
  | feedbackFaultClear (c : Nat)
  /-- INDEX_EVENT (R161): A rising index edge latches the multi-turn count. -/
  | indexEvent (c held : Nat)
  /-- SINCOS_AMP_FAULT (R177): The Lissajous radius out of limits for 8 conversions declares the feedback faulty. -/
  | sincosAmpFault (c : Nat)
  /-- COMPARE_ARM (R163): ARM written 1 arms the compare unit and judges BEHIND. -/
  | compareArm (c cdir : Nat) (passed : Bool)
  /-- COMPARE_DISARM (R164): ARM written 0 disarms the compare unit. -/
  | compareDisarm (c : Nat)
  /-- COMPARE_FIRE (R162): A crossing in an armed direction drives AXn_CMP and clears ARM. -/
  | compareFire (c : Nat)
  /-- LIMIT_INPUT_CHANGE (R166): A limit or home input's debounced level changes. -/
  | limitInputChange (c input : Nat) (level : Bool) (held at_ : Nat)
  /-- HOMING_START (R169): GO written 1 starts homing of a channel, or is refused. -/
  | homingStart (c : Nat)
  /-- HOME_TARGET_EDGE (R170): The target edge or index latches the count during homing. -/
  | homeTargetEdge (c : Nat) (index : Bool)
  /-- HOMING_NO_INDEX (R169): No index within CPR + 4 counts fails homing. -/
  | homingNoIndex (c : Nat)
  /-- HOMING_COMPLETE (R170): After standstill the homing offset is set and REFD is set. -/
  | homingComplete (c : Nat)
  /-- STALL_DETECT (R175): A stall check trips and SS1-r is decided for the group. -/
  | stallDetect (c : Nat)
  /-- NOP (R189): No operation. -/
  | sNop (b s : Nat)
  /-- LDI (R189): Load a sign-extended immediate. -/
  | sLdi (b s : Nat) (rd : Fin 8) (imm : BitVec 23)
  /-- MOV (R189): Copy a data register. -/
  | sMov (b s : Nat) (rd rs : Fin 8)
  /-- LD (R189): Load a data-memory word. -/
  | sLd (b s : Nat) (rd : Fin 8) (pn am : Fin 4) (off : BitVec 12)
  /-- ST (R189): Store a register to data memory. -/
  | sSt (b s : Nat) (rd : Fin 8) (pn am : Fin 4) (off : BitVec 12)
  /-- MTC (R189): Write a control register. -/
  | sMtc (b s : Nat) (rd : Fin 8) (cr : Fin 32)
  /-- MFC (R189): Read a control register. -/
  | sMfc (b s : Nat) (rd : Fin 8) (cr : Fin 32)
  /-- LDC (R189): Load a control register with an immediate. -/
  | sLdc (b s : Nat) (cr : Fin 32) (imm : BitVec 16)
  /-- MODP (R185): Post-modify a pointer by an immediate step. -/
  | sModp (b s : Nat) (pn : Fin 4) (imm : BitVec 12)
  /-- WAIT_FB (R200): Wait for the feedback release and update the axis windows. -/
  | sWaitFb (b s : Nat)
  /-- WAIT_FF (R200): Wait for the feedforward release and update the axis windows. -/
  | sWaitFf (b s : Nat)
  /-- OUT (R198): Hand over the output words of the tick. -/
  | sOut (b s : Nat)
  /-- SPARE_SELFTEST_DONE (R204): The short self-test after a divergence ends and decides the outcome. -/
  | spareSelftestDone (b : Nat) (ok : Bool)
  /-- END (R200): End the tick's program. -/
  | sEnd (b s : Nat)
  /-- RTE (R192): Return from an event handler. -/
  | sRte (b s : Nat)
  /-- ADD (R189): Add two registers. -/
  | sAdd (b s : Nat) (rd rs rt : Fin 8)
  /-- SUB (R189): Subtract two registers. -/
  | sSub (b s : Nat) (rd rs rt : Fin 8)
  /-- ADDS (R189): Add with saturation. -/
  | sAdds (b s : Nat) (rd rs rt : Fin 8)
  /-- SUBS (R189): Subtract with saturation. -/
  | sSubs (b s : Nat) (rd rs rt : Fin 8)
  /-- ADDI (R189): Add an immediate. -/
  | sAddi (b s : Nat) (rd rs : Fin 8) (imm : BitVec 14)
  /-- NEG (R189): Negate with saturation. -/
  | sNeg (b s : Nat) (rd rs : Fin 8)
  /-- ABS (R189): Absolute value with saturation. -/
  | sAbs (b s : Nat) (rd rs : Fin 8)
  /-- AND (R189): Bitwise and. -/
  | sAnd (b s : Nat) (rd rs rt : Fin 8)
  /-- OR (R189): Bitwise or. -/
  | sOr (b s : Nat) (rd rs rt : Fin 8)
  /-- XOR (R189): Bitwise exclusive or. -/
  | sXor (b s : Nat) (rd rs rt : Fin 8)
  /-- SHL (R189): Shift left. -/
  | sShl (b s : Nat) (rd rs : Fin 8) (sh : Fin 32)
  /-- SHRA (R189): Arithmetic shift right. -/
  | sShra (b s : Nat) (rd rs : Fin 8) (sh : Fin 32)
  /-- SHRL (R189): Logical shift right. -/
  | sShrl (b s : Nat) (rd rs : Fin 8) (sh : Fin 32)
  /-- MIN (R189): Signed minimum. -/
  | sMin (b s : Nat) (rd rs rt : Fin 8)
  /-- MAX (R189): Signed maximum. -/
  | sMax (b s : Nat) (rd rs rt : Fin 8)
  /-- CMP (R189): Compare two registers and set N and Z. -/
  | sCmp (b s : Nat) (rs rt : Fin 8)
  /-- CMPI (R189): Compare with an immediate and set N and Z. -/
  | sCmpi (b s : Nat) (rs : Fin 8) (imm : BitVec 14)
  /-- CLIP (R189): Limit a register to a symmetric bound. -/
  | sClip (b s : Nat) (rd rs rt : Fin 8)
  /-- MPY (R181): Multiply into an accumulator. -/
  | sMpy (b s : Nat) (ax : Fin 2) (rs rt : Fin 8)
  /-- MAC (R181): Multiply and accumulate. -/
  | sMac (b s : Nat) (ax : Fin 2) (rs rt : Fin 8)
  /-- MSU (R181): Multiply and subtract from an accumulator. -/
  | sMsu (b s : Nat) (ax : Fin 2) (rs rt : Fin 8)
  /-- MACL (R189): Multiply-accumulate with a parallel load. -/
  | sMacl (b s : Nat) (ax : Fin 2) (rs rt rl : Fin 8) (pn : Fin 4) (amm : Bool)
  /-- MSUL (R189): Multiply-subtract with a parallel load. -/
  | sMsul (b s : Nat) (ax : Fin 2) (rs rt rl : Fin 8) (pn : Fin 4) (amm : Bool)
  /-- LDA (R189): Load an accumulator from a shifted register. -/
  | sLda (b s : Nat) (ax : Fin 2) (rs : Fin 8) (sh : Fin 32)
  /-- ADDA (R189): Add a shifted register to an accumulator. -/
  | sAdda (b s : Nat) (ax : Fin 2) (rs : Fin 8) (sh : Fin 32)
  /-- MOVR (R182): Round and store an accumulator into a register. -/
  | sMovr (b s : Nat) (ax : Fin 2) (rd : Fin 8) (sh : Fin 32) (sat : Bool)
  /-- STR (R182): Round and store an accumulator to data memory. -/
  | sStr (b s : Nat) (ax : Fin 2) (pn : Fin 4) (amm : Bool) (sh : Fin 32) (sat : Bool)
  /-- SHA (R189): Shift an accumulator. -/
  | sSha (b s : Nat) (ax : Fin 2) (sh : Fin 32) (right : Bool)
  /-- CLRA (R189): Clear an accumulator. -/
  | sClra (b s : Nat) (ax : Fin 2)
  /-- MFA (R189): Read part of an accumulator. -/
  | sMfa (b s : Nat) (ax : Fin 2) (rd : Fin 8) (part : Fin 4)
  /-- MTA (R189): Write part of an accumulator. -/
  | sMta (b s : Nat) (ax : Fin 2) (rd : Fin 8) (part : Fin 4)
  /-- B (R189): Conditional branch with one delay slot. -/
  | sB (b s : Nat) (cond : Fin 16) (target : BitVec 11)
  /-- JMP (R189): Jump with one delay slot. -/
  | sJmp (b s : Nat) (target : BitVec 11)
  /-- CALL (R189): Call a subroutine, saving the return address. -/
  | sCall (b s : Nat) (target : BitVec 11)
  /-- RET (R189): Return to LR after the delay slot. -/
  | sRet (b s : Nat)
  /-- LOOPI (R191): Start a hardware loop with an immediate count. -/
  | sLoopi (b s : Nat) (k : Fin 2) (endA : BitVec 11) (count : BitVec 14)
  /-- LOOPR (R191): Start a hardware loop with a register count. -/
  | sLoopr (b s : Nat) (k : Fin 2) (endA : BitVec 11) (rs : Fin 8)
  /-- ILLEGAL_OPERATION (R194): An illegal instruction enters its handler and makes a slice fault. -/
  | illegalOperation (b s : Nat) (w : Word)
  /-- TICK_ABORT (R201): A slice not at END by the END limit takes a tick abort. -/
  | tickAbort (b s : Nat)
  /-- TICK_ABORT_OVERRUN (R201): The tick-abort handler not at END by the period minus 0.25 µs stops the slice. -/
  | tickAbortOverrun (b s : Nat)
  /-- DELTA_COMMIT (R257): A write to SOL.DELTA1 commits a delta packet to the pending copy, or discards it. -/
  | deltaCommit (v : Word)
  /-- PROBLEM_ENABLE_WRITE (R260): A write of PCTL.EN changes dispatch from the next gate. -/
  | problemEnableWrite (p : Nat) (en : Bool)
  /-- PROBLEM_CLEAR_LOST (R259): A write of CLR clears LOST at the next gate. -/
  | problemClearLost (p : Nat)
  /-- ZONE_FREEZE (R293): FRZ written 1 stops grants of a zone and drains it. -/
  | zoneFreeze (z : Nat)
  /-- ZONE_UNFREEZE (R293): FRZ written 0 lets the next decision choose among requests. -/
  | zoneUnfreeze (z : Nat)
  /-- ENQUEUE (R360): A write to ENQ7 commits a work item, accepted or refused. -/
  | enqueue (c now : Nat)
  /-- TIMER_ENQUEUE (R358): A timer flow's period instant enqueues an item. -/
  | timerEnqueue (f m : Nat)
  /-- BOUND_ENQUEUE (R358): A bound event or non-empty queue enqueues an item of a bound flow. -/
  | boundEnqueue (f now : Nat)
  /-- ITEM_RELEASE_TIME (R362): An item's release time passes and the scheduler decides. -/
  | itemReleaseTime (h now : Nat)
  /-- ITEM_DONE (R364): A write to CDONE ends the core's item and frees the core. -/
  | itemDone (c now : Nat)
  /-- TL_OUTPUT_COPY_DONE (R371): A tick-locked item's output buffer copy to shared SRAM completes. -/
  | tlOutputCopyDone (f now : Nat)
  /-- ITEM_OVERRUN (R365): An item running beyond MAXRUN is ended. -/
  | itemOverrun (c now : Nat)
  /-- ITEM_DEADLINE (R365): An ordinary item's deadline passes and MISSACT applies. -/
  | itemDeadline (h now : Nat)
  /-- CORE_TRAP (R355): A trap during an item enters mtvec, or ends a tick-locked item. -/
  | coreTrap (c now : Nat)
  /-- FLOW_ENABLE (R359): EN written 1 resumes a flow. -/
  | flowEnable (f now : Nat)
  /-- FLOW_DISABLE (R359): EN written 0 stops dispatch and enqueue of a flow. -/
  | flowDisable (f : Nat)
  /-- PUBLISH_FLIP (R369): FLIP written 1 requests a publish buffer exchange at the next E0. -/
  | publishFlip (b : Nat)
  /-- QUEUE_PUSH (R373): A write to QPUSH pushes the staged entry to a queue, or refuses it. -/
  | queuePush (c q len : Nat)
  /-- QUEUE_ACK (R373): The consumer's write to QACK frees consumed entries. -/
  | queueAck (who : Who) (q n : Nat)
  /-- PLANT_FRAME_RECEIVED (R377): A plant frame is forwarded store-and-forward and possibly taken by the device. -/
  | plantFrameReceived (port len : Nat) (fcsOk dstOwn srcOwn multi supported : Bool) (ptp : Option PtpId)
  /-- ARP_REQUEST (R379): An ARP request for the device's address is answered. -/
  | arpRequest (net : Nat)
  /-- NEIGHBOUR_SOLICITATION (R379): An IPv6 neighbour solicitation for the device is answered. -/
  | neighbourSolicitation (net : Nat)
  /-- ICMP_ECHO_REQUEST (R379): An ICMP echo request is answered within its rate limit. -/
  | icmpEchoRequest (net now : Nat)
  /-- UDP_MAILBOX (R379): Other UDP to the device goes to its mailbox or is discarded. -/
  | udpMailbox (net : Nat) (data : List Byte)
  /-- PLANT_LINK_DOWN (R376): A plant port loses its link. -/
  | plantLinkDown (port : Nat)
  /-- PLANT_LINK_UP (R376): A plant port gains its link. -/
  | plantLinkUp (port : Nat)
  /-- COMMAND_DATAGRAM (R383): A datagram reaches CMDPORT or the pendant and passes stage 1 or is refused. -/
  | commandDatagram (net : Net) (d : Datagram) (now : Nat)
  /-- VERIFICATION_DONE (R383): A command's signature verification ends and the command is held or refused. -/
  | verificationDone (now : Nat)
  /-- QUERY (R394): Reply with run nonce, time, key sequences, identity and image data. -/
  | query (o : Origin)
  /-- SEGMENT (R218): Enter 1 to 4 segments into a group's queue, all or none. -/
  | segment (o : Origin) (g : Nat) (segs : List Segment)
  /-- FLUSH (R219): Empty the motion queues of the masked groups. -/
  | flush (o : Origin) (m : Mask)
  /-- HALT (R219): Halt the masked groups along their paths. -/
  | halt (o : Origin) (m : Mask)
  /-- RESUME (R219): Resume the masked HALTED groups. -/
  | resume (o : Origin) (m : Mask)
  /-- ENABLE (R233): Enable the masked groups for motion. -/
  | enable (o : Origin) (m : Mask)
  /-- DISABLE (R393): Pass IDLE or HALTED masked groups to DISABLED. -/
  | disable (o : Origin) (m : Mask)
  /-- OVERRIDE (R393): Write the override scale of the masked groups. -/
  | override_ (o : Origin) (m : Mask) (ovr : Nat)
  /-- HOME (R213): Start homing of an AXIO or ring axis. -/
  | home (o : Origin) (a : Nat)
  /-- ZONE_RELEASE (R292): Release a held zone while no body of the group intrudes. -/
  | zoneRelease (o : Origin) (g z : Nat)
  /-- SLICE_PARAM (R199): Replace a slice's parameter window at E0 of the release tick. -/
  | sliceParam (o : Origin) (b s : Nat) (ws : List (BitVec 24))
  /-- STOP (R307): Decide SS1-r for the masked groups with cause stop command. -/
  | stop (o : Origin) (m : Mask)
  /-- ACK (R315): Write SAF.ACK to acknowledge the masked groups. -/
  | ack (o : Origin) (m : Mask)
  /-- MODE (R346): Change the operating mode, or refuse. -/
  | mode (o : Origin) (m : Nat)
  /-- CONFIRM (R332): Confirm the safety check value and write the confirmation record. -/
  | confirm (o : Origin) (v : Word)
  /-- CONFIRMATION_WRITE_DONE (R332): The confirmation record write and read-back complete, setting MATCH or failing. -/
  | confirmationWriteDone (ok : Bool)
  /-- FLOWMSG (R393): Deliver a body to a tick-locked flow's SKIND 6 snapshot. -/
  | flowmsg (o : Origin) (f : Nat) (data : List Byte)
  /-- MAILBOX (R393): Push data as an entry of a mailbox queue. -/
  | mailbox (o : Origin) (q : Nat) (data : List Byte)
  /-- TRIGGER (R393): Write a trigger's words and arm or disarm it. -/
  | trigger (o : Origin) (i : Nat) (w : TrigWords)
  /-- PRUNE (R397): Run the signed-command Prune channel on a target. -/
  | prune (o : Origin) (kind region index : Nat)
  /-- IMAGE_ERASE (R395): Erase a range of the inactive image slot. -/
  | imageErase (o : Origin) (ofs len : Nat)
  /-- IMAGE_WRITE (R395): Program and read back data in the inactive image slot. -/
  | imageWrite (o : Origin) (ofs : Nat) (data : List Byte)
  /-- FLASH_OP_DONE (R395): A flash erase or program completes or fails and the reply is sent. -/
  | flashOpDone (result : Nat)
  /-- READ (R393): Reply with data from DRAM or shared SRAM. -/
  | read (o : Origin) (addr len : Nat)
  /-- RESET_DEVICE (R396): RESET Kind 0x01 resets the device after its reply leaves. -/
  | resetDevice (o : Origin)
  /-- RESET_BEGIN (R396): The reset begins at the first E0 after the reply has left every port. -/
  | resetBegin
  /-- RESET_PARK (R417): RESET Kind 0x02 enters PARK. -/
  | resetPark (o : Origin)
  /-- RESET_DOZE (R418): RESET Kind 0x03 enters DOZE. -/
  | resetDoze (o : Origin)
  /-- RESET_RUN (R416): RESET Kind 0x04 returns to RUN. -/
  | resetRun (o : Origin)
  /-- RESET_REGION_RESTART (R415): RESET Kind 0x83 to 0x89 restarts one region. -/
  | resetRegionRestart (o : Origin) (kind : Nat)
  /-- SWITCHBACK (R438): Start a planned handover to the standby. -/
  | switchback (o : Origin)
  /-- POWER_ON_RESET (R412): PORST_N low resets the whole device, TIME included. -/
  | powerOnReset (flash : Option Flash)
  /-- EXTERNAL_RESET (R412): RESET_N low resets the device while TB keeps counting. -/
  | externalReset (flash : Option Flash)
  /-- SUPPLY_MONITOR_RESET (R459): A rail below its threshold or Tj above 125 °C holds a power-on reset. -/
  | supplyMonitorReset
  /-- START_SEQUENCE (R409): Release of reset runs the start sequence from step 1. -/
  | startSequence (pairId : Bool) (failed : List (Region × Nat × Nat)) (vio : List Bool)
  /-- TLOCKWAIT_EXPIRY (R411): The time-lock wait expires and the ring starts without lock. -/
  | tlockwaitExpiry
  /-- WDOG_KICK (R413): A write to WDOG.KICK restarts the chip watchdog period. -/
  | wdogKick (v : BitVec 8)
  /-- WDOG_EXPIRY (R413): The watchdog period passes without a kick and the device escalates. -/
  | wdogExpiry
  /-- WDOG_RESET (R413): The watchdog reset takes place at the first E0 with all groups stopped, or after 60 s. -/
  | wdogReset
  /-- REGION_RESTART (R415): A write of RRST.GO requests a region restart, performed or refused. -/
  | regionRestart (region : Nat)
  /-- REGION_RESTART_DONE (R415): A region restart completes with the region running. -/
  | regionRestartDone
  /-- BLACKBOX_PROGRAMMED (R481): Programming of a waiting black-box record into flash completes. -/
  | blackboxProgrammed (ok : Bool)
  /-- INPUT_FRAME_SEND (R428): At 0.1 µs the active sends the INPUT frame of the tick. -/
  | inputFrameSend
  /-- INPUT_FRAME_RECEIVED (R429): The standby receives the INPUT frame of a tick. -/
  | inputFrameReceived (f : InputFrame)
  /-- FEED_DEADLINE (R429): At 4.5 µs the standby judges the tick fed or unfed. -/
  | feedDeadline
  /-- FORWARD_FRAME (R430): A command datagram forwarded by the active reaches the standby. -/
  | forwardFrame (d : Datagram) (now : Nat)
  /-- STATUS_FRAME_SEND (R434): At 20.0 µs the standby sends its STATUS frame. -/
  | statusFrameSend
  /-- STATUS_FRAME_RECEIVED (R434): The active records the standby's STATUS. -/
  | statusFrameReceived (at_ : Nat) (f : StatusFrame)
  /-- HEARTBEAT_COUNT (R435): At the end of the heartbeat slots the paths are judged and the loss count advanced. -/
  | heartbeatCount
  /-- TAKEOVER (R437): A fit standby whose loss count reached HBN becomes active at the next E0. -/
  | takeover
  /-- HANDOVER (R438): At HOTICK the acknowledged planned handover moves the active role. -/
  | handover
  /-- STANDBY_FIT_TIMEOUT (R434): A standby not fit within 10 s of ring start is a class B condition at the active. -/
  | standbyFitTimeout
  /-- STANDBY_SELFTEST_ROUND (R436): A standby's rotating self-test round ends, passing or latching UNFIT 2. -/
  | standbySelftestRound (ok : Bool)
  /-- HEALTH_REPORT (R441): Every 100 ms the standby sends a signed health report. -/
  | healthReport
  /-- PAIR_VOTE_READBACK (R425): PAIR_VOTE is read back after a change and each tick and checked. -/
  | pairVoteReadback (level : Bool)
  /-- TEST_MODE_ENTRY (R485): A valid test token at power-on blows the OPENED fuse and enters a test mode. -/
  | testModeEntry (tokenOk : Bool)
  /-- CROSSING_RESPONSE (R55): The clocked side delivers the response to a crossing access that is still pending, completing it. -/
  | crossingResponse (id : Nat) (v : Word) (ecc : Ecc)
  /-- REGION_UNIT_FAULT (R40): A region-level unit such as the trajectory generator, geometry table, zone arbiter, scheduler, crypto engine or delta gate faults and is handled as a block loss. -/
  | regionUnitFault (unit : RegionUnit)
  /-- INTERCONNECT_PARITY_ERROR (R47): A parity error on the chip interconnect raises CHIP_IC_PARITY and escalates to chip level under R46. -/
  | interconnectParityError
  /-- PLANT_TRANSMIT_DONE (R378): A frame finishes leaving a plant port, and at that frame boundary the port takes the next PTP event, device-queue or forwarding-queue frame. -/
  | plantTransmitDone (port : Nat)
  /-- PEER_VOTE_CHANGE (R435): The peer's PAIR_VOTE changes level on PAIR_PVOTE. -/
  | peerVoteChange (level : Bool)
  /-- COMPARE_PULSE_END (R162): AXn_CMP returns inactive WIDTH ns after the compare unit fired. -/
  | comparePulseEnd (c : Nat)
  /-- STEP_PULSE_END (R171): A step pulse on AXn_STEP ends after STEPW × 5 ns. -/
  | stepPulseEnd (c : Nat)
  /-- RECORDING_RESTART (R419): After a watchdog or escalation reset, recording restarts RECHOLD seconds after ring start. -/
  | recordingRestart
  /-- TEMPERATURE_MONITOR_CLEAR (R302): Tj falls back to or below 105 °C and the temperature class B condition ends. -/
  | temperatureMonitorClear (tj : Nat)
  /-- SPARE_FULL_SELFTEST_DONE (R202): The rotating spare's full self-test at r = 8 ends, passing or failing the spare. -/
  | spareFullSelftestDone (b : Nat) (ok : Bool)
  /-- VREG_TRANSACTION_DONE (R83): An AVSBus or PMBus transaction to the regulator ends, clearing PEND, and a bus error sets MODE to 0. -/
  | vregTransactionDone (ok : Bool) (data : Nat)
  /-- HEALTH_REPORT_RECEIVED (R441): The active receives the standby's health report and places it in HMBOX and CHIP.PAIRHLTH. -/
  | healthReportReceived (h : HealthReport)
  deriving DecidableEq, Repr, Inhabited

end Sys2Proof
end

