-- ==== Sys2Proof/WellFormed.lean ====
section
/-! DEFINITION. WellFormed.lean: the commands whose operands lie in the ranges the manual gives the units they name: blocks and
slices, rings and nodes, channels, axes, groups, problems, zones, flows, handles, queues, ports and arbiters. -/

namespace Sys2Proof

/-- Every operand of a command names something the largest part has. -/
def Instr.wf (i : Instr) : Bool :=
  match i with
  | .tickEdge _ _ => true
  | .zoneArbiterDecision => true
  | .phaseCompletion p _ _ => p < 10
  | .phaseDeadline p => p < 10
  | .feedbackDeadline => true
  | .feedbackNullLimit _ => true
  | .deltaGate => true
  | .solverJobDone p => p < 256
  | .anytimeStop p _ => p < 256
  | .solverRelease => true
  | .solverMissLimit p => p < 256
  | .pairBatchDone _ _ => true
  | .objectStale j => j < 32
  | .safDecision _ => true
  | .stoLineSwitch => true
  | .setpointRelease => true
  | .stepPulse c => c < 32
  | .enableComplete g => g < 16
  | .syncTimeout g => g < 16
  | .remoteHomeTimeout a => a < 128
  | .standstill g => g < 16
  | .ss1Timeout g => g < 16
  | .autoRestart g => g < 16
  | .degradedExpiry g => g < 16
  | .stoRefresh _ => true
  | .refreshTimeout => true
  | .flowSignatureCheck _ _ => true
  | .stoReadback _ => true
  | .voltageMonitorTrip vcore => vcore < 256
  | .temperatureMonitorTrip tj => tj < 256
  | .testPulse tpo _ _ => tpo < 4
  | .safetyInputChange line _ _ _ => line < 16
  | .inputDiscrepancy line => line < 16
  | .pduCopyReceived _ _ => true
  | .pduCompareWindowExpiry p => p < 16
  | .pduWatchdog p _ => p < 16
  | .pendantPresent => true
  | .pendantAbsent => true
  | .withdrawRequest => true
  | .bridgeExpiry => true
  | .toolIdentity g _ => g < 16
  | .toolCheckTimeout g => g < 16
  | .sliceFault _ b sl cause => b < 16 && sl < 16 && (cause == 0 || cause == 4 || cause == 5)
  | .quarantinedAccess _ b => b < 16
  | .absentUnitAccess _ _ => true
  | .accessSizeError _ _ _ _ => true
  | .decodeError _ _ => true
  | .registerWrite _ _ _ => true
  | .wideRegisterRead _ _ => true
  | .lockRequest n id => n < 20 && id < 64
  | .grantRequest n id _ => n < 20 && id < 64
  | .lockRelease n id => n < 20 && id < 64
  | .arbiterDecision n => n < 20
  | .lockTimeout n => n < 20
  | .arbFreeze n => n < 20
  | .arbUnfreeze n => n < 20
  | .crossingAccess id _ dom _ => id < 64 && dom < 7
  | .crossingWatchdog id => id < 64
  | .crossingLateResponse id dom => id < 64 && dom < 7
  | .pruneSolverJob index => index < 256
  | .pruneTrellisBatch index => index < 65536
  | .pruneWorkItem index => index < 4096
  | .pruneFlow index => index < 1024
  | .pruneCrossingAccess index => index < 64
  | .prunePlantQueue index => index < 8
  | .pruneRegion region _ => region < 256
  | .pruneKindInvalid kind => kind < 16
  | .pruneComplete _ _ _ => true
  | .slackClear => true
  | .vrecWindow => true
  | .vregReadbackCheck => true
  | .checkpoint => true
  | .checkpointCopyDone => true
  | .checkpointCopyTimeout => true
  | .recordingStop => true
  | .syncReceived _ _ _ _ => true
  | .announceReceived _ _ _ => true
  | .domainTimeout _ _ _ => true
  | .domainRevert _ => true
  | .ptpEventForward port _ _ _ _ _ _ _ _ => port < 4
  | .triggerArm _ i _ _ => i < 4
  | .triggerDisarm _ i _ => i < 4
  | .triggerEdge i => i < 4
  | .triggerPulseEnd i => i < 4
  | .captureEdge j _ _ _ => j < 4
  | .captureRead j => j < 4
  | .timeCrossCheck _ => true
  | .referenceLoss => true
  | .pllUnlock => true
  | .ringSlotStart r slot => r < 2 && slot < 256
  | .substituteOpen r slot _ _ => r < 2 && slot < 256
  | .collectFrame r _ _ h _ => r < 2 && h.slot < 256
  | .distributeFrame r _ _ _ _ => r < 2
  | .beaconReceived r _ _ _ _ _ => r < 2
  | .claim r _ _ _ _ => r < 2
  | .claimRetry r _ => r < 2
  | .probe r _ _ _ _ => r < 2
  | .acyclicFrame r _ _ _ data => r < 2 && data.length ≤ 1472
  | .heartbeatFrame _ _ _ _ => true
  | .portDown r _ => r < 3
  | .portUp r _ => r < 3
  | .linkStableTimer r => r < 2
  | .guardianSilence r node => r < 2 && node < 32
  | .beaconLoss r => r < 2
  | .rejoinClaim r _ => r < 2
  | .spareRelease r node => r < 2 && node < 32
  | .coldStart r _ => r < 2
  | .ownBeaconReturn r _ _ _ _ => r < 2
  | .measureDone r => r < 2
  | .ringStart _ => true
  | .nodeDlLost => true
  | .quadEdge c _ => c < 32
  | .wireFault c _ _ => c < 32
  | .axioConditionClear c _ _ => c < 32
  | .feedbackFaultClear c => c < 32
  | .indexEvent c _ => c < 32
  | .sincosAmpFault c => c < 32
  | .compareArm c cdir _ => c < 32 && cdir < 4
  | .compareDisarm c => c < 32
  | .compareFire c => c < 32
  | .limitInputChange c input _ _ _ => c < 32 && input < 3
  | .homingStart c => c < 32
  | .homeTargetEdge c _ => c < 32
  | .homingNoIndex c => c < 32
  | .homingComplete c => c < 32
  | .stallDetect c => c < 32
  | .sNop b s => b < 8 && s < 9
  | .sLdi b s _ _ => b < 8 && s < 9
  | .sMov b s _ _ => b < 8 && s < 9
  | .sLd b s _ _ _ _ => b < 8 && s < 9
  | .sSt b s _ _ _ _ => b < 8 && s < 9
  | .sMtc b s _ _ => b < 8 && s < 9
  | .sMfc b s _ _ => b < 8 && s < 9
  | .sLdc b s _ _ => b < 8 && s < 9
  | .sModp b s _ _ => b < 8 && s < 9
  | .sWaitFb b s => b < 8 && s < 9
  | .sWaitFf b s => b < 8 && s < 9
  | .sOut b s => b < 8 && s < 9
  | .spareSelftestDone b _ => b < 8
  | .sEnd b s => b < 8 && s < 9
  | .sRte b s => b < 8 && s < 9
  | .sAdd b s _ _ _ => b < 8 && s < 9
  | .sSub b s _ _ _ => b < 8 && s < 9
  | .sAdds b s _ _ _ => b < 8 && s < 9
  | .sSubs b s _ _ _ => b < 8 && s < 9
  | .sAddi b s _ _ _ => b < 8 && s < 9
  | .sNeg b s _ _ => b < 8 && s < 9
  | .sAbs b s _ _ => b < 8 && s < 9
  | .sAnd b s _ _ _ => b < 8 && s < 9
  | .sOr b s _ _ _ => b < 8 && s < 9
  | .sXor b s _ _ _ => b < 8 && s < 9
  | .sShl b s _ _ _ => b < 8 && s < 9
  | .sShra b s _ _ _ => b < 8 && s < 9
  | .sShrl b s _ _ _ => b < 8 && s < 9
  | .sMin b s _ _ _ => b < 8 && s < 9
  | .sMax b s _ _ _ => b < 8 && s < 9
  | .sCmp b s _ _ => b < 8 && s < 9
  | .sCmpi b s _ _ => b < 8 && s < 9
  | .sClip b s _ _ _ => b < 8 && s < 9
  | .sMpy b s _ _ _ => b < 8 && s < 9
  | .sMac b s _ _ _ => b < 8 && s < 9
  | .sMsu b s _ _ _ => b < 8 && s < 9
  | .sMacl b s _ _ _ _ _ _ => b < 8 && s < 9
  | .sMsul b s _ _ _ _ _ _ => b < 8 && s < 9
  | .sLda b s _ _ _ => b < 8 && s < 9
  | .sAdda b s _ _ _ => b < 8 && s < 9
  | .sMovr b s _ _ _ _ => b < 8 && s < 9
  | .sStr b s _ _ _ _ _ => b < 8 && s < 9
  | .sSha b s _ _ _ => b < 8 && s < 9
  | .sClra b s _ => b < 8 && s < 9
  | .sMfa b s _ _ _ => b < 8 && s < 9
  | .sMta b s _ _ _ => b < 8 && s < 9
  | .sB b s _ _ => b < 8 && s < 9
  | .sJmp b s _ => b < 8 && s < 9
  | .sCall b s _ => b < 8 && s < 9
  | .sRet b s => b < 8 && s < 9
  | .sLoopi b s _ _ _ => b < 8 && s < 9
  | .sLoopr b s _ _ _ => b < 8 && s < 9
  | .illegalOperation b s _ => b < 8 && s < 9
  | .tickAbort b s => b < 8 && s < 9
  | .tickAbortOverrun b s => b < 8 && s < 9
  | .deltaCommit _ => true
  | .problemEnableWrite p _ => p < 256
  | .problemClearLost p => p < 256
  | .zoneFreeze z => z < 256
  | .zoneUnfreeze z => z < 256
  | .enqueue c _ => c < 8
  | .timerEnqueue f _ => f < 1024
  | .boundEnqueue f _ => f < 1024
  | .itemReleaseTime h _ => h < 4096
  | .itemDone c _ => c < 8
  | .tlOutputCopyDone f _ => f < 1024
  | .itemOverrun c _ => c < 8
  | .itemDeadline h _ => h < 4096
  | .coreTrap c _ => c < 8
  | .flowEnable f _ => f < 1024
  | .flowDisable f => f < 1024
  | .publishFlip b => b < 64
  | .queuePush c q len => c < 8 && q < 32 && len < 2048
  | .queueAck _ q n => q < 32 && n < 512
  | .plantFrameReceived port _ _ _ _ _ _ _ => port < 4
  | .arpRequest net => net < 2
  | .neighbourSolicitation net => net < 2
  | .icmpEchoRequest net _ => net < 2
  | .udpMailbox net _ => net < 2
  | .plantLinkDown port => port < 4
  | .plantLinkUp port => port < 4
  | .commandDatagram _ _ _ => true
  | .verificationDone _ => true
  | .query _ => true
  | .segment _ g segs => g < 16 && 1 ≤ segs.length && segs.length ≤ 4
  | .flush _ _ => true
  | .halt _ _ => true
  | .resume _ _ => true
  | .enable _ _ => true
  | .disable _ _ => true
  | .override_ _ _ ovr => ovr < 65536
  | .home _ a => a < 128
  | .zoneRelease _ g z => g < 16 && z < 256
  | .sliceParam _ b s ws => b < 8 && s < 9 && ws.length == 16
  | .stop _ _ => true
  | .ack _ _ => true
  | .mode _ m => m < 256
  | .confirm _ _ => true
  | .confirmationWriteDone _ => true
  | .flowmsg _ f _ => f < 1024
  | .mailbox _ q _ => q < 32
  | .trigger _ i _ => i < 4
  | .prune _ kind region index => kind < 16 && region < 256 && index < 65536
  | .imageErase _ _ _ => true
  | .imageWrite _ _ data => data.length ≤ 1016
  | .flashOpDone _ => true
  | .read _ _ len => len ≤ 1024
  | .resetDevice _ => true
  | .resetBegin => true
  | .resetPark _ => true
  | .resetDoze _ => true
  | .resetRun _ => true
  | .resetRegionRestart _ kind => kind < 256
  | .switchback _ => true
  | .powerOnReset _ => true
  | .externalReset _ => true
  | .supplyMonitorReset => true
  | .startSequence _ _ _ => true
  | .tlockwaitExpiry => true
  | .wdogKick _ => true
  | .wdogExpiry => true
  | .wdogReset => true
  | .regionRestart region => region < 256
  | .regionRestartDone => true
  | .blackboxProgrammed _ => true
  | .inputFrameSend => true
  | .inputFrameReceived _ => true
  | .feedDeadline => true
  | .forwardFrame _ _ => true
  | .statusFrameSend => true
  | .statusFrameReceived _ _ => true
  | .heartbeatCount => true
  | .takeover => true
  | .handover => true
  | .standbyFitTimeout => true
  | .standbySelftestRound _ => true
  | .healthReport => true
  | .pairVoteReadback _ => true
  | .testModeEntry _ => true
  | .crossingResponse id _ _ => id < 64
  | .regionUnitFault _ => true
  | .interconnectParityError => true
  | .plantTransmitDone port => port < 4
  | .peerVoteChange _ => true
  | .comparePulseEnd c => c < 32
  | .stepPulseEnd c => c < 32
  | .recordingRestart => true
  | .temperatureMonitorClear tj => tj < 256
  | .spareFullSelftestDone b _ => b < 8
  | .vregTransactionDone _ _ => true
  | .healthReportReceived _ => true

end Sys2Proof
end

