-- ==== Sys2Proof/Decode.lean ====
section
/-! DEFINITION. Decode.lean: the instruction words of the servo slice (R188, R189), the one family of commands that the spec spells in
bits; a word that spells no instruction is refused with the cause of R194. -/

namespace Sys2Proof

/-- Bits [hi:lo] of an instruction word. -/
def bitsAt (w : BitVec 32) (hi lo : Nat) : Nat := w.toNat / 2 ^ lo % 2 ^ (hi + 1 - lo)

/-- A field of three bits: a data register. -/
def reg3 (w : BitVec 32) (lo : Nat) : Fin 8 := Fin.ofNat 8 (bitsAt w (lo + 2) lo)

/-- A bit field of width n at a position. -/
def fieldAt (n : Nat) (w : BitVec 32) (lo : Nat) : BitVec n := BitVec.ofNat n (w.toNat / 2 ^ lo)

/-- The instruction where the bits a form reserves are 0; CAUSE 2 where one is not (R188, R194). -/
def whenClear (w mask : BitVec 32) (i : Instr) : Except Nat Instr := if w &&& mask = 0 then .ok i else .error 2

/-- As whenClear, with a field whose value may be reserved as well. -/
def whenField (ok : Bool) (w mask : BitVec 32) (i : Instr) : Except Nat Instr :=
  if ok then whenClear w mask i else .error 2

/-- Format R3: RD [25:23], RS [22:20], RT [19:17]. -/
def formR3 (w : BitVec 32) (f : Fin 8 → Fin 8 → Fin 8 → Instr) : Except Nat Instr :=
  whenClear w 0x0001FFFF (f (reg3 w 23) (reg3 w 20) (reg3 w 17))

/-- Format R2: RD [25:23], RS [22:20]. -/
def formR2 (w : BitVec 32) (f : Fin 8 → Fin 8 → Instr) : Except Nat Instr :=
  whenClear w 0x000FFFFF (f (reg3 w 23) (reg3 w 20))

/-- Format RS: RD, RS, SH [19:15]. -/
def formRS (w : BitVec 32) (f : Fin 8 → Fin 8 → Fin 32 → Instr) : Except Nat Instr :=
  whenClear w 0x00007FFF (f (reg3 w 23) (reg3 w 20) (Fin.ofNat 32 (bitsAt w 19 15)))

/-- Format M: RD, PN [22:21], AM [20:19], OFF [11:0]; OFF is unused in AM 1 and 2, PN in AM 3. -/
def formM (w : BitVec 32) (f : Fin 8 → Fin 4 → Fin 4 → BitVec 12 → Instr) : Except Nat Instr :=
  let am := bitsAt w 20 19
  let mask : BitVec 32 := if am = 0 then 0x0007F000 else if am = 3 then 0x0067F000 else 0x0007FFFF
  whenClear w mask (f (reg3 w 23) (Fin.ofNat 4 (bitsAt w 22 21)) (Fin.ofNat 4 am) (fieldAt 12 w 0))

/-- AX [25] of formats A and AP. -/
def axOf (w : BitVec 32) : Fin 2 := Fin.ofNat 2 (bitsAt w 25 25)

/-- SH [12:8] of format A. -/
def shOf (w : BitVec 32) : Fin 32 := Fin.ofNat 32 (bitsAt w 12 8)

/-- PN [15:14] of format A. -/
def pnOf (w : BitVec 32) : Fin 4 := Fin.ofNat 4 (bitsAt w 15 14)

/-- TARGET [21:11] of formats B and J. -/
def targetOf (w : BitVec 32) : BitVec 11 := fieldAt 11 w 11

/-- The moves, the control instructions and the waits: opcodes 0x00 to 0x0C (R189). -/
def decodeMove (b s : Nat) (w : BitVec 32) (op : Nat) : Except Nat Instr :=
  match op with
  | 0x00 => whenClear w 0x03FFFFFF (.sNop b s)
  | 0x01 => .ok (.sLdi b s (reg3 w 23) (fieldAt 23 w 0))
  | 0x02 => formR2 w (.sMov b s)
  | 0x03 => formM w (.sLd b s)
  | 0x04 => formM w (.sSt b s)
  | 0x05 => whenField (bitsAt w 22 18 < 22) w 0x0003FFFF (.sMtc b s (reg3 w 23) (Fin.ofNat 32 (bitsAt w 22 18)))
  | 0x06 => whenField (bitsAt w 22 18 < 22) w 0x0003FFFF (.sMfc b s (reg3 w 23) (Fin.ofNat 32 (bitsAt w 22 18)))
  | 0x07 => whenField (bitsAt w 25 21 < 22) w 0x0000001F (.sLdc b s (Fin.ofNat 32 (bitsAt w 25 21)) (fieldAt 16 w 5))
  | 0x08 => whenClear w 0x00000FFF (.sModp b s (Fin.ofNat 4 (bitsAt w 25 24)) (fieldAt 12 w 12))
  | 0x09 => whenClear w 0x01FFFFFF (if bitsAt w 25 25 = 0 then .sWaitFb b s else .sWaitFf b s)
  | 0x0A => whenClear w 0x03FFFFFF (.sOut b s)
  | 0x0B => whenClear w 0x03FFFFFF (.sEnd b s)
  | 0x0C => whenClear w 0x03FFFFFF (.sRte b s)
  | _ => .error 1

/-- Arithmetic and logic: opcodes 0x10 to 0x21 (R189). -/
def decodeAlu (b s : Nat) (w : BitVec 32) (op : Nat) : Except Nat Instr :=
  match op with
  | 0x10 => formR3 w (.sAdd b s)
  | 0x11 => formR3 w (.sSub b s)
  | 0x12 => formR3 w (.sAdds b s)
  | 0x13 => formR3 w (.sSubs b s)
  | 0x14 => whenClear w 0x0000003F (.sAddi b s (reg3 w 23) (reg3 w 20) (fieldAt 14 w 6))
  | 0x15 => formR2 w (.sNeg b s)
  | 0x16 => formR2 w (.sAbs b s)
  | 0x17 => formR3 w (.sAnd b s)
  | 0x18 => formR3 w (.sOr b s)
  | 0x19 => formR3 w (.sXor b s)
  | 0x1A => formRS w (.sShl b s)
  | 0x1B => formRS w (.sShra b s)
  | 0x1C => formRS w (.sShrl b s)
  | 0x1D => formR3 w (.sMin b s)
  | 0x1E => formR3 w (.sMax b s)
  | 0x1F => whenClear w 0x0381FFFF (.sCmp b s (reg3 w 20) (reg3 w 17))
  | 0x20 => whenClear w 0x0380003F (.sCmpi b s (reg3 w 20) (fieldAt 14 w 6))
  | 0x21 => formR3 w (.sClip b s)
  | _ => .error 1

/-- The accumulator instructions: opcodes 0x28 to 0x34, with the fields of format A that each does not use reserved (R188, R189). -/
def decodeAcc (b s : Nat) (w : BitVec 32) (op : Nat) : Except Nat Instr :=
  let part := bitsAt w 21 20
  match op with
  | 0x28 => whenClear w 0x0007FFFF (.sMpy b s (axOf w) (reg3 w 22) (reg3 w 19))
  | 0x29 => whenClear w 0x0007FFFF (.sMac b s (axOf w) (reg3 w 22) (reg3 w 19))
  | 0x2A => whenClear w 0x0007FFFF (.sMsu b s (axOf w) (reg3 w 22) (reg3 w 19))
  | 0x2B => whenClear w 0x00001FFF (.sMacl b s (axOf w) (reg3 w 22) (reg3 w 19) (reg3 w 16) (pnOf w) (bitsAt w 13 13 = 1))
  | 0x2C => whenClear w 0x00001FFF (.sMsul b s (axOf w) (reg3 w 22) (reg3 w 19) (reg3 w 16) (pnOf w) (bitsAt w 13 13 = 1))
  | 0x2D => whenClear w 0x003FE0FF (.sLda b s (axOf w) (reg3 w 22) (shOf w))
  | 0x2E => whenClear w 0x003FE0FF (.sAdda b s (axOf w) (reg3 w 22) (shOf w))
  | 0x2F => whenClear w 0x003FE07F (.sMovr b s (axOf w) (reg3 w 22) (shOf w) (bitsAt w 7 7 = 1))
  | 0x30 => whenClear w 0x01FF007F (.sStr b s (axOf w) (pnOf w) (bitsAt w 13 13 = 1) (shOf w) (bitsAt w 7 7 = 1))
  | 0x31 => whenClear w 0x01FFE07F (.sSha b s (axOf w) (shOf w) (bitsAt w 7 7 = 1))
  | 0x32 => whenClear w 0x01FFFFFF (.sClra b s (axOf w))
  | 0x33 => whenField (part < 3) w 0x000FFFFF (.sMfa b s (axOf w) (reg3 w 22) (Fin.ofNat 4 part))
  | 0x34 => whenField (part < 3) w 0x000FFFFF (.sMta b s (axOf w) (reg3 w 22) (Fin.ofNat 4 part))
  | _ => .error 1

/-- Transfers and loops: opcodes 0x38 to 0x3D (R189). -/
def decodeJump (b s : Nat) (w : BitVec 32) (op : Nat) : Except Nat Instr :=
  match op with
  | 0x38 => whenField (bitsAt w 25 22 < 7) w 0x000007FF (.sB b s (Fin.ofNat 16 (bitsAt w 25 22)) (targetOf w))
  | 0x39 => whenClear w 0x03C007FF (.sJmp b s (targetOf w))
  | 0x3A => whenClear w 0x03C007FF (.sCall b s (targetOf w))
  | 0x3B => whenClear w 0x03FFFFFF (.sRet b s)
  | 0x3C => .ok (.sLoopi b s (axOf w) (fieldAt 11 w 14) (fieldAt 14 w 0))
  | 0x3D => whenClear w 0x000007FF (.sLoopr b s (axOf w) (fieldAt 11 w 14) (reg3 w 11))
  | _ => .error 1

/-- The instruction that a word spells for slice b.s, or the cause of its illegality: 1 a reserved opcode, 2 a reserved bit or value
(R188, R189, R194). [DESIGN CHOICE, log 130] -/
def sliceDecode (b s : Nat) (w : BitVec 32) : Except Nat Instr :=
  let op := bitsAt w 31 26
  if op < 0x10 then decodeMove b s w op
  else if op < 0x28 then decodeAlu b s w op
  else if op < 0x38 then decodeAcc b s w op
  else decodeJump b s w op

/-- The command that `nbits` bits `w` spell: a word of 32 bits is an instruction of a servo slice, given to slice 0.0; no other row
of the table has bits. [DESIGN CHOICE, log 130] -/
def decodeTableWord (nbits w : Nat) : Option Instr :=
  if nbits = 32 then (match sliceDecode 0 0 (BitVec.ofNat 32 w) with | .ok i => some i | .error _ => none) else none

end Sys2Proof
end

