-- ==== Sys2Proof/Config.lean ====
section
/-! DEFINITION. Config.lean: the free values: results the manual names without fixing their bits. Each is an opaque
constant, so no proof can see a value of it. Assumption log entries name each one. -/

namespace Sys2Proof.Config

/-- A fresh free value of the model, by the counter `State.free`. [DESIGN CHOICE, log 5] -/
opaque freeValue : Nat → BitVec 32

/-- The node status word of an uplink segment (R121), by node number and tick: the manual gives it no fields. [DESIGN CHOICE, log 116] -/
opaque nodeWord : Nat → Nat → BitVec 32

/-- The cap of R228 on the plan of a group at a horizon sample, at scale 1 (R268). [DESIGN CHOICE, log 10] -/
opaque capAhead : PathAt → Nat → F32

/-- Whether the broad phase keeps a pair: two primitives, each with the record that places it, and the threshold (R281). [DEDUCED, log 13] -/
opaque broadKeep : PrimCfg → List F32 → PrimCfg → List F32 → F32 → Bool

/-- What the fixed closest-point method gives for a pair with a box or a swept capsule (R280): two primitives, each with its records
of two ticks. The model takes it only within the bound of the rule. [DEDUCED, log 13] -/
opaque closestPoint : PrimCfg → List F32 → PrimCfg → List F32 → F32

/-- Load angle where no pulse or no voltage constant gives a quotient (R174), from the sample, KE and the pulses. [DESIGN CHOICE, log 14] -/
opaque loadAngle : Int → Nat → Int → Int

/-- The nominal amplitude of a sine/cosine input in ADC units, which the manual does not give (R177). [DESIGN CHOICE, log 14] -/
opaque scNominal : Nat

/-- The start value of the CRC-64 of R87, of which the manual names the polynomial alone. [DESIGN CHOICE, log 15] -/
opaque crc64Start : BitVec 64

/-- The identity public key drawn at the first start (R405), by serial number. [DESIGN CHOICE, log 15] -/
opaque devicePub : BitVec 64 → List Word

/-- Longest dispatch latency of a millisecond in 8 ns units, by the millisecond of TB (R65). [DESIGN CHOICE, log 18] -/
opaque dispatchLatency : Nat → Nat

/-- The image that the bytes of a slot form after the erases and writes of its commands, oldest first, over what it held before. [DESIGN CHOICE, log 100] -/
opaque flashImage : Nat → List FlashEdit → Option Image

/-- The images that its profiles make of it. [DESIGN CHOICE, log 100] -/
opaque flashProfiles : Nat → List FlashEdit → List (Variant × Image)

/-- Which neighbour a sine (true) or cosine of the KDE takes where its exact value is no binary32: the manual bounds the error by
1 ulp and fixes no more (R243). [DESIGN CHOICE, log 11] -/
opaque trigUp : Bool → BitVec 32 → Bool

/-- The joint position at the end of a Cartesian segment that has not run, by group axis index: what the device takes for it at the
entry of an increment behind it (R218). [DESIGN CHOICE, log 10] -/
opaque ikEnd : GroupCfg → List Pos → Segment → Nat → Pos

end Sys2Proof.Config
end

