-- ==== Sys2Proof/Machine/State.lean ====
section
/-! DEFINITION. State.lean: every piece of state the manual gives the device, as plain data, one structure per unit, the
state after reset, and the named reasons a step can stop. -/

namespace Sys2Proof.Machine

/-! ### The chip level: registers, arbiters, crossings, Prune, events, start and power -/

/-- What an access to the address space answered last (R3, R11, R57, R444). -/
inductive Resp where
  | none
  | value (v : Word)
  | done
  | errorToken
  deriving DecidableEq, Repr, Inhabited

/-- One entry of the event log (R453): TB ns, TICKNO[31:0], code and DETAIL of R488. -/
structure EvEntry where
  tb : Nat := 0
  tick : Nat := 0
  code : Nat := 0
  detail : Nat := 0
  deriving DecidableEq, Repr, Inhabited

/-- A region's containment state (R41 to R47): quarantined blocks, retired and faulted slices (16 × b + s), RSTAT facts. -/
structure RegionSt where
  quar : BitVec 16 := 0
  retired : List Nat := []
  faulted : List Nat := []
  pruned : Bool := false
  escalated : Bool := false
  restarting : Bool := false
  deriving DecidableEq, Repr, Inhabited

/-- A waiting request of an arbiter: the requester, whether it asks for a lock, and its age count (R50). -/
structure ArbReq where
  id : Nat := 0
  lock : Bool := false
  age : Nat := 0
  len : Nat := 0
  deriving DecidableEq, Repr, Inhabited

/-- One chip interconnect arbiter (R48 to R54). `grantPri` is the priority the holder had when it was granted. -/
structure ArbSt where
  frz : Bool := false
  grant : Option Nat := none
  grantPri : Nat := 0
  lock : Option Nat := none
  broken : List Nat := []
  parked : List ArbReq := []
  fresh : List ArbReq := []
  fullcnt : Nat := 0
  deriving DecidableEq, Repr, Inhabited

/-- A crossing access waiting on a clocked domain (R55 to R58): the requester id of R449, its slice where the id stands for a
block, and the domain of OVFDOM. -/
structure XAccess where
  who : Nat := 0
  sl : Nat := 0
  dom : Nat := 0
  deriving DecidableEq, Repr, Inhabited

/-- A Prune, running or waiting (R60 to R64). -/
structure PruneSt where
  kind : Nat := 0
  region : Nat := 0
  index : Nat := 0
  signed : Bool := false
  result : Nat := 0
  origin : Option Origin := none
  deriving DecidableEq, Repr, Inhabited

/-- The phases of the start sequence (R409) and of the ring's life as the chip sees it. -/
inductive Phase where
  | reset | noImage | tlockWait | ringStart | running
  deriving DecidableEq, Repr, Inhabited

/-- CHIP.PSTATE (R416). -/
inductive PState where
  | start | run | park | doze
  deriving DecidableEq, Repr, Inhabited

/-- CHIP.SLOTA and SLOTB (R406): STATE 0 to 3 and REASON. -/
structure SlotSt where
  state : Nat := 0
  reason : Nat := 0
  deriving DecidableEq, Repr, Inhabited

/-- One black-box record waiting or programmed (R421, R480): its trigger with event code and DETAIL, its sequence numbers, bytes
16 to 63, the copied log entries and the registers. -/
structure BbRec where
  trigger : Nat := 0
  code : Nat := 0
  detail : Nat := 0
  rseq : Nat := 0
  num : Nat := 0
  head : List Byte := []
  entries : List EvEntry := []
  words : List Word := []
  deriving DecidableEq, Repr, Inhabited

/-- CHIP (R443 to R455, R37 to R69, R401 to R422). -/
structure ChipSt where
  resp : Resp := .none
  latch : List (Nat × List Word) := []
  ev : List (Nat × EvEntry) := []
  evWr : Nat := 0
  evRd : Nat := 0
  evFull : Bool := false
  evLost : Nat := 0
  evTotal : Nat := 0
  once : List (Nat × Nat) := []
  bound : List (Nat × Nat) := []
  reqPri : List Nat := []
  dwin : BitVec 24 := 0
  arbs : List ArbSt := List.replicate 20 {}
  xOvf : Bool := false
  xOvfDom : Nat := 0
  xHang : Nat := 0
  xPulses : List Nat := List.replicate 7 0
  xPend : List XAccess := []
  prunes : List PruneSt := []
  pruneResult : Nat := 0
  pruneKind : Nat := 0
  pruneElapsed : Nat := 0
  dramCe : Nat := 0
  phase : Phase := .reset
  pstate : PState := .start
  pstateNext : Option PState := none
  slotA : SlotSt := {}
  slotB : SlotSt := {}
  slot : Bool := false
  fallback : Bool := false
  first : Bool := false
  profile : Bool := false
  rstKind : Nat := 1
  rstCount : Nat := 0
  wdogLeft : Nat := 0
  wdogNext : BitVec 8 := 0x5A
  wdogAt : Nat := 0
  wdogExpired : Bool := false
  rrstRefused : Bool := false
  rrst : List (Nat × Option Origin) := []
  bbRec : Nat := 0
  bbSkip : Nat := 0
  bbErase : Nat := 0
  bbPos : Nat := 0
  bbWait : List BbRec := []
  bbDone : List (Nat × BbRec) := []
  bbTick : Bool := false
  escalated : Bool := false
  resetPending : Option (Nat × Nat × Nat) := none
  escReset : Bool := false
  testMode : Bool := false
  deriving DecidableEq, Repr, Inhabited

/-- Fuses: they survive every reset (R448, R419). [DESIGN CHOICE, log 8] -/
structure FuseSt where
  variant : Variant := .v6128
  serial : BitVec 64 := 0
  keyDigest : Option Nat := none
  idKey : Bool := false
  devPub : List Word := []
  opened : Bool := false
  deriving DecidableEq, Repr, Inhabited

/-- One copy of the confirmation record (R331). -/
structure ConfRec where
  check : Word := 0
  digest : Nat := 0
  serial : BitVec 64 := 0
  tb : Nat := 0
  count : Nat := 0
  key : Nat := 0
  crcOk : Bool := false
  deriving DecidableEq, Repr, Inhabited

/-! ### The safety region -/

/-- SAF.GSTATg.STATE (R307): 0 run, 1 scaled, 2 SS1-r, 3 STO, 4 Cloche. -/
inductive GState where
  | run | scaled | ss1r | sto | cloche
  deriving DecidableEq, Repr, Inhabited

/-- One situation that makes SLS active (R317): 0 reduced speed, 1 FUNC 6, 2 degraded, 3 + a the far-end homing of axis a; the
tick it became active, and the speeds then: TCP in mm/s, the group's axes in 2^-24 count per tick. -/
structure SlsRec where
  sit : Nat := 0
  tick : Nat := 0
  tcp0 : Nat := 0
  ax0 : List Nat := []
  deriving DecidableEq, Repr, Inhabited

/-- The safety state of one group (R298 to R322). `stopReq` and `stoReq` collect, by cause code, the causes raised since
the last decision; `aActive` holds, by source, the class A faults that have not ended, `tleft` the degraded time left in ns. -/
structure SafGroup where
  state : GState := .run
  cause : Nat := 0
  stocause : Nat := 0
  tsto : Nat := 0
  stopReq : BitVec 32 := 0
  stoReq : BitVec 32 := 0
  aLatch : Bool := false
  aActive : BitVec 16 := 0
  deg : Bool := false
  tleft : Nat := 0
  decTick : Nat := 0
  v0 : List Nat := []
  still : Nat := 0
  rbBlock : Bool := false
  expBlock : Bool := false
  onlyStopreq : Bool := false
  nres : Nat := 0
  sls : List SlsRec := []
  scale : Nat := 0
  ackEdge : Bool := false
  deriving DecidableEq, Repr, Inhabited

/-- One input pair or pendant line (R304, R305, R339): filtered levels, demand and fault facts. -/
structure InPair where
  a : Bool := true
  b : Bool := true
  demand : Bool := false
  lowA : Bool := false
  lowB : Bool := false
  disc : Bool := false
  lowBoth : Bool := false
  highBoth : Bool := false
  test : BitVec 4 := 0
  flt : Bool := false
  diffSince : Option Nat := none
  sampled : Bool := false
  wasSampled : Bool := false
  deriving DecidableEq, Repr, Inhabited

/-- One receive PDU record's state (R324 to R326, R34). -/
structure RxSt where
  lastSeq : Option (BitVec 32) := none
  window : Option (Bool × Pdu) := none
  accepted : Option Pdu := none
  accNet : Bool := false
  accTick : Nat := 0
  frozen : Option Pdu := none
  before : Option Pdu := none
  fresh : Bool := false
  oneCopy : Bool := false
  lateA : Bool := false
  lateB : Bool := false
  openedAt : Nat := 0
  validA : Nat := 0
  validB : Nat := 0
  mism : Nat := 0
  onecnt : Nat := 0
  deriving DecidableEq, Repr, Inhabited

/-- A class B condition that is active (R319): its source, an index, and the groups of its scope. -/
structure BCond where
  src : Nat := 0
  idx : Nat := 0
  scope : Mask := 0
  deriving DecidableEq, Repr, Inhabited

/-- SAF and the pendant lines (R298 to R348). -/
structure SafSt where
  g : List SafGroup := List.replicate 16 {}
  pairs : List InPair := List.replicate 12 {}
  pend : List InPair := List.replicate 4 {}
  pulseUntil : List Nat := List.replicate 4 0
  rx : List RxSt := List.replicate 16 {}
  txSeq : List (BitVec 32) := List.replicate 8 0
  bconds : List BCond := []
  lineCmd : Mask := 0
  level : Mask := 0
  rberr : Mask := 0
  dead : Bool := false
  withheld : Bool := false
  refreshWord : Bool := false
  refreshSeen : Bool := false
  pattern : Mask := 0
  lastA : Nat := 0
  lastB : Nat := 0
  check : Word := 0
  match_ : Bool := false
  present : Bool := false
  confCount : Nat := 0
  gack : Mask := 0
  vcore : Nat := 0
  tj : Nat := 0
  sig : Word := 0
  mode : Nat := 0
  modeReq : List (Nat × Origin) := []
  modeNext : Option Nat := none
  modeBad : List Origin := []
  ackBad : Mask := 0
  pres : Bool := false
  presSince : Option Nat := none
  bridge : Bool := false
  brleft : Nat := 0
  wdArmed : Bool := true
  wdSince : Option Nat := none
  enabSince : Nat := 0
  presLost : Bool := false
  confPend : List (Origin × Word) := []
  q28 : List (Pdu × Nat × Nat) := []
  q29 : List (Pdu × Nat × Nat) := []
  aNext : Mask := 0
  deriving DecidableEq, Repr, Inhabited

/-! ### TIME: the time base, network time, triggers, captures, deadlines and the promise -/

/-- One tracked network-time domain (R97, R99). Offsets in ns, rates in RATE units. -/
structure DomSt where
  masters : List GmSet := []
  best : Option GmSet := none
  annFresh : Bool := false
  syncFresh : Bool := false
  offset : Int := 0
  rate : Int := 0
  below : Nat := 0
  validAt : Nat := 0
  deriving DecidableEq, Repr, Inhabited

/-- One trigger output (R110 to R112): the pending words, the words taken at arming and the pulse train's state. `pend`
holds an arm or disarm deferred to after the next edge, with its write instant (R111). Instants in 2^-16 ns. -/
structure TrigSt where
  pNsec : Nat := 0
  pSec : Nat := 0
  pStartFr : Nat := 0
  pPerNs : Nat := 0
  pPerFr : Nat := 0
  ctl : Word := 0
  active : Bool := false
  start : Nat := 0
  per : Nat := 0
  next : Nat := 0
  left : Nat := 0
  width : Nat := 8
  pol : Bool := false
  late : Bool := false
  src : Bool := false
  fired : Nat := 0
  pulse : Bool := false
  pend : Option (TrigWords × Bool × Nat) := none
  deriving DecidableEq, Repr, Inhabited

/-- One capture input (R113 to R115). `tickList` and `lastList` are the per-tick lists of covered consumers. -/
structure CapSt where
  edge : Nat := 0
  filt : Nat := 0
  ovf : Bool := false
  lost : Nat := 0
  queue : List (Nat × Bool) := []
  tickList : List (Nat × Bool) := []
  lastList : List (Nat × Bool) := []
  deriving DecidableEq, Repr, Inhabited

/-- TIME.SLACKp (R81) with the running facts of the present tick and of the millisecond window of R82. -/
structure SlackSt where
  miss : Bool := false
  last : Nat := 0
  low : Nat := 0x7FFF
  token : Option Nat := none
  missNow : Bool := false
  judged : Bool := false
  done : Mask := 0
  winMin : Option Nat := none
  deriving DecidableEq, Repr, Inhabited

/-- A transaction on the regulator's bus (R83): PMBus or AVSBus, the address or rail, the command, a write with its data word or a
read. -/
structure VregTx where
  pmb : Bool := false
  dev : Nat := 0
  cmd : Nat := 0
  wr : Bool := false
  data : Nat := 0
  deriving DecidableEq, Repr, Inhabited

/-- The residence time of a two-step event message that waits for its Follow_Up or Delay_Resp (R105), in 2^-16 ns. -/
structure Residue where
  net : Nat := 0
  id : PtpId := {}
  corr : Int := 0
  deriving DecidableEq, Repr, Inhabited

/-- TIME (R93 to R117, R75 to R91). `tb` is the time base in whole ns since the epoch. -/
structure TimeSt where
  tb : Nat := 0
  tbFr : Nat := 0
  rate : Int := 0
  target : Int := 0
  slewAt : Nat := 0
  slewAcc : Nat := 0
  everFoll : Bool := false
  tickno : Nat := 0
  tstart : Nat := 0
  tplan : Nat := 0
  e0 : Nat := 0
  run : Bool := false
  stopped : Bool := false
  profile : Nat := 0
  servo : Nat := 0
  sel : Bool := false
  holdSec : Nat := 0
  holdAt : Nat := 0
  doms : List DomSt := [{}, {}]
  domofs : Int := 0
  disagree : Nat := 0
  disagreed : Bool := false
  acquired : Bool := false
  lastSync : Nat := 0
  xchk : Nat := 0
  egress : List Nat := [0, 0, 0, 0]
  resid : List Residue := []
  trigs : List TrigSt := [{}, {}, {}, {}]
  caps : List CapSt := [{}, {}, {}, {}]
  promOut : Bool := false
  promCause : BitVec 6 := 0
  promGroups : Mask := 0
  outcnt : Nat := 0
  cover : Mask := 0
  causeNow : List Mask := List.replicate 6 0
  causeNext : List Mask := List.replicate 6 0
  slack : List SlackSt := List.replicate 10 {}
  vmode : Nat := 0
  vrec : Nat := 60
  recValid : Bool := false
  vtx : Option VregTx := none
  vqueue : List (Nat × Bool) := []
  vexp : Int := 0
  vsent : Nat := 0
  vmv : Nat := 0
  winMiss : Bool := false
  holding : Mask := 0
  xtrapNow : Mask := 0
  ss1Next : Mask := 0
  missAfter : Mask := 0
  deriving DecidableEq, Repr, Inhabited

/-! ### The Zetan ring -/

/-- One ring port (R135, R144, RING.PORTSTAT): its last 8 link-delay results and the rounds since it came up, the instant of its own
probe, and the receive instant of a neighbour's probe still to be answered. -/
structure RPort where
  up : Bool := false
  loop : Bool := false
  fcserr : Nat := 0
  probes : List Nat := []
  rounds : Nat := 0
  sentAt : Option Nat := none
  heard : Option Nat := none
  deriving DecidableEq, Repr, Inhabited

/-- One node as the ring controller knows it (RING.NODEr.j, RING.PDLYr.j). -/
structure NodeSt where
  early : Nat := 0
  late : Nat := 0
  consec : Nat := 0
  outNow : Bool := false
  err : Int := 0
  spare : Bool := false
  route : Bool := false
  upDelay : Nat := 0
  pathDelay : Nat := 0
  quiet : Nat := 0
  wrote : Bool := false
  up : Option UpSeg := none
  nullRun : Nat := 0
  fbLost : Bool := false
  joinNext : Bool := false
  viaSpare : Bool := false
  rdy : Bool := false
  prev : Option DownSeg := none
  deriving DecidableEq, Repr, Inhabited

/-- RING.STATr.STATE. -/
inductive RingState where
  | down | listen | coldStart | measure | preRun | run | healed | split | acquire | join | silent
  deriving DecidableEq, Repr, Inhabited

/-- One ring controller (R118 to R151): master, standby and node roles. -/
structure RingSt where
  role : Nat := 0
  node : Nat := 0
  rank : Nat := 0
  state : RingState := .down
  brkA : Nat := 255
  brkB : Nat := 255
  broken : Nat := 0
  master : Nat := 0
  coll : Nat := 0
  members : BitVec 32 := 0
  silent : BitVec 32 := 0
  nullNow : BitVec 32 := 0
  rtt : Nat := 0
  clValid : Bool := false
  clDenied : Bool := false
  clSpare : Nat := 0
  clTick : Nat := 0
  ports : List RPort := [{}, {}]
  nodes : List NodeSt := List.replicate 32 {}
  attempts : Nat := 0
  heardAt : Nat := 0
  probeTurn : Bool := false
  count : Nat := 0
  sawBreak : Bool := false
  routeAt : Option Nat := none
  healedRoutes : Bool := false
  absent : BitVec 32 := 0
  restEff : Option Nat := none
  restAt : Option Nat := none
  rdyAt : Option Nat := none
  needStable : Bool := false
  splitSent : Bool := false
  out : List BeaconEntry := []
  claims : List (Bool × ClaimMsg) := []
  sentBeacon : Option Beacon := none
  back : List Bool := [false, false]
  tx : List RingTx := []
  seen : List (Nat × Bool) := []
  slot : Nat := 0
  acyUsed : Nat := 0
  beaconMiss : Nat := 0
  hops : List Nat := [255, 255]
  dly : List Nat := [0, 0]
  bcTx : Nat := 0
  bcCorr : Nat := 0
  syncBefore : Nat := 0
  nextE0 : Option (Nat × Nat) := none
  startNext : Bool := false
  inSync : Nat := 0
  guard : Nat := 0
  ownOut : Bool := false
  ownEarly : Bool := false
  ownLate : Bool := false
  winBad : Bool := false
  everMember : Bool := false
  stepped : Bool := false
  retry : Option Nat := none
  claimSent : Bool := false
  rejoin : Bool := false
  dlMiss : Nat := 0
  dlUsed : Bool := false
  dlNow : Option DownSeg := none
  dlFresh : Bool := false
  dlLost : Bool := false
  txStopped : Bool := false
  lastOffset : Int := 0
  deriving DecidableEq, Repr, Inhabited

/-! ### AXIO -/

/-- One local channel (R152 to R177). Counts are signed; `sched` holds the pulse instants of the running tick with their
sign, `homing` the stage of R169. -/
structure ChanSt where
  count : Int := 0
  single : Nat := 0
  lvA : Bool := false
  lvB : Bool := false
  pos : Pos := 0
  wrapIdx : Int := 0
  fault : Bool := false
  faultTick : Option Nat := none
  wire : Bool := false
  amp : Bool := false
  refd : Bool := false
  dir : Bool := false
  dircnt : Nat := 0
  idx : Bool := false
  idxVal : Int := 0
  chat : Bool := false
  limP : Bool := false
  limN : Bool := false
  home : Bool := false
  limP0 : Bool := false
  limN0 : Bool := false
  limTrip : Bool := false
  filtIn : List Bool := [false, false, false]
  trans : List (List Nat) := [[], [], []]
  chatAt : List (Option Nat) := [none, none, none]
  qNow : Nat := 0
  qTick : Nat := 0
  qTotal : Nat := 0
  dirie : Bool := false
  cmpPend : BitVec 64 := 0
  cmp : Int := 0
  arm : Bool := false
  cdir : Nat := 0
  cdirReg : Nat := 0
  passed : Bool := false
  behind : Bool := false
  fired : Bool := false
  pol : Bool := false
  width : Nat := 10
  cmpOut : Bool := false
  lastCount : Int := 0
  busy : Bool := false
  hres : Nat := 0
  hdir : Bool := false
  hphase : Nat := 0
  hrev : Bool := false
  hlatch : Option Int := none
  hconf : Bool := false
  hidxFrom : Int := 0
  hstop : Bool := false
  refj : Bool := false
  hofs : Int := 0
  stepped : Int := 0
  issued : Int := 0
  lastDir : Bool := true
  stepDir : Bool := true
  sched : List (Nat × Bool) := []
  schedNext : List (Nat × Bool) := []
  stepOut : Bool := false
  issuedPrev : Int := 0
  issuedTick : Int := 0
  hvel : Int := 0
  hset : Pos := 0
  emf : BitVec 12 := 0
  la : Int := 0
  lav : Bool := false
  laRun : Nat := 0
  baseSt : Option (Int × Int) := none
  stalled : Bool := false
  quad : Nat := 0
  scS : Int := 0
  scC : Int := 0
  frac : BitVec 16 := 0
  rlast : Nat := 0
  rlow : Nat := 255
  ampRun : Nat := 0
  fbNull : Bool := false
  nullRun : Nat := 0
  fbLost : Bool := false
  retired : Bool := false
  deriving DecidableEq, Repr, Inhabited

/-! ### The redundant pair -/

/-- The pair (R423 to R442). ROLE: 0 none, 1 active, 2 standby, 3 former active. -/
structure PairSt where
  cfg : Bool := false
  pid : Bool := false
  role : Nat := 0
  fit : Bool := false
  pfit : Bool := false
  linkOk : Bool := false
  linkUp : Bool := false
  linkFell : Bool := false
  ringOk : Bool := false
  vote : Bool := false
  pvote : Bool := false
  pvoteHigh : Bool := false
  unfit : Nat := 0
  lost : Nat := 0
  lostRaised : Bool := false
  eqrun : Nat := 0
  compares : Nat := 0
  skips : Nat := 0
  divs : Nat := 0
  firstDiv : Nat := 0
  hoCause : Nat := 0
  hoTick : Nat := 0
  hoReq : Option Nat := none
  hoTries : Nat := 0
  hoFlag : Bool := false
  hoEsc : Bool := false
  hoAck : Bool := false
  hoBeacon : Bool := false
  rst : Bool := false
  rstSent : Bool := false
  digest : Nat := 0
  digestTick : Nat := 0
  cmask : Mask := 0
  lstop : Mask := 0
  ldeg : Mask := 0
  frame : Option InputFrame := none
  fed : Bool := false
  prevFed : Bool := false
  unfed : Nat := 0
  sent : Option InputFrame := none
  statusSent : Option StatusFrame := none
  statusIn : Bool := false
  hbIn : Bool := false
  hbSent : Bool := false
  takeNext : Bool := false
  diff : List Nat := List.replicate 16 0
  forwarded : List (Nat × Nat) := []
  lineHold : Mask := 0
  rounds : Nat := 0
  pendCmds : List (Nat × Nat) := []
  health : Option HealthReport := none
  healthOut : Option HealthReport := none
  healthSent : Nat := 0
  wasUnfit : Bool := false
  deriving DecidableEq, Repr, Inhabited

/-! ### The motion pipeline -/

/-- Group states and codes of R220. -/
inductive MState where
  | disabled | enabling | idle | moving | waitZone | waitSync | halting | halted | stopping | cloche
  deriving DecidableEq, Repr, Inhabited

/-- A running segment (R221 to R226): its start references by group axis index, the path parameter its profile starts from
(0, or where a resume continues), path time in 2^-45 tick, the path parameter in 2^-32, the dwell count, the durations D_g and
D of a sync set, the conveyor position at its start, and the ticks since halting began. [DESIGN CHOICE, log 9] -/
structure RunSeg where
  seg : Segment := {}
  start : List Pos := []
  pose0 : List Rat := []
  s0 : Nat := 0
  tau : Nat := 0
  tauPrev : Nat := 0
  s : Nat := 0
  sPrev : Nat := 0
  dwell : Nat := 0
  dur : Nat := 0
  durSet : Nat := 0
  track : Pos := 0
  halt : Option Nat := none
  fresh : Bool := false
  deriving DecidableEq, Repr, Inhabited

/-- One axis of the motion pipeline (R210 to R236). Positions are Q40.24. The `Old` fields are the reference, velocity and acceleration
before the last ones, which a miss of phase 1 brings back (R75). -/
structure AxisSt where
  ref : Pos := 0
  refPrev : Pos := 0
  refOld : Pos := 0
  vel : BitVec 32 := 0
  velOld : BitVec 32 := 0
  acc : BitVec 32 := 0
  accOld : BitVec 32 := 0
  spt : Pos := 0
  step : Int := 0
  stepPrev : Int := 0
  spPrev : Pos := 0
  raw : Int := 0
  rawVff : Int := 0
  rawTff : Int := 0
  frozen : Pos := 0
  fb : Pos := 0
  fbPrev : Pos := 0
  fbTick : Nat := 0
  fbPrevTick : Nat := 0
  used : Bool := false
  rawPrev : BitVec 48 := 0
  init : Bool := false
  lost : Bool := false
  vclamp : Bool := false
  lclamp : Bool := false
  nullfb : Bool := false
  xtrap : Bool := false
  reinit : Bool := false
  reinitClear : Bool := false
  vlimcnt : Nat := 0
  hgo : Option Nat := none
  hbusy : Bool := false
  homing : Bool := false
  axstat : BitVec 16 := 0
  dsp : BitVec 24 := 0
  vffo : BitVec 24 := 0
  tffo : BitVec 24 := 0
  oflags : BitVec 24 := 0
  handed : Bool := false
  xst : Bool := false
  sliceBad : Bool := false
  tff : BitVec 24 := 0
  ffv : Bool := false
  tffNew : Option (BitVec 24 × Bool) := none
  outVff : Int := 0
  outTff : Int := 0
  vffPrev : Int := 0
  tffPrev : Int := 0
  down : DownEntry := {}
  cmpEntry : Option (Int × Bool) := none
  deriving DecidableEq, Repr, Inhabited

/-- One group of the motion pipeline. `poses` are the pose records in use and `posesPrev` those of the tick before (position
and rotation, binary32); the `New` fields hold results completed and not released yet. `leave` is how the group leaves Cloche
at the next E0: 1 to DISABLED, 2 to ENABLING. -/
structure GroupSt where
  state : MState := .disabled
  queue : List Segment := []
  newSegs : Nat := 0
  active : Option RunSeg := none
  blend : Option RunSeg := none
  segId : Nat := 0
  reason : Nat := 0
  refcnt : Nat := 0
  sigma : Nat := 0
  ratio : Nat := 32768
  sigCap : Nat := 32768
  ovr : Nat := 32768
  tcpv : Nat := 0
  resid : Nat := 0
  ikcnt : Nat := 0
  syncWait : Nat := 0
  syncRaised : Bool := false
  enableTick : Nat := 0
  leave : Nat := 0
  poses : List (List F32) := []
  posesPrev : List (List F32) := []
  posesNew : Option (List (List F32)) := none
  posesOk : Bool := false
  frozenPoses : Bool := false
  jac : List F32 := []
  jacNew : Option (List F32) := none
  lastTool : List F32 := []
  lastToolTick : Nat := 0
  toolOk : Bool := false
  claimed : Bool := false
  tres : Nat := 0
  toolWait : Option Nat := none
  toolDig : Nat := 0
  deriving DecidableEq, Repr, Inhabited

/-- What a result in flight writes (R186): a data register, an accumulator, or a control register. -/
inductive SDest where
  | d (i : Nat)
  | a (i : Nat)
  | cr (i : Nat)
  deriving DecidableEq, Repr, Inhabited

/-- A result in flight, which lands at the end of the next instruction: its destination and value. -/
structure SPend where
  dest : SDest := .d 0
  val : BitVec 56 := 0
  deriving DecidableEq, Repr, Inhabited

/-- SSTAT.STATE of a slice. -/
inductive SRun where
  | idle | run | waitFb | waitFf | stopped | selftest | retired
  deriving DecidableEq, Repr, Inhabited

/-- One servo slice (R178 to R209): its registers, memories and the facts of the present tick. -/
structure SliceSt where
  b : Nat := 0
  s : Nat := 0
  present : Bool := false
  ax0 : Nat := 255
  ax1 : Nat := 255
  esh : List Nat := [0, 0]
  vsh : List Nat := [0, 0]
  ash : List Nat := [0, 0]
  osh : List Nat := [0, 0]
  run : SRun := .idle
  d : List (BitVec 24) := List.replicate 8 0
  a0 : BitVec 56 := 0
  a1 : BitVec 56 := 0
  p : List (BitVec 12) := [0, 0, 0, 0]
  m : List (BitVec 12) := [0, 0, 0, 0]
  l : List (BitVec 12) := [0, 0, 0, 0]
  lc : List (BitVec 14) := [0, 0]
  ls : List (BitVec 11) := [0, 0]
  le : List (BitVec 11) := [0, 0]
  st : BitVec 24 := 0
  epc : BitVec 11 := 0
  estat : BitVec 24 := 0
  lr : BitVec 11 := 0
  pc : BitVec 11 := 0
  jump : Option (BitVec 11) := none
  jumpClr : Bool := false
  inSlot : Bool := false
  abortWait : Bool := false
  pend : List SPend := []
  dmem : List (Nat × BitVec 24) := []
  icnt : Nat := 0
  log : List (Nat × BitVec 24) := []
  trapped : Bool := false
  illegal : Nat := 0
  inAbort : Bool := false
  fbDone : Bool := false
  ffDone : Bool := false
  sawOut : Bool := false
  sawEnd : Bool := false
  aborted : Bool := false
  reload : Bool := false
  first : Bool := true
  firstAx : List Bool := [true, true]
  ena : List Bool := [false, false]
  stop : List Bool := [false, false]
  outW : List (BitVec 24) := []
  sat : Bool := false
  v : Bool := false
  stTrap : Bool := false
  stAbort : Bool := false
  icntLast : Nat := 0
  evKind : Nat := 0
  evCause : Nat := 0
  evPc : BitVec 11 := 0
  fcause : Nat := 0
  fpc : BitVec 11 := 0
  cecnt : Nat := 0
  trapcnt : Nat := 0
  deriving DecidableEq, Repr, Inhabited

/-- A servo-slice block's spare and shadow (R42, R202 to R206). -/
structure SpareSt where
  spst : Nat := 0
  spfor : Nat := 0
  rot : Nat := 0
  divcnt : Nat := 0
  skipcnt : Nat := 0
  cmpcnt : Nat := 0
  skips : Nat := 0
  comparing : Bool := false
  shadow : List (List (Nat × BitVec 24)) := List.replicate 8 []
  takeNext : Option Nat := none
  selftest : Option Nat := none
  failed : Bool := false
  deriving DecidableEq, Repr, Inhabited

/-- MOT. -/
structure MotSt where
  axes : List AxisSt := List.replicate 128 {}
  groups : List GroupSt := List.replicate 16 {}
  slices : List SliceSt := []
  spares : List SpareSt := List.replicate 8 {}
  fbRel : Bool := false
  ffRel : Bool := false
  servoRel : Bool := false
  fin : Bool := false
  spRel : Bool := false
  kdeLive : List (BitVec 8) := [0xFF, 0xFF]
  kdeNan : List Nat := [0, 0]
  deriving DecidableEq, Repr, Inhabited

/-! ### The solver -/

/-- A job's stage in its tick (R260 to R264). -/
inductive JobSt where
  | none | waiting | running | done | gone
  deriving DecidableEq, Repr, Inhabited

/-- The values of a problem (R250, R257): matrix entries, b or q, l, u and ρ. -/
structure ProbVals where
  mat : List F32 := []
  b : List F32 := []
  l : List F32 := []
  u : List F32 := []
  rho : F32 := 0
  deriving DecidableEq, Repr, Inhabited

/-- An outcome of a job before its release: the solution, the pivot that failed, iterations, convergence, warm state. -/
structure JobOut where
  x : List F32 := []
  pivot : Option Nat := none
  iters : Nat := 0
  conv : Bool := false
  z : List F32 := []
  y : List F32 := []
  resid : F32 := 0
  bounds : Bool := false
  deriving DecidableEq, Repr, Inhabited

/-- A delta packet (R257). -/
structure Packet where
  prob : Nat := 0
  tgt : Nat := 0
  index : Nat := 0
  value : F32 := 0
  deriving DecidableEq, Repr, Inhabited

/-- One solver problem (R248 to R267) with PCTL, PSTAT, PITER and PCNT. -/
structure ProbSt where
  en : Bool := false
  enNext : Option Bool := none
  clr : Bool := false
  lane : Nat := 0
  block : Nat := 0
  moved : Bool := false
  work : ProbVals := {}
  pend : ProbVals := {}
  factor : Bool := false
  warm : Option (Word × List F32 × List F32) := none
  job : JobSt := .none
  due : Bool := false
  laneFault : Bool := false
  out : JobOut := {}
  seed : Option (List F32 × List F32) := none
  valid : Bool := false
  pivot : Bool := false
  nanout : Bool := false
  bounds : Bool := false
  miss : Bool := false
  graft : Bool := false
  conv : Bool := false
  lost : Bool := false
  dead : Bool := false
  pruned : Bool := false
  nvrun : Nat := 0
  tick : Nat := 0
  iterdone : Nat := 0
  pividx : Nat := 0
  gmiscnt : Nat := 0
  misscnt : Nat := 0
  pub : JobOut := {}
  pubTick : Nat := 0
  pubStat : Word := 0
  limit : Bool := false
  deriving DecidableEq, Repr, Inhabited

/-- SOL. -/
structure SolSt where
  probs : List ProbSt := List.replicate 256 {}
  live : List (BitVec 16) := [0xFFFF, 0xFFFF, 0xFFFF, 0xFFFF]
  jobs : List Nat := [0, 0, 0, 0]
  jobsNow : List Nat := [0, 0, 0, 0]
  delta0 : Word := 0
  ovf : Bool := false
  bad : Bool := false
  applied : Nat := 0
  tlPk : List Packet := []
  fwPk : List Packet := []
  gated : Bool := false
  unitLost : Bool := false
  deriving DecidableEq, Repr, Inhabited

/-! ### The Trellis -/

/-- One pair check of the tick (R279, R283): its class, the group, the other party (object, zone, group or keep-out
primitive), CLR and SLOW, the groups it concerns, and its distance when done. -/
structure PairRec where
  cls : PairClass := .k
  g : Nat := 0
  o : Nat := 0
  prim1 : Nat := 0
  prim2 : Nat := 0
  clr : F32 := 0
  slow : F32 := 0
  groups : Mask := 0
  d : F32 := 0
  deriving DecidableEq, Repr, Inhabited

/-- The Trellis state of one group: GSCALE, GMIND, GZONE and the terms of R286 to R288. -/
structure TrlGroup where
  scale : Nat := 0
  stopreq : Bool := false
  limkind : Nat := 0
  limidx : Nat := 0
  minScale : Nat := 32768
  minKind : Nat := 0
  minIdx : Nat := 0
  mind : Option F32 := none
  mindNew : Option F32 := none
  vmeas : Nat := 0
  zpri : Nat := 0
  held : List Nat := []
  zref : Nat := 0
  wait : Option Nat := none
  reqTick : Nat := 0
  defer : List Nat := []
  sigC : Nat := 0
  sigCPrev : Nat := 0
  frozenFor : Nat := 0
  noPoses : Bool := false
  everPoses : Bool := false
  deriving DecidableEq, Repr, Inhabited

/-- One tracked object in the tick (R276 to R278). Position in metres (binary32), speed and ZD in mm/s and mm. -/
structure ObjSt where
  present : Bool := false
  stale : Bool := false
  age : Nat := 0
  pos : List F32 := [0, 0, 0]
  speed : Nat := 0
  zd : Nat := 0
  sp0 : List F32 := List.replicate 16 0
  sp1 : List F32 := List.replicate 16 0
  hedge : List Nat := List.replicate 16 0
  hfull : List Nat := List.replicate 16 0
  dmin : List (Option F32) := List.replicate 16 none
  deriving DecidableEq, Repr, Inhabited

/-- One zone (R290 to R293): parked requests hold group and age. -/
structure ZoneSt where
  frz : Bool := false
  frzE0 : Bool := false
  holder : Option Nat := none
  parked : List (Nat × Nat) := []
  fresh : List Nat := []
  grants : Nat := 0
  deriving DecidableEq, Repr, Inhabited

/-- TRL. -/
structure TrlSt where
  g : List TrlGroup := List.replicate 16 {}
  objs : List ObjSt := List.replicate 32 {}
  zones : List ZoneSt := List.replicate 256 {}
  sensUse : List (Option Pdu) := List.replicate 16 none
  live : BitVec 32 := 0xFFFF_FFFF
  pairs : List PairRec := []
  overflow : Mask := 0
  batches : List (Bool × Bool) := []
  pairsLast : Nat := 0
  batchesLast : Nat := 0
  deriving DecidableEq, Repr, Inhabited

/-! ### Recording -/

/-- A checkpoint (R91): the persistent state from which tick `tick` starts: trajectory, queue, KDE and slice state, solver and zone
arbiter state, and the filters of channels and safety inputs. [DESIGN CHOICE, log 36] -/
structure Ckpt where
  tick : Nat := 0
  mot : MotSt := {}
  sol : SolSt := {}
  trl : TrlSt := {}
  axio : List ChanSt := []
  pairs : List InPair := []
  pend : List InPair := []
  deriving DecidableEq, Repr, Inhabited

/-- Recording and checkpoints (R87 to R91). `ins` holds the inputs captured for the tick by section type, `recs` the offset and
length of each record in the ring, oldest first, `wofs` where the next one goes. -/
structure RecSt where
  on : Bool := false
  stopLeft : Option Nat := none
  dropped : Bool := false
  blocked : Bool := false
  ins : List (Nat × List Byte) := []
  recs : List (Nat × Nat) := []
  wofs : Nat := 0
  ckptNow : Option Ckpt := none
  ckptAge : Nat := 0
  ckptMark : Bool := false
  ckpts : List Ckpt := []
  ckptDrop : Nat := 0
  deriving DecidableEq, Repr, Inhabited

/-! ### HOST: cores, flows, queues, plant networks and commands -/

/-- A pending or running work item (R360, R361). `order` is its place in the order of enqueue. -/
structure Item where
  handle : Nat := 0
  flow : Nat := 0
  arg : Word := 0
  deadline : Nat := 0
  release : Nat := 0
  ptr : Word := 0
  order : Nat := 0
  late : Bool := false
  released : Bool := true
  deriving DecidableEq, Repr, Inhabited

/-- One core and its port (R353 to R364, R373): its registers as dispatch places them, the machine-mode registers a trap writes,
IMEM and DMEM by offset. `copying` holds an item whose output copy is running (R371). -/
structure CoreSt where
  x : List Word := List.replicate 32 0
  f : List F32 := List.replicate 32 0
  fcsr : Word := 0
  pc : Word := 0
  mepc : Word := 0
  mcause : Word := 0
  mtval : Word := 0
  mstatus : Word := 0
  imem : List Host.Cell := []
  dmem : List Host.Cell := []
  item : Option Item := none
  started : Nat := 0
  copying : Option Item := none
  fault : Bool := false
  mtvec : Bool := false
  enq : List Word := List.replicate 7 0
  enqValid : Bool := false
  enqResult : Nat := 0
  enqHandle : Nat := 0
  pushValid : Bool := false
  pushResult : Nat := 0
  pstage : List (Nat × Word) := []
  cecnt : Nat := 0
  deriving DecidableEq, Repr, Inhabited

/-- One flow's run-time state (FCTL, FSTAT, FCNT, FRUN and the tick-locked buffers of R367 to R371). -/
structure FlowSt where
  en : Bool := false
  valid : Bool := false
  misscnt : Nat := 0
  disp : Nat := 0
  maxseen : Nat := 0
  last : Nat := 0
  out : Option (Nat × OutBuf) := none
  held : Option OutBuf := none
  ended : Option OutBuf := none
  due : Bool := false
  moved : Bool := false
  msgs : List (List Byte) := []
  snap : List (List Byte) := []
  escaped : Bool := false
  timerNext : Nat := 0
  deriving DecidableEq, Repr, Inhabited

/-- A queue entry: its bytes, or for a motion push its segment. -/
structure QEntry where
  bytes : List Byte := []
  seg : Option Segment := none
  deriving DecidableEq, Repr, Inhabited

/-- One hardware queue (R372). -/
structure QueueSt where
  entries : List QEntry := []
  drops : Nat := 0
  index : Nat := 0
  deriving DecidableEq, Repr, Inhabited

/-- One trace record of Q30 (R374). -/
structure TraceRec where
  tb : Nat := 0
  deadline : Nat := 0
  tick : Nat := 0
  flow : Nat := 0
  handle : Nat := 0xFFFF
  kind : Nat := 0
  core : Nat := 255
  result : Nat := 0
  info : Nat := 0
  deriving DecidableEq, Repr, Inhabited

/-- A frame in a transmit queue: its bytes and what it is (R378). -/
inductive FrameKind where
  | forward | reply (key seq : Nat) | pdu (id : Nat) | arp | neighbour | echo | ptp | health
  deriving DecidableEq, Repr, Inhabited

/-- One frame waiting at a plant port; `corr` is what the device adds to its correctionField, in 2^-16 ns (R105). -/
structure TxFrame where
  kind : FrameKind := .forward
  len : Nat := 64
  corr : Int := 0
  deriving DecidableEq, Repr, Inhabited

/-- One plant port (R376, R378): the PTP path, the device queue and the forwarding queue, the frame on the wire. -/
structure PortSt where
  up : Bool := false
  bad : Bool := false
  drop : Nat := 0
  ptp : List TxFrame := []
  dev : List TxFrame := []
  fwd : List TxFrame := []
  wire : Option TxFrame := none
  deriving DecidableEq, Repr, Inhabited

/-- One network's counters: FCSERR, IPDISC, echo answers in the present second (R379) and refusals answered in it (R391). -/
structure NetSt where
  fcserr : Nat := 0
  ipdisc : Nat := 0
  echoes : Nat := 0
  echoAt : Nat := 0
  refusals : Nat := 0
  refAt : Nat := 0
  deriving DecidableEq, Repr, Inhabited

/-- A reply (R390): CODE, DETAIL, release tick and, for the opcodes that have one, its body. -/
structure Reply where
  key : Nat := 0
  seq : Nat := 0
  net : Net := .a
  code : Nat := 0
  detail : Nat := 0
  relTick : Nat := 0
  tick : Nat := 0
  digest : Nat := 0
  body : List Byte := []
  deriving DecidableEq, Repr, Inhabited

/-- One history entry of a key (R384). -/
structure HistEnt where
  seq : Nat := 0
  digest : Nat := 0
  decided : Bool := false
  reply : Option Reply := none
  nets : List Net := []
  deriving DecidableEq, Repr, Inhabited

/-- One key's run-time state: last SEQ and the last 64 commands (R384, R385). -/
structure KeySt where
  last : Nat := 0
  hist : List HistEnt := []
  deriving DecidableEq, Repr, Inhabited

/-- A command awaiting verification or release: the datagram, its network, the instant it arrived, and once it is held the tick
of its release. -/
structure HeldCmd where
  d : Datagram := {}
  net : Net := .a
  at_ : Nat := 0
  rel : Nat := 0
  deriving DecidableEq, Repr, Inhabited

/-- HOST. -/
structure HostSt where
  cores : List CoreSt := List.replicate 8 {}
  live : BitVec 8 := 0xFF
  flows : List FlowSt := List.replicate 1024 {}
  items : List Item := []
  order : Nat := 0
  pubFlip : BitVec 64 := 0
  pubActive : BitVec 64 := 0
  queues : List QueueSt := List.replicate 32 {}
  staging : List (Nat × Segment) := []
  trace : List TraceRec := []
  traceLost : Nat := 0
  ports : List PortSt := List.replicate 4 {}
  nets : List NetSt := [{}, {}, {}]
  keys : List KeySt := List.replicate 8 {}
  vq : List HeldCmd := []
  vwaits : List (Nat × Nat) := []
  held : List HeldCmd := []
  lastCode : Nat := 0
  lastKey : Nat := 0
  refcnt : Nat := 0
  accepted : Nat := 0
  dupcnt : Nat := 0
  ratecnt : Nat := 0
  rateAt : Nat := 0
  nonce : Nat := 0
  replies : List Reply := []
  sent : List Reply := []
  flash : List (Origin × FlashEdit) := []
  cryptoFault : Bool := false
  waits : List (Origin × Nat × Mask) := []
  deriving DecidableEq, Repr, Inhabited

/-! ### The device -/

/-- Reasons a run can stop with a fault: none of the manual's behaviours needs one. -/
inductive Fault where
  /-- Raised by no step of this model: the manual gives every command an effect. Safe. -/
  | none
  deriving DecidableEq, Repr

/-- Reasons a command can be refused by the model itself. -/
inductive Refusal where
  /-- A command whose meaning has not been written, by its mnemonic. Raised by the dispatch arms alone. Safe. -/
  | notModelled (mnemonic : String)
  deriving DecidableEq, Repr

/-- The whole device: the queue of waiting commands, the flash, the image in use, and every region's state. `mem` holds
the shared SRAM and LP4X DRAM bytes of the 40-bit DMA space in canonical form, `free` counts the free values drawn. -/
structure State where
  pending : List Instr := []
  fuse : FuseSt := {}
  flash : Flash := {}
  conf : List ConfRec := [{}, {}]
  image : Image := {}
  chip : ChipSt := {}
  time : TimeSt := {}
  recd : RecSt := {}
  ring : List RingSt := [{}, {}]
  axio : List ChanSt := List.replicate 32 {}
  mot : MotSt := {}
  sol : SolSt := {}
  trl : TrlSt := {}
  saf : SafSt := {}
  host : HostSt := {}
  pair : PairSt := {}
  regions : List RegionSt := List.replicate 10 {}
  mem : List Host.Cell := []
  free : Nat := 0
  deriving DecidableEq, Repr, Inhabited

/-- The device right after a power-on reset, before the start sequence (R412, R419): nothing loaded, every counter 0, the
flash blank, every STO line low. [DESIGN CHOICE, log 5; DESIGN CHOICE, log 6; DESIGN CHOICE, log 8] -/
def State.reset : State := {}

end Sys2Proof.Machine
end

