-- ==== Sys2Proof/Machine/Num.lean ====
section
/-! DEFINITION. Num.lean: roundings, Q1.15 scales, signed words and the binary32 arithmetic the rules state exactly. -/

namespace Sys2Proof.Machine

/-- Rounding half up: floor(x + 1/2) (R487). -/
def roundHalfUp (x : Rat) : Int := (x + 1 / 2).floor

/-- Division of an integer rounded half up (R487). -/
def divHalfUp (n : Int) (d : Nat) : Int := (2 * n + d) / (2 * d)

/-- `n` limited to `[lo, hi]`. -/
def clampI (lo hi n : Int) : Int := max lo (min hi n)

/-- The 64-bit position of an integer in units of 2^-24 count; positions wrap (R210). -/
def posOf (n : Int) : Pos := BitVec.ofInt 64 n

/-- Differences of positions are taken modulo 2^64 and read as signed (R210). -/
def posDiff (a b : Pos) : Int := (a - b).toInt

/-- Smallest element of a list of scales, `d` for none. -/
def minNat (d : Nat) (l : List Nat) : Nat := l.foldl min d

/-! ### binary32 -/

/-- Exponent field all ones. -/
def f32Special (x : F32) : Bool := (x.toNat / 8388608) % 256 == 255

/-- NaN. -/
def f32IsNaN (x : F32) : Bool := f32Special x && x.toNat % 8388608 != 0

/-- An infinity. -/
def f32IsInf (x : F32) : Bool := f32Special x && x.toNat % 8388608 == 0

/-- Finite. -/
def f32IsFin (x : F32) : Bool := !f32Special x

/-- Sign bit. -/
def f32Neg (x : F32) : Bool := x.getLsbD 31

/-- The quiet NaN of R247. -/
def f32NaN : F32 := 0x7FC00000

/-- Infinity of a sign. -/
def f32Inf (neg : Bool) : F32 := if neg then 0xFF800000 else 0x7F800000

/-- Zero of a sign. -/
def f32Zero (neg : Bool) : F32 := if neg then 0x80000000 else 0

/-- 2^e as a rational. -/
def pow2 (e : Int) : Rat := if 0 ≤ e then (2 ^ e.toNat : Nat) else 1 / ((2 ^ (-e).toNat : Nat) : Rat)

/-- The exact value of a finite binary32. -/
def f32Val (x : F32) : Rat :=
  let e : Nat := (x.toNat / 8388608) % 256
  let f : Nat := x.toNat % 8388608
  let m : Rat := if e = 0 then (f : Rat) * pow2 (-149) else ((8388608 + f : Nat) : Rat) * pow2 ((e : Int) - 150)
  if f32Neg x then -m else m

/-- Nearest integer to n/d, ties to even. -/
def nearestEven (n d : Nat) : Nat :=
  let q := n / d
  let r := n % d
  if 2 * r < d then q else if d < 2 * r then q + 1 else if q % 2 = 0 then q else q + 1

/-- The magnitude bits of n/d rounded to binary32 with ties to even; subnormals are kept (R247). -/
def f32Mag (n d : Nat) : Nat :=
  if n = 0 then 0
  else
    let e0 : Int := (Nat.log2 n : Int) - (Nat.log2 d : Int)
    let e : Int := if pow2 e0 ≤ (n : Rat) / d then e0 else e0 - 1
    let q : Int := max (e - 23) (-149)
    let m := if 0 ≤ q then nearestEven n (d * 2 ^ q.toNat) else nearestEven (n * 2 ^ (-q).toNat) d
    min (((q + 149) * 8388608 + (m : Int)).toNat) 0x7F800000

/-- A rational rounded to binary32, roundTiesToEven; `negz` is the sign of a zero result. -/
def f32OfRat (x : Rat) (negz : Bool := false) : F32 :=
  if x = 0 then f32Zero negz
  else
    let m : BitVec 32 := BitVec.ofNat 32 (f32Mag x.num.natAbs x.den)
    if x < 0 then m ||| 0x80000000 else m

/-- Addition (R247, R286). -/
def f32Add (a b : F32) : F32 :=
  if f32IsNaN a || f32IsNaN b then f32NaN
  else if f32IsInf a then (if f32IsInf b && (f32Neg a != f32Neg b) then f32NaN else a)
  else if f32IsInf b then b
  else f32OfRat (f32Val a + f32Val b) (f32Neg a && f32Neg b)

/-- Multiplication. -/
def f32Mul (a b : F32) : F32 :=
  let sg := f32Neg a != f32Neg b
  if f32IsNaN a || f32IsNaN b then f32NaN
  else if f32IsInf a || f32IsInf b then
    (if (f32IsFin a && f32Val a == 0) || (f32IsFin b && f32Val b == 0) then f32NaN else f32Inf sg)
  else f32OfRat (f32Val a * f32Val b) sg

/-- Division, correctly rounded. -/
def f32Div (a b : F32) : F32 :=
  let sg := f32Neg a != f32Neg b
  if f32IsNaN a || f32IsNaN b then f32NaN
  else if f32IsInf a then (if f32IsInf b then f32NaN else f32Inf sg)
  else if f32IsInf b then f32Zero sg
  else if f32Val b = 0 then (if f32Val a = 0 then f32NaN else f32Inf sg)
  else f32OfRat (f32Val a / f32Val b) sg

/-- Negation flips the sign bit. -/
def f32Minus (a : F32) : F32 := a ^^^ 0x80000000

/-- Ordered comparison; false with a NaN. -/
def f32Le (a b : F32) : Bool :=
  if f32IsNaN a || f32IsNaN b then false
  else if f32IsInf a then (f32Neg a || (f32IsInf b && !f32Neg b))
  else if f32IsInf b then !f32Neg b
  else f32Val a ≤ f32Val b

/-- Strict comparison; false with a NaN. -/
def f32Lt (a b : F32) : Bool := !(f32IsNaN a || f32IsNaN b) && !f32Le b a

/-- The lower of two values. -/
def f32Min (a b : F32) : F32 := if f32Le a b then a else b

/-- The larger of two values. -/
def f32Max (a b : F32) : F32 := if f32Le a b then b else a

/-- A natural number as binary32. -/
def f32OfNat (n : Nat) : F32 := f32OfRat n

/-- A Q1.15 scale as binary32 (exact). -/
def f32OfScale (n : Nat) : F32 := f32OfRat ((n : Rat) / 32768)

/-- A finite value rounded down to Q1.15, limited to [0, 0x8000] (R289). -/
def scaleOf (x : F32) : Nat :=
  if f32IsFin x then (min 32768 (f32Val x * 32768).floor.toNat) else if f32Neg x || f32IsNaN x then 0 else 32768

/-- A finite value rounded half up to Q1.15, limited to [0, 0x8000] (R221, R487). -/
def scaleHalfUp (x : F32) : Nat :=
  if f32IsFin x then (clampI 0 32768 (roundHalfUp (f32Val x * 32768))).toNat else if f32Neg x || f32IsNaN x then 0 else 32768

/-- A length in metres rounded up to whole millimetres, saturating at 0xFFFF (R287). -/
def mmUp (x : F32) : Nat :=
  if f32IsFin x then min 0xFFFF ((f32Val x * 1000).ceil.toNat) else 0xFFFF

/-- A value in metres (or m/s) as whole millimetres, rounded down, saturating. -/
def mmOf (x : F32) : Nat :=
  if f32IsFin x then min 0xFFFF ((f32Val x * 1000).floor.toNat) else 0xFFFF

/-! ### Bytes -/

/-- n bytes of a number, little-endian. -/
def leBytes (n v : Nat) : List Byte := (List.range n).map (fun i => BitVec.ofNat 8 (v / 256 ^ i))

/-- One bit step of CRC-32C, reflected. -/
def crcBit (c : Word) : Word := if c.getLsbD 0 then (c >>> 1) ^^^ 0x82F63B78 else c >>> 1

/-- CRC-32C of bytes (R323). -/
def crc32c (l : List Byte) : Word :=
  ~~~ (l.foldl (fun c b => crcBit (crcBit (crcBit (crcBit (crcBit (crcBit (crcBit (crcBit (c ^^^ b.setWidth 32))))))))) 0xFFFFFFFF)

/-- One bit step of a CRC-64 with the ECMA-182 polynomial, the highest bit first. -/
def crc64Bit (c : BitVec 64) : BitVec 64 := if c.getLsbD 63 then (c <<< 1) ^^^ 0x42F0E1EBA9EA3693 else c <<< 1

/-- One byte of it. -/
def crc64Byte (c : BitVec 64) (b : Byte) : BitVec 64 :=
  crc64Bit (crc64Bit (crc64Bit (crc64Bit (crc64Bit (crc64Bit (crc64Bit (crc64Bit (c ^^^ (b.setWidth 64 <<< 56)))))))))

/-- The CRC-64 of R87 over bytes, from the start value that the manual leaves open. [DESIGN CHOICE, log 15] -/
def crc64 (l : List Byte) : BitVec 64 := l.foldl crc64Byte Config.crc64Start

/-- One bit of the header check of R121: polynomial 0x1021, not reflected. -/
def crc16Bit (c : BitVec 16) : BitVec 16 := if c.getLsbD 15 then (c <<< 1) ^^^ 0x1021 else c <<< 1

/-- One byte of the header check. -/
def crc16Byte (c : BitVec 16) (b : Byte) : BitVec 16 :=
  crc16Bit (crc16Bit (crc16Bit (crc16Bit (crc16Bit (crc16Bit (crc16Bit (crc16Bit (c ^^^ (b.setWidth 16 <<< 8)))))))))

/-- The CRC-16 of R121: initial value 0xFFFF, no final XOR. -/
def crc16 (l : List Byte) : BitVec 16 := l.foldl crc16Byte 0xFFFF

end Sys2Proof.Machine
end

