-- ==== Sys2Proof/Machine/Base.lean ====
section
/-! DEFINITION. Base.lean: updating one unit of the state, and what the cell, the variant and the image say of it. -/

namespace Sys2Proof.Machine

/-! ### Updates of one unit -/

/-- Update the safety region. -/
def onSaf (f : SafSt → SafSt) (s : State) : State := { s with saf := f s.saf }

/-- Update one group's safety state. -/
def onSafG (g : Nat) (f : SafGroup → SafGroup) (s : State) : State :=
  { s with saf := { s.saf with g := updAt s.saf.g g f } }

/-- Update the chip level. -/
def onChip (f : ChipSt → ChipSt) (s : State) : State := { s with chip := f s.chip }

/-- Update TIME. -/
def onTime (f : TimeSt → TimeSt) (s : State) : State := { s with time := f s.time }

/-- Update ring r. -/
def onRing (r : Nat) (f : RingSt → RingSt) (s : State) : State := { s with ring := updAt s.ring r f }

/-- Update node j of ring r. -/
def onNode (r j : Nat) (f : NodeSt → NodeSt) (s : State) : State :=
  onRing r (fun x => { x with nodes := updAt x.nodes j f }) s

/-- Update channel c. -/
def onChan (c : Nat) (f : ChanSt → ChanSt) (s : State) : State := { s with axio := updAt s.axio c f }

/-- Update axis a. -/
def onAxis (a : Nat) (f : AxisSt → AxisSt) (s : State) : State :=
  { s with mot := { s.mot with axes := updAt s.mot.axes a f } }

/-- Update motion group g. -/
def onGrp (g : Nat) (f : GroupSt → GroupSt) (s : State) : State :=
  { s with mot := { s.mot with groups := updAt s.mot.groups g f } }

/-- Update the Trellis state of group g. -/
def onTrlG (g : Nat) (f : TrlGroup → TrlGroup) (s : State) : State :=
  { s with trl := { s.trl with g := updAt s.trl.g g f } }

/-- Update zone z. -/
def onZone (z : Nat) (f : ZoneSt → ZoneSt) (s : State) : State :=
  { s with trl := { s.trl with zones := updAt s.trl.zones z f } }

/-- Update tracked object j. -/
def onObj (j : Nat) (f : ObjSt → ObjSt) (s : State) : State :=
  { s with trl := { s.trl with objs := updAt s.trl.objs j f } }

/-- Update solver problem p. -/
def onProb (p : Nat) (f : ProbSt → ProbSt) (s : State) : State :=
  { s with sol := { s.sol with probs := updAt s.sol.probs p f } }

/-- Update core c. -/
def onCore (c : Nat) (f : CoreSt → CoreSt) (s : State) : State :=
  { s with host := { s.host with cores := updAt s.host.cores c f } }

/-- Update flow f. -/
def onFlow (i : Nat) (f : FlowSt → FlowSt) (s : State) : State :=
  { s with host := { s.host with flows := updAt s.host.flows i f } }

/-- Update hardware queue q. -/
def onQueue (q : Nat) (f : QueueSt → QueueSt) (s : State) : State :=
  { s with host := { s.host with queues := updAt s.host.queues q f } }

/-- Update plant port p. -/
def onPort (p : Nat) (f : PortSt → PortSt) (s : State) : State :=
  { s with host := { s.host with ports := updAt s.host.ports p f } }

/-- Update network n: 0 A, 1 B, 2 the pendant port. -/
def onNet (n : Nat) (f : NetSt → NetSt) (s : State) : State :=
  { s with host := { s.host with nets := updAt s.host.nets n f } }

/-- Update the host region. -/
def onHost (f : HostSt → HostSt) (s : State) : State := { s with host := f s.host }

/-- Update the pair. -/
def onPair (f : PairSt → PairSt) (s : State) : State := { s with pair := f s.pair }

/-- Update a region's containment state. -/
def onRegion (r : Region) (f : RegionSt → RegionSt) (s : State) : State :=
  { s with regions := updAt s.regions r.id f }

/-- Fold an update over a list. -/
def forAll {α : Type} (l : List α) (f : α → State → State) (s : State) : State := l.foldl (fun t x => f x t) s

/-! ### The cell and the variant -/

/-- Axes the variant and mode allow (R2, R6). -/
def maxAxes (s : State) : Nat :=
  match s.fuse.variant with
  | .v6128 => if s.image.compat then 32 else 128
  | .v6064 => if s.image.compat then 32 else 64
  | .v6016 => 16

/-- Groups the variant and mode allow (R2, R6). -/
def maxGroups (s : State) : Nat :=
  match s.fuse.variant with
  | .v6128 => if s.image.compat then 4 else 16
  | .v6064 => if s.image.compat then 4 else 8
  | .v6016 => 2

/-- AXIO channels of the variant (R152). -/
def maxChans (v : Variant) : Nat := match v with | .v6128 => 32 | .v6064 => 16 | .v6016 => 12

/-- Channels of one AXIO block (R152). -/
def chanBlock (v : Variant) : Nat := match v with | .v6016 => 6 | _ => 8

/-- Rings of the variant (R119). -/
def maxRings (v : Variant) : Nat := match v with | .v6128 => 2 | _ => 1

/-- Servo-slice blocks of the variant (R40). -/
def motBlocks (v : Variant) : Nat := match v with | .v6128 => 8 | .v6064 => 4 | .v6016 => 1

/-- KDE blocks of the variant (R40). -/
def kdeBlocks (v : Variant) : Nat := match v with | .v6128 => 2 | _ => 1

/-- SOL blocks, TRL blocks and AXIO blocks of the variant (R40). -/
def solBlocks (v : Variant) : Nat := match v with | .v6128 => 4 | .v6064 => 2 | .v6016 => 1

/-- AXIO blocks of the variant (R40). -/
def axioBlocks (v : Variant) : Nat := match v with | .v6128 => 4 | _ => 2

/-- Smallest tick exponent (R22). -/
def kMin (v : Variant) : Nat := match v with | .v6016 => 1 | _ => 0

/-- Geometry table entries (R2). -/
def maxPrims (v : Variant) : Nat := match v with | .v6128 => 16384 | .v6064 => 8192 | .v6016 => 2048

/-- Interconnect arbiters: 17 to 19 are absent on the smaller parts. -/
def maxArbs (v : Variant) : Nat := match v with | .v6128 => 20 | _ => 17

/-- Node mode: ring 0 in role node (R150). -/
def nodeMode (s : State) : Bool := (nth s.image.rings 0).role == 3

/-- Whether SOL and TRL are present in the running mode (R6, R150). -/
def hasSolTrl (s : State) : Bool := !s.image.compat && !nodeMode s

/-- Configuration of axis a. -/
def axisCfg (s : State) (a : Nat) : AxisCfg := nth s.image.axes a

/-- Configuration of group g. -/
def grpCfg (s : State) (g : Nat) : GroupCfg := nth s.image.groups g

/-- Configuration of channel c. -/
def chanCfg (s : State) (c : Nat) : ChanCfg := nth s.image.chans c

/-- Configuration of problem p. -/
def probCfg (s : State) (p : Nat) : ProbCfg := nth s.image.probs p

/-- Configuration of flow f. -/
def flowCfg (s : State) (f : Nat) : FlowCfg := nth s.image.flows f

/-- Axis state. -/
def axSt (s : State) (a : Nat) : AxisSt := nth s.mot.axes a

/-- Motion state of group g. -/
def grpSt (s : State) (g : Nat) : GroupSt := nth s.mot.groups g

/-- Safety state of group g. -/
def safG (s : State) (g : Nat) : SafGroup := nth s.saf.g g

/-- Channel state. -/
def chSt (s : State) (c : Nat) : ChanSt := nth s.axio c

/-- Problem state. -/
def probSt (s : State) (p : Nat) : ProbSt := nth s.sol.probs p

/-- Trellis state of group g. -/
def trlG (s : State) (g : Nat) : TrlGroup := nth s.trl.g g

/-- Containment state of a region. -/
def regSt (s : State) (r : Region) : RegionSt := nth s.regions r.id

/-- Tick period in ns: 31.25 µs × 2^k (R22). -/
def periodNs (s : State) : Nat := 31250 * 2 ^ s.image.k

/-- Tick period in seconds as binary32 (R286). -/
def periodF (s : State) : F32 := f32OfRat ((periodNs s : Rat) / 1000000000)

/-- Groups the image defines. -/
def defined (s : State) : Mask := maskOf 16 (fun g => (grpCfg s g).defined)

/-- Axes of group g in ascending number. -/
def axesOf (s : State) (g : Nat) : List Nat :=
  (List.range s.image.axes.length).filter (fun a => (axisCfg s a).defined && (axisCfg s a).group == g)

/-- Groups with an axis that satisfies `p`. -/
def groupsOf (s : State) (p : Nat → AxisCfg → Bool) : Mask :=
  maskOf 16 (fun g => (axesOf s g).any (fun a => p a (axisCfg s a)))

/-- A port on ring r. -/
def portOnRing (r : Nat) : Port → Bool | .ring r' _ _ => r == r' | _ => false

/-- A port at node j of ring r. -/
def portAtNode (r j : Nat) : Port → Bool | .ring r' j' _ => r == r' && j == j' | _ => false

/-- A port at channel c. -/
def portAtChan (c : Nat) : Port → Bool | .axio c' => c == c' | _ => false

/-- Any local channel. -/
def portIsChan : Port → Bool | .axio _ => true | _ => false

/-- Any ring node. -/
def portIsRing : Port → Bool | .ring _ _ _ => true | _ => false

/-- Groups with an axis on ring r (R44, R319). -/
def groupsOfRing (s : State) (r : Nat) : Mask := groupsOf s (fun _ c => portOnRing r c.src || portOnRing r c.dst)

/-- Groups with an axis on node j of ring r (R31). -/
def groupsOfNode (s : State) (r j : Nat) : Mask := groupsOf s (fun _ c => portAtNode r j c.src || portAtNode r j c.dst)

/-- Groups with an axis on channel c. -/
def groupsOfChan (s : State) (c : Nat) : Mask := groupsOf s (fun _ x => portAtChan c x.src || portAtChan c x.dst)

/-- The slice record that serves axis a in the image (R179). -/
def sliceOfAxis (s : State) (a : Nat) : Option SliceCfg :=
  s.image.slices.find? (fun c => c.ax0 == a || c.ax1 == a)

/-- Groups with an axis on slice b.sl (R179). -/
def groupsOfSlice (s : State) (b sl : Nat) : Mask :=
  groupsOf s (fun a _ => match sliceOfAxis s a with | some c => c.b == b && c.s == sl | none => false)

/-- Groups with an axis in servo block b. -/
def groupsOfBlock (s : State) (b : Nat) : Mask :=
  groupsOf s (fun a _ => match sliceOfAxis s a with | some c => c.b == b | none => false)

/-- Groups that KDE block k serves (R237). -/
def groupsOfKde (s : State) (k : Nat) : Mask := maskOf 16 (fun g => (grpCfg s g).defined && (grpCfg s g).kdeb == k)

/-- Enabled for motion: motion states 1 to 8 (R197). -/
def MState.enabled : MState → Bool
  | .disabled => false | .cloche => false | _ => true

/-- Motion states 1 to 7: not DISABLED, STOPPING or CLOCHE. -/
def MState.live : MState → Bool
  | .disabled => false | .cloche => false | .stopping => false | _ => true

/-- Codes of R220. -/
def MState.code : MState → Nat
  | .disabled => 0 | .enabling => 1 | .idle => 2 | .moving => 3 | .waitZone => 4 | .waitSync => 5
  | .halting => 6 | .halted => 7 | .stopping => 8 | .cloche => 9

/-- Codes of SAF.GSTATg.STATE. -/
def GState.code : GState → Nat | .run => 0 | .scaled => 1 | .ss1r => 2 | .sto => 3 | .cloche => 4

/-- Every group that is defined is DISABLED or in Cloche (R414). -/
def allStopped (s : State) (m : Mask) : Bool :=
  (bitsOf m).all (fun g => (grpSt s g).state == .disabled || (grpSt s g).state == .cloche ||
    (safG s g).state == .cloche)

/-! ### Blocks and slices (R40) -/

/-- Blocks of one kind present in a region: the first block number and the count (R40, RBLK numbering). -/
def blockKind (v : Variant) (r : Region) (b : Nat) : Nat × Nat :=
  match r with
  | .mot => if b < 8 then (0, motBlocks v) else (8, kdeBlocks v)
  | .sol => (0, solBlocks v)
  | .trl => (0, solBlocks v)
  | .axio => (0, axioBlocks v)
  | .ring => (0, maxRings v)
  | .saf => (0, 1)
  | .host => (0, 2)
  | _ => (0, 0)

/-- Whether block b of region r exists on the variant. -/
def blockPresent (v : Variant) (r : Region) (b : Nat) : Bool :=
  let k := blockKind v r b
  k.1 ≤ b && b < k.1 + k.2

/-- Slices of a block of the region (R40). -/
def slicesIn (v : Variant) (r : Region) (b : Nat) : Nat :=
  match r with
  | .mot => if b < 8 then 9 else 8
  | .sol => 16
  | .trl => 8
  | .axio => chanBlock v
  | .ring => 2
  | .host => 4
  | .saf => 1
  | _ => 0

/-- PRESENT of RBLK: blocks of the region on the variant and in the running mode. -/
def presentMask (s : State) (r : Region) : BitVec 16 :=
  maskOf 16 (fun b => blockPresent s.fuse.variant r b &&
    !((r == .sol || r == .trl) && !hasSolTrl s) && !(r == .mot && nodeMode s))

/-- RSTAT.STATE: 0 running, 1 degraded, 2 escalated, 3 pruned or restarting, 4 absent. -/
def rstate (s : State) (r : Region) : Nat :=
  let x := regSt s r
  if presentMask s r == 0 && r != .time && r != .chip then 4
  else if x.pruned || x.restarting then 3
  else if x.escalated then 2
  else if x.quar != 0 || x.retired != [] then 1
  else 0

/-- A region that does not run in the present power state (R417, R418). -/
def asleep (r : Region) (s : State) : Bool :=
  match s.chip.pstate with
  | .park => r == .mot || r == .sol || r == .trl
  | .doze => r == .mot || r == .sol || r == .trl || r == .ring
  | _ => false

/-- A region that runs: awake, neither pruned nor being restarted, and present in node mode. -/
def regionUp (r : Region) (s : State) : Bool :=
  !asleep r s && !(regSt s r).pruned && !(regSt s r).restarting &&
    !(nodeMode s && (r == .mot || r == .sol || r == .trl))

/-- Work of a region: nothing happens while the region does not run. [DESIGN CHOICE, log 2] -/
def within (r : Region) (f : State → State) (s : State) : State := if regionUp r s then f s else s

end Sys2Proof.Machine
end

