-- ==== Sys2Proof/Machine/Words.lean ====
section
/-! DEFINITION. Words.lean: the status words that a black-box record keeps (R480), which are also what their registers read. -/

namespace Sys2Proof.Machine

/-- A register word from its fields: value and lowest bit. -/
def fields (l : List (Nat × Nat)) : Word := BitVec.ofNat 32 (l.foldl (fun n p => n + p.1 * 2 ^ p.2) 0)

/-- A one-bit field. -/
def flag (b : Bool) (n : Nat) : Nat × Nat := (b.toNat, n)

/-! ### Regions -/

/-- `region.RSTAT`. -/
def rstatWord (s : State) (r : Region) : Word :=
  fields [((regSt s r).quar.toNat % 256, 16), ((presentMask s r).toNat % 256, 8), (min 15 (regSt s r).retired.length, 4), (rstate s r, 0)]

/-- `region.RBLK`. -/
def rblkWord (s : State) (r : Region) : Word :=
  fields [((regSt s r).quar.toNat, 16), ((presentMask s r).toNat, 0)]

/-! ### Safety inputs and groups -/

/-- The input record of a line. -/
def lineSt (s : State) (i : Nat) : InPair := if i < 12 then nth s.saf.pairs i else nth s.saf.pend (i - 12)

/-- Configuration of pair i. -/
def inputCfg (s : State) (i : Nat) : InputCfg := nth s.image.inputs i

/-- Whether the device evaluates a line: a used pair; a pendant line while the pendant is present (R339). -/
def evaluated (s : State) (i : Nat) : Bool :=
  !nodeMode s && (if i < 12 then (inputCfg s i).func != 0 else s.saf.pres)

/-- Pairs in demand. -/
def demandMask (s : State) : Mask := maskOf 16 (fun i => i < 12 && evaluated s i && (lineSt s i).demand)

/-- `SAF.INSTAT`. -/
def instatWord (s : State) : Word :=
  fields [((demandMask s).toNat, 16), ((maskOf 16 (fun i => i < 12 && (lineSt s i).flt)).toNat, 0)]

/-- `SAF.STOOUT`. -/
def stooutWord (s : State) : Word := fields [(s.saf.level.toNat, 16), (s.saf.rberr.toNat, 0)]

/-- `SAF.LAST`. -/
def lastWord (s : State) : Word := fields [(s.saf.lastA, 16), (s.saf.lastB, 0)]

/-- `SAF.MON`. -/
def monWord (s : State) : Word := fields [(s.saf.vcore, 24), (s.saf.tj, 16)]

/-- Restart blocked (R314, R321). -/
def blocked (x : SafGroup) : Bool := x.rbBlock || x.expBlock

/-- `SAF.GSTATg`. -/
def gstatWord (s : State) (g : Nat) : Word :=
  let x := safG s g
  let left := if x.state == .ss1r then min 0xFFFF (s.time.tickno - x.decTick)
    else if x.deg then min 0xFFFF ((x.tleft + 999999999) / 1000000000) else 0
  fields [(x.state.code, 28), flag x.deg 27, flag (x.sls != []) 26, flag x.aLatch 25, flag (blocked x) 24, (x.cause % 256, 16), (left, 0)]

/-! ### Motion -/

/-- `MOT.GSTATg`. -/
def motGstatWord (s : State) (g : Nat) : Word :=
  let x := grpSt s g
  fields [(x.state.code, 28), (x.queue.length, 21), (x.segId % 65536, 0)]

/-- `MOT.SFAULTbs`; 0 for an absent slice. -/
def sfaultWord (s : State) (b sl : Nat) : Word :=
  match s.mot.slices.find? (fun x => x.b == b && x.s == sl) with
  | some x => fields [(x.fcause, 28), (x.fpc.toNat, 0)]
  | none => 0

/-- `MOT.BSPAREb`. -/
def bspareWord (s : State) (b : Nat) : Word :=
  let x := nth s.mot.spares b
  fields [(x.spst, 28), (x.spfor, 24), (x.rot, 20), (x.divcnt, 8), (x.skipcnt, 0)]

/-- `TRL.GSCALEg`. -/
def gscaleWord (s : State) (g : Nat) : Word :=
  let x := trlG s g
  fields [(x.scale, 16), flag x.stopreq 15, (x.limkind, 12), (x.limidx, 0)]

/-! ### TIME, CHIP, the pair and the rings -/

/-- `TIME.PROMISE`. -/
def promiseWord (s : State) : Word :=
  fields [flag s.time.promOut 31, (s.time.promCause.toNat, 24), (s.time.promGroups.toNat, 0)]

/-- A domain is valid (R97). -/
def DomSt.valid (d : DomSt) : Bool :=
  match d.best with
  | some g => d.annFresh && d.syncFresh && g.cls != 248 && g.cls != 255
  | none => false

/-- `TIME.SERVO`. -/
def servoWord (s : State) : Word :=
  fields [(s.time.servo, 29), flag s.time.sel 28, flag (nth s.time.doms 0).valid 27, flag (nth s.time.doms 1).valid 26,
    flag (s.time.domofs != 0) 25, (s.time.holdSec, 0)]

/-- `CHIP.XINGSTAT`. -/
def xingstatWord (s : State) : Word := fields [flag s.chip.xOvf 31, (s.chip.xOvfDom, 24), (s.chip.xHang, 0)]

/-- `TIME.SLACKp`. -/
def slackWord (s : State) (p : Nat) : Word :=
  let x := nth s.time.slack p
  fields [flag x.miss 31, (x.last, 16), (x.low, 0)]

/-- `CHIP.PAIRSTAT`. -/
def pairstatWord (s : State) : Word :=
  let p := s.pair
  fields [(p.role, 30), flag p.fit 29, flag p.pfit 28, flag p.linkOk 27, flag p.ringOk 26, flag p.vote 25, flag p.pvote 24,
    flag p.pid 23, (p.unfit, 16), (p.lost, 8), (p.eqrun, 0)]

/-- `CHIP.PAIRHO`. -/
def pairhoWord (s : State) : Word := fields [(s.pair.hoCause, 28), (s.pair.hoTick % 2 ^ 28, 0)]

/-- Codes of `RING.STATr.STATE`. -/
def RingState.code : RingState → Nat
  | .down => 0 | .listen => 1 | .coldStart => 2 | .measure => 3 | .preRun => 4 | .run => 5 | .healed => 6 | .split => 7
  | .acquire => 8 | .join => 9 | .silent => 10

/-- `RING.STATr`. -/
def ringStatWord (s : State) (r : Nat) : Word :=
  let x := nth s.ring r
  fields [(x.state.code, 28), flag (x.broken != 0) 23, (x.brkA % 32, 18), (x.brkB % 32, 13), (x.master, 8), (x.coll, 0)]

/-- CHIP.FUSE. -/
def fuseWord (s : State) : Word := fields [flag s.fuse.opened 31, flag s.fuse.keyDigest.isSome 30, flag s.fuse.idKey 29]

/-- PSTATE.STATE codes. -/
def PState.code : PState → Nat | .start => 0 | .run => 1 | .park => 2 | .doze => 3

/-! ### The black-box record (R480) -/

/-- Bytes 2112 to 2679: the registers of a record. -/
def bbWords (s : State) : List Word :=
  ([Region.time, .ring, .axio, .mot, .sol, .trl, .saf, .host].map (rstatWord s)) ++
  (List.range 16).map (gstatWord s) ++ (List.range 16).map (motGstatWord s) ++
  ((List.range 8).map (fun b => (List.range 9).map (sfaultWord s b))).flatten ++ (List.range 8).map (bspareWord s) ++
  [instatWord s, stooutWord s, lastWord s, monWord s, s.saf.sig, promiseWord s, servoWord s, xingstatWord s] ++
  (List.range 10).map (slackWord s) ++ [pairstatWord s, pairhoWord s] ++ [ringStatWord s 0, ringStatWord s 1]

/-- The variant and mode have the registers of a region, else its words are recorded as 0. -/
def bbHead (s : State) : List Byte :=
  leBytes 8 s.time.tb ++ leBytes 8 s.time.tickno ++ leBytes 8 s.fuse.serial.toNat ++
  leBytes 8 (if s.chip.phase = .noImage then 0 else s.image.digest) ++
  leBytes 8 (if s.chip.phase = .noImage then 0 else s.image.imgSeq) ++
  leBytes 1 (s.chip.slot.toNat + 2 * s.chip.fallback.toNat + 4 * s.image.compat.toNat + 8 * (nodeMode s).toNat +
    16 * s.chip.pstate.code) ++
  leBytes 1 s.chip.rstKind ++ leBytes 2 s.chip.rstCount ++ leBytes 4 (fuseWord s).toNat

/-- An event log entry (R453). -/
def evBytes (e : EvEntry) : List Byte := leBytes 8 e.tb ++ leBytes 4 e.tick ++ leBytes 2 e.code ++ leBytes 2 e.detail

/-- The newest n log entries, oldest first. -/
def newestEntries (s : State) (n : Nat) : List EvEntry :=
  ((List.range n).reverse).filterMap (fun i => assoc s.chip.ev ((s.chip.evWr + 511 - i) % 512))

/-- A record's 4,096 bytes but for RSEQ, the number within the start and the CRC. -/
def bbBody (trigger code detail rseq num : Nat) (head : List Byte) (es : List EvEntry) (ws : List Word) : List Byte :=
  let b := [0x42, 0x42, 0x58, 0x31] ++ leBytes 4 rseq ++ leBytes 2 trigger ++ leBytes 2 code ++ leBytes 2 detail ++
    leBytes 1 num ++ [0xB0] ++ head
  let log := (es.map evBytes).flatten
  let b := b ++ (log ++ List.replicate 2048 0).take 2048 ++ (ws.map (fun w => leBytes 4 w.toNat)).flatten
  let b := (b ++ List.replicate 4092 0).take 4092
  b ++ leBytes 4 (crc32c b).toNat

end Sys2Proof.Machine
end

