-- ==== Sys2Proof/Machine/Ops.lean ====
section
/-! DEFINITION. Ops.lean: the named operations every meaning shares: raising an event, safety causes and fault classes, the
promise marks, the black-box triggers, and the containment of slice, block and region faults. -/

namespace Sys2Proof.Machine

/-! ### Events (R452 to R454) -/

/-- Note a raise, or a queue that turned non-empty, for every flow bound to it (R358): a count by flow. -/
def noteBound : List FlowCfg → Nat → Nat → List (Nat × Nat) → List (Nat × Nat)
  | [], _, _, l => l
  | f :: r, i, code, l => noteBound r (i + 1) code
      (if f.type = 3 ∧ f.bind = code then assocPut l i (satAdd 0xFFFF ((assoc l i).getD 0) 1) else l)

/-- Raise an event: one entry in the log, TOTAL, and a raise for the flows bound to its code (R358). -/
def event (code detail : Nat) (s : State) : State :=
  let e : EvEntry := { tb := s.time.tb, tick := s.time.tickno % 2 ^ 32, code := code, detail := detail }
  let c := s.chip
  let rd := if c.evFull then (c.evRd + 1) % 512 else c.evRd
  let wr := (c.evWr + 1) % 512
  let bnd := noteBound s.image.flows 0 code c.bound
  { s with chip := { c with
      ev := assocPut c.ev c.evWr e, evWr := wr, evRd := rd,
      evLost := if c.evFull then satAdd 0xFFFF c.evLost 1 else c.evLost,
      evFull := c.evFull || wr == rd, evTotal := satAdd 0xFFFF c.evTotal 1, bound := bnd } }

/-- Raise an event at most once per tick per index (R454): a suppressed raise is not raised at all. -/
def eventOnce (code key detail : Nat) (s : State) : State :=
  if s.chip.once.contains (code, key) then s
  else event code detail (onChip (fun c => { c with once := (code, key) :: c.once }) s)

/-- The DETAIL of a mask of groups. -/
def maskDetail (m : Mask) : Nat := m.toNat

/-! ### The black box (R421, R481) -/

/-- The event of a trigger; a class A fault names its own. [DESIGN CHOICE, log 103] -/
def bbCode (t code : Nat) : Nat :=
  match t with | 1 => 0x01E4 | 3 => 0x0170 | 4 => 0x0804 | 5 => 0x0156 | _ => code

/-- The DETAIL of the newest log entry of a code, 0 where there is none. -/
def bbDetail (s : State) (code : Nat) : Nat :=
  match (newestEntries s 128).reverse.find? (fun e => e.code == code) with | some e => e.detail | none => 0

/-- Take a black-box record for trigger t with an event code: its content at this instant; one record per tick, whose trigger is
the lowest number; two may wait, sixteen per start. -/
def bbTrigger (t code : Nat) (s : State) : State :=
  let c := s.chip
  let code := bbCode t code
  if c.bbTick then
    { s with chip := { c with bbWait := match c.bbWait.getLast? with
        | some r => if t < r.trigger then c.bbWait.dropLast ++ [{ r with trigger := t, code := code, detail := bbDetail s code }] else c.bbWait
        | none => c.bbWait } }
  else if 2 ≤ c.bbWait.length || 16 ≤ c.bbRec + c.bbWait.length then
    { s with chip := { c with bbSkip := satAdd 255 c.bbSkip 1, bbTick := true } }
  else
    { s with chip := { c with bbTick := true, bbWait := c.bbWait ++
        [{ trigger := t, code := code, detail := bbDetail s code, head := bbHead s, entries := newestEntries s 128,
           words := bbWords s }] } }

/-! ### Promise marks (R72, R80) -/

/-- Mark groups outside the promise in this tick for cause bit 24 + i. -/
def mark (i : Nat) (m : Mask) (s : State) : State :=
  onTime (fun t => { t with causeNow := updAt t.causeNow i (· ||| m) }) s

/-- Mark groups outside the promise in the next tick for cause bit 24 + i. -/
def markNext (i : Nat) (m : Mask) (s : State) : State :=
  onTime (fun t => { t with causeNext := updAt t.causeNext i (· ||| m) }) s

/-! ### Safety causes and fault classes (R307, R319) -/

/-- Update the recording unit. -/
def onRec (f : RecSt → RecSt) (s : State) : State := { s with recd := f s.recd }

/-- The persistent state as it stands (R91). [DESIGN CHOICE, log 36] -/
def persistent (s : State) : Ckpt :=
  { tick := s.time.tickno, mot := s.mot, sol := s.sol, trl := s.trl, axio := s.axio, pairs := s.saf.pairs, pend := s.saf.pend }

/-- Capture a checkpoint while recording runs: its copy begins (R91). [DESIGN CHOICE, log 36] -/
def takeCheckpoint (s : State) : State :=
  if s.recd.on then onRec (fun r => { r with ckptNow := some (persistent s), ckptAge := 0, ckptMark := true }) s else s

/-- Stop the recording counter: the first miss or class A fault starts the countdown of R90. -/
def recTrip (s : State) : State :=
  if s.recd.on && s.recd.stopLeft.isNone then
    { s with recd := { s.recd with stopLeft := some s.image.recStop } } else s

/-- Demand SS1-r for the groups of a mask at the next decision, with a cause code (R307). [DESIGN CHOICE, log 79; DEDUCED, log 80] -/
def demandStop (m : Mask) (cause : Nat) (s : State) : State :=
  forAll (bitsOf m) (fun g => onSafG g (fun x => { x with stopReq := x.stopReq ||| bitOf 32 cause })) s

/-- Demand STO for the groups of a mask at the next decision, with a cause code (R307). -/
def demandSto (m : Mask) (cause : Nat) (s : State) : State :=
  forAll (bitsOf m) (fun g => onSafG g (fun x => { x with stoReq := x.stoReq ||| bitOf 32 cause })) s

/-- Latch a class A fault (R319) of the groups of a mask: LASTA, a black-box record, the recording countdown. `src` is the
bit of the source whose fault persists until cleared; 16 or above for a fault that has ended or that other state shows. -/
def latchA (m : Mask) (src code : Nat) (s : State) : State :=
  let s := bbTrigger 2 code (recTrip s)
  let s := forAll (bitsOf m) (fun g => onSafG g (fun x =>
    { x with aLatch := true, aActive := x.aActive ||| bitOf 16 src })) s
  onSaf (fun f => { f with lastA := code }) s

/-- A class A fault with its SS1-r of cause 9 (R307, R319). -/
def classA (m : Mask) (src code : Nat) (s : State) : State := demandStop m 9 (latchA m src code s)

/-- A class A source ends for the groups of a mask (R315 condition 2). -/
def endA (m : Mask) (src : Nat) (s : State) : State :=
  forAll (bitsOf m) (fun g => onSafG g (fun x => { x with aActive := x.aActive &&& ~~~ bitOf 16 src })) s

/-- A class B condition becomes active (R319). -/
def addB (src idx : Nat) (m : Mask) (code : Nat) (s : State) : State :=
  if s.saf.bconds.any (fun c => c.src == src && c.idx == idx) then s
  else onSaf (fun f => { f with bconds := f.bconds ++ [{ src := src, idx := idx, scope := m }], lastB := code }) s

/-- A class B condition ends. -/
def endB (src idx : Nat) (s : State) : State :=
  onSaf (fun f => { f with bconds := f.bconds.filter (fun c => !(c.src == src && c.idx == idx)) }) s

/-- Some class B condition of the scope of g is active (R320). -/
def hasB (s : State) (g : Nat) : Bool := s.saf.bconds.any (fun c => hasBit c.scope g)

/-! ### Containment (R41 to R47) -/

/-- Planned handover on an escalation (R438): active with AUTOHO and a fit standby. -/
def autoHandover (s : State) : State :=
  if s.pair.role == 1 && s.image.pairCfg.autoho && s.pair.pfit && s.pair.hoReq.isNone then
    onPair (fun p => { p with hoReq := some s.time.tickno, hoEsc := true, hoTries := 0 }) s else s

/-- A set-point path that is gone: its ring controller is quarantined or its channel retired (R44, R46). -/
def pathLost (s : State) : Port → Bool
  | .none => false
  | .axio c => (chSt s c).retired
  | .ring r _ _ => hasBit (regSt s .ring).quar r

/-- Groups that have lost their set-point path (R46). [DESIGN CHOICE, log 121] -/
def noPath (s : State) : Mask := groupsOf s (fun _ c => pathLost s c.dst)

/-- Groups that a miss of this tick lends their extrapolated set-points in compatibility mode: the miss stops them at the next E0, and
the escalation stops every other group (R489). -/
def lent (s : State) : Mask := if s.image.compat then s.time.xtrapNow else 0

/-- Escalation of a region to chip level (R45, R46), once until a reset. A cause in SAF or TIME withholds the refresh as well
(R301). [DEDUCED, log 42; DESIGN CHOICE, log 121] -/
def escalate (r : Region) (s : State) : State :=
  if (regSt s r).escalated then s
  else
    let all := defined s
    let s := bbTrigger 1 0 (recTrip (onRegion r (fun x => { x with escalated := true }) s))
    let s := mark 4 all (event 0x01E4 0 (onChip (fun c => { c with escalated := true }) s))
    let s := demandSto (noPath s) 9 s
    if r == .saf || r == .time then
      demandSto all 15 (onSaf (fun f => { f with withheld := true }) s)
    else autoHandover (demandStop (all &&& ~~~ lent s) 15 s)

/-- The problems that use a group (R261): USE 1 and 2 problems that serve it. -/
def probGroups (s : State) (p : Nat) : Mask :=
  let c := probCfg s p
  if c.op != 0 && (c.use == 1 || c.use == 2) then bitOf 16 c.group else 0

/-- Groups whose next set-points would have used a job or tick-locked item in progress (R491). -/
def lostWork (s : State) (r : Region) (b : Nat) : Mask :=
  match r with
  | .sol => ((List.range s.image.probs.length).filter (fun p =>
      (probSt s p).block == b && ((probSt s p).job == .running || (probSt s p).job == .waiting))).foldl
        (fun m p => m ||| probGroups s p) 0
  | .host => ((List.range 4).map (fun i => 4 * b + i)).foldl (fun m c =>
      ((nth s.host.cores c).item.toList ++ (nth s.host.cores c).copying.toList).foldl (fun m it =>
        if (flowCfg s it.flow).type == 2 then m ||| (flowCfg s it.flow).gdep &&& defined s else m) m) 0
  | _ => 0

/-- The scheduling trace (R374): one record, unless its kind or its flow is not traced; a record that finds no room is counted,
and the next one that fits follows a record of KIND 12. [DESIGN CHOICE, log 91] -/
def trace (k f handle core result info dl : Nat) (s : State) : State :=
  if !hasBit s.image.traceMask k || (flowCfg s f).notrace then s
  else
    let h := s.host
    let room := (nth s.image.queues 30).depth - h.trace.length
    let r : TraceRec := { tb := s.time.tb, deadline := dl, tick := s.time.tickno % 2 ^ 32, flow := f, handle := handle,
                          kind := k, core := core, result := result, info := info }
    let lost : TraceRec := { tb := s.time.tb, tick := s.time.tickno % 2 ^ 32, kind := 12, info := h.traceLost }
    if room < (if h.traceLost = 0 then 1 else 2) then
      eventOnce 0x0910 0 0 (onHost (fun h => { h with traceLost := h.traceLost + 1 }) s)
    else
      let bnd := if h.trace = [] then noteBound s.image.flows 0 30 s.chip.bound else s.chip.bound
      onChip (fun c => { c with bound := bnd }) (onHost (fun h => { h with
        trace := h.trace ++ (if h.traceLost = 0 then [r] else [lost, r]), traceLost := 0 }) s)

/-- A lost HOST core: the item in service ends as under Prune of a work item; the core leaves service (R41, R363). -/
def loseCore (c : Nat) (s : State) : State :=
  let k := nth s.host.cores c
  let s := match k.item with
    | some it => trace 4 it.flow it.handle c 4 ((s.time.tb - k.started) / 8) it.deadline s
    | none => s
  onHost (fun h => { h with live := h.live &&& ~~~ bitOf 8 c })
    (onCore c (fun k => { k with item := none, copying := none, fault := true }) s)

/-- The flows whose CORES name no live core may run anywhere: HOST_FLOW_MOVED once per flow (R363). -/
def moveFlows (s : State) : State :=
  forAll ((List.range s.image.flows.length).filter (fun f =>
      (flowCfg s f).type != 0 && ((flowCfg s f).cores &&& s.host.live) == 0 && !(nth s.host.flows f).moved &&
      s.host.live != 0))
    (fun f t => trace 11 f 0xFFFF 255 0 0 0 (event 0x0905 f (onFlow f (fun x => { x with moved := true }) t))) s

/-- A lost AXIO channel: retired, its feedback null from now on (R41). [DESIGN CHOICE, log 43] -/
def loseChan (c : Nat) (s : State) : State :=
  onChan c (fun x => { x with retired := true, fbNull := true, sched := [], schedNext := [] }) s

/-- The reaction of R44 to the loss of block b. -/
def blockReaction (r : Region) (b : Nat) (s : State) : State :=
  match r with
  | .mot =>
    if b < 8 then
      let m := groupsOfBlock s b
      let as := (List.range s.image.axes.length).filter (fun a =>
        match sliceOfAxis s a with | some c => c.b == b | none => false)
      let s := forAll as (fun a => onAxis a (fun x => { x with sliceBad := true })) s
      let s := { s with mot := { s.mot with slices := s.mot.slices.map (fun x =>
        if x.b = b ∧ x.run ≠ .retired then { x with run := .stopped } else x) } }
      classA m 16 0x05E3 (mark 4 m s)
    else
      let m := groupsOfKde s (b - 8)
      let s := forAll (bitsOf m) (fun g => onGrp g (fun x => { x with frozenPoses := true })) s
      classA m 16 0x05E3 (mark 4 m s)
  | .sol =>
    let m := lostWork s r b
    let s := forAll (List.range s.image.probs.length) (fun p => onProb p (fun x =>
      if x.block == b && (x.job == .running || x.job == .waiting) then { x with job := .gone, laneFault := true } else x)) s
    { (markNext 4 m s) with sol := { (markNext 4 m s).sol with live := updAt s.sol.live b (fun _ => 0) } }
  | .trl => addB 13 b (defined s) 0x07E3
      { s with trl := { s.trl with live := s.trl.live &&& ~~~ (BitVec.ofNat 32 (0xFF * 2 ^ (8 * b))) } }
  | .axio =>
    let n := chanBlock s.fuse.variant
    let cs := (List.range n).map (fun i => n * b + i)
    let m := groupsOf s (fun _ c => cs.any (fun k => portAtChan k c.src || portAtChan k c.dst))
    classA m 16 0x04E3 (mark 4 m (forAll cs loseChan s))
  | .ring =>
    let m := groupsOfRing s b
    let s := onRing b (fun x => { x with state := .down, txStopped := true }) s
    demandSto m 9 (classA m 16 0x03E3 (mark 4 m s))
  | .host =>
    let m := lostWork s r b
    moveFlows (forAll ((List.range 4).map (fun i => 4 * b + i)) loseCore (markNext 4 m s))
  | _ => s

/-- Quarantine block b of region r (R43 to R45): QUAR, BLOCK_QUAR, the reaction, and escalation of the region when it has
lost two blocks or its only block of the kind. In compatibility mode the fault escalates at once (R67). [DESIGN CHOICE, log 121] -/
def quarantine (r : Region) (b : Nat) (s : State) : State :=
  if s.image.compat then escalate r s
  else if hasBit (regSt s r).quar b then s
  else
    let s := onRegion r (fun x => { x with quar := x.quar ||| bitOf 16 b }) s
    let s := blockReaction r b (event (256 * r.id + 0xE3) 0 s)
    let lost := (bitsOf (regSt s r).quar).length
    if r == .saf || 2 ≤ lost || (blockKind s.fuse.variant r b).2 == 1 then escalate r s else s

/-- Whether every slice of block b has been retired or has faulted. -/
def allRetired (s : State) (r : Region) (b : Nat) : Bool :=
  (List.range (slicesIn s.fuse.variant r b)).all (fun i =>
    (regSt s r).retired.contains (16 * b + i) || (regSt s r).faulted.contains (16 * b + i))

/-- Note a slice fault: the event of R47, and the block fails when no slice of it is left (R43). -/
def noteFault (r : Region) (b sl : Nat) (s : State) : State :=
  let s := event (256 * r.id + 0xE0) (16 * b + sl) s
  let s := onRegion r (fun x => { x with faulted := x.faulted ++ [16 * b + sl] }) s
  if allRetired s r b then quarantine r b s else s

/-- Distance pipes in blocks that are present and not quarantined (R40, R44). -/
def pipesHere (s : State) : List Nat :=
  (List.range 32).filter (fun p => hasBit (presentMask s .trl) (p / 8) && p % 8 < slicesIn s.fuse.variant .trl (p / 8) &&
    !hasBit (regSt s .trl).quar (p / 8))

/-- Distance pipes that serve. -/
def pipesServing (s : State) : List Nat :=
  (pipesHere s).filter (fun p => let i := 16 * (p / 8) + p % 8
    !(regSt s .trl).faulted.contains i && !(regSt s .trl).retired.contains i)

/-! ### Answers to accesses -/

/-- Complete an access with an error token. -/
def errorToken (s : State) : State := onChip (fun c => { c with resp := .errorToken }) s

/-- Complete an access with a value. -/
def answer (v : Word) (s : State) : State := onChip (fun c => { c with resp := .value v }) s

/-- Complete a write. -/
def acked (s : State) : State := onChip (fun c => { c with resp := .done }) s

/-- An access to an absent unit (R3): reads 0, writes discarded, CHIP_ABSENT, never an error token. -/
def absentAccess (write : Bool) (s : State) : State :=
  event 0x0101 0 (if write then acked s else answer 0 s)

/-! ### Memory (R443, R447): canonical cells -/

/-- What a byte that nothing has written reads as: erased flash in the copy of the flash's own areas (R482), 0 elsewhere. [DESIGN CHOICE, log 20] -/
def memDefault (k : Nat) : Byte := if 0x1FFE00000 ≤ k ∧ k < 0x200000000 then 0xFF else 0

/-- The byte at a DMA address. [DESIGN CHOICE, log 20] -/
def memRead : List Host.Cell → Nat → Byte
  | [], k => memDefault k
  | (a, v) :: r, k => if a = k then v else memRead r k

/-- Insert a byte keeping addresses rising. -/
def memPut : List Host.Cell → Nat → Byte → List Host.Cell
  | [], k, v => [(k, v)]
  | (a, w) :: r, k, v => if k < a then (k, v) :: (a, w) :: r else if k = a then (k, v) :: r else (a, w) :: memPut r k v

/-- Remove an address. -/
def memDel : List Host.Cell → Nat → List Host.Cell
  | [], _ => []
  | (a, w) :: r, k => if a = k then r else (a, w) :: memDel r k

/-- Write a byte: writing what an unlisted byte reads as removes the entry. -/
def memWrite (m : List Host.Cell) (k : Nat) (v : Byte) : List Host.Cell := if v = memDefault k then memDel m k else memPut m k v

/-- Write bytes from an address on. -/
def memWrites : List Host.Cell → Nat → List Byte → List Host.Cell
  | m, _, [] => m
  | m, k, b :: bs => memWrites (memWrite m k b) (k + 1) bs

/-- The canonical form: addresses strictly rising and no entry equal to what an unlisted byte reads as. -/
def Memory.wf : List Host.Cell → Bool
  | [] => true
  | (a, v) :: [] => v != memDefault a
  | (a, v) :: (b, w) :: r => v != memDefault a && a < b && Memory.wf ((b, w) :: r)

/-- A DMA address that exists: LP4X DRAM or shared SRAM (R447). -/
def dmaOk (a : Nat) : Bool := a < 0x200000000 || (0x8000000000 ≤ a && a < 0x8000800000)

/-! ### Answering a command -/

/-- The outcome of a command. -/
abbrev Out := Host.Outcome State Fault Refusal

/-- Insert an entry after every entry of a code that is not larger. [DEDUCED, log 3] -/
def codeInsert (e : EvEntry) : List EvEntry → List EvEntry
  | [] => [e]
  | x :: r => if e.code < x.code then e :: x :: r else x :: codeInsert e r

/-- Write entries from index i on. -/
def putEntries : List (Nat × EvEntry) → Nat → List EvEntry → List (Nat × EvEntry)
  | l, _, [] => l
  | l, i, e :: r => putEntries (assocPut l i e) ((i + 1) % 512) r

/-- The entries that step `t` wrote after `s`, in ascending code (R454): one step is one instant. [DEDUCED, log 3] -/
def settle (s t : State) : State :=
  let n := (t.chip.evWr + 512 - s.chip.evWr) % 512
  if n ≤ 1 then t
  else
    let es := (List.range n).filterMap (fun i => assoc t.chip.ev ((s.chip.evWr + i) % 512))
    { t with chip := { t.chip with ev := putEntries t.chip.ev s.chip.evWr (es.foldl (fun l e => codeInsert e l) []) } }

/-- Run an update as a command: the next state with the events of the instant in order. [DESIGN CHOICE, log 2] -/
def run (f : State → State) (s : State) : Out := .next (settle s (f s))

/-- An event of a region: nothing happens while the region does not run. -/
def runIn (r : Region) (f : State → State) (s : State) : Out := run (within r f) s

/-- A region that a Prune or a restart has stopped: accesses end with an error token (R60, R415). -/
def regionStopped (r : Region) (s : State) : Bool := (regSt s r).pruned || (regSt s r).restarting

/-- An access to a register of a region. [DESIGN CHOICE, log 26] -/
def access (r : Region) (f : State → State) (s : State) : State := if regionStopped r s then errorToken s else f s

/-- An access to a region as a command. [DESIGN CHOICE, log 2] -/
def runAcc (r : Region) (f : State → State) (s : State) : Out := run (access r f) s

/-- A free value of the device (R487 leaves it open): drawn and counted. [DESIGN CHOICE, log 5] -/
def drawFree (s : State) : BitVec 32 × State := (Config.freeValue s.free, { s with free := s.free + 1 })

end Sys2Proof.Machine
end

