-- ==== Sys2Proof/Machine/Chip.lean ====
section
/-! DEFINITION. Chip.lean: the interconnect arbiters (R48 to R54), the crossings to clocked domains (R55 to R59) and the
accesses that end without reaching a register (R3, R11, R44, R444). -/

namespace Sys2Proof.Machine

/-! ### Arbiters -/

/-- Update arbiter n. -/
def onArb (n : Nat) (f : ArbSt → ArbSt) (s : State) : State := onChip (fun c => { c with arbs := updAt c.arbs n f }) s

/-- Arbiter n. -/
def arbSt (s : State) (n : Nat) : ArbSt := nth s.chip.arbs n

/-- The ranks a requester holds locked. -/
def lockRanks (s : State) (id : Nat) : List Nat :=
  (List.range s.chip.arbs.length).filter (fun n => (arbSt s n).lock == some id)

/-- The highest rank a requester holds locked. -/
def topLock (s : State) (id : Nat) : Option Nat := (lockRanks s id).getLast?

/-- A request of `id` already waits at arbiter n. -/
def isWaiting (a : ArbSt) (id : Nat) : Bool := (a.parked ++ a.fresh).any (fun r => r.id == id)

/-- A requester asks for something new only after its grant has ended at its break point (R48): the grant it held is over. -/
def endGrants (id : Nat) (s : State) : State :=
  onChip (fun c => { c with arbs := c.arbs.map (fun a =>
    if a.grant = some id then { a with grant := none, grantPri := 0 } else a) }) s

/-- Refuse a request out of rank: CHIP_ORDER, nothing parked, the locks stay (R48). -/
def refuseOrder (n : Nat) (s : State) : State := event 0x0110 n s

/-- Put a request before arbiter n for its next decision. -/
def raiseRequest (n id : Nat) (lock : Bool) (len : Nat) (s : State) : State :=
  if isWaiting (arbSt s n) id then s
  else onArb n (fun a => { a with fresh := a.fresh ++ [{ id := id, lock := lock, len := len }] }) s

/-- A lock request is in order: fewer than four locks held and a rank above them all (R48). [DESIGN CHOICE, log 40] -/
def lockInOrder (s : State) (n id : Nat) : Bool :=
  (lockRanks s id).length < 4 && (match topLock s id with | some h => h < n | none => true)

/-- A grant request is in order: a target held locked, or above every lock held (R48). -/
def grantInOrder (s : State) (n id : Nat) : Bool :=
  (arbSt s n).lock == some id || (match topLock s id with | some h => h < n | none => true)

/-- A request of arbiter n is in order (R48). -/
def requestInOrder (s : State) (n : Nat) (r : ArbReq) : Bool :=
  if r.lock then lockInOrder s n r.id else grantInOrder s n r.id

/-- LOCK_REQUEST (R48). [DESIGN CHOICE, log 40] -/
def lockRequest (n id : Nat) (s : State) : State :=
  if maxArbs s.fuse.variant ≤ n then absentAccess true s
  else if lockInOrder s n id then raiseRequest n id true 0 (endGrants id s)
  else refuseOrder n s

/-- GRANT_REQUEST (R48); `len` is the payload of a frame that firmware sends on a ring. -/
def grantRequest (n id len : Nat) (s : State) : State :=
  if maxArbs s.fuse.variant ≤ n then absentAccess true s
  else if grantInOrder s n id then raiseRequest n id false len (endGrants id s)
  else refuseOrder n s

/-- LOCK_RELEASE (R48): only the holder of the lock releases it; its transfer on the target has ended. -/
def lockRelease (n id : Nat) (s : State) : State :=
  if (arbSt s n).lock = some id then
    onArb n (fun a => { a with lock := none, grant := (if a.grant = some id then none else a.grant) }) s
  else s

/-- Priority of requester j: `CHIP.REQPRIj`, ids 46 to 63 read 0 (R449). -/
def reqPri (s : State) (j : Nat) : Nat := if j < 46 then s.chip.reqPri.getD j 0 % 8 else 0

/-- Priority of a waiting request: 8 from an age of 64 on (R50). -/
def reqLevel (s : State) (r : ArbReq) : Nat := if 64 ≤ r.age then 8 else reqPri s r.id

/-- A requester holds the grant of an arbiter other than n: it holds at most one at a time (R48). -/
def holdsElsewhere (s : State) (n id : Nat) : Bool :=
  (List.range s.chip.arbs.length).any (fun m => m != n && (arbSt s m).grant == some id)

/-- Wire time of a ring frame of n payload bytes, in 0.1 ns (R124 item 5). -/
def wireTime (n : Nat) : Nat := (8 + max 64 (14 + 16 + n + 4)) * 32

/-- The transmit arbiter of a ring port (R134): the schedule engine is the only requester served, but in an ACYCLIC slot of this
node firmware's frame is, when with those granted in the slot before it ends 200 ns before the slot does. [DEDUCED, log 135] -/
def ringTxOk (s : State) (n : Nat) (r : ArbReq) : Bool :=
  if n < 15 || 18 < n then true
  else
    let k := (n - 15) / 2
    let x := nth s.ring k
    let e := nth (nth s.image.rings k).slots x.slot
    r.id == 32 + k || (e.kind == 6 && e.owner == x.node && x.acyUsed + wireTime r.len + 2000 ≤ e.len * 80)

/-- Wire time granted to firmware in the running slot. [DEDUCED, log 135] -/
def noteAcyclic (n : Nat) (r : ArbReq) (s : State) : State :=
  if n < 15 || 18 < n || r.id == 32 + (n - 15) / 2 then s
  else onRing ((n - 15) / 2) (fun x => { x with acyUsed := x.acyUsed + wireTime r.len }) s

/-- A request that arbiter n may serve: the target is not locked by another, its requester holds no other grant (R48), and a ring
port is free for it (R134). [DEDUCED, log 39] -/
def eligible (s : State) (n : Nat) (r : ArbReq) : Bool :=
  !holdsElsewhere s n r.id && ringTxOk s n r &&
    (match (arbSt s n).lock with | some h => h == r.id && !r.lock | none => true)

/-- The better of two new requests: the higher priority, then the lower id (R50). [DEDUCED, log 39] -/
def betterNew (s : State) (x y : ArbReq) : ArbReq :=
  if reqLevel s x < reqLevel s y then y
  else if reqLevel s y < reqLevel s x then x
  else if y.id < x.id then y else x

/-- The better of an older request and a younger: only a higher priority displaces the older (R50). [DEDUCED, log 39] -/
def betterOld (s : State) (x y : ArbReq) : ArbReq := if reqLevel s x < reqLevel s y then y else x

/-- The request arbiter n would choose among the waiting ones: parked in order of age in the queue, then new (R50). [DEDUCED, log 39] -/
def chooseWaiting (s : State) (n : Nat) : Option ArbReq :=
  let ps := (arbSt s n).parked.filter (eligible s n)
  let fs := (arbSt s n).fresh.filter (eligible s n)
  let p := match ps with | [] => none | x :: r => some (r.foldl (betterOld s) x)
  let f := match fs with | [] => none | x :: r => some (r.foldl (betterNew s) x)
  match p, f with
  | some x, some y => some (betterOld s x y)
  | some x, none => some x
  | none, y => y

/-- Insert a request by its requester id. -/
def insertId (r : ArbReq) : List ArbReq → List ArbReq
  | [] => [r]
  | x :: l => if r.id < x.id then r :: x :: l else x :: insertId r l

/-- Requests in ascending requester id: the order of R50 among requests raised at one decision. -/
def byId (l : List ArbReq) : List ArbReq := l.foldl (fun acc r => insertId r acc) []

/-- Park the losing new requests in the order of R50, at most 16 in the queue; the others are re-issued at the next decision and
counted (R51). [DEDUCED, log 39] -/
def parkLosers (n : Nat) (s : State) : State :=
  let a := arbSt s n
  let room := 16 - a.parked.length
  let lost := (a.fresh.drop room).length
  let s := onArb n (fun a => { a with
    parked := a.parked ++ (byId a.fresh).take room, fresh := (byId a.fresh).drop room,
    fullcnt := satAdd 0xFFFF a.fullcnt lost }) s
  if lost = 0 then s else eventOnce 0x0111 n n s

/-- The parked requests that a decision passes over age by one (R50). -/
def passOver (n : Nat) (s : State) : State :=
  onArb n (fun a => { a with parked := a.parked.map (fun x => { x with age := x.age + 1 }) }) s

/-- Drop the waiting requests of `id` at arbiter m that its locks put out of order, each with CHIP_ORDER (R48). -/
def dropAt (id m : Nat) (s : State) : State :=
  let bad := ((arbSt s m).parked ++ (arbSt s m).fresh).filter (fun r => r.id == id && !requestInOrder s m r)
  bad.foldl (fun t _ => refuseOrder m t)
    (onArb m (fun a => { a with
      parked := a.parked.filter (fun r => r.id != id || requestInOrder s m r),
      fresh := a.fresh.filter (fun r => r.id != id || requestInOrder s m r) }) s)

/-- A lock has been taken: requests that its holder raised before and that are now out of order are refused (R48). [DEDUCED, log 39] -/
def dropDisordered (id : Nat) (s : State) : State := forAll (List.range s.chip.arbs.length) (dropAt id) s

/-- Serve a chosen request: a lock is taken, a grant given; the next grant of a broken lock's holder ends with an error
token (R54). [DEDUCED, log 39] -/
def serve (n : Nat) (r : ArbReq) (s : State) : State :=
  let p := reqPri s r.id
  let s := onArb n (fun a => { a with
    parked := a.parked.filter (fun x => x.id != r.id), fresh := a.fresh.filter (fun x => x.id != r.id) }) s
  let s := parkLosers n (passOver n s)
  if r.lock then dropDisordered r.id (onArb n (fun a => { a with lock := some r.id, grant := none, grantPri := 0 }) s)
  else if (arbSt s n).broken.contains r.id then
    errorToken (onArb n (fun a => { a with broken := a.broken.erase r.id, grant := none, grantPri := 0 }) s)
  else noteAcyclic n r (onArb n (fun a => { a with grant := some r.id, grantPri := p }) s)

/-- The holder loses the target at its break point: what is left of its transfer is a new request of this decision (R49, R51). [DEDUCED, log 39] -/
def displace (n h : Nat) (s : State) : State :=
  onArb n (fun a => { a with grant := none, grantPri := 0, fresh := a.fresh ++ [{ id := h }] }) s

/-- One decision at a break point (R49 to R53). While FRZ is 1 the holder releases and no grant is made; otherwise the holder
keeps the target unless a waiting request has a higher priority than the one the holder was granted with. [DEDUCED, log 39] -/
def decideArb (n : Nat) (s : State) : State :=
  let a := arbSt s n
  if a.frz then parkLosers n (onArb n (fun a => { a with grant := none, grantPri := 0 }) s)
  else
    match a.grant, chooseWaiting s n with
    | none, some r => serve n r s
    | some h, some r => if a.grantPri < reqLevel s r then serve n r (displace n h s) else parkLosers n (passOver n s)
    | _, none => parkLosers n (passOver n s)

/-- ARBITER_DECISION (R50). -/
def arbiterDecision (n : Nat) (s : State) : State :=
  if maxArbs s.fuse.variant ≤ n then absentAccess false s else decideArb n s

/-- LOCK_TIMEOUT (R54): the lock is broken. -/
def lockTimeout (n : Nat) (s : State) : State :=
  match (arbSt s n).lock with
  | some id => event 0x0112 n (onArb n (fun a => { a with lock := none, broken := id :: a.broken.erase id }) s)
  | none => s

/-- ARB_FREEZE (R53). -/
def arbFreeze (n : Nat) (s : State) : State :=
  if maxArbs s.fuse.variant ≤ n then absentAccess true s else acked (onArb n (fun a => { a with frz := true }) s)

/-- ARB_UNFREEZE (R53): an arbiter that was frozen decides at once; a grant still in progress runs to its break point (R49). -/
def arbUnfreeze (n : Nat) (s : State) : State :=
  if maxArbs s.fuse.variant ≤ n then absentAccess true s
  else
    let t := onArb n (fun a => { a with frz := false }) s
    acked (if (arbSt s n).frz && (arbSt s n).grant.isNone then decideArb n t else t)

/-! ### Crossings -/

/-- Requester id of SAF (R449). [DEDUCED, log 41] -/
def safId : Nat := 34

/-- CROSSING_ACCESS (R55, R56): the access waits for its response; the receiver takes the difference of the event counter, at
most 255, and more sets OVF. `sl` is the requesting slice of a requester that stands for a block. [DEDUCED, log 41] -/
def crossingAccess (id sl dom pulses : Nat) (s : State) : State :=
  let s := onChip (fun c => { c with
    xPend := c.xPend ++ [{ who := id, sl := sl, dom := dom }],
    xPulses := updAt c.xPulses dom (fun _ => min 255 pulses) }) s
  if pulses ≤ 255 then s
  else
    let s := event 0x0121 0 (onChip (fun c => { c with xOvf := true, xOvfDom := dom }) s)
    if id = safId then addB 6 0 (defined s) 0x0121 s else s

/-- The first pending access of a requester. -/
def xPending (s : State) (id : Nat) : Option XAccess := s.chip.xPend.find? (fun x => x.who == id)

/-- Remove the first pending access of a requester. -/
def xFinish (id : Nat) (s : State) : State :=
  onChip (fun c => { c with xPend := c.xPend.eraseP (fun x => x.who == id) }) s

/-- CROSSING_LATE_RESPONSE (R58): a response to a finished access is discarded at the crossing. -/
def crossingLateResponse (_id _dom : Nat) (s : State) : State := s

/-! ### Accesses that reach no register -/

/-- QUARANTINED_ACCESS (R44): an error token, and BLOCK_QUAR again. -/
def quarantinedAccess (r : Region) (b : Nat) (s : State) : State :=
  if hasBit (regSt s r).quar b then event (256 * r.id + 0xE3) 0 (errorToken s) else s

/-- Addresses no row of the core map covers (R444): rows of 256 MiB, and the hole above shared SRAM. -/
def coreUnmapped (a : Nat) : Bool :=
  (0x20000 ≤ a && a < 0x10000000) || (0xB0800000 ≤ a && a < 0xC0000000)

/-- DECODE_ERROR (R444, R447). -/
def decodeError (addr : Nat) (dma : Bool) (s : State) : State :=
  if (if dma then !dmaOk addr else coreUnmapped (addr % 2 ^ 32)) then event 0x0103 0 (errorToken s) else s

/-! ### The meanings -/

def execLockRequest (n id : Nat) (s : State) : Out := run (lockRequest n id) s
def execGrantRequest (n id len : Nat) (s : State) : Out := run (grantRequest n id len) s
def execLockRelease (n id : Nat) (s : State) : Out := run (lockRelease n id) s
def execArbiterDecision (n : Nat) (s : State) : Out := run (arbiterDecision n) s
def execLockTimeout (n : Nat) (s : State) : Out := run (lockTimeout n) s
def execArbFreeze (n : Nat) (s : State) : Out := run (arbFreeze n) s
def execArbUnfreeze (n : Nat) (s : State) : Out := run (arbUnfreeze n) s
def execCrossingAccess (id sl dom pulses : Nat) (s : State) : Out := run (crossingAccess id sl dom pulses) s
def execCrossingLateResponse (id dom : Nat) (s : State) : Out := run (crossingLateResponse id dom) s
def execQuarantinedAccess (r : Region) (b : Nat) (s : State) : Out := run (quarantinedAccess r b) s
def execDecodeError (addr : Nat) (dma : Bool) (s : State) : Out := run (decodeError addr dma) s

/-- INTERCONNECT_PARITY_ERROR (R46, R47): class A, escalation at chip level. -/
def execInterconnectParityError (s : State) : Out :=
  run (fun s => escalate .chip (classA (defined s) 16 0x0140 (event 0x0140 0 s))) s

end Sys2Proof.Machine
end

