-- ==== Sys2Proof/Machine/Time.lean ====
section
/-! DEFINITION. Time.lean: the time base and network time (R93 to R103), triggers and captures (R110 to R115), the checks of
R116 and R117, deadline misses and slack (R75 to R81), the core-voltage recommendation (R82 to R84). Instants are whole
nanoseconds of TB since the epoch unless a name says otherwise. -/

namespace Sys2Proof.Machine

/-! ### The counter and its rate -/

/-- RATE is limited to ±32,768 (R94). -/
def clampRate (r : Int) : Int := clampI (-32768) 32768 r

/-- RATE moves towards its target by at most SLEW (0.1 ppm/s units) per second of TB (R99). `slewAcc` keeps the part of a
code, in 10^-13, that the time passed has not yet moved. -/
def slewTo (at_ : Nat) (s : State) : State :=
  onTime (fun t =>
    let room := t.slewAcc + s.image.slew * 65536 * (at_ - t.slewAt)
    let codes := room / 10000000000000
    let d := t.target - t.rate
    if d.natAbs ≤ codes then { t with rate := t.target, slewAt := max t.slewAt at_, slewAcc := 0 }
    else { t with
      rate := t.rate + (if 0 < d then (codes : Int) else -(codes : Int)),
      slewAt := max t.slewAt at_, slewAcc := room % 10000000000000 }) s

/-- TB reaches an instant; it never decreases (R94), and it stands after R117. RATE slews with it (R99), and HOLDSEC counts the
seconds of a holdover. [DESIGN CHOICE, log 32] -/
def advanceTb (at_ : Nat) (s : State) : State :=
  if s.time.stopped then s else onTime (fun t => { t with
    tb := max t.tb at_,
    holdSec := (if t.servo = 4 then min 0xFFFF ((max t.tb at_ - t.holdAt) / 1000000000) else t.holdSec) }) (slewTo at_ s)

/-- phase_term of R99 in RATE codes, rounded half up: offset / tc limited to ±PHMAX ppm. -/
def phaseTerm (s : State) (offset : Int) : Int :=
  let lim : Int := s.image.phmax * 1000 * (max 1 s.image.tc : Nat)
  divHalfUp (clampI (-lim) lim offset * 65536) (1000000 * max 1 s.image.tc)

/-- The servo works on an offset and a domain rate: a new target rate (R99). -/
def servoTo (at_ : Nat) (offset rate : Int) (s : State) : State :=
  onTime (fun t => { t with target := clampRate (rate + phaseTerm s offset) }) (slewTo at_ s)

/-! ### Domains (R97 to R103) -/

/-- Domain d: 0 A, 1 B. -/
def domSt (s : State) (d : Nat) : DomSt := nth s.time.doms d

/-- Update domain d. A domain that becomes valid does so at `at_`. -/
def onDom (d at_ : Nat) (f : DomSt → DomSt) (s : State) : State :=
  onTime (fun t => { t with doms := updAt t.doms d (fun x =>
    let y := f x
    if y.valid && !x.valid then { y with validAt := at_ } else y) }) s

/-- Profiles 1 and 2 track domains (R96). -/
def ptpOn (s : State) : Bool := (s.time.profile == 1 || s.time.profile == 2) && !s.time.stopped

/-- STEPTH in ns. -/
def stepTh (s : State) : Nat := s.image.stepth * 10000

/-- Number of the followed domain. -/
def selDom (s : State) : Nat := if s.time.sel then 1 else 0

/-- Enter holdover (R103): RATE stays, TIME_HOLDOVER. Before ring start the device stays in ACQUIRE (R100). [DESIGN CHOICE, log 33] -/
def enterHoldover (at_ : Nat) (s : State) : State :=
  if s.time.servo == 4 then s
  else
    let s := slewTo at_ s
    let s := onTime (fun t => { t with target := t.rate, slewAcc := 0 }) s
    if s.time.run then
      event 0x0204 0 (onTime (fun t => { t with servo := 4, holdAt := at_, holdSec := 0 }) s)
    else onTime (fun t => { t with servo := 1 }) s

/-- Follow domain d: TIME_DOM_SWITCH and the end of the locked state on a change, never a step; a domain beyond STEPTH is not
followed but held over with TIME_DOM_DISAGREE (R98, R100). -/
def followDom (d at_ : Nat) (s : State) : State :=
  let x := domSt s d
  let change := s.time.everFoll && selDom s != d
  if change && stepTh s < x.offset.natAbs then
    if s.time.servo == 4 then s else event 0x0205 0 (enterHoldover at_ s)
  else if change then
    let s := if s.time.servo == 2 then event 0x0202 0 s else s
    let s := event 0x0203 0 (onTime (fun t => { t with
      sel := d == 1, servo := 3, doms := updAt t.doms d (fun y => { y with below := 0 }) }) s)
    servoTo at_ x.offset x.rate s
  else
    let s := onTime (fun t => { t with
      sel := d == 1, everFoll := true,
      servo := (if t.servo == 2 || t.servo == 3 then t.servo else if t.run then 3 else 1) }) s
    servoTo at_ x.offset x.rate s

/-- Choose the followed domain after a change of validity (R98). [DESIGN CHOICE, log 126] -/
def selectDomain (at_ : Nat) (s : State) : State :=
  let a := (domSt s 0).valid
  let b := (domSt s 1).valid
  if !a && !b then (if s.time.everFoll || s.time.run then enterHoldover at_ s else s)
  else if s.time.servo == 4 || !s.time.everFoll then followDom (if a then 0 else 1) at_ s
  else if s.time.sel then (if b then s else followDom 0 at_ s)
  else if a then s else followDom 1 at_ s

/-- The lock count and state of the followed domain after an offset (R100). [DESIGN CHOICE, log 126] -/
def lockCheck (d : Nat) (offset : Int) (s : State) : State :=
  let n := if offset.natAbs < 100 then min 16 ((domSt s d).below + 1) else 0
  let s := onTime (fun t => { t with doms := updAt t.doms d (fun y => { y with below := n }) }) s
  if s.time.servo == 2 && 1000 < offset.natAbs then
    event 0x0202 0 (onTime (fun t => { t with servo := if t.run then 3 else 1 }) s)
  else if n = 16 && s.time.servo != 2 && s.time.servo != 4 then
    event 0x0201 0 (onTime (fun t => { t with servo := 2 }) s)
  else s

/-- Two valid domains differ by more than DISAGREE for 16 Syncs of B (R102): TIME_DOM_DISAGREE once. -/
def disagreeCheck (s : State) : State :=
  let a := domSt s 0
  let b := domSt s 1
  if a.valid && b.valid && s.image.disagree * 100 < (a.offset - b.offset).natAbs then
    let s := onTime (fun t => { t with disagree := min 16 (t.disagree + 1) }) s
    if s.time.disagree = 16 && !s.time.disagreed then
      event 0x0205 0 (onTime (fun t => { t with disagreed := true }) s) else s
  else onTime (fun t => { t with disagree := 0, disagreed := false }) s

/-- Step TB once before ring start to the followed domain's time (R100). -/
def acquireStep (d : Nat) (offset rate : Int) (s : State) : State :=
  onTime (fun t => { t with
    tb := ((t.tb : Int) + offset).toNat, slewAt := ((t.tb : Int) + offset).toNat, slewAcc := 0,
    rate := clampRate rate, target := clampRate rate, acquired := true,
    doms := (updAt t.doms d (fun y => { y with below := 0 })).map (fun y =>
      { y with offset := y.offset - offset, validAt := ((y.validAt : Int) + offset).toNat }) }) s

/-- Hold an offset beyond STEPTH in DOMOFS in place of slewing it (R101). -/
def holdOffset (offset : Int) (s : State) : State :=
  event 0x0206 0 (onTime (fun t => { t with
    domofs := t.domofs + offset, doms := t.doms.map (fun y => { y with offset := y.offset - offset }) }) s)

/-- The offset of a domain (R97): its time at a TB instant less TB and DOMOFS. -/
def offsetAt (s : State) (time at_ : Nat) : Int := (time : Int) - ((at_ : Int) + s.time.domofs)

/-- SYNC_RECEIVED (R97, R99): a Sync with the domain's time, in ns, at a TB instant. For the followed domain the servo works on its
offset and rate. -/
def syncReceived (domB : Bool) (time : Nat) (rate : Int) (at_ : Nat) (s : State) : State :=
  if !ptpOn s then s
  else
    let d := if domB then 1 else 0
    let offset := offsetAt s time at_
    let s := advanceTb at_ s
    let s := onDom d at_ (fun x => { x with offset := offset, rate := rate, syncFresh := true }) s
    let s := selectDomain at_ (onTime (fun t => { t with lastSync := at_ }) s)
    let s := if domB then disagreeCheck s else s
    if !(domSt s d).valid || selDom s != d || s.time.servo == 4 then s
    else if !s.time.run && !s.time.acquired && 1000 < offset.natAbs then acquireStep d offset rate s
    else
      let s := lockCheck d offset s
      if s.time.run && stepTh s < offset.natAbs then servoTo at_ 0 rate (holdOffset offset s)
      else servoTo at_ offset rate s

/-- The order of grandmasters in the best master clock algorithm: priority1, clockClass, accuracy, variance, priority2, identity, then
steps removed and sender; the lower is the better. [PRESUMED, log 128] -/
def gmKey (g : GmSet) : List Nat := [g.pri1, g.cls, g.acc, g.var, g.pri2, g.id, g.steps, g.sender]

/-- A key before another. -/
def keyBefore : List Nat → List Nat → Bool
  | [], _ => false
  | _, [] => false
  | a :: r, b :: t => a < b || (a == b && keyBefore r t)

/-- The best of the grandmasters that a domain has heard (R96). [PRESUMED, log 128] -/
def bestOf (l : List GmSet) : Option GmSet :=
  l.foldl (fun o g => match o with
    | none => some g
    | some h => if keyBefore (gmKey g) (gmKey h) then some g else some h) none

/-- An Announce enters the data sets of a domain, in place of the sender's last one; the domain's grandmaster is chosen anew. [PRESUMED, log 128] -/
def hearAnnounce (a : GmSet) (x : DomSt) : DomSt :=
  let l := x.masters.filter (fun g => g.sender != a.sender) ++ [a]
  let b := bestOf l
  { x with masters := l, best := b, annFresh := x.annFresh || b == some a }

/-- ANNOUNCE_RECEIVED (R96, R97). -/
def announceReceived (domB : Bool) (a : GmSet) (at_ : Nat) (s : State) : State :=
  if !ptpOn s then s
  else selectDomain at_ (onDom (if domB then 1 else 0) at_ (hearAnnounce a) (advanceTb at_ s))

/-- DOMAIN_TIMEOUT (R97): the Announce or the Sync timeout of a domain expires. Without an Announce no grandmaster is chosen. -/
def domainTimeout (domB announce : Bool) (at_ : Nat) (s : State) : State :=
  if !ptpOn s then s
  else selectDomain at_ (onDom (if domB then 1 else 0) at_ (fun x =>
    if announce then { x with annFresh := false, best := none, masters := [] } else { x with syncFresh := false }) (advanceTb at_ s))

/-- DOMAIN_REVERT (R98): A has been valid for REVERT seconds without a break. -/
def domainRevert (at_ : Nat) (s : State) : State :=
  let a := domSt s 0
  if ptpOn s && s.time.sel && s.time.everFoll && a.valid && 0 < s.image.revert &&
      a.validAt + s.image.revert * 1000000000 ≤ at_ then followDom 0 at_ (advanceTb at_ s)
  else s

/-! ### Triggers (R110 to R112). Instants of a trigger are in 2^-16 ns -/

/-- Update trigger i. -/
def onTrig (i : Nat) (f : TrigSt → TrigSt) (s : State) : State :=
  onTime (fun t => { t with trigs := updAt t.trigs i f }) s

/-- Trigger i. -/
def trigSt (s : State) (i : Nat) : TrigSt := nth s.time.trigs i

/-- 2^-16 ns in a whole number of ns. -/
def fr : Nat := 65536

/-- The words a write of ARM takes: the pending START and PERIOD and the control word written. NSEC beyond a second carries into the
seconds (R93). [DEDUCED, log 29] -/
def trigWords (t : TrigSt) (ctl : Word) : TrigWords :=
  { startNs := 1000000000 * t.pSec + t.pNsec, startFr := t.pStartFr, perNs := t.pPerNs, perFr := t.pPerFr, ctl := ctl }

/-- First instant START + m × PERIOD at or after `lim` (R111). -/
def firstEdge (start per lim : Nat) : Nat :=
  if lim ≤ start ∨ per = 0 then start else start + ((lim - start + per - 1) / per) * per

/-- PERIOD: a non-zero value below 64 ns acts as 64 ns (R110). -/
def trigPer (w : TrigWords) : Nat :=
  let p := w.perNs * fr + w.perFr % fr
  if p = 0 then 0 else max (64 * fr) p

/-- WIDTH: 0 to 7 act as 8, and at least PERIOD − 8 ns acts as PERIOD / 2 in whole ns (R110). -/
def trigWidth (w : TrigWords) : Nat :=
  let n := max 8 (w.ctl.toNat % 65536)
  let p := trigPer w
  if p != 0 && p ≤ (n + 8) * fr then p / 2 / fr else n

/-- Arm trigger i with words at a write instant (R110, R111). -/
def armTrigger (i : Nat) (w : TrigWords) (src : Bool) (now : Nat) (s : State) : State :=
  let start := w.startNs * fr + w.startFr % fr
  let per := trigPer w
  let lim := (now + 64) * fr
  let late := start < lim
  let s := onTrig i (fun t => { t with
    ctl := w.ctl, start := start, per := per, width := trigWidth w, pol := w.ctl.getLsbD 30,
    left := w.ctl.toNat / 65536 % 4096, fired := 0, src := src, pend := none,
    next := firstEdge start per lim, active := !(late && per = 0), late := t.late || late }) s
  if late then event 0x0210 i s else s

/-- Disarm trigger i. -/
def disarmTrigger (i : Nat) (w : TrigWords) (s : State) : State :=
  onTrig i (fun t => { t with ctl := w.ctl, active := false, pend := none }) s

/-- Apply a control write: arm with ARM 1, disarm with ARM 0. -/
def applyTrigger (i : Nat) (w : TrigWords) (src : Bool) (now : Nat) (s : State) : State :=
  if w.ctl.getLsbD 31 then armTrigger i w src now s else disarmTrigger i w s

/-- A control write less than 64 ns before the next edge of an armed trigger takes effect after that edge (R111). [DESIGN CHOICE, log 127] -/
def writeTrigger (i : Nat) (w : TrigWords) (src : Bool) (now : Nat) (s : State) : State :=
  let t := trigSt s i
  if t.active && now * fr ≤ t.next && t.next < (now + 64) * fr then
    onTrig i (fun t => { t with pend := some (w, src, now) }) s
  else applyTrigger i w src now s

/-- An ordinary work item is what a core runs when it writes a register (R86, R112). [DEDUCED, log 37] -/
def fromItem : Who → Bool | .core _ => true | .other _ => false

/-- TRIGGER_ARM and TRIGGER_DISARM (R110): a write of TRIGCTLi. -/
def triggerWrite (who : Who) (i : Nat) (ctl : Word) (now : Nat) (s : State) : State :=
  acked (writeTrigger i (trigWords (trigSt s i) ctl) (fromItem who) now (advanceTb now s))

/-- TRIGGER_EDGE (R110): the pulse begins; the next instant; a deferred write takes effect after the edge, its START judged by the
instant of the write (R111). -/
def triggerEdge (i : Nat) (s : State) : State :=
  let t := trigSt s i
  if !t.active || s.time.stopped then s
  else
    let s1 := onTrig i (fun t => { t with
      pulse := true, fired := satAdd 0xFFFF t.fired 1, left := t.left - 1, next := t.next + t.per,
      active := !(t.per = 0 || t.left = 1) }) s
    match t.pend with
    | some (w, src, now) => applyTrigger i w src now (onTrig i (fun t => { t with pend := none }) s1)
    | none => s1

/-- TRIGGER_PULSE_END (R110). -/
def triggerPulseEnd (i : Nat) (s : State) : State := onTrig i (fun t => { t with pulse := false }) s

/-! ### Captures (R113 to R115) -/

/-- Update capture input j. -/
def onCap (j : Nat) (f : CapSt → CapSt) (s : State) : State :=
  onTime (fun t => { t with caps := updAt t.caps j f }) s

/-- Capture input j. -/
def capSt (s : State) (j : Nat) : CapSt := nth s.time.caps j

/-- E0 of the present tick (R108). -/
def e0Of (s : State) : Nat := s.time.e0

/-- A level is accepted once it has held for FILT ns; FILT 0 accepts 4 ns and more (R113). [DEDUCED, log 59] -/
def capAccepts (c : CapSt) (rise : Bool) (held : Nat) : Bool :=
  (if rise then c.edge == 1 || c.edge == 3 else c.edge == 2 || c.edge == 3) && (if c.filt = 0 then 4 else c.filt) ≤ held

/-- The per-tick list an edge enters (R115): that of the tick under way, or, in the 100 ns after its E0, that of the tick before. Before
tick 0 there is none. [DESIGN CHOICE, log 133] -/
def listEdge (j tb : Nat) (rise : Bool) (s : State) : State :=
  if !s.time.run then s
  else if e0Of s ≤ tb then onCap j (fun c => { c with tickList := c.tickList ++ [(tb, rise)] }) s
  else if s.time.tickno = 0 || tb + periodNs s < e0Of s then s
  else onCap j (fun c => { c with lastList := c.lastList ++ [(tb, rise)] }) s

/-- CAPTURE_EDGE (R113, R114): queued, or lost when the queue is full; the per-tick list keeps every accepted edge. -/
def captureEdge (j tb : Nat) (rise : Bool) (held : Nat) (s : State) : State :=
  let c := capSt s j
  if !capAccepts c rise held then s
  else
    let s := listEdge j tb rise s
    if c.queue.length < 16 then onCap j (fun c => { c with queue := c.queue ++ [(tb, rise)] }) s
    else eventOnce 0x0211 j j (onCap j (fun c => { c with lost := satAdd 0xFFFF c.lost 1, ovf := true }) s)

/-- Latch the further words of a value whose word 0 is read at an address (R12). [DESIGN CHOICE, log 24] -/
def latchWords (a : Nat) (ws : List Word) (s : State) : State :=
  onChip (fun c => { c with latch := assocPut c.latch a ws }) s

/-- Address of CAPTS0j. -/
def captsAddr (j : Nat) : Nat := 0x20000208 + 0x20 * j

/-- CAPTURE_READ (R113): CAPTS0 takes the oldest entry and latches CAPTS1 and CAPTS2; an empty queue reads 0. -/
def captureRead (j : Nat) (s : State) : State :=
  match (capSt s j).queue with
  | [] => answer 0 (latchWords (captsAddr j) [0, 0] s)
  | (tb, rise) :: r =>
    let w : Word := 0x80000000 ||| (if rise then 0x40000000 else 0) ||| BitVec.ofNat 32 (tb % 1000000000)
    let sec := tb / 1000000000
    answer w (latchWords (captsAddr j) [BitVec.ofNat 32 sec, BitVec.ofNat 32 (sec / 2 ^ 32)]
      (onCap j (fun c => { c with queue := r }) s))

/-! ### Checks on the time base (R116, R117) -/

/-- TIME_CROSS_CHECK (R116). -/
def timeCrossCheck (count : Nat) (s : State) : State :=
  let s := onTime (fun t => { t with xchk := count % 65536 }) s
  if count < 28160 || 35840 < count then escalate .time (event 0x0222 0 (classA (defined s) 16 0x0222 s)) else s

/-- The time base stops: TB and the tick stand until a reset; class A, escalation, every line driven active (R117). -/
def timeStops (code : Nat) (s : State) : State :=
  if s.time.stopped then s
  else escalate .time (classA (defined s) 16 code (event code 0 (onTime (fun t => { t with stopped := true }) s)))

/-! ### Deadlines and misses (R75 to R81) -/

/-- Deadline of phase p in ns from E0 (R25, R77). -/
def deadlineNs (s : State) (p : Nat) : Nat :=
  let q := s.image.plan
  match p with
  | 0 => q.zone | 1 => q.tg | 2 => q.poses | 3 => q.ff | 4 => q.servo | 5 => q.trl | 6 => q.trl | 7 => q.fin
  | 8 => q.sol | _ => periodNs s

/-- The deadline event of phase p (R77). -/
def deadlineEvent (p : Nat) : Nat :=
  match p with
  | 0 => 0x07D0 | 5 => 0x07D0 | 6 => 0x08D0 | 8 => 0x06D0 | 9 => 0x09D0 | _ => 0x05D0

/-- Update the slack register of phase p. -/
def onSlack (p : Nat) (f : SlackSt → SlackSt) (s : State) : State :=
  onTime (fun t => { t with slack := updAt t.slack p f }) s

/-- Phase p. -/
def slackSt (s : State) (p : Nat) : SlackSt := nth s.time.slack p

/-- Register a completion token: in time at or before the deadline instant; a later one is discarded (R75). -/
def registerToken (p : Nat) (groups : Mask) (at_ : Nat) (s : State) : State :=
  if at_ ≤ deadlineNs s p && !(slackSt s p).missNow then
    onSlack p (fun x => { x with done := x.done ||| groups, token := some (max at_ (x.token.getD 0)) }) s
  else s

/-- The registers of a miss of phase p: MISS, slack 0, REC to VMAX at once, and the recording countdown (R81, R82, R90). [DESIGN CHOICE, log 124] -/
def noteMiss (p : Nat) (s : State) : State :=
  recTrip (onTime (fun t => { t with
    slack := updAt t.slack p (fun x => { x with miss := true, missNow := true }),
    vrec := s.image.vmax, winMiss := true }) s)

/-- The reaction of R76 and R78 for the groups of a miss before 17.0 µs: HOLD lends one extrapolated set-point and SS1-r at the
next decision but one; otherwise SS1-r at 17.0 µs. A stopping group finishes its ramp without the control law. -/
def missReaction (late : Bool) (m : Mask) (s : State) : State :=
  forAll (bitsOf m) (fun g s =>
    let stopping := (safG s g).state == .ss1r
    let s := if stopping then
        forAll (axesOf s g) (fun a => onAxis a (fun x => { x with sliceBad := true })) s else s
    if stopping then s
    else if late || (hasBit s.image.hold g && !hasBit s.time.holding g) then
      onTime (fun t => { t with xtrapNow := t.xtrapNow ||| bitOf 16 g, ss1Next := t.ss1Next ||| bitOf 16 g }) s
    else onSafG g (fun x => { x with stopReq := x.stopReq ||| bitOf 32 11 })
      (onTime (fun t => { t with missAfter := t.missAfter ||| bitOf 16 g }) s)) s

/-- A miss of one of the phases 0 to 7 (R76 to R78, R489): its event once, its marks, its reaction; compatibility mode escalates
as well. -/
def missPhase (p : Nat) (m : Mask) (s : State) : State :=
  let s := event (deadlineEvent p) (maskDetail m) (mark 0 m (noteMiss p s))
  if p = 6 then escalate .saf s
  else
    let s := missReaction (p == 7) m s
    if s.image.compat then escalate .chip s else s

/-- SLACK_CLEAR (R81): LOW becomes 0x7FFF in every register. -/
def slackClear (s : State) : State :=
  acked (onTime (fun t => { t with slack := t.slack.map (fun x => { x with low := 0x7FFF }) }) s)

/-- Turn over the slack of phase p at the tick edge: LAST of the tick that has ended, LOW and the window's minimum (R81). [DESIGN CHOICE, log 125] -/
def slackEdge (dl : Nat) (x : SlackSt) : SlackSt :=
  let v : Option Nat := if x.missNow then some 0 else x.token.map (fun t => min 0x7FFF ((dl - t) / 8))
  match v with
  | some n => { x with
      last := n, low := min x.low n, winMin := some (min n (x.winMin.getD 0x7FFF)),
      token := none, missNow := false, done := 0, judged := false }
  | none => { x with token := none, missNow := false, done := 0, judged := false }

/-- Write the state of the tick that has ended to TIME.PROMISE and OUTCNT (R80). -/
def promiseWrite (t : TimeSt) : TimeSt :=
  let ms := t.causeNow.map (fun m => m &&& t.cover)
  let all := ms.foldl (fun a m => a ||| m) 0
  { t with
    promCause := maskOf 6 (fun i => nth ms i != 0), promGroups := all, promOut := all != 0,
    outcnt := satAdd 0xFFFFFFFF t.outcnt (if all != 0 then 1 else 0),
    causeNow := t.causeNext, causeNext := List.replicate 6 0 }

/-! ### Core voltage (R82, R83) -/

/-- The voltage of a code in mV (R83's registers). -/
def vcodeMv (c : Nat) : Nat := 500 + 5 * c

/-- READBACK: the last value read back in code units. -/
def readbackCode (t : TimeSt) : Nat := min 255 (divHalfUp ((t.vmv : Int) - 500) 5).toNat

/-- The transaction of a command: on the rail or the address of the image, with the voltage of the REC sent: in mV on AVSBus, in
ULINEAR16 with the exponent read from VOUT_MODE on PMBus (R83). [PRESUMED, log 129] -/
def vregTx (s : State) (cmd : Nat) (wr : Bool) : VregTx :=
  let p := s.time.vmode == 2
  let mv := vcodeMv s.time.vsent
  let w := if p then (roundHalfUp ((mv : Rat) / 1000 * pow2 (-s.time.vexp))).toNat else mv
  { pmb := p, dev := if p then s.image.vaddr else s.image.vrail, cmd := cmd, wr := wr, data := if wr then w else 0 }

/-- The next transaction that waits begins. -/
def vregNext (s : State) : State :=
  match s.time.vqueue with
  | [] => onTime (fun t => { t with vtx := none }) s
  | (c, w) :: r => onTime (fun t => { t with vtx := some (vregTx s c w), vqueue := r }) s

/-- Transactions for the bus, after those that wait. -/
def vregSend (l : List (Nat × Bool)) (s : State) : State :=
  let s := onTime (fun t => { t with vqueue := t.vqueue ++ l }) s
  if s.time.vtx.isNone then vregNext s else s

/-- Send REC to the regulator and read it back (R83): Voltage on AVSBus, VOUT_COMMAND and READ_VOUT on PMBus. -/
def sendRec (s : State) : State :=
  if s.time.vmode = 0 then s
  else vregSend (if s.time.vmode = 2 then [(0x21, true), (0x8B, false)] else [(0, true), (0, false)])
    (onTime (fun t => { t with vsent := t.vrec, recValid := false }) s)

/-- VREC_WINDOW (R82): while the ring runs, REC is updated from the lowest slack of the millisecond and sent. [DESIGN CHOICE, log 124] -/
def vrecWindow (s : State) : State :=
  if !s.time.run || s.time.stopped then s
  else
    let t := s.time
    let m : Option Nat := (t.slack.filterMap (fun x => x.winMin)).foldl (fun a n => some (min n (a.getD n))) none
    let fl := s.image.vfloor
    let rec_ : Nat :=
      match m with
      | none => if t.winMiss then s.image.vmax else t.vrec
      | some m =>
        if t.winMiss || 2 * m < fl then s.image.vmax
        else if m < fl then min (t.vrec + 2) s.image.vmax
        else if 2 * fl < m then max (t.vrec - 1) s.image.vmin
        else t.vrec
    let s := sendRec (onTime (fun t => { t with
      vrec := rec_, winMiss := false, slack := t.slack.map (fun x => { x with winMin := none }) }) s)
    match m with | some n => if n < fl then event 0x02D2 0 s else s | none => s

/-- The regulator transport fails (R83): MODE 0 for the rest of the run, TIME_VREG_FAULT. -/
def vregFault (s : State) : State :=
  event 0x02D3 0 (onTime (fun t => { t with vmode := 0, vtx := none, vqueue := [], recValid := false }) s)

/-- The exponent of ULINEAR16 in VOUT_MODE; none for any other format. [PRESUMED, log 129] -/
def voutExp (v : Nat) : Option Int := if v / 32 % 8 = 0 then some ((BitVec.ofNat 5 v).toInt) else none

/-- VREG_TRANSACTION_DONE (R83): the transaction under way ends with the data it read, or with a bus error. -/
def vregTransactionDone (ok : Bool) (data : Nat) (s : State) : State :=
  match s.time.vtx with
  | none => s
  | some x =>
    if !ok then vregFault s
    else if x.wr then vregNext s
    else if x.pmb && x.cmd == 0x20 then
      (match voutExp data with
      | some e => vregNext (onTime (fun t => { t with vexp := e }) s)
      | none => vregFault s)
    else vregNext (onTime (fun t => { t with
      vmv := if x.pmb then (roundHalfUp ((data : Rat) * 1000 * pow2 t.vexp)).toNat else data }) s)

/-- VREG_READBACK_CHECK (R83): more than 10 mV between what was written and what was read back sets MODE to 0; otherwise the write is
confirmed. [PRESUMED, log 129] -/
def vregReadbackCheck (s : State) : State :=
  if s.time.vmode = 0 then s
  else if 10 < ((vcodeMv s.time.vsent : Int) - s.time.vmv).natAbs then vregFault s
  else onTime (fun t => { t with recValid := true }) s

/-! ### The meanings -/

def execAnnounceReceived (domB : Bool) (gm : GmSet) (at_ : Nat) (s : State) : Out := run (announceReceived domB gm at_) s
def execDomainTimeout (domB announce : Bool) (at_ : Nat) (s : State) : Out := run (domainTimeout domB announce at_) s
def execDomainRevert (at_ : Nat) (s : State) : Out := run (domainRevert at_) s
def execTriggerEdge (i : Nat) (s : State) : Out := run (triggerEdge i) s
def execTriggerPulseEnd (i : Nat) (s : State) : Out := run (triggerPulseEnd i) s
def execCaptureEdge (j tb : Nat) (rise : Bool) (held : Nat) (s : State) : Out := run (captureEdge j tb rise held) s
def execCaptureRead (j : Nat) (s : State) : Out := run (captureRead j) s
def execTimeCrossCheck (count : Nat) (s : State) : Out := run (timeCrossCheck count) s
def execReferenceLoss (s : State) : Out := run (timeStops 0x0220) s
def execPllUnlock (s : State) : Out := run (timeStops 0x0221) s
def execSlackClear (s : State) : Out := run slackClear s
def execVrecWindow (s : State) : Out := run vrecWindow s
def execVregReadbackCheck (s : State) : Out := run vregReadbackCheck s
def execVregTransactionDone (ok : Bool) (data : Nat) (s : State) : Out := run (vregTransactionDone ok data) s

end Sys2Proof.Machine
end

