-- ==== Sys2Proof/Machine/Ring.lean ====
section
/-! DEFINITION. Ring.lean: the Zetan ring controller as master, standby and node (R118 to R151): frames and their headers, routes
and windows, slots, beacons, claims, probes, breaks and restoration, silence, cold start. Instants are nanoseconds of TB. -/

namespace Sys2Proof.Machine

/-- Ring r. -/
def ringSt (s : State) (r : Nat) : RingSt := nth s.ring r

/-- Configuration of ring r. -/
def ringCfg (s : State) (r : Nat) : RingCfg := nth s.image.rings r

/-- Node j of ring r. -/
def nodeSt (s : State) (r j : Nat) : NodeSt := nth (ringSt s r).nodes j

/-- Index of a port: 0 CW, 1 CCW. -/
def portIx (ccw : Bool) : Nat := if ccw then 1 else 0

/-- A port of ring r. -/
def portSt (s : State) (r : Nat) (ccw : Bool) : RPort := nth (ringSt s r).ports (portIx ccw)

/-- Update a port. -/
def onRPort (r : Nat) (ccw : Bool) (f : RPort → RPort) (s : State) : State :=
  onRing r (fun x => { x with ports := updAt x.ports (portIx ccw) f }) s

/-- Master-capable roles (R119). -/
def capable (x : RingSt) : Bool := x.role == 1 || x.role == 2

/-- This device is the present master of ring r. -/
def isMaster (s : State) (r : Nat) : Bool :=
  let x := ringSt s r
  capable x && x.master == x.node && !x.txStopped &&
    (match x.state with
     | .coldStart => true | .measure => true | .preRun => true | .run => true | .healed => true | .split => true
     | _ => false)

/-- This device follows another master of ring r. -/
def isFollower (s : State) (r : Nat) : Bool :=
  let x := ringSt s r
  x.role != 0 && !isMaster s r && x.state != .down && x.state != .coldStart

/-- The device opens, fills and sends frames of its own: a silenced, stopped or inactive one does not (R138). -/
def mayOpen (x : RingSt) : Bool := x.role != 0 && !x.txStopped && x.state != .down && x.state != .silent

/-- The device takes part in the cyclic slots (R149). -/
def inRun (x : RingSt) : Bool := x.state == .run || x.state == .healed || x.state == .split

/-- 32 × r + j (R488). -/
def nodeDetail (r j : Nat) : Nat := 32 * r + j

/-! ### Frames and headers (R120, R121) -/

/-- FLAGS of a header. -/
def headFlags (h : RingHead) : Nat := 128 * h.null.toNat + 64 * h.healed.toNat + 32 * h.subst.toNat + 16 * h.loop.toNat

/-- Bytes 0 to 13 of the 16-byte ring header. -/
def headBytes (h : RingHead) : List Byte :=
  leBytes 1 (16 * (h.ver % 16) + h.kind % 16) ++ leBytes 1 (headFlags h) ++ leBytes 1 (128 * (h.ring % 2) + h.src % 32) ++
    leBytes 1 h.slot ++ leBytes 8 h.tickno ++ leBytes 2 h.plen

/-- A header with its check. -/
def sealed (h : RingHead) : RingHead := { h with hchk := crc16 (headBytes h) }

/-- The head of a frame that this device opens or sends. -/
def newHead (s : State) (r kind slot plen : Nat) : RingHead :=
  { dst := (ringCfg s r).group, sa := (ringCfg s r).addr, etype := (ringCfg s r).etype, kind := kind,
    healed := (ringSt s r).healedRoutes, ring := r, src := (ringSt s r).node, slot := slot, tickno := s.time.tickno, plen := plen }

/-- A frame that is used (R121): a sound FCS, the ring's EtherType, no VLAN tag, and a header whose check holds. -/
def frameOk (s : State) (r : Nat) (h : RingHead) : Bool :=
  h.fcsOk && !h.vlan && h.etype == (ringCfg s r).etype && crc16 (headBytes h) == h.hchk

/-- A frame leaves a port that is up and returns nothing. -/
def sendOn (r : Nat) (ccw : Bool) (f : RingTx) (s : State) : State :=
  if (portSt s r ccw).up && !(portSt s r ccw).loop then onRing r (fun x => { x with tx := x.tx ++ [{ f with ccw := ccw }] }) s else s

/-- A frame leaves both ports. -/
def sendBoth (r : Nat) (f : RingTx) (s : State) : State := sendOn r true f (sendOn r false f s)

/-- Residence of a node, in ns (R137). -/
def residenceNs : Nat := 64

/-- Forward a frame that came in on port `ccw` towards the other port (R121); at a break a cyclic frame is dropped and any other
is returned with LOOP set (R130). -/
def passFrame (r : Nat) (ccw : Bool) (at_ : Nat) (cyclic : Bool) (h : RingHead) (pay : RingPay) (s : State) : State :=
  let f : RingTx := { at_ := at_ + residenceNs, fwd := true, badFcs := !frameOk s r h, head := h, pay := pay }
  let out := portSt s r (!ccw)
  if out.up && !out.loop then sendOn r (!ccw) f s
  else if cyclic then s
  else sendOn r ccw { f with head := (if frameOk s r h then sealed { h with loop := true } else h) } s

/-- A valid frame has been heard: the quiet time of R148 counts from here. -/
def heard (r at_ : Nat) (s : State) : State := onRing r (fun x => { x with heardAt := at_ }) s

/-! ### Cold start (R148, R149) -/

/-- A starter hears a foreign beacon or a frame that fails R121: it falls silent, and after 8 failed attempts the ring stays
down (R148). [DESIGN CHOICE, log 19] -/
def coldCollision (r at_ : Nat) (s : State) : State :=
  let s := event 0x0302 0 (onRing r (fun x => { x with
    state := .listen, coll := satAdd 255 x.coll 1, sentBeacon := none, heardAt := at_ }) s)
  if 8 ≤ (ringSt s r).attempts then event 0x0303 0 (onRing r (fun x => { x with state := .down }) s) else s

/-- A frame that is not used (R121): FCSERR, RING_FCS at most once per tick per port, a collision of a starter; a node that has begun
to forward it ends it with the FCS inverted. -/
def badFrame (r : Nat) (ccw : Bool) (at_ : Nat) (cyclic : Bool) (h : RingHead) (s : State) : State :=
  let s := onRPort r ccw (fun q => { q with fcserr := satAdd 0xFFFF q.fcserr 1 }) s
  let s := eventOnce 0x0341 (2 * r + portIx ccw) 0 s
  if (ringSt s r).state == .coldStart then coldCollision r at_ s
  else if isFollower s r then passFrame r ccw at_ cyclic h .other s
  else s

/-- COLD_START: no valid frame for 50 µs + RANK × 4 µs; a beacon with STATE 5 goes out on both ports. [DESIGN CHOICE, log 19] -/
def coldStart (r at_ : Nat) (s : State) : State :=
  let x := ringSt s r
  if capable x && x.state == .listen && x.attempts < 8 && !x.txStopped && x.heardAt + 50000 + x.rank * 4000 ≤ at_ then
    let b : Beacon := { state := 5, master := x.node, tx := at_, sched := (ringCfg s r).sched }
    sendBoth r { at_ := at_, head := sealed (newHead s r 3 0 128), pay := .beacon b }
      (onRing r (fun x => { x with state := .coldStart, attempts := x.attempts + 1, master := x.node, sentBeacon := some b }) s)
  else s

/-! ### The nodes of the ring and the routes (R126) -/

/-- A node number is on the ring: the image lists it or it is a member through a spare, and it is not an absent former master. -/
def onRingNow (s : State) (r j : Nat) : Bool :=
  let x := ringSt s r
  j != x.master && ((ringCfg s r).nodes.contains j || hasBit x.members j) && !hasBit x.absent j

/-- The node numbers on the ring, clockwise from the master (R119). -/
def ringNodes (s : State) (r : Nat) : List Nat :=
  ((List.range 31).map (fun i => ((ringSt s r).master + 1 + i) % 32)).filter (onRingNow s r)

/-- Place of node j clockwise from the master: 0 for the master itself. -/
def placeOf (s : State) (r j : Nat) : Nat := if j = (ringSt s r).master then 0 else (ringNodes s r).idxOf j + 1

/-- Place of the last node that the master reaches clockwise: all of them without a known break. -/
def lastCw (s : State) (r : Nat) : Nat :=
  let x := ringSt s r
  let n := (ringNodes s r).length
  if x.brkA != 255 then placeOf s r x.brkA
  else if x.brkB != 255 then (if x.brkB = x.master then n else placeOf s r x.brkB - 1)
  else n

/-- Place of the last node that the master reaches counter-clockwise. -/
def lastCcw (s : State) (r : Nat) : Nat :=
  let x := ringSt s r
  if x.brkB != 255 then (if x.brkB = x.master then (ringNodes s r).length + 1 else placeOf s r x.brkB)
  else lastCw s r + 1

/-- Node j is reached by a port of the master in healed form: a route that does not cross a break. -/
def reached (s : State) (r j : Nat) (ccw : Bool) : Bool :=
  if ccw then lastCcw s r ≤ placeOf s r j else placeOf s r j ≤ lastCw s r

/-- Port at the master by which node j is reached in healed form: true CCW. -/
def healedCcw (s : State) (r j : Nat) : Bool := !reached s r j false && reached s r j true

/-- The parts of a slot's frame carry a node on this side: DIR in ring form, the reachable side in healed form. [DEDUCED, log 135] -/
def onSide (s : State) (r slot j : Nat) (ccw : Bool) : Bool :=
  if (ringSt s r).healedRoutes then reached s r j ccw
  else match (nth (ringCfg s r).slots slot).dir with | 0 => !ccw | 1 => ccw | _ => true

/-- Segments of a schedule entry (R123). -/
def slotSegs (s : State) (r slot : Nat) : List SegCfg :=
  let c := ringCfg s r
  let e := nth c.slots slot
  (c.segs.drop e.segFirst).take e.nseg

/-- The members of a part, the nearest to the master first (R126): confirmed members on its side. -/
def partMembers (s : State) (r slot : Nat) (ccw : Bool) : List Nat :=
  let js := (slotSegs s r slot).map (fun g => g.node)
  let l := (ringNodes s r).filter (fun j => js.contains j && hasBit (ringSt s r).members j && onSide s r slot j ccw)
  if ccw then l.reverse else l

/-- The ports that a slot's frame or parts use at the master. -/
def slotSides (s : State) (r slot : Nat) : List Bool := [false, true].filter (fun c => !(partMembers s r slot c).isEmpty)

/-- The opener of a part: the member farthest from the master along the part's route (R127). -/
def opener (s : State) (r slot : Nat) (ccw : Bool) : Option Nat := (partMembers s r slot ccw).getLast?

/-- The first member after the opener (R129). -/
def substitute (s : State) (r slot : Nat) (ccw : Bool) : Option Nat := (partMembers s r slot ccw).dropLast.getLast?

/-- The port of this device that faces the master along a part's route: a part of the master's CW port reaches it on port CCW. -/
def masterPort (side : Bool) : Bool := !side

/-- Path delay d(m) of this device along a part's route, in ns (R131, R136). -/
def ownDelay (s : State) (r : Nat) (side : Bool) : Nat := nth (ringSt s r).dly (portIx (masterPort side))

/-- Instant of a slot's START in this tick. Before ring start, when no E0 runs, it is now. [DEDUCED, log 135] -/
def slotAt (s : State) (r slot : Nat) : Nat :=
  if s.time.run then s.time.e0 + 8 * (nth (ringCfg s r).slots slot).start else s.time.tb

/-- The window of a frame's start (R131): ±100 ns of the expected instant. -/
def windowOf (expected at_ : Nat) : Window :=
  if at_ + 100 < expected then .early else if expected + 100 < at_ then .late else .inside

/-- The neighbour on a port of this device. -/
def neighbour (s : State) (r : Nat) (ccw : Bool) : Option Nat :=
  let x := ringSt s r
  let l := x.master :: ringNodes s r
  let p := placeOf s r x.node
  if ccw then (if p = 0 then l.getLast? else l[p - 1]?) else l[(p + 1) % l.length]?

/-- The standby's port next to the master (R130). -/
def copyPort (s : State) (r : Nat) : Bool := neighbour s r true == some (ringSt s r).master

/-! ### Segments this device writes -/

/-- Bits 15 to 10 of the uplink AXSTAT of a channel: REFD, REFJ, BUSY, HRES (R150). -/
def chanAxstat (c : ChanSt) : BitVec 16 :=
  (if c.refd then 0x8000 else 0) ||| (if c.refj then 0x4000 else 0) ||| (if c.busy then 0x2000 else 0) |||
    BitVec.ofNat 16 (c.hres % 8 * 1024)

/-- The uplink entry of channel c in node mode (R150): position, fraction, induced-voltage sample, status. [DESIGN CHOICE, log 50] -/
def chanUplink (c : ChanSt) : UpEntry :=
  { pos := (c.pos >>> 24).setWidth 32, posf := (c.pos >>> 8).setWidth 16, trq := c.emf.signExtend 16,
    axstat := chanAxstat c }

/-- The uplink entry e: the channel that the image maps to it (R150). -/
def entryUp (s : State) (e : Nat) : UpEntry :=
  match (List.range (maxChans s.fuse.variant)).find? (fun c => (chanCfg s c).upEntry == some e) with
  | some c => chanUplink (chSt s c)
  | none => {}

/-- A port at a break is up again with 8 results (R147). -/
def ownReady (x : RingSt) : Bool := x.ports.any (fun p => p.up && p.loop && 8 ≤ p.probes.length)

/-- A segment of this device in a passing or opened part (R121, R133, R150): NULL while the data of the frame's tick is not
ready. WORD has no fields in the manual. [DESIGN CHOICE, log 116] -/
def ownSegment (s : State) (r : Nat) (h : RingHead) (g : SegCfg) : UpSeg :=
  let x := ringSt s r
  { node := x.node, null := !(s.time.run && h.tickno == s.time.tickno), spare := g.spare, loop := x.ports.any (fun p => p.loop),
    tchk := BitVec.ofNat 8 s.time.tickno, early := x.ownEarly, late := x.ownLate, rdy := ownReady x,
    fault := x.role == 3 && s.axio.any (fun c => c.fault), status := Config.nodeWord x.node s.time.tickno,
    entries := (List.range g.nax).map (entryUp s) }

/-- The segments of a part with this device's own in place. -/
def withOwn (s : State) (r slot : Nat) (h : RingHead) (segs : List UpSeg) : List UpSeg :=
  mapIdx (fun i u => let g := nth (slotSegs s r slot) i
    if g.node == (ringSt s r).node then ownSegment s r h g else u) 0 segs

/-- This device has a segment in the slot. -/
def isMember (s : State) (r slot : Nat) : Bool :=
  hasBit (ringSt s r).members (ringSt s r).node && (slotSegs s r slot).any (fun g => g.node == (ringSt s r).node)

/-- Its segment has gone out, and with it the flags of the last cycle and REFJ of its channels (R150). -/
def wroteOwn (r : Nat) (s : State) : State :=
  let s := if nodeMode s then { s with axio := s.axio.map (fun c => { c with refj := false }) } else s
  onRing r (fun x => { x with
    ownEarly := false, ownLate := false, nodes := updAt x.nodes x.node (fun n => { n with wrote := true }) }) s

/-- Open a part (R127, R129): every segment NULL but its own, sent at START − d. -/
def openPart (r slot : Nat) (side subst : Bool) (s : State) : State :=
  let h := sealed { newHead s r 1 slot (nth (ringCfg s r).slots slot).plen with subst := subst }
  let nulls : List UpSeg := (slotSegs s r slot).map (fun g => { node := g.node, null := true, spare := g.spare, tchk := BitVec.ofNat 8 s.time.tickno })
  wroteOwn r (sendOn r (masterPort side)
    { at_ := slotAt s r slot - ownDelay s r side, head := h, pay := .collect (withOwn s r slot h nulls) } s)

/-- The axes whose set-point goes to node j of ring r, in entry order. -/
def downAxes (s : State) (r j : Nat) : List (Nat × Nat) :=
  (List.range s.image.axes.length).filterMap (fun a => match (axisCfg s a).dst with
    | .ring r' j' e => if (axisCfg s a).defined && r' = r && j' = j then some (e, a) else none
    | _ => none)

/-- The downlink segment of a node (R121, R133, R313): set-points, HOLD in PARK and DOZE, and the STO mask. -/
def downSeg (s : State) (r : Nat) (g : SegCfg) : DownSeg :=
  let as := downAxes s r g.node
  { node := g.node, null := g.spare && !(nodeSt s r g.node).spare, spare := g.spare, tchk := BitVec.ofNat 8 s.time.tickno,
    hold := s.chip.pstate == .park || s.chip.pstate == .doze,
    sto := maskOf 32 (fun e => s.chip.pstate == .park || s.chip.pstate == .doze ||
      as.any (fun p => p.1 == e && !hasBit s.saf.lineCmd (axisCfg s p.2).group)),
    entries := (List.range g.nax).map (fun e => match as.find? (fun p => p.1 == e) with
      | some p => (axSt s p.2).down
      | none => {}) }

/-- The master sends a DISTRIBUTE frame or its parts at START (R128); each part carries all segments. -/
def sendDistribute (r slot : Nat) (s : State) : State :=
  let ds := (slotSegs s r slot).map (downSeg s r)
  let h := sealed (newHead s r 2 slot (nth (ringCfg s r).slots slot).plen)
  let s := onRing r (fun x => { x with
    nodes := ds.foldl (fun ns d => updAt ns d.node (fun n => { n with prev := some d })) x.nodes }) s
  forAll (slotSides s r slot) (fun c => sendOn r c { at_ := slotAt s r slot, head := h, pay := .distribute ds }) s

/-! ### Claims (R140 to R143) -/

/-- TYPE of this device's claim: a node that the image lists claims its own place, a late-comer a spare (R141, R149). [DEDUCED, log 117] -/
def claimType (s : State) (r : Nat) : Nat := if (ringCfg s r).nodes.contains (ringSt s r).node || (ringSt s r).role == 2 then 2 else 1

/-- The claim of this device goes out in the join slot. [DEDUCED, log 117] -/
def sendClaim (r at_ : Nat) (s : State) : State :=
  let x := ringSt s r
  let t := claimType s r
  let j := if t = 2 then x.node else 255
  let m : ClaimMsg := { type := t, hopCw := nth x.hops 0, hopCcw := nth x.hops 1, node := j, serial := s.fuse.serial.toNat }
  sendBoth r { at_ := at_, head := sealed (newHead s r 4 x.slot 56), pay := .claim m }
    (onRing r (fun x => { x with claimSent := true, retry := none }) s)

/-- A CONFIRM entry in the next beacon; the node counts from the E0 after it. -/
def confirmClaim (r node spare : Nat) (viaSpare : Bool) (s : State) : State :=
  onRing r (fun x => { x with
    out := x.out ++ [.confirm node spare], clValid := true, clDenied := false, clSpare := spare, clTick := s.time.tickno % 65536,
    nodes := updAt x.nodes node (fun n => { n with joinNext := true, viaSpare := viaSpare, spare := n.spare || viaSpare }) }) s

/-- A DENY entry and RING_CLAIM_DENIED. -/
def denyClaim (r node spare reason : Nat) (s : State) : State :=
  event 0x0331 0 (onRing r (fun x => { x with
    out := x.out ++ [.deny node spare reason], clValid := true, clDenied := true, clSpare := spare, clTick := s.time.tickno % 65536 }) s)

/-- The groups whose tool joins through a spare of ring r wait for its identity block (R350). -/
def awaitTool (r spare digest : Nat) (s : State) : State :=
  forAll (List.range 16) (fun g s =>
    let c := grpCfg s g
    if c.defined && c.tsrc = 2 && c.toolRing = r && c.toolSpare = spare then
      onGrp g (fun x => { x with claimed := true, toolOk := false, toolWait := some s.time.tickno, toolDig := digest }) s
    else s) s

/-- Nodes on the ring between the master and a claimant, clockwise: HOPCCW counts them; else HOPCW counts those on the other
side (R141). [DEDUCED, log 117] -/
def claimPlace (s : State) (r : Nat) (m : ClaimMsg) : Option Nat :=
  if m.hopCcw != 255 then some m.hopCcw
  else if m.hopCw != 255 then some ((ringNodes s r).length - m.hopCw)
  else none

/-- The spares declared at a position: their reserved numbers lie between the neighbours there. [DEDUCED, log 117] -/
def sparesAt (s : State) (r place : Nat) : List SpareCfg :=
  let gap (j : Nat) : Nat := (j + 32 - (ringSt s r).master) % 32
  (ringCfg s r).spares.filter (fun c =>
    ((ringNodes s r).filter (fun j => j != c.node && gap j < gap c.node)).length == place)

/-- Decide one claim (R141). -/
def decideClaim (r : Nat) (m : ClaimMsg) (s : State) : State :=
  let x := ringSt s r
  if m.type = 2 then
    (if ((ringCfg s r).nodes.contains m.node || (nodeSt s r m.node).spare) &&
        (hasBit x.silent m.node || !hasBit x.members m.node) then confirmClaim r m.node 0 false s else s)
  else
    let l := match claimPlace s r m with | some p => sparesAt s r p | none => []
    let kind (c : SpareCfg) : Bool := c.vendor == m.vendor && c.product == m.product
    match l.find? (fun c => kind c && !(nodeSt s r c.node).spare), l.find? kind, l.head? with
    | some c, _, _ => awaitTool r c.id m.idDig (confirmClaim r c.node c.id true s)
    | none, some c, _ => denyClaim r m.node c.id 3 s
    | none, none, some c => denyClaim r m.node c.id 2 s
    | none, none, none => denyClaim r m.node 0 1 s

/-- One claim is decided per cycle, the one on port CW first; another receives neither CONFIRM nor DENY (R142). -/
def decideClaims (r : Nat) (s : State) : State :=
  let cs := (ringSt s r).claims
  let s := onRing r (fun x => { x with claims := [] }) s
  match cs.find? (fun c => !c.1), cs.head? with
  | some c, _ => decideClaim r c.2 s
  | none, some c => decideClaim r c.2 s
  | none, none => s

/-- CLAIM (R141, R142): the master keeps it for its next beacon; a node passes it on. -/
def claimFrame (r : Nat) (ccw : Bool) (at_ : Nat) (h : RingHead) (m : ClaimMsg) (s : State) : State :=
  let x := ringSt s r
  if x.role = 0 || x.state == .down then s
  else if !frameOk s r h then badFrame r ccw at_ false h s
  else
    let s := heard r at_ s
    if isMaster s r then
      (if x.claims.any (fun c => c.1 == ccw) then s else onRing r (fun x => { x with claims := x.claims ++ [(ccw, m)] }) s)
    else passFrame r ccw at_ false h (.claim m) s

/-- CLAIM_RETRY (R142). [DESIGN CHOICE, log 19] -/
def claimRetry (r at_ : Nat) (s : State) : State :=
  if (ringSt s r).retry == some 0 then sendClaim r at_ s else s

/-- REJOIN_CLAIM (R140): 16 beacons in sync, a claim of TYPE 2. -/
def rejoinClaim (r at_ : Nat) (s : State) : State :=
  let x := ringSt s r
  if x.state == .silent && 16 ≤ x.inSync then sendClaim r at_ (onRing r (fun x => { x with rejoin := true }) s) else s

/-! ### Beacons the master sends (R138, R145 to R147) -/

/-- Both ends of the broken link report RDY (R147); the master's own end is its port at the break. -/
def endsReady (s : State) (r : Nat) : Bool :=
  let x := ringSt s r
  let own (ccw : Bool) : Bool := (portSt s r ccw).up && 8 ≤ (portSt s r ccw).probes.length
  let rdy (j : Nat) (ccw : Bool) : Bool := if j = x.node then own ccw else (nth x.nodes j).rdy
  x.brkA != 255 && x.brkB != 255 && rdy x.brkA false && rdy x.brkB true

/-- Beacon STATE (R122). [DEDUCED, log 55] -/
def beaconState (x : RingSt) : Nat :=
  match x.state with
  | .coldStart => 5 | .measure => 0 | .preRun => 0
  | _ => if 2 ≤ x.broken then 4 else if x.restEff.isSome then 3 else if x.broken = 1 then 2 else 1

/-- E0 of the next cycle, as the beacon carries it: before ring start it counts down to the planned T_start. [DEDUCED, log 55] -/
def nextE0At (s : State) (r : Nat) : Nat :=
  if s.time.run then s.time.e0 + periodNs s else s.time.tplan - ((ringSt s r).count - 1) * periodNs s

/-- The beacon of this cycle: answers to claims before the RESYNC entries, five in all. [DEDUCED, log 55] -/
def makeBeacon (s : State) (r : Nat) (takeover : Bool) : Beacon :=
  let x := ringSt s r
  let outs := (List.range 32).filter (fun j => (nth x.nodes j).outNow)
  { next := if s.time.run then s.time.tickno + 1 else 0, e0 := nextE0At s r, tx := slotAt s r x.slot, state := beaconState x,
    tstart := if s.time.run then s.time.tstart else s.time.tplan, rate := s.time.rate, brkA := x.brkA, brkB := x.brkB,
    takeover := takeover, master := x.node, members := x.members, silent := x.silent,
    outw := maskOf 32 (fun j => outs.contains j), eff := x.restEff.getD 0, count := x.count, sched := (ringCfg s r).sched,
    entries := (x.out ++ outs.map (fun j => BeaconEntry.resync j (nth x.nodes j).err)).take 5 }

/-- Ports of a slot: DIR in ring form, both in healed form. -/
def slotPorts (s : State) (r slot : Nat) : List Bool :=
  if (ringSt s r).healedRoutes then [false, true]
  else match (nth (ringCfg s r).slots slot).dir with | 0 => [false] | 1 => [true] | _ => [false, true]

/-- Send the beacon: the claim of the cycle decided, a restoration announced, out-of-window cycles counted, RING_SPLIT with the first
STATE 4. -/
def sendBeacon (r : Nat) (takeover : Bool) (s : State) : State :=
  let s := onRing r (fun x => { x with tx := if s.time.run then x.tx else [] }) (decideClaims r s)
  let x := ringSt s r
  let s := if x.broken = 1 && x.restEff.isNone && x.healedRoutes && !x.needStable && endsReady s r then
      onRing r (fun x => { x with restEff := some (s.time.tickno + 2) }) s else s
  let b := makeBeacon s r takeover
  let s := forAll (slotPorts s r x.slot) (fun c => sendOn r c
    { at_ := b.tx, head := sealed (newHead s r 3 x.slot 128), pay := .beacon b }) s
  let s := onRing r (fun x => { x with
    sentBeacon := some b, back := [false, false], out := [], count := x.count - 1,
    nodes := x.nodes.map (fun n => { n with
      consec := (if n.outNow then min 3 (n.consec + 1) else 0), outNow := false }) }) s
  if b.state = 4 && !x.splitSent then
    event 0x0313 0 (onRing r (fun x => { x with splitSent := true, state := .split }) s)
  else s

/-! ### Probes (R135, R147) -/

/-- Link delay of one exchange (R135). A negative result counts as 0, and halves round down. [DESIGN CHOICE, log 118] -/
def linkDelay (t1 t2 t3 t4 : Nat) : Nat := ((((t4 : Int) - t1) - ((t3 : Int) - t2)) / 2).toNat

/-- The mean of the last 8 results (R135). [DEDUCED, log 52] -/
def meanOf (l : List Nat) : Nat := if l.isEmpty then 0 else l.foldl (· + ·) 0 / l.length

/-- Link delay of a port. -/
def portDelay (s : State) (r : Nat) (ccw : Bool) : Nat := meanOf (portSt s r ccw).probes

/-- Path delays along the nodes: the link delays and one residence per node passed (R135, R137). [DEDUCED, log 52] -/
def pathDelays (js : List Nat) (ns : List NodeSt) (d : Nat) (first : Bool) : List NodeSt :=
  match js with
  | [] => ns
  | j :: r =>
    let d' := d + (nth ns j).upDelay + (if first then 0 else residenceNs)
    pathDelays r (updAt ns j (fun n => { n with pathDelay := min 0xFFFF d' })) d' false

/-- The upstream link delay of a node is known; it has answered a probe. -/
def noteDelay (r j d : Nat) (s : State) : State :=
  let s := onNode r j (fun n => { n with upDelay := min 0xFFFF d, wrote := true }) s
  if isMaster s r then onRing r (fun x => { x with nodes := pathDelays (ringNodes s r) x.nodes 0 true }) s else s

/-- The PROBE slot (R135): probes on both ports in one cycle, in the next the answers to those heard. [DEDUCED, log 52] -/
def probeSlot (r slot : Nat) (s : State) : State :=
  let at_ := slotAt s r slot
  let h := sealed (newHead s r 5 slot 16)
  let turn := (ringSt s r).probeTurn
  let s := onRing r (fun x => { x with probeTurn := !turn }) s
  forAll [false, true] (fun c s =>
    if turn then
      match (portSt s r c).heard with
      | some t => onRPort r c (fun p => { p with heard := none }) (sendOn r c { at_ := at_, head := h, pay := .probe at_ (some t) } s)
      | none => s
    else if (portSt s r c).up then
      onRPort r c (fun p => { p with sentAt := some at_ })
        (onRing r (fun x => { x with tx := x.tx ++ [{ ccw := c, at_ := at_, head := h, pay := .probe at_ none }] }) s)
    else s) s

/-- PROBE (R135): a neighbour's probe waits for its answer; an answer gives a link delay. A probe is not forwarded. -/
def probe (r : Nat) (ccw : Bool) (at_ : Nat) (h : RingHead) (m : ProbeMsg) (s : State) : State :=
  let x := ringSt s r
  if x.role = 0 then s
  else if !frameOk s r h then
    eventOnce 0x0341 (2 * r + portIx ccw) 0 (onRPort r ccw (fun q => { q with fcserr := satAdd 0xFFFF q.fcserr 1, probes := [] }) s)
  else
    let s := heard r at_ s
    match m with
    | .request _ => onRPort r ccw (fun p => { p with heard := some at_ }) s
    | .reported j d => noteDelay r j d s
    | .answer t2 t3 =>
      match (portSt s r ccw).sentAt with
      | none => s
      | some t1 =>
        let s := onRPort r ccw (fun p => { p with
          sentAt := none, rounds := min 16 (p.rounds + 1),
          probes := (p.probes ++ [linkDelay t1 t2 t3 at_]).drop (p.probes.length + 1 - 8) }) s
        match neighbour s r ccw with
        | some j => if isMaster s r then noteDelay r j (portDelay s r ccw) s else s
        | none => s

/-- 16 probe rounds on every port that is up (R149). -/
def probesDone (s : State) (r : Nat) : Bool := (ringSt s r).ports.all (fun p => !p.up || 16 ≤ p.rounds)

/-! ### MEASURE and PRE-RUN (R149) -/

/-- The first multiple of the tick period from an instant on. -/
def wholePeriod (s : State) (t : Nat) : Nat := (t + periodNs s - 1) / periodNs s * periodNs s

/-- T_start is planned when a ring enters PRE-RUN: PRECNT cycles on, and at least 100 µs (R108); all rings in PRE-RUN count
down to it together. [DESIGN CHOICE, log 48] -/
def planStart (s : State) : State :=
  let n := s.image.precnt
  let s := onTime (fun t => { t with tplan := wholePeriod s (t.tb + max 100000 (n * periodNs s)) }) s
  { s with ring := s.ring.map (fun x => if x.state == .preRun then { x with count := n } else x) }

/-- MEASURE_DONE (R149): 16 rounds and a round trip of at most RTTMAX end MEASURE, to PRE-RUN with COUNT = PRECNT (R409); a longer
one raises RING_RTT_LONG, and MEASURE goes on. A ring formed again keeps its T_start (R418). -/
def measureDone (r : Nat) (s : State) : State :=
  let x := ringSt s r
  if x.state == .measure && probesDone s r then
    if x.rtt ≤ (ringCfg s r).rttmax then
      let s := onRing r (fun x => { x with state := .preRun, count := s.image.precnt }) s
      if s.time.run then s else planStart s
    else event 0x0304 0 s
  else s

/-! ### Slots (R123, R127 to R134) -/

/-- A frame is being forwarded at an instant (R142). -/
def forwarding (s : State) (r at_ : Nat) : Bool :=
  (ringSt s r).tx.any (fun f => f.fwd && f.at_ ≤ at_ && at_ < f.at_ + wireTime f.head.plen / 10)

/-- The heartbeat of this device (R435, R438). -/
def ownHeartbeat (s : State) : Heartbeat :=
  let p := s.pair
  { tick := s.time.tickno, role := p.role, fit := p.fit, ho := p.hoFlag, esc := p.hoFlag && p.hoEsc,
    rst := p.rstSent, pstate := s.chip.pstate.code, hotick := if p.hoFlag then s.time.tickno + 1 else 0 }

/-- A heartbeat slot: before the device has a role its data is not ready, and the frame goes out NULL with a zero payload (R133). [DEDUCED, log 135] -/
def heartbeatSlot (r slot : Nat) (s : State) : State :=
  let h := newHead s r 7 slot 32
  let at_ := slotAt s r slot
  if s.pair.role = 0 then sendBoth r { at_ := at_, head := sealed { h with null := true }, pay := .zero } s
  else onPair (fun p => { p with hbSent := true }) (sendBoth r { at_ := at_, head := sealed h, pay := .heartbeat (ownHeartbeat s) } s)

/-- A beacon slot: the master's beacon, or the acknowledged standby's with TAKEOVER (R437, R438). -/
def beaconSlot (r : Nat) (s : State) : State :=
  if s.pair.role = 2 && s.pair.hoAck then onPair (fun p => { p with hoBeacon := true }) (sendBeacon r true s)
  else if isMaster s r && !(s.pair.role = 1 && s.pair.hoAck) then
    sendBeacon r (s.pair.role = 1 && s.pair.hoCause = 1 && s.pair.hoTick = s.time.tickno % 2 ^ 28) s
  else s

/-- RING_SLOT_START (R123). A silenced or stopped device sends nothing but answers to probes (R138). -/
def ringSlotStart (r slot : Nat) (s : State) : State :=
  let e := nth (ringCfg s r).slots slot
  let s := onRing r (fun x => { x with slot := slot, acyUsed := 0 }) s
  let x := ringSt s r
  if e.kind = 5 && x.role != 0 && !x.txStopped && x.state != .down then probeSlot r slot s
  else if !mayOpen x then s
  else
    match e.kind with
    | 1 =>
      if isMaster s r || !inRun x then s
      else forAll (slotSides s r slot) (fun c s => if opener s r slot c == some x.node then openPart r slot c false s else s) s
    | 2 => if isMaster s r && inRun x then sendDistribute r slot s else s
    | 3 => beaconSlot r s
    | 4 =>
      if !isMaster s r && x.state == .join && x.retry.isNone && !x.claimSent && !(nth x.nodes x.node).joinNext &&
          !forwarding s r (slotAt s r slot) then
        sendClaim r (slotAt s r slot) s
      else s
    | 7 => if e.owner = x.node && r = 0 then heartbeatSlot r slot s else s
    | _ => s

/-- SUBSTITUTE_OPEN (R129): the opener's part has not begun to arrive 96 ns after the instant expected here, and the first member
after the opener opens it with SUBST set. -/
def substituteOpen (r slot : Nat) (ccw : Bool) (at_ : Nat) (s : State) : State :=
  let x := ringSt s r
  if mayOpen x && inRun x && !isMaster s r && (nth (ringCfg s r).slots slot).kind == 1 && substitute s r slot ccw == some x.node &&
      !x.seen.contains (slot, ccw) && slotAt s r slot + 96 ≤ at_ + ownDelay s r ccw then
    onRing r (fun x => { x with seen := x.seen ++ [(slot, ccw)] }) (openPart r slot ccw true s)
  else s

/-! ### Cyclic frames -/

/-- The master notes an out-of-window part of its opener with the error measured, in 2^-4 ns (R132, R138). -/
def outOfWindow (r j : Nat) (early : Bool) (err : Int) (s : State) : State :=
  event (if early then 0x0320 else 0x0321) (nodeDetail r j) (onNode r j (fun n => { n with
    early := (if early then satAdd 255 n.early 1 else n.early),
    late := (if early then n.late else satAdd 255 n.late 1), outNow := true, err := err }) s)

/-- Take one uplink segment (R122, R127, R133): a segment of the slot from a member that is not silenced, on its side, with the
frame's TCHK. [DESIGN CHOICE, log 53] -/
def takeSegment (r : Nat) (ccw : Bool) (h : RingHead) (u : UpSeg) (s : State) : State :=
  let x := ringSt s r
  if hasBit x.members u.node && !hasBit x.silent u.node && onSide s r h.slot u.node ccw &&
      (slotSegs s r h.slot).any (fun g => g.node == u.node) && u.tchk == BitVec.ofNat 8 h.tickno && !u.null then
    onNode r u.node (fun n => { n with up := some u, wrote := true, rdy := u.rdy, route := ccw }) s
  else s

/-- The master's port towards the standby, where there is one. -/
def standbySide (s : State) (r : Nat) : Option Bool :=
  let j := (ringCfg s r).standby
  if neighbour s r false == some j then some false else if neighbour s r true == some j then some true else none

/-- The master copies a part that does not pass the standby towards it, 64 ns after its start (R130). -/
def copyPart (r : Nat) (ccw : Bool) (at_ : Nat) (h : RingHead) (segs : List UpSeg) (s : State) : State :=
  match (if s.pair.cfg then standbySide s r else none) with
  | some c => if c == ccw then s else sendOn r c { at_ := at_ + 64, fwd := true, head := h, pay := .collect segs } s
  | none => s

/-- A COLLECT part at the master (R127, R130 to R132). -/
def masterCollect (r : Nat) (ccw : Bool) (at_ : Nat) (h : RingHead) (segs : List UpSeg) (s : State) : State :=
  let s := copyPart r ccw at_ h segs s
  let exp := slotAt s r h.slot
  match windowOf exp at_ with
  | .inside => forAll segs (takeSegment r ccw h) s
  | w => match opener s r h.slot ccw with
    | some j => outOfWindow r j (w == .early) (16 * ((at_ : Int) - exp)) s
    | none => s

/-- A frame outside its window at this device: its flag goes out with its next uplink segment (R132). -/
def ownMiss (r : Nat) (early : Bool) (s : State) : State :=
  onRing r (fun x => { x with ownEarly := x.ownEarly || early, ownLate := x.ownLate || !early, winBad := true }) s

/-- A COLLECT part that passes this device (R127, R131 to R133): its segment is replaced in passing. A standby reads what it
carries. -/
def passCollect (r : Nat) (ccw : Bool) (at_ : Nat) (h : RingHead) (segs : List UpSeg) (s : State) : State :=
  let s := onRing r (fun x => { x with seen := x.seen ++ [(h.slot, ccw)] }) s
  match windowOf (slotAt s r h.slot - ownDelay s r ccw) at_ with
  | .inside =>
    let s := if (ringSt s r).role = 2 then forAll segs (takeSegment r ccw h) s else s
    if mayOpen (ringSt s r) && inRun (ringSt s r) && isMember s r h.slot then
      wroteOwn r (passFrame r ccw at_ true h (.collect (withOwn s r h.slot h segs)) s)
    else passFrame r ccw at_ true h (.collect segs) s
  | w => passFrame r ccw at_ true h (.collect segs) (ownMiss r (w == .early) s)

/-- The copy of a part that the master sends to the standby, which strips it; its window follows from R131 and the 64 ns of
R130. [DESIGN CHOICE, log 53] -/
def takeCopy (r : Nat) (ccw : Bool) (at_ : Nat) (h : RingHead) (segs : List UpSeg) (s : State) : State :=
  match windowOf (slotAt s r h.slot + 64 + nth (ringSt s r).dly (portIx ccw)) at_ with
  | .inside => forAll segs (takeSegment r ccw h) s
  | _ => s

/-- COLLECT_FRAME (R127, R130 to R133) at the port it arrives on. -/
def collectFrame (r : Nat) (ccw : Bool) (at_ : Nat) (h : RingHead) (segs : List UpSeg) (s : State) : State :=
  let x := ringSt s r
  if x.role = 0 || x.state == .down then s
  else if !frameOk s r h then badFrame r ccw at_ true h s
  else
    let s := heard r at_ s
    if isMaster s r then masterCollect r ccw at_ h segs s
    else if x.role = 2 && copyPort s r == ccw then takeCopy r ccw at_ h segs s
    else passCollect r ccw at_ h segs s

/-- The mapped STO_N lines that a mask switches active: the image maps bits of the mask to lines (R150). -/
def maskLines (s : State) (sto : BitVec 32) : BitVec 16 :=
  maskOf 16 (fun i => match (nth s.image.stoMap i : Option Nat) with | some b => hasBit sto b | none => false)

/-- The STO mask of a used segment drives the mapped lines of a device in node mode (R150, R151). -/
def nodeLines (sto : BitVec 32) (s : State) : State :=
  onSaf (fun f => { f with lineCmd := ~~~ maskLines s sto }) s

/-- The segment of a DISTRIBUTE frame that this device uses (R122, R131, R132). -/
def usedDown (s : State) (r : Nat) (ccw : Bool) (at_ : Nat) (h : RingHead) (segs : List DownSeg) : Option DownSeg :=
  let x := ringSt s r
  if x.role = 3 && inRun x && hasBit x.members x.node &&
      windowOf (slotAt s r h.slot + nth x.dly (portIx ccw)) at_ == .inside then
    segs.find? (fun d => d.node == x.node && d.tchk == BitVec.ofNat 8 h.tickno)
  else none

/-- Use a downlink segment (R133, R151): its STO mask always, its set-points unless HOLD or NULL is set. After a lost downlink the
lines follow from the first segment with the mask clear. -/
def useDown (r : Nat) (d : DownSeg) (s : State) : State :=
  let lost := (ringSt s r).dlLost && d.sto != 0
  let s := if lost then s else nodeLines d.sto s
  let fresh := !(d.hold || d.null)
  onRing r (fun x => { x with
    dlUsed := true, dlLost := lost, dlFresh := fresh, dlNow := if fresh then some d else x.dlNow }) s

/-- A DISTRIBUTE frame goes on to the members beyond; the last member of its route strips it (R128). -/
def passDown (r : Nat) (ccw : Bool) (at_ : Nat) (h : RingHead) (segs : List DownSeg) (s : State) : State :=
  if opener s r h.slot (!ccw) == some (ringSt s r).node then s else passFrame r ccw at_ true h (.distribute segs) s

/-- A DISTRIBUTE frame at this device (R128, R131, R132), but for the use of its segment. -/
def distributeFrame (r : Nat) (ccw : Bool) (at_ : Nat) (h : RingHead) (segs : List DownSeg) (s : State) : State :=
  let x := ringSt s r
  if x.role = 0 || x.state == .down then s
  else if !frameOk s r h then badFrame r ccw at_ true h s
  else
    let s := heard r at_ s
    if isMaster s r then s
    else
      let s := match windowOf (slotAt s r h.slot + nth x.dly (portIx ccw)) at_ with
        | .inside => s
        | w => ownMiss r (w == .early) s
      passDown r ccw at_ h segs s

/-! ### Breaks (R144 to R147) -/

/-- The master learns of a break: RING_BREAK; the routes change at `eff`, when the nodes change (R145); a further break splits the
ring (R146). A break within 1 s of the restoration must be stable for 10 s before it is restored again (R147). -/
def learnBreak (r eff : Nat) (s : State) : State :=
  let again := match (ringSt s r).restAt with
    | some t => (s.time.tickno - t) * periodNs s < 1000000000
    | none => false
  event 0x0310 0 (onRing r (fun x => { x with
    sawBreak := true, broken := x.broken + 1, restEff := none, rdyAt := none, needStable := x.needStable || again,
    routeAt := (if x.healedRoutes then x.routeAt else some (x.routeAt.getD eff)) }) s)

/-- Set the end of a break on one side: the node that returned the clockwise copy is BRKA, the other BRKB. -/
def setEnd (ccw : Bool) (j : Nat) (x : RingSt) : RingSt := if ccw then { x with brkB := j } else { x with brkA := j }

/-- The end of a known break on one side. -/
def knownEnd (x : RingSt) (ccw : Bool) : Nat := if ccw then x.brkB else x.brkA

/-- Node j lies at the known break as seen from one side: its neighbour on the far side is the other end. -/
def sameBreak (s : State) (r : Nat) (ccw : Bool) (j : Nat) : Bool :=
  let n := (ringNodes s r).length
  let p := if ccw && j = (ringSt s r).master then n + 1 else placeOf s r j
  if ccw then p == lastCw s r + 1 else p + 1 == lastCcw s r

/-- A break seen at node j on one side of the master: the first one, its other end, or a second one. -/
def breakAt (r eff : Nat) (ccw : Bool) (j : Nat) (s : State) : State :=
  let x := ringSt s r
  if x.broken = 0 then learnBreak r eff (onRing r (setEnd ccw j) s)
  else if knownEnd x ccw = j then
    (if x.restEff.isSome && !endsReady s r then onRing r (fun x => { x with restEff := none }) s else s)
  else if knownEnd x ccw = 255 && sameBreak s r ccw j then
    onRing r (fun x => { setEnd ccw j x with restEff := none }) s
  else if x.broken < 2 then learnBreak r eff (onRing r (setEnd ccw j) s)
  else s

/-- PORT_DOWN (R144): LOOP; at the master the break is learnt at once, and healed with the nodes: they change after the beacon of
this tick, or, once that has gone out, after the next one. Ring number 2 stands for the pair link (R435). -/
def portDown (r : Nat) (ccw : Bool) (s : State) : State :=
  if r = 2 then onPair (fun p => { p with linkUp := false, linkFell := true, linkOk := false }) s
  else
    let s := onRPort r ccw (fun q => { q with up := false, loop := true, probes := [], rounds := 0, sentAt := none, heard := none }) s
    let x := ringSt s r
    if x.role = 0 then s
    else if isMaster s r then
      breakAt r (s.time.tickno + (if x.sentBeacon.isSome then 2 else 1)) ccw x.node (onRing r (fun x => { x with restEff := none }) s)
    else onRing r (setEnd (!ccw) x.node) s

/-- PORT_UP (R147): the link is probed again; the port keeps returning frames until the restoration. A port whose slice has
faulted stays a break (R41). -/
def portUp (r : Nat) (ccw : Bool) (s : State) : State :=
  if r = 2 then onPair (fun p => { p with linkUp := true }) s
  else if (regSt s .ring).faulted.contains (16 * r + portIx ccw) then s
  else
    onRing r (fun x => { x with
      ports := updAt x.ports (portIx ccw) (fun q => { up := true, loop := q.loop && x.broken != 0, fcserr := q.fcserr }),
      heardAt := s.time.tb,
      state := (if x.state == .down && x.role != 0 && x.attempts < 8 && !x.txStopped then .listen else x.state) }) s

/-- LINK_STABLE_TIMER (R147): both ends of the link have been ready for 10 s. [DESIGN CHOICE, log 141] -/
def linkStableTimer (r : Nat) (s : State) : State :=
  match (ringSt s r).rdyAt with
  | some t => if 10000000000 ≤ (s.time.tickno - t) * periodNs s then onRing r (fun x => { x with needStable := false }) s else s
  | none => s

/-! ### Beacons a device receives (R136, R137, R140, R145, R149) -/

/-- The RESYNC value addressed to a node, in 2^-4 ns. -/
def resyncOf (b : Beacon) (j : Nat) : Int :=
  (b.entries.filterMap (fun e => match e with | .resync k v => if k = j then some v else none | _ => none)).headD 0

/-- Offset of R137 in 2^-4 ns: local TB at arrival less TX, CORR and the ingress link delay, plus the RESYNC value. -/
def beaconOffset (s : State) (r : Nat) (ccw : Bool) (at_ : Nat) (b : Beacon) : Int :=
  16 * ((at_ : Int) - b.tx - portDelay s r ccw) - b.corr + resyncOf b (ringSt s r).node

/-- Follow the master's time (R137): the offset sets RATE under R99's limits; a device that has never been a member may step once.
Nothing moves a time base that has stopped (R117). -/
def followBeacon (r at_ : Nat) (off : Int) (b : Beacon) (s : State) : State :=
  let x := ringSt s r
  if s.time.stopped then s
  else
    let s := advanceTb at_ s
    if !x.stepped && !x.everMember && !s.time.run && 16000 < off.natAbs then
      onRing r (fun x => { x with stepped := true, lastOffset := 0 }) (onTime (fun t => { t with
        tb := ((t.tb : Int) - off / 16).toNat, slewAt := ((t.tb : Int) - off / 16).toNat, slewAcc := 0,
        rate := clampRate b.rate, target := clampRate b.rate }) s)
    else servoTo at_ (-(off / 16)) b.rate (onRing r (fun x => { x with lastOffset := off }) s)

/-- The first copy of a beacon. -/
def newBeacon (x : RingSt) (b : Beacon) : Bool := x.beaconMiss != 0 || b.tx != x.bcTx

/-- The first copy of a beacon, or one with a lower CORR than the last. -/
def lowerCopy (x : RingSt) (b : Beacon) : Bool := newBeacon x b || decide (b.corr < x.bcCorr)

/-- Path delays of a copy (R136): d(m) of its port is CORR and the ingress link delay. -/
def notePath (r : Nat) (ccw : Bool) (b : Beacon) (s : State) : State :=
  let d := portDelay s r ccw + b.corr / 16
  onRing r (fun x => { x with
    dly := updAt x.dly (portIx ccw) (fun _ => d), hops := updAt x.hops (portIx ccw) (fun _ => b.hops),
    nodes := if lowerCopy x b then updAt x.nodes x.node (fun n => { n with
        upDelay := min 0xFFFF (portDelay s r ccw), pathDelay := min 0xFFFF d }) else x.nodes }) s

/-- In sync while |offset| ≤ 20 ns (R137): beacons in a row, with this one's offset. -/
def countSync (off : Int) (x : RingSt) : RingSt :=
  let n := if off.natAbs ≤ 320 then min 16 (x.syncBefore + 1) else 0
  { x with inSync := n, state := if x.state == .acquire && 16 ≤ n then .join else x.state }

/-- Of the copies of a beacon the one with the lower CORR sets the time (R136). -/
def beaconTime (r : Nat) (ccw : Bool) (at_ : Nat) (b : Beacon) (s : State) : State :=
  let x := ringSt s r
  let s := notePath r ccw b s
  if lowerCopy x b then
    let off := beaconOffset s r ccw at_ b
    let s := onRing r (fun x => { x with
      syncBefore := (if newBeacon x b then x.inSync else x.syncBefore), bcTx := b.tx, bcCorr := b.corr }) s
    followBeacon r at_ off b (onRing r (countSync off) s)
  else s

/-- The ends of the break that a copy names: BRKA and BRKB of the master, or the node that returned the copy, on the side where
it turned; without either a break that is over. -/
def breakOf (ccw : Bool) (b : Beacon) (x : RingSt) : RingSt :=
  if b.state = 2 || b.state = 3 || b.state = 4 then { x with brkA := b.brkA, brkB := b.brkB }
  else if b.loopBy != 255 then setEnd ccw b.loopBy x
  else if x.healedRoutes || x.routeAt.isSome || x.ports.any (fun p => p.loop) then x
  else { x with brkA := 255, brkB := 255 }

/-- TAKEOVER: the former master is an absent node whose links count as a break (R149). -/
def takeoverOf (b : Beacon) (x : RingSt) : RingSt :=
  if b.takeover && b.master != x.master then { x with absent := x.absent ||| bitOf 32 x.master } else x

/-- Take the ring's membership, states and the entries addressed to this device. Before ring start a new beacon begins a cycle. -/
def applyBeacon (r : Nat) (ccw fresh : Bool) (b : Beacon) (s : State) : State :=
  let me := (ringSt s r).node
  let confirmed := b.entries.any (fun e => match e with | .confirm j _ => j == me | _ => false)
  let denied := b.entries.any (fun e => match e with | .deny j _ _ => j == me || j == 255 | _ => false)
  let s := onRing r (fun x => breakOf ccw b (takeoverOf b x)) s
  let s := onRing r (fun x => { x with
    retry := (if fresh && !s.time.run then x.retry.map (fun n => n - 1) else x.retry),
    tx := if fresh && !s.time.run then [] else x.tx }) s
  let s := onRing r (fun x => { x with
    beaconMiss := 0, master := b.master, members := b.members, silent := b.silent,
    ownOut := hasBit b.outw me, nextE0 := some (b.next, b.e0), startNext := b.state = 0 && b.count = 1,
    broken := (match b.state with | 2 => 1 | 3 => 1 | 4 => 2 | _ => 0),
    restEff := (if b.state = 3 then some b.eff else if b.state = 2 || b.state = 4 then none else x.restEff),
    routeAt := (if (b.loopBy != 255 || b.state = 2 || b.takeover) && !x.healedRoutes then
      some (x.routeAt.getD (s.time.tickno + 1)) else x.routeAt),
    state := (match x.state with
      | .listen => .acquire
      | y => if b.state = 4 && (y == .run || y == .healed) then .split else y),
    nodes := (if confirmed then updAt x.nodes me (fun n => { n with joinNext := true }) else x.nodes),
    retry := (if x.claimSent && !confirmed && !denied && b.loopBy = 255 then some (s.fuse.serial.toNat % 4 + 1) else x.retry),
    claimSent := x.claimSent && b.loopBy != 255 }) s
  if !s.time.run && b.state != 5 && b.state != 0 && !s.time.stopped then
    onTime (fun t => { t with run := true, tstart := b.tstart, tickno := b.next - 1, e0 := b.e0 - periodNs s }) s
  else if !s.time.run then onTime (fun t => { t with tplan := b.tstart }) s
  else s

/-- A former active that hears its peer's TAKEOVER stops sending and takes role 3 (R437, R439). -/
def standDown (s : State) : State :=
  let s := { s with ring := s.ring.map (fun x => { x with txStopped := true }) }
  onPair (fun p => { p with role := 3, vote := false, hoCause := 4, hoTick := s.time.tickno % 2 ^ 28 }) s

/-- A listening device hears another master: a standby of a pair takes role 2 and follows the ring's time (R109, R427). -/
def hearMaster (r : Nat) (s : State) : State :=
  let s := if r = 0 && s.pair.cfg && s.pair.role = 0 then onPair (fun p => { p with role := 2 }) s else s
  if (ringSt s r).role = 3 || s.pair.role = 2 then onTime (fun t => { t with profile := 3, servo := 5 }) s else s

/-- Forward a beacon with the link delay of its port and the residence added to CORR, and a hop (R136); at a break it is returned
with LOOPBY, and the device has seen the break itself (R145). -/
def forwardBeacon (r : Nat) (ccw : Bool) (at_ egress : Nat) (h : RingHead) (b : Beacon) (s : State) : State :=
  let x := ringSt s r
  let b := { b with corr := b.corr + 16 * (portDelay s r ccw + (egress - at_)), hops := b.hops + 1 }
  let out := portSt s r (!ccw)
  let f : RingTx := { at_ := egress, fwd := true, head := h, pay := .beacon b }
  if out.up && !out.loop then sendOn r (!ccw) f s
  else if b.loopBy != 255 then s
  else
    let s := if out.loop && s.time.run && !x.healedRoutes then
      onRing r (fun x => { x with routeAt := some (x.routeAt.getD (s.time.tickno + 1)) }) s else s
    sendOn r ccw { f with head := sealed { h with loop := true }, pay := .beacon { b with loopBy := x.node } } s

/-- A copy of the master's own beacon is back (R145, R149): a starter passes to MEASURE, the round trip is measured, LOOPBY
names a break. In a pair the starter is the active (R427). -/
def ownCopy (r : Nat) (ccw : Bool) (at_ : Nat) (b : Beacon) (s : State) : State :=
  let s := onRing r (fun x => { x with back := updAt x.back (portIx ccw) (fun _ => true), rtt := min 0xFFFF (at_ - b.tx) }) s
  if (ringSt s r).state == .coldStart then
    let s := onRing r (fun x => { x with state := .measure, ports := x.ports.map (fun p => { p with rounds := 0 }) }) s
    if r = 0 && s.pair.cfg && s.pair.role = 0 then onPair (fun p => { p with role := 1 }) s else s
  else if b.loopBy != 255 then breakAt r (s.time.tickno + 1) ccw b.loopBy s
  else s

/-- OWN_BEACON_RETURN (R149). -/
def ownBeaconReturn (r : Nat) (ccw : Bool) (at_ : Nat) (h : RingHead) (b : Beacon) (s : State) : State :=
  let x := ringSt s r
  if !isMaster s r || b.master != x.node then s
  else if !frameOk s r h then badFrame r ccw at_ false h s
  else ownCopy r ccw at_ b (heard r at_ s)

/-- A beacon that this device obeys: of its master, of any while it listens, and of the image's standby with TAKEOVER (R149). -/
def obeys (s : State) (r : Nat) (b : Beacon) : Bool :=
  let x := ringSt s r
  x.state == .listen || b.master == x.master || (b.takeover && b.master == (ringCfg s r).standby)

/-- BEACON_RECEIVED (R136): `at_` is the local TB at the start's arrival, `egress` the timestamp of the forwarded copy. -/
def beaconReceived (r : Nat) (ccw : Bool) (at_ egress : Nat) (h : RingHead) (b : Beacon) (s : State) : State :=
  let x := ringSt s r
  if x.role = 0 || x.state == .down || x.txStopped then s
  else if !frameOk s r h then badFrame r ccw at_ false h s
  else
    let s := heard r at_ s
    if isMaster s r && b.master = x.node then ownCopy r ccw at_ b s
    else if x.state == .coldStart then coldCollision r at_ s
    else if isMaster s r then (if b.takeover && s.pair.role = 1 then standDown s else s)
    else
      let s := if obeys s r b then
          let s := if x.state == .listen then hearMaster r s else s
          applyBeacon r ccw (newBeacon x b) b (beaconTime r ccw at_ b s)
        else s
      forwardBeacon r ccw at_ egress h b s

/-- GUARDIAN_SILENCE (R138): three consecutive out-of-window cycles. The master treats the node's segments as null; a device in
node mode silences itself. -/
def guardianSilence (r node : Nat) (s : State) : State :=
  let x := ringSt s r
  if isMaster s r then
    if 3 ≤ (nth x.nodes node).consec && !hasBit x.silent node then
      event 0x0322 (nodeDetail r node) (onRing r (fun x => { x with silent := x.silent ||| bitOf 32 node }) s)
    else s
  else if x.role = 3 && node = x.node && 3 ≤ x.guard && x.state != .silent then
    onRing r (fun x => { x with state := .silent, inSync := 0 }) s
  else s

/-- BEACON_LOSS (R139): no valid beacon for 8 consecutive cycles. [DESIGN CHOICE, log 141] -/
def beaconLoss (r : Nat) (s : State) : State :=
  let x := ringSt s r
  if isFollower s r && 8 ≤ x.beaconMiss && x.state != .silent then
    event 0x0324 (nodeDetail r x.node) (onRing r (fun x => { x with state := .silent, inSync := 0 }) s)
  else s

/-! ### The tick edge -/

/-- Nodes that join at this E0: members, no longer silent; RING_CLAIM for a spare, RING_REJOIN for a silenced node. -/
def joinNodes (r : Nat) (s : State) : State :=
  forAll (List.range 32) (fun j s =>
    let x := ringSt s r
    let n := nth x.nodes j
    if !n.joinNext then s
    else
      let was := hasBit x.silent j
      let s := onRing r (fun x => { x with
        members := x.members ||| bitOf 32 j, silent := x.silent &&& ~~~ bitOf 32 j,
        nodes := updAt x.nodes j (fun n => { n with joinNext := false, viaSpare := false, consec := 0, quiet := 0, nullRun := 0 }),
        state := (if j = x.node && !isMaster s r then (if x.healedRoutes then .healed else .run) else x.state),
        rejoin := x.rejoin && j != x.node, everMember := x.everMember || j = x.node }) s
      let s := forAll ((List.range s.image.axes.length).filter (fun a => portAtNode r j (axisCfg s a).src))
        (fun a => onAxis a (fun x => { x with init := false })) s
      let s := if isMaster s r && n.viaSpare then event 0x0330 (nodeDetail r j) s else s
      if isMaster s r && was then event 0x0323 (nodeDetail r j) s else s) s

/-- Healed routes take effect at this E0: RING_HEALED and class B (R145). -/
def healAt (r : Nat) (s : State) : State :=
  match (ringSt s r).routeAt with
  | none => s
  | some t =>
    if s.time.tickno < t then s
    else
      let s := onRing r (fun x => { x with
        routeAt := none, healedRoutes := true, state := (if x.state == .run then .healed else x.state) }) s
      addB 4 r (groupsOfRing s r) 0x0311 (if isMaster s r then event 0x0311 0 s else s)

/-- Ring routes take effect again at tick EFF (R147): no break is left, and RING_RESTORED. -/
def restoreAt (r : Nat) (s : State) : State :=
  match (ringSt s r).restEff with
  | none => s
  | some t =>
    if s.time.tickno < t then s
    else
      let s := onRing r (fun x => { x with
        restEff := none, restAt := some s.time.tickno, healedRoutes := false, broken := 0, brkA := 255, brkB := 255,
        sawBreak := false, splitSent := false, rdyAt := none, ports := x.ports.map (fun p => { p with loop := p.loop && !p.up }),
        state := (if x.state == .healed then .run else x.state) }) s
      endB 4 r (if isMaster s r then event 0x0312 0 s else s)

/-- A copy of the last beacon that came back on neither or only one port is missing: a break that no node has named (R145).
[DEDUCED, log 119] [DEDUCED, log 119] -/
def missingCopy (r : Nat) (s : State) : State :=
  let x := ringSt s r
  if isMaster s r && inRun x && x.broken = 0 && x.sentBeacon.isSome && !(ringNodes s r).isEmpty &&
      !(x.back.all (fun b => b)) then learnBreak r (s.time.tickno + 1) s
  else s

/-- The counts of a cycle that has ended: quiet nodes, the guardian, a stable link; a beacon that did not come ends a run in sync. -/
def cycleEnd (s : State) (r : Nat) (x : RingSt) : RingSt :=
  { x with
    nodes := x.nodes.map (fun n => { n with up := none, quiet := (if n.wrote then 0 else n.quiet + 1), wrote := false }),
    guard := (if x.ownOut || x.winBad then min 3 (x.guard + 1) else 0), ownOut := false, winBad := false,
    rdyAt := (if endsReady s r then some (x.rdyAt.getD s.time.tickno) else none),
    beaconMiss := x.beaconMiss + 1, inSync := (if x.beaconMiss = 0 then x.inSync else 0), retry := x.retry.map (fun n => n - 1), tx := [], seen := [], sentBeacon := none }

/-- Ring r at the tick edge: routes, joins, a missing beacon copy, the counts of the cycle. -/
def ringEdge (r : Nat) (s : State) : State :=
  let s := missingCopy r (joinNodes r (restoreAt r (healAt r s)))
  onRing r (cycleEnd s r) s

/-! ### The meanings -/

def execRingSlotStart (r slot : Nat) (s : State) : Out := runIn .ring (ringSlotStart r slot) s
def execSubstituteOpen (r slot : Nat) (ccw : Bool) (at_ : Nat) (s : State) : Out := runIn .ring (substituteOpen r slot ccw at_) s
def execCollectFrame (r : Nat) (ccw : Bool) (at_ : Nat) (h : RingHead) (segs : List UpSeg) (s : State) : Out :=
  runIn .ring (collectFrame r ccw at_ h segs) s
def execBeaconReceived (r : Nat) (ccw : Bool) (at_ egress : Nat) (h : RingHead) (b : Beacon) (s : State) : Out :=
  runIn .ring (beaconReceived r ccw at_ egress h b) s
def execClaim (r : Nat) (ccw : Bool) (at_ : Nat) (h : RingHead) (m : ClaimMsg) (s : State) : Out :=
  runIn .ring (claimFrame r ccw at_ h m) s
def execClaimRetry (r at_ : Nat) (s : State) : Out := runIn .ring (claimRetry r at_) s
def execProbe (r : Nat) (ccw : Bool) (at_ : Nat) (h : RingHead) (m : ProbeMsg) (s : State) : Out :=
  runIn .ring (probe r ccw at_ h m) s
def execPortDown (r : Nat) (ccw : Bool) (s : State) : Out := run (portDown r ccw) s
def execPortUp (r : Nat) (ccw : Bool) (s : State) : Out := run (portUp r ccw) s
def execLinkStableTimer (r : Nat) (s : State) : Out := runIn .ring (linkStableTimer r) s
def execGuardianSilence (r node : Nat) (s : State) : Out := runIn .ring (guardianSilence r node) s
def execBeaconLoss (r : Nat) (s : State) : Out := runIn .ring (beaconLoss r) s
def execRejoinClaim (r at_ : Nat) (s : State) : Out := runIn .ring (rejoinClaim r at_) s
def execColdStart (r at_ : Nat) (s : State) : Out := runIn .ring (coldStart r at_) s
def execOwnBeaconReturn (r : Nat) (ccw : Bool) (at_ : Nat) (h : RingHead) (b : Beacon) (s : State) : Out :=
  runIn .ring (ownBeaconReturn r ccw at_ h b) s
def execMeasureDone (r : Nat) (s : State) : Out := runIn .ring (measureDone r) s

end Sys2Proof.Machine
end

