-- ==== Sys2Proof/Machine/Flags.lean ====
section
/-! DEFINITION. Flags.lean: the results and flags of the servo slice's arithmetic (R181 to R183, R189): exact value first, then
the 24-bit or 56-bit result with its overflow or saturation. -/

namespace Sys2Proof.Machine

/-- A 24-bit result and whether it overflowed or clamped. -/
structure Res24 where
  val : BitVec 24 := 0
  ovf : Bool := false
  sat : Bool := false
  deriving DecidableEq, Repr, Inhabited

/-- A 56-bit result and whether it overflowed. -/
structure Res56 where
  val : BitVec 56 := 0
  ovf : Bool := false
  deriving DecidableEq, Repr, Inhabited

/-- An exact value fits 24 bits. -/
def fits24 (v : Int) : Bool := -8388608 ≤ v && v ≤ 8388607

/-- An exact value fits 56 bits. -/
def fits56 (v : Int) : Bool := -36028797018963968 ≤ v && v ≤ 36028797018963967

/-- A result that wraps, with an overflow event when it does not fit (R183). -/
def wrapRes (v : Int) : Res24 := { val := BitVec.ofInt 24 v, ovf := !fits24 v }

/-- A result that clamps and sets SAT when it does not fit. -/
def satRes (v : Int) : Res24 :=
  if fits24 v then { val := BitVec.ofInt 24 v }
  else { val := if 0 < v then 0x7FFFFF else 0x800000, sat := true }

/-- An accumulator result that wraps modulo 2^56 (R181). -/
def wrapAcc (v : Int) : Res56 := { val := BitVec.ofInt 56 v, ovf := !fits56 v }

/-- Division by 2^sh rounded half up (R182). -/
def shiftRound (a : Int) (sh : Nat) : Int := if sh = 0 then a else (2 * a + 2 ^ sh) / 2 ^ (sh + 1)

/-- store24 (R182). -/
def store24 (a : Int) (sh : Nat) (sat : Bool) : Res24 :=
  let v := shiftRound a sh
  if sat then satRes v else wrapRes v

/-- RS + RT and RS − RT. -/
def addRes (a b : BitVec 24) : Res24 := wrapRes (a.toInt + b.toInt)

/-- RS − RT. -/
def subRes (a b : BitVec 24) : Res24 := wrapRes (a.toInt - b.toInt)

/-- RS shifted left SH: the exact product, wrapped; 24 or more gives 0. -/
def shlRes (a : BitVec 24) (sh : Nat) : Res24 := wrapRes (a.toInt * 2 ^ sh)

/-- Arithmetic shift right. -/
def shraRes (a : BitVec 24) (sh : Nat) : BitVec 24 := BitVec.ofInt 24 (a.toInt / 2 ^ sh)

/-- Logical shift right. -/
def shrlRes (a : BitVec 24) (sh : Nat) : BitVec 24 := BitVec.ofNat 24 (a.toNat / 2 ^ sh)

/-- |RT| with |0x80_0000| counted as 0x7F_FFFF. -/
def magOf (b : BitVec 24) : Int := min 8388607 (b.toInt.natAbs : Int)

/-- CLIP: RS limited to [−|RT|, |RT|], SAT when it clamps. -/
def clipRes (a b : BitVec 24) : Res24 :=
  let v := clampI (-(magOf b)) (magOf b) a.toInt
  { val := BitVec.ofInt 24 v, sat := v != a.toInt }

/-- Flags N and Z of an exact difference. -/
def nzOf (v : Int) : Bool × Bool := (v < 0, v = 0)

/-- The exact product (R181). -/
def prod (a b : BitVec 24) : Int := a.toInt * b.toInt

/-- Shift of an accumulator: right arithmetic, or left with overflow (R189). -/
def shaRes (a : BitVec 56) (sh : Nat) (right : Bool) : Res56 :=
  if right then { val := BitVec.ofInt 56 (a.toInt / 2 ^ sh) } else wrapAcc (a.toInt * 2 ^ sh)

/-- Part of an accumulator (R189). -/
def accPart (a : BitVec 56) (part : Nat) : BitVec 24 :=
  match part with
  | 0 => a.setWidth 24
  | 1 => (a >>> 24).setWidth 24
  | _ => ((a >>> 48).setWidth 8).signExtend 24

/-- An accumulator with one part replaced (R189). -/
def withPart (a : BitVec 56) (part : Nat) (v : BitVec 24) : BitVec 56 :=
  match part with
  | 0 => (a &&& 0xFFFFFFFF000000) ||| v.setWidth 56
  | 1 => (a &&& 0xFF000000FFFFFF) ||| (v.setWidth 56 <<< 24)
  | _ => (a &&& 0x00FFFFFFFFFFFF) ||| ((v.setWidth 8).setWidth 56 <<< 48)

/-- A condition code holds (R189). -/
def condHolds (cond : Nat) (n z : Bool) : Bool :=
  match cond with
  | 0 => true | 1 => z | 2 => !z | 3 => n | 4 => !n | 5 => n || z | _ => !n && !z

end Sys2Proof.Machine
end

