-- ==== Sys2Proof/Machine/Operands.lean ====
section
/-! DEFINITION. Operands.lean: the operand forms of the servo slice (R184 to R188, R196): registers with their hazard windows,
control registers, addressing modes, data memory and its access rules. -/

namespace Sys2Proof.Machine

/-- Data register. -/
def dReg (x : SliceSt) (i : Nat) : BitVec 24 := nth x.d i

/-- Accumulator as an instruction other than an accumulate reads it (R186). -/
def aReg (x : SliceSt) (i : Nat) : BitVec 56 := if i = 0 then x.a0 else x.a1

/-- Accumulator as an accumulate reads it: onto the result still in flight (R186). -/
def aFwd (x : SliceSt) (i : Nat) : BitVec 56 :=
  (x.pend.filterMap (fun p => match p.dest with | .a j => if j = i then some p.val else none | _ => none)).getLastD (aReg x i)

/-- ST bits. -/
def stBit (x : SliceSt) (i : Nat) : Bool := x.st.getLsbD i

/-- Set or clear a bit of ST. -/
def stSet (x : SliceSt) (i : Nat) (v : Bool) : SliceSt :=
  { x with st := if v then x.st ||| bitOf 24 i else x.st &&& ~~~ bitOf 24 i }

/-- Control register numbers 22 to 31 are reserved (R184). -/
def crOk (cr : Nat) : Bool := cr < 22

/-- Read a control register: m registers sign-extended, all others zero-extended (R184). -/
def crRead (x : SliceSt) (cr : Nat) : BitVec 24 :=
  if cr < 4 then (nth x.p cr).setWidth 24
  else if cr < 8 then (nth x.m (cr - 4)).signExtend 24
  else if cr < 12 then (nth x.l (cr - 8)).setWidth 24
  else match cr with
    | 12 => (nth x.lc 0).setWidth 24 | 13 => (nth x.ls 0).setWidth 24 | 14 => (nth x.le 0).setWidth 24
    | 15 => (nth x.lc 1).setWidth 24 | 16 => (nth x.ls 1).setWidth 24 | 17 => (nth x.le 1).setWidth 24
    | 18 => x.st | 19 => x.epc.setWidth 24 | 20 => x.estat | _ => x.lr.setWidth 24

/-- Write a control register: the low bits that fit; ST keeps EV, L1 and L0 (R184). -/
def crWrite (x : SliceSt) (cr : Nat) (v : BitVec 56) : SliceSt :=
  if cr < 4 then { x with p := updAt x.p cr (fun _ => v.setWidth 12) }
  else if cr < 8 then { x with m := updAt x.m (cr - 4) (fun _ => v.setWidth 12) }
  else if cr < 12 then { x with l := updAt x.l (cr - 8) (fun _ => v.setWidth 12) }
  else match cr with
    | 12 => { x with lc := updAt x.lc 0 (fun _ => v.setWidth 14) }
    | 13 => { x with ls := updAt x.ls 0 (fun _ => v.setWidth 11) }
    | 14 => { x with le := updAt x.le 0 (fun _ => v.setWidth 11) }
    | 15 => { x with lc := updAt x.lc 1 (fun _ => v.setWidth 14) }
    | 16 => { x with ls := updAt x.ls 1 (fun _ => v.setWidth 11) }
    | 17 => { x with le := updAt x.le 1 (fun _ => v.setWidth 11) }
    | 18 => { x with st := (x.st &&& 0xE00000) ||| (v.setWidth 24 &&& 0x10000F) }
    | 19 => { x with epc := v.setWidth 11 }
    | 20 => { x with estat := v.setWidth 24 }
    | 21 => { x with lr := v.setWidth 11 }
    | _ => x

/-- Land one result. -/
def land (x : SliceSt) (p : SPend) : SliceSt :=
  match p.dest with
  | .d i => { x with d := updAt x.d i (fun _ => p.val.setWidth 24) }
  | .a i => if i = 0 then { x with a0 := p.val } else { x with a1 := p.val }
  | .cr i => crWrite x i p.val

/-- Land results in program order (R187). -/
def landAll (x : SliceSt) (ps : List SPend) : SliceSt := ps.foldl land x

/-- Commit every result in flight. -/
def commit (x : SliceSt) : SliceSt := landAll { x with pend := [] } x.pend

/-- Smallest power of two at or above n, for n up to 4,096. -/
def pow2Above (n : Nat) : Nat := ((List.range 13).map (fun i => 2 ^ i)).find? (fun w => n ≤ w) |>.getD 4096

/-- pN updated by a step t (R185). -/
def postMod (p l : BitVec 12) (t : Int) : BitVec 12 :=
  if l = 0 then BitVec.ofInt 12 ((p.toNat : Int) + t)
  else
    let w := pow2Above l.toNat
    let off : Int := (p.toNat % w : Nat)
    BitVec.ofInt 12 (((p.toNat - p.toNat % w : Nat) : Int) + (off + t) % (l.toNat : Int))

/-- The update of pN by a step. -/
def modP (x : SliceSt) (n : Nat) (t : Int) : BitVec 12 := postMod (nth x.p n) (nth x.l n) t

/-- A memory operand of format M: its address and the pointer update; none where the mode's OFF or PN is reserved (R188). -/
def memOperand (x : SliceSt) (pn am : Nat) (off : BitVec 12) : Option (BitVec 12 × Option (BitVec 12)) :=
  match am with
  | 0 => some (nth x.p pn + off, none)
  | 1 => if off = 0 then some (nth x.p pn, some (modP x pn 1)) else none
  | 2 => if off = 0 then some (nth x.p pn, some (modP x pn (nth x.m pn).toInt)) else none
  | _ => if pn = 0 then some (off, none) else none

/-- The pointer update of format A: +1, or +mN with AMM (R188). -/
def ammUpdate (x : SliceSt) (pn : Nat) (amm : Bool) : BitVec 12 :=
  modP x pn (if amm then (nth x.m pn).toInt else 1)

/-- A word of the window of a slot without an axis (R197). -/
def noAxis (x : SliceSt) (a : BitVec 12) : Bool :=
  (255 ≤ x.ax0 && 0xFC0 ≤ a.toNat && a.toNat < 0xFD0) || (255 ≤ x.ax1 && 0xFD0 ≤ a.toNat && a.toNat < 0xFE0)

/-- A data-memory word; a word nothing has written reads 0, and so does every word of a slot without an axis (R197). -/
def dmemRead (x : SliceSt) (a : BitVec 12) : BitVec 24 := if noAxis x a then 0 else (assoc x.dmem a.toNat).getD 0

/-- Put a word into a data memory; writing 0 removes the entry. -/
def dmemPut (m : List (Nat × BitVec 24)) (a : Nat) (v : BitVec 24) : List (Nat × BitVec 24) :=
  if v = 0 then assocDel m a else assocPut m a v

/-- Words the program may write: state and constants, and the output words of both windows (R196, R198). -/
def dmemWritable (a : BitVec 12) : Bool :=
  a.toNat < 0xFA0 || (0xFC8 ≤ a.toNat && a.toNat ≤ 0xFCB) || (0xFD8 ≤ a.toNat && a.toNat ≤ 0xFDB)

end Sys2Proof.Machine
end

