-- ==== Sys2Proof/Machine/SliceOps.lean ====
section
/-! DEFINITION. SliceOps.lean: the sequencing of a servo slice (R186 to R195), the axis window (R196 to R198), and the
containment of its faults with the block's spare (R41 to R43, R202 to R207). -/

namespace Sys2Proof.Machine

/-! ### Slices of the state -/

/-- Slice b.s. -/
def sliceSt (s : State) (b sl : Nat) : Option SliceSt := s.mot.slices.find? (fun x => x.b == b && x.s == sl)

/-- Update slice b.s. -/
def onSlice (b sl : Nat) (f : SliceSt → SliceSt) (s : State) : State :=
  { s with mot := { s.mot with slices := s.mot.slices.map (fun x => if x.b = b ∧ x.s = sl then f x else x) } }

/-- The spare of block b. -/
def spareSt (s : State) (b : Nat) : SpareSt := nth s.mot.spares b

/-- Update the spare of block b. -/
def onSpare (b : Nat) (f : SpareSt → SpareSt) (s : State) : State :=
  { s with mot := { s.mot with spares := updAt s.mot.spares b f } }

/-- Axes in the two slots of a slice, with their slot. -/
def slotAxes (x : SliceSt) : List (Nat × Nat) := [(0, x.ax0), (1, x.ax1)].filter (fun p => p.2 < 255)

/-- Groups with an axis on a slice of the state. -/
def sliceGroups (s : State) (x : SliceSt) : Mask :=
  (slotAxes x).foldl (fun m p => m ||| bitOf 16 (axisCfg s p.2).group) 0

/-- 16 × b + s (R488). -/
def sliceDetail (b sl : Nat) : Nat := 16 * b + sl

/-! ### Faults, the spare and the block -/

/-- The spare works in its rotation: it serves no axis, and slice b.8 runs a shadow run or a self-test (R202). -/
def rotating (s : State) (b sl : Nat) : Bool := sl == 8 && (spareSt s b).spst == 0

/-- The spare stops its shadow run at once (R204, R206). -/
def endShadow (b : Nat) (s : State) : State :=
  onSlice b 8 (fun x => if x.run = .retired ∨ x.run = .stopped then x else { x with run := .idle })
    (onSpare b (fun p => { p with comparing := false }) s)

/-- The spare fails (R205): MOT_SPARE_FAIL, class B for the groups of the block. A spare that was to take over at the next E0
leaves its slice's fault without a spare, so that fault fails the block (R43). [DEDUCED, log 137] -/
def failSpare (b : Nat) (s : State) : State :=
  if (spareSt s b).spst = 2 then s
  else
    let due := (spareSt s b).takeNext.isSome
    let s := endShadow b s
    let s := onSpare b (fun x => { x with spst := 2, failed := true, takeNext := none, selftest := none }) s
    let s := addB 1 b (groupsOfBlock s b) 0x0545 (event 0x0545 (sliceDetail b 8) s)
    if due then quarantine .mot b s else s

/-- The axes of a slice get the extrapolated set-point of R41 unless its set-points have been released. [DEDUCED, log 68] -/
def extrapolateSlice (x : SliceSt) (s : State) : State :=
  if x.sawOut && s.mot.servoRel then s
  else
    let s := forAll (slotAxes x) (fun p => onAxis p.2 (fun a => { a with xtrap := true })) s
    mark 2 (sliceGroups s x) s

/-- A fault of an active slice is contained by the spare, whose shadow run ends at once, or fails the block (R41 to R43, R206). -/
def containSlice (b sl : Nat) (s : State) : State :=
  let p := spareSt s b
  if s.image.compat then escalate .mot s
  else if p.spst != 0 then quarantine .mot b s
  else
    match p.takeNext with
    | some k =>
      quarantine .mot b (onSpare b (fun y => { y with takeNext := some (min k sl) }) s)
    | none =>
      addB 1 b (groupsOfBlock s b) 0x05E0
        (onSpare b (fun y => { y with takeNext := some sl, selftest := none }) (endShadow b s))

/-- A servo slice stops on a fault with a cause (R195): SLICE_FAULT, the extrapolated set-point, containment. A divergence has
decided on the set-points already (R204). A rotating spare only fails (R205), and a failed one serves nothing that a fault of it
could hit; a spare in service is the slice of the axes it serves. -/
def motSliceFault (b sl fcause : Nat) (s : State) : State :=
  match sliceSt s b sl with
  | none => s
  | some x =>
    if x.run == .stopped || x.run == .retired then s
    else if sl = 8 && 2 ≤ (spareSt s b).spst then s
    else if rotating s b sl then
      failSpare b (event 0x05E0 (sliceDetail b 8) (onSlice b 8 (fun x => { x with run := .stopped, fcause := fcause, fpc := x.pc }) s))
    else
      let s := onSlice b sl (fun x => { x with run := .stopped, fcause := fcause, fpc := x.pc }) s
      let s := if fcause = 4 then mark 1 (sliceGroups s x) s else s
      let s := noteFault .mot b sl s
      containSlice b sl (if fcause = 6 then s else extrapolateSlice x s)

/-- A slice's program has made a fault. In a shadow run it ends the run: the slice whose program it is makes the same fault, or the
compare is a skip (R202, R203, R206). [DEDUCED, log 137] -/
def programFault (b sl fcause : Nat) (s : State) : State :=
  if rotating s b sl then onSlice b 8 (fun x => { x with run := .idle }) s else motSliceFault b sl fcause s

/-- A corrected single-bit error of slice b.s is counted (R195). -/
def correctedError (b sl : Nat) (s : State) : State := onSlice b sl (fun x => { x with cecnt := satAdd 0xFFFF x.cecnt 1 }) s

/-! ### Events of a slice (R192 to R194) -/

/-- Enter an event: results committed, ST saved, EV set, loops inactive, the program counter at the vector. -/
def enterEvent (kind : Nat) (vector epc : BitVec 11) (x : SliceSt) : SliceSt :=
  let x := commit x
  { x with
    estat := x.st, epc := epc, st := (x.st &&& 0x9FFFFF) ||| 0x800000, pc := vector, jump := none, jumpClr := false,
    inSlot := false, run := .run, evKind := kind, evCause := 0, evPc := epc, inAbort := kind == 3 }

/-- An illegal operation at the slice's program counter (R194): its handler is entered; a second one stops the slice. A tick abort
that waited for the delay slot comes before the handler's first instruction (R192). -/
def illegalAt (b sl cause : Nat) (s : State) : State :=
  match sliceSt s b sl with
  | none => s
  | some x =>
    if x.illegal != 0 && !x.inAbort || rotating s b sl then programFault b sl 1 s
    else
      event 0x0541 (sliceDetail b sl) (onSlice b sl (fun x =>
        let y := { enterEvent 2 0x008 x.pc x with illegal := cause, evCause := cause }
        if x.abortWait then { enterEvent 3 0x00C 0x008 y with abortWait := false } else y) s)

/-- What an instruction leaves behind, besides the program counter. -/
structure Eff where
  imm : List SPend := []
  late : List SPend := []
  ovf : Bool := false
  sat : Bool := false
  nz : Option (Bool × Bool) := none
  store : Option (BitVec 12 × BitVec 24) := none
  ill : Nat := 0
  deriving DecidableEq, Repr, Inhabited

/-- Where control goes after an instruction. -/
inductive Flow where
  | next
  | transfer (target : Option (BitVec 11)) (clears : Bool)
  | goto (pc : BitVec 11)
  deriving DecidableEq, Repr, Inhabited

/-- The loop decision of R191 for loop k at an address: the new count, whether the loop goes on, and the next address. -/
def loopNext (x : SliceSt) (pc : BitVec 11) : List Nat → SliceSt × BitVec 11
  | [] => (x, pc)
  | k :: ks =>
    if stBit x (21 + k) && x.pc = nth x.le k then
      let c := nth x.lc k - 1
      let x := { x with lc := updAt x.lc k (fun _ => c) }
      if c != 0 then (x, nth x.ls k)
      else loopNext (stSet x (21 + k) false) (nth x.le k + 1) ks
    else loopNext x pc ks

/-- A transfer out of an active loop clears it (R190). -/
def clearLoops (x : SliceSt) (t : BitVec 11) : SliceSt :=
  [0, 1].foldl (fun y k =>
    if stBit y (21 + k) && (t.toNat < (nth y.ls k).toNat || (nth y.le k).toNat < t.toNat) then stSet y (21 + k) false else y) x

/-- The instruction stands at the end address of an active loop. -/
def atLoopEnd (x : SliceSt) : Bool := (stBit x 21 && x.pc == nth x.le 0) || (stBit x 22 && x.pc == nth x.le 1)

/-- Complete an instruction: results in flight land, then its own immediate results (R187); flags; the store; the count; the
next address. [DEDUCED, log 113] -/
def complete (e : Eff) (fl : Flow) (x : SliceSt) : SliceSt :=
  let y := landAll (commit x) e.imm
  let y := if e.ovf then stSet y 2 true else y
  let y := if e.sat then stSet y 3 true else y
  let y := match e.nz with | some (n, z) => stSet (stSet y 1 n) 0 z | none => y
  let y := match e.store with
    | some (a, v) => { y with dmem := dmemPut y.dmem a.toNat v, log := y.log ++ [(a.toNat, v)] }
    | none => y
  let y := { y with pend := e.late, icnt := satAdd 0xFFFF y.icnt 1 }
  match fl with
  | .goto pc => { y with pc := pc, inSlot := false, jump := none, jumpClr := false }
  | .transfer t c => { y with pc := x.pc + 1, inSlot := true, jump := t, jumpClr := c }
  | .next =>
    if x.inSlot then
      match x.jump with
      | some t =>
        { (if x.jumpClr then clearLoops y t else y) with pc := t, inSlot := false, jump := none, jumpClr := false }
      | none => { y with pc := x.pc + 1, inSlot := false }
    else
      let r := loopNext { x with pc := x.pc } (x.pc + 1) [1, 0]
      { y with
        pc := r.2, lc := mapIdx (fun k c => if nth r.1.lc k = nth x.lc k then c else nth r.1.lc k) 0 y.lc,
        st := (y.st &&& 0x9FFFFF) ||| (if atLoopEnd x then r.1.st &&& 0x600000 else y.st &&& 0x600000) }

/-- A slice that may execute its next instruction. -/
def canRun (x : SliceSt) : Bool := x.run == .run && x.present

/-- The events after an instruction (R192, R193): a tick abort that waited for the delay slot, with a coinciding trap dropped
and counted; an overflow trap with TE set, a slice fault when EV is 1. `pc` is the address of the instruction, which SEVT keeps for a
trap. [DEDUCED, log 113] -/
def afterInstr (b sl : Nat) (pc : BitVec 11) (te ev ovf : Bool) (s : State) : State :=
  match sliceSt s b sl with
  | none => s
  | some x =>
    let s := if ovf && te then onSlice b sl (fun x => { x with trapcnt := satAdd 0xFFFF x.trapcnt 1 }) s else s
    if x.abortWait && !x.inSlot then
      onSlice b sl (fun x => { enterEvent 3 0x00C x.pc x with abortWait := false }) s
    else if ovf && te then
      (if ev then programFault b sl 2 s
       else eventOnce 0x0540 (sliceDetail b sl) (sliceDetail b sl) (onSlice b sl (fun x =>
          { enterEvent 1 0x004 x.pc x with trapped := true, evPc := pc }) s))
    else s

/-- Execute an instruction of slice b.s: its effect at the present registers, legality first (R190, R194). `ctl` names the
instructions that may stand neither in a delay slot nor at a loop end. [DESIGN CHOICE, log 130] -/
def execSlice (b sl : Nat) (ctl : Bool) (f : SliceSt → Eff) (fl : SliceSt → Flow) (s : State) : State :=
  match sliceSt s b sl with
  | none => s
  | some x =>
    if !canRun x then s
    else if (ctl && (x.inSlot || atLoopEnd x)) || (x.inSlot && atLoopEnd x) then illegalAt b sl 4 s
    else
      let e := f x
      if e.ill != 0 then illegalAt b sl e.ill s
      else afterInstr b sl x.pc (stBit x 20) (stBit x 23) e.ovf (onSlice b sl (complete e (fl x)) s)

/-- An instruction that falls through. -/
def plainInstr (b sl : Nat) (f : SliceSt → Eff) (s : State) : State := execSlice b sl false f (fun _ => .next) s

/-! ### The axis window (R197, R198) -/

/-- A motion quantity with `frac` fraction bits scaled by 2^shift to 24 bits, and whether it saturated (R197). -/
def toWindow (v : Int) (frac shift : Nat) : Res24 := store24 v (frac - shift) true

/-- Data-memory address of word k of the window of slot j (R196). -/
def winAddr (j k : Nat) : Nat := 0xFC0 + 16 * j + k

/-- Bit i of a flags word. -/
def flagBit (i : Nat) (v : Bool) : BitVec 24 := if v then bitOf 24 i else 0

/-- Words +0 to +4 of the window of slot j at WAIT FB (R197): ENA and STOP as the tick's E0 found them. [DEDUCED, log 137] -/
def fbWindow (s : State) (j a : Nat) (x : SliceSt) : SliceSt :=
  let ax := axSt s a
  let g := (axisCfg s a).group
  let err := toWindow (posDiff ax.ref ax.fb) 24 (nth x.esh j)
  let dfb := toWindow (posDiff ax.fb ax.fbPrev) 24 (nth x.vsh j)
  let vr := toWindow ax.vel.toInt 16 (nth x.vsh j)
  let ar := toWindow ax.acc.toInt 16 (nth x.ash j)
  let ena := nth x.ena j
  let fl := flagBit 0 ax.nullfb ||| flagBit 1 (err.sat || dfb.sat || vr.sat || ar.sat) |||
    flagBit 2 (!ena || nth x.firstAx j || x.first) ||| flagBit 3 ena |||
    flagBit 4 (nth x.stop j) ||| flagBit 6 (hasBit s.time.xtrapNow g)
  let m := dmemPut x.dmem (winAddr j 0) err.val
  let m := dmemPut m (winAddr j 1) dfb.val
  let m := dmemPut m (winAddr j 2) vr.val
  let m := dmemPut m (winAddr j 3) ar.val
  { x with dmem := dmemPut m (winAddr j 4) fl }

/-- Word +5 and FFV at WAIT FF (R197). -/
def ffWindow (s : State) (j a : Nat) (x : SliceSt) : SliceSt :=
  let ax := axSt s a
  let old := (assoc x.dmem (winAddr j 4)).getD 0
  let m := dmemPut x.dmem (winAddr j 5) (if ax.ffv then ax.tff else 0)
  { x with dmem := dmemPut m (winAddr j 4) ((old &&& 0xFFFFDF) ||| flagBit 5 ax.ffv) }

/-- The updates of WAIT in a slice: FB once per tick, then FF once per tick. -/
def waitUpdate (s : State) (ff : Bool) (x : SliceSt) : SliceSt :=
  let x := if x.fbDone then x else { (slotAxes x).foldl (fun y p => fbWindow s p.1 p.2 y) x with fbDone := true }
  if ff && !x.ffDone then { (slotAxes x).foldl (fun y p => ffWindow s p.1 p.2 y) x with ffDone := true } else x

/-- The release of feedback or feedforward resumes every slice that waits for it (R200). -/
def resumeSlices (ff : Bool) (s : State) : State :=
  { s with mot := { s.mot with slices := s.mot.slices.map (fun x =>
      if x.run == (if ff then .waitFf else .waitFb) then { waitUpdate s ff x with run := .run } else x) } }

/-- Hand the output words of slot j to its axis (R198): FEXC commands SS1-r and raises MOT_FOLLOW. The outputs of an aborted slice
are not used (R201). -/
def handSlot (x : SliceSt) (j a : Nat) (s : State) : State :=
  let w (k : Nat) : BitVec 24 := (assoc x.dmem (winAddr j k)).getD 0
  let s := onAxis a (fun y => { y with
    dsp := w 8, vffo := w 9, tffo := w 10, oflags := w 11, handed := true }) s
  if (w 11).getLsbD 2 && !(axSt s a).sliceBad then demandStop (bitOf 16 (axisCfg s a).group) 14 (event 0x0546 a s) else s

/-! ### The shadow compare (R203, R204) -/

/-- The spare of block b compares this slice in this tick. -/
def compared (s : State) (b sl : Nat) : Bool :=
  let p := spareSt s b
  p.spst = 0 && p.comparing && p.rot = sl

/-- A skipped compare (R203): the eighth in a row fails the spare. -/
def skipCompare (b : Nat) (s : State) : State :=
  let s := event 0x0544 (sliceDetail b (spareSt s b).rot) (onSpare b (fun p => { p with
    skips := p.skips + 1, skipcnt := satAdd 255 p.skipcnt 1 }) (endShadow b s))
  if 8 ≤ (spareSt s b).skips then failSpare b s else s

/-- A divergence (R204): the spare stops and tests itself. At OUT the slice's set-points are extrapolated; in compatibility mode
it is a slice fault of the slice. -/
def divergence (b : Nat) (atEnd : Bool) (s : State) : State :=
  let sl := (spareSt s b).rot
  let s := event 0x0543 (sliceDetail b sl) (onSpare b (fun p => { p with
    divcnt := satAdd 255 p.divcnt 1, skips := 0, selftest := some sl }) (endShadow b s))
  let s := onSlice b 8 (fun x => { x with run := .selftest }) s
  let s := if atEnd then s else match sliceSt s b sl with
    | some x =>
      mark 2 (sliceGroups s x) (forAll (slotAxes x) (fun p => onAxis p.2 (fun a => { a with xtrap := true })) s)
    | none => s
  if s.image.compat then motSliceFault b sl 6 s else s

/-- The output words +8 to +11 of both slots (R198, R203). -/
def outWords (x : SliceSt) : List (BitVec 24) :=
  [0, 1].flatMap (fun j => [8, 9, 10, 11].map (fun k => (assoc x.dmem (winAddr j k)).getD 0))

/-- What the compare at END looks at (R203): the CRC-32C over the address and value of every write, ICNT, and the sticky flags. [DESIGN CHOICE, log 138] -/
def endDigest (x : SliceSt) : Word × Nat × Bool × Bool :=
  (crc32c (x.log.flatMap (fun p => leBytes 2 p.1 ++ leBytes 3 p.2.toNat)), x.icnt, stBit x 2, stBit x 3)

/-- The compare at OUT, once the slice and its shadow run have both executed it (R203). [DEDUCED, log 115] -/
def compareOut (b sl : Nat) (s : State) : State :=
  match sliceSt s b (spareSt s b).rot, sliceSt s b 8 with
  | some x, some y =>
    if compared s b (spareSt s b).rot && (sl == 8 || sl == x.s) && x.sawOut && y.sawOut && x.outW != y.outW then
      divergence b false s
    else s
  | _, _ => s

/-- The compare at END, once the slice and its shadow run have both executed it (R203): an equal one is complete. [DEDUCED, log 115] -/
def compareEnd (b sl : Nat) (s : State) : State :=
  match sliceSt s b (spareSt s b).rot, sliceSt s b 8 with
  | some x, some y =>
    if compared s b (spareSt s b).rot && (sl == 8 || sl == x.s) && x.sawEnd && y.sawEnd then
      if endDigest x = endDigest y then
        onSpare b (fun p => { p with cmpcnt := satAdd 0xFFFFFFFF p.cmpcnt 1, skips := 0, comparing := false }) s
      else divergence b true s
    else s
  | _, _ => s

/-- A spare that has not reached OUT by the servo deadline skips its compare (R203). -/
def skipLate (s : State) : State :=
  forAll (List.range (motBlocks s.fuse.variant)) (fun b t =>
    match sliceSt t b 8 with
    | some y => if compared t b (spareSt t b).rot && !y.sawOut then skipCompare b t else t
    | none => t) s

/-- SPARE_SELFTEST_DONE (R204): passing, the slice is the faulty party and the spare takes over; failing, the spare fails. -/
def spareSelftestDone (b : Nat) (ok : Bool) (s : State) : State :=
  match (spareSt s b).selftest with
  | none => s
  | some sl =>
    let s := endShadow b (onSpare b (fun p => { p with selftest := none }) s)
    if ok then
      match sliceSt s b sl with
      | some x => markNext 2 (sliceGroups s x) (motSliceFault b sl 6 s)
      | none => s
    else failSpare b s

/-- SPARE_FULL_SELFTEST_DONE (R202, R205). -/
def spareFullSelftestDone (b : Nat) (ok : Bool) (s : State) : State :=
  if (spareSt s b).spst = 0 && (spareSt s b).rot = 8 then (if ok then endShadow b s else failSpare b s) else s

/-! ### Tick edge and tick abort -/

/-- A failed slice is retired and the spare serves its axes from the shadow (R42, R207). -/
def spareTakeover (b : Nat) (s : State) : State :=
  match (spareSt s b).takeNext with
  | none => s
  | some sl =>
    match sliceSt s b sl with
    | none => s
    | some x =>
      let m := nth (spareSt s b).shadow sl
      let s := onSpare b (fun p => { p with spst := 1, spfor := sl, takeNext := none }) s
      let s := onSlice b sl (fun y => { y with run := .retired }) s
      let s := onRegion .mot (fun r => { r with retired := r.retired ++ [sliceDetail b sl] }) s
      let s := onSlice b 8 (fun y => { y with
        ena := x.ena, sawEnd := false, aborted := false,
        ax0 := x.ax0, ax1 := x.ax1, esh := x.esh, vsh := x.vsh, ash := x.ash, osh := x.osh, dmem := m, first := true,
        run := .idle, reload := x.reload }) s
      event 0x05E2 (sliceDetail b 8) (event 0x05E1 (sliceDetail b sl) s)

/-- The slice that runs: an active one in service, or a spare that serves another. -/
def inService (s : State) (x : SliceSt) : Bool :=
  x.present && x.run != .stopped && x.run != .retired && (x.s < 8 || (spareSt s x.b).spst = 1)

/-- The image's data memory of a slice (R196, R201). -/
def imageDmem (s : State) (b sl : Nat) : List (Nat × BitVec 24) :=
  match s.image.slices.find? (fun c => c.b == b && c.s == sl) with
  | some c => c.dmem.foldl (fun m p => if p.1 < 0xFB0 then dmemPut m p.1 p.2 else m) []
  | none => []

/-- The tick words of a data memory at E0 (R196). -/
def tickWords (s : State) (m : List (Nat × BitVec 24)) : List (Nat × BitVec 24) :=
  dmemPut (dmemPut m 0xFB0 (BitVec.ofNat 24 s.time.tickno)) 0xFB1 (BitVec.ofNat 24 (s.time.tickno / 2 ^ 24))

/-- The group of slot axis a is enabled for motion. -/
def slotEna (s : State) (a : Nat) : Bool := a < 255 && (grpSt s (axisCfg s a).group).state.enabled

/-- The group of slot axis a is stopping or stopped. -/
def slotStop (s : State) (a : Nat) : Bool :=
  a < 255 && (match (safG s (axisCfg s a).group).state with | .ss1r => true | .sto => true | .cloche => true | _ => false)

/-- Start a slice's program at E0 of a tick (R184, R196): registers 0, the tick words, the facts of the tick cleared. FIRST holds in
the first tick with ENA 1 after a tick with ENA 0 (R197). [DEDUCED, log 137] -/
def startSlice (s : State) (x : SliceSt) : SliceSt :=
  let ena := [slotEna s x.ax0, slotEna s x.ax1]
  let b : SliceSt := {}
  { b with
    b := x.b, s := x.s, present := x.present, ax0 := x.ax0, ax1 := x.ax1, esh := x.esh, vsh := x.vsh, ash := x.ash,
    osh := x.osh, run := .run, dmem := tickWords s x.dmem, sat := x.sat, v := x.v, stTrap := x.stTrap, stAbort := x.stAbort,
    icntLast := x.icntLast, evKind := x.evKind, evCause := x.evCause, evPc := x.evPc, fcause := x.fcause, fpc := x.fpc,
    cecnt := x.cecnt, trapcnt := x.trapcnt, reload := x.reload, first := x.first && !x.sawEnd,
    ena := ena, stop := [slotStop s x.ax0, slotStop s x.ax1],
    firstAx := [!(nth ena 0 && nth x.ena 0), !(nth ena 1 && nth x.ena 1)] }

/-- The rotating spare at E0 (R202): the shadow run of slice b.r, started as that slice is but from the block shadow, or the full
self-test. -/
def startSpare (s : State) (x : SliceSt) : SliceSt :=
  let p := spareSt s x.b
  if !(x.present && rotating s x.b x.s) || x.run == .stopped then x
  else if p.comparing then
    match sliceSt s x.b p.rot with
    | some y => { y with
        s := 8, dmem := tickWords s (nth p.shadow p.rot), sat := x.sat, v := x.v, stTrap := x.stTrap, stAbort := x.stAbort,
        icntLast := x.icntLast, evKind := x.evKind, evCause := x.evCause, evPc := x.evPc, fcause := x.fcause, fpc := x.fpc,
        cecnt := x.cecnt, trapcnt := x.trapcnt, reload := false }
    | none => x
  else { x with run := if p.rot = 8 then .selftest else .idle }

/-- The shadow of every slice whose servo phase completed (R42, R201, R204). -/
def shadowUpdate (b : Nat) (s : State) : State :=
  let upd (sl : Nat) (m : List (Nat × BitVec 24)) : List (Nat × BitVec 24) :=
    match sliceSt s b sl with
    | some x => if x.sawEnd && !x.aborted && x.run == .idle && (spareSt s b).selftest != some sl then x.dmem else m
    | none => m
  onSpare b (fun p => { p with shadow := mapIdx upd 0 p.shadow }) s

/-- Slice block b at the tick edge (R42, R202): a compare that never came to END is a skip; the shadow, the takeover, the rotation. -/
def blockEdge (b : Nat) (s : State) : State :=
  let s := if compared s b (spareSt s b).rot then skipCompare b s else s
  let s := spareTakeover b (shadowUpdate b s)
  let r := s.time.tickno % 9
  let runs := match sliceSt s b r with | some x => inService s x | none => false
  onSpare b (fun p =>
    if p.spst = 0 then { p with rot := r, comparing := r < 8 && runs && p.selftest.isNone } else { p with comparing := false }) s

/-- An aborted tick (R201): from this E0 the slice's axes take the stop ramp without the control law. -/
def abortEdge (x : SliceSt) (s : State) : State :=
  if x.aborted then
    onSlice x.b x.s (fun y => { y with reload := true })
      (forAll (slotAxes x) (fun p => onAxis p.2 (fun a => { a with sliceBad := true })) s)
  else s

/-- Every slice at the tick edge: the programs of the tick start, and each spare's shadow run or self-test after them. -/
def slicesEdge (s : State) : State :=
  let s := forAll s.mot.slices abortEdge s
  let s := forAll (List.range (motBlocks s.fuse.variant)) blockEdge s
  let s := { s with mot := { s.mot with
      fbRel := false, ffRel := false, servoRel := false,
      slices := s.mot.slices.map (fun x => if inService s x then startSlice s x else x) } }
  { s with mot := { s.mot with slices := s.mot.slices.map (startSpare s) } }

/-- A memory with words 0x000 to 0xFAF of the image and its own words above them (R201). -/
def reloaded (img m : List (Nat × BitVec 24)) : List (Nat × BitVec 24) := img ++ m.filter (fun p => 0xFB0 ≤ p.1)

/-- A group leaves Cloche: the first reloads the words of an aborted slice and of its shadow, and the group's axes use it again
(R201). [DEDUCED, log 137] -/
def leaveClocheSlices (g : Nat) (s : State) : State :=
  forAll s.mot.slices (fun x s =>
    let mine := (slotAxes x).filter (fun p => (axisCfg s p.2).group == g)
    if mine.isEmpty || rotating s x.b x.s then s
    else
      let sl := if x.s = 8 then (spareSt s x.b).spfor else x.s
      let s := if x.reload then
          onSpare x.b (fun p => { p with shadow := updAt p.shadow sl (reloaded (imageDmem s x.b sl)) })
            (onSlice x.b x.s (fun y => { y with reload := false, dmem := reloaded (imageDmem s x.b sl) y.dmem }) s)
        else s
      forAll mine (fun p => onAxis p.2 (fun a => { a with sliceBad := false })) s) s

/-- TICK_ABORT (R193, R201): a slice not at END by the END limit; taken after a delay slot, even with EV set. A shadow run that has
not reached END ends, and its compare is a skip (R203). -/
def tickAbort (b sl : Nat) (s : State) : State :=
  match sliceSt s b sl with
  | none => s
  | some x =>
    if x.sawEnd || x.aborted || !(x.run == .run || x.run == .waitFb || x.run == .waitFf) then s
    else if rotating s b sl then (if compared s b (spareSt s b).rot then skipCompare b s else endShadow b s)
    else
      let m := sliceGroups s x
      let s := onSlice b sl (fun x => { x with aborted := true }) s
      let s := if compared s b sl then skipCompare b s else s
      let s := onTime (fun t => { t with ss1Next := t.ss1Next ||| m }) (markNext 0 m (event 0x0542 (sliceDetail b sl) s))
      if x.inSlot then onSlice b sl (fun x => { x with abortWait := true }) s
      else onSlice b sl (fun x => enterEvent 3 0x00C x.pc x) s

/-- TICK_ABORT_OVERRUN (R201): the handler not at END by the period − 0.25 µs. [DEDUCED, log 113] -/
def tickAbortOverrun (b sl : Nat) (s : State) : State :=
  match sliceSt s b sl with
  | some x => if x.aborted && !x.sawEnd then motSliceFault b sl 3 s else s
  | none => s

end Sys2Proof.Machine
end

