-- ==== Sys2Proof/Machine/Slice.lean ====
section
/-! DEFINITION. Slice.lean: the instructions of the servo slice (R188 to R201), one meaning each. Slice b.s executes the
instruction at its program counter; a slice that waits, idles or has stopped executes none. -/

namespace Sys2Proof.Machine

/-- A 24-bit value in a result in flight. -/
def toD (rd : Nat) (v : BitVec 24) : SPend := { dest := .d rd, val := v.setWidth 56 }

/-- An accumulator result. -/
def toA (ax : Nat) (v : BitVec 56) : SPend := { dest := .a ax, val := v }

/-- A control-register result. -/
def toCr (cr : Nat) (v : BitVec 24) : SPend := { dest := .cr cr, val := v.setWidth 56 }

/-- A pointer update. -/
def toP (pn : Nat) (v : BitVec 12) : SPend := { dest := .cr pn, val := v.setWidth 56 }

/-- The effect of a 24-bit result with its flags. -/
def effRes (rd : Nat) (r : Res24) : Eff := { imm := [toD rd r.val], ovf := r.ovf, sat := r.sat }

/-- The effect of a plain 24-bit value. -/
def effVal (rd : Nat) (v : BitVec 24) : Eff := { imm := [toD rd v] }

/-- The effect of an accumulator result: visible from i+2 (R186). -/
def effAcc (ax : Nat) (r : Res56) : Eff := { late := [toA ax r.val], ovf := r.ovf }

/-- A store of a value at a pointer operand: a word the program may not write is illegal with CAUSE 3 (R194, R196). -/
def effStore (a : BitVec 12) (v : BitVec 24) (e : Eff) : Eff :=
  if dmemWritable a then { e with store := some (a, v) } else { ill := 3 }

/-! ### Moves, memory and control registers -/

/-- NOP. -/
def execSNop (b s : Nat) (st : State) : Out := run (plainInstr b s (fun _ => {})) st

/-- LDI: RD ← SIMM23, sign-extended. -/
def execSLdi (b s : Nat) (rd : Fin 8) (imm : BitVec 23) (st : State) : Out :=
  run (plainInstr b s (fun _ => effVal rd (imm.signExtend 24))) st

/-- MOV: RD ← RS. -/
def execSMov (b s : Nat) (rd rs : Fin 8) (st : State) : Out := run (plainInstr b s (fun x => effVal rd (dReg x rs))) st

/-- The effect of LD: the word is visible from i+2, the pointer update from i+1 (R186). -/
def effLd (rd : Nat) (pn am : Nat) (off : BitVec 12) (x : SliceSt) : Eff :=
  match memOperand x pn am off with
  | none => { ill := 2 }
  | some (a, u) => { imm := (match u with | some p => [toP pn p] | none => []), late := [toD rd (dmemRead x a)] }

/-- LD: RD ← memory. -/
def execSLd (b s : Nat) (rd : Fin 8) (pn am : Fin 4) (off : BitVec 12) (st : State) : Out :=
  run (plainInstr b s (effLd rd pn am off)) st

/-- The effect of ST. -/
def effSt (rd : Nat) (pn am : Nat) (off : BitVec 12) (x : SliceSt) : Eff :=
  match memOperand x pn am off with
  | none => { ill := 2 }
  | some (a, u) => effStore a (dReg x rd) { imm := (match u with | some p => [toP pn p] | none => []) }

/-- ST: memory ← RD. -/
def execSSt (b s : Nat) (rd : Fin 8) (pn am : Fin 4) (off : BitVec 12) (st : State) : Out :=
  run (plainInstr b s (effSt rd pn am off)) st

/-- MTC: CR ← RD, visible from i+2; a reserved CR is illegal. -/
def execSMtc (b s : Nat) (rd : Fin 8) (cr : Fin 32) (st : State) : Out :=
  run (plainInstr b s (fun x => if crOk cr then { late := [toCr cr (dReg x rd)] } else { ill := 2 })) st

/-- MFC: RD ← CR. -/
def execSMfc (b s : Nat) (rd : Fin 8) (cr : Fin 32) (st : State) : Out :=
  run (plainInstr b s (fun x => if crOk cr then effVal rd (crRead x cr) else { ill := 2 })) st

/-- LDC: CR ← IMM16, visible from i+2. -/
def execSLdc (b s : Nat) (cr : Fin 32) (imm : BitVec 16) (st : State) : Out :=
  run (plainInstr b s (fun _ => if crOk cr then { late := [toCr cr (imm.setWidth 24)] } else { ill := 2 })) st

/-- MODP: pN updated by SIMM12 under R185, visible from i+2. -/
def execSModp (b s : Nat) (pn : Fin 4) (imm : BitVec 12) (st : State) : Out :=
  run (plainInstr b s (fun x => { late := [toP pn (modP x pn imm.toInt)] })) st

/-! ### The tick's instants -/

/-- WAIT: before the release the slice waits; after it the windows are updated at once (R197, R200). -/
def waitInstr (b sl : Nat) (ff : Bool) (s : State) : State :=
  let s1 := execSlice b sl true (fun _ => {}) (fun _ => .next) s
  match sliceSt s b sl with
  | some x =>
    if canRun x && !(x.inSlot || atLoopEnd x) then
      if (if ff then s1.mot.ffRel else s1.mot.fbRel) then onSlice b sl (waitUpdate s1 ff) s1
      else onSlice b sl (fun y => { y with run := if ff then .waitFf else .waitFb }) s1
    else s1
  | none => s1

/-- WAIT with W = 0. -/
def execSWaitFb (b s : Nat) (st : State) : Out := run (waitInstr b s false) st

/-- WAIT with W = 1. -/
def execSWaitFf (b s : Nat) (st : State) : Out := run (waitInstr b s true) st

/-- OUT: at most once per tick; outputs handed over before the servo deadline are used (R198, R200), then the compare. A shadow run
hands nothing over. -/
def outInstr (b sl : Nat) (s : State) : State :=
  match sliceSt s b sl with
  | none => s
  | some x =>
    let s1 := plainInstr b sl (fun x => if x.sawOut then { ill := 6 } else {}) s
    if !canRun x || x.sawOut || (x.inSlot && atLoopEnd x) then s1
    else
      let s2 := onSlice b sl (fun y => { y with sawOut := true, outW := outWords y }) s1
      let s3 := if s2.mot.servoRel || rotating s b sl then s2 else (slotAxes x).foldl (fun t p => handSlot x p.1 p.2 t) s2
      compareOut b sl s3

/-- OUT. -/
def execSOut (b s : Nat) (st : State) : Out := run (outInstr b s) st

/-- END: the program of the tick ends; after an illegal operation the slice stops with its fault (R194); the facts of the
completed tick are shown in SSTAT; then the compare. -/
def endInstr (b sl : Nat) (s : State) : State :=
  match sliceSt s b sl with
  | none => s
  | some x =>
    let s1 := execSlice b sl true (fun _ => {}) (fun _ => .next) s
    if !canRun x || x.inSlot || atLoopEnd x then s1
    else if x.illegal != 0 then programFault b sl 1 s1
    else
      let s2 := onSlice b sl (fun y =>
        let y := commit y
        { y with
          sawEnd := true, run := .idle, sat := stBit y 3, v := stBit y 2, stTrap := y.trapped, stAbort := y.aborted,
          icntLast := y.icnt }) s1
      if x.aborted then s2 else compareEnd b sl s2

/-- END. -/
def execSEnd (b s : Nat) (st : State) : Out := run (endInstr b s) st

/-- RTE: ST from ESTAT, on at EPC; with EV 0 illegal, in an illegal-operation handler the slice stops (R192, R194). [DEDUCED, log 113] -/
def rteInstr (b sl : Nat) (s : State) : State :=
  match sliceSt s b sl with
  | none => s
  | some x =>
    if !canRun x then s
    else if x.inSlot || atLoopEnd x then illegalAt b sl 4 s
    else if !stBit x 23 then illegalAt b sl 7 s
    else if x.illegal != 0 && !x.inAbort then programFault b sl 7 s
    else onSlice b sl (fun x =>
      let y := commit (complete {} (.goto x.epc) x)
      { y with st := x.estat, inAbort := false }) s

/-- RTE. -/
def execSRte (b s : Nat) (st : State) : Out := run (rteInstr b s) st

/-! ### Arithmetic and logic -/

/-- ADD. -/
def execSAdd (b s : Nat) (rd rs rt : Fin 8) (st : State) : Out :=
  run (plainInstr b s (fun x => effRes rd (addRes (dReg x rs) (dReg x rt)))) st

/-- SUB. -/
def execSSub (b s : Nat) (rd rs rt : Fin 8) (st : State) : Out :=
  run (plainInstr b s (fun x => effRes rd (subRes (dReg x rs) (dReg x rt)))) st

/-- ADDS: saturated. -/
def execSAdds (b s : Nat) (rd rs rt : Fin 8) (st : State) : Out :=
  run (plainInstr b s (fun x => effRes rd (satRes ((dReg x rs).toInt + (dReg x rt).toInt)))) st

/-- SUBS: saturated. -/
def execSSubs (b s : Nat) (rd rs rt : Fin 8) (st : State) : Out :=
  run (plainInstr b s (fun x => effRes rd (satRes ((dReg x rs).toInt - (dReg x rt).toInt)))) st

/-- ADDI. -/
def execSAddi (b s : Nat) (rd rs : Fin 8) (imm : BitVec 14) (st : State) : Out :=
  run (plainInstr b s (fun x => effRes rd (wrapRes ((dReg x rs).toInt + imm.toInt)))) st

/-- NEG. -/
def execSNeg (b s : Nat) (rd rs : Fin 8) (st : State) : Out :=
  run (plainInstr b s (fun x => effRes rd (satRes (-(dReg x rs).toInt)))) st

/-- ABS. -/
def execSAbs (b s : Nat) (rd rs : Fin 8) (st : State) : Out :=
  run (plainInstr b s (fun x => effRes rd (satRes ((dReg x rs).toInt.natAbs : Int)))) st

/-- AND. -/
def execSAnd (b s : Nat) (rd rs rt : Fin 8) (st : State) : Out :=
  run (plainInstr b s (fun x => effVal rd (dReg x rs &&& dReg x rt))) st

/-- OR. -/
def execSOr (b s : Nat) (rd rs rt : Fin 8) (st : State) : Out :=
  run (plainInstr b s (fun x => effVal rd (dReg x rs ||| dReg x rt))) st

/-- XOR. -/
def execSXor (b s : Nat) (rd rs rt : Fin 8) (st : State) : Out :=
  run (plainInstr b s (fun x => effVal rd (dReg x rs ^^^ dReg x rt))) st

/-- SHL. -/
def execSShl (b s : Nat) (rd rs : Fin 8) (sh : Fin 32) (st : State) : Out :=
  run (plainInstr b s (fun x => effRes rd (shlRes (dReg x rs) sh))) st

/-- SHRA. -/
def execSShra (b s : Nat) (rd rs : Fin 8) (sh : Fin 32) (st : State) : Out :=
  run (plainInstr b s (fun x => effVal rd (shraRes (dReg x rs) sh))) st

/-- SHRL. -/
def execSShrl (b s : Nat) (rd rs : Fin 8) (sh : Fin 32) (st : State) : Out :=
  run (plainInstr b s (fun x => effVal rd (shrlRes (dReg x rs) sh))) st

/-- MIN. -/
def execSMin (b s : Nat) (rd rs rt : Fin 8) (st : State) : Out :=
  run (plainInstr b s (fun x => effVal rd (if (dReg x rs).toInt ≤ (dReg x rt).toInt then dReg x rs else dReg x rt))) st

/-- MAX. -/
def execSMax (b s : Nat) (rd rs rt : Fin 8) (st : State) : Out :=
  run (plainInstr b s (fun x => effVal rd (if (dReg x rt).toInt ≤ (dReg x rs).toInt then dReg x rs else dReg x rt))) st

/-- CMP: N, Z from the exact difference. -/
def execSCmp (b s : Nat) (rs rt : Fin 8) (st : State) : Out :=
  run (plainInstr b s (fun x => { nz := some (nzOf ((dReg x rs).toInt - (dReg x rt).toInt)) })) st

/-- CMPI. -/
def execSCmpi (b s : Nat) (rs : Fin 8) (imm : BitVec 14) (st : State) : Out :=
  run (plainInstr b s (fun x => { nz := some (nzOf ((dReg x rs).toInt - imm.toInt)) })) st

/-- An instruction the VRL-4032 lacked is illegal with CAUSE 8 in compatibility mode (R209). -/
def notInCompat (st : State) (f : SliceSt → Eff) : SliceSt → Eff := if st.image.compat then fun _ => { ill := 8 } else f

/-- CLIP. -/
def execSClip (b s : Nat) (rd rs rt : Fin 8) (st : State) : Out :=
  run (plainInstr b s (notInCompat st (fun x => effRes rd (clipRes (dReg x rs) (dReg x rt))))) st

/-! ### The accumulators -/

/-- MPY: aX ← RS × RT. -/
def execSMpy (b s : Nat) (ax : Fin 2) (rs rt : Fin 8) (st : State) : Out :=
  run (plainInstr b s (fun x => effAcc ax (wrapAcc (prod (dReg x rs) (dReg x rt))))) st

/-- Accumulate a value onto aX, also onto a result in flight (R181, R186). -/
def accum (x : SliceSt) (ax : Nat) (v : Int) : Res56 := wrapAcc ((aFwd x ax).toInt + v)

/-- MAC: aX ← aX + RS × RT. -/
def execSMac (b s : Nat) (ax : Fin 2) (rs rt : Fin 8) (st : State) : Out :=
  run (plainInstr b s (fun x => effAcc ax (accum x ax (prod (dReg x rs) (dReg x rt))))) st

/-- MSU: aX ← aX − RS × RT. -/
def execSMsu (b s : Nat) (ax : Fin 2) (rs rt : Fin 8) (st : State) : Out :=
  run (plainInstr b s (fun x => effAcc ax (accum x ax (-(prod (dReg x rs) (dReg x rt)))))) st

/-- The effect of MACL and MSUL: the accumulate, the load of RL from pN, and the pointer update (R188, R189). -/
def effLoadAcc (ax pn rl : Nat) (amm : Bool) (v : Int) (x : SliceSt) : Eff :=
  let r := accum x ax v
  { imm := [toP pn (ammUpdate x pn amm)], late := [toA ax r.val, toD rl (dmemRead x (nth x.p pn))], ovf := r.ovf }

/-- MACL. -/
def execSMacl (b s : Nat) (ax : Fin 2) (rs rt rl : Fin 8) (pn : Fin 4) (amm : Bool) (st : State) : Out :=
  run (plainInstr b s (notInCompat st (fun x => effLoadAcc ax pn rl amm (prod (dReg x rs) (dReg x rt)) x))) st

/-- MSUL. -/
def execSMsul (b s : Nat) (ax : Fin 2) (rs rt rl : Fin 8) (pn : Fin 4) (amm : Bool) (st : State) : Out :=
  run (plainInstr b s (notInCompat st (fun x => effLoadAcc ax pn rl amm (-(prod (dReg x rs) (dReg x rt))) x))) st

/-- LDA: aX ← RS shifted left SH, sign-extended. -/
def execSLda (b s : Nat) (ax : Fin 2) (rs : Fin 8) (sh : Fin 32) (st : State) : Out :=
  run (plainInstr b s (fun x => effAcc ax (wrapAcc ((dReg x rs).toInt * 2 ^ sh.val)))) st

/-- ADDA: aX ← aX + (RS shifted left SH). -/
def execSAdda (b s : Nat) (ax : Fin 2) (rs : Fin 8) (sh : Fin 32) (st : State) : Out :=
  run (plainInstr b s (fun x => effAcc ax (accum x ax ((dReg x rs).toInt * 2 ^ sh.val)))) st

/-- MOVR: RD ← store24(aX, SH, S). -/
def execSMovr (b s : Nat) (ax : Fin 2) (rd : Fin 8) (sh : Fin 32) (sat : Bool) (st : State) : Out :=
  run (plainInstr b s (fun x => effRes rd (store24 (aReg x ax).toInt sh sat))) st

/-- The effect of STR. -/
def effStr (ax pn : Nat) (amm : Bool) (sh : Nat) (sat : Bool) (x : SliceSt) : Eff :=
  let r := store24 (aReg x ax).toInt sh sat
  effStore (nth x.p pn) r.val { imm := [toP pn (ammUpdate x pn amm)], ovf := r.ovf, sat := r.sat }

/-- STR: memory at pN ← store24(aX, SH, S), then pN post-modified. -/
def execSStr (b s : Nat) (ax : Fin 2) (pn : Fin 4) (amm : Bool) (sh : Fin 32) (sat : Bool) (st : State) : Out :=
  run (plainInstr b s (effStr ax pn amm sh sat)) st

/-- SHA: aX shifted. -/
def execSSha (b s : Nat) (ax : Fin 2) (sh : Fin 32) (right : Bool) (st : State) : Out :=
  run (plainInstr b s (fun x => effAcc ax (shaRes (aReg x ax) sh right))) st

/-- CLRA: aX ← 0. -/
def execSClra (b s : Nat) (ax : Fin 2) (st : State) : Out := run (plainInstr b s (fun _ => effAcc ax {})) st

/-- MFA: RD ← part of aX; PART 3 is illegal. -/
def execSMfa (b s : Nat) (ax : Fin 2) (rd : Fin 8) (part : Fin 4) (st : State) : Out :=
  run (plainInstr b s (fun x => if part = 3 then { ill := 2 } else effVal rd (accPart (aReg x ax) part))) st

/-- MTA: part of aX ← RD, the other bits unchanged. [DEDUCED, log 113] -/
def execSMta (b s : Nat) (ax : Fin 2) (rd : Fin 8) (part : Fin 4) (st : State) : Out :=
  run (plainInstr b s (fun x =>
    if part = 3 then { ill := 2 } else effAcc ax { val := withPart (aFwd x ax) part (dReg x rd) })) st

/-! ### Transfers and loops -/

/-- B: if COND holds, jump after the delay slot (R189, R190). -/
def execSB (b s : Nat) (cond : Fin 16) (target : BitVec 11) (st : State) : Out :=
  run (execSlice b s true (fun _ => if 7 ≤ cond.val then { ill := 2 } else {})
    (fun x => .transfer (if condHolds cond (stBit x 1) (stBit x 0) then some target else none) true)) st

/-- JMP. -/
def execSJmp (b s : Nat) (target : BitVec 11) (st : State) : Out :=
  run (execSlice b s true (fun _ => {}) (fun _ => .transfer (some target) true)) st

/-- CALL: LR ← own address + 2, visible from i+2. -/
def execSCall (b s : Nat) (target : BitVec 11) (st : State) : Out :=
  run (execSlice b s true (fun x => { late := [toCr 21 ((x.pc + 2).setWidth 24)] }) (fun _ => .transfer (some target) false)) st

/-- RET: jump to LR. -/
def execSRet (b s : Nat) (st : State) : Out :=
  run (execSlice b s true (fun _ => {}) (fun x => .transfer (some x.lr) false)) st

/-- A LOOP instruction is illegal with L_k set, with END below its own address + 1, or where loop 1 would end beyond an active
loop 0 (R191). -/
def loopBad (x : SliceSt) (k : Nat) (endA : BitVec 11) : Bool :=
  stBit x (21 + k) || endA.toNat < x.pc.toNat + 1 || (k = 1 && stBit x 21 && (nth x.le 0).toNat < endA.toNat)

/-- Start loop k (R191): a count of 0 skips the body. [DEDUCED, log 113] -/
def loopInstr (b sl k : Nat) (endA : BitVec 11) (count : SliceSt → BitVec 14) (s : State) : State :=
  match sliceSt s b sl with
  | none => s
  | some x =>
    let c := count x
    let s1 := execSlice b sl true (fun x => if loopBad x k endA then { ill := 5 } else {})
      (fun x => .goto (if c = 0 then endA + 1 else x.pc + 1)) s
    if !canRun x || x.inSlot || atLoopEnd x || loopBad x k endA then s1
    else onSlice b sl (fun y =>
      let y := { y with
        ls := updAt y.ls k (fun _ => x.pc + 1), le := updAt y.le k (fun _ => endA), lc := updAt y.lc k (fun _ => c) }
      stSet y (21 + k) (c != 0)) s1

/-- LOOPI. -/
def execSLoopi (b s : Nat) (k : Fin 2) (endA : BitVec 11) (count : BitVec 14) (st : State) : Out :=
  run (loopInstr b s k endA (fun _ => count)) st

/-- LOOPR: the count is RS[13:0]. -/
def execSLoopr (b s : Nat) (k : Fin 2) (endA : BitVec 11) (rs : Fin 8) (st : State) : Out :=
  run (loopInstr b s k endA (fun x => (dReg x rs).setWidth 14)) st

/-! ### Events -/

/-- ILLEGAL_OPERATION (R188, R189, R194): the word at the slice's program counter spells no instruction, and the cause is the
decoder's. A word that spells one is no illegal operation of itself: its own meaning says where it is illegal. [DESIGN CHOICE, log 130] -/
def illegalWord (b sl : Nat) (w : Word) (s : State) : State :=
  match sliceSt s b sl with
  | some x => if canRun x then (match sliceDecode b sl w with | .error c => illegalAt b sl c s | .ok _ => s) else s
  | none => s

/-- ILLEGAL_OPERATION. -/
def execIllegalOperation (b s : Nat) (w : Word) (st : State) : Out := run (illegalWord b s w) st

/-- TICK_ABORT. -/
def execTickAbort (b s : Nat) (st : State) : Out := run (tickAbort b s) st

/-- TICK_ABORT_OVERRUN. -/
def execTickAbortOverrun (b s : Nat) (st : State) : Out := run (tickAbortOverrun b s) st

/-- SPARE_SELFTEST_DONE. -/
def execSpareSelftestDone (b : Nat) (ok : Bool) (s : State) : Out := run (spareSelftestDone b ok) s

/-- SPARE_FULL_SELFTEST_DONE. -/
def execSpareFullSelftestDone (b : Nat) (ok : Bool) (s : State) : Out := run (spareFullSelftestDone b ok) s

end Sys2Proof.Machine
end

