-- ==== Sys2Proof/Machine/Angle.lean ====
section
/-! DEFINITION. Angle.lean: square roots and angles in fixed point: atan2 of a sine/cosine channel (R176) and the arc sine of a load
angle (R174). Angles are in 2^-96 radian. -/

namespace Sys2Proof.Machine

/-- One bit of a square root. -/
def sqrtBit (n r b : Nat) : Nat := if (r + 2 ^ b) * (r + 2 ^ b) ≤ n then r + 2 ^ b else r

/-- The integer square root of a number below 2^256. -/
def isqrt (n : Nat) : Nat := ((List.range 128).reverse).foldl (sqrtBit n) 0

/-- π / 2. -/
def halfPi : Nat := 124451306656115542615260972311

/-- Terms of Euler's series for the arc tangent: the next one from the last, by 2n / (2n + 1) × y² / (x² + y²). -/
def atanTerm (y q : Nat) (p : Nat × Nat) (n : Nat) : Nat × Nat :=
  let t := p.1 * (2 * n * (y * y)) / ((2 * n + 1) * q)
  (t, p.2 + t)

/-- The arc tangent of y / x for 0 ≤ y ≤ x and x not 0. -/
def atanFix (y x : Nat) : Nat :=
  let q := x * x + y * y
  let t := x * y * 2 ^ 96 / q
  (((List.range 90).map (fun n => n + 1)).foldl (atanTerm y q) (t, t)).2

/-- The angle in the first quadrant of a point (x, y). -/
def angleOf (y x : Nat) : Nat :=
  if x = 0 ∧ y = 0 then 0 else if y ≤ x then atanFix y x else halfPi - atanFix x y

/-- atan2 in 2^-16 of a turn, rounded down: a line's last step stays below the next line. [DESIGN CHOICE, log 14] -/
def turnSteps (y x : Int) : Nat :=
  let a := angleOf y.natAbs x.natAbs
  let t := if 0 ≤ y then (if 0 ≤ x then a else 2 * halfPi - a) else if x < 0 then 2 * halfPi + a else 4 * halfPi - a
  ((t + 2 ^ 20) * 65536 / (4 * halfPi)) % 65536

/-- asin(p / d) in 0.1°, rounded half up, clamped to ±90° (R174); d is not 0. -/
def asinTenths (p d : Int) : Int :=
  let n := p.natAbs
  let m := d.natAbs
  let neg := (p < 0) != (d < 0)
  let a := if m ≤ n then halfPi else angleOf (n * 2 ^ 64) (isqrt ((m * m - n * n) * 2 ^ 128))
  divHalfUp ((if neg then -(a : Int) else a) * 900) halfPi

/-! ### Real functions, to 2^-96 -/

/-- A rational in units of 2^-96, rounded down. -/
def toFix (x : Rat) : Int := (x * 79228162514264337593543950336).floor

/-- The rational of a number of units of 2^-96. -/
def ofFix (n : Int) : Rat := (n : Rat) / 79228162514264337593543950336

/-- Square root of a rational that is not negative. -/
def sqrtR (x : Rat) : Rat := (isqrt (x * 340282366920938463463374607431768211456).floor.toNat : Rat) / 18446744073709551616

/-- One bit of a cube root. -/
def cbrtBit (n r b : Nat) : Nat := if (r + 2 ^ b) ^ 3 ≤ n then r + 2 ^ b else r

/-- Cube root of a rational that is not negative. -/
def cbrtR (x : Rat) : Rat :=
  (((List.range 128).reverse.foldl (cbrtBit (x * (2 ^ 192 : Nat)).floor.toNat) 0 : Nat) : Rat) / 18446744073709551616

/-- The nearest integer to the square root of a rational, halves up. -/
def rootHalfUp (x : Rat) : Nat := (isqrt (4 * x).floor.toNat + 1) / 2

/-- Terms of the sine series: the next from the last. -/
def sinTerm (q : Int) (p : Int × Int) (n : Nat) : Int × Int :=
  let t := -(p.1 * q / 79228162514264337593543950336) / ((2 * n + 2) * (2 * n + 3) : Nat)
  (t, p.2 + t)

/-- Sine of an angle within a quarter turn of 0. -/
def sinCore (x : Int) : Int := ((List.range 24).foldl (sinTerm (x * x / 79228162514264337593543950336)) (x, x)).2

/-- Sine of an angle in 2^-96 radian. -/
def sinFix (x : Int) : Int :=
  let h : Int := halfPi
  let m := x % (4 * h)
  if m ≤ h then sinCore m else if m ≤ 3 * h then sinCore (2 * h - m) else sinCore (m - 4 * h)

/-- Sine of an angle in radian. -/
def sinR (x : Rat) : Rat := ofFix (sinFix (toFix x))

/-- Cosine of an angle in radian. -/
def cosR (x : Rat) : Rat := ofFix (sinFix (toFix x + halfPi))

/-- The angle of a point (x, y), from 0 to below a turn, in radian. -/
def atan2R (y x : Rat) : Rat :=
  let a : Int := angleOf (toFix y).natAbs (toFix x).natAbs
  let h : Int := halfPi
  ofFix (if 0 ≤ y then (if 0 ≤ x then a else 2 * h - a) else if x < 0 then 2 * h + a else 4 * h - a)

end Sys2Proof.Machine
end

