-- ==== Sys2Proof/Machine/Axio.lean ====
section
/-! DEFINITION. Axio.lean: local channels (R152 to R177): counting, faults, index, compare, limits, homing, the step generator
and stall detection. -/

namespace Sys2Proof.Machine

/-- A channel that exists on the variant and has not been retired. -/
def chanLive (s : State) (c : Nat) : Bool := c < maxChans s.fuse.variant && !(chSt s c).retired

/-- Modes with quadrature decoding, with sine/cosine decoding, and with a step output (R152). -/
def isQuad (s : State) (c : Nat) : Bool := (chanCfg s c).mode == 1 || (chanCfg s c).mode == 3

/-- Sine/cosine modes. -/
def isSincos (s : State) (c : Nat) : Bool := (chanCfg s c).mode == 4 || (chanCfg s c).mode == 5

/-- Modes with a step generator. -/
def hasStep (s : State) (c : Nat) : Bool :=
  (chanCfg s c).mode == 2 || (chanCfg s c).mode == 3 || (chanCfg s c).mode == 5

/-- Modes with a feedback input. -/
def hasFb (s : State) (c : Nat) : Bool := isQuad s c || isSincos s c

/-- A register access or command of an absent channel ends as R3 says. -/
def chanAccess (wr : Bool) (c : Nat) (f : State → State) (s : State) : State :=
  if maxChans s.fuse.variant ≤ c then absentAccess wr s else acked (f s)

/-- Axes whose feedback comes from channel c. -/
def axesFrom (s : State) (c : Nat) : List Nat :=
  (List.range s.image.axes.length).filter (fun a => (axisCfg s a).defined && portAtChan c (axisCfg s a).src)

/-- Axes whose set-point goes to channel c. -/
def axesTo (s : State) (c : Nat) : List Nat :=
  (List.range s.image.axes.length).filter (fun a => (axisCfg s a).defined && portAtChan c (axisCfg s a).dst)

/-- A group of the channel is enabled for motion. -/
def chanEnabled (s : State) (c : Nat) : Bool :=
  (bitsOf (groupsOfChan s c)).any (fun g => (grpSt s g).state.enabled)

/-- A 64-bit two's complement count (R158). -/
def wrap64 (n : Int) : Int := (BitVec.ofInt 64 n).toInt

/-- Counts per revolution: 0 is 2^32 (R158). -/
def cprOf (s : State) (c : Nat) : Nat := if (chanCfg s c).cpr = 0 then 2 ^ 32 else (chanCfg s c).cpr

/-! ### Faults (R154 to R157, R177) -/

/-- Declare a channel's feedback faulty (R157): FAULT, REFD and the homing offset cleared, AXIO_FB_FAULT. [DEDUCED, log 57] -/
def declareFault (c : Nat) (s : State) : State :=
  event 0x0402 c (onChan c (fun x => { x with
    fault := true, refd := false, hofs := 0, faultTick := some s.time.tickno }) s)

/-- WIRE_FAULT (R154): both wires of a pair (0 A, 1 B, 2 Z) at one level for longer than FILT samples, four at least; on a sine/cosine
channel only the Z pair. [DEDUCED, log 59] -/
def wireFault (c pair samples : Nat) (s : State) : State :=
  if chanLive s c && hasFb s c && (isQuad s c || pair == 2) && (chanCfg s c).filt < samples && 4 ≤ samples && !(chSt s c).wire then
    declareFault c (event 0x0403 c (onChan c (fun x => { x with wire := true }) s))
  else s

/-- AXIO_CONDITION_CLEAR (R154, R177): 1 ms of good signals; `held` in ns. -/
def axioConditionClear (c : Nat) (ampCond : Bool) (held : Nat) (s : State) : State :=
  if held < 1000000 then s
  else onChan c (fun x => if ampCond then { x with amp := x.amp && x.ampRun != 0 } else { x with wire := false }) s

/-- FEEDBACK_FAULT_CLEAR (R157): a write of 1 to FAULT leaves it set while WIRE or AMP is 1, while the group is enabled, or in
the tick of the declaration. -/
def feedbackFaultClear (c : Nat) (s : State) : State :=
  chanAccess true c (fun s =>
    let x := chSt s c
    if x.wire || x.amp || chanEnabled s c || x.faultTick == some s.time.tickno then s
    else onChan c (fun x => { x with fault := false, faultTick := none }) s) s

/-- SINCOS_AMP_FAULT (R177): the radius out of limits for 8 conversions in a row. -/
def sincosAmpFault (c : Nat) (s : State) : State :=
  if chanLive s c && isSincos s c && 8 ≤ (chSt s c).ampRun && !(chSt s c).amp then
    declareFault c (event 0x0407 c (onChan c (fun x => { x with amp := true }) s))
  else s

/-! ### Counting (R155, R158, R160, R176) -/

/-- Place of the filtered levels in the positive sequence of a quadrature signal, A leading B. -/
def quadPlace (a b : Bool) : Nat := match a, b with | false, false => 0 | true, false => 1 | true, true => 2 | false, true => 3

/-- Quadrant of the angle of (sine, cosine) by their signs. -/
def scPlace (a b : Bool) : Nat := match a, b with | true, true => 0 | true, false => 1 | false, false => 2 | false, true => 3

/-- Count by d: both counts move by the same amount, DIR follows, a change of DIR is counted (R158, R160). -/
def countBy (c : Nat) (d : Int) (s : State) : State :=
  let x := chSt s c
  let pos := 0 < d
  let change := x.dir != pos
  let s := onChan c (fun x => { x with
    lastCount := x.count, count := wrap64 (x.count + d),
    single := (((x.single : Int) + d) % (cprOf s c : Int)).toNat,
    dir := pos, dircnt := if change then satAdd 0xFFFF x.dircnt 1 else x.dircnt }) s
  if change && x.dirie then eventOnce 0x0404 c c s else s

/-- A quadrature error (R155): the count stays, the error is counted, AXIO_QERR at most once per tick. -/
def quadError (c : Nat) (s : State) : State :=
  eventOnce 0x0401 c c (onChan c (fun x => { x with qNow := x.qNow + 1, qTotal := satAdd 0xFFFF x.qTotal 1 }) s)

/-- A line accepts a level that has held for FILT samples; with FILT 0 every sample (R153). -/
def filtered (f : ChanCfg) (held : Nat) (new old : Bool) : Bool := if f.filt ≤ held then new else old

/-- The levels of one sample of a quadrature channel. -/
def quadSample (c : Nat) (a b : Bool) (s : State) : State :=
  let x := chSt s c
  let d := (quadPlace a b + 4 - quadPlace x.lvA x.lvB) % 4
  let s := onChan c (fun x => { x with lvA := a, lvB := b }) s
  if d = 1 then countBy c 1 s else if d = 3 then countBy c (-1) s else if d = 2 then quadError c s else s

/-- The cosine gain relative to the sine, in 1/128. GAINR 0 acts as 1. [DESIGN CHOICE, log 14] -/
def scGain (f : ChanCfg) : Int := if f.gainr = 0 then 128 else f.gainr

/-- Sine and cosine less their offsets, on one scale: the sine times GAINR, the cosine times 128 (R176). -/
def scCorrect (f : ChanCfg) (sine cosine : Int) : Int × Int := ((sine - f.sofs.toInt) * scGain f, (cosine - f.cofs.toInt) * 128)

/-- The radius of R177 in 1/128 of the nominal amplitude, rounded half up. -/
def scRadius (f : ChanCfg) (y x : Int) : Nat :=
  (isqrt (65536 * (y * y + x * x).toNat / (Config.scNominal * Config.scNominal * (scGain f * scGain f).toNat)) + 1) / 2

/-- A conversion of a sine/cosine channel (R176, R177): the quadrant counts lines, a jump of two is an error, and the radius is judged. [DESIGN CHOICE, log 14] -/
def scSample (c : Nat) (sine cosine : Int) (s : State) : State :=
  let f := chanCfg s c
  let p := scCorrect f sine cosine
  let q := scPlace (0 ≤ p.1) (0 ≤ p.2)
  let d := (q + 4 - (chSt s c).quad) % 4
  let r := scRadius f p.1 p.2
  let s := onChan c (fun y => { y with
    quad := q, scS := p.1, scC := p.2, rlow := min y.rlow r,
    ampRun := if r < f.rmin || f.rmax < r then min 8 (y.ampRun + 1) else 0 }) s
  if d = 2 then quadError c s
  else if d = 1 && q = 0 then countBy c 1 s
  else if d = 3 && q = 3 then countBy c (-1) s
  else s

/-- QUAD_EDGE (R153, R155, R176): one sample of a channel's inputs. -/
def quadEdge (c : Nat) (p : ChanSample) (s : State) : State :=
  if !chanLive s c then s
  else
    match p with
    | .levels a b ha hb =>
      let x := chSt s c
      if isQuad s c then quadSample c (filtered (chanCfg s c) ha a x.lvA) (filtered (chanCfg s c) hb b x.lvB) s else s
    | .conversion y x => if isSincos s c then scSample c y x s else s

/-- INDEX_EVENT (R161): a rising edge of Z that has held for FILT samples, gated by A and B when ZGATE is 1. -/
def indexEvent (c held : Nat) (s : State) : State :=
  let x := chSt s c
  if !chanLive s c || !hasFb s c || held < (chanCfg s c).filt || ((chanCfg s c).zgate && !(x.lvA && x.lvB)) then s
  else eventOnce 0x0406 c c (onChan c (fun x => { x with idx := true, idxVal := x.count }) s)

/-! ### Position compare (R162 to R165) -/

/-- Fire: AXn_CMP active, FIRED, ARM cleared. -/
def fireCompare (x : ChanSt) : ChanSt := { x with cmpOut := true, fired := true, arm := false }

/-- A crossing of the compare value between two samples in an armed direction (R162). -/
def crossing (cdir : Nat) (prev now cmp : Int) : Bool :=
  let up := prev < cmp && cmp ≤ now
  let dn := cmp < prev && now ≤ cmp
  if cdir = 1 then up else if cdir = 2 then dn else up || dn

/-- The count at arming lies at or past the value in the armed direction (R163). -/
def isBehind (cdir : Nat) (count cmp : Int) : Bool :=
  if cdir = 1 then cmp ≤ count else if cdir = 2 then count ≤ cmp else false

/-- Arm the unit of channel c with a value (R163). -/
def armCompare (c : Nat) (v : Int) (cdir : Nat) (passed : Bool) (s : State) : State :=
  let b := isBehind cdir (chSt s c).count v
  let s := onChan c (fun x =>
    let y := { x with cmp := v, cdir := cdir, passed := passed, behind := b, arm := true, lastCount := x.count }
    if b && passed then fireCompare y else y) s
  if b then event 0x0410 c s else s

/-- The unit takes its arming from the compare list or the downlink, and discards firmware's (R150, R165). -/
def cmpFromList (s : State) (c : Nat) : Bool := (chanCfg s c).cmpSrc || nodeMode s

/-- COMPARE_ARM (R163). -/
def compareArm (c cdir : Nat) (passed : Bool) (s : State) : State :=
  chanAccess true c (fun s =>
    if !chanLive s c || cmpFromList s c then s
    else armCompare c ((chSt s c).cmpPend).toInt (cdir % 4) passed s) s

/-- Fire on a crossing that the last sample has made (R162). -/
def fireDue (c : Nat) (s : State) : State :=
  let x := chSt s c
  if x.arm && crossing x.cdir x.lastCount x.count x.cmp then onChan c fireCompare s else s

/-- COMPARE_DISARM (R164): a crossing in the same sample fires first. -/
def compareDisarm (c : Nat) (s : State) : State :=
  chanAccess true c (fun s => if cmpFromList s c then s else onChan c (fun x => { x with arm := false }) (fireDue c s)) s

/-- COMPARE_FIRE (R162). -/
def compareFire (c : Nat) (s : State) : State := fireDue c s

/-! ### Homing (R169, R170) -/

/-- Homing fails with a result (R169): REFD stays 0, AXIO_HOME_FAIL; the generator stops the axis with HDEC. [DESIGN CHOICE, log 58] -/
def homeFail (c res : Nat) (s : State) : State :=
  event 0x0423 c (onChan c (fun x => { x with
    busy := false, hres := res, hphase := 0, hstop := true, hlatch := none }) s)

/-- Start the search of a channel. -/
def beginHoming (c : Nat) (s : State) : State :=
  let f := chanCfg s c
  let s := onChan c (fun x => { x with
    busy := true, hres := 0, hdir := f.hdir, hrev := false, hstop := false, refd := false, hlatch := none, hconf := true,
    hphase := (if f.hmode = 4 then 2 else 1), hidxFrom := x.count }) s
  forAll (axesFrom s c) (fun a => onAxis a (fun x => { x with homing := true })) s

/-- HOMING_START (R169): discarded while BUSY; refused in mode 0 or while the group is not enabled for motion. [DEDUCED, log 57] -/
def homingStart (c : Nat) (s : State) : State :=
  chanAccess true c (fun s =>
    let f := chanCfg s c
    if !chanLive s c || (chSt s c).busy then s
    else if f.hmode = 0 || 4 < f.hmode || !(nodeMode s || chanEnabled s c) then onChan c (fun x => { x with hres := 6 }) s
    else beginHoming c s) s

/-- The input that is the target of a homing mode: HOME, or in mode 3 the limit in search direction (R169). -/
def targetInput (s : State) (c : Nat) : Nat :=
  if (chanCfg s c).hmode = 3 then (if (chanCfg s c).hdir then 1 else 0) else 2

/-- The debounced view of an input. -/
def debounced (x : ChanSt) (i : Nat) : Bool := match i with | 0 => x.limP | 1 => x.limN | _ => x.home

/-- HOME_TARGET_EDGE (R170): the active edge of the target in the filtered view latches the count, and where an index follows its
latch replaces it. The edge stands once the debounced view confirms it. -/
def homeTargetEdge (c : Nat) (index : Bool) (s : State) : State :=
  let x := chSt s c
  if !x.busy || x.hphase = 0 || x.hphase = 4 then s
  else
    let m := (chanCfg s c).hmode
    let i := targetInput s c
    if x.hphase = 1 then
      if index || !(nth x.filtIn i) then s
      else onChan c (fun x => { x with
        hlatch := some x.count, hidxFrom := x.count, hconf := debounced x i,
        hphase := (if m = 1 then 4 else if m = 2 then 2 else 3), hdir := (if m = 3 then !x.hdir else x.hdir) }) s
    else if index then onChan c (fun x => { x with hlatch := some x.count, hphase := 4 }) s
    else s

/-- An edge that the debounced view does not confirm is discarded, and the search goes on; one that it confirms stands (R170). -/
def homeConfirm (c input : Nat) (s : State) : State :=
  let x := chSt s c
  let m := (chanCfg s c).hmode
  if !x.busy || x.hconf || x.hphase < 2 || input != targetInput s c then s
  else if debounced x input then onChan c (fun x => { x with hconf := true }) s
  else if nth x.filtIn input then s
  else onChan c (fun x => { x with
    hphase := 1, hlatch := none, hconf := true, hdir := if m = 3 then !x.hdir else x.hdir }) s

/-- HOMING_NO_INDEX (R169): no index within CPR + 4 counts of travel. -/
def homingNoIndex (c : Nat) (s : State) : State :=
  let x := chSt s c
  if x.busy && (x.hphase = 2 || x.hphase = 3) && cprOf s c + 4 < (x.count - x.hidxFrom).natAbs then homeFail c 4 s else s

/-- The axes of channel c stand still; a node's step generator has no pulse left. -/
def atRest (s : State) (c : Nat) : Bool :=
  if nodeMode s then (chSt s c).hvel = 0 && (chSt s c).sched.isEmpty && (chSt s c).schedNext.isEmpty
  else (axesFrom s c).all (fun a => (axSt s a).ref == (axSt s a).refPrev)

/-- The counts of a step generator shift with a new homing offset, so that the drive sees no step (R170). [DESIGN CHOICE, log 58] -/
def shiftSteps (d : Int) (c : Nat) (s : State) : State :=
  onChan c (fun x => { x with
    stepped := x.stepped + d, issued := x.issued + d, issuedTick := x.issuedTick + d, issuedPrev := x.issuedPrev + d,
    hset := x.hset + posOf (d * 16777216), baseSt := x.baseSt.map (fun b => (b.1 + d, b.2)) }) s

/-- The step generators that follow the axes of channel c; in node mode its own. -/
def stepsFrom (s : State) (c : Nat) : List Nat :=
  if nodeMode s then [c] else (axesFrom s c).filterMap (fun a => match (axisCfg s a).dst with | .axio k => some k | _ => none)

/-- HOMING_COMPLETE (R170): the axis stands still; the offset is set, the pipeline's positions shift with it. -/
def homingComplete (c : Nat) (s : State) : State :=
  let x := chSt s c
  match x.hlatch with
  | none => s
  | some l =>
    if !x.busy || x.hphase != 4 || !x.hconf || !atRest s c then s
    else
      let h := wrap64 (((chanCfg s c).homepos).toInt - l)
      let sh : Pos := posOf ((h - x.hofs) * 16777216)
      let s := forAll (stepsFrom s c) (shiftSteps (h - x.hofs)) s
      let s := event 0x0422 c (onChan c (fun x => { x with
        hofs := h, pos := x.pos + sh, refd := true, hres := 1, busy := false, hphase := 0, refj := true, hlatch := none }) s)
      forAll (axesFrom s c) (fun a => onAxis a (fun y => { y with
        ref := y.ref + sh, refPrev := y.refPrev + sh, refOld := y.refOld + sh, spt := y.spt + sh, fb := y.fb + sh, fbPrev := y.fbPrev + sh,
        homing := false, reinit := false })) s

/-- A limit becomes active during homing (R169). Input 0 is LIMP, 1 is LIMN. -/
def homingLimit (c input : Nat) (s : State) : State :=
  let x := chSt s c
  let m := (chanCfg s c).hmode
  let toward (neg : Bool) : Bool := (input = 0 && !neg) || (input = 1 && neg)
  if m = 3 then (if toward (chanCfg s c).hdir then s else homeFail c 2 s)
  else if m = 4 then homeFail c 2 s
  else if toward x.hdir then
    (if x.hrev then homeFail c 2 s else onChan c (fun x => { x with hdir := !x.hdir, hrev := true }) s)
  else homeFail c 2 s

/-! ### Limit and home inputs (R166 to R168) -/

/-- Chatter (R168): CHN or more filtered transitions of an input within CHW ms set CHAT, raise AXIO_LIMIT_CHATTER at most once per
window and abort the homing. -/
def chatter (c input at_ : Nat) (s : State) : State :=
  let f := chanCfg s c
  let w := f.chw * 1000000
  let l := (nth (chSt s c).trans input).filter (fun t => at_ < t + w) ++ [at_]
  let s := onChan c (fun x => { x with trans := updAt x.trans input (fun _ => l) }) s
  if l.length < f.chn then s
  else
    let quiet : Bool := match (nth (chSt s c).chatAt input : Option Nat) with | some t => t + w ≤ at_ | none => true
    let s := onChan c (fun x => { x with chat := true }) s
    let s := if quiet then event 0x0421 c (onChan c (fun x => { x with chatAt := updAt x.chatAt input (fun _ => some at_) }) s) else s
    if (chSt s c).busy then homeFail c 3 s else s

/-- The debounced view takes a level. -/
def setDebounced (input : Nat) (act : Bool) (x : ChanSt) : ChanSt :=
  match input with | 0 => { x with limP := act } | 1 => { x with limN := act } | _ => { x with home := act }

/-- LIMIT_INPUT_CHANGE (R166): a level of LIMP, LIMN or HOME that has held for `held` ns at an instant. The filtered view takes it after
FILT samples, the debounced view DEB µs later. -/
def limitInputChange (c input : Nat) (level : Bool) (held at_ : Nat) (s : State) : State :=
  if !chanLive s c || 2 < input then s
  else
    let f := chanCfg s c
    let act := level != hasBit f.lpol (2 - input)
    if held < 5 * f.filt then s
    else
      let new := nth (chSt s c).filtIn input != act
      let s := onChan c (fun x => { x with filtIn := updAt x.filtIn input (fun _ => act) }) s
      let s := if new then chatter c input (at_ - held + 5 * f.filt) s else s
      let rises := 5 * f.filt + 1000 * f.deb ≤ held && debounced (chSt s c) input != act
      let s := if rises then onChan c (setDebounced input act) s else s
      let s := homeConfirm c input s
      if rises && (chSt s c).busy && act && input < 2 then homingLimit c input s else s

/-! ### Step generator (R171 to R173) -/

/-- Instant of pulse i of n in ns from E0, to the nearest 5 ns with ties up (R171). -/
def pulseAt (period su n i : Nat) : Nat := ((su * 2 * n + (2 * i - 1) * (period - su) + 5 * n) / (10 * n)) * 5

/-- The direction of the last pulse issued before the next tick: of those still to come in this one, or of the last one issued. -/
def lastIssued (x : ChanSt) : Bool := match x.sched.getLast? with | some p => p.2 | none => x.lastDir

/-- Schedule the next tick's pulses for a set-point (R171, R172). -/
def stepSchedule (c : Nat) (p : Pos) (s : State) : State :=
  let x := chSt s c
  let f := chanCfg s c
  let n := p.toInt / 16777216 - x.stepped
  if n = 0 then onChan c (fun x => { x with schedNext := [] }) s
  else
    let up := 0 < n
    let su := if up != lastIssued x then f.dirsu * 5 else 0
    let m := min f.maxstep ((periodNs s - su) / (2 * (max 4 f.stepw) * 5))
    let k := min n.natAbs m
    let s := onChan c (fun x => { x with
      schedNext := (List.range k).map (fun i => (pulseAt (periodNs s) su k (i + 1), up)),
      stepped := x.stepped + (if up then (k : Int) else -(k : Int)) }) s
    if m < n.natAbs then eventOnce 0x0430 c c s else s

/-- STO decided for the group: the scheduled pulses are dropped and STEPPED equals ISSUED again (R173). [DESIGN CHOICE, log 58] -/
def stepStop (c : Nat) (s : State) : State :=
  onChan c (fun x => { x with sched := [], schedNext := [], stepped := x.issued }) s

/-- STEP_PULSE (R171): the next scheduled pulse leaves AXn_STEP. -/
def stepPulse (c : Nat) (s : State) : State :=
  onChan c (fun x => match x.sched with
    | [] => x
    | (_, up) :: r => { x with sched := r, stepOut := true, stepDir := up, lastDir := up, issued := x.issued + (if up then 1 else -1) }) s

/-! ### Stall detection (R174, R175) -/

/-- The axis of a step generator is homing: its own channel, its encoder's, or the channel that its axis reads. -/
def stepHoming (s : State) (c : Nat) : Bool :=
  (chSt s c).busy || (chSt s (chanCfg s c).encch).busy || (axesTo s c).any (fun a => (axSt s a).homing)

/-- The window is active in this tick (R175). -/
def windowActive (s : State) (c : Nat) : Bool :=
  let x := chSt s c
  match (chanCfg s c).smode with
  | 2 => true
  | 3 => stepHoming s c || s.saf.mode == 1 || s.saf.mode == 2 || !x.lav
  | _ => false

/-- The load-angle check is active in this tick. -/
def laActive (s : State) (c : Nat) : Bool :=
  (chanCfg s c).smode == 1 || ((chanCfg s c).smode == 3 && !windowActive s c)

/-- Whether the check of the tick trips (R175). -/
def stallTrips (s : State) (c : Nat) : Bool :=
  let x := chSt s c
  let f := chanCfg s c
  let la := laActive s c && f.stalln ≤ x.laRun && x.lav
  let win := windowActive s c && (match x.baseSt with
    | some (i0, e0) =>
      f.devwin * 4096 < ((x.issuedTick - i0) * f.ratio - ((chSt s f.encch).count - e0) * 4096).natAbs
    | none => false)
  la || win

/-- STALL_DETECT (R175): SS1-r of the group at 17.0 µs, REFD cleared, AXIO_STALL. -/
def stallDetect (c : Nat) (s : State) : State :=
  if chanLive s c && (chSt s c).stalled then
    demandStop (groupsOfChan s c) 13 (event 0x0431 c (onChan c (fun x => { x with refd := false, stalled := false }) s))
  else s

/-! ### The tick edge -/

/-- The Q40.24 position of a channel at E0 (R158, R176). -/
def chanPos (s : State) (c : Nat) : Pos :=
  let x := chSt s c
  posOf ((x.count + x.hofs) * 16777216) + (if isSincos s c then x.frac.setWidth 64 <<< 8 else 0)

/-- The load angle of R174 in 0.1° electrical: asin of the sample over KE × v. [DESIGN CHOICE, log 14] -/
def loadAngleOf (f : ChanCfg) (raw v : Int) : Int :=
  if f.ke = 0 || v = 0 then Config.loadAngle raw f.ke v else asinTenths (256 * raw) (f.ke * v)

/-- The wrap of the Q40.24 range a position lies in (R159). AXIO_POS_WRAP is raised at the E0 whose latch first lies in another
wrap. [DESIGN CHOICE, log 120] -/
def wrapOf (n : Int) : Int := (n + 2 ^ 39) / 2 ^ 40

/-- Channel c at the tick edge (R156 to R158, R160, R167, R174): the pulses of the new tick, the error count of the old one,
the latch, the induced-voltage sample and the limit samples. [DESIGN CHOICE, log 120] -/
def chanEdge (c emf : Nat) (s : State) : State :=
  let f := chanCfg s c
  if !chanLive s c then s
  else
    let v := (chSt s c).issued - (chSt s c).issuedTick
    let lav := f.vminla ≤ v.natAbs
    let raw : Int := (emf % 4096 : Nat) - (f.eofs : Int)
    let la := if lav then loadAngleOf f raw v else (chSt s c).la
    let s := onChan c (fun x => { x with
      sched := x.schedNext, schedNext := [],
      stepDir := (match x.schedNext with | p :: _ => p.2 | [] => x.stepDir),
      qTick := min 0xFFFF x.qNow, qNow := 0, fbNull := x.fault || x.retired,
      frac := (if isSincos s c && !x.amp then BitVec.ofNat 16 (turnSteps x.scS x.scC) else x.frac),
      rlast := (if isSincos s c then min 255 (scRadius f x.scS x.scC) else x.rlast),
      emf := BitVec.ofInt 12 raw, lav := lav, la := la,
      issuedPrev := x.issuedTick, issuedTick := x.issued,
      limTrip := !x.busy && ((x.limP && !x.limP0) || (x.limN && !x.limN0)), limP0 := x.limP, limN0 := x.limN }) s
    let s := onChan c (fun x => { x with laRun := if lav && laActive s c && f.lamax < la.natAbs then x.laRun + 1 else 0 }) s
    let old := (chSt s c).wrapIdx
    let w := wrapOf ((chSt s c).count + (chSt s c).hofs)
    let s := onChan c (fun x => { x with pos := chanPos s c, wrapIdx := w }) s
    let s := if w != old then event 0x0405 c s else s
    let s := if max 1 f.qthr ≤ (chSt s c).qTick then declareFault c s else s
    let s := onChan c (fun x => { x with
      baseSt := (if windowActive s c then
        (match x.baseSt with | some b => some b | none => some (x.issuedTick, (chSt s f.encch).count)) else none) }) s
    onChan c (fun x => { x with stalled := stallTrips s c }) s

/-! ### The meanings -/

def execQuadEdge (c : Nat) (x : ChanSample) (s : State) : Out := runIn .axio (quadEdge c x) s
def execWireFault (c pair samples : Nat) (s : State) : Out := runIn .axio (wireFault c pair samples) s
def execAxioConditionClear (c : Nat) (ampCond : Bool) (held : Nat) (s : State) : Out :=
  runIn .axio (axioConditionClear c ampCond held) s
def execFeedbackFaultClear (c : Nat) (s : State) : Out := runAcc .axio (feedbackFaultClear c) s
def execIndexEvent (c held : Nat) (s : State) : Out := runIn .axio (indexEvent c held) s
def execSincosAmpFault (c : Nat) (s : State) : Out := runIn .axio (sincosAmpFault c) s
def execCompareArm (c cdir : Nat) (passed : Bool) (s : State) : Out := runAcc .axio (compareArm c cdir passed) s
def execCompareDisarm (c : Nat) (s : State) : Out := runAcc .axio (compareDisarm c) s
def execCompareFire (c : Nat) (s : State) : Out := runIn .axio (compareFire c) s
/-- COMPARE_PULSE_END (R162): AXn_CMP returns inactive. -/
def execComparePulseEnd (c : Nat) (s : State) : Out := run (onChan c (fun x => { x with cmpOut := false })) s
def execLimitInputChange (c input : Nat) (level : Bool) (held at_ : Nat) (s : State) : Out :=
  runIn .axio (limitInputChange c input level held at_) s
def execHomingStart (c : Nat) (s : State) : Out := runAcc .axio (homingStart c) s
def execHomeTargetEdge (c : Nat) (index : Bool) (s : State) : Out := runIn .axio (homeTargetEdge c index) s
def execHomingNoIndex (c : Nat) (s : State) : Out := runIn .axio (homingNoIndex c) s
def execHomingComplete (c : Nat) (s : State) : Out := runIn .axio (homingComplete c) s
def execStepPulse (c : Nat) (s : State) : Out := runIn .axio (stepPulse c) s
/-- STEP_PULSE_END (R171): the pulse ends after STEPW × 5 ns. -/
def execStepPulseEnd (c : Nat) (s : State) : Out := run (onChan c (fun x => { x with stepOut := false })) s
def execStallDetect (c : Nat) (s : State) : Out := runIn .axio (stallDetect c) s

end Sys2Proof.Machine
end

