-- ==== Sys2Proof/Machine/Linear.lean ====
section
/-! DEFINITION. Linear.lean: binary32 vectors and matrices with fused multiply-adds, and the solver's operations (R247, R251 to R256):
Cholesky, LDLᵀ, Householder QR, substitution, ADMM and the active-set method. -/

namespace Sys2Proof.Machine

/-! ### Scalars -/

/-- Subtraction. -/
def f32Sub (a b : F32) : F32 := f32Add a (f32Minus b)

/-- The sign of an exact product. -/
def mulNeg (a b : F32) : Bool := f32Neg a != f32Neg b

/-- Fused multiply-add a × b + c, one rounding (R247). -/
def f32Fma (a b c : F32) : F32 :=
  if f32IsFin a && f32IsFin b && f32IsFin c then
    let p := f32Val a * f32Val b
    if p = 0 then (if f32Val c = 0 then f32Zero (mulNeg a b && f32Neg c) else c) else f32OfRat (p + f32Val c)
  else if f32IsFin a && f32IsFin b then (if f32IsNaN c then f32NaN else c)
  else f32Add (f32Mul a b) c

/-- The square root of a rational as that of a scaled integer, with a sticky bit below it. -/
def rootR (x : Rat) : Rat :=
  let e := (Nat.log2 x.num.natAbs : Int) - (Nat.log2 x.den : Int)
  let k : Int := (200 - e) / 2
  let n := (x * pow2 (2 * k)).floor.toNat
  let r := isqrt n
  let sticky : Nat := if ((r * r : Nat) : Rat) = x * pow2 (2 * k) then 0 else 1
  ((2 * r + sticky : Nat) : Rat) * pow2 (-(k + 1))

/-- The square root of a rational, rounded to binary32 (R247). -/
def f32RootRat (x : Rat) : F32 := f32OfRat (rootR x)

/-- Square root, correctly rounded. -/
def f32Sqrt (a : F32) : F32 :=
  if f32IsNaN a then f32NaN
  else if f32IsFin a && f32Val a = 0 then a
  else if f32Neg a then f32NaN
  else if f32IsInf a then a
  else f32RootRat (f32Val a)

/-- Magnitude. -/
def f32Abs (a : F32) : F32 := a &&& 0x7FFFFFFF

/-- One. -/
def f32One : F32 := 0x3F800000

/-! ### Inner products (R247) -/

/-- Sum of adjacent pairs of partial sums. -/
def pairSums : List F32 → List F32
  | a :: b :: r => f32Add a b :: pairSums r
  | l => l

/-- The pairwise tree over the partial sums of up to 16 lanes. -/
def laneTree (l : List F32) : F32 := (pairSums (pairSums (pairSums (pairSums l)))).headD 0

/-- The chain of fused multiply-adds of one lane, in ascending index order. -/
def laneChain (lg lane : Nat) (t : List (Nat × F32 × F32)) : F32 :=
  (t.filter (fun p => p.1 % lg == lane)).foldl (fun a p => f32Fma p.2.1 p.2.2 a) 0

/-- An inner product over indexed terms on LG lanes: split by index modulo LG, combined in the fixed tree. [DESIGN CHOICE, log 12] -/
def dotTerms (lg : Nat) (t : List (Nat × F32 × F32)) : F32 :=
  laneTree ((List.range (max 1 lg)).map (fun k => laneChain (max 1 lg) k t))

/-- The terms u_k v_k for k from a to b − 1. -/
def termsOf (a b : Nat) (u v : Nat → F32) : List (Nat × F32 × F32) :=
  ((List.range b).filter (fun k => a ≤ k)).map (fun k => (k, u k, v k))

/-- An inner product over one lane. -/
def f32Dot (u v : List F32) : F32 := (u.zip v).foldl (fun a p => f32Fma p.1 p.2 a) 0

/-! ### Matrices -/

/-- A matrix by rows. -/
abbrev Mat := List (List F32)

/-- Entry (i, j). -/
def entry (a : Mat) (i j : Nat) : F32 := nth (nth a i) j

/-- A matrix from its entries. -/
def matOf (n m : Nat) (f : Nat → Nat → F32) : Mat := (List.range n).map (fun i => (List.range m).map (f i))

/-- Add a row at the end of a matrix, computed entry by entry from the entries before it in the row. -/
def buildRow (n : Nat) (f : List F32 → Nat → F32) : List F32 := (List.range n).foldl (fun r j => r ++ [f r j]) []

/-- A diagonal entry that must be positive and finite. -/
def posPivot (d : F32) : Bool := f32IsFin d && f32Lt 0 d

/-- A factor and the first pivot that failed. -/
structure Factored where
  rows : Mat := []
  diag : List F32 := []
  bad : Option Nat := none
  deriving DecidableEq, Repr, Inhabited

/-- Note a pivot: the quiet NaN in its place where it fails (R252). -/
def notePivot (j : Nat) (ok : Bool) (d : F32) (p : Option Nat) : F32 × Option Nat :=
  if ok then (d, p) else (f32NaN, p.orElse (fun _ => some j))

/-- Row i of the Cholesky factor from the rows above (R251). -/
def cholRow (lg : Nat) (a : Nat → Nat → F32) (p : Factored) (i : Nat) : Factored :=
  let off := buildRow i (fun r j =>
    f32Div (f32Sub (a i j) (dotTerms lg (termsOf 0 j (nth r) (entry p.rows j)))) (entry p.rows j j))
  let d := f32Sub (a i i) (dotTerms lg (termsOf 0 i (nth off) (nth off)))
  let q := notePivot i (posPivot d) (f32Sqrt d) p.bad
  { p with rows := p.rows ++ [off ++ [q.1]], bad := q.2 }

/-- The Cholesky factor L of an n × n matrix. -/
def cholesky (lg n : Nat) (a : Nat → Nat → F32) : Factored := (List.range n).foldl (cholRow lg a) {}

/-- Row i of the LDLᵀ factor: L below the diagonal, d beside it (R251). -/
def ldlRow (lg npos : Nat) (a : Nat → Nat → F32) (p : Factored) (i : Nat) : Factored :=
  let scaled (j : Nat) (k : Nat) : F32 := f32Mul (entry p.rows j k) (nth p.diag k)
  let off := buildRow i (fun r j =>
    f32Div (f32Sub (a i j) (dotTerms lg (termsOf 0 j (nth r) (scaled j)))) (nth p.diag j))
  let d := f32Sub (a i i) (dotTerms lg (termsOf 0 i (nth off) (fun k => f32Mul (nth off k) (nth p.diag k))))
  let ok := f32IsFin d && (if i < npos then f32Lt 0 d else f32Lt d 0)
  let q := notePivot i ok d p.bad
  { rows := p.rows ++ [off ++ [f32One]], diag := p.diag ++ [q.1], bad := q.2 }

/-- The LDLᵀ factor of an n × n matrix. -/
def ldl (lg npos n : Nat) (a : Nat → Nat → F32) : Factored := (List.range n).foldl (ldlRow lg npos a) {}

/-- Forward substitution on a lower triangle. -/
def forward (lg n : Nat) (t : Nat → Nat → F32) (b : Nat → F32) : List F32 :=
  buildRow n (fun y i => f32Div (f32Sub (b i) (dotTerms lg (termsOf 0 i (t i) (nth y)))) (t i i))

/-- Back substitution on an upper triangle: component n − 1 first. -/
def backward (lg n : Nat) (t : Nat → Nat → F32) (b : Nat → F32) : List F32 :=
  (List.range n).reverse.foldl (fun x i =>
    f32Div (f32Sub (b i) (dotTerms lg (termsOf (i + 1) n (t i) (fun k => nth x (k - i - 1))))) (t i i) :: x) []

/-- Solve with a Cholesky factor. -/
def cholSolve (lg n : Nat) (f : Factored) (b : Nat → F32) : List F32 :=
  let y := forward lg n (entry f.rows) b
  backward lg n (fun i k => entry f.rows k i) (nth y)

/-- Solve with an LDLᵀ factor. -/
def ldlSolve (lg n : Nat) (f : Factored) (b : Nat → F32) : List F32 :=
  let y := forward lg n (entry f.rows) b
  backward lg n (fun i k => entry f.rows k i) (fun i => f32Div (nth y i) (nth f.diag i))

/-! ### Householder QR (R251) -/

/-- Apply a reflection (I − 2 v vᵀ / vᵀv) to a column from row k on. -/
def reflect (lg n k : Nat) (v : List F32) (vv : F32) (col : List F32) : List F32 :=
  let w := f32Div (f32Mul 0x40000000 (dotTerms lg (termsOf k n (nth v) (nth col)))) vv
  mapIdx (fun i x => if i < k then x else f32Fma (f32Minus w) (nth v i) x) 0 col

/-- One column of the triangularisation: columns (the right-hand side last) and the diagonal so far. -/
def qrStep (lg n : Nat) (p : Mat × Factored) (k : Nat) : Mat × Factored :=
  let c := nth p.1 k
  let norm := f32Sqrt (dotTerms lg (termsOf k n (nth c) (nth c)))
  let alpha := if f32Neg (nth c k) then norm else f32Minus norm
  let v := mapIdx (fun i x => if i = k then f32Sub x alpha else x) 0 c
  let vv := dotTerms lg (termsOf k n (nth v) (nth v))
  let ok := f32IsFin alpha && !(f32Val alpha == 0)
  let q := notePivot k ok alpha p.2.bad
  (mapIdx (fun j col => if j ≤ k then col else if ok then reflect lg n k v vv col else col) 0 p.1,
   { p.2 with diag := p.2.diag ++ [q.1], bad := q.2 })

/-- The least-squares solution of an n × m system and its failed pivot. -/
def qrSolve (lg n m : Nat) (a : Nat → Nat → F32) (b : Nat → F32) : List F32 × Option Nat :=
  let cols := (List.range m).map (fun j => (List.range n).map (fun i => a i j)) ++ [(List.range n).map b]
  let r := (List.range m).foldl (qrStep lg n) (cols, {})
  (backward lg m (fun i k => if i = k then nth r.2.diag i else entry r.1 k i) (nth (nth r.1 m)), r.2.bad)

/-! ### Values of a problem (R250) -/

/-- Column of stored nonzero k of a compressed-column pattern. -/
def colOf (pat : List Nat) (m k : Nat) : Nat := ((List.range m).filter (fun j => nth pat (j + 1) ≤ k)).length

/-- The stored entry (i, j) of a sparse matrix; 0 where none is stored. -/
def sparseEntry (pat : List Nat) (m nnz : Nat) (mat : List F32) (i j : Nat) : F32 :=
  match (List.range nnz).find? (fun k => nth pat (m + 1 + k) == i && colOf pat m k == j) with
  | some k => nth mat k
  | none => 0

/-- The stored entry (i, j) of a problem's matrix. -/
def storedEntry (c : ProbCfg) (mat : List F32) (i j : Nat) : F32 :=
  if c.sparse then sparseEntry c.pat c.m c.nnz mat i j else nth mat (i * c.m + j)

/-- Entry (i, j) of a symmetric matrix kept as its lower triangle. -/
def symEntry (c : ProbCfg) (mat : List F32) (i j : Nat) : F32 :=
  if j ≤ i then storedEntry c mat i j else storedEntry c mat j i

/-! ### Box-constrained QP (R254, R256) -/

/-- Clamp into a bound pair; NaN stays. -/
def clampF (lo hi x : F32) : F32 := if f32Lt x lo then lo else if f32Lt hi x then hi else x

/-- The iterates of ADMM. -/
structure Admm where
  z : List F32 := []
  y : List F32 := []
  resid : F32 := 0
  deriving DecidableEq, Repr, Inhabited

/-- One iteration of R254, in the six element steps that R271 counts. [DESIGN CHOICE, log 12] -/
def admmStep (c : ProbCfg) (f : Factored) (v : ProbVals) (rho : F32) (s : Admm) : Admm :=
  let n := c.m
  let x := cholSolve c.lg n f (fun i => f32Fma rho (f32Sub (nth s.z i) (nth s.y i)) (f32Minus (nth v.b i)))
  let beta := f32Sub f32One c.alpha
  let xr := (List.range n).map (fun i => f32Fma c.alpha (nth x i) (f32Mul beta (nth s.z i)))
  let w := (List.range n).map (fun i => f32Add (nth xr i) (nth s.y i))
  let z := (List.range n).map (fun i => clampF (nth v.l i) (nth v.u i) (nth w i))
  { z := z, y := (List.range n).map (fun i => f32Sub (nth w i) (nth z i)),
    resid := (List.range n).foldl (fun m i =>
      let d := f32Abs (f32Sub (nth xr i) (nth z i))
      if f32IsNaN d || f32IsNaN m then f32NaN else f32Max m d) 0 }

/-- Iterate a step n times. -/
def iterate {α : Type} (f : α → α) : Nat → α → α
  | 0, x => x
  | n + 1, x => iterate f n (f x)

/-- The cold start: 0 clamped into the bounds. -/
def coldX (c : ProbCfg) (v : ProbVals) : List F32 := (List.range c.m).map (fun i => clampF (nth v.l i) (nth v.u i) 0)

/-- A fixed-iteration job of OP 5 (R254). -/
def admmJob (c : ProbCfg) (v : ProbVals) (seed : Option (List F32 × List F32)) (iters : Nat) : JobOut :=
  let f := cholesky c.lg c.m (fun i j => let a := symEntry c v.mat i j; if i = j then f32Add a v.rho else a)
  let s0 : Admm := match seed with
    | some q => { z := q.1, y := q.2 }
    | none => { z := coldX c v, y := List.replicate c.m 0 }
  let r := iterate (admmStep c f v v.rho) iters s0
  { x := r.z, pivot := f.bad, iters := iters, z := r.z, y := r.y, resid := r.resid }

/-- A bound that is active: none, the lower, or the upper one; kept in the warm start as 0, −1 or 1. -/
def atBound (c : F32) : Int := if c = 0 then 0 else if f32Neg c then -1 else 1

/-- An iterate of the active-set method. -/
structure ActSet where
  x : List F32 := []
  act : List F32 := []
  bad : Option Nat := none
  conv : Bool := false
  n : Nat := 0
  deriving DecidableEq, Repr, Inhabited

/-- The gradient P x + q. -/
def gradient (c : ProbCfg) (v : ProbVals) (x : List F32) (i : Nat) : F32 :=
  f32Add (dotTerms c.lg (termsOf 0 c.m (symEntry c v.mat i) (nth x))) (nth v.b i)

/-- The bound on the way of free variable i with step d: how far the step goes, and which bound stops it. -/
def blocks (v : ProbVals) (x : List F32) (i : Nat) (d : F32) : Option (F32 × F32) :=
  if f32Lt 0 d then some (f32Div (f32Sub (nth v.u i) (nth x i)) d, f32One)
  else if f32Lt d 0 then some (f32Div (f32Sub (nth v.l i) (nth x i)) d, f32Minus f32One)
  else none

/-- One iteration of R256: the step on the free variables to the minimiser or the first bound that blocks it, else the bound whose
multiplier is most negative is dropped, else the job has converged. [DESIGN CHOICE, log 12] -/
def actStep (c : ProbCfg) (v : ProbVals) (s : ActSet) : ActSet :=
  if s.conv then s
  else
    let free := (List.range c.m).filter (fun i => nth s.act i = 0)
    let g := (List.range c.m).map (gradient c v s.x)
    let f := cholesky c.lg free.length (fun i j => symEntry c v.mat (nth free i) (nth free j))
    let d := cholSolve c.lg free.length f (fun i => f32Minus (nth g (nth free i)))
    let stops := (mapIdx (fun k i => (i, blocks v s.x i (nth d k))) 0 free).filterMap (fun p => p.2.map (fun q => (p.1, q)))
    let first := stops.foldl (fun (m : Option (Nat × F32 × F32)) p => match m with
      | none => some p
      | some q => if f32Lt p.2.1 q.2.1 then some p else some q) none
    let move (a : F32) : List F32 := mapIdx (fun i x => match free.findIdx? (· == i) with
      | some k => clampF (nth v.l i) (nth v.u i) (f32Fma a (nth d k) x)
      | none => x) 0 s.x
    let bad := f.bad.map (nth free)
    match first.bind (fun p => if f32Lt p.2.1 f32One then some p else none) with
    | some (i, a, b) =>
      { s with
        x := updAt (move a) i (fun _ => if f32Neg b then nth v.l i else nth v.u i), act := updAt s.act i (fun _ => b),
        bad := s.bad.orElse (fun _ => bad), n := s.n + 1 }
    | none =>
      let x := move f32One
      let mult (i : Nat) : F32 := if f32Neg (nth s.act i) then gradient c v x i else f32Minus (gradient c v x i)
      let held := (List.range c.m).filter (fun i => nth s.act i != 0 && f32Lt (mult i) (f32Minus c.tol))
      let worst := held.foldl (fun (m : Option Nat) i => match m with
        | none => some i
        | some j => if f32Lt (mult i) (mult j) then some i else some j) none
      match worst with
      | some i => { s with x := x, act := updAt s.act i (fun _ => 0), bad := s.bad.orElse (fun _ => bad), n := s.n + 1 }
      | none => { s with x := x, bad := s.bad.orElse (fun _ => bad), conv := true, n := s.n + 1 }

/-- An anytime job of OP 5 (R256). -/
def activeJob (c : ProbCfg) (v : ProbVals) (seed : Option (List F32 × List F32)) (iters : Nat) : JobOut :=
  let x0 := coldX c v
  let s0 : ActSet := match seed with
    | some q => { x := (List.range c.m).map (fun i => clampF (nth v.l i) (nth v.u i) (nth q.1 i)), act := q.2 }
    | none => { x := x0, act := (List.range c.m).map (fun i =>
        if nth x0 i = nth v.l i then f32Minus f32One else if nth x0 i = nth v.u i then f32One else 0) }
  let r := iterate (actStep c v) iters s0
  { x := r.x, pivot := r.bad, iters := r.n, conv := r.conv, z := r.x, y := r.act }

/-! ### Jobs (R251) -/

/-- The outcome of a job of a problem over its values, its warm start and at most `iters` iterations. -/
def solveJob (c : ProbCfg) (v : ProbVals) (seed : Option (List F32 × List F32)) (iters : Nat) : JobOut :=
  match c.op with
  | 1 =>
    let f := cholesky c.lg c.n (symEntry c v.mat)
    { x := cholSolve c.lg c.n f (nth v.b), pivot := f.bad }
  | 2 =>
    let f := ldl c.lg c.npos c.n (symEntry c v.mat)
    { x := ldlSolve c.lg c.n f (nth v.b), pivot := f.bad }
  | 3 =>
    let r := qrSolve c.lg c.n c.m (storedEntry c v.mat) (nth v.b)
    { x := r.1, pivot := r.2 }
  | 4 =>
    let d (i : Nat) : F32 := storedEntry c v.mat i i
    let bad := (List.range c.n).find? (fun i => !f32IsFin (d i) || f32Val (d i) == 0)
    let t (i j : Nat) : F32 := if i = j ∧ (!f32IsFin (d i) || f32Val (d i) == 0) then f32NaN else storedEntry c v.mat i j
    { x := if c.uplo then backward c.lg c.n t (nth v.b) else forward c.lg c.n t (nth v.b), pivot := bad }
  | _ => if c.anytime then activeJob c v seed iters else admmJob c v seed iters

end Sys2Proof.Machine
end

