-- ==== Sys2Proof/Machine/Kde.lean ====
section
/-! DEFINITION. Kde.lean: the arithmetic of the kinematics and dynamics block (R230, R239 to R243): joint coordinates, forward
kinematics, Jacobians, recursive Newton–Euler, and damped least squares. All of it is binary32 with fused multiply-adds; where the
manual gives no order of the operations, the chains run in ascending index order, as R247 gives them for the solver.
[DESIGN CHOICE, log 11] -/

namespace Sys2Proof.Machine

/-! ### Vectors -/

/-- Sum of two vectors. -/
def vAdd (a b : List F32) : List F32 := (List.range 3).map (fun i => f32Add (nth a i) (nth b i))

/-- Difference of two vectors. -/
def vSub (a b : List F32) : List F32 := (List.range 3).map (fun i => f32Sub (nth a i) (nth b i))

/-- A vector times a number. -/
def vScale (k : F32) (a : List F32) : List F32 := (List.range 3).map (fun i => f32Mul k (nth a i))

/-- u_i v_j − u_j v_i. -/
def minor (u v : List F32) (i j : Nat) : F32 := f32Fma (nth u i) (nth v j) (f32Minus (f32Mul (nth u j) (nth v i)))

/-- Cross product. -/
def cross (u v : List F32) : List F32 := [minor u v 1 2, minor u v 2 0, minor u v 0 1]

/-- A 3 × 3 matrix, row by row, times a vector. -/
def mulVec (r v : List F32) : List F32 := (List.range 3).map (fun i => f32Dot ((r.drop (3 * i)).take 3) (v.take 3))

/-- Its transpose times a vector. -/
def mulVecT (r v : List F32) : List F32 := (List.range 3).map (fun j => f32Dot [nth r j, nth r (3 + j), nth r (6 + j)] (v.take 3))

/-- Product of two 3 × 3 matrices. -/
def mulMat (a b : List F32) : List F32 :=
  (List.range 9).map (fun k => f32Dot ((a.drop (3 * (k / 3))).take 3) [nth b (k % 3), nth b (3 + k % 3), nth b (6 + k % 3)])

/-! ### Joint coordinates (R214, R239) -/

/-- The exact joint position in 2^-24 count from ZERO, modulo REV for an endless joint. -/
def jointCount (j : JointCfg) (p : Pos) : Int :=
  let d := posDiff p j.zero
  if j.rev = 0 then d else d % j.rev.toInt

/-- The coordinate of a joint: one rounding of the exact value, then the division by SCALE. -/
def jointCoord (j : JointCfg) (p : Pos) : F32 := f32Div (f32OfRat ((jointCount j p : Rat) / 16777216)) j.scale

/-- A velocity of 16 fraction bits per tick in joint units per second: divided by SCALE × period. -/
def jointRate (j : JointCfg) (period : F32) (v : BitVec 32) : F32 :=
  f32Div (f32OfRat ((v.toInt : Rat) / 65536)) (f32Mul j.scale period)

/-- An acceleration of 16 fraction bits per tick² in joint units per second²: divided by SCALE × period². -/
def jointAccel (j : JointCfg) (period : F32) (v : BitVec 32) : F32 :=
  f32Div (f32OfRat ((v.toInt : Rat) / 65536)) (f32Mul j.scale (f32Mul period period))

/-! ### Sine and cosine (R243) -/

/-- The binary32 next to x away from 0, or towards it. -/
def stepMag (away : Bool) (x : F32) : F32 := if away then x + 1 else x - 1

/-- One of the two binary32 values around a value that is none itself: an error below 1 ulp. -/
def oneUlp (up : Bool) (r : Rat) : F32 :=
  let n := f32OfRat r
  if f32Val n = r then n
  else if f32Val n < r then (if up then stepMag (!f32Neg n) n else n)
  else if up then n else stepMag (f32Neg n) n

/-- Sine of a joint coordinate. -/
def f32Sin (q : F32) : F32 := if f32Special q then f32NaN else oneUlp (Config.trigUp true q) (sinR (f32Val q))

/-- Cosine of a joint coordinate. -/
def f32Cos (q : F32) : F32 := if f32Special q then f32NaN else oneUlp (Config.trigUp false q) (cosR (f32Val q))

/-! ### Forward kinematics (R240) -/

/-- 1 − 2 (a² + b²). -/
def rotDiag (a b : F32) : F32 := f32Sub f32One (f32Mul 0x40000000 (f32Fma a a (f32Mul b b)))

/-- 2 (a b + c d). -/
def rotOff (a b c d : F32) : F32 := f32Mul 0x40000000 (f32Fma a b (f32Mul c d))

/-- The rotation matrix of a quaternion w, x, y, z, used as stored (R238). -/
def quatMat (q : List F32) : List F32 :=
  let w := nth q 0
  let x := nth q 1
  let y := nth q 2
  let z := nth q 3
  let m := f32Minus w
  [rotDiag y z, rotOff x y m z, rotOff x z w y, rotOff x y w z, rotDiag x z, rotOff y z m x, rotOff x z m y, rotOff y z w x, rotDiag x y]

/-- The position of a pose record. -/
def recPos (t : List F32) : List F32 := t.take 3

/-- The rotation matrix of a pose record. -/
def recRot (t : List F32) : List F32 := t.drop 3

/-- The pose record of a frame given as position and quaternion. -/
def frameRec (f : List F32) : List F32 := [nth f 0, nth f 1, nth f 2] ++ quatMat (f.drop 3)

/-- The world's own pose record. -/
def unitRec : List F32 := [0, 0, 0, f32One, 0, 0, 0, f32One, 0, 0, 0, f32One]

/-- A frame in a pose record's frame. -/
def placed (t f : List F32) : List F32 := vAdd (recPos t) (mulVec (recRot t) (f.take 3)) ++ mulMat (recRot t) (quatMat (f.drop 3))

/-- Column j of a rotation matrix. -/
def rotCol (r : List F32) (j : Nat) : List F32 := [nth r j, nth r (3 + j), nth r (6 + j)]

/-- A joint's motion in its frame: Rot_z(q), or Trans_z(q) for a prismatic joint. -/
def moved (prismatic : Bool) (q : F32) (t : List F32) : List F32 :=
  if prismatic then vAdd (recPos t) (vScale q (rotCol (recRot t) 2)) ++ recRot t
  else
    let c := f32Cos q
    let s := f32Sin q
    let r := recRot t
    recPos t ++ (List.range 3).flatMap (fun i =>
      let a := nth r (3 * i)
      let b := nth r (3 * i + 1)
      [f32Fma c a (f32Mul s b), f32Fma c b (f32Minus (f32Mul s a)), nth r (3 * i + 2)])

/-- Poses of link 0 to link NJ and of the tool, from the joint coordinates and the record that carries the base frame. -/
def linkPoses (c : GroupCfg) (q : List F32) (base : List F32) : List (List F32) :=
  let t0 := if base.isEmpty then frameRec c.base else placed base c.base
  let l := (List.range c.nj).foldl (fun (l : List (List F32)) i =>
    let j := nth c.joints i
    l ++ [moved j.prismatic (nth q i) (placed (nth l i) j.frame)]) [t0]
  l ++ [placed (nth l c.nj) c.tool]

/-- Pose records from positions of the chain joints. [DESIGN CHOICE, log 11] -/
def kdePoses (c : GroupCfg) (p : List Pos) (base : List F32) : List (List F32) :=
  linkPoses c (mapIdx (fun i x => jointCoord (nth c.joints i) x) 0 p) base

/-! ### Jacobian (R241) -/

/-- The column of joint i: velocity and rotation of the tool per unit of the joint, in world. -/
def jacColumn (c : GroupCfg) (t : List (List F32)) (i : Nat) : List F32 :=
  let z := rotCol (recRot (nth t (i + 1))) 2
  if (nth c.joints i).prismatic then z ++ [0, 0, 0]
  else cross z (vSub (recPos (nth t (c.nj + 1))) (recPos (nth t (i + 1)))) ++ z

/-- The tool Jacobian, column by column. [DESIGN CHOICE, log 11] -/
def kdeJacobian (c : GroupCfg) (t : List (List F32)) : List F32 := (List.range c.nj).flatMap (jacColumn c t)

/-- Distance of two positions in metres divided by a time in ns, in mm/s, rounded half up. [DESIGN CHOICE, log 11] -/
def tcpSpeed (a b : List F32) (ns : Nat) : Nat :=
  let d (i : Nat) : Rat := f32Val (nth a i) - f32Val (nth b i)
  rootHalfUp ((d 0 * d 0 + d 1 * d 1 + d 2 * d 2) * 1000000000000000000000000 / ((ns * ns : Nat) : Rat))

/-! ### Inverse dynamics (R242) -/

/-- Motion of a link: angular velocity and acceleration, and the acceleration of its origin, in world. -/
structure LinkMot where
  w : List F32 := [0, 0, 0]
  wd : List F32 := [0, 0, 0]
  a : List F32 := [0, 0, 0]
  deriving DecidableEq, Repr, Inhabited

/-- A group's motion as the dynamics take it: joint coordinates, rates and accelerations. -/
structure DynIn where
  g : Nat := 0
  cfg : GroupCfg := {}
  q : List F32 := []
  qd : List F32 := []
  qdd : List F32 := []
  deriving DecidableEq, Repr, Inhabited

/-- A group with the poses and motions of its links. -/
structure DynGrp where
  inp : DynIn := {}
  recs : List (List F32) := []
  mots : List LinkMot := []
  deriving DecidableEq, Repr, Inhabited

/-- A force and a moment about a point, all in world. -/
structure Wrench where
  f : List F32 := [0, 0, 0]
  n : List F32 := [0, 0, 0]
  p : List F32 := [0, 0, 0]
  deriving DecidableEq, Repr, Inhabited

/-- Acceleration of a point at r from an origin that moves so. -/
def pointAcc (m : LinkMot) (r : List F32) : List F32 := vAdd m.a (vAdd (cross m.wd r) (cross m.w (cross m.w r)))

/-- Motion of the next link: a joint about or along z at p, with its rate and acceleration, from the link before at p0. -/
def nextMot (prismatic : Bool) (z p p0 : List F32) (qd qdd : F32) (m : LinkMot) : LinkMot :=
  let a := pointAcc m (vSub p p0)
  let zd := vScale qd z
  if prismatic then { m with a := vAdd a (vAdd (vScale qdd z) (vScale 0x40000000 (cross m.w zd))) }
  else { w := vAdd m.w zd, wd := vAdd m.wd (vAdd (vScale qdd z) (cross m.w zd)), a := a }

/-- Motions of the links of a group from that of its link 0. -/
def linkMots (d : DynIn) (t : List (List F32)) (m0 : LinkMot) : List LinkMot :=
  (List.range d.cfg.nj).foldl (fun l i =>
    l ++ [nextMot (nth d.cfg.joints i).prismatic (rotCol (recRot (nth t (i + 1))) 2) (recPos (nth t (i + 1))) (recPos (nth t i))
      (nth d.qd i) (nth d.qdd i) (nth l i)]) [m0]

/-- The forward pass of one group after the groups before it. -/
def dynForward (l : List DynGrp) (d : DynIn) : List DynGrp :=
  match l.find? (fun x => x.inp.g == d.cfg.baseg) with
  | some b =>
    let br := nth b.recs d.cfg.baselink
    let bm := nth b.mots d.cfg.baselink
    let t := linkPoses d.cfg d.q br
    l ++ [{ inp := d, recs := t, mots := linkMots d t { bm with a := pointAcc bm (vSub (recPos (nth t 0)) (recPos br)) } }]
  | none =>
    let t := linkPoses d.cfg d.q []
    l ++ [{ inp := d, recs := t, mots := linkMots d t {} }]

/-- An inertia tensor times a vector: Ixx, Iyy, Izz, Ixy, Ixz, Iyz. -/
def inerVec (i v : List F32) : List F32 :=
  mulVec [nth i 0, nth i 3, nth i 4, nth i 3, nth i 1, nth i 5, nth i 4, nth i 5, nth i 2] v

/-- The wrench about p that moves a body so: its mass, centre and inertia in a frame of a pose record, the motion of its link, and
gravity. -/
def bodyWrench (m : LinkMot) (p t : List F32) (mass : F32) (com iner grav : List F32) : Wrench :=
  let r := vSub (vAdd (recPos t) (mulVec (recRot t) com)) p
  let f := vScale mass (vSub (pointAcc m r) grav)
  let w := mulVecT (recRot t) m.w
  let n := vAdd (inerVec iner (mulVecT (recRot t) m.wd)) (cross w (inerVec iner w))
  { f := f, n := vAdd (mulVec (recRot t) n) (cross r f), p := p }

/-- A wrench moved to another point. -/
def Wrench.at (x : Wrench) (p : List F32) : Wrench := { f := x.f, n := vAdd x.n (cross (vSub x.p p) x.f), p := p }

/-- Two wrenches, the second taken at the point of the first. -/
def Wrench.plus (x y : Wrench) : Wrench :=
  let z := y.at x.p
  { x with f := vAdd x.f z.f, n := vAdd x.n z.n }

/-- The bodies of link i: the link itself, and the payload on the last one. -/
def linkWrench (d : DynGrp) (i : Nat) : Wrench :=
  let c := d.inp.cfg
  let k := (nth c.joints (i - 1)).inertial
  let p := recPos (nth d.recs i)
  let m := nth d.mots i
  let own := bodyWrench m p (nth d.recs i) (nth k 0) ((k.drop 1).take 3) ((k.drop 4).take 6) c.grav
  if c.payload && i == c.nj then own.plus (bodyWrench m p (nth d.recs (c.nj + 1)) c.pmass c.pcom c.piner c.grav) else own

/-- The wrenches of a group's links from the last to link 0: each link's own, those of the groups that stand on it, and the next
link's. -/
def linkWrenches (deps : List (Nat × Nat × Wrench)) (d : DynGrp) : List Wrench :=
  (List.range (d.inp.cfg.nj + 1)).reverse.foldl (fun l i =>
    let own := if i = 0 then { p := recPos (nth d.recs 0) } else linkWrench d i
    let held := (deps.filter (fun x => x.1 == d.inp.g && x.2.1 == i)).foldl (fun (w : Wrench) x => w.plus x.2.2) own
    (match l with | n :: _ => held.plus n | [] => held) :: l) []

/-- sign(x), 0 at 0. -/
def f32Sign (x : F32) : F32 := if f32IsFin x && f32Val x == 0 then 0 else if f32Neg x then f32Minus f32One else f32One

/-- The torque or force of joint i from the wrench of its link (R242). -/
def jointTorque (d : DynGrp) (i : Nat) (w : Wrench) : F32 :=
  let j := nth d.inp.cfg.joints i
  let z := rotCol (recRot (nth d.recs (i + 1))) 2
  let qd := nth d.inp.qd i
  let t := f32Dot z (if j.prismatic then w.f else w.n)
  let t := f32Fma (nth j.inertial 12) (nth d.inp.qdd i) t
  let t := f32Fma (nth j.inertial 10) qd t
  f32Fma (nth j.inertial 11) (f32Sign qd) t

/-- The backward passes: torques by group, and the wrenches that groups put on their base links. -/
def dynBackward (p : List (Nat × List F32) × List (Nat × Nat × Wrench)) (d : DynGrp) : List (Nat × List F32) × List (Nat × Nat × Wrench) :=
  let c := d.inp.cfg
  if !c.dynOn then p
  else
    let w := linkWrenches p.2 d
    let t := (List.range c.nj).map (fun i =>
      f32Mul (f32Div (jointTorque d i (nth w (i + 1))) (nth c.joints i).rated) 0x47800000)
    ((d.inp.g, t) :: p.1, (c.baseg, c.baselink, nth w 0) :: p.2)

/-- Torques in 2^-16 of rated torque for every group of a block, its groups in base order (R237, R242). -/
def kdeTorques (l : List DynIn) : List (Nat × List F32) :=
  ((l.foldl dynForward []).reverse.foldl dynBackward ([], [])).1

/-! ### Damped least squares (R230) -/

/-- The rows of a Jacobian that a task mask selects. -/
def taskRows (mask : BitVec 6) (nj : Nat) (jac : List F32) : Mat :=
  ((List.range 6).filter (fun r => mask.getLsbD r)).map (fun r => (List.range nj).map (fun i => nth jac (6 * i + r)))

/-- j × jᵀ + d on the diagonal. -/
def gram (j : Mat) (d : F32) (a b : Nat) : F32 :=
  let x := f32Dot (nth j a) (nth j b)
  if a = b then f32Add x d else x

/-- jᵀ × v. -/
def rowsT (j : Mat) (nj : Nat) (v : List F32) : List F32 := (List.range nj).map (fun i => f32Dot (j.map (fun r => nth r i)) v)

/-- dq of R230: the damped step towards e, and what of z leaves the task alone. Where j × jᵀ has no Cholesky factor the part of z is
left out. [DESIGN CHOICE, log 11] -/
def dlsStep (j : Mat) (nj : Nat) (damp : F32) (e z : List F32) : List F32 :=
  let m := j.length
  let f := cholesky 1 m (gram j (f32Mul damp damp))
  let dq := rowsT j nj (cholSolve 1 m f (nth e))
  if z.isEmpty then dq
  else
    let h := cholesky 1 m (gram j 0)
    if h.bad.isSome then dq
    else
      let back := rowsT j nj (cholSolve 1 m h (nth (j.map (fun r => f32Dot r z))))
      (List.range nj).map (fun i => f32Add (nth dq i) (f32Sub (nth z i) (nth back i)))

/-- The rotation vector from one rotation matrix to another. [DESIGN CHOICE, log 11] -/
def rotError (want have_ : List F32) : List F32 :=
  let r (i j : Nat) : Rat := ((List.range 3).map (fun k => f32Val (nth want (3 * i + k)) * f32Val (nth have_ (3 * j + k)))).foldl (· + ·) 0
  let s : List Rat := [(r 2 1 - r 1 2) / 2, (r 0 2 - r 2 0) / 2, (r 1 0 - r 0 1) / 2]
  let n := sqrtR (s.foldl (fun a x => a + x * x) 0)
  let k : Rat := if n = 0 then 1 else atan2R n ((r 0 0 + r 1 1 + r 2 2 - 1) / 2) / n
  s.map (fun x => f32OfRat (k * x))

/-- The pose error of R230: six rows. -/
def poseError (want have_ : List F32) : List F32 := vSub (recPos want) (recPos have_) ++ rotError (recRot want) (recRot have_)

/-- The rows of a vector that a task mask selects. -/
def maskRows (mask : BitVec 6) (e : List F32) : List F32 := ((List.range 6).filter (fun r => mask.getLsbD r)).map (fun r => nth e r)

/-- One iteration of R230 in the group's base frame. -/
def ikStep (c : GroupCfg) (want z q : List F32) : List F32 :=
  let t := linkPoses { c with base := [] } q []
  let j := taskRows c.taskmask c.nj (kdeJacobian c t)
  let e := maskRows c.taskmask (poseError want (nth t (c.nj + 1)))
  let dq := dlsStep j c.nj c.damp e z
  (List.range c.nj).map (fun i => f32Add (nth q i) (nth dq i))

/-- The three iterations of R230 from joint coordinates. -/
def ikSolve (c : GroupCfg) (want z q : List F32) : List F32 := iterate (ikStep c want z) 3 q

/-- The position error in µm, rounded half up, and whether it or the orientation error exceeds its tolerance (R231). -/
def ikResidual (c : GroupCfg) (want q : List F32) : Nat × Bool :=
  let e := poseError want (nth (linkPoses { c with base := [] } q []) (c.nj + 1))
  let sq (l : List F32) : Rat := l.foldl (fun a x => a + f32Val x * f32Val x) 0
  let m (k : Nat) (x : F32) : F32 := if c.taskmask.getLsbD k then x else 0
  let e := mapIdx m 0 e
  let tol := f32Val c.iktol
  let p := sq (e.take 3)
  (rootHalfUp (p * 1000000000000), e.any f32Special || tol * tol < p || tol * tol * 100 < sq (e.drop 3))

/-- A joint coordinate as a position: the inverse of R239, rounded half up; an endless joint takes the turn next to where it was. [DESIGN CHOICE, log 11] -/
def jointPos (j : JointCfg) (prev : Pos) (q : F32) : Pos :=
  let p := j.zero + posOf (roundHalfUp (f32Val q * f32Val j.scale * 16777216))
  if j.rev = 0 then p
  else
    let d := posDiff p prev % j.rev.toInt
    prev + posOf (if j.rev.toInt < 2 * d then d - j.rev.toInt else d)

end Sys2Proof.Machine
end

