-- ==== Sys2Proof/Machine/Path.lean ====
section
/-! DEFINITION. Path.lean: the path of a segment (R219, R223, R224, R226 to R228): limits, the seven-phase profile, halting, and the
Cartesian poses. The values are the exact ones of the rules' formulas, with roots and angles to 2^-64 or better; the roundings of
binary64 on the way, whose order the manual does not give, are left out. [DESIGN CHOICE, log 10] -/

namespace Sys2Proof.Machine

/-- Path parameter 1, in units of 2^-64. -/
def fullS : Nat := 18446744073709551616

/-- A path parameter as a number from 0 to 1. -/
def paramOf (s : Nat) : Rat := (s : Rat) / (fullS : Rat)

/-- A path time of 2^-45 tick in ticks. -/
def ticksOf (t : Nat) : Rat := (t : Rat) / 35184372088832

/-- A Cartesian segment. -/
def cartesian (x : Segment) : Bool := x.kind = 2 || x.kind = 3

/-- A joint segment. -/
def jointKind (x : Segment) : Bool := x.kind = 1 || x.kind = 5

/-! ### Vectors of rationals -/

/-- Sum of products. -/
def rDot (u v : List Rat) : Rat := (u.zip v).foldl (fun a p => a + p.1 * p.2) 0

/-- Sum. -/
def rAdd (u v : List Rat) : List Rat := (u.zip v).map (fun p => p.1 + p.2)

/-- Difference. -/
def rSub (u v : List Rat) : List Rat := (u.zip v).map (fun p => p.1 - p.2)

/-- A vector times a number. -/
def rScale (k : Rat) (v : List Rat) : List Rat := v.map (fun x => k * x)

/-- Cross product. -/
def rCross (u v : List Rat) : List Rat :=
  let m (i j : Nat) : Rat := nth u i * nth v j - nth u j * nth v i
  [m 1 2, m 2 0, m 0 1]

/-- Length. -/
def rNorm (v : List Rat) : Rat := sqrtR (rDot v v)

/-- Product of quaternions w, x, y, z. -/
def qMul (a b : List Rat) : List Rat :=
  let u := a.drop 1
  let v := b.drop 1
  (nth a 0 * nth b 0 - rDot u v) :: rAdd (rAdd (rScale (nth a 0) v) (rScale (nth b 0) u)) (rCross u v)

/-- Conjugate. -/
def qConj (a : List Rat) : List Rat := nth a 0 :: rScale (-1) (a.drop 1)

/-- A quaternion of length 1; the unit where there is none. -/
def qUnit (a : List Rat) : List Rat := if rNorm a = 0 then [1, 0, 0, 0] else rScale (1 / rNorm a) a

/-- A vector turned by a unit quaternion. -/
def qTurn (q v : List Rat) : List Rat := (qMul (qMul q (0 :: v)) (qConj q)).drop 1

/-- The rotation matrix of a quaternion, row by row, as binary32. -/
def qMat (q : List Rat) : List F32 :=
  let c := [qTurn q [1, 0, 0], qTurn q [0, 1, 0], qTurn q [0, 0, 1]]
  (List.range 9).map (fun k => f32OfRat (nth (nth c (k % 3)) (k / 3)))

/-! ### Tool poses of the generator -/

/-- A frame's position and quaternion. -/
def frameR (f : List F32) : List Rat := (List.range 7).map (fun i => if i = 3 && f.isEmpty then 1 else f32Val (nth f i))

/-- A frame in the frame of a pose. -/
def placeR (t f : List Rat) : List Rat := rAdd (t.take 3) (qTurn (t.drop 3) (f.take 3)) ++ qMul (t.drop 3) (f.drop 3)

/-- The tool pose in the group's base frame at joint positions (R217). -/
def toolPose (c : GroupCfg) (p : List Pos) : List Rat :=
  let t := (List.range c.nj).foldl (fun t i =>
    let j := nth c.joints i
    let q : Rat := if f32Val j.scale = 0 then 0 else (jointCount j (nth p i) : Rat) / 16777216 / f32Val j.scale
    placeR (placeR t (frameR j.frame))
      (if j.prismatic then [0, 0, q, 1, 0, 0, 0] else [0, 0, 0, cosR (q / 2), 0, 0, sinR (q / 2)])) [0, 0, 0, 1, 0, 0, 0]
  let e := placeR t (frameR c.tool)
  e.take 3 ++ qUnit (e.drop 3)

/-! ### Lines, arcs and turns -/

/-- The end pose of a Cartesian segment. -/
def endPose (x : Segment) : List Rat := (x.pose.take 3).map f32Val ++ qUnit (((x.pose.drop 3).take 4).map f32Val)

/-- Half the orientation angle between the end poses, and the end orientation on the nearer side of the start. [DESIGN CHOICE, log 10] -/
def turnOf (p : PathIn) : Rat × List Rat :=
  let a := p.pose0.drop 3
  let b := (endPose p.seg).drop 3
  let d := rDot a b
  let b := if d < 0 then rScale (-1) b else b
  let r := if d < 0 then -d else d
  (if 1 ≤ r then 0 else atan2R (sqrtR (1 - r * r)) r, b)

/-- An arc: centre, radius vector of the start, the vector a quarter turn on, and its angle. -/
structure Arc where
  c : List Rat := []
  u : List Rat := []
  v : List Rat := []
  phi : Rat := 0
  deriving DecidableEq, Repr, Inhabited

/-- The arc from the start through the via point to the end of a circle segment (R217, R223). -/
def arcOf (p : PathIn) : Arc :=
  let p0 := p.pose0.take 3
  let a := rSub ((p.seg.pose.drop 7).take 3 |>.map f32Val) p0
  let b := rSub ((endPose p.seg).take 3) p0
  let n := rCross a b
  let nn := rDot n n
  if nn = 0 then {}
  else
    let ab := rDot a b
    let o := rAdd (rScale (rDot b b * (rDot a a - ab) / (2 * nn)) a) (rScale (rDot a a * (rDot b b - ab) / (2 * nn)) b)
    let u := rScale (-1) o
    let v := rScale (1 / sqrtR nn) (rCross n u)
    let e := rSub b o
    { c := rAdd p0 o, u := u, v := v, phi := atan2R (rDot e v) (rDot e u) }

/-- Path length of a Cartesian segment in metres (R223). -/
def pathLen (p : PathIn) : Rat :=
  if p.seg.kind = 3 then rNorm (arcOf p).u * (arcOf p).phi else rNorm (rSub ((endPose p.seg).take 3) (p.pose0.take 3))

/-- Spherical linear interpolation at s (R223). -/
def slerp (p : PathIn) (s : Rat) : List Rat :=
  let t := turnOf p
  let d := sinR t.1
  if d = 0 then p.pose0.drop 3
  else rAdd (rScale (sinR ((1 - s) * t.1) / d) (p.pose0.drop 3)) (rScale (sinR (s * t.1) / d) t.2)

/-- The tool pose of a Cartesian segment at path parameter s. -/
def poseAt (p : PathIn) (s : Rat) : List Rat :=
  let a := arcOf p
  (if p.seg.kind = 3 then rAdd a.c (rAdd (rScale (cosR (a.phi * s)) a.u) (rScale (sinR (a.phi * s)) a.v))
   else rAdd (p.pose0.take 3) (rScale s (rSub ((endPose p.seg).take 3) (p.pose0.take 3)))) ++ slerp p s

/-- The tool's velocity and rotation per unit of s, in the base frame. -/
def twistAt (p : PathIn) (s : Rat) : List Rat :=
  let a := arcOf p
  let t := turnOf p
  let w := (qMul t.2 (qConj (p.pose0.drop 3))).drop 1
  (if p.seg.kind = 3 then rScale a.phi (rSub (rScale (cosR (a.phi * s)) a.v) (rScale (sinR (a.phi * s)) a.u))
   else rSub ((endPose p.seg).take 3) (p.pose0.take 3)) ++ (if sinR t.1 = 0 then [0, 0, 0] else rScale (2 * t.1 / sinR t.1) w)

/-- Three points that lie within 10⁻⁶ m of one line: half the lowest height of their triangle (R218). [DESIGN CHOICE, log 10] -/
def circleFlat (p0 : List Rat) (x : Segment) : Bool :=
  let a := rSub ((x.pose.drop 7).take 3 |>.map f32Val) (p0.take 3)
  let b := rSub ((endPose x).take 3) (p0.take 3)
  let n := rCross a b
  let side := [rDot a a, rDot b b, rDot (rSub a b) (rSub a b)].foldl max 0
  rDot n n * 250000000000 ≤ side

/-! ### Limits and the profile (R223) -/

/-- Limits for s: speed, acceleration and jerk, per tick. -/
structure Lims where
  v : Rat := 0
  a : Rat := 0
  j : Rat := 0
  deriving DecidableEq, Repr, Inhabited

/-- The displacement of group axis index i in 2^-24 count (R214, R217). -/
def travel (p : PathIn) (i : Nat) : Int :=
  match p.seg.kind with
  | 4 => 0
  | 5 => (nth p.seg.targets i).toInt
  | _ => if (nth p.axes i).endless || !(nth p.axes i).defined then 0 else posDiff (nth p.seg.targets i) (nth p.start i)

/-- The lower of two limits, where there are any. -/
def lower (x : Option Lims) (y : Lims) : Option Lims :=
  match x with
  | none => some y
  | some z => some { v := min z.v y.v, a := min z.a y.a, j := min z.j y.j }

/-- The limits of a joint segment: the lowest over its moving axes. -/
def jointLims (p : PathIn) : Option Lims :=
  ((List.range 16).filter (fun i => travel p i != 0)).foldl (fun m i =>
    let d : Rat := ((travel p i).natAbs : Rat) / 16777216
    let c := nth p.axes i
    lower m { v := f32Val p.seg.vmax * f32Val c.avmax / d, a := f32Val p.seg.amax * f32Val c.aamax / d,
              j := f32Val p.seg.jmax * f32Val c.ajmax / d }) none

/-- The limits of a Cartesian segment: of its path and of its turn. -/
def cartLims (p : PathIn) : Option Lims :=
  let t : Rat := (31250 * 2 ^ p.k : Nat) / 1000000000
  let l := pathLen p
  let th := 2 * (turnOf p).1
  let x := p.seg
  let per (d k : Rat) : Lims := { v := k * f32Val x.vmax * t / d, a := k * f32Val x.amax * t * t / d, j := k * f32Val x.jmax * t * t * t / d }
  let m := if l = 0 then none else some (per l 1)
  if th = 0 || f32Val x.vmax = 0 then m else lower m (per th (f32Val x.wmax / f32Val x.vmax))

/-- The limits of a segment; none where nothing moves. -/
def limsOf (p : PathIn) : Option Lims := if cartesian p.seg then cartLims p else if jointKind p.seg then jointLims p else none

/-- Phases of constant jerk: duration and jerk. -/
abbrev Phases := List (Rat × Rat)

/-- The time-optimal seven phases over a distance, at rest at both ends. -/
def sevenPhases (d : Rat) (l : Lims) : Phases :=
  let full (t1 ta tv : Rat) : Phases := [(t1, l.j), (ta, 0), (t1, -l.j), (tv, 0), (t1, -l.j), (ta, 0), (t1, l.j)]
  let ramp : Rat × Rat := if l.v * l.j < l.a * l.a then (sqrtR (l.v / l.j), 0) else (l.a / l.j, l.v / l.a - l.a / l.j)
  let need := l.v * (2 * ramp.1 + ramp.2)
  if need ≤ d then full ramp.1 ramp.2 ((d - need) / l.v)
  else
    let r := l.a / l.j
    let v := l.a * (sqrtR (r * r + 4 * d / l.a) - r) / 2
    if l.a * r ≤ v ∧ l.a * l.a ≤ l.v * l.j then full r (v / l.a - r) 0
    else full (cbrtR (d / (2 * l.j))) 0 0

/-- Position, velocity and acceleration in s. -/
structure Kin where
  s : Rat := 0
  v : Rat := 0
  a : Rat := 0
  deriving DecidableEq, Repr, Inhabited

/-- One phase run for a time. -/
def runPhase (t : Rat) (j : Rat) (x : Kin) : Kin :=
  { s := x.s + x.v * t + x.a * t * t / 2 + j * t * t * t / 6, v := x.v + x.a * t + j * t * t / 2, a := x.a + j * t }

/-- Phases run up to a time. -/
def runPhases : Phases → Rat → Kin → Kin
  | [], _, x => x
  | (d, j) :: r, t, x => if t ≤ d then runPhase t j x else runPhases r (t - d) (runPhase d j x)

/-- The time of phases. -/
def phasesTime (l : Phases) : Rat := l.foldl (fun a p => a + p.1) 0

/-- Phases that bring a motion to rest within AMAX and JMAX (R219). -/
def haltPhases (l : Lims) (x : Kin) : Phases :=
  let p := sqrtR (max 0 (l.j * x.v + x.a * x.a / 2))
  if p ≤ l.a then [((x.a + p) / l.j, -l.j), (p / l.j, l.j)]
  else [((x.a + l.a) / l.j, -l.j), ((x.v + x.a * x.a / (2 * l.j) - l.a * l.a / l.j) / l.a, 0), (l.a / l.j, l.j)]

/-- A limit that lets nothing move. -/
def stuck (l : Lims) : Bool := l.v ≤ 0 || l.a ≤ 0 || l.j ≤ 0

/-- Duration of a segment's profile from path parameter s0 to 1, in path time (R223, R226). [DESIGN CHOICE, log 10] -/
def pathDur (p : PathIn) (s0 : Nat) : Nat :=
  match limsOf p with
  | none => 0
  | some l => if stuck l then 2 ^ 90 else (phasesTime (sevenPhases (1 - paramOf s0) l) * 35184372088832).ceil.toNat

/-- The motion along the path at an instant (R219, R223). -/
def pathKin (p : PathAt) : Kin :=
  match limsOf p.inp with
  | none => { s := 1 }
  | some l =>
    if stuck l then { s := paramOf p.s0 }
    else
      let f := sevenPhases (1 - paramOf p.s0) l
      let at_ (t : Nat) : Kin := if phasesTime f ≤ ticksOf t then { s := 1 } else runPhases f (ticksOf t) { s := paramOf p.s0 }
      match p.halt with
      | none => at_ p.tau
      | some h =>
        let x := at_ h
        let g := haltPhases l x
        if phasesTime g ≤ ticksOf (p.tau - h) then { s := (runPhases g (phasesTime g) x).s } else runPhases g (ticksOf (p.tau - h)) x

/-- The halting deceleration has come to rest. [DESIGN CHOICE, log 10] -/
def haltRest (p : PathAt) : Bool :=
  match p.halt, limsOf p.inp with
  | some h, some l => stuck l ||
      (let x := pathKin { p with tau := h, halt := none }
       phasesTime (haltPhases l x) ≤ ticksOf (p.tau - h))
  | _, _ => true

/-- Path parameter at an instant, in units of 2^-64. [DESIGN CHOICE, log 10] -/
def pathS (p : PathAt) : Nat := min fullS (roundHalfUp ((pathKin p).s * (fullS : Rat))).toNat

/-- The remaining path is at or below BLEND: metres in the Cartesian kinds, a fraction of s in the joint kinds (R224). [DESIGN CHOICE, log 10] -/
def blendReached (p : PathAt) : Bool :=
  let rest := 1 - (pathKin p).s
  (if cartesian p.inp.seg then pathLen p.inp * rest else rest) ≤ f32Val p.inp.seg.blend

/-- Value of a joint or auxiliary axis at path parameter v, rounded half up to 2^-24 (R214, R217). -/
def axisVal (p : PathIn) (i v : Nat) : Pos := nth p.start i + posOf (divHalfUp (travel p i * v) fullS)

/-! ### Blended poses (R224) -/

/-- The present segment's pose with the displacement of the next from its start. -/
def blendPose (a b b0 : List Rat) : List Rat :=
  rAdd (a.take 3) (rSub (b.take 3) (b0.take 3)) ++ qMul (qMul (b.drop 3) (qConj (b0.drop 3))) (a.drop 3)

/-- The planned tool pose of a running Cartesian segment and of the one that blends in. -/
def planPose (p : PathAt) (b : Option PathAt) : List Rat :=
  let a := poseAt p.inp (pathKin p).s
  match b with
  | some b => blendPose a (poseAt b.inp (pathKin b).s) b.inp.pose0
  | none => a

/-- The tool's planned velocity and rotation per tick of path time, in the base frame. -/
def planTwist (p : PathAt) (b : Option PathAt) : List Rat :=
  let x := pathKin p
  let w := rScale x.v (twistAt p.inp x.s)
  match b with
  | some b => rAdd w (rScale (pathKin b).v (twistAt b.inp (pathKin b).s))
  | none => w

/-- Planned velocity of a joint segment's axis i in 2^-24 count per tick of path time. -/
def jointRateAt (p : PathAt) (b : Option PathAt) (i : Nat) : Rat :=
  (travel p.inp i : Rat) * (pathKin p).v + (match b with | some b => (travel b.inp i : Rat) * (pathKin b).v | none => 0)

/-- Planned acceleration of a joint segment's axis i in 2^-24 count per tick² of path time. -/
def jointAccelAt (p : PathAt) (b : Option PathAt) (i : Nat) : Rat :=
  (travel p.inp i : Rat) * (pathKin p).a + (match b with | some b => (travel b.inp i : Rat) * (pathKin b).a | none => 0)

/-- The cap of R228 on an axis squared: 2 × AAMAX × d / v², from the distance in 2^-24 count and the velocity in 2^-24 count per tick. -/
def capSquare (aamax : F32) (dist : Int) (v : Rat) : Rat := 2 * f32Val aamax * 16777216 * (max 0 dist : Int) / (v * v)

end Sys2Proof.Machine
end

