-- ==== Sys2Proof/Machine/Geom.lean ====
section
/-! DEFINITION. Geom.lean: the solids of the geometry table and their distances (R273, R275, R280), the displacement of reference
points (R288) and the place of a sensor's entry in world (R277). A solid is a convex hull of points with a radius, or a half-space;
its points are exact rationals, placed by the binary32 records of poses and objects. -/

namespace Sys2Proof.Machine

/-! ### Vectors of rationals -/

/-- A point or a direction. -/
structure Vec where
  x : Rat := 0
  y : Rat := 0
  z : Rat := 0
  deriving DecidableEq, Repr, Inhabited

/-- Sum. -/
def Vec.add (a b : Vec) : Vec := { x := a.x + b.x, y := a.y + b.y, z := a.z + b.z }

/-- Difference. -/
def Vec.sub (a b : Vec) : Vec := { x := a.x - b.x, y := a.y - b.y, z := a.z - b.z }

/-- Multiple. -/
def Vec.scale (a : Vec) (k : Rat) : Vec := { x := k * a.x, y := k * a.y, z := k * a.z }

/-- Inner product. -/
def Vec.dot (a b : Vec) : Rat := a.x * b.x + a.y * b.y + a.z * b.z

/-- Three binary32 values as an exact vector. -/
def vecOf (l : List F32) : Vec := { x := f32Val (nth l 0), y := f32Val (nth l 1), z := f32Val (nth l 2) }

/-! ### The nearest point of a convex hull to the origin -/

/-- The point of the simplex on one to four points that is nearest to the origin, when it lies inside; none when it lies on a face. -/
def simplexPoint : List Vec → Option Vec
  | [a] => some a
  | [a, b] =>
    let e := b.sub a
    let n := e.dot e
    if n = 0 then none
    else
      let l := -(a.dot e) / n
      if 0 ≤ l ∧ l ≤ 1 then some (a.add (e.scale l)) else none
  | [a, b, c] =>
    let e := b.sub a
    let f := c.sub a
    let det := e.dot e * f.dot f - e.dot f * e.dot f
    if det = 0 then none
    else
      let l := (e.dot f * a.dot f - f.dot f * a.dot e) / det
      let m := (e.dot f * a.dot e - e.dot e * a.dot f) / det
      if 0 ≤ l ∧ 0 ≤ m ∧ l + m ≤ 1 then some (a.add ((e.scale l).add (f.scale m))) else none
  | [a, b, c, d] =>
    let e := b.sub a
    let f := c.sub a
    let g := d.sub a
    let det3 (u v w : Vec) : Rat := u.x * (v.y * w.z - v.z * w.y) - u.y * (v.x * w.z - v.z * w.x) + u.z * (v.x * w.y - v.y * w.x)
    let det := det3 e f g
    let o := a.scale (-1)
    if det = 0 then none
    else
      let l := det3 o f g / det
      let m := det3 e o g / det
      let n := det3 e f o / det
      if 0 ≤ l ∧ 0 ≤ m ∧ 0 ≤ n ∧ l + m + n ≤ 1 then some {} else none
  | _ => none

/-- The faces of a simplex, itself among them: its lists of points that are not empty. -/
def faces : List Vec → List (List Vec)
  | [] => []
  | a :: r => [a] :: (faces r).map (a :: ·) ++ faces r

/-- The nearest point of a simplex, with the face that holds it. -/
def nearestOf (s : List Vec) : List Vec × Vec :=
  (faces s).foldl (fun b f => match simplexPoint f with
    | some v => if v.dot v < b.2.dot b.2 || b.1.isEmpty then (f, v) else b
    | none => b) ([], {})

/-- The point of a list that lies farthest against a direction. -/
def support (d : List Vec) (v : Vec) : Vec := d.tail.foldl (fun b p => if v.dot p < v.dot b then p else b) (d.headD {})

/-- The square of the distance of the origin from the hull of a list of points: the nearest point of a simplex moves on until no
point of the list lies nearer. -/
def hullNear (d : List Vec) : Nat → List Vec → Rat
  | 0, s => (nearestOf s).2.dot (nearestOf s).2
  | n + 1, s =>
    let b := nearestOf s
    let w := support d b.2
    if b.2.dot b.2 ≤ b.2.dot w then b.2.dot b.2 else hullNear d n (b.1 ++ [w])

/-- The square of the distance of two hulls. -/
def hullDist2 (a b : List Vec) : Rat :=
  let d := a.flatMap (fun p => b.map (fun q => p.sub q))
  hullNear d 64 [d.headD {}]

/-! ### Solids (R273, R275) -/

/-- A placed solid: the points within r of the hull of some points, or a half-space with its outward normal. -/
inductive Solid where
  | hull (pts : List Vec) (r : Rat)
  | half (a n : Vec)
  deriving DecidableEq, Repr, Inhabited

/-- A point of an attachment frame in world: by a pose record for a link, by the position alone for an object (R275). -/
def toWorld (att : Nat) (t : List F32) (v : Vec) : Vec :=
  match att with
  | 1 => (vecOf t).add { x := (vecOf (t.drop 3)).dot v, y := (vecOf (t.drop 6)).dot v, z := (vecOf (t.drop 9)).dot v }
  | 2 => (vecOf t).add v
  | _ => v

/-- v rotated by a unit quaternion of which x, y and z are given and w ≥ 0 follows (R273). -/
def turned (q v : Vec) : Vec :=
  let w := sqrtR (1 - q.dot q)
  let cr (a b : Vec) : Vec := { x := a.y * b.z - a.z * b.y, y := a.z * b.x - a.x * b.z, z := a.x * b.y - a.y * b.x }
  let t := (cr q v).scale 2
  v.add ((t.scale w).add (cr q t))

/-- The eight corners of a box. -/
def corners (a h q : Vec) : List Vec :=
  [(1, 1, 1), (1, 1, -1), (1, -1, 1), (1, -1, -1), (-1, 1, 1), (-1, 1, -1), (-1, -1, 1), (-1, -1, -1)].map
    (fun (k : Rat × Rat × Rat) => a.add (turned q { x := k.1 * h.x, y := k.2.1 * h.y, z := k.2.2 * h.z }))

/-- The reference points of a primitive in its attachment frame: a sphere's centre, a capsule's two ends, a box's corners (R288). -/
def refPoints (p : PrimCfg) : List Vec :=
  match p.kind with
  | 1 => [vecOf p.a]
  | 3 => corners (vecOf p.a) (vecOf p.b) (vecOf p.q)
  | _ => [vecOf p.a, vecOf p.b]

/-- A primitive placed by the records of ticks n − 1 and n; only a swept capsule takes the first. -/
def solidOf (p : PrimCfg) (t0 t1 : List F32) : Solid :=
  match p.kind with
  | 4 => .half (vecOf p.a) (vecOf p.b)
  | k => .hull ((if k = 5 then (refPoints p).map (toWorld p.att t0) else []) ++ (refPoints p).map (toWorld p.att t1)) (f32Val p.r)

/-- Least of a list of rationals. -/
def leastR (l : List Rat) : Rat := l.tail.foldl min (l.headD 0)

/-- The distance of a hull from a half-space. -/
def halfGap (pts : List Vec) (r : Rat) (a n : Vec) : Rat :=
  max 0 (leastR (pts.map (fun p => (p.sub a).dot n)) / rootR (n.dot n) - r)

/-- The distance of two solids, 0 when they touch or overlap (R280). Two half-spaces lie apart only with opposite normals. -/
def solidGap (x y : Solid) : Rat :=
  match x, y with
  | .hull p r, .hull q t =>
    let d := hullDist2 p q
    if d ≤ (r + t) * (r + t) then 0 else rootR d - (r + t)
  | .hull p r, .half a n => halfGap p r a n
  | .half a n, .hull p r => halfGap p r a n
  | .half a m, .half b n =>
    if m.dot n < 0 ∧ m.dot n * m.dot n = m.dot m * n.dot n then max 0 ((b.sub a).dot m / rootR (m.dot m)) else 0

/-- The value next below an exact distance, or itself. -/
def f32Below (x : Rat) : F32 :=
  let n := f32OfRat x
  if x < f32Val n then n - 1 else n

/-- A distance by the fixed closest-point method: any value from 1 mm below the true one up to it (R280). -/
def boundedGap (g : Rat) (x : F32) : F32 :=
  if f32IsFin x && !f32Neg x && f32Val x ≤ g && g - 1 / 1000 ≤ f32Val x then x else f32Below g

/-- A pair with a box or a swept capsule takes the closest-point method. -/
def iterated (p q : PrimCfg) : Bool := p.kind == 3 || p.kind == 5 || q.kind == 3 || q.kind == 5

/-- Distance of two primitives, each with the records that place it in ticks n − 1 and n (R280): one rounding of the exact value,
or a value within the bound of the closest-point method. [DEDUCED, log 13] -/
def primGap (p : PrimCfg) (p0 p1 : List F32) (q : PrimCfg) (q0 q1 : List F32) : F32 :=
  let g := solidGap (solidOf p p0 p1) (solidOf q q0 q1)
  if iterated p q then boundedGap g (Config.closestPoint p (p0 ++ p1) q (q0 ++ q1)) else f32OfRat g

/-- The largest displacement of a reference point of link primitives, each with its records of two ticks (R288). [DESIGN CHOICE, log 11] -/
def displacement (l : List (PrimCfg × List F32 × List F32)) : F32 :=
  let d := l.flatMap (fun x => (refPoints x.1).map (fun v =>
    let e := (toWorld 1 x.2.2 v).sub (toWorld 1 x.2.1 v)
    e.dot e))
  f32RootRat (d.foldl max 0)

/-- A quaternion from its x, y and z, with w = √(1 − x² − y² − z²) taken in the order written (R273). -/
def fullQuat (q : List F32) : List F32 :=
  let sq (i : Nat) : F32 := f32Mul (nth q i) (nth q i)
  f32Sqrt (f32Max 0 (f32Sub (f32Sub (f32Sub f32One (sq 0)) (sq 1)) (sq 2))) :: q.take 3

/-- An entry's position in mm in the sensor frame, in world (R277). [DESIGN CHOICE, log 11] -/
def sensorToWorld (spos sq : List F32) (p : List Int) : List F32 :=
  vAdd spos (mulVec (quatMat (fullQuat sq)) (p.map (fun n => f32OfRat ((n : Rat) / 1000))))

end Sys2Proof.Machine
end

