-- ==== Sys2Proof/Machine/Zones.lean ====
section
/-! DEFINITION. Zones.lean: the zone arbiter (R290 to R295): requests, refusals, releases, freezes and decisions; and the distance
of two primitives as they stand in the tick (R280). -/

namespace Sys2Proof.Machine

/-- Zone z. -/
def zoneSt (s : State) (z : Nat) : ZoneSt := nth s.trl.zones z

/-- Whether the image defines zone z. -/
def zoneDefined (s : State) (z : Nat) : Bool := s.image.zones.any (fun p => p.1 == z)

/-- Rank of zone z (R20). -/
def zoneRank (s : State) (z : Nat) : Nat := (assoc s.image.zones z).getD 0

/-- Highest rank group g holds (`TRL.GZONEg.HIRANK`). -/
def highRank (s : State) (g : Nat) : Nat := (trlG s g).held.foldl (fun m z => max m (zoneRank s z)) 0

/-- Body primitives of group g. -/
def bodiesOf (s : State) (g : Nat) : List PrimCfg :=
  s.image.prims.filter (fun p => p.kind != 0 && p.role == .body && p.att = 1 && p.owner = g)

/-- Volumes of zone z. -/
def volumesOf (s : State) (z : Nat) : List PrimCfg :=
  s.image.prims.filter (fun p => p.kind != 0 && p.role == .zoneVol && p.ref = z)

/-- The record that places a primitive in this tick: a link's pose, an object's position, or none for the world. -/
def placeRec (s : State) (p : PrimCfg) : List F32 :=
  match p.att with
  | 1 => nth (grpSt s p.owner).poses p.link
  | 2 => (nth s.trl.objs p.owner).pos
  | _ => []

/-- The record that placed it in the tick before: frozen poses have not moved. -/
def placeBefore (s : State) (p : PrimCfg) : List F32 :=
  if p.att = 1 ∧ (trlG s p.owner).frozenFor = 0 ∧ !(grpSt s p.owner).posesPrev.isEmpty then nth (grpSt s p.owner).posesPrev p.link
  else placeRec s p

/-- Distance of two primitives in this tick (R280). -/
def pairGap (s : State) (a b : PrimCfg) : F32 := primGap a (placeBefore s a) (placeRec s a) b (placeBefore s b) (placeRec s b)

/-- A body primitive of group g intrudes zone z (R292): some class Z pair the group would have as a non-holder has d = 0. -/
def intrudesZone (s : State) (g z : Nat) : Bool :=
  (bodiesOf s g).any (fun b => (volumesOf s z).any (fun v => f32Le (pairGap s b v) 0))

/-- Why a request of group g for zone z is refused: 0 not, 1 rank, 2 limit (R291). [DESIGN CHOICE, log 74] -/
def zoneRefusal (s : State) (g z : Nat) : Nat :=
  let h := (trlG s g).held
  if h != [] && zoneRank s z ≤ highRank s g then 1 else if 4 ≤ h.length then 2 else 0

/-- Refuse a request (R225, R291): ZREF, TRL_ZONE_ORDER, the group passes to HALTED. -/
def refuseZone (g code : Nat) (s : State) : State :=
  event 0x0720 g (onGrp g (fun x => { x with state := .halted })
    (onTrlG g (fun x => { x with zref := code, wait := none }) s))

/-- Withdraw the open request of group g (R295). -/
def withdrawZone (g : Nat) (s : State) : State :=
  match (trlG s g).wait with
  | none => s
  | some z =>
    onZone z (fun y => { y with parked := y.parked.filter (fun p => p.1 != g), fresh := y.fresh.filter (fun h => h != g) })
      (onTrlG g (fun x => { x with wait := none }) s)

/-- Raise a request of group g for zone z: a new one, decided no earlier than the next tick (R28). -/
def raiseZone (g z : Nat) (s : State) : State :=
  onZone z (fun y => { y with fresh := y.fresh ++ [g] })
    (onTrlG g (fun x => { x with wait := some z, reqTick := s.time.tickno }) s)

/-- The ZREQ request of a ready group (R225, R291): satisfied when held, refused at once, or raised. [DESIGN CHOICE, log 74] -/
def requestZone (g z : Nat) (s : State) : State :=
  if (trlG s g).held.contains z || (trlG s g).wait.isSome then s
  else
    match zoneRefusal s g z with
    | 0 => onGrp g (fun x => { x with state := .waitZone }) (raiseZone g z s)
    | c => refuseZone g c s

/-- Group g releases zone z; it is free for the next decision. -/
def freeZone (g z : Nat) (s : State) : State :=
  onZone z (fun y => { y with holder := none })
    (onTrlG g (fun x => { x with held := x.held.filter (fun k => k != z), defer := x.defer.filter (fun k => k != z) }) s)

/-- ZREL at s = 1 (R292): the zone is released, or the release is deferred while a body intrudes. -/
def releaseAtEnd (g z : Nat) (s : State) : State :=
  if !(trlG s g).held.contains z then s
  else if intrudesZone s g z then
    event 0x0721 g (onTrlG g (fun x => { x with defer := if x.defer.contains z then x.defer else x.defer ++ [z] }) s)
  else freeZone g z s

/-- Deferred releases take place in the first tick in which no body intrudes (R292). -/
def deferredZones (g : Nat) (s : State) : State :=
  forAll (trlG s g).defer (fun z t => if intrudesZone t g z then t else freeZone g z t) s

/-- A path-segment boundary of a holder under FRZ (R293): it releases the zone and raises a new request for it. [DESIGN CHOICE, log 74] -/
def frozenBoundary (g : Nat) (s : State) : State :=
  forAll (trlG s g).held (fun z t =>
    if (zoneSt t z).frzE0 && !intrudesZone t g z then
      let t := freeZone g z t
      if (trlG t g).wait.isSome then t
      else onGrp g (fun x => { x with state := .waitZone }) (raiseZone g z t)
    else t) s

/-- Level of a waiting group with an age: 8 from 64 on (R50). -/
def zoneLevel (s : State) (g age : Nat) : Nat := if 64 ≤ age then 8 else (trlG s g).zpri

/-- The request of zone z to be served (R50): parked in order, then new ones by lower group number. -/
def chooseZone (s : State) (y : ZoneSt) (fresh : List Nat) : Option Nat :=
  let old := y.parked.foldl (fun b p => match b with
    | none => some (p.1, zoneLevel s p.1 p.2)
    | some q => if q.2 < zoneLevel s p.1 p.2 then some (p.1, zoneLevel s p.1 p.2) else some q) none
  let new := fresh.foldl (fun b g => match b with
    | none => some (g, zoneLevel s g 0)
    | some q => if q.2 < zoneLevel s g 0 || (q.2 = zoneLevel s g 0 && g < q.1) then some (g, zoneLevel s g 0) else some q) none
  match old, new with
  | some a, some b => if a.2 < b.2 then some b.1 else some a.1
  | some a, none => some a.1
  | none, b => b.map (·.1)

/-- Whether the request of g was raised before E0 of this tick (R25, R28). -/
def requestDue (s : State) (g : Nat) : Bool := (trlG s g).wait.isSome && (trlG s g).reqTick < s.time.tickno

/-- Decide zone z (R290, R291, R293): refusals, one grant when it is free and not frozen, the others parked in
order of their group number, or older by one. [DESIGN CHOICE, log 74] -/
def decideZone (z : Nat) (s : State) : State :=
  let y := zoneSt s z
  let due := (List.range 16).filter (fun g => y.fresh.contains g && requestDue s g)
  let later := y.fresh.filter (fun g => !requestDue s g)
  let pick := if y.frzE0 || y.holder.isSome then none else chooseZone s y due
  let older := if y.frzE0 then y.parked else y.parked.map (fun p => (p.1, min 64 (p.2 + 1)))
  match pick with
  | none => onZone z (fun y => { y with parked := older ++ due.map (fun g => (g, 0)), fresh := later }) s
  | some g =>
    onTrlG g (fun x => { x with wait := none, held := x.held ++ [z] })
      (onZone z (fun y => { y with
        holder := some g, grants := satAdd 0x7FFF y.grants 1, fresh := later,
        parked := (older ++ due.map (fun h => (h, 0))).filter (fun p => p.1 != g) }) s)

/-- Groups whose open request leaves with its state (R295). -/
def staleRequest (s : State) (g : Nat) : Bool :=
  (trlG s g).wait.isSome && !((grpSt s g).state == .moving || (grpSt s g).state == .waitZone)

/-- Zones with an open request. -/
def waitedZones (s : State) : List Nat := ((List.range 16).filterMap (fun g => (trlG s g).wait)).dedup

/-- One decision of every zone; a phase 0 miss makes no grant in the tick (R294). -/
def decideZones (s : State) : State :=
  let s := forAll ((List.range 16).filter (staleRequest s)) withdrawZone s
  let s := forAll (waitedZones s) decideZone s
  onSlack 0 (fun x => { x with done := 0xFFFF }) s

/-- ZONE_RELEASE (R292): 0 done, 1 not held, 2 a body intrudes. -/
def zoneReleaseCode (s : State) (g z : Nat) : Nat :=
  if !(trlG s g).held.contains z then 1 else if intrudesZone s g z then 2 else 0

/-- ZONE_FREEZE and ZONE_UNFREEZE (R293): the bit, sampled at E0. Without a Trellis the zones are absent (R3, R6). -/
def zoneFreeze (z : Nat) (v : Bool) (s : State) : State :=
  if !hasSolTrl s then absentAccess true s else acked (onZone z (fun y => { y with frz := v }) s)

/-- The freeze bits are sampled at E0 (R293). -/
def zonesEdge (s : State) : State :=
  { s with trl := { s.trl with zones := s.trl.zones.map (fun y => { y with frzE0 := y.frz }) } }

def execZoneFreeze (z : Nat) (s : State) : Out := runAcc .trl (zoneFreeze z true) s
def execZoneUnfreeze (z : Nat) (s : State) : Out := runAcc .trl (zoneFreeze z false) s

end Sys2Proof.Machine
end

