-- ==== Sys2Proof/Machine/Motion.lean ====
section
/-! DEFINITION. Motion.lean: motion queues, segments and the trajectory generator (R210 to R231), and the group states. -/

namespace Sys2Proof.Machine

/-! ### Segments (R217, R218) -/

/-- The axis of group g with group axis index i. -/
def axisAt (s : State) (g i : Nat) : Option Nat := (axesOf s g).find? (fun a => (axisCfg s a).index == i)

/-- Configuration of group axis index i. -/
def axisCfgAt (s : State) (g i : Nat) : AxisCfg := match axisAt s g i with | some a => axisCfg s a | none => {}

/-- References of group g by group axis index. -/
def refsOf (s : State) (g : Nat) : List Pos :=
  (List.range 16).map (fun i => match axisAt s g i with | some a => (axSt s a).ref | none => 0)

/-- What a segment's profile depends on. [DESIGN CHOICE, log 9] -/
def pathIn (s : State) (g : Nat) (seg : Segment) (start : List Pos) (pose0 : List Rat) : PathIn :=
  { seg := seg, start := start, pose0 := pose0, grp := grpCfg s g, axes := (List.range 16).map (axisCfgAt s g), k := s.image.k }

/-- Path time after the stretch of a sync set (R226). -/
def stretch (r : RunSeg) (t : Nat) : Nat := if r.durSet = r.dur || r.durSet = 0 then t else t * r.dur / r.durSet

/-- How much a sync set slows a segment's motion. -/
def stretchRate (r : RunSeg) : Rat := if r.durSet = r.dur || r.durSet = 0 then 1 else (r.dur : Rat) / (r.durSet : Rat)

/-- The instant of a running segment. -/
def pathAt (s : State) (g : Nat) (r : RunSeg) : PathAt :=
  { inp := pathIn s g r.seg r.start r.pose0, s0 := r.s0, tau := stretch r r.tau, halt := r.halt.map (stretch r) }

/-- Path parameter of a running segment (R219, R223). -/
def runS (s : State) (g : Nat) (r : RunSeg) : Nat := pathS (pathAt s g r)

/-- Where a path stands: positions by group axis index, and the tool pose in the base frame. -/
structure PathEnd where
  q : List Pos := []
  pose : List Rat := []
  deriving DecidableEq, Repr, Inhabited

/-- Tool pose of group g at positions by group axis index. -/
def poseOf (s : State) (g : Nat) (q : List Pos) : List Rat := toolPose (grpCfg s g) q

/-- Positions and pose at the end of a segment. Which joint positions a Cartesian segment will end at no rule says before it runs. [DESIGN CHOICE, log 10] -/
def endOf (s : State) (g : Nat) (seg : Segment) (e : PathEnd) : PathEnd :=
  let p := pathIn s g seg e.q e.pose
  let q := (List.range 16).map (fun i =>
    if cartesian seg && i < 12 then Config.ikEnd p.grp e.q seg i else axisVal p i fullS)
  { q := q, pose := if cartesian seg then endPose seg else if seg.kind = 4 then e.pose else poseOf s g q }

/-- Where a running segment began. -/
def startOf (r : RunSeg) : PathEnd := { q := r.start, pose := r.pose0 }

/-- Where group g stands now. -/
def hereOf (s : State) (g : Nat) : PathEnd := { q := refsOf s g, pose := poseOf s g (refsOf s g) }

/-- The queue's last planned end (R218). -/
def plannedEnd (s : State) (g : Nat) : PathEnd :=
  let x := grpSt s g
  let here := match x.blend, x.active with
    | some b, _ => endOf s g b.seg (startOf b)
    | none, some r => endOf s g r.seg (startOf r)
    | none, none => hereOf s g
  x.queue.foldl (fun p seg => endOf s g seg p) here

/-- A position outside the virtual limits of an axis. -/
def outsideLimits (c : AxisCfg) (p : Pos) : Bool := !c.endless && (p.toInt < c.vlimLo.toInt || c.vlimHi.toInt < p.toInt)

/-- A finite value with 0 < x, and x ≤ 1 in the joint kinds. -/
def limitOk (joint : Bool) (x : F32) : Bool := f32IsFin x && 0 < f32Val x && (!joint || f32Val x ≤ 1)

/-- BLEND in its range: a fraction 0 to 0.5, or metres from 0 up. -/
def blendOk (joint : Bool) (x : F32) : Bool := f32IsFin x && 0 ≤ f32Val x && (!joint || f32Val x ≤ 1 / 2)

/-- The quaternion norm of an end pose differs from 1 by at most 10⁻³. -/
def quatOk (pose : List F32) : Bool :=
  let q := (pose.drop 3).take 4
  let n := (q.map (fun x => f32Val x * f32Val x)).foldl (· + ·) 0
  q.all f32IsFin && (999 / 1000 : Rat) * (999 / 1000) ≤ n && n ≤ (1001 / 1000 : Rat) * (1001 / 1000)

/-- An axis with an AXIO channel, or a compare unit behind a node (R218 reason 6). -/
def hasCompare (c : AxisCfg) : Bool := portIsChan c.src || portIsChan c.dst || c.conc

/-- The REASONs of R218 that a segment fails, ascending; the target of an auxiliary axis in a Cartesian segment is taken as a joint target; `planned` is the end before it. [DESIGN CHOICE, log 66] -/
def segReasons (s : State) (g : Nat) (full : Bool) (planned : PathEnd) (x : Segment) : List Nat :=
  let j := jointKind x
  let c := cartesian x
  let axes := (List.range 16).filter (fun i => (axisAt s g i).isSome)
  let r1 := x.kind = 0 || 5 < x.kind || (c && (grpCfg s g).taskmask == 0)
  let r2 := ((j || c) && !(limitOk j x.vmax && limitOk j x.amax && limitOk j x.jmax && blendOk j x.blend)) ||
    (c && !limitOk false x.wmax)
  let r3 := axes.any (fun i =>
    let a := axisCfgAt s g i
    if x.kind = 1 || (c && 12 ≤ i) then (if a.endless then nth x.targets i != 0 else outsideLimits a (nth x.targets i))
    else x.kind = 5 && outsideLimits a (nth planned.q i + nth x.targets i))
  let r4 := (c && !quatOk x.pose) || (x.kind = 3 && circleFlat planned.pose x)
  let r5 := (hasBit x.flags 4 && !(zoneDefined s x.zreq && !s.image.compat)) ||
    (hasBit x.flags 5 && !(zoneDefined s x.zrel && !s.image.compat))
  let r6 := hasBit x.flags 3 && !((axisAt s g x.cmpIdx).isSome && hasCompare (axisCfgAt s g x.cmpIdx) &&
    f32IsFin x.cmpFrac && 0 ≤ f32Val x.cmpFrac && f32Val x.cmpFrac ≤ 1)
  let r7 := (hasBit x.flags 1 && !(x.sync < 16 && hasBit (nth s.image.syncSets x.sync) g)) ||
    (hasBit x.flags 2 && !((grpCfg s x.trk).defined && (grpCfg s x.trk).kind = 2))
  let r9 := !x.reservedOk || hasBit x.flags 6 || hasBit x.flags 7 ||
    (List.range 16).any (fun i => (j || (c && 12 ≤ i)) && (axisAt s g i).isNone && nth x.targets i != 0)
  [(1, r1), (2, r2), (3, r3), (4, r4), (5, r5), (6, r6), (7, r7), (8, full), (9, r9)].filterMap (fun p =>
    if p.2 then some p.1 else none)

/-- The first segment of a list that fails, with its lowest REASON. [DESIGN CHOICE, log 66] -/
def firstBad (s : State) (g : Nat) (full : Bool) : List Segment → PathEnd → Nat → Option (Nat × Nat)
  | [], _, _ => none
  | x :: r, p, i =>
    match segReasons s g full p x with
    | c :: _ => some (i, c)
    | [] => firstBad s g full r (endOf s g x p) (i + 1)

/-- Whether n more segments do not fit into queue Qg. -/
def queueFull (s : State) (g n : Nat) : Bool := 64 < (grpSt s g).queue.length + n

/-- The check of a SEGMENT command (R218): the first failing segment and its REASON. -/
def checkSegs (s : State) (g : Nat) (segs : List Segment) : Option (Nat × Nat) :=
  firstBad s g (queueFull s g segs.length) segs (plannedEnd s g) 0

/-- Enter segments into queue Qg, all or none (R218). -/
def enterSegs (g : Nat) (segs : List Segment) (s : State) : State :=
  match checkSegs s g segs with
  | none => onGrp g (fun x => { x with queue := x.queue ++ segs, newSegs := x.newSegs + segs.length }) s
  | some (_, c) =>
    event (if c = 8 then 0x0511 else 0x0510) g (onGrp g (fun x => { x with
      reason := c, refcnt := satAdd 0xFFFF x.refcnt segs.length }) s)

/-! ### Scales (R221, R222, R228) -/

/-- Group g and the groups it stands on (R18). -/
def chainOf (s : State) (g : Nat) : Nat → List Nat
  | 0 => [g]
  | n + 1 => if (grpCfg s g).baseg < 16 then g :: chainOf s (grpCfg s g).baseg n else [g]

/-- Groups that name g, directly or through a chain, as base, and g itself (R222). -/
def carried (s : State) (g : Nat) : List Nat :=
  (List.range 16).filter (fun h => h == g || ((grpCfg s h).defined && (chainOf s h 3).contains g))

/-- The Trellis scale a group uses: the lowest of its own and of the groups it carries (R222). -/
def trlScale (s : State) (g : Nat) : Nat := minNat 32768 ((carried s g).map (fun h => (safG s h).scale))

/-- The problem of USE u that serves group g. -/
def probFor (s : State) (u g : Nat) : Option Nat :=
  (List.range s.image.probs.length).find? (fun p => (probCfg s p).op != 0 && (probCfg s p).use = u && (probCfg s p).group = g)

/-- sigma_sol (R221, R261): x_0 of the last valid time-scaling result, 1 without a problem or before the first result. [DESIGN CHOICE, log 62] -/
def sigmaSol (s : State) (g : Nat) : Nat :=
  match (if hasSolTrl s then probFor s 1 g else none) with
  | none => 32768
  | some p => match (probSt s p).pub.x with | x :: _ => scaleHalfUp x | [] => 32768

/-- z of R230: the redundancy result of the last tick, 0 while it is not valid (R261). -/
def redundZ (s : State) (g : Nat) : List F32 :=
  match (if hasSolTrl s then probFor s 2 g else none) with
  | some p => if (probSt s p).valid then (probSt s p).pub.x else []
  | none => []

/-- The rotation matrix of the base frame of group g in world, as its poses give it. -/
def baseRot (s : State) (g : Nat) : List F32 :=
  match (grpSt s g).poses with
  | t :: _ => recRot t
  | [] => recRot (frameRec (grpCfg s g).base)

/-- Joint rates, per tick in joint units, that move the tool so in the base frame: the damped step of R230 with the Jacobian of the
tick before. [DESIGN CHOICE, log 10] -/
def jointRates (s : State) (g : Nat) (w : List Rat) : List F32 :=
  let c := grpCfg s g
  let r := baseRot s g
  let t := w.map f32OfRat
  dlsStep (taskRows c.taskmask c.nj (grpSt s g).jac) c.nj c.damp
    (maskRows c.taskmask (mulVec r t ++ mulVec r (t.drop 3))) []

/-- Velocities of the plan of group g at scale 1, in 2^-24 count per tick by group axis index (R221, R228). -/
def planVel (s : State) (g : Nat) : List Rat :=
  match (grpSt s g).active with
  | some r =>
    let p := pathAt s g r
    let b := (grpSt s g).blend.map (pathAt s g)
    let joints := if cartesian r.seg then jointRates s g (planTwist p b) else []
    (List.range 16).map (fun i => stretchRate r * (if cartesian r.seg && i < 12 then
        f32Val (nth joints i) * f32Val (nth (grpCfg s g).joints i).scale * 16777216
      else jointRateAt p b i))
  | none => List.replicate 16 0

/-- A FUNC 6 pair that names g is in demand at E0 (R306, R317). -/
def slsDemand (s : State) (g : Nat) : Bool :=
  (List.range 12).any (fun i => (nth s.image.inputs i).func = 6 && hasBit (nth s.image.inputs i).gmask g &&
    (nth s.saf.pairs i).sampled)

/-- The TCP speed limits that apply to a group (R317), in mm/s. -/
def tcpLimits (s : State) (g : Nat) : List Nat :=
  (if s.saf.mode = 1 then [(grpCfg s g).vred] else []) ++ (if slsDemand s g then [(grpCfg s g).slstcp] else [])

/-- What the joints of a group's base chain below a link add to the velocity of a point, in metres per tick, from the Jacobian of the tick
before (R221). -/
def chainVel (s : State) (h joints : Nat) (point : List Rat) : List Rat :=
  let x := grpSt s h
  let c := grpCfg s h
  let v := planVel s h
  let tool := (recPos (nth x.poses (c.nj + 1))).map f32Val
  (List.range (min joints c.nj)).foldl (fun a i =>
    let col := ((x.jac.drop (6 * i)).take 6).map f32Val
    let sc := f32Val (nth c.joints i).scale
    if col.length < 6 ∨ sc = 0 ∨ tool.length < 3 then a
    else rAdd a (rScale (nth v i / 16777216 / sc) (rAdd (col.take 3) (rCross (col.drop 3) (rSub point tool))))) [0, 0, 0]

/-- The square of v_plan in metres per tick: the tool-centre-point speed of the plan at scale 1, of the group and of its base chain. -/
def vPlanSquare (s : State) (g : Nat) : Rat :=
  let p := (recPos (nth (grpSt s g).poses ((grpCfg s g).nj + 1))).map f32Val
  let point := if p.length < 3 then [0, 0, 0] else p
  let chain := chainOf s g 3
  let links := 12 :: chain.map (fun h => (grpCfg s h).baselink)
  let v := (chain.zip links).foldl (fun a q => rAdd a (chainVel s q.1 q.2 point)) [0, 0, 0]
  rDot v v

/-- sigma_mode (R221, R317): the limit over v_plan, rounded half up. -/
def sigmaMode (s : State) (g : Nat) : Nat :=
  match tcpLimits s g with
  | [] => 32768
  | l =>
    let v := vPlanSquare s g
    let lim : Rat := (l.foldl min 65535 : Nat) * (periodNs s : Nat) / 1000000000000
    if v = 0 then 32768 else min 32768 (rootHalfUp (lim * lim * 1073741824 / v))

/-- sigma_lim (R228): the lowest stop cap over the moving axes with virtual limits, rounded half up. -/
def sigmaLim (s : State) (g : Nat) : Nat :=
  let v := planVel s g
  minNat 32768 ((axesOf s g).filterMap (fun a =>
    let c := axisCfg s a
    let va := nth v c.index
    if c.endless || va == 0 then none
    else
      let p := (axSt s a).ref.toInt
      some (rootHalfUp (capSquare c.aamax (if 0 < va then c.vlimHi.toInt - p else p - c.vlimLo.toInt) va * 1073741824))))

/-- sigma_target (R221) and the cap a joint speed cut left (R228). -/
def sigmaTarget (s : State) (g : Nat) : Nat :=
  minNat 32768 [trlScale s g, sigmaSol s g, (grpSt s g).ovr, sigmaMode s g, sigmaLim s g, (grpSt s g).sigCap]

/-- Set the scale of a group: down at once, up by at most SRAMP (R221). -/
def setSigma (g : Nat) (s : State) : State :=
  let t := sigmaTarget s g
  onGrp g (fun x => { x with
    sigma := (if t < x.sigma then t else min t (x.sigma + (grpCfg s g).sramp)), sigCap := 32768 }) s

/-- Groups that run their SYNC segment of set k. -/
def syncRunning (s : State) (k : Nat) : List Nat :=
  (List.range 16).filter (fun g => match (grpSt s g).active with
    | some r => hasBit r.seg.flags 1 && r.seg.sync = k && (grpSt s g).state == .moving
    | none => false)

/-- The members of the sync set that group g runs with, g alone otherwise (R222). -/
def syncMates (s : State) (g : Nat) : List Nat :=
  match (grpSt s g).active with
  | some r => if hasBit r.seg.flags 1 && (syncRunning s r.seg.sync).contains g then syncRunning s r.seg.sync else [g]
  | none => [g]

/-! ### Starting and finishing segments (R219, R224 to R226, R229) -/

/-- The zones that the segment's end touches: ZREL at s = 1, and frozen holds (R225, R292, R293). -/
def boundary (g : Nat) (seg : Segment) (s : State) : State :=
  if hasBit seg.flags 5 then releaseAtEnd g seg.zrel s else s

/-- A running segment has reached its end. -/
def segDone (r : RunSeg) : Bool := if r.seg.kind = 4 then r.seg.dwell ≤ r.dwell else fullS ≤ r.s

/-- The generator's look at the tick before: completed segments leave, halting groups that rest are HALTED. -/
def finishGroup (g : Nat) (s : State) : State :=
  let x := grpSt s g
  let s := deferredZones g s
  match x.state, x.active with
  | .moving, some r =>
    if segDone r then
      let s := boundary g r.seg (onGrp g (fun y => { y with active := x.blend, blend := none }) s)
      if x.blend.isSome then s else frozenBoundary g s
    else s
  | .halting, none => onGrp g (fun y => { y with state := .halted }) s
  | .halting, some r => if haltRest (pathAt s g r) then onGrp g (fun y => { y with state := .halted }) s else s
  | _, _ => s

/-- An axis of the group is being homed (R169, R213): no segment starts. [DESIGN CHOICE, log 65] -/
def groupHoming (s : State) (g : Nat) : Bool :=
  (axesOf s g).any (fun a => (axSt s a).homing || (axSt s a).hgo.isSome || (axSt s a).hbusy)

/-- A group ready to start its next segment (R225): IDLE, at rest at s = 1, or waiting. [DESIGN CHOICE, log 65] -/
def ready (s : State) (g : Nat) : Bool :=
  let x := grpSt s g
  x.active.isNone && (x.state == .idle || x.state == .moving || x.state == .waitZone || x.state == .waitSync)

/-- The zone a ready group waits for is still open. -/
def awaitsZone (s : State) (g : Nat) : Bool := (trlG s g).wait.isSome

/-- The head's ZREQ of a ready group (R225), or IDLE with an empty queue. -/
def zoneStep (g : Nat) (s : State) : State :=
  if !ready s g || awaitsZone s g then s
  else
    match (grpSt s g).queue with
    | [] => onGrp g (fun x => { x with state := .idle }) s
    | h :: _ => if groupHoming s g then s else if hasBit h.flags 4 then requestZone g h.zreq s else s

/-- The head of a ready group may start but for its sync set. -/
def headFree (s : State) (g : Nat) : Option Segment :=
  if !ready s g || awaitsZone s g || groupHoming s g then none
  else
    match (grpSt s g).queue with
    | [] => none
    | h :: _ => if hasBit h.flags 4 && !(trlG s g).held.contains h.zreq then none else some h

/-- Every group of sync set k has its SYNC segment free to start (R226). -/
def syncReady (s : State) (k : Nat) : Bool :=
  (bitsOf (nth s.image.syncSets k)).all (fun g => match headFree s g with
    | some h => hasBit h.flags 1 && h.sync = k
    | none => false)

/-- The conveyor position that a TRACK segment follows (R227). -/
def conveyorPos (s : State) (h : Nat) : Pos :=
  match axisAt s h 0 with
  | some a => if (axisCfg s a).dst != .none then (axSt s a).ref
    else (axSt s a).fb + ((axSt s a).fb - (axSt s a).fbPrev)
  | none => 0

/-- Start a segment from the present references (R223). -/
def startRun (s : State) (g : Nat) (seg : Segment) (e : PathEnd) : RunSeg :=
  let d := pathDur (pathIn s g seg e.q e.pose) 0
  { seg := seg, start := e.q, pose0 := e.pose, dur := d, durSet := d, track := conveyorPos s seg.trk }

/-- The head of a group starts: the group is MOVING. -/
def startHead (g : Nat) (s : State) : State :=
  match (grpSt s g).queue with
  | [] => s
  | h :: r =>
    let x := startRun s g h (hereOf s g)
    onGrp g (fun y => { y with
      state := .moving, queue := r, active := some { x with fresh := y.newSegs == r.length + 1 }, segId := h.segId, syncWait := 0, syncRaised := false }) s

/-- A segment released at the E0 of this tick stays in its queue when SAF decides SS1-r or STO in the tick, and moves nothing (R27). [DEDUCED, log 136] -/
def keepReleased (g : Nat) (s : State) : State :=
  onGrp g (fun y => match y.active with
    | some r => if r.fresh then { y with queue := r.seg :: y.queue, active := none } else y
    | none => y) s

/-- Stretch the SYNC profiles of set k to its longest duration (R226). -/
def syncStretch (k : Nat) (s : State) : State :=
  let gs := bitsOf (nth s.image.syncSets k)
  let d := gs.foldl (fun m g => match (grpSt s g).active with | some r => max m r.dur | none => m) 0
  forAll gs (fun g => onGrp g (fun x => { x with active := x.active.map (fun r => { r with durSet := d }) })) s

/-- Start what may start in group g: its head, or with its whole sync set; otherwise it waits in WAIT_SYNC. -/
def startStep (g : Nat) (s : State) : State :=
  match headFree s g with
  | none => s
  | some h =>
    if hasBit h.flags 1 then
      if syncReady s h.sync then syncStretch h.sync (forAll (bitsOf (nth s.image.syncSets h.sync)) startHead s)
      else onGrp g (fun x => { x with state := .waitSync, syncWait := x.syncWait + 1 }) s
    else startHead g s

/-! ### References (R219 to R231) -/

/-- Advance a running segment by a scale over one tick (R221, R229). [DESIGN CHOICE, log 9; DESIGN CHOICE, log 67] -/
def advance (s : State) (g sigma : Nat) (r : RunSeg) : RunSeg :=
  let r := { r with tauPrev := r.tau, tau := r.tau + sigma * 2 ^ 30, dwell := (if (grpSt s g).state == MState.moving then r.dwell + 1 else r.dwell), sPrev := r.s }
  { r with s := runS s g r }

/-- Whether the next segment blends into the running one (R224). [DESIGN CHOICE, log 64] -/
def mayBlend (r : RunSeg) (h : Segment) : Bool :=
  ((jointKind r.seg && jointKind h) || (cartesian r.seg && cartesian h)) &&
    !(hasBit h.flags 4 || hasBit h.flags 1 || hasBit h.flags 2)

/-- In the first tick with the remaining path at or below BLEND, the segment at the head starts beside the running one. [DESIGN CHOICE, log 64] -/
def blendStep (g : Nat) (s : State) : State :=
  let x := grpSt s g
  match x.active, x.blend with
  | some r, none =>
    let p := pathAt s g r
    let before := r.tauPrev != 0 && blendReached { p with tau := stretch r r.tauPrev }
    if x.state == .moving && hasBit r.seg.flags 0 && blendReached p && !before then
      match x.queue with
      | h :: q =>
        if mayBlend r h then
          let b := advance s g x.sigma (startRun s g h (endOf s g r.seg (startOf r)))
          onGrp g (fun y => { y with blend := some b, queue := q, segId := h.segId }) s
        else s
      | [] => s
    else s
  | _, _ => s

/-- The conveyor's travel since the segment's start, as a displacement in the group's base frame (R227): along the axis of the
conveyor's joint 0, in metres. -/
def trackShift (s : State) (g : Nat) (r : RunSeg) : List Rat :=
  if !hasBit r.seg.flags 2 then [0, 0, 0]
  else
    let h := r.seg.trk
    let j := nth (grpCfg s h).joints 0
    let z := (rotCol (mulMat (baseRot s h) (quatMat (j.frame.drop 3))) 2).map f32Val
    let m : Rat := (posDiff (conveyorPos s h) r.track : Rat) / 16777216 / (if f32Val j.scale = 0 then 1 else f32Val j.scale)
    rScale m ((mulVecT (baseRot s g) (z.map f32OfRat)).map f32Val)

/-- The pose record, in the group's base frame, that R230 resolves in this tick. -/
def targetRec (s : State) (g : Nat) (r : RunSeg) (b : Option RunSeg) : List F32 :=
  let p := planPose (pathAt s g r) (b.map (pathAt s g))
  (rAdd (p.take 3) (trackShift s g r)).map f32OfRat ++ qMat (p.drop 3)

/-- Joint coordinates of references by group axis index. -/
def coordsOf (c : GroupCfg) (q : List Pos) : List F32 := (List.range c.nj).map (fun i => jointCoord (nth c.joints i) (nth q i))

/-- The joint coordinates that R230 resolves, from the references of the tick before. -/
def ikCoords (s : State) (g : Nat) (prev : List Pos) (r : RunSeg) (b : Option RunSeg) : List F32 :=
  ikSolve (grpCfg s g) (targetRec s g r b) (redundZ s g) (coordsOf (grpCfg s g) prev)

/-- References by group axis index on the running path. -/
def pathRefs (s : State) (g : Nat) (prev : List Pos) (r : RunSeg) (b : Option RunSeg) : List Pos :=
  let p := pathIn s g r.seg r.start r.pose0
  let q := if cartesian r.seg then ikCoords s g prev r b else []
  (List.range 16).map (fun i =>
    if cartesian r.seg && i < 12 then
      (if i < (grpCfg s g).nj then jointPos (nth (grpCfg s g).joints i) (nth prev i) (nth q i) else nth prev i)
    else
      axisVal p i r.s + (match b with
        | some b => axisVal (pathIn s g b.seg b.start b.pose0) i b.s - nth b.start i
        | none => 0))

/-- The reference of axis a moves to p. -/
def moveRef (a : Nat) (p : Pos) (v w : BitVec 32) (s : State) : State :=
  onAxis a (fun x => { x with
    refPrev := x.ref, refOld := x.refPrev, velOld := x.vel, accOld := x.acc, ref := p, vel := v, acc := w }) s

/-- The reference of the tick is not used: the one before stands (R75). [DESIGN CHOICE, log 69] -/
def lastRef (a : Nat) (s : State) : State :=
  onAxis a (fun x => { x with ref := x.refPrev, refPrev := x.refOld, vel := x.velOld, acc := x.accOld }) s

/-- A velocity in 2^-24 count per tick as a word of 16 fraction bits. -/
def velWord (d : Int) : BitVec 32 := BitVec.ofInt 32 (clampI (-2147483648) 2147483647 (divHalfUp d 256))

/-- Hold the reference of axis a. -/
def holdRef (a : Nat) (s : State) : State := moveRef a (axSt s a).ref 0 0 s

/-- The search and the stop of homing on a local channel (R169, R170): HSPD in the search direction, HDEC when it ends. -/
def homeRef (a c : Nat) (s : State) : State :=
  let x := chSt s c
  let f := chanCfg s c
  let d := posDiff (axSt s a).ref (axSt s a).refPrev
  let dec : Int := (f.hdec : Int) * 262144
  let step : Int :=
    if x.busy && x.hphase != 4 && !x.hstop then (if x.hdir then -(f.hspd : Int) else f.hspd) * 16777216
    else if 0 ≤ d then max 0 (d - dec) else min 0 (d + dec)
  let s := moveRef a ((axSt s a).ref + posOf step) (velWord step) 0 s
  if step = 0 && !x.busy then onAxis a (fun y => { y with homing := false }) s else s

/-- Whether the axis is homed by its far end (R213). -/
def remoteHoming (x : AxisSt) : Bool := x.hgo.isSome || x.hbusy

/-- The reference of a resting axis: held, or moved by homing. -/
def restRef (a : Nat) (s : State) : State :=
  match (axisCfg s a).src with
  | .axio c => if (axSt s a).homing then homeRef a c s else holdRef a s
  | _ => holdRef a s

/-- The joint speed cap (R228): every step of the group shortened by AVMAX / |step| of the worst axis, rounded down. -/
def speedCap (g : Nat) (s : State) : State :=
  let as := (axesOf s g).filter (fun a => !(axSt s a).homing)
  let rs := as.filterMap (fun a =>
    let d : Nat := (posDiff (axSt s a).ref (axSt s a).refPrev).natAbs
    let v : Rat := f32Val (axisCfg s a).avmax * 16777216
    if v < d then some ((v / d) * 32768).floor.toNat else none)
  match rs with
  | [] => s
  | _ =>
    let r := minNat 32768 rs
    let cut (x : RunSeg) : RunSeg :=
      let y := { x with tau := x.tauPrev + (x.tau - x.tauPrev) * r / 32768 }
      { y with s := runS s g y }
    let s := forAll as (fun a => onAxis a (fun x => { x with
      ref := x.refPrev + posOf (divHalfUp (posDiff x.ref x.refPrev * r) 32768) })) s
    event 0x0521 g (onGrp g (fun x => { x with
      active := x.active.map cut, blend := x.blend.map cut, sigCap := x.sigma * r / 32768 }) s)

/-- A residual beyond tolerance (R231): used, recorded, and the group passes to HALTING. -/
def residualCheck (g : Nat) (prev : List Pos) (s : State) : State :=
  match (grpSt s g).active with
  | none => s
  | some r =>
    if !cartesian r.seg then s
    else
      let b := (grpSt s g).blend
      let e := ikResidual (grpCfg s g) (targetRec s g r b) (ikCoords s g prev r b)
      if e.2 then
        event 0x0520 g (onGrp g (fun x => { x with
          resid := min 0xFFFF e.1, ikcnt := satAdd 0xFFFF x.ikcnt 1,
          state := (if x.state == .moving then .halting else x.state),
          active := x.active.map (fun y => { y with halt := if y.halt.isSome then y.halt else some y.tau }),
          blend := x.blend.map (fun y => { y with halt := if y.halt.isSome then y.halt else some y.tau }) }) s)
      else s

/-- A number of 2^-24 count as a word of 16 fraction bits. -/
def rateWord (d : Rat) : BitVec 32 := BitVec.ofInt 32 (clampI (-2147483648) 2147483647 (roundHalfUp (d / 256)))

/-- Reference velocity and acceleration of axis a at its new reference: the plan's at the scale of the tick, and for a joint of a
Cartesian segment what the references themselves show. [DESIGN CHOICE, log 10] -/
def pathRate (s : State) (g a sigma : Nat) (r : RunSeg) (p : Pos) : BitVec 32 × BitVec 32 :=
  let i := (axisCfg s a).index
  let b := (grpSt s g).blend.map (pathAt s g)
  if cartesian r.seg && i < 12 then
    let v := velWord (posDiff p (axSt s a).ref)
    (v, v - (axSt s a).vel)
  else
    let k : Rat := (sigma : Rat) / 32768 * stretchRate r
    (rateWord (jointRateAt (pathAt s g r) b i * k), rateWord (jointAccelAt (pathAt s g r) b i * k * k))

/-- The references of a group on its path for this tick. -/
def pathStep (g : Nat) (s : State) : State :=
  let prev := refsOf s g
  let sg := (grpSt s g).sigma
  let s := onGrp g (fun x => { x with active := x.active.map (advance s g sg), blend := x.blend.map (advance s g sg) }) s
  let s := blendStep g s
  match (grpSt s g).active with
  | none => forAll (axesOf s g) restRef s
  | some r =>
    let q := pathRefs s g prev r (grpSt s g).blend
    let s := forAll (axesOf s g) (fun a t =>
      if (axSt t a).homing then restRef a t
      else
        let p := nth q (axisCfg t a).index
        let w := pathRate t g a sg r p
        moveRef a p w.1 w.2 t) s
    residualCheck g prev (speedCap g s)

/-- The reference of a group in SS1-r before the ramp of the tick: the last step again (R234). [DESIGN CHOICE, log 67] -/
def rampStep (g : Nat) (s : State) : State :=
  forAll (axesOf s g) (fun a t =>
    let d := posDiff (axSt t a).ref (axSt t a).refPrev
    moveRef a ((axSt t a).ref + posOf d) (velWord d) 0 t) s

/-- References of group g for the tick, by its state (R220). -/
def refStep (g : Nat) (s : State) : State :=
  match (grpSt s g).state with
  | .disabled | .cloche | .enabling => s
  | .moving | .halting => pathStep g s
  | .stopping => rampStep g s
  | _ => forAll (axesOf s g) restRef s

/-- Conveyors first, then the others (R227). -/
def genOrder (s : State) : List Nat :=
  let gs := bitsOf (defined s)
  gs.filter (fun g => (grpCfg s g).kind = 2) ++ gs.filter (fun g => (grpCfg s g).kind != 2)

/-- The trajectory generator at E0 (R221): ends, requests, starts, scales and references. -/
def generate (s : State) : State :=
  let gs := bitsOf (defined s)
  let s := forAll gs finishGroup s
  let s := forAll gs zoneStep s
  let s := forAll gs startStep s
  let s := forAll gs setSigma s
  let low := gs.map (fun g => (g, minNat 32768 ((syncMates s g).map (fun h => (grpSt s h).sigma))))
  let s := forAll low (fun p => onGrp p.1 (fun x => { x with sigma := p.2 })) s
  forAll (genOrder s) refStep s

/-- A granted group starts in the same tick (R28): its head, and its references of the tick. -/
def grantedStart (g : Nat) (s : State) : State :=
  if (grpSt s g).state == .waitZone && !awaitsZone s g then
    let s := startStep g (zoneStep g s)
    if (grpSt s g).state == .moving then refStep g s else s
  else s

/-- ZONE_ARBITER_DECISION (R290): once per tick, before its deadline; granted groups start in this tick. -/
def zoneArbiterDecision (s : State) : State :=
  if (slackSt s 0).missNow || (slackSt s 0).done != 0 || s.image.compat then s
  else forAll (bitsOf (defined s)) grantedStart (decideZones s)

/-! ### Group commands (R219, R233, R393) -/

/-- Begin halting along the path (R219). [DESIGN CHOICE, log 63] -/
def toHalting (g : Nat) (s : State) : State :=
  onGrp g (fun x => { x with
    state := .halting,
    active := x.active.map (fun r => { r with halt := some r.tau }),
    blend := x.blend.map (fun r => { r with halt := some r.tau }) }) s

/-- Flush one group. -/
def flushGroup (g : Nat) (s : State) : State :=
  let s := onGrp g (fun x => { x with queue := [] }) s
  match (grpSt s g).state with
  | .moving | .waitZone | .waitSync => toHalting g (withdrawZone g s)
  | _ => s

/-- Halt one group. -/
def haltGroup (g : Nat) (s : State) : State :=
  match (grpSt s g).state with
  | .moving => toHalting g s
  | .waitZone | .waitSync => onGrp g (fun x => { x with state := .halted }) (withdrawZone g s)
  | _ => s

/-- A segment continues from where it came to rest. [DESIGN CHOICE, log 63] -/
def resumeRun (r : RunSeg) : RunSeg := { r with s0 := r.s, tau := 0, tauPrev := 0, halt := none, dur := 0, durSet := 0 }

/-- Resume one HALTED group. -/
def resumeGroup (g : Nat) (s : State) : State :=
  let x := grpSt s g
  if x.state != .halted then s
  else onGrp g (fun x => { x with
    state := (if x.active.isSome then .moving else .idle),
    active := x.active.map resumeRun, blend := x.blend.map resumeRun, syncWait := 0, syncRaised := false }) s

/-- The enabling device is in its middle position at E0 with the pendant present (R340, R347). -/
def enabled (s : State) : Bool := s.saf.pres && !(nth s.saf.pend 0).sampled

/-- Why a group cannot be enabled (R233, R347, R393): 0 it can, 1 REINIT, 2 tool, 3 record, 4 stopped, 5 enabling device. -/
def enableRefusal (s : State) (g : Nat) : Nat :=
  if (axesOf s g).any (fun a => (axSt s a).reinit) then 1
  else if !(grpSt s g).toolOk then 2
  else if !s.saf.match_ then 3
  else if (grpSt s g).state != .disabled || (safG s g).state == .ss1r || (safG s g).state == .sto ||
      (safG s g).state == .cloche then 4
  else if s.saf.mode != 0 && !enabled s then 5
  else 0

/-- In a pair both devices start an enabled group alike (R431): σ 0, its USE 1 and USE 2 problems cold. -/
def pairEnable (g : Nat) (s : State) : State :=
  if s.pair.cfg then
    forAll ((List.range s.image.probs.length).filter (fun p => hasBit (probGroups s p) g))
      (fun p => onProb p (fun x => { x with warm := none })) (onGrp g (fun x => { x with sigma := 0 }) s)
  else s

/-- A group becomes ENABLING in this tick (R233). -/
def startEnable (g : Nat) (s : State) : State :=
  pairEnable g (onGrp g (fun x => { x with
    state := .enabling, enableTick := s.time.tickno, active := none, blend := none }) s)

/-- ENABLE_COMPLETE (R233): IDLE at E0 of tick enable + BRKDLY + 1. -/
def enableComplete (g : Nat) (s : State) : State :=
  if (grpSt s g).state == .enabling && (grpSt s g).enableTick + (grpCfg s g).brkdly + 1 ≤ s.time.tickno then
    onGrp g (fun x => { x with state := .idle }) s
  else s

/-- Homing ends with a failure when its group stops or leaves motion enable (R169). -/
def homingStop (g : Nat) (s : State) : State :=
  forAll (axesOf s g) (fun a s => match (axisCfg s a).src with
    | .axio c => if (chSt s c).busy then homeFail c 5 s else s
    | _ => s) s

/-- Disable one group: IDLE or HALTED pass to DISABLED; its open work is dropped, and its homing fails. -/
def disableGroup (g : Nat) (s : State) : State :=
  match (grpSt s g).state with
  | .idle | .halted => onGrp g (fun x => { x with state := .disabled, active := none, blend := none }) (withdrawZone g (homingStop g s))
  | _ => s

/-- SYNC_TIMEOUT (R226): once, and the group keeps waiting. -/
def syncTimeout (g : Nat) (s : State) : State :=
  let x := grpSt s g
  if x.state == .waitSync && !x.syncRaised && (grpCfg s g).syncTmo < x.syncWait then
    event 0x0513 g (onGrp g (fun x => { x with syncRaised := true }) s)
  else s

/-- A group enters Cloche (R312): motion state, queue flushed, its request withdrawn. -/
def enterCloche (g : Nat) (s : State) : State :=
  let s := onGrp g (fun x => { x with state := .cloche, queue := [], active := none, blend := none, leave := 0 }) (withdrawZone g s)
  forAll (axesOf s g) (fun a => onAxis a (fun x => { x with hgo := none, hbusy := false })) s

/-! ### The meanings -/

def execZoneArbiterDecision (s : State) : Out := runIn .trl zoneArbiterDecision s
def execEnableComplete (g : Nat) (s : State) : Out := runIn .mot (enableComplete g) s
def execSyncTimeout (g : Nat) (s : State) : Out := runIn .mot (syncTimeout g) s

end Sys2Proof.Machine
end

