-- ==== Sys2Proof/Machine/Trellis.lean ====
section
/-! DEFINITION. Trellis.lean: tracked objects, pairs and batches, the Hedge, and the release of the speed scales (R273 to
R289). -/

namespace Sys2Proof.Machine

/-! ### Tracked objects (R276 to R278) -/

/-- A little-endian field of n bytes of a payload. -/
def leField (bs : List Byte) (ofs n : Nat) : Nat :=
  (List.range n).foldl (fun v i => v + (nth bs (ofs + i)).toNat * 256 ^ i) 0

/-- A signed 32-bit field. -/
def leInt (bs : List Byte) (ofs : Nat) : Int := (BitVec.ofNat 32 (leField bs ofs 4)).toInt

/-- Entries of a sensor payload: COUNT of them, or none when FORMAT or COUNT is out of range. -/
def sensorEntries (p : List Byte) : List Nat :=
  let c := leField p 1 1
  if leField p 0 1 = 1 && leField p 2 2 = 0 && c ≤ 3 then (List.range c).map (fun i => 4 + 20 * i) else []

/-- Whether an entry of sensor k is well formed (R276). -/
def entryOk (s : State) (k : Nat) (p : List Byte) (o : Nat) : Bool :=
  let j := leField p o 1
  j < 32 && (nth s.image.objs j).defined && (nth s.image.objs j).sensor = k && leField p (o + 1) 1 < 2 &&
    leField p (o + 18) 2 = 0

/-- A payload with something that R276 ignores. -/
def payloadBad (s : State) (k : Nat) (p : List Byte) : Bool :=
  leField p 0 1 != 1 || leField p 2 2 != 0 || 3 < leField p 1 1 || (sensorEntries p).any (fun o => !entryOk s k p o)

/-- The receive record of a sensor's PDU. [DESIGN CHOICE, log 72] -/
def sensorRecord (s : State) (k : Nat) : Option Nat :=
  (List.range 16).find? (fun p => (nth s.image.rx p).defined && (nth s.image.rx p).pduId = (nth s.image.sensors k).pduId)

/-- The PDU in use of sensor k at E0: the frozen one unless its capture tick lies ahead (R276). [DESIGN CHOICE, log 72] -/
def sensorUse (k : Nat) (s : State) : State :=
  match (if (nth s.image.sensors k).defined then sensorRecord s k else none) with
  | none => s
  | some r =>
    match (nth s.saf.rx r).frozen with
    | none => s
    | some d =>
      if s.time.tickno < d.captick then event 0x0702 r s
      else
        let new := !((nth s.trl.sensUse k) == some d)
        let s := { s with trl := { s.trl with sensUse := updAt s.trl.sensUse k (fun _ => some d) } }
        if new && payloadBad s k d.payload then event 0x0702 r s else s

/-- Age of the objects of sensor k (R278); without a PDU yet it is above every limit. [DESIGN CHOICE, log 72] -/
def sensorAge (s : State) (k : Nat) : Nat :=
  match nth s.trl.sensUse k with
  | some d => s.time.tickno - d.captick
  | none => 0x10000 + s.time.tickno

/-- A measure in mm or mm/s as metres. -/
def metres (n : Nat) : F32 := f32OfRat ((n : Rat) / 1000)

/-- Object j older than AGEMAX is replaced by its sensor's field, once (R278). -/
def objectStale (j : Nat) (s : State) : State :=
  let c := nth s.image.objs j
  if c.defined && hasSolTrl s && (nth s.image.sensors c.sensor).ageMax < (nth s.trl.objs j).age &&
      !(nth s.trl.objs j).stale then
    event 0x0701 j (onObj j (fun x => { x with stale := true }) s)
  else s

/-- Object j at E0 (R277): presence, place, speed and age; a substitution ends when a newer PDU is in use. -/
def objectPlace (j : Nat) (s : State) : State :=
  let c := nth s.image.objs j
  if !c.defined then s
  else
    let age := sensorAge s c.sensor
    let cfg := nth s.image.sensors c.sensor
    let s := onObj j (fun x => { x with
      age := age, stale := x.stale && cfg.ageMax < age, present := false,
      hedge := List.replicate 16 0, hfull := List.replicate 16 0, dmin := List.replicate 16 none }) s
    match nth s.trl.sensUse c.sensor with
    | none => s
    | some d =>
      forAll ((sensorEntries d.payload).filter (fun o => entryOk s c.sensor d.payload o && leField d.payload o 1 = j))
        (fun o => onObj j (fun x => { x with
          present := leField d.payload (o + 1) 1 % 2 = 1, speed := leField d.payload (o + 2) 2,
          zd := leField d.payload (o + 16) 2,
          pos := sensorToWorld cfg.spos cfg.sq
            [leInt d.payload (o + 4), leInt d.payload (o + 8), leInt d.payload (o + 12)] })) s

/-- Object j at E0 (R276 to R278). -/
def objectEdge (j : Nat) (s : State) : State := objectStale j (objectPlace j s)

/-- Object j enters pairs in this tick. -/
def objHere (s : State) (j : Nat) : Bool :=
  (nth s.image.objs j).defined && ((nth s.trl.objs j).present || (nth s.trl.objs j).stale)

/-- Object j counts as a person: a person, or anything stale. -/
def isPerson (s : State) (j : Nat) : Bool := (nth s.image.objs j).person || (nth s.trl.objs j).stale

/-! ### The Hedge (R286, R287) -/

/-- Effective scale of the set-points of a tick as binary32. -/
def effScale (n : Nat) : F32 := f32OfScale n

/-- z_r of group g: ZR, enlarged by VLINK × t for each tick since its poses were last fresh. -/
def zrOf (s : State) (g : Nat) : F32 :=
  let c := grpCfg s g
  if (trlG s g).frozenFor = 0 then c.zr
  else f32Add c.zr (f32Mul (f32Mul c.vlink (periodF s)) (f32OfNat (trlG s g).frozenFor))

/-- S_p of person j and group g at scale n / 32,768, in the order R286 writes. -/
def hedgeSp (s : State) (j g n : Nat) : F32 :=
  let c := grpCfg s g
  let x := nth s.trl.objs j
  let k := nth s.image.sensors (nth s.image.objs j).sensor
  let t := periodF s
  let vh := metres (if x.stale then k.vhMin else max x.speed k.vhMin)
  let v := f32Mul (f32OfScale n) c.vlink
  let vc := f32Mul (effScale (trlG s g).sigC) c.vlink
  let th := f32Add (f32Add (f32Add (f32Mul (f32OfNat (x.age + 2)) t) c.tdrv) c.ts0) (f32Div v c.abrk)
  let sh := f32Mul vh th
  let sr := f32Add (f32Mul vc (f32Add t c.tdrv)) (f32Mul v t)
  let ss := f32Add (f32Mul v c.ts0) (f32Div (f32Mul v v) (f32Mul (f32OfNat 2) c.abrk))
  let zd := if x.stale then 0 else metres x.zd
  f32Add (f32Add (f32Add (f32Add (f32Add sh sr) ss) (metres k.cIntr)) zd) (zrOf s g)

/-- S_p(0) and S_p(1) of every present person and group (R286). -/
def hedgeCompute (s : State) : State :=
  if !hasSolTrl s then s
  else
    forAll ((List.range 32).filter (fun j => objHere s j && isPerson s j)) (fun j s =>
      forAll (bitsOf (defined s)) (fun g s =>
        let a := hedgeSp s j g 0
        let b := hedgeSp s j g 32768
        onObj j (fun x => { x with
          sp0 := updAt x.sp0 g (fun _ => a), sp1 := updAt x.sp1 g (fun _ => b), hfull := updAt x.hfull g (fun _ => mmUp b) }) s) s) s

/-- The bisection of R287 over Q1.15 codes. -/
def bisect (s : State) (j g : Nat) (d : F32) : Nat → Nat → Nat → Nat
  | 0, lo, _ => lo
  | n + 1, lo, hi =>
    if hi - lo ≤ 1 then lo
    else
      let mid := (lo + hi) / 2
      if f32Le (hedgeSp s j g mid) d then bisect s j g d n mid hi else bisect s j g d n lo mid

/-- The pair scale of person j and group g at their lowest distance (R287). -/
def personScale (s : State) (j g : Nat) (d : F32) : Nat :=
  let x := nth s.trl.objs j
  if f32Le (nth x.sp1 g) d then 32768
  else if f32Lt d (nth x.sp0 g) then 0
  else bisect s j g d 16 0 32768

/-! ### Pairs and batches (R279 to R284) -/

/-- Solids of object j: its shapes, or the sensor's field while stale. -/
def shapesOf (s : State) (j : Nat) : List (Nat × PrimCfg) :=
  (mapIdx (fun i p => (i, p)) 0 s.image.prims).filter (fun ip => ip.2.kind != 0 &&
    (if (nth s.trl.objs j).stale then ip.2.role == .field && ip.2.ref = (nth s.image.objs j).sensor
     else ip.2.role == .shape && ip.2.owner = j))

/-- Primitives of a role with their table index. -/
def primsOf (s : State) (r : PrimRole) : List (Nat × PrimCfg) :=
  (mapIdx (fun i p => (i, p)) 0 s.image.prims).filter (fun ip => ip.2.kind != 0 && ip.2.role == r)

/-- Body primitives of group g with their table index. -/
def bodyIdx (s : State) (g : Nat) : List (Nat × PrimCfg) := (primsOf s .body).filter (fun ip => ip.2.owner = g)

/-- A pair of two primitives with CLR and SLOW the larger of theirs (R285), and their distance (R280). -/
def mkPair (s : State) (cls : PairClass) (g o : Nat) (a b : Nat × PrimCfg) (m : Mask) : PairRec :=
  { cls := cls, g := g, o := o, prim1 := a.1, prim2 := b.1, clr := f32Max a.2.clr b.2.clr,
    slow := f32Max a.2.slow b.2.slow, groups := m, d := pairGap s a.2 b.2 }

/-- The broad phase (R281): a pair that could lower a scale or be a violation is always kept, any other one may be discarded. [DEDUCED, log 13] -/
def keep (s : State) (a b : PrimCfg) (thr : F32) (p : PairRec) : Bool :=
  f32Lt p.d thr || (p.cls == .z && f32Le p.d 0) || Config.broadKeep a (placeRec s a) b (placeRec s b) thr

/-- Pairs of two lists that the broad phase keeps. -/
def crossPairs (s : State) (as bs : List (Nat × PrimCfg)) (thr : PrimCfg → PrimCfg → F32)
    (f : Nat × PrimCfg → Nat × PrimCfg → PairRec) : List PairRec :=
  as.flatMap (fun a => bs.flatMap (fun b => let p := f a b; if keep s a.2 b.2 (thr a.2 b.2) p then [p] else []))

/-- The larger SLOW of two primitives. -/
def slowOf (a b : PrimCfg) : F32 := f32Max a.slow b.slow

/-- Groups the Trellis computes pairs for. -/
def pairGroups (s : State) : List Nat := (bitsOf (defined s)).filter (fun g => !(trlG s g).noPoses)

/-- Class K: keep-outs with PKO and persons. -/
def pairsK (s : State) : List PairRec :=
  ((List.range 32).filter (fun j => objHere s j && isPerson s j)).flatMap (fun j =>
    crossPairs s ((primsOf s .keepout).filter (fun ip => ip.2.pko)) (shapesOf s j) slowOf
      (fun a b => { mkPair s .k 16 j a b a.2.gmask with clr := a.2.clr }))

/-- Classes P and O: bodies with persons, or with other objects. -/
def pairsObj (s : State) (person : Bool) : List PairRec :=
  (pairGroups s).flatMap (fun g =>
    ((List.range 32).filter (fun j => objHere s j && isPerson s j == person)).flatMap (fun j =>
      crossPairs s ((bodyIdx s g).filter (fun ip => hasBit ip.2.omask j)) (shapesOf s j)
        (fun a b => if person then nth (nth s.trl.objs j).sp1 g else slowOf a b)
        (fun a b => mkPair s (if person then .p else .o) g j a b (bitOf 16 g))))

/-- Class W: bodies with the keep-outs that guard their group. -/
def pairsW (s : State) : List PairRec :=
  (pairGroups s).flatMap (fun g =>
    crossPairs s (bodyIdx s g) ((primsOf s .keepout).filter (fun ip => hasBit ip.2.gmask g)) slowOf
      (fun a b => mkPair s .w g 0 a b (bitOf 16 g)))

/-- Class Z: bodies with the volumes of zones their group does not hold. -/
def pairsZ (s : State) : List PairRec :=
  (pairGroups s).flatMap (fun g =>
    crossPairs s (bodyIdx s g) ((primsOf s .zoneVol).filter (fun ip => !(trlG s g).held.contains ip.2.ref)) (fun _ _ => 0)
      (fun a b => mkPair s .z g b.2.ref a b (bitOf 16 g)))

/-- Class L: bodies of two groups of which either names the other; not on the VRL-6016. -/
def pairsL (s : State) : List PairRec :=
  if s.fuse.variant == .v6016 then []
  else
    (pairGroups s).flatMap (fun g => ((pairGroups s).filter (fun h => g < h)).flatMap (fun h =>
      (crossPairs s (bodyIdx s g) (bodyIdx s h) slowOf (fun a b => mkPair s .l g h a b (bitOf 16 g ||| bitOf 16 h))).filter
        (fun p => hasBit (nth s.image.prims p.prim1).gmask h || hasBit (nth s.image.prims p.prim2).gmask g)))

/-- Entries of the pair buffer (R283). -/
def pairBuffer (v : Variant) : Nat := match v with | .v6128 => 24576 | .v6064 => 12288 | .v6016 => 6144

/-- Checks of a pair: P and K count twice (R282). -/
def checksOf (p : PairRec) : Nat := match p.cls with | .p | .k => 2 | _ => 1

/-- The pairs that fit a buffer, and those beyond it. -/
def fitPairs : List PairRec → Nat → List PairRec × List PairRec
  | [], _ => ([], [])
  | p :: r, n =>
    if checksOf p ≤ n then let q := fitPairs r (n - checksOf p); (p :: q.1, q.2) else ([], p :: r)

/-- Form the pairs of the tick in issue order K, P, W, Z, O, L, and their batches of 64 (R279, R283, R284). [DEDUCED, log 73] -/
def formPairs (s : State) : State :=
  if !hasSolTrl s then s
  else
    let all := pairsK s ++ pairsObj s true ++ pairsW s ++ pairsZ s ++ pairsObj s false ++ pairsL s
    let q := fitPairs all (pairBuffer s.fuse.variant)
    let beyond := q.2.foldl (fun m p => m ||| p.groups) (0 : Mask)
    let s := { s with trl := { s.trl with
      pairs := q.1, overflow := beyond, batches := List.replicate ((q.1.length + 63) / 64) (false, false) } }
    if beyond != 0 then event 0x0730 (maskDetail beyond) s else s

/-- The scale of a W, O or L pair (R285). -/
def clearScale (p : PairRec) (d : F32) : Nat :=
  if f32Lt d p.clr then 0
  else if p.slow == p.clr then 32768
  else scaleOf (f32Div (f32Add d (f32Minus p.clr)) (f32Add p.slow (f32Minus p.clr)))

/-- LIMKIND of a class. -/
def limKind : PairClass → Nat | .p => 1 | .l => 2 | .w => 3 | .k => 3 | .z => 4 | .o => 5

/-- A scale comes before another: the lower, then the lower LIMKIND, then the lower index, whatever the order of arrival (R70). -/
def scaleBefore (n kind idx : Nat) (x : TrlGroup) : Bool :=
  n < x.minScale || (n == x.minScale && n < 32768 && (kind < x.minKind || (kind == x.minKind && idx < x.minIdx)))

/-- A scale that a pair gives a group. [DESIGN CHOICE, log 71] -/
def lowerScale (g n kind idx : Nat) (s : State) : State :=
  onTrlG g (fun x => if scaleBefore n kind (idx % 32) x then { x with minScale := n, minKind := kind, minIdx := idx % 32 } else x) s

/-- Note a checked distance of a group for `TRL.GMINDg.MIND`. -/
def noteDist (g : Nat) (d : F32) (s : State) : State :=
  onTrlG g (fun x => { x with mindNew := some (match x.mindNew with | some m => f32Min m d | none => d) }) s

/-- The event of a violation (R285). -/
def clashEvent : PairClass → Nat
  | .w => 0x0711 | .o => 0x0712 | .l => 0x0713 | .z => 0x0714 | .k => 0x0715 | .p => 0x0710

/-- What a finished pair does to its groups (R285). The two copies of a class P or K pair differ only through a fault; no copy then
counts (R282). -/
def pairResult (p : PairRec) (differ : Bool) (s : State) : State :=
  let gs := (bitsOf p.groups).filter (fun g => (grpCfg s g).defined)
  if (p.cls == .p || p.cls == .k) && differ then
    classA p.groups 16 0x0731 (event 0x0731 0 (forAll gs (fun g => lowerScale g 0 (limKind p.cls) p.o) s))
  else
    let s := forAll gs (fun g => noteDist g p.d) s
    match p.cls with
    | .p => onObj p.o (fun x => { x with
        dmin := updAt x.dmin p.g (fun m => some (match m with | some v => f32Min v p.d | none => p.d)) }) s
    | .z =>
      if f32Le p.d 0 then forAll gs (fun g s => eventOnce 0x0714 g g (lowerScale g 0 4 p.o s)) s else s
    | .k =>
      if f32Lt p.d p.clr then forAll gs (fun g s => eventOnce 0x0715 g g (lowerScale g 0 3 p.o s)) s else s
    | c =>
      forAll gs (fun g s =>
        let s := lowerScale g (clearScale p p.d) (limKind c) (if g = p.g then p.o else p.g) s
        if f32Lt p.d p.clr then eventOnce (clashEvent c) g g s else s) s

/-- PAIR_BATCH_DONE (R284): the results of a batch arrive; the operand lists the places in the batch of pairs whose two copies differ.
A batch that is pruned or late is discarded. [DESIGN CHOICE, log 13] -/
def pairBatchDone (id : Nat) (differ : List Nat) (s : State) : State :=
  if s.trl.batches.length ≤ id || nth s.trl.batches id != (false, false) || (slackSt s 5).missNow then s
  else
    let ps := (s.trl.pairs.drop (64 * id)).take 64
    let s := { s with trl := { s.trl with batches := updAt s.trl.batches id (fun b => (true, b.2)) } }
    forAll (mapIdx (fun i p => (p, differ.contains i)) 0 ps) (fun q => pairResult q.1 q.2) s

/-! ### The release at 17.0 µs (R287 to R289) -/

/-- Pairs that no batch has answered. -/
def unfinishedGroups (s : State) : Mask :=
  (mapIdx (fun i b => (i, b)) 0 s.trl.batches).foldl (fun m ib =>
    if ib.2.1 then m else ((s.trl.pairs.drop (64 * ib.1)).take 64).foldl (fun k p => k ||| p.groups) m) s.trl.overflow

/-- Persons and group g (R287): the pair scale at the lowest distance, HEDGE, TRL_SSM_SLOW. -/
def personRelease (g : Nat) (s : State) : State :=
  forAll ((List.range 32).filter (fun j => objHere s j && isPerson s j)) (fun j s =>
    match nth (nth s.trl.objs j).dmin g with
    | none => onObj j (fun x => { x with hedge := updAt x.hedge g (fun _ => nth x.hfull g) }) s
    | some d =>
      let n := personScale s j g d
      let h := mmUp (hedgeSp s j g n)
      let s := lowerScale g n 1 j (onObj j (fun x => { x with hedge := updAt x.hedge g (fun _ => h) }) s)
      if n < 32768 then eventOnce 0x0710 g g s else s) s

/-- VLINK_CHECK (R288). -/
def vlinkCheck (g : Nat) (s : State) : State :=
  let x := grpSt s g
  let c := grpCfg s g
  if (trlG s g).frozenFor != 0 || x.posesPrev.isEmpty then onTrlG g (fun y => { y with vmeas := 0 }) s
  else
    let v := f32Div (displacement ((bodiesOf s g).map (fun p => (p, placeBefore s p, placeRec s p)))) (periodF s)
    let s := onTrlG g (fun y => { y with vmeas := mmOf v }) s
    let lim := f32Add (f32Mul c.vlink (f32Max (effScale (trlG s g).sigC) (effScale (trlG s g).sigCPrev))) c.vtol
    if f32Lt lim v then
      classA (bitOf 16 g) 16 0x0703 (event 0x0703 g (onTrlG g (fun y => { y with minScale := 0, minKind := 6, minIdx := 0 }) s))
    else s

/-- Release SCALE, STOPREQ and MIND of group g (R289, R70). -/
def scaleRelease (g : Nat) (s : State) : State :=
  let s := onTrlG g (fun x => { x with mind := x.mindNew }) s
  if (trlG s g).noPoses then
    onTrlG g (fun x => { x with scale := 0, stopreq := true, limkind := 7, limidx := 0 }) s
  else
    let s := vlinkCheck g (personRelease g s)
    onTrlG g (fun x => { x with
      scale := x.minScale, stopreq := x.minScale < (grpCfg s g).smin,
      limkind := (if x.minScale < 32768 then x.minKind else 0), limidx := (if x.minScale < 32768 then x.minIdx else 0) }) s

/-- The Trellis at 17.0 µs: the groups with an unfinished pair miss, the others are released. -/
def trellisRelease (s : State) : State :=
  if !hasSolTrl s then s
  else
    let miss := unfinishedGroups s &&& defined s
    let s := forAll ((bitsOf (defined s)).filter (fun g => !hasBit miss g)) scaleRelease s
    let s := forAll (bitsOf miss) (fun g => onTrlG g (fun x => { x with limkind := 7, limidx := 0 })) s
    let s := if miss != 0 then missPhase 5 miss s else s
    { s with trl := { s.trl with
      pairsLast := min 0xFFFF ((s.trl.pairs.map checksOf).foldl (· + ·) 0), batchesLast := s.trl.batches.length,
      pairs := [], batches := [] } }

/-- The Trellis at E0: PDUs in use, objects, the terms of the tick before cleared. -/
def trellisEdge (s : State) : State :=
  let s := zonesEdge s
  if !hasSolTrl s then s
  else
    let s := forAll (List.range 32) objectEdge (forAll (List.range 16) sensorUse s)
    { s with trl := { s.trl with
      pairs := [], batches := [], overflow := 0,
      g := s.trl.g.map (fun x => { x with minScale := 32768, minKind := 0, minIdx := 0, mindNew := none }) } }

def execObjectStale (j : Nat) (s : State) : Out := runIn .trl (objectStale j) s
def execPairBatchDone (id : Nat) (differ : List Nat) (s : State) : Out := runIn .trl (pairBatchDone id differ) s

end Sys2Proof.Machine
end

