-- ==== Sys2Proof/Machine/Kinematics.lean ====
section
/-! DEFINITION. Kinematics.lean: feedback of the tick (R31, R210 to R213) and the KDE (R237 to R243). -/

namespace Sys2Proof.Machine

/-! ### Null feedback (R31, R133, R157) -/

/-- The uplink segment of node j used in this tick. [DESIGN CHOICE, log 53] -/
def usedSeg (s : State) (r j : Nat) : Option UpSeg :=
  match (nodeSt s r j).up with
  | some u => if u.null then none else some u
  | none => none

/-- Count the null segments of ring r (R31, R133): RING_NULL for a member without a used segment. -/
def nullRing (r : Nat) (s : State) : State :=
  let s := onRing r (fun x => { x with nullNow := 0 }) s
  forAll ((ringNodes s r).filter (fun j => j != (ringSt s r).node)) (fun j s =>
    if (usedSeg s r j).isSome then onNode r j (fun n => { n with nullRun := 0, fbLost := false }) s
    else
      let s := onNode r j (fun n => { n with nullRun := satAdd 255 n.nullRun 1 }) s
      if hasBit (ringSt s r).members j then
        event 0x0340 (nodeDetail r j) (onRing r (fun x => { x with nullNow := x.nullNow ||| bitOf 32 j }) s)
      else s) s

/-- Count the null feedback of the local channels (R157). -/
def nullChans (s : State) : State :=
  { s with axio := s.axio.map (fun x =>
      if x.fbNull then { x with nullRun := satAdd 255 x.nullRun 1 } else { x with nullRun := 0, fbLost := false }) }

/-- The consecutive null count of a source. [DESIGN CHOICE, log 53] -/
def nullRunOf (s : State) : FbSource → Nat
  | .node r j => (nodeSt s r j).nullRun
  | .chan c => (chSt s c).nullRun

/-- The image's limit of R31. -/
def nullLimit (s : State) : Nat := s.image.nullLim

/-- The groups of a source. -/
def sourceGroups (s : State) : FbSource → Mask
  | .node r j => groupsOfNode s r j
  | .chan c => groupsOf s (fun _ x => portAtChan c x.src)

/-- Whether MOT_FB_LOST has been raised for a source since its feedback was lost. -/
def sourceLost (s : State) : FbSource → Bool
  | .node r j => (nodeSt s r j).fbLost
  | .chan c => (chSt s c).fbLost

/-- Note that a source is lost. -/
def markLost (src : FbSource) (s : State) : State :=
  match src with
  | .node r j => onNode r j (fun n => { n with fbLost := true }) s
  | .chan c => onChan c (fun x => { x with fbLost := true }) s

/-- FEEDBACK_NULL_LIMIT (R31): the groups of the source enter SS1-r with cause 12; MOT_FB_LOST. -/
def feedbackNullLimit (src : FbSource) (s : State) : State :=
  let m := sourceGroups s src
  if nullRunOf s src ≤ nullLimit s || sourceLost s src || m == 0 then s
  else demandStop m 12 (latchA m 16 0x0501 (event 0x0501 (maskDetail m) (markLost src s)))

/-! ### Positions (R210 to R213) -/

/-- The feedback of axis a in this tick is p. -/
def takeFb (a : Nat) (p : Pos) (s : State) : State :=
  onAxis a (fun x => { x with
    fbPrev := x.fb, fbPrevTick := x.fbTick, fb := p, fbTick := s.time.tickno, used := true, nullfb := false,
    lost := false }) s

/-- The feedback of axis a is null and held; beyond the limit it counts as lost (R31). -/
def holdFb (a run : Nat) (s : State) : State :=
  onAxis a (fun x => { x with used := false, nullfb := true, lost := x.lost || nullLimit s < run }) s

/-- Initialise the position of axis a (R212): REINIT and MOT_FB_REINIT unless it is endless; an absolute axis clears REINIT at
the next E0. [DESIGN CHOICE, log 65] -/
def initFb (a : Nat) (p : Pos) (s : State) : State :=
  let s := onAxis a (fun x => { x with
    init := true, fb := p, fbPrev := p, fbTick := s.time.tickno, fbPrevTick := s.time.tickno - 1, used := true,
    nullfb := false, lost := false }) s
  if (axisCfg s a).endless then s
  else event 0x0502 a (onAxis a (fun x => { x with reinit := true, reinitClear := (axisCfg s a).abs }) s)

/-- The 48-bit raw value of an uplink entry (R211). -/
def rawOf (e : UpEntry) : BitVec 48 := e.pos ++ e.posf

/-- The position a raw value initialises an axis to (R212). -/
def rawPos (s : State) (a : Nat) (raw : BitVec 48) : Pos := (raw.signExtend 64 <<< 8) + (axisCfg s a).aofs

/-- The unwrap of R211. -/
def unwrap (x : AxisSt) (raw : BitVec 48) : Pos := x.fb + ((raw - x.rawPrev).signExtend 64 <<< 8)

/-- The far end's homing report in a used entry (R213). -/
def remoteReport (a : Nat) (st : BitVec 16) (s : State) : State :=
  let x := axSt s a
  let busy := hasBit st 13
  let hres := (st.toNat / 1024) % 8
  if (axisCfg s a).abs then s
  else if x.hgo.isSome && busy then onAxis a (fun x => { x with hgo := none, hbusy := true }) s
  else if x.hbusy && !busy then
    let s := onAxis a (fun x => { x with hbusy := false }) s
    if hres = 1 && hasBit st 15 then event 0x0503 a (onAxis a (fun x => { x with reinitClear := true }) s)
    else event 0x0504 a s
  else s

/-- A used ring entry of axis a (R211 to R213). -/
def ringFb (a : Nat) (e : UpEntry) (s : State) : State :=
  let x := axSt s a
  let c := axisCfg s a
  let raw := rawOf e
  let s := remoteReport a e.axstat s
  let refj := hasBit e.axstat 14 && !c.abs
  let s :=
    if !x.init || x.lost then initFb a (rawPos s a raw) s
    else if refj then
      let p := rawPos s a raw
      let d := p - x.fb
      onAxis a (fun y => { y with ref := y.ref + d, refPrev := y.refPrev + d, refOld := y.refOld + d, spt := y.spt + d, fb := y.fb + d })
        (takeFb a p (onAxis a (fun y => { y with fb := p - d }) s)) |> onAxis a (fun y => { y with fb := p, fbPrev := p })
    else takeFb a (unwrap x raw) s
  let s := onAxis a (fun y => { y with rawPrev := raw, axstat := e.axstat }) s
  if !hasBit e.axstat 15 && !c.abs && !c.endless && !(axSt s a).reinit then
    event 0x0502 a (onAxis a (fun y => { y with reinit := true }) s)
  else s

/-- Feedback of axis a at 5.0 µs. -/
def axisFb (a : Nat) (s : State) : State :=
  let x := axSt s a
  match (axisCfg s a).src with
  | .none => takeFb a x.spt s
  | .axio c =>
    if (chSt s c).fbNull then holdFb a (chSt s c).nullRun s
    else if !x.init || x.lost then initFb a (chSt s c).pos s
    else takeFb a (chSt s c).pos s
  | .ring r j e =>
    match usedSeg s r j with
    | some u => if e < u.entries.length then ringFb a (nth u.entries e) s else holdFb a (nodeSt s r j).nullRun s
    | none => holdFb a (nodeSt s r j).nullRun s

/-- References that follow the feedback (R213, R220, R233): DISABLED, CLOCHE, the enable tick, and an axis homed by its far
end. -/
def followFb (a : Nat) (s : State) : State :=
  let x := axSt s a
  let g := grpSt s (axisCfg s a).group
  let here (s : State) : State := onAxis a (fun y => { y with ref := y.fb, refPrev := y.fb, refOld := y.fb, vel := 0, velOld := 0, acc := 0, accOld := 0 }) s
  match g.state with
  | .disabled | .cloche => onAxis a (fun y => { y with homing := false }) (here s)
  | .enabling => if g.enableTick = s.time.tickno then onAxis a (fun y => { y with frozen := y.fb }) (here s) else s
  | _ => if remoteHoming x then here s else s

/-- Axes of the image. -/
def allAxes (s : State) : List Nat := (List.range s.image.axes.length).filter (fun a => (axisCfg s a).defined)

/-- FEEDBACK_DEADLINE (R25): null data held and counted, entries unwrapped, feedback released to slices and Trellis. -/
def feedbackDeadline (s : State) : State :=
  if nodeMode s || s.mot.fbRel then s
  else
    let s := nullChans (forAll (List.range (maxRings s.fuse.variant)) nullRing s)
    let s := forAll (allAxes s) (fun a t => followFb a (axisFb a t)) s
    let s := hedgeCompute s
    resumeSlices false { s with mot := { s.mot with fbRel := true } }

/-- REMOTE_HOME_TIMEOUT (R213): no HBUSY within 64 ticks of HGO. -/
def remoteHomeTimeout (a : Nat) (s : State) : State :=
  match (axSt s a).hgo with
  | some t => if t + 64 ≤ s.time.tickno then event 0x0504 a (onAxis a (fun x => { x with hgo := none }) s) else s
  | none => s

/-- REINIT clears at this E0 (R212, R213). -/
def reinitEdge (s : State) : State :=
  { s with mot := { s.mot with axes := s.mot.axes.map (fun x =>
      if x.reinitClear then { x with reinit := false, reinitClear := false } else x) } }

/-! ### The KDE (R237 to R243) -/

/-- A list of words with a NaN or an infinity. -/
def notFinite (l : List F32) : Bool := l.any f32Special

/-- MOT_KDE_NAN (R243). -/
def kdeNan (g : Nat) (s : State) : State :=
  event 0x0522 g { s with mot := { s.mot with
    kdeNan := updAt s.mot.kdeNan (grpCfg s g).kdeb (fun n => satAdd 0xFFFF n 1) } }

/-- The pose record that carries the base frame of group g (R18, R240). -/
def baseRecord (s : State) (g : Nat) : List F32 :=
  let c := grpCfg s g
  if c.baseg < 16 then
    let b := grpSt s c.baseg
    nth (match b.posesNew with | some p => p | none => b.poses) c.baselink
  else []

/-- Measured positions of the chain joints of group g. -/
def jointFb (s : State) (g : Nat) : List Pos :=
  (List.range (grpCfg s g).nj).map (fun i => match axisAt s g i with | some a => (axSt s a).fb | none => 0)

/-- Forward kinematics of group g completes (R240, R243). -/
def posesDone (g : Nat) (s : State) : State :=
  if (grpSt s g).frozenPoses then s
  else
    let p := kdePoses (grpCfg s g) (jointFb s g) (baseRecord s g)
    if p.any notFinite then kdeNan g s else onGrp g (fun x => { x with posesNew := some p }) s

/-- Groups in base order: a base before its dependants (R18, R237). -/
def baseOrder (s : State) (m : Mask) : List Nat :=
  [1, 2, 3, 4].flatMap (fun d => (bitsOf (m &&& defined s)).filter (fun g => (chainOf s g 3).length = d))

/-- The groups of a mask with the groups they stand on: the KDE evaluates a base first (R18). -/
def withBases (s : State) (m : Mask) : Mask :=
  m ||| maskOf 16 (fun b => (bitsOf m).any (fun g => (chainOf s g 3).contains b))

/-- The groups a KDE block serves, in base order, with the coordinates, rates and accelerations of their references (R239, R242). -/
def blockMotion (s : State) (k : Nat) : List DynIn :=
  (baseOrder s (groupsOfKde s k)).map (fun g =>
    let c := grpCfg s g
    let of (f : JointCfg → AxisSt → F32) : List F32 := (List.range c.nj).map (fun i =>
      match axisAt s g i with | some a => f (nth c.joints i) (axSt s a) | none => 0)
    { g := g, cfg := c, q := of (fun j x => jointCoord j x.ref), qd := of (fun j x => jointRate j (periodF s) x.vel),
      qdd := of (fun j x => jointAccel j (periodF s) x.acc) })

/-- The torque word of R197 from a binary32 in 2^-16 of rated torque: nearest, ties towards +∞, saturated. -/
def tffWord (x : F32) : BitVec 24 := BitVec.ofInt 24 (clampI (-8388608) 8388607 (roundHalfUp (f32Val x)))

/-- Jacobian and inverse dynamics of group g complete (R241 to R243). -/
def dynamicsDone (g : Nat) (s : State) : State :=
  if (grpSt s g).frozenPoses then s
  else
    let c := grpCfg s g
    let s := onGrp g (fun x => { x with jacNew := some (kdeJacobian c x.poses) }) s
    let as := (List.range c.nj).filterMap (axisAt s g)
    if !c.dynOn then forAll as (fun a => onAxis a (fun x => { x with tffNew := some (0, true) })) s
    else
      let t := ((kdeTorques (blockMotion s c.kdeb)).find? (fun x => x.1 == g)).elim [] (·.2)
      let s := if notFinite (t.take c.nj) then kdeNan g s else s
      forAll as (fun a => onAxis a (fun x =>
        let v := nth t (axisCfg s a).index
        { x with tffNew := some (if f32Special v then (0, false) else (tffWord v, true)) })) s

/-- Release link poses at 7.0 µs (R240, R243, R286): a group without new poses keeps its last ones, older by one tick. -/
def posesRelease (s : State) : State :=
  forAll (bitsOf (defined s)) (fun g s =>
    match (grpSt s g).posesNew with
    | some p =>
      onTrlG g (fun x => { x with frozenFor := 0, everPoses := true, noPoses := false })
        (onGrp g (fun x => { x with
          posesPrev := (if (trlG s g).frozenFor = 0 then x.poses else []), poses := p, posesNew := none, posesOk := true }) s)
    | none =>
      onTrlG g (fun x => { x with frozenFor := x.frozenFor + 1, noPoses := x.noPoses || !x.everPoses })
        (onGrp g (fun x => { x with posesOk := false }) s)) s

/-- The tool-centre-point speed at 9.0 µs (R241). -/
def tcpRelease (g : Nat) (s : State) : State :=
  let x := grpSt s g
  if !x.posesOk then s
  else
    let tool := (nth x.poses ((grpCfg s g).nj + 1)).take 3
    let dt := (s.time.tickno - x.lastToolTick) * periodNs s
    onGrp g (fun y => { y with
      lastTool := tool, lastToolTick := s.time.tickno,
      tcpv := (if x.lastTool.isEmpty then y.tcpv else min 0xFFFF (tcpSpeed tool x.lastTool dt)) }) s

/-- Release Jacobians, speeds and feedforward at 9.0 µs; without them TFF is 0 with FFV 0 (R197, R241, R242). -/
def dynamicsRelease (m : Mask) (s : State) : State :=
  let s := forAll (bitsOf (defined s)) (fun g s =>
    let s := if hasBit m g then
        tcpRelease g (onGrp g (fun x => { x with jac := x.jacNew.getD x.jac }) s) else s
    let s := onGrp g (fun x => { x with jacNew := none }) s
    forAll (axesOf s g) (fun a => onAxis a (fun x =>
      let w := if hasBit m g then x.tffNew.getD (0, (axisCfg s a).index ≥ 12) else (0, false)
      { x with tff := w.1, ffv := w.2, tffNew := none })) s) s
  resumeSlices true { s with mot := { s.mot with ffRel := true } }

def execFeedbackDeadline (s : State) : Out := run feedbackDeadline s
def execFeedbackNullLimit (src : FbSource) (s : State) : Out := run (feedbackNullLimit src) s
def execRemoteHomeTimeout (a : Nat) (s : State) : Out := run (remoteHomeTimeout a) s

end Sys2Proof.Machine
end

