-- ==== Sys2Proof/Machine/Solver.lean ====
section
/-! DEFINITION. Solver.lean: the solver (R246 to R272): packets and the delta gate, jobs in the tick, the release, lost lanes,
Graft. -/

namespace Sys2Proof.Machine

/-! ### Values (R248, R250) -/

/-- A list made n long, zeros beyond its end. -/
def fitLen (n : Nat) (l : List F32) : List F32 := (List.range n).map (fun i => nth l i)

/-- Words of the matrix. -/
def matLen (c : ProbCfg) : Nat := if c.sparse then c.nnz else c.n * c.m

/-- Words of b, or of q. -/
def vecLen (c : ProbCfg) : Nat := if c.op = 5 then c.m else c.n

/-- Words of the solution. -/
def outLen (c : ProbCfg) : Nat := if c.op = 3 then c.m else c.n

/-- The values that the image gives a problem. -/
def imageVals (c : ProbCfg) : ProbVals :=
  { mat := fitLen (matLen c) c.mat, b := fitLen (vecLen c) c.vecB,
    l := if c.op = 5 then fitLen c.m c.vecL else [], u := if c.op = 5 then fitLen c.m c.vecU else [], rho := c.rho }

/-- An entry of a dense matrix that the device reads. -/
def denseOk (c : ProbCfg) (i : Nat) : Bool :=
  let row := i / max 1 c.m
  let col := i % max 1 c.m
  match c.op with
  | 3 => true
  | 4 => if c.uplo then row ≤ col else col ≤ row
  | _ => col ≤ row

/-- A packet the device takes from a source (R257). -/
def packetOk (s : State) (src : Nat) (k : Packet) : Bool :=
  let c := probCfg s k.prob
  c.op != 0 && k.prob < 256 && (src != 3 || c.fww) &&
    (match k.tgt with
     | 0 => k.index < matLen c && (c.sparse || denseOk c k.index)
     | 1 => k.index < vecLen c
     | 2 => c.op == 5 && k.index < c.m
     | 3 => c.op == 5 && k.index < c.m
     | 4 => c.op == 5 && k.index == 0 && f32Lt 0 k.value
     | _ => false)

/-- Write one packet into values. -/
def applyPacket (k : Packet) (v : ProbVals) : ProbVals :=
  match k.tgt with
  | 0 => { v with mat := updAt v.mat k.index (fun _ => k.value) }
  | 1 => { v with b := updAt v.b k.index (fun _ => k.value) }
  | 2 => { v with l := updAt v.l k.index (fun _ => k.value) }
  | 3 => { v with u := updAt v.u k.index (fun _ => k.value) }
  | _ => { v with rho := k.value }

/-- A packet that ends the use of a kept factor (R255). -/
def endsFactor (k : Packet) (v : ProbVals) : Bool := k.tgt == 0 || (k.tgt == 4 && k.value != v.rho)

/-- A discarded packet: BAD and SOL_DELTA_BAD, at most once per tick (R257). -/
def badPacket (s : State) : State := eventOnce 0x0620 0 0 { s with sol := { s.sol with bad := true } }

/-- Packets of tick-locked flows, released at E0 (source 2 of R258). -/
def commitTl (ks : List Packet) (s : State) : State :=
  forAll ks (fun k s => if packetOk s 2 k then { s with sol := { s.sol with tlPk := s.sol.tlPk ++ [k] } } else badPacket s) s

/-- A packet of firmware (source 3 of R258). -/
def commitFw (k : Packet) (s : State) : State :=
  if packetOk s 3 k then { s with sol := { s.sol with fwPk := s.sol.fwPk ++ [k] } } else badPacket s

/-- DELTA_COMMIT (R257): DELTA0 holds bytes 0 to 3. -/
def deltaCommit (v : Word) (s : State) : State :=
  if !hasSolTrl s then absentAccess true s
  else
    let w := s.sol.delta0.toNat
    acked (commitFw { prob := w % 256, tgt := w / 256 % 256, index := w / 65536, value := v } s)

/-! ### Packets that the device forms (R268, R269) -/

/-- A packet of problem p. -/
def pkt (p tgt index : Nat) (v : F32) : Packet := { prob := p, tgt := tgt, index := index, value := v }

/-- The cap of R228 on the plan of group g, `k` ticks on at scale 1 (R268): for a joint segment from its own path; where a Cartesian path
will have its joints by then no rule says. [DESIGN CHOICE, log 10] -/
def capAhead (s : State) (g k : Nat) : F32 :=
  match (grpSt s g).active with
  | none => f32One
  | some r =>
    let later (r : RunSeg) : PathAt := pathAt s g { r with tau := r.tau + k * 35184372088832 }
    let p := later r
    let b := (grpSt s g).blend.map later
    if cartesian r.seg then Config.capAhead p k
    else
      let caps := (axesOf s g).filterMap (fun a =>
        let c := axisCfg s a
        let i := c.index
        let v := stretchRate r * jointRateAt p b i
        let q := axisVal p.inp i (pathS p) + (match b with | some b => axisVal b.inp i (pathS b) - nth b.inp.start i | none => 0)
        if c.endless || v == 0 then none
        else some (capSquare c.aamax (if 0 < v then c.vlimHi.toInt - q.toInt else q.toInt - c.vlimLo.toInt) v))
      match caps with
      | [] => f32One
      | x :: l => f32RootRat (l.foldl min x)

/-- The packets of a time-scaling problem (R268). -/
def scalePackets (s : State) (p : Nat) : List Packet :=
  let c := probCfg s p
  let g := c.group
  let sg := f32OfScale (grpSt s g).sigma
  let wt := f32Minus c.wt
  let q0 := f32Add (f32Mul (f32Mul 0xC0000000 c.wj) sg) wt
  let q1 := f32Add (f32Mul c.wj sg) wt
  let ovr := f32OfScale (grpSt s g).ovr
  let trl := f32OfScale (trlScale s g)
  [pkt p 1 0 q0, pkt p 1 1 q1] ++
    (List.range c.h).map (fun i => pkt p 3 i (f32Min (f32Min (f32Min f32One ovr) (capAhead s g (1 + i * c.d))) trl))

/-- q_i of R269: KC × (θ_i − θ_mid) / h², 0 for an endless joint. -/
def centring (s : State) (g : Nat) (kc : F32) (i : Nat) : F32 :=
  let j := nth (grpCfg s g).joints i
  match axisAt s g i with
  | none => 0
  | some a =>
    let x := axisCfg s a
    if x.endless then 0
    else
      let mid := posOf ((x.vlimLo.toInt + x.vlimHi.toInt) / 2)
      let h := f32Div (f32OfRat (((x.vlimHi.toInt - x.vlimLo.toInt : Int) : Rat) / 33554432)) j.scale
      f32Div (f32Mul kc (f32Sub (jointCoord j (axSt s a).ref) (jointCoord j mid))) (f32Mul h h)

/-- The packets of a redundancy problem (R269): the lower entries of P = I + WJ × JᵀJ row by row, then q. -/
def redundPackets (s : State) (p : Nat) : List Packet :=
  let c := probCfg s p
  let g := c.group
  let rows := taskRows (grpCfg s g).taskmask c.n (grpSt s g).jac
  let jtj (i j : Nat) : F32 := f32Dot (rows.map (fun r => nth r i)) (rows.map (fun r => nth r j))
  let lower := (List.range c.n).flatMap (fun i => (List.range (i + 1)).map (fun j => (i, j)))
  lower.map (fun q => pkt p 0 (q.1 * c.m + q.2) (f32Fma c.wj (jtj q.1 q.2) (if q.1 = q.2 then f32One else 0))) ++
    (List.range c.n).map (fun i => pkt p 1 i (centring s g c.wt i))

/-- Device-formed packets in problem order (source 1 of R258). -/
def devicePackets (s : State) : List Packet :=
  (List.range s.image.probs.length).flatMap (fun p =>
    let c := probCfg s p
    if c.op = 0 then [] else if c.use = 1 then scalePackets s p else if c.use = 2 then redundPackets s p else [])

/-! ### Lane groups (R246, R260, R265) -/

/-- The lanes of a group of LG lanes from a lane. -/
def laneBits (lane lg : Nat) : BitVec 16 := BitVec.ofNat 16 ((2 ^ lg - 1) * 2 ^ lane)

/-- Whether two problems share a lane group. -/
def sameLanes (s : State) (p q : Nat) : Bool :=
  (probSt s p).block == (probSt s q).block && (probSt s p).lane == (probSt s q).lane && (probCfg s p).lg == (probCfg s q).lg

/-- All lanes of problem p are in service. -/
def lanesLive (s : State) (p : Nat) : Bool :=
  let b := laneBits (probSt s p).lane (probCfg s p).lg
  (nth s.sol.live (probSt s p).block &&& b) == b

/-- Problems of the image. -/
def allProbs (s : State) : List Nat := (List.range s.image.probs.length).filter (fun p => (probCfg s p).op != 0)

/-- A lane group that problem p can move to: its lanes live, and no anytime problem of another number on them (R265). -/
def canMove (s : State) (p b lane : Nat) : Bool :=
  let m := laneBits lane (probCfg s p).lg
  b < solBlocks s.fuse.variant && !hasBit (regSt s .sol).quar b && (nth s.sol.live b &&& m) == m &&
    (allProbs s).all (fun q => q == p || !(probCfg s q).anytime || (probSt s q).block != b ||
      (laneBits (probSt s q).lane (probCfg s q).lg &&& m) == 0)

/-- The place that R265 chooses: the same block, then the others in order, the lowest lane. -/
def movePlace (s : State) (p : Nat) : Option (Nat × Nat) :=
  let b0 := (probSt s p).block
  let lg := max 1 (probCfg s p).lg
  let places := (b0 :: (List.range 4).filter (fun b => b != b0)).flatMap (fun b =>
    (List.range (16 / lg)).map (fun i => (b, i * lg)))
  places.find? (fun q => canMove s p q.1 q.2)

/-- At E0 the problems of each lane group that lost a lane move (R265). -/
def laneReassign (s : State) : State :=
  forAll ((allProbs s).filter (fun p => !lanesLive s p)) (fun p s =>
    match movePlace s p with
    | some q => onProb p (fun x => { x with block := q.1, lane := q.2, moved := true }) s
    | none => s) s

/-- A lost lane (R41): the jobs of its lane group end without a result. -/
def loseLane (b sl : Nat) (s : State) : State :=
  let s := { s with sol := { s.sol with live := updAt s.sol.live b (fun m => m &&& ~~~ bitOf 16 sl) } }
  forAll ((allProbs s).filter (fun p => (probSt s p).block == b && !lanesLive s p &&
      ((probSt s p).job == .running || (probSt s p).job == .waiting)))
    (fun p => onProb p (fun x => { x with job := .gone, laneFault := true })) s

/-- Start the first waiting job of the lane group of p: problems at home before moved ones, in ascending number. -/
def startNext (p : Nat) (s : State) : State :=
  let js := (allProbs s).filter (fun q => sameLanes s p q)
  if js.any (fun q => (probSt s q).job == .running) then s
  else
    let home := js.filter (fun q => !(probSt s q).moved)
    match (home ++ js.filter (fun q => (probSt s q).moved)).find? (fun q => (probSt s q).job == .waiting) with
    | some q => onProb q (fun x => { x with job := .running }) s
    | none => s

/-! ### The delta gate and dispatch (R258 to R260, R266) -/

/-- Packets that one gate applies. -/
def gateCap : Nat := 8192

/-- Apply packets to the pending copies. -/
def applyAll (ks : List Packet) (s : State) : State :=
  forAll ks (fun k => onProb k.prob (fun x => { x with
    factor := x.factor && !endsFactor k x.pend, pend := applyPacket k x.pend })) s

/-- CLR clears LOST and EN takes effect at the gate. -/
def gateControls (s : State) : State :=
  { s with sol := { s.sol with probs := s.sol.probs.map (fun x =>
      { x with en := x.enNext.getD x.en, enNext := none, lost := x.dead || (x.lost && !x.clr), clr := false }) } }

/-- The excess over the gate's room: LOST, OVF, SOL_DELTA_LOST (R259). -/
def loseExcess (ks : List Packet) (s : State) : State :=
  match ks with
  | [] => s
  | _ => event 0x0621 0
      (forAll ks (fun k => onProb k.prob (fun x => { x with lost := true })) { s with sol := { s.sol with ovf := true } })

/-- The gate itself: packets in the order of R258, and every pending value into the working copy. -/
def gateCopy (s : State) : State :=
  let dev := devicePackets s
  let rest := s.sol.tlPk ++ s.sol.fwPk
  let room := gateCap - dev.length
  let s := loseExcess (rest.drop room) (gateControls s)
  let s := applyAll (dev ++ rest.take room) s
  { s with sol := { s.sol with
      applied := min 0xFFFF (dev ++ rest.take room).length, tlPk := [], fwPk := [],
      probs := s.sol.probs.map (fun x => { x with work := x.pend }) } }

/-- The job of problem p is due in this tick (R260). -/
def jobDue (s : State) (p : Nat) : Bool :=
  let c := probCfg s p
  let per := max 1 c.period
  (probSt s p).en && (s.time.tickno + per - c.phase % per) % per == 0

/-- Bounds that cross or are NaN (R253). -/
def boundsBad (v : ProbVals) : Bool :=
  (v.l ++ v.u).any f32IsNaN || (v.l.zip v.u).any (fun q => f32Lt q.2 q.1)

/-- The warm start that a job takes from a problem: z and y, or x and the active set. From a problem of the other mode only the
solution can be taken: y is 0, and the active set is the bounds that x touches. [DESIGN CHOICE, log 12] -/
def crossSeed (c src : ProbCfg) (v : ProbVals) (z y : List F32) : List F32 × List F32 :=
  if c.anytime = src.anytime then (z, y)
  else if c.anytime then (z, (List.range c.m).map (fun i =>
    if nth z i = nth v.l i then f32Minus f32One else if nth z i = nth v.u i then f32One else 0))
  else (z, List.replicate c.m 0)

/-- The warm start of a job (R266): seeded, cold, or cold with a mismatch. -/
def graftStep (p : Nat) (s : State) : State :=
  let c := probCfg s p
  if c.op != 5 || !c.graft then s
  else
    match (probSt s c.gsrc).warm with
    | none => s
    | some (h, z, y) =>
      if h == c.shash then onProb p (fun x => { x with seed := some (crossSeed c (probCfg s c.gsrc) x.work z y) }) s
      else event 0x0610 p (onProb p (fun x => { x with gmiscnt := satAdd 0xFFFF x.gmiscnt 1 }) s)

/-- Dispatch the job of problem p (R253, R260). -/
def dispatchJob (p : Nat) (s : State) : State :=
  let c := probCfg s p
  let s := onProb p (fun x => { x with
    due := true, job := .none, laneFault := false, pruned := false, seed := none, out := {},
    tick := s.time.tickno % 65536 }) s
  if s.sol.unitLost || (probSt s p).lost then s
  else if !lanesLive s p then onProb p (fun x => { x with job := .gone, laneFault := true }) s
  else if c.op = 5 && boundsBad (probSt s p).work then
    event 0x0603 p (onProb p (fun x => { x with
      job := .done, out := { x := List.replicate c.m f32NaN, bounds := true } }) s)
  else graftStep p (onProb p (fun x => { x with job := .waiting }) s)

/-- DELTA_GATE (R258, R260): once per tick. -/
def deltaGate (s : State) : State :=
  if !hasSolTrl s || s.sol.gated then s
  else
    let s := gateCopy { s with sol := { s.sol with gated := true } }
    let s := forAll ((allProbs s).filter (jobDue s)) dispatchJob s
    forAll (allProbs s) startNext s

/-! ### Jobs (R251 to R256) -/

/-- The outcome of the job of p over at most `iters` iterations (R251 to R256): a pivot that failed makes every component NaN
(R252), and an OP 5 result lies within its bounds (R254). [DESIGN CHOICE, log 12] -/
def jobOutcome (s : State) (p iters : Nat) : JobOut :=
  let c := probCfg s p
  let o := solveJob c (probSt s p).work (probSt s p).seed iters
  { o with x := if o.pivot.isSome then List.replicate (outLen c) f32NaN else o.x }

/-- A NaN in the output without a pivot fault (R252). -/
def nanOut (o : JobOut) : Bool := o.pivot.isNone && !o.bounds && o.x.any f32IsNaN

/-- A completed job with a valid result (R262). -/
def outOk (o : JobOut) : Bool := o.pivot.isNone && !o.bounds && !nanOut o

/-- The job of p completes with an outcome (R252), and the next job of its lane group starts. -/
def finishJob (p : Nat) (o : JobOut) (s : State) : State :=
  let b := (probSt s p).block
  let s := onProb p (fun x => { x with
    job := .done, out := o, factor := (probCfg s p).refact && !(probCfg s p).anytime && outOk o }) s
  let s := { s with sol := { s.sol with jobsNow := updAt s.sol.jobsNow b (fun n => satAdd 255 n 1) } }
  let s := if o.pivot.isSome then eventOnce 0x0601 p p s else if nanOut o then eventOnce 0x0602 p p s else s
  startNext p s

/-- SOLVER_JOB_DONE (R251). -/
def solverJobDone (p : Nat) (s : State) : State :=
  if (probSt s p).job == .running && !(probSt s p).pruned then finishJob p (jobOutcome s p (probCfg s p).iter) s else s

/-- ANYTIME_STOP (R256): the last iterate is published with CONV 0. -/
def anytimeStop (p iters : Nat) (s : State) : State :=
  if (probCfg s p).anytime && !(probSt s p).pruned && ((probSt s p).job == .running || (probSt s p).job == .waiting) then
    let o := jobOutcome s p (min iters (probCfg s p).iter)
    finishJob p { o with conv := false } s
  else s

/-! ### The release (R261 to R264, R267) -/

/-- SOL.PSTATp. -/
def pstatWord (x : ProbSt) : Word :=
  fields [flag x.valid 31, flag x.pivot 30, flag x.nanout 29, flag x.bounds 28, flag x.miss 27, flag x.graft 26, flag x.conv 25,
    flag x.lost 24, flag x.pruned 23, (min 31 x.nvrun, 16), (x.tick % 65536, 0)]

/-- A miss of phase 8 (R263, R264): a pivot fault that was found before is still raised. -/
def missJob (p : Nat) (s : State) : State :=
  let (v, s) := if (probSt s p).job == .running && (jobOutcome s p (probCfg s p).iter).pivot.isSome then drawFree s else (0, s)
  let s := if hasBit v 0 then eventOnce 0x0601 p p (onProb p (fun x => { x with pivot := true }) s)
    else onProb p (fun x => { x with pivot := false }) s
  let s := onProb p (fun x => { x with
    miss := true, misscnt := satAdd 0xFFFF x.misscnt 1, nanout := false, bounds := false, conv := false }) s
  event 0x06D0 p (markNext 0 (probGroups s p) (noteMiss 8 s))

/-- The status of a job that completed in time; a valid one is published and stores its warm-start state (R261, R267). -/
def publishJob (p : Nat) (s : State) : State :=
  let o := (probSt s p).out
  let ok := outOk o
  let s := onProb p (fun x => { x with
    miss := false, pivot := o.pivot.isSome, nanout := nanOut o, bounds := o.bounds, conv := o.conv,
    iterdone := (if o.bounds then x.iterdone else o.iters), pividx := o.pivot.getD 0xFFFF }) s
  if ok then onProb p (fun x => { x with
      pub := o, pubTick := s.time.tickno, warm := if (probCfg s p).op = 5 then some ((probCfg s p).shash, o.z, o.y) else x.warm }) s
  else s

/-- Problem p at 28.0 µs; no factor outlives a job that was not valid (R255, R263). -/
def releaseJob (p : Nat) (s : State) : State :=
  let x := probSt s p
  let ok := x.job == .done && outOk x.out
  let s := match x.job with
    | .done => publishJob p s
    | .gone => onProb p (fun y => { y with miss := false, pivot := false, nanout := false, bounds := false, conv := false }) s
    | .none => onProb p (fun y => { y with miss := false, pivot := false, nanout := false, bounds := false, conv := false }) s
    | _ => missJob p s
  onProb p (fun y =>
    let y := { y with
      valid := ok, graft := x.seed.isSome, nvrun := (if ok then 0 else satAdd 31 y.nvrun 1), limit := y.limit && !ok,
      factor := y.factor && ok, due := false, job := .none }
    { y with pubStat := if ok then pstatWord y else y.pubStat }) s

/-- An anytime job that still runs ends with its last iterate (R256). -/
def stopAnytime (s : State) : State :=
  forAll ((allProbs s).filter (fun p => (probCfg s p).anytime)) (fun p s =>
    if (probSt s p).job == .running && !(probSt s p).pruned then
      let (v, s) := drawFree s
      anytimeStop p v.toNat s
    else anytimeStop p 0 s) s

/-- SOLVER_RELEASE (R261). -/
def solverRelease (s : State) : State :=
  if !hasSolTrl s then s
  else
    let s := stopAnytime s
    forAll ((allProbs s).filter (fun p => (probSt s p).due)) releaseJob s

/-- The consecutive limit of R79 and R262. [DEDUCED, log 70] -/
def missLimit (s : State) : Nat := if s.image.missLim % 16 = 0 then 16 else s.image.missLim % 16

/-- SOLVER_MISS_LIMIT (R262): SS1-r at the next E0 for every group that uses the problem. -/
def solverMissLimit (p : Nat) (s : State) : State :=
  if missLimit s < (probSt s p).nvrun && !(probSt s p).limit then
    event 0x06D0 (p + 32768)
      (onTime (fun t => { t with ss1Next := t.ss1Next ||| probGroups s p }) (onProb p (fun x => { x with limit := true }) s))
  else s

/-- The solver at the tick edge: lanes reassigned, the job counts of the tick that ended. -/
def solverEdge (s : State) : State :=
  if !hasSolTrl s then s
  else
    let s := laneReassign s
    { s with sol := { s.sol with jobs := s.sol.jobsNow, jobsNow := [0, 0, 0, 0], gated := false } }

/-! ### The problem store (R248, R250, R261) -/

/-- Halfwords as bytes. -/
def halves (l : List Nat) : List Byte := l.flatMap (leBytes 2)

/-- Values as bytes. -/
def floatBytes (l : List F32) : List Byte := l.flatMap (fun x => leBytes 4 x.toNat)

/-- The output area: the published copy with its header, where both copies lie. [DESIGN CHOICE, log 12] -/
def outArea (s : State) (p : Nat) : List Byte :=
  let x := probSt s p
  let one := leBytes 4 x.pubStat.toNat ++ leBytes 4 (x.pubTick % 2 ^ 32) ++ leBytes 2 x.pub.iters ++ leBytes 2 (x.pub.pivot.getD 0xFFFF) ++
    leBytes 4 x.pub.resid.toNat ++ floatBytes (fitLen (outLen (probCfg s p)) x.pub.x)
  let held := if x.pub.x.isEmpty then List.replicate (16 + 4 * outLen (probCfg s p)) 0 else one
  held ++ held

/-- The areas of problem p in the store: offset and bytes. -/
def storeAreas (s : State) (p : Nat) : List (Nat × List Byte) :=
  let c := probCfg s p
  let v := (probSt s p).work
  [(c.matOfs, floatBytes v.mat), (c.vecOfs, floatBytes (v.b ++ v.l ++ v.u)), (c.outOfs, outArea s p)] ++
    (if c.sparse then [(c.patOfs, halves c.pat)] else [])

/-- Bytes of the store (R246). -/
def storeSize (v : Variant) : Nat := match v with | .v6128 => 6291456 | .v6064 => 3145728 | .v6016 => 1572864

/-- The byte at an offset of the store; 0 where no problem has one. [DEDUCED, log 17] -/
def storeByte (s : State) (o : Nat) : Byte :=
  match ((allProbs s).flatMap (storeAreas s)).find? (fun a => a.1 ≤ o && o < a.1 + a.2.length) with
  | some a => nth a.2 (o - a.1)
  | none => 0

/-- The word at an offset of the store window. [DEDUCED, log 17] -/
def storeWord (s : State) (o : Nat) : Word :=
  if storeSize s.fuse.variant ≤ o then 0
  else ((List.range 4).foldl (fun w i => w + (storeByte s (o + i)).toNat * 256 ^ i) 0 : Nat)

/-! ### Control writes (R259, R260) -/

/-- PROBLEM_ENABLE_WRITE (R260): discarded for USE 1 and 2. -/
def problemEnableWrite (p : Nat) (en : Bool) (s : State) : State :=
  if !hasSolTrl s then absentAccess true s
  else if (probCfg s p).use = 1 || (probCfg s p).use = 2 then acked s
  else acked (onProb p (fun x => { x with enNext := some en }) s)

/-- PROBLEM_CLEAR_LOST (R259): at the next gate. -/
def problemClearLost (p : Nat) (s : State) : State :=
  if !hasSolTrl s then absentAccess true s else acked (onProb p (fun x => { x with clr := true }) s)

def execDeltaGate (s : State) : Out := runIn .sol deltaGate s
def execSolverJobDone (p : Nat) (s : State) : Out := runIn .sol (solverJobDone p) s
def execAnytimeStop (p iters : Nat) (s : State) : Out := runIn .sol (anytimeStop p iters) s
def execSolverRelease (s : State) : Out := runIn .sol solverRelease s
def execSolverMissLimit (p : Nat) (s : State) : Out := runIn .sol (solverMissLimit p) s
def execDeltaCommit (v : Word) (s : State) : Out := runAcc .sol (deltaCommit v) s
def execProblemEnableWrite (p : Nat) (en : Bool) (s : State) : Out := runAcc .sol (problemEnableWrite p en) s
def execProblemClearLost (p : Nat) (s : State) : Out := runAcc .sol (problemClearLost p) s

end Sys2Proof.Machine
end

