-- ==== Sys2Proof/Machine/Finalise.lean ====
section
/-! DEFINITION. Finalise.lean: set-point finalisation (R232 to R236) and the conversion to downlink fields (R215). -/

namespace Sys2Proof.Machine

/-! ### Steps before they are shortened (R232) -/

/-- The output shift of axis a in its slice (R179). -/
def oshOf (s : State) (a : Nat) : Nat :=
  match sliceOfAxis s a with
  | some c => if c.ax0 = a then c.osh0 else c.osh1
  | none => 0

/-- The velocity shift of axis a in its slice. -/
def vshOf (s : State) (a : Nat) : Nat :=
  match sliceOfAxis s a with
  | some c => if c.ax0 = a then c.vsh0 else c.vsh1
  | none => 0

/-- The servo output of axis a in 2^-24 count; nothing handed over adds nothing. -/
def dspOf (s : State) (a : Nat) : Int :=
  if (axSt s a).handed then (axSt s a).dsp.toInt * 2 ^ (24 - oshOf s a) else 0

/-- Slice of the axis failed, aborted or missed in this tick, or a phase before it (R41, R76). -/
def missedAxis (s : State) (g a : Nat) : Bool :=
  hasBit s.time.xtrapNow g || hasBit s.time.missAfter g || (axSt s a).xtrap

/-- The set-point of R232 before its step is shortened. `st` is the motion state before the decision. -/
def rawSp (s : State) (g a : Nat) (st : MState) : Pos :=
  let x := axSt s a
  if remoteHoming x then x.fb
  else if st == .stopping && (missedAxis s g a || x.sliceBad) then x.ref
  else if missedAxis s g a then x.spt + posOf x.step
  else if x.sliceBad then x.ref
  else x.ref + posOf (dspOf s a)

/-- The velocity sent, in 2^-32 count per tick: VFFO or the reference velocity. -/
def rawVffOf (s : State) (g a : Nat) (st : MState) : Int :=
  let x := axSt s a
  if missedAxis s g a && st != .stopping then x.outVff * 65536
  else if x.handed && hasBit x.oflags 0 && !x.sliceBad then x.vffo.toInt * 2 ^ (32 - vshOf s a)
  else x.vel.toInt * 65536

/-- The torque sent, in 2^-16 of rated torque: TFFO or TFF. -/
def rawTffOf (s : State) (g a : Nat) (st : MState) : Int :=
  let x := axSt s a
  if missedAxis s g a && st != .stopping then x.outTff
  else if x.handed && hasBit x.oflags 1 && !x.sliceBad then x.tffo.toInt
  else x.tff.toInt

/-- Form the steps of axis a of group g. -/
def rawStep (g a : Nat) (s : State) : State :=
  let st := (grpSt s g).state
  let sp := rawSp s g a st
  let v := rawVffOf s g a st
  let t := rawTffOf s g a st
  onAxis a (fun x => { x with
    spPrev := x.spt, stepPrev := x.step, vffPrev := x.outVff, tffPrev := x.outTff,
    raw := posDiff sp x.spt, rawVff := v, rawTff := t,
    vclamp := false, lclamp := false, xst := missedAxis s g a && st != .stopping }) s

/-! ### Shortening (R222, R232, R234) -/

/-- The released scale that group g takes (R222): its own, of those it carries, and of its sync set. -/
def releasedScale (s : State) (g : Nat) : Nat := minNat 32768 ((syncMates s g).map (trlScale s))

/-- ratio of R232: floor(σ_new × 32,768 / σ_used) where the released scale is the lower. -/
def ratioOf (s : State) (g : Nat) : Nat :=
  let n := releasedScale s g
  let u := (grpSt s g).sigma
  if n < u then n * 32768 / u else 32768

/-- r15 of R234. -/
def stopRatio (s : State) (g : Nat) : Nat :=
  minNat 32768 ((axesOf s g).filterMap (fun a =>
    let n := (axSt s a).raw.natAbs
    if n = 0 then none
    else
      let stop : Rat := f32Val (axisCfg s a).astop * 16777216
      some ((max 0 ((n : Rat) - stop) / n * 32768).floor.toNat)))

/-- The channel of a local axis. [DESIGN CHOICE, log 60] -/
def axisChan (c : AxisCfg) : Option Nat :=
  match c.src, c.dst with
  | .axio k, _ => some k
  | _, .axio k => some k
  | _, _ => none

/-- An active limit zeroes a step towards it (R167). -/
def limitStep (s : State) (a : Nat) (d : Int) : Int :=
  let hit (p : Port) : Bool := match p with
    | .axio c => ((chSt s c).limP0 && 0 < d) || ((chSt s c).limN0 && d < 0)
    | _ => false
  if hit (axisCfg s a).src || hit (axisCfg s a).dst then 0 else d

/-- Clamp to the virtual limits (R235). -/
def clampSp (c : AxisCfg) (p : Pos) : Pos :=
  if c.endless then p else posOf (clampI c.vlimLo.toInt c.vlimHi.toInt p.toInt)

/-- Note a clamp (R235): VCLAMP, VLIMCNT, MOT_VLIM once per tick per group; a group in states 3 to 6 is HALTED. -/
def noteClamp (g a : Nat) (s : State) : State :=
  let s := eventOnce 0x0512 g g (onAxis a (fun x => { x with vclamp := true, vlimcnt := satAdd 0xFFFF x.vlimcnt 1 }) s)
  match (grpSt s g).state with
  | .moving | .waitZone | .waitSync | .halting => onGrp g (fun x => { x with state := .halted }) s
  | _ => s

/-- Set the finalised set-point of axis a, its velocity (rounded half up to 2^-16, saturated) and torque. -/
def putSp (a : Nat) (p : Pos) (vff : Int) (tff : Int) (s : State) : State :=
  onAxis a (fun x => { x with
    spt := p, step := posDiff p x.spPrev, outVff := clampI (-2147483648) 2147483647 vff, outTff := tff }) s

/-- Axis a takes its step at n / 32,768 of the raw one. -/
def takeStep (g a n : Nat) (stop : Bool) (s : State) : State :=
  let x := axSt s a
  let d := if n < 32768 then divHalfUp (x.raw * n) 32768 else x.raw
  let v := if n < 32768 && !stop then divHalfUp (x.rawVff * n) (32768 * 65536) else divHalfUp x.rawVff 65536
  let e := limitStep s a d
  let s := if e != d then onAxis a (fun y => { y with lclamp := true }) s else s
  let p := x.spPrev + posOf e
  let q := clampSp (axisCfg s a) p
  let s := putSp a q v x.rawTff s
  if p = q then s else noteClamp g a s

/-- An axis homed by its far end: set-point equals feedback (R213). -/
def takeFeedback (a : Nat) (s : State) : State := putSp a (axSt s a).fb 0 0 s

/-- The references follow the stop ramp (R234). [DESIGN CHOICE, log 67] -/
def rampRef (g n : Nat) (s : State) : State :=
  forAll (axesOf s g) (fun a => onAxis a (fun x =>
    let d := divHalfUp (posDiff x.ref x.refPrev * n) 32768
    { x with ref := x.refPrev + posOf d, vel := velWord d })) s

/-- A running segment continues from the delivered position (R232). -/
def takeBack (s : State) (g n : Nat) (r : RunSeg) : RunSeg :=
  let y := { r with tau := r.tauPrev + (r.tau - r.tauPrev) * n / 32768 }
  { y with s := runS s g y }

/-- The set-points of group g from its raw steps and the decision (R232). -/
def applySteps (g : Nat) (s : State) : State :=
  let x := grpSt s g
  let sg := (safG s g).state
  let as := axesOf s g
  if sg == .sto || sg == .cloche || x.state == .disabled || x.state == .cloche then
    forAll as (fun a s => takeFeedback a (onAxis a (fun y => { y with homing := false }) s)) s
  else if x.state == .enabling then
    forAll as (fun a s => putSp a (axSt s a).frozen (divHalfUp (axSt s a).rawVff 65536) (axSt s a).rawTff s) s
  else
    let stop := sg == .ss1r || x.state == .stopping
    let n := if stop then stopRatio s g else ratioOf s g
    let s := if stop then rampRef g n s else s
    let s := if !stop && n < 32768 then onGrp g (fun y => { y with
        active := y.active.map (takeBack s g n), blend := y.blend.map (takeBack s g n) }) s else s
    let s := onGrp g (fun y => { y with ratio := if stop then 32768 else n }) s
    forAll as (fun a s => if remoteHoming (axSt s a) then takeFeedback a s else takeStep g a n stop s) s

/-! ### The compare list (R236) -/

/-- Path parameter of CMPFRAC. [DESIGN CHOICE, log 60] -/
def cmpAt (x : Segment) : Nat := (f32Val x.cmpFrac * (fullS : Rat)).floor.toNat

/-- The reference of the compare axis at CMPFRAC; a joint of a Cartesian segment is resolved there from the references of the tick before. [DESIGN CHOICE, log 60] -/
def cmpRef (s : State) (g : Nat) (r : RunSeg) : Pos :=
  let i := r.seg.cmpIdx
  let p := pathIn s g r.seg r.start r.pose0
  if cartesian r.seg && i < 12 then
    let prev := (List.range 16).map (fun i => match axisAt s g i with | some a => (axSt s a).refPrev | none => 0)
    let t := poseAt p (paramOf (cmpAt r.seg))
    let q := ikSolve (grpCfg s g) ((rAdd (t.take 3) (trackShift s g r)).map f32OfRat ++ qMat (t.drop 3)) (redundZ s g) (coordsOf (grpCfg s g) prev)
    jointPos (nth (grpCfg s g).joints i) (nth prev i) (nth q i)
  else axisVal p i (cmpAt r.seg)

/-- The compare entry of a running segment in the tick whose step first reaches CMPFRAC. [DESIGN CHOICE, log 60] -/
def cmpStep (g : Nat) (r : RunSeg) (s : State) : State :=
  if hasBit r.seg.flags 3 && r.sPrev < cmpAt r.seg && cmpAt r.seg ≤ r.s then
    match axisAt s g r.seg.cmpIdx with
    | some a =>
      let c := axisCfg s a
      let p := cmpRef s g r
      let v : Int := match axisChan c with
        | some k => if c.conc then divHalfUp (p - c.aofs).toInt 16777216 else divHalfUp p.toInt 16777216 - (chSt s k).hofs
        | none => divHalfUp (p - c.aofs).toInt 16777216
      onAxis a (fun x => { x with cmpEntry := some (v, 0 ≤ x.step) }) s
    | none => s
  else s

/-- The compare entries of group g for the tick. [DESIGN CHOICE, log 60] -/
def cmpGroup (g : Nat) (s : State) : State :=
  let x := grpSt s g
  if x.state == .moving || x.state == .halting then
    let s := match x.active with | some r => cmpStep g r s | none => s
    match x.blend with | some r => cmpStep g r s | none => s
  else s

/-! ### Finalisation -/

/-- A group of motion state 1 to 7 that SS1-r is decided for passes to STOPPING (R234). -/
def toStopping (g : Nat) (s : State) : State :=
  if (grpSt s g).state.live then
    onGrp g (fun x => { x with state := .stopping }) (withdrawZone g s)
  else s

/-- Set-point finalisation between 17.0 and 18.0 µs (R232): raw steps, shortening, compare entries. -/
def finalise (s : State) : State :=
  let gs := bitsOf (defined s)
  let s := forAll gs (fun g s => forAll (axesOf s g) (fun a => rawStep g a) s) s
  let s := forAll gs (fun g s => cmpGroup g (applySteps g s)) s
  let s := forAll gs (fun g s => if (safG s g).state == .ss1r || (safG s g).state == .sto then homingStop g s else s) s
  let s := forAll gs (fun g s => if (safG s g).state == .ss1r then toStopping g s else s) s
  { s with mot := { s.mot with fin := true } }

/-- A decision after the finalisation of the tick forms the group's set-points again. -/
def refinalise (g : Nat) (s : State) : State := if s.mot.fin then applySteps g s else s

/-! ### The downlink (R215) -/

/-- The fields of a ring axis's downlink entry (R213, R215, R236). -/
def downEntry (s : State) (a : Nat) : DownEntry :=
  let x := axSt s a
  let c := axisCfg s a
  let g := c.group
  let v : BitVec 64 := BitVec.ofInt 64 (divHalfUp x.spt.toInt 256)
  let sg := (safG s g).state
  let on := !(sg == .sto || sg == .cloche) && ((grpSt s g).state.enabled || remoteHoming x)
  let cmp : Option (Int × Bool) := if c.conc then x.cmpEntry else none
  let ctl : BitVec 16 := (if on then 3 else 0) ||| (if x.hgo.isSome && on then 0x20 else 0) |||
    (match cmp with | some e => (0x4 ||| (if e.2 then 0x8 else 0x10)) | none => 0)
  { pos := v.extractLsb' 16 32, posf := v.extractLsb' 0 16,
    vff := if c.conc then (match cmp with | some e => BitVec.ofInt 32 e.1 | none => 0) else BitVec.ofInt 32 x.outVff,
    tff := BitVec.ofInt 16 (clampI (-32767) 32767 (divHalfUp (x.outTff * 1000) 65536)), ctl := ctl }

end Sys2Proof.Machine
end

