-- ==== Sys2Proof/Machine/Tables.lean ====
section
/-! DEFINITION. Tables.lean: the tables that the image gives as bytes, laid out as each chapter lays them out: the ring schedule
(R123), group models (R238), problem descriptors (R248), geometry and sensors (R273, R276), the safety parameter block (R329), flow
and snapshot descriptors (R356, R367) and the key table (R382); the canonical block of R330 and its check value. -/

namespace Sys2Proof.Machine

/-! ### Bytes and words -/

/-- A register word of a number. -/
def w32 (n : Nat) : Word := BitVec.ofNat 32 n

/-- The number of bytes, the first the lowest. -/
def leNat (l : List Byte) : Nat := l.foldr (fun b n => b.toNat + 256 * n) 0

/-- The number in n bytes from offset o on. -/
def natAt (l : List Byte) (o n : Nat) : Nat := leNat ((l.drop o).take n)

/-- The word of bytes, the first in its low byte. -/
def wordOf (l : List Byte) : Word := w32 (leNat l)

/-- Word k of a byte table; beyond its end it reads 0. -/
def wordAt (l : List Byte) (k : Nat) : Word := wordOf ((l.drop (4 * k)).take 4)

/-- n zero bytes. -/
def zeros (n : Nat) : List Byte := List.replicate n 0

/-- The binary32 values of a list, n of them, 0 where it has none. -/
def floats (n : Nat) (l : List F32) : List Byte := ((List.range n).map (fun i => leBytes 4 (nth l i).toNat)).flatten

/-- A 64-bit value. -/
def posBytes (v : BitVec 64) : List Byte := leBytes 8 v.toNat

/-- `n` records of `size` bytes: those the list has and that are present, zeros for the others. [DEDUCED, log 16] -/
def records {α : Type} (n size : Nat) (present : α → Bool) (enc : α → List Byte) (l : List α) : List Byte :=
  ((List.range n).map (fun i => match l[i]? with
    | some x => if present x then enc x else zeros size
    | none => zeros size)).flatten

/-! ### The ring schedule (R123) -/

/-- Word k of a schedule table entry. -/
def slotWord32 (x : SlotCfg) (k : Nat) : Word :=
  match k with
  | 0 => fields [(x.start % 2 ^ 20, 12), (x.len % 4096, 0)]
  | 1 => fields [(x.kind % 16, 28), (x.dir % 4, 26), (x.owner % 32, 21), (x.segFirst % 1024, 6), (x.nseg % 64, 0)]
  | 2 => fields [(x.plen % 65536, 16)]
  | _ => 0

/-- A segment table entry. -/
def segWord (x : SegCfg) : Word :=
  fields [(x.node % 32, 27), flag x.spare 26, (x.nax % 64, 20), (x.offset % 4096, 8), (x.spareId % 256, 0)]

/-! ### Group models (R238) -/

/-- The axis at auxiliary index 12 + i of a group, 0xFF for none. -/
def auxAxis (img : Image) (g i : Nat) : Nat :=
  ((List.range img.axes.length).find? (fun a =>
    (nth img.axes a).defined && (nth img.axes a).group == g && (nth img.axes a).index == 12 + i)).getD 0xFF

/-- The 128-byte joint record. -/
def jointBytes (j : JointCfg) : List Byte :=
  leBytes 1 j.prismatic.toNat ++ leBytes 1 j.axis ++ zeros 2 ++ floats 7 j.frame ++ floats 1 [j.scale] ++ zeros 4 ++
  posBytes j.zero ++ floats 13 j.inertial ++ floats 1 [j.rated] ++ posBytes j.rev ++ zeros 16

/-- The 1,664-byte model of group g. [DEDUCED, log 16] -/
def modelBytes (img : Image) (g : Nat) (c : GroupCfg) : List Byte :=
  leBytes 1 c.nj ++ leBytes 1 c.naux ++ leBytes 1 c.kind ++ leBytes 1 c.baseg ++ leBytes 1 c.baselink ++ leBytes 1 c.kdeb ++
  leBytes 1 (c.dynOn.toNat + 2 * c.payload.toNat) ++ leBytes 1 c.taskmask.toNat ++ floats 3 c.grav ++ floats 7 c.base ++
  floats 7 c.tool ++ floats 1 [c.pmass] ++ floats 3 c.pcom ++ floats 6 c.piner ++
  ((List.range 4).map (fun i => leBytes 1 (auxAxis img g i))).flatten ++ floats 1 [c.damp] ++ floats 1 [c.iktol] ++
  records 12 128 (fun _ => true) jointBytes (c.joints.take c.nj)

/-- The models of the 16 groups. -/
def allModels (img : Image) : List Byte :=
  ((List.range 16).map (fun g =>
    if (nth img.groups g).defined then modelBytes img g (nth img.groups g) else zeros 1664)).flatten

/-! ### Problem descriptors (R248) -/

/-- The 64-byte descriptor. -/
def probBytes (p : ProbCfg) : List Byte :=
  leBytes 1 p.op ++ leBytes 1 (p.sparse.toNat + 2 * p.uplo.toNat) ++ leBytes 1 p.anytime.toNat ++
  leBytes 1 (p.en.toNat + 2 * p.graft.toNat + 4 * p.refact.toNat + 8 * p.fww.toNat) ++
  leBytes 1 (64 * p.block + p.lane) ++ leBytes 1 p.lg ++ leBytes 1 p.period ++ leBytes 1 p.phase ++ leBytes 1 p.n ++ leBytes 1 p.m ++
  leBytes 2 p.nnz ++ leBytes 2 p.iter ++ leBytes 1 p.npos ++ leBytes 1 p.gsrc ++ floats 3 [p.rho, p.alpha, p.tol] ++
  leBytes 4 p.shash.toNat ++ leBytes 4 p.matOfs ++ leBytes 4 p.vecOfs ++ leBytes 4 p.patOfs ++ leBytes 4 p.outOfs ++
  leBytes 1 p.use ++ leBytes 1 p.group ++ leBytes 1 p.h ++ leBytes 1 p.d ++ floats 2 [p.wj, p.wt] ++ zeros 4

/-- The sparsity pattern as stored: column pointers, then row indices, 16 bits each (R250). -/
def patBytes (p : ProbCfg) : List Byte := (p.pat.map (leBytes 2)).flatten

/-- The structure hash (R249): CRC-32C over descriptor bytes 0, 1, 5, 8 to 11 and 14 and the pattern. -/
def structureHash (p : ProbCfg) : Word :=
  let d := probBytes p
  crc32c ([nth d 0, nth d 1, nth d 5, nth d 8, nth d 9, nth d 10, nth d 11, nth d 14] ++ patBytes p)

/-- Stored entries of the matrix. -/
def matWords (p : ProbCfg) : Nat := if p.sparse then p.nnz else p.n * p.m

/-- Words of the vectors: b, or q, l and u. -/
def vecWords (p : ProbCfg) : Nat := if p.op = 5 then 3 * p.m else p.n

/-- Words of a solution. -/
def solWords (p : ProbCfg) : Nat := if p.op = 3 then p.m else p.n

/-- Bytes of one copy of the output area: a header and the solution (R250). -/
def outBytes (p : ProbCfg) : Nat := 16 + 4 * solWords p

/-- The areas of a problem in the store: offset and bytes (R248, R250). -/
def probAreas (p : ProbCfg) : List (Nat × Nat) :=
  [(p.matOfs, 4 * matWords p), (p.vecOfs, 4 * vecWords p), (p.outOfs, 2 * outBytes p)] ++
    (if p.sparse then [(p.patOfs, 2 * p.pat.length)] else [])

/-! ### Geometry and sensors (R273, R276) -/

/-- ROLE codes. -/
def PrimRole.code : PrimRole → Nat | .body => 0 | .keepout => 1 | .zoneVol => 2 | .field => 3 | .shape => 4

/-- The 64-byte geometry entry. -/
def primBytes (p : PrimCfg) : List Byte :=
  leBytes 1 p.kind ++ leBytes 1 p.att ++ leBytes 1 p.owner ++ leBytes 1 p.link ++ leBytes 1 (PrimRole.code p.role) ++
  leBytes 1 p.pko.toNat ++ leBytes 2 p.ref ++ floats 2 [p.clr, p.slow] ++ leBytes 2 p.gmask.toNat ++ zeros 2 ++
  leBytes 4 p.omask.toNat ++ floats 3 p.a ++ floats 3 p.b ++ floats 1 [p.r] ++ floats 3 p.q

/-- The 32-byte sensor descriptor. -/
def sensorBytes (x : SensorCfg) : List Byte :=
  leBytes 2 x.pduId ++ leBytes 2 x.ageMax ++ leBytes 2 x.vhMin ++ leBytes 2 x.cIntr ++ floats 3 x.spos ++ floats 3 x.sq

/-! ### The safety parameter block (R329) -/

/-- The header. -/
def safHeadBytes (img : Image) : List Byte :=
  leBytes 1 1 ++ leBytes 1 img.safHead.ngrp ++ leBytes 1 img.safHead.nin ++ leBytes 1 img.safHead.nrx ++
  leBytes 1 img.safHead.ntx ++ leBytes 1 img.tpp ++ leBytes 1 img.tpw ++ leBytes 1 img.tps ++ leBytes 4 img.safHead.version ++ zeros 20

/-- A group record. -/
def safGroupBytes (c : GroupCfg) : List Byte :=
  leBytes 4 c.tss1max ++ leBytes 2 c.kdly ++ leBytes 2 c.nstill ++ leBytes 2 c.slstcp ++ leBytes 2 c.tcptol ++ leBytes 2 c.degf ++
  leBytes 2 c.tdeg ++ leBytes 2 c.sres ++ leBytes 2 c.nres ++ leBytes 1 c.autores.toNat ++ zeros 3 ++ floats 1 [c.atcp] ++ zeros 4

/-- An axis record. -/
def safAxisBytes (c : AxisCfg) : List Byte := floats 5 [c.amon, c.astop, c.etol, c.vstill, c.vsls] ++ zeros 4

/-- An input pair record. -/
def safInputBytes (c : InputCfg) : List Byte :=
  leBytes 1 c.func ++ leBytes 1 (16 * c.srcA + c.srcB) ++ leBytes 2 c.gmask.toNat ++ leBytes 2 c.disc ++ leBytes 2 c.sfilt

/-- A receive PDU record. -/
def safRxBytes (c : RxCfg) : List Byte :=
  leBytes 2 c.pduId ++ leBytes 1 c.len ++ zeros 1 ++ leBytes 2 c.wdog ++ leBytes 2 c.gmask.toNat ++ zeros 8

/-- A send PDU record. -/
def safTxBytes (c : TxCfg) : List Byte :=
  leBytes 2 c.pduId ++ leBytes 2 c.period ++ leBytes 2 c.phase ++ leBytes 1 c.content ++ zeros 9

/-- The 4,096-byte block. -/
def safetyBlock (img : Image) : List Byte :=
  safHeadBytes img ++ records 16 32 (fun c => c.defined) safGroupBytes img.groups ++
  records 128 24 (fun c => c.defined) safAxisBytes img.axes ++ records 12 8 (fun _ => true) safInputBytes img.inputs ++
  records 16 16 (fun c => c.defined) safRxBytes img.rx ++ records 8 16 (fun c => c.defined) safTxBytes img.tx

/-! ### The check value (R330) -/

/-- The Trellis parameters of a group: VLINK, TDRV, TS0, ABRK, ZR, VTOL and SMIN. -/
def trlParamBytes (c : GroupCfg) : List Byte := floats 6 [c.vlink, c.tdrv, c.ts0, c.abrk, c.zr, c.vtol] ++ leBytes 2 c.smin

/-- Geometry entries that the canonical block covers: used ones whose role is not zone volume. -/
def checkedPrim (p : PrimCfg) : Bool := p.kind != 0 && p.role != .zoneVol

/-- The canonical block of R330. [DESIGN CHOICE, log 15] -/
def canonicalBlock (img : Image) : List Byte :=
  safetyBlock img ++ records 16 2 (fun c => c.defined) (fun c : GroupCfg => leBytes 2 c.vred) img.groups ++
  records 16 26 (fun c => c.defined) trlParamBytes img.groups ++ records 16 32 (fun c => c.defined) sensorBytes img.sensors ++
  ((img.prims.filter checkedPrim).map primBytes).flatten ++ allModels img

/-- The configuration check value (R330): CRC-32C over the canonical block. [DESIGN CHOICE, log 15] -/
def checkValue (img : Image) : Word := crc32c (canonicalBlock img)

/-! ### Flows and snapshots (R356, R367) -/

/-- The 32-byte flow descriptor. -/
def flowBytes (f : FlowCfg) : List Byte :=
  let tl : List Byte := if f.type = 2 then leBytes 1 (f.period - 1) ++ leBytes 1 f.phase ++ leBytes 2 f.gdep.toNat else leBytes 4 f.tperiod
  leBytes 1 f.type ++ leBytes 1 (f.en.toNat + 2 * f.missact + 8 * f.notrace.toNat) ++ leBytes 1 f.cores.toNat ++ leBytes 1 f.maxpend ++
  leBytes 4 f.entry ++ leBytes 2 f.stackOfs ++ leBytes 2 f.stackLen ++ leBytes 4 f.reldl ++ leBytes 2 f.maxrun ++ leBytes 2 f.bind ++ tl ++
  leBytes 2 f.snapFirst ++ leBytes 1 f.snaps.length ++ zeros 1 ++ leBytes 2 f.outOfs ++ leBytes 2 f.outLen

/-- The 16-byte snapshot entry. -/
def snapBytes (e : SnapCfg) : List Byte :=
  leBytes 1 e.skind ++ zeros 1 ++ leBytes 2 e.index ++ leBytes 2 e.count ++ leBytes 2 e.dstofs ++ leBytes 4 e.src ++ leBytes 2 e.len ++ zeros 2

/-- Entry i of the snapshot table: that of the flow whose entries it is among; an entry of no flow reads 0. [DEDUCED, log 16] -/
def snapEntryAt (img : Image) (i : Nat) : List Byte :=
  match img.flows.find? (fun f => f.type == 2 && f.snapFirst ≤ i && i < f.snapFirst + f.snaps.length) with
  | some f => snapBytes (nth f.snaps (i - f.snapFirst))
  | none => zeros 16

/-! ### The key table (R382) -/

/-- Role codes. -/
def roleCode : KeyRole → Nat
  | .empty => 0 | .operator => 1 | .engineering => 2 | .safety => 3 | .maintenance => 4

/-- n bytes of a number, the highest first. -/
def beBytes (n v : Nat) : List Byte := (leBytes n v).reverse

/-- The 80-byte slot. The role stands in byte 0 and the coordinates, big-endian as every key of the image (R403), in the last 64. [DEDUCED, log 16] -/
def keyBytes (k : KeySlot) : List Byte := leBytes 1 (roleCode k.role) ++ zeros 15 ++ beBytes 32 k.x ++ beBytes 32 k.y

/-- The prime of P-256. -/
def p256 : Nat := 2 ^ 256 - 2 ^ 224 + 2 ^ 192 + 2 ^ 96 - 1

/-- The coefficient b of P-256. -/
def p256b : Nat := 0x5AC635D8AA3A93E7B3EBBD55769886BC651D06B0CC53B0F63BCE3C3E27D2604B

/-- A point of P-256: y² = x³ − 3x + b (R382). -/
def onCurve (k : KeySlot) : Bool :=
  k.x < p256 && k.y < p256 && (k.y * k.y) % p256 == (k.x ^ 3 + 3 * (p256 - k.x) + p256b) % p256

end Sys2Proof.Machine
end

