-- ==== Sys2Proof/Machine/Layout.lean ====
section
/-! DEFINITION. Layout.lean: the byte layouts that the device reads out of memory or writes into it: the motion segment (R217), the
records of a tick-locked output buffer (R371), the command body (R393) and the sections of a record (R88). -/

namespace Sys2Proof.Machine

/-! ### Segments (R217) -/

/-- A binary32 at offset o. -/
def f32At (l : List Byte) (o : Nat) : F32 := BitVec.ofNat 32 (natAt l o 4)

/-- n bytes from offset o on are 0. -/
def zeroAt (l : List Byte) (o n : Nat) : Bool := ((l.drop o).take n).all (fun b => b == 0)

/-- The reserved body bytes of a kind: offset and count. Bytes 60 to 71 of a line are named for KIND 3 alone and are not checked. [DESIGN CHOICE, log 66] -/
def segReserved (kind : Nat) : Nat × Nat :=
  match kind with | 2 => (72, 56) | 3 => (72, 56) | 4 => (36, 124) | _ => (32, 0)

/-- The axis word of group axis index i; a Cartesian segment has none below 12, a dwell none at all. -/
def segTarget (kind : Nat) (l : List Byte) (i : Nat) : Pos :=
  if kind = 4 ∨ ((kind = 2 ∨ kind = 3) ∧ i < 12) then 0 else BitVec.ofNat 64 (natAt l (32 + 8 * i) 8)

/-- The pose words of a Cartesian kind: end position, quaternion, and the via point of a circle. -/
def segPose (kind : Nat) (l : List Byte) : List F32 :=
  (List.range (if kind = 2 then 7 else if kind = 3 then 10 else 0)).map (fun i => f32At l (32 + 4 * i))

/-- The segment that 160 bytes hold. -/
def parseSeg (l : List Byte) : Segment :=
  let k := natAt l 0 1
  { kind := k, flags := BitVec.ofNat 8 (natAt l 1 1), segId := natAt l 2 2, zreq := natAt l 4 1, zrel := natAt l 5 1,
    sync := natAt l 6 1, trk := natAt l 7 1 / 16, cmpIdx := natAt l 7 1 % 16, vmax := f32At l 8, amax := f32At l 12,
    jmax := f32At l 16, wmax := f32At l 20, blend := f32At l 24, cmpFrac := f32At l 28,
    targets := (List.range 16).map (segTarget k l), pose := segPose k l, dwell := if k = 4 then natAt l 32 4 else 0,
    reservedOk := zeroAt l (segReserved k).1 (segReserved k).2 }

/-- The body of a segment. -/
def segBody (x : Segment) : List Byte :=
  match x.kind with
  | 4 => leBytes 4 x.dwell ++ zeros 124
  | 2 => floats 7 x.pose ++ zeros 68 ++ ((List.range 4).map (fun i => posBytes (nth x.targets (12 + i)))).flatten
  | 3 => floats 10 x.pose ++ zeros 56 ++ ((List.range 4).map (fun i => posBytes (nth x.targets (12 + i)))).flatten
  | _ => ((List.range 16).map (fun i => posBytes (nth x.targets i))).flatten

/-- The 160 bytes of a segment. -/
def segBytes (x : Segment) : List Byte :=
  leBytes 1 x.kind ++ leBytes 1 x.flags.toNat ++ leBytes 2 x.segId ++ leBytes 1 x.zreq ++ leBytes 1 x.zrel ++ leBytes 1 x.sync ++
  leBytes 1 (16 * x.trk + x.cmpIdx) ++ floats 6 [x.vmax, x.amax, x.jmax, x.wmax, x.blend, x.cmpFrac] ++ segBody x

/-! ### Time-base words (R95) and trigger words (R371, R393) -/

/-- The four words of a time-base value in whole ns and a fraction. -/
def tbBytes (ns fr : Nat) : List Byte :=
  leBytes 4 fr ++ leBytes 4 (ns % 1000000000) ++ leBytes 8 (ns / 1000000000)

/-- Trigger words at offset o: START, PERNS, PERFR and TRIGCTL. NSEC beyond a second carries into the seconds (R93). [DEDUCED, log 29] -/
def parseTrig (l : List Byte) (o : Nat) : TrigWords :=
  { startFr := natAt l o 2, startNs := natAt l (o + 4) 4 + 1000000000 * natAt l (o + 8) 8,
    perNs := natAt l (o + 16) 4, perFr := natAt l (o + 20) 2, ctl := w32 (natAt l (o + 24) 4) }

/-- Trigger words as bytes. -/
def trigBytes (w : TrigWords) : List Byte :=
  tbBytes w.startNs w.startFr ++ leBytes 4 w.perNs ++ leBytes 4 w.perFr ++ leBytes 4 w.ctl.toNat

/-! ### Output buffers (R371) -/

/-- A delta packet of R257: PROB, TGT, INDEX and VALUE. -/
def parsePacket (l : List Byte) (o : Nat) : Nat × Nat × Nat × F32 := (natAt l o 1, natAt l (o + 1) 1, natAt l (o + 2) 2, f32At l (o + 4))

/-- A record of a type with a body. -/
def parseRec (t : Nat) (l : List Byte) : OutRec :=
  match t with
  | 1 => if l.length % 8 = 0 then .deltas ((List.range (l.length / 8)).map (fun i => parsePacket l (8 * i))) else .badLength 1
  | 2 => if l.length = 164 then .segment (natAt l 0 1) (parseSeg (l.drop 4)) else .badLength 2
  | 3 => if l.length = 32 then .trigger (natAt l 0 1) (parseTrig l 4) else .badLength 3
  | 4 => .data l
  | n => .reserved n

/-- The records of a buffer in order and the bytes up to the end of the TYPE 0 record; none where no such record ends it. [DESIGN CHOICE, log 140] -/
def parseRecs : Nat → List Byte → List OutRec × Option Nat
  | 0, _ => ([], none)
  | n + 1, l =>
    let len := natAt l 2 2
    if l.length < 4 then ([], none)
    else if natAt l 0 1 = 0 then (if len = 0 then [] else [.badLength 0], some 4)
    else if l.length < 4 + len then ([], none)
    else
      let r := parseRecs n (l.drop (4 + len))
      (parseRec (natAt l 0 1) ((l.drop 4).take len) :: r.1, r.2.map (fun k => k + 4 + len))

/-- The output buffer that OUTLEN bytes hold. [DESIGN CHOICE, log 140] -/
def parseOut (l : List Byte) : OutBuf :=
  let r := parseRecs (l.length / 4 + 1) l
  { recs := r.1, ended := r.2.isSome, raw := l.take (r.2.getD l.length) }

/-! ### Command bodies (R393) -/

/-- OPCODE. -/
def opcodeOf : CmdBody → Nat
  | .query => 0x01 | .segment _ _ => 0x10 | .flush _ => 0x11 | .halt _ => 0x12 | .resume _ => 0x13 | .enable _ => 0x14
  | .disable _ => 0x15 | .override _ _ => 0x16 | .home _ => 0x17 | .zoneRelease _ _ => 0x18 | .sliceParam _ _ _ => 0x19
  | .stop _ => 0x20 | .ack _ => 0x21 | .mode _ => 0x22 | .confirm _ => 0x23 | .flowmsg _ _ => 0x30 | .mailbox _ _ => 0x31
  | .trigger _ _ => 0x32 | .prune _ _ _ => 0x40 | .imageErase _ _ => 0x50 | .imageWrite _ _ => 0x51 | .read _ _ => 0x52
  | .reset _ => 0x60 | .switchback => 0x61 | .unknown n => n

/-- A group mask body. -/
def maskBytes (m : Mask) : List Byte := leBytes 2 m.toNat ++ zeros 2

/-- The body. -/
def bodyBytes : CmdBody → List Byte
  | .query => []
  | .segment g l => leBytes 1 g ++ leBytes 1 l.length ++ zeros 2 ++ (l.map segBytes).flatten
  | .flush m => maskBytes m
  | .halt m => maskBytes m
  | .resume m => maskBytes m
  | .enable m => maskBytes m
  | .disable m => maskBytes m
  | .override m v => leBytes 2 m.toNat ++ zeros 2 ++ leBytes 2 v ++ zeros 2
  | .home a => leBytes 1 a ++ zeros 3
  | .zoneRelease g z => leBytes 1 g ++ leBytes 1 z ++ zeros 2
  | .sliceParam b sl ws => leBytes 1 b ++ leBytes 1 sl ++ zeros 2 ++ ((List.range 16).map (fun i => leBytes 4 (nth ws i).toNat)).flatten
  | .stop m => maskBytes m
  | .ack m => maskBytes m
  | .mode m => leBytes 1 m ++ zeros 3
  | .confirm v => leBytes 4 v.toNat
  | .flowmsg f d => leBytes 2 f ++ zeros 2 ++ d
  | .mailbox q d => leBytes 1 q ++ zeros 3 ++ d
  | .trigger i w => leBytes 1 i ++ zeros 3 ++ trigBytes w
  | .prune k r i => leBytes 1 k ++ leBytes 1 r ++ leBytes 2 i
  | .imageErase o n => leBytes 4 o ++ leBytes 4 n
  | .imageWrite o d => leBytes 4 o ++ leBytes 2 d.length ++ zeros 2 ++ d
  | .read a n => leBytes 5 a ++ zeros 1 ++ leBytes 2 n
  | .reset k => leBytes 1 k ++ zeros 3
  | .switchback => []
  | .unknown _ => []

/-! ### Sections of a record (R88) -/

/-- A section: its header and its payload, padded to a multiple of 8 bytes. -/
def sectionBytes (t : Nat) (l : List Byte) : List Byte :=
  leBytes 1 t ++ zeros 1 ++ leBytes 2 l.length ++ zeros 4 ++ l ++ zeros ((8 - l.length % 8) % 8)

end Sys2Proof.Machine
end

