-- ==== Sys2Proof/Machine/Queues.lean ====
section
/-! DEFINITION. Queues.lean: the hardware queues (R372, R373) and the plant ports with their frames (R376 to R380). -/

namespace Sys2Proof.Machine

/-! ### Hardware queues -/

/-- Queue q. -/
def queueSt (s : State) (q : Nat) : QueueSt := nth s.host.queues q

/-- Configuration of queue q. -/
def queueCfg (s : State) (q : Nat) : QueueCfg := nth s.image.queues q

/-- Entries present in queue q: motion queues, the PDU queues, the trace and the recording ring stand in their units. -/
def qCount (s : State) (q : Nat) : Nat :=
  if q < 16 then (grpSt s q).queue.length
  else match q with
    | 28 => s.saf.q28.length
    | 29 => s.saf.q29.length
    | 30 => s.host.trace.length
    | 31 => s.recd.recs.length
    | _ => (queueSt s q).entries.length

/-- A full queue. -/
def qFull (s : State) (q : Nat) : Bool := (queueCfg s q).depth ≤ (queueSt s q).entries.length

/-- Push an entry; a full queue refuses the newest, or overwrites the oldest, and counts it. -/
def pushEntry (q : Nat) (e : QEntry) (s : State) : State :=
  if qFull s q then
    onQueue q (fun x => if (queueCfg s q).overwrite then
        { x with entries := x.entries.drop 1 ++ [e], drops := satAdd 0xFFFF x.drops 1, index := (x.index + 1) % max 1 (queueCfg s q).depth }
      else { x with drops := satAdd 0xFFFF x.drops 1 }) s
  else
    let s := if (queueSt s q).entries = [] then
      onChip (fun c => { c with bound := noteBound s.image.flows 0 q c.bound }) s else s
    onQueue q (fun x => { x with entries := x.entries ++ [e] }) s

/-- Whether a push would be taken. -/
def canPush (s : State) (q : Nat) : Bool := !qFull s q || (queueCfg s q).overwrite

/-- QUEUE_ACK (R373): only the consumer frees entries; N counts 1 to 256. -/
def queueAck (who : Who) (q n : Nat) (s : State) : State :=
  let mine := match who with | .core c => (queueCfg s q).cons = c | .other _ => false
  if mine && 1 ≤ n && n ≤ 256 then
    let s := onQueue q (fun x => { x with
      entries := x.entries.drop n, index := (x.index + min n (qCount s q)) % max 1 (queueCfg s q).depth }) s
    acked (match q with
      | 28 => onSaf (fun f => { f with q28 := f.q28.drop n }) s
      | 29 => onSaf (fun f => { f with q29 := f.q29.drop n }) s
      | 30 => onHost (fun h => { h with trace := h.trace.drop n }) s
      | _ => s)
  else acked s

/-- An input of the promise, captured for the record of the tick (R71, R88): a section's type and payload. -/
def noteInput (t : Nat) (l : List Byte) (s : State) : State :=
  if s.recd.on then { s with recd := { s.recd with ins := s.recd.ins ++ [(t, l)] } } else s

/-- An entry of the PDU queues Q28 and Q29: the oldest of 256 is overwritten. -/
def keepLast {α : Type} (n : Nat) (l : List α) (x : α) : List α := (l ++ [x]).drop (l.length + 1 - n)

/-- Log a PDU in Q28 or Q29 (R328, R372): the networks of its copies and the tick. -/
def logPdu (q : Nat) (d : Pdu) (nets : Nat) (s : State) : State :=
  let n := qCount s q
  let e := (d, nets, s.time.tickno)
  let s := if n = 0 then onChip (fun c => { c with bound := noteBound s.image.flows 0 q c.bound }) s else s
  let s := if 256 ≤ n then onQueue q (fun x => { x with drops := satAdd 0xFFFF x.drops 1, index := (x.index + 1) % 256 }) s else s
  if q = 28 then onSaf (fun f => { f with q28 := keepLast 256 f.q28 e }) s
  else onSaf (fun f => { f with q29 := keepLast 256 f.q29 e }) s

/-! ### Plant ports (R376 to R378). Port 2n is IN and 2n + 1 is OUT of network n -/

/-- Bytes waiting in a queue of frames. -/
def queued (l : List TxFrame) : Nat := (l.map (·.len)).foldl (· + ·) 0

/-- A full transmit queue: the frame is discarded and counted, HOST_NET_DROP at most once per tick per port. -/
def dropFrame (p : Nat) (s : State) : State :=
  eventOnce 0x0974 p 0 (onPort p (fun x => { x with drop := satAdd 0xFFFF x.drop 1 }) s)

/-- Whether a waiting frame is a reply. -/
def isReply (f : TxFrame) : Bool := match f.kind with | .reply _ _ => true | _ => false

/-- Whether a waiting frame is a safety PDU. -/
def isPdu (f : TxFrame) : Bool := match f.kind with | .pdu _ => true | _ => false

/-- Place in the device queue: safety PDUs stand ahead of replies (R380). -/
def placeDev (l : List TxFrame) (f : TxFrame) : List TxFrame :=
  if isPdu f then l.takeWhile (fun x => !isReply x) ++ f :: l.dropWhile (fun x => !isReply x) else l ++ [f]

/-- Bytes of the VLAN tag of the device's frames on network n (R379). [DESIGN CHOICE, log 93] -/
def vidTag (s : State) (n : Nat) : Nat := if (nth s.image.nets n).vid = 0 then 0 else 4

/-- A frame of the device leaves by port p, tagged when the network has a VID (R379), or waits in its device queue of 16 KiB. -/
def sendDev (p : Nat) (f : TxFrame) (s : State) : State :=
  let x := nth s.host.ports p
  let f := { f with len := f.len + vidTag s (p / 2) }
  if !x.up || s.pair.role == 3 then s
  else if x.wire.isNone then onPort p (fun x => { x with wire := some f }) s
  else if 16384 < queued x.dev + f.len then dropFrame p s
  else onPort p (fun x => { x with dev := placeDev x.dev f }) s

/-- A frame forwarded to port p, or waiting in its forwarding queue of 64 KiB. -/
def sendFwd (p : Nat) (f : TxFrame) (s : State) : State :=
  let x := nth s.host.ports p
  if !x.up || s.pair.role == 3 then s
  else if x.wire.isNone then onPort p (fun x => { x with wire := some f }) s
  else if 65536 < queued x.fwd + f.len then dropFrame p s
  else onPort p (fun x => { x with fwd := x.fwd ++ [f] }) s

/-- A frame of the device on both ports of a network. The pendant port has no queue of R378. -/
def sendNet (n : Nat) (f : TxFrame) (s : State) : State :=
  if n < 2 then sendDev (2 * n + 1) f (sendDev (2 * n) f s) else s

/-- PLANT_TRANSMIT_DONE (R378): at the frame boundary a PTP event message goes first, then the device queue, then forwarding. -/
def plantTransmitDone (p : Nat) (s : State) : State :=
  onPort p (fun x =>
    match x.ptp, x.dev, x.fwd with
    | f :: r, _, _ => { x with wire := some f, ptp := r }
    | [], f :: r, _ => { x with wire := some f, dev := r }
    | [], [], f :: r => { x with wire := some f, fwd := r }
    | [], [], [] => { x with wire := none }) s

/-- The partner port of a network: in and out are partners. -/
def otherPort (p : Nat) : Nat := if p % 2 = 0 then p + 1 else p - 1

/-! ### The transparent clock (R104 to R107) -/

/-- Scheduled egress of an event message (R104): 1,024 ns after its ingress; an ordinary frame that the port is then sending moves it
to 96 ns after its end, and so does an event message scheduled before it. [DESIGN CHOICE, log 34] -/
def egressAt (s : State) (out ingress wireEnd : Nat) : Nat :=
  let e := ingress + 1024
  let e := if (nth s.host.ports out).wire.isSome && e < wireEnd then wireEnd + 96 else e
  let busy := s.time.egress.getD out 0
  if e < busy then busy + 96 else e

/-- The residence between the pins' timestamps, corrected for the PHYs (R107), in 2^-16 ns; scaled to the domain's rate when the
domain is tracked; profile 2 adds the link delay of the ingress port (R105). [DESIGN CHOICE, log 34] -/
def residence (s : State) (port ingress e domain up : Nat) : Int :=
  let lat (p : Nat) : Nat × Nat := s.image.portlat.getD p (0, 0)
  let r : Int := (e : Int) + (lat (otherPort port)).2 - ((ingress : Int) - (lat port).1)
  let net := port / 2
  let tracked := domain = (if net = 0 then s.image.doma else s.image.domb)
  let x := domSt s net
  let scaled := if tracked then r * 65536 + divHalfUp (r * (x.rate - s.time.rate)) 1000 else r * 65536
  if s.time.profile = 2 then scaled + (up : Int) * 65536 else scaled

/-- The message that takes the residence of a two-step event message: Sync's Follow_Up, Delay_Req's Delay_Resp, and the follow-up of
a Pdelay_Resp. [DESIGN CHOICE, log 34] -/
def follower (t : Nat) : Nat := match t with | 0 => 8 | 1 => 9 | _ => 0xA

/-- Keep the residence of an event message for its follower. -/
def keepResidue (net : Nat) (m : PtpId) (c : Int) (s : State) : State :=
  onTime (fun t => { t with resid := t.resid ++ [{ net := net, id := { m with type := follower m.type }, corr := c }] }) s

/-- The residence that a general message carries on (R105), taken out of those that wait. [DESIGN CHOICE, log 34] -/
def takeResidue (net : Nat) (m : PtpId) (s : State) : Int × State :=
  match s.time.resid.find? (fun x => x.net == net && x.id == m) with
  | some x => (x.corr, onTime (fun t => { t with resid := t.resid.erase x }) s)
  | none => (0, s)

/-- A PTP event message waits at port p ahead of every other frame, or leaves at once. -/
def sendPtp (p : Nat) (f : TxFrame) (s : State) : State :=
  if !(nth s.host.ports p).up || s.pair.role == 3 then s
  else onPort p (fun x => if x.wire.isNone then { x with wire := some f } else { x with ptp := x.ptp ++ [f] }) s

/-- An event message through the transparent clock: its residence goes into it, or waits for the message that follows it. -/
def clockForward (port ingress len : Nat) (later : Bool) (m : PtpId) (wireEnd up : Nat) (s : State) : State :=
  let out := otherPort port
  let e := egressAt s out ingress wireEnd
  let c := residence s port ingress e m.domain up
  let s := if later then keepResidue (port / 2) m c s else s
  let s := onTime (fun t => { t with egress := updAt t.egress out (fun _ => e + 8 * (len + 8)) }) s
  sendPtp out { kind := .ptp, len := len, corr := if later then 0 else c } s

/-- PTP_EVENT_FORWARD (R104 to R107): `wireEnd` is when the ordinary frame ends that the egress port sends 1,024 ns after ingress, `up`
the link delay that the peer-delay mechanism of the ingress port has measured. A bad frame check sequence discards the message; a
device without a transparent clock forwards it as any other frame (R96). [DESIGN CHOICE, log 34] -/
def ptpEventForward (port ingress len : Nat) (fcsOk twoStep oneStepPeer : Bool) (m : PtpId) (wireEnd up : Nat) (s : State) : State :=
  if !fcsOk then onNet (port / 2) (fun n => { n with fcserr := satAdd 0xFFFF n.fcserr 1 }) s
  else if !ptpOn s then sendFwd (otherPort port) { kind := .forward, len := len } s
  else clockForward port ingress len (if s.time.profile = 1 then twoStep else !oneStepPeer && m.type == 0) m wireEnd up s

/-! ### Ordinary frames (R377, R379) -/

/-- A frame that the device takes and does not support is discarded and counted (R379). -/
def discardIp (n : Nat) (s : State) : State := onNet n (fun x => { x with ipdisc := satAdd 0xFFFF x.ipdisc 1 }) s

/-- A frame forwarded; a PTP general message takes the residence that waits for it (R105). -/
def forwardFrom (p len : Nat) (ptp : Option PtpId) (s : State) : State :=
  match ptp with
  | some m =>
    let r := takeResidue (p / 2) m s
    sendFwd (otherPort p) { kind := .forward, len := len, corr := r.1 } r.2
  | none => sendFwd (otherPort p) { kind := .forward, len := len } s

/-- PLANT_FRAME_RECEIVED (R377, R379): forwarded unless bad, its own or to it; what is to it and not supported is discarded. A frame
above 1,522 bytes is not supported and goes nowhere (R376). [DESIGN CHOICE, log 93] -/
def plantFrameReceived (p len : Nat) (fcsOk dstOwn srcOwn multi supported : Bool) (ptp : Option PtpId) (s : State) : State :=
  if !fcsOk then onNet (p / 2) (fun n => { n with fcserr := satAdd 0xFFFF n.fcserr 1 }) s
  else
    let s := if dstOwn || srcOwn || 1522 < len then s else forwardFrom p len ptp s
    if (dstOwn || multi) && (!supported || 1522 < len) then discardIp (p / 2) s else s

/-- ARP_REQUEST (R379). [DESIGN CHOICE, log 93] -/
def arpRequest (n : Nat) (s : State) : State := sendNet n { kind := .arp, len := 64 } s

/-- NEIGHBOUR_SOLICITATION (R379). [DESIGN CHOICE, log 93] -/
def neighbourSolicitation (n : Nat) (s : State) : State := sendNet n { kind := .neighbour, len := 90 } s

/-- ICMP_ECHO_REQUEST (R379): at most 10 answers per second per network. [DESIGN CHOICE, log 93] -/
def icmpEchoRequest (n now : Nat) (s : State) : State :=
  let x := nth s.host.nets n
  let fresh := x.echoAt + 1000000000 ≤ now || x.echoes = 0
  let cnt := if fresh then 0 else x.echoes
  if 10 ≤ cnt then s
  else sendNet n { kind := .echo, len := 64 }
    (onNet n (fun x => { x with echoes := cnt + 1, echoAt := if fresh then now else x.echoAt }) s)

/-- UDP_MAILBOX (R379): the mailbox the image names, or discarded. -/
def udpMailbox (n : Nat) (data : List Byte) (s : State) : State :=
  match (nth s.image.nets n).mailbox with
  | some q => pushEntry q { bytes := data } s
  | none => discardIp n s

/-- PLANT_LINK_DOWN (R376, R399): waiting frames are discarded, HOST_NET_DOWN. -/
def plantLinkDown (p : Nat) (s : State) : State :=
  if !(nth s.host.ports p).up then s else event 0x0972 0 (onPort p (fun x => { x with up := false, ptp := [], dev := [], fwd := [], wire := none }) s)

/-- PLANT_LINK_UP (R376): a port whose slice has faulted stays down. -/
def plantLinkUp (p : Nat) (s : State) : State :=
  if (nth s.host.ports p).bad || (nth s.host.ports p).up then s else event 0x0973 0 (onPort p (fun x => { x with up := true }) s)

def execPlantTransmitDone (port : Nat) (s : State) : Out := runIn .host (plantTransmitDone port) s
def execPlantFrameReceived (port len : Nat) (fcsOk dstOwn srcOwn multi supported : Bool) (ptp : Option PtpId) (s : State) : Out :=
  runIn .host (plantFrameReceived port len fcsOk dstOwn srcOwn multi supported ptp) s
def execPtpEventForward (port ingress len : Nat) (fcsOk twoStep oneStepPeer : Bool) (m : PtpId) (wireEnd up : Nat) (s : State) : Out :=
  run (ptpEventForward port ingress len fcsOk twoStep oneStepPeer m wireEnd up) s
def execArpRequest (net : Nat) (s : State) : Out := runIn .host (arpRequest net) s
def execNeighbourSolicitation (net : Nat) (s : State) : Out := runIn .host (neighbourSolicitation net) s
def execIcmpEchoRequest (net now : Nat) (s : State) : Out := runIn .host (icmpEchoRequest net now) s
def execUdpMailbox (net : Nat) (data : List Byte) (s : State) : Out := runIn .host (udpMailbox net data) s
def execPlantLinkDown (port : Nat) (s : State) : Out := run (plantLinkDown port) s
def execPlantLinkUp (port : Nat) (s : State) : Out := run (plantLinkUp port) s

end Sys2Proof.Machine
end

