-- ==== Sys2Proof/Machine/Saf.lean ====
section
/-! DEFINITION. Saf.lean: safety inputs, safety PDUs, the decision of every group, SS1-r monitoring, acknowledge, degraded mode,
the STO lines and the diagnostics of SAF (R298 to R328), with the pendant's part in the decision (R339 to R347). -/

namespace Sys2Proof.Machine

/-! ### Inputs (R304 to R306, R339). Lines 0 to 11 are the pairs, 12 to 15 the pendant's lines -/

/-- Update a line. -/
def onLine (i : Nat) (f : InPair → InPair) (s : State) : State :=
  if i < 12 then onSaf (fun x => { x with pairs := updAt x.pairs i f }) s
  else onSaf (fun x => { x with pend := updAt x.pend (i - 12) f }) s

/-- Sources of a line's channels; none for an absent second channel. -/
def lineSrc (s : State) (i : Nat) : Nat × Option Nat :=
  if i < 12 then ((inputCfg s i).srcA, some (inputCfg s i).srcB)
  else if i < 14 then (0, some 1) else if i = 14 then (2, none) else (3, none)

/-- The groups of a line. -/
def lineGroups (s : State) (i : Nat) : Mask := if i < 12 then (inputCfg s i).gmask &&& defined s else defined s

/-- SFILT of a line in µs. -/
def lineFilt (s : State) (i : Nat) : Nat := if i < 12 then (inputCfg s i).sfilt else 500

/-- DISC of a line in ns: that of the pair, 100 ms for a pendant line (R305, R339). -/
def diffLimit (s : State) (i : Nat) : Nat := if i < 12 then (inputCfg s i).disc * 1000000 else 100000000

/-- Since when the channels of a line differ. -/
def noteDiff (now : Nat) (x : InPair) : InPair :=
  { x with diffSince := if x.a == x.b then none else some (x.diffSince.getD now) }

/-- The test source of a line's channel. -/
def sourceOf (s : State) (i : Nat) (chB : Bool) : Nat := if chB then (lineSrc s i).2.getD (lineSrc s i).1 else (lineSrc s i).1

/-- The demand of a line from its levels (R305): entered by a low channel; left with both high once both have been low, and
after a discrepancy once both have been low together, then high together, and the fault is acknowledged. -/
def pairEval (x : InPair) : InPair :=
  let low := !x.a || !x.b
  let y : InPair := if low && !x.demand then { x with demand := true, lowA := !x.a, lowB := !x.b }
    else { x with lowA := x.lowA || !x.a, lowB := x.lowB || !x.b }
  let y := { y with
    lowBoth := y.disc && (y.lowBoth || (!y.a && !y.b)),
    highBoth := y.disc && y.lowBoth && (y.highBoth || (y.a && y.b)) }
  if y.demand && y.a && y.b && y.lowA && y.lowB && (!y.disc || (y.highBoth && !y.flt)) then
    { y with demand := false, disc := false, lowBoth := false, highBoth := false, lowA := false, lowB := false }
  else y

/-- Evaluate a line that the device evaluates. -/
def evalLine (i : Nat) (s : State) : State := if evaluated s i then onLine i pairEval s else s

/-- SAFETY_INPUT_CHANGE (R305): a level that has held for SFILT µs is accepted; a channel whose source is pulsing, or within TPS µs
after the pulse, keeps its last value (R304). PEN_PRES also starts or breaks its 200 ms (R341). -/
def safetyInputChange (i : Nat) (chB high : Bool) (held : Nat) (s : State) : State :=
  if nodeMode s || held < lineFilt s i || s.time.tb < nth s.saf.pulseUntil (sourceOf s i chB) then s
  else
    let one (x : InPair) : InPair := if chB then { x with b := high } else { x with a := high }
    let both (x : InPair) : InPair := { x with a := high, b := high }
    let s := onLine i (fun x => noteDiff s.time.tb (if i < 14 then one x else both x)) s
    let since (f : SafSt) : Option Nat := if high then some (f.presSince.getD s.time.tb) else none
    let s := if i = 14 then onSaf (fun f => { f with presSince := since f }) s else s
    evalLine i s

/-- The channels of a line have differed for more than DISC ms. -/
def differsLong (s : State) (i : Nat) : Bool :=
  match (lineSt s i).diffSince with | some t => t + diffLimit s i < s.time.tb | none => false

/-- INPUT_DISCREPANCY (R305, R339). -/
def inputDiscrepancy (i : Nat) (s : State) : State :=
  let x := lineSt s i
  if !evaluated s i || !differsLong s i || x.a == x.b || x.disc || (lineSrc s i).2.isNone then s
  else
    classA (lineGroups s i) 16 0x0821 (event 0x0821 i (onLine i (fun y => { y with
      disc := true, flt := true, demand := true, lowBoth := false, highBoth := false }) s))

/-- A channel at level `high` outside the pulse of source t reads `rd` inside it (R304): wrong when its own source leaves it
high, or another source pulls it low. -/
def pulseWrong (own high rd : Bool) : Bool := high && (if own then rd else !rd)

/-- Check one line against a pulse of source t. -/
def checkPulse (t : Nat) (rdA rdB : Bool) (i : Nat) (s : State) : State :=
  if !evaluated s i then s
  else
    let x := lineSt s i
    let q := lineSrc s i
    let bad := pulseWrong (q.1 == t) x.a rdA || (match q.2 with | some b => pulseWrong (b == t) x.b rdB | none => false)
    if bad then
      classA (lineGroups s i) 16 0x0820 (event 0x0820 i (onLine i (fun y => { y with
        test := y.test ||| bitOf 4 t, flt := true }) s))
    else onLine i (fun y => { y with test := y.test &&& ~~~ bitOf 4 t }) s

/-- TEST_PULSE (R304): a pulse of TPW µs on source t; bit i of the masks is the level that line i's channel reads during it. [DESIGN CHOICE, log 76] -/
def testPulse (t : Nat) (lvA lvB : Mask) (s : State) : State :=
  if nodeMode s then s
  else
    let until_ := s.time.tb + (s.image.tpw + s.image.tps) * 1000
    forAll (List.range 16) (fun i => checkPulse t (hasBit lvA i) (hasBit lvB i) i)
      (onSaf (fun f => { f with pulseUntil := updAt f.pulseUntil t (fun _ => until_) }) s)

/-- A line in demand at the E0 sample. -/
def lineDemand (s : State) (i : Nat) : Bool := evaluated s i && (lineSt s i).sampled

/-- The enabling device left its middle position since the E0 before (R347). -/
def enabReleased (s : State) : Bool :=
  s.saf.mode != 0 && s.saf.pres && (nth s.saf.pend 0).sampled && !(nth s.saf.pend 0).wasSampled

/-- The pendant e-stop decides (R339, R344). -/
def estop (s : State) : Bool := s.saf.pres && !s.saf.bridge && (nth s.saf.pend 1).sampled

/-- A latched fault of a pendant line. -/
def pendFault (s : State) : Bool := s.saf.pend.any (fun x => x.flt)

/-- Inputs at E0 (R299, R340, R343, R344): the demands are sampled; the presence and withdraw lines act on their counts. -/
def inputsEdge (s : State) : State :=
  let smp (x : InPair) : InPair := { x with wasSampled := x.sampled, sampled := x.demand }
  let s := onSaf (fun f => { f with pairs := f.pairs.map smp, pend := f.pend.map smp }) s
  let s := if s.saf.pres && s.saf.bridge && (lineSt s 14).sampled then
      onSaf (fun f => { f with pres := false, bridge := false, brleft := 0, presSince := none }) s else s
  let s := onSaf (fun f => { f with
    mode := f.modeNext.getD f.mode, modeNext := none,
    brleft := f.brleft - periodNs s,
    enabSince := if s.saf.pres && !(nth f.pend 0).sampled then (if f.enabSince = 0 then s.time.tickno + 1 else f.enabSince) else 0 }) s
  let wdr := evaluated s 15 && (lineSt s 15).a
  onSaf (fun f => { f with
    wdSince := if wdr then some (f.wdSince.getD s.time.tb) else none, wdArmed := f.wdArmed || !wdr }) s

/-! ### Safety PDUs (R323 to R328) -/

/-- Receive record p. -/
def rxCfg (s : State) (p : Nat) : RxCfg := nth s.image.rx p

/-- State of receive record p. -/
def rxSt (s : State) (p : Nat) : RxSt := nth s.saf.rx p

/-- Update receive record p. -/
def onRx (p : Nat) (f : RxSt → RxSt) (s : State) : State := onSaf (fun x => { x with rx := updAt x.rx p f }) s

/-- The record of a PDUID. -/
def rxOf (s : State) (id : Nat) : Option Nat :=
  (List.range 16).find? (fun p => (rxCfg s p).defined && (rxCfg s p).pduId == id)

/-- A SEQ between 1 and 2^31 above another (R324). -/
def seqNewer (q last : BitVec 32) : Bool := 1 ≤ (q - last).toNat && (q - last).toNat ≤ 2147483648

/-- Any SEQ is valid: nothing accepted since the start, or both networks beyond WDOG (R324). -/
def anySeq (x : RxSt) : Bool := x.lastSeq.isNone || (x.lateA && x.lateB)

/-- Bytes 0 to 15 + LEN of a PDU (R323). -/
def pduBytes (d : Pdu) : List Byte :=
  leBytes 2 d.id ++ leBytes 1 d.len ++ [d.rsv] ++ leBytes 4 d.seq.toNat ++ leBytes 8 d.captick ++ d.payload

/-- The checks of R324 on a copy but for the SEQ. -/
def copySound (c : RxCfg) (d : Pdu) : Bool :=
  d.len == c.len && d.payload.length == d.len && d.rsv == 0 && d.crc == crc32c (pduBytes d)

/-- The SEQ condition of R324; with a window open, one older than the window's is out of order. -/
def seqValid (x : RxSt) (d : Pdu) : Bool :=
  match x.window with
  | some w => d.seq == w.2.seq || seqNewer d.seq w.2.seq
  | none => anySeq x || (match x.lastSeq with | some l => seqNewer d.seq l | none => true)

/-- The bytes that R325 compares. -/
def sameBytes (a b : Pdu) : Bool := pduBytes a == pduBytes b

/-- SAF_PDU_BAD, at most once per tick per PDU (R324). -/
def pduBad (key detail : Nat) (s : State) : State := eventOnce 0x0833 key detail s

/-- Accept a PDU (R34, R325, R328). -/
def acceptPdu (p : Nat) (d : Pdu) (netB one : Bool) (s : State) : State :=
  let s := onRx p (fun x => { x with
    lastSeq := some d.seq, window := none, accepted := some d, accNet := netB, accTick := s.time.tickno, oneCopy := one,
    onecnt := if one then satAdd 0xFFFF x.onecnt 1 else x.onecnt }) s
  logPdu 28 d (if one then (if netB then 2 else 1) else 3) s

/-- Unequal copies: class A, neither accepted (R325). A copy that comes late leaves a newer window open. -/
def pduMismatch (p : Nat) (late : Bool) (s : State) : State :=
  classA ((rxCfg s p).gmask &&& defined s) 16 0x0830 (event 0x0830 p (onRx p (fun x => { x with
    window := if late then x.window else none, mism := satAdd 255 x.mism 1 }) s))

/-- A valid copy ends the lateness of its network, and with both in time the class B condition (R326). -/
def pduArrived (p : Nat) (netB : Bool) (s : State) : State :=
  let s := onRx p (fun x => if netB then { x with lateB := false, validB := s.time.tb }
    else { x with lateA := false, validA := s.time.tb }) s
  if (rxSt s p).lateA || (rxSt s p).lateB then s else endB 5 p s

/-- A compare window of 2 ms of TB opens (R325). -/
def openWindow (p : Nat) (netB : Bool) (d : Pdu) (s : State) : State :=
  onRx p (fun x => { x with window := some (netB, d), openedAt := s.time.tb }) s

/-- A valid copy meets the compare window (R325). -/
def pduWindow (p : Nat) (netB : Bool) (d : Pdu) (s : State) : State :=
  match (rxSt s p).window with
  | none => openWindow p netB d s
  | some (n, w) =>
    if w.seq == d.seq then
      if n == netB then s
      else if sameBytes w d then acceptPdu p w n false s
      else pduMismatch p false s
    else openWindow p netB d (acceptPdu p w n true s)

/-- A copy from the other network after its window closed, with the SEQ of the accepted PDU (R325). [DESIGN CHOICE, log 81] -/
def lateCopy (x : RxSt) (netB : Bool) (d : Pdu) : Bool :=
  x.oneCopy && x.accNet != netB && (match x.accepted with | some a => a.seq == d.seq | none => false)

/-- PDU_COPY_RECEIVED (R324, R325). [DESIGN CHOICE, log 81] -/
def pduCopyReceived (netB : Bool) (d : Pdu) (s : State) : State :=
  if nodeMode s then s
  else
    match rxOf s d.id with
    | none => pduBad (65536 + d.id) 0xFFFF s
    | some p =>
      let x := rxSt s p
      if !copySound (rxCfg s p) d then pduBad p p s
      else if lateCopy x netB d then
        (match x.accepted with | some a => if sameBytes a d then s else pduMismatch p true s | none => s)
      else if !seqValid x d then pduBad p p s
      else pduWindow p netB d (pduArrived p netB s)

/-- PDU_COMPARE_WINDOW_EXPIRY (R325): the window has been open for 2 ms. [DESIGN CHOICE, log 81] -/
def pduWindowExpiry (p : Nat) (s : State) : State :=
  match (rxSt s p).window with
  | some (n, d) => if (rxSt s p).openedAt + 2000000 ≤ s.time.tb then acceptPdu p d n true s else s
  | none => s

/-- A network has brought no valid copy for more than WDOG ms. -/
def pduLate (s : State) (p : Nat) (netB : Bool) : Bool :=
  (if netB then (rxSt s p).validB else (rxSt s p).validA) + (rxCfg s p).wdog * 1000000 < s.time.tb

/-- PDU_WATCHDOG (R326). [DESIGN CHOICE, log 81; DESIGN CHOICE, log 141] -/
def pduWatchdog (p : Nat) (netB : Bool) (s : State) : State :=
  let x := rxSt s p
  let m := (rxCfg s p).gmask &&& defined s
  if nodeMode s || !(rxCfg s p).defined || !pduLate s p netB || (if netB then x.lateB else x.lateA) then s
  else
    let s := onRx p (fun y => if netB then { y with lateB := true } else { y with lateA := true }) s
    if (if netB then x.lateA else x.lateB) then classA m 16 0x0832 (event 0x0832 p s)
    else addB 5 p m 0x0831 (event 0x0831 p s)

/-- The accepted PDUs are frozen at E0 (R34). [DESIGN CHOICE, log 81] -/
def pduEdge (s : State) : State :=
  onSaf (fun f => { f with rx := f.rx.map (fun x => { x with fresh := x.accepted != x.frozen, before := x.frozen, frozen := x.accepted }) }) s

/-- The payload of the status PDU (R327). -/
def statusPayload (s : State) : List Byte :=
  (List.range 16).map (fun g => BitVec.ofNat 8 (safG s g).state.code) ++ leBytes 2 (demandMask s).toNat ++
    leBytes 2 (maskOf 16 (fun g => (safG s g).aLatch)).toNat ++ leBytes 2 (maskOf 16 (fun g => (safG s g).deg)).toNat ++
    leBytes 8 (s.time.tstart / 1000000000) ++ leBytes 4 (s.time.tstart % 1000000000) ++ leBytes 1 s.image.k ++ [0]

/-- Send record i at 17.0 µs (R327, R328, R380). A standby sends nothing of its own. [DESIGN CHOICE, log 81] -/
def sendPdu (i : Nat) (s : State) : State :=
  let c := nth s.image.tx i
  let per := max 1 c.period
  if !c.defined || (s.time.tickno + per - c.phase % per) % per != 0 then s
  else
    let pl := statusPayload s
    let d : Pdu := { id := c.pduId, len := pl.length, seq := nth s.saf.txSeq i, captick := s.time.tickno, payload := pl }
    let d := { d with crc := crc32c (pduBytes d) }
    let s := logPdu 29 d 3 (onSaf (fun f => { f with txSeq := updAt f.txSeq i (· + 1) }) s)
    if s.pair.role = 2 then s
    else
      let fr : TxFrame := { kind := .pdu c.pduId, len := 66 + pl.length }
      sendDev (2 + c.portB % 2) fr (sendDev (c.portA % 2) fr s)

/-! ### Speeds (R309, R318) -/

/-- v_a of the tick in 2^-24 count per tick; none with null feedback. -/
def axisSpeed (s : State) (a : Nat) : Option Rat :=
  let x := axSt s a
  if !x.used || x.fbTick != s.time.tickno then none
  else some (((posDiff x.fb x.fbPrev).natAbs : Rat) / (max 1 (x.fbTick - x.fbPrevTick) : Nat))

/-- v0_a: the change of feedback since the tick before, held values included. -/
def startSpeed (s : State) (a : Nat) : Nat :=
  let x := axSt s a
  if x.used && x.fbTick = s.time.tickno then (posDiff x.fb x.fbPrev).natAbs else 0

/-- A binary32 in counts as 2^-24 count. -/
def fineOf (x : F32) : Rat := f32Val x * 16777216

/-- The allowed value max(limit, v0 − decel × max(0, k − KDLY)) of R309 and R318. -/
def allowed (limit v0 decel : Rat) (k kdly : Nat) : Rat := max limit (v0 - decel * ((k - kdly : Nat) : Rat))

/-- Envelope exceeded in SS1-r (R309): k ticks after the decision. -/
def envelope (s : State) (g : Nat) : Bool :=
  let x := safG s g
  let k := s.time.tickno - x.decTick
  ((axesOf s g).zip x.v0).any (fun p =>
    let c := axisCfg s p.1
    match axisSpeed s p.1 with
    | some v => allowed 0 p.2 (fineOf c.amon) k (grpCfg s g).kdly + fineOf c.etol < v
    | none => false)

/-- Every axis at or below VSTILL in this tick (R310); null feedback does not count as still. [DESIGN CHOICE, log 77] -/
def stillTick (s : State) (g : Nat) : Bool :=
  (axesOf s g).all (fun a => match axisSpeed s a with | some v => v ≤ fineOf (axisCfg s a).vstill | none => false)

/-- The situations of R317 that hold for group g. [DESIGN CHOICE, log 78] -/
def slsSits (s : State) (g : Nat) : List Nat :=
  (if s.saf.mode = 1 then [0] else []) ++ (if slsDemand s g then [1] else []) ++ (if (safG s g).deg then [2] else []) ++
    ((axesOf s g).filter (fun a => remoteHoming (axSt s a))).map (fun a => 3 + a)

/-- SLS of group g in the tick: situations begin with the speeds of the tick, others end. [DESIGN CHOICE, log 78] -/
def slsUpdate (g : Nat) (s : State) : State :=
  let now := slsSits s g
  let v0 := (axesOf s g).map (startSpeed s)
  onSafG g (fun x =>
    let old := x.sls.filter (fun r => now.contains r.sit)
    let new := (now.filter (fun k => !x.sls.any (fun r => r.sit == k))).map (fun k =>
      ({ sit := k, tick := s.time.tickno, tcp0 := (grpSt s g).tcpv, ax0 := v0 } : SlsRec))
    { x with sls := old ++ new }) s

/-- The TCP limit of a situation, mm/s. -/
def slsTcpLimit (s : State) (g sit : Nat) : Option Nat :=
  match sit with | 0 => some (grpCfg s g).vred | 1 => some (grpCfg s g).slstcp | _ => none

/-- The limit of axis a in a situation, 2^-24 count per tick. -/
def slsAxisLimit (s : State) (g sit a : Nat) : Option Rat :=
  let c := axisCfg s a
  match sit with
  | 0 => none
  | 1 => some (fineOf c.vsls)
  | 2 => some (fineOf c.avmax * ((grpCfg s g).degf : Rat) / 32768)
  | k => if k = a + 3 then some (fineOf c.vsls) else none

/-- One situation exceeded (R318). [DESIGN CHOICE, log 78] -/
def slsOver (s : State) (g : Nat) (r : SlsRec) : Bool :=
  let c := grpCfg s g
  let k := s.time.tickno - r.tick
  let tcp := match slsTcpLimit s g r.sit with
    | some l => allowed l r.tcp0 (f32Val c.atcp) k c.kdly + c.tcptol < ((grpSt s g).tcpv : Rat)
    | none => false
  tcp || ((axesOf s g).zip r.ax0).any (fun p =>
    match slsAxisLimit s g r.sit p.1, axisSpeed s p.1 with
    | some l, some v => allowed l p.2 (fineOf (axisCfg s p.1).amon) k c.kdly + fineOf (axisCfg s p.1).etol < v
    | _, _ => false)

/-- A speed above the allowed one. -/
def slsExceeded (s : State) (g : Nat) : Bool := (safG s g).sls.any (slsOver s g)

/-! ### Causes (R307) -/

/-- Causes that only this device's silicon, links or monitors see (R430): a standby does not act on its own. [DEDUCED, log 83] -/
def localCauses : BitVec 32 := bitOf 32 9 ||| bitOf 32 11 ||| bitOf 32 15 ||| bitOf 32 20

/-- The raised causes that the decision takes. -/
def takenReq (s : State) (m : BitVec 32) : BitVec 32 := if s.pair.role = 2 then m &&& ~~~ localCauses else m

/-- A pair of FUNC f names g and is in demand at E0. With `ack`, a pair that only waits for the acknowledge does not count. -/
def funcDemand (s : State) (g f : Nat) (ack : Bool) : Bool :=
  (List.range 12).any (fun i => (inputCfg s i).func = f && hasBit (inputCfg s i).gmask g && lineDemand s i &&
    !(ack && (lineSt s i).disc && (lineSt s i).highBoth && (lineSt s i).a && (lineSt s i).b))

/-- The escalated chip holds its stop until a reset (R46). -/
def escStop (s : State) : Bool := s.chip.escalated && s.pair.role != 2

/-- The active listed this group as stopped (R430), or announced its escalation (R438). -/
def pairStop (s : State) (g : Nat) : Bool := s.pair.role = 2 && s.pair.fed && (hasBit s.pair.lstop g || s.pair.hoEsc)

/-- Stop causes present for g. [DEDUCED, log 80; DEDUCED, log 83] -/
def stopCauses (s : State) (g : Nat) (ack : Bool) : List Nat :=
  let x := safG s g
  let live := (grpSt s g).state.enabled
  let req := takenReq s x.stopReq
  (List.range 21).filter (fun c =>
    hasBit req c ||
    (match c with
     | 1 => funcDemand s g 1 ack
     | 3 => funcDemand s g 3 ack
     | 4 => funcDemand s g 4 ack
     | 6 => hasSolTrl s && (trlG s g).stopreq
     | 8 => slsExceeded s g
     | 15 => (escStop s && !hasBit (lent s) g) || pairStop s g
     | 16 => estop s || s.saf.presLost || (live && enabReleased s)
     | _ => false))

/-- Envelope or lost feedback during SS1-r (R309). -/
def rampCause (s : State) (g c : Nat) : Bool :=
  (safG s g).state == .ss1r && (safG s g).decTick < s.time.tickno &&
    (match c with
     | 7 => envelope s g
     | 12 => (axesOf s g).any (fun a => (axSt s a).lost)
     | _ => false)

/-- STO causes present for g. [DEDUCED, log 80] -/
def stoCauses (s : State) (g : Nat) (ack : Bool) : List Nat :=
  let req := takenReq s (safG s g).stoReq
  (List.range 21).filter (fun c =>
    hasBit req c || rampCause s g c ||
    (match c with
     | 2 => funcDemand s g 2 ack
     | 5 => funcDemand s g 5 ack
     | 15 => s.saf.withheld
     | _ => false))

/-- Lowest of a list of causes. [DEDUCED, log 80] -/
def lowest (l : List Nat) : Nat := l.headD 0

/-! ### The decision (R307 to R312) -/

/-- The step generators of group g issue no further pulse (R173, R311). -/
def stopPulses (g : Nat) (s : State) : State :=
  forAll (axesOf s g) (fun a s => match (axisCfg s a).dst with | .axio c => stepStop c s | _ => s) s

/-- STO is decided for group g (R307, R310, R311). -/
def decideSto (g stocause cause : Nat) (s : State) : State :=
  let s := onSafG g (fun x => { x with
    state := .sto, stocause := stocause, tsto := s.time.tickno % 2 ^ 24,
    cause := (if x.state == .ss1r then x.cause else cause),
    onlyStopreq := (x.state == .ss1r && x.onlyStopreq && stocause = 18) }) s
  event 0x0802 g (keepReleased g s)

/-- SS1-r is decided for group g (R307, R309). -/
def decideStop (g cause : Nat) (only : Bool) (s : State) : State :=
  event 0x0801 g (onSafG g (fun x => { x with
    state := .ss1r, cause := cause, decTick := s.time.tickno, v0 := (axesOf s g).map (startSpeed s), still := 0,
    onlyStopreq := only }) (keepReleased g s))

/-- The scale of group g from 17.0 µs (R307, R320). -/
def groupScale (s : State) (g : Nat) : Nat :=
  let r := if hasSolTrl s then (trlG s g).scale else 32768
  if (safG s g).deg then min r (grpCfg s g).degf else r

/-- A class B condition acts on g: a standby takes its active's (R430). -/
def classB (s : State) (g : Nat) : Bool :=
  if s.pair.role = 2 then s.saf.bconds.any (fun c => c.src == 10 && hasBit c.scope g) else hasB s g

/-- Degraded mode of group g in the tick (R320); a condition that ends in the tick of the expiry does not prevent it (R322). -/
def degraded (g : Nat) (s : State) : State :=
  let b := classB s g
  let x := safG s g
  let full := (grpCfg s g).tdeg * 1000000000
  let runs := x.state == .run || x.state == .scaled
  if b && !x.deg then event 0x0840 g (onSafG g (fun y => { y with deg := true, tleft := full }) s)
  else if x.deg && runs && x.tleft ≤ periodNs s then onSafG g (fun y => { y with tleft := 0 }) s
  else if !b then onSafG g (fun y => { y with deg := false, tleft := full, expBlock := false }) s
  else if runs then onSafG g (fun y => { y with tleft := y.tleft - periodNs s }) s
  else s

/-- A stop or STO cause other than STOPREQ or a normal standstill ends the right to an automatic restart (R316). [DEDUCED, log 83] -/
def foreignCause (l : List Nat) : Bool := l.any (fun c => c != 6 && c != 18)

/-- The decision of group g (R307). -/
def decideGroup (g : Nat) (s : State) : State :=
  let x := safG s g
  let stops := stopCauses s g false
  let stos := stoCauses s g false
  let n := groupScale s g
  let s := onSafG g (fun y => { y with scale := n, onlyStopreq := y.onlyStopreq && !foreignCause (stops ++ stos) }) s
  match x.state with
  | .sto | .cloche => s
  | _ =>
    if stos != [] then
      let s := if stos.contains 7 then event 0x0810 g s else s
      decideSto g (lowest stos) (min (lowest stos) (if stops = [] then 255 else lowest stops)) s
    else if x.state == .ss1r then
      let st := x.decTick < s.time.tickno && stillTick s g
      onSafG g (fun y => { y with still := if st then y.still + 1 else 0 }) s
    else if stops != [] then
      let s := if stops.contains 8 then event 0x0812 g s else s
      decideStop g (lowest stops) (stops == [6]) s
    else onSafG g (fun y => { y with state := if n < 32768 then .scaled else .run }) s

/-! ### Acknowledge (R315, R316) -/

/-- A class A fault of group g has not ended: persistent sources, faults that other state shows (R315 condition 2). -/
def faultPresent (s : State) (g : Nat) : Bool :=
  (safG s g).aActive != 0 ||
  (List.range 16).any (fun i => hasBit (lineGroups s i) g && evaluated s i &&
    ((lineSt s i).test != 0 || ((lineSt s i).disc && !(lineSt s i).highBoth))) ||
  hasBit s.saf.rberr g ||
  (axesOf s g).any (fun a => (axSt s a).lost) ||
  (List.range 16).any (fun p => (rxCfg s p).defined && hasBit (rxCfg s p).gmask g && (rxSt s p).lateA && (rxSt s p).lateB) ||
  (bitsOf (regSt s .mot).quar).any (fun b => if b < 8 then hasBit (groupsOfBlock s b) g else hasBit (groupsOfKde s (b - 8)) g) ||
  (bitsOf (regSt s .ring).quar).any (fun r => hasBit (groupsOfRing s r) g) ||
  (axesOf s g).any (fun a => match axisChan (axisCfg s a) with | some c => (chSt s c).retired | none => false)

/-- Conditions 1 to 4 of R315. [DESIGN CHOICE, log 76] -/
def mayLeave (s : State) (g : Nat) : Bool :=
  stopCauses s g true == [] && stoCauses s g true == [] && !faultPresent s g &&
    !(safG s g).rbBlock && !(safG s g).expBlock && s.saf.match_

/-- A FUNC 7 pair of g changed from demand to no demand (R306). -/
def resetEdge (s : State) (g : Nat) : Bool :=
  (List.range 12).any (fun i => (inputCfg s i).func = 7 && hasBit (inputCfg s i).gmask g && evaluated s i &&
    (lineSt s i).wasSampled && !(lineSt s i).sampled)

/-- The acknowledge clears the latched faults of the lines that name g. [DESIGN CHOICE, log 76] -/
def clearLines (g : Nat) (s : State) : State :=
  forAll ((List.range 16).filter (fun i => hasBit (lineGroups s i) g)) (fun i s =>
    evalLine i (onLine i (fun x => { x with flt := x.test != 0 }) s)) s

/-- Acknowledge of group g at 17.0 µs (R315); `prior` is its state before the decision, `may` whether its conditions hold before any
acknowledge of the tick. [DEDUCED, log 75; DESIGN CHOICE, log 76] -/
def acknowledge (g : Nat) (prior : GState) (may : Bool) (s : State) : State :=
  if !((safG s g).ackEdge || resetEdge s g) then s
  else if may && (prior == .cloche || prior == .run || prior == .scaled) then
    let s := clearLines g (onSafG g (fun x => { x with aLatch := false }) s)
    if prior == .cloche then
      onGrp g (fun y => { y with leave := 1 })
        (onSafG g (fun x => { x with state := .run, cause := 0, nres := 0, onlyStopreq := false }) s)
    else s
  else event 0x0803 g (onSaf (fun f => { f with ackBad := f.ackBad ||| bitOf 16 g }) s)

/-- Conditions of the automatic restart of group g (R316). [DESIGN CHOICE, log 79] -/
def restartOk (s : State) (g : Nat) : Bool :=
  let x := safG s g
  x.state == .cloche && (grpCfg s g).autores && x.onlyStopreq && (grpCfg s g).sres ≤ (trlG s g).scale && mayLeave s g &&
    s.saf.mode = 0 && !(axesOf s g).any (fun a => (axSt s a).reinit) && (grpSt s g).toolOk

/-- Count the ticks of sufficient scale (R316). [DESIGN CHOICE, log 79] -/
def countRestart (g : Nat) (s : State) : State :=
  let ok := restartOk s g
  onSafG g (fun x => { x with nres := if ok then x.nres + 1 else 0 }) s

/-- AUTO_RESTART (R316): state RUN, ENABLING from the next E0. -/
def autoRestart (g : Nat) (s : State) : State :=
  if restartOk s g && max 1 (grpCfg s g).nres ≤ (safG s g).nres then
    onGrp g (fun y => { y with leave := 2 })
      (onSafG g (fun x => { x with state := .run, cause := 0, nres := 0, aLatch := false }) s)
  else s

/-! ### The other work of 17.0 µs -/

/-- The KDE cross-check of group TICKNO mod 16 (R303): a difference above 0.1 mm between the tool position that SAF computes from the
measured positions and the record that the KDE released; `off` says that a fault of the KDE put its record beyond that. [DESIGN CHOICE, log 78] -/
def kdeCheck (off : Bool) (s : State) : State :=
  let g := s.time.tickno % 16
  let x := grpSt s g
  if !(grpCfg s g).defined || x.state == .disabled || !x.posesOk then s
  else
    let own := (nth (kdePoses (grpCfg s g) (jointFb s g) (baseRecord s g)) ((grpCfg s g).nj + 1)).take 3
    let rec_ := (nth x.poses ((grpCfg s g).nj + 1)).take 3
    let d : Rat := ((List.range 3).map (fun i =>
      let e := f32Val (nth own i) - f32Val (nth rec_ i)
      e * e)).foldl (· + ·) 0
    if off || (1 : Rat) / 100000000 < d || own.any f32Special then classA (bitOf 16 g) 1 0x0823 (event 0x0823 g s)
    else endA (bitOf 16 g) 1 s

/-- A limit that became active outside homing stops its groups (R167). -/
def limitTrips (s : State) : State :=
  forAll ((List.range 32).filter (fun c => (chSt s c).limTrip)) (fun c s =>
    demandStop (groupsOfChan s c) 13 (event 0x0420 c (onChan c (fun x => { x with limTrip := false }) s))) s

/-- One request for a mode is decided (R346). -/
def decideMode (r : Nat × Origin) (s : State) : State :=
  let stopped := (bitsOf (defined s)).all (fun g => (safG s g).state == .cloche || (grpSt s g).state == .disabled)
  let ok := stopped && (r.1 = 0 || (s.saf.pres && !s.saf.bridge)) && !pendFault s
  if ok then event 0x0874 0 (onSaf (fun f => { f with modeNext := some r.1 }) s)
  else event 0x0875 0 (onSaf (fun f => { f with modeBad := f.modeBad ++ [r.2] }) s)

/-- The mode changes asked for in the tick, in the order of their release: each is decided, and the last accepted one applies from
the next E0 (R346, R389). -/
def modeChange (s : State) : State :=
  forAll s.saf.modeReq decideMode (onSaf (fun f => { f with modeReq := [], modeBad := [] }) s)

/-- An ENABLE of this tick meets a decision to stop (R399): the command fails as a whole and its groups stay DISABLED. -/
def enableMeetsStop (s : State) : State :=
  forAll s.host.waits (fun w s =>
    if w.2.1 = 0x14 && (bitsOf w.2.2).any (fun g =>
        (grpSt s g).enableTick = s.time.tickno && ((safG s g).state == .ss1r || (safG s g).state == .sto)) then
      forAll (bitsOf w.2.2) (fun g => onGrp g (fun x =>
        if x.enableTick = s.time.tickno && (x.state == .enabling || x.state == .stopping) then { x with state := .disabled } else x)) s
    else s) s

/-- Groups of the set-point digest (R432): RUN or SCALED and inside the promise of the tick. [DEDUCED, log 108] -/
def digestMask (s : State) : Mask :=
  let out := s.time.causeNow.foldl (fun m c => m ||| c) 0
  maskOf 16 (fun g => (grpCfg s g).defined && ((safG s g).state == .run || (safG s g).state == .scaled) && !hasBit out g)

/-- Groups stopped for causes that only this device sees, and degraded groups (R430). -/
def pairMasks (s : State) : State :=
  onPair (fun p => { p with
    cmask := digestMask s,
    lstop := maskOf 16 (fun g => (grpCfg s g).defined && hasBit localCauses (safG s g).cause &&
      ((safG s g).state == .ss1r || (safG s g).state == .sto)),
    ldeg := maskOf 16 (fun g => (safG s g).deg) }) s

/-- SAF_DECISION (R307): once per tick at 17.0 µs; nothing is decided once SAF has missed it, or in node mode. [DEDUCED, log 75] -/
def safDecision (off : Bool) (s : State) : State :=
  if nodeMode s || s.mot.fin || (slackSt s 6).missNow then s
  else
    let gs := bitsOf (defined s)
    let prior := gs.map (fun g => (g, (safG s g).state))
    let s := limitTrips (kdeCheck off s)
    let s := forAll gs degraded s
    let s := forAll gs slsUpdate s
    let s := forAll gs decideGroup s
    let s := onSaf (fun f => { f with ackBad := 0 }) s
    let asks := prior.map (fun p => (p.1, p.2, mayLeave s p.1))
    let s := forAll asks (fun p => acknowledge p.1 p.2.1 p.2.2) s
    let s := forAll gs countRestart s
    let s := onSaf (fun f => { f with
      g := f.g.map (fun x => { x with stopReq := 0, stoReq := 0, ackEdge := false }),
      presLost := f.presLost && !gs.all (fun g => (nth f.g g).state == .cloche) }) s
    let s := enableMeetsStop (modeChange s)
    let s := forAll (List.range 8) sendPdu s
    let s := onSlack 6 (fun x => { x with done := 0xFFFF }) s
    finalise (if s.pair.role = 1 then pairMasks s else s)

/-- A decision of SAF in the same tick after the others: its set-points, and STOPPING. -/
def lateDecision (g : Nat) (s : State) : State :=
  let s := refinalise g s
  if s.mot.fin && (safG s g).state == .ss1r then toStopping g s else s

/-- STANDSTILL (R310). -/
def standstill (g : Nat) (s : State) : State :=
  let x := safG s g
  if x.state == .ss1r && max 1 (grpCfg s g).nstill ≤ x.still then lateDecision g (decideSto g 18 x.cause s) else s

/-- SS1_TIMEOUT (R310). -/
def ss1Timeout (g : Nat) (s : State) : State :=
  let x := safG s g
  if x.state == .ss1r && (grpCfg s g).tss1max ≤ s.time.tickno - x.decTick then
    lateDecision g (decideSto g 19 x.cause (event 0x0811 g s))
  else s

/-- DEGRADED_EXPIRY (R321): the restart stays blocked while a class B condition of its scope is active. -/
def degradedExpiry (g : Nat) (s : State) : State :=
  let x := safG s g
  if x.deg && x.tleft = 0 && (x.state == .run || x.state == .scaled) then
    lateDecision g (decideStop g 10 false (event 0x0841 g (onSafG g (fun y => { y with expBlock := true }) s)))
  else s

/-! ### The STO lines and the refresh (R300, R311 to R314) -/

/-- Groups whose lines R313 drives high: none outside the power state RUN (R416). -/
def torqueMask (s : State) : Mask :=
  if s.chip.pstate != .run then 0
  else maskOf 16 (fun g => (grpCfg s g).defined &&
    ((safG s g).state == .run || (safG s g).state == .scaled || (safG s g).state == .ss1r))

/-- STO_LINE_SWITCH (R311, R313) at 17.2 µs, from which the step generators of a group in STO issue no pulse (R173): an unfed standby
keeps its levels (R429); after R300 the lines stay low. -/
def stoLineSwitch (s : State) : State :=
  let s := forAll ((bitsOf (defined s)).filter (fun g => (safG s g).state == .sto)) stopPulses s
  if s.saf.dead || nodeMode s then s
  else
    let m := if s.pair.role = 2 && !s.pair.fed then s.pair.lineHold else torqueMask s
    onPair (fun p => { p with lineHold := m })
      (onSaf (fun f => { f with lineCmd := m &&& ~~~ f.rberr, pattern := m &&& ~~~ f.rberr }) s)

/-- Every line low until a reset (R300). The refresh of PAIR_VOTE ends with it (R425). [DESIGN CHOICE, log 82] -/
def linesLow (s : State) : State :=
  if s.saf.dead then s
  else
    let s := event 0x0804 0 (onSaf (fun f => { f with dead := true, lineCmd := 0, pattern := 0 }) s)
    classA (defined s) 16 0x0804 (bbTrigger 4 0 (onPair (fun p => { p with vote := false }) s))

/-- STO_REFRESH (R300, R301): words alternate; two equal ones drive the lines low; an escalation from SAF or TIME withholds. [DESIGN CHOICE, log 82] -/
def stoRefresh (word : Bool) (s : State) : State :=
  if s.saf.dead || s.saf.withheld then s
  else if s.saf.refreshSeen && s.saf.refreshWord == word then linesLow s
  else onSaf (fun f => { f with refreshSeen := true, refreshWord := word }) s

/-- FLOW_SIGNATURE_CHECK (R301, R302). -/
def flowSignatureCheck (ok : Bool) (sig : Word) (s : State) : State :=
  let s := onSaf (fun f => { f with sig := sig }) s
  if ok then s else escalate .saf (classA (defined s) 16 0x0850 (event 0x0850 0 s))

/-- One line is not at its commanded level (R314). -/
def readbackFault (g : Nat) (s : State) : State :=
  let s := onSaf (fun f => { f with rberr := f.rberr ||| bitOf 16 g, lineCmd := f.lineCmd &&& ~~~ bitOf 16 g }) s
  let s := latchA (bitOf 16 g) 16 0x0822 (event 0x0822 g s)
  let s := onSafG g (fun x => { x with rbBlock := true }) s
  match (safG s g).state with
  | .sto | .cloche => s
  | _ => lateDecision g (decideSto g 20 20 s)

/-- STO_READBACK (R314): the levels at the balls. -/
def stoReadback (level : Mask) (s : State) : State :=
  let s := onSaf (fun f => { f with level := level }) s
  let bad := (level ^^^ s.saf.lineCmd) &&& defined s &&& ~~~ s.saf.rberr
  forAll (bitsOf bad) readbackFault s

/-- VOLTAGE_MONITOR_TRIP (R302): class A, escalation with SS1-r under SAF. [DESIGN CHOICE, log 38] -/
def voltageTrip (vcore : Nat) (s : State) : State :=
  let s := onSaf (fun f => { f with vcore := vcore % 256 }) s
  escalate .chip (classA (defined s) 3 0x0851 (event 0x0851 0 s))

/-- TEMPERATURE_MONITOR_TRIP (R302): `tj` in °C. [DESIGN CHOICE, log 38] -/
def temperatureTrip (tj : Nat) (s : State) : State :=
  let s := onSaf (fun f => { f with tj := (tj + 64) % 256 }) s
  let all := defined s
  if 110 < tj then escalate .chip (classA all 2 0x0852 (event 0x0852 0 (addB 7 0 all 0x0852 s)))
  else if 105 < tj then (if s.saf.bconds.any (fun c => c.src == 7) then s else addB 7 0 all 0x0852 (event 0x0852 0 s))
  else s

/-- TEMPERATURE_MONITOR_CLEAR (R302). -/
def temperatureClear (tj : Nat) (s : State) : State :=
  if tj ≤ 105 then endA (defined s) 2 (endB 7 0 (onSaf (fun f => { f with tj := (tj + 64) % 256 }) s)) else s

def execSafDecision (kdeOff : Bool) (s : State) : Out := run (safDecision kdeOff) s
def execStoLineSwitch (s : State) : Out := run stoLineSwitch s
def execStandstill (g : Nat) (s : State) : Out := run (standstill g) s
def execSs1Timeout (g : Nat) (s : State) : Out := run (ss1Timeout g) s
def execAutoRestart (g : Nat) (s : State) : Out := run (autoRestart g) s
def execDegradedExpiry (g : Nat) (s : State) : Out := run (degradedExpiry g) s
def execStoRefresh (word : Bool) (s : State) : Out := run (stoRefresh word) s
def execRefreshTimeout (s : State) : Out := run linesLow s
def execFlowSignatureCheck (ok : Bool) (sig : Word) (s : State) : Out := run (flowSignatureCheck ok sig) s
def execStoReadback (level : Mask) (s : State) : Out := run (stoReadback level) s
def execVoltageMonitorTrip (vcore : Nat) (s : State) : Out := run (voltageTrip vcore) s
def execTemperatureMonitorTrip (tj : Nat) (s : State) : Out := run (temperatureTrip tj) s
def execTemperatureMonitorClear (tj : Nat) (s : State) : Out := run (temperatureClear tj) s
def execTestPulse (tpo : Nat) (lvA lvB : Mask) (s : State) : Out := run (testPulse tpo lvA lvB) s
def execSafetyInputChange (line : Nat) (chB high : Bool) (held : Nat) (s : State) : Out :=
  run (safetyInputChange line chB high held) s
def execInputDiscrepancy (line : Nat) (s : State) : Out := run (inputDiscrepancy line) s
def execPduCopyReceived (netB : Bool) (pdu : Pdu) (s : State) : Out := runIn .host (pduCopyReceived netB pdu) s
def execPduCompareWindowExpiry (p : Nat) (s : State) : Out := run (pduWindowExpiry p) s
def execPduWatchdog (p : Nat) (netB : Bool) (s : State) : Out := run (pduWatchdog p netB) s

end Sys2Proof.Machine
end

