-- ==== Sys2Proof/Machine/People.lean ====
section
/-! DEFINITION. People.lean: the pendant's presence, withdrawal and bridge (R341 to R344), and the tool check (R349 to R351). -/

namespace Sys2Proof.Machine

/-- Evaluate the four pendant lines from their levels and take the result as the sample of this E0. -/
def samplePendant (s : State) : State :=
  let f (x : InPair) : InPair :=
    let y := pairEval (noteDiff s.time.tb { x with diffSince := none })
    { y with sampled := y.demand, wasSampled := y.demand }
  onSaf (fun x => { x with pend := x.pend.map f }) s

/-- PENDANT_PRESENT (R341): PEN_PRES has been closed for 200 ms; the lines are evaluated from this E0. [DESIGN CHOICE, log 84] -/
def pendantPresent (s : State) : State :=
  match s.saf.presSince with
  | none => s
  | some t =>
    if nodeMode s || s.saf.pres || s.time.tb < t + 200000000 then s
    else event 0x0870 0 (samplePendant (onSaf (fun f => { f with pres := true, bridge := false, presLost := false }) s))

/-- PENDANT_ABSENT (R342, R344): presence lost is an emergency stop of every group; during a bridge it only ends the bridge. [DESIGN CHOICE, log 84] -/
def pendantAbsent (s : State) : State :=
  if !s.saf.pres || (lineSt s 14).a then s
  else
    let gone (f : SafSt) : SafSt := { f with pres := false, bridge := false, brleft := 0, presSince := none }
    if s.saf.bridge then onSaf gone s
    else event 0x0871 0 (demandStop (defined s) 16 (onSaf (fun f => { gone f with presLost := true }) s))

/-- The conditions of a grant (R343). -/
def withdrawOk (s : State) : Bool :=
  s.saf.mode = 0 && s.saf.pres && !(nth s.saf.pend 1).sampled && (nth s.saf.pend 0).sampled && !pendFault s

/-- PEN_WDR has been seen closed from a first E0 to one at least 0.5 s of TB after it. -/
def withdrawDue (s : State) : Bool :=
  s.saf.wdArmed && (match s.saf.wdSince with | some t => t + 500000000 ≤ s.time.tb | none => false)

/-- WITHDRAW_REQUEST (R343, R344). -/
def withdrawRequest (s : State) : State :=
  if !withdrawDue s then s
  else
    let t := onSaf (fun f => { f with wdArmed := false }) s
    if s.saf.bridge then t
    else if withdrawOk s then event 0x0872 0 (onSaf (fun f => { f with bridge := true, brleft := 30000000000 }) t)
    else event 0x0873 0 t

/-- BRIDGE_EXPIRY (R344): the lines decide again from the next E0. -/
def bridgeExpiry (s : State) : State :=
  if s.saf.bridge && s.saf.brleft = 0 then onSaf (fun f => { f with bridge := false }) s else s

/-! ### Tools -/

/-- TRES of an identity block against the record and the claim's digest (R350): 1 matched, 3 digest, 4 field. -/
def toolResult (c : GroupCfg) (dig : Nat) (b : IdBlock) : Nat :=
  let r := c.toolId
  let x := b.id
  if b.digest != dig then 3
  else if x.vendor = r.vendor && x.product = r.product && x.toolType = r.toolType && r.hw ≤ x.hw && x.nax = r.nax &&
      (r.serial = 0 || x.serial = r.serial) then 1
  else 4

/-- The result of a tool check: TOOLOK, TRES and the event. -/
def toolChecked (g res : Nat) (s : State) : State :=
  event (if res = 1 then 0x0530 else 0x0531) g (onGrp g (fun x => { x with
    toolOk := res == 1, tres := res, toolWait := none }) s)

/-- TOOL_IDENTITY (R350): the first block after the confirming beacon decides. -/
def toolIdentity (g : Nat) (b : IdBlock) (s : State) : State :=
  let x := grpSt s g
  if x.claimed && x.toolWait.isSome && (grpCfg s g).tsrc = 2 then toolChecked g (toolResult (grpCfg s g) x.toolDig b) s
  else s

/-- TOOL_CHECK_TIMEOUT (R350): no block within 64 ticks of the confirming beacon. -/
def toolTimeout (g : Nat) (s : State) : State :=
  match (grpSt s g).toolWait with
  | some t => if t + 64 < s.time.tickno then toolChecked g 2 s else s
  | none => s

/-- SPARE_RELEASE (R143, R351): a spare silent for 32 ticks is free, its node no member, its group's tool gone. -/
def spareRelease (r j : Nat) (s : State) : State :=
  let n := nodeSt s r j
  if isMaster s r && n.spare && 32 ≤ n.quiet then
    let ids := ((ringCfg s r).spares.filter (fun c => c.node = j)).map (fun c => c.id)
    let gs := (List.range 16).filter (fun g => let c := grpCfg s g
      c.defined && c.tsrc = 2 && c.toolRing = r && ids.contains c.toolSpare)
    let s := onRing r (fun x => { x with
      members := x.members &&& ~~~ bitOf 32 j, silent := x.silent &&& ~~~ bitOf 32 j,
      nodes := updAt x.nodes j (fun n => { n with spare := false, joinNext := false, viaSpare := false, up := none }) }) s
    forAll gs (fun g => onGrp g (fun x => { x with claimed := false, toolOk := false, toolWait := none })) s
  else s

def execPendantPresent (s : State) : Out := run pendantPresent s
def execPendantAbsent (s : State) : Out := run pendantAbsent s
def execWithdrawRequest (s : State) : Out := run withdrawRequest s
def execBridgeExpiry (s : State) : Out := run bridgeExpiry s
def execToolIdentity (g : Nat) (blk : IdBlock) (s : State) : Out := run (toolIdentity g blk) s
def execToolCheckTimeout (g : Nat) (s : State) : Out := run (toolTimeout g) s
def execSpareRelease (r node : Nat) (s : State) : Out := runIn .ring (spareRelease r node) s

end Sys2Proof.Machine
end

