-- ==== Sys2Proof/Machine/Checks.lean ====
section
/-! DEFINITION. Checks.lean: the checks of an image at start (R406) in order, each with the event code that a failure raises. -/

namespace Sys2Proof.Machine

/-- TVAR codes (R403): a larger code is a smaller part. -/
def variantCode : Variant → Nat | .v6128 => 1 | .v6064 => 2 | .v6016 => 3

/-- The state in which an image is judged: the part with that image. -/
def withImage (v : Variant) (im : Image) : State := { fuse := { variant := v }, image := im }

/-- Defined axes with their numbers. -/
def defAxes (im : Image) : List (Nat × AxisCfg) :=
  (mapIdx (fun i a => (i, a)) 0 im.axes).filter (fun p => p.2.defined)

/-- Defined groups with their numbers. -/
def defGroups (im : Image) : List (Nat × GroupCfg) :=
  (mapIdx (fun i g => (i, g)) 0 im.groups).filter (fun p => p.2.defined)

/-- No element occurs twice. -/
def distinct (l : List Nat) : Bool := l.dedup.length == l.length

/-! ### The cell (R16 to R20, R235, R309) -/

/-- Depth of the base chain of group g, at most n + 1. -/
def chainDepth (im : Image) : Nat → Nat → Nat
  | 0, _ => 0
  | n + 1, g => match (nth im.groups g).baseg with | 255 => 1 | b => 1 + chainDepth im n b

/-- The base of every group exists, is served by the same KDE block, and no chain is deeper than four (R18). -/
def basesOk (im : Image) : Bool :=
  (defGroups im).all (fun p => chainDepth im 5 p.1 ≤ 4 &&
    (p.2.baseg == 255 || ((nth im.groups p.2.baseg).defined && (nth im.groups p.2.baseg).kdeb == p.2.kdeb &&
      p.2.baselink ≤ 12)))

/-- Every axis belongs to a defined group under an index of its own (R16, R17). -/
def axisGroupsOk (im : Image) : Bool :=
  (defAxes im).all (fun p => (nth im.groups p.2.group).defined &&
    (p.2.index < (nth im.groups p.2.group).nj || (12 ≤ p.2.index && p.2.index < 12 + (nth im.groups p.2.group).naux))) &&
  distinct ((defAxes im).map (fun p => 16 * p.2.group + p.2.index))

/-- Group model tables (R17, R214, R238). -/
def modelOk (im : Image) (g : GroupCfg) : Bool :=
  1 ≤ g.nj && g.nj ≤ 12 && g.naux ≤ 4 && g.kind ≤ 3 && g.kdeb ≤ 1 && g.quatsOk && g.ovr ≤ 32768 && 1 ≤ g.sramp && g.sramp ≤ 32768 &&
    g.vred ≤ 250 && g.tsrc ≤ 2 && g.joints.length = g.nj &&
    g.joints.all (fun j => (nth im.axes j.axis).defined &&
      (if (nth im.axes j.axis).endless then 0 < j.rev.toInt else j.rev == 0))

/-- Zone ranks are distinct (R20). -/
def zonesOk (im : Image) : Bool := distinct (im.zones.map (fun z => z.2)) && im.zones.all (fun z => z.1 < 256 && z.2 < 256)

/-- Virtual limits in order (R235), and AMON at most ASTOP (R309). -/
def axisLimitsOk (im : Image) : Bool :=
  (defAxes im).all (fun p => (p.2.endless || p.2.vlimLo.toInt ≤ p.2.vlimHi.toInt) && f32Le p.2.amon p.2.astop)

/-- Axes, groups and rings that the variant and mode lack (R2, R6, R21, R297). -/
def namesPresent (v : Variant) (im : Image) : Bool :=
  let s := withImage v im
  (defAxes im).all (fun p => p.1 < maxAxes s) && (defGroups im).all (fun p => p.1 < maxGroups s) &&
    (defAxes im).all (fun p =>
      (match p.2.src with | .ring r _ _ => r < maxRings v | .axio c => c < maxChans v | .none => true) &&
      (match p.2.dst with | .ring r _ _ => r < maxRings v | .axio c => c < maxChans v | .none => true)) &&
    im.prims.length ≤ maxPrims v

/-! ### The phase plan (R32) -/

/-- A list of offsets that never falls. -/
def ascends : List Nat → Bool
  | [] => true
  | [_] => true
  | a :: b :: r => a ≤ b && ascends (b :: r)

/-- The rows keep their order, by their starts. -/
def rowsOrdered (p : PhasePlan) : Bool :=
  ascends [0, p.fb, p.kdeStart, p.hedge, p.dynStart, p.trlStart, p.solStart, p.servoStart, p.saf, p.axio, p.downStart, p.acyStart]

/-- No row reads what its producer has not released (R25). -/
def rowsFed (p : PhasePlan) : Bool :=
  p.up ≤ p.fb && p.fb ≤ p.kdeStart && p.poses ≤ p.dynStart && p.poses ≤ p.trlStart && p.tg ≤ p.dynStart &&
    p.ff ≤ p.servoStart && p.servo ≤ p.saf && p.trl ≤ p.saf && p.saf ≤ p.sto && p.sto ≤ p.fin && p.fin ≤ p.axio &&
    p.fin ≤ p.downStart && p.downStart ≤ p.downEnd && p.downEnd ≤ p.acyStart && p.acyStart ≤ p.acyEnd

/-- Each compute phase is at least as long as at 31.25 µs, from its start to its deadline. -/
def rowsLong (p : PhasePlan) : Bool :=
  500 ≤ p.zone && 5000 ≤ p.tg && p.kdeStart + 2000 ≤ p.poses && p.dynStart + 2000 ≤ p.ff && p.servoStart + 6000 ≤ p.servo &&
    p.trlStart + 10000 ≤ p.trl && p.solStart + 21000 ≤ p.sol && p.saf + 1000 ≤ p.fin

/-- Condition 2 of R124, and a ring window of R32: every slot in its window. -/
def slotWindow (im : Image) (x : SlotCfg) : Bool :=
  let a := 8 * x.start
  let e := 8 * (x.start + x.len)
  e + 200 ≤ 31250 * 2 ^ im.k &&
    (match x.kind with
     | 1 => e ≤ im.plan.up
     | 2 => im.plan.downStart ≤ a && e ≤ im.plan.downEnd
     | _ => im.plan.acyStart ≤ a && e ≤ im.plan.acyEnd)

/-- Every ring window holds every slot of its kind. -/
def windowsHold (im : Image) : Bool :=
  im.rings.all (fun c => c.role == 0 || c.slots.all (fun x => x.kind == 0 || slotWindow im x))

/-- The phase plan of an image (R32): at k = 0 that of R25; else in order, long enough, with its ring slots in their windows, and a
downlink window that ends 7.25 µs before the next E0. -/
def planOk (im : Image) : Bool :=
  let p := im.plan
  let per := 31250 * 2 ^ im.k
  if im.k = 0 then p == {}
  else rowsOrdered p && rowsFed p && rowsLong p && windowsHold im && p.acyEnd + 200 ≤ per && p.sol ≤ per && p.downEnd + 7250 ≤ per

/-! ### Time and rings (R96, R119, R124) -/

/-- A profile and transport of the table. -/
def profileOk (im : Image) : Bool :=
  ((im.profile == 0 && im.transport ≤ 2) || (im.profile == 1 && im.transport ≤ 2) || (im.profile == 2 && im.transport == 2)) &&
    im.doma < 128 && im.domb < 128

/-- Slots of a kind. -/
def slotsOf (c : RingCfg) (k : Nat) : List SlotCfg := c.slots.filter (fun x => x.kind == k)

/-- Condition 1: ascending starts with 200 ns between slots. -/
def slotsApart : List SlotCfg → Bool
  | [] => true
  | [_] => true
  | a :: b :: r => a.start + a.len + 25 ≤ b.start && slotsApart (b :: r)

/-- Bytes of a segment: its header of 8 bytes, and entries of 12 bytes up and 16 down. -/
def segSpan (kind : Nat) (g : SegCfg) : Nat := 8 + (if kind = 1 then 12 else 16) * g.nax

/-- Segments of a slot. -/
def segsOf (c : RingCfg) (x : SlotCfg) : List SegCfg := (c.segs.drop x.segFirst).take x.nseg

/-- Condition 6: segments in PLEN without overlap. -/
def segsApart (kind plen : Nat) : List SegCfg → Bool
  | [] => true
  | g :: r => g.offset + segSpan kind g ≤ plen &&
      r.all (fun h => g.offset + segSpan kind g ≤ h.offset || h.offset + segSpan kind h ≤ g.offset) && segsApart kind plen r

/-- Entries of a node in slots of a kind that include entry e. -/
def entryCount (c : RingCfg) (kind node e : Nat) : Nat :=
  ((slotsOf c kind).map (fun x => ((segsOf c x).filter (fun g => g.node == node && e < g.nax)).length)).foldl (· + ·) 0

/-- Condition 7: one uplink entry per ring source and one downlink entry per ring destination. -/
def entriesOk (im : Image) (r : Nat) (c : RingCfg) : Bool :=
  (defAxes im).all (fun p =>
    (match p.2.src with | .ring r' j e => r' != r || entryCount c 1 j e == 1 | _ => true) &&
    (match p.2.dst with | .ring r' j e => r' != r || entryCount c 2 j e == 1 | _ => true))

/-- Condition 4: the heartbeat slots of a pair on ring 0. -/
def heartbeatOk (im : Image) (r : Nat) (c : RingCfg) : Bool :=
  let os := (slotsOf c 7).map (·.owner)
  if r = 0 && im.pair then
    let a := nth im.pairCfg.nodeA 0
    let b := nth im.pairCfg.nodeB 0
    os == [a, b] || os == [b, a]
  else os == []

/-- The conditions of R124 on one ring. -/
def ringOk (im : Image) (r : Nat) (c : RingCfg) : Bool :=
  slotsApart (c.slots.filter (fun x => x.kind != 0)) && c.slots.all (fun x => x.kind == 0 || slotWindow im x) &&
    (slotsOf c 3).length == 1 && (slotsOf c 4).length == 1 && (slotsOf c 5).length == 1 && heartbeatOk im r c &&
    c.slots.all (fun x => x.kind == 0 || wireTime x.plen ≤ 80 * x.len) &&
    (slotsOf c 1 ++ slotsOf c 2).all (fun x => segsApart x.kind x.plen (segsOf c x)) && entriesOk im r c &&
    c.rttmax ≤ 6000 && (slotsOf c 3).all (fun x => 8 * (x.start + x.len) + c.rttmax + 400 ≤ 31250 * 2 ^ im.k) &&
    c.slots.all (fun x => x.plen ≤ 1484 && x.nseg ≤ 32 && x.kind ≤ 7) && c.slots.length ≤ 256 && c.segs.length ≤ 1024

/-- Every ring in use has a schedule in order. -/
def ringsOk (im : Image) : Bool :=
  (mapIdx (fun r c => (r, c)) 0 im.rings).all (fun p => p.2.role == 0 || ringOk im p.1 p.2)

/-- No axis names a ring that is off (R119). -/
def ringRolesOk (im : Image) : Bool :=
  let on (p : Port) : Bool := match p with | .ring r _ _ => (nth im.rings r).role != 0 | _ => true
  (defAxes im).all (fun p => on p.2.src && on p.2.dst)

/-! ### Slices and channels (R152, R175, R179) -/

/-- Slots of the slice table that hold axis a. -/
def slotCount (im : Image) (a : Nat) : Nat :=
  (im.slices.map (fun c => (if c.ax0 = a then 1 else 0) + (if c.ax1 = a then 1 else 0))).foldl (· + ·) 0

/-- Every axis stands in exactly one slot of an active slice that exists, and no shift is above 16. -/
def slicesOk (v : Variant) (im : Image) : Bool :=
  (defAxes im).all (fun p => slotCount im p.1 == 1) &&
  im.slices.all (fun c => (c.ax0 == 255 && c.ax1 == 255 || (c.s < 8 && c.b < motBlocks v)) &&
    [c.esh0, c.vsh0, c.ash0, c.osh0, c.esh1, c.vsh1, c.ash1, c.osh1].all (fun n => n ≤ 16))

/-- A mode that the channel has. -/
def modeOk (v : Variant) (m : Nat) : Bool :=
  match v with | .v6016 => m = 0 || m = 2 || m = 4 || m = 5 | _ => m ≤ 3

/-- Modes of the channels (R152). -/
def chanModesOk (v : Variant) (im : Image) : Bool := (im.chans.take (maxChans v)).all (fun c => modeOk v c.mode)

/-- Sources have feedback, destinations have a step output (R152); the window's encoder channel is one (R175). -/
def chanUseOk (im : Image) : Bool :=
  (defAxes im).all (fun p =>
    (match p.2.src with | .axio c => !((nth im.chans c).mode == 0 || (nth im.chans c).mode == 2) | _ => true) &&
    (match p.2.dst with | .axio c => [2, 3, 5].contains (nth im.chans c).mode | _ => true)) &&
  im.chans.all (fun c => c.smode < 2 || [1, 3, 4, 5].contains (nth im.chans c.encch).mode)

/-! ### The solver (R248) -/

/-- The row indices of column j of a sparse pattern. -/
def patColumn (p : ProbCfg) (j : Nat) : List Nat :=
  let a := nth p.pat j
  ((p.pat.drop (p.m + 1)).drop a).take (nth p.pat (j + 1) - a)

/-- A list rises strictly. -/
def rising : List Nat → Bool
  | a :: b :: r => a < b && rising (b :: r)
  | _ => true

/-- A sparsity pattern: pointers from 0 to NNZ, rows ascending within each column, and a diagonal entry where the pattern is symmetric
or triangular (R248, R250). -/
def patternOk (p : ProbCfg) : Bool :=
  !p.sparse || (p.pat.length == p.m + 1 + p.nnz && nth p.pat 0 == 0 && nth p.pat p.m == p.nnz &&
    (List.range p.m).all (fun j => nth p.pat j ≤ nth p.pat (j + 1) && rising (patColumn p j) &&
      (patColumn p j).all (fun i => i < p.n) && (patColumn p j).contains j))

/-- Bytes of the problem store (R246). -/
def storeBytes (v : Variant) : Nat := match v with | .v6128 => 6291456 | .v6064 => 3145728 | .v6016 => 1572864

/-- An area meets another. -/
def areasMeet (a b : Nat × Nat) : Bool := a.1 < b.1 + b.2 && b.1 < a.1 + a.2

/-- The areas of each problem lie in the store of the variant the image is built for, the matrix at a multiple of 64, and meet those
of no other problem (R248). -/
def areasOk (im : Image) : Bool :=
  let v : Variant := if im.tvar = 1 then .v6128 else if im.tvar = 2 then .v6064 else .v6016
  let ps := (mapIdx (fun i p => (i, p)) 0 im.probs).filter (fun p => p.2.op != 0)
  ps.all (fun p => p.2.matOfs % 64 == 0 && (probAreas p.2).all (fun a => a.1 + a.2 ≤ storeBytes v) &&
    ps.all (fun q => q.1 == p.1 || (probAreas p.2).all (fun a => (probAreas q.2).all (fun b => !areasMeet a b))))

/-- A used descriptor on its own. -/
def probOk (im : Image) (p : ProbCfg) : Bool :=
  p.op ≤ 5 && [1, 2, 4, 8, 16].contains p.lg && 1 ≤ p.period && p.period ≤ 255 && p.phase < p.period &&
  1 ≤ p.n && p.n ≤ 64 && 1 ≤ p.m && p.m ≤ 64 && (if p.op = 3 then p.m ≤ p.n else p.n = p.m) &&
  (if p.sparse then p.op != 3 && 1 ≤ p.nnz && p.nnz ≤ 4096 else p.nnz = 0) &&
  (if p.op = 5 then 1 ≤ p.iter && p.iter ≤ 1000 && 0 < f32Val p.rho && 0 < f32Val p.alpha && f32Val p.alpha < 2
   else p.iter = 0 && !p.anytime && !p.graft) &&
  (if p.anytime then 0 < f32Val p.tol else f32Val p.tol = 0) && p.npos ≤ p.n && p.gsrc < 256 &&
  p.lane % 16 + p.lg ≤ 16 && p.use ≤ 2 &&
  (p.use = 0 || (p.period = 1 && !p.fww && (nth im.groups p.group).defined && f32Le 0 p.wj && f32Le 0 p.wt)) &&
  (p.use != 1 || (4 ≤ p.h && p.h ≤ 32 && 1 ≤ p.d && p.d ≤ 64)) && p.shash == structureHash p && patternOk p

/-- Two descriptors share a lane. -/
def lanesMeet (p q : ProbCfg) : Bool :=
  p.block == q.block && p.lane % 16 < q.lane % 16 + q.lg && q.lane % 16 < p.lane % 16 + p.lg

/-- The descriptor table. -/
def probsOk (im : Image) : Bool :=
  let ps := (mapIdx (fun i p => (i, p)) 0 im.probs).filter (fun p => p.2.op != 0)
  im.probs.length ≤ 256 && areasOk im && ps.all (fun p => probOk im p.2 &&
    (!p.2.anytime || ps.all (fun q => q.1 == p.1 || !lanesMeet p.2 q.2)))

/-- No descriptor names an absent lane block. -/
def probBlocksOk (v : Variant) (im : Image) : Bool := im.probs.all (fun p => p.op == 0 || p.block < solBlocks v)

/-! ### Geometry (R274, R297) -/

/-- Squares of three components. -/
def sq3 (l : List F32) : Rat := ((l.take 3).map (fun x => f32Val x * f32Val x)).foldl (· + ·) 0

/-- The length of a vector differs from 1 by no more than 10⁻⁶, judged on its square. -/
def unitLen (x : Rat) : Bool := (999999 / 1000000 : Rat) ^ 2 ≤ x && x ≤ (1000001 / 1000000 : Rat) ^ 2

/-- One geometry entry. -/
def primOk (im : Image) (p : PrimCfg) : Bool :=
  p.kind = 0 || (p.kind ≤ 5 && p.reservedOk &&
    (match p.role with | .body => p.att = 1 | .shape => p.att = 2 | _ => p.att = 0) &&
    (p.kind != 5 || p.att = 1) && (p.kind != 4 || p.att = 0) &&
    (p.a ++ p.b ++ p.q ++ [p.r, p.clr, p.slow]).all f32IsFin && f32Le 0 p.r && f32Le p.clr p.slow && f32Le 0 p.clr &&
    sq3 p.q ≤ 1 && (p.kind != 3 || (p.b.take 3).all (fun x => f32Le 0 x)) &&
    (p.kind != 4 || (unitLen (sq3 p.b) && f32Val p.r = 0)) &&
    (p.att != 1 || ((nth im.groups p.owner).defined && p.link ≤ (nth im.groups p.owner).nj + 1)) &&
    (p.att != 2 || (nth im.objs p.owner).defined) &&
    (p.role != .zoneVol || im.zones.any (fun z => z.1 == p.ref)) &&
    (p.role != .field || (nth im.sensors p.ref).defined))

/-- Class L needs a body's GMASK, which the VRL-6016 refuses (R297). -/
def gmaskOk (v : Variant) (im : Image) : Bool :=
  v != .v6016 || im.prims.all (fun p => p.kind == 0 || p.role != .body || p.gmask == 0)

/-! ### The safety parameter block (R304, R329) -/

/-- Ranges of the records. -/
def safetyOk (im : Image) : Bool :=
  im.recordsOk && 1 ≤ im.tpp && im.tpp ≤ 255 && 2 ≤ im.tpw && im.tpw ≤ 255 && im.tps ≤ 255 &&
  im.groups.all (fun g => !g.defined || (g.kdly ≤ 64 && 1 ≤ g.nstill && g.nstill ≤ 1024 && g.degf ≤ 32768 && g.sres ≤ 32768 &&
    1 ≤ g.smin && g.smin ≤ 32768)) &&
  im.inputs.all (fun i => i.func ≤ 7 && (i.func = 0 || (1 ≤ i.disc && i.disc ≤ 500 && i.sfilt ≤ 1000 && i.srcA != i.srcB))) &&
  im.rx.all (fun x => !x.defined || (4 ≤ x.wdog && x.wdog ≤ 1000 && x.len ≤ 64)) &&
  im.tx.all (fun x => !x.defined || (1 ≤ x.period && x.phase < x.period)) &&
  distinct ((im.rx.filter (·.defined)).map (·.pduId)) && distinct ((im.tx.filter (·.defined)).map (·.pduId))

/-! ### Flows (R356, R367) and queues -/

/-- Two stretches of DMEM overlap. -/
def overlap (a n b m : Nat) : Bool := 0 < n && 0 < m && a < b + m && b < a + n

/-- Bytes of a snapshot entry in DMEM. -/
def snapLen (e : SnapCfg) : Nat :=
  match e.skind with | 2 => 8 * e.count | 3 => 8 * e.count | 11 => 4 * e.count | 12 => 4 * e.count | _ => e.len

/-- A used flow descriptor. -/
def flowOk (im : Image) (f : FlowCfg) : Bool :=
  f.type ≤ 3 && f.missact ≤ 2 && f.cores != 0 && 1 ≤ f.maxpend && f.maxpend ≤ 255 && f.stackOfs + f.stackLen ≤ 65536 &&
  (f.type != 2 || (1 ≤ f.period && f.period ≤ 256 && f.phase < f.period && f.snaps.length ≤ 32 && 8 ≤ f.outLen &&
    f.outLen ≤ 4096 && f.outOfs + f.outLen ≤ 65536 && !overlap f.outOfs f.outLen f.stackOfs f.stackLen &&
    f.snaps.all (fun e => e.dstofs + snapLen e ≤ 65536 && !overlap e.dstofs (snapLen e) f.outOfs f.outLen &&
      !overlap e.dstofs (snapLen e) f.stackOfs f.stackLen && 1 ≤ e.skind && e.skind ≤ 12) &&
    im.flows.all (fun h => (h.type != 1 && h.type != 3) || h.maxrun != 0 || (h.cores &&& f.cores) == 0)))

/-- The flow table. -/
def flowsOk (im : Image) : Bool := im.flows.length ≤ 1024 && im.flows.all (fun f => f.type == 0 || flowOk im f)

/-- Snapshots name no SOL or TRL source in compatibility mode. -/
def flowsCompat (im : Image) : Bool := im.flows.all (fun f => f.snaps.all (fun e => e.skind != 4 && e.skind != 11))

/-- Snapshot sources exist on the variant. -/
def snapsPresent (v : Variant) (im : Image) : Bool :=
  im.flows.all (fun f => f.snaps.all (fun e =>
    match e.skind with
    | 2 | 3 => e.index + e.count ≤ maxAxes (withImage v im)
    | 11 | 12 => e.index + e.count ≤ maxGroups (withImage v im)
    | _ => true))

/-- Bytes of an entry of queue q (R372); Q31 counts its depth in bytes. -/
def entrySize (q : Nat) : Nat := if q < 16 then 160 else if q < 24 then 1536 else if q < 28 then 1024 else if q < 30 then 96 else if q = 30 then 32 else 1

/-- Depths of the table of R372. -/
def depthOk (q depth : Nat) : Bool :=
  if q < 16 || q = 31 then true
  else if q < 24 then 4 ≤ depth && depth ≤ 256
  else if q < 30 then depth = 256
  else 1024 ≤ depth && depth ≤ 65535

/-- The queues placed in memory: their depths are those of the table (R372), and none lies in the copy of the flash's own areas
(R482). [DESIGN CHOICE, log 102] -/
def queuesOk (im : Image) : Bool :=
  (mapIdx (fun i q => (i, q)) 0 im.queues).all (fun p => p.1 < 16 || p.2.depth = 0 ||
    (depthOk p.1 p.2.depth &&
      (p.2.base.toNat * 256 + entrySize p.1 * p.2.depth ≤ 0x1FFE00000 || 0x200000000 ≤ p.2.base.toNat * 256)))

/-- Every VIO bank has its declared voltage, and VIO5 is at 1.8 V (R466): true stands for 3.3 V. -/
def vioOk (im : Image) (m : List Bool) : Bool := (List.range 6).all (fun i => nth im.vio i == nth m i) && !nth m 5

/-! ### The pair (R423) -/

/-- The conditions on a pair image. -/
def pairOk (im : Image) : Bool :=
  let p := im.pairCfg
  (defAxes im).all (fun a => !portIsChan a.2.src && !portIsChan a.2.dst) &&
  im.flows.all (fun f => f.type != 2 || f.snaps.all (fun e => e.skind != 7 && e.skind != 8)) &&
  p.rankA != p.rankB && nth p.nodeA 0 != nth p.nodeB 0 && nth p.nodeA 1 != nth p.nodeB 1 && 2 ≤ p.hbn && p.hbn ≤ 64

/-! ### The order of the checks (R406) -/

/-- S (R402): the size of a slot. -/
def slotSize (f : Flash) : Nat := (f.size - 2097152) / 2

/-- Checks of the first item, made on the header alone. -/
def headerOk (f : Flash) (im : Image) : Bool :=
  im.magic == 0x3144454244454553 && im.format == 1 && 1 ≤ im.tvar && im.tvar ≤ 3 && im.imgSeq != 0 && im.length % 64 = 0 &&
    im.length ≤ slotSize f

/-- Sections of one TYPE and INDEX, other than TYPE 10, stand once. -/
def sectionsOnce (l : List Section) : Bool :=
  distinct ((l.filter (fun x => x.type != 10)).map (fun x => 65536 * x.type + x.index))

/-- Sections lie at multiples of 64 and within LENGTH, and no two overlap. -/
def sectionsLaid (n : Nat) (l : List Section) : Bool :=
  l.all (fun x => x.offset % 64 = 0 && x.offset + x.length ≤ n) &&
    (mapIdx (fun i x => (i, x)) 0 l).all (fun p => (mapIdx (fun i x => (i, x)) 0 l).all (fun q =>
      p.1 == q.1 || p.2.offset + p.2.length ≤ q.2.offset || q.2.offset + q.2.length ≤ p.2.offset))

/-- A section of a TYPE and INDEX. -/
def hasSection (l : List Section) (t i : Nat) : Bool := l.any (fun x => x.type = t && x.index = i)

/-- A region that an image uses: TIME, SAF and HOST always, the others when their tables name something. [DESIGN CHOICE, log 102] -/
def usesRegion (im : Image) (r : Region) : Bool :=
  match r with
  | .time | .saf | .host => true
  | .ring => im.rings.any (fun c => c.role != 0)
  | .axio => im.chans.any (fun c => c.mode != 0)
  | .mot => im.groups.any (fun g => g.defined)
  | .sol => im.probs.any (fun p => p.op != 0)
  | .trl => im.prims.any (fun p => p.kind != 0)
  | _ => false

/-- The section table (R404). -/
def sectionsOk (im : Image) : Bool :=
  let l := im.sections
  1 ≤ l.length && l.length ≤ 64 && sectionsLaid im.length l && sectionsOnce l &&
    hasSection l 1 0 && hasSection l 4 0 && hasSection l 8 0 && (im.pair == l.any (fun x => x.type = 9)) &&
    [Region.time, .ring, .axio, .mot, .sol, .trl, .saf, .host].all (fun r => !usesRegion im r || hasSection l 2 r.id)

/-- The profile of a variant (R408). -/
def profileFor (v : Variant) (im : Image) : Option Profile := im.profiles.find? (fun p => p.variant == v)

/-- `CHIP.CAPS0`: the units of a part. -/
def silicon : Variant → Word | .v6128 => 0x07FFFFFF | .v6064 => 0x064CCD0F | .v6016 => 0x084C4501

/-- An axis that an image attaches by a port of a kind. -/
def axisPort (im : Image) (f : Port → Bool) : Bool := (defAxes im).any (fun p => f p.2.src || f p.2.dst)

/-- A unit of `CHIP.CAPS0` that some section of an image names. Nothing in an image names a pipe of the Trellis. [DESIGN CHOICE, log 102] -/
def unitNamed (im : Image) (u : Nat) : Bool :=
  if u < 8 then im.slices.any (fun c => c.b = u && !(c.ax0 = 255 && c.ax1 = 255))
  else if u < 10 then (defGroups im).any (fun p => p.2.kdeb = u - 8)
  else if u < 14 then im.probs.any (fun p => p.op != 0 && p.block = u - 10)
  else if u < 18 then false
  else if u < 22 then (mapIdx (fun i c => (i, c)) 0 im.chans).any (fun p => p.1 / 8 = u - 18 && p.2.mode != 0) ||
    axisPort im (fun x => match x with | .axio c => c / 8 = u - 18 | _ => false)
  else if u < 24 then (nth im.rings (u - 22)).role != 0 || axisPort im (fun x => match x with | .ring r _ _ => r = u - 22 | _ => false)
  else if u = 24 then im.pair
  else if u = 25 then im.prims.any (fun p => p.kind != 0 && p.role == .body && p.gmask != 0)
  else if u = 26 then im.chans.any (fun c => c.mode = 1 || c.mode = 3)
  else im.chans.any (fun c => c.mode = 4 || c.mode = 5)

/-- Every unit that the part lacks has an entry. -/
def profileComplete (v : Variant) (p : Profile) : Bool :=
  (List.range 28).all (fun u => (silicon v).getLsbD u || p.entries.any (fun e => e.unit = u && (e.action = 1 || e.action = 2)))

/-- Replacements name sections of one TYPE and INDEX, and no unused unit is named after them. -/
def profileUsable (im re : Image) (p : Profile) : Bool :=
  1 ≤ p.entries.length && p.entries.length ≤ 64 &&
  p.entries.all (fun e =>
    if e.action = 1 then !unitNamed re e.unit
    else e.action = 2 && e.old < im.sections.length && e.new < im.sections.length &&
      (nth im.sections e.old).type == (nth im.sections e.new).type && (nth im.sections e.old).index == (nth im.sections e.new).index)

/-- An image for a larger part may start here only with a complete profile (R4, R408). [DESIGN CHOICE, log 102] -/
def variantOk (v : Variant) (im re : Image) : Bool :=
  variantCode v ≤ im.tvar ||
    (im.portable && (match profileFor v im with | some p => profileComplete v p && profileUsable im re p | none => false))

/-- A pair image runs as a pair, or alone on a part without the link whose profile marks unit 24 unused (R423). [DESIGN CHOICE, log 104] -/
def pairPart (v : Variant) (im : Image) : Bool :=
  v == .v6128 || !im.pair || (match profileFor v im with | some p => p.entries.any (fun e => e.unit = 24 && e.action = 1) | none => false)

/-- The checks in order with their events: `im` as stored, `re` after the replacements of its profile. [DESIGN CHOICE, log 102] -/
def checkList (v : Variant) (key : Option Nat) (vio : List Bool) (im re : Image) : List (Bool × Nat) :=
  [ ((match key with | some k => im.keyDigest == k | none => true) && im.sigOk, 0x0151),
    (sectionsOk im, 0x0150),
    (variantOk v im re && pairPart v im && namesPresent v re, 0x0152),
    (!(re.compat && (re.objs.any (·.defined) || re.zones != [])), 0x0153),
    ((defGroups re).all (fun p => modelOk re p.2) && axisGroupsOk re, 0x0154),
    (basesOk re && zonesOk re, 0x0154),
    (kMin v ≤ re.k && re.k ≤ 7, 0x0152),
    (planOk re, 0x0155),
    (1 ≤ re.nullLim && re.nullLim ≤ 4, 0x0154),
    (!(re.compat && re.pair), 0x0153),
    (profileOk re, 0x0230),
    (ringRolesOk re, 0x0154),
    (ringsOk re, 0x0305),
    (chanModesOk v re, 0x0152),
    (chanUseOk re, 0x0154),
    (slicesOk v re, 0x0154),
    (axisLimitsOk re, 0x0154),
    ((defGroups re).all (fun p => p.2.kdeb < kdeBlocks v), 0x0152),
    (probBlocksOk v re, 0x0152),
    (probsOk re, 0x0154),
    (re.prims.all (primOk re), 0x0154),
    (gmaskOk v re, 0x0152),
    (safetyOk re, 0x0154),
    ((defGroups re).all (fun p => p.2.tsrc != 2 || p.2.toolRing < maxRings v), 0x0152),
    (flowsOk re && queuesOk re, 0x0154),
    (snapsPresent v re, 0x0152),
    (!re.compat || flowsCompat re, 0x0153),
    (!re.pair || v != .v6128 || pairOk re, 0x0154),
    (re.keys.all (fun k => k.role == .empty || onCurve k) && vioOk re vio, 0x0154) ]

/-- REASON of an image: the first failing check, 0 for a valid one. [DESIGN CHOICE, log 102] -/
def imageReason (v : Variant) (key : Option Nat) (vio : List Bool) (im re : Image) : Nat :=
  match (checkList v key vio im re).find? (fun c => !c.1) with | some c => c.2 | none => 0

end Sys2Proof.Machine
end

