-- ==== Sys2Proof/Machine/Replies.lean ====
section
/-! DEFINITION. Replies.lean: the command history of each key, refusals, and replies (R384, R390 to R392, R398). -/

namespace Sys2Proof.Machine

/-- Run-time state of key k. -/
def keySt (s : State) (k : Nat) : KeySt := nth s.host.keys k

/-- Update key k. -/
def onKey (k : Nat) (f : KeySt → KeySt) (s : State) : State :=
  onHost (fun h => { h with keys := updAt h.keys k f }) s

/-- Number of a network: 0 A, 1 B, 2 the pendant port. -/
def netNum : Net → Nat | .a => 0 | .b => 1 | .pendant => 2

/-- A standby sends no reply (R398), a former active sends nothing, and without the crypto engine none is signed (R399). -/
def repliesOut (s : State) : Bool := s.pair.role != 2 && s.pair.role != 3 && !s.host.cryptoFault

/-- The history entry of a command (R384). -/
def histOf (s : State) (key seq : Nat) : Option HistEnt := (keySt s key).hist.find? (fun h => h.seq == seq)

/-- A reply leaves on one network: logged, and a frame of 76 bytes, body and signature at its ports. [DEDUCED, log 94] -/
def sendReplyOn (r : Reply) (n : Net) (s : State) : State :=
  sendNet (netNum n) { kind := .reply r.key r.seq, len := 186 + r.body.length }
    (onHost (fun h => { h with sent := h.sent ++ [{ r with net := n }] }) s)

/-- Mark a command decided, with the reply that a duplicate receives. -/
def markDecided (r : Reply) (stored : Bool) (s : State) : State :=
  onKey r.key (fun k => { k with hist := k.hist.map (fun h =>
    if h.seq = r.seq ∧ h.digest = r.digest then { h with decided := true, reply := if stored then some r else none } else h) }) s

/-- Networks that a reply goes to: those on which copies of the command arrived. -/
def replyNets (s : State) (r : Reply) : List Net :=
  match histOf s r.key r.seq with
  | some h => if h.digest = r.digest ∧ h.nets ≠ [] then h.nets else [r.net]
  | none => [r.net]

/-- Send a decided reply (R390). -/
def sendReply (r : Reply) (s : State) : State :=
  let ns := replyNets s r
  let t := markDecided r (repliesOut s) s
  if repliesOut s then forAll ns (sendReplyOn r) t else t

/-- A reply formed now. -/
def mkReply (o : Origin) (code detail : Nat) (body : List Byte) (s : State) : Reply :=
  { key := o.key, seq := o.seq, net := o.net, code := code, detail := detail, relTick := o.relTick,
    tick := s.time.tickno, digest := o.digest, body := body }

/-- Count a refusal (R392). -/
def noteRefusal (code key : Nat) (s : State) : State :=
  eventOnce 0x0970 0 0 (onHost (fun h => { h with
    refcnt := satAdd 0xFFFF h.refcnt 1, lastCode := code, lastKey := key }) s)

/-- The outcome of a command that acts at release: its reply leaves at 18.0 µs of the tick. -/
def replyAt18 (o : Origin) (code detail : Nat) (body : List Byte) (s : State) : State :=
  let s := if code = 0 then s else noteRefusal code o.key s
  onHost (fun h => { h with replies := h.replies ++ [mkReply o code detail body s] }) s

/-- The outcome of a command that is answered at completion. -/
def replyNow (o : Origin) (code detail : Nat) (body : List Byte) (s : State) : State :=
  let s := if code = 0 then s else noteRefusal code o.key s
  sendReply (mkReply o code detail body s) s

/-- A refusal at once, answered at most 100 times per second on each network (R391). -/
def refuseLimited (o : Origin) (code detail now : Nat) (s : State) : State :=
  let n := netNum o.net
  let x := nth s.host.nets n
  let fresh := x.refusals = 0 || x.refAt + 1000000000 ≤ now
  let cnt := if fresh then 0 else x.refusals
  let s := noteRefusal code o.key s
  if cnt < 100 then
    sendReply (mkReply o code detail [] s)
      (onNet n (fun x => { x with refusals := cnt + 1, refAt := if fresh then now else x.refAt }) s)
  else
    let s := markDecided (mkReply o code detail [] s) false s
    let s := onHost (fun h => { h with ratecnt := satAdd 0xFFFF h.ratecnt 1 }) s
    if s.host.rateAt = 0 || s.host.rateAt + 1000000000 ≤ now then
      event 0x0971 0 (onHost (fun h => { h with rateAt := now }) s) else s

/-- Whether a reply still waits at a port or is on a wire (R396). -/
def replyWaiting (s : State) (key seq : Nat) : Bool :=
  s.host.ports.any (fun p => (p.dev ++ p.wire.toList).any (fun f => f.kind == .reply key seq))

end Sys2Proof.Machine
end

