-- ==== Sys2Proof/Machine/Sched.lean ====
section
/-! DEFINITION. Sched.lean: cores, flows, work items and the scheduler (R353 to R366), tick-locked flows with their snapshots
and releases (R367 to R371), firmware pushes (R373) and acyclic frames (R134). What a core computes is firmware's: its loads and
stores come as commands, and an item's output buffer is what its stores have left in DMEM. -/

namespace Sys2Proof.Machine

/-! ### Flows and items -/

/-- Run-time state of flow f. -/
def flowSt (s : State) (f : Nat) : FlowSt := nth s.host.flows f

/-- Core c. -/
def coreSt (s : State) (c : Nat) : CoreSt := nth s.host.cores c

/-- Pending items of flow f. -/
def pendOf (s : State) (f : Nat) : List Item := s.host.items.filter (fun i => i.flow == f)

/-- An item of flow f is in service. -/
def flowBusy (s : State) (f : Nat) : Bool :=
  s.host.cores.any (fun k => match k.item with | some i => i.flow == f | none => false)

/-- Items of a flow are served in ascending deadline, then in order of enqueue (R357). -/
def itemBefore (a b : Item) : Bool := a.deadline < b.deadline || (a.deadline == b.deadline && a.order < b.order)

/-- The first item of its flow. -/
def isFirst (s : State) (i : Item) : Bool := s.host.items.all (fun j => j.flow != i.flow || !itemBefore j i)

/-- Cores a flow may run on: its CORES, or any live core when none of them is live (R363). -/
def flowCores (s : State) (f : Nat) : BitVec 8 :=
  let m := (flowCfg s f).cores &&& s.host.live
  if m == 0 then s.host.live else m

/-- An idle core. -/
def idle (s : State) (c : Nat) : Bool :=
  hasBit s.host.live c && (coreSt s c).item.isNone && (coreSt s c).copying.isNone && !(coreSt s c).fault

/-- The lowest idle core that may take an item of flow f. -/
def idleCore (s : State) (f : Nat) : Option Nat := (bitsOf (flowCores s f)).find? (idle s)

/-- An eligible item (R362). -/
def itemReady (s : State) (now : Nat) (i : Item) : Bool :=
  i.released && i.release ≤ now && isFirst s i && !flowBusy s i.flow && (flowSt s i.flow).en && (idleCore s i.flow).isSome

/-- The choice of R362: the earliest deadline, then the lower flow id. -/
def chooseItem (l : List Item) : Option Item :=
  l.foldl (fun o i => match o with
    | none => some i
    | some j => if i.deadline < j.deadline || (i.deadline == j.deadline && i.flow < j.flow) then some i else some j) none

/-- The integer registers at dispatch (R354): a0 the handle, a1 the argument, a2 the data pointer, sp the top of the stack. -/
def dispatchRegs (s : State) (i : Item) : List Word :=
  let c := flowCfg s i.flow
  ((((List.replicate 32 (0 : Word)).set 2 (BitVec.ofNat 32 (c.stackOfs + c.stackLen))).set 10 (BitVec.ofNat 32 i.handle)).set 11 i.arg).set 12 i.ptr

/-- Each entry of the snapshot buffer copied into DMEM at its DSTOFS (R367). -/
def copySnap : List SnapCfg → List (List Byte) → List Host.Cell → List Host.Cell
  | e :: es, b :: bs, m => copySnap es bs (memWrites m e.dstofs b)
  | _, _, m => m

/-- Place an item on a core: the state of R354, and for a tick-locked item its snapshot. -/
def placeItem (i : Item) (c now : Nat) (s : State) : State :=
  let g := flowCfg s i.flow
  let x := dispatchRegs s i
  let snap := if g.type = 2 then (flowSt s i.flow).snap else []
  let s := onHost (fun h => { h with items := h.items.filter (fun j => j.handle != i.handle) }) s
  let s := onCore c (fun k => { k with
    item := some i, started := now, mtvec := false, x := x, f := List.replicate 32 0, fcsr := 0,
    pc := BitVec.ofNat 32 g.entry, dmem := copySnap g.snaps snap k.dmem }) s
  let s := onFlow i.flow (fun f => { f with disp := satAdd 0xFFFFFFFF f.disp 1 }) s
  trace 3 i.flow i.handle c 0 s.host.items.length i.deadline s

/-- Decisions of the scheduler until nothing is eligible: at most one per core (R362). -/
def scheduleN : Nat → Nat → State → State
  | 0, _, s => s
  | n + 1, now, s =>
    match chooseItem (s.host.items.filter (itemReady s now)) with
    | none => s
    | some i => match idleCore s i.flow with
      | some c => scheduleN n now (placeItem i c now s)
      | none => s

/-- The scheduler at an instant. -/
def schedule (now : Nat) (s : State) : State := scheduleN 8 now s

/-! ### Enqueue (R360, R361) -/

/-- Handles in use. -/
def usedHandles (s : State) : List Nat :=
  s.host.items.map (fun i => i.handle) ++ s.host.cores.filterMap (fun k => k.item.map (fun i => i.handle))

/-- The lowest free handle. -/
def freeHandle (s : State) : Option Nat :=
  let u := usedHandles s
  (List.range 4096).find? (fun h => !u.contains h)

/-- Flows with an id below 1,024 of a type. -/
def flowsOf (s : State) (ty : Nat) : List Nat := (List.range s.image.flows.length).filter (fun f => (flowCfg s f).type == ty)

/-- Room for an item that is not tick-locked: each tick-locked flow keeps one handle. [DESIGN CHOICE, log 87] -/
def noRoom (s : State) : Bool :=
  4096 ≤ s.host.items.length ||
    4096 ≤ (usedHandles s).length + ((flowsOf s 2).filter (fun f => pendOf s f == [] && !flowBusy s f)).length

/-- RESULT of R360 for a commit by firmware (`fw`) or by the device: the type first, then the lowest number. [DESIGN CHOICE, log 87] -/
def enqResult (s : State) (fw : Bool) (f deadline release : Nat) : Nat :=
  let c := flowCfg s f
  if (if fw then c.type != 1 else c.type = 0 || c.type = 2) then 4
  else if noRoom s then 1
  else if !(flowSt s f).en then 2
  else if c.maxpend ≤ (pendOf s f).length then 3
  else if deadline < release then 5
  else 0

/-- Put an item with a handle among the pending ones. -/
def addItem (i : Item) (s : State) : State :=
  let s := onHost (fun h => { h with items := h.items ++ [{ i with order := h.order }], order := h.order + 1 }) s
  trace 1 i.flow i.handle 255 0 s.host.items.length i.deadline s

/-- A refused commit: HOST_ITEM_FULL for RESULT 1 and 3, at most once per tick per flow. -/
def refuseItem (f res deadline : Nat) (s : State) : State :=
  let s := trace 2 f 0xFFFF 255 res 0 deadline s
  if res = 1 || res = 3 then eventOnce 0x0901 f f s else s

/-- Enqueue an item of the device itself (R358): the handle, or none when refused. -/
def deviceItem (f arg deadline release : Nat) (s : State) : State :=
  match enqResult s false f deadline release, freeHandle s with
  | 0, some h => addItem { handle := h, flow := f, arg := BitVec.ofNat 32 arg, deadline := deadline, release := release } s
  | r, _ => refuseItem f r deadline s

/-- ENQUEUE (R360): the write to ENQ7 commits ENQ0 to ENQ6. -/
def enqueue (c now : Nat) (s : State) : State :=
  let w (i : Nat) : Nat := (nth (coreSt s c).enq i).toNat
  let f := w 0 % 1024
  let dl0 := w 2 + w 3 * 2 ^ 32
  let rl0 := w 4 + w 5 * 2 ^ 32
  let dl := if dl0 = 0 then now + (flowCfg s f).reldl else dl0
  let rl := if rl0 = 0 then now else rl0
  let s := advanceTb now s
  match enqResult s true f dl rl, freeHandle s with
  | 0, some h =>
    let s := onCore c (fun k => { k with enqValid := true, enqResult := 0, enqHandle := h }) s
    acked (schedule now (addItem { handle := h, flow := f, arg := nth (coreSt s c).enq 1, deadline := dl, release := rl,
                                   ptr := nth (coreSt s c).enq 6 } s))
  | r, _ =>
    acked (refuseItem f r dl (onCore c (fun k => { k with enqValid := true, enqResult := r, enqHandle := 0 }) s))

/-- TIMER_ENQUEUE (R358): the instant T_start + m × TPERIOD. -/
def timerEnqueue (f m : Nat) (s : State) : State :=
  let c := flowCfg s f
  let at_ := s.time.tstart + m * c.tperiod
  if c.type != 1 || c.tperiod = 0 || !s.time.run || m < (flowSt s f).timerNext then s
  else
    let s := advanceTb at_ (onFlow f (fun x => { x with timerNext := m + 1 }) s)
    schedule at_ (deviceItem f (m % 2 ^ 32) (at_ + c.reldl) at_ s)

/-- Add n raises to the undispatched item of an event-bound flow. -/
def addRaises (f n : Nat) (s : State) : State :=
  onHost (fun h => { h with items := h.items.map (fun i =>
    if i.flow = f then { i with arg := BitVec.ofNat 32 (i.arg.toNat % 65536 + 65536 * satAdd 0xFFFF (i.arg.toNat / 65536) n) } else i) }) s

/-- BOUND_ENQUEUE (R358): the raises, or the turn to non-empty, that flow f has not yet been served. [DESIGN CHOICE, log 88] -/
def boundEnqueue (f now : Nat) (s : State) : State :=
  let c := flowCfg s f
  match (if c.type = 3 then assoc s.chip.bound f else none) with
  | none => s
  | some n =>
    let s := advanceTb now (onChip (fun x => { x with bound := assocDel x.bound f }) s)
    if c.bind < 32 then
      let (v, s) := drawFree s
      schedule now (deviceItem f v.toNat (now + c.reldl) now s)
    else if pendOf s f != [] && (flowSt s f).en then addRaises f n s
    else schedule now (deviceItem f (c.bind + 65536 * min 0xFFFF n) (now + c.reldl) now s)

/-! ### The end of an item (R364, R365) -/

/-- Run figures of a flow, in µs. [DESIGN CHOICE, log 91] -/
def noteRun (f run : Nat) (s : State) : State :=
  let us := min 0xFFFF (run / 1000)
  onFlow f (fun x => { x with last := us, maxseen := max x.maxseen us }) s

/-- The item of core c ends with a result of R374; a queue-bound flow gets a new item while its queue is not empty (R358). -/
def endItem (c result now : Nat) (s : State) : State :=
  match (coreSt s c).item with
  | none => s
  | some i =>
    let run := now - (coreSt s c).started
    let s := noteRun i.flow run (onCore c (fun k => { k with item := none, mtvec := false }) s)
    let s := trace 4 i.flow i.handle c result (run / 8) i.deadline s
    let g := flowCfg s i.flow
    if g.type = 3 && g.bind < 32 && 0 < qCount s g.bind && pendOf s i.flow == [] then
      let (v, s) := drawFree s
      deviceItem i.flow v.toNat (now + g.reldl) now s
    else s

/-- Remove a pending item that has not started. -/
def removeItem (h result : Nat) (s : State) : State :=
  match s.host.items.find? (fun i => i.handle == h) with
  | some i => trace 4 i.flow h 255 result 0 i.deadline
      (onHost (fun x => { x with items := x.items.filter (fun j => j.handle != h) }) s)
  | none => s

/-- The core that runs handle h. -/
def coreOfHandle (s : State) (h : Nat) : Option Nat :=
  (List.range 8).find? (fun c => match (coreSt s c).item with | some i => i.handle == h | none => false)

/-- End handle h as a Prune of KIND 3 does: in service, pending, or nothing. -/
def endHandle (h result now : Nat) (s : State) : State :=
  match coreOfHandle s h with
  | some c => endItem c result now s
  | none => removeItem h result s

/-- An item has passed its deadline (R365): HOST_ITEM_LATE, MISSCNT. -/
def lateItem (i : Item) (s : State) : State :=
  trace 5 i.flow i.handle ((coreOfHandle s i.handle).getD 255) 0 0 i.deadline
    (event 0x0902 i.flow (onFlow i.flow (fun f => { f with misscnt := satAdd 0xFFFF f.misscnt 1 }) s))

/-- Disable a flow (R359): HOST_FLOW_DISABLED. -/
def disableFlow (f : Nat) (s : State) : State :=
  trace 8 f 0xFFFF 255 0 0 0 (event 0x0904 f (onFlow f (fun x => { x with en := false }) s))

/-- Bytes of memory from an address on. -/
def memBytes (m : List Host.Cell) (a n : Nat) : List Byte := (List.range n).map (fun i => memRead m (a + i))

/-- The output buffer that the item of flow f has left in the DMEM of core c (R371). -/
def outBuffer (s : State) (c f : Nat) : OutBuf := parseOut (memBytes (coreSt s c).dmem (flowCfg s f).outOfs (flowCfg s f).outLen)

/-- ITEM_DONE (R364, R370, R371): a write to CDONE. A tick-locked item's output buffer is copied before its core is free. -/
def itemDone (c now : Nat) (s : State) : State :=
  let s := advanceTb now s
  match (coreSt s c).item with
  | none => acked s
  | some i =>
    if (flowCfg s i.flow).type = 2 then
      let s := endItem c 0 now s
      acked (schedule now (onFlow i.flow (fun f => { f with ended := some (outBuffer s c i.flow) })
        (onCore c (fun k => { k with copying := some i }) s)))
    else acked (schedule now (endItem c 0 now s))

/-- TL_OUTPUT_COPY_DONE (R371): the copy is held for the release, and the core is free. -/
def tlCopyDone (f now : Nat) (s : State) : State :=
  match (List.range 8).find? (fun c => match (coreSt s c).copying with | some i => i.flow == f | none => false) with
  | none => s
  | some c =>
    schedule now (onFlow f (fun x => { x with held := x.ended, ended := none })
      (onCore c (fun k => { k with copying := none }) (advanceTb now s)))

/-- ITEM_OVERRUN (R365, R366): a run beyond MAXRUN; a deadline reached with it is still late. -/
def itemOverrun (c now : Nat) (s : State) : State :=
  match (coreSt s c).item with
  | none => s
  | some i =>
    let g := flowCfg s i.flow
    if g.type = 2 || g.maxrun = 0 || now - (coreSt s c).started ≤ g.maxrun * 1000 then s
    else
      let s := event 0x0903 i.flow (trace 6 i.flow i.handle c 0 0 i.deadline (advanceTb now s))
      let s := if i.deadline ≤ now && !i.late then lateItem i s else s
      schedule now (endItem c 2 now s)

/-- The item with handle h, pending or in service. -/
def itemOf (s : State) (h : Nat) : Option Item :=
  match s.host.items.find? (fun i => i.handle == h) with
  | some i => some i
  | none => (s.host.cores.filterMap (fun k => k.item)).find? (fun i => i.handle == h)

/-- Mark an item late. -/
def markLate (h : Nat) (s : State) : State :=
  let f (i : Item) : Item := if i.handle = h then { i with late := true } else i
  onHost (fun x => { x with
    items := x.items.map f, cores := x.cores.map (fun k => { k with item := k.item.map f }) }) s

/-- The core whose item h has also run beyond MAXRUN. -/
def overrunCore (s : State) (h now : Nat) (g : FlowCfg) : Option Nat :=
  match coreOfHandle s h with
  | some c => if g.maxrun != 0 && g.maxrun * 1000 < now - (coreSt s c).started then some c else none
  | none => none

/-- ITEM_DEADLINE (R365): MISSACT decides, or an overrun reached together with it (R366). -/
def itemDeadline (h now : Nat) (s : State) : State :=
  match itemOf s h with
  | none => s
  | some i =>
    let g := flowCfg s i.flow
    if g.type = 2 || now < i.deadline || i.late then s
    else if (overrunCore s h now g).isSome then itemOverrun ((overrunCore s h now g).getD 0) now s
    else
      let s := markLate h (lateItem i (advanceTb now s))
      match g.missact with
      | 0 => s
      | 2 => schedule now (disableFlow i.flow (endHandle h 2 now s))
      | _ => schedule now (endHandle h 2 now s)

/-- A trap in machine mode (R355): the interrupt enable is saved and cleared, MPP is machine mode, and the core goes to `mtvec`.
The trapping instruction is firmware's, so the saved program counter, the cause and the trap value are free. [DESIGN CHOICE, log 31] -/
def trapEntry (c : Nat) (s : State) : State :=
  let (e, s) := drawFree s
  let (w, s) := drawFree s
  let (v, s) := drawFree s
  let tvec := s.image.mtvec
  onCore c (fun k => { k with
    mtvec := true, mepc := e, mcause := w, mtval := v, pc := tvec &&& 0xFFFFFFFC,
    mstatus := (k.mstatus &&& 0xFFFFE777) ||| (if k.mstatus.getLsbD 3 then 0x1880 else 0x1800) }) s

/-- CORE_TRAP (R355, R370): an ordinary item enters mtvec; a tick-locked one ends with HOST_TL_ESCAPE. [DESIGN CHOICE, log 31; DESIGN CHOICE, log 90] -/
def coreTrap (c now : Nat) (s : State) : State :=
  match (coreSt s c).item with
  | none => s
  | some i =>
    if (flowCfg s i.flow).type = 2 then
      let s := event 0x0962 i.flow (markNext 5 (flowCfg s i.flow).gdep (advanceTb now s))
      let s := onFlow i.flow (fun f => { f with escaped := true, valid := false }) s
      schedule now (endItem c 3 now s)
    else trapEntry c s

/-- FLOW_ENABLE (R359). -/
def flowEnable (f now : Nat) (s : State) : State :=
  acked (schedule now (onFlow f (fun x => { x with en := true }) (advanceTb now s)))

/-- FLOW_DISABLE (R359). -/
def flowDisable (f : Nat) (s : State) : State := acked (onFlow f (fun x => { x with en := false }) s)

/-- PUBLISH_FLIP (R369): the halves exchange at the next E0. -/
def publishFlip (b : Nat) (s : State) : State := acked (onHost (fun h => { h with pubFlip := h.pubFlip ||| bitOf 64 b }) s)

/-! ### Snapshots (R367) -/

/-- A Q28 or Q29 entry (R372): the PDU with its payload padded to 64 bytes, its CRC, the networks and the tick. [DESIGN CHOICE, log 89] -/
def pduEntry (d : Pdu) (nets tick : Nat) : List Byte :=
  (pduBytes d ++ List.replicate 64 0).take 80 ++ leBytes 4 (crc32c (pduBytes d)).toNat ++ leBytes 4 nets ++ leBytes 8 tick

/-- The header of a released output or a solver result. [DESIGN CHOICE, log 89] -/
def snapHeader (tick : Nat) (valid : Bool) : List Byte := leBytes 4 tick ++ leBytes 4 (if valid then 1 else 0)

/-- The last released output of flow f, with its header. [DESIGN CHOICE, log 89] -/
def outCopy (s : State) (f : Nat) : List Byte :=
  match (flowSt s f).out with
  | some (t, o) => snapHeader t (flowSt s f).valid ++ o.raw
  | none => snapHeader 0 false

/-- One snapshot entry as it stands at E0: `p` is the state that tick n−1 left, `s` the state with this E0's releases. [DESIGN CHOICE, log 89] -/
def snapEntry (p s : State) (f : Nat) (e : SnapCfg) : List Byte :=
  match e.skind with
  | 1 => e.data.take e.len
  | 2 => (List.range e.count).flatMap (fun i => leBytes 8 (axSt p (e.index + i)).fb.toNat)
  | 3 => (List.range e.count).flatMap (fun i => leBytes 8 (axSt p (e.index + i)).spt.toNat)
  | 4 => snapHeader (probSt s e.index).pubTick (probSt s e.index).valid ++
      (fitLen (outLen (probCfg s e.index)) (probSt s e.index).pub.x).flatMap (fun x => leBytes 4 x.toNat)
  | 5 => match (rxSt s e.index).frozen with
      | some d => pduEntry d (if (rxSt s e.index).oneCopy then (if (rxSt s e.index).accNet then 2 else 1) else 3) (rxSt s e.index).accTick
      | none => List.replicate 96 0
  | 6 => (((flowSt s f).msgs.take e.count).flatMap (fun m => leBytes 4 m.length ++ m)).take e.len
  | 7 => (capSt s e.index).lastList.flatMap (fun x =>
      leBytes 4 (2 ^ 31 + (if x.2 then 2 ^ 30 else 0) + x.1 % 1000000000) ++ leBytes 8 (x.1 / 1000000000))
  | 8 =>
    let b := nth s.image.pubs e.index
    memBytes s.mem (b.1 + (if hasBit s.host.pubActive e.index then b.2 else 0)) (min b.2 e.len)
  | 9 => outCopy s f
  | 10 => outCopy s e.index
  | 11 => (List.range e.count).flatMap (fun i => leBytes 4 (gscaleWord p (e.index + i)).toNat)
  | 12 => (List.range e.count).flatMap (fun i => leBytes 4 (gstatWord p (e.index + i)).toNat)
  | _ => []

/-- A snapshot entry that waits for the capture list. -/
def waitsForList (e : SnapCfg) : Bool := e.skind == 7

/-- The capture lists complete, 100 ns after E0: the entries of SKIND 7 in the snapshot of flow f (R115). [DESIGN CHOICE, log 133] -/
def completeSnap (f : Nat) (s : State) : State :=
  onFlow f (fun x => { x with snap := mapIdx (fun i b =>
    let e := nth (flowCfg s f).snaps i
    if waitsForList e then snapEntry s s f e else b) 0 x.snap }) s

/-- The snapshot of an item's flow is complete: at once, or 100 ns after E0 where it names a capture list (R115). [DESIGN CHOICE, log 133] -/
def snapComplete (s : State) (now f : Nat) : Bool := !(flowCfg s f).snaps.any waitsForList || e0Of s + 100 ≤ now

/-- An item whose release an instant brings: its release time has passed, and its snapshot is complete (R362, R367). -/
def becomesReady (s : State) (now : Nat) (i : Item) : Bool := !i.released && i.release ≤ now && snapComplete s now i.flow

/-- ITEM_RELEASE_TIME (R362, R367): the release time of an item, or the end of its snapshot copy, has passed. -/
def itemReleaseTime (h now : Nat) (s : State) : State :=
  let s := advanceTb now s
  match s.host.items.find? (fun i => i.handle == h) with
  | none => schedule now s
  | some i =>
    if becomesReady s now i then
      schedule now (onHost (fun x => { x with items := x.items.map (fun i => if i.handle = h then { i with released := true } else i) })
        (if (flowCfg s i.flow).type = 2 then completeSnap i.flow s else s))
    else schedule now s

/-- Whether flow f takes its snapshot at this E0. -/
def snapDue (s : State) (f : Nat) : Bool :=
  let c := flowCfg s f
  let per := max 1 c.period
  c.type == 2 && (flowSt s f).en && (s.time.tickno + per - c.phase % per) % per == 0

/-- Take the snapshot of flow f and enqueue its item (R367): it waits for the end of the copy. -/
def takeSnapshot (p : State) (f : Nat) (s : State) : State :=
  let snap := (flowCfg s f).snaps.map (snapEntry p s f)
  let s := onFlow f (fun x => { x with snap := snap, due := true, escaped := false, held := none, ended := none }) s
  match freeHandle s with
  | some h =>
    let dl := e0Of s + periodNs s
    addItem { handle := h, flow := f, arg := BitVec.ofNat 32 s.time.tickno, deadline := dl, release := e0Of s, released := false }
      (trace 9 f h 255 0 0 dl s)
  | none => s

/-- Publish halves exchange, snapshots in ascending flow id, and the messages of this E0 are used up (R367, R369). -/
def snapshots (p : State) (s : State) : State :=
  let s := onHost (fun h => { h with pubActive := h.pubActive ^^^ h.pubFlip, pubFlip := 0 }) s
  let s := forAll ((List.range s.image.flows.length).filter (snapDue s)) (takeSnapshot p) s
  onHost (fun h => { h with flows := h.flows.map (fun x => { x with msgs := [] }) }) s

/-! ### The release at E0 (R85, R370, R371) -/

/-- A record that fits its type. -/
def recOk : OutRec → Bool
  | .reserved _ => false
  | .badLength _ => false
  | _ => true

/-- A buffer the device releases. -/
def bufOk (b : OutBuf) : Bool := b.ended && b.recs.all recOk

/-- Tick-locked flows whose snapshot was taken in the tick that ends. -/
def dueFlows (s : State) : List Nat := (List.range s.image.flows.length).filter (fun f => (flowSt s f).due)

/-- A due flow that releases nothing. [DESIGN CHOICE, log 90] -/
def flowFails (s : State) (f : Nat) : Bool := match (flowSt s f).held with | some b => !bufOk b | none => true

/-- Deliver one record (R371): packets for the gate, a segment for its queue, or a trigger's words. -/
def deliverRec (r : OutRec) (s : State) : State :=
  match r with
  | .deltas ps => if hasSolTrl s then commitTl (ps.map (fun q => { prob := q.1, tgt := q.2.1, index := q.2.2.1, value := q.2.2.2 })) s else s
  | .segment g seg => if (grpCfg s g).defined then enterSegs g [seg] s else s
  | .trigger i w => writeTrigger i { w with ctl := w.ctl ||| 0x80000000 } false (e0Of s) s
  | _ => s

/-- Drop the item of flow f that has not completed. -/
def dropFlowItem (f : Nat) (s : State) : State :=
  let s := forAll (List.range 8) (fun c s =>
    let mine (o : Option Item) : Bool := match o with | some i => i.flow == f | none => false
    let s := if mine (coreSt s c).item then endItem c 3 (e0Of s) s else s
    if mine (coreSt s c).copying then onCore c (fun k => { k with copying := none }) s else s) s
  forAll ((pendOf s f).map (fun i => i.handle)) (fun h => removeItem h 3) s

/-- The effect of R77 for the groups of a flow in the tick that begins. -/
def flowEffect (f : Nat) (s : State) : State :=
  let m := (flowCfg s f).gdep &&& defined s
  let s := missReaction false m s
  if s.image.compat then escalate .chip s else s

/-- A due flow without a release (R370, R371): HOST_DEADLINE, or the event its end has raised already. [DESIGN CHOICE, log 90] -/
def flowMiss (f : Nat) (s : State) : State :=
  let x := flowSt s f
  let s := dropFlowItem f s
  let s := onFlow f (fun y => { y with valid := false, misscnt := satAdd 0xFFFF y.misscnt 1 }) s
  if x.escaped then flowEffect f s
  else
    let code := if x.held.isSome then 0x0920 else 0x09D0
    flowEffect f (event code f (mark 0 ((flowCfg s f).gdep &&& defined s) s))

/-- The release of one due flow. -/
def releaseFlow (f : Nat) (s : State) : State :=
  let s := if flowFails s f then flowMiss f s
    else match (flowSt s f).held with
      | some b =>
        let s := forAll b.recs deliverRec s
        trace 10 f 0xFFFF 255 0 0 0 (onFlow f (fun x => { x with out := some (s.time.tickno % 2 ^ 32, b), valid := true }) s)
      | none => s
  onFlow f (fun x => { x with due := false, held := none, ended := none, escaped := false }) s

/-- Misses of phase 9 are noted in the tick that ends, before its slack is taken (R81). [DESIGN CHOICE, log 90] -/
def flowDeadline (s : State) : State :=
  if (dueFlows s).any (fun f => flowFails s f && !(flowSt s f).escaped) then noteMiss 9 s else s

/-- Releases at E0, in ascending flow id. -/
def releaseFlows (s : State) : State := forAll (dueFlows s) releaseFlow s

/-! ### Firmware pushes (R373) and acyclic frames (R134) -/

/-- Pushes to Qg in the staging list. [DEDUCED, log 92] -/
def stagedFor (s : State) (g : Nat) : Nat := (s.host.staging.filter (fun p => p.1 == g)).length

/-- RESULT of a push. [DEDUCED, log 92] -/
def pushResult (s : State) (q len : Nat) : Nat :=
  if q < 16 then
    if maxGroups s ≤ q || nodeMode s || !(queueCfg s q).fw then 2
    else if len != 160 then 3
    else if 64 ≤ (grpSt s q).queue.length + stagedFor s q then 1 else 0
  else if q < 24 then (if len = 0 || 1536 < len then 3 else if qFull s q && !(queueCfg s q).overwrite then 1 else 0)
  else 2

/-- The bytes of a core port's staging buffer. -/
def stagedBytes (x : CoreSt) (n : Nat) : List Byte :=
  (((List.range ((n + 3) / 4)).map (fun i => leBytes 4 ((assoc x.pstage i).getD 0).toNat)).flatten).take n

/-- QUEUE_PUSH (R373): the entry in the staging buffer; an accepted segment waits in the staging list for the next E0. -/
def queuePush (c q len : Nat) (s : State) : State :=
  let r := pushResult s q len
  let data := stagedBytes (coreSt s c) len
  let s := onCore c (fun k => { k with pushValid := true, pushResult := r }) s
  acked (if q < 16 then
      (match r with
       | 0 => onHost (fun h => { h with staging := h.staging ++ [(q, parseSeg data)] }) s
       | 1 => onQueue q (fun x => { x with drops := satAdd 0xFFFF x.drops 1 }) s
       | _ => s)
    else if r = 0 || r = 1 then pushEntry q { bytes := data } s else s)

/-- Staged pushes enter their queues after commands and releases, each checked under R218. [DEDUCED, log 92] -/
def enterStaging (s : State) : State :=
  let l := s.host.staging
  forAll l (fun p => enterSegs p.1 [p.2]) (onHost (fun h => { h with staging := [] }) s)

/-- ACYCLIC_FRAME (R134): to the core mailbox that the image names. A node also passes it on; at a break it is returned. -/
def acyclicFrame (r : Nat) (ccw : Bool) (at_ : Nat) (h : RingHead) (data : List Byte) (s : State) : State :=
  let q := (ringCfg s r).mailbox
  if (ringSt s r).role = 0 || (ringSt s r).state == .down then s
  else if !frameOk s r h then badFrame r ccw at_ false h s
  else
    let s := heard r at_ s
    let s := if isMaster s r then s else passFrame r ccw at_ false h .other s
    if q < 16 || 24 ≤ q then s else pushEntry q { bytes := data } s

/-! ### Stores of a tick-locked item (R86) -/

/-- The core that issues an access. [DESIGN CHOICE, log 28] -/
def coreOf : Who → Option Nat | .core c => some (c % 8) | .other _ => none

/-- The flow of the tick-locked item that the issuing core runs, if it runs one. [DEDUCED, log 134] -/
def tlFlow (s : State) (who : Who) : Option FlowCfg :=
  match coreOf who with
  | none => none
  | some c => match (coreSt s c).item with
    | some i => if (flowCfg s i.flow).type == 2 then some (flowCfg s i.flow) else none
    | none => none

/-- A store to a register: a tick-locked item escapes by it, and its store does not happen. [DEDUCED, log 134] -/
def storeBy (who : Who) (now : Nat) (f : State → State) (s : State) : State :=
  if (tlFlow s who).isSome then coreTrap ((coreOf who).getD 0) now s else f s

/-- TRIGGER_ARM (R110). -/
def execTriggerArm (who : Who) (i : Nat) (ctl : Word) (now : Nat) (s : State) : Out :=
  run (storeBy who now (triggerWrite who i (ctl ||| 0x80000000) now)) s
/-- TRIGGER_DISARM (R110): ARM written 0, the other fields as they stand. -/
def execTriggerDisarm (who : Who) (i now : Nat) (s : State) : Out :=
  run (storeBy who now (triggerWrite who i ((trigSt s i).ctl &&& 0x7FFFFFFF) now)) s
def execQueueAck (who : Who) (q n : Nat) (s : State) : Out := runAcc .host (storeBy who s.time.tb (queueAck who q n)) s
def execEnqueue (c now : Nat) (s : State) : Out := runAcc .host (storeBy (.core c) now (enqueue c now)) s
def execTimerEnqueue (f m : Nat) (s : State) : Out := runIn .host (timerEnqueue f m) s
def execBoundEnqueue (f now : Nat) (s : State) : Out := runIn .host (boundEnqueue f now) s
def execItemReleaseTime (h now : Nat) (s : State) : Out := runIn .host (itemReleaseTime h now) s
def execItemDone (c now : Nat) (s : State) : Out := runAcc .host (itemDone c now) s
def execTlOutputCopyDone (f now : Nat) (s : State) : Out := runIn .host (tlCopyDone f now) s
def execItemOverrun (c now : Nat) (s : State) : Out := runIn .host (itemOverrun c now) s
def execItemDeadline (h now : Nat) (s : State) : Out := runIn .host (itemDeadline h now) s
def execCoreTrap (c now : Nat) (s : State) : Out := runIn .host (coreTrap c now) s
def execFlowEnable (f now : Nat) (s : State) : Out := runAcc .host (flowEnable f now) s
def execFlowDisable (f : Nat) (s : State) : Out := runAcc .host (flowDisable f) s
def execPublishFlip (b : Nat) (s : State) : Out := runAcc .host (publishFlip b) s
def execQueuePush (c q len : Nat) (s : State) : Out := runAcc .host (storeBy (.core c) s.time.tb (queuePush c q len)) s
def execAcyclicFrame (r : Nat) (ccw : Bool) (at_ : Nat) (h : RingHead) (data : List Byte) (s : State) : Out :=
  runIn .ring (acyclicFrame r ccw at_ h data) s

end Sys2Proof.Machine
end

