-- ==== Sys2Proof/Machine/Fault.lean ====
section
/-! DEFINITION. Fault.lean: faults of slices and of region-level units and how they are contained (R40 to R47), and the
retirements of the next E0. -/

namespace Sys2Proof.Machine

/-! ### Slices (R41) -/

/-- A slice that exists and still serves: in a present block that is not quarantined, not faulted or retired before. -/
def sliceServes (s : State) (r : Region) (b sl : Nat) : Bool :=
  hasBit (presentMask s r) b && sl < slicesIn s.fuse.variant r b && !hasBit (regSt s r).quar b &&
    !(regSt s r).faulted.contains (16 * b + sl) && !(regSt s r).retired.contains (16 * b + sl)

/-- Groups whose covered path a slice's memories carry (R72). -/
def sliceScope (s : State) (r : Region) (b sl : Nat) : Mask :=
  match r with
  | .mot => groupsOfKde s (b - 8)
  | .sol => (allProbs s).foldl (fun m p => if (probSt s p).block = b ∧
      ((probSt s p).job = .running ∨ (probSt s p).job = .waiting) then m ||| probGroups s p else m) 0
  | .axio => groupsOfChan s (chanBlock s.fuse.variant * b + sl)
  | .ring => groupsOfRing s b
  | .trl => defined s
  | .host => match (nth s.host.cores (4 * b + sl)).item with
    | some i => if (flowCfg s i.flow).type = 2 then (flowCfg s i.flow).gdep &&& defined s else 0
    | none => 0
  | _ => 0

/-- What happens now to a slice outside the servo-slice blocks. -/
def sliceNow (r : Region) (b sl : Nat) (s : State) : State :=
  match r with
  | .mot => addB 2 (16 * b + sl) (groupsOfKde s (b - 8)) 0x05E0 s
  | .sol => loseLane b sl s
  | .trl => addB 3 (16 * b + sl) (defined s) 0x07E0 s
  | .axio =>
    let c := chanBlock s.fuse.variant * b + sl
    let m := groupsOfChan s c
    let s := loseChan c (latchA m 16 0x04E0 s)
    event 0x04E1 (16 * b + sl) (onSaf (fun f => { f with aNext := f.aNext ||| m })
      (onRegion .axio (fun x => { x with retired := x.retired ++ [16 * b + sl] }) s))
  | .ring => portDown b (sl = 1) s
  | .host => schedule s.time.tb (loseCore (4 * b + sl) s)
  | _ => s

/-- With fewer than two pipes the Trellis has lost its only block (R45, R282). -/
def pipesShort (r : Region) (s : State) : State :=
  if r == .trl && (pipesServing s).length < 2 && !(regSt s .trl).escalated then escalate .trl (latchA (defined s) 16 0x07E0 s) else s

/-- Contain a slice fault outside the servo-slice blocks: what happens now, and the block's end when no slice of it is left. Work
in progress on a block that fails so is lost with it (R491). -/
def containOther (r : Region) (b sl : Nat) (s : State) : State :=
  let m := lostWork s r b
  let t := noteFault r b sl (sliceNow r b sl s)
  let t := if hasBit (regSt t r).quar b then markNext 4 m t else t
  pipesShort r t

/-- A corrected error of a slice's memories is counted where the spec gives a counter: the servo slices and the cores (R195, R363). -/
def countCorrected (r : Region) (b sl : Nat) (s : State) : State :=
  if !sliceServes s r b sl then s
  else match r with
    | .mot => if b < 8 then correctedError b sl s else s
    | .host => onCore (4 * b + sl) (fun c => { c with cecnt := satAdd 0xFFFF c.cecnt 1 }) s
    | _ => s

/-- SLICE_FAULT (R41, R67): the slice stops and its block contains it; the causes are those that FCAUSE gives a detector of the
hardware: 4 an uncorrectable memory error, 5 the handshake watchdog; 0 stands for a corrected error, which stops nothing (R195). [DESIGN CHOICE, log 38; DEDUCED, log 137] -/
def sliceFault (r : Region) (b sl cause : Nat) (s : State) : State :=
  if cause = 0 then countCorrected r b sl s
  else match r with
  | .chip => s
  | .time => escalate .time s
  | .saf => if b = 0 ∧ sl = 0 ∧ !(regSt s .saf).escalated then
      escalate .saf (latchA (defined s) 16 0x08E0 (event 0x08E0 0 s)) else s
  | _ =>
    if !sliceServes s r b sl then s
    else if r = .mot ∧ b < 8 then motSliceFault b sl cause s
    else
      let s := if cause = 4 then mark 1 (sliceScope s r b sl) s else s
      if s.image.compat then
        escalate r (onRegion r (fun x => { x with faulted := x.faulted ++ [16 * b + sl] }) (event (256 * r.id + 0xE0) (16 * b + sl) s))
      else containOther r b sl s

/-! ### The next E0 -/

/-- A slice that faulted and is retired at E0 (R41): its event, and its unit's mask of live slices. [DESIGN CHOICE, log 43] -/
def retireOne (r : Region) (f : Nat) (s : State) : State :=
  let s := event (256 * r.id + 0xE1) f (onRegion r (fun x => { x with retired := x.retired ++ [f] }) s)
  let b := f / 16
  let sl := f % 16
  match r with
  | .mot => { s with mot := { s.mot with kdeLive := updAt s.mot.kdeLive (b - 8) (fun m => m &&& ~~~ bitOf 8 sl) } }
  | .trl => { s with trl := { s.trl with live := s.trl.live &&& ~~~ bitOf 32 (8 * b + sl) } }
  | .host => moveFlows s
  | _ => s

/-- Retire what faulted since the last E0: KDE pipelines, lanes, pipes and cores. [DESIGN CHOICE, log 43] -/
def retireEdge (s : State) : State :=
  forAll [Region.mot, .sol, .trl, .host] (fun r s =>
    forAll ((regSt s r).faulted.filter (fun f => !(regSt s r).retired.contains f && !(r = .mot && f / 16 < 8)))
      (retireOne r) s) s

/-! ### Region-level units (R40) -/

/-- BLOCK_QUAR of a region for a unit that is not a block. [DESIGN CHOICE, log 44] -/
def unitEvent (r : Region) (s : State) : State := event (256 * r.id + 0xE3) 0 s

/-- The trajectory generator: as the loss of every servo-slice block, of a unit the region has once (R44, R45). [DESIGN CHOICE, log 44] -/
def generatorLost (s : State) : State :=
  escalate .mot (forAll (List.range (motBlocks s.fuse.variant)) (blockReaction .mot) (unitEvent .mot s))

/-- The crypto engine (R399): every waiting command ends with code 8, and no reply is signed. [DESIGN CHOICE, log 44; DEDUCED, log 95] -/
def cryptoLost (s : State) : State :=
  let cs := s.host.vq ++ s.host.held
  let s := onHost (fun h => { h with cryptoFault := true, vq := [], held := [] }) (unitEvent .host s)
  forAll cs (fun c s =>
    let o : Origin := { key := c.d.key, seq := c.d.seq, net := c.net, digest := c.d.digest }
    markDecided (mkReply o 8 0 [] s) false (noteRefusal 8 c.d.key s)) s

/-- In compatibility mode a fault of a unit escalates its region (R67). [DESIGN CHOICE, log 44] -/
def compatEscalates (r : Region) (s : State) : State := if s.image.compat then escalate r s else s

/-- REGION_UNIT_FAULT (R40, R43): each unit as its chapter says. [DESIGN CHOICE, log 44] -/
def regionUnitFault (u : RegionUnit) (s : State) : State :=
  match u with
  | .block .chip _ => s
  | .block .time _ => escalate .time s
  | .block .saf _ =>
    if (regSt s .saf).escalated then s else escalate .saf (latchA (defined s) 16 0x08E3 (event 0x08E3 0 s))
  | .block r b => if hasBit (presentMask s r) b then pipesShort r (quarantine r b s) else s
  | .generator =>
    if nodeMode s || (regSt s .mot).escalated then s
    else if s.image.compat then escalate .mot (unitEvent .mot s)
    else generatorLost s
  | .problemStore p =>
    if !hasSolTrl s || (probCfg s p).op = 0 then s
    else event 0x0630 p (onProb p (fun x => { x with lost := true, dead := true }) s)
  | .deltaGate =>
    if !hasSolTrl s || s.sol.unitLost then s
    else unitEvent .sol { s with sol := { s.sol with unitLost := true } }
  | .geometryTable | .zoneArbiter =>
    if !hasSolTrl s || (regSt s .trl).escalated then s
    else escalate .trl (latchA (defined s) 16 0x07E3 (unitEvent .trl s))
  | .scheduler =>
    if (regSt s .host).escalated then s else escalate .host (latchA (defined s) 16 0x09E3 (unitEvent .host s))
  | .cryptoEngine => if s.host.cryptoFault then s else compatEscalates .host (cryptoLost s)
  | .plantPort p =>
    if 4 ≤ p || (nth s.host.ports p).bad then s
    else
      let s := if (nth s.host.ports p).up then plantLinkDown p s else s
      compatEscalates .host (event 0x09E0 0 (onPort p (fun x => { x with bad := true }) s))
  | .pendantPort => compatEscalates .host (unitEvent .host s)
  | .nvm => event 0x0181 0 s

/-! ### Faults at a requester of the interconnect (R47, R449) -/

/-- What holds a requester id: a slice, a region-level unit, or nothing that can fault. -/
inductive Requester where
  | slice (r : Region) (b sl : Nat)
  | unit (u : RegionUnit)
  | other
  deriving DecidableEq, Repr

/-- The holder of requester id `id`; `sl` is the slice of an id that stands for a block (R449). [DEDUCED, log 122] -/
def requesterOf (id sl : Nat) : Requester :=
  if id < 8 then .slice .host (id / 4) (id % 4)
  else if id < 16 then .slice .mot (id - 8) sl
  else if id < 18 then .slice .mot (id - 8) sl
  else if id < 22 then .slice .sol (id - 18) sl
  else if id < 23 then .unit .deltaGate
  else if id < 27 then .slice .trl (id - 23) sl
  else if id < 28 then .unit .geometryTable
  else if id < 32 then .slice .axio (id - 28) sl
  else if id < 34 then .slice .ring (id - 32) sl
  else if id < 35 then .slice .saf 0 0
  else if id < 36 then .slice .time 0 0
  else if id < 37 then .unit .generator
  else if id < 38 then .unit .scheduler
  else if id < 39 then .unit .cryptoEngine
  else if id < 41 then .unit (.plantPort (2 * (id - 39) + sl % 2))
  else if id < 42 then .unit .pendantPort
  else if id < 43 then .unit .nvm
  else .other

/-- The region of a requester id (R449); the pair link, the recording engine and the command unit belong to none. -/
def requesterRegion (id : Nat) : Option Region :=
  match requesterOf id 0 with
  | .slice r _ _ => some r
  | .unit .deltaGate => some .sol
  | .unit .geometryTable => some .trl
  | .unit .generator => some .mot
  | .unit .nvm => some .chip
  | .unit _ => some .host
  | .other => none

/-- A requester that the variant or the running mode lacks: it never requests (R449). -/
def requesterAbsent (s : State) (id : Nat) : Bool :=
  match requesterOf id 0 with
  | .slice r b _ => r != .time && !hasBit (presentMask s r) b
  | .unit .deltaGate => !hasSolTrl s
  | .unit .geometryTable => !hasSolTrl s
  | .unit .generator => nodeMode s
  | .unit _ => false
  | .other => id == 43 && s.fuse.variant != .v6128

/-- The requester's slice fault (R41) where it has no slice: the fault of the unit. -/
def requesterFault (id sl : Nat) (s : State) : State :=
  match requesterOf id sl with
  | .slice r b i => sliceFault r b i 4 s
  | .unit u => regionUnitFault u s
  | .other => s

/-- The safety class of a requester's slice fault, without the fault (R47): A stops the groups of its scope, B makes them degraded
until a reset, and SAF and TIME escalate on any fault (R45). [DEDUCED, log 122] -/
def requesterClass (id sl code : Nat) (s : State) : State :=
  match requesterOf id sl with
  | .slice .saf _ _ => escalate .saf (latchA (defined s) 16 code s)
  | .slice .time _ _ => escalate .time s
  | .slice .axio b i => classA (groupsOfChan s (chanBlock s.fuse.variant * b + i)) 16 code s
  | .slice .mot b i => addB 16 (16 * b + i) (if b < 8 then groupsOfBlock s b else groupsOfKde s (b - 8)) code s
  | .slice .trl b i => addB 17 (16 * b + i) (defined s) code s
  | .slice .ring b i => addB 18 (16 * b + i) (groupsOfRing s b) code s
  | .unit .generator => classA (defined s) 16 code s
  | _ => s

/-- The watchdog ends an access: error token, CHIP_XING_HANG and its class (R57, R47). [DEDUCED, log 122] -/
def hangAccess (x : XAccess) (s : State) : State :=
  let s := errorToken (xFinish x.who s)
  requesterClass x.who x.sl 0x0120
    (event 0x0120 0 (onChip (fun c => { c with xHang := satAdd 0xFFFF c.xHang 1 }) s))

/-- CROSSING_WATCHDOG (R57, R59). [DEDUCED, log 41] -/
def crossingWatchdog (id : Nat) (s : State) : State :=
  match xPending s id with | some x => hangAccess x s | none => s

/-- CROSSING_RESPONSE (R55): the pending access completes. A word of LP4X DRAM beyond correction ends it with an error token and is
a slice fault of the reader; a corrected one is counted (R47). -/
def crossingResponse (id : Nat) (v : Word) (ecc : Ecc) (s : State) : State :=
  match xPending s id with
  | none => s
  | some x =>
    let s := xFinish id s
    if x.dom != 1 && x.dom != 2 then answer v s
    else match ecc with
      | .ok => answer v s
      | .corrected => answer v (event 0x0142 0 (onChip (fun c => { c with dramCe := c.dramCe + 1 }) s))
      | .lost => requesterFault id x.sl (event 0x0141 0 (errorToken s))

def execSliceFault (r : Region) (b sl cause : Nat) (s : State) : Out := run (sliceFault r b sl cause) s
def execCrossingWatchdog (id : Nat) (s : State) : Out := run (crossingWatchdog id) s
def execCrossingResponse (id : Nat) (v : Word) (ecc : Ecc) (s : State) : Out := run (crossingResponse id v ecc) s
def execRegionUnitFault (unit : RegionUnit) (s : State) : Out := run (regionUnitFault unit) s

end Sys2Proof.Machine
end

