-- ==== Sys2Proof/Machine/Prune.lean ====
section
/-! DEFINITION. Prune.lean: Prune of one target (R60 to R64, R68, R264, R397, R490). The head of `chip.prunes` runs, the others
wait in order of arrival. -/

namespace Sys2Proof.Machine

/-! ### Dependence of groups on regions (R61) -/

/-- Groups in GDEP of a tick-locked flow that names a SKIND 4 snapshot. -/
def solSnapGroups (s : State) : Mask :=
  s.image.flows.foldl (fun m f => if f.type = 2 ∧ f.snaps.any (fun e => e.skind = 4) then m ||| f.gdep else m) 0

/-- Groups that depend on a region. -/
def dependsOn (s : State) : Region → Mask
  | .mot | .trl | .host => defined s
  | .ring => groupsOf s (fun _ c => portIsRing c.src || portIsRing c.dst)
  | .axio => groupsOf s (fun _ c => portIsChan c.src || portIsChan c.dst)
  | .sol => (solSnapGroups s &&& defined s) |||
      (List.range s.image.probs.length).foldl (fun m p => m ||| probGroups s p) 0
  | _ => 0

/-- A group that is enabled for motion depends on the region. -/
def regionNeeded (s : State) (r : Region) : Bool :=
  (bitsOf (dependsOn s r)).any (fun g => (grpSt s g).state.enabled)

/-- A region that the device or its mode lacks: none of its blocks is present. -/
def regionAbsent (s : State) (r : Region) : Bool := r != .time && r != .chip && presentMask s r == 0

/-- Domain of a crossing that lies in a region: the encoder samplers in AXIO, RGMII in HOST. [DESIGN CHOICE, log 123] -/
def domainRegion : Nat → Option Region | 4 => some .axio | 6 => some .host | _ => none

/-- An access in flight that belongs to a region: by its requester or into its clocked domain. -/
def inRegion (r : Region) (x : XAccess) : Bool := requesterRegion x.who == some r || domainRegion x.dom == some r

/-- The accesses of a region that is stopped complete with an error token (R60). [DESIGN CHOICE, log 123] -/
def endAccesses (r : Region) (s : State) : State :=
  if s.chip.xPend.any (inRegion r) then
    errorToken (onChip (fun c => { c with xPend := c.xPend.filter (fun x => !inRegion r x) }) s)
  else s

/-- Stop a region: every block stopped, its accesses in flight end with an error token. -/
def stopRegion (r : Region) (s : State) : State :=
  let s := endAccesses r (onRegion r (fun x => { x with pruned := true }) s)
  match r with
  | .sol => { s with sol := { s.sol with
      probs := s.sol.probs.map (fun x => { x with job := if x.job = .none then .none else .gone, due := false }) } }
  | .trl => { s with trl := { s.trl with pairs := [], batches := [] } }
  | .ring => { s with ring := s.ring.map (fun x => { x with state := .down, txStopped := true }) }
  | .axio => { s with axio := s.axio.map (fun x => { x with sched := [], schedNext := [], cmpOut := false, stepOut := false }) }
  | .mot => { s with mot := { s.mot with slices := s.mot.slices.map (fun x =>
      if x.run = .retired then x else { x with run := .stopped }) } }
  | .host => { s with host := { s.host with
      items := [], cores := s.host.cores.map (fun c => { c with item := none, copying := none }) } }
  | _ => s

/-! ### What a Prune finds and does (R60, R62, R264). The result is 0 done, 1 nothing to prune, 2 refused -/

/-- KIND 1: one solver job. A job that has not started leaves the tick; one that runs stops at its next break point. -/
def pruneJob (p : Nat) (s : State) : Nat × State :=
  if !hasSolTrl s then (1, event 0x0101 0 s)
  else if (probCfg s p).op = 0 || !((probSt s p).job == .waiting || (probSt s p).job == .running) then (1, s)
  else (0, markNext 3 (probGroups s p) (onProb p (fun x => { x with
    pruned := true, warm := none, job := (if x.job = .waiting then .gone else x.job) }) s))

/-- KIND 2: one batch of the running tick. -/
def pruneBatch (b : Nat) (s : State) : Nat × State :=
  if !hasSolTrl s then (1, event 0x0101 0 s)
  else if s.trl.batches.length ≤ b || nth s.trl.batches b != (false, false) then (1, s)
  else
    let m := ((s.trl.pairs.drop (64 * b)).take 64).foldl (fun k p => k ||| p.groups) (0 : Mask)
    (0, mark 3 m { s with trl := { s.trl with batches := updAt s.trl.batches b (fun _ => (false, true)) } })

/-- Groups whose promise an item of flow f carries. -/
def flowGroups (s : State) (f : Nat) : Mask := if (flowCfg s f).type = 2 then (flowCfg s f).gdep &&& defined s else 0

/-- KIND 3: one work item, in service or pending. [DESIGN CHOICE, log 46] -/
def pruneItem (h : Nat) (s : State) : Nat × State :=
  match itemOf s h with
  | none => (1, s)
  | some i =>
    let c := (coreOfHandle s h).getD 255
    (0, markNext 3 (flowGroups s i.flow) (endHandle h 1 s.time.tb (trace 7 i.flow h c 0 0 i.deadline s)))

/-- KIND 4: one flow: its item in service ends, its pending items are discarded, it is disabled. [DESIGN CHOICE, log 46] -/
def pruneFlowAct (f : Nat) (s : State) : Nat × State :=
  if (flowCfg s f).type = 0 then (1, s)
  else
    let busy := flowBusy s f || pendOf s f != []
    let s := disableFlow f s
    let s := forAll ((pendOf s f).map (fun i => i.handle)) (fun h t => removeItem h 1 t) s
    let s := forAll (List.range 8) (fun c t =>
      match (coreSt t c).item with | some i => if i.flow = f then endItem c 1 t.time.tb t else t | none => t) s
    (0, if busy then markNext 3 (flowGroups s f) s else s)

/-- KIND 5: one pending crossing access, which completes when the Prune does; a requester that is absent never waits (R62). -/
def pruneAccess (id : Nat) (s : State) : Nat × State :=
  if requesterAbsent s id then (1, event 0x0101 0 s)
  else if (xPending s id).isSome then (0, s) else (1, s)

/-- KIND 6: one plant queue, 2 × port + 0 forwarding or 1 device; a frame on the wire is sent to its end. [DESIGN CHOICE, log 46] -/
def pruneQueue (q : Nat) (s : State) : Nat × State :=
  if 8 ≤ q then (1, s)
  else (0, onPort (q / 2) (fun x => if q % 2 = 0 then { x with fwd := [] } else { x with dev := [] }) s)

/-- A refused region Prune: CHIP_PRUNE_REFUSED. -/
def pruneRefused (s : State) : Nat × State := (2, event 0x0130 0 s)

/-- KIND 7: one region, by signed command only (R61, R68). [DESIGN CHOICE, log 46] -/
def pruneWhole (signed : Bool) (id : Nat) (s : State) : Nat × State :=
  if s.image.compat || !signed then pruneRefused s
  else match Region.ofId id with
    | none => (1, s)
    | some .chip => (1, s)
    | some r =>
      if r == .saf || r == .time || regionNeeded s r then pruneRefused s
      else if regionAbsent s r then (1, event 0x0101 0 s)
      else if (regSt s r).pruned then (1, s)
      else (0, stopRegion r s)

/-- Start a Prune on its target: the effect of R60 and its result. -/
def pruneAct (p : PruneSt) (s : State) : Nat × State :=
  match p.kind with
  | 1 => pruneJob p.index s
  | 2 => pruneBatch p.index s
  | 3 => pruneItem p.index s
  | 4 => pruneFlowAct p.index s
  | 5 => pruneAccess p.index s
  | 6 => pruneQueue p.index s
  | 7 => pruneWhole p.signed p.region s
  | _ => (2, s)

/-! ### The channels (R63, R64, R490) -/

/-- A Prune has ended: PRUNESTAT for the firmware's, the reply for a signed one (R394, code 16 when refused). [DESIGN CHOICE, log 46] -/
def pruneEnd (p : PruneSt) (elapsed : Nat) (s : State) : State :=
  let e := min 0xFFFF elapsed
  if p.signed then
    match p.origin with
    | some o => replyNow o (if p.result = 2 then 16 else 0) (if p.result = 2 then p.kind else 0)
        (leBytes 1 p.result ++ leBytes 1 p.kind ++ leBytes 2 e) s
    | none => s
  else onChip (fun c => { c with pruneResult := p.result, pruneKind := p.kind, pruneElapsed := e }) s

/-- The same work item, flow or crossing access as the running Prune (R64). -/
def sameTarget (p q : PruneSt) : Bool := p.kind == q.kind && p.index == q.index && 3 ≤ p.kind && p.kind ≤ 5

/-- Start the head of the list; a Prune with nothing to prune or refused ends at once and the next starts. [DESIGN CHOICE, log 46] -/
def startPrunes : Nat → State → State
  | 0, s => s
  | n + 1, s =>
    match s.chip.prunes with
    | [] => s
    | p :: r =>
      let (res, s) := pruneAct p s
      let p := { p with result := res }
      if res = 0 then onChip (fun c => { c with prunes := p :: r }) s
      else
        let (v, s) := drawFree (onChip (fun c => { c with prunes := r }) s)
        startPrunes n (pruneEnd p (v.toNat % 0x10000) s)

/-- A Prune arrives: it starts at once when none runs, else it waits. -/
def requestPrune (p : PruneSt) (s : State) : State :=
  let idle := s.chip.prunes == []
  let s := onChip (fun c => { c with prunes := c.prunes ++ [p] }) s
  if idle then startPrunes s.chip.prunes.length s else s

/-- BUSY of PRUNESTAT: the firmware Prune runs or waits. -/
def pruneBusy (s : State) : Bool := s.chip.prunes.any (fun p => !p.signed)

/-- A write to CHIP.PRUNE (R63): discarded while the firmware Prune is busy, CHIP_PRUNE_BUSY. -/
def firmwarePrune (kind region index : Nat) (s : State) : State :=
  acked (if pruneBusy s then event 0x0131 0 s
    else requestPrune { kind := kind, region := region, index := index } s)

/-- A running solver job ends at its break point with nothing (R263, R264). -/
def endPrunedJob (p : PruneSt) (s : State) : State :=
  if p.kind = 1 && (probSt s p.index).pruned && (probSt s p.index).job == .running then
    startNext p.index (onProb p.index (fun x => { x with job := .gone }) s)
  else s

/-- A pruned crossing access completes with an error token, unless the watchdog bound falls in the same oscillator period: then the
watchdog completes it (R59). -/
def endPrunedAccess (p : PruneSt) (bound : Bool) (s : State) : State :=
  if p.kind != 5 then s
  else match xPending s p.index with
    | none => s
    | some x => if bound then hangAccess x s else errorToken (xFinish x.who s)

/-- PRUNE_COMPLETE (R60, R63, R64): the running Prune ends, with it those of the same target; the next one starts. -/
def pruneComplete (signed : Bool) (elapsed : Nat) (bound : Bool) (s : State) : State :=
  match s.chip.prunes with
  | [] => s
  | p :: r =>
    if p.signed != signed then s
    else
      let s := onChip (fun c => { c with prunes := r.filter (fun q => !sameTarget p q) }) (endPrunedAccess p bound (endPrunedJob p s))
      let s := forAll (p :: (r.filter (sameTarget p)).map (fun q => { q with result := p.result }))
        (fun q t => pruneEnd q elapsed t) s
      schedule s.time.tb (startPrunes s.chip.prunes.length s)

def execPruneSolverJob (index : Nat) (s : State) : Out := run (firmwarePrune 1 0 index) s
def execPruneTrellisBatch (index : Nat) (s : State) : Out := run (firmwarePrune 2 0 index) s
def execPruneWorkItem (index : Nat) (s : State) : Out := run (firmwarePrune 3 0 index) s
def execPruneFlow (index : Nat) (s : State) : Out := run (firmwarePrune 4 0 index) s
def execPruneCrossingAccess (index : Nat) (s : State) : Out := run (firmwarePrune 5 0 index) s
def execPrunePlantQueue (index : Nat) (s : State) : Out := run (firmwarePrune 6 0 index) s
/-- PRUNE_REGION (R61): a signed one takes its place in the signed channel, any other is refused. -/
def execPruneRegion (region : Nat) (signed : Bool) (s : State) : Out :=
  run (if signed then requestPrune { kind := 7, region := region, signed := true } else firmwarePrune 7 region 0) s
/-- PRUNE_KIND_INVALID (R60): KIND 0 and 8 to 15 are refused with RESULT 2. -/
def execPruneKindInvalid (kind : Nat) (s : State) : Out :=
  run (fun s => if 1 ≤ kind % 16 && kind % 16 ≤ 7 then s else firmwarePrune (kind % 16) 0 0 s) s

end Sys2Proof.Machine
end

