-- ==== Sys2Proof/Machine/Load.lean ====
section
/-! DEFINITION. Load.lean: what every region holds after its configuration has been loaded from the image (R409 step 6, R415,
R419), and the areas of the flash that the device writes (R331, R420, R480, R482). -/

namespace Sys2Proof.Machine

/-! ### Coverage (R74) -/

/-- A problem that an anytime run or a packet of firmware can change. [DEDUCED, log 132] -/
def openProblem (c : ProbCfg) : Bool := c.op != 0 && (c.anytime || c.fww)

/-- What an anytime-mode problem or the output of an ordinary work item can reach: the problems and the tick-locked flows. -/
structure Open where
  probs : List Nat := []
  flows : List Nat := []

/-- A tick-locked flow whose snapshot holds the result of an open problem or the output of an open flow. [DEDUCED, log 132] -/
def readsOpen (o : Open) (f : FlowCfg) : Bool :=
  f.type == 2 && f.snaps.any (fun e => (e.skind == 4 && o.probs.contains e.index) || (e.skind == 10 && o.flows.contains e.index))

/-- An open flow may adapt a problem that serves no group, or a group that its GDEP names. [DEDUCED, log 132] -/
def mayAdapt (s : State) (o : Open) (p : Nat) : Bool :=
  o.flows.any (fun f => probGroups s p == 0 || (probGroups s p &&& (flowCfg s f).gdep) != 0)

/-- A problem that is open in itself, through the problem it is grafted on, or through an open flow. [DEDUCED, log 132] -/
def opensProb (s : State) (o : Open) (p : Nat) : Bool :=
  let c := probCfg s p
  openProblem c || (c.op == 5 && c.graft && o.probs.contains c.gsrc) || (c.op != 0 && mayAdapt s o p)

/-- One step of what is reached. -/
def openStep (s : State) (o : Open) : Open :=
  { probs := (List.range s.image.probs.length).filter (opensProb s o)
    flows := (List.range s.image.flows.length).filter (fun f => readsOpen o (flowCfg s f)) }

/-- Steps until nothing more is reached. -/
def openN (s : State) : Nat → Open
  | 0 => {}
  | n + 1 =>
    let o := openN s n
    let t := openStep s o
    if t.probs.length = o.probs.length && t.flows.length = o.flows.length then o else t

/-- Everything that is reached. -/
def openAll (s : State) : Open := openN s (s.image.probs.length + s.image.flows.length + 1)

/-- Groups that an anytime-mode problem or the output of an ordinary work item can reach. [DEDUCED, log 132] -/
def openGroups (s : State) : Mask :=
  let o := openAll s
  maskOf 16 (fun g => (nth s.image.queues g).fw) ||| o.probs.foldl (fun m p => m ||| probGroups s p) 0 |||
    o.flows.foldl (fun m f => m ||| (flowCfg s f).gdep) 0

/-- `TIME.COVER.COVER`. -/
def coverOf (s : State) : Mask := defined s &&& ~~~ openGroups s

/-! ### Regions -/

/-- CHIP: priorities, windows and the watchdog period of the image. -/
def loadChip (s : State) : State :=
  onChip (fun c => { c with reqPri := s.image.reqPri, dwin := s.image.dwin, wdogLeft := s.image.wdt, wdogNext := 0x5A }) s

/-- The code of 0.80 V limited to VMIN to VMAX (R82). -/
def vrecStart (s : State) : Nat := max s.image.vmin (min 60 s.image.vmax)

/-- The profile in force (R96, R109): ring time in node mode. -/
def startProfile (s : State) : Nat := if nodeMode s then 3 else s.image.profile

/-- TIME: the servo state ACQUIRE with profiles 1 and 2, ring time in node mode. -/
def loadTime (s : State) : State :=
  onTime (fun t => { t with
    profile := startProfile s, servo := (match startProfile s with | 0 => 0 | 3 => 5 | _ => 1),
    cover := coverOf s, vmode := s.image.vmode, vrec := vrecStart s }) s

/-- The regulator at start: on PMBus its VOUT_MODE is read (R83). -/
def loadVreg (s : State) : State := if s.image.vmode = 2 then vregSend [(0x20, false)] s else s

/-- The node number of this device on ring r: the personality's in a pair (R424). -/
def ownNode (s : State) (r : Nat) : Nat :=
  if s.pair.cfg then nth (if s.pair.pid then s.image.pairCfg.nodeB else s.image.pairCfg.nodeA) r
  else (ringCfg s r).node

/-- The addresses of this device on plant network n: the personality's in a pair (R379, R424). -/
def ownNet (s : State) (n : Nat) : NetCfg :=
  let c := nth s.image.nets n
  if s.pair.cfg then
    let p := nth (if s.pair.pid then s.image.pairCfg.netsB else s.image.pairCfg.netsA) n
    { c with mac := p.mac, ip4 := p.ip4, ip6 := p.ip6 }
  else c

/-- Its rank. -/
def ownRank (s : State) (r : Nat) : Nat :=
  if s.pair.cfg then (if s.pair.pid then s.image.pairCfg.rankB else s.image.pairCfg.rankA) else (ringCfg s r).rank

/-- Ring r before it is formed: its role, node number and rank; ports that are up stay up. -/
def loadRingR (s : State) (r : Nat) : RingSt :=
  let x := ringSt s r
  let n : RingSt := {}
  { n with
    role := (if r < maxRings s.fuse.variant then (ringCfg s r).role else 0), node := ownNode s r, rank := ownRank s r,
    master := ownNode s r, txStopped := hasBit (regSt s .ring).quar r, ports := x.ports.map (fun p => { up := p.up }),
    heardAt := s.time.tb }

/-- RING. -/
def loadRing (s : State) : State := { s with ring := (List.range 2).map (loadRingR s) }

/-- AXIO: counts, offsets and set-up at 0; polarity and width of the compare unit from the image; a retired channel stays so. -/
def loadChan (s : State) (c : Nat) : ChanSt :=
  let n : ChanSt := {}
  let k := chanCfg s c
  let gone := (chSt s c).retired
  { n with dirie := k.dirie, pol := k.cmpPol, width := k.cmpWidth, retired := gone, fbNull := gone }

/-- AXIO. -/
def loadAxio (s : State) : State := { s with axio := (List.range 32).map (loadChan s) }

/-- The record of slice b.sl of the image, an unused one where it has none. -/
def sliceCfgAt (s : State) (b sl : Nat) : SliceCfg :=
  (s.image.slices.find? (fun c => c.b == b && c.s == sl)).getD { b := b, s := sl }

/-- Slice b.sl: data memory and shifts of the image; a retired one stays so. -/
def loadSlice (s : State) (b sl : Nat) : SliceSt :=
  let c := sliceCfgAt s b sl
  let n : SliceSt := {}
  let gone := (regSt s .mot).retired.contains (16 * b + sl)
  { n with
    b := b, s := sl, present := true, ax0 := c.ax0, ax1 := c.ax1, esh := [c.esh0, c.esh1], vsh := [c.vsh0, c.vsh1],
    ash := [c.ash0, c.ash1], osh := [c.osh0, c.osh1], dmem := imageDmem s b sl,
    run := if gone then .retired
      else if (regSt s .mot).faulted.contains (16 * b + sl) || hasBit (regSt s .mot).quar b then .stopped else .idle }

/-- The slices of the part; none in node mode (R150). -/
def loadSlices (s : State) : List SliceSt :=
  if nodeMode s then []
  else ((List.range (motBlocks s.fuse.variant)).map (fun b => (List.range 9).map (loadSlice s b))).flatten

/-- A spare in service stays so with the slot of the slice it serves; a failed spare stays failed. -/
def loadSpare (s : State) (b : Nat) : SpareSt :=
  let x := nth s.mot.spares b
  let n : SpareSt := {}
  { n with spst := x.spst, spfor := x.spfor, failed := x.failed, shadow := (List.range 8).map (imageDmem s b) }

/-- A spare in service takes the image's memory and axes of its slice. -/
def loadServing (s : State) (x : SliceSt) : SliceSt :=
  if x.s = 8 && (nth s.mot.spares x.b).spst = 1 then
    let y := loadSlice s x.b (nth s.mot.spares x.b).spfor
    { x with ax0 := y.ax0, ax1 := y.ax1, esh := y.esh, vsh := y.vsh, ash := y.ash, osh := y.osh, dmem := y.dmem }
  else x

/-- A group before its first enable: override of the image; a group with TSRC 0 or 1 passes the tool check (R350). -/
def loadGroup (s : State) (g : Nat) : GroupSt :=
  let n : GroupSt := {}
  { n with ovr := (grpCfg s g).ovr, toolOk := (grpCfg s g).defined && (grpCfg s g).tsrc ≤ 1,
           frozenPoses := hasBit (regSt s .mot).quar (8 + (grpCfg s g).kdeb) }

/-- An axis before its first feedback; the axes of a quarantined block stay without their slices. -/
def loadAxis (s : State) (a : Nat) : AxisSt :=
  let n : AxisSt := {}
  { n with sliceBad := (match sliceOfAxis s a with | some c => hasBit (regSt s .mot).quar c.b | none => false) }

/-- MOT: pipelines and spares keep their losses. -/
def loadMot (s : State) : State :=
  let sp := (List.range 8).map (loadSpare s)
  let sl := (loadSlices s).map (loadServing s)
  let n : MotSt := {}
  { s with mot := { n with
      axes := (List.range 128).map (loadAxis s), groups := (List.range 16).map (loadGroup s), slices := sl, spares := sp, kdeLive := s.mot.kdeLive } }

/-- A problem with its initial values; a part of the store that is lost stays so. -/
def loadProb (s : State) (p : Nat) : ProbSt :=
  let c := probCfg s p
  let n : ProbSt := {}
  { n with en := c.en, lane := c.lane, block := c.block, work := imageVals c, pend := imageVals c,
           dead := (probSt s p).dead, lost := (probSt s p).dead }

/-- SOL: lanes keep their losses. -/
def loadSol (s : State) : State :=
  let n : SolSt := {}
  { s with sol := { n with probs := (List.range 256).map (loadProb s), live := s.sol.live, unitLost := s.sol.unitLost } }

/-- TRL: priorities of the image; pipes keep their losses. -/
def loadTrl (s : State) : State :=
  let n : TrlSt := {}
  let g (i : Nat) : TrlGroup := let m : TrlGroup := {}; { m with zpri := (grpCfg s i).zpri }
  { s with trl := { n with g := (List.range 16).map g, live := s.trl.live } }

/-- A flow: enabled as the image says. -/
def loadFlow (s : State) (f : Nat) : FlowSt := let n : FlowSt := {}; { n with en := (flowCfg s f).en && (flowCfg s f).type != 0 }

/-- A core: the firmware program in its IMEM and its own DMEM, from the image (R353). -/
def loadCore (s : State) (c : Nat) : CoreSt :=
  let n : CoreSt := {}
  { n with fault := (nth s.host.cores c).fault, imem := memWrites [] 0 s.image.fwImem,
           dmem := memWrites [] 0 (nth s.image.fwDmem c) }

/-- HOST: the command history, the run nonce, links and lost cores stay. -/
def loadHost (s : State) : State :=
  let h := s.host
  let n : HostSt := {}
  { s with host := { n with
      flows := (List.range 1024).map (loadFlow s), live := h.live, keys := h.keys, nonce := h.nonce, cryptoFault := h.cryptoFault,
      vq := h.vq, vwaits := h.vwaits, held := h.held, replies := h.replies, waits := h.waits, flash := h.flash,
      cores := (List.range 8).map (loadCore s),
      ports := h.ports.map (fun p => { ({} : PortSt) with up := p.up, bad := p.bad }) } }

/-- The confirmation copy that decides (R331): valid CRC, the higher COUNT. -/
def confBest (s : State) : Option ConfRec :=
  s.conf.foldl (fun o c => if !c.crcOk then o else match o with
    | some d => if d.count < c.count then some c else o
    | none => some c) none

/-- SAF: the check value and the match of the commissioning record (R331); never on a part with OPENED set (R485). -/
def loadSaf (s : State) : State :=
  let v := checkValue s.image
  let c := confBest s
  onSaf (fun f => { f with
    rx := f.rx.map (fun x => { x with validA := s.time.tb, validB := s.time.tb }), check := v, present := c.isSome, confCount := (match c with | some d => d.count | none => 0),
    match_ := !s.fuse.opened && (match c with | some d => d.check == v && d.serial == s.fuse.serial | none => false) }) s

/-- Every region loaded (step 6). [DESIGN CHOICE, log 104] -/
def loadAll (s : State) : State :=
  loadSaf (loadHost (loadTrl (loadSol (loadMot (loadAxio (loadRing (loadVreg (loadTime (loadChip s)))))))))

/-- Reload one region (R415). -/
def loadRegion (r : Region) (s : State) : State :=
  match r with
  | .ring => loadRing s
  | .axio => loadAxio s
  | .mot => loadMot s
  | .sol => loadSol s
  | .trl => loadTrl s
  | .host => loadHost s
  | _ => s

/-! ### The flash areas of the device -/

/-- DMA address of the copy of the flash areas (R482). -/
def areaBase : Nat := 0x1FFE00000

/-- The 64 bytes of a confirmation copy (R331). [DEDUCED, log 86] -/
def confBytes (c : ConfRec) : List Byte :=
  let b := leBytes 4 c.check.toNat ++ leBytes 8 c.digest ++ leBytes 8 c.serial.toNat ++ leBytes 8 (c.tb / 1000000000) ++
    leBytes 4 (c.tb % 1000000000) ++ leBytes 4 c.count ++ leBytes 1 c.key ++ List.replicate 23 0
  b ++ leBytes 4 (crc32c b).toNat

/-- Write copy i of the confirmation area. -/
def confToMem (m : List Host.Cell) (i : Nat) (c : ConfRec) : List Host.Cell :=
  if c.crcOk then memWrites m (areaBase + 65536 * i) (confBytes c) else m

/-- The bytes of a black-box record. -/
def bbBytes (r : BbRec) : List Byte := bbBody r.trigger r.code r.detail r.rseq r.num r.head r.entries r.words

/-- Write a black-box record at its position. [DESIGN CHOICE, log 22] -/
def bbToMem (m : List Host.Cell) (p : Nat) (r : BbRec) : List Host.Cell :=
  memWrites m (areaBase + 131072 + 4096 * p) (bbBytes r)

/-- Step 6: both areas are copied in their flash layout (R482). -/
def copyAreas (s : State) : State :=
  let m := s.mem.filter (fun c => c.1 < areaBase || 0x200000000 ≤ c.1)
  let m := confToMem (confToMem m 0 (nth s.conf 0)) 1 (nth s.conf 1)
  { s with mem := s.chip.bbDone.foldl (fun m p => bbToMem m p.1 p.2) m }

/-- RSEQ of the newest valid record. -/
def newestRseq (s : State) : Nat := s.chip.bbDone.foldl (fun n p => max n p.2.rseq) 0

/-- When the write position reaches the last record of a sector, the next sector is erased (R421). [DESIGN CHOICE, log 22; DEDUCED, log 23] -/
def bbAdvance (c : ChipSt) : ChipSt :=
  let p := (c.bbPos + 1) % 480
  if p % 16 = 15 then
    let sec := (p / 16 + 1) % 30
    { c with bbPos := p, bbErase := satAdd 0xFFFF c.bbErase 1, bbDone := c.bbDone.filter (fun x => x.1 / 16 != sec) }
  else { c with bbPos := p }

/-- BLACKBOX_PROGRAMMED (R421, R481): the waiting record stands in the area and in the copy; a failure raises CHIP_NVM_FAIL. [DESIGN CHOICE, log 22] -/
def blackboxProgrammed (ok : Bool) (s : State) : State :=
  match s.chip.bbWait with
  | [] => s
  | r :: q =>
    let p := s.chip.bbPos
    let r := { r with rseq := newestRseq s + 1, num := s.chip.bbRec + 1 }
    let s := onChip (fun c => bbAdvance { c with
      bbWait := q, bbRec := min 16 (c.bbRec + 1), bbDone := if ok then assocPut c.bbDone p r else c.bbDone }) s
    if ok then { s with mem := bbToMem s.mem p r } else event 0x0181 0 s

def execBlackboxProgrammed (ok : Bool) (s : State) : Out := run (blackboxProgrammed ok) s

end Sys2Proof.Machine
end

