-- ==== Sys2Proof/Machine/Start.lean ====
section
/-! DEFINITION. Start.lean: choice of the slot, the start sequence, resets, power states, the chip watchdog, region restarts and
test mode (R401 to R419, R459, R484, R485). -/

namespace Sys2Proof.Machine

/-! ### The slots (R406, R408) -/

/-- The image in slot A or B. -/
def slotImage (s : State) (b : Bool) : Option Image := if b then s.flash.slotB else s.flash.slotA

/-- The images that its profiles make of it. -/
def slotRepl (s : State) (b : Bool) : List (Variant × Image) := if b then s.flash.replB else s.flash.replA

/-- A profile applies: the part is smaller than the variant the image is built for. -/
def profileApplies (v : Variant) (im : Image) : Bool := im.portable && im.tvar < variantCode v

/-- The image that runs: with the profile of the variant applied where it is smaller than TVAR. -/
def appliedImage (s : State) (b : Bool) (im : Image) : Image :=
  if profileApplies s.fuse.variant im then
    match (slotRepl s b).find? (fun p => p.1 == s.fuse.variant) with | some p => p.2 | none => im
  else im

/-- STATE of a slot after its header has been read: blank, refused, or not yet checked. -/
def slotHeader (s : State) (b : Bool) : SlotSt :=
  match slotImage s b with
  | none => {}
  | some im => if headerOk s.flash im then { state := 3 } else { state := 2, reason := 0x0150 }

/-- Set the state of a slot. -/
def onSlot (b : Bool) (x : SlotSt) (s : State) : State :=
  onChip (fun c => if b then { c with slotB := x } else { c with slotA := x }) s

/-- State of a slot. [DESIGN CHOICE, log 103] -/
def slotSt (s : State) (b : Bool) : SlotSt := if b then s.chip.slotB else s.chip.slotA

/-- Read the header of a slot. -/
def readHeader (b : Bool) (s : State) : State :=
  let x := slotHeader s b
  let s := onSlot b x s
  if x.state = 2 then event 0x0150 0 s else s

/-- IMGSEQ of a slot. -/
def slotSeq (s : State) (b : Bool) : Nat := match slotImage s b with | some im => im.imgSeq | none => 0

/-- Candidates in the order of their full checks: the higher IMGSEQ first, slot A when equal. -/
def candidates (s : State) : List Bool :=
  let l := if slotSeq s false < slotSeq s true then [true, false] else [false, true]
  l.filter (fun b => (slotSt s b).state = 3)

/-- Check candidates in full until one is valid; `vio` is what step 1 measured. -/
def checkSlots (vio : List Bool) : List Bool → State → Option Bool × State
  | [], s => (none, s)
  | b :: r, s =>
    match slotImage s b with
    | none => checkSlots vio r s
    | some im =>
      let re := imageReason s.fuse.variant s.fuse.keyDigest vio im (appliedImage s b im)
      if re = 0 then (some b, onSlot b { state := 1 } s)
      else checkSlots vio r (event re 0 (onSlot b { state := 2, reason := re } s))

/-! ### The start sequence (R409) -/

/-- No valid slot (R407): NOIMAGE until a reset. [DESIGN CHOICE, log 103] -/
def enterNoImage (s : State) : State :=
  bbTrigger 5 0 (event 0x0156 0 (onChip (fun c => { c with phase := .noImage }) s))

/-- A pair runs on the VRL-6128, outside node mode, with an image that has its section (R423). -/
def pairCfgOf (v : Variant) (im : Image) : Bool := im.pair && v == .v6128 && !((nth im.rings 0).role == 3)

/-- Take the image of the chosen slot; CHIP_SLOT_FALLBACK when the other slot was refused. -/
def takeImage (b pairId : Bool) (s : State) : State :=
  match slotImage s b with
  | none => s
  | some im =>
    let re := appliedImage s b im
    let cfg := pairCfgOf s.fuse.variant re
    let back := (slotSt s (!b)).state = 2
    let s := { s with image := re, pair := { s.pair with cfg := cfg, pid := cfg && pairId } }
    let s := onChip (fun c => { c with
      slot := b, fallback := back, first := s.fuse.keyDigest.isNone, profile := profileApplies s.fuse.variant im }) s
    if back then event 0x0157 0 s else s

/-- Retire a slice that failed its self-test before the ring starts: there is no tick to wait for. [DESIGN CHOICE, log 45] -/
def selfTestFailure (f : Region × Nat × Nat) (s : State) : State :=
  let s := sliceFault f.1 f.2.1 f.2.2 4 s
  if f.1 == .mot && f.2.1 < 8 then spareTakeover f.2.1 s else retireEdge s

/-- The event of a self-test failure that escalated: the newest entry but CHIP_REGION_ESC. [DESIGN CHOICE, log 45] -/
def escalatingEvent (s : State) : Nat :=
  match (newestEntries s 512).reverse.find? (fun e => e.code != 0x01E4) with | some e => e.code | none => 0x01E4

/-- Step 7: the failures of the self-tests are contained; an escalation leaves the device in NOIMAGE with its event as REASON. [DESIGN CHOICE, log 45] -/
def selfTests (failed : List (Region × Nat × Nat)) (s : State) : State :=
  let s := forAll failed selfTestFailure s
  if s.chip.escalated then
    enterNoImage (onSlot s.chip.slot { state := 2, reason := escalatingEvent s } s)
  else s

/-- A master-capable role on some ring (R411). -/
def masterCapable (s : State) : Bool := s.ring.any (fun x => x.role == 1 || x.role == 2)

/-- Step 8 waits for time lock. -/
def waitsForLock (s : State) : Bool :=
  (s.time.profile == 1 || s.time.profile == 2) && s.image.tlockwait != 0 && masterCapable s && s.time.servo != 2

/-- Step 9: every ring in use listens. -/
def startRings (s : State) : State :=
  { (onChip (fun c => { c with phase := .ringStart }) s) with
    ring := s.ring.map (fun x => if x.role != 0 then { x with state := .listen, heardAt := s.time.tb } else x) }

/-- Step 8. -/
def enterStep8 (s : State) : State :=
  if waitsForLock s then onChip (fun c => { c with phase := .tlockWait }) s else startRings s

/-- A flash that the device supports (R401): 16 MiB to 256 MiB, with octal DDR. -/
def flashOk (f : Flash) : Bool := 16777216 ≤ f.size && f.size ≤ 268435456 && f.octal

/-- Steps 3 to 8 on the flash as it stands. -/
def startFrom (pairId : Bool) (failed : List (Region × Nat × Nat)) (vio : List Bool) (s : State) : State :=
  if !flashOk s.flash then enterNoImage (event 0x0181 0 s)
  else
    let s := readHeader true (readHeader false s)
    match checkSlots vio (candidates s) s with
    | (none, s) => enterNoImage s
    | (some b, s) =>
      let s := selfTests failed (copyAreas (loadAll (takeImage b pairId s)))
      if s.chip.phase == .noImage then s else enterStep8 s

/-- START_SEQUENCE (R409): reset is released, with the strap, the failures of the self-tests and the measured VIO banks. [DEDUCED, log 7; DEDUCED, log 105] -/
def startSequence (pairId : Bool) (failed : List (Region × Nat × Nat)) (vio : List Bool) (s : State) : State :=
  if s.chip.phase == .reset then startFrom pairId failed vio s else s

/-- The wait for time lock ends as soon as TIME reports locked. -/
def lockReached (s : State) : State :=
  if s.chip.phase == .tlockWait && s.time.servo == 2 then startRings s else s

/-- TLOCKWAIT_EXPIRY (R411). [DESIGN CHOICE, log 106] -/
def tlockwaitExpiry (s : State) : State :=
  if s.chip.phase == .tlockWait then event 0x0160 0 (startRings s) else s

/-! ### Resets (R412, R419, R459) -/

/-- What a device-wide reset of a kind keeps: 1 power-on, 2 external, 3 chip watchdog, 4 command. Everything else takes its
value of `State.reset`. TB is lost at power-on and after a stop of the time base. [DEDUCED, log 21; DEDUCED, log 105] -/
def resetTo (kind : Nat) (flash : Option Flash) (s : State) : State :=
  let pw := kind = 1
  let lost := pw || s.time.stopped
  let z := State.reset
  { z with
    pending := s.pending, fuse := s.fuse, flash := flash.getD s.flash, conf := s.conf, free := s.free,
    mem := if pw then [] else s.mem.filter (fun c => c.1 < 0x8000000000),
    time := { z.time with tb := if lost then 0 else s.time.tb, tbFr := if lost then 0 else s.time.tbFr },
    recd := if pw then {} else { z.recd with recs := s.recd.recs, wofs := s.recd.wofs, ckpts := s.recd.ckpts },
    pair := { z.pair with pvote := s.pair.pvote, linkUp := s.pair.linkUp },
    chip := { z.chip with
      rstKind := kind, rstCount := (if pw then 0 else satAdd 0xFFFF s.chip.rstCount 1),
      bbDone := s.chip.bbDone, bbPos := s.chip.bbPos, bbErase := if pw then 0 else s.chip.bbErase,
      escReset := !pw && (kind = 3 || s.chip.escalated) } }

/-- POWER_ON_RESET and EXTERNAL_RESET: the flash can be programmed while reset is held (R401). [DEDUCED, log 7] -/
def powerOnReset (flash : Option Flash) (s : State) : State := resetTo 1 flash s

/-- EXTERNAL_RESET. [DEDUCED, log 7] -/
def externalReset (flash : Option Flash) (s : State) : State := resetTo 2 flash s

/-- A commanded reset still waits: for its reply to leave every port, in a pair for the INPUT frame with RST (R440). -/
def resetWaits (s : State) (key seq : Nat) : Bool :=
  match s.pair.role with
  | 1 => !s.pair.rstSent
  | 2 => !s.pair.rst
  | _ => replyWaiting s key seq

/-- RESET_BEGIN (R396): the reply has left, or 20 ms have passed. -/
def resetBegin (s : State) : State :=
  match s.chip.resetPending with
  | none => s
  | some (t, key, seq) => if resetWaits s key seq && s.time.tb < t + 20000000 then s else resetTo 4 none s

/-! ### The chip watchdog (R413) -/

/-- The watchdog runs from the end of step 6 with WDT above 0. [DESIGN CHOICE, log 106] -/
def wdogRuns (s : State) : Bool :=
  s.image.wdt != 0 && (s.chip.phase == .tlockWait || s.chip.phase == .ringStart || s.chip.phase == .running)

/-- WDOG_KICK: in turn it restarts the period; out of turn it counts as a missed kick. -/
def wdogKick (v : BitVec 8) (s : State) : State :=
  acked (if wdogRuns s && v == s.chip.wdogNext then
    onChip (fun c => { c with wdogNext := ~~~ v, wdogLeft := s.image.wdt }) s else s)

/-- WDOG_EXPIRY: CHIP_WDOG, a black-box record, escalation to chip level. [DESIGN CHOICE, log 106] -/
def wdogExpiry (s : State) : State :=
  if !wdogRuns s || s.chip.wdogExpired then s
  else
    let s := onChip (fun c => { c with wdogExpired := true, wdogAt := s.time.tb, wdogLeft := 0 }) s
    escalate .chip (bbTrigger 3 0 (latchA (defined s) 16 0x0170 (event 0x0170 0 s)))

/-- WDOG_RESET: every group DISABLED or in Cloche at an E0, or 60 s of TB have passed since the expiry. [DESIGN CHOICE, log 106] -/
def wdogReset (s : State) : State :=
  if s.chip.wdogExpired && (allStopped s (defined s) || s.chip.wdogAt + 60000000000 ≤ s.time.tb) then resetTo 3 none s else s

/-! ### Power states (R416 to R418) -/

/-- Stop what PARK and DOZE stop: MOT, SOL and TRL; work in progress ends without a result. -/
def stopForPark (s : State) : State :=
  { s with
    sol := { s.sol with probs := s.sol.probs.map (fun x => { x with job := .none, due := false }) }
    trl := { s.trl with pairs := [], batches := [] }
    mot := { s.mot with slices := s.mot.slices.map (fun x => if x.run = .retired || x.run = .stopped then x else { x with run := .idle }) } }

/-- Enter PARK. -/
def enterPark (s : State) : State := stopForPark (onChip (fun c => { c with pstate := .park, pstateNext := none }) s)

/-- Enter DOZE: the rings are down, zone holds are released, motion queues flushed. -/
def enterDoze (s : State) : State :=
  let s := stopForPark (onChip (fun c => { c with pstate := .doze, pstateNext := none }) s)
  { s with
    ring := s.ring.map (fun x => { x with state := .down, sentBeacon := none, tx := [] })
    trl := { s.trl with
      zones := s.trl.zones.map (fun z => { z with holder := none, parked := [], fresh := [] })
      g := s.trl.g.map (fun g => { g with held := [], defer := [], wait := none }) }
    mot := { s.mot with groups := s.mot.groups.map (fun g => { g with queue := [] }) } }

/-- Rings are formed again with the kept TSTART and the running TICKNO (R418): LISTEN, and members join anew. -/
def reformRing (s : State) (r : Nat) : RingSt :=
  let x := loadRingR s r
  if x.role = 0 || x.txStopped then x else { x with state := .listen }

/-- Every ring is formed again. [DESIGN CHOICE, log 56] -/
def reformRings (s : State) : State := { s with ring := (List.range 2).map (reformRing s) }

/-- Return to RUN: slices start with FIRST set, solver problems start cold, a checkpoint is taken; after DOZE the rings are
formed again. [DESIGN CHOICE, log 56] -/
def enterRun (s : State) : State :=
  let doze := s.chip.pstate == .doze
  let s := onChip (fun c => { c with pstate := .run, pstateNext := none }) s
  let s := { s with
    mot := { s.mot with slices := s.mot.slices.map (fun x => { x with first := true, sawEnd := false, firstAx := [true, true] }) }
    sol := { s.sol with probs := s.sol.probs.map (fun x => { x with warm := none, factor := false }) } }
  let s := if doze then reformRings s else s
  takeCheckpoint s

/-- The change of power state that a command of the tick before asked for. -/
def powerEdge (s : State) : State :=
  match s.chip.pstateNext with
  | some .park => enterPark s
  | some .doze => enterDoze s
  | some .run => enterRun s
  | _ => s

/-! ### Region restarts (R415) -/

/-- A region that a request may restart. [DESIGN CHOICE, log 47] -/
def restartable (s : State) (id : Nat) (signed : Bool) : Bool :=
  match Region.ofId id with
  | some r =>
    r != .time && r != .saf && r != .chip && (signed || r != .host) && rstate s r != 4 && !(regSt s r).escalated &&
      allStopped s (dependsOn s r)
  | none => false

/-- A Prune of the region runs or waits. -/
def pruneOfRegion (s : State) (id : Nat) : Bool := s.chip.prunes.any (fun p => p.kind == 7 && p.region == id && p.result == 0)

/-- Start the restart at the head of the list unless it waits for a Prune of its region. -/
def startRestart (s : State) : State :=
  match s.chip.rrst with
  | [] => s
  | (id, _) :: _ =>
    match Region.ofId id with
    | some r =>
      if pruneOfRegion s id || (regSt s r).restarting then s
      else
        let s := if (regSt s r).pruned then s else stopRegion r s
        onRegion r (fun x => { x with restarting := true }) s
    | none => s

/-- A restart that passes its checks takes its place; it runs at once when none does. [DESIGN CHOICE, log 47] -/
def requestRestart (id : Nat) (o : Option Origin) (s : State) : State :=
  let s := onChip (fun c => { c with rrst := c.rrst ++ [(id, o)], rrstRefused := false }) s
  if s.chip.rrst.length = 1 then startRestart s else s

/-- REGION_RESTART (R415): a write of RRST.GO. [DESIGN CHOICE, log 47] -/
def regionRestart (id : Nat) (s : State) : State :=
  acked (if restartable s id false then requestRestart id none s
    else event 0x0173 0 (onChip (fun c => { c with rrstRefused := true }) s))

/-- What follows the reload: the rings of RING are formed again; a stopped slice of MOT runs from the next E0. -/
def afterReload (r : Region) (s : State) : State := if r == .ring then reformRings s else s

/-- REGION_RESTART_DONE: the region is reloaded and runs; the next restart starts. -/
def regionRestartDone (s : State) : State :=
  match s.chip.rrst with
  | [] => s
  | (id, _) :: q =>
    match Region.ofId id with
    | some r =>
      if !(regSt s r).restarting then s
      else
        let s := afterReload r (loadRegion r s)
        let s := onRegion r (fun x => { x with restarting := false, pruned := false }) s
        startRestart (event 0x0172 0 (onChip (fun c => { c with rrst := q, rrstRefused := false }) s))
    | none => s

/-! ### Test mode (R484, R485) -/

/-- TEST_MODE_ENTRY: only in the test-access sequence at power-on, with a valid token; the OPENED fuse is blown. -/
def testModeEntry (ok : Bool) (s : State) : State :=
  if s.chip.phase == .reset && s.chip.rstKind = 1 && ok then
    { (onChip (fun c => { c with testMode := true }) s) with fuse := { s.fuse with opened := true } }
  else s

def execStartSequence (pairId : Bool) (failed : List (Region × Nat × Nat)) (vio : List Bool) (s : State) : Out :=
  run (startSequence pairId failed vio) s
def execTlockwaitExpiry (s : State) : Out := run tlockwaitExpiry s
def execPowerOnReset (flash : Option Flash) (s : State) : Out := run (powerOnReset flash) s
def execExternalReset (flash : Option Flash) (s : State) : Out := run (externalReset flash) s
/-- SUPPLY_MONITOR_RESET (R459): a power-on reset is held. -/
def execSupplyMonitorReset (s : State) : Out := run (resetTo 1 none) s
def execResetBegin (s : State) : Out := run resetBegin s
/-- PRUNE_COMPLETE: a restart that waited for the Prune of its region starts. -/
def execPruneComplete (signed : Bool) (elapsed : Nat) (bound : Bool) (s : State) : Out :=
  run (fun s => startRestart (pruneComplete signed elapsed bound s)) s
/-- SYNC_RECEIVED: a start that waits for time lock goes on once it is reached (R411). -/
def execSyncReceived (domB : Bool) (time : Nat) (rate : Int) (at_ : Nat) (s : State) : Out :=
  run (fun s => lockReached (syncReceived domB time rate at_ s)) s
def execWdogKick (v : BitVec 8) (s : State) : Out := run (wdogKick v) s
def execWdogExpiry (s : State) : Out := run wdogExpiry s
def execWdogReset (s : State) : Out := run wdogReset s
def execRegionRestart (region : Nat) (s : State) : Out := run (regionRestart region) s
def execRegionRestartDone (s : State) : Out := run regionRestartDone s
def execTestModeEntry (tokenOk : Bool) (s : State) : Out := run (testModeEntry tokenOk) s

end Sys2Proof.Machine
end

