-- ==== Sys2Proof/Machine/Commands.lean ====
section
/-! DEFINITION. Commands.lean: signed commands (R381 to R400): arrival, verification, holding, release, and the effect of every
opcode. -/

namespace Sys2Proof.Machine

/-! ### Stage 1 (R383 to R386) -/

/-- Whether a role may send an opcode with these body values (R393). -/
def roleAllows (r : KeyRole) (b : CmdBody) : Bool :=
  let o := r == .operator
  let e := r == .engineering
  let f := r == .safety
  let m := r == .maintenance
  match b with
  | .query | .stop _ => o || e || f || m
  | .segment _ _ | .flush _ | .halt _ | .resume _ | .enable _ | .disable _ | .override _ _ | .zoneRelease _ _
  | .flowmsg _ _ | .trigger _ _ => o || e
  | .mode k => if k = 2 then e else o || e
  | .sliceParam _ _ _ => e
  | .ack _ => o || f
  | .confirm _ => f
  | .mailbox _ _ => o || e || m
  | .home _ | .prune _ _ _ | .read _ _ | .switchback => e || m
  | .imageErase _ _ | .imageWrite _ _ | .reset _ => m
  | .unknown _ => false

/-- Opcodes that allow RELTICK 0. -/
def allowsNow (b : CmdBody) : Bool :=
  match b with
  | .query | .halt _ | .stop _ | .mailbox _ _ | .prune _ _ _ | .imageErase _ _ | .imageWrite _ _ | .read _ _ => true
  | _ => false

/-- Role of a key slot. -/
def keyRole (s : State) (k : Nat) : KeyRole := (nth s.image.keys k).role

/-- Intake queue of a key's role, Q24 to Q27 (R372). [DEDUCED, log 95] -/
def intakeQ (s : State) (k : Nat) : Nat := 23 + roleCode (keyRole s k)

/-- Commands held in the intake queue of a key's role. [DEDUCED, log 95] -/
def intakeCount (s : State) (k : Nat) : Nat := (s.host.held.filter (fun h => intakeQ s h.d.key = intakeQ s k)).length

/-- An opcode the device knows. -/
def knownOpcode : CmdBody → Bool | .unknown _ => false | _ => true

/-- The duplicate stage has an entry of this SEQ; the pendant port has no such stage. -/
def dupEntry (s : State) (net : Net) (d : Datagram) : Option HistEnt :=
  if net == .pendant then none else histOf s d.key d.seq

/-- The checks of stage 1 after the duplicate stage: code and DETAIL of the first that fails. -/
def stage1 (s : State) (d : Datagram) : Option (Nat × Nat) :=
  let r := keyRole s d.key
  let last := (keySt s d.key).last
  if !roleAllows r d.body then some (6, roleCode r)
  else if d.cellId != s.image.cellId then some (7, 1)
  else if d.body != .query && (s.host.nonce = 0 || d.nonce != s.host.nonce) then some (7, 2)
  else if d.seq ≤ last then some (4, last % 65536)
  else if s.time.tickno + 2 ^ 22 < d.relTick then some (9, 0)
  else if s.host.cryptoFault || 16 ≤ s.host.vq.length || 256 ≤ intakeCount s d.key then some (8, intakeQ s d.key)
  else none

/-- The reply address of a datagram. -/
def originOf (net : Net) (d : Datagram) (rel : Nat) : Origin :=
  { key := d.key, seq := d.seq, net := net, digest := d.digest, relTick := rel }

/-- A copy of a command in the history (R384): discarded while undecided, else the stored reply is sent again. -/
def duplicate (net : Net) (d : Datagram) (h : HistEnt) (s : State) : State :=
  let s := onHost (fun x => { x with dupcnt := satAdd 0xFFFF x.dupcnt 1 }) s
  if h.decided then
    match h.reply with | some r => if repliesOut s then sendReplyOn r net s else s | none => s
  else onKey d.key (fun k => { k with hist := k.hist.map (fun e =>
    if e.seq = d.seq ∧ e.digest = d.digest then { e with nets := (e.nets ++ [net]).dedup } else e) }) s

/-- A command passes stage 1: into the history of its key and the verification queue; the active of a pair forwards it (R430). -/
def passStage1 (net : Net) (d : Datagram) (now : Nat) (s : State) : State :=
  let s := onKey d.key (fun k => { k with hist := keepLast 64 k.hist { seq := d.seq, digest := d.digest, nets := [net] } }) s
  let s := if s.pair.role == 1 then onPair (fun p => { p with forwarded := p.forwarded ++ [(d.key, d.seq)] }) s else s
  onHost (fun h => { h with vq := h.vq ++ [{ d := d, net := net, at_ := now }] }) s

/-- Commands reach the device from the end of step 6 on; NOIMAGE receives none (R407). -/
def takesCommands (s : State) : Bool :=
  s.chip.phase == .tlockWait || s.chip.phase == .ringStart || s.chip.phase == .running

/-- COMMAND_DATAGRAM: stage 1 (R383). -/
def commandDatagram (net : Net) (d : Datagram) (now : Nat) (s : State) : State :=
  let o := originOf net d 0
  if !takesCommands s then s
  else if d.vers != 1 || !d.lenOk || !d.reservedOk then refuseLimited o 1 d.badOfs now s
  else if !knownOpcode d.body then refuseLimited o 10 0 now s
  else if keyRole s d.key == .empty then refuseLimited o 2 0 now s
  else
    match dupEntry s net d with
    | some h =>
      if h.digest = d.digest then duplicate net d h s
      else refuseLimited o 4 ((keySt s d.key).last % 65536) now s
    | none =>
      match stage1 s d with
      | some (c, x) => refuseLimited o c x now s
      | none => passStage1 net d now s

/-! ### Stage 2 (R383, R387, R430) -/

/-- Tick whose E0 is the first after an instant. -/
def nextTickAt (s : State) (now : Nat) : Nat := (now - s.time.tstart) / periodNs s + 1

/-- First tick whose INPUT frame, sent at 0.1 µs, can still list a command verified at an instant. [DEDUCED, log 101] -/
def frameTick (s : State) (now : Nat) : Nat :=
  let n := (now - s.time.tstart) / periodNs s
  if now ≤ s.time.tstart + n * periodNs s + 100 then n else n + 1

/-- The release tick of a verified command; none when it is too late or RELTICK 0 is not allowed. The active of a pair must have
listed it one tick before (R430). [DEDUCED, log 101] -/
def releaseTick (s : State) (d : Datagram) (now : Nat) : Option Nat :=
  let act := s.pair.role == 1
  if d.relTick = 0 then
    (if allowsNow d.body then some (if act then frameTick s now + 1 else nextTickAt s now) else none)
  else if (if act then frameTick s now + 1 ≤ d.relTick else nextTickAt s now ≤ d.relTick) then some d.relTick
  else none

/-- Commands held for a tick. -/
def heldFor (s : State) (n : Nat) : Nat := (s.host.held.filter (fun h => h.rel == n)).length

/-- The reply to QUERY (R394). -/
def queryBody (s : State) : List Byte :=
  let t := s.time
  leBytes 8 s.host.nonce ++ leBytes 8 (if t.run then t.tstart / 1000000000 else 0) ++
  leBytes 4 (if t.run then t.tstart % 1000000000 else 0) ++ leBytes 8 t.tickno ++
  leBytes 1 s.image.k ++ leBytes 1 s.saf.mode ++ [0, 0] ++
  (((List.range 8).map (fun k => leBytes 8 (keySt s k).last)).flatten) ++ leBytes 8 s.fuse.serial.toNat ++
  (((List.range 16).map (fun i => leBytes 4 (nth s.fuse.devPub i).toNat)).flatten) ++
  leBytes 32 s.image.digest ++ leBytes 4 s.saf.check.toNat ++ [0, 0, 0, 0]

/-- A refusal of stage 2; code 3 is answered at the rate of R391, the others always. -/
def refuse2 (c : HeldCmd) (code detail now : Nat) (s : State) : State :=
  let o := originOf c.net c.d 0
  if code = 3 then refuseLimited o 3 0 now s else replyNow o code detail [] s

/-- A verified command is held for its release; before ring start QUERY is answered at once. -/
def holdCommand (c : HeldCmd) (now : Nat) (s : State) : State :=
  if !s.time.run then replyNow (originOf c.net c.d 0) 0 0 (queryBody s) s
  else
    match releaseTick s c.d now with
    | none => refuse2 c 5 0 now s
    | some n =>
      if s.pair.role == 1 && 32 ≤ heldFor s n then refuse2 c 8 (intakeQ s c.d.key) now s
      else onHost (fun h => { h with held := h.held ++ [{ c with rel := n }] }) s

/-- VERIFICATION_DONE: the head of the verification queue (R383, R388). -/
def verificationDone (now : Nat) (s : State) : State :=
  match s.host.vq with
  | [] => s
  | c :: q =>
    let s := onHost (fun h => { h with vq := q, vwaits := keepLast 64 h.vwaits (now, now - c.at_) }) s
    let last := (keySt s c.d.key).last
    if !c.d.rsOk || !c.d.sigOk then refuse2 c 3 0 now s
    else if c.d.seq ≤ last then refuse2 c 4 (last % 65536) now s
    else holdCommand c now (onKey c.d.key (fun k => { k with last := c.d.seq }) s)

/-! ### Stage 4: the opcodes (R393, R400) -/

/-- Accepted. -/
def accept (o : Origin) (s : State) : State := replyAt18 o 0 0 [] s

/-- In node mode every opcode but those that R400 leaves is refused with code 12; `r` is the region it is about. [DEDUCED, log 96] -/
def needsCell (o : Origin) (r : Nat) (s : State) (k : State → State) : State :=
  if nodeMode s then replyAt18 o 12 r [] s else k s

/-- A group mask: an absent group is refused with code 12, an undefined one with code 11. [DEDUCED, log 96; DESIGN CHOICE, log 97] -/
def withMask (o : Origin) (m : Mask) (s : State) (k : State → State) : State :=
  needsCell o 5 s (fun s =>
    if (bitsOf m).any (fun g => maxGroups s ≤ g) then replyAt18 o 12 5 [] s
    else if (bitsOf m).any (fun g => !(grpCfg s g).defined) then replyAt18 o 11 0 [] s
    else k s)

/-- A single group. -/
def withGroup (o : Origin) (g : Nat) (s : State) (k : State → State) : State :=
  needsCell o 5 s (fun s =>
    if maxGroups s ≤ g then replyAt18 o 12 5 [] s
    else if !(grpCfg s g).defined then replyAt18 o 11 0 [] s
    else k s)

/-- QUERY. -/
def query (o : Origin) (s : State) : State :=
  if s.time.run then replyAt18 o 0 0 (queryBody s) s else replyNow o 0 0 (queryBody s) s

/-- SEGMENT: all segments enter Qg, or none; code 14 names the first that fails and its REASON. -/
def segmentCmd (o : Origin) (g : Nat) (segs : List Segment) (s : State) : State :=
  withGroup o g s (fun s =>
    if segs.length = 0 || 4 < segs.length then replyAt18 o 11 1 [] s
    else
      let bad := checkSegs s g segs
      let s := enterSegs g segs s
      match bad with
      | some (i, r) => replyAt18 o 14 (256 * i + r) [] s
      | none => accept o s)

/-- FLUSH. -/
def flushCmd (o : Origin) (m : Mask) (s : State) : State :=
  withMask o m s (fun s => accept o (forAll (bitsOf m) flushGroup s))

/-- HALT. -/
def haltCmd (o : Origin) (m : Mask) (s : State) : State :=
  withMask o m s (fun s => accept o (forAll (bitsOf m) haltGroup s))

/-- RESUME: every group HALTED, else none resumes. [DEDUCED, log 114] -/
def resumeCmd (o : Origin) (m : Mask) (s : State) : State :=
  withMask o m s (fun s =>
    if (bitsOf m).all (fun g => (grpSt s g).state == .halted) then accept o (forAll (bitsOf m) resumeGroup s)
    else replyAt18 o 13 1 [] s)

/-- Wait for the decision of 17.0 µs before the reply. -/
def awaitDecision (o : Origin) (op : Nat) (m : Mask) (s : State) : State :=
  onHost (fun h => { h with waits := h.waits ++ [(o, op, m)] }) s

/-- The lowest of the conditions that keep a group of a mask from being enabled; 0 for none. -/
def enableCode (s : State) (gs : List Nat) : Nat :=
  gs.foldl (fun d g => let e := enableRefusal s g; if e = 0 then d else if d = 0 then e else min d e) 0

/-- ENABLE: groups already in motion states 1 to 7 stay; a stop decided in the tick fails the command (R399). [DEDUCED, log 114] -/
def enableCmd (o : Origin) (m : Mask) (s : State) : State :=
  withMask o m s (fun s =>
    let gs := (bitsOf m).filter (fun g => !(grpSt s g).state.live)
    let c := enableCode s gs
    if c != 0 then replyAt18 o 13 c [] s
    else awaitDecision o 0x14 (maskOf 16 (fun g => gs.contains g)) (forAll gs startEnable s))

/-- DISABLE: every group IDLE or HALTED. [DEDUCED, log 114] -/
def disableCmd (o : Origin) (m : Mask) (s : State) : State :=
  withMask o m s (fun s =>
    if (bitsOf m).all (fun g => (grpSt s g).state == .idle || (grpSt s g).state == .halted) then
      accept o (forAll (bitsOf m) disableGroup s)
    else replyAt18 o 13 1 [] s)

/-- OVERRIDE. [DESIGN CHOICE, log 97] -/
def overrideCmd (o : Origin) (m : Mask) (ovr : Nat) (s : State) : State :=
  withMask o m s (fun s =>
    if 32768 < ovr then replyAt18 o 11 4 [] s
    else accept o (forAll (bitsOf m) (fun g => onGrp g (fun x => { x with ovr := ovr })) s))

/-- HOME of an AXIO axis: as a write of GO; DETAIL 6 refused, 7 busy. -/
def homeLocal (o : Origin) (c : Nat) (s : State) : State :=
  if (chSt s c).busy then replyAt18 o 13 7 [] s
  else
    let s := homingStart c s
    if (chSt s c).busy then accept o s else replyAt18 o 13 6 [] s

/-- HOME of a ring axis (R213): DETAIL 8 group not IDLE, 9 absolute. -/
def homeRemote (o : Origin) (a : Nat) (s : State) : State :=
  if (grpSt s (axisCfg s a).group).state != .idle then replyAt18 o 13 8 [] s
  else if (axisCfg s a).abs then replyAt18 o 13 9 [] s
  else accept o (onAxis a (fun x => { x with hgo := some s.time.tickno, hbusy := false }) s)

/-- HOME. -/
def homeCmd (o : Origin) (a : Nat) (s : State) : State :=
  needsCell o 5 s (fun s =>
    if maxAxes s ≤ a then replyAt18 o 12 5 [] s
    else if !(axisCfg s a).defined then replyAt18 o 11 0 [] s
    else match (axisCfg s a).src with
      | .ring _ _ _ => homeRemote o a s
      | _ => match axisChan (axisCfg s a) with
        | some c => homeLocal o c s
        | none => replyAt18 o 13 6 [] s)

/-- ZONE_RELEASE (R292). [DEDUCED, log 96] -/
def zoneReleaseCmd (o : Origin) (g z : Nat) (s : State) : State :=
  needsCell o 7 s (fun s =>
    if s.image.compat then replyAt18 o 12 7 [] s
    else withGroup o g s (fun s =>
      match zoneReleaseCode s g z with
      | 0 => accept o (freeZone g z s)
      | d => replyAt18 o 13 d [] s))

/-- The sixteen parameter words in a slice's data memory (R199). -/
def putParams (m : List (Nat × BitVec 24)) (ws : List (BitVec 24)) : List (Nat × BitVec 24) :=
  (List.range 16).foldl (fun m i => dmemPut m (0xFA0 + i) (nth ws i)) m

/-- SLICE_PARAM: the words of the slice, of its shadow and of a spare that serves for it. [DESIGN CHOICE, log 97] -/
def sliceParamCmd (o : Origin) (b sl : Nat) (ws : List (BitVec 24)) (s : State) : State :=
  needsCell o 5 s (fun s =>
    if 8 ≤ b then replyAt18 o 11 0 [] s
    else if 8 ≤ sl then replyAt18 o 11 1 [] s
    else if motBlocks s.fuse.variant ≤ b then replyAt18 o 12 5 [] s
    else
      let put (x : SliceSt) : SliceSt := { x with dmem := putParams x.dmem ws }
      let s := onSlice b sl put s
      let s := onSpare b (fun p => { p with shadow := updAt p.shadow sl (fun m => putParams m ws) }) s
      let s := if (spareSt s b).spst = 1 && (spareSt s b).spfor = sl then onSlice b 8 put s else s
      accept o s)

/-- STOP: SS1-r with cause 17 (R307); in node mode only an empty mask is taken. -/
def stopCmd (o : Origin) (m : Mask) (s : State) : State :=
  if m = 0 then accept o s else withMask o m s (fun s => accept o (demandStop m 17 s))

/-- ACK: a write of SAF.ACK (R315), decided at 17.0 µs. -/
def ackCmd (o : Origin) (m : Mask) (s : State) : State :=
  withMask o m s (fun s =>
    let s := onSaf (fun f => { f with gack := m }) s
    awaitDecision o 0x21 m (forAll (bitsOf m) (fun g => onSafG g (fun x => { x with ackEdge := true })) s))

/-- MODE (R346): the change is decided at 17.0 µs. -/
def modeCmd (o : Origin) (m : Nat) (s : State) : State :=
  needsCell o 8 s (fun s =>
    if 2 < m then replyAt18 o 11 0 [] s
    else awaitDecision o 0x22 0 (onSaf (fun f => { f with modeReq := f.modeReq ++ [(m, o)] }) s))

/-- The enabling device has been in its middle position at every E0 of the last second (R332). -/
def enabledSecond (s : State) : Bool :=
  s.saf.enabSince != 0 && 1000000000 ≤ (s.time.tickno + 1 - s.saf.enabSince) * periodNs s

/-- Why a confirmation is refused (R332, R485): 1 value, 2 enabling device, 3 groups or pendant, 4 a part with OPENED set; 0 it
is not. [DESIGN CHOICE, log 85] -/
def confirmCode (s : State) (v : Word) : Nat :=
  if v != s.saf.check then 1
  else if !enabledSecond s then 2
  else if !allStopped s (defined s) || s.saf.mode != 1 || !s.saf.pres then 3
  else if s.fuse.opened then 4
  else 0

/-- CONFIRM: the record is written, after those before it; the reply follows the write. [DESIGN CHOICE, log 85] -/
def confirmCmd (o : Origin) (v : Word) (s : State) : State :=
  needsCell o 8 s (fun s =>
    match confirmCode s v with
    | 0 => onSaf (fun f => { f with confPend := f.confPend ++ [(o, v)] }) s
    | d => replyAt18 o 15 d [] s)

/-- The copy that a confirmation overwrites: not the one that decides (R332). [DESIGN CHOICE, log 85] -/
def olderCopy (s : State) : Nat :=
  let a := nth s.conf 0
  let b := nth s.conf 1
  if !a.crcOk then 0 else if !b.crcOk then 1 else if a.count < b.count then 0 else 1

/-- CONFIRMATION_WRITE_DONE (R332). -/
def confirmationWriteDone (ok : Bool) (s : State) : State :=
  match s.saf.confPend with
  | [] => s
  | (o, v) :: rest =>
    let i := olderCopy s
    let s := onSaf (fun f => { f with confPend := rest }) s
    if ok then
      let r : ConfRec := { check := v, digest := s.image.digest % 2 ^ 64, serial := s.fuse.serial, tb := s.time.tb,
                           count := s.saf.confCount + 1, key := o.key, crcOk := true }
      let s := { s with conf := updAt s.conf i (fun _ => r), mem := confToMem s.mem i r }
      replyNow o 0 0 [] (event 0x0860 0 (onSaf (fun f => { f with match_ := true, present := true, confCount := f.confCount + 1 }) s))
    else replyNow o 15 4 [] { s with conf := updAt s.conf i (fun c => { c with crcOk := false }) }

/-- FLOWMSG: for the SKIND 6 entry of a tick-locked flow (R367). -/
def flowmsgCmd (o : Origin) (f : Nat) (data : List Byte) (s : State) : State :=
  needsCell o 9 s (fun s =>
    if (flowCfg s f).type != 2 || !(flowCfg s f).snaps.any (fun e => e.skind == 6) then replyAt18 o 11 0 [] s
    else if !(flowSt s f).en then replyAt18 o 13 1 [] s
    else accept o (onFlow f (fun x => { x with msgs := x.msgs ++ [data] }) s))

/-- MAILBOX: an entry of a core mailbox. -/
def mailboxCmd (o : Origin) (q : Nat) (data : List Byte) (s : State) : State :=
  needsCell o 9 s (fun s =>
    if q < 16 || 23 < q then replyAt18 o 11 0 [] s
    else if !canPush s q then replyAt18 o 13 1 [] s
    else accept o (pushEntry q { bytes := data } s))

/-- TRIGGER: the words of trigger i, armed or disarmed at E0 of the release tick; covered (R112). -/
def triggerCmd (o : Origin) (i : Nat) (w : TrigWords) (s : State) : State :=
  needsCell o 2 s (fun s =>
    if 4 ≤ i then replyAt18 o 11 0 [] s
    else
      let s := onTrig i (fun t => { t with
        pSec := w.startNs / 1000000000, pNsec := w.startNs % 1000000000, pStartFr := w.startFr, pPerNs := w.perNs, pPerFr := w.perFr }) s
      accept o (writeTrigger i w false (e0Of s) s))

/-- PRUNE: the signed Prune channel (R397). -/
def pruneCmd (o : Origin) (kind region index : Nat) (s : State) : State :=
  requestPrune { kind := kind, region := region, index := index, signed := true, origin := some o } s

/-! ### Flash, memory (R393, R395) -/

/-- A range inside the inactive slot. -/
def inSlot (s : State) (ofs len : Nat) : Bool := ofs + len ≤ slotSize s.flash

/-- IMAGE_ERASE. [DESIGN CHOICE, log 97; DESIGN CHOICE, log 98] -/
def imageEraseCmd (o : Origin) (ofs len : Nat) (s : State) : State :=
  if ofs % 65536 != 0 then replyNow o 11 0 [] s
  else if len % 65536 != 0 then replyNow o 11 4 [] s
  else if !inSlot s ofs len then replyNow o 17 1 [] s
  else onHost (fun h => { h with flash := h.flash ++ [(o, { ofs := ofs, len := len })] }) s

/-- IMAGE_WRITE. [DESIGN CHOICE, log 97; DESIGN CHOICE, log 98] -/
def imageWriteCmd (o : Origin) (ofs : Nat) (data : List Byte) (s : State) : State :=
  let len := data.length
  if len < 4 || 1016 < len || len % 4 != 0 then replyNow o 11 4 [] s
  else if !inSlot s ofs len then replyNow o 17 1 [] s
  else onHost (fun h => { h with flash := h.flash ++ [(o, { ofs := ofs, len := len, data := data })] }) s

/-- Set what a slot holds, with the edits that led to it. -/
def putSlot (b : Bool) (im : Option Image) (ps : List (Variant × Image)) (es : List FlashEdit) (s : State) : State :=
  { s with flash := if b then { s.flash with slotB := im, replB := ps, editsB := es }
                    else { s.flash with slotA := im, replA := ps, editsA := es } }

/-- What the inactive slot holds after an erase or a write: blank when its header has been erased and nothing has been written to it
since, else the image that the bytes form. [DESIGN CHOICE, log 100] -/
def slotAfter (e : FlashEdit) (s : State) : State :=
  let b := !s.chip.slot
  let es := (if b then s.flash.editsB else s.flash.editsA) ++ [e]
  if e.len = 0 then s
  else if e.data = [] && e.ofs = 0 then putSlot b none [] es s
  else { (putSlot b (Config.flashImage s.free es) (Config.flashProfiles s.free es) es s) with free := s.free + 1 }

/-- FLASH_OP_DONE: 0 done, 2 device error, 3 read-back differs. -/
def flashOpDone (result : Nat) (s : State) : State :=
  match s.host.flash with
  | [] => s
  | (o, e) :: q =>
    let s := slotAfter e (onHost (fun h => { h with flash := q }) s)
    if result = 0 then replyNow o 0 0 [] s
    else replyNow o 17 (if result = 3 then 3 else 2) [] (event 0x0976 0 s)

/-- READ: LP4X DRAM and shared SRAM. [DESIGN CHOICE, log 97; DESIGN CHOICE, log 98] -/
def readCmd (o : Origin) (addr len : Nat) (s : State) : State :=
  if !dmaOk addr || !dmaOk (addr + len - 1) then replyNow o 11 0 [] s
  else if len < 4 || 1024 < len || len % 4 != 0 then replyNow o 11 6 [] s
  else replyNow o 0 0 (memBytes s.mem addr len) s

/-! ### RESET and SWITCHBACK (R396, R414, R415, R438) -/

/-- The groups a RESET kind affects are DISABLED or in Cloche, else code 13 DETAIL 1. -/
def whenStopped (o : Origin) (m : Mask) (s : State) (k : State → State) : State :=
  if allStopped s m then k s else replyAt18 o 13 1 [] s

/-- RESET Kind 0x01: the reply, then the reset; held commands are discarded without a reply. -/
def resetDeviceCmd (o : Origin) (s : State) : State :=
  whenStopped o (defined s) s (fun s =>
    accept o (onHost (fun h => { h with held := [] })
      (onChip (fun c => { c with resetPending := some (s.time.tb, o.key, o.seq) }) s)))

/-- Kinds 0x02 and 0x03: from E0 of the next tick, unless SAF decides a stop in this tick (R422). -/
def resetPowerCmd (o : Origin) (p : PState) (s : State) : State :=
  whenStopped o (defined s) s (fun s =>
    awaitDecision o 0x60 0 (onChip (fun c => { c with pstateNext := some p }) s))

/-- Kind 0x04: RUN from E0 of the release tick. -/
def resetRunCmd (o : Origin) (s : State) : State :=
  whenStopped o (defined s) s (fun s =>
    accept o (if s.chip.pstate == .park || s.chip.pstate == .doze then enterRun s
      else onChip (fun c => { c with pstateNext := none }) s))

/-- Kinds 0x83 to 0x87 and 0x89. [DESIGN CHOICE, log 47] -/
def resetRegionCmd (o : Origin) (kind : Nat) (s : State) : State :=
  let id := kind - 0x80
  match Region.ofId id with
  | none => replyAt18 o 11 0 [] s
  | some r =>
    if kind < 0x80 || r == .chip || r == .time || r == .saf then replyAt18 o 11 0 [] s
    else
      let bad (code d : Nat) (s : State) : State :=
        replyAt18 o code d [] (event 0x0173 0 (onChip (fun c => { c with rrstRefused := true }) s))
      if rstate s r = 4 then bad 12 id s
      else if restartable s id true then accept o (requestRestart id (some o) s)
      else bad 13 1 s

/-- SWITCHBACK: DETAIL 2 without a standby, 1 with one that is not fit. [DEDUCED, log 96; DESIGN CHOICE, log 99] -/
def switchbackCmd (o : Origin) (s : State) : State :=
  if !s.pair.cfg || nodeMode s then replyAt18 o 12 1 [] s
  else if s.pair.role != 1 then accept o s
  else if !s.pair.linkOk && !s.pair.ringOk then replyAt18 o 13 2 [] s
  else if !s.pair.pfit then replyAt18 o 13 1 [] s
  else accept o (if s.pair.hoReq.isSome then s
    else onPair (fun p => { p with hoReq := some s.time.tickno, hoEsc := false, hoTries := 0 }) s)

/-! ### Release (R387, R389) -/

/-- The effect of an opcode on release. -/
def actBody (o : Origin) (b : CmdBody) (s : State) : State :=
  match b with
  | .query => query o s
  | .segment g segs => segmentCmd o g segs s
  | .flush m => flushCmd o m s
  | .halt m => haltCmd o m s
  | .resume m => resumeCmd o m s
  | .enable m => enableCmd o m s
  | .disable m => disableCmd o m s
  | .override m v => overrideCmd o m v s
  | .home a => homeCmd o a s
  | .zoneRelease g z => zoneReleaseCmd o g z s
  | .sliceParam b sl ws => sliceParamCmd o b sl ws s
  | .stop m => stopCmd o m s
  | .ack m => ackCmd o m s
  | .mode m => modeCmd o m s
  | .confirm v => confirmCmd o v s
  | .flowmsg f data => flowmsgCmd o f data s
  | .mailbox q data => mailboxCmd o q data s
  | .trigger i w => triggerCmd o i w s
  | .prune k r i => pruneCmd o k r i s
  | .imageErase ofs len => imageEraseCmd o ofs len s
  | .imageWrite ofs data => imageWriteCmd o ofs data s
  | .read a len => readCmd o a len s
  | .reset 1 => resetDeviceCmd o s
  | .reset 2 => resetPowerCmd o .park s
  | .reset 3 => resetPowerCmd o .doze s
  | .reset 4 => resetRunCmd o s
  | .reset k => resetRegionCmd o k s
  | .switchback => switchbackCmd o s
  | .unknown _ => s

/-- A command released counts in HOST.CMDCNT. [DEDUCED, log 114] -/
def countRelease (s : State) : State := onHost (fun x => { x with accepted := satAdd 0xFFFFFFFF x.accepted 1 }) s

/-- A released command as an input of the record (R88): key id, sequence number, opcode, body, as wide as in the datagram (R381). [DESIGN CHOICE, log 131] -/
def commandInput (d : Datagram) : List Byte := leBytes 1 d.key ++ leBytes 8 d.seq ++ leBytes 2 (opcodeOf d.body) ++ bodyBytes d.body

/-- Release one command: its body is checked first. -/
def releaseCmd (h : HeldCmd) (s : State) : State :=
  let o := originOf h.net h.d s.time.tickno
  if s.chip.resetPending.isSome then s
  else
    let s := countRelease (noteInput 5 (commandInput h.d) s)
    if !h.d.bodyOk then replyAt18 o 11 h.d.bodyOfs [] s else actBody o h.d.body s

/-- The order of R389: ascending KEYID, ascending SEQ within a key. -/
def cmdLe (a b : HeldCmd) : Bool := a.d.key < b.d.key || (a.d.key = b.d.key && a.d.seq ≤ b.d.seq)

/-- Insert in the order of R389. -/
def cmdInsert (x : HeldCmd) : List HeldCmd → List HeldCmd
  | [] => [x]
  | y :: r => if cmdLe x y then x :: y :: r else y :: cmdInsert x r

/-- Sort in the order of R389. -/
def cmdSort (l : List HeldCmd) : List HeldCmd := l.foldl (fun a x => cmdInsert x a) []

/-- A held command that the INPUT frame of the tick before lists (R429). -/
def listed (s : State) (h : HeldCmd) : Bool := s.pair.pendCmds.contains (h.d.key, h.d.seq)

/-- The standby follows the frame of a fed tick; `s.pair.fed` still tells of the tick before. -/
def byFrame (s : State) : Bool := s.pair.role = 2 && s.pair.fed

/-- Whether a held command is released at this E0. -/
def releasedNow (s : State) (h : HeldCmd) : Bool := if byFrame s then listed s h else h.rel ≤ s.time.tickno

/-- Whether a held command stays held: a fed standby drops what was due and not listed. -/
def staysHeld (s : State) (h : HeldCmd) : Bool :=
  if byFrame s then !listed s h && (h.d.relTick = 0 || s.time.tickno < h.d.relTick) else s.time.tickno < h.rel

/-- Release at E0 (R387, R389). -/
def releaseCommands (s : State) : State :=
  let now := cmdSort (s.host.held.filter (releasedNow s))
  let s := onHost (fun h => { h with held := h.held.filter (staysHeld s) }) s
  forAll now releaseCmd s

/-! ### Replies at 18.0 µs (R390) -/

/-- The outcome of a command that waited for the decision of 17.0 µs: code and DETAIL. [DESIGN CHOICE, log 84] -/
def waitCode (s : State) (o : Origin) (op : Nat) (m : Mask) : Nat × Nat :=
  match op with
  | 0x14 => if (bitsOf m).any (fun g => (safG s g).state == .ss1r || (safG s g).state == .sto) then (13, 4) else (0, 0)
  | 0x21 => if (s.saf.ackBad &&& m) != 0 || (bitsOf m).any (fun g => (safG s g).ackEdge) then (13, 1) else (0, 0)
  | 0x22 => if s.saf.modeBad.contains o || s.saf.modeReq.any (fun r => r.2 == o) then (13, 1) else (0, 0)
  | _ => if allStopped s (defined s) then (0, 0) else (13, 1)

/-- Answer one waiting command; a change of power state that meets a stop does not happen, nor a mode that SAF did not decide. [DESIGN CHOICE, log 99] -/
def answerWait (w : Origin × Nat × Mask) (s : State) : State :=
  let c := waitCode s w.1 w.2.1 w.2.2
  let s := if w.2.1 = 0x60 && c.1 != 0 then onChip (fun x => { x with pstateNext := none }) s else s
  let s := if w.2.1 = 0x22 then onSaf (fun f => { f with modeReq := f.modeReq.filter (fun r => r.2 != w.1) }) s else s
  let s := if c.1 = 0 then s else noteRefusal c.1 w.1.key s
  sendReply (mkReply w.1 c.1 c.2 [] s) s

/-- The replies of the tick leave. -/
def sendReplies (s : State) : State :=
  let ws := s.host.waits
  let rs := s.host.replies
  let s := onHost (fun h => { h with waits := [], replies := [] }) s
  forAll ws answerWait (forAll rs (fun r s => sendReply { r with tick := s.time.tickno } s) s)

/-! ### The meanings -/

def execCommandDatagram (net : Net) (d : Datagram) (now : Nat) (s : State) : Out := runIn .host (commandDatagram net d now) s
def execVerificationDone (now : Nat) (s : State) : Out := runIn .host (verificationDone now) s
def execQuery (o : Origin) (s : State) : Out := run (query o) s
def execSegment (o : Origin) (g : Nat) (segs : List Segment) (s : State) : Out := run (segmentCmd o g segs) s
def execFlush (o : Origin) (m : Mask) (s : State) : Out := run (flushCmd o m) s
def execHalt (o : Origin) (m : Mask) (s : State) : Out := run (haltCmd o m) s
def execResume (o : Origin) (m : Mask) (s : State) : Out := run (resumeCmd o m) s
def execEnable (o : Origin) (m : Mask) (s : State) : Out := run (enableCmd o m) s
def execDisable (o : Origin) (m : Mask) (s : State) : Out := run (disableCmd o m) s
def execOverride (o : Origin) (m : Mask) (ovr : Nat) (s : State) : Out := run (overrideCmd o m ovr) s
def execHome (o : Origin) (a : Nat) (s : State) : Out := run (homeCmd o a) s
def execZoneRelease (o : Origin) (g z : Nat) (s : State) : Out := run (zoneReleaseCmd o g z) s
def execSliceParam (o : Origin) (b s : Nat) (ws : List (BitVec 24)) (st : State) : Out := run (sliceParamCmd o b s ws) st
def execStop (o : Origin) (m : Mask) (s : State) : Out := run (stopCmd o m) s
def execAck (o : Origin) (m : Mask) (s : State) : Out := run (ackCmd o m) s
def execMode (o : Origin) (m : Nat) (s : State) : Out := run (modeCmd o m) s
def execConfirm (o : Origin) (v : Word) (s : State) : Out := run (confirmCmd o v) s
def execConfirmationWriteDone (ok : Bool) (s : State) : Out := run (confirmationWriteDone ok) s
def execFlowmsg (o : Origin) (f : Nat) (data : List Byte) (s : State) : Out := run (flowmsgCmd o f data) s
def execMailbox (o : Origin) (q : Nat) (data : List Byte) (s : State) : Out := run (mailboxCmd o q data) s
def execTrigger (o : Origin) (i : Nat) (w : TrigWords) (s : State) : Out := run (triggerCmd o i w) s
def execPrune (o : Origin) (kind region index : Nat) (s : State) : Out := run (pruneCmd o kind region index) s
def execImageErase (o : Origin) (ofs len : Nat) (s : State) : Out := run (imageEraseCmd o ofs len) s
def execImageWrite (o : Origin) (ofs : Nat) (data : List Byte) (s : State) : Out := run (imageWriteCmd o ofs data) s
def execFlashOpDone (result : Nat) (s : State) : Out := run (flashOpDone result) s
def execRead (o : Origin) (addr len : Nat) (s : State) : Out := run (readCmd o addr len) s
def execResetDevice (o : Origin) (s : State) : Out := run (resetDeviceCmd o) s
def execResetPark (o : Origin) (s : State) : Out := run (resetPowerCmd o .park) s
def execResetDoze (o : Origin) (s : State) : Out := run (resetPowerCmd o .doze) s
def execResetRun (o : Origin) (s : State) : Out := run (resetRunCmd o) s
def execResetRegionRestart (o : Origin) (kind : Nat) (s : State) : Out := run (resetRegionCmd o kind) s
def execSwitchback (o : Origin) (s : State) : Out := run (switchbackCmd o) s

end Sys2Proof.Machine
end

