-- ==== Sys2Proof/Machine/Pair.lean ====
section
/-! DEFINITION. Pair.lean: the redundant controller pair (R423 to R442): INPUT and STATUS frames, fitness, heartbeats, takeover,
handover, the vote and the health reports. -/

namespace Sys2Proof.Machine

/-! ### The vote and fitness (R425, R433) -/

/-- SAF refreshes the output stage. -/
def refreshes (s : State) : Bool := !s.saf.dead && !s.saf.withheld && s.chip.phase != .reset && s.chip.phase != .noImage

/-- The level the device drives on PAIR_VOTE. -/
def voteLevel (s : State) : Bool :=
  refreshes s && (if s.pair.cfg then s.pair.role = 1 || (s.pair.role = 2 && s.pair.fit) else true)

/-- Drive PAIR_VOTE. -/
def driveVote (s : State) : State := onPair (fun p => { p with vote := voteLevel s }) s

/-- Latch an unfit cause of the standby: the first stays, FIT falls. [DESIGN CHOICE, log 107] -/
def setUnfit (c : Nat) (s : State) : State :=
  if s.pair.role != 2 then s
  else driveVote (onPair (fun p => { p with unfit := if p.unfit = 0 then c else p.unfit, fit := false }) s)

/-- PAIR_VOTE_READBACK: class A on the active, UNFIT 8 on the standby. [DEDUCED, log 110] -/
def voteReadback (level : Bool) (s : State) : State :=
  let ok := level == voteLevel s
  let s := onPair (fun p => { p with vote := level }) s
  if ok || !s.pair.cfg then s
  else if s.pair.role = 1 then classA (defined s) 16 0x0822 s
  else onPair (fun p => { p with vote := level }) (setUnfit 8 s)

/-- PEER_VOTE_CHANGE. -/
def peerVote (level : Bool) (s : State) : State :=
  onPair (fun p => { p with pvote := level, pvoteHigh := p.pvoteHigh || level }) s

/-- STANDBY_SELFTEST_ROUND (R436). -/
def selftestRound (ok : Bool) (s : State) : State :=
  if s.pair.role != 2 then s
  else if ok then onPair (fun p => { p with rounds := satAdd 0xFFFFFFFF p.rounds 1 }) s
  else setUnfit 2 s

/-! ### The set-point digest (R432) -/

/-- n bytes of a signed number. -/
def intBytes (n : Nat) (v : Int) : List Byte := leBytes n (v % (256 ^ n : Nat)).toNat

/-- The finalised set-point, VFF, TFF and CTL of an axis. -/
def outputBytes (x : AxisSt) : List Byte := posBytes x.spt ++ intBytes 4 x.outVff ++ intBytes 2 x.outTff ++ leBytes 2 x.down.ctl.toNat

/-- The digest over the groups of a mask as the device stands: the CRC-64 of R87. -/
def digestOver (s : State) (m : Mask) : Nat :=
  (crc64 ((((allAxes s).filter (fun a => hasBit m (axisCfg s a).group)).map (fun a => outputBytes (axSt s a))).flatten ++
    ((List.range 16).map (fun g => leBytes 1 (safG s g).state.code)).flatten)).toNat

/-- Form the digest of the tick at 18.0 µs. [DEDUCED, log 108] -/
def formDigest (s : State) : State :=
  if s.pair.cfg then
    onPair (fun p => { p with
      digest := digestOver s (if p.role = 2 then digestMask s else p.cmask), digestTick := s.time.tickno }) s
  else s

/-! ### INPUT frames (R428, R429) -/

/-- The hardwired samples of E0: bit i is line i in demand. [DEDUCED, log 111] -/
def samplesOf (s : State) : BitVec 64 := maskOf 64 (fun i => i < 16 && (lineSt s i).sampled)

/-- PDUs first used in this tick. -/
def firstUsed (s : State) : List (Nat × BitVec 32) :=
  (List.range 16).filterMap (fun p =>
    let x := rxSt s p
    if x.fresh then x.frozen.map (fun d => (d.id, d.seq)) else none)

/-- Commands to be released at E0 of the next tick, in the order of R389. -/
def nextCommands (s : State) : List (Nat × Nat) :=
  (cmdSort (s.host.held.filter (fun h => h.rel ≤ s.time.tickno + 1))).map (fun h => (h.d.key, h.d.seq))

/-- The frame announces a handover: from the tick after the trigger on, until it is acknowledged. -/
def hoDue (s : State) : Bool := match s.pair.hoReq with | some t => t < s.time.tickno && !s.pair.hoAck | none => false

/-- The frame carries RST: the reply to the RESET has left (R440). -/
def rstDue (s : State) : Bool :=
  match s.chip.resetPending with | some (_, key, seq) => !replyWaiting s key seq | none => false

/-- The INPUT frame of the tick. -/
def inputFrame (s : State) : InputFrame :=
  { tick := s.time.tickno, nonce := s.host.nonce, ho := hoDue s, esc := hoDue s && s.pair.hoEsc, rst := rstDue s,
    pstate := s.chip.pstate.code, hotick := if hoDue s then s.time.tickno + 1 else 0,
    digest := s.pair.digest, cmask := s.pair.cmask, lstop := s.pair.lstop, ldeg := s.pair.ldeg, samples := samplesOf s,
    imgDig := s.image.digest % 2 ^ 64, pdus := firstUsed s, cmds := nextCommands s }

/-- INPUT_FRAME_SEND at 0.1 µs. -/
def inputFrameSend (s : State) : State :=
  if s.pair.role = 1 && s.time.run then
    onPair (fun p => { p with sent := some (inputFrame s), hoFlag := hoDue s, rstSent := p.rstSent || rstDue s }) s
  else s

/-- INPUT_FRAME_RECEIVED: a frame of another tick or run is not valid; the first one gives the run nonce (R427). -/
def inputFrameReceived (f : InputFrame) (s : State) : State :=
  if s.pair.role != 2 || f.tick != s.time.tickno then s
  else
    let s := if s.host.nonce = 0 then onHost (fun h => { h with nonce := f.nonce }) s else s
    if f.nonce != s.host.nonce then s
    else
      let s := onPair (fun p => { p with frame := some f, rst := p.rst || f.rst }) s
      if f.imgDig != s.image.digest % 2 ^ 64 then setUnfit 3 s else s

/-- The copy of a PDU that the standby holds. -/
def heldPdu (s : State) (id : Nat) (seq : BitVec 32) : Option Pdu :=
  match rxOf s id with
  | none => none
  | some p =>
    let x := rxSt s p
    (x.accepted.toList ++ (x.window.map (fun w => w.2)).toList ++ x.before.toList).find? (fun d => d.seq == seq)

/-- The standby holds every PDU and command that the frame lists. -/
def holdsAll (s : State) (f : InputFrame) : Bool :=
  f.pdus.all (fun q => (heldPdu s q.1 q.2).isSome) &&
    f.cmds.all (fun q => s.host.held.any (fun h => h.d.key == q.1 && h.d.seq == q.2))

/-- The frame that feeds this tick. -/
def feeding (s : State) : Option InputFrame :=
  match s.pair.frame with
  | some f => if f.tick = s.time.tickno && holdsAll s f then some f else none
  | none => none

/-- Exactly the listed PDUs are first used. -/
def feedPdus (f : InputFrame) (s : State) : State :=
  forAll (List.range 16) (fun p s =>
    match f.pdus.find? (fun q => (rxCfg s p).defined && q.1 == (rxCfg s p).pduId) with
    | some q => match heldPdu s q.1 q.2 with
      | some d => onRx p (fun x => { x with frozen := some d, fresh := true }) s
      | none => s
    | none => onRx p (fun x => { x with frozen := x.before, fresh := false }) s) s

/-- Compare the own sample of a line with the active's, then take the active's. [DEDUCED, log 111] -/
def feedSample (f : InputFrame) (i : Nat) (s : State) : State :=
  let own := (lineSt s i).sampled
  let act := hasBit f.samples i
  let since := nth s.pair.diff i
  let s := onPair (fun p => { p with diff := updAt p.diff i (fun n =>
    if own == act then 0 else if n = 0 then s.time.tickno + 1 else n) }) s
  let s := if own != act && since != 0 && diffLimit s i < (s.time.tickno + 1 - since) * periodNs s then setUnfit 7 s else s
  onLine i (fun x => { x with sampled := act }) s

/-- OUT of the active in the tick before: a group in RUN or SCALED that its digest leaves out. [DEDUCED, log 108] -/
def activeOut (s : State) (f : InputFrame) : Bool :=
  (List.range 16).any (fun g => (grpCfg s g).defined &&
    ((safG s g).state == .run || (safG s g).state == .scaled) && !hasBit f.cmask g)

/-- A skipped compare (R432): the run of equal compares starts again with the next one; a fit standby stays fit until then, for its
last 16 compares have no skip between them. [DESIGN CHOICE, log 109] -/
def skipDigest (s : State) : State :=
  onPair (fun p => { p with skips := satAdd 0xFFFF p.skips 1, eqrun := 0 }) s

/-- The compare of R432 with the outcome: 16 equal ones in a row make a standby without a latched cause fit. [DESIGN CHOICE, log 109] -/
def compareDigest (f : InputFrame) (s : State) : State :=
  if digestOver s f.cmask == f.digest then
    driveVote (onPair (fun p => { p with
      compares := satAdd 0xFFFFFFFF p.compares 1, eqrun := min 255 (p.eqrun + 1),
      fit := p.unfit = 0 && 16 ≤ p.eqrun + 1 }) s)
  else
    let s := event 0x0192 0 (onPair (fun p => { p with
      compares := satAdd 0xFFFFFFFF p.compares 1, eqrun := 0, divs := satAdd 0xFFFF p.divs 1,
      firstDiv := if p.divs = 0 then s.time.tickno - 1 else p.firstDiv }) s)
    setUnfit 1 (addB 9 1 0 0x0192 s)

/-- Compare, or skip when the tick before was unfed or OUT was set in it. -/
def judgeDigest (f : InputFrame) (s : State) : State :=
  if !s.pair.prevFed || s.time.promOut || activeOut s f then driveVote (skipDigest s) else compareDigest f s

/-- The groups that the active has degraded (R430). [DESIGN CHOICE, log 109] -/
def feedMasks (f : InputFrame) (s : State) : State :=
  let s := onPair (fun p => { p with lstop := f.lstop, hoEsc := f.esc, pendCmds := f.cmds }) (endB 10 0 s)
  if f.ldeg != 0 then addB 10 0 f.ldeg 0 s else s

/-- The active's power state, where it is not the standby's own and none is due (R427). [DESIGN CHOICE, log 112] -/
def feedPower (f : InputFrame) (s : State) : State :=
  let want : Option PState := match f.pstate with | 1 => some .run | 2 => some .park | 3 => some .doze | _ => none
  match want with
  | some p => if p != s.chip.pstate && s.chip.pstateNext.isNone then onChip (fun c => { c with pstateNext := some p }) s else s
  | none => s

/-- What a fed standby takes from the frame. -/
def feedTick (f : InputFrame) (s : State) : State :=
  let s := onPair (fun p => { p with fed := true }) s
  let s := forAll (List.range 16) (feedSample f) (feedPdus f s)
  feedPower f (feedMasks f (judgeDigest f s))

/-- An unfed tick: own samples, PDUs and verifications; nothing is compared. -/
def unfedTick (s : State) : State :=
  driveVote (skipDigest (onPair (fun p => { p with
    fed := false, unfed := satAdd 0xFFFF p.unfed 1, lstop := 0, hoEsc := false, pendCmds := [] }) s))

/-- FEED_DEADLINE at 4.5 µs (R429); the objects of the tick follow from the PDUs in use. -/
def feedDeadline (s : State) : State :=
  if s.pair.role != 2 || !s.time.run then s
  else trellisEdge (match feeding s with | some f => feedTick f s | none => unfedTick s)

/-- FORWARD_FRAME (R430): the standby takes the datagram as one that reached it. -/
def forwardFrame (d : Datagram) (now : Nat) (s : State) : State :=
  if s.pair.role = 2 then commandDatagram .a d now s else s

/-! ### STATUS frames (R434) -/

/-- The standby acknowledges a handover that the frame of the tick announces. [DEDUCED, log 139] -/
def acksHo (s : State) : Bool :=
  s.pair.fit && s.pair.fed && (match s.pair.frame with | some f => f.ho && f.tick = s.time.tickno | none => false)

/-- STATUS_FRAME_SEND at 20.0 µs. [DEDUCED, log 139] -/
def statusFrameSend (s : State) : State :=
  if s.pair.role = 2 && s.time.run then
    onPair (fun p => { p with
      statusSent := some { tick := s.time.tickno, fit := p.fit, unfit := p.unfit, fed := p.fed, ackHo := acksHo s, digest := p.digest },
      hoAck := acksHo s }) s
  else s

/-- The standby's fitness at the active: a class B condition with CHIP_PAIR_UNFIT and CHIP_PAIR_FIT. -/
def standbyFitness (bad : Bool) (s : State) : State :=
  if bad && !s.pair.wasUnfit then
    event 0x0193 0 (addB 9 0 (defined s) 0x0193 (onPair (fun p => { p with wasUnfit := true }) s))
  else if !bad && s.pair.wasUnfit then
    event 0x0194 0 (endB 9 0 (onPair (fun p => { p with wasUnfit := false }) s))
  else s

/-- STATUS_FRAME_RECEIVED: a frame of this tick that arrives by 24.0 µs. -/
def statusFrameReceived (at_ : Nat) (f : StatusFrame) (s : State) : State :=
  if s.pair.role != 1 || f.tick != s.time.tickno || s.time.e0 + 24000 < at_ then s
  else
    let s := onPair (fun p => { p with
      statusIn := true, pfit := f.fit, hoAck := p.hoAck || (p.hoFlag && f.ackHo && f.fit) }) s
    if f.unfit != 0 then standbyFitness true s else if f.fit then standbyFitness false s else s

/-- STANDBY_FIT_TIMEOUT: not fit within 10 s of ring start. -/
def standbyFitTimeout (s : State) : State :=
  if s.pair.role = 1 && s.time.run && !s.pair.pfit && 10000000000 ≤ s.time.tickno * periodNs s then standbyFitness true s else s

/-! ### Heartbeats (R435) -/

/-- HEARTBEAT_FRAME in the peer's ring 0 slot (R435): a valid frame with data, of this tick. A node that is no end of the pair
passes it on. -/
def heartbeatFrame (ccw : Bool) (at_ : Nat) (h : RingHead) (m : Heartbeat) (s : State) : State :=
  if (ringSt s 0).role = 0 || (ringSt s 0).state == .down then s
  else if !frameOk s 0 h then badFrame 0 ccw at_ false h s
  else
    let s := heard 0 at_ s
    if s.pair.role = 1 || s.pair.role = 2 then
      (if m.tick = s.time.tickno && !h.null then onPair (fun p => { p with hbIn := true, pfit := m.fit }) s else s)
    else if isMaster s 0 then s else passFrame 0 ccw at_ false h (.heartbeat m) s

/-- One path of the tick: class B with CHIP_PAIR_PATH while it is lost. -/
def judgePath (i : Nat) (ok : Bool) (s : State) : State :=
  if ok then endB 8 i s
  else if s.saf.bconds.any (fun c => c.src == 8 && c.idx == i) then s
  else event 0x0190 i (addB 8 i (defined s) 0x0190 s)

/-- HBN ticks with both paths lost. -/
def pathsGone (s : State) : State :=
  if s.pair.role = 1 then
    (if s.pair.lostRaised then s else event 0x0191 0 (onPair (fun p => { p with lostRaised := true }) s))
  else if s.pair.pvoteHigh then
    (if s.pair.unfit = 5 then s else event 0x0198 0 (setUnfit 5 s))
  else if s.pair.fit then onPair (fun p => { p with takeNext := true }) s
  else s

/-- HEARTBEAT_COUNT: the paths of the tick, and the ticks with both lost. -/
def heartbeatCount (s : State) : State :=
  if !(s.pair.role = 1 || s.pair.role = 2) then s
  else
    let link := s.pair.linkUp && !s.pair.linkFell && (if s.pair.role = 2 then s.pair.fed else s.pair.statusIn)
    let ring := s.pair.hbIn
    let s := judgePath 1 ring (judgePath 0 link s)
    let s := onPair (fun p => { p with
      linkOk := link, ringOk := ring, lost := (if link || ring then 0 else min 255 (p.lost + 1)),
      lostRaised := p.lostRaised && !(link || ring) }) s
    if max 2 s.image.pairCfg.hbn ≤ s.pair.lost then pathsGone s else s

/-! ### Takeover and handover (R437, R438) -/

/-- The new active is master of ring r at its own number; the former one is absent, its links a break (R149). [DESIGN CHOICE, log 54] -/
def takeRing (r : Nat) (s : State) : State :=
  let x := ringSt s r
  if x.role = 0 || x.state == .down then s
  else
    let up := neighbour s r true == some x.master
    let s := onRing r (fun x => { x with
      members := x.members &&& ~~~ bitOf 32 x.master, absent := x.absent ||| bitOf 32 x.master, master := x.node,
      broken := max 1 x.broken, restEff := none, routeAt := some (s.time.tickno + 1) }) s
    let js := ringNodes s r
    onRing r (fun x =>
      if up then { x with brkB := x.node, brkA := js.getLast?.getD x.node }
      else { x with brkA := x.node, brkB := js.head?.getD x.node }) s

/-- The time base of a new active (R109): its PROFILE is the image's, TB is not stepped, and with profiles 1 and 2 a domain is
chosen afresh as after a switch; PROFILE 0 runs at rate 0. [DESIGN CHOICE, log 112] -/
def takeTime (s : State) : State :=
  let p := s.image.profile
  let s := onTime (fun t => { t with profile := p, servo := (if p = 0 then 0 else 3), everFoll := false }) s
  if p = 0 then onTime (fun t => { t with target := 0, rate := 0, slewAcc := 0 }) (slewTo s.time.tb s) else selectDomain s.time.tb s

/-- The standby becomes active. [DESIGN CHOICE, log 112] -/
def becomeActive (cause : Nat) (s : State) : State :=
  let s := onPair (fun p => { p with
    role := 1, takeNext := false, lost := 0, hoCause := cause, hoTick := s.time.tickno % 2 ^ 28, hoAck := false, hoBeacon := false,
    hoReq := none, hoEsc := false, lstop := 0, ldeg := 0 }) s
  takeTime (driveVote (forAll [0, 1] takeRing (endB 10 0 s)))

/-- TAKEOVER at E0; a handover whose beacon was sent decides instead (R442). -/
def takeover (s : State) : State :=
  if s.pair.role = 2 && s.pair.takeNext && !s.pair.hoBeacon then event 0x0195 0 (becomeActive 1 s) else s

/-- The former active stops sending and takes role 3. [DESIGN CHOICE, log 54] -/
def becomeFormer (cause : Nat) (s : State) : State :=
  let s := { s with ring := s.ring.map (fun x => { x with txStopped := true }) }
  driveVote (onPair (fun p => { p with
    role := 3, hoCause := cause, hoTick := s.time.tickno % 2 ^ 28, hoReq := none, hoAck := false }) s)

/-- HANDOVER at HOTICK: the acknowledged handover moves the active role. [DESIGN CHOICE, log 112] -/
def handover (s : State) : State :=
  let c := if s.pair.hoEsc then 2 else 3
  if s.pair.role = 1 && s.pair.hoAck then event 0x0196 0 (becomeFormer c s)
  else if s.pair.role = 2 && s.pair.hoBeacon then event 0x0196 0 (becomeActive c s)
  else s

/-! ### Health reports (R441) -/

/-- The report of the standby. -/
def healthOf (s : State) : HealthReport :=
  let p := s.pair
  { tick := s.time.tickno, role := p.role, fit := p.fit, unfit := p.unfit, paths := p.linkOk.toNat + 2 * p.ringOk.toNat,
    compares := p.compares, skips := p.skips, divs := p.divs, firstDiv := p.firstDiv, rounds := p.rounds,
    vcore := s.saf.vcore, tj := s.saf.tj, unfed := p.unfed, check := s.saf.check, imgDig := s.image.digest % 2 ^ 64,
    serial := s.fuse.serial.toNat }

/-- The 64 bytes of a report. [DEDUCED, log 139] -/
def healthBytes (h : HealthReport) : List Byte :=
  leBytes 8 h.tick ++ leBytes 1 h.role ++ leBytes 1 h.fit.toNat ++ leBytes 1 h.unfit ++ leBytes 1 h.paths ++
  leBytes 4 h.compares ++ leBytes 4 h.skips ++ leBytes 4 h.divs ++ leBytes 8 h.firstDiv ++ leBytes 4 h.rounds ++
  leBytes 1 h.vcore ++ leBytes 1 h.tj ++ leBytes 2 h.unfed ++ leBytes 4 h.check.toNat ++ leBytes 8 h.imgDig ++
  leBytes 8 h.serial ++ [0, 0, 0, 0]

/-- HEALTH_REPORT: over the pair link, and to the host on both plant networks, with its signature of 64 bytes; HIP of the form
::ffff:a.b.c.d is an IPv4 address. -/
def healthReport (s : State) : State :=
  if s.pair.role = 2 then
    let f : TxFrame := { kind := .health, len := if s.image.pairCfg.hip / 2 ^ 32 = 0xFFFF then 174 else 194 }
    sendNet 1 f (sendNet 0 f (onPair (fun p => { p with
      healthOut := some (healthOf s), healthSent := p.healthSent + 1, unfed := 0 }) s))
  else s

/-- HEALTH_REPORT_RECEIVED: into HMBOX and CHIP.PAIRHLTH of the active. -/
def healthReceived (h : HealthReport) (s : State) : State :=
  if s.pair.role = 1 then
    let q := s.image.pairCfg.hmbox
    let s := onPair (fun p => { p with health := some h }) s
    if 16 ≤ q && q ≤ 23 then pushEntry q { bytes := healthBytes h } s else s
  else s

/-! ### The tick edge -/

/-- Own faults that make a standby unfit: no confirmation, a class A fault or an escalation (UNFIT 4, 6). -/
def ownFitness (s : State) : State :=
  let s := if s.saf.match_ then s else setUnfit 4 s
  if s.chip.escalated || s.saf.g.any (fun x => x.aLatch) then setUnfit 6 s else s

/-- An announced handover that was not acknowledged: after 8 attempts CHIP_PAIR_HO_FAIL. -/
def hoEdge (s : State) : State :=
  if s.pair.role = 1 && s.pair.hoFlag && !s.pair.hoAck then
    let s := onPair (fun p => { p with hoTries := p.hoTries + 1 }) s
    if 8 ≤ s.pair.hoTries then event 0x0197 0 (onPair (fun p => { p with hoReq := none, hoTries := 0 }) s) else s
  else s

/-- The pair at E0. -/
def pairEdge (s : State) : State :=
  if !s.pair.cfg then driveVote s
  else
    let s := ownFitness (hoEdge s)
    driveVote (onPair (fun p => { p with
      prevFed := p.fed, fed := false, frame := none, statusIn := false, hbIn := false, hbSent := false, hoFlag := false,
      forwarded := [], pvoteHigh := p.pvote, linkFell := !p.linkUp }) s)

/-! ### The meanings -/

def execHeartbeatFrame (ccw : Bool) (at_ : Nat) (h : RingHead) (m : Heartbeat) (s : State) : Out :=
  run (heartbeatFrame ccw at_ h m) s
def execInputFrameSend (s : State) : Out := run inputFrameSend s
def execInputFrameReceived (f : InputFrame) (s : State) : Out := run (inputFrameReceived f) s
def execFeedDeadline (s : State) : Out := run feedDeadline s
def execForwardFrame (d : Datagram) (now : Nat) (s : State) : Out := run (forwardFrame d now) s
def execStatusFrameSend (s : State) : Out := run statusFrameSend s
def execStatusFrameReceived (at_ : Nat) (f : StatusFrame) (s : State) : Out := run (statusFrameReceived at_ f) s
def execHeartbeatCount (s : State) : Out := run heartbeatCount s
def execTakeover (s : State) : Out := run takeover s
def execHandover (s : State) : Out := run handover s
def execStandbyFitTimeout (s : State) : Out := run standbyFitTimeout s
def execStandbySelftestRound (ok : Bool) (s : State) : Out := run (selftestRound ok) s
def execHealthReport (s : State) : Out := run healthReport s
def execPairVoteReadback (level : Bool) (s : State) : Out := run (voteReadback level) s
def execPeerVoteChange (level : Bool) (s : State) : Out := run (peerVote level) s
def execHealthReportReceived (h : HealthReport) (s : State) : Out := run (healthReceived h) s

end Sys2Proof.Machine
end

