-- ==== Sys2Proof/Machine/Regs.lean ====
section
/-! DEFINITION. Regs.lean: what every register reads, by its offset in its region, from the register tables of each chapter. -/

namespace Sys2Proof.Machine

/-! ### Words -/

/-- Low and high word of a 64-bit value. -/
def loW (v : BitVec 64) : Word := v.setWidth 32

/-- High word. -/
def hiW (v : BitVec 64) : Word := (v >>> 32).setWidth 32

/-- A signed 64-bit count. -/
def cnt64 (n : Int) : BitVec 64 := BitVec.ofInt 64 n

/-- The 16-bit field of a signed number. -/
def s16 (n : Int) : Nat := (BitVec.ofInt 16 n).toNat

/-- A TB value in the layout of R95, from whole ns (signed) and the fraction. -/
def tbWords (ns : Int) (fr : Nat) : List Word :=
  let sec := BitVec.ofInt 64 (ns / 1000000000)
  [w32 (fr % 65536), BitVec.ofInt 32 (ns % 1000000000), loW sec, hiW sec]

/-- A word of a multi-word value; word 0 is live and the others hold what its last read latched (R12, R95). -/
def wideWord (s : State) (a i : Nat) (ws : List Word) : Word :=
  if i = 0 then nth ws 0 else nth ((assoc s.chip.latch a).getD []) (i - 1)

/-! ### CHIP -/

/-- CHIP.ID.PART and TVAR of the variant. -/
def partNo : Variant → Nat | .v6128 => 0x6128 | .v6064 => 0x6064 | .v6016 => 0x6016

/-- TVAR code. -/
def tvarNo : Variant → Nat | .v6128 => 1 | .v6064 => 2 | .v6016 => 3

/-- CAPS1.USABLE: without SOL, TRL and class L in compatibility mode; without MOT and ring 1 as well in node mode (R6, R150). [DESIGN CHOICE, log 104] -/
def usable (s : State) : Word :=
  let w := silicon s.fuse.variant
  let w := if hasSolTrl s then w else w &&& ~~~ 0x0203FC00
  if nodeMode s then w &&& ~~~ 0x008003FF else w

/-- CAPS2 and CAPS3. -/
def caps2 (s : State) : Word :=
  fields [(maxAxes s, 24), (maxGroups s, 19), (kMin s.fuse.variant, 16), (maxPrims s.fuse.variant, 0)]

/-- CAPS3. -/
def caps3 (s : State) : Word :=
  let c := s.chip
  fields [(0xB0, 24), (tvarNo s.fuse.variant, 22), flag s.image.compat 21, flag (nodeMode s) 20, flag c.profile 19,
    flag c.slot 18, flag c.fallback 17, flag c.first 16]

/-- CHIP.ARBCTLn. -/
def arbctlWord (s : State) (n : Nat) : Word :=
  let a := arbSt s n
  fields [flag a.frz 31, flag (a.frz && a.grant.isNone) 30, (a.lock.isSome.toNat, 24), (a.parked.length, 16), (a.fullcnt, 0)]

/-- CHIP.ARBHOLDn: the holder of the grant or lock. -/
def arbholdWord (s : State) (n : Nat) : Word :=
  let a := arbSt s n
  match a.lock, a.grant with
  | some i, _ => w32 (i % 64)
  | none, some i => w32 (i % 64)
  | none, none => 0x80000000

/-- CHIP.PRUNESTAT of the firmware Prune. -/
def prunestatWord (s : State) : Word :=
  let c := s.chip
  fields [flag (c.prunes.any (fun p => !p.signed)) 31, (c.pruneResult, 28), (c.pruneKind, 24), (c.pruneElapsed % 65536, 0)]

/-- CHIP.SLOTA and SLOTB. -/
def slotWord (x : SlotSt) : Word := fields [(x.state, 30), (x.reason, 0)]

/-- CHIP.RRST: BUSY and RESULT. -/
def rrstWord (s : State) : Word :=
  fields [flag (s.chip.rrst != []) 30, flag s.chip.rrstRefused 28]

/-- CHIP.WDOG.LEFT: the independent oscillator's count, anything up to the last kick's period. [DESIGN CHOICE, log 18] -/
def wdogWord (s : State) : Word :=
  w32 (min 0xFFFF ((Config.freeValue s.free).toNat % (s.chip.wdogLeft + 1)))

/-- Word i of CHIP.PAIRHLTH. -/
def healthWord (s : State) (i : Nat) : Word :=
  match s.pair.health with
  | some h => w32 (((healthBytes h).drop (4 * i)).take 4 |>.foldr (fun b n => b.toNat + 256 * n) 0)
  | none => 0

/-- Words of event log entry i (R453). -/
def eventWords (s : State) (i : Nat) : List Word :=
  let e := (assoc s.chip.ev i).getD {}
  [w32 e.tb, w32 (e.tb / 2 ^ 32), w32 e.tick, w32 (e.code + 65536 * e.detail)]

/-- The registers of CHIP. -/
def readChip (s : State) (o : Nat) : Word :=
  let c := s.chip
  if o = 0x000 then fields [(partNo s.fuse.variant, 16), (0xB0, 8)]
  else if o = 0x004 then loW s.fuse.serial
  else if o = 0x008 then wideWord s 0x10000004 1 []
  else if o = 0x00C then fuseWord s
  else if o = 0x010 then silicon s.fuse.variant
  else if o = 0x014 then usable s
  else if o = 0x018 then caps2 s
  else if o = 0x01C then caps3 s
  else if o = 0x020 then fields [(c.rstKind, 28), (c.rstCount, 0)]
  else if o = 0x024 then slotWord c.slotA
  else if o = 0x028 then slotWord c.slotB
  else if o = 0x030 then wdogWord s
  else if o = 0x034 then rrstWord s
  else if o = 0x038 then fields [(c.pstate.code, 30)]
  else if o = 0x03C then fields [(c.bbRec, 24), (c.bbSkip, 16), (c.bbErase, 0)]
  else if o = 0x040 then c.dwin.setWidth 32
  else if 0x080 ≤ o ∧ o < 0x0C0 then nth s.fuse.devPub ((o - 0x080) / 4)
  else if o = 0x100 then w32 c.evWr
  else if o = 0x104 then w32 c.evRd
  else if o = 0x108 then fields [(c.evLost, 16), (c.evTotal, 0)]
  else if o = 0x200 then xingstatWord s
  else if o = 0x304 then prunestatWord s
  else if 0x400 ≤ o ∧ o < 0x450 then arbctlWord s ((o - 0x400) / 4)
  else if 0x480 ≤ o ∧ o < 0x4D0 then arbholdWord s ((o - 0x480) / 4)
  else if 0x500 ≤ o ∧ o < 0x600 then w32 (reqPri s ((o - 0x500) / 4))
  else if o = 0x600 then fields [(s.image.pairCfg.hbn, 25), flag s.image.pairCfg.autoho 24, (s.image.pairCfg.hmbox, 0)]
  else if o = 0x604 then pairstatWord s
  else if o = 0x608 then w32 s.pair.compares
  else if o = 0x60C then fields [(s.pair.skips, 16), (s.pair.divs, 0)]
  else if o = 0x610 then pairhoWord s
  else if 0x640 ≤ o ∧ o < 0x680 then healthWord s ((o - 0x640) / 4)
  else if 0x1000 ≤ o ∧ o < 0x3000 then
    wideWord s (0x10000000 + o - o % 16) (o % 16 / 4) (eventWords s ((o - 0x1000) / 16))
  else 0

/-! ### TIME -/

/-- A domain's last offset, saturating. -/
def offsetWord (s : State) (d : Nat) : Word := BitVec.ofInt 32 (clampI (-2147483647) 2147483647 (domSt s d).offset)

/-- TIME.SYNCCFG and SYNCLIM. -/
def syncWord (s : State) : Word :=
  let i := s.image
  fields [(s.time.profile, 30), (i.transport, 28), (i.doma, 21), (i.domb, 14), (i.revert, 6), (i.disagree, 0)]

/-- Trigger registers at an offset within trigger i. -/
def readTrig (s : State) (i k : Nat) : Word :=
  let t := trigSt s i
  if k < 0x10 then wideWord s (0x20000100 + 0x20 * i) (k / 4) (tbWords (1000000000 * t.pSec + t.pNsec) t.pStartFr)
  else if k = 0x10 then w32 t.pPerNs
  else if k = 0x14 then w32 (t.pPerFr % 65536)
  else if k = 0x18 then t.ctl &&& 0xCFFFFFFF
  else fields [flag t.active 31, flag t.late 30, flag t.src 29, (t.fired, 0)]

/-- Capture registers at an offset within input j; CAPTS0 is read by its own step. -/
def readCap (s : State) (j k : Nat) : Word :=
  let c := capSt s j
  if k = 0 then fields [(c.edge, 30), (c.filt, 0)]
  else if k = 4 then fields [flag c.ovf 31, (c.queue.length, 16), (c.lost, 0)]
  else if k = 0xC ∨ k = 0x10 then wideWord s (captsAddr j) ((k - 8) / 4) []
  else 0

/-- TIME.VCTL and VREC. -/
def vctlWord (s : State) : Word :=
  fields [(s.time.vmode, 30), (s.image.vfloor, 16), (s.image.vmin, 8), (s.image.vmax, 0)]

/-- TIME.VREC. -/
def vrecWord (s : State) : Word :=
  let t := s.time
  fields [flag t.recValid 31, flag t.vtx.isSome 30, (readbackCode t, 8), (t.vrec, 0)]

/-- The registers of TIME. -/
def readTime (s : State) (o : Nat) : Word :=
  let t := s.time
  if o < 0x10 then wideWord s 0x20000000 (o / 4) (tbWords t.tb t.tbFr)
  else if o = 0x10 then w32 t.tickno
  else if o = 0x14 then wideWord s 0x20000010 1 []
  else if o = 0x18 then fields [flag t.run 31, (s.image.k, 0)]
  else if 0x20 ≤ o ∧ o < 0x30 then wideWord s 0x20000020 ((o - 0x20) / 4) (tbWords t.tstart 0)
  else if o = 0x30 then w32 ((BitVec.ofInt 24 t.rate).toNat)
  else if o = 0x34 then servoWord s
  else if o = 0x38 then offsetWord s 0
  else if o = 0x3C then offsetWord s 1
  else if o = 0x40 then syncWord s
  else if o = 0x44 then fields [(s.image.phmax, 24), (s.image.slew, 16), (s.image.tc, 10), (s.image.stepth, 0)]
  else if 0x50 ≤ o ∧ o < 0x60 then wideWord s 0x20000050 ((o - 0x50) / 4) (tbWords t.domofs 0)
  else if o = 0x60 then fields [(t.xchk, 0)]
  else if 0x70 ≤ o ∧ o < 0x80 then
    let p := nth s.image.portlat ((o - 0x70) / 4)
    fields [(p.2, 16), (p.1, 0)]
  else if 0x100 ≤ o ∧ o < 0x180 then readTrig s ((o - 0x100) / 0x20) ((o - 0x100) % 0x20)
  else if 0x200 ≤ o ∧ o < 0x280 then readCap s ((o - 0x200) / 0x20) ((o - 0x200) % 0x20)
  else if o = 0x800 then promiseWord s
  else if o = 0x804 then fields [((s.image.hold &&& maskOf 16 (fun g => g < maxGroups s)).toNat, 16), (t.cover.toNat, 0)]
  else if o = 0x808 then w32 t.outcnt
  else if 0x840 ≤ o ∧ o < 0x868 then slackWord s ((o - 0x840) / 4)
  else if o = 0x880 then vrecWord s
  else if o = 0x884 then vctlWord s
  else 0

/-! ### RING -/

/-- RING.NODEr.j. -/
def nodeWord (s : State) (r j : Nat) : Word :=
  let n := nth (ringSt s r).nodes j
  fields [(n.early, 24), (n.late, 16), (n.consec, 13), flag (hasBit (ringSt s r).silent j) 12, flag n.spare 11, flag n.route 10]

/-- The registers of ring r. [DEDUCED, log 16] -/
def readRing (s : State) (r o : Nat) : Word :=
  let x := ringSt s r
  let c := ringCfg s r
  if o = 0x00 then fields [(c.etype, 16), (x.role, 14), (x.rank, 11), (c.dllim, 8), (x.node, 0)]
  else if o = 0x04 then ringStatWord s r
  else if o = 0x08 then x.members
  else if o = 0x0C then x.silent
  else if o = 0x10 then x.nullNow
  else if o = 0x14 then fields [(c.rttmax, 16), (x.rtt % 65536, 0)]
  else if o = 0x18 then fields [flag x.clValid 31, flag x.clDenied 30, (x.clSpare, 16), (x.clTick % 65536, 0)]
  else if o = 0x20 ∨ o = 0x24 then
    let p := nth x.ports ((o - 0x20) / 4)
    fields [flag p.up 31, flag p.loop 30, (p.fcserr, 0)]
  else if 0x100 ≤ o ∧ o < 0x180 then nodeWord s r ((o - 0x100) / 4)
  else if 0x180 ≤ o ∧ o < 0x200 then
    let n := nth x.nodes ((o - 0x180) / 4)
    fields [(n.upDelay % 65536, 16), (n.pathDelay % 65536, 0)]
  else if 0x1000 ≤ o ∧ o < 0x2000 then slotWord32 (nth c.slots ((o - 0x1000) / 16)) (o % 16 / 4)
  else if 0x2000 ≤ o ∧ o < 0x3000 then segWord (nth c.segs ((o - 0x2000) / 4))
  else 0

/-! ### AXIO -/

/-- AXIO.STATc. -/
def chanStatWord (x : ChanSt) : Word :=
  fields [flag x.fault 31, flag x.wire 30, flag x.amp 29, flag x.refd 28, flag x.dir 27, flag x.idx 26, flag x.chat 25,
    flag x.limP 24, flag x.limN 23, flag x.home 22, (x.dircnt, 0)]

/-- AXIO.CMPCTLc. -/
def cmpctlWord (x : ChanSt) (f : ChanCfg) : Word :=
  fields [flag x.arm 31, (x.cdirReg, 29), flag x.passed 28, flag x.behind 27, flag x.fired 26, flag f.cmpSrc 25, flag x.pol 24,
    (x.width, 0)]

/-- AXIO.HOMECFGc; GO reads 0. -/
def homecfgWord (x : ChanSt) (f : ChanCfg) : Word :=
  fields [(f.hmode, 28), flag f.hdir 27, flag x.busy 25, (x.hres, 22), (f.hspd, 10), (f.hdec, 0)]

/-- AXIO.EMFc. -/
def emfWord (x : ChanSt) : Word := fields [(s16 x.la, 16), flag x.lav 15, (x.emf.toNat, 0)]

/-- Registers of channel c. -/
def readChan (s : State) (c k : Nat) : Word :=
  let x := chSt s c
  let f := chanCfg s c
  let a := 0x90000000 + 0x100 * c
  match k / 4 with
  | 0 => fields [(f.mode, 28), (f.qthr, 24), (f.filt, 16), flag x.dirie 15, flag f.zgate 14]
  | 1 => w32 f.cpr
  | 2 => w32 x.single
  | 3 => loW x.pos
  | 4 => wideWord s (a + 0xC) 1 []
  | 5 => chanStatWord x
  | 6 => fields [(min 0xFFFF x.qTick, 16), (x.qTotal, 0)]
  | 7 => loW (cnt64 x.idxVal)
  | 8 => wideWord s (a + 0x1C) 1 []
  | 9 => loW x.cmpPend
  | 10 => hiW x.cmpPend
  | 11 => cmpctlWord x f
  | 12 => fields [(f.lpol.toNat, 29), (f.deb, 16), (f.chn, 8), (f.chw, 0)]
  | 13 => homecfgWord x f
  | 14 => loW (cnt64 x.hofs)
  | 15 => wideWord s (a + 0x38) 1 []
  | 16 => fields [(f.stepw, 24), (f.dirsu, 16), (f.maxstep, 0)]
  | 17 => fields [(f.smode, 30), (f.stalln, 24), (f.lamax, 12), (f.devwin, 0)]
  | 18 => fields [(f.encch, 27), (f.vminla, 16), (f.ratio, 0)]
  | 19 => emfWord x
  | 20 => fields [(f.ke, 16), (f.eofs, 0)]
  | 21 => if isSincos s c then fields [(f.rmin, 24), (f.rmax, 16)] else 0
  | 22 => if isSincos s c then fields [(f.sofs.toNat, 20), (f.cofs.toNat, 8), (f.gainr, 0)] else 0
  | 23 => if isSincos s c then fields [(x.rlast, 8), (x.rlow, 0)] else 0
  | _ => 0

/-! ### MOT -/

/-- Codes of SSTATbs.STATE: a spare in service 8, its shadow run 6, a handler 3. -/
def sliceState (s : State) (x : SliceSt) : Nat :=
  match x.run with
  | .retired => 7
  | .stopped => 4
  | .selftest => 5
  | r =>
    if x.s = 8 && (spareSt s x.b).spst = 1 then 8
    else if x.s = 8 then (match r with | .idle => 0 | _ => 6)
    else if stBit x 23 then 3
    else match r with | .run => 1 | .waitFb => 2 | .waitFf => 2 | _ => 0

/-- Registers and memories of a slice. -/
def readSlice (s : State) (b sl k : Nat) : Word :=
  match sliceSt s b sl with
  | none => 0
  | some x =>
    if k = 0x00 then fields [(x.ax1, 16), (x.ax0, 8), flag (sl == 8) 7]
    else if k = 0x04 ∨ k = 0x08 then
      let j := (k - 4) / 4
      fields [(nth x.esh j, 15), (nth x.vsh j, 10), (nth x.ash j, 5), (nth x.osh j, 0)]
    else if k = 0x0C then
      fields [(sliceState s x, 28), flag x.sat 23, flag x.v 22, flag x.stTrap 21, flag x.stAbort 20, (min 0xFFFF x.icntLast, 0)]
    else if k = 0x10 then fields [(x.evKind, 30), (x.evCause, 26), (x.evPc.toNat, 0)]
    else if k = 0x14 then sfaultWord s b sl
    else if k = 0x18 then fields [(x.cecnt, 16), (x.trapcnt, 0)]
    else if 0x8000 ≤ k ∧ k < 0xC000 then (dmemRead x (BitVec.ofNat 12 ((k - 0x8000) / 4))).setWidth 32
    else if 0xC000 ≤ k ∧ k < 0xE000 then
      nth ((s.image.slices.find? (fun c => c.b == b && c.s == sl)).getD {}).imem ((k - 0xC000) / 4)
    else 0

/-- Word w of the program store of a block's spare: 2,048 words for each of the eight active slices, in their order (R202). -/
def storeWordAt (img : Image) (b w : Nat) : Word :=
  nth ((img.slices.find? (fun c => c.b == b && c.s == w / 2048)).getD {}).imem (w % 2048)

/-- MOT.GMODEg and its neighbours: the registers of group g. -/
def readGrp (s : State) (g k : Nat) : Word :=
  let x := grpSt s g
  let c := grpCfg s g
  match k / 4 with
  | 0 => fields [(c.kind, 30), (c.nj, 26), (c.naux, 23), (c.kdeb, 22), (c.taskmask.toNat, 16), (c.brkdly, 8), (c.baseg, 0)]
  | 1 => motGstatWord s g
  | 2 => fields [(x.reason, 28), (x.refcnt, 0)]
  | 3 => fields [(x.sigma, 16), (x.ratio, 0)]
  | 4 => fields [(x.ovr, 16), (c.sramp, 0)]
  | 5 => fields [(c.vred, 16), (min 0xFFFF x.tcpv, 0)]
  | 6 => fields [(min 0xFFFF x.resid, 16), (x.ikcnt, 0)]
  | 7 => fields [(c.syncTmo, 16), (c.sets.toNat, 0)]
  | 8 => fields [flag x.toolOk 31, flag x.claimed 30, (c.tsrc, 28), (c.toolSpare, 16), (c.toolRing, 15), (x.tres, 0)]
  | _ => 0

/-- SRC or DST code and number of a port. -/
def portCode : Port → Nat × Nat
  | .none => (0, 0)
  | .axio c => (1, c)
  | .ring r j _ => (2 + r, j)

/-- A 64-bit pair of axis a at offset k: word 0 live, word 1 latched. -/
def pairWord (s : State) (a k : Nat) (v : BitVec 64) : Word :=
  wideWord s (0x40B00000 + 0x40 * a + k - k % 8) (k % 8 / 4) [loW v, hiW v]

/-- Registers of axis a. -/
def readAxis (s : State) (a k : Nat) : Word :=
  let x := axSt s a
  let c := axisCfg s a
  match k / 4 with
  | 0 => fields [(c.group, 28), (c.index, 24), ((portCode c.src).1, 22), ((portCode c.dst).1, 20), ((portCode c.src).2, 15),
      ((portCode c.dst).2, 10), flag c.endless 9, flag c.abs 8, flag c.conc 7]
  | 1 => c.avmax
  | 2 => c.aamax
  | 3 => c.ajmax
  | 4 | 5 => pairWord s a k c.vlimLo
  | 6 | 7 => pairWord s a k c.vlimHi
  | 8 | 9 => pairWord s a k c.aofs
  | 10 | 11 => pairWord s a k x.spt
  | 12 | 13 => pairWord s a k x.fb
  | 14 => fields [flag x.vclamp 31, flag x.lclamp 30, flag x.nullfb 29, flag x.xst 28, flag x.reinit 27, (x.vlimcnt, 0)]
  | 15 => c.astop
  | _ => 0

/-- Pose record words and the Jacobian of group g (R240, R241): 12 words per record. -/
def readPose (s : State) (g k : Nat) : Word :=
  let x := grpSt s g
  if k < 0x2A0 then nth (nth x.poses (k / 48)) (k % 48 / 4) else nth x.jac ((k - 0x2A0) / 4)

/-- The registers of MOT. -/
def readMot (s : State) (o : Nat) : Word :=
  if o < 0x800000 then
    let b := o / 0x100000
    let k := o % 0x100000
    if k / 0x10000 < 9 then readSlice s b (k / 0x10000) (k % 0x10000)
    else if k = 0xF0000 then bspareWord s b
    else if k = 0xF0004 then w32 (spareSt s b).cmpcnt
    else if 0x90000 ≤ k ∧ k < 0xA0000 then storeWordAt s.image b ((k - 0x90000) / 4)
    else 0
  else if o < 0x820000 then
    let k := (o - 0x800000) / 0x10000
    if o % 0x10000 = 0 then fields [((nth s.mot.kdeLive k).toNat, 24), (nth s.mot.kdeNan k, 0)] else 0
  else if 0x880000 ≤ o ∧ o < 0x888000 then
    let g := (o - 0x880000) / 0x800
    if (grpCfg s g).defined then wordAt (modelBytes s.image g (grpCfg s g)) ((o - 0x880000) % 0x800 / 4) else 0
  else if 0x900000 ≤ o ∧ o < 0x904000 then readPose s ((o - 0x900000) / 0x400) ((o - 0x900000) % 0x400)
  else if 0xA00000 ≤ o ∧ o < 0xA01000 then readGrp s ((o - 0xA00000) / 0x100) ((o - 0xA00000) % 0x100)
  else if 0xB00000 ≤ o ∧ o < 0xB02000 then readAxis s ((o - 0xB00000) / 0x40) ((o - 0xB00000) % 0x40)
  else 0

/-! ### SOL -/

/-- Registers of problem p. -/
def readProb (s : State) (p k : Nat) : Word :=
  let x := probSt s p
  match k / 4 with
  | 0 => fields [flag (x.enNext.getD x.en) 31]
  | 1 => pstatWord x
  | 2 => fields [(x.iterdone, 16), (x.pividx, 0)]
  | _ => fields [(x.gmiscnt, 16), (x.misscnt, 0)]

/-- The registers of SOL; the problem store reads as the values it holds, whose places the image fixes. -/
def readSol (s : State) (o : Nat) : Word :=
  if o < 0x4000 then (if (probCfg s (o / 64)).op = 0 then 0 else wordAt (probBytes (probCfg s (o / 64))) (o % 64 / 4))
  else if 0x10000 ≤ o ∧ o < 0x11000 then readProb s ((o - 0x10000) / 0x10) ((o - 0x10000) % 0x10)
  else if 0x20000 ≤ o ∧ o < 0x20010 then
    let b := (o - 0x20000) / 4
    fields [((nth s.sol.live b).toNat, 16), (min 255 (nth s.sol.jobs b), 0)]
  else if o = 0x30008 then fields [flag s.sol.ovf 31, flag s.sol.bad 30, (s.sol.applied, 0)]
  else if o = 0x3000C then fields [(s.image.missLim, 0)]
  else if 0x1000000 ≤ o ∧ o < 0xF000000 then storeWord s (o - 0x1000000)
  else 0

/-! ### TRL -/

/-- MIND in mm: 0xFFFF for none or beyond. -/
def mindField (x : TrlGroup) : Nat := match x.mind with | some d => min 0xFFFF (mmOf d) | none => 0xFFFF

/-- Age of a group's open request. -/
def waitAge (s : State) (g z : Nat) : Nat := (assoc (zoneSt s z).parked g).getD 0

/-- TRL.GZONEg. -/
def gzoneWord (s : State) (g : Nat) : Word :=
  let x := trlG s g
  let w := x.wait.getD 0
  fields [(x.zpri, 29), (x.held.length, 26), (x.zref, 24), (highRank s g, 16), (w, 8), flag x.wait.isSome 7,
    (min 64 (if x.wait.isSome then waitAge s g w else 0), 0)]

/-- Registers of group g in TRL. -/
def readTrlG (s : State) (g k : Nat) : Word :=
  let x := trlG s g
  let c := grpCfg s g
  match k / 4 with
  | 0 => gscaleWord s g
  | 1 => fields [(mindField x, 16), (min 0xFFFF x.vmeas, 0)]
  | 2 => gzoneWord s g
  | 3 => c.vlink | 4 => c.tdrv | 5 => c.ts0 | 6 => c.abrk | 7 => c.zr | 8 => c.vtol
  | 9 => w32 c.smin
  | _ => 0

/-- TRL.ZCTLz. -/
def zctlWord (s : State) (z : Nat) : Word :=
  let x := zoneSt s z
  fields [flag x.frz 31, flag (x.frz && x.holder.isNone) 30, flag x.holder.isSome 29, (x.holder.getD 0, 20),
    (min 16 x.parked.length, 15), (min 0x7FFF x.grants, 0)]

/-- Registers of tracked object j. -/
def readObj (s : State) (j k : Nat) : Word :=
  let x := nth s.trl.objs j
  let c := nth s.image.objs j
  if k = 0 then fields [flag x.present 31, flag x.stale 30, flag c.person 29, (c.sensor, 24), (min 0xFFFF x.age, 0)]
  else nth x.pos (k / 4 - 1)

/-- The registers of TRL. -/
def readTrl (s : State) (o : Nat) : Word :=
  if o = 0 then fields [(min 0xFFFF s.trl.pairsLast, 16), (min 0xFFF s.trl.batchesLast, 0)]
  else if o = 4 then (pipesHere s).foldl (fun (m : Word) p => m ||| (s.trl.live &&& bitOf 32 p)) 0
  else if 0x2000 ≤ o ∧ o < 0x2400 then readTrlG s ((o - 0x2000) / 0x40) ((o - 0x2000) % 0x40)
  else if 0x3000 ≤ o ∧ o < 0x3200 then readObj s ((o - 0x3000) / 0x10) ((o - 0x3000) % 0x10)
  else if 0x4000 ≤ o ∧ o < 0x4800 then
    let x := nth s.trl.objs ((o - 0x4000) / 64)
    let g := (o - 0x4000) % 64 / 4
    fields [(min 0xFFFF (nth x.hedge g), 16), (min 0xFFFF (nth x.hfull g), 0)]
  else if 0x5000 ≤ o ∧ o < 0x5200 then
    let x := nth s.image.sensors ((o - 0x5000) / 32)
    if x.defined then wordAt (sensorBytes x) (o % 32 / 4) else 0
  else if 0x8000 ≤ o ∧ o < 0x8800 then
    let z := (o - 0x8000) / 8
    if o % 8 = 0 then fields [(zoneRank s z, 24)] else zctlWord s z
  else if 0x1000000 ≤ o ∧ o < 0x1100000 then
    let x := nth s.image.prims ((o - 0x1000000) / 64)
    if x.kind = 0 then 0 else wordAt (primBytes x) (o % 64 / 4)
  else 0

/-! ### SAF -/

/-- SAF.PDUSTATp. -/
def pdustatWord (s : State) (p : Nat) : Word :=
  let x := nth s.saf.rx p
  let ok := (nth s.image.rx p).defined && x.lastSeq.isSome
  fields [flag (ok && !x.lateA) 31, flag (ok && !x.lateB) 30, (min 255 x.mism, 16), (min 0xFFFF x.onecnt, 0)]

/-- SAF.PEND. -/
def pendWord (s : State) : Word :=
  let f := s.saf
  fields [(f.mode, 30), flag f.pres 29, flag f.bridge 28, flag (f.pres && !(nth f.pend 0).demand) 27,
    flag (f.pres && (nth f.pend 1).demand) 26, flag (nth f.pend 3).a 25, ((f.brleft + 999999) / 1000000 % 65536, 0)]

/-- The registers of SAF. -/
def readSaf (s : State) (o : Nat) : Word :=
  let f := s.saf
  if o = 0x00 then instatWord s
  else if o = 0x04 then stooutWord s
  else if o = 0x08 then lastWord s
  else if o = 0x0C then f.check
  else if o = 0x10 then fields [flag f.match_ 31, flag f.present 30, (min 0xFFFF f.confCount, 0)]
  else if o = 0x14 then f.gack.setWidth 32
  else if o = 0x18 then monWord s
  else if o = 0x1C then f.sig
  else if o = 0x20 then pendWord s
  else if 0x100 ≤ o ∧ o < 0x140 then gstatWord s ((o - 0x100) / 4)
  else if 0x140 ≤ o ∧ o < 0x180 then
    let x := safG s ((o - 0x140) / 4)
    fields [(x.stocause, 24), (x.tsto % 2 ^ 24, 0)]
  else if 0x200 ≤ o ∧ o < 0x240 then pdustatWord s ((o - 0x200) / 4)
  else if 0x1000 ≤ o ∧ o < 0x2000 then wordAt (safetyBlock s.image) ((o - 0x1000) / 4)
  else 0

/-! ### HOST -/

/-- Registers of core port c. -/
def readPort (s : State) (c k : Nat) : Word :=
  let x := coreSt s c
  let it := x.item.getD {}
  if k = 0x00 then
    fields [flag x.item.isSome 31, flag (x.item.isSome && (flowCfg s it.flow).type == 2) 30, (it.flow, 20), (it.handle, 0)]
  else if k = 0x04 then it.arg
  else if k = 0x08 then w32 it.deadline
  else if k = 0x0C then w32 (it.deadline / 2 ^ 32)
  else if k = 0x40 then fields [flag x.enqValid 31, (x.enqResult, 28), (x.enqHandle, 0)]
  else if k = 0x54 then fields [flag x.pushValid 31, (x.pushResult, 28)]
  else if 0x800 ≤ k ∧ k < 0xE00 then (assoc x.pstage ((k - 0x800) / 4)).getD 0
  else 0

/-- Registers of flow f. -/
def readFlow (s : State) (f k : Nat) : Word :=
  let x := flowSt s f
  match k / 4 with
  | 0 => fields [flag x.en 31]
  | 1 => fields [flag (flowBusy s f) 31, flag x.valid 30, ((pendOf s f).length, 16), (x.misscnt, 0)]
  | 2 => w32 x.disp
  | _ => fields [(x.maxseen, 16), (x.last, 0)]

/-- Registers of queue q. -/
def readQueue (s : State) (q k : Nat) : Word :=
  let c := queueCfg s q
  let x := queueSt s q
  match k / 4 with
  | 0 => fields [flag c.overwrite 30, (c.cons, 26), flag (c.fw && q < 16) 25, (c.depth, 0)]
  | 1 => c.base
  | 2 => fields [(min 0xFFFF (qCount s q), 16), (x.drops, 0)]
  | 3 => fields [flag (qCount s q == 0) 31, (x.index, 0)]
  | _ => 0

/-- Words of pending item h: its item words as committed, with the values in force. -/
def readItem (s : State) (h k : Nat) : Word :=
  match s.host.items.find? (fun i => i.handle == h) with
  | none => 0
  | some i =>
    match k / 4 with
    | 0 => w32 i.flow | 1 => i.arg | 2 => w32 i.deadline | 3 => w32 (i.deadline / 2 ^ 32)
    | 4 => w32 i.release | 5 => w32 (i.release / 2 ^ 32) | 6 => i.ptr | _ => 0

/-- Registers of plant network n. -/
def readNet (s : State) (n k : Nat) : Word :=
  let c := ownNet s n
  let x := nth s.host.nets n
  match k / 4 with
  | 0 => fields [(c.vid, 20), (c.pcp, 17)]
  | 1 => w32 c.mac
  | 2 => w32 (c.mac / 2 ^ 32 % 65536)
  | 3 => w32 c.ip4
  | 4 => w32 (c.ip6 / 2 ^ 96) | 5 => w32 (c.ip6 / 2 ^ 64) | 6 => w32 (c.ip6 / 2 ^ 32) | 7 => w32 c.ip6
  | 8 => fields [(c.cmdPort, 16), (c.pduPort, 0)]
  | 9 | 10 =>
    let p := nth s.host.ports (2 * n + (k / 4 - 9))
    fields [flag p.up 31, (min 0xFFFF p.drop, 0)]
  | 11 => fields [(min 0xFFFF x.fcserr, 16), (min 0xFFFF x.ipdisc, 0)]
  | _ => 0

/-- VWORST: the longest queueing that ended in the last millisecond, in 10 µs units. [DESIGN CHOICE, log 18] -/
def vworst (s : State) : Nat :=
  (s.host.vwaits.filter (fun p => s.time.tb ≤ p.1 + 1000000)).foldl (fun n p => max n (p.2 / 10000)) 0

/-- The command block. -/
def readCmdBlock (s : State) (k : Nat) : Word :=
  let h := s.host
  if k = 0x00 then fields [(h.lastCode, 24), (h.lastKey, 16), (h.refcnt, 0)]
  else if k = 0x04 then w32 h.accepted
  else if k = 0x08 then fields [(h.dupcnt, 16), (h.ratecnt, 0)]
  else if k = 0x0C then fields [(h.vq.length, 16), (min 0xFFFF (vworst s), 0)]
  else if k = 0x10 then w32 s.image.cellId
  else if k = 0x14 then w32 (s.image.cellId / 2 ^ 32)
  else if k = 0x18 then w32 h.nonce
  else if k = 0x1C then w32 (h.nonce / 2 ^ 32)
  else if 0x20 ≤ k ∧ k < 0x60 then
    let v := BitVec.ofNat 64 (nth h.keys ((k - 0x20) / 8)).last
    wideWord s (0x80060100 + k - k % 8) (k % 8 / 4) [loW v, hiW v]
  else 0

/-- The half of a publish buffer that firmware writes, in the core's map. -/
def pubAddr (s : State) (b : Nat) : Word :=
  let p := nth s.image.pubs b
  w32 (0xB0000000 + (p.1 + (if hasBit s.host.pubActive b then 0 else p.2)) % 0x800000)

/-- The registers of HOST. -/
def readHost (s : State) (o : Nat) : Word :=
  let h := s.host
  if o = 0x00 then
    fields [(min 8191 h.items.length, 16), ((maskOf 8 (fun c => idle s c)).toNat, 8), (h.live.toNat, 0)]
  else if o = 0x04 then fields [(s.image.traceMask.toNat, 16)]
  else if o = 0x08 then fields [(min 0xFFFF (Config.dispatchLatency (s.time.tb / 1000000)), 16)]
  else if 0x10 ≤ o ∧ o < 0x30 then fields [(min 0xFFFF (coreSt s ((o - 0x10) / 4)).cecnt, 0)]
  else if 0x400 ≤ o ∧ o < 0x600 then
    let b := (o - 0x400) / 8
    if o % 8 = 0 then fields [flag (hasBit h.pubActive b) 30] else pubAddr s b
  else if 0x1000 ≤ o ∧ o < 0x9000 then readPort s (o / 0x1000 - 1) (o % 0x1000)
  else if 0x10000 ≤ o ∧ o < 0x18000 then
    let f := flowCfg s ((o - 0x10000) / 32)
    if f.type = 0 then 0 else wordAt (flowBytes f) (o % 32 / 4)
  else if 0x20000 ≤ o ∧ o < 0x24000 then readFlow s ((o - 0x20000) / 0x10) ((o - 0x20000) % 0x10)
  else if 0x30000 ≤ o ∧ o < 0x34000 then wordAt (snapEntryAt s.image ((o - 0x30000) / 16)) (o % 16 / 4)
  else if 0x40000 ≤ o ∧ o < 0x40400 then readQueue s ((o - 0x40000) / 0x20) ((o - 0x40000) % 0x20)
  else if 0x60000 ≤ o ∧ o < 0x60080 then readNet s ((o - 0x60000) / 0x40) ((o - 0x60000) % 0x40)
  else if 0x60100 ≤ o ∧ o < 0x60160 then readCmdBlock s (o - 0x60100)
  else if 0x60200 ≤ o ∧ o < 0x60480 then
    let k := nth s.image.keys ((o - 0x60200) / 80)
    if k.role = .empty then 0 else wordAt (keyBytes k) ((o - 0x60200) % 80 / 4)
  else if 0x80000 ≤ o ∧ o < 0xA0000 then readItem s ((o - 0x80000) / 0x20) ((o - 0x80000) % 0x20)
  else if 0x1000000 ≤ o ∧ o < 0x1100000 then
    let k := coreSt s ((o - 0x1000000) / 0x20000)
    let m := o % 0x20000
    let rd (l : List Host.Cell) (a : Nat) : Nat := (memRead l a).toNat
    let l := if m < 0x10000 then k.imem else k.dmem
    let a := m % 0x10000
    w32 (rd l a + 256 * rd l (a + 1) + 65536 * rd l (a + 2) + 16777216 * rd l (a + 3))
  else 0

/-! ### Every region -/

/-- The region of an address by its row of the core's map (R443). -/
def regionAt (a : Nat) : Option Region :=
  match a / 0x10000000 with
  | 1 => some .chip | 2 => some .time | 3 => some .ring | 4 => some .mot | 5 => some .sol | 6 => some .trl | 7 => some .saf
  | 8 => some .host | 9 => some .axio | _ => none

/-- The row of a region in the core's map. -/
def rowOf : Region → Nat
  | .chip => 1 | .time => 2 | .ring => 3 | .mot => 4 | .sol => 5 | .trl => 6 | .saf => 7 | .host => 8 | .axio => 9

/-- `region.RWDOG`: the image's bound. -/
def rwdogWord (s : State) (r : Region) : Word := w32 (nth s.image.rwdog r.id)

/-- What a register reads: the region control block at base + 0x0F00_0000, else the region's own registers; an address that no
table assigns reads 0 (R445). [DESIGN CHOICE, log 26] -/
def readReg (s : State) (r : Region) (o : Nat) : Word :=
  if 0xF000000 ≤ o then
    (if o = 0xF000000 then rstatWord s r else if o = 0xF000004 then rwdogWord s r else if o = 0xF000008 then rblkWord s r else 0)
  else match r with
  | .chip => readChip s o
  | .time => readTime s o
  | .ring => if o < 0x200000 then readRing s (o / 0x100000) (o % 0x100000) else 0
  | .mot => readMot s o
  | .sol => readSol s o
  | .trl => readTrl s o
  | .saf => readSaf s o
  | .host => readHost s o
  | .axio => if o < 0x2000 then readChan s (o / 0x100) (o % 0x100) else 0

/-- The words of a multi-word value at the address of its word 0 (R12, R95): what a read of it latches. CAPTS is read by its
own step. -/
def wideWords (s : State) (a : Nat) : Option (List Word) :=
  let t := s.time
  if a = 0x10000004 then some [loW s.fuse.serial, hiW s.fuse.serial]
  else if 0x10001000 ≤ a ∧ a < 0x10003000 ∧ a % 16 = 0 then some (eventWords s ((a - 0x10001000) / 16))
  else if a = 0x20000000 then some (tbWords t.tb t.tbFr)
  else if a = 0x20000010 then some [w32 t.tickno, w32 (t.tickno / 2 ^ 32)]
  else if a = 0x20000020 then some (tbWords t.tstart 0)
  else if a = 0x20000050 then some (tbWords t.domofs 0)
  else if 0x20000100 ≤ a ∧ a < 0x20000180 ∧ a % 0x20 = 0 then
    let i := (a - 0x20000100) / 0x20
    some (tbWords (1000000000 * (trigSt s i).pSec + (trigSt s i).pNsec) (trigSt s i).pStartFr)
  else if 0x40B00000 ≤ a ∧ a < 0x40B02000 then
    let i := (a - 0x40B00000) / 0x40
    let pr (v : BitVec 64) : Option (List Word) := some [loW v, hiW v]
    match a % 0x40 with
    | 0x10 => pr (axisCfg s i).vlimLo
    | 0x18 => pr (axisCfg s i).vlimHi
    | 0x20 => pr (axisCfg s i).aofs
    | 0x28 => pr (axSt s i).spt
    | 0x30 => pr (axSt s i).fb
    | _ => none
  else if 0x80060120 ≤ a ∧ a < 0x80060160 ∧ a % 8 = 0 then
    let v := BitVec.ofNat 64 (nth s.host.keys ((a - 0x80060120) / 8)).last
    some [loW v, hiW v]
  else if 0x90000000 ≤ a ∧ a < 0x90002000 then
    let x := chSt s ((a - 0x90000000) / 0x100)
    match a % 0x100 with
    | 0x0C => some [loW x.pos, hiW x.pos]
    | 0x1C => some [loW (cnt64 x.idxVal), hiW (cnt64 x.idxVal)]
    | 0x38 => some [loW (cnt64 x.hofs), hiW (cnt64 x.hofs)]
    | _ => none
  else none

end Sys2Proof.Machine
end

