-- ==== Sys2Proof/Machine/Access.lean ====
section
/-! DEFINITION. Access.lean: where an address of the core's map leads (R443 to R451), and a write or read of a register there:
the writes that R13 lets firmware make, and the reads of multi-word values. -/

namespace Sys2Proof.Machine

/-! ### Where an address leads -/

/-- What an access reaches. -/
inductive Target where
  | unmapped
  | absent
  | token
  | quar (r : Region) (b : Nat)
  | reg (r : Region) (o : Nat)
  | mem (a : Nat)
  | own (o : Nat)
  | other
  deriving DecidableEq, Repr

/-- The native address of a compatibility window address (R450); none outside its ranges. [DEDUCED, log 27] -/
def nativeAddr (a : Nat) : Option Nat :=
  let k := a % 0x1000000
  let u := k / 0x10000
  match (a - 0xA0000000) / 0x1000000 with
  | 0 => if k < 0x1000 then some (0x10000000 + k) else none
  | 1 => if u < 16 then some (0x40000000 + u / 8 * 0x100000 + u % 8 * 0x10000 + k % 0x10000) else none
  | 2 => if u < 2 then some (0x400F0000 + u * 0x100000 + k % 0x10000) else none
  | 3 => if k < 0x400 ∨ (0x100000 ≤ k ∧ k < 0x100800) then some (0x40A00000 + k) else none
  | 4 => if k < 0x100000 then some (0x30000000 + k) else none
  | 5 => if k < 0x2000 then some (0x90000000 + k) else none
  | 6 => some (0x70000000 + k)
  | 7 => some (0x80000000 + k)
  | 8 => some (0x20000000 + k)
  | _ => none

/-- Offset inside [lo, lo + n × sz): the index. -/
def indexIn (o lo sz n : Nat) : Option Nat := if lo ≤ o ∧ o < lo + n * sz then some ((o - lo) / sz) else none

/-- An index at or above a limit. [DEDUCED, log 25] -/
def beyond (i : Option Nat) (m : Nat) : Bool := match i with | some n => m ≤ n | none => false

/-- A unit that the variant or the running mode lacks (R3, R6, R68, R119, R150, R152, R245, R272, R297, R375). [DEDUCED, log 25] -/
def unitAbsent (s : State) (r : Region) (o : Nat) : Bool :=
  let v := s.fuse.variant
  if 0xF000000 ≤ o then s.image.compat
  else match r with
  | .chip => beyond (indexIn o 0x400 4 20) (maxArbs v) || beyond (indexIn o 0x480 4 20) (maxArbs v) ||
      (v != .v6128 && (indexIn o 0x600 0x80 1).isSome)
  | .ring => beyond (indexIn o 0 0x100000 2) (if nodeMode s then 1 else maxRings v)
  | .mot => nodeMode s || beyond (indexIn o 0 0x100000 8) (motBlocks v) || beyond (indexIn o 0x800000 0x10000 2) (kdeBlocks v) ||
      beyond (indexIn o 0x880000 0x800 16) (maxGroups s) || beyond (indexIn o 0x900000 0x400 16) (maxGroups s) ||
      beyond (indexIn o 0xA00000 0x100 16) (maxGroups s) || beyond (indexIn o 0xB00000 0x40 128) (maxAxes s)
  | .sol => !hasSolTrl s || beyond (indexIn o 0x20000 4 4) (solBlocks v)
  | .trl => !hasSolTrl s || beyond (indexIn o 0x2000 0x40 16) (maxGroups s) ||
      beyond (indexIn o 0x1000000 64 16384) (maxPrims v) ||
      (match indexIn o 0x4000 4 512 with | some w => maxGroups s ≤ w % 16 | none => false)
  | .saf => beyond (indexIn o 0x100 4 16) (maxGroups s) || beyond (indexIn o 0x140 4 16) (maxGroups s)
  | .host => match indexIn o 0x40000 0x20 16 with | some q => maxGroups s ≤ q | none => false
  | .axio => beyond (indexIn o 0 0x100 32) (maxChans v)
  | .time => false

/-- The block of R40 whose registers an offset lies in. -/
def blockAt (s : State) (r : Region) (o : Nat) : Option Nat :=
  match r with
  | .mot => match indexIn o 0 0x100000 8 with
    | some b => some b
    | none => (indexIn o 0x800000 0x10000 2).map (fun k => 8 + k)
  | .axio => (indexIn o 0 0x100 32).map (fun c => c / chanBlock s.fuse.variant)
  | .ring => indexIn o 0 0x100000 2
  | .sol => indexIn o 0x20000 4 4
  | .host => match indexIn o 0x1000 0x1000 8 with
    | some c => some (c / 4)
    | none => (indexIn o 0x1000000 0x20000 8).map (fun c => c / 4)
  | _ => none

/-- An access to a register of a region. The region control block answers while its region is stopped. -/
def regTarget (s : State) (r : Region) (o : Nat) : Target :=
  if unitAbsent s r o then .absent
  else if 0xF000000 ≤ o then .reg r o
  else if regionStopped r s then .token
  else match blockAt s r o with
    | some b => if hasBit (regSt s r).quar b then .quar r b else .reg r o
    | none => .reg r o

/-- The port at 0x8000_9000 is the accessing core's own (R361's register tables). -/
def ownPort (who : Option Nat) (s : State) (o : Nat) : Target :=
  match who with
  | some c => regTarget s .host (0x1000 * (c + 1) + o % 0x1000)
  | none => .token

/-- What a native address leads to, for core `who` or for another requester. -/
def nativeTarget (who : Option Nat) (s : State) (a : Nat) : Target :=
  if coreUnmapped a then .unmapped
  else match regionAt a with
    | some .host => if (indexIn a 0x80009000 0x1000 1).isSome then ownPort who s (a % 0x10000000) else regTarget s .host (a % 0x10000000)
    | some r => regTarget s r (a % 0x10000000)
    | none =>
      if 0xC0000000 ≤ a then
        (match who with
        | some c => .mem (s.chip.dwin.toNat / 8 ^ c % 8 * 0x40000000 + (a - 0xC0000000))
        | none => .other)
      else if 0xB0000000 ≤ a then .mem (0x8000000000 + (a - 0xB0000000))
      else .own a

/-- What an address of the core's map leads to (R443, R450, R451). [DEDUCED, log 27] -/
def target (who : Option Nat) (s : State) (a : Nat) : Target :=
  if 0xA0000000 ≤ a ∧ a < 0xB0000000 then
    (if s.image.compat then (match nativeAddr a with | some n => nativeTarget who s n | none => .unmapped) else .absent)
  else nativeTarget who s a

/-! ### Register writes (R13): what each writable field does -/

/-- Element i of a list set, the list grown with `d` where it is short. -/
def setAt {α : Type} (l : List α) (i : Nat) (v d : α) : List α := (l ++ List.replicate (i + 1 - l.length) d).set i v

/-- A word of a 64-bit value replaced. -/
def putHalf (v : BitVec 64) (hi : Bool) (w : Word) : BitVec 64 :=
  if hi then (w ++ (v.setWidth 32)) else ((v >>> 32).setWidth 32 ++ w)

/-- Clear OVF of CHIP.XINGSTAT: the class B condition it made ends (R56, R47). [DESIGN CHOICE, log 30] -/
def clearOvf (s : State) : State := endB 6 0 (onChip (fun c => { c with xOvf := false }) s)

/-- Writes in CHIP. [DESIGN CHOICE, log 30] -/
def writeChip (o : Nat) (v : Word) (s : State) : State :=
  let n := v.toNat
  if o = 0x030 then wdogKick ((v >>> 24).setWidth 8) s
  else if o = 0x034 then (if v.getLsbD 31 then regionRestart (n % 256) s else s)
  else if o = 0x040 then onChip (fun c => { c with dwin := v.setWidth 24 }) s
  else if o = 0x104 then
    onChip (fun c => { c with evRd := n % 512, evFull := c.evFull && c.evRd == n % 512 }) s
  else if o = 0x200 then (if v.getLsbD 31 then clearOvf s else s)
  else if o = 0x300 then firmwarePrune (n / 2 ^ 28) (n / 65536 % 256) (n % 65536) s
  else if 0x400 ≤ o ∧ o < 0x450 then
    (if v.getLsbD 31 then arbFreeze ((o - 0x400) / 4) s else arbUnfreeze ((o - 0x400) / 4) s)
  else if 0x500 ≤ o ∧ o < 0x5B8 then
    onChip (fun c => { c with reqPri := setAt c.reqPri ((o - 0x500) / 4) (n % 8) 0 }) s
  else s

/-- The pending START of a trigger with word k replaced (R95). [DEDUCED, log 29] -/
def putStart (t : TrigSt) (k : Nat) (v : Nat) : TrigSt :=
  match k with
  | 0 => { t with pStartFr := v % 65536 }
  | 1 => { t with pNsec := v }
  | 2 => { t with pSec := t.pSec / 2 ^ 32 * 2 ^ 32 + v }
  | _ => { t with pSec := v * 2 ^ 32 + t.pSec % 2 ^ 32 }

/-- Writes to trigger i at offset k. -/
def writeTrigReg (who : Who) (i k : Nat) (v : Word) (s : State) : State :=
  if k < 0x10 then onTrig i (fun t => putStart t (k / 4) v.toNat) s
  else if k = 0x10 then onTrig i (fun t => { t with pPerNs := v.toNat }) s
  else if k = 0x14 then onTrig i (fun t => { t with pPerFr := v.toNat % 65536 }) s
  else if k = 0x18 then triggerWrite who i v s.time.tb s
  else if v.getLsbD 30 then onTrig i (fun t => { t with late := false }) s
  else s

/-- Writes to capture input j at offset k. -/
def writeCapReg (j k : Nat) (v : Word) (s : State) : State :=
  if k = 0 then onCap j (fun c => { c with edge := v.toNat / 2 ^ 30, filt := v.toNat % 256 }) s
  else if k = 4 && v.getLsbD 31 then onCap j (fun c => { c with ovf := false }) s
  else s

/-- Writes in TIME. -/
def writeTime (who : Who) (o : Nat) (v : Word) (s : State) : State :=
  if 0x100 ≤ o ∧ o < 0x180 then writeTrigReg who ((o - 0x100) / 0x20) ((o - 0x100) % 0x20) v s
  else if 0x200 ≤ o ∧ o < 0x280 then writeCapReg ((o - 0x200) / 0x20) ((o - 0x200) % 0x20) v s
  else if o = 0x83C then (if v.getLsbD 0 then slackClear s else s)
  else if 0x840 ≤ o ∧ o < 0x868 then
    (if v.getLsbD 31 then onTime (fun t => { t with slack := updAt t.slack ((o - 0x840) / 4) (fun x => { x with miss := false }) }) s else s)
  else s

/-- A write of CMPCTL (R162 to R165): POL, WIDTH, CDIR and PASSED, FIRED cleared by 1, then the arm or disarm. -/
def writeCmpctl (c : Nat) (v : Word) (s : State) : State :=
  let d := v.toNat / 2 ^ 29 % 4
  let p := v.getLsbD 28
  let s := onChan c (fun x => { x with
    cdirReg := d, passed := p, pol := v.getLsbD 24, width := v.toNat % 65536, fired := x.fired && !v.getLsbD 26 }) s
  if v.getLsbD 31 then compareArm c d p s else compareDisarm c s

/-- Writes to channel c at offset k. -/
def writeChan (c k : Nat) (v : Word) (s : State) : State :=
  if k = 0x00 then onChan c (fun x => { x with dirie := v.getLsbD 15 }) s
  else if k = 0x14 then
    let s := onChan c (fun x => { x with idx := x.idx && !v.getLsbD 26, chat := x.chat && !v.getLsbD 25 }) s
    if v.getLsbD 31 then feedbackFaultClear c s else s
  else if k = 0x24 ∨ k = 0x28 then
    (if cmpFromList s c then s else onChan c (fun x => { x with cmpPend := putHalf x.cmpPend (k == 0x28) v }) s)
  else if k = 0x2C then writeCmpctl c v s
  else if k = 0x34 then (if v.getLsbD 26 then homingStart c s else s)
  else s

/-- Writes in SOL. -/
def writeSol (o : Nat) (v : Word) (s : State) : State :=
  if 0x10000 ≤ o ∧ o < 0x11000 then
    let p := (o - 0x10000) / 0x10
    if o % 0x10 = 0 then
      let s := problemEnableWrite p (v.getLsbD 31) s
      if v.getLsbD 30 then problemClearLost p s else s
    else s
  else if o = 0x30000 then { s with sol := { s.sol with delta0 := v } }
  else if o = 0x30004 then deltaCommit v s
  else if o = 0x30008 then
    { s with sol := { s.sol with ovf := s.sol.ovf && !v.getLsbD 31, bad := s.sol.bad && !v.getLsbD 30 } }
  else s

/-- Writes in TRL. -/
def writeTrl (o : Nat) (v : Word) (s : State) : State :=
  if 0x2000 ≤ o ∧ o < 0x2400 ∧ o % 0x40 = 8 then
    onTrlG ((o - 0x2000) / 0x40) (fun x => { x with zpri := v.toNat / 2 ^ 29 }) s
  else if 0x8000 ≤ o ∧ o < 0x8800 ∧ o % 8 = 4 then zoneFreeze ((o - 0x8000) / 8) (v.getLsbD 31) s
  else s

/-- Writes to core port c at offset k. -/
def writePort (c k : Nat) (v : Word) (s : State) : State :=
  if k = 0x10 then itemDone c s.time.tb s
  else if 0x20 ≤ k ∧ k < 0x3C then onCore c (fun x => { x with enq := updAt x.enq ((k - 0x20) / 4) (fun _ => v) }) s
  else if k = 0x3C then enqueue c s.time.tb s
  else if k = 0x50 then queuePush c (v.toNat / 65536 % 32) (v.toNat % 2048) s
  else if 0x800 ≤ k ∧ k < 0xE00 then onCore c (fun x => { x with pstage := assocPut x.pstage ((k - 0x800) / 4) v }) s
  else s

/-- Writes in HOST. [DESIGN CHOICE, log 31] -/
def writeHost (who : Who) (o : Nat) (v : Word) (s : State) : State :=
  if 0x400 ≤ o ∧ o < 0x600 then
    (if o % 8 = 0 && v.getLsbD 31 then publishFlip ((o - 0x400) / 8) s else s)
  else if 0x1000 ≤ o ∧ o < 0x9000 then writePort (o / 0x1000 - 1) (o % 0x1000) v s
  else if 0x20000 ≤ o ∧ o < 0x24000 ∧ o % 0x10 = 0 then
    let f := (o - 0x20000) / 0x10
    if v.getLsbD 31 then flowEnable f s.time.tb s else flowDisable f s
  else if 0x40000 ≤ o ∧ o < 0x40400 ∧ o % 0x20 = 0x10 then queueAck who ((o - 0x40000) / 0x20) (v.toNat % 512) s
  else s

/-- A register write: RW, W1C and WO fields take effect; RO, IMG and SGN fields and unassigned addresses discard it (R13, R15,
R445). -/
def writeReg (who : Who) (r : Region) (o : Nat) (v : Word) (s : State) : State :=
  match r with
  | .chip => writeChip o v s
  | .time => writeTime who o v s
  | .axio => if o < 0x2000 then writeChan (o / 0x100) (o % 0x100) v s else s
  | .sol => writeSol o v s
  | .trl => writeTrl o v s
  | .host => writeHost who o v s
  | _ => s

/-! ### A tick-locked item's window (R86) -/

/-- n bytes of DMEM from an offset on lie inside the item's snapshot copy, output buffer or stack. -/
def inTlAreas (f : FlowCfg) (o n : Nat) : Bool :=
  f.snaps.any (fun e => e.dstofs ≤ o && o + n ≤ e.dstofs + snapLen e) ||
    (f.outOfs ≤ o && o + n ≤ f.outOfs + f.outLen) || (f.stackOfs ≤ o && o + n ≤ f.stackOfs + f.stackLen)

/-- Whether a load of n bytes is outside what the issuer's tick-locked item may read (R86). -/
def tlLoadEscape (s : State) (who : Who) (a n : Nat) : Bool :=
  match tlFlow s who with
  | some f => !(0x10000 ≤ a && a < 0x20000 && inTlAreas f (a - 0x10000) n)
  | none => false

/-- Whether a store of n bytes is outside what the issuer's tick-locked item may write: its three areas, and CDONE (R370). -/
def tlEscape (s : State) (who : Who) (a n : Nat) : Bool :=
  tlLoadEscape s who a n && !(n == 4 && (a == 0x80009010 ||
    (match coreOf who with | some c => a == 0x80001010 + 0x1000 * c | none => false)))

/-! ### The steps -/

/-- A store to a core's own memory: IMEM cannot be written while the device runs (R353). -/
def storeLocal (who : Who) (a : Nat) (bs : List Byte) (s : State) : State :=
  match coreOf who with
  | some c => if 0x10000 ≤ a then onCore c (fun k => { k with dmem := memWrites k.dmem (a - 0x10000) bs }) s else s
  | none => s

/-- n bytes of a core's own memory: IMEM, or DMEM from 0x1_0000 on (R353). -/
def localBytes (s : State) (who : Who) (a n : Nat) : List Byte :=
  match coreOf who with
  | some c => if 0x10000 ≤ a then memBytes (coreSt s c).dmem (a - 0x10000) n else memBytes (coreSt s c).imem a n
  | none => []

/-- REGISTER_WRITE (R11 to R15, R443 to R451). [DESIGN CHOICE, log 28] -/
def registerWrite (who : Who) (addr v : Word) (s : State) : State :=
  let a := addr.toNat
  if tlEscape s who a 4 then coreTrap ((coreOf who).getD 0) s.time.tb s
  else match target (coreOf who) s a with
  | .unmapped => event 0x0103 0 (errorToken s)
  | .absent => absentAccess true s
  | .token => errorToken s
  | .quar r b => quarantinedAccess r b s
  | .reg r o => acked (writeReg who r o v s)
  | .mem m => if dmaOk m then acked { s with mem := memWrites s.mem m (leBytes 4 v.toNat) } else event 0x0103 0 (errorToken s)
  | .own o => acked (storeLocal who o (leBytes 4 v.toNat) s)
  | .other => s

/-- A read of POS0c restarts RLOW (R177's register table). [DESIGN CHOICE, log 61] -/
def afterRead (r : Region) (o : Nat) (s : State) : State :=
  if r == .axio && o < 0x2000 && o % 0x100 = 0x0C then onChan (o / 0x100) (fun x => { x with rlow := 255 }) s else s

/-- A register whose value is a free one: WDOG.LEFT and the problem store. [DEDUCED, log 17] -/
def readsFree (r : Region) (o : Nat) : Bool := r == .chip && o == 0x30

/-- A read of a register: its value, the latch of a multi-word value's further words, and a free value where the word holds
one. CAPTS0 takes the oldest entry of its queue. [DEDUCED, log 17] -/
def readTarget (r : Region) (o : Nat) (s : State) : State :=
  let a := 0x10000000 * rowOf r + o
  if r == .time && 0x200 ≤ o && o < 0x280 && o % 0x20 == 8 then captureRead ((o - 0x200) / 0x20) s
  else
    let t := answer (readReg s r o) s
    let t := match wideWords s a with | some (_ :: ws) => latchWords a ws t | _ => t
    afterRead r o (if readsFree r o then (drawFree t).2 else t)

/-- WIDE_REGISTER_READ (R12, R95). A load of a tick-locked item outside its areas ends the item (R86). [DESIGN CHOICE, log 24; DESIGN CHOICE, log 28] -/
def wideRegisterRead (who : Who) (addr : Word) (s : State) : State :=
  if tlLoadEscape s who addr.toNat 4 then coreTrap ((coreOf who).getD 0) s.time.tb s
  else match target (coreOf who) s addr.toNat with
  | .unmapped => event 0x0103 0 (errorToken s)
  | .absent => absentAccess false s
  | .token => errorToken s
  | .quar r b => quarantinedAccess r b s
  | .reg r o => readTarget r o s
  | .mem m => if dmaOk m then answer (wordOf (memBytes s.mem m 4)) s else event 0x0103 0 (errorToken s)
  | .own o => answer (wordOf (localBytes s who o 4)) s
  | .other => s

/-- ACCESS_SIZE_ERROR (R11): a byte or halfword access. Register space answers with an error token; memory takes every size. [DESIGN CHOICE, log 28] -/
def accessSizeError (who : Who) (addr : Word) (half : Bool) (wr : Option (BitVec 16)) (s : State) : State :=
  let n := if half then 2 else 1
  let escapes := match wr with
    | some _ => tlEscape s who addr.toNat n
    | none => tlLoadEscape s who addr.toNat n
  if escapes then coreTrap ((coreOf who).getD 0) s.time.tb s
  else match target (coreOf who) s addr.toNat with
  | .unmapped => event 0x0103 0 (errorToken s)
  | .absent => absentAccess wr.isSome s
  | .mem m =>
    if !dmaOk m then event 0x0103 0 (errorToken s)
    else match wr with
      | some v => acked { s with mem := memWrites s.mem m (leBytes n v.toNat) }
      | none => answer (wordOf (memBytes s.mem m n)) s
  | .own o => match wr with
      | some v => acked (storeLocal who o (leBytes n v.toNat) s)
      | none => answer (wordOf (localBytes s who o n)) s
  | .other => s
  | _ => event 0x0102 0 (errorToken s)

/-- ABSENT_UNIT_ACCESS (R3). -/
def absentUnitAccess (addr : Word) (write : Bool) (s : State) : State :=
  if target none s addr.toNat = .absent then absentAccess write s else s

def execRegisterWrite (who : Who) (addr v : Word) (s : State) : Out := run (registerWrite who addr v) s
def execWideRegisterRead (who : Who) (addr : Word) (s : State) : Out := run (wideRegisterRead who addr) s
def execAccessSizeError (who : Who) (addr : Word) (half : Bool) (wr : Option (BitVec 16)) (s : State) : Out :=
  run (accessSizeError who addr half wr) s
def execAbsentUnitAccess (addr : Word) (write : Bool) (s : State) : Out := run (absentUnitAccess addr write) s

end Sys2Proof.Machine
end

