-- ==== Sys2Proof/Machine/Node.lean ====
section
/-! DEFINITION. Node.lean: what a device in node mode does with its downlink (R150, R151): STO mask, set-points, compare
values and homing of its own channels. The image maps entries to channels and mask bits to lines. -/

namespace Sys2Proof.Machine

/-- A channel without torque: its pulses are dropped, and homing ends with HRES 5 (R150, R173). [DEDUCED, log 51] -/
def nodeStop (c : Nat) (s : State) : State :=
  let s := stepStop c s
  if (chSt s c).busy then homeFail c 5 s else s

/-- The downlink entry that the image maps to channel c (R150). -/
def entryOf (s : State) (c : Nat) : Option Nat := (chanCfg s c).dnEntry

/-- The STO mask removes the torque of channel c. -/
def stoOf (s : State) (sto : BitVec 32) (c : Nat) : Bool := match entryOf s c with | some e => hasBit sto e | none => false

/-- The channels whose torque bit of the STO mask is set. -/
def nodeSto (sto : BitVec 32) (s : State) : State :=
  forAll ((List.range (maxChans s.fuse.variant)).filter (stoOf s sto)) nodeStop s

/-- A received DISTRIBUTE frame (R128, R150): the segment used, and the torque it removes. [DESIGN CHOICE, log 50] -/
def distribute (r : Nat) (ccw : Bool) (at_ : Nat) (h : RingHead) (segs : List DownSeg) (s : State) : State :=
  let used := if frameOk s r h && !isMaster s r then usedDown s r ccw at_ h segs else none
  let s := distributeFrame r ccw at_ h segs s
  match used with
  | some d => let s := useDown r d s; if nodeMode s then nodeSto d.sto s else s
  | none => s

/-- The 64-bit value nearest to a count whose low 32 bits equal w. -/
def nearest32 (count : Int) (w : BitVec 32) : Int := count + (w - BitVec.ofInt 32 count).toInt

/-- CARM: the compare value in reported position, less the homing offset (R150). [DESIGN CHOICE, log 50] -/
def nodeArm (c : Nat) (e : DownEntry) (s : State) : State :=
  let x := chSt s c
  armCompare c (nearest32 x.count (e.vff - BitVec.ofInt 32 x.hofs)) (e.ctl.toNat / 8 % 4) x.passed s

/-- HGO: the generator starts the search from where it stands. -/
def nodeHome (c : Nat) (s : State) : State :=
  if (chSt s c).busy then s
  else homingStart c (onChan c (fun x => { x with hset := posOf (x.stepped * 16777216), hvel := 0 }) s)

/-- Homing moves the channel's own step generator: HSPD in the search direction, HDEC to a stop. -/
def nodeSearch (c : Nat) (s : State) : State :=
  let x := chSt s c
  let f := chanCfg s c
  let dec : Int := (f.hdec : Int) * 262144
  let v : Int :=
    if x.busy && x.hphase != 4 && !x.hstop then (if x.hdir then -(f.hspd : Int) else f.hspd) * 16777216
    else if 0 ≤ x.hvel then max 0 (x.hvel - dec) else min 0 (x.hvel + dec)
  let s := onChan c (fun x => { x with hvel := v, hset := x.hset + posOf v }) s
  stepSchedule c (chSt s c).hset s

/-- A set-point of the downlink as a position near the generator's. -/
def nodeTarget (x : ChanSt) (e : DownEntry) : Pos :=
  posOf (nearest32 x.stepped e.pos * 16777216) + (e.posf.setWidth 64 <<< 8)

/-- Channel c at the local E0: CARM and HGO of a segment used since the last one, then the pulses of the tick. -/
def nodeChan (lost fresh : Bool) (seg : Option DownSeg) (c : Nat) (s : State) : State :=
  match seg with
  | none => s
  | some d =>
    let e := match entryOf s c with | some i => nth d.entries i | none => {}
    let s := if fresh && hasBit e.ctl 2 then nodeArm c e s else s
    let s := if fresh && hasBit e.ctl 5 then nodeHome c s else s
    if lost || !hasStep s c || stoOf s d.sto c || (entryOf s c).isNone then s
    else if (chSt s c).busy || (chSt s c).hvel != 0 then nodeSearch c s
    else stepSchedule c (nodeTarget (chSt s c) e) s

/-- The local E0 of a device in node mode. -/
def nodeEdge (s : State) : State :=
  if !nodeMode s then s
  else
    let x := ringSt s 0
    let s := forAll (List.range (maxChans s.fuse.variant)) (nodeChan x.dlLost x.dlFresh x.dlNow) s
    onRing 0 (fun x => { x with dlMiss := (if x.dlUsed then 0 else x.dlMiss + 1), dlUsed := false, dlFresh := false }) s

/-- DLLIM, 0 acting as 2. -/
def dlLimit (s : State) : Nat := if (ringCfg s 0).dllim = 0 then 2 else (ringCfg s 0).dllim

/-- NODE_DL_LOST (R151): no downlink segment used for more consecutive ticks than DLLIM: every mapped line active, the step
generators stop, a class A fault. [DEDUCED, log 51] -/
def nodeDlLost (s : State) : State :=
  if nodeMode s && dlLimit s < (ringSt s 0).dlMiss && !(ringSt s 0).dlLost then
    let s := onSaf (fun f => { f with lineCmd := ~~~ maskLines s 0xFFFFFFFF }) (onRing 0 (fun x => { x with dlLost := true }) s)
    let s := forAll (List.range (maxChans s.fuse.variant)) nodeStop s
    classA (defined s) 16 0x0350 (event 0x0350 0 s)
  else s

def execDistributeFrame (r : Nat) (ccw : Bool) (at_ : Nat) (h : RingHead) (segs : List DownSeg) (s : State) : Out :=
  runIn .ring (distribute r ccw at_ h segs) s
def execNodeDlLost (s : State) : Out := run nodeDlLost s

end Sys2Proof.Machine
end

