-- ==== Sys2Proof/Machine/Record.lean ====
section
/-! DEFINITION. Record.lean: recording and checkpoints (R87 to R91): the inputs captured for a tick, the record of a tick in the ring
of Q31 in LP4X DRAM, and the checkpoints of the persistent state. -/

namespace Sys2Proof.Machine

/-! ### The inputs of a tick (R71, R88) -/

/-- Section 4: a safety PDU first used: its payload padded to 64 bytes, sequence number, capture tick and CRC. [DESIGN CHOICE, log 131] -/
def pduInput (d : Pdu) : List Byte :=
  (d.payload ++ zeros 64).take 64 ++ leBytes 4 d.seq.toNat ++ leBytes 8 d.captick ++ leBytes 4 (crc32c (pduBytes d)).toNat

/-- The PDUs first used at this E0. -/
def pduInputs (s : State) : List (Nat × List Byte) :=
  (List.range 16).filterMap (fun p => if (rxSt s p).fresh then (rxSt s p).frozen.map (fun d => (4, pduInput d)) else none)

/-- Section 7: the publish buffers that the snapshot of flow f copied: the flow's number and the contents. [DESIGN CHOICE, log 131] -/
def bufferInputs (s : State) (f : Nat) : List (Nat × List Byte) :=
  ((flowCfg s f).snaps.zip (flowSt s f).snap).filterMap (fun p => if p.1.skind = 8 then some (7, leBytes 4 f ++ p.2) else none)

/-- The flows whose snapshot this E0 took. -/
def snapped (s : State) : List Nat := (List.range s.image.flows.length).filter (snapDue s)

/-- Capture the inputs of the tick that begins: hardwired samples, PDUs and buffers; its commands have been captured with their
release. -/
def captureInputs (s : State) : State :=
  if s.recd.on then onRec (fun r => { r with
    ins := r.ins ++ [(2, leBytes 8 (samplesOf s).toNat)] ++ pduInputs s ++ ((snapped s).map (bufferInputs s)).flatten }) s
  else s

/-- Section 1: the feedback of every axis with a source, in ascending number. [DESIGN CHOICE, log 131] -/
def feedbackInput (s : State) : List Byte :=
  (((allAxes s).filter (fun a => (axisCfg s a).src != .none)).map (fun a => posBytes (axSt s a).fb)).flatten

/-- Section 3: the nodes whose feedback was null. -/
def nullInput (s : State) : List Byte := leBytes 4 (ringSt s 0).nullNow.toNat ++ leBytes 4 (ringSt s 1).nullNow.toNat

/-- Section 6: the edges that the covered consumers of the tick have seen: input number with the edge's direction in bit 31, and TB. [DESIGN CHOICE, log 131] -/
def captureInput (j : Nat) (c : CapSt) : List (Nat × List Byte) :=
  c.lastList.map (fun e => (6, leBytes 4 (j + (if e.2 then 2 ^ 31 else 0)) ++ tbBytes e.1 0))

/-- Every input captured for the tick that ends. -/
def tickInputs (s : State) : List (Nat × List Byte) :=
  [(1, feedbackInput s), (3, nullInput s)] ++ s.recd.ins ++ (mapIdx captureInput 0 s.time.caps).flatten

/-- The sections of a record in ascending type, those of one type in the order of their capture. -/
def sections (l : List (Nat × List Byte)) : List Byte :=
  ((List.range 8).map (fun t => ((l.filter (fun p => p.1 == t)).map (fun p => sectionBytes t p.2)).flatten)).flatten

/-! ### The covered outputs (R70, R87) -/

/-- Covered outputs of the tick in axis, group and flow order: of the covered groups the finalised set-points, the SAF states and the
Trellis scales; of every tick-locked flow its last released output. [DESIGN CHOICE, log 131] -/
def coveredBytes (s : State) : List Byte :=
  let m := s.time.cover
  ((((allAxes s).filter (fun a => hasBit m (axisCfg s a).group)).map (fun a => outputBytes (axSt s a))).flatten) ++
  (((bitsOf m).map (fun g => leBytes 4 (gstatWord s g).toNat ++ leBytes 4 (gscaleWord s g).toNat)).flatten) ++
  (((flowsOf s 2).map (outCopy s)).flatten)

/-! ### The record (R87 to R89) -/

/-- Flags of a record: OUT, checkpoint taken at this tick, record incomplete. -/
def recFlags (s : State) : Nat := s.time.promOut.toNat + 2 * s.recd.ckptMark.toNat + 4 * s.recd.dropped.toNat

/-- The record of the tick that ends: its header and its sections. [DESIGN CHOICE, log 131] -/
def recordBytes (s : State) : List Byte :=
  let b := sections (tickInputs s)
  leBytes 8 s.time.tickno ++ (leBytes 32 s.image.digest).take 8 ++ leBytes 1 0xB0 ++ leBytes 1 (recFlags s) ++
    leBytes 2 s.time.promGroups.toNat ++ leBytes 4 (32 + b.length) ++ leBytes 8 (crc64 (coveredBytes s)).toNat ++ b

/-- The DMA address and the size in bytes of the recording ring: the base and depth of Q31. -/
def recArea (s : State) : Nat × Nat := (256 * (queueCfg s 31).base.toNat, (queueCfg s 31).depth)

/-- Drop the oldest records until `n` more bytes fit into a ring of `size`. [DESIGN CHOICE, log 35] -/
def makeRoom (size n : Nat) : List (Nat × Nat) → List (Nat × Nat)
  | [] => []
  | x :: r => if ((x :: r).map (·.2)).foldl (· + ·) n ≤ size then x :: r else makeRoom size n r

/-- A record enters the ring, over the oldest ones when it is full; it may run over the ring's end to its start. [DESIGN CHOICE, log 35] -/
def putRecord (b : List Byte) (s : State) : State :=
  let a := recArea s
  if b.length ≤ a.2 then
    let o := s.recd.wofs
    let k := a.2 - o
    { (onRec (fun r => { r with recs := makeRoom a.2 b.length r.recs ++ [(o, b.length)], wofs := (o + b.length) % a.2 }) s) with
      mem := memWrites (memWrites s.mem (a.1 + o) (b.take k)) a.1 (b.drop k) }
  else s

/-- RECORD_WRITE (R87 to R89): the record of the tick that ends is written, or dropped with HOST_REC_DROP. The captured inputs end
with the tick, and the countdown of R90 goes on. [DESIGN CHOICE, log 35] -/
def recordWrite (ok : Bool) (s : State) : State :=
  if !s.recd.on then s
  else
    let s := if ok then onRec (fun r => { r with dropped := false }) (putRecord (recordBytes s) s)
      else event 0x0960 0 (onRec (fun r => { r with dropped := true }) s)
    onRec (fun r => { r with
      ins := [], ckptMark := false, stopLeft := r.stopLeft.map (fun n => n - 1), ckptAge := r.ckptAge + 1 }) s

/-- RECORDING_STOP (R90): the countdown after the first miss or class A fault has ended. -/
def recordingStop (s : State) : State :=
  if s.recd.on && s.recd.stopLeft == some 0 then onRec (fun r => { r with on := false }) s else s

/-! ### Checkpoints (R91) -/

/-- CHECKPOINT (R91): every 2^c ticks the persistent state is captured and its copy begins. [DESIGN CHOICE, log 36] -/
def checkpoint (s : State) : State :=
  if s.time.run && s.time.tickno % 2 ^ s.image.ckptC = 0 then takeCheckpoint s else s

/-- CHECKPOINT_COPY_DONE (R91): the last four checkpoints are kept. -/
def checkpointCopyDone (s : State) : State :=
  match s.recd.ckptNow with
  | some k => onRec (fun r => { r with ckpts := keepLast 4 r.ckpts k, ckptNow := none }) s
  | none => s

/-- CHECKPOINT_COPY_TIMEOUT (R91): a copy not done within 64 ticks is discarded. -/
def checkpointCopyTimeout (s : State) : State :=
  if s.recd.ckptNow.isSome && 64 ≤ s.recd.ckptAge then
    event 0x0961 0 (onRec (fun r => { r with ckptNow := none, ckptDrop := satAdd 0xFFFF r.ckptDrop 1 }) s)
  else s

/-! ### The meanings -/

def execCheckpoint (s : State) : Out := run checkpoint s
def execCheckpointCopyDone (s : State) : Out := run checkpointCopyDone s
def execCheckpointCopyTimeout (s : State) : Out := run checkpointCopyTimeout s
def execRecordingStop (s : State) : Out := run recordingStop s

end Sys2Proof.Machine
end

