-- ==== Sys2Proof/Machine/Tick.lean ====
section
/-! DEFINITION. Tick.lean: ring start, the tick edge, the monitored phases and the release of set-points (R22 to R36, R75 to R91,
R108). -/

namespace Sys2Proof.Machine

/-! ### The tick that ends -/

/-- Slack of the tick that ends, phase by phase (R81). -/
def slackTurn (s : State) : State :=
  onTime (fun t => { t with slack := mapIdx (fun p x => slackEdge (deadlineNs s p) x) 0 t.slack }) s

/-- The facts of the tick that ends are written: misses of phase 9, slack, the promise and the record (R77, R80, R81, R87). [DESIGN CHOICE, log 35] -/
def tickEnds (recOk : Bool) (s : State) : State := recordWrite recOk (onTime promiseWrite (slackTurn (flowDeadline s)))

/-- What lasts for one tick is cleared. A group that issued an extrapolated set-point in the tick that ends is holding (R76). -/
def clearTick (s : State) : State :=
  { s with
    time := { s.time with
      holding := s.time.xtrapNow, xtrapNow := 0, missAfter := 0,
      caps := s.time.caps.map (fun c => { c with lastList := c.tickList, tickList := [] }) }
    chip := { s.chip with once := [], bbTick := false }
    host := { s.host with sent := [] }
    mot := { s.mot with
      fin := false, spRel := false,
      axes := s.mot.axes.map (fun x => { x with handed := false, xtrap := false, cmpEntry := none }),
      groups := s.mot.groups.map (fun x => { x with newSegs := 0, active := x.active.map (fun r => { r with fresh := false }) }) } }

/-! ### Actions at E0 -/

/-- SS1-r that a miss, a tick abort or a lost channel of the tick before placed at this E0 (R76, R201, R299). [DEDUCED, log 80] -/
def demandsEdge (s : State) : State :=
  let s := demandStop s.saf.aNext 9 (demandStop s.time.ss1Next 11 s)
  onSaf (fun f => { f with aNext := 0 }) (onTime (fun t => { t with ss1Next := 0 }) s)

/-- A group with STO decided in the tick before is in Cloche (R312). -/
def clocheGroup (g : Nat) (s : State) : State :=
  if (safG s g).state == .sto then enterCloche g (onSafG g (fun x => { x with state := .cloche }) s) else s

/-- A group that leaves Cloche is DISABLED, or ENABLING after an automatic restart (R315, R316, R201). -/
def leaveGroup (g : Nat) (s : State) : State :=
  let n := (grpSt s g).leave
  if n = 0 || (safG s g).state == .sto || (safG s g).state == .cloche then s
  else
    let s := leaveClocheSlices g (onGrp g (fun x => { x with leave := 0, state := .disabled }) s)
    if n = 2 then startEnable g s else s

/-- The induced-voltage samples of E0, channel by channel. -/
def chansEdge (emf : List Nat) (s : State) : State :=
  forAll (List.range (maxChans s.fuse.variant)) (fun c => chanEdge c (nth emf c)) (nodeEdge s)

/-- A ring formed again while the tick runs (R418): PRE-RUN ends when COUNT has reached 0. [DESIGN CHOICE, log 56] -/
def reformEdge (r : Nat) (s : State) : State :=
  if (ringSt s r).state == .preRun && (ringSt s r).count = 0 then onRing r (fun x => { x with state := .run }) s else s

/-- Rings at E0. -/
def ringsEdge (s : State) : State :=
  forAll (List.range (maxRings s.fuse.variant)) (fun r s => reformEdge r (ringEdge r s)) s

/-- Inputs of the tick: feedback latched, safety inputs sampled, safety PDUs frozen (R25, R33). A standby's PDUs of the tick
wait for its feed, and the objects with them (R429). -/
def inputEdges (emf : List Nat) (s : State) : State :=
  let s := inputsEdge (pduEdge (within .axio (chansEdge emf) s))
  if s.pair.role = 2 then s else within .trl trellisEdge s

/-- Safety states, containment and power at E0. -/
def stateEdges (s : State) : State :=
  let gs := bitsOf (defined s)
  let s := demandsEdge s
  let s := forAll gs (fun g s => leaveGroup g (clocheGroup g s)) s
  powerEdge (retireEdge (reinitEdge s))

/-- What comes into the tick from outside: commands, released outputs, staged segments, snapshots (R27, R85, R373, R389).
`p` is the state that the tick before left. -/
def releases (p s : State) : State := captureInputs (snapshots p (enterStaging (releaseFlows (releaseCommands s))))

/-- What begins with the tick. -/
def worksEdge (s : State) : State :=
  let s := within .sol solverEdge (within .ring ringsEdge s)
  within .mot (fun s => slicesEdge (generate s)) s

/-- Every start-of-tick action (R23 to R29): `p` is the state that the tick before left. -/
def startTick (p : State) (emf : List Nat) (s : State) : State :=
  let s := stateEdges (inputEdges emf s)
  let s := worksEdge (releases p s)
  schedule (e0Of s) (pairEdge s)

/-! ### Ring start (R108, R405, R419) -/

/-- T_start: as planned when PRE-RUN began, where TB has not passed it; else the first whole multiple of the period at least
100 µs on. [DESIGN CHOICE, log 48] -/
def startInstant (s : State) : Nat := if s.time.tb ≤ s.time.tplan then s.time.tplan else wholePeriod s (s.time.tb + 100000)

/-- Recording begins; the previous run's ring and checkpoints end (R419). -/
def startRecording (s : State) : State := onRec (fun _ => { on := true }) s

/-- After a watchdog or an escalation reset recording waits for RECHOLD. -/
def recordAtStart (s : State) : State :=
  if !s.image.recEnable then s
  else if s.chip.escReset then onRec (fun r => { r with blocked := true }) s
  else startRecording s

/-- The first start that reaches ring start fuses the image key and generates the identity key (R405, R382). -/
def firstStart (s : State) : State :=
  if s.fuse.keyDigest.isSome then s
  else { s with fuse := { s.fuse with
    keyDigest := some s.image.keyDigest, idKey := true, devPub := Config.devicePub s.fuse.serial } }

/-- The servo at ring start (R100, R103): ACQUIRE ends; without a valid domain the device is in holdover. [DESIGN CHOICE, log 33] -/
def startServo (s : State) : State :=
  if !ptpOn s then s
  else if !(domSt s 0).valid && !(domSt s 1).valid then enterHoldover s.time.tb s
  else onTime (fun t => { t with servo := if t.servo = 1 then 3 else t.servo }) s

/-- The device runs from this E0 on: RUN, the first REC is sent (R82), recording. -/
def enterRunning (s : State) : State :=
  recordAtStart (firstStart (startServo (sendRec (onChip (fun c => { c with phase := .running, pstate := .run }) s))))

/-- Every master-capable ring has been formed, and COUNT has reached 0. [DESIGN CHOICE, log 48] -/
def ringsReady (s : State) : Bool :=
  s.ring.any (fun x => capable x && x.state == .preRun) &&
    s.ring.all (fun x => !capable x || !(x.state == .listen || x.state == .coldStart || x.state == .measure ||
      (x.state == .preRun && x.count != 0)))

/-- The conditions of a ring start. -/
def ringStartOk (nonce : Nat) (s : State) : Bool :=
  s.chip.phase == .ringStart && !s.time.run && !s.time.stopped && nonce % 2 ^ 64 != 0 && ringsReady s

/-- Samples of the induced voltage at the first E0: free values. [DESIGN CHOICE, log 48] -/
def freeSamples : Nat → State → List Nat × State
  | 0, s => ([], s)
  | n + 1, s =>
    let d := drawFree s
    let r := freeSamples n d.2
    (d.1.toNat % 4096 :: r.1, r.2)

/-- RING_START: T_start, TICKNO 0, the run nonce, RING_UP, and E0 of tick 0. [DESIGN CHOICE, log 48; DEDUCED, log 52] -/
def ringStart (nonce : Nat) (s : State) : State :=
  if !ringStartOk nonce s then s
  else
    let p := s
    let t := startInstant s
    let s := onTime (fun x => { x with
      run := true, tickno := 0, tstart := t, e0 := t, tbFr := 0, caps := x.caps.map (fun c => { c with tickList := [], lastList := [] }) }) (advanceTb t s)
    let s := { s with ring := s.ring.map (fun x => if x.state == .preRun then { x with state := .run } else x) }
    let s := event 0x0301 0 (enterRunning (onHost (fun h => { h with nonce := nonce % 2 ^ 64 }) s))
    let e := freeSamples (maxChans s.fuse.variant) s
    startTick p e.1 e.2

/-- RECORDING_RESTART (R419): RECHOLD seconds after ring start. -/
def recordingRestart (s : State) : State :=
  if s.recd.blocked && s.time.run && s.image.rechold * 1000000000 ≤ s.time.tickno * periodNs s then startRecording s else s

/-! ### TICK_EDGE (R23) -/

/-- A run nonce of a device in node mode, which no master sends it: a free value, never 0. [DESIGN CHOICE, log 49] -/
def nodeNonce (s : State) : State :=
  if nodeMode s && s.host.nonce = 0 then
    let d := drawFree s
    onHost (fun h => { h with nonce := max 1 d.1.toNat }) d.2
  else s

/-- A device that follows a master runs from the first local E0 after its ring's start (R137, R149). -/
def followStart (s : State) : State :=
  if s.chip.phase == .ringStart && s.time.run then enterRunning (nodeNonce s) else s

/-- TICKNO rises by one, and TB has reached E0 (R23, R108): the instant that the master's beacon names, in a device that follows
one (R137). [DESIGN CHOICE, log 32] -/
def countTick (s : State) : State :=
  let n := (s.time.tickno + 1) % 2 ^ 64
  let e := ((s.ring.filterMap (fun x => if x.master == x.node then none else x.nextE0)).find? (fun p => p.1 == n)).map (·.2)
  advanceTb (e.getD (s.time.tstart + n * periodNs s))
    (onTime (fun t => { t with tickno := n, e0 := e.getD (t.tstart + n * periodNs s) }) s)

/-- A beacon with COUNT 1 has announced that the next E0 is T_start (R149). -/
def joinsStart (s : State) : Bool := s.chip.phase == .ringStart && s.ring.any (fun x => x.role != 0 && x.startNext)

/-- E0 of tick 0 in a device that follows a master. -/
def firstEdgeOf (s : State) : State :=
  let t := s.time.tplan
  let s := onTime (fun x => { x with run := true, tickno := 0, tstart := t, e0 := t }) (advanceTb t s)
  enterRunning (nodeNonce { s with ring := s.ring.map (fun x => { x with startNext := false }) })

/-- TICK_EDGE: nothing before ring start, and nothing once the time base has stopped. -/
def tickEdge (emf : List Nat) (recOk : Bool) (s : State) : State :=
  if s.time.stopped then s
  else if !s.time.run then (if joinsStart s then startTick s emf (firstEdgeOf s) else s)
  else startTick s emf (followStart (countTick (clearTick (tickEnds recOk s))))

/-! ### Phases (R75 to R79) -/

/-- What a completed phase leaves for its release: poses after phase 2, Jacobians and feedforward after phase 3. -/
def phaseResult (p : Nat) (m : Mask) (s : State) : State :=
  match p with
  | 2 => if s.mot.fbRel then forAll (baseOrder s (withBases s m)) posesDone s else s
  | 3 => forAll (baseOrder s m) dynamicsDone s
  | _ => s

/-- The tick runs and the phase's producer with it. -/
def phaseRuns (s : State) (p : Nat) : Bool :=
  s.time.run && !s.time.stopped && !nodeMode s &&
    (match p with
     | 1 => regionUp .mot s | 2 => regionUp .mot s | 3 => regionUp .mot s | 4 => regionUp .mot s | 7 => regionUp .mot s
     | 0 => regionUp .trl s && !s.image.compat
     | 5 => regionUp .trl s && !s.image.compat
     | 8 => regionUp .sol s && !s.image.compat
     | 6 => true | 9 => regionUp .host s | _ => false)

/-- PHASE_COMPLETION: a token in time counts and its results are held for the release; a later one is discarded (R75, R30). -/
def phaseCompletion (p : Nat) (m : Mask) (at_ : Nat) (s : State) : State :=
  if !phaseRuns s p || (slackSt s p).judged || deadlineNs s p < at_ then s
  else phaseResult p m (registerToken p m at_ s)

/-- Groups whose motion is enabled. [DESIGN CHOICE, log 69] -/
def enabledGroups (s : State) : Mask := maskOf 16 (fun g => (grpCfg s g).defined && (grpSt s g).state.enabled)

/-- Groups whose link poses are frozen with their KDE block (R44). [DESIGN CHOICE, log 69] -/
def frozenGroups (s : State) : Mask := maskOf 16 (fun g => (grpSt s g).frozenPoses)

/-- Groups with an axis of a running slice that has not handed over (R200). -/
def unfinishedServo (s : State) : Mask :=
  s.mot.slices.foldl (fun m x => if inService s x && !x.sawOut then m ||| sliceGroups s x else m) 0

/-- The groups of a miss of phase p (R77). [DESIGN CHOICE, log 69] -/
def unfinished (s : State) (p : Nat) : Mask :=
  let done := (slackSt s p).done
  match p with
  | 0 => if done != 0 then 0 else maskOf 16 (fun g => requestDue s g)
  | 1 => enabledGroups s &&& ~~~ done
  | 2 => maskOf 16 (fun g => (grpCfg s g).defined && !(grpSt s g).frozenPoses && (grpSt s g).posesNew.isNone)
  | 3 => defined s &&& ~~~ frozenGroups s &&& ~~~ done
  | 4 => unfinishedServo s &&& defined s
  | 6 => if s.mot.fin then 0 else defined s
  | 7 => if s.mot.fin then defined s &&& ~~~ done else defined s
  | _ => 0

/-- The output stage extrapolates after a miss of phase 7, whatever the state (R76, R232). [DEDUCED, log 68] -/
def extrapolate (fin : Bool) (a : Nat) (s : State) : State :=
  onAxis a (fun x =>
    if fin then { x with spt := x.spPrev + posOf x.stepPrev, step := x.stepPrev, outVff := x.vffPrev, outTff := x.tffPrev, xst := true }
    else { x with spPrev := x.spt, spt := x.spt + posOf x.step, xst := true }) s

/-- What is released at the deadline of phase p (R30). [DESIGN CHOICE, log 69; DEDUCED, log 73] -/
def phaseRelease (p : Nat) (miss : Mask) (s : State) : State :=
  match p with
  | 1 => forAll (bitsOf miss) (fun g s => forAll (axesOf s g) lastRef s) s
  | 2 => formPairs (posesRelease s)
  | 3 => dynamicsRelease (defined s &&& ~~~ miss &&& ~~~ frozenGroups s) s
  | 4 => skipLate { s with mot := { s.mot with servoRel := true } }
  | 5 => trellisRelease s
  | 6 => if s.mot.fin then s else finalise s
  | 7 =>
    let fin := s.mot.fin
    let s := forAll (bitsOf miss) (fun g s => forAll (axesOf s g) (extrapolate fin) s) s
    { s with mot := { s.mot with fin := true } }
  | _ => s

/-- PHASE_DEADLINE: results in time are released, the others are misses. The Trellis judges its own pairs; phases 8 and 9 are
judged by SOLVER_RELEASE and the next tick edge. -/
def phaseDeadline (p : Nat) (s : State) : State :=
  if !phaseRuns s p || (slackSt s p).judged then s
  else
    let m := unfinished s p
    let s := if m != 0 then missPhase p m s else s
    phaseRelease p m (onSlack p (fun x => { x with judged := true }) s)

/-! ### SETPOINT_RELEASE (R25, R165, R171, R215) -/

/-- The finalised set-point of axis a goes to its step generator and compare unit, or into the downlink. [DESIGN CHOICE, log 58] -/
def releaseAxis (a : Nat) (s : State) : State :=
  let x := axSt s a
  let c := axisCfg s a
  let sg := (safG s c.group).state
  let s := match axisChan c, x.cmpEntry with
    | some k, some e => if (chanCfg s k).cmpSrc && !c.conc then armCompare k e.1 (if e.2 then 1 else 2) (chSt s k).passed s else s
    | _, _ => s
  match c.dst with
  | .axio k => if sg == .sto || sg == .cloche || !hasStep s k then s else stepSchedule k x.spt s
  | .ring _ _ _ => onAxis a (fun y => { y with down := downEntry s a }) s
  | _ => s

/-- Set-points are released once per tick. -/
def releaseAxes (s : State) : State :=
  if s.mot.spRel then s
  else
    let s := { s with mot := { s.mot with spRel := true } }
    if regionUp .mot s then forAll (allAxes s) releaseAxis s else s

/-- SETPOINT_RELEASE: set-points, the pair digest (R432), the replies of the tick (R390). -/
def setpointRelease (s : State) : State :=
  if !s.time.run || s.time.stopped then s else sendReplies (formDigest (releaseAxes s))

def execTickEdge (emf : List Nat) (recOk : Bool) (s : State) : Out := run (tickEdge emf recOk) s
def execPhaseCompletion (p : Nat) (groups : Mask) (at_ : Nat) (s : State) : Out := run (phaseCompletion p groups at_) s
def execPhaseDeadline (p : Nat) (s : State) : Out := run (phaseDeadline p) s
def execSetpointRelease (s : State) : Out := run setpointRelease s
def execRingStart (nonce : Nat) (s : State) : Out := run (ringStart nonce) s
def execRecordingRestart (s : State) : Out := run recordingRestart s

end Sys2Proof.Machine
end

