-- ==== Sys2Proof/Machine/Dispatch.lean ====
section
/-! DEFINITION. Dispatch.lean: one arm per command of the table, each a direct call of its meaning. -/

namespace Sys2Proof.Machine

open Sys2Proof

def exec (i : Instr) (s : State) : Host.Outcome State Fault Refusal :=
  match i with
  | .tickEdge emf recOk => Sys2Proof.Machine.execTickEdge emf recOk s
  | .zoneArbiterDecision => Sys2Proof.Machine.execZoneArbiterDecision s
  | .phaseCompletion p groups at_ => Sys2Proof.Machine.execPhaseCompletion p groups at_ s
  | .phaseDeadline p => Sys2Proof.Machine.execPhaseDeadline p s
  | .feedbackDeadline => Sys2Proof.Machine.execFeedbackDeadline s
  | .feedbackNullLimit src => Sys2Proof.Machine.execFeedbackNullLimit src s
  | .deltaGate => Sys2Proof.Machine.execDeltaGate s
  | .solverJobDone p => Sys2Proof.Machine.execSolverJobDone p s
  | .anytimeStop p iters => Sys2Proof.Machine.execAnytimeStop p iters s
  | .solverRelease => Sys2Proof.Machine.execSolverRelease s
  | .solverMissLimit p => Sys2Proof.Machine.execSolverMissLimit p s
  | .pairBatchDone id differ => Sys2Proof.Machine.execPairBatchDone id differ s
  | .objectStale j => Sys2Proof.Machine.execObjectStale j s
  | .safDecision kdeOff => Sys2Proof.Machine.execSafDecision kdeOff s
  | .stoLineSwitch => Sys2Proof.Machine.execStoLineSwitch s
  | .setpointRelease => Sys2Proof.Machine.execSetpointRelease s
  | .stepPulse c => Sys2Proof.Machine.execStepPulse c s
  | .enableComplete g => Sys2Proof.Machine.execEnableComplete g s
  | .syncTimeout g => Sys2Proof.Machine.execSyncTimeout g s
  | .remoteHomeTimeout a => Sys2Proof.Machine.execRemoteHomeTimeout a s
  | .standstill g => Sys2Proof.Machine.execStandstill g s
  | .ss1Timeout g => Sys2Proof.Machine.execSs1Timeout g s
  | .autoRestart g => Sys2Proof.Machine.execAutoRestart g s
  | .degradedExpiry g => Sys2Proof.Machine.execDegradedExpiry g s
  | .stoRefresh word => Sys2Proof.Machine.execStoRefresh word s
  | .refreshTimeout => Sys2Proof.Machine.execRefreshTimeout s
  | .flowSignatureCheck ok sig => Sys2Proof.Machine.execFlowSignatureCheck ok sig s
  | .stoReadback level => Sys2Proof.Machine.execStoReadback level s
  | .voltageMonitorTrip vcore => Sys2Proof.Machine.execVoltageMonitorTrip vcore s
  | .temperatureMonitorTrip tj => Sys2Proof.Machine.execTemperatureMonitorTrip tj s
  | .testPulse tpo lvA lvB => Sys2Proof.Machine.execTestPulse tpo lvA lvB s
  | .safetyInputChange line chB high held => Sys2Proof.Machine.execSafetyInputChange line chB high held s
  | .inputDiscrepancy line => Sys2Proof.Machine.execInputDiscrepancy line s
  | .pduCopyReceived netB pdu => Sys2Proof.Machine.execPduCopyReceived netB pdu s
  | .pduCompareWindowExpiry p => Sys2Proof.Machine.execPduCompareWindowExpiry p s
  | .pduWatchdog p netB => Sys2Proof.Machine.execPduWatchdog p netB s
  | .pendantPresent => Sys2Proof.Machine.execPendantPresent s
  | .pendantAbsent => Sys2Proof.Machine.execPendantAbsent s
  | .withdrawRequest => Sys2Proof.Machine.execWithdrawRequest s
  | .bridgeExpiry => Sys2Proof.Machine.execBridgeExpiry s
  | .toolIdentity g blk => Sys2Proof.Machine.execToolIdentity g blk s
  | .toolCheckTimeout g => Sys2Proof.Machine.execToolCheckTimeout g s
  | .sliceFault r b sl cause => Sys2Proof.Machine.execSliceFault r b sl cause s
  | .quarantinedAccess r b => Sys2Proof.Machine.execQuarantinedAccess r b s
  | .absentUnitAccess addr write => Sys2Proof.Machine.execAbsentUnitAccess addr write s
  | .accessSizeError who addr half wr => Sys2Proof.Machine.execAccessSizeError who addr half wr s
  | .decodeError addr dma => Sys2Proof.Machine.execDecodeError addr dma s
  | .registerWrite who addr v => Sys2Proof.Machine.execRegisterWrite who addr v s
  | .wideRegisterRead who addr => Sys2Proof.Machine.execWideRegisterRead who addr s
  | .lockRequest n id => Sys2Proof.Machine.execLockRequest n id s
  | .grantRequest n id len => Sys2Proof.Machine.execGrantRequest n id len s
  | .lockRelease n id => Sys2Proof.Machine.execLockRelease n id s
  | .arbiterDecision n => Sys2Proof.Machine.execArbiterDecision n s
  | .lockTimeout n => Sys2Proof.Machine.execLockTimeout n s
  | .arbFreeze n => Sys2Proof.Machine.execArbFreeze n s
  | .arbUnfreeze n => Sys2Proof.Machine.execArbUnfreeze n s
  | .crossingAccess id sl dom pulses => Sys2Proof.Machine.execCrossingAccess id sl dom pulses s
  | .crossingWatchdog id => Sys2Proof.Machine.execCrossingWatchdog id s
  | .crossingLateResponse id dom => Sys2Proof.Machine.execCrossingLateResponse id dom s
  | .pruneSolverJob index => Sys2Proof.Machine.execPruneSolverJob index s
  | .pruneTrellisBatch index => Sys2Proof.Machine.execPruneTrellisBatch index s
  | .pruneWorkItem index => Sys2Proof.Machine.execPruneWorkItem index s
  | .pruneFlow index => Sys2Proof.Machine.execPruneFlow index s
  | .pruneCrossingAccess index => Sys2Proof.Machine.execPruneCrossingAccess index s
  | .prunePlantQueue index => Sys2Proof.Machine.execPrunePlantQueue index s
  | .pruneRegion region signed => Sys2Proof.Machine.execPruneRegion region signed s
  | .pruneKindInvalid kind => Sys2Proof.Machine.execPruneKindInvalid kind s
  | .pruneComplete signed elapsed bound => Sys2Proof.Machine.execPruneComplete signed elapsed bound s
  | .slackClear => Sys2Proof.Machine.execSlackClear s
  | .vrecWindow => Sys2Proof.Machine.execVrecWindow s
  | .vregReadbackCheck => Sys2Proof.Machine.execVregReadbackCheck s
  | .checkpoint => Sys2Proof.Machine.execCheckpoint s
  | .checkpointCopyDone => Sys2Proof.Machine.execCheckpointCopyDone s
  | .checkpointCopyTimeout => Sys2Proof.Machine.execCheckpointCopyTimeout s
  | .recordingStop => Sys2Proof.Machine.execRecordingStop s
  | .syncReceived domB time rate at_ => Sys2Proof.Machine.execSyncReceived domB time rate at_ s
  | .announceReceived domB gm at_ => Sys2Proof.Machine.execAnnounceReceived domB gm at_ s
  | .domainTimeout domB announce at_ => Sys2Proof.Machine.execDomainTimeout domB announce at_ s
  | .domainRevert at_ => Sys2Proof.Machine.execDomainRevert at_ s
  | .ptpEventForward port ingress len fcsOk twoStep oneStepPeer m wireEnd up => Sys2Proof.Machine.execPtpEventForward port ingress len fcsOk twoStep oneStepPeer m wireEnd up s
  | .triggerArm who n ctl now => Sys2Proof.Machine.execTriggerArm who n ctl now s
  | .triggerDisarm who n now => Sys2Proof.Machine.execTriggerDisarm who n now s
  | .triggerEdge n => Sys2Proof.Machine.execTriggerEdge n s
  | .triggerPulseEnd n => Sys2Proof.Machine.execTriggerPulseEnd n s
  | .captureEdge j tb rise held => Sys2Proof.Machine.execCaptureEdge j tb rise held s
  | .captureRead j => Sys2Proof.Machine.execCaptureRead j s
  | .timeCrossCheck count => Sys2Proof.Machine.execTimeCrossCheck count s
  | .referenceLoss => Sys2Proof.Machine.execReferenceLoss s
  | .pllUnlock => Sys2Proof.Machine.execPllUnlock s
  | .ringSlotStart r slot => Sys2Proof.Machine.execRingSlotStart r slot s
  | .substituteOpen r slot ccw at_ => Sys2Proof.Machine.execSubstituteOpen r slot ccw at_ s
  | .collectFrame r ccw at_ h segs => Sys2Proof.Machine.execCollectFrame r ccw at_ h segs s
  | .distributeFrame r ccw at_ h segs => Sys2Proof.Machine.execDistributeFrame r ccw at_ h segs s
  | .beaconReceived r ccw at_ egress h b => Sys2Proof.Machine.execBeaconReceived r ccw at_ egress h b s
  | .claim r ccw at_ h m => Sys2Proof.Machine.execClaim r ccw at_ h m s
  | .claimRetry r at_ => Sys2Proof.Machine.execClaimRetry r at_ s
  | .probe r ccw at_ h m => Sys2Proof.Machine.execProbe r ccw at_ h m s
  | .acyclicFrame r ccw at_ h data => Sys2Proof.Machine.execAcyclicFrame r ccw at_ h data s
  | .heartbeatFrame ccw at_ h m => Sys2Proof.Machine.execHeartbeatFrame ccw at_ h m s
  | .portDown r ccw => Sys2Proof.Machine.execPortDown r ccw s
  | .portUp r ccw => Sys2Proof.Machine.execPortUp r ccw s
  | .linkStableTimer r => Sys2Proof.Machine.execLinkStableTimer r s
  | .guardianSilence r node => Sys2Proof.Machine.execGuardianSilence r node s
  | .beaconLoss r => Sys2Proof.Machine.execBeaconLoss r s
  | .rejoinClaim r at_ => Sys2Proof.Machine.execRejoinClaim r at_ s
  | .spareRelease r node => Sys2Proof.Machine.execSpareRelease r node s
  | .coldStart r at_ => Sys2Proof.Machine.execColdStart r at_ s
  | .ownBeaconReturn r ccw at_ h b => Sys2Proof.Machine.execOwnBeaconReturn r ccw at_ h b s
  | .measureDone r => Sys2Proof.Machine.execMeasureDone r s
  | .ringStart nonce => Sys2Proof.Machine.execRingStart nonce s
  | .nodeDlLost => Sys2Proof.Machine.execNodeDlLost s
  | .quadEdge c x => Sys2Proof.Machine.execQuadEdge c x s
  | .wireFault c pair samples => Sys2Proof.Machine.execWireFault c pair samples s
  | .axioConditionClear c ampCond held => Sys2Proof.Machine.execAxioConditionClear c ampCond held s
  | .feedbackFaultClear c => Sys2Proof.Machine.execFeedbackFaultClear c s
  | .indexEvent c held => Sys2Proof.Machine.execIndexEvent c held s
  | .sincosAmpFault c => Sys2Proof.Machine.execSincosAmpFault c s
  | .compareArm c cdir passed => Sys2Proof.Machine.execCompareArm c cdir passed s
  | .compareDisarm c => Sys2Proof.Machine.execCompareDisarm c s
  | .compareFire c => Sys2Proof.Machine.execCompareFire c s
  | .limitInputChange c input level held at_ => Sys2Proof.Machine.execLimitInputChange c input level held at_ s
  | .homingStart c => Sys2Proof.Machine.execHomingStart c s
  | .homeTargetEdge c index => Sys2Proof.Machine.execHomeTargetEdge c index s
  | .homingNoIndex c => Sys2Proof.Machine.execHomingNoIndex c s
  | .homingComplete c => Sys2Proof.Machine.execHomingComplete c s
  | .stallDetect c => Sys2Proof.Machine.execStallDetect c s
  | .sNop b sl => Sys2Proof.Machine.execSNop b sl s
  | .sLdi b sl rd imm => Sys2Proof.Machine.execSLdi b sl rd imm s
  | .sMov b sl rd rs => Sys2Proof.Machine.execSMov b sl rd rs s
  | .sLd b sl rd pn am off => Sys2Proof.Machine.execSLd b sl rd pn am off s
  | .sSt b sl rd pn am off => Sys2Proof.Machine.execSSt b sl rd pn am off s
  | .sMtc b sl rd cr => Sys2Proof.Machine.execSMtc b sl rd cr s
  | .sMfc b sl rd cr => Sys2Proof.Machine.execSMfc b sl rd cr s
  | .sLdc b sl cr imm => Sys2Proof.Machine.execSLdc b sl cr imm s
  | .sModp b sl pn imm => Sys2Proof.Machine.execSModp b sl pn imm s
  | .sWaitFb b sl => Sys2Proof.Machine.execSWaitFb b sl s
  | .sWaitFf b sl => Sys2Proof.Machine.execSWaitFf b sl s
  | .sOut b sl => Sys2Proof.Machine.execSOut b sl s
  | .spareSelftestDone b ok => Sys2Proof.Machine.execSpareSelftestDone b ok s
  | .sEnd b sl => Sys2Proof.Machine.execSEnd b sl s
  | .sRte b sl => Sys2Proof.Machine.execSRte b sl s
  | .sAdd b sl rd rs rt => Sys2Proof.Machine.execSAdd b sl rd rs rt s
  | .sSub b sl rd rs rt => Sys2Proof.Machine.execSSub b sl rd rs rt s
  | .sAdds b sl rd rs rt => Sys2Proof.Machine.execSAdds b sl rd rs rt s
  | .sSubs b sl rd rs rt => Sys2Proof.Machine.execSSubs b sl rd rs rt s
  | .sAddi b sl rd rs imm => Sys2Proof.Machine.execSAddi b sl rd rs imm s
  | .sNeg b sl rd rs => Sys2Proof.Machine.execSNeg b sl rd rs s
  | .sAbs b sl rd rs => Sys2Proof.Machine.execSAbs b sl rd rs s
  | .sAnd b sl rd rs rt => Sys2Proof.Machine.execSAnd b sl rd rs rt s
  | .sOr b sl rd rs rt => Sys2Proof.Machine.execSOr b sl rd rs rt s
  | .sXor b sl rd rs rt => Sys2Proof.Machine.execSXor b sl rd rs rt s
  | .sShl b sl rd rs sh => Sys2Proof.Machine.execSShl b sl rd rs sh s
  | .sShra b sl rd rs sh => Sys2Proof.Machine.execSShra b sl rd rs sh s
  | .sShrl b sl rd rs sh => Sys2Proof.Machine.execSShrl b sl rd rs sh s
  | .sMin b sl rd rs rt => Sys2Proof.Machine.execSMin b sl rd rs rt s
  | .sMax b sl rd rs rt => Sys2Proof.Machine.execSMax b sl rd rs rt s
  | .sCmp b sl rs rt => Sys2Proof.Machine.execSCmp b sl rs rt s
  | .sCmpi b sl rs imm => Sys2Proof.Machine.execSCmpi b sl rs imm s
  | .sClip b sl rd rs rt => Sys2Proof.Machine.execSClip b sl rd rs rt s
  | .sMpy b sl ax rs rt => Sys2Proof.Machine.execSMpy b sl ax rs rt s
  | .sMac b sl ax rs rt => Sys2Proof.Machine.execSMac b sl ax rs rt s
  | .sMsu b sl ax rs rt => Sys2Proof.Machine.execSMsu b sl ax rs rt s
  | .sMacl b sl ax rs rt rl pn amm => Sys2Proof.Machine.execSMacl b sl ax rs rt rl pn amm s
  | .sMsul b sl ax rs rt rl pn amm => Sys2Proof.Machine.execSMsul b sl ax rs rt rl pn amm s
  | .sLda b sl ax rs sh => Sys2Proof.Machine.execSLda b sl ax rs sh s
  | .sAdda b sl ax rs sh => Sys2Proof.Machine.execSAdda b sl ax rs sh s
  | .sMovr b sl ax rd sh sat => Sys2Proof.Machine.execSMovr b sl ax rd sh sat s
  | .sStr b sl ax pn amm sh sat => Sys2Proof.Machine.execSStr b sl ax pn amm sh sat s
  | .sSha b sl ax sh right => Sys2Proof.Machine.execSSha b sl ax sh right s
  | .sClra b sl ax => Sys2Proof.Machine.execSClra b sl ax s
  | .sMfa b sl ax rd part => Sys2Proof.Machine.execSMfa b sl ax rd part s
  | .sMta b sl ax rd part => Sys2Proof.Machine.execSMta b sl ax rd part s
  | .sB b sl cond target => Sys2Proof.Machine.execSB b sl cond target s
  | .sJmp b sl target => Sys2Proof.Machine.execSJmp b sl target s
  | .sCall b sl target => Sys2Proof.Machine.execSCall b sl target s
  | .sRet b sl => Sys2Proof.Machine.execSRet b sl s
  | .sLoopi b sl k endA count => Sys2Proof.Machine.execSLoopi b sl k endA count s
  | .sLoopr b sl k endA rs => Sys2Proof.Machine.execSLoopr b sl k endA rs s
  | .illegalOperation b sl w => Sys2Proof.Machine.execIllegalOperation b sl w s
  | .tickAbort b sl => Sys2Proof.Machine.execTickAbort b sl s
  | .tickAbortOverrun b sl => Sys2Proof.Machine.execTickAbortOverrun b sl s
  | .deltaCommit v => Sys2Proof.Machine.execDeltaCommit v s
  | .problemEnableWrite p en => Sys2Proof.Machine.execProblemEnableWrite p en s
  | .problemClearLost p => Sys2Proof.Machine.execProblemClearLost p s
  | .zoneFreeze z => Sys2Proof.Machine.execZoneFreeze z s
  | .zoneUnfreeze z => Sys2Proof.Machine.execZoneUnfreeze z s
  | .enqueue c now => Sys2Proof.Machine.execEnqueue c now s
  | .timerEnqueue f m => Sys2Proof.Machine.execTimerEnqueue f m s
  | .boundEnqueue f now => Sys2Proof.Machine.execBoundEnqueue f now s
  | .itemReleaseTime h now => Sys2Proof.Machine.execItemReleaseTime h now s
  | .itemDone c now => Sys2Proof.Machine.execItemDone c now s
  | .tlOutputCopyDone f now => Sys2Proof.Machine.execTlOutputCopyDone f now s
  | .itemOverrun c now => Sys2Proof.Machine.execItemOverrun c now s
  | .itemDeadline h now => Sys2Proof.Machine.execItemDeadline h now s
  | .coreTrap c now => Sys2Proof.Machine.execCoreTrap c now s
  | .flowEnable f now => Sys2Proof.Machine.execFlowEnable f now s
  | .flowDisable f => Sys2Proof.Machine.execFlowDisable f s
  | .publishFlip b => Sys2Proof.Machine.execPublishFlip b s
  | .queuePush c q len => Sys2Proof.Machine.execQueuePush c q len s
  | .queueAck who q n => Sys2Proof.Machine.execQueueAck who q n s
  | .plantFrameReceived port len fcsOk dstOwn srcOwn multi supported ptp => Sys2Proof.Machine.execPlantFrameReceived port len fcsOk dstOwn srcOwn multi supported ptp s
  | .arpRequest net => Sys2Proof.Machine.execArpRequest net s
  | .neighbourSolicitation net => Sys2Proof.Machine.execNeighbourSolicitation net s
  | .icmpEchoRequest net now => Sys2Proof.Machine.execIcmpEchoRequest net now s
  | .udpMailbox net data => Sys2Proof.Machine.execUdpMailbox net data s
  | .plantLinkDown port => Sys2Proof.Machine.execPlantLinkDown port s
  | .plantLinkUp port => Sys2Proof.Machine.execPlantLinkUp port s
  | .commandDatagram net d now => Sys2Proof.Machine.execCommandDatagram net d now s
  | .verificationDone now => Sys2Proof.Machine.execVerificationDone now s
  | .query o => Sys2Proof.Machine.execQuery o s
  | .segment o g segs => Sys2Proof.Machine.execSegment o g segs s
  | .flush o m => Sys2Proof.Machine.execFlush o m s
  | .halt o m => Sys2Proof.Machine.execHalt o m s
  | .resume o m => Sys2Proof.Machine.execResume o m s
  | .enable o m => Sys2Proof.Machine.execEnable o m s
  | .disable o m => Sys2Proof.Machine.execDisable o m s
  | .override_ o m ovr => Sys2Proof.Machine.execOverride o m ovr s
  | .home o a => Sys2Proof.Machine.execHome o a s
  | .zoneRelease o g z => Sys2Proof.Machine.execZoneRelease o g z s
  | .sliceParam o b sl ws => Sys2Proof.Machine.execSliceParam o b sl ws s
  | .stop o m => Sys2Proof.Machine.execStop o m s
  | .ack o m => Sys2Proof.Machine.execAck o m s
  | .mode o m => Sys2Proof.Machine.execMode o m s
  | .confirm o v => Sys2Proof.Machine.execConfirm o v s
  | .confirmationWriteDone ok => Sys2Proof.Machine.execConfirmationWriteDone ok s
  | .flowmsg o f data => Sys2Proof.Machine.execFlowmsg o f data s
  | .mailbox o q data => Sys2Proof.Machine.execMailbox o q data s
  | .trigger o n w => Sys2Proof.Machine.execTrigger o n w s
  | .prune o kind region index => Sys2Proof.Machine.execPrune o kind region index s
  | .imageErase o ofs len => Sys2Proof.Machine.execImageErase o ofs len s
  | .imageWrite o ofs data => Sys2Proof.Machine.execImageWrite o ofs data s
  | .flashOpDone result => Sys2Proof.Machine.execFlashOpDone result s
  | .read o addr len => Sys2Proof.Machine.execRead o addr len s
  | .resetDevice o => Sys2Proof.Machine.execResetDevice o s
  | .resetBegin => Sys2Proof.Machine.execResetBegin s
  | .resetPark o => Sys2Proof.Machine.execResetPark o s
  | .resetDoze o => Sys2Proof.Machine.execResetDoze o s
  | .resetRun o => Sys2Proof.Machine.execResetRun o s
  | .resetRegionRestart o kind => Sys2Proof.Machine.execResetRegionRestart o kind s
  | .switchback o => Sys2Proof.Machine.execSwitchback o s
  | .powerOnReset flash => Sys2Proof.Machine.execPowerOnReset flash s
  | .externalReset flash => Sys2Proof.Machine.execExternalReset flash s
  | .supplyMonitorReset => Sys2Proof.Machine.execSupplyMonitorReset s
  | .startSequence pairId failed vio => Sys2Proof.Machine.execStartSequence pairId failed vio s
  | .tlockwaitExpiry => Sys2Proof.Machine.execTlockwaitExpiry s
  | .wdogKick v => Sys2Proof.Machine.execWdogKick v s
  | .wdogExpiry => Sys2Proof.Machine.execWdogExpiry s
  | .wdogReset => Sys2Proof.Machine.execWdogReset s
  | .regionRestart region => Sys2Proof.Machine.execRegionRestart region s
  | .regionRestartDone => Sys2Proof.Machine.execRegionRestartDone s
  | .blackboxProgrammed ok => Sys2Proof.Machine.execBlackboxProgrammed ok s
  | .inputFrameSend => Sys2Proof.Machine.execInputFrameSend s
  | .inputFrameReceived f => Sys2Proof.Machine.execInputFrameReceived f s
  | .feedDeadline => Sys2Proof.Machine.execFeedDeadline s
  | .forwardFrame d now => Sys2Proof.Machine.execForwardFrame d now s
  | .statusFrameSend => Sys2Proof.Machine.execStatusFrameSend s
  | .statusFrameReceived at_ f => Sys2Proof.Machine.execStatusFrameReceived at_ f s
  | .heartbeatCount => Sys2Proof.Machine.execHeartbeatCount s
  | .takeover => Sys2Proof.Machine.execTakeover s
  | .handover => Sys2Proof.Machine.execHandover s
  | .standbyFitTimeout => Sys2Proof.Machine.execStandbyFitTimeout s
  | .standbySelftestRound ok => Sys2Proof.Machine.execStandbySelftestRound ok s
  | .healthReport => Sys2Proof.Machine.execHealthReport s
  | .pairVoteReadback level => Sys2Proof.Machine.execPairVoteReadback level s
  | .testModeEntry tokenOk => Sys2Proof.Machine.execTestModeEntry tokenOk s
  | .crossingResponse id v ecc => Sys2Proof.Machine.execCrossingResponse id v ecc s
  | .regionUnitFault unit => Sys2Proof.Machine.execRegionUnitFault unit s
  | .interconnectParityError => Sys2Proof.Machine.execInterconnectParityError s
  | .plantTransmitDone port => Sys2Proof.Machine.execPlantTransmitDone port s
  | .peerVoteChange level => Sys2Proof.Machine.execPeerVoteChange level s
  | .comparePulseEnd c => Sys2Proof.Machine.execComparePulseEnd c s
  | .stepPulseEnd c => Sys2Proof.Machine.execStepPulseEnd c s
  | .recordingRestart => Sys2Proof.Machine.execRecordingRestart s
  | .temperatureMonitorClear tj => Sys2Proof.Machine.execTemperatureMonitorClear tj s
  | .spareFullSelftestDone b ok => Sys2Proof.Machine.execSpareFullSelftestDone b ok s
  | .vregTransactionDone ok data => Sys2Proof.Machine.execVregTransactionDone ok data s
  | .healthReportReceived h => Sys2Proof.Machine.execHealthReportReceived h s

end Sys2Proof.Machine
end

