-- ==== Sys2Proof/Safety.lean ====
section
/-! DEFINITION. Safety.lean: the terms claims are stated in: which parts of the device a command touches, what it logs, the
invariant of memory and confirmation records, and what nothing ever undoes. -/

namespace Sys2Proof.Machine

/-- The parts of the state, one per field. -/
inductive Part where
  | pending | fuse | flash | conf | image | chip | time | recd | ring | axio | mot | sol | trl | saf | host | pair | regions | mem
  | free
  deriving DecidableEq, Repr, Inhabited

/-- Two states agree on a part. -/
def Part.same (s t : State) : Part → Prop
  | .pending => t.pending = s.pending
  | .fuse => t.fuse = s.fuse
  | .flash => t.flash = s.flash
  | .conf => t.conf = s.conf
  | .image => t.image = s.image
  | .chip => t.chip = s.chip
  | .time => t.time = s.time
  | .recd => t.recd = s.recd
  | .ring => t.ring = s.ring
  | .axio => t.axio = s.axio
  | .mot => t.mot = s.mot
  | .sol => t.sol = s.sol
  | .trl => t.trl = s.trl
  | .saf => t.saf = s.saf
  | .host => t.host = s.host
  | .pair => t.pair = s.pair
  | .regions => t.regions = s.regions
  | .mem => t.mem = s.mem
  | .free => t.free = s.free

/-- From s to t only the listed parts may differ. -/
def only (ps : List Part) (s t : State) : Prop := ∀ p, p ∉ ps → p.same s t

/-- The event log at s: the entry the next event writes (R453). -/
def entryAt (s : State) (code detail : Nat) : EvEntry :=
  { tb := s.time.tb, tick := s.time.tickno % 2 ^ 32, code := code, detail := detail }

/-- From s to t exactly one event was raised, with this code and DETAIL, at the instant of s. -/
def logged (code detail : Nat) (s t : State) : Prop :=
  t.chip.ev = assocPut s.chip.ev s.chip.evWr (entryAt s code detail) ∧ t.chip.evWr = (s.chip.evWr + 1) % 512 ∧
  t.chip.evTotal = satAdd 0xFFFF s.chip.evTotal 1

/-- From s to t no event was raised. -/
def quiet (s t : State) : Prop :=
  t.chip.ev = s.chip.ev ∧ t.chip.evWr = s.chip.evWr ∧ t.chip.evTotal = s.chip.evTotal

/-- Element i of a table may differ, every other element and the length are as before. -/
def onlyAt {α : Type} [Inhabited α] (i : Nat) (l m : List α) : Prop :=
  m.length = l.length ∧ ∀ j, j ≠ i → nth m j = nth l j

/-- A state is sound: memory lists each written byte once, in rising addresses, and holds no byte equal to what nothing has
written reads as; there are two copies of the confirmation record (R331). -/
def State.sound (s : State) : Bool := Memory.wf s.mem && s.conf.length == 2

/-- What nothing undoes: the serial number and the variant are fixed, OPENED is never cleared, and the key digest and the device
key of the first start stay as they were burnt (R405, R419, R448). -/
def fusesLast (s t : State) : Prop :=
  t.fuse.serial = s.fuse.serial ∧ t.fuse.variant = s.fuse.variant ∧ (s.fuse.opened = true → t.fuse.opened = true) ∧
  (s.fuse.keyDigest.isSome = true → t.fuse.keyDigest = s.fuse.keyDigest ∧ t.fuse.devPub = s.fuse.devPub)

/-- A command was accepted at its release without a change of the host region but its reply, which waits for 18.0 µs (R390). -/
def accepted18 (o : Origin) (s t : State) : Prop :=
  t.host = { s.host with replies := s.host.replies ++ [mkReply o 0 0 [] s] }

/-- From s to t HOST_CMD_REFUSED was raised, unless it was raised before in this tick (R392, R454). -/
def refusalEvent (s t : State) : Prop :=
  (s.chip.once.contains (0x0970, 0) = true → quiet s t) ∧ (s.chip.once.contains (0x0970, 0) = false → logged 0x0970 0 s t)

/-- A command was refused at its release and did nothing else: the reply with CODE and DETAIL waits for 18.0 µs, the refusal is
counted, and HOST_CMD_REFUSED is raised once in the tick (R390, R392). -/
def refused18 (o : Origin) (code detail : Nat) (s t : State) : Prop :=
  t.host = { s.host with
    refcnt := satAdd 0xFFFF s.host.refcnt 1, lastCode := code, lastKey := o.key,
    replies := s.host.replies ++ [mkReply o code detail [] s] } ∧
  refusalEvent s t ∧ only [.chip, .host] s t

/-- A reply was formed and sent at once, on each network that a copy of the command came on; none leaves where the device sends no
replies (R384, R390, R398). -/
def answered (o : Origin) (code detail : Nat) (body : List Byte) (s t : State) : Prop :=
  t.host.sent = s.host.sent ++ (if repliesOut s then
    (replyNets s (mkReply o code detail body s)).map (fun n => { mkReply o code detail body s with net := n }) else [])

/-- Every group of a mask exists in the running mode and is defined by the image (R393, R400). -/
def groupsNamed (s : State) (m : Mask) : Prop :=
  nodeMode s = false ∧ ∀ g, hasBit m g = true → g < maxGroups s ∧ (grpCfg s g).defined = true

/-- Slice b.sl is x and may execute: it runs, no tick abort waits for its delay slot, and it is not both in a delay slot and at the
end of an active loop (R190, R191, R193). -/
def sliceFree (b sl : Nat) (s : State) (x : SliceSt) : Prop :=
  sliceSt s b sl = some x ∧ canRun x = true ∧ x.abortWait = false ∧ (x.inSlot && atLoopEnd x) = false

/-- Slice b.sl is x and may execute a transfer, a loop, WAIT, OUT or END: neither in a delay slot nor at a loop end (R190). -/
def sliceClear (b sl : Nat) (s : State) (x : SliceSt) : Prop :=
  sliceSt s b sl = some x ∧ canRun x = true ∧ x.abortWait = false ∧ x.inSlot = false ∧ atLoopEnd x = false

/-- From s to t slice b.sl became y; the other slices, the rest of MOT, and every other part are as before. -/
def sliceStep (b sl : Nat) (s t : State) (y : SliceSt) : Prop :=
  sliceSt t b sl = some y ∧ (∀ c k, (c ≠ b ∨ k ≠ sl) → sliceSt t c k = sliceSt s c k) ∧
  t.mot = { s.mot with slices := t.mot.slices } ∧ only [.mot] s t

/-- An instruction was executed: results in flight have landed, the count has risen, and the program counter has moved on by one
unless a delay slot or a loop end decides it (R186, R190, R191). -/
def executed (x y : SliceSt) : Prop :=
  y.icnt = satAdd 0xFFFF x.icnt 1 ∧ (x.inSlot = false → atLoopEnd x = false → y.pc = x.pc + 1)

/-- Beside its results an instruction left everything as it was but for results in flight that landed. -/
def registersKept (x y : SliceSt) : Prop :=
  y = { commit x with
    d := y.d, st := y.st, pc := y.pc, pend := y.pend, icnt := y.icnt, inSlot := y.inSlot, jump := y.jump,
    jumpClr := y.jumpClr, lc := y.lc }

/-- Of the data registers only rd may differ from what they were with the results in flight landed. -/
def onlyD (rd : Nat) (x y : SliceSt) : Prop := ∀ i, i ≠ rd → dReg y i = dReg (commit x) i

/-- Of the status register only N, Z, V and SAT as given, and the loop bits, may differ. -/
def flagsAre (n z v sat : Bool) (x y : SliceSt) : Prop :=
  stBit y 1 = n ∧ stBit y 0 = z ∧ stBit y 2 = v ∧ stBit y 3 = sat ∧ y.st &&& 0x9FFFF0 = (commit x).st &&& 0x9FFFF0

end Sys2Proof.Machine
end

