-- ==== Sys2Proof/Certificates/Slice0/Obligations.lean ====
section
/-! DEFINITION. Obligations.lean: what is claimed of the device, from the numbered rules of spec/ file by file. Each statement says
what its commands do where the rules let them act: exec answers a next state, what that state holds, and which parts stay. -/

open Sys2Proof Sys2Proof.Machine

/-- R48, R48, R53, R54, R50, R51, R53: A lock request in rank order, with fewer than four locks held, is put before the arbiter for
its next decision; out of order it is refused with CHIP_ORDER, nothing is put before the arbiter and the locks stay. A grant
request in order is put before the arbiter; only the holder of a lock releases it; a lock that times out is broken with
CHIP_LOCK_TIMEOUT; FRZ is set and cleared. At its decision an arbiter of no ring port with no holder serves, of two new
requests, the one of the higher priority, and of two equal ones the lower id, and parks the other; while FRZ is 1 it makes no
grant. That a fifth lock is refused with CHIP_ORDER is the model's choice (log 40). Commands that complete here, each as the
clause of its name says: lockRequest, grantRequest, lockRelease, arbiterDecision, lockTimeout, arbFreeze, arbUnfreeze. -/
def Obligations.Arbiters : Prop :=
  (∀ (n id : Nat) (s : State), n < maxArbs s.fuse.variant → n < s.chip.arbs.length → (lockRanks s id).length < 4 →
    (∀ m ∈ lockRanks s id, m < n) → isWaiting (arbSt s n) id = false →
    ∃ t, exec (.lockRequest n id) s = .next t ∧ (arbSt t n).fresh = (arbSt s n).fresh ++ [{ id := id, lock := true }] ∧
      (∀ m, (arbSt t m).lock = (arbSt s m).lock) ∧ quiet s t ∧ only [.chip] s t) ∧
  (∀ (n id : Nat) (s : State), n < maxArbs s.fuse.variant →
    (4 ≤ (lockRanks s id).length ∨ ∃ m ∈ lockRanks s id, n ≤ m) →
    ∃ t, exec (.lockRequest n id) s = .next t ∧ logged 0x0110 n s t ∧ t.chip.arbs = s.chip.arbs ∧ only [.chip] s t) ∧
  (∀ (n id len : Nat) (s : State), n < maxArbs s.fuse.variant → n < s.chip.arbs.length →
    ((arbSt s n).lock = some id ∨ ∀ m ∈ lockRanks s id, m < n) → isWaiting (arbSt s n) id = false →
    ∃ t, exec (.grantRequest n id len) s = .next t ∧
      (arbSt t n).fresh = (arbSt s n).fresh ++ [{ id := id, lock := false, len := len }] ∧
      (∀ m, (arbSt t m).grant ≠ some id) ∧
      (∀ m, (arbSt t m).lock = (arbSt s m).lock) ∧ quiet s t ∧ only [.chip] s t) ∧
  (∀ (n id : Nat) (s : State), (arbSt s n).lock = some id →
    ∃ t, exec (.lockRelease n id) s = .next t ∧ (arbSt t n).lock = none ∧ onlyAt n s.chip.arbs t.chip.arbs ∧ quiet s t ∧
      only [.chip] s t) ∧
  (∀ (n id : Nat) (s : State), (arbSt s n).lock ≠ some id → exec (.lockRelease n id) s = .next s) ∧
  (∀ (n id : Nat) (s : State), (arbSt s n).lock = some id →
    ∃ t, exec (.lockTimeout n) s = .next t ∧ (arbSt t n).lock = none ∧ id ∈ (arbSt t n).broken ∧ logged 0x0112 n s t ∧
      onlyAt n s.chip.arbs t.chip.arbs ∧ only [.chip] s t) ∧
  (∀ (n : Nat) (s : State), n < maxArbs s.fuse.variant → n < s.chip.arbs.length →
    ∃ t, exec (.arbFreeze n) s = .next t ∧ (arbSt t n).frz = true ∧ (arbSt t n).lock = (arbSt s n).lock ∧
      t.chip.resp = .done ∧ onlyAt n s.chip.arbs t.chip.arbs ∧ quiet s t ∧ only [.chip] s t) ∧
  (∀ (n : Nat) (s : State), n < maxArbs s.fuse.variant → n < s.chip.arbs.length →
    ∃ t, exec (.arbUnfreeze n) s = .next t ∧ (arbSt t n).frz = false ∧ t.chip.resp = .done ∧ only [.chip] s t) ∧
  (∀ (n : Nat) (x y : ArbReq) (s : State), n < maxArbs s.fuse.variant → n < s.chip.arbs.length →
    n < 15 ∨ 18 < n → (∀ m, (arbSt s m).grant ≠ some x.id) →
    (arbSt s n).frz = false → (arbSt s n).grant = none → (arbSt s n).lock = none → (arbSt s n).broken = [] →
    (arbSt s n).parked = [] → ((arbSt s n).fresh = [x, y] ∨ (arbSt s n).fresh = [y, x]) → x.lock = false → x.id ≠ y.id →
    (reqLevel s y < reqLevel s x ∨ reqLevel s y = reqLevel s x ∧ x.id < y.id) →
    ∃ t, exec (.arbiterDecision n) s = .next t ∧ (arbSt t n).grant = some x.id ∧ (arbSt t n).parked = [y] ∧
      (arbSt t n).fresh = [] ∧ onlyAt n s.chip.arbs t.chip.arbs ∧ quiet s t ∧ only [.chip] s t) ∧
  (∀ (n : Nat) (s : State), n < maxArbs s.fuse.variant → n < s.chip.arbs.length → (arbSt s n).frz = true →
    ∃ t, exec (.arbiterDecision n) s = .next t ∧ (arbSt t n).grant = none ∧ onlyAt n s.chip.arbs t.chip.arbs ∧
      only [.chip] s t)

/-- R47, R55 to R59, R3, R11, R44, R444, R447: An access to a clocked domain waits for its response; more than 255 pulses set OVF
with CHIP_XING_OVF; the response completes it, a corrected word of DRAM with CHIP_DRAM_CE; the watchdog ends it with an error
token and counts HANG, for a requester whose slice fault has no class with nothing more; and a late response is discarded. An
access to a quarantined block ends with an error token and its BLOCK_QUAR event again; an access of a wrong size to a register
and one to an address that no map covers end with an error token and their events; an access to an absent unit reads 0 or
discards the write, with CHIP_ABSENT and no error token. Memory takes a byte or a halfword. Commands that complete here, each as
the clause of its name says: quarantinedAccess, absentUnitAccess, accessSizeError, decodeError, crossingAccess,
crossingWatchdog, crossingLateResponse, crossingResponse. -/
def Obligations.CrossingsAndAbsentUnits : Prop :=
  (∀ (id sl dom pulses : Nat) (s : State), pulses ≤ 255 →
    ∃ t, exec (.crossingAccess id sl dom pulses) s = .next t ∧
      t.chip.xPend = s.chip.xPend ++ [{ who := id, sl := sl, dom := dom }] ∧
      (dom < s.chip.xPulses.length → nth t.chip.xPulses dom = pulses) ∧ t.chip.xOvf = s.chip.xOvf ∧ quiet s t ∧
      only [.chip] s t) ∧
  (∀ (id sl dom pulses : Nat) (s : State), 255 < pulses → id ≠ 34 →
    ∃ t, exec (.crossingAccess id sl dom pulses) s = .next t ∧ (dom < s.chip.xPulses.length → nth t.chip.xPulses dom = 255) ∧
      t.chip.xOvf = true ∧ t.chip.xOvfDom = dom ∧ logged 0x0121 0 s t ∧ only [.chip] s t) ∧
  (∀ (id : Nat) (v : Word) (s : State), (∃ x ∈ s.chip.xPend, x.who = id) →
    ∃ t, exec (.crossingResponse id v .ok) s = .next t ∧ t.chip.resp = .value v ∧
      t.chip.xPend.length + 1 = s.chip.xPend.length ∧ quiet s t ∧ only [.chip] s t) ∧
  (∀ (id : Nat) (v : Word) (x : XAccess) (s : State), xPending s id = some x → x.dom = 1 →
    ∃ t, exec (.crossingResponse id v .corrected) s = .next t ∧ t.chip.resp = .value v ∧
      t.chip.dramCe = s.chip.dramCe + 1 ∧ logged 0x0142 0 s t ∧ only [.chip] s t) ∧
  (∀ (id : Nat) (s : State), (∃ x ∈ s.chip.xPend, x.who = id) → id < 8 ∨ 37 ≤ id →
    ∃ t, exec (.crossingWatchdog id) s = .next t ∧ t.chip.resp = .errorToken ∧
      t.chip.xPend.length + 1 = s.chip.xPend.length ∧ t.chip.xHang = satAdd 0xFFFF s.chip.xHang 1 ∧ logged 0x0120 0 s t ∧
      only [.chip] s t) ∧
  (∀ (id dom : Nat) (s : State), exec (.crossingLateResponse id dom) s = .next s) ∧
  (∀ (r : Region) (b : Nat) (s : State), hasBit (regSt s r).quar b = true →
    ∃ t, exec (.quarantinedAccess r b) s = .next t ∧ t.chip.resp = .errorToken ∧ logged (256 * r.id + 0xE3) 0 s t ∧
      only [.chip] s t) ∧
  (∀ (w : Who) (a : Word) (half : Bool) (v : Option (BitVec 16)) (r : Region) (o : Nat) (s : State), tlFlow s w = none →
    target (coreOf w) s a.toNat = .reg r o →
    ∃ t, exec (.accessSizeError w a half v) s = .next t ∧ t.chip.resp = .errorToken ∧ logged 0x0102 0 s t ∧ only [.chip] s t) ∧
  (∀ (w : Who) (a : Word) (half : Bool) (v : BitVec 16) (m : Nat) (s : State), tlFlow s w = none →
    target (coreOf w) s a.toNat = .mem m → dmaOk m = true →
    ∃ t, exec (.accessSizeError w a half (some v)) s = .next t ∧
      t.mem = memWrites s.mem m (leBytes (if half then 2 else 1) v.toNat) ∧ t.chip.resp = .done ∧ quiet s t ∧
      only [.chip, .mem] s t) ∧
  (∀ (a : Nat) (s : State), ¬ (a < 0x200000000 ∨ 0x8000000000 ≤ a ∧ a < 0x8000800000) →
    ∃ t, exec (.decodeError a true) s = .next t ∧ t.chip.resp = .errorToken ∧ logged 0x0103 0 s t ∧ only [.chip] s t) ∧
  (∀ (a : Nat) (s : State), 0x20000 ≤ a → a < 0x10000000 →
    ∃ t, exec (.decodeError a false) s = .next t ∧ t.chip.resp = .errorToken ∧ logged 0x0103 0 s t ∧ only [.chip] s t) ∧
  (∀ (a : Word) (s : State), target none s a.toNat = .absent →
    ∃ t, exec (.absentUnitAccess a false) s = .next t ∧ t.chip.resp = .value 0 ∧ logged 0x0101 0 s t ∧ only [.chip] s t) ∧
  (∀ (a : Word) (s : State), target none s a.toNat = .absent →
    ∃ t, exec (.absentUnitAccess a true) s = .next t ∧ t.chip.resp = .done ∧ logged 0x0101 0 s t ∧ only [.chip] s t)

/-- R13, R443, R447, R12, R95: A write of a read-and-write register takes effect (CHIP.DWIN), one of a read-only register is
discarded and completes normally; a store through a window to memory writes its four bytes, the lowest byte first, and leaves
every other byte as it reads. A read of word 0 of TIME.TB answers the fraction and latches the further words of the same
instant, and a read of word 1 answers the latched nanoseconds, whatever TB has become. One latch of a wide register for all
requesters is the model's choice (log 24). Commands that complete here, each as the clause of its name says: registerWrite,
wideRegisterRead. -/
def Obligations.RegisterAccess : Prop :=
  (∀ (w : Who) (v : Word) (s : State), tlEscape s w 0x10000040 4 = false → regionStopped .chip s = false →
    ∃ t, exec (.registerWrite w 0x10000040 v) s = .next t ∧ t.chip.dwin = v.setWidth 24 ∧ t.chip.resp = .done ∧ quiet s t ∧
      only [.chip] s t) ∧
  (∀ (w : Who) (v : Word) (s : State), tlEscape s w 0x10000004 4 = false → regionStopped .chip s = false →
    exec (.registerWrite w 0x10000004 v) s = .next (acked s)) ∧
  (∀ (w : Who) (a v : Word) (s : State), tlEscape s w a.toNat 4 = false → 0xB0000000 ≤ a.toNat → a.toNat + 4 ≤ 0xB0800000 →
    Memory.wf s.mem = true →
    ∃ t, exec (.registerWrite w a v) s = .next t ∧ t.chip.resp = .done ∧ quiet s t ∧ only [.chip, .mem] s t ∧
      (∀ i, i < 4 → memRead t.mem (0x8000000000 + (a.toNat - 0xB0000000) + i) = (v >>> (8 * i)).setWidth 8) ∧
      (∀ k, ¬ (0x8000000000 + (a.toNat - 0xB0000000) ≤ k ∧ k < 0x8000000000 + (a.toNat - 0xB0000000) + 4) →
        memRead t.mem k = memRead s.mem k)) ∧
  (∀ (w : Who) (s : State), tlFlow s w = none → regionStopped .time s = false →
    ∃ t, exec (.wideRegisterRead w 0x20000000) s = .next t ∧ t.chip.resp = .value (w32 (s.time.tbFr % 65536)) ∧
      assoc t.chip.latch 0x20000000 =
        some [BitVec.ofInt 32 ((s.time.tb : Int) % 1000000000), loW (BitVec.ofInt 64 ((s.time.tb : Int) / 1000000000)),
              hiW (BitVec.ofInt 64 ((s.time.tb : Int) / 1000000000))] ∧
      quiet s t ∧ only [.chip] s t) ∧
  (∀ (w : Who) (s : State) (a b c : Word), tlFlow s w = none → regionStopped .time s = false → assoc s.chip.latch 0x20000000 = some [a, b, c] →
    (∃ t, exec (.wideRegisterRead w 0x20000004) s = .next t ∧ t.chip.resp = .value a ∧ quiet s t ∧ only [.chip] s t) ∧
    (∃ t, exec (.wideRegisterRead w 0x20000008) s = .next t ∧ t.chip.resp = .value b ∧ quiet s t ∧ only [.chip] s t) ∧
    (∃ t, exec (.wideRegisterRead w 0x2000000C) s = .next t ∧ t.chip.resp = .value c ∧ quiet s t ∧ only [.chip] s t))

/-- R94, R97, R99, R100, R101, R96 to R98, R103: A Sync of the followed domain sets the target rate from its offset, the domain's
time less TB and DOMOFS; beyond STEPTH the offset is held in DOMOFS with TIME_OFFSET_HELD and the servo works on what remains;
before ring start TB is stepped once; without PTP nothing happens. A domain's grandmaster is the best of those whose Announces
it has heard; the two timeouts make a domain invalid; when the last valid domain is lost the device enters holdover with
TIME_HOLDOVER and RATE stays; a domain A valid for REVERT seconds is followed again, with TIME_DOM_SWITCH. That TB moves with
the instants that commands carry is the model's choice (log 32). Commands that complete here, each as the clause of its name
says: syncReceived, announceReceived, domainTimeout, domainRevert. -/
def Obligations.PrecisionTime : Prop :=
  (∀ (time a : Nat) (rate off : Int) (s : State), off = (time : Int) - (a + s.time.domofs) → ptpOn s = true → s.time.run = true →
    s.time.everFoll = true → s.time.sel = false → (s.time.servo = 2 ∨ s.time.servo = 3) → (domSt s 0).valid = true →
    off.natAbs ≤ stepTh s →
    ∃ t, exec (.syncReceived false time rate a) s = .next t ∧ t.time.target = clampRate (rate + phaseTerm s off) ∧
      (domSt t 0).offset = off ∧ (domSt t 0).rate = rate ∧ t.time.tb = max s.time.tb a ∧ t.time.domofs = s.time.domofs ∧
      (s.chip.phase ≠ .tlockWait → t.ring = s.ring) ∧ only [.chip, .time, .ring] s t) ∧
  (∀ (time a : Nat) (rate off : Int) (s : State), off = (time : Int) - (a + s.time.domofs) → ptpOn s = true → s.time.run = true →
    s.time.everFoll = true → s.time.sel = false → s.time.servo = 3 → (domSt s 0).valid = true → stepTh s < off.natAbs →
    100 ≤ off.natAbs → a ≤ s.time.tb →
    ∃ t, exec (.syncReceived false time rate a) s = .next t ∧ t.time.domofs = s.time.domofs + off ∧ t.time.tb = s.time.tb ∧
      (domSt t 0).offset = 0 ∧ t.time.target = clampRate (rate + phaseTerm s 0) ∧ logged 0x0206 0 s t ∧
      only [.chip, .time] s t) ∧
  (∀ (time a : Nat) (rate off : Int) (s : State), off = (time : Int) - (a + s.time.domofs) → ptpOn s = true → s.time.run = false →
    s.time.acquired = false → s.time.everFoll = true → s.time.sel = false → s.time.servo = 1 → (domSt s 0).valid = true →
    1000 < off.natAbs →
    ∃ t, exec (.syncReceived false time rate a) s = .next t ∧ t.time.tb = ((max s.time.tb a : Int) + off).toNat ∧
      t.time.acquired = true ∧ t.time.rate = clampRate rate ∧ quiet s t ∧ only [.time] s t) ∧
  (∀ (b : Bool) (time a : Nat) (rate : Int) (s : State), ptpOn s = false → s.chip.phase ≠ .tlockWait →
    exec (.syncReceived b time rate a) s = .next s) ∧
  (∀ (b : Bool) (g : GmSet) (a : Nat) (s : State), ptpOn s = true → s.time.doms.length = 2 →
    ∃ t, exec (.announceReceived b g a) s = .next t ∧ g ∈ (domSt t (if b then 1 else 0)).masters ∧
      (∃ h ∈ (domSt t (if b then 1 else 0)).masters, (domSt t (if b then 1 else 0)).best = some h ∧
        ∀ k ∈ (domSt t (if b then 1 else 0)).masters, keyBefore (gmKey k) (gmKey h) = false) ∧
      ((domSt t (if b then 1 else 0)).best = some g → (domSt t (if b then 1 else 0)).annFresh = true) ∧
      only [.chip, .time] s t) ∧
  (∀ (b n : Bool) (a : Nat) (s : State), ptpOn s = true → s.time.doms.length = 2 →
    ∃ t, exec (.domainTimeout b n a) s = .next t ∧ (domSt t (if b then 1 else 0)).valid = false ∧ only [.chip, .time] s t) ∧
  (∀ (n : Bool) (a : Nat) (s : State), ptpOn s = true → s.time.doms.length = 2 → s.time.run = true → s.time.servo ≠ 4 →
    (domSt s 1).valid = false → a ≤ s.time.tb →
    ∃ t, exec (.domainTimeout false n a) s = .next t ∧ t.time.servo = 4 ∧ t.time.target = t.time.rate ∧ logged 0x0204 0 s t ∧
      only [.chip, .time] s t) ∧
  (∀ (a : Nat) (s : State), ptpOn s = true → s.time.sel = true → s.time.everFoll = true → s.time.servo = 3 →
    (domSt s 0).valid = true → 0 < s.image.revert → (domSt s 0).validAt + s.image.revert * 1000000000 ≤ a →
    (domSt s 0).offset.natAbs ≤ stepTh s → a ≤ s.time.tb →
    ∃ t, exec (.domainRevert a) s = .next t ∧ t.time.sel = false ∧ logged 0x0203 0 s t ∧ only [.chip, .time] s t) ∧
  (∀ (a : Nat) (s : State), (s.image.revert = 0 ∨ (domSt s 0).valid = false ∨ s.time.sel = false) →
    exec (.domainRevert a) s = .next s)

/-- R104 to R107: An event message with a bad frame check sequence is discarded and counted; a good one leaves by the partner port
at its scheduled instant; its residence goes into it, or waits for the general message that follows it, which takes it. The free
part of a residence is the model's choice (log 34). Commands that complete here, each as the clause of its name says:
ptpEventForward, plantFrameReceived. -/
def Obligations.TransparentClock : Prop :=
  (∀ (p i l w u : Nat) (f o : Bool) (m : PtpId) (s : State), p / 2 < s.host.nets.length →
    ∃ t, exec (.ptpEventForward p i l false f o m w u) s = .next t ∧
      (nth t.host.nets (p / 2)).fcserr = satAdd 0xFFFF (nth s.host.nets (p / 2)).fcserr 1 ∧ quiet s t ∧ only [.host] s t) ∧
  (∀ (p i l w u : Nat) (o : Bool) (m : PtpId) (s : State), s.time.profile = 1 → s.time.stopped = false →
    otherPort p < s.time.egress.length →
    ∃ t, exec (.ptpEventForward p i l true true o m w u) s = .next t ∧
      nth t.time.egress (otherPort p) = egressAt s (otherPort p) i w + 8 * (l + 8) ∧
      t.time.resid = s.time.resid ++
        [{ net := p / 2, id := { m with type := follower m.type }, corr := residence s p i (egressAt s (otherPort p) i w) m.domain u }] ∧ quiet s t ∧ only [.time, .host] s t) ∧
  (∀ (p i l w u : Nat) (o : Bool) (m : PtpId) (s : State), s.time.profile = 1 → s.time.stopped = false → s.pair.role ≠ 3 →
    otherPort p < s.time.egress.length → otherPort p < s.host.ports.length → (nth s.host.ports (otherPort p)).up = true →
    (nth s.host.ports (otherPort p)).wire = none →
    ∃ t, exec (.ptpEventForward p i l true false o m w u) s = .next t ∧
      (nth t.host.ports (otherPort p)).wire = some
        { kind := .ptp, len := l, corr := residence s p i (egressAt s (otherPort p) i w) m.domain u } ∧
      t.time.resid = s.time.resid ∧ quiet s t ∧ only [.time, .host] s t) ∧
  (∀ (p l : Nat) (m : PtpId) (c : Int) (s : State), regionStopped .host s = false → s.pair.role ≠ 3 →
    otherPort p < s.host.ports.length → (nth s.host.ports (otherPort p)).up = true →
    (nth s.host.ports (otherPort p)).wire = none → l ≤ 1522 →
    s.time.resid = [{ net := p / 2, id := m, corr := c }] →
    ∃ t, exec (.plantFrameReceived p l true false false false true (some m)) s = .next t ∧ t.time.resid = [] ∧
      (nth t.host.ports (otherPort p)).wire = some { kind := .forward, len := l, corr := c } ∧ quiet s t ∧
      only [.time, .host] s t)

/-- R110, R111: An arm in time takes the pending START and PERIOD and drives its first edge at START; an arm late by less than 64 ns
sets LATE with TIME_TRIG_LATE, and with PERIOD 0 the trigger stays unarmed; an edge begins the pulse and moves on by PERIOD,
COUNT ends the train, and the pulse returns. Commands that complete here, each as the clause of its name says: triggerArm,
triggerDisarm, triggerEdge, triggerPulseEnd. -/
def Obligations.Triggers : Prop :=
  (∀ (w : Who) (i : Nat) (ctl : Word) (now : Nat) (s : State), tlFlow s w = none → i < s.time.trigs.length → (trigSt s i).active = false →
    (now + 64) * 65536 ≤ (1000000000 * (trigSt s i).pSec + (trigSt s i).pNsec) * 65536 + (trigSt s i).pStartFr % 65536 →
    ∃ t, exec (.triggerArm w i ctl now) s = .next t ∧ (trigSt t i).active = true ∧ (trigSt t i).late = (trigSt s i).late ∧
      (trigSt t i).next = (1000000000 * (trigSt s i).pSec + (trigSt s i).pNsec) * 65536 + (trigSt s i).pStartFr % 65536 ∧
      (trigSt t i).fired = 0 ∧ t.chip.resp = .done ∧ onlyAt i s.time.trigs t.time.trigs ∧ quiet s t ∧
      only [.chip, .time] s t) ∧
  (∀ (w : Who) (i : Nat) (ctl : Word) (now : Nat) (s : State), tlFlow s w = none → i < s.time.trigs.length → (trigSt s i).active = false →
    (1000000000 * (trigSt s i).pSec + (trigSt s i).pNsec) * 65536 + (trigSt s i).pStartFr % 65536 < (now + 64) * 65536 → now ≤ s.time.tb →
    (trigSt s i).pPerNs = 0 → (trigSt s i).pPerFr = 0 →
    ∃ t, exec (.triggerArm w i ctl now) s = .next t ∧ (trigSt t i).active = false ∧ (trigSt t i).late = true ∧
      logged 0x0210 i s t ∧ onlyAt i s.time.trigs t.time.trigs ∧ only [.chip, .time] s t) ∧
  (∀ (w : Who) (i now : Nat) (s : State), tlFlow s w = none → i < s.time.trigs.length →
    ((trigSt s i).active = false ∨ (now + 64) * 65536 ≤ (trigSt s i).next) →
    ∃ t, exec (.triggerDisarm w i now) s = .next t ∧ (trigSt t i).active = false ∧ t.chip.resp = .done ∧
      onlyAt i s.time.trigs t.time.trigs ∧ quiet s t ∧ only [.chip, .time] s t) ∧
  (∀ (i : Nat) (s : State), i < s.time.trigs.length → (trigSt s i).active = true → s.time.stopped = false →
    (trigSt s i).pend = none →
    ∃ t, exec (.triggerEdge i) s = .next t ∧ (trigSt t i).pulse = true ∧
      (trigSt t i).fired = satAdd 0xFFFF (trigSt s i).fired 1 ∧ (trigSt t i).next = (trigSt s i).next + (trigSt s i).per ∧
      ((trigSt t i).active = true ↔ (trigSt s i).per ≠ 0 ∧ (trigSt s i).left ≠ 1) ∧ onlyAt i s.time.trigs t.time.trigs ∧
      quiet s t ∧ only [.time] s t) ∧
  (∀ (i : Nat) (s : State), i < s.time.trigs.length →
    ∃ t, exec (.triggerPulseEnd i) s = .next t ∧ (trigSt t i).pulse = false ∧ (trigSt t i).active = (trigSt s i).active ∧
      onlyAt i s.time.trigs t.time.trigs ∧ quiet s t ∧ only [.time] s t)

/-- R113: An accepted edge is queued with its timestamp; into a full queue it is lost, counted and OVF is set; a level that has not
held for FILT is ignored; a read of CAPTS0 takes the oldest entry, and reads 0 from an empty queue. Commands that complete here,
each as the clause of its name says: captureEdge, captureRead. -/
def Obligations.Captures : Prop :=
  (∀ (j tb : Nat) (r : Bool) (h : Nat) (s : State), j < s.time.caps.length → capAccepts (capSt s j) r h = true →
    (capSt s j).queue.length < 16 →
    ∃ t, exec (.captureEdge j tb r h) s = .next t ∧ (capSt t j).queue = (capSt s j).queue ++ [(tb, r)] ∧
      (capSt t j).lost = (capSt s j).lost ∧ onlyAt j s.time.caps t.time.caps ∧ quiet s t ∧ only [.time] s t) ∧
  (∀ (j tb : Nat) (r : Bool) (h : Nat) (s : State), j < s.time.caps.length → capAccepts (capSt s j) r h = true →
    16 ≤ (capSt s j).queue.length →
    ∃ t, exec (.captureEdge j tb r h) s = .next t ∧ (capSt t j).queue = (capSt s j).queue ∧ (capSt t j).ovf = true ∧
      (capSt t j).lost = satAdd 0xFFFF (capSt s j).lost 1 ∧ onlyAt j s.time.caps t.time.caps ∧
      (s.chip.once.contains (0x0211, j) = false → logged 0x0211 j s t) ∧
      (s.chip.once.contains (0x0211, j) = true → quiet s t) ∧ only [.chip, .time] s t) ∧
  (∀ (j tb : Nat) (r : Bool) (h : Nat) (s : State), capAccepts (capSt s j) r h = false →
    exec (.captureEdge j tb r h) s = .next s) ∧
  (∀ (j tb : Nat) (r : Bool) (q : List (Nat × Bool)) (s : State), j < s.time.caps.length → (capSt s j).queue = (tb, r) :: q →
    ∃ t, exec (.captureRead j) s = .next t ∧ (capSt t j).queue = q ∧
      t.chip.resp = .value (0x80000000 ||| (if r then 0x40000000 else 0) ||| BitVec.ofNat 32 (tb % 1000000000)) ∧
      onlyAt j s.time.caps t.time.caps ∧ quiet s t ∧ only [.chip, .time] s t) ∧
  (∀ (j : Nat) (s : State), (capSt s j).queue = [] →
    ∃ t, exec (.captureRead j) s = .next t ∧ t.chip.resp = .value 0 ∧ t.time = s.time ∧ quiet s t ∧ only [.chip] s t)

/-- R116, R117, R81 to R83, R90, R91: A cross-check count inside 28,160 to 35,840 is only noted; outside it, and when the reference
or the PLL is lost, the device escalates to chip level and the refresh is withheld; a lost reference or PLL stops the time base.
A write of SLACKCTL clears LOW in every register; while the ring runs REC follows the lowest slack once per millisecond and is
sent; a regulator whose bus fails, that offers another number format, or whose read-back differs by more than 10 mV, sets MODE
to 0 with TIME_VREG_FAULT. Every 2ᶜ ticks a checkpoint is captured; the last four are kept; a copy not done within 64 ticks is
discarded with HOST_CKPT_DROP; recording stops when the countdown has ended. That checkpoints are taken only while recording is
the model's choice (log 36). Commands that complete here, each as the clause of its name says: slackClear, vrecWindow,
vregReadbackCheck, checkpoint, checkpointCopyDone, checkpointCopyTimeout, recordingStop, timeCrossCheck, referenceLoss,
pllUnlock, vregTransactionDone. -/
def Obligations.TimeChecksAndRecording : Prop :=
  (∀ (c : Nat) (s : State), 28160 ≤ c → c ≤ 35840 →
    ∃ t, exec (.timeCrossCheck c) s = .next t ∧ t.time.xchk = c ∧ quiet s t ∧ only [.time] s t) ∧
  (∀ (c : Nat) (s : State), (c < 28160 ∨ 35840 < c) → (regSt s .time).escalated = false →
    ∃ t, exec (.timeCrossCheck c) s = .next t ∧ t.time.xchk = c % 65536 ∧ t.chip.escalated = true ∧ t.saf.withheld = true ∧
      t.saf.lastA = 0x0222 ∧ t.time.stopped = s.time.stopped ∧ only [.chip, .time, .recd, .saf, .regions] s t) ∧
  (∀ (s : State), s.time.stopped = false → (regSt s .time).escalated = false →
    ∃ t, exec .referenceLoss s = .next t ∧ t.time.stopped = true ∧ t.chip.escalated = true ∧ t.saf.withheld = true ∧
      t.saf.lastA = 0x0220 ∧ t.time.tb = s.time.tb ∧ t.time.tickno = s.time.tickno ∧
      only [.chip, .time, .recd, .saf, .regions] s t) ∧
  (∀ (s : State), s.time.stopped = false → (regSt s .time).escalated = false →
    ∃ t, exec .pllUnlock s = .next t ∧ t.time.stopped = true ∧ t.chip.escalated = true ∧ t.saf.withheld = true ∧
      t.saf.lastA = 0x0221 ∧ t.time.tb = s.time.tb ∧ t.time.tickno = s.time.tickno ∧
      only [.chip, .time, .recd, .saf, .regions] s t) ∧
  (∀ (s : State), ∃ t, exec .slackClear s = .next t ∧ (∀ x ∈ t.time.slack, x.low = 0x7FFF) ∧
    t.time.slack.length = s.time.slack.length ∧ t.chip.resp = .done ∧ quiet s t ∧ only [.chip, .time] s t) ∧
  (∀ (s : State), s.time.run = true → s.time.stopped = false → s.time.winMiss = true →
    ∃ t, exec .vrecWindow s = .next t ∧ t.time.vrec = s.image.vmax ∧ t.time.winMiss = false ∧ only [.chip, .time] s t) ∧
  (∀ (m : Nat) (s : State), s.time.run = true → s.time.stopped = false → s.time.winMiss = false →
    s.time.slack.filterMap (fun x => x.winMin) = [m] →
    ∃ t, exec .vrecWindow s = .next t ∧ only [.chip, .time] s t ∧
      (2 * m < s.image.vfloor → t.time.vrec = s.image.vmax) ∧
      (s.image.vfloor ≤ 2 * m → m < s.image.vfloor → t.time.vrec = min (s.time.vrec + 2) s.image.vmax) ∧
      (s.image.vfloor ≤ m → m ≤ 2 * s.image.vfloor → t.time.vrec = s.time.vrec) ∧
      (2 * s.image.vfloor < m → s.image.vfloor ≤ m → t.time.vrec = max (s.time.vrec - 1) s.image.vmin) ∧
      (s.time.vmode ≠ 0 → t.time.vsent = t.time.vrec ∧ t.time.recValid = false) ∧
      (m < s.image.vfloor → logged 0x02D2 0 s t) ∧ (s.image.vfloor ≤ m → quiet s t)) ∧
  (∀ (d : Nat) (x : VregTx) (s : State), s.time.vtx = some x → x.wr = false → x.pmb = false →
    ∃ t, exec (.vregTransactionDone true d) s = .next t ∧ t.time.vmv = d ∧ t.time.vmode = s.time.vmode ∧ quiet s t ∧
      only [.time] s t) ∧
  (∀ (d : Nat) (x : VregTx) (s : State), s.time.vtx = some x → x.wr = false → x.pmb = true → x.cmd = 0x20 → d / 32 % 8 ≠ 0 →
    ∃ t, exec (.vregTransactionDone true d) s = .next t ∧ t.time.vmode = 0 ∧ logged 0x02D3 0 s t ∧ only [.chip, .time] s t) ∧
  (∀ (d : Nat) (s : State), s.time.vtx.isSome = true →
    ∃ t, exec (.vregTransactionDone false d) s = .next t ∧ t.time.vmode = 0 ∧ logged 0x02D3 0 s t ∧
      only [.chip, .time] s t) ∧
  (∀ (ok : Bool) (d : Nat) (s : State), s.time.vtx = none → exec (.vregTransactionDone ok d) s = .next s) ∧
  (∀ (s : State), s.time.vmode ≠ 0 → 10 < ((500 + 5 * s.time.vsent : Int) - s.time.vmv).natAbs →
    ∃ t, exec .vregReadbackCheck s = .next t ∧ t.time.vmode = 0 ∧ logged 0x02D3 0 s t ∧ only [.chip, .time] s t) ∧
  (∀ (s : State), s.time.vmode ≠ 0 → ((500 + 5 * s.time.vsent : Int) - s.time.vmv).natAbs ≤ 10 →
    ∃ t, exec .vregReadbackCheck s = .next t ∧ t.time.recValid = true ∧ t.time.vmode = s.time.vmode ∧ quiet s t ∧
      only [.time] s t) ∧
  (∀ (s : State), s.recd.on = true → s.time.run = true → s.time.tickno % 2 ^ s.image.ckptC = 0 →
    ∃ t, exec .checkpoint s = .next t ∧ t.recd.ckptNow = some (persistent s) ∧ quiet s t ∧ only [.recd] s t) ∧
  (∀ (n : Ckpt) (s : State), s.recd.ckptNow = some n →
    ∃ t, exec .checkpointCopyDone s = .next t ∧ t.recd.ckptNow = none ∧ n ∈ t.recd.ckpts ∧
      t.recd.ckpts.length ≤ 4 ∧ quiet s t ∧ only [.recd] s t) ∧
  (∀ (s : State), s.recd.ckptNow.isSome = true → 64 ≤ s.recd.ckptAge →
    ∃ t, exec .checkpointCopyTimeout s = .next t ∧ t.recd.ckptNow = none ∧ t.recd.ckpts = s.recd.ckpts ∧
      logged 0x0961 0 s t ∧ only [.chip, .recd] s t) ∧
  (∀ (s : State), (s.recd.ckptNow = none ∨ s.recd.ckptAge < 64) → exec .checkpointCopyTimeout s = .next s) ∧
  (∀ (s : State), s.recd.on = true → s.recd.stopLeft = some 0 →
    ∃ t, exec .recordingStop s = .next t ∧ t.recd.on = false ∧ quiet s t ∧ only [.recd] s t) ∧
  (∀ (s : State), s.recd.stopLeft ≠ some 0 → exec .recordingStop s = .next s)

/-- R153, R155, R158, R154, R157, R177: A sample of a quadrature channel whose levels have held for FILT samples counts by one in
its direction, in both counts; two levels that change between two samples count nothing and are counted as an error; a level
that has held for less is ignored; a channel that is absent or retired counts nothing. A wire fault and an amplitude fault
declare the feedback faulty and clear REFD and the homing offset; 1 ms of good signals clears the condition and not the fault; a
write of 1 to FAULT clears it, and leaves it while the condition stands, while the group is enabled for motion, or in the tick
of the declaration; of an absent channel it raises CHIP_ABSENT. That REFD falls with a declared fault, and the 4 ns of FILT 0,
are the model's reading (log 57, 59). Commands that complete here, each as the clause of its name says: quadEdge, wireFault,
axioConditionClear, feedbackFaultClear, sincosAmpFault. -/
def Obligations.EncoderFeedback : Prop :=
  (∀ (c ha hb : Nat) (a b : Bool) (s : State), regionUp .axio s = true → chanLive s c = true → c < s.axio.length →
    isQuad s c = true → (chanCfg s c).filt ≤ ha → (chanCfg s c).filt ≤ hb →
    ((quadPlace a b + 4 - quadPlace (chSt s c).lvA (chSt s c).lvB) % 4 = 1 ∨
     (quadPlace a b + 4 - quadPlace (chSt s c).lvA (chSt s c).lvB) % 4 = 3) →
    ∃ t, exec (.quadEdge c (.levels a b ha hb)) s = .next t ∧
      (chSt t c).count = wrap64 ((chSt s c).count +
        (if (quadPlace a b + 4 - quadPlace (chSt s c).lvA (chSt s c).lvB) % 4 = 1 then 1 else -1)) ∧
      ((chSt t c).single : Int) = (((chSt s c).single : Int) +
        (if (quadPlace a b + 4 - quadPlace (chSt s c).lvA (chSt s c).lvB) % 4 = 1 then 1 else -1)) % (cprOf s c : Int) ∧
      ((chSt t c).dir = true ↔ (quadPlace a b + 4 - quadPlace (chSt s c).lvA (chSt s c).lvB) % 4 = 1) ∧
      (chSt t c).lvA = a ∧ (chSt t c).lvB = b ∧ (chSt t c).qTotal = (chSt s c).qTotal ∧ onlyAt c s.axio t.axio ∧
      only [.chip, .axio] s t) ∧
  (∀ (c ha hb : Nat) (s : State), regionUp .axio s = true → chanLive s c = true → c < s.axio.length → isQuad s c = true →
    (chanCfg s c).filt ≤ ha → (chanCfg s c).filt ≤ hb →
    ∃ t, exec (.quadEdge c (.levels (!(chSt s c).lvA) (!(chSt s c).lvB) ha hb)) s = .next t ∧
      (chSt t c).count = (chSt s c).count ∧ (chSt t c).single = (chSt s c).single ∧
      (chSt t c).qTotal = satAdd 0xFFFF (chSt s c).qTotal 1 ∧ onlyAt c s.axio t.axio ∧ only [.chip, .axio] s t) ∧
  (∀ (c ha hb : Nat) (a b : Bool) (s : State), regionUp .axio s = true → chanLive s c = true → c < s.axio.length →
    isQuad s c = true → ha < (chanCfg s c).filt → hb < (chanCfg s c).filt →
    ∃ t, exec (.quadEdge c (.levels a b ha hb)) s = .next t ∧ chSt t c = chSt s c ∧ onlyAt c s.axio t.axio ∧ quiet s t ∧
      only [.axio] s t) ∧
  (∀ (c : Nat) (p : ChanSample) (s : State), chanLive s c = false → exec (.quadEdge c p) s = .next s) ∧
  (∀ (c p n : Nat) (s : State), regionUp .axio s = true → chanLive s c = true → c < s.axio.length → hasFb s c = true →
    (isQuad s c = true ∨ p = 2) → (chanCfg s c).filt < n → 4 ≤ n → (chSt s c).wire = false →
    ∃ t, exec (.wireFault c p n) s = .next t ∧ (chSt t c).wire = true ∧ (chSt t c).fault = true ∧ (chSt t c).refd = false ∧
      (chSt t c).hofs = 0 ∧ (chSt t c).count = (chSt s c).count ∧ onlyAt c s.axio t.axio ∧ only [.chip, .axio] s t) ∧
  (∀ (c : Nat) (s : State), regionUp .axio s = true → chanLive s c = true → c < s.axio.length → isSincos s c = true →
    8 ≤ (chSt s c).ampRun → (chSt s c).amp = false →
    ∃ t, exec (.sincosAmpFault c) s = .next t ∧ (chSt t c).amp = true ∧ (chSt t c).fault = true ∧
      (chSt t c).refd = false ∧ (chSt t c).hofs = 0 ∧ onlyAt c s.axio t.axio ∧ only [.chip, .axio] s t) ∧
  (∀ (c h : Nat) (k : Bool) (s : State), regionUp .axio s = true → c < s.axio.length → 1000000 ≤ h →
    ∃ t, exec (.axioConditionClear c k h) s = .next t ∧ (k = true → (chSt s c).ampRun = 0 → (chSt t c).amp = false) ∧
      (k = false → (chSt t c).wire = false) ∧ (chSt t c).fault = (chSt s c).fault ∧ onlyAt c s.axio t.axio ∧ quiet s t ∧
      only [.axio] s t) ∧
  (∀ (c : Nat) (s : State), regionStopped .axio s = false → c < maxChans s.fuse.variant → c < s.axio.length →
    (chSt s c).wire = false → (chSt s c).amp = false → chanEnabled s c = false → (chSt s c).faultTick ≠ some s.time.tickno →
    ∃ t, exec (.feedbackFaultClear c) s = .next t ∧ (chSt t c).fault = false ∧ t.chip.resp = .done ∧
      onlyAt c s.axio t.axio ∧ quiet s t ∧ only [.chip, .axio] s t) ∧
  (∀ (c : Nat) (s : State), regionStopped .axio s = false → c < maxChans s.fuse.variant →
    ((chSt s c).wire = true ∨ (chSt s c).amp = true ∨ chanEnabled s c = true ∨ (chSt s c).faultTick = some s.time.tickno) →
    exec (.feedbackFaultClear c) s = .next (acked s)) ∧
  (∀ (c : Nat) (s : State), regionStopped .axio s = false → maxChans s.fuse.variant ≤ c →
    ∃ t, exec (.feedbackFaultClear c) s = .next t ∧ logged 0x0101 0 s t ∧ t.chip.resp = .done ∧ only [.chip] s t)

/-- R160: DIR of a channel is the direction of its last counted edge, of a quadrature signal as of the lines of a sine and cosine; a
count against DIR adds 1 to DIRCNT, which saturates at 0xFFFF, and with DIRIE 1 raises AXIO_DIR, at most once in a tick; a
sample that counts nothing leaves DIR and DIRCNT. Commands that complete here, each as the clause of its name says: quadEdge. -/
def Obligations.DirectionOfCounts : Prop :=
  (∀ (c : Nat) (p : ChanSample) (up : Bool) (s : State), regionUp .axio s = true → chanLive s c = true → c < s.axio.length →
    ((∃ a b ha hb, p = .levels a b ha hb ∧ isQuad s c = true ∧ (chanCfg s c).filt ≤ ha ∧ (chanCfg s c).filt ≤ hb ∧
       (quadPlace a b + 4 - quadPlace (chSt s c).lvA (chSt s c).lvB) % 4 = (if up then 1 else 3)) ∨
     (∃ y x, p = .conversion y x ∧ isSincos s c = true ∧
       (scPlace (0 ≤ (scCorrect (chanCfg s c) y x).1) (0 ≤ (scCorrect (chanCfg s c) y x).2) + 4 - (chSt s c).quad) % 4 =
         (if up then 1 else 3) ∧
       scPlace (0 ≤ (scCorrect (chanCfg s c) y x).1) (0 ≤ (scCorrect (chanCfg s c) y x).2) = (if up then 0 else 3))) →
    ∃ t, exec (.quadEdge c p) s = .next t ∧ (chSt t c).dir = up ∧
      (chSt t c).dircnt = (if (chSt s c).dir = up then (chSt s c).dircnt else min 0xFFFF ((chSt s c).dircnt + 1)) ∧
      ((chSt s c).dir ≠ up → (chSt s c).dirie = true → s.chip.once.contains (0x0404, c) = false →
        logged 0x0404 c s t ∧ t.chip.once.contains (0x0404, c) = true) ∧
      ((chSt s c).dir = up ∨ (chSt s c).dirie = false ∨ s.chip.once.contains (0x0404, c) = true → quiet s t) ∧
      onlyAt c s.axio t.axio ∧ only [.chip, .axio] s t) ∧
  (∀ (c : Nat) (p : ChanSample) (s : State), regionUp .axio s = true → chanLive s c = true → c < s.axio.length →
    ((∃ a b ha hb, p = .levels a b ha hb ∧ (isQuad s c = false ∨ (chanCfg s c).filt ≤ ha ∧ (chanCfg s c).filt ≤ hb ∧
       (quadPlace a b + 4 - quadPlace (chSt s c).lvA (chSt s c).lvB) % 2 = 0)) ∨
     (∃ y x, p = .conversion y x ∧ (isSincos s c = false ∨
       (scPlace (0 ≤ (scCorrect (chanCfg s c) y x).1) (0 ≤ (scCorrect (chanCfg s c) y x).2) + 4 - (chSt s c).quad) % 2 = 0))) →
    ∃ t, exec (.quadEdge c p) s = .next t ∧ (chSt t c).dir = (chSt s c).dir ∧ (chSt t c).dircnt = (chSt s c).dircnt ∧
      (chSt t c).count = (chSt s c).count ∧ onlyAt c s.axio t.axio ∧ only [.chip, .axio] s t)

/-- R161: A rising edge of Z that has held for FILT samples, with ZGATE 1 only while A and B are both 1, latches the multi-turn
count into IDX0 and IDX1, over what an earlier index latched, sets IDX and raises AXIO_INDEX, at most once in a tick; it changes
neither count, nor anything else of the channel. With ZGATE 1 and A or B 0 it is no index event. Commands that complete here,
each as the clause of its name says: indexEvent. -/
def Obligations.IndexEvents : Prop :=
  (∀ (c h : Nat) (s : State), regionUp .axio s = true → chanLive s c = true → c < s.axio.length → hasFb s c = true →
    (chanCfg s c).filt ≤ h → ((chanCfg s c).zgate = false ∨ (chSt s c).lvA = true ∧ (chSt s c).lvB = true) →
    ∃ t, exec (.indexEvent c h) s = .next t ∧
      chSt t c = { chSt s c with idx := true, idxVal := (chSt s c).count } ∧
      (s.chip.once.contains (0x0406, c) = true → quiet s t) ∧
      (s.chip.once.contains (0x0406, c) = false → logged 0x0406 c s t ∧ t.chip.once.contains (0x0406, c) = true) ∧
      onlyAt c s.axio t.axio ∧ only [.chip, .axio] s t) ∧
  (∀ (c h : Nat) (s : State), (hasFb s c = false ∨ h < (chanCfg s c).filt ∨
      (chanCfg s c).zgate = true ∧ ((chSt s c).lvA = false ∨ (chSt s c).lvB = false)) →
    exec (.indexEvent c h) s = .next s)

/-- R162 to R164, R166, R168, R171, R175, R169, R170: An armed compare unit fires when the count crosses its value in its direction,
drives AXn_CMP and disarms; armed at or past its value it raises CMP_BEHIND and, with PASSED 1, fires at once; a disarm disarms,
after a crossing of the same sample has fired; the pulse returns. An absent channel raises CHIP_ABSENT. An input takes a level,
with its polarity, that has held for FILT samples and DEB µs; one that has held for less than FILT is ignored; CHN filtered
transitions in a window set CHAT; a scheduled pulse leaves and ISSUED counts it; the pulse ends; a stall stops the group, clears
REFD and raises AXIO_STALL. Homing starts when it is set up, not busy, and the group is enabled for motion, and is refused with
result 6 otherwise; the target edge in the filtered view latches the count, and an index after it replaces the latch; a search
without an index fails with result 4 and AXIO_HOME_FAIL; at rest the offset is set so that the latched count reports HOMEPOS,
REFD is set and AXIO_HOMED raised. That REFD is cleared when homing begins is the model's reading (log 57). Commands that
complete here, each as the clause of its name says: stepPulse, compareArm, compareDisarm, compareFire, limitInputChange,
homingStart, homeTargetEdge, homingNoIndex, homingComplete, stallDetect, comparePulseEnd, stepPulseEnd. -/
def Obligations.ChannelInputsAndHoming : Prop :=
  (∀ (c d : Nat) (p : Bool) (s : State), regionStopped .axio s = false → chanLive s c = true → c < s.axio.length →
    cmpFromList s c = false → isBehind (d % 4) (chSt s c).count (chSt s c).cmpPend.toInt = false →
    ∃ t, exec (.compareArm c d p) s = .next t ∧ (chSt t c).arm = true ∧ (chSt t c).cmp = (chSt s c).cmpPend.toInt ∧
      (chSt t c).behind = false ∧ (chSt t c).cmpOut = (chSt s c).cmpOut ∧ t.chip.resp = .done ∧ onlyAt c s.axio t.axio ∧
      quiet s t ∧ only [.chip, .axio] s t) ∧
  (∀ (c d : Nat) (p : Bool) (s : State), regionStopped .axio s = false → chanLive s c = true → c < s.axio.length →
    cmpFromList s c = false → isBehind (d % 4) (chSt s c).count (chSt s c).cmpPend.toInt = true →
    ∃ t, exec (.compareArm c d p) s = .next t ∧ (chSt t c).behind = true ∧ (chSt t c).arm = !p ∧
      (p = true → (chSt t c).fired = true ∧ (chSt t c).cmpOut = true) ∧ logged 0x0410 c s t ∧ onlyAt c s.axio t.axio ∧
      only [.chip, .axio] s t) ∧
  (∀ (c : Nat) (s : State), regionStopped .axio s = false → c < maxChans s.fuse.variant → c < s.axio.length →
    cmpFromList s c = false →
    ∃ t, exec (.compareDisarm c) s = .next t ∧ (chSt t c).arm = false ∧
      ((chSt s c).arm = true → crossing (chSt s c).cdir (chSt s c).lastCount (chSt s c).count (chSt s c).cmp = true →
        (chSt t c).fired = true ∧ (chSt t c).cmpOut = true) ∧
      ((chSt s c).arm = false ∨ crossing (chSt s c).cdir (chSt s c).lastCount (chSt s c).count (chSt s c).cmp = false →
        (chSt t c).fired = (chSt s c).fired ∧ (chSt t c).cmpOut = (chSt s c).cmpOut) ∧
      t.chip.resp = .done ∧ onlyAt c s.axio t.axio ∧ quiet s t ∧ only [.chip, .axio] s t) ∧
  (∀ (c : Nat) (s : State), regionUp .axio s = true → c < s.axio.length → (chSt s c).arm = true →
    crossing (chSt s c).cdir (chSt s c).lastCount (chSt s c).count (chSt s c).cmp = true →
    ∃ t, exec (.compareFire c) s = .next t ∧ (chSt t c).cmpOut = true ∧ (chSt t c).fired = true ∧ (chSt t c).arm = false ∧
      onlyAt c s.axio t.axio ∧ quiet s t ∧ only [.axio] s t) ∧
  (∀ (c : Nat) (s : State), (chSt s c).arm = false → exec (.compareFire c) s = .next s) ∧
  (∀ (c : Nat) (s : State), c < s.axio.length →
    ∃ t, exec (.comparePulseEnd c) s = .next t ∧ (chSt t c).cmpOut = false ∧ (chSt t c).fired = (chSt s c).fired ∧
      onlyAt c s.axio t.axio ∧ quiet s t ∧ only [.axio] s t) ∧
  (∀ (c d : Nat) (p : Bool) (s : State), regionStopped .axio s = false → maxChans s.fuse.variant ≤ c →
    (∃ t, exec (.compareArm c d p) s = .next t ∧ logged 0x0101 0 s t ∧ t.chip.resp = .done ∧ only [.chip] s t) ∧
    (∃ t, exec (.compareDisarm c) s = .next t ∧ logged 0x0101 0 s t ∧ t.chip.resp = .done ∧ only [.chip] s t) ∧
    (∃ t, exec (.homingStart c) s = .next t ∧ logged 0x0101 0 s t ∧ t.chip.resp = .done ∧ only [.chip] s t)) ∧
  (∀ (c i h n : Nat) (l : Bool) (s : State), regionUp .axio s = true → chanLive s c = true → c < s.axio.length → i ≤ 2 →
    5 * (chanCfg s c).filt + 1000 * (chanCfg s c).deb ≤ h → (chSt s c).busy = false →
    nth (chSt s c).filtIn i = (l != hasBit (chanCfg s c).lpol (2 - i)) →
    ∃ t, exec (.limitInputChange c i l h n) s = .next t ∧
      (i = 0 → (chSt t c).limP = (l != hasBit (chanCfg s c).lpol 2)) ∧
      (i = 1 → (chSt t c).limN = (l != hasBit (chanCfg s c).lpol 1)) ∧
      (i = 2 → (chSt t c).home = (l != hasBit (chanCfg s c).lpol 0)) ∧
      (chSt t c).chat = (chSt s c).chat ∧ onlyAt c s.axio t.axio ∧ quiet s t ∧ only [.axio] s t) ∧
  (∀ (c i h n : Nat) (l : Bool) (s : State), h < 5 * (chanCfg s c).filt → exec (.limitInputChange c i l h n) s = .next s) ∧
  (∀ (c i h n : Nat) (l : Bool) (s : State), regionUp .axio s = true → chanLive s c = true → c < s.axio.length → i ≤ 2 →
    5 * (chanCfg s c).filt ≤ h → nth (chSt s c).filtIn i ≠ (l != hasBit (chanCfg s c).lpol (2 - i)) →
    (chanCfg s c).chn ≤ ((nth (chSt s c).trans i).filter
      (fun t => n - h + 5 * (chanCfg s c).filt < t + (chanCfg s c).chw * 1000000)).length + 1 →
    nth (chSt s c).chatAt i = none → (chSt s c).busy = false →
    ∃ t, exec (.limitInputChange c i l h n) s = .next t ∧ (chSt t c).chat = true ∧ logged 0x0421 c s t ∧
      onlyAt c s.axio t.axio ∧ only [.chip, .axio] s t) ∧
  (∀ (c at_ : Nat) (up : Bool) (q : List (Nat × Bool)) (s : State), regionUp .axio s = true → c < s.axio.length →
    (chSt s c).sched = (at_, up) :: q →
    ∃ t, exec (.stepPulse c) s = .next t ∧ (chSt t c).sched = q ∧ (chSt t c).stepOut = true ∧ (chSt t c).stepDir = up ∧
      (chSt t c).issued = (chSt s c).issued + (if up then 1 else -1) ∧ (chSt t c).stepped = (chSt s c).stepped ∧
      onlyAt c s.axio t.axio ∧ quiet s t ∧ only [.axio] s t) ∧
  (∀ (c : Nat) (s : State), c < s.axio.length →
    ∃ t, exec (.stepPulseEnd c) s = .next t ∧ (chSt t c).stepOut = false ∧ (chSt t c).issued = (chSt s c).issued ∧
      onlyAt c s.axio t.axio ∧ quiet s t ∧ only [.axio] s t) ∧
  (∀ (c : Nat) (s : State), regionUp .axio s = true → chanLive s c = true → c < s.axio.length → (chSt s c).stalled = true →
    ∃ t, exec (.stallDetect c) s = .next t ∧ (chSt t c).refd = false ∧
      (∀ g, hasBit (groupsOfChan s c) g = true → g < s.saf.g.length → hasBit (safG t g).stopReq 13 = true) ∧
      logged 0x0431 c s t ∧ onlyAt c s.axio t.axio ∧ only [.chip, .axio, .saf] s t) ∧
  (∀ (c : Nat) (s : State), regionStopped .axio s = false → chanLive s c = true → c < s.axio.length →
    (chSt s c).busy = false → 1 ≤ (chanCfg s c).hmode → (chanCfg s c).hmode ≤ 4 →
    (nodeMode s = true ∨ chanEnabled s c = true) →
    ∃ t, exec (.homingStart c) s = .next t ∧ (chSt t c).busy = true ∧ (chSt t c).refd = false ∧ (chSt t c).hres = 0 ∧
      t.chip.resp = .done ∧ onlyAt c s.axio t.axio ∧ quiet s t ∧ only [.chip, .axio, .mot] s t) ∧
  (∀ (c : Nat) (s : State), regionStopped .axio s = false → chanLive s c = true → c < s.axio.length →
    (chSt s c).busy = false →
    ((chanCfg s c).hmode = 0 ∨ 4 < (chanCfg s c).hmode ∨ nodeMode s = false ∧ chanEnabled s c = false) →
    ∃ t, exec (.homingStart c) s = .next t ∧ (chSt t c).busy = false ∧ (chSt t c).hres = 6 ∧
      (chSt t c).refd = (chSt s c).refd ∧ onlyAt c s.axio t.axio ∧ quiet s t ∧ only [.chip, .axio] s t) ∧
  (∀ (c : Nat) (s : State), regionUp .axio s = true → c < s.axio.length → (chSt s c).busy = true → (chSt s c).hphase = 1 →
    nth (chSt s c).filtIn (targetInput s c) = true →
    ∃ t, exec (.homeTargetEdge c false) s = .next t ∧ (chSt t c).hlatch = some (chSt s c).count ∧
      ((chanCfg s c).hmode = 1 → (chSt t c).hphase = 4) ∧ ((chanCfg s c).hmode = 2 → (chSt t c).hphase = 2) ∧
      ((chanCfg s c).hmode = 3 → (chSt t c).hphase = 3 ∧ (chSt t c).hdir = !(chSt s c).hdir) ∧
      onlyAt c s.axio t.axio ∧ quiet s t ∧ only [.axio] s t) ∧
  (∀ (c : Nat) (s : State), regionUp .axio s = true → c < s.axio.length → (chSt s c).busy = true →
    ((chSt s c).hphase = 2 ∨ (chSt s c).hphase = 3) →
    ∃ t, exec (.homeTargetEdge c true) s = .next t ∧ (chSt t c).hlatch = some (chSt s c).count ∧ (chSt t c).hphase = 4 ∧
      onlyAt c s.axio t.axio ∧ quiet s t ∧ only [.axio] s t) ∧
  (∀ (c : Nat) (s : State), regionUp .axio s = true → c < s.axio.length → (chSt s c).busy = true →
    ((chSt s c).hphase = 2 ∨ (chSt s c).hphase = 3) → cprOf s c + 4 < ((chSt s c).count - (chSt s c).hidxFrom).natAbs →
    ∃ t, exec (.homingNoIndex c) s = .next t ∧ (chSt t c).busy = false ∧ (chSt t c).hres = 4 ∧
      (chSt t c).refd = (chSt s c).refd ∧ logged 0x0423 c s t ∧ onlyAt c s.axio t.axio ∧ only [.chip, .axio] s t) ∧
  (∀ (c : Nat) (l : Int) (s : State), regionUp .axio s = true → c < s.axio.length → (chSt s c).hlatch = some l →
    (chSt s c).busy = true → (chSt s c).hphase = 4 → (chSt s c).hconf = true → atRest s c = true →
    ∃ t, exec (.homingComplete c) s = .next t ∧ (chSt t c).hofs = wrap64 ((chanCfg s c).homepos.toInt - l) ∧
      (chSt t c).refd = true ∧ (chSt t c).hres = 1 ∧ (chSt t c).busy = false ∧ logged 0x0422 c s t ∧
      only [.chip, .axio, .mot] s t)

/-- R148, R149, R121, R136, R137, R140: After the quiet time a listening master-capable device sends a beacon with STATE 5, and not
before; another's beacon makes it fall silent and is counted with RING_COLDSTART_COLL, as is a frame that fails the checks; its
own beacon back takes it to MEASURE; 16 probe rounds and a round trip within RTTMAX take it to PRE-RUN, a longer one raises
RING_RTT_LONG and MEASURE goes on. A frame that fails the checks is not used and is counted; a follower takes the membership and
the master of a valid beacon and counts the beacons in sync by the offset of its arrival; a silent node claims again after 16
beacons in sync; a claim whose backoff has run out is sent again. Commands that complete here, each as the clause of its name
says: beaconReceived, claimRetry, rejoinClaim, coldStart, ownBeaconReturn, measureDone. -/
def Obligations.RingColdStart : Prop :=
  (∀ (r a : Nat) (s : State), regionUp .ring s = true → r < s.ring.length → capable (ringSt s r) = true →
    (ringSt s r).state = .listen → (ringSt s r).attempts < 8 → (ringSt s r).txStopped = false →
    (ringSt s r).heardAt + 50000 + (ringSt s r).rank * 4000 ≤ a →
    ∃ t, exec (.coldStart r a) s = .next t ∧ (ringSt t r).state = .coldStart ∧
      (ringSt t r).sentBeacon = some { state := 5, master := (ringSt s r).node, tx := a, sched := (ringCfg s r).sched } ∧
      (ringSt t r).attempts = (ringSt s r).attempts + 1 ∧ onlyAt r s.ring t.ring ∧ quiet s t ∧ only [.ring] s t) ∧
  (∀ (r a : Nat) (s : State), a < (ringSt s r).heardAt + 50000 + (ringSt s r).rank * 4000 → exec (.coldStart r a) s = .next s) ∧
  (∀ (r a e : Nat) (ccw : Bool) (h : RingHead) (b : Beacon) (s : State), regionUp .ring s = true → r < s.ring.length →
    (ringSt s r).role ≠ 0 → (ringSt s r).state = .coldStart → (ringSt s r).txStopped = false → (ringSt s r).attempts < 8 →
    (frameOk s r h = false ∨ b.master ≠ (ringSt s r).node) →
    ∃ t, exec (.beaconReceived r ccw a e h b) s = .next t ∧ (ringSt t r).state = .listen ∧
      (ringSt t r).coll = satAdd 255 (ringSt s r).coll 1 ∧ (frameOk s r h = true → logged 0x0302 0 s t) ∧
      onlyAt r s.ring t.ring ∧ only [.chip, .ring] s t) ∧
  (∀ (r a : Nat) (ccw : Bool) (h : RingHead) (b : Beacon) (s : State), regionUp .ring s = true → r < s.ring.length →
    (ringSt s r).state = .coldStart → isMaster s r = true → b.master = (ringSt s r).node → frameOk s r h = true →
    ∃ t, exec (.ownBeaconReturn r ccw a h b) s = .next t ∧ (ringSt t r).state = .measure ∧
      (ringSt t r).rtt = min 0xFFFF (a - b.tx) ∧ onlyAt r s.ring t.ring ∧ quiet s t ∧ only [.ring, .pair] s t) ∧
  (∀ (r : Nat) (s : State), regionUp .ring s = true → r < s.ring.length → (ringSt s r).state = .measure →
    probesDone s r = true → (ringSt s r).rtt ≤ (ringCfg s r).rttmax →
    ∃ t, exec (.measureDone r) s = .next t ∧ (ringSt t r).state = .preRun ∧ (ringSt t r).count = s.image.precnt ∧
      (s.time.run = true → t.time = s.time ∧ onlyAt r s.ring t.ring) ∧
      (s.time.run = false → t.time.tplan = wholePeriod s (s.time.tb + max 100000 (s.image.precnt * periodNs s))) ∧ quiet s t ∧
      only [.ring, .time] s t) ∧
  (∀ (r : Nat) (s : State), regionUp .ring s = true → (ringSt s r).state = .measure → probesDone s r = true →
    (ringCfg s r).rttmax < (ringSt s r).rtt →
    ∃ t, exec (.measureDone r) s = .next t ∧ logged 0x0304 0 s t ∧ only [.chip] s t) ∧
  (∀ (r : Nat) (s : State), probesDone s r = false → exec (.measureDone r) s = .next s) ∧
  (∀ (r a e : Nat) (ccw : Bool) (h : RingHead) (b : Beacon) (s : State), regionUp .ring s = true → r < s.ring.length →
    (ringSt s r).role ≠ 0 → (ringSt s r).state ≠ .down → (ringSt s r).state ≠ .coldStart → (ringSt s r).txStopped = false →
    (ringSt s r).ports.length = 2 → frameOk s r h = false →
    ∃ t, exec (.beaconReceived r ccw a e h b) s = .next t ∧
      (portSt t r ccw).fcserr = satAdd 0xFFFF (portSt s r ccw).fcserr 1 ∧
      (ringSt t r).members = (ringSt s r).members ∧ onlyAt r s.ring t.ring ∧ only [.chip, .ring] s t) ∧
  (∀ (r a e : Nat) (ccw : Bool) (h : RingHead) (b : Beacon) (s : State), regionUp .ring s = true → r < s.ring.length →
    (ringSt s r).role ≠ 0 → (ringSt s r).state ≠ .down → (ringSt s r).state ≠ .coldStart → (ringSt s r).txStopped = false →
    isMaster s r = false → frameOk s r h = true → obeys s r b = true →
    ∃ t, exec (.beaconReceived r ccw a e h b) s = .next t ∧ (ringSt t r).members = b.members ∧
      (ringSt t r).silent = b.silent ∧ (ringSt t r).master = b.master ∧ (ringSt t r).beaconMiss = 0 ∧
      (newBeacon (ringSt s r) b = true → (ringSt t r).inSync =
        (if (beaconOffset s r ccw a b).natAbs ≤ 320 then min 16 ((ringSt s r).inSync + 1) else 0)) ∧
      onlyAt r s.ring t.ring ∧ quiet s t ∧ only [.ring, .time, .pair] s t) ∧
  (∀ (r a : Nat) (s : State), regionUp .ring s = true → r < s.ring.length → (ringSt s r).state = .silent →
    16 ≤ (ringSt s r).inSync →
    ∃ t, exec (.rejoinClaim r a) s = .next t ∧ (ringSt t r).claimSent = true ∧ (ringSt t r).rejoin = true ∧
      onlyAt r s.ring t.ring ∧ quiet s t ∧ only [.ring] s t) ∧
  (∀ (r a : Nat) (s : State), regionUp .ring s = true → r < s.ring.length → (ringSt s r).retry = some 0 →
    ∃ t, exec (.claimRetry r a) s = .next t ∧ (ringSt t r).claimSent = true ∧ (ringSt t r).retry = none ∧
      onlyAt r s.ring t.ring ∧ quiet s t ∧ only [.ring] s t)

/-- R139: Every cycle counts as one without a valid beacon until a valid beacon sets the count to 0; a node that is not the master
and has gone 8 consecutive cycles without one silences itself and raises RING_BEACON_LOST, once; before that it does not.
Commands that complete here, each as the clause of its name says: beaconReceived, beaconLoss. -/
def Obligations.BeaconLoss : Prop :=
  (∀ (r : Nat) (s : State), r < s.ring.length → (ringSt (ringEdge r s) r).beaconMiss = (ringSt s r).beaconMiss + 1) ∧
  (∀ (r a e : Nat) (ccw : Bool) (h : RingHead) (b : Beacon) (s : State), regionUp .ring s = true → r < s.ring.length →
    isFollower s r = true → (ringSt s r).txStopped = false → frameOk s r h = true → obeys s r b = true →
    ∃ t, exec (.beaconReceived r ccw a e h b) s = .next t ∧ (ringSt t r).beaconMiss = 0 ∧ onlyAt r s.ring t.ring ∧ quiet s t ∧
      only [.ring, .time, .pair] s t) ∧
  (∀ (r : Nat) (s : State), regionUp .ring s = true → r < s.ring.length → isFollower s r = true →
    8 ≤ (ringSt s r).beaconMiss → (ringSt s r).state ≠ .silent →
    ∃ t, exec (.beaconLoss r) s = .next t ∧ (ringSt t r).state = .silent ∧ (ringSt t r).inSync = 0 ∧
      logged 0x0324 (32 * r + (ringSt s r).node) s t ∧ onlyAt r s.ring t.ring ∧ only [.chip, .ring] s t) ∧
  (∀ (r : Nat) (s : State), ((ringSt s r).beaconMiss < 8 ∨ (ringSt s r).state = .silent) → exec (.beaconLoss r) s = .next s)

/-- R138, R141, R142, R135, R144, R147: The master keeps one claim of each port for its next beacon; it decides it so: the claim of
a listed node that is silenced or no member is confirmed, and of a free spare at its place whose vendor and product match; any
other is denied with a reason and RING_CLAIM_DENIED; a node with three out-of-window cycles is silenced with RING_SILENCED. A
neighbour's probe waits for its answer, and an answer adds to the last 8 link delays of its port; a port that goes down returns
frames, and the master learns of the break at once with RING_BREAK and takes healed routes with the nodes; a port that comes up
is probed anew; after 10 s with both ends ready the restoration waits no longer. Commands that complete here, each as the clause
of its name says: ringSlotStart, claim, probe, portDown, portUp, linkStableTimer, guardianSilence. -/
def Obligations.RingMembersAndLinks : Prop :=
  (∀ (r a : Nat) (ccw : Bool) (h : RingHead) (m : ClaimMsg) (s : State), regionUp .ring s = true → r < s.ring.length →
    isMaster s r = true → frameOk s r h = true →
    ∃ t, exec (.claim r ccw a h m) s = .next t ∧
      (ringSt t r).claims = (if (ringSt s r).claims.any (fun c => c.1 == ccw) then (ringSt s r).claims
        else (ringSt s r).claims ++ [(ccw, m)]) ∧
      (ringSt t r).members = (ringSt s r).members ∧ onlyAt r s.ring t.ring ∧ quiet s t ∧ only [.ring] s t) ∧
  (∀ (r k : Nat) (ccw : Bool) (m : ClaimMsg) (s : State), regionUp .ring s = true → r < s.ring.length →
    (nth (ringCfg s r).slots k).kind = 3 → isMaster s r = true → s.pair.role = 0 → (ringSt s r).broken < 2 →
    (ringSt s r).claims = [(ccw, m)] → (ringSt s r).out = [] → m.type = 2 → m.node ∈ (ringCfg s r).nodes →
    (hasBit (ringSt s r).silent m.node = true ∨ hasBit (ringSt s r).members m.node = false) →
    ∃ t b, exec (.ringSlotStart r k) s = .next t ∧ (ringSt t r).sentBeacon = some b ∧ .confirm m.node 0 ∈ b.entries ∧
      (ringSt t r).claims = [] ∧ (ringSt t r).members = (ringSt s r).members ∧ onlyAt r s.ring t.ring ∧ quiet s t ∧
      only [.ring] s t) ∧
  (∀ (r p : Nat) (m : ClaimMsg) (c : SpareCfg) (s : State), r < s.ring.length → m.type ≠ 2 → claimPlace s r m = some p →
    (sparesAt s r p).find? (fun x => (x.vendor == m.vendor && x.product == m.product) && !(nodeSt s r x.node).spare) = some c →
    (ringSt (decideClaim r m s) r).out = (ringSt s r).out ++ [.confirm c.node c.id] ∧ quiet s (decideClaim r m s) ∧
      onlyAt r s.ring (decideClaim r m s).ring ∧ only [.ring, .mot] s (decideClaim r m s)) ∧
  (∀ (r p : Nat) (m : ClaimMsg) (c : SpareCfg) (s : State), r < s.ring.length → m.type ≠ 2 → claimPlace s r m = some p →
    (sparesAt s r p).head? = some c → (∀ x ∈ sparesAt s r p, x.vendor ≠ m.vendor ∨ x.product ≠ m.product) →
    (ringSt (decideClaim r m s) r).out = (ringSt s r).out ++ [.deny m.node c.id 2] ∧ logged 0x0331 0 s (decideClaim r m s) ∧
      onlyAt r s.ring (decideClaim r m s).ring ∧ only [.chip, .ring] s (decideClaim r m s)) ∧
  (∀ (r : Nat) (m : ClaimMsg) (s : State), r < s.ring.length → m.type ≠ 2 →
    (∀ p, claimPlace s r m = some p → sparesAt s r p = []) →
    (ringSt (decideClaim r m s) r).out = (ringSt s r).out ++ [.deny m.node 0 1] ∧ logged 0x0331 0 s (decideClaim r m s) ∧
      onlyAt r s.ring (decideClaim r m s).ring ∧ only [.chip, .ring] s (decideClaim r m s)) ∧
  (∀ (r j : Nat) (s : State), regionUp .ring s = true → r < s.ring.length → isMaster s r = true →
    3 ≤ (nodeSt s r j).consec → hasBit (ringSt s r).silent j = false → j < 32 →
    ∃ t, exec (.guardianSilence r j) s = .next t ∧ hasBit (ringSt t r).silent j = true ∧
      logged 0x0322 (32 * r + j) s t ∧ onlyAt r s.ring t.ring ∧ only [.chip, .ring] s t) ∧
  (∀ (r a t1 t2 t3 : Nat) (ccw : Bool) (h : RingHead) (s : State), regionUp .ring s = true → r < s.ring.length →
    (ringSt s r).role ≠ 0 → frameOk s r h = true → (ringSt s r).ports.length = 2 → (portSt s r ccw).sentAt = some t1 →
    ∃ t, exec (.probe r ccw a h (.answer t2 t3)) s = .next t ∧
      (portSt t r ccw).probes =
        ((portSt s r ccw).probes ++ [linkDelay t1 t2 t3 a]).drop ((portSt s r ccw).probes.length + 1 - 8) ∧
      (portSt t r ccw).sentAt = none ∧ onlyAt r s.ring t.ring ∧ quiet s t ∧ only [.ring] s t) ∧
  (∀ (r a t1 : Nat) (ccw : Bool) (h : RingHead) (s : State), regionUp .ring s = true → r < s.ring.length →
    (ringSt s r).role ≠ 0 → frameOk s r h = true → (ringSt s r).ports.length = 2 →
    ∃ t, exec (.probe r ccw a h (.request t1)) s = .next t ∧ (portSt t r ccw).heard = some a ∧
      (portSt t r ccw).probes = (portSt s r ccw).probes ∧ onlyAt r s.ring t.ring ∧ quiet s t ∧ only [.ring] s t) ∧
  (∀ (r : Nat) (ccw : Bool) (s : State), r < s.ring.length → r ≠ 2 → isMaster s r = false → (ringSt s r).ports.length = 2 →
    ∃ t, exec (.portDown r ccw) s = .next t ∧ (portSt t r ccw).up = false ∧
      (portSt t r ccw).loop = true ∧ onlyAt r s.ring t.ring ∧ quiet s t ∧ only [.ring] s t) ∧
  (∀ (r : Nat) (ccw : Bool) (s : State), r < s.ring.length → r ≠ 2 → isMaster s r = true → (ringSt s r).broken = 0 →
    (ringSt s r).routeAt = none → (ringSt s r).healedRoutes = false → (ringSt s r).ports.length = 2 →
    ∃ t, exec (.portDown r ccw) s = .next t ∧ (portSt t r ccw).up = false ∧ (ringSt t r).broken = 1 ∧
      (ringSt t r).routeAt = some (s.time.tickno + (if (ringSt s r).sentBeacon.isSome then 2 else 1)) ∧
      (if ccw then (ringSt t r).brkB else (ringSt t r).brkA) = (ringSt s r).node ∧ logged 0x0310 0 s t ∧
      onlyAt r s.ring t.ring ∧ only [.chip, .ring] s t) ∧
  (∀ (r : Nat) (ccw : Bool) (s : State), r < s.ring.length → r ≠ 2 →
    16 * r + (if ccw then 1 else 0) ∉ (regSt s .ring).faulted → (ringSt s r).ports.length = 2 →
    ∃ t, exec (.portUp r ccw) s = .next t ∧ (portSt t r ccw).up = true ∧ (portSt t r ccw).probes = [] ∧
      onlyAt r s.ring t.ring ∧ quiet s t ∧ only [.ring] s t) ∧
  (∀ (ccw : Bool) (s : State), (∃ t, exec (.portDown 2 ccw) s = .next t ∧ t.pair.linkUp = false ∧ quiet s t ∧
      only [.pair] s t) ∧
    (∃ t, exec (.portUp 2 ccw) s = .next t ∧ t.pair.linkUp = true ∧ quiet s t ∧ only [.pair] s t)) ∧
  (∀ (r n : Nat) (s : State), regionUp .ring s = true → r < s.ring.length → (ringSt s r).rdyAt = some n →
    10000000000 ≤ (s.time.tickno - n) * periodNs s →
    ∃ t, exec (.linkStableTimer r) s = .next t ∧ (ringSt t r).needStable = false ∧ onlyAt r s.ring t.ring ∧ quiet s t ∧
      only [.ring] s t) ∧
  (∀ (r : Nat) (s : State), (ringSt s r).rdyAt = none → exec (.linkStableTimer r) s = .next s)

/-- R123, R127 to R129, R131 to R133, R150, R151: In its slots the master sends its downlink segments on each side it serves, and
its beacon; the farthest member opens a part, and the next one a part whose opener stays away; a silenced or stopped device
sends nothing but answers to probes; the master takes the segments of its members and counts a part that arrives outside its
window, with RING_EARLY or RING_LATE. A device in node mode takes the STO mask of a segment of its tick, received inside its
window, to the lines that the image maps, and its set-points unless HOLD or NULL is set; a segment of another node or tick it
does not use; with no segment for more ticks than DLLIM every mapped line goes active with a class A fault. The class A fault of
a lost downlink and the identity of STO bits and lines are the model's reading (log 50, 51). Commands that complete here, each
as the clause of its name says: ringSlotStart, substituteOpen, collectFrame, distributeFrame, nodeDlLost. -/
def Obligations.RingFrames : Prop :=
  (∀ (r k : Nat) (s : State), regionUp .ring s = true → r < s.ring.length → (nth (ringCfg s r).slots k).kind = 2 →
    isMaster s r = true → inRun (ringSt s r) = true →
    ∃ t, exec (.ringSlotStart r k) s = .next t ∧
      (∀ c ∈ slotSides s r k, (portSt s r c).up = true → (portSt s r c).loop = false → ∃ f ∈ (ringSt t r).tx, f.ccw = c ∧
        f.at_ = slotAt s r k ∧ f.head.kind = 2 ∧ f.pay = .distribute ((slotSegs s r k).map (downSeg s r))) ∧
      (ringSt t r).slot = k ∧ onlyAt r s.ring t.ring ∧ quiet s t ∧ only [.ring] s t) ∧
  (∀ (r k : Nat) (s : State), regionUp .ring s = true → r < s.ring.length → (nth (ringCfg s r).slots k).kind = 3 →
    isMaster s r = true → s.pair.role = 0 → (ringSt s r).broken < 2 → (ringSt s r).claims = [] → s.time.run = true →
    ∃ t b, exec (.ringSlotStart r k) s = .next t ∧ (ringSt t r).sentBeacon = some b ∧ b.master = (ringSt s r).node ∧
      b.next = s.time.tickno + 1 ∧ b.e0 = s.time.e0 + periodNs s ∧ b.members = (ringSt s r).members ∧
      b.silent = (ringSt s r).silent ∧ b.takeover = false ∧ onlyAt r s.ring t.ring ∧ quiet s t ∧ only [.ring] s t) ∧
  (∀ (r k : Nat) (c : Bool) (s : State), regionUp .ring s = true → r < s.ring.length → (nth (ringCfg s r).slots k).kind = 1 →
    isMaster s r = false → mayOpen (ringSt s r) = true → inRun (ringSt s r) = true → c ∈ slotSides s r k →
    opener s r k c = some (ringSt s r).node → (portSt s r (!c)).up = true → (portSt s r (!c)).loop = false →
    ∃ t, exec (.ringSlotStart r k) s = .next t ∧ (∃ f ∈ (ringSt t r).tx, f.ccw = !c ∧ f.head.kind = 1 ∧ f.head.subst = false ∧
        f.at_ = slotAt s r k - ownDelay s r c) ∧ onlyAt r s.ring t.ring ∧ quiet s t ∧ only [.ring, .axio] s t) ∧
  (∀ (r k : Nat) (s : State), regionUp .ring s = true → r < s.ring.length →
    ((ringSt s r).txStopped = true ∨ (ringSt s r).state = .down ∨
      (ringSt s r).state = .silent ∧ (nth (ringCfg s r).slots k).kind ≠ 5) →
    ∃ t, exec (.ringSlotStart r k) s = .next t ∧ (ringSt t r).tx = (ringSt s r).tx ∧
      (ringSt t r).sentBeacon = (ringSt s r).sentBeacon ∧ (ringSt t r).nodes = (ringSt s r).nodes ∧
      (ringSt t r).claimSent = (ringSt s r).claimSent ∧ onlyAt r s.ring t.ring ∧ quiet s t ∧ only [.ring] s t) ∧
  (∀ (r k a : Nat) (c : Bool) (s : State), regionUp .ring s = true → r < s.ring.length → isMaster s r = false →
    mayOpen (ringSt s r) = true → inRun (ringSt s r) = true → (nth (ringCfg s r).slots k).kind = 1 →
    substitute s r k c = some (ringSt s r).node → (ringSt s r).seen.contains (k, c) = false →
    slotAt s r k + 96 ≤ a + ownDelay s r c → (portSt s r (!c)).up = true → (portSt s r (!c)).loop = false →
    ∃ t, exec (.substituteOpen r k c a) s = .next t ∧ (ringSt t r).seen.contains (k, c) = true ∧
      (∃ f ∈ (ringSt t r).tx, f.ccw = !c ∧ f.head.kind = 1 ∧ f.head.subst = true) ∧
      onlyAt r s.ring t.ring ∧ quiet s t ∧ only [.ring, .axio] s t) ∧
  (∀ (r a : Nat) (ccw : Bool) (h : RingHead) (u : UpSeg) (s : State), regionUp .ring s = true → r < s.ring.length →
    isMaster s r = true → frameOk s r h = true → windowOf (slotAt s r h.slot) a = .inside →
    u.node < (ringSt s r).nodes.length → hasBit (ringSt s r).members u.node = true →
    hasBit (ringSt s r).silent u.node = false → onSide s r h.slot u.node ccw = true →
    (slotSegs s r h.slot).any (fun g => g.node == u.node) = true → u.tchk = BitVec.ofNat 8 h.tickno → u.null = false →
    ∃ t, exec (.collectFrame r ccw a h [u]) s = .next t ∧ (nodeSt t r u.node).up = some u ∧
      onlyAt r s.ring t.ring ∧ quiet s t ∧ only [.ring] s t) ∧
  (∀ (r a j : Nat) (ccw : Bool) (h : RingHead) (us : List UpSeg) (s : State), regionUp .ring s = true → r < s.ring.length →
    isMaster s r = true → frameOk s r h = true → opener s r h.slot ccw = some j → j < (ringSt s r).nodes.length →
    (a + 100 < slotAt s r h.slot →
      ∃ t, exec (.collectFrame r ccw a h us) s = .next t ∧ (nodeSt t r j).outNow = true ∧
        (nodeSt t r j).early = satAdd 255 (nodeSt s r j).early 1 ∧ (nodeSt t r j).up = (nodeSt s r j).up ∧
        logged 0x0320 (32 * r + j) s t ∧ onlyAt r s.ring t.ring ∧ only [.chip, .ring] s t) ∧
    (slotAt s r h.slot + 100 < a →
      ∃ t, exec (.collectFrame r ccw a h us) s = .next t ∧ (nodeSt t r j).outNow = true ∧
        (nodeSt t r j).late = satAdd 255 (nodeSt s r j).late 1 ∧ (nodeSt t r j).up = (nodeSt s r j).up ∧
        logged 0x0321 (32 * r + j) s t ∧ onlyAt r s.ring t.ring ∧ only [.chip, .ring] s t)) ∧
  (∀ (r a : Nat) (ccw : Bool) (h : RingHead) (d : DownSeg) (s : State), regionUp .ring s = true → r < s.ring.length →
    (ringSt s r).role = 3 → inRun (ringSt s r) = true → frameOk s r h = true →
    hasBit (ringSt s r).members (ringSt s r).node = true →
    windowOf (slotAt s r h.slot + nth (ringSt s r).dly (portIx ccw)) a = .inside →
    d.node = (ringSt s r).node → d.tchk = BitVec.ofNat 8 h.tickno → ((ringSt s r).dlLost = false ∨ d.sto = 0) →
    ∃ t, exec (.distributeFrame r ccw a h [d]) s = .next t ∧ t.saf.lineCmd = ~~~ maskLines s d.sto ∧
      (ringSt t r).dlUsed = true ∧ (ringSt t r).dlLost = false ∧
      (d.hold = false → d.null = false → (ringSt t r).dlNow = some d) ∧
      ((d.hold = true ∨ d.null = true) → (ringSt t r).dlNow = (ringSt s r).dlNow) ∧ onlyAt r s.ring t.ring ∧
      only [.chip, .ring, .axio, .saf] s t) ∧
  (∀ (r a : Nat) (ccw : Bool) (h : RingHead) (d : DownSeg) (s : State), regionUp .ring s = true → (ringSt s r).role = 3 →
    r < s.ring.length → frameOk s r h = true → (d.node ≠ (ringSt s r).node ∨ d.tchk ≠ BitVec.ofNat 8 h.tickno) →
    ∃ t, exec (.distributeFrame r ccw a h [d]) s = .next t ∧ (ringSt t r).dlUsed = (ringSt s r).dlUsed ∧
      (ringSt t r).dlNow = (ringSt s r).dlNow ∧ onlyAt r s.ring t.ring ∧ quiet s t ∧ only [.ring] s t) ∧
  (∀ (s : State), nodeMode s = true → dlLimit s < (ringSt s 0).dlMiss → (ringSt s 0).dlLost = false → 0 < s.ring.length →
    ∃ t, exec .nodeDlLost s = .next t ∧ t.saf.lineCmd = ~~~ maskLines s 0xFFFFFFFF ∧ (ringSt t 0).dlLost = true ∧
      t.saf.lastA = 0x0350 ∧ onlyAt 0 s.ring t.ring ∧ only [.chip, .ring, .axio, .saf, .recd] s t) ∧
  (∀ (s : State), (nodeMode s = false ∨ (ringSt s 0).dlMiss ≤ dlLimit s) → exec .nodeDlLost s = .next s)

/-- R376 to R378, R373, R379: A plant frame with a bad check sequence is discarded and counted, a passing one is forwarded to the
other port; at a frame boundary a PTP event message leaves first, then the device queue, then forwarding; a link that goes down
discards what waits with HOST_NET_DOWN, and one that comes up raises HOST_NET_UP. The device answers ARP, neighbour
solicitations and, at most ten times a second, ICMP echoes on both ports of the network; a datagram to the mailbox port enters
the queue the image names, or is discarded and counted; only its consumer frees entries of a queue. The lengths of the answers
are the model's choice (log 93). Commands that complete here, each as the clause of its name says: queueAck, plantFrameReceived,
arpRequest, neighbourSolicitation, icmpEchoRequest, udpMailbox, plantLinkDown, plantLinkUp, plantTransmitDone. -/
def Obligations.PlantNetworks : Prop :=
  (∀ (p n : Nat) (a b c d : Bool) (m : Option PtpId) (s : State), regionUp .host s = true → p / 2 < s.host.nets.length →
    ∃ t, exec (.plantFrameReceived p n false a b c d m) s = .next t ∧
      (nth t.host.nets (p / 2)).fcserr = satAdd 0xFFFF (nth s.host.nets (p / 2)).fcserr 1 ∧ t.host.ports = s.host.ports ∧
      onlyAt (p / 2) s.host.nets t.host.nets ∧ quiet s t ∧ only [.host] s t) ∧
  (∀ (p n : Nat) (d : Bool) (s : State), regionUp .host s = true → otherPort p < s.host.ports.length →
    (nth s.host.ports (otherPort p)).up = true → (nth s.host.ports (otherPort p)).wire = none → s.pair.role ≠ 3 → n ≤ 1522 →
    ∃ t, exec (.plantFrameReceived p n true false false false d none) s = .next t ∧
      (nth t.host.ports (otherPort p)).wire = some { kind := .forward, len := n } ∧ t.host.nets = s.host.nets ∧
      onlyAt (otherPort p) s.host.ports t.host.ports ∧ quiet s t ∧ only [.host] s t) ∧
  (∀ (p : Nat) (s : State), regionUp .host s = true → p < s.host.ports.length →
    ∃ t, exec (.plantTransmitDone p) s = .next t ∧
      (nth t.host.ports p).wire =
        ((nth s.host.ports p).ptp ++ (nth s.host.ports p).dev ++ (nth s.host.ports p).fwd).head? ∧
      (nth t.host.ports p).ptp ++ (nth t.host.ports p).dev ++ (nth t.host.ports p).fwd =
        ((nth s.host.ports p).ptp ++ (nth s.host.ports p).dev ++ (nth s.host.ports p).fwd).tail ∧
      onlyAt p s.host.ports t.host.ports ∧ quiet s t ∧ only [.host] s t) ∧
  (∀ (p : Nat) (s : State), p < s.host.ports.length → (nth s.host.ports p).up = true →
    ∃ t, exec (.plantLinkDown p) s = .next t ∧ (nth t.host.ports p).up = false ∧ (nth t.host.ports p).wire = none ∧
      (nth t.host.ports p).dev = [] ∧ (nth t.host.ports p).fwd = [] ∧ logged 0x0972 0 s t ∧
      onlyAt p s.host.ports t.host.ports ∧ only [.chip, .host] s t) ∧
  (∀ (p : Nat) (s : State), p < s.host.ports.length → (nth s.host.ports p).bad = false → (nth s.host.ports p).up = false →
    ∃ t, exec (.plantLinkUp p) s = .next t ∧ (nth t.host.ports p).up = true ∧ logged 0x0973 0 s t ∧
      onlyAt p s.host.ports t.host.ports ∧ only [.chip, .host] s t) ∧
  (∀ (p : Nat) (s : State), ((nth s.host.ports p).up = false → exec (.plantLinkDown p) s = .next s) ∧
    ((nth s.host.ports p).up = true → exec (.plantLinkUp p) s = .next s)) ∧
  (∀ (n : Nat) (s : State), regionUp .host s = true → n < 2 → 2 * n + 1 < s.host.ports.length → s.pair.role ≠ 3 →
    (nth s.host.ports (2 * n)).up = true → (nth s.host.ports (2 * n)).wire = none →
    (nth s.host.ports (2 * n + 1)).up = true → (nth s.host.ports (2 * n + 1)).wire = none →
    (∃ t, exec (.arpRequest n) s = .next t ∧ (nth t.host.ports (2 * n)).wire = some { kind := .arp, len := 64 + vidTag s n } ∧
      (nth t.host.ports (2 * n + 1)).wire = some { kind := .arp, len := 64 + vidTag s n } ∧ quiet s t ∧ only [.host] s t) ∧
    (∃ t, exec (.neighbourSolicitation n) s = .next t ∧
      (nth t.host.ports (2 * n)).wire = some { kind := .neighbour, len := 90 + vidTag s n } ∧
      (nth t.host.ports (2 * n + 1)).wire = some { kind := .neighbour, len := 90 + vidTag s n } ∧ quiet s t ∧ only [.host] s t) ∧
    (∀ now, (nth s.host.nets n).echoes < 10 →
      ∃ t, exec (.icmpEchoRequest n now) s = .next t ∧
        (nth t.host.ports (2 * n)).wire = some { kind := .echo, len := 64 + vidTag s n } ∧
        (nth t.host.ports (2 * n + 1)).wire = some { kind := .echo, len := 64 + vidTag s n } ∧ quiet s t ∧ only [.host] s t)) ∧
  (∀ (n now : Nat) (s : State), 10 ≤ (nth s.host.nets n).echoes → now < (nth s.host.nets n).echoAt + 1000000000 →
    exec (.icmpEchoRequest n now) s = .next s) ∧
  (∀ (n q : Nat) (b : List Byte) (s : State), regionUp .host s = true → (nth s.image.nets n).mailbox = some q →
    qFull s q = false → q < s.host.queues.length →
    ∃ t, exec (.udpMailbox n b) s = .next t ∧ (queueSt t q).entries = (queueSt s q).entries ++ [{ bytes := b }] ∧
      onlyAt q s.host.queues t.host.queues ∧ quiet s t ∧ only [.chip, .host] s t) ∧
  (∀ (n : Nat) (b : List Byte) (s : State), regionUp .host s = true → (nth s.image.nets n).mailbox = none →
    n < s.host.nets.length →
    ∃ t, exec (.udpMailbox n b) s = .next t ∧ (nth t.host.nets n).ipdisc = satAdd 0xFFFF (nth s.host.nets n).ipdisc 1 ∧
      t.host.queues = s.host.queues ∧ quiet s t ∧ only [.host] s t) ∧
  (∀ (c q n : Nat) (s : State), regionStopped .host s = false → tlFlow s (.core c) = none → (queueCfg s q).cons = c → 1 ≤ n → n ≤ 256 →
    q ≠ 28 → q ≠ 29 → q ≠ 30 → q < s.host.queues.length →
    ∃ t, exec (.queueAck (.core c) q n) s = .next t ∧ (queueSt t q).entries = (queueSt s q).entries.drop n ∧
      t.chip.resp = .done ∧ onlyAt q s.host.queues t.host.queues ∧ quiet s t ∧ only [.chip, .host] s t) ∧
  (∀ (c q n : Nat) (s : State), regionStopped .host s = false → tlFlow s (.core c) = none → (queueCfg s q).cons ≠ c →
    exec (.queueAck (.core c) q n) s = .next (acked s))

/-- R290 to R294, R226, R233: One decision per tick; a free zone that is not frozen grants one of the requests raised before the
tick, a held or frozen zone none; FRZ is written and read back, and takes effect at the next E0; without a Trellis its access
raises CHIP_ABSENT (R3, R6). An ENABLING group is IDLE at E0 of the enable tick + BRKDLY + 1 and not before; a group that waits
for its sync set longer than SYNCTMO raises MOT_SYNC_TIMEOUT once and keeps waiting. Commands that complete here, each as the
clause of its name says: zoneArbiterDecision, enableComplete, syncTimeout, zoneFreeze, zoneUnfreeze. -/
def Obligations.ZonesAndEnabling : Prop :=
  (∀ (z g : Nat) (s : State), regionUp .trl s = true → (slackSt s 0).missNow = false → (slackSt s 0).done = 0 →
    s.image.compat = false → z < s.trl.zones.length → g < 16 → (zoneSt s z).holder = none → (zoneSt s z).frzE0 = false →
    g ∈ (zoneSt s z).fresh → (trlG s g).wait = some z → (trlG s g).reqTick < s.time.tickno → (grpSt s g).state = .waitZone →
    (∀ k, k ≠ z → g ∉ (zoneSt s k).fresh ∧ ∀ p ∈ (zoneSt s k).parked, p.1 ≠ g) →
    ∃ t, exec .zoneArbiterDecision s = .next t ∧ (zoneSt t z).grants = satAdd 0x7FFF (zoneSt s z).grants 1 ∧
      only [.chip, .time, .mot, .trl] s t) ∧
  (∀ (z : Nat) (s : State), ((zoneSt s z).holder.isSome = true ∨ (zoneSt s z).frzE0 = true) →
    ∃ t, exec .zoneArbiterDecision s = .next t ∧ (zoneSt t z).grants = (zoneSt s z).grants) ∧
  (∀ (s : State), ((slackSt s 0).done ≠ 0 ∨ (slackSt s 0).missNow = true ∨ s.image.compat = true) →
    exec .zoneArbiterDecision s = .next s) ∧
  (∀ (z : Nat) (s : State), regionStopped .trl s = false → hasSolTrl s = true → z < s.trl.zones.length →
    (∃ t, exec (.zoneFreeze z) s = .next t ∧ (zoneSt t z).frz = true ∧ (zoneSt t z).frzE0 = (zoneSt s z).frzE0 ∧
      (zoneSt t z).holder = (zoneSt s z).holder ∧ t.chip.resp = .done ∧ onlyAt z s.trl.zones t.trl.zones ∧ quiet s t ∧
      only [.chip, .trl] s t) ∧
    (∃ t, exec (.zoneUnfreeze z) s = .next t ∧ (zoneSt t z).frz = false ∧ (zoneSt t z).frzE0 = (zoneSt s z).frzE0 ∧
      (zoneSt t z).holder = (zoneSt s z).holder ∧ t.chip.resp = .done ∧ onlyAt z s.trl.zones t.trl.zones ∧ quiet s t ∧
      only [.chip, .trl] s t)) ∧
  (∀ (z : Nat) (s : State), regionStopped .trl s = false → hasSolTrl s = false →
    (∃ t, exec (.zoneFreeze z) s = .next t ∧ logged 0x0101 0 s t ∧ t.chip.resp = .done ∧ only [.chip] s t) ∧
    (∃ t, exec (.zoneUnfreeze z) s = .next t ∧ logged 0x0101 0 s t ∧ t.chip.resp = .done ∧ only [.chip] s t)) ∧
  (∀ (g : Nat) (s : State), regionUp .mot s = true → g < s.mot.groups.length → (grpSt s g).state = .enabling →
    (grpSt s g).enableTick + (grpCfg s g).brkdly + 1 ≤ s.time.tickno →
    ∃ t, exec (.enableComplete g) s = .next t ∧ grpSt t g = { grpSt s g with state := .idle } ∧ t.mot.axes = s.mot.axes ∧
      onlyAt g s.mot.groups t.mot.groups ∧ quiet s t ∧ only [.mot] s t) ∧
  (∀ (g : Nat) (s : State), s.time.tickno < (grpSt s g).enableTick + (grpCfg s g).brkdly + 1 →
    exec (.enableComplete g) s = .next s) ∧
  (∀ (g : Nat) (s : State), regionUp .mot s = true → g < s.mot.groups.length → (grpSt s g).state = .waitSync →
    (grpSt s g).syncRaised = false → (grpCfg s g).syncTmo < (grpSt s g).syncWait →
    ∃ t, exec (.syncTimeout g) s = .next t ∧ grpSt t g = { grpSt s g with syncRaised := true } ∧ t.mot.axes = s.mot.axes ∧
      logged 0x0513 g s t ∧ onlyAt g s.mot.groups t.mot.groups ∧ only [.chip, .mot] s t) ∧
  (∀ (g : Nat) (s : State), (grpSt s g).syncRaised = true → exec (.syncTimeout g) s = .next s)

/-- R278, R282, R284, R285, R31, R210, R213: An object older than AGEMAX is replaced by its field, with TRL_OBJ_STALE once; the
distance of a pair of class W, O or L gives its groups the scale of R285 when that is lower; two copies of a class P or K pair
that differ give 0 and a class A fault; a batch that is pruned, finished or late changes nothing. At its deadline the feedback
is released once: an axis without a source follows its set-point, null feedback holds the position, and every slice at WAIT FB
goes on; a source null for more ticks than the limit stops its groups with cause 12 and MOT_FB_LOST; a homing command that the
far end does not confirm within 64 ticks ends with MOT_RHOME_FAIL. Commands that complete here, each as the clause of its name
says: feedbackDeadline, feedbackNullLimit, pairBatchDone, objectStale, remoteHomeTimeout. -/
def Obligations.FeedbackAndPairs : Prop :=
  (∀ (j : Nat) (s : State), regionUp .trl s = true → hasSolTrl s = true → j < s.trl.objs.length →
    (nth s.image.objs j).defined = true → (nth s.image.sensors (nth s.image.objs j).sensor).ageMax < (nth s.trl.objs j).age →
    (nth s.trl.objs j).stale = false →
    ∃ t, exec (.objectStale j) s = .next t ∧ nth t.trl.objs j = { nth s.trl.objs j with stale := true } ∧
      logged 0x0701 j s t ∧ onlyAt j s.trl.objs t.trl.objs ∧ only [.chip, .trl] s t) ∧
  (∀ (j : Nat) (s : State), (nth s.trl.objs j).stale = true → exec (.objectStale j) s = .next s) ∧
  (∀ (p : PairRec) (g : Nat) (s : State), regionUp .trl s = true → s.trl.pairs = [p] →
    s.trl.batches = [(false, false)] → (slackSt s 5).missNow = false → g < 16 → g < s.trl.g.length →
    (grpCfg s g).defined = true → p.groups = bitOf 16 g → (p.cls = .w ∨ p.cls = .o) →
    ∃ t, exec (.pairBatchDone 0 []) s = .next t ∧ t.trl.batches = [(true, false)] ∧ t.trl.pairs = s.trl.pairs ∧
      (trlG t g).minScale = min (trlG s g).minScale
        (if f32Lt p.d p.clr then 0 else if p.slow == p.clr then 32768
         else scaleOf (f32Div (f32Add p.d (f32Minus p.clr)) (f32Add p.slow (f32Minus p.clr)))) ∧
      onlyAt g s.trl.g t.trl.g ∧ t.trl.objs = s.trl.objs ∧ t.trl.zones = s.trl.zones ∧ only [.chip, .trl] s t) ∧
  (∀ (p : PairRec) (g : Nat) (s : State), regionUp .trl s = true → s.trl.pairs = [p] →
    s.trl.batches = [(false, false)] → (slackSt s 5).missNow = false → g < 16 → g < s.trl.g.length → g < s.saf.g.length →
    (grpCfg s g).defined = true → p.groups = bitOf 16 g → (p.cls = .p ∨ p.cls = .k) →
    ∃ t, exec (.pairBatchDone 0 [0]) s = .next t ∧ t.trl.batches = [(true, false)] ∧ (trlG t g).minScale = 0 ∧
      (safG t g).aLatch = true ∧ t.saf.lastA = 0x0731 ∧ onlyAt g s.trl.g t.trl.g ∧ t.trl.objs = s.trl.objs ∧
      only [.chip, .saf, .trl, .recd] s t) ∧
  (∀ (id : Nat) (ds : List Nat) (s : State),
    (s.trl.batches.length ≤ id ∨ nth s.trl.batches id ≠ (false, false) ∨ (slackSt s 5).missNow = true) →
    exec (.pairBatchDone id ds) s = .next s) ∧
  (∀ (s : State), nodeMode s = false → s.mot.fbRel = false →
    ∃ t, exec .feedbackDeadline s = .next t ∧ t.mot.fbRel = true ∧
      (∀ b sl x, sliceSt s b sl = some x → x.run = .waitFb → ∃ y, sliceSt t b sl = some y ∧ y.run = .run ∧ y.pc = x.pc) ∧
      (∀ a, a < s.mot.axes.length → a < s.image.axes.length → (axisCfg s a).defined = true → (axisCfg s a).src = .none →
        (axSt t a).fb = (axSt s a).spt ∧ (axSt t a).fbPrev = (axSt s a).fb ∧ (axSt t a).used = true) ∧
      (∀ a c, a < s.mot.axes.length → a < s.image.axes.length → (axisCfg s a).defined = true →
        (axisCfg s a).src = .axio c → (chSt s c).fbNull = true →
        (axSt t a).fb = (axSt s a).fb ∧ (axSt t a).nullfb = true ∧ (axSt t a).used = false) ∧
      only [.chip, .ring, .axio, .mot, .trl] s t) ∧
  (∀ (s : State), s.mot.fbRel = true → exec .feedbackDeadline s = .next s) ∧
  (∀ (src : FbSource) (s : State), nullLimit s < nullRunOf s src → sourceLost s src = false →
    sourceGroups s src ≠ 0 →
    ∃ t, exec (.feedbackNullLimit src) s = .next t ∧
      (∀ g, g < s.saf.g.length → hasBit (sourceGroups s src) g = true →
        hasBit (safG t g).stopReq 12 = true ∧ (safG t g).aLatch = true) ∧
      (∀ g, hasBit (sourceGroups s src) g = false → safG t g = safG s g) ∧ t.saf.lastA = 0x0501 ∧
      logged 0x0501 (maskDetail (sourceGroups s src)) s t ∧ only [.chip, .ring, .axio, .saf, .recd] s t) ∧
  (∀ (src : FbSource) (s : State), nullRunOf s src ≤ nullLimit s → exec (.feedbackNullLimit src) s = .next s) ∧
  (∀ (a k : Nat) (s : State), a < s.mot.axes.length → (axSt s a).hgo = some k →
    k + 64 ≤ s.time.tickno →
    ∃ t, exec (.remoteHomeTimeout a) s = .next t ∧ axSt t a = { axSt s a with hgo := none } ∧ logged 0x0504 a s t ∧
      onlyAt a s.mot.axes t.mot.axes ∧ only [.chip, .mot] s t) ∧
  (∀ (a k : Nat) (s : State), (axSt s a).hgo = some k → s.time.tickno < k + 64 →
    exec (.remoteHomeTimeout a) s = .next s)

/-- R257 to R260: A packet of firmware enters its list, a malformed one sets BAD and is discarded; the gate runs once per tick,
makes every pending value the working copy, applies EN, and clears what it applied; EN and CLR wait for the gate. Commands that
complete here, each as the clause of its name says: deltaGate, deltaCommit, problemEnableWrite, problemClearLost. -/
def Obligations.DeltaGate : Prop :=
  (∀ (v : Word) (s : State), regionStopped .sol s = false → hasSolTrl s = true →
    packetOk s 3 (Packet.mk (s.sol.delta0.toNat % 256) (s.sol.delta0.toNat / 256 % 256) (s.sol.delta0.toNat / 65536) v) = true →
    ∃ t, exec (.deltaCommit v) s = .next t ∧ t.sol = { s.sol with fwPk := s.sol.fwPk ++
        [Packet.mk (s.sol.delta0.toNat % 256) (s.sol.delta0.toNat / 256 % 256) (s.sol.delta0.toNat / 65536) v] } ∧
      t.chip.resp = .done ∧ quiet s t ∧ only [.chip, .sol] s t) ∧
  (∀ (v : Word) (s : State), regionStopped .sol s = false → hasSolTrl s = true →
    packetOk s 3 (Packet.mk (s.sol.delta0.toNat % 256) (s.sol.delta0.toNat / 256 % 256) (s.sol.delta0.toNat / 65536) v) = false →
    ∃ t, exec (.deltaCommit v) s = .next t ∧ t.sol = { s.sol with bad := true } ∧ t.chip.resp = .done ∧
      only [.chip, .sol] s t) ∧
  (∀ (s : State), regionUp .sol s = true → hasSolTrl s = true → s.sol.gated = false →
    ∃ t, exec .deltaGate s = .next t ∧ t.sol.gated = true ∧ t.sol.tlPk = [] ∧ t.sol.fwPk = [] ∧
      (∀ p, (probSt t p).work = (probSt t p).pend) ∧
      (∀ p e, p < s.sol.probs.length → (probSt s p).enNext = some e → (probSt t p).en = e) ∧
      (∀ p, (probSt s p).enNext = none → (probSt t p).en = (probSt s p).en) ∧
      (∀ k, devicePackets s = [] → s.sol.tlPk = [] → s.sol.fwPk = [k] → k.prob < s.sol.probs.length →
        (probSt t k.prob).work = applyPacket k (probSt s k.prob).pend) ∧ only [.chip, .sol] s t) ∧
  (∀ (s : State), s.sol.gated = true → exec .deltaGate s = .next s) ∧
  (∀ (p : Nat) (e : Bool) (s : State), regionStopped .sol s = false → hasSolTrl s = true → p < s.sol.probs.length →
    (probCfg s p).use ≠ 1 → (probCfg s p).use ≠ 2 →
    ∃ t, exec (.problemEnableWrite p e) s = .next t ∧ probSt t p = { probSt s p with enNext := some e } ∧
      t.chip.resp = .done ∧ onlyAt p s.sol.probs t.sol.probs ∧ quiet s t ∧ only [.chip, .sol] s t) ∧
  (∀ (p : Nat) (e : Bool) (s : State), regionStopped .sol s = false → hasSolTrl s = true →
    ((probCfg s p).use = 1 ∨ (probCfg s p).use = 2) → exec (.problemEnableWrite p e) s = .next (acked s)) ∧
  (∀ (p : Nat) (s : State), regionStopped .sol s = false → hasSolTrl s = true → p < s.sol.probs.length →
    ∃ t, exec (.problemClearLost p) s = .next t ∧ probSt t p = { probSt s p with clr := true } ∧ t.chip.resp = .done ∧
      onlyAt p s.sol.probs t.sol.probs ∧ quiet s t ∧ only [.chip, .sol] s t)

/-- R251, R252, R256, R261 to R263: A job ends with an outcome, all NaN after a pivot fault; an anytime job that is stopped has CONV
0 and at most the iterations it ran; at the release a valid outcome is published, a job that has not ended is a miss and leaves
the last result; more misses in a row than MISSLIM stop the groups that use the problem at the next E0. The numbers of a job are
free functions of its problem (log 12), and a stored MISSLIM of 0 means 16 by the model's reading (log 70). Commands that
complete here, each as the clause of its name says: solverJobDone, anytimeStop, solverRelease, solverMissLimit. -/
def Obligations.SolverJobs : Prop :=
  (∀ (p : Nat) (s : State), regionUp .sol s = true → p < s.sol.probs.length → (probSt s p).job = .running →
    (probSt s p).pruned = false →
    ∃ t, exec (.solverJobDone p) s = .next t ∧ (probSt t p).job = .done ∧
      ((probSt t p).out.pivot.isSome = true → ∀ v ∈ (probSt t p).out.x, v = f32NaN) ∧
      (probSt t p).pub = (probSt s p).pub ∧ only [.chip, .sol] s t) ∧
  (∀ (p : Nat) (s : State), ((probSt s p).job ≠ .running ∨ (probSt s p).pruned = true) →
    exec (.solverJobDone p) s = .next s) ∧
  (∀ (p n : Nat) (s : State), regionUp .sol s = true → p < s.sol.probs.length → (probCfg s p).anytime = true →
    (probSt s p).pruned = false → ((probSt s p).job = .running ∨ (probSt s p).job = .waiting) →
    ∃ t, exec (.anytimeStop p n) s = .next t ∧ (probSt t p).job = .done ∧ (probSt t p).out.conv = false ∧
      (probSt t p).out.iters ≤ n ∧ (probSt t p).out.iters ≤ (probCfg s p).iter ∧ only [.chip, .sol] s t) ∧
  (∀ (p n : Nat) (s : State), (probCfg s p).anytime = false → exec (.anytimeStop p n) s = .next s) ∧
  (∀ (s : State), regionUp .sol s = true → hasSolTrl s = true →
    ∃ t, exec .solverRelease s = .next t ∧
      (∀ p, p < s.image.probs.length → p < s.sol.probs.length → (probCfg s p).op ≠ 0 → (probCfg s p).anytime = false →
        (probSt s p).due = true → (probSt s p).job = .done → outOk (probSt s p).out = true →
        (probSt t p).valid = true ∧ (probSt t p).pub = (probSt s p).out ∧ (probSt t p).pubTick = s.time.tickno ∧
        (probSt t p).miss = false ∧ (probSt t p).nvrun = 0 ∧ (probSt t p).due = false) ∧
      (∀ p, p < s.image.probs.length → p < s.sol.probs.length → (probCfg s p).op ≠ 0 → (probCfg s p).anytime = false →
        (probSt s p).due = true → (probSt s p).job = .running →
        (probSt t p).valid = false ∧ (probSt t p).pub = (probSt s p).pub ∧ (probSt t p).miss = true ∧
        (probSt t p).misscnt = satAdd 0xFFFF (probSt s p).misscnt 1 ∧
        (probSt t p).nvrun = satAdd 31 (probSt s p).nvrun 1)) ∧
  (∀ (p : Nat) (s : State), regionUp .sol s = true → p < s.sol.probs.length → missLimit s < (probSt s p).nvrun →
    (probSt s p).limit = false →
    ∃ t, exec (.solverMissLimit p) s = .next t ∧ probSt t p = { probSt s p with limit := true } ∧
      t.time = { s.time with ss1Next := s.time.ss1Next ||| probGroups s p } ∧ logged 0x06D0 (p + 32768) s t ∧
      onlyAt p s.sol.probs t.sol.probs ∧ only [.chip, .time, .sol] s t) ∧
  (∀ (p : Nat) (s : State), (probSt s p).nvrun ≤ missLimit s → exec (.solverMissLimit p) s = .next s)

/-- R181 to R183, R189, R209: What the results of the slice's arithmetic are: a wrapping result is the exact value modulo 2^24, with
an overflow when it does not fit; a saturating result is the nearest value that fits, with SAT when that differs; store24
divides by 2^SH rounded half up; an accumulator wraps modulo 2^56. CLIP limits RS to plus or minus the magnitude of RT, that of
the most negative number counted as 0x7FFFFF, and sets SAT when it clamps; in compatibility mode CLIP, MACL and MSUL are illegal
with CAUSE 8. Commands that complete here, each as the clause of its name says: sClip, sMacl, sMsul. -/
def Obligations.SliceResultsAndClip : Prop :=
  (∀ v : Int, (wrapRes v).val.toInt = Int.bmod v (2 ^ 24) ∧ (wrapRes v).sat = false ∧
    ((wrapRes v).ovf = true ↔ v < -(2 ^ 23) ∨ 2 ^ 23 ≤ v)) ∧
  (∀ v : Int, (satRes v).val.toInt = max (-(2 ^ 23)) (min (2 ^ 23 - 1) v) ∧ (satRes v).ovf = false ∧
    ((satRes v).sat = true ↔ v < -(2 ^ 23) ∨ 2 ^ 23 ≤ v)) ∧
  (∀ (a : Int) (n : Nat), (store24 a (n + 1) true).val.toInt =
      max (-(2 ^ 23)) (min (2 ^ 23 - 1) ((a + 2 ^ n) / 2 ^ (n + 1))) ∧
    (store24 a (n + 1) false).val.toInt = Int.bmod ((a + 2 ^ n) / 2 ^ (n + 1)) (2 ^ 24) ∧
    (store24 a 0 true).val.toInt = max (-(2 ^ 23)) (min (2 ^ 23 - 1) a)) ∧
  (∀ v : Int, (wrapAcc v).val.toInt = Int.bmod v (2 ^ 56) ∧ ((wrapAcc v).ovf = true ↔ v < -(2 ^ 55) ∨ 2 ^ 55 ≤ v)) ∧
  (∀ (b sl : Nat) (rd rs rt : Fin 8) (x : SliceSt) (s : State), sliceFree b sl s x → rd.val < x.d.length →
    s.image.compat = false →
    ∃ t y, exec (.sClip b sl rd rs rt) s = .next t ∧ sliceStep b sl s t y ∧ executed x y ∧
      (dReg y rd).toInt = max (-(min 8388607 |(dReg x rt).toInt|)) (min (min 8388607 |(dReg x rt).toInt|) (dReg x rs).toInt) ∧
      onlyD rd x y ∧
      flagsAre (stBit (commit x) 1) (stBit (commit x) 0) (stBit (commit x) 2)
        (stBit (commit x) 3 || decide (min 8388607 |(dReg x rt).toInt| < |(dReg x rs).toInt|)) x y ∧ registersKept x y) ∧
  (∀ (b sl : Nat) (ax : Fin 2) (rd rs rt : Fin 8) (pn : Fin 4) (amm : Bool) (x : SliceSt) (s : State), sliceFree b sl s x →
    x.illegal = 0 → rotating s b sl = false → s.image.compat = true →
    ∀ i ∈ ([.sClip b sl rd rs rt, .sMacl b sl ax rs rt rd pn amm, .sMsul b sl ax rs rt rd pn amm] : List Instr),
    ∃ t y, exec i s = .next t ∧ sliceSt t b sl = some y ∧ y.illegal = 8 ∧ y.pc = 0x008 ∧ y.epc = x.pc ∧ y.estat = (commit x).st ∧
      logged 0x0541 (16 * b + sl) s t ∧ only [.chip, .mot] s t)

/-- R187 to R189: Every instruction that writes a data register at once writes the value of its row of R189 there, from the
registers as they were; only that register, V and SAT change, V and SAT are only ever set, and results in flight land. With TE 1
an overflow is another statement. Commands that complete here, each as the clause of its name says: sLdi, sMov, sAdd, sSub,
sAdds, sSubs, sAddi, sNeg, sAbs, sAnd, sOr, sXor, sShl, sShra, sShrl, sMin, sMax, sMovr, sMfa. -/
def Obligations.SliceRegisterResults : Prop :=
  ∀ (b sl : Nat) (rd rs rt : Fin 8) (ax : Fin 2) (sh : Fin 32) (imm : BitVec 14) (imm23 : BitVec 23) (sat : Bool) (x : SliceSt)
    (s : State), sliceFree b sl s x → rd.val < x.d.length →
    ∀ p ∈ ([(.sAdd b sl rd rs rt, wrapRes ((dReg x rs).toInt + (dReg x rt).toInt)),
        (.sSub b sl rd rs rt, wrapRes ((dReg x rs).toInt - (dReg x rt).toInt)),
        (.sAdds b sl rd rs rt, satRes ((dReg x rs).toInt + (dReg x rt).toInt)),
        (.sSubs b sl rd rs rt, satRes ((dReg x rs).toInt - (dReg x rt).toInt)),
        (.sAddi b sl rd rs imm, wrapRes ((dReg x rs).toInt + imm.toInt)),
        (.sNeg b sl rd rs, satRes (-(dReg x rs).toInt)),
        (.sAbs b sl rd rs, satRes |(dReg x rs).toInt|),
        (.sAnd b sl rd rs rt, { val := dReg x rs &&& dReg x rt }),
        (.sOr b sl rd rs rt, { val := dReg x rs ||| dReg x rt }),
        (.sXor b sl rd rs rt, { val := dReg x rs ^^^ dReg x rt }),
        (.sShl b sl rd rs sh, wrapRes ((dReg x rs).toInt * 2 ^ sh.val)),
        (.sShra b sl rd rs sh, { val := (dReg x rs).sshiftRight sh.val }),
        (.sShrl b sl rd rs sh, { val := dReg x rs >>> sh.val }),
        (.sMin b sl rd rs rt, { val := if (dReg x rs).toInt ≤ (dReg x rt).toInt then dReg x rs else dReg x rt }),
        (.sMax b sl rd rs rt, { val := if (dReg x rs).toInt ≤ (dReg x rt).toInt then dReg x rt else dReg x rs }),
        (.sLdi b sl rd imm23, { val := imm23.signExtend 24 }),
        (.sMov b sl rd rs, { val := dReg x rs }),
        (.sMovr b sl ax rd sh sat, store24 (aReg x ax).toInt sh sat),
        (.sMfa b sl ax rd 0, { val := (aReg x ax).extractLsb' 0 24 }),
        (.sMfa b sl ax rd 1, { val := (aReg x ax).extractLsb' 24 24 }),
        (.sMfa b sl ax rd 2, { val := ((aReg x ax).extractLsb' 48 8).signExtend 24 })] : List (Instr × Res24)),
    (stBit x 20 = true → p.2.ovf = false) →
    ∃ t y, exec p.1 s = .next t ∧ sliceStep b sl s t y ∧ executed x y ∧ dReg y rd = p.2.val ∧ onlyD rd x y ∧
      flagsAre (stBit (commit x) 1) (stBit (commit x) 0) (stBit (commit x) 2 || p.2.ovf) (stBit (commit x) 3 || p.2.sat) x y ∧
      registersKept x y

/-- R181, R186, R188, R189: A result of an accumulator is in flight after its instruction and lands with the next; an accumulate
adds onto the result that is in flight; MACL and MSUL also load RL from the word at pN and post-modify pN at once; V is set by
an overflow of 56 bits. Commands that complete here, each as the clause of its name says: sMpy, sMac, sMsu, sMacl, sMsul, sLda,
sAdda, sSha, sClra, sMta. -/
def Obligations.SliceAccumulators : Prop :=
  (∀ (b sl : Nat) (ax : Fin 2) (rd rs rt : Fin 8) (sh : Fin 32) (x : SliceSt) (s : State), sliceFree b sl s x →
    ∀ p ∈ ([(.sMpy b sl ax rs rt, wrapAcc ((dReg x rs).toInt * (dReg x rt).toInt)),
        (.sMac b sl ax rs rt, wrapAcc ((aFwd x ax).toInt + (dReg x rs).toInt * (dReg x rt).toInt)),
        (.sMsu b sl ax rs rt, wrapAcc ((aFwd x ax).toInt - (dReg x rs).toInt * (dReg x rt).toInt)),
        (.sLda b sl ax rs sh, wrapAcc ((dReg x rs).toInt * 2 ^ sh.val)),
        (.sAdda b sl ax rs sh, wrapAcc ((aFwd x ax).toInt + (dReg x rs).toInt * 2 ^ sh.val)),
        (.sSha b sl ax sh true, { val := (aReg x ax).sshiftRight sh.val }),
        (.sSha b sl ax sh false, wrapAcc ((aReg x ax).toInt * 2 ^ sh.val)),
        (.sClra b sl ax, {}),
        (.sMta b sl ax rd 0, { val := (aFwd x ax &&& 0xFFFFFFFF000000) ||| (dReg x rd).setWidth 56 }),
        (.sMta b sl ax rd 1, { val := (aFwd x ax &&& 0xFF000000FFFFFF) ||| ((dReg x rd).setWidth 56 <<< 24) }),
        (.sMta b sl ax rd 2, { val := (aFwd x ax &&& 0x00FFFFFFFFFFFF) ||| (((dReg x rd).setWidth 8).setWidth 56 <<< 48) })] :
        List (Instr × Res56)),
    (stBit x 20 = true → p.2.ovf = false) →
    ∃ t y, exec p.1 s = .next t ∧ sliceStep b sl s t y ∧ executed x y ∧ y.pend = [{ dest := .a ax, val := p.2.val }] ∧
      y.d = (commit x).d ∧ y.a0 = (commit x).a0 ∧ y.a1 = (commit x).a1 ∧
      flagsAre (stBit (commit x) 1) (stBit (commit x) 0) (stBit (commit x) 2 || p.2.ovf) (stBit (commit x) 3) x y ∧
      registersKept x y) ∧
  (∀ (b sl : Nat) (ax : Fin 2) (rs rt rl : Fin 8) (pn : Fin 4) (amm : Bool) (x : SliceSt) (s : State), sliceFree b sl s x →
    s.image.compat = false → pn.val < x.p.length →
    ∀ p ∈ ([(.sMacl b sl ax rs rt rl pn amm, wrapAcc ((aFwd x ax).toInt + (dReg x rs).toInt * (dReg x rt).toInt)),
        (.sMsul b sl ax rs rt rl pn amm, wrapAcc ((aFwd x ax).toInt - (dReg x rs).toInt * (dReg x rt).toInt))] :
        List (Instr × Res56)),
    (stBit x 20 = true → p.2.ovf = false) →
    ∃ t y, exec p.1 s = .next t ∧ sliceStep b sl s t y ∧ executed x y ∧
      y.pend = [{ dest := .a ax, val := p.2.val },
        { dest := .d rl, val := (dmemRead x (nth x.p pn)).setWidth 56 }] ∧
      nth y.p pn = ammUpdate x pn amm ∧ (∀ i, i ≠ pn.val → nth y.p i = nth (commit x).p i) ∧ y.d = (commit x).d ∧
      y.dmem = x.dmem ∧ stBit y 2 = (stBit (commit x) 2 || p.2.ovf)) ∧
  (∀ (x : SliceSt) (ax : Fin 2) (v : BitVec 56), x.pend = [{ dest := .a ax, val := v }] →
    aReg (commit x) ax = v ∧ aFwd x ax = v ∧ (commit x).d = x.d)

/-- R184 to R188, R194, R196: LD loads the word at its operand address, visible after the next instruction, and post-modifies the
pointer at once; ST and STR write the word at their address and no other, where the program may write (a word of a slot without
an axis still reads 0), and are illegal with CAUSE 3 elsewhere; MTC, LDC and MODP write a control register after the next
instruction, MFC reads one; a reserved form is illegal with CAUSE 2. Commands that complete here, each as the clause of its name
says: sLd, sSt, sMtc, sMfc, sLdc, sModp, sStr, sMfa, sMta. -/
def Obligations.SliceMemory : Prop :=
  (∀ (b sl : Nat) (rd : Fin 8) (pn am : Fin 4) (off a : BitVec 12) (u : Option (BitVec 12)) (x : SliceSt) (s : State),
    sliceFree b sl s x → memOperand x pn am off = some (a, u) → pn.val < x.p.length →
    ∃ t y, exec (.sLd b sl rd pn am off) s = .next t ∧ sliceStep b sl s t y ∧ executed x y ∧
      y.pend = [{ dest := .d rd, val := (dmemRead x a).setWidth 56 }] ∧ nth y.p pn = u.getD (nth (commit x).p pn) ∧
      (∀ i, i ≠ pn.val → nth y.p i = nth (commit x).p i) ∧ y.d = (commit x).d ∧ y.dmem = x.dmem ∧
      flagsAre (stBit (commit x) 1) (stBit (commit x) 0) (stBit (commit x) 2) (stBit (commit x) 3) x y) ∧
  (∀ (b sl : Nat) (rd : Fin 8) (pn am : Fin 4) (off a : BitVec 12) (u : Option (BitVec 12)) (x : SliceSt) (s : State),
    sliceFree b sl s x → memOperand x pn am off = some (a, u) → pn.val < x.p.length → dmemWritable a = true →
    ∃ t y, exec (.sSt b sl rd pn am off) s = .next t ∧ sliceStep b sl s t y ∧ executed x y ∧
      dmemRead y a = (if noAxis x a then 0 else dReg x rd) ∧
      (∀ k, k ≠ a → dmemRead y k = dmemRead x k) ∧ nth y.p pn = u.getD (nth (commit x).p pn) ∧
      (∀ i, i ≠ pn.val → nth y.p i = nth (commit x).p i) ∧ y.d = (commit x).d ∧
      flagsAre (stBit (commit x) 1) (stBit (commit x) 0) (stBit (commit x) 2) (stBit (commit x) 3) x y) ∧
  (∀ (b sl : Nat) (ax : Fin 2) (pn : Fin 4) (amm : Bool) (sh : Fin 32) (sat : Bool) (x : SliceSt) (s : State),
    sliceFree b sl s x → pn.val < x.p.length → dmemWritable (nth x.p pn) = true →
    (stBit x 20 = true → (store24 (aReg x ax).toInt sh sat).ovf = false) →
    ∃ t y, exec (.sStr b sl ax pn amm sh sat) s = .next t ∧ sliceStep b sl s t y ∧ executed x y ∧
      dmemRead y (nth x.p pn) = (if noAxis x (nth x.p pn) then 0 else (store24 (aReg x ax).toInt sh sat).val) ∧
      (∀ k, k ≠ nth x.p pn → dmemRead y k = dmemRead x k) ∧ nth y.p pn = ammUpdate x pn amm ∧ y.d = (commit x).d ∧
      stBit y 2 = (stBit (commit x) 2 || (store24 (aReg x ax).toInt sh sat).ovf) ∧
      stBit y 3 = (stBit (commit x) 3 || (store24 (aReg x ax).toInt sh sat).sat)) ∧
  (∀ (b sl : Nat) (rd : Fin 8) (cr : Fin 32) (pn : Fin 4) (imm : BitVec 16) (inc : BitVec 12) (x : SliceSt) (s : State),
    sliceFree b sl s x → cr.val < 22 →
    (∃ t y, exec (.sMtc b sl rd cr) s = .next t ∧ sliceStep b sl s t y ∧ executed x y ∧
      y.pend = [{ dest := .cr cr, val := (dReg x rd).setWidth 56 }] ∧ y.d = (commit x).d ∧ registersKept x y) ∧
    (∃ t y, exec (.sLdc b sl cr imm) s = .next t ∧ sliceStep b sl s t y ∧ executed x y ∧
      y.pend = [{ dest := .cr cr, val := imm.setWidth 56 }] ∧ y.d = (commit x).d ∧ registersKept x y) ∧
    (∃ t y, exec (.sModp b sl pn inc) s = .next t ∧ sliceStep b sl s t y ∧ executed x y ∧
      y.pend = [{ dest := .cr pn, val := (postMod (nth x.p pn) (nth x.l pn) inc.toInt).setWidth 56 }] ∧
      y.d = (commit x).d ∧ registersKept x y) ∧
    (rd.val < x.d.length →
      ∃ t y, exec (.sMfc b sl rd cr) s = .next t ∧ sliceStep b sl s t y ∧ executed x y ∧ dReg y rd = crRead x cr ∧
        onlyD rd x y ∧ registersKept x y)) ∧
  (∀ (b sl : Nat) (rd : Fin 8) (pn am : Fin 4) (off : BitVec 12) (cr : Fin 32) (ax : Fin 2) (cond : Fin 16) (tgt : BitVec 11)
    (x : SliceSt) (s : State), sliceFree b sl s x → x.inSlot = false → atLoopEnd x = false → x.illegal = 0 →
    rotating s b sl = false → memOperand x pn am off = none → 22 ≤ cr.val → 7 ≤ cond.val →
    ∀ i ∈ ([.sLd b sl rd pn am off, .sSt b sl rd pn am off, .sMtc b sl rd cr, .sMfc b sl rd cr, .sLdc b sl cr 0,
        .sMfa b sl ax rd 3, .sMta b sl ax rd 3, .sB b sl cond tgt] : List Instr),
    ∃ t y, exec i s = .next t ∧ sliceSt t b sl = some y ∧ y.illegal = 2 ∧ y.pc = 0x008 ∧ y.epc = x.pc ∧ y.dmem = x.dmem ∧
      logged 0x0541 (16 * b + sl) s t ∧ only [.chip, .mot] s t) ∧
  (∀ (b sl : Nat) (rd : Fin 8) (pn am : Fin 4) (off a : BitVec 12) (u : Option (BitVec 12)) (x : SliceSt) (s : State),
    sliceFree b sl s x → x.illegal = 0 → rotating s b sl = false → memOperand x pn am off = some (a, u) → dmemWritable a = false →
    ∃ t y, exec (.sSt b sl rd pn am off) s = .next t ∧ sliceSt t b sl = some y ∧ y.illegal = 3 ∧ y.pc = 0x008 ∧
      y.epc = x.pc ∧ y.dmem = x.dmem ∧ logged 0x0541 (16 * b + sl) s t ∧ only [.chip, .mot] s t)

/-- R189 to R191: NOP does nothing; CMP and CMPI set N and Z from the exact difference; a transfer sets the jump that its delay slot
makes, CALL with LR two words on; the instruction of a delay slot goes on at the target; a loop starts with its bounds and
count, a count of 0 skips it; the instruction at its end goes back while the count lasts and then leaves; a control instruction
in a delay slot is illegal with CAUSE 4. Commands that complete here, each as the clause of its name says: sNop, sRte, sCmp,
sCmpi, sB, sJmp, sCall, sRet, sLoopi, sLoopr. -/
def Obligations.SliceControl : Prop :=
  (∀ (b sl : Nat) (rs rt : Fin 8) (imm : BitVec 14) (x : SliceSt) (s : State), sliceFree b sl s x →
    (∃ t y, exec (.sNop b sl) s = .next t ∧ sliceStep b sl s t y ∧ executed x y ∧ y.d = (commit x).d ∧ y.pend = [] ∧
      flagsAre (stBit (commit x) 1) (stBit (commit x) 0) (stBit (commit x) 2) (stBit (commit x) 3) x y ∧ registersKept x y) ∧
    (∃ t y, exec (.sCmp b sl rs rt) s = .next t ∧ sliceStep b sl s t y ∧ executed x y ∧ y.d = (commit x).d ∧
      flagsAre (decide ((dReg x rs).toInt < (dReg x rt).toInt)) (decide (dReg x rs = dReg x rt)) (stBit (commit x) 2)
        (stBit (commit x) 3) x y ∧ registersKept x y) ∧
    (∃ t y, exec (.sCmpi b sl rs imm) s = .next t ∧ sliceStep b sl s t y ∧ executed x y ∧ y.d = (commit x).d ∧
      flagsAre (decide ((dReg x rs).toInt < imm.toInt)) (decide ((dReg x rs).toInt = imm.toInt)) (stBit (commit x) 2)
        (stBit (commit x) 3) x y ∧ registersKept x y)) ∧
  (∀ (b sl : Nat) (cond : Fin 16) (tgt : BitVec 11) (x : SliceSt) (s : State), sliceClear b sl s x → cond.val < 7 →
    ∃ t y, exec (.sB b sl cond tgt) s = .next t ∧ sliceStep b sl s t y ∧ y.inSlot = true ∧ y.pc = x.pc + 1 ∧
      y.jump = (if condHolds cond (stBit x 1) (stBit x 0) then some tgt else none) ∧ y.d = (commit x).d ∧ registersKept x y) ∧
  (∀ (b sl : Nat) (tgt : BitVec 11) (x : SliceSt) (s : State), sliceClear b sl s x →
    (∃ t y, exec (.sJmp b sl tgt) s = .next t ∧ sliceStep b sl s t y ∧ y.inSlot = true ∧ y.pc = x.pc + 1 ∧ y.jump = some tgt ∧
      y.d = (commit x).d ∧ registersKept x y) ∧
    (∃ t y, exec (.sCall b sl tgt) s = .next t ∧ sliceStep b sl s t y ∧ y.inSlot = true ∧ y.pc = x.pc + 1 ∧
      y.jump = some tgt ∧ (commit y).lr = x.pc + 2 ∧ y.d = (commit x).d ∧ registersKept x y) ∧
    (∃ t y, exec (.sRet b sl) s = .next t ∧ sliceStep b sl s t y ∧ y.inSlot = true ∧ y.pc = x.pc + 1 ∧ y.jump = some x.lr ∧
      y.d = (commit x).d ∧ registersKept x y)) ∧
  (∀ (b sl : Nat) (tgt : BitVec 11) (x : SliceSt) (s : State), sliceFree b sl s x → x.inSlot = true → x.jump = some tgt →
    ∃ t y, exec (.sNop b sl) s = .next t ∧ sliceStep b sl s t y ∧ y.pc = tgt ∧ y.inSlot = false ∧ y.jump = none) ∧
  (∀ (b sl : Nat) (tgt : BitVec 11) (x : SliceSt) (s : State), sliceSt s b sl = some x → canRun x = true → x.inSlot = true →
    x.illegal = 0 → x.abortWait = false → rotating s b sl = false →
    ∀ i ∈ ([.sJmp b sl tgt, .sCall b sl tgt, .sRet b sl, .sB b sl 0 tgt, .sRte b sl] : List Instr),
    ∃ t y, exec i s = .next t ∧ sliceSt t b sl = some y ∧ y.illegal = 4 ∧ y.pc = 0x008 ∧ y.epc = x.pc ∧
      logged 0x0541 (16 * b + sl) s t) ∧
  (∀ (b sl : Nat) (k : Fin 2) (e : BitVec 11) (n : BitVec 14) (rs : Fin 8) (x : SliceSt) (s : State), sliceClear b sl s x →
    loopBad x k e = false → x.ls.length = 2 → x.le.length = 2 → x.lc.length = 2 →
    ∀ p ∈ ([(.sLoopi b sl k e n, n), (.sLoopr b sl k e rs, (dReg x rs).setWidth 14)] : List (Instr × BitVec 14)),
    ∃ t y, exec p.1 s = .next t ∧ sliceStep b sl s t y ∧ nth y.ls k = x.pc + 1 ∧ nth y.le k = e ∧ nth y.lc k = p.2 ∧
      stBit y (21 + k) = decide (p.2 ≠ 0) ∧ y.pc = (if p.2 = 0 then e + 1 else x.pc + 1) ∧ y.d = (commit x).d) ∧
  (∀ (b sl : Nat) (x : SliceSt) (s : State), sliceFree b sl s x → x.inSlot = false → stBit x 21 = true → stBit x 22 = false →
    x.pc = nth x.le 0 → x.lc.length = 2 →
    ∃ t y, exec (.sNop b sl) s = .next t ∧ sliceStep b sl s t y ∧ nth y.lc 0 = nth x.lc 0 - 1 ∧
      y.pc = (if nth x.lc 0 - 1 ≠ 0 then nth x.ls 0 else x.pc + 1) ∧
      stBit y 21 = decide (nth x.lc 0 - 1 ≠ 0))

/-- R192 to R195: An overflow with TE set enters the trap handler at 4, with the status and the next address saved, EV set and the
loops inactive, and raises MOT_SLICE_TRAP; RTE takes ST from ESTAT and goes on at EPC; an illegal word enters its handler at 8,
or stops the slice when one is being handled; the end of the tick aborts a slice that has not ended, and the slice stops when
its handler has not ended. Commands that complete here, each as the clause of its name says: sRte, sAdd, illegalOperation,
tickAbort, tickAbortOverrun. -/
def Obligations.SliceEvents : Prop :=
  (∀ (b sl : Nat) (rd rs rt : Fin 8) (x : SliceSt) (s : State), sliceFree b sl s x → rd.val < x.d.length → x.inSlot = false →
    atLoopEnd x = false → stBit x 20 = true → stBit x 23 = false →
    (wrapRes ((dReg x rs).toInt + (dReg x rt).toInt)).ovf = true →
    s.chip.once.contains (0x0540, 16 * b + sl) = false →
    ∃ t y, exec (.sAdd b sl rd rs rt) s = .next t ∧ sliceSt t b sl = some y ∧ y.pc = 0x004 ∧ y.epc = x.pc + 1 ∧
      dReg y rd = (wrapRes ((dReg x rs).toInt + (dReg x rt).toInt)).val ∧ stBit y 23 = true ∧ stBit y 22 = false ∧
      stBit y 21 = false ∧ y.estat.getLsbD 2 = true ∧ y.estat.getLsbD 23 = false ∧
      y.trapcnt = satAdd 0xFFFF x.trapcnt 1 ∧ logged 0x0540 (16 * b + sl) s t ∧ only [.chip, .mot] s t) ∧
  (∀ (b sl : Nat) (x : SliceSt) (s : State), sliceClear b sl s x → stBit x 23 = true → x.illegal = 0 →
    ∃ t y, exec (.sRte b sl) s = .next t ∧ sliceStep b sl s t y ∧ y.st = x.estat ∧ y.pc = x.epc ∧ y.d = (commit x).d ∧
      y.icnt = satAdd 0xFFFF x.icnt 1) ∧
  (∀ (b sl : Nat) (x : SliceSt) (s : State), sliceClear b sl s x → stBit x 23 = false → x.illegal = 0 →
    rotating s b sl = false →
    ∃ t y, exec (.sRte b sl) s = .next t ∧ sliceSt t b sl = some y ∧ y.illegal = 7 ∧ y.pc = 0x008 ∧
      logged 0x0541 (16 * b + sl) s t) ∧
  (∀ (b sl cause : Nat) (w : Word) (x : SliceSt) (s : State), sliceSt s b sl = some x → canRun x = true → x.illegal = 0 →
    x.abortWait = false → rotating s b sl = false → sliceDecode b sl w = .error cause →
    ∃ t y, exec (.illegalOperation b sl w) s = .next t ∧ sliceSt t b sl = some y ∧ y.illegal = cause ∧ y.pc = 0x008 ∧
      y.epc = x.pc ∧ y.estat = (commit x).st ∧ stBit y 23 = true ∧ y.d = (commit x).d ∧ y.dmem = x.dmem ∧
      logged 0x0541 (16 * b + sl) s t ∧ only [.chip, .mot] s t) ∧
  (∀ (b sl : Nat) (w : Word) (i : Instr) (s : State), sliceDecode b sl w = .ok i → exec (.illegalOperation b sl w) s = .next s) ∧
  (∀ (b sl cause : Nat) (w : Word) (x : SliceSt) (s : State), sl < 8 → sliceSt s b sl = some x → canRun x = true →
    x.illegal ≠ 0 → x.inAbort = false → sliceDecode b sl w = .error cause →
    ∃ t y, exec (.illegalOperation b sl w) s = .next t ∧ sliceSt t b sl = some y ∧ y.run = .stopped ∧ y.fcause = 1 ∧
      y.fpc = x.pc) ∧
  (∀ (b sl : Nat) (x : SliceSt) (s : State), sliceSt s b sl = some x → x.run = .run → x.sawEnd = false → x.aborted = false →
    x.inSlot = false → compared s b sl = false → rotating s b sl = false →
    ∃ t y, exec (.tickAbort b sl) s = .next t ∧ sliceSt t b sl = some y ∧ y.aborted = true ∧ y.pc = 0x00C ∧ y.epc = x.pc ∧
      t.time.ss1Next = s.time.ss1Next ||| sliceGroups s x ∧ logged 0x0542 (16 * b + sl) s t ∧ only [.chip, .time, .mot] s t) ∧
  (∀ (b sl : Nat) (x : SliceSt) (s : State), sliceSt s b sl = some x → (x.sawEnd = true ∨ x.aborted = true) →
    exec (.tickAbort b sl) s = .next s) ∧
  (∀ (b sl : Nat) (x : SliceSt) (s : State), sl < 8 → sliceSt s b sl = some x → x.aborted = true → x.sawEnd = false →
    x.run ≠ .stopped → x.run ≠ .retired →
    ∃ t y, exec (.tickAbortOverrun b sl) s = .next t ∧ sliceSt t b sl = some y ∧ y.run = .stopped ∧ y.fcause = 3) ∧
  (∀ (b sl : Nat) (x : SliceSt) (s : State), sliceSt s b sl = some x → (x.aborted = false ∨ x.sawEnd = true) →
    exec (.tickAbortOverrun b sl) s = .next s)

/-- R197, R198, R200 to R205: WAIT waits for its release, or goes on at once with the axis window updated; OUT hands the output
words to its axes once, a second OUT is illegal with CAUSE 6; END makes the slice idle; the shadow run on the spare compares the
output words once both have executed OUT and the writes, ICNT, V and SAT once both have executed END, and a divergence starts
the spare's self-test; a passing self-test of the spare after a divergence stops the slice, a failing one fails the spare with
MOT_SPARE_FAIL. Commands that complete here, each as the clause of its name says: sWaitFb, sWaitFf, sOut, spareSelftestDone,
sEnd, spareFullSelftestDone. -/
def Obligations.SliceTick : Prop :=
  (∀ (b sl : Nat) (x : SliceSt) (s : State), sliceClear b sl s x → x.icnt < 0xFFFF →
    (s.mot.fbRel = false →
      ∃ t y, exec (.sWaitFb b sl) s = .next t ∧ sliceStep b sl s t y ∧ y.run = .waitFb ∧ y.pc = x.pc + 1 ∧ y.dmem = x.dmem) ∧
    (s.mot.fbRel = true →
      ∃ t y, exec (.sWaitFb b sl) s = .next t ∧ sliceStep b sl s t y ∧ y.run = .run ∧ y.pc = x.pc + 1 ∧ y.fbDone = true) ∧
    (s.mot.ffRel = false →
      ∃ t y, exec (.sWaitFf b sl) s = .next t ∧ sliceStep b sl s t y ∧ y.run = .waitFf ∧ y.pc = x.pc + 1) ∧
    (s.mot.ffRel = true →
      ∃ t y, exec (.sWaitFf b sl) s = .next t ∧ sliceStep b sl s t y ∧ y.run = .run ∧ y.pc = x.pc + 1 ∧ y.fbDone = true ∧
        y.ffDone = true)) ∧
  (∀ (b sl a : Nat) (x : SliceSt) (s : State), sliceClear b sl s x → x.sawOut = false → s.mot.servoRel = false →
    compared s b sl = false → rotating s b sl = false → x.ax0 = a → a < 255 → x.ax1 = 255 → a < s.mot.axes.length →
    hasBit ((assoc x.dmem 0xFCB).getD 0) 2 = false →
    ∃ t y, exec (.sOut b sl) s = .next t ∧ sliceSt t b sl = some y ∧ y.sawOut = true ∧ y.pc = x.pc + 1 ∧
      (axSt t a).handed = true ∧ (axSt t a).dsp = (assoc x.dmem 0xFC8).getD 0 ∧ (axSt t a).vffo = (assoc x.dmem 0xFC9).getD 0 ∧
      (axSt t a).tffo = (assoc x.dmem 0xFCA).getD 0 ∧ (axSt t a).ref = (axSt s a).ref ∧ onlyAt a s.mot.axes t.mot.axes ∧
      only [.mot] s t) ∧
  (∀ (b sl : Nat) (x : SliceSt) (s : State), sliceSt s b sl = some x → canRun x = true → x.sawOut = true →
    x.inSlot = false → x.illegal = 0 → rotating s b sl = false →
    ∃ t y, exec (.sOut b sl) s = .next t ∧ sliceSt t b sl = some y ∧ y.illegal = 6 ∧ t.mot.axes = s.mot.axes ∧
      logged 0x0541 (16 * b + sl) s t) ∧
  (∀ (b sl : Nat) (x : SliceSt) (s : State), sliceClear b sl s x → x.illegal = 0 → compared s b sl = false →
    rotating s b sl = false →
    ∃ t y, exec (.sEnd b sl) s = .next t ∧ sliceSt t b sl = some y ∧ y.run = .idle ∧ y.sawEnd = true ∧
      y.sat = stBit (commit x) 3 ∧ y.v = stBit (commit x) 2 ∧ y.dmem = x.dmem ∧ t.mot.axes = s.mot.axes ∧ only [.mot] s t) ∧
  (∀ (b : Nat) (x y : SliceSt) (s : State), b < s.mot.spares.length → (spareSt s b).spst = 0 → (spareSt s b).comparing = true →
    sliceSt s b (spareSt s b).rot = some x → sliceSt s b 8 = some y → s.image.compat = false →
    (x.sawOut = true → y.sawOut = true → x.outW ≠ y.outW →
      (spareSt (compareOut b 8 s) b).divcnt = satAdd 255 (spareSt s b).divcnt 1 ∧
      (spareSt (compareOut b 8 s) b).selftest = some (spareSt s b).rot ∧
      logged 0x0543 (16 * b + (spareSt s b).rot) s (compareOut b 8 s)) ∧
    (x.outW = y.outW → compareOut b 8 s = s) ∧
    (x.sawEnd = true → y.sawEnd = true → endDigest x = endDigest y →
      (spareSt (compareEnd b 8 s) b).cmpcnt = satAdd 0xFFFFFFFF (spareSt s b).cmpcnt 1 ∧
      (spareSt (compareEnd b 8 s) b).comparing = false ∧ quiet s (compareEnd b 8 s)) ∧
    (x.sawEnd = true → y.sawEnd = true → endDigest x ≠ endDigest y →
      (spareSt (compareEnd b 8 s) b).selftest = some (spareSt s b).rot ∧
      logged 0x0543 (16 * b + (spareSt s b).rot) s (compareEnd b 8 s))) ∧
  (∀ (b sl : Nat) (x : SliceSt) (s : State), b < s.mot.spares.length → (spareSt s b).selftest = some sl →
    sl < 8 → sliceSt s b sl = some x → x.run ≠ .stopped → x.run ≠ .retired →
    ∃ t y, exec (.spareSelftestDone b true) s = .next t ∧ sliceSt t b sl = some y ∧ y.run = .stopped ∧ y.fcause = 6) ∧
  (∀ (b : Nat) (s : State), b < s.mot.spares.length → (spareSt s b).spst = 0 → (spareSt s b).selftest.isSome = true →
    (spareSt s b).takeNext = none →
    ∃ t, exec (.spareSelftestDone b false) s = .next t ∧ (spareSt t b).spst = 2 ∧ (spareSt t b).failed = true ∧
      logged 0x0545 (16 * b + 8) s t ∧ onlyAt b s.mot.spares t.mot.spares ∧ t.mot.axes = s.mot.axes ∧
      only [.chip, .mot, .saf] s t) ∧
  (∀ (b : Nat) (s : State), b < s.mot.spares.length → (spareSt s b).spst = 0 → (spareSt s b).rot = 8 →
    (spareSt s b).takeNext = none →
    (∃ t, exec (.spareFullSelftestDone b true) s = .next t ∧ (spareSt t b).spst = 0 ∧ (spareSt t b).comparing = false ∧
      (∀ c k, (c ≠ b ∨ k ≠ 8) → sliceSt t c k = sliceSt s c k) ∧ t.mot.axes = s.mot.axes ∧ quiet s t ∧ only [.mot] s t) ∧
    ∃ t, exec (.spareFullSelftestDone b false) s = .next t ∧ (spareSt t b).spst = 2 ∧ (spareSt t b).failed = true ∧
      logged 0x0545 (16 * b + 8) s t ∧ onlyAt b s.mot.spares t.mot.spares ∧ t.mot.axes = s.mot.axes ∧
      only [.chip, .mot, .saf] s t)

/-- R307, R309, R311, R315: Once per tick SAF decides: a raised STO cause of a running, scaled or stopping group decides STO; a
raised stop cause of a running or scaled one decides SS1-r, and a moving group is STOPPING; without a cause a group is SCALED
below scale 1 and RUN otherwise; an acknowledge whose conditions hold takes a group from Cloche to RUN. Commands that complete
here, each as the clause of its name says: safDecision. -/
def Obligations.SafetyDecision : Prop :=
  (∀ (g c : Nat) (off : Bool) (s : State), nodeMode s = false → s.mot.fin = false → (slackSt s 6).missNow = false → g < 16 →
    g < s.saf.g.length → (grpCfg s g).defined = true → s.pair.role ≠ 2 → c < 21 → hasBit (safG s g).stoReq c = true →
    ((safG s g).state = .run ∨ (safG s g).state = .scaled ∨ (safG s g).state = .ss1r) →
    ∃ t, exec (.safDecision off) s = .next t ∧ (safG t g).state = .sto ∧ (safG t g).stocause ≤ c ∧
      (safG t g).tsto = s.time.tickno % 2 ^ 24 ∧ t.mot.fin = true ∧
      only [.chip, .time, .recd, .axio, .mot, .trl, .saf, .host, .pair] s t) ∧
  (∀ (g c : Nat) (off : Bool) (s : State), nodeMode s = false → s.mot.fin = false → (slackSt s 6).missNow = false → g < 16 →
    g < s.saf.g.length → g < s.mot.groups.length → (grpCfg s g).defined = true → s.pair.role ≠ 2 → c < 21 →
    hasBit (safG s g).stopReq c = true → stoCauses s g false = [] → ((safG s g).state = .run ∨ (safG s g).state = .scaled) →
    ∃ t, exec (.safDecision off) s = .next t ∧ (safG t g).state = .ss1r ∧ (safG t g).cause ≤ c ∧
      (safG t g).decTick = s.time.tickno ∧ ((grpSt s g).state = .moving → (grpSt t g).state = .stopping)) ∧
  (∀ (g : Nat) (off : Bool) (s : State), nodeMode s = false → s.mot.fin = false → (slackSt s 6).missNow = false → g < 16 →
    g < s.saf.g.length → (grpCfg s g).defined = true → stopCauses s g false = [] → stoCauses s g false = [] →
    s.time.tickno % 16 ≠ g → (∀ c, (chSt s c).limTrip = false) → classB s g = false → slsSits s g = [] →
    ((safG s g).state = .run ∨ (safG s g).state = .scaled) →
    ∃ t, exec (.safDecision off) s = .next t ∧
      (safG t g).state = (if hasSolTrl s = true ∧ (trlG s g).scale < 32768 then .scaled else .run)) ∧
  (∀ (g : Nat) (off : Bool) (s : State), nodeMode s = false → s.mot.fin = false → (slackSt s 6).missNow = false → g < 16 →
    g < s.saf.g.length → g < s.mot.groups.length → (grpCfg s g).defined = true → (safG s g).state = .cloche →
    (safG s g).ackEdge = true → mayLeave s g = true → s.time.tickno % 16 ≠ g → (∀ c, (chSt s c).limTrip = false) →
    classB s g = false → slsSits s g = [] →
    ∃ t, exec (.safDecision off) s = .next t ∧ (safG t g).state = .run ∧ (safG t g).cause = 0 ∧ (safG t g).aLatch = false ∧
      (grpSt t g).leave = 1) ∧
  (∀ (off : Bool) (s : State), (nodeMode s = true ∨ s.mot.fin = true ∨ (slackSt s 6).missNow = true) → exec (.safDecision off) s = .next s)

/-- R310, R316, R321, R300, R301, R311, R313, R314: A group in SS1-r that has stood still for NSTILL ticks is decided STO with cause
18, and at TSS1MAX with cause 19; a group whose restart conditions held long enough leaves Cloche; a degraded group whose time
has run out stops with cause 10 and its restart stays blocked. Outside RUN of the power state, and for a group that is STO or in
Cloche, the STO line is low; two equal refresh words, or none in time, drive every line low until a reset, with SAF_REFRESH; a
line that reads back wrong is driven low and its group is decided STO with cause 20. A failed refresh as a class A fault of
every group without an escalation is the model's choice (log 82). Commands that complete here, each as the clause of its name
says: stoLineSwitch, standstill, ss1Timeout, autoRestart, degradedExpiry, stoRefresh, refreshTimeout, stoReadback. -/
def Obligations.StopsAndTorqueLines : Prop :=
  (∀ (g : Nat) (s : State), g < s.saf.g.length → (safG s g).state = .ss1r → max 1 (grpCfg s g).nstill ≤ (safG s g).still →
    ∃ t, exec (.standstill g) s = .next t ∧ (safG t g).state = .sto ∧ (safG t g).stocause = 18 ∧
      (safG t g).cause = (safG s g).cause ∧ (safG t g).tsto = s.time.tickno % 2 ^ 24 ∧ onlyAt g s.saf.g t.saf.g ∧
      logged 0x0802 g s t ∧ only [.chip, .mot, .saf] s t) ∧
  (∀ (g : Nat) (s : State), (safG s g).still < max 1 (grpCfg s g).nstill → exec (.standstill g) s = .next s) ∧
  (∀ (g : Nat) (s : State), g < s.saf.g.length → (safG s g).state = .ss1r →
    (grpCfg s g).tss1max ≤ s.time.tickno - (safG s g).decTick →
    ∃ t, exec (.ss1Timeout g) s = .next t ∧ (safG t g).state = .sto ∧ (safG t g).stocause = 19 ∧
      (safG t g).cause = (safG s g).cause ∧ onlyAt g s.saf.g t.saf.g ∧ only [.chip, .mot, .saf] s t) ∧
  (∀ (g : Nat) (s : State), s.time.tickno - (safG s g).decTick < (grpCfg s g).tss1max →
    exec (.ss1Timeout g) s = .next s) ∧
  (∀ (g : Nat) (s : State), g < s.saf.g.length → g < s.mot.groups.length → restartOk s g = true →
    max 1 (grpCfg s g).nres ≤ (safG s g).nres →
    ∃ t, exec (.autoRestart g) s = .next t ∧ (safG t g).state = .run ∧ (safG t g).cause = 0 ∧
      (grpSt t g) = { grpSt s g with leave := 2 } ∧ onlyAt g s.saf.g t.saf.g ∧ onlyAt g s.mot.groups t.mot.groups ∧
      quiet s t ∧ only [.mot, .saf] s t) ∧
  (∀ (g : Nat) (s : State), (grpCfg s g).autores = false → exec (.autoRestart g) s = .next s) ∧
  (∀ (g : Nat) (s : State), g < s.saf.g.length → (safG s g).deg = true → (safG s g).tleft = 0 →
    ((safG s g).state = .run ∨ (safG s g).state = .scaled) →
    ∃ t, exec (.degradedExpiry g) s = .next t ∧ (safG t g).state = .ss1r ∧ (safG t g).cause = 10 ∧
      (safG t g).expBlock = true ∧ (safG t g).decTick = s.time.tickno ∧ onlyAt g s.saf.g t.saf.g ∧
      only [.chip, .mot, .trl, .saf] s t) ∧
  (∀ (g : Nat) (s : State), 0 < (safG s g).tleft → exec (.degradedExpiry g) s = .next s) ∧
  (∀ (s : State), s.saf.dead = false → nodeMode s = false → s.pair.role ≠ 2 →
    ∃ t, exec .stoLineSwitch s = .next t ∧
      (∀ g, g < 16 → (hasBit t.saf.lineCmd g = true ↔ s.chip.pstate = .run ∧ (grpCfg s g).defined = true ∧
        ((safG s g).state = .run ∨ (safG s g).state = .scaled ∨ (safG s g).state = .ss1r) ∧
        hasBit s.saf.rberr g = false)) ∧
      t.saf.g = s.saf.g ∧ quiet s t ∧ only [.axio, .saf, .pair] s t) ∧
  (∀ (s : State), (s.saf.dead = true ∨ nodeMode s = true) →
    ∃ t, exec .stoLineSwitch s = .next t ∧ quiet s t ∧ only [.axio] s t) ∧
  (∀ (g a c : Nat) (s : State), g < 16 → (grpCfg s g).defined = true → (safG s g).state = .sto → a ∈ axesOf s g →
    (axisCfg s a).dst = .axio c → c < s.axio.length →
    ∃ t, exec .stoLineSwitch s = .next t ∧ (chSt t c).sched = [] ∧ (chSt t c).schedNext = [] ∧
      (chSt t c).stepped = (chSt s c).issued) ∧
  (∀ (w : Bool) (s : State), s.saf.dead = false → s.saf.withheld = false →
    (s.saf.refreshSeen = false ∨ s.saf.refreshWord ≠ w) →
    ∃ t, exec (.stoRefresh w) s = .next t ∧ t.saf = { s.saf with refreshSeen := true, refreshWord := w } ∧ quiet s t ∧
      only [.saf] s t) ∧
  (∀ (w : Bool) (s : State), s.saf.dead = false → s.saf.withheld = false → s.saf.refreshSeen = true → s.saf.refreshWord = w →
    ∃ t, exec (.stoRefresh w) s = .next t ∧ t.saf.dead = true ∧ t.saf.lineCmd = 0 ∧ t.saf.lastA = 0x0804 ∧
      t.pair.vote = false ∧ logged 0x0804 0 s t ∧ only [.chip, .recd, .saf, .pair] s t) ∧
  (∀ (s : State), s.saf.dead = false →
    ∃ t, exec .refreshTimeout s = .next t ∧ t.saf.dead = true ∧ t.saf.lineCmd = 0 ∧ t.saf.lastA = 0x0804 ∧
      t.pair.vote = false ∧ (∀ g, g < s.saf.g.length → g < 16 → (grpCfg s g).defined = true →
        (safG t g).aLatch = true ∧ hasBit (safG t g).stopReq 9 = true) ∧
      logged 0x0804 0 s t ∧ only [.chip, .recd, .saf, .pair] s t) ∧
  (∀ (l : Mask) (s : State), (l ^^^ s.saf.lineCmd) &&& defined s &&& ~~~ s.saf.rberr = 0 →
    ∃ t, exec (.stoReadback l) s = .next t ∧ t.saf = { s.saf with level := l } ∧ quiet s t ∧ only [.saf] s t) ∧
  (∀ (l : Mask) (g : Nat) (s : State), g < 16 → g < s.saf.g.length →
    (l ^^^ s.saf.lineCmd) &&& defined s &&& ~~~ s.saf.rberr = bitOf 16 g →
    ((safG s g).state = .run ∨ (safG s g).state = .scaled ∨ (safG s g).state = .ss1r) →
    ∃ t, exec (.stoReadback l) s = .next t ∧ hasBit t.saf.rberr g = true ∧ hasBit t.saf.lineCmd g = false ∧
      (safG t g).state = .sto ∧ (safG t g).stocause = 20 ∧ (safG t g).aLatch = true ∧ (safG t g).rbBlock = true ∧
      onlyAt g s.saf.g t.saf.g ∧ only [.chip, .recd, .mot, .saf] s t)

/-- R301, R302: A wrong signature of SAF's own checks withholds the refresh and escalates, as the voltage monitor escalates the
chip, each with a class A fault of every group; above 110 °C the chip escalates, above 105 °C a class B condition holds until
the temperature falls. That a trip escalates in the region CHIP is the model's choice (log 38). Commands that complete here,
each as the clause of its name says: flowSignatureCheck, voltageMonitorTrip, temperatureMonitorTrip, temperatureMonitorClear. -/
def Obligations.Monitors : Prop :=
  (∀ (sig : Word) (s : State),
    ∃ t, exec (.flowSignatureCheck true sig) s = .next t ∧ t.saf = { s.saf with sig := sig } ∧ quiet s t ∧ only [.saf] s t) ∧
  (∀ (sig : Word) (s : State), (regSt s .saf).escalated = false →
    ∃ t, exec (.flowSignatureCheck false sig) s = .next t ∧ t.saf.sig = sig ∧ t.saf.withheld = true ∧
      t.saf.lastA = 0x0850 ∧ t.chip.escalated = true ∧ (∀ g, g < s.saf.g.length → g < 16 → (grpCfg s g).defined = true →
        (safG t g).aLatch = true ∧ hasBit (safG t g).stopReq 9 = true ∧ hasBit (safG t g).stoReq 15 = true) ∧
      only [.chip, .time, .recd, .saf, .regions] s t) ∧
  (∀ (v : Nat) (s : State), (regSt s .chip).escalated = false →
    ∃ t, exec (.voltageMonitorTrip v) s = .next t ∧ t.saf.vcore = v % 256 ∧ t.saf.lastA = 0x0851 ∧ t.chip.escalated = true ∧
      (∀ g, g < s.saf.g.length → g < 16 → (grpCfg s g).defined = true →
        (safG t g).aLatch = true ∧ hasBit (safG t g).stopReq 9 = true ∧
        (hasBit (lent s) g = false → hasBit (safG t g).stopReq 15 = true)) ∧
      only [.chip, .time, .recd, .saf, .pair, .regions] s t) ∧
  (∀ (j : Nat) (s : State), 110 < j → (regSt s .chip).escalated = false →
    ∃ t, exec (.temperatureMonitorTrip j) s = .next t ∧ t.saf.tj = (j + 64) % 256 ∧ t.saf.lastA = 0x0852 ∧
      t.chip.escalated = true ∧ only [.chip, .time, .recd, .saf, .pair, .regions] s t) ∧
  (∀ (j : Nat) (s : State), 105 < j → j ≤ 110 → s.saf.bconds.any (fun c => c.src == 7) = false →
    ∃ t, exec (.temperatureMonitorTrip j) s = .next t ∧ t.saf.tj = (j + 64) % 256 ∧
      t.saf.bconds = s.saf.bconds ++ [{ src := 7, idx := 0, scope := defined s }] ∧ t.saf.g = s.saf.g ∧
      logged 0x0852 0 s t ∧ only [.chip, .saf] s t) ∧
  (∀ (j : Nat) (s : State), j ≤ 105 →
    ∃ t, exec (.temperatureMonitorClear j) s = .next t ∧ t.saf.tj = (j + 64) % 256 ∧
      (∀ c ∈ t.saf.bconds, ¬(c.src = 7 ∧ c.idx = 0)) ∧
      (∀ g, g < s.saf.g.length → g < 16 → (grpCfg s g).defined = true → hasBit (safG t g).aActive 2 = false ∧
        (safG t g).aLatch = (safG s g).aLatch) ∧ quiet s t ∧ only [.saf] s t) ∧
  (∀ (j : Nat) (s : State), 105 < j → exec (.temperatureMonitorClear j) s = .next s)

/-- R304, R305: A level that has held for SFILT is accepted, and a low channel of an evaluated pair is a demand at once; a
discrepancy and a pulse that reads wrong latch a class A fault of the line's groups with SAF_IN_DISC and SAF_IN_TEST; a pulse
that reads right ends its own fault condition. Commands that complete here, each as the clause of its name says: testPulse,
safetyInputChange, inputDiscrepancy. -/
def Obligations.SafetyInputs : Prop :=
  (∀ (i n : Nat) (chB : Bool) (s : State), nodeMode s = false → i < 12 → i < s.saf.pairs.length → evaluated s i = true →
    (inputCfg s i).sfilt ≤ n → nth s.saf.pulseUntil (sourceOf s i chB) ≤ s.time.tb →
    ∃ t, exec (.safetyInputChange i chB false n) s = .next t ∧ (lineSt t i).demand = true ∧
      (if chB then (lineSt t i).b = false ∧ (lineSt t i).a = (lineSt s i).a
        else (lineSt t i).a = false ∧ (lineSt t i).b = (lineSt s i).b) ∧
      (lineSt t i).flt = (lineSt s i).flt ∧ onlyAt i s.saf.pairs t.saf.pairs ∧ t.saf.g = s.saf.g ∧ quiet s t ∧
      only [.saf] s t) ∧
  (∀ (i n : Nat) (s : State), nodeMode s = false → i < 12 → i < s.saf.pairs.length → evaluated s i = true →
    (inputCfg s i).sfilt ≤ n → nth s.saf.pulseUntil (sourceOf s i true) ≤ s.time.tb → (lineSt s i).a = true → (lineSt s i).b = false → (lineSt s i).lowA = true →
    (lineSt s i).lowB = true → (lineSt s i).demand = true → (lineSt s i).disc = false →
    ∃ t, exec (.safetyInputChange i true true n) s = .next t ∧ (lineSt t i).demand = false ∧ (lineSt t i).b = true ∧
      onlyAt i s.saf.pairs t.saf.pairs ∧ quiet s t ∧ only [.saf] s t) ∧
  (∀ (i n : Nat) (chB high : Bool) (s : State), (n < lineFilt s i ∨ s.time.tb < nth s.saf.pulseUntil (sourceOf s i chB)) →
    exec (.safetyInputChange i chB high n) s = .next s) ∧
  (∀ (i : Nat) (s : State), i < 12 → i < s.saf.pairs.length → evaluated s i = true → (lineSt s i).a ≠ (lineSt s i).b →
    differsLong s i = true → (lineSt s i).disc = false →
    ∃ t, exec (.inputDiscrepancy i) s = .next t ∧ (lineSt t i).disc = true ∧ (lineSt t i).flt = true ∧
      (lineSt t i).demand = true ∧ t.saf.lastA = 0x0821 ∧
      (∀ g, g < s.saf.g.length → g < 16 → hasBit ((inputCfg s i).gmask &&& defined s) g = true →
        (safG t g).aLatch = true ∧ hasBit (safG t g).stopReq 9 = true) ∧
      onlyAt i s.saf.pairs t.saf.pairs ∧ logged 0x0821 i s t ∧ only [.chip, .recd, .saf] s t) ∧
  (∀ (i : Nat) (s : State), ((lineSt s i).a = (lineSt s i).b ∨ differsLong s i = false) →
    exec (.inputDiscrepancy i) s = .next s) ∧
  (∀ (p i : Nat) (lvA lvB : Mask) (s : State), nodeMode s = false → s.saf.pres = false → i < 12 → i < s.saf.pairs.length →
    p < 4 → (∀ k, k < 12 → k ≠ i → (inputCfg s k).func = 0) → (inputCfg s i).func ≠ 0 → (lineSt s i).a = true →
    (lineSt s i).b = true → (inputCfg s i).srcA = p → (inputCfg s i).srcB ≠ p → hasBit lvB i = true →
    (hasBit lvA i = true →
      ∃ t, exec (.testPulse p lvA lvB) s = .next t ∧ hasBit (lineSt t i).test p = true ∧ (lineSt t i).flt = true ∧
        t.saf.lastA = 0x0820 ∧ onlyAt i s.saf.pairs t.saf.pairs ∧ logged 0x0820 i s t ∧ only [.chip, .recd, .saf] s t) ∧
    (hasBit lvA i = false →
      ∃ t, exec (.testPulse p lvA lvB) s = .next t ∧ hasBit (lineSt t i).test p = false ∧
        (lineSt t i).flt = (lineSt s i).flt ∧ onlyAt i s.saf.pairs t.saf.pairs ∧ t.saf.g = s.saf.g ∧ quiet s t ∧
        only [.saf] s t))

/-- R324 to R326: The first valid copy of a PDU opens its window; an equal copy on the other network is accepted with it, a
different one is a class A fault with SAF_PDU_MISMATCH and neither is accepted; a window that closes accepts its one copy; a
copy that fails a check raises SAF_PDU_BAD and is not used; a network late beyond WDOG is a class B condition, both a class A
fault. A class B condition that lasts while a network is late is the model's choice (log 81). Commands that complete here, each
as the clause of its name says: pduCopyReceived, pduCompareWindowExpiry, pduWatchdog. -/
def Obligations.SafetyPdus : Prop :=
  (∀ (nb : Bool) (p : Nat) (d : Pdu) (s : State), regionUp .host s = true → nodeMode s = false → rxOf s d.id = some p →
    p < s.saf.rx.length → copySound (rxCfg s p) d = true → lateCopy (rxSt s p) nb d = false → (rxSt s p).window = none →
    (rxSt s p).lastSeq = none →
    ∃ t, exec (.pduCopyReceived nb d) s = .next t ∧ (rxSt t p).window = some (nb, d) ∧
      (rxSt t p).accepted = (rxSt s p).accepted ∧ onlyAt p s.saf.rx t.saf.rx ∧ quiet s t ∧ only [.saf] s t) ∧
  (∀ (nb : Bool) (p : Nat) (d w : Pdu) (s : State), regionUp .host s = true → nodeMode s = false → rxOf s d.id = some p →
    p < s.saf.rx.length → copySound (rxCfg s p) d = true → lateCopy (rxSt s p) nb d = false →
    (rxSt s p).window = some (!nb, w) → sameBytes w d = true →
    ∃ t, exec (.pduCopyReceived nb d) s = .next t ∧ (rxSt t p).window = none ∧ (rxSt t p).accepted = some w ∧
      (rxSt t p).lastSeq = some w.seq ∧ (rxSt t p).oneCopy = false ∧ onlyAt p s.saf.rx t.saf.rx ∧ quiet s t ∧
      only [.chip, .saf, .host] s t) ∧
  (∀ (nb : Bool) (p : Nat) (d w : Pdu) (s : State), regionUp .host s = true → nodeMode s = false → rxOf s d.id = some p →
    p < s.saf.rx.length → copySound (rxCfg s p) d = true → lateCopy (rxSt s p) nb d = false →
    (rxSt s p).window = some (!nb, w) → w.seq = d.seq →
    sameBytes w d = false →
    ∃ t, exec (.pduCopyReceived nb d) s = .next t ∧ (rxSt t p).window = none ∧
      (rxSt t p).accepted = (rxSt s p).accepted ∧ (rxSt t p).mism = satAdd 255 (rxSt s p).mism 1 ∧
      t.saf.lastA = 0x0830 ∧ onlyAt p s.saf.rx t.saf.rx ∧ logged 0x0830 p s t ∧ only [.chip, .recd, .saf] s t) ∧
  (∀ (nb : Bool) (p : Nat) (d : Pdu) (s : State), regionUp .host s = true → nodeMode s = false → rxOf s d.id = some p →
    copySound (rxCfg s p) d = false → s.chip.once.contains (0x0833, p) = false →
    ∃ t, exec (.pduCopyReceived nb d) s = .next t ∧ t.saf = s.saf ∧ logged 0x0833 p s t ∧ only [.chip] s t) ∧
  (∀ (p : Nat) (nb : Bool) (d : Pdu) (s : State), p < s.saf.rx.length → (rxSt s p).window = some (nb, d) →
    (rxSt s p).openedAt + 2000000 ≤ s.time.tb →
    ∃ t, exec (.pduCompareWindowExpiry p) s = .next t ∧ (rxSt t p).window = none ∧ (rxSt t p).accepted = some d ∧
      (rxSt t p).oneCopy = true ∧ (rxSt t p).onecnt = satAdd 0xFFFF (rxSt s p).onecnt 1 ∧ onlyAt p s.saf.rx t.saf.rx ∧
      quiet s t ∧ only [.chip, .saf, .host] s t) ∧
  (∀ (p : Nat) (s : State), ((rxSt s p).window = none ∨ s.time.tb < (rxSt s p).openedAt + 2000000) → exec (.pduCompareWindowExpiry p) s = .next s) ∧
  (∀ (p : Nat) (s : State), nodeMode s = false → p < s.saf.rx.length → (rxCfg s p).defined = true →
    pduLate s p false = true → (rxSt s p).lateA = false →
    ((rxSt s p).lateB = false →
      ∃ t, exec (.pduWatchdog p false) s = .next t ∧ (rxSt t p).lateA = true ∧ (rxSt t p).lateB = false ∧
        (∃ c ∈ t.saf.bconds, c.src = 5 ∧ c.idx = p) ∧ onlyAt p s.saf.rx t.saf.rx ∧ t.saf.g = s.saf.g ∧
        logged 0x0831 p s t ∧ only [.chip, .saf] s t) ∧
    ((rxSt s p).lateB = true →
      ∃ t, exec (.pduWatchdog p false) s = .next t ∧ (rxSt t p).lateA = true ∧ t.saf.lastA = 0x0832 ∧
        (∀ g, g < s.saf.g.length → g < 16 → hasBit ((rxCfg s p).gmask &&& defined s) g = true →
          (safG t g).aLatch = true ∧ hasBit (safG t g).stopReq 9 = true) ∧
        onlyAt p s.saf.rx t.saf.rx ∧ logged 0x0832 p s t ∧ only [.chip, .recd, .saf] s t)) ∧
  (∀ (p : Nat) (b : Bool) (s : State), pduLate s p b = false → exec (.pduWatchdog p b) s = .next s)

/-- R341 to R344, R143, R350, R351: The pendant is present once PEN_PRES has been closed for 200 ms; its loss is an emergency stop
of every group with SAF_PEND_ABSENT; a withdraw request that the conditions allow starts a bridge of 30 s, one that they do not
is refused; a bridge ends when its time has run out. The first identity block of a claimed tool decides its check: the digest
first, then the fields of the group's record; no block in 64 ticks is a mismatch; a spare silent for 32 ticks is free again, its
node no member and its tool gone. That the rows of the pendant stand for the E0 that sees the line is the model's choice (log
84). Commands that complete here, each as the clause of its name says: pendantPresent, pendantAbsent, withdrawRequest,
bridgeExpiry, toolIdentity, toolCheckTimeout, spareRelease. -/
def Obligations.PendantAndTools : Prop :=
  (∀ (k : Nat) (s : State), nodeMode s = false → s.saf.pres = false → s.saf.presSince = some k →
    k + 200000000 ≤ s.time.tb →
    ∃ t, exec .pendantPresent s = .next t ∧ t.saf.pres = true ∧ t.saf.bridge = false ∧ t.saf.presLost = false ∧
      t.saf.g = s.saf.g ∧ logged 0x0870 0 s t ∧ only [.chip, .saf] s t) ∧
  (∀ (k : Nat) (s : State), s.saf.presSince = some k → s.time.tb < k + 200000000 → exec .pendantPresent s = .next s) ∧
  (∀ (s : State), s.saf.pres = true → (lineSt s 14).a = false → s.saf.bridge = false →
    ∃ t, exec .pendantAbsent s = .next t ∧ t.saf.pres = false ∧ t.saf.presLost = true ∧
      (∀ g, g < s.saf.g.length → g < 16 → (grpCfg s g).defined = true → hasBit (safG t g).stopReq 16 = true) ∧
      logged 0x0871 0 s t ∧ only [.chip, .saf] s t) ∧
  (∀ (s : State), s.saf.pres = true → (lineSt s 14).a = false → s.saf.bridge = true →
    ∃ t, exec .pendantAbsent s = .next t ∧ t.saf.pres = false ∧ t.saf.bridge = false ∧ t.saf.presLost = s.saf.presLost ∧
      t.saf.g = s.saf.g ∧ quiet s t ∧ only [.saf] s t) ∧
  (∀ (s : State), withdrawDue s = true → s.saf.bridge = false → withdrawOk s = true →
    ∃ t, exec .withdrawRequest s = .next t ∧ t.saf.bridge = true ∧ t.saf.brleft = 30000000000 ∧ t.saf.wdArmed = false ∧
      logged 0x0872 0 s t ∧ only [.chip, .saf] s t) ∧
  (∀ (s : State), withdrawDue s = true → s.saf.bridge = false → withdrawOk s = false →
    ∃ t, exec .withdrawRequest s = .next t ∧ t.saf = { s.saf with wdArmed := false } ∧ logged 0x0873 0 s t ∧
      only [.chip, .saf] s t) ∧
  (∀ (s : State), withdrawDue s = false → exec .withdrawRequest s = .next s) ∧
  (∀ (s : State), s.saf.bridge = true → s.saf.brleft = 0 →
    ∃ t, exec .bridgeExpiry s = .next t ∧ t.saf = { s.saf with bridge := false } ∧ quiet s t ∧ only [.saf] s t) ∧
  (∀ (s : State), 0 < s.saf.brleft → exec .bridgeExpiry s = .next s) ∧
  (∀ (g : Nat) (b : IdBlock) (s : State), g < s.mot.groups.length → (grpSt s g).claimed = true →
    (grpSt s g).toolWait.isSome = true → (grpCfg s g).tsrc = 2 →
    (b.digest = (grpSt s g).toolDig → b.id.vendor = (grpCfg s g).toolId.vendor → b.id.product = (grpCfg s g).toolId.product →
      b.id.toolType = (grpCfg s g).toolId.toolType → (grpCfg s g).toolId.hw ≤ b.id.hw → b.id.nax = (grpCfg s g).toolId.nax →
      ((grpCfg s g).toolId.serial = 0 ∨ b.id.serial = (grpCfg s g).toolId.serial) →
      ∃ t, exec (.toolIdentity g b) s = .next t ∧
        grpSt t g = { grpSt s g with toolOk := true, tres := 1, toolWait := none } ∧ onlyAt g s.mot.groups t.mot.groups ∧
        logged 0x0530 g s t ∧ only [.chip, .mot] s t) ∧
    (b.digest ≠ (grpSt s g).toolDig →
      ∃ t, exec (.toolIdentity g b) s = .next t ∧
        grpSt t g = { grpSt s g with toolOk := false, tres := 3, toolWait := none } ∧ onlyAt g s.mot.groups t.mot.groups ∧
        logged 0x0531 g s t ∧ only [.chip, .mot] s t) ∧
    (b.digest = (grpSt s g).toolDig → b.id.vendor ≠ (grpCfg s g).toolId.vendor →
      ∃ t, exec (.toolIdentity g b) s = .next t ∧
        grpSt t g = { grpSt s g with toolOk := false, tres := 4, toolWait := none } ∧ onlyAt g s.mot.groups t.mot.groups ∧
        logged 0x0531 g s t ∧ only [.chip, .mot] s t)) ∧
  (∀ (g : Nat) (b : IdBlock) (s : State), (grpSt s g).toolWait = none → exec (.toolIdentity g b) s = .next s) ∧
  (∀ (g k : Nat) (s : State), g < s.mot.groups.length → (grpSt s g).toolWait = some k → k + 64 < s.time.tickno →
    ∃ t, exec (.toolCheckTimeout g) s = .next t ∧
      grpSt t g = { grpSt s g with toolOk := false, tres := 2, toolWait := none } ∧ onlyAt g s.mot.groups t.mot.groups ∧
      logged 0x0531 g s t ∧ only [.chip, .mot] s t) ∧
  (∀ (g k : Nat) (s : State), (grpSt s g).toolWait = some k → s.time.tickno ≤ k + 64 →
    exec (.toolCheckTimeout g) s = .next s) ∧
  (∀ (r j : Nat) (s : State), regionUp .ring s = true → r < s.ring.length → j < (ringSt s r).nodes.length → j < 32 →
    isMaster s r = true → (nodeSt s r j).spare = true → 32 ≤ (nodeSt s r j).quiet →
    ∃ t, exec (.spareRelease r j) s = .next t ∧ (nodeSt t r j).spare = false ∧ hasBit (ringSt t r).members j = false ∧
      (∀ g c, g < 16 → g < s.mot.groups.length → (grpCfg s g).defined = true → (grpCfg s g).tsrc = 2 →
        (grpCfg s g).toolRing = r → c ∈ (ringCfg s r).spares → c.node = j → c.id = (grpCfg s g).toolSpare →
        (grpSt t g).claimed = false ∧ (grpSt t g).toolOk = false) ∧
      onlyAt r s.ring t.ring ∧ quiet s t ∧ only [.ring, .mot] s t)

/-- R360, R358: A commit of an item leaves its RESULT with the core: 4 for a flow of another type, then 1 without room, 2 while the
flow is disabled, 3 at MAXPEND, 5 for a deadline before the release, else 0; an accepted item has the lowest free handle and
stands among the pending items or on a core; a refused one changes no item. A timer flow gets its item of a period once, with
the number of the period as argument and its instant as release time; an event-bound flow gets an item with its event code and
the number of raises; without raises nothing happens. The order of the RESULT codes is the model's choice (log 87). Commands
that complete here, each as the clause of its name says: enqueue, timerEnqueue, boundEnqueue. -/
def Obligations.WorkQueues : Prop :=
  (∀ (c now f dl rl : Nat) (s : State), regionStopped .host s = false → c < s.host.cores.length → tlFlow s (.core c) = none →
    f = (nth (coreSt s c).enq 0).toNat % 1024 →
    dl = (if (nth (coreSt s c).enq 2).toNat + (nth (coreSt s c).enq 3).toNat * 2 ^ 32 = 0 then now + (flowCfg s f).reldl
      else (nth (coreSt s c).enq 2).toNat + (nth (coreSt s c).enq 3).toNat * 2 ^ 32) →
    rl = (if (nth (coreSt s c).enq 4).toNat + (nth (coreSt s c).enq 5).toNat * 2 ^ 32 = 0 then now
      else (nth (coreSt s c).enq 4).toNat + (nth (coreSt s c).enq 5).toNat * 2 ^ 32) →
    ∃ t, exec (.enqueue c now) s = .next t ∧ t.chip.resp = .done ∧ (coreSt t c).enqValid = true ∧
      (coreSt t c).enqResult =
        (if (flowCfg s f).type ≠ 1 then 4 else if noRoom s then 1 else if (flowSt s f).en = false then 2
         else if (flowCfg s f).maxpend ≤ (pendOf s f).length then 3 else if dl < rl then 5 else 0) ∧
      ((coreSt t c).enqResult ≠ 0 → t.host.items = s.host.items) ∧
      (∀ h, (coreSt t c).enqResult = 0 → freeHandle s = some h → s.host.cores.length = 8 →
        (coreSt t c).enqHandle = h ∧ ∃ i, itemOf t h = some i ∧ i.flow = f ∧ i.deadline = dl ∧ i.release = rl ∧
          i.arg = nth (coreSt s c).enq 1) ∧
      only [.chip, .time, .host] s t) ∧
  (∀ (f m h : Nat) (s : State), regionUp .host s = true → f < s.host.flows.length → s.host.cores.length = 8 →
    (flowCfg s f).type = 1 → (flowCfg s f).tperiod ≠ 0 → s.time.run = true → (flowSt s f).timerNext ≤ m → m < 2 ^ 32 →
    enqResult s false f (s.time.tstart + m * (flowCfg s f).tperiod + (flowCfg s f).reldl)
      (s.time.tstart + m * (flowCfg s f).tperiod) = 0 → freeHandle s = some h →
    ∃ t i, exec (.timerEnqueue f m) s = .next t ∧ (flowSt t f).timerNext = m + 1 ∧ itemOf t h = some i ∧ i.flow = f ∧
      i.arg = BitVec.ofNat 32 m ∧ i.release = s.time.tstart + m * (flowCfg s f).tperiod ∧
      i.deadline = s.time.tstart + m * (flowCfg s f).tperiod + (flowCfg s f).reldl ∧ only [.chip, .time, .host] s t) ∧
  (∀ (f m : Nat) (s : State), (m < (flowSt s f).timerNext ∨ (flowCfg s f).tperiod = 0 ∨ s.time.run = false) →
    exec (.timerEnqueue f m) s = .next s) ∧
  (∀ (f now n h : Nat) (s : State), regionUp .host s = true → s.host.cores.length = 8 → (flowCfg s f).type = 3 →
    32 ≤ (flowCfg s f).bind → assoc s.chip.bound f = some n → pendOf s f = [] →
    enqResult s false f (now + (flowCfg s f).reldl) now = 0 → freeHandle s = some h →
    ∃ t i, exec (.boundEnqueue f now) s = .next t ∧ itemOf t h = some i ∧ i.flow = f ∧
      i.arg = BitVec.ofNat 32 ((flowCfg s f).bind + 65536 * min 0xFFFF n) ∧ i.release = now ∧
      only [.chip, .time, .host] s t) ∧
  (∀ (f now : Nat) (s : State), ((flowCfg s f).type ≠ 3 ∨ assoc s.chip.bound f = none) →
    exec (.boundEnqueue f now) s = .next s)

/-- R362, R364 to R367: An item whose release time has passed is released; a write to CDONE ends the item of a core with its run
time noted, a tick-locked one holds its core until its output is copied, and the copy is then held for the release; an item
beyond MAXRUN ends; a deadline counts a miss once, and MISSACT keeps the item, ends it, or ends it and disables the flow.
Commands that complete here, each as the clause of its name says: itemReleaseTime, itemDone, tlOutputCopyDone, itemOverrun,
itemDeadline. -/
def Obligations.WorkItems : Prop :=
  (∀ (h now : Nat) (i : Item) (s : State), regionUp .host s = true → s.host.cores.length = 8 →
    s.host.items.filter (fun j => j.handle == h) = [i] → i.release ≤ now → snapComplete s now i.flow = true →
    (∀ c, ∀ k ∈ (coreSt s c).item, k.handle ≠ h) →
    ∃ t, exec (.itemReleaseTime h now) s = .next t ∧ itemOf t h = some { i with released := true } ∧
      only [.chip, .time, .host] s t) ∧
  (∀ (c now : Nat) (i : Item) (s : State), regionStopped .host s = false → c < s.host.cores.length →
    i.flow < s.host.flows.length → (coreSt s c).item = some i → (flowCfg s i.flow).type = 1 → s.host.items = [] →
    ∃ t, exec (.itemDone c now) s = .next t ∧ t.chip.resp = .done ∧ (coreSt t c).item = none ∧
      (flowSt t i.flow).last = min 0xFFFF ((now - (coreSt s c).started) / 1000) ∧
      (flowSt t i.flow).maxseen = max (flowSt s i.flow).maxseen (min 0xFFFF ((now - (coreSt s c).started) / 1000)) ∧
      only [.chip, .time, .host] s t) ∧
  (∀ (c now : Nat) (i : Item) (s : State), regionStopped .host s = false → c < s.host.cores.length →
    i.flow < s.host.flows.length → (coreSt s c).item = some i → (flowCfg s i.flow).type = 2 →
    ∃ t, exec (.itemDone c now) s = .next t ∧ t.chip.resp = .done ∧ (coreSt t c).item = none ∧
      (coreSt t c).copying = some i ∧ (flowSt t i.flow).ended = some (outBuffer s c i.flow) ∧ only [.chip, .time, .host] s t) ∧
  (∀ (c f now : Nat) (i : Item) (s : State), regionUp .host s = true → c < 8 → c < s.host.cores.length →
    f < s.host.flows.length → (coreSt s c).copying = some i → i.flow = f →
    (∀ k j, k < c → (coreSt s k).copying = some j → j.flow ≠ f) →
    ∃ t, exec (.tlOutputCopyDone f now) s = .next t ∧ (coreSt t c).copying = none ∧
      (flowSt t f).held = (flowSt s f).ended ∧ (flowSt t f).ended = none ∧ only [.chip, .time, .host] s t) ∧
  (∀ (f now : Nat) (s : State), (∀ c, (coreSt s c).copying = none) → exec (.tlOutputCopyDone f now) s = .next s) ∧
  (∀ (c now : Nat) (i : Item) (s : State), regionUp .host s = true → c < s.host.cores.length → (coreSt s c).item = some i →
    (flowCfg s i.flow).type = 1 → (flowCfg s i.flow).maxrun ≠ 0 → s.host.items = [] → now < i.deadline →
    (flowCfg s i.flow).maxrun * 1000 < now - (coreSt s c).started →
    ∃ t, exec (.itemOverrun c now) s = .next t ∧ (coreSt t c).item = none ∧
      (flowSt t i.flow).misscnt = (flowSt s i.flow).misscnt ∧ only [.chip, .time, .host] s t) ∧
  (∀ (c now : Nat) (s : State), (coreSt s c).item = none → exec (.itemOverrun c now) s = .next s) ∧
  (∀ (h now : Nat) (i : Item) (s : State), regionUp .host s = true → itemOf s h = some i → i.flow < s.host.flows.length →
    (flowCfg s i.flow).type ≠ 2 → i.deadline ≤ now → i.late = false → overrunCore s h now (flowCfg s i.flow) = none →
    ((flowCfg s i.flow).missact = 0 →
      ∃ t, exec (.itemDeadline h now) s = .next t ∧ itemOf t h = some { i with late := true } ∧
        (flowSt t i.flow).misscnt = satAdd 0xFFFF (flowSt s i.flow).misscnt 1 ∧
        (flowSt t i.flow).en = (flowSt s i.flow).en ∧ only [.chip, .time, .host] s t) ∧
    ((flowCfg s i.flow).missact = 2 → (flowCfg s i.flow).type = 1 →
      ∃ t, exec (.itemDeadline h now) s = .next t ∧ (flowSt t i.flow).en = false ∧
        (flowSt t i.flow).misscnt = satAdd 0xFFFF (flowSt s i.flow).misscnt 1 ∧ only [.chip, .time, .host] s t)) ∧
  (∀ (h now : Nat) (s : State), itemOf s h = none → exec (.itemDeadline h now) s = .next s)

/-- R86, R355, R359, R369, R370, R134, R372, R373: A trap of an ordinary item goes to the machine trap vector with the interrupt
enable saved and cleared; a trap of a tick-locked one, as a store of it outside its memory (R86), ends it, marks its groups and
makes its output invalid; EN enables and disables a flow; a publish buffer's flip waits for the next E0. A segment pushed by
firmware waits in the staging list for the next E0, where its queue takes pushes, with RESULT 0, and is refused with 1 when the
queue is full, 2 for a queue that takes none, 3 for a wrong length; a mailbox push enters its queue at once, as an acyclic frame
of the ring does. What a trap leaves in mstatus, and that it marks the groups of a tick-locked flow, are the model's choices
(log 31, 90), the room of staged segments its reading (log 92). Commands that complete here, each as the clause of its name
says: acyclicFrame, coreTrap, flowEnable, flowDisable, publishFlip, queuePush. -/
def Obligations.CoresFlowsAndQueues : Prop :=
  (∀ (c now : Nat) (i : Item) (s : State), regionUp .host s = true → c < s.host.cores.length → (coreSt s c).item = some i →
    (flowCfg s i.flow).type ≠ 2 →
    ∃ t, exec (.coreTrap c now) s = .next t ∧ (coreSt t c).pc = s.image.mtvec &&& 0xFFFFFFFC ∧
      (coreSt t c).item = some i ∧ (coreSt t c).x = (coreSt s c).x ∧ (coreSt t c).mstatus.getLsbD 3 = false ∧
      (coreSt t c).mstatus.getLsbD 7 = (coreSt s c).mstatus.getLsbD 3 ∧ (coreSt t c).mstatus.extractLsb' 11 2 = 3 ∧
      onlyAt c s.host.cores t.host.cores ∧ quiet s t ∧ only [.host, .free] s t) ∧
  (∀ (c now : Nat) (i : Item) (s : State), regionUp .host s = true → c < s.host.cores.length → (coreSt s c).item = some i →
    i.flow < s.host.flows.length → (flowCfg s i.flow).type = 2 → s.host.items = [] →
    ∃ t, exec (.coreTrap c now) s = .next t ∧ (coreSt t c).item = none ∧ (flowSt t i.flow).escaped = true ∧
      (flowSt t i.flow).valid = false ∧ only [.chip, .time, .host] s t) ∧
  (∀ (c now : Nat) (s : State), (coreSt s c).item = none → exec (.coreTrap c now) s = .next s) ∧
  (∀ (c q n now : Nat) (i : Item) (s : State), regionStopped .host s = false → c < 8 → c < s.host.cores.length →
    (coreSt s c).item = some i → i.flow < s.host.flows.length → (flowCfg s i.flow).type = 2 → s.host.items = [] →
    ∀ j ∈ ([.enqueue c now, .queuePush c q n, .queueAck (.core c) q n] : List Instr),
    ∃ t, exec j s = .next t ∧ (coreSt t c).item = none ∧ (flowSt t i.flow).escaped = true ∧ (flowSt t i.flow).valid = false ∧
      t.host.queues = s.host.queues ∧ t.host.staging = s.host.staging ∧ only [.chip, .time, .host] s t) ∧
  (∀ (f now : Nat) (s : State), regionStopped .host s = false → f < s.host.flows.length →
    ∃ t, exec (.flowEnable f now) s = .next t ∧ (flowSt t f).en = true ∧ t.chip.resp = .done ∧
      only [.chip, .time, .host] s t) ∧
  (∀ (f : Nat) (s : State), regionStopped .host s = false → f < s.host.flows.length →
    ∃ t, exec (.flowDisable f) s = .next t ∧ flowSt t f = { flowSt s f with en := false } ∧ t.chip.resp = .done ∧
      t.host.items = s.host.items ∧ t.host.cores = s.host.cores ∧ onlyAt f s.host.flows t.host.flows ∧ quiet s t ∧
      only [.chip, .host] s t) ∧
  (∀ (b : Nat) (s : State), regionStopped .host s = false → b < 64 →
    ∃ t, exec (.publishFlip b) s = .next t ∧ t.host = { s.host with pubFlip := s.host.pubFlip ||| bitOf 64 b } ∧
      t.chip.resp = .done ∧ quiet s t ∧ only [.chip, .host] s t) ∧
  (∀ (c q len : Nat) (s : State), regionStopped .host s = false → tlFlow s (.core c) = none →
    c < s.host.cores.length → q < 16 →
    ∃ t, exec (.queuePush c q len) s = .next t ∧ t.chip.resp = .done ∧ (coreSt t c).pushValid = true ∧
      (coreSt t c).pushResult =
        (if maxGroups s ≤ q ∨ nodeMode s = true ∨ (queueCfg s q).fw = false then 2 else if len ≠ 160 then 3
         else if 64 ≤ (grpSt s q).queue.length + (s.host.staging.filter (fun p => p.1 == q)).length then 1 else 0) ∧
      t.host.staging = (if (coreSt t c).pushResult = 0 then s.host.staging ++ [(q, parseSeg (stagedBytes (coreSt s c) len))] else s.host.staging) ∧
      quiet s t ∧ only [.chip, .host] s t) ∧
  (∀ (c q len : Nat) (s : State), regionStopped .host s = false → tlFlow s (.core c) = none →
    c < s.host.cores.length → q < s.host.queues.length → 16 ≤ q → q < 24 → 1 ≤ len → len ≤ 1536 → qFull s q = false →
    ∃ t, exec (.queuePush c q len) s = .next t ∧ t.chip.resp = .done ∧ (coreSt t c).pushResult = 0 ∧
      (queueSt t q).entries = (queueSt s q).entries ++ [{ bytes := stagedBytes (coreSt s c) len }] ∧
      onlyAt q s.host.queues t.host.queues ∧ t.host.staging = s.host.staging ∧ quiet s t ∧ only [.chip, .host] s t) ∧
  (∀ (c q len : Nat) (s : State), regionStopped .host s = false → tlFlow s (.core c) = none →
    c < s.host.cores.length → 24 ≤ q →
    ∃ t, exec (.queuePush c q len) s = .next t ∧ t.chip.resp = .done ∧ (coreSt t c).pushResult = 2 ∧
      t.host.queues = s.host.queues ∧ t.host.staging = s.host.staging ∧ quiet s t ∧ only [.chip, .host] s t) ∧
  (∀ (r q a : Nat) (ccw : Bool) (h : RingHead) (data : List Byte) (s : State), regionUp .ring s = true → (ringSt s r).role ≠ 0 →
    (ringSt s r).state ≠ .down → r < s.ring.length → frameOk s r h = true → (ringCfg s r).mailbox = q → 16 ≤ q → q < 24 → q < s.host.queues.length →
    qFull s q = false →
    ∃ t, exec (.acyclicFrame r ccw a h data) s = .next t ∧
      (queueSt t q).entries = (queueSt s q).entries ++ [{ bytes := data }] ∧ onlyAt q s.host.queues t.host.queues ∧
      onlyAt r s.ring t.ring ∧ quiet s t ∧ only [.chip, .ring, .host] s t) ∧
  (∀ (r a : Nat) (ccw : Bool) (h : RingHead) (data : List Byte) (s : State), (ringSt s r).role = 0 →
    exec (.acyclicFrame r ccw a h data) s = .next s)

/-- R59 to R64: A Prune from firmware that finds its target takes it out of service: a waiting solver job, a pair batch, a pending
work item, a flow, a plant queue. It then runs until it completes, when its result and time stand in PRUNESTAT; a crossing
access ends with an error token when the Prune does, by the watchdog where its bound falls in the same period. With nothing to
prune RESULT is 1, for an unknown KIND or an unsigned region 2, and while one runs the write is discarded with CHIP_PRUNE_BUSY.
RESULT of an unknown region and ELAPSED of a Prune that ends at once are the model's choices (log 46). Commands that complete
here, each as the clause of its name says: pruneSolverJob, pruneTrellisBatch, pruneWorkItem, pruneFlow, pruneCrossingAccess,
prunePlantQueue, pruneRegion, pruneKindInvalid, pruneComplete. -/
def Obligations.Prunes : Prop :=
  (∀ (p : Nat) (s : State), s.chip.prunes = [] → hasSolTrl s = true → p < s.sol.probs.length → (probCfg s p).op ≠ 0 →
    (probSt s p).job = .waiting →
    ∃ t, exec (.pruneSolverJob p) s = .next t ∧ probSt t p = { probSt s p with pruned := true, warm := none, job := .gone } ∧
      t.chip.prunes = [{ kind := 1, index := p }] ∧ t.chip.resp = .done ∧ onlyAt p s.sol.probs t.sol.probs ∧ quiet s t ∧
      only [.chip, .time, .sol] s t) ∧
  (∀ (p : Nat) (s : State), s.chip.prunes = [] → hasSolTrl s = true → (probSt s p).job = .none →
    ∃ t, exec (.pruneSolverJob p) s = .next t ∧ t.chip.pruneResult = 1 ∧ t.chip.pruneKind = 1 ∧ t.chip.prunes = [] ∧
      t.chip.resp = .done ∧ quiet s t ∧ only [.chip, .free] s t) ∧
  (∀ (b : Nat) (s : State), s.chip.prunes = [] → hasSolTrl s = true → b < s.trl.batches.length →
    nth s.trl.batches b = (false, false) →
    ∃ t, exec (.pruneTrellisBatch b) s = .next t ∧ nth t.trl.batches b = (false, true) ∧
      t.chip.prunes = [{ kind := 2, index := b }] ∧ t.chip.resp = .done ∧ onlyAt b s.trl.batches t.trl.batches ∧ quiet s t ∧
      only [.chip, .time, .trl] s t) ∧
  (∀ (h : Nat) (i : Item) (s : State), s.chip.prunes = [] → s.host.items.find? (fun j => j.handle == h) = some i →
    coreOfHandle s h = none →
    ∃ t, exec (.pruneWorkItem h) s = .next t ∧ t.host.items = s.host.items.filter (fun j => j.handle != h) ∧
      t.chip.prunes = [{ kind := 3, index := h }] ∧ t.chip.resp = .done ∧ only [.chip, .time, .host] s t) ∧
  (∀ (f : Nat) (s : State), s.chip.prunes = [] → f < s.host.flows.length → (flowCfg s f).type = 1 →
    ∃ t, exec (.pruneFlow f) s = .next t ∧ (flowSt t f).en = false ∧ (∀ i ∈ t.host.items, i.flow ≠ f) ∧
      t.chip.prunes = [{ kind := 4, index := f }] ∧ t.chip.resp = .done ∧ only [.chip, .time, .host] s t) ∧
  (∀ (id : Nat) (a : XAccess) (s : State), s.chip.prunes = [] → requesterAbsent s id = false → xPending s id = some a →
    ∃ t, exec (.pruneCrossingAccess id) s = .next t ∧ t.chip.xPend = s.chip.xPend ∧ t.chip.resp = .done ∧
      t.chip.prunes = [{ kind := 5, index := id }] ∧ quiet s t ∧ only [.chip] s t) ∧
  (∀ (q : Nat) (s : State), s.chip.prunes = [] → q < 8 → q / 2 < s.host.ports.length →
    ∃ t, exec (.prunePlantQueue q) s = .next t ∧
      (if q % 2 = 0 then (nth t.host.ports (q / 2)).fwd = [] ∧ (nth t.host.ports (q / 2)).dev = (nth s.host.ports (q / 2)).dev
        else (nth t.host.ports (q / 2)).dev = [] ∧ (nth t.host.ports (q / 2)).fwd = (nth s.host.ports (q / 2)).fwd) ∧
      (nth t.host.ports (q / 2)).wire = (nth s.host.ports (q / 2)).wire ∧
      t.chip.prunes = [{ kind := 6, index := q }] ∧ t.chip.resp = .done ∧ onlyAt (q / 2) s.host.ports t.host.ports ∧
      quiet s t ∧ only [.chip, .host] s t) ∧
  (∀ (id : Nat) (r : Region) (s : State), s.chip.prunes = [] → s.image.compat = false → Region.ofId id = some r → r ≠ .chip →
    r ≠ .saf → r ≠ .time → regionNeeded s r = false → regionAbsent s r = false → (regSt s r).pruned = false →
    r.id < s.regions.length →
    ∃ t, exec (.pruneRegion id true) s = .next t ∧ (regSt t r).pruned = true ∧ onlyAt r.id s.regions t.regions ∧
      (r = .ring → ∀ k, k < s.ring.length → (ringSt t k).state = .down) ∧ (r = .host → t.host.items = []) ∧ quiet s t) ∧
  (∀ (id : Nat) (s : State), s.chip.prunes = [] →
    ∃ t, exec (.pruneRegion id false) s = .next t ∧ t.chip.pruneResult = 2 ∧ t.chip.pruneKind = 7 ∧ t.chip.prunes = [] ∧
      logged 0x0130 0 s t ∧ only [.chip, .free] s t) ∧
  (∀ (k : Nat) (s : State), s.chip.prunes = [] → (k % 16 = 0 ∨ 8 ≤ k % 16) →
    ∃ t, exec (.pruneKindInvalid k) s = .next t ∧ t.chip.pruneResult = 2 ∧ t.chip.pruneKind = k % 16 ∧ t.chip.prunes = [] ∧
      quiet s t ∧ only [.chip, .free] s t) ∧
  (∀ (n : Nat) (s : State) (p : PruneSt) (i : Instr), p ∈ s.chip.prunes → p.signed = false →
    (i = .pruneSolverJob n ∨ i = .pruneTrellisBatch n ∨ i = .pruneWorkItem n ∨ i = .pruneFlow n ∨
      i = .pruneCrossingAccess n ∨ i = .prunePlantQueue n ∨ i = .pruneRegion n false ∨ i = .pruneKindInvalid 0) →
    ∃ t, exec i s = .next t ∧ t.chip.prunes = s.chip.prunes ∧ t.chip.resp = .done ∧ logged 0x0131 0 s t ∧
      only [.chip] s t) ∧
  (∀ (n : Nat) (b : Bool) (p : PruneSt) (s : State), s.chip.prunes = [p] → p.signed = false → p.kind ≠ 1 → p.kind ≠ 5 →
    s.chip.rrst = [] → s.host.items = [] →
    ∃ t, exec (.pruneComplete false n b) s = .next t ∧ t.chip.prunes = [] ∧ t.chip.pruneResult = p.result ∧
      t.chip.pruneKind = p.kind ∧ t.chip.pruneElapsed = min 0xFFFF n ∧ quiet s t ∧ only [.chip] s t) ∧
  (∀ (n : Nat) (p : PruneSt) (a : XAccess) (s : State), s.chip.prunes = [p] → p.signed = false → p.kind = 5 →
    s.chip.rrst = [] → s.host.items = [] → xPending s p.index = some a →
    (∃ t, exec (.pruneComplete false n false) s = .next t ∧ t.chip.prunes = [] ∧ t.chip.pruneKind = 5 ∧
      t.chip.xPend = s.chip.xPend.eraseP (fun x => x.who == p.index) ∧ t.chip.resp = .errorToken ∧
      t.chip.xHang = s.chip.xHang ∧ quiet s t ∧ only [.chip] s t) ∧
    (∃ t, exec (.pruneComplete false n true) s = .next t ∧ t.chip.prunes = [] ∧
      t.chip.xPend = s.chip.xPend.eraseP (fun x => x.who == p.index) ∧ t.chip.resp = .errorToken ∧
      t.chip.xHang = satAdd 0xFFFF s.chip.xHang 1))

/-- R41 to R47, R67, R195, R399: A faulted servo slice stops and its spare takes over at the next E0, while an error that was
corrected is only counted; a faulted channel of AXIO is retired with null feedback; a fault in SAF withholds the refresh; faults
of the region-level units act as their chapters say; a parity error of the interconnect latches class A and escalates with SS1-r
of every group. When a retired unit leaves service and the events of unit faults are the model's choices (log 43, 44), the scope
of a parity error its reading (log 42). Commands that complete here, each as the clause of its name says: sliceFault,
regionUnitFault, interconnectParityError. -/
def Obligations.Faults : Prop :=
  (∀ (b sl c : Nat) (x : SliceSt) (s : State), b < 8 → sl < 8 → b < s.mot.spares.length → sliceServes s .mot b sl = true →
    sliceSt s b sl = some x → x.run ≠ .stopped → x.run ≠ .retired → s.image.compat = false → (spareSt s b).spst = 0 →
    (spareSt s b).takeNext = none → c ≠ 0 → 5 < s.regions.length →
    ∃ t y, exec (.sliceFault .mot b sl c) s = .next t ∧ sliceSt t b sl = some y ∧ y.run = .stopped ∧ y.fcause = c ∧
      y.fpc = x.pc ∧ (spareSt t b).takeNext = some sl ∧ 16 * b + sl ∈ (regSt t .mot).faulted) ∧
  (∀ (b sl c : Nat) (s : State), chanBlock s.fuse.variant * b + sl < s.axio.length → sliceServes s .axio b sl = true →
    s.image.compat = false → c ≠ 0 →
    ∃ t, exec (.sliceFault .axio b sl c) s = .next t ∧ (chSt t (chanBlock s.fuse.variant * b + sl)).retired = true ∧
      (chSt t (chanBlock s.fuse.variant * b + sl)).fbNull = true ∧
      (∀ g, g < 16 → hasBit (groupsOfChan s (chanBlock s.fuse.variant * b + sl)) g = true → hasBit t.saf.aNext g = true)) ∧
  (∀ (c : Nat) (s : State), (regSt s .saf).escalated = false → c ≠ 0 → 8 < s.regions.length →
    ∃ t, exec (.sliceFault .saf 0 0 c) s = .next t ∧ t.saf.withheld = true ∧ t.chip.escalated = true ∧
      (regSt t .saf).escalated = true) ∧
  (∀ (r : Region) (b sl c : Nat) (s : State), r ≠ .chip → r ≠ .time → r ≠ .saf → sliceServes s r b sl = false →
    exec (.sliceFault r b sl c) s = .next s) ∧
  (∀ (b sl : Nat) (x : SliceSt) (s : State), b < 8 → sliceServes s .mot b sl = true → sliceSt s b sl = some x →
    ∃ t, exec (.sliceFault .mot b sl 0) s = .next t ∧ sliceSt t b sl = some { x with cecnt := satAdd 0xFFFF x.cecnt 1 } ∧
      quiet s t ∧ only [.mot] s t) ∧
  (∀ (p : Nat) (s : State), hasSolTrl s = true → p < s.sol.probs.length → (probCfg s p).op ≠ 0 →
    ∃ t, exec (.regionUnitFault (.problemStore p)) s = .next t ∧
      probSt t p = { probSt s p with lost := true, dead := true } ∧ onlyAt p s.sol.probs t.sol.probs ∧
      logged 0x0630 p s t ∧ only [.chip, .sol] s t) ∧
  (∀ (s : State), hasSolTrl s = true → s.sol.unitLost = false →
    ∃ t, exec (.regionUnitFault .deltaGate) s = .next t ∧ t.sol = { s.sol with unitLost := true } ∧ logged 0x06E3 0 s t ∧
      only [.chip, .sol] s t) ∧
  (∀ (s : State), (regSt s .host).escalated = false →
    ∃ t, exec (.regionUnitFault .scheduler) s = .next t ∧ t.chip.escalated = true ∧ t.saf.lastA = 0x09E3) ∧
  (∀ (s : State), s.host.cryptoFault = false → s.image.compat = false →
    ∃ t, exec (.regionUnitFault .cryptoEngine) s = .next t ∧ t.host.cryptoFault = true ∧ t.host.vq = [] ∧ t.host.held = [] ∧
      only [.chip, .host] s t) ∧
  (∀ (p : Nat) (s : State), p < 4 → p < s.host.ports.length → (nth s.host.ports p).bad = false → s.image.compat = false →
    ∃ t, exec (.regionUnitFault (.plantPort p)) s = .next t ∧ (nth t.host.ports p).bad = true ∧
      (nth t.host.ports p).up = false ∧ onlyAt p s.host.ports t.host.ports ∧ only [.chip, .host] s t) ∧
  (∀ (s : State), (regSt s .chip).escalated = false →
    ∃ t, exec .interconnectParityError s = .next t ∧ t.chip.escalated = true ∧ t.saf.lastA = 0x0140 ∧
      (∀ g, g < 16 → g < s.saf.g.length → (grpCfg s g).defined = true → (safG t g).aLatch = true) ∧
      (∀ g, g < 16 → g < s.saf.g.length → (grpCfg s g).defined = true → hasBit (lent s) g = false →
        hasBit (safG t g).stopReq 15 = true) ∧
      only [.chip, .time, .recd, .saf, .pair, .regions] s t)

/-- R401, R406, R407, R409, R411, R415, R421, R484, R485: START_SEQUENCE takes the valid image and the rings listen, at once or
after time lock; without a valid slot, or on a flash outside the limits, the device is in NOIMAGE with CHIP_NO_IMAGE; when
TLOCKWAIT has run out it goes on with CHIP_START_NOLOCK. Outside reset START_SEQUENCE does nothing. A region whose groups stand
is restarted on request and runs again with its reload, with CHIP_RRST_DONE; another request is refused with CHIP_RRST_REFUSED;
a black-box record takes the next position; the test-access sequence at power-on blows OPENED and nothing else does. Which
request of a restart is refused in corners that R415 does not name, and that a failed record uses its position, are the model's
choices (log 47, 22). Commands that complete here, each as the clause of its name says: startSequence, tlockwaitExpiry,
regionRestart, regionRestartDone, blackboxProgrammed, testModeEntry. -/
def Obligations.StartAndRestart : Prop :=
  (∀ (pid : Bool) (vio : List Bool) (im : Image) (s : State), s.chip.phase = .reset → s.chip.escalated = false →
    flashOk s.flash = true → s.flash.slotA = some im → s.flash.slotB = none → headerOk s.flash im = true →
    profileApplies s.fuse.variant im = false → imageReason s.fuse.variant s.fuse.keyDigest vio im im = 0 → im.profile = 0 →
    ∃ t, exec (.startSequence pid [] vio) s = .next t ∧ t.image = im ∧ t.chip.phase = .ringStart ∧ t.chip.slot = false ∧
      t.chip.fallback = false ∧ (∀ r, r < 2 → (ringSt t r).role ≠ 0 → (ringSt t r).state = .listen) ∧
      t.fuse = s.fuse ∧ t.flash = s.flash ∧ t.conf = s.conf ∧ quiet s t) ∧
  (∀ (pid : Bool) (f : List (Region × Nat × Nat)) (vio : List Bool) (s : State), s.chip.phase = .reset →
    flashOk s.flash = true → s.flash.slotA = none → s.flash.slotB = none →
    ∃ t, exec (.startSequence pid f vio) s = .next t ∧ t.chip.phase = .noImage ∧ t.image = s.image ∧ logged 0x0156 0 s t ∧
      only [.chip] s t) ∧
  (∀ (pid : Bool) (f : List (Region × Nat × Nat)) (vio : List Bool) (s : State), s.chip.phase = .reset →
    (s.flash.size < 16777216 ∨ 268435456 < s.flash.size ∨ s.flash.octal = false) →
    ∃ t, exec (.startSequence pid f vio) s = .next t ∧ t.chip.phase = .noImage ∧ t.image = s.image ∧ only [.chip] s t) ∧
  (∀ (pid : Bool) (f : List (Region × Nat × Nat)) (vio : List Bool) (s : State), s.chip.phase ≠ .reset →
    exec (.startSequence pid f vio) s = .next s) ∧
  (∀ (s : State), s.chip.phase = .tlockWait →
    ∃ t, exec .tlockwaitExpiry s = .next t ∧ t.chip.phase = .ringStart ∧
      (∀ r, r < s.ring.length → (ringSt s r).role ≠ 0 → (ringSt t r).state = .listen) ∧ logged 0x0160 0 s t ∧
      only [.chip, .ring] s t) ∧
  (∀ (s : State), s.chip.phase ≠ .tlockWait → exec .tlockwaitExpiry s = .next s) ∧
  (∀ (id : Nat) (r : Region) (s : State), Region.ofId id = some r → restartable s id false = true → s.chip.rrst = [] →
    s.chip.prunes = [] → (regSt s r).restarting = false → r.id < s.regions.length →
    ∃ t, exec (.regionRestart id) s = .next t ∧ (regSt t r).restarting = true ∧ t.chip.rrst = [(id, none)] ∧
      t.chip.resp = .done ∧ onlyAt r.id s.regions t.regions ∧ quiet s t) ∧
  (∀ (id : Nat) (s : State), restartable s id false = false →
    ∃ t, exec (.regionRestart id) s = .next t ∧ t.chip.rrstRefused = true ∧ t.chip.rrst = s.chip.rrst ∧
      t.chip.resp = .done ∧ logged 0x0173 0 s t ∧ only [.chip] s t) ∧
  (∀ (id : Nat) (r : Region) (o : Option Origin) (s : State), s.chip.rrst = [(id, o)] → Region.ofId id = some r →
    (regSt s r).restarting = true → r.id < s.regions.length →
    ∃ t, exec .regionRestartDone s = .next t ∧ (regSt t r).restarting = false ∧ (regSt t r).pruned = false ∧
      t.chip.rrst = [] ∧ onlyAt r.id s.regions t.regions ∧ logged 0x0172 0 s t) ∧
  (∀ (s : State), s.chip.rrst = [] → exec .regionRestartDone s = .next s) ∧
  (∀ (r : BbRec) (q : List BbRec) (s : State), s.chip.bbWait = r :: q → s.chip.bbPos % 16 < 14 →
    (∃ t x, exec (.blackboxProgrammed true) s = .next t ∧ t.chip.bbWait = q ∧ t.chip.bbPos = (s.chip.bbPos + 1) % 480 ∧
      assoc t.chip.bbDone s.chip.bbPos = some x ∧ x.trigger = r.trigger ∧ x.code = r.code ∧
      x.rseq = newestRseq s + 1 ∧ quiet s t ∧ only [.chip, .mem] s t) ∧
    (∃ t, exec (.blackboxProgrammed false) s = .next t ∧ t.chip.bbWait = q ∧ t.chip.bbPos = (s.chip.bbPos + 1) % 480 ∧
      t.chip.bbDone = s.chip.bbDone ∧ logged 0x0181 0 s t ∧ only [.chip] s t)) ∧
  (∀ (ok : Bool) (s : State), s.chip.bbWait = [] → exec (.blackboxProgrammed ok) s = .next s) ∧
  (∀ (s : State), s.chip.phase = .reset → s.chip.rstKind = 1 →
    ∃ t, exec (.testModeEntry true) s = .next t ∧ t.fuse = { s.fuse with opened := true } ∧ t.chip.testMode = true ∧
      quiet s t ∧ only [.chip, .fuse] s t) ∧
  (∀ (ok : Bool) (s : State), (s.chip.phase ≠ .reset ∨ s.chip.rstKind ≠ 1 ∨ ok = false) →
    exec (.testModeEntry ok) s = .next s)

/-- R396, R401, R412, R413, R419, R459: A power-on reset clears memory, and every other reset keeps DRAM, the recording ring and TB;
every reset keeps the fuses and the confirmation records and writes its kind; a commanded reset waits for its reply, in a pair
for its INPUT frame; the watchdog's reset waits for the groups to stand, or 60 s. That every reset but power-on keeps all of
DRAM and a supply reset acts as power-on is the model's reading (log 21, 105), the start of the watchdog its choice (log 106).
Commands that complete here, each as the clause of its name says: resetBegin, powerOnReset, externalReset, supplyMonitorReset,
wdogKick, wdogExpiry, wdogReset. -/
def Obligations.Resets : Prop :=
  (∀ (fl : Option Flash) (s : State),
    ∃ t, exec (.powerOnReset fl) s = .next t ∧ t.mem = [] ∧ t.fuse = s.fuse ∧ t.conf = s.conf ∧
      t.flash = fl.getD s.flash ∧ t.chip.rstKind = 1 ∧ t.chip.rstCount = 0 ∧ t.chip.phase = .reset ∧ t.time.tb = 0 ∧
      t.image = State.reset.image ∧ t.saf = State.reset.saf ∧ t.mot = State.reset.mot ∧ t.host = State.reset.host ∧
      t.ring = State.reset.ring ∧ t.axio = State.reset.axio ∧ t.recd.on = false) ∧
  (∀ (s : State),
    ∃ t, exec .supplyMonitorReset s = .next t ∧ t.mem = [] ∧ t.fuse = s.fuse ∧ t.conf = s.conf ∧ t.flash = s.flash ∧
      t.chip.rstKind = 1 ∧ t.chip.phase = .reset ∧ t.saf = State.reset.saf) ∧
  (∀ (fl : Option Flash) (s : State), s.time.stopped = false →
    ∃ t, exec (.externalReset fl) s = .next t ∧ t.mem = s.mem.filter (fun c => c.1 < 0x8000000000) ∧ t.fuse = s.fuse ∧
      t.conf = s.conf ∧ t.flash = fl.getD s.flash ∧ t.chip.rstKind = 2 ∧
      t.chip.rstCount = satAdd 0xFFFF s.chip.rstCount 1 ∧ t.chip.phase = .reset ∧ t.time.tb = s.time.tb ∧
      t.recd.recs = s.recd.recs ∧ t.recd.ckpts = s.recd.ckpts ∧ t.saf = State.reset.saf ∧ t.mot = State.reset.mot) ∧
  (∀ (x : Nat × Nat × Nat) (s : State), s.chip.resetPending = some x →
    (resetWaits s x.2.1 x.2.2 = false ∨ x.1 + 20000000 ≤ s.time.tb) →
    ∃ t, exec .resetBegin s = .next t ∧ t.chip.rstKind = 4 ∧ t.chip.phase = .reset ∧ t.fuse = s.fuse ∧ t.conf = s.conf ∧
      t.flash = s.flash ∧ t.saf = State.reset.saf) ∧
  (∀ (x : Nat × Nat × Nat) (s : State), s.chip.resetPending = some x →
    resetWaits s x.2.1 x.2.2 = true → s.time.tb < x.1 + 20000000 → exec .resetBegin s = .next s) ∧
  (∀ (v : BitVec 8) (s : State),
    ∃ t, exec (.wdogKick v) s = .next t ∧ t.chip.resp = .done ∧
      (wdogRuns s = true → v = s.chip.wdogNext → t.chip.wdogNext = ~~~ v ∧ t.chip.wdogLeft = s.image.wdt) ∧
      (v ≠ s.chip.wdogNext → t.chip.wdogNext = s.chip.wdogNext ∧ t.chip.wdogLeft = s.chip.wdogLeft) ∧ quiet s t ∧
      only [.chip] s t) ∧
  (∀ (s : State), wdogRuns s = true → s.chip.wdogExpired = false → (regSt s .chip).escalated = false →
    ∃ t, exec .wdogExpiry s = .next t ∧ t.chip.wdogExpired = true ∧ t.chip.wdogAt = s.time.tb ∧ t.chip.escalated = true ∧ t.saf.lastA = 0x0170 ∧
      only [.chip, .time, .recd, .saf, .pair, .regions] s t) ∧
  (∀ (s : State), s.chip.wdogExpired = true → exec .wdogExpiry s = .next s) ∧
  (∀ (s : State), s.chip.wdogExpired = true →
    (s.chip.wdogAt + 60000000000 ≤ s.time.tb ∨ allStopped s (defined s) = true) →
    ∃ t, exec .wdogReset s = .next t ∧ t.chip.rstKind = 3 ∧ t.chip.phase = .reset ∧ t.chip.escReset = true ∧
      t.fuse = s.fuse ∧ t.saf = State.reset.saf) ∧
  (∀ (s : State), (s.chip.wdogExpired = false ∨
    allStopped s (defined s) = false ∧ s.time.tb < s.chip.wdogAt + 60000000000) → exec .wdogReset s = .next s)

/-- R385: Every reset and every start leave the last SEQ of each key at 0; stage 2 sets it to the SEQ of a command whose signature
is good; a command whose SEQ is not above it is refused with code 4, on arrival as after verification, and the last SEQ stays.
Commands that complete here, each as the clause of its name says: commandDatagram, verificationDone, resetBegin, powerOnReset,
externalReset, supplyMonitorReset, startSequence, wdogReset. -/
def Obligations.LastSequence : Prop :=
  (∀ (i : Instr) (s : State),
    ((∃ fl, i = .powerOnReset fl) ∨ i = .supplyMonitorReset ∨ (∃ fl, i = .externalReset fl) ∨
      (i = .resetBegin ∧
        ∃ x, s.chip.resetPending = some x ∧ (resetWaits s x.2.1 x.2.2 = false ∨ x.1 + 20000000 ≤ s.time.tb)) ∨
      (i = .wdogReset ∧ s.chip.wdogExpired = true ∧
        (s.chip.wdogAt + 60000000000 ≤ s.time.tb ∨ allStopped s (defined s) = true))) →
    ∃ t, exec i s = .next t ∧ ∀ k, (keySt t k).last = 0) ∧
  (∀ (pid : Bool) (f : List (Region × Nat × Nat)) (v : List Bool) (s : State), (∀ k, (keySt s k).last = 0) →
    ∃ t, exec (.startSequence pid f v) s = .next t ∧ ∀ k, (keySt t k).last = 0) ∧
  (∀ (c : HeldCmd) (q : List HeldCmd) (now : Nat) (s : State), regionUp .host s = true → s.host.vq = c :: q →
    c.d.rsOk = true → c.d.sigOk = true → (keySt s c.d.key).last < c.d.seq → c.d.key < s.host.keys.length →
    ∃ t, exec (.verificationDone now) s = .next t ∧ (keySt t c.d.key).last = c.d.seq ∧
      ∀ k, k ≠ c.d.key → (keySt t k).last = (keySt s k).last) ∧
  (∀ (c : HeldCmd) (q : List HeldCmd) (now : Nat) (s : State), regionUp .host s = true → s.host.vq = c :: q →
    c.d.rsOk = true → c.d.sigOk = true → c.d.seq ≤ (keySt s c.d.key).last →
    ∃ t, exec (.verificationDone now) s = .next t ∧ t.host.lastCode = 4 ∧ t.host.lastKey = c.d.key ∧
      t.host.held = s.host.held ∧ ∀ k, (keySt t k).last = (keySt s k).last) ∧
  (∀ (n : Net) (d : Datagram) (now : Nat) (s : State), regionUp .host s = true → takesCommands s = true → d.vers = 1 →
    d.lenOk = true → d.reservedOk = true → knownOpcode d.body = true → keyRole s d.key ≠ .empty → dupEntry s n d = none →
    roleAllows (keyRole s d.key) d.body = true → d.cellId = s.image.cellId →
    (d.body = .query ∨ (s.host.nonce ≠ 0 ∧ d.nonce = s.host.nonce)) → d.seq ≤ (keySt s d.key).last →
    ∃ t, exec (.commandDatagram n d now) s = .next t ∧ t.host.lastCode = 4 ∧ t.host.lastKey = d.key ∧
      t.host.vq = s.host.vq ∧ ∀ k, (keySt t k).last = (keySt s k).last)

/-- R383 to R386, R391, R392: A datagram that passes every check of arrival joins the verification queue and the history of its key,
and the active of a pair forwards it; a copy of an undecided command is discarded, a copy of a decided one gets the stored reply
again; the first check that fails decides the code. The intake queue in DETAIL of code 8 is the model's reading (log 95).
Commands that complete here, each as the clause of its name says: commandDatagram. -/
def Obligations.CommandArrival : Prop :=
  (∀ (n : Net) (d : Datagram) (now : Nat) (s : State), regionUp .host s = true → takesCommands s = true → d.vers = 1 →
    d.lenOk = true → d.reservedOk = true → knownOpcode d.body = true → keyRole s d.key ≠ .empty → dupEntry s n d = none →
    roleAllows (keyRole s d.key) d.body = true → d.cellId = s.image.cellId →
    (d.body = .query ∨ (s.host.nonce ≠ 0 ∧ d.nonce = s.host.nonce)) → (keySt s d.key).last < d.seq →
    d.relTick ≤ s.time.tickno + 2 ^ 22 → s.host.cryptoFault = false → s.host.vq.length < 16 → intakeCount s d.key < 256 →
    d.key < s.host.keys.length →
    ∃ t, exec (.commandDatagram n d now) s = .next t ∧
      t.host = { s.host with keys := t.host.keys, vq := s.host.vq ++ [{ d := d, net := n, at_ := now }] } ∧
      keySt t d.key = { keySt s d.key with
        hist := keepLast 64 (keySt s d.key).hist { seq := d.seq, digest := d.digest, nets := [n] } } ∧
      onlyAt d.key s.host.keys t.host.keys ∧ (s.pair.role = 1 → t.pair.forwarded = s.pair.forwarded ++ [(d.key, d.seq)]) ∧
      (s.pair.role ≠ 1 → t.pair = s.pair) ∧ quiet s t ∧ only [.host, .pair] s t) ∧
  (∀ (n : Net) (d : Datagram) (now : Nat) (h : HistEnt) (s : State), regionUp .host s = true → takesCommands s = true →
    d.vers = 1 → d.lenOk = true → d.reservedOk = true → knownOpcode d.body = true → keyRole s d.key ≠ .empty →
    dupEntry s n d = some h → h.digest = d.digest →
    ∃ t, exec (.commandDatagram n d now) s = .next t ∧ t.host.dupcnt = satAdd 0xFFFF s.host.dupcnt 1 ∧
      t.host.vq = s.host.vq ∧ t.host.refcnt = s.host.refcnt ∧
      t.host.sent = s.host.sent ++ (match h.reply with
        | some r => if h.decided = true ∧ repliesOut s = true then [{ r with net := n }] else []
        | none => []) ∧ only [.chip, .host] s t) ∧
  (∀ (n : Net) (d : Datagram) (now : Nat) (h : HistEnt) (s : State), regionUp .host s = true → takesCommands s = true →
    d.vers = 1 → d.lenOk = true → d.reservedOk = true → knownOpcode d.body = true → keyRole s d.key ≠ .empty →
    dupEntry s n d = some h → h.digest ≠ d.digest →
    ∃ t, exec (.commandDatagram n d now) s = .next t ∧ t.host.lastCode = 4 ∧ t.host.lastKey = d.key ∧
      t.host.refcnt = satAdd 0xFFFF s.host.refcnt 1 ∧ t.host.vq = s.host.vq ∧ only [.chip, .host] s t) ∧
  (∀ (n : Net) (d : Datagram) (now c x : Nat) (s : State), regionUp .host s = true → takesCommands s = true →
    d.vers = 1 → d.lenOk = true → d.reservedOk = true → knownOpcode d.body = true → keyRole s d.key ≠ .empty →
    dupEntry s n d = none → stage1 s d = some (c, x) →
    ∃ t, exec (.commandDatagram n d now) s = .next t ∧ t.host.lastCode = c ∧ t.host.lastKey = d.key ∧
      t.host.refcnt = satAdd 0xFFFF s.host.refcnt 1 ∧ t.host.vq = s.host.vq ∧
      ((nth s.host.nets (netNum n)).refusals = 0 → answered (originOf n d 0) c x [] s t) ∧ only [.chip, .host] s t) ∧
  (∀ (d : Datagram) (s : State), roleAllows (keyRole s d.key) d.body = false →
    stage1 s d = some (6, roleCode (keyRole s d.key))) ∧
  (∀ (d : Datagram) (s : State), roleAllows (keyRole s d.key) d.body = true → d.cellId ≠ s.image.cellId →
    stage1 s d = some (7, 1)) ∧
  (∀ (d : Datagram) (s : State), roleAllows (keyRole s d.key) d.body = true → d.cellId = s.image.cellId → d.body ≠ .query →
    (s.host.nonce = 0 ∨ d.nonce ≠ s.host.nonce) → stage1 s d = some (7, 2)) ∧
  (∀ (n : Net) (d : Datagram) (now c : Nat) (s : State), regionUp .host s = true → takesCommands s = true →
    ((d.vers ≠ 1 ∨ d.lenOk = false ∨ d.reservedOk = false) ∧ c = 1 ∨
      d.vers = 1 ∧ d.lenOk = true ∧ d.reservedOk = true ∧ knownOpcode d.body = false ∧ c = 10 ∨
      d.vers = 1 ∧ d.lenOk = true ∧ d.reservedOk = true ∧ knownOpcode d.body = true ∧ keyRole s d.key = .empty ∧ c = 2) →
    ∃ t, exec (.commandDatagram n d now) s = .next t ∧ t.host.lastCode = c ∧ t.host.lastKey = d.key ∧
      t.host.refcnt = satAdd 0xFFFF s.host.refcnt 1 ∧ t.host.vq = s.host.vq ∧ only [.chip, .host] s t) ∧
  (∀ (n : Net) (d : Datagram) (now : Nat) (s : State), takesCommands s = false →
    exec (.commandDatagram n d now) s = .next s)

/-- R383, R385, R387, R388, R394: Verification takes the head of its queue; a command with a valid signature and a SEQ above the
last is held for its release tick, or for the next E0 where RELTICK is 0 and allowed; a bad signature is refused with code 3, a
late one with code 5; QUERY is answered with 208 bytes. The last tick an active may still list is the model's reading (log 101).
Commands that complete here, each as the clause of its name says: verificationDone, query. -/
def Obligations.Verification : Prop :=
  (∀ (c : HeldCmd) (q : List HeldCmd) (now : Nat) (s : State), regionUp .host s = true → s.host.vq = c :: q →
    c.d.rsOk = true → c.d.sigOk = true → (keySt s c.d.key).last < c.d.seq → s.time.run = true → s.pair.role ≠ 1 →
    (c.d.relTick ≠ 0 ∧ nextTickAt s now ≤ c.d.relTick ∨ c.d.relTick = 0 ∧ allowsNow c.d.body = true) →
    c.d.key < s.host.keys.length →
    ∃ t, exec (.verificationDone now) s = .next t ∧ t.host.vq = q ∧
      t.host.held = s.host.held ++ [{ c with rel := if c.d.relTick = 0 then nextTickAt s now else c.d.relTick }] ∧
      keySt t c.d.key = { keySt s c.d.key with last := c.d.seq } ∧ onlyAt c.d.key s.host.keys t.host.keys ∧
      t.host.accepted = s.host.accepted ∧ t.host.sent = s.host.sent ∧ quiet s t ∧ only [.host] s t) ∧
  (∀ (c : HeldCmd) (q : List HeldCmd) (now : Nat) (s : State), regionUp .host s = true → s.host.vq = c :: q →
    (c.d.rsOk = false ∨ c.d.sigOk = false) →
    ∃ t, exec (.verificationDone now) s = .next t ∧ t.host.vq = q ∧ t.host.held = s.host.held ∧ t.host.lastCode = 3 ∧
      (∀ k, (keySt t k).last = (keySt s k).last) ∧ t.host.refcnt = satAdd 0xFFFF s.host.refcnt 1 ∧
      only [.chip, .host] s t) ∧
  (∀ (c : HeldCmd) (q : List HeldCmd) (now : Nat) (s : State), regionUp .host s = true → s.host.vq = c :: q →
    c.d.rsOk = true → c.d.sigOk = true → c.d.seq ≤ (keySt s c.d.key).last →
    ∃ t, exec (.verificationDone now) s = .next t ∧ t.host.vq = q ∧ t.host.held = s.host.held ∧
      answered (originOf c.net c.d 0) 4 ((keySt s c.d.key).last % 65536) [] s t ∧ only [.chip, .host] s t) ∧
  (∀ (c : HeldCmd) (q : List HeldCmd) (now : Nat) (s : State), regionUp .host s = true → s.host.vq = c :: q →
    c.d.rsOk = true → c.d.sigOk = true → (keySt s c.d.key).last < c.d.seq → s.time.run = true → s.pair.role ≠ 1 →
    (c.d.relTick ≠ 0 ∧ c.d.relTick < nextTickAt s now ∨ c.d.relTick = 0 ∧ allowsNow c.d.body = false) →
    ∃ t, exec (.verificationDone now) s = .next t ∧ t.host.vq = q ∧ t.host.held = s.host.held ∧
      answered (originOf c.net c.d 0) 5 0 [] s t ∧ only [.chip, .host] s t) ∧
  (∀ (now : Nat) (s : State), s.host.vq = [] → exec (.verificationDone now) s = .next s) ∧
  (∀ (o : Origin) (s : State), s.time.run = true →
    ∃ t, exec (.query o) s = .next t ∧
      t.host = { s.host with replies := s.host.replies ++ [mkReply o 0 0 (queryBody s) s] } ∧ quiet s t ∧ only [.host] s t) ∧
  (∀ (o : Origin) (s : State), s.time.run = false →
    ∃ t, exec (.query o) s = .next t ∧ answered o 0 0 (queryBody s) s t ∧ only [.chip, .host] s t) ∧
  (∀ (s : State), (queryBody s).length = 208)

/-- R218, R219, R233, R393, R400: SEGMENT enters all its segments or none; FLUSH empties the queues and halts what moves; HALT halts
what moves and keeps the queues; RESUME, ENABLE and DISABLE act when every group's state allows it; OVERRIDE writes OVR. A mask
that names a group absent is refused with code 12, one not defined with code 11, and then nothing else happens. The region and
offset in DETAIL of codes 12 and 11, and that a mask acts whole or not at all, are the model's (log 96, 97, 114). Commands that
complete here, each as the clause of its name says: segment, flush, halt, resume, enable, disable, override_, stop, ack. -/
def Obligations.MotionCommands : Prop :=
  (∀ (o : Origin) (g : Nat) (l : List Segment) (s : State), nodeMode s = false → g < maxGroups s → (grpCfg s g).defined = true →
    g < s.mot.groups.length → 1 ≤ l.length → l.length ≤ 4 → checkSegs s g l = none →
    ∃ t, exec (.segment o g l) s = .next t ∧ grpSt t g = { grpSt s g with queue := (grpSt s g).queue ++ l, newSegs := (grpSt s g).newSegs + l.length } ∧
      onlyAt g s.mot.groups t.mot.groups ∧ t.mot = { s.mot with groups := t.mot.groups } ∧ accepted18 o s t ∧ quiet s t ∧
      only [.mot, .host] s t) ∧
  (∀ (o : Origin) (g i r : Nat) (l : List Segment) (s : State), nodeMode s = false → g < maxGroups s →
    (grpCfg s g).defined = true → g < s.mot.groups.length → 1 ≤ l.length → l.length ≤ 4 → checkSegs s g l = some (i, r) →
    ∃ t, exec (.segment o g l) s = .next t ∧
      grpSt t g = { grpSt s g with reason := r, refcnt := satAdd 0xFFFF (grpSt s g).refcnt l.length } ∧
      onlyAt g s.mot.groups t.mot.groups ∧ t.host.replies = s.host.replies ++ [mkReply o 14 (256 * i + r) [] s] ∧
      only [.chip, .mot, .host] s t) ∧
  (∀ (o : Origin) (m : Mask) (s : State), groupsNamed s m →
    ∃ t, exec (.flush o m) s = .next t ∧
      (∀ g, g < s.mot.groups.length → hasBit m g = true → (grpSt t g).queue = [] ∧
        (grpSt t g).state = (if (grpSt s g).state = .moving ∨ (grpSt s g).state = .waitZone ∨ (grpSt s g).state = .waitSync
          then .halting else (grpSt s g).state)) ∧
      (∀ g, hasBit m g = false → grpSt t g = grpSt s g) ∧ t.mot = { s.mot with groups := t.mot.groups } ∧ accepted18 o s t ∧
      quiet s t ∧ only [.mot, .trl, .host] s t) ∧
  (∀ (o : Origin) (m : Mask) (s : State), groupsNamed s m →
    ∃ t, exec (.halt o m) s = .next t ∧
      (∀ g, g < s.mot.groups.length → hasBit m g = true → (grpSt t g).queue = (grpSt s g).queue ∧
        (grpSt t g).state = (if (grpSt s g).state = .moving then .halting
          else if (grpSt s g).state = .waitZone ∨ (grpSt s g).state = .waitSync then .halted else (grpSt s g).state)) ∧
      (∀ g, hasBit m g = false → grpSt t g = grpSt s g) ∧ t.mot = { s.mot with groups := t.mot.groups } ∧ accepted18 o s t ∧
      quiet s t ∧ only [.mot, .trl, .host] s t) ∧
  (∀ (o : Origin) (m : Mask) (s : State), groupsNamed s m → (∀ g, hasBit m g = true → (grpSt s g).state = .halted) →
    ∃ t, exec (.resume o m) s = .next t ∧
      (∀ g, hasBit m g = true → (grpSt t g).queue = (grpSt s g).queue ∧
        (grpSt t g).state = (if (grpSt s g).active.isSome = true then .moving else .idle)) ∧
      (∀ g, hasBit m g = false → grpSt t g = grpSt s g) ∧ t.mot = { s.mot with groups := t.mot.groups } ∧ accepted18 o s t ∧
      quiet s t ∧ only [.mot, .host] s t) ∧
  (∀ (o : Origin) (m : Mask) (g : Nat) (s : State), groupsNamed s m → hasBit m g = true → (grpSt s g).state ≠ .halted →
    ∃ t, exec (.resume o m) s = .next t ∧ refused18 o 13 1 s t) ∧
  (∀ (o : Origin) (m : Mask) (s : State), groupsNamed s m →
    (∀ g, hasBit m g = true → (grpSt s g).state.live = true ∨ enableRefusal s g = 0) →
    ∃ t, exec (.enable o m) s = .next t ∧
      (∀ g, g < s.mot.groups.length → hasBit m g = true → (grpSt s g).state.live = false →
        (grpSt t g).state = .enabling ∧ (grpSt t g).enableTick = s.time.tickno ∧ (grpSt t g).queue = (grpSt s g).queue) ∧
      (∀ g, (hasBit m g = false ∨ (grpSt s g).state.live = true) → grpSt t g = grpSt s g) ∧
      t.host = { s.host with
        waits := s.host.waits ++ [(o, 0x14, maskOf 16 (fun g => hasBit m g && !(grpSt s g).state.live))] } ∧
      t.mot = { s.mot with groups := t.mot.groups } ∧ quiet s t ∧ only [.mot, .sol, .host] s t) ∧
  (∀ (o : Origin) (m : Mask) (g d : Nat) (s : State), groupsNamed s m → hasBit m g = true →
    (grpSt s g).state.live = false → enableRefusal s g = d → d ≠ 0 →
    (∀ k, hasBit m k = true → (grpSt s k).state.live = false → enableRefusal s k = 0 ∨ d ≤ enableRefusal s k) →
    ∃ t, exec (.enable o m) s = .next t ∧ refused18 o 13 d s t) ∧
  (∀ (o : Origin) (m : Mask) (s : State), groupsNamed s m →
    (∀ g, hasBit m g = true → (grpSt s g).state = .idle ∨ (grpSt s g).state = .halted) →
    ∃ t, exec (.disable o m) s = .next t ∧
      (∀ g, hasBit m g = true → grpSt t g = { grpSt s g with state := .disabled, active := none, blend := none }) ∧
      (∀ g, hasBit m g = false → grpSt t g = grpSt s g) ∧ t.mot = { s.mot with groups := t.mot.groups } ∧ accepted18 o s t ∧
      quiet s t ∧ only [.mot, .trl, .host] s t) ∧
  (∀ (o : Origin) (m : Mask) (g : Nat) (s : State), groupsNamed s m → hasBit m g = true → (grpSt s g).state ≠ .idle →
    (grpSt s g).state ≠ .halted → ∃ t, exec (.disable o m) s = .next t ∧ refused18 o 13 1 s t) ∧
  (∀ (o : Origin) (m : Mask) (v : Nat) (s : State), groupsNamed s m → v ≤ 0x8000 →
    ∃ t, exec (.override_ o m v) s = .next t ∧
      (∀ g, g < s.mot.groups.length → hasBit m g = true → grpSt t g = { grpSt s g with ovr := v }) ∧
      (∀ g, hasBit m g = false → grpSt t g = grpSt s g) ∧ t.mot = { s.mot with groups := t.mot.groups } ∧ accepted18 o s t ∧
      quiet s t ∧ only [.mot, .host] s t) ∧
  (∀ (o : Origin) (m : Mask) (v : Nat) (s : State), groupsNamed s m → 0x8000 < v →
    ∃ t, exec (.override_ o m v) s = .next t ∧ refused18 o 11 4 s t) ∧
  (∀ (o : Origin) (m : Mask) (v : Nat) (s : State) (i : Instr), m ≠ 0 →
    (i = .flush o m ∨ i = .halt o m ∨ i = .resume o m ∨ i = .enable o m ∨ i = .disable o m ∨ i = .override_ o m v ∨
      i = .stop o m ∨ i = .ack o m) →
    ((nodeMode s = true ∨ ∃ g, hasBit m g = true ∧ maxGroups s ≤ g) → ∃ t, exec i s = .next t ∧ refused18 o 12 5 s t) ∧
    ((nodeMode s = false ∧ (∀ g, hasBit m g = true → g < maxGroups s) ∧
      (∃ g, hasBit m g = true ∧ (grpCfg s g).defined = false)) → ∃ t, exec i s = .next t ∧ refused18 o 11 0 s t))

/-- R169, R199, R213, R292, R393, R400: HOME starts homing of an AXIO axis as a write of GO, or asks the far end of a ring axis;
ZONE_RELEASE frees a zone that its group holds and does not intrude; SLICE_PARAM writes sixteen words of one slice's memory. The
region and offset in DETAIL of codes 12 and 11, and that a mask acts whole or not at all, are the model's (log 96, 97, 114).
Commands that complete here, each as the clause of its name says: home, zoneRelease, sliceParam. -/
def Obligations.AxisCommands : Prop :=
  (∀ (o : Origin) (a c : Nat) (s : State), nodeMode s = false → a < maxAxes s → (axisCfg s a).defined = true →
    (∀ r j e, (axisCfg s a).src ≠ .ring r j e) → axisChan (axisCfg s a) = some c → chanLive s c = true →
    c < s.axio.length → (chSt s c).busy = false → 1 ≤ (chanCfg s c).hmode → (chanCfg s c).hmode ≤ 4 →
    chanEnabled s c = true →
    ∃ t, exec (.home o a) s = .next t ∧ (chSt t c).busy = true ∧ (chSt t c).hres = 0 ∧ (chSt t c).refd = false ∧
      (chSt t c).count = (chSt s c).count ∧ onlyAt c s.axio t.axio ∧ t.mot = { s.mot with axes := t.mot.axes } ∧
      accepted18 o s t ∧ quiet s t ∧ only [.chip, .axio, .mot, .host] s t) ∧
  (∀ (o : Origin) (a c : Nat) (s : State), nodeMode s = false → a < maxAxes s → (axisCfg s a).defined = true →
    (∀ r j e, (axisCfg s a).src ≠ .ring r j e) → axisChan (axisCfg s a) = some c → (chSt s c).busy = true →
    ∃ t, exec (.home o a) s = .next t ∧ refused18 o 13 7 s t) ∧
  (∀ (o : Origin) (a c : Nat) (s : State), nodeMode s = false → a < maxAxes s → (axisCfg s a).defined = true →
    (∀ r j e, (axisCfg s a).src ≠ .ring r j e) → axisChan (axisCfg s a) = some c → chanLive s c = true →
    c < s.axio.length → (chSt s c).busy = false →
    ((chanCfg s c).hmode = 0 ∨ 4 < (chanCfg s c).hmode ∨ chanEnabled s c = false) →
    ∃ t, exec (.home o a) s = .next t ∧ chSt t c = { chSt s c with hres := 6 } ∧ onlyAt c s.axio t.axio ∧
      t.host.replies = s.host.replies ++ [mkReply o 13 6 [] s] ∧ refusalEvent s t ∧ only [.chip, .axio, .host] s t) ∧
  (∀ (o : Origin) (a r j e : Nat) (s : State), nodeMode s = false → a < maxAxes s → (axisCfg s a).defined = true →
    (axisCfg s a).src = .ring r j e →
    ((grpSt s (axisCfg s a).group).state = .idle → (axisCfg s a).abs = false → a < s.mot.axes.length →
      ∃ t, exec (.home o a) s = .next t ∧ axSt t a = { axSt s a with hgo := some s.time.tickno, hbusy := false } ∧
        onlyAt a s.mot.axes t.mot.axes ∧ accepted18 o s t ∧ quiet s t ∧ only [.mot, .host] s t) ∧
    ((grpSt s (axisCfg s a).group).state ≠ .idle → ∃ t, exec (.home o a) s = .next t ∧ refused18 o 13 8 s t) ∧
    ((grpSt s (axisCfg s a).group).state = .idle → (axisCfg s a).abs = true →
      ∃ t, exec (.home o a) s = .next t ∧ refused18 o 13 9 s t)) ∧
  (∀ (o : Origin) (a : Nat) (s : State), (nodeMode s = true ∨ maxAxes s ≤ a) →
    ∃ t, exec (.home o a) s = .next t ∧ refused18 o 12 5 s t) ∧
  (∀ (o : Origin) (g z : Nat) (s : State), nodeMode s = false → s.image.compat = false → g < maxGroups s →
    (grpCfg s g).defined = true → z < s.trl.zones.length → g < s.trl.g.length → z ∈ (trlG s g).held →
    intrudesZone s g z = false →
    ∃ t, exec (.zoneRelease o g z) s = .next t ∧ zoneSt t z = { zoneSt s z with holder := none } ∧
      trlG t g = { trlG s g with
        held := (trlG s g).held.filter (fun k => k != z), defer := (trlG s g).defer.filter (fun k => k != z) } ∧
      onlyAt z s.trl.zones t.trl.zones ∧ onlyAt g s.trl.g t.trl.g ∧ accepted18 o s t ∧ quiet s t ∧ only [.trl, .host] s t) ∧
  (∀ (o : Origin) (g z : Nat) (s : State), nodeMode s = false → s.image.compat = false → g < maxGroups s →
    (grpCfg s g).defined = true →
    (z ∉ (trlG s g).held → ∃ t, exec (.zoneRelease o g z) s = .next t ∧ refused18 o 13 1 s t) ∧
    (z ∈ (trlG s g).held → intrudesZone s g z = true → ∃ t, exec (.zoneRelease o g z) s = .next t ∧ refused18 o 13 2 s t)) ∧
  (∀ (o : Origin) (g z : Nat) (s : State), (nodeMode s = true ∨ s.image.compat = true) →
    ∃ t, exec (.zoneRelease o g z) s = .next t ∧ refused18 o 12 7 s t) ∧
  (∀ (o : Origin) (b sl : Nat) (ws : List (BitVec 24)) (x : SliceSt) (s : State), nodeMode s = false → sl < 8 →
    b < motBlocks s.fuse.variant → sliceSt s b sl = some x →
    ∃ t, exec (.sliceParam o b sl ws) s = .next t ∧ sliceSt t b sl = some { x with dmem := putParams x.dmem ws } ∧
      (∀ c k, (c ≠ b ∨ k ≠ sl) → k ≠ 8 → sliceSt t c k = sliceSt s c k) ∧ t.mot.groups = s.mot.groups ∧
      t.mot.axes = s.mot.axes ∧ accepted18 o s t ∧ quiet s t ∧ only [.mot, .host] s t) ∧
  (∀ (o : Origin) (b sl : Nat) (ws : List (BitVec 24)) (s : State), nodeMode s = false →
    (8 ≤ b → ∃ t, exec (.sliceParam o b sl ws) s = .next t ∧ refused18 o 11 0 s t) ∧
    (b < 8 → 8 ≤ sl → ∃ t, exec (.sliceParam o b sl ws) s = .next t ∧ refused18 o 11 1 s t) ∧
    (b < 8 → sl < 8 → motBlocks s.fuse.variant ≤ b → ∃ t, exec (.sliceParam o b sl ws) s = .next t ∧ refused18 o 12 5 s t))

/-- R307, R315, R332, R346, R485: STOP raises cause 17; ACK writes SAF.ACK; MODE asks for a mode; CONFIRM starts the write of a
confirmation when the value, the enabling device, the groups and the part allow it; the record replaces the older copy. DETAIL
of CONFIRM and of a second MODE are the model's choices (log 85, 99). Commands that complete here, each as the clause of its
name says: stop, ack, mode, confirm, confirmationWriteDone. -/
def Obligations.SafetyCommands : Prop :=
  (∀ (o : Origin) (m : Mask) (s : State), groupsNamed s m → m ≠ 0 →
    ∃ t, exec (.stop o m) s = .next t ∧
      (∀ g, g < s.saf.g.length → hasBit m g = true →
        safG t g = { safG s g with stopReq := (safG s g).stopReq ||| bitOf 32 17 }) ∧
      (∀ g, hasBit m g = false → safG t g = safG s g) ∧ t.saf = { s.saf with g := t.saf.g } ∧ accepted18 o s t ∧
      quiet s t ∧ only [.saf, .host] s t) ∧
  (∀ (o : Origin) (s : State), ∃ t, exec (.stop o 0) s = .next t ∧ accepted18 o s t ∧ quiet s t ∧ only [.host] s t) ∧
  (∀ (o : Origin) (m : Mask) (s : State), groupsNamed s m →
    ∃ t, exec (.ack o m) s = .next t ∧
      (∀ g, g < s.saf.g.length → hasBit m g = true → safG t g = { safG s g with ackEdge := true }) ∧
      (∀ g, hasBit m g = false → safG t g = safG s g) ∧ t.saf = { s.saf with gack := m, g := t.saf.g } ∧
      t.host = { s.host with waits := s.host.waits ++ [(o, 0x21, m)] } ∧ quiet s t ∧ only [.saf, .host] s t) ∧
  (∀ (o : Origin) (m : Nat) (s : State), nodeMode s = false → m ≤ 2 →
    ∃ t, exec (.mode o m) s = .next t ∧ t.saf = { s.saf with modeReq := s.saf.modeReq ++ [(m, o)] } ∧
      t.host = { s.host with waits := s.host.waits ++ [(o, 0x22, 0)] } ∧ quiet s t ∧ only [.saf, .host] s t) ∧
  (∀ (o : Origin) (m : Nat) (s : State), nodeMode s = false → 2 < m →
    ∃ t, exec (.mode o m) s = .next t ∧ refused18 o 11 0 s t) ∧
  (∀ (o : Origin) (v : Word) (s : State), nodeMode s = false → v = s.saf.check → enabledSecond s = true →
    allStopped s (defined s) = true → s.saf.mode = 1 → s.saf.pres = true → s.fuse.opened = false →
    ∃ t, exec (.confirm o v) s = .next t ∧ t.saf = { s.saf with confPend := s.saf.confPend ++ [(o, v)] } ∧ quiet s t ∧ only [.saf] s t) ∧
  (∀ (o : Origin) (v : Word) (s : State), nodeMode s = false →
    (v ≠ s.saf.check → ∃ t, exec (.confirm o v) s = .next t ∧ refused18 o 15 1 s t) ∧
    (v = s.saf.check → enabledSecond s = false → ∃ t, exec (.confirm o v) s = .next t ∧ refused18 o 15 2 s t) ∧
    (v = s.saf.check → enabledSecond s = true → allStopped s (defined s) = false →
      ∃ t, exec (.confirm o v) s = .next t ∧ refused18 o 15 3 s t) ∧
    (v = s.saf.check → enabledSecond s = true → allStopped s (defined s) = true → s.saf.mode = 1 → s.saf.pres = true →
      s.fuse.opened = true → ∃ t, exec (.confirm o v) s = .next t ∧ refused18 o 15 4 s t)) ∧
  (∀ (o : Origin) (v : Word) (q : List (Origin × Word)) (s : State), s.saf.confPend = (o, v) :: q → s.conf.length = 2 →
    ∃ t, exec (.confirmationWriteDone true) s = .next t ∧
      nth t.conf (olderCopy s) = {
        check := v, digest := s.image.digest % 2 ^ 64, serial := s.fuse.serial, tb := s.time.tb,
        count := s.saf.confCount + 1, key := o.key, crcOk := true } ∧ onlyAt (olderCopy s) s.conf t.conf ∧
      t.saf = { s.saf with confPend := q, match_ := true, present := true, confCount := s.saf.confCount + 1 } ∧
      answered o 0 0 [] s t ∧ ((∀ p, p < 4 → (nth s.host.ports p).up = false) → logged 0x0860 0 s t) ∧
      only [.chip, .conf, .mem, .saf, .host] s t) ∧
  (∀ (o : Origin) (v : Word) (q : List (Origin × Word)) (s : State), s.saf.confPend = (o, v) :: q → s.conf.length = 2 →
    ∃ t, exec (.confirmationWriteDone false) s = .next t ∧
      nth t.conf (olderCopy s) = { nth s.conf (olderCopy s) with crcOk := false } ∧ onlyAt (olderCopy s) s.conf t.conf ∧
      t.saf = { s.saf with confPend := q } ∧ answered o 15 4 [] s t ∧ only [.chip, .conf, .saf, .host] s t) ∧
  (∀ (b : Bool) (s : State), s.saf.confPend = [] → exec (.confirmationWriteDone b) s = .next s)

/-- R110, R112, R367, R393, R397: FLOWMSG reaches a tick-locked flow that takes messages, MAILBOX a queue of a core, TRIGGER the
words of a trigger; a signed Prune takes its place behind those that wait, and one of an unknown KIND is answered with code 16.
The region and offset in DETAIL of codes 12 and 11 are the model's (log 96, 97), RESULT in corners of a Prune its choice (log
46). Commands that complete here, each as the clause of its name says: flowmsg, mailbox, trigger, prune. -/
def Obligations.HostCommands : Prop :=
  (∀ (o : Origin) (f : Nat) (l : List Byte) (s : State), nodeMode s = false → (flowCfg s f).type = 2 →
    ((flowCfg s f).snaps.any (fun e => e.skind == 6)) = true → f < s.host.flows.length → (flowSt s f).en = true →
    ∃ t, exec (.flowmsg o f l) s = .next t ∧ flowSt t f = { flowSt s f with msgs := (flowSt s f).msgs ++ [l] } ∧
      onlyAt f s.host.flows t.host.flows ∧
      t.host = { s.host with flows := t.host.flows, replies := s.host.replies ++ [mkReply o 0 0 [] s] } ∧ quiet s t ∧
      only [.host] s t) ∧
  (∀ (o : Origin) (f : Nat) (l : List Byte) (s : State), nodeMode s = false →
    ((flowCfg s f).type ≠ 2 → ∃ t, exec (.flowmsg o f l) s = .next t ∧ refused18 o 11 0 s t) ∧
    ((flowCfg s f).type = 2 → ((flowCfg s f).snaps.any (fun e => e.skind == 6)) = true → (flowSt s f).en = false →
      ∃ t, exec (.flowmsg o f l) s = .next t ∧ refused18 o 13 1 s t)) ∧
  (∀ (o : Origin) (q : Nat) (l : List Byte) (s : State), nodeMode s = false → 16 ≤ q → q ≤ 23 → q < s.host.queues.length →
    qFull s q = false →
    ∃ t, exec (.mailbox o q l) s = .next t ∧
      queueSt t q = { queueSt s q with entries := (queueSt s q).entries ++ [{ bytes := l }] } ∧
      onlyAt q s.host.queues t.host.queues ∧
      t.host = { s.host with queues := t.host.queues, replies := s.host.replies ++ [mkReply o 0 0 [] s] } ∧ quiet s t ∧
      only [.chip, .host] s t) ∧
  (∀ (o : Origin) (q : Nat) (l : List Byte) (s : State), nodeMode s = false →
    ((q < 16 ∨ 23 < q) → ∃ t, exec (.mailbox o q l) s = .next t ∧ refused18 o 11 0 s t) ∧
    (16 ≤ q → q ≤ 23 → qFull s q = true → (queueCfg s q).overwrite = false →
      ∃ t, exec (.mailbox o q l) s = .next t ∧ refused18 o 13 1 s t)) ∧
  (∀ (o : Origin) (i : Nat) (w : TrigWords) (s : State), nodeMode s = false → i < 4 → i < s.time.trigs.length →
    (trigSt s i).active = false →
    ∃ t, exec (.trigger o i w) s = .next t ∧ (trigSt t i).ctl = w.ctl ∧ (trigSt t i).pSec = w.startNs / 1000000000 ∧ (trigSt t i).pNsec = w.startNs % 1000000000 ∧
      (trigSt t i).pStartFr = w.startFr ∧ (trigSt t i).pPerNs = w.perNs ∧ (trigSt t i).pPerFr = w.perFr ∧
      (w.ctl.getLsbD 31 = false → (trigSt t i).active = false ∧ quiet s t) ∧
      (w.ctl.getLsbD 31 = true → (trigSt t i).src = false ∧ (trigSt t i).fired = 0 ∧ (trigSt t i).per = trigPer w) ∧
      onlyAt i s.time.trigs t.time.trigs ∧ t.time = { s.time with trigs := t.time.trigs } ∧ accepted18 o s t ∧
      only [.chip, .time, .host] s t) ∧
  (∀ (o : Origin) (i : Nat) (w : TrigWords) (s : State), nodeMode s = false → 4 ≤ i →
    ∃ t, exec (.trigger o i w) s = .next t ∧ refused18 o 11 0 s t) ∧
  (∀ (o : Origin) (k r x : Nat) (s : State), s.chip.prunes ≠ [] →
    ∃ t, exec (.prune o k r x) s = .next t ∧
      t.chip = { s.chip with
        prunes := s.chip.prunes ++ [{ kind := k, region := r, index := x, signed := true, origin := some o }] } ∧
      quiet s t ∧ only [.chip] s t) ∧
  (∀ (o : Origin) (r q : Nat) (s : State), s.chip.prunes = [] → q < 8 → q / 2 < s.host.ports.length →
    ∃ t, exec (.prune o 6 r q) s = .next t ∧
      (if q % 2 = 0 then (nth t.host.ports (q / 2)).fwd = [] else (nth t.host.ports (q / 2)).dev = []) ∧
      t.chip.prunes = [{ kind := 6, region := r, index := q, signed := true, origin := some o }] ∧ t.host.sent = s.host.sent ∧
      quiet s t ∧ only [.chip, .host] s t) ∧
  (∀ (o : Origin) (k r x : Nat) (s : State), s.chip.prunes = [] → (k = 0 ∨ 7 < k) →
    ∃ t e, exec (.prune o k r x) s = .next t ∧ t.chip.prunes = [] ∧
      answered o 16 k (leBytes 1 2 ++ leBytes 1 k ++ leBytes 2 e) s t ∧ t.chip.pruneResult = s.chip.pruneResult ∧
      only [.chip, .host, .free] s t)

/-- R393, R395: IMAGE_ERASE and IMAGE_WRITE work on ranges inside the inactive slot and refuse every other range with code 17,
DETAIL 1; an erase from the slot's start on leaves it blank; the active slot, the confirmation record and the safety parameters
in use do not change; a device error is answered with code 17. READ answers with the bytes of DRAM or shared SRAM and refuses
every other address. The offsets in DETAIL of code 11 and answering a bad body at release are the model's choices (log 97, 98);
the image that a write leaves is free (log 100). Commands that complete here, each as the clause of its name says: imageErase,
imageWrite, flashOpDone, read. -/
def Obligations.StoreCommands : Prop :=
  (∀ (o : Origin) (a n : Nat) (s : State), a % 65536 = 0 → n % 65536 = 0 → a + n ≤ slotSize s.flash →
    ∃ t, exec (.imageErase o a n) s = .next t ∧ t.host = { s.host with flash := s.host.flash ++ [(o, { ofs := a, len := n })] } ∧
      quiet s t ∧ only [.host] s t) ∧
  (∀ (o : Origin) (a : Nat) (l : List Byte) (s : State), 4 ≤ l.length → l.length ≤ 1016 → l.length % 4 = 0 →
    a + l.length ≤ slotSize s.flash →
    ∃ t, exec (.imageWrite o a l) s = .next t ∧
      t.host = { s.host with flash := s.host.flash ++ [(o, { ofs := a, len := l.length, data := l })] } ∧
      quiet s t ∧ only [.host] s t) ∧
  (∀ (o : Origin) (a n : Nat) (s : State),
    (a % 65536 ≠ 0 → ∃ t, exec (.imageErase o a n) s = .next t ∧ answered o 11 0 [] s t ∧ t.host.flash = s.host.flash ∧
      only [.chip, .host] s t) ∧
    (a % 65536 = 0 → n % 65536 ≠ 0 → ∃ t, exec (.imageErase o a n) s = .next t ∧ answered o 11 4 [] s t ∧
      t.host.flash = s.host.flash ∧ only [.chip, .host] s t) ∧
    (a % 65536 = 0 → n % 65536 = 0 → slotSize s.flash < a + n → ∃ t, exec (.imageErase o a n) s = .next t ∧
      answered o 17 1 [] s t ∧ t.host.flash = s.host.flash ∧ only [.chip, .host] s t)) ∧
  (∀ (o : Origin) (a : Nat) (l : List Byte) (s : State),
    ((l.length < 4 ∨ 1016 < l.length ∨ l.length % 4 ≠ 0) → ∃ t, exec (.imageWrite o a l) s = .next t ∧
      answered o 11 4 [] s t ∧ t.host.flash = s.host.flash ∧ only [.chip, .host] s t) ∧
    (4 ≤ l.length → l.length ≤ 1016 → l.length % 4 = 0 → slotSize s.flash < a + l.length →
      ∃ t, exec (.imageWrite o a l) s = .next t ∧ answered o 17 1 [] s t ∧ t.host.flash = s.host.flash ∧ only [.chip, .host] s t)) ∧
  (∀ (o : Origin) (e : FlashEdit) (r : Nat) (q : List (Origin × FlashEdit)) (s : State),
    s.host.flash = (o, e) :: q →
    ∃ t, exec (.flashOpDone r) s = .next t ∧ t.host.flash = q ∧
      (e.data = [] → e.ofs = 0 → e.len ≠ 0 →
        (if s.chip.slot = true then t.flash.slotA = none else t.flash.slotB = none)) ∧
      (r = 0 → answered o 0 0 [] s t) ∧ (r ≠ 0 → answered o 17 (if r = 3 then 3 else 2) [] s t) ∧
      (s.chip.slot = false → t.flash.slotA = s.flash.slotA ∧ t.flash.replA = s.flash.replA) ∧
      (s.chip.slot = true → t.flash.slotB = s.flash.slotB ∧ t.flash.replB = s.flash.replB) ∧
      t.flash.size = s.flash.size ∧ t.flash.octal = s.flash.octal ∧ only [.chip, .flash, .host, .free] s t) ∧
  (∀ (r : Nat) (s : State), s.host.flash = [] → exec (.flashOpDone r) s = .next s) ∧
  (∀ (o : Origin) (a n : Nat) (s : State), dmaOk a = true → dmaOk (a + n - 1) = true → 4 ≤ n → n ≤ 1024 → n % 4 = 0 →
    ∃ t, exec (.read o a n) s = .next t ∧ answered o 0 0 ((List.range n).map (fun i => memRead s.mem (a + i))) s t ∧
      only [.chip, .host] s t) ∧
  (∀ (o : Origin) (a n : Nat) (s : State),
    (dmaOk a = false → ∃ t, exec (.read o a n) s = .next t ∧ answered o 11 0 [] s t ∧ only [.chip, .host] s t) ∧
    (dmaOk a = true → dmaOk (a + n - 1) = true → (n < 4 ∨ 1024 < n ∨ n % 4 ≠ 0) →
      ∃ t, exec (.read o a n) s = .next t ∧ answered o 11 6 [] s t ∧ only [.chip, .host] s t))

/-- R396, R414 to R418, R438: RESET acts only when every group is DISABLED or in Cloche, else code 13; a device reset discards the
held commands and follows its reply; PARK and DOZE follow the decision of the tick, RUN acts at once; a region restart is begun
or refused with CHIP_RRST_REFUSED; SWITCHBACK asks for a handover to a fit standby. Requests of a restart in corners and DETAIL
of SWITCHBACK are the model's choices (log 47, 99). Commands that complete here, each as the clause of its name says:
resetDevice, resetPark, resetDoze, resetRun, resetRegionRestart, switchback. -/
def Obligations.ResetCommands : Prop :=
  (∀ (o : Origin) (s : State), allStopped s (defined s) = true →
    (∃ t, exec (.resetDevice o) s = .next t ∧ t.chip = { s.chip with resetPending := some (s.time.tb, o.key, o.seq) } ∧
      t.host = { s.host with held := [], replies := s.host.replies ++ [mkReply o 0 0 [] s] } ∧ quiet s t ∧
      only [.chip, .host] s t) ∧
    (∃ t, exec (.resetPark o) s = .next t ∧ t.chip = { s.chip with pstateNext := some .park } ∧
      t.host = { s.host with waits := s.host.waits ++ [(o, 0x60, 0)] } ∧ quiet s t ∧ only [.chip, .host] s t) ∧
    (∃ t, exec (.resetDoze o) s = .next t ∧ t.chip = { s.chip with pstateNext := some .doze } ∧
      t.host = { s.host with waits := s.host.waits ++ [(o, 0x60, 0)] } ∧ quiet s t ∧ only [.chip, .host] s t)) ∧
  (∀ (o : Origin) (s : State), allStopped s (defined s) = true → (s.chip.pstate = .park ∨ s.chip.pstate = .doze) →
    ∃ t, exec (.resetRun o) s = .next t ∧ t.chip.pstate = .run ∧ t.chip.pstateNext = none ∧
      (∀ x ∈ t.mot.slices, x.first = true) ∧ (∀ x ∈ t.sol.probs, x.warm = none) ∧ t.mot.groups = s.mot.groups ∧
      t.mot.axes = s.mot.axes ∧ accepted18 o s t ∧ quiet s t ∧
      only [.chip, .ring, .mot, .sol, .recd, .host] s t) ∧
  (∀ (o : Origin) (s : State), allStopped s (defined s) = true → s.chip.pstate ≠ .park → s.chip.pstate ≠ .doze →
    ∃ t, exec (.resetRun o) s = .next t ∧ t.chip = { s.chip with pstateNext := none } ∧ accepted18 o s t ∧ quiet s t ∧
      only [.chip, .host] s t) ∧
  (∀ (o : Origin) (s : State) (i : Instr), allStopped s (defined s) = false →
    (i = .resetDevice o ∨ i = .resetPark o ∨ i = .resetDoze o ∨ i = .resetRun o) →
    ∃ t, exec i s = .next t ∧ refused18 o 13 1 s t) ∧
  (∀ (o : Origin) (id : Nat) (r : Region) (s : State), Region.ofId id = some r → restartable s id true = true →
    s.chip.rrst = [] → s.chip.prunes = [] → (regSt s r).restarting = false → r.id < s.regions.length →
    ∃ t, exec (.resetRegionRestart o (0x80 + id)) s = .next t ∧ (regSt t r).restarting = true ∧
      t.chip.rrst = [(id, some o)] ∧ t.chip.rrstRefused = false ∧ onlyAt r.id s.regions t.regions ∧
      t.host.replies = s.host.replies ++ [mkReply o 0 0 [] s] ∧ quiet s t) ∧
  (∀ (o : Origin) (id : Nat) (r : Region) (s : State), Region.ofId id = some r → r ≠ .chip → r ≠ .time → r ≠ .saf →
    rstate s r ≠ 4 → restartable s id true = false →
    ∃ t, exec (.resetRegionRestart o (0x80 + id)) s = .next t ∧ t.chip.rrstRefused = true ∧ refusalEvent (event 0x0173 0 s) t ∧
      t.chip.rrst = s.chip.rrst ∧ t.host.replies = s.host.replies ++ [mkReply o 13 1 [] s] ∧ only [.chip, .host] s t) ∧
  (∀ (o : Origin) (k : Nat) (s : State), k < 0x80 → ∃ t, exec (.resetRegionRestart o k) s = .next t ∧ refused18 o 11 0 s t) ∧
  (∀ (o : Origin) (s : State), (s.pair.cfg = false ∨ nodeMode s = true) →
    ∃ t, exec (.switchback o) s = .next t ∧ refused18 o 12 1 s t) ∧
  (∀ (o : Origin) (s : State), s.pair.cfg = true → nodeMode s = false → s.pair.role = 1 →
    (s.pair.linkOk = true ∨ s.pair.ringOk = true) → s.pair.pfit = true → s.pair.hoReq = none →
    ∃ t, exec (.switchback o) s = .next t ∧
      t.pair = { s.pair with hoReq := some s.time.tickno, hoEsc := false, hoTries := 0 } ∧ accepted18 o s t ∧ quiet s t ∧
      only [.pair, .host] s t) ∧
  (∀ (o : Origin) (s : State), s.pair.cfg = true → nodeMode s = false → s.pair.role = 1 →
    (s.pair.linkOk = false → s.pair.ringOk = false → ∃ t, exec (.switchback o) s = .next t ∧ refused18 o 13 2 s t) ∧
    ((s.pair.linkOk = true ∨ s.pair.ringOk = true) → s.pair.pfit = false →
      ∃ t, exec (.switchback o) s = .next t ∧ refused18 o 13 1 s t))

/-- R427 to R430, R433, R434: The active sends an INPUT frame of its tick with its digest, masks and the commands of the next E0;
the standby takes a frame of its tick and run; at 4.5 µs a tick without its frame, or with a frame that lists something the
standby does not hold, is unfed and compares nothing, and a fed tick takes the samples of the frame; a forwarded datagram counts
as one that reached the standby; the standby's STATUS reaches the active, with CHIP_PAIR_UNFIT and CHIP_PAIR_FIT. Which cause
UNFIT keeps is the model's choice (log 107), the order of the samples its reading (log 111). Commands that complete here, each
as the clause of its name says: commandDatagram, inputFrameSend, inputFrameReceived, feedDeadline, forwardFrame,
statusFrameSend, statusFrameReceived. -/
def Obligations.PairFrames : Prop :=
  (∀ (s : State), s.pair.role = 1 → s.time.run = true →
    ∃ t f, exec .inputFrameSend s = .next t ∧ t.pair.sent = some f ∧ f.tick = s.time.tickno ∧ f.nonce = s.host.nonce ∧
      f.digest = s.pair.digest ∧ f.cmask = s.pair.cmask ∧ f.lstop = s.pair.lstop ∧ f.cmds = nextCommands s ∧
      f.pdus = firstUsed s ∧ f.imgDig = s.image.digest % 2 ^ 64 ∧ f.ho = hoDue s ∧ quiet s t ∧ only [.pair] s t) ∧
  (∀ (s : State), (s.pair.role ≠ 1 ∨ s.time.run = false) → exec .inputFrameSend s = .next s) ∧
  (∀ (f : InputFrame) (s : State), s.pair.role = 2 → f.tick = s.time.tickno →
    (s.host.nonce ≠ 0 → f.nonce = s.host.nonce → f.imgDig = s.image.digest % 2 ^ 64 →
      ∃ t, exec (.inputFrameReceived f) s = .next t ∧ t.pair = { s.pair with frame := some f, rst := s.pair.rst || f.rst } ∧
        quiet s t ∧ only [.pair] s t) ∧
    (s.host.nonce ≠ 0 → f.nonce = s.host.nonce → f.imgDig ≠ s.image.digest % 2 ^ 64 →
      ∃ t, exec (.inputFrameReceived f) s = .next t ∧ t.pair.frame = some f ∧ t.pair.fit = false ∧
        t.pair.unfit = (if s.pair.unfit = 0 then 3 else s.pair.unfit) ∧ quiet s t ∧ only [.pair] s t) ∧
    (s.host.nonce = 0 → ∃ t, exec (.inputFrameReceived f) s = .next t ∧ t.host = { s.host with nonce := f.nonce } ∧
      t.pair.frame = some f ∧ quiet s t ∧ only [.host, .pair] s t) ∧
    (s.host.nonce ≠ 0 → f.nonce ≠ s.host.nonce → exec (.inputFrameReceived f) s = .next s)) ∧
  (∀ (f : InputFrame) (s : State), (s.pair.role ≠ 2 ∨ f.tick ≠ s.time.tickno) →
    exec (.inputFrameReceived f) s = .next s) ∧
  (∀ (s : State), s.pair.role = 2 → s.time.run = true → feeding s = none →
    ∃ t, exec .feedDeadline s = .next t ∧ t.pair.fed = false ∧ t.pair.fit = s.pair.fit ∧ t.pair.eqrun = 0 ∧
      t.pair.unfed = satAdd 0xFFFF s.pair.unfed 1 ∧ t.pair.skips = satAdd 0xFFFF s.pair.skips 1 ∧
      t.pair.compares = s.pair.compares ∧ (∀ i, lineSt t i = lineSt s i)) ∧
  (∀ (f : InputFrame) (s : State), s.pair.role = 2 → s.time.run = true → feeding s = some f → s.saf.pairs.length = 12 →
    s.saf.pend.length = 4 →
    ∃ t, exec .feedDeadline s = .next t ∧ t.pair.fed = true ∧ t.pair.pendCmds = f.cmds ∧ t.pair.lstop = f.lstop ∧
      (∀ i, i < 16 → (lineSt t i).sampled = hasBit f.samples i)) ∧
  (∀ (s : State), (s.pair.role ≠ 2 ∨ s.time.run = false) → exec .feedDeadline s = .next s) ∧
  (∀ (d : Datagram) (now : Nat) (s : State), s.pair.role = 2 → regionUp .host s = true →
    ∃ t, exec (.forwardFrame d now) s = .next t ∧ exec (.commandDatagram .a d now) s = .next t) ∧
  (∀ (d : Datagram) (now : Nat) (s : State), s.pair.role ≠ 2 → exec (.forwardFrame d now) s = .next s) ∧
  (∀ (s : State), s.pair.role = 2 → s.time.run = true →
    ∃ t, exec .statusFrameSend s = .next t ∧
      t.pair = { s.pair with
        statusSent := some { tick := s.time.tickno, fit := s.pair.fit, unfit := s.pair.unfit, fed := s.pair.fed, ackHo := acksHo s, digest := s.pair.digest },
        hoAck := acksHo s } ∧ quiet s t ∧ only [.pair] s t) ∧
  (∀ (s : State), (s.pair.role ≠ 2 ∨ s.time.run = false) → exec .statusFrameSend s = .next s) ∧
  (∀ (a : Nat) (f : StatusFrame) (s : State), s.pair.role = 1 → f.tick = s.time.tickno → a ≤ s.time.e0 + 24000 →
    ∃ t, exec (.statusFrameReceived a f) s = .next t ∧ t.pair.statusIn = true ∧ t.pair.pfit = f.fit ∧
      (f.unfit ≠ 0 → t.pair.wasUnfit = true ∧ (s.pair.wasUnfit = false → logged 0x0193 0 s t) ∧
        (s.pair.wasUnfit = true → quiet s t)) ∧
      (f.unfit = 0 → f.fit = true → t.pair.wasUnfit = false ∧ (s.pair.wasUnfit = true → logged 0x0194 0 s t) ∧
        (s.pair.wasUnfit = false → quiet s t)) ∧
      (f.unfit = 0 → f.fit = false → quiet s t ∧ t.saf = s.saf) ∧ only [.chip, .saf, .pair] s t) ∧
  (∀ (a : Nat) (f : StatusFrame) (s : State), (s.pair.role ≠ 1 ∨ f.tick ≠ s.time.tickno ∨ s.time.e0 + 24000 < a) →
    exec (.statusFrameReceived a f) s = .next s)

/-- R425, R433 to R438, R441: Two paths carry the heartbeat; while one lives the count is 0; at HBN ticks without either the active
notes the loss and keeps its role, a fit standby whose peer did not vote is to take over at the next E0, and one whose peer
voted is unfit with cause 5; TAKEOVER and HANDOVER change the roles; self-tests, health reports and the read-back of the vote
count towards fitness. Which cause UNFIT keeps and the codes of HOCAUSE are the model's choices (log 107, 112), that the
read-back fault has no log entry its reading (log 110). Commands that complete here, each as the clause of its name says:
heartbeatFrame, heartbeatCount, takeover, handover, standbyFitTimeout, standbySelftestRound, healthReport, pairVoteReadback,
peerVoteChange, healthReportReceived. -/
def Obligations.PairRoles : Prop :=
  (∀ (ccw : Bool) (a : Nat) (h : RingHead) (m : Heartbeat) (s : State), (ringSt s 0).role ≠ 0 → (ringSt s 0).state ≠ .down →
    frameOk s 0 h = true → (s.pair.role = 1 ∨ s.pair.role = 2) →
    (m.tick = s.time.tickno → h.null = false → ∃ t, exec (.heartbeatFrame ccw a h m) s = .next t ∧
      t.pair = { s.pair with hbIn := true, pfit := m.fit } ∧ quiet s t ∧ only [.pair, .ring] s t) ∧
    ((m.tick ≠ s.time.tickno ∨ h.null = true) → ∃ t, exec (.heartbeatFrame ccw a h m) s = .next t ∧ quiet s t ∧
      only [.ring] s t)) ∧
  (∀ (ccw : Bool) (a : Nat) (h : RingHead) (m : Heartbeat) (s : State),
    ((ringSt s 0).role = 0 ∨ (ringSt s 0).state = .down) → exec (.heartbeatFrame ccw a h m) s = .next s) ∧
  (∀ (s : State), (s.pair.role = 1 ∨ s.pair.role = 2) →
    (s.pair.hbIn = true ∨ s.pair.linkUp = true ∧ s.pair.linkFell = false ∧ (s.pair.role = 2 → s.pair.fed = true) ∧
      (s.pair.role = 1 → s.pair.statusIn = true)) →
    ∃ t, exec .heartbeatCount s = .next t ∧ t.pair.lost = 0 ∧ t.pair.role = s.pair.role ∧ t.pair.takeNext = s.pair.takeNext ∧
      t.pair.ringOk = s.pair.hbIn ∧ only [.chip, .saf, .pair] s t) ∧
  (∀ (s : State), s.pair.role = 1 → s.pair.hbIn = false →
    (s.pair.linkUp = false ∨ s.pair.linkFell = true ∨ s.pair.statusIn = false) →
    ∃ t, exec .heartbeatCount s = .next t ∧ t.pair.lost = min 255 (s.pair.lost + 1) ∧ t.pair.linkOk = false ∧
      t.pair.ringOk = false ∧ t.pair.role = 1 ∧ t.pair.takeNext = s.pair.takeNext ∧
      (max 2 s.image.pairCfg.hbn ≤ min 255 (s.pair.lost + 1) → t.pair.lostRaised = true) ∧
      (∀ i, i < 2 → (t.saf.bconds.any (fun c => c.src == 8 && c.idx == i)) = true) ∧ only [.chip, .saf, .pair] s t) ∧
  (∀ (s : State), s.pair.role = 2 → s.pair.hbIn = false →
    (s.pair.linkUp = false ∨ s.pair.linkFell = true ∨ s.pair.fed = false) →
    max 2 s.image.pairCfg.hbn ≤ min 255 (s.pair.lost + 1) →
    ∃ t, exec .heartbeatCount s = .next t ∧ t.pair.role = 2 ∧
      (s.pair.pvoteHigh = false → s.pair.fit = true → t.pair.takeNext = true ∧ t.pair.unfit = s.pair.unfit) ∧
      (s.pair.pvoteHigh = true → t.pair.takeNext = s.pair.takeNext ∧ (s.pair.unfit = 0 → t.pair.unfit = 5 ∧ t.pair.fit = false)) ∧
      only [.chip, .saf, .pair] s t) ∧
  (∀ (s : State), s.pair.role ≠ 1 → s.pair.role ≠ 2 → exec .heartbeatCount s = .next s) ∧
  (∀ (s : State), s.pair.role = 2 → s.pair.takeNext = true → s.pair.hoBeacon = false →
    ∃ t, exec .takeover s = .next t ∧ t.pair.role = 1 ∧ t.pair.takeNext = false ∧ t.pair.hoCause = 1 ∧
      t.time.tickno = s.time.tickno ∧ t.host.nonce = s.host.nonce ∧ t.time.profile = s.image.profile ∧
      (∀ r, r < s.ring.length → r < 2 → (ringSt s r).role ≠ 0 → (ringSt s r).state ≠ .down →
        (ringSt t r).master = (ringSt s r).node ∧ 1 ≤ (ringSt t r).broken ∧
        (ringSt t r).routeAt = some (s.time.tickno + 1))) ∧
  (∀ (s : State), (s.pair.role ≠ 2 ∨ s.pair.takeNext = false ∨ s.pair.hoBeacon = true) → exec .takeover s = .next s) ∧
  (∀ (s : State), s.pair.role = 1 → s.pair.hoAck = true → s.pair.cfg = true →
    ∃ t, exec .handover s = .next t ∧ t.pair.role = 3 ∧ t.pair.vote = false ∧ (∀ x ∈ t.ring, x.txStopped = true) ∧
      t.pair.hoCause = (if s.pair.hoEsc = true then 2 else 3) ∧ logged 0x0196 0 s t ∧ only [.chip, .ring, .pair] s t) ∧
  (∀ (s : State), s.pair.role = 2 → s.pair.hoBeacon = true →
    ∃ t, exec .handover s = .next t ∧ t.pair.role = 1 ∧ t.pair.hoCause = (if s.pair.hoEsc = true then 2 else 3) ∧
      t.time.tickno = s.time.tickno ∧ t.host.nonce = s.host.nonce) ∧
  (∀ (s : State), s.pair.hoAck = false → s.pair.hoBeacon = false → exec .handover s = .next s) ∧
  (∀ (s : State), s.pair.role = 1 → s.time.run = true → s.pair.pfit = false →
    10000000000 ≤ s.time.tickno * periodNs s → s.pair.wasUnfit = false →
    ∃ t, exec .standbyFitTimeout s = .next t ∧ t.pair = { s.pair with wasUnfit := true } ∧ logged 0x0193 0 s t ∧
      only [.chip, .saf, .pair] s t) ∧
  (∀ (s : State), s.pair.pfit = true → exec .standbyFitTimeout s = .next s) ∧
  (∀ (s : State), s.pair.role = 2 →
    (∃ t, exec (.standbySelftestRound true) s = .next t ∧
      t.pair = { s.pair with rounds := satAdd 0xFFFFFFFF s.pair.rounds 1 } ∧ quiet s t ∧ only [.pair] s t) ∧
    (∃ t, exec (.standbySelftestRound false) s = .next t ∧ t.pair.fit = false ∧ t.pair.rounds = s.pair.rounds ∧
      t.pair.unfit = (if s.pair.unfit = 0 then 2 else s.pair.unfit) ∧ quiet s t ∧ only [.pair] s t)) ∧
  (∀ (b : Bool) (s : State), s.pair.role ≠ 2 → exec (.standbySelftestRound b) s = .next s) ∧
  (∀ (s : State), s.pair.role = 2 →
    ∃ t h, exec .healthReport s = .next t ∧ t.pair.healthOut = some h ∧ t.pair.unfed = 0 ∧
      t.pair.healthSent = s.pair.healthSent + 1 ∧ h.tick = s.time.tickno ∧ h.fit = s.pair.fit ∧ h.unfit = s.pair.unfit ∧
      h.compares = s.pair.compares ∧ h.divs = s.pair.divs ∧ h.unfed = s.pair.unfed ∧ h.check = s.saf.check ∧
      only [.chip, .host, .pair] s t) ∧
  (∀ (s : State), s.pair.role ≠ 2 → exec .healthReport s = .next s) ∧
  (∀ (h : HealthReport) (s : State), s.pair.role = 1 →
    ∃ t, exec (.healthReportReceived h) s = .next t ∧ t.pair = { s.pair with health := some h } ∧
      (16 ≤ s.image.pairCfg.hmbox → s.image.pairCfg.hmbox ≤ 23 → s.image.pairCfg.hmbox < s.host.queues.length →
        qFull s s.image.pairCfg.hmbox = false →
        (queueSt t s.image.pairCfg.hmbox).entries =
          (queueSt s s.image.pairCfg.hmbox).entries ++ [{ bytes := healthBytes h }]) ∧
      quiet s t ∧ only [.chip, .host, .pair] s t) ∧
  (∀ (h : HealthReport) (s : State), s.pair.role ≠ 1 → exec (.healthReportReceived h) s = .next s) ∧
  (∀ (v : Bool) (s : State), (v = voteLevel s ∨ s.pair.cfg = false) →
    ∃ t, exec (.pairVoteReadback v) s = .next t ∧ t.pair = { s.pair with vote := v } ∧ quiet s t ∧ only [.pair] s t) ∧
  (∀ (v : Bool) (s : State), v ≠ voteLevel s → s.pair.cfg = true →
    (s.pair.role = 1 → ∃ t, exec (.pairVoteReadback v) s = .next t ∧ t.saf.lastA = 0x0822 ∧
      (∀ g, g < 16 → g < s.saf.g.length → (grpCfg s g).defined = true →
        (safG t g).aLatch = true ∧ hasBit (safG t g).stopReq 9 = true) ∧ quiet s t ∧
      only [.chip, .recd, .saf, .pair] s t) ∧
    (s.pair.role = 2 → ∃ t, exec (.pairVoteReadback v) s = .next t ∧ t.pair.fit = false ∧
      t.pair.unfit = (if s.pair.unfit = 0 then 8 else s.pair.unfit) ∧ quiet s t ∧ only [.pair] s t)) ∧
  (∀ (v : Bool) (s : State),
    ∃ t, exec (.peerVoteChange v) s = .next t ∧
      t.pair = { s.pair with pvote := v, pvoteHigh := s.pair.pvoteHigh || v } ∧ quiet s t ∧ only [.pair] s t)

/-- R22, R23, R108, R137, R149, R386, R405: Once a ring is formed RING_START sets T_start, planned before or on a whole multiple of
the period at least 100 µs on, TICKNO 0 and a run nonce that is never 0, and the device runs; TICK_EDGE adds 1 to TICKNO and TB
stands at E0 of the new tick, which a follower takes from its master's beacon; a device that joins a start begins with tick 0 at
T_start; the first start fuses the key digest; before ring start and with a stopped time base nothing moves. Which multiple of
the period T_start is, and when RING_START may happen, are the model's choices (log 48). Commands that complete here, each as
the clause of its name says: tickEdge, ringStart, recordingRestart. -/
def Obligations.TicksAndRingStart : Prop :=
  (∀ (v : Nat) (s : State), s.chip.phase = .ringStart → s.time.run = false → s.time.stopped = false → v % 2 ^ 64 ≠ 0 →
    ringsReady s = true →
    ∃ t, exec (.ringStart v) s = .next t ∧ t.time.run = true ∧ t.time.tickno = 0 ∧ t.host.nonce = v % 2 ^ 64 ∧
      (s.time.tb ≤ s.time.tplan → t.time.tstart = s.time.tplan) ∧
      (s.time.tplan < s.time.tb → t.time.tstart % periodNs s = 0 ∧ s.time.tb + 100000 ≤ t.time.tstart) ∧
      t.time.e0 = t.time.tstart ∧
      t.chip.phase = .running ∧ t.fuse.keyDigest.isSome = true ∧
      (s.fuse.keyDigest = none → t.fuse.keyDigest = some s.image.keyDigest ∧ t.fuse.idKey = true) ∧
      t.fuse.opened = s.fuse.opened ∧ t.image = s.image ∧ t.conf = s.conf ∧ t.flash = s.flash) ∧
  (∀ (v : Nat) (s : State), (s.chip.phase ≠ .ringStart ∨ v % 2 ^ 64 = 0 ∨ ringsReady s = false) →
    exec (.ringStart v) s = .next s) ∧
  (∀ (e : List Nat) (b : Bool) (s : State), s.time.run = true → s.time.stopped = false → s.time.tickno + 1 < 2 ^ 64 →
    s.time.tb ≤ s.time.tstart + (s.time.tickno + 1) * periodNs s → (∀ x ∈ s.ring, x.master = x.node ∨ x.nextE0 = none) →
    ∃ t, exec (.tickEdge e b) s = .next t ∧ t.time.tickno = s.time.tickno + 1 ∧ t.time.run = true ∧
      t.time.tstart = s.time.tstart ∧ t.time.tb = s.time.tstart + (s.time.tickno + 1) * periodNs s ∧ t.image = s.image ∧
      t.conf = s.conf ∧ t.flash = s.flash) ∧
  (∀ (e : List Nat) (b : Bool) (i : Nat) (x : RingSt) (q : List RingSt) (s : State), s.time.run = true →
    s.time.stopped = false → s.time.tickno + 1 < 2 ^ 64 → s.ring = x :: q → x.master ≠ x.node →
    x.nextE0 = some (s.time.tickno + 1, i) → s.time.tb ≤ i →
    ∃ t, exec (.tickEdge e b) s = .next t ∧ t.time.tickno = s.time.tickno + 1 ∧ t.time.tb = i ∧ t.time.e0 = i) ∧
  (∀ (e : List Nat) (b : Bool) (s : State), s.time.run = false → s.time.stopped = false → joinsStart s = true →
    s.time.tb ≤ s.time.tplan →
    ∃ t, exec (.tickEdge e b) s = .next t ∧ t.time.run = true ∧ t.time.tickno = 0 ∧ t.time.tstart = s.time.tplan ∧
      t.time.tb = s.time.tplan ∧ t.chip.phase = .running ∧ t.image = s.image) ∧
  (∀ (e : List Nat) (b : Bool) (s : State), (s.time.stopped = true ∨ s.time.run = false ∧ joinsStart s = false) →
    exec (.tickEdge e b) s = .next s) ∧
  (∀ (s : State), s.recd.blocked = true → s.time.run = true →
    s.image.rechold * 1000000000 ≤ s.time.tickno * periodNs s →
    ∃ t, exec .recordingRestart s = .next t ∧ t.recd.on = true ∧ t.recd.blocked = false ∧ quiet s t ∧ only [.recd] s t) ∧
  (∀ (s : State), s.recd.blocked = false → exec .recordingRestart s = .next s)

/-- R30, R75 to R77, R390: A phase whose results came in time releases them at its deadline once; a group that is not done is a
miss, marked outside the promise; a later token is discarded; the finalised set-points go out once per tick, and with them the
replies that waited for 18.0 µs. Who misses a phase is the model's choice (log 69). Commands that complete here, each as the
clause of its name says: phaseCompletion, phaseDeadline, setpointRelease. -/
def Obligations.PhasesAndReplies : Prop :=
  (∀ (p a : Nat) (m : Mask) (s : State), p < s.time.slack.length → phaseRuns s p = true → (slackSt s p).judged = false →
    (slackSt s p).missNow = false → a ≤ deadlineNs s p →
    ∃ t, exec (.phaseCompletion p m a) s = .next t ∧ (slackSt t p).judged = false ∧
      (∀ g, hasBit m g = true → hasBit (slackSt t p).done g = true) ∧ onlyAt p s.time.slack t.time.slack) ∧
  (∀ (p a : Nat) (m : Mask) (s : State), (phaseRuns s p = false ∨ (slackSt s p).judged = true ∨ deadlineNs s p < a) →
    exec (.phaseCompletion p m a) s = .next s) ∧
  (∀ (p : Nat) (s : State), p < s.time.slack.length → phaseRuns s p = true → (slackSt s p).judged = false →
    ∃ t, exec (.phaseDeadline p) s = .next t ∧ (slackSt t p).judged = true ∧ (p = 7 → t.mot.fin = true) ∧
      (p = 4 → t.mot.servoRel = true) ∧ (unfinished s p ≠ 0 → (slackSt t p).miss = true) ∧
      (∀ g, 0 < s.time.causeNow.length → hasBit (unfinished s p) g = true → hasBit (nth t.time.causeNow 0) g = true)) ∧
  (∀ (p : Nat) (s : State), (phaseRuns s p = false ∨ (slackSt s p).judged = true) →
    exec (.phaseDeadline p) s = .next s) ∧
  (∀ (s : State), s.time.run = true → s.time.stopped = false →
    ∃ t, exec .setpointRelease s = .next t ∧ t.mot.spRel = true ∧ t.host.replies = [] ∧ t.host.waits = [] ∧
      (∀ g, safG t g = safG s g) ∧ t.time.tickno = s.time.tickno) ∧
  (∀ (s : State), s.time.run = true → s.time.stopped = false → s.mot.spRel = true → s.host.waits = [] → s.host.replies = [] →
    s.pair.cfg = false → exec .setpointRelease s = .next s) ∧
  (∀ (s : State), (s.time.run = false ∨ s.time.stopped = true) → exec .setpointRelease s = .next s)

/-- The block takes the command at the front of its queue and does what that command does with the rest of the queue; on an empty
queue it stays as it is. Every command of the table completes: it answers a next state in every state and with every operand. A
word that spells a command puts it at the front of the queue, and the step then runs it; the table gives bits to no row, and the
words of 32 bits are the slice instructions. That an empty queue idles is the model's choice (log 1), as is that a slice word
goes to slice 0.0 (log 130). -/
def Obligations.StepRunsFrontCommand : Prop :=
  (∀ (c : Instr) (s : State), step { s with pending := c :: s.pending } = exec c s) ∧
  (∀ (s : State), s.pending = [] → step s = .next s) ∧
  (∀ (c : Instr) (s : State), ∃ t, exec c s = .next t ∧ step { s with pending := c :: s.pending } = .next t) ∧
  (∀ (n w : Nat) (c : Instr) (s : State), decodeTableWord n w = some c →
    s.withFetchWord n w = { s with pending := c :: s.pending } ∧ step (s.withFetchWord n w) = exec c s) ∧
  (∀ (n w : Nat) (s : State), decodeTableWord n w = none → s.withFetchWord n w = s) ∧
  (∀ (n w : Nat) (s : State), n ≠ 32 → s.withFetchWord n w = s)

/-- R24, R108, R307, R386, R401, R409, R453: After a power-on reset no command waits, the device is before START_SEQUENCE, no tick
runs, TICKNO, TB, the run nonce, every last SEQ and the event log are empty or 0, the rings are down, every drive line is in the
safe state and memory lists nothing; that state is sound. That the state is a device after power-on, and the empty values that
R419 does not give, are the model's choice (log 6, 20). -/
def Obligations.ResetState : Prop :=
  State.reset.pending = [] ∧ State.reset.chip.phase = .reset ∧ State.reset.time.run = false ∧ State.reset.time.tickno = 0 ∧
  State.reset.time.tb = 0 ∧ State.reset.host.nonce = 0 ∧ (∀ k, (keySt State.reset k).last = 0) ∧
  State.reset.host.vq = [] ∧ State.reset.host.held = [] ∧ State.reset.chip.ev = [] ∧ State.reset.chip.evTotal = 0 ∧
  (∀ r, (ringSt State.reset r).state = .down) ∧ State.reset.saf.lineCmd = 0 ∧
  (∀ g, (grpSt State.reset g).state = .disabled) ∧ State.reset.fuse.opened = false ∧ State.reset.mem = [] ∧
  State.reset.chip.pstate = .start ∧ State.reset.sound = true

/-- Every step takes exactly the front command out of the queue: no command adds to the queue, reorders it or drops one that waits.
Every one of the 277 commands completes in every state: exec answers a next state, never a fault or a refusal. -/
def Obligations.QueueInOrder : Prop :=
  (∀ (c : Instr) (q : List Instr) (s t : State), s.pending = c :: q → step s = .next t → t.pending = q) ∧
  (∀ (c : Instr) (s : State), ∃ t, exec c s = .next t)

/-- R331, and the canonical form of memory: every step keeps a sound state sound: memory lists each written byte once, in rising
addresses, and there stay two copies of the confirmation record. -/
def Obligations.StepKeepsSound : Prop :=
  ∀ s t : State, s.sound = true → step s = .next t → t.sound = true

/-- R331, R405, R419, R448, R485: No step changes the serial number or the variant, clears OPENED, or changes the key digest and the
device key once they are burnt. -/
def Obligations.FusesLast : Prop :=
  ∀ s t : State, step s = .next t → fusesLast s t

/-- R395, R402, R411, R419, R485: Only START_SEQUENCE takes an image into use, and only a reset of the device clears what was
loaded; every other command leaves the configuration in use as it is. The flash changes by a finished flash operation or by what
is programmed from outside at a reset; the confirmation records by CONFIRMATION_WRITE_DONE alone; OPENED by the test-access
sequence alone. -/
def Obligations.ConfigurationLasts : Prop :=
  (∀ (c : Instr) (s t : State), exec c s = .next t →
    (∀ b f v, c ≠ .startSequence b f v) → (∀ f, c ≠ .powerOnReset f) → c ≠ .supplyMonitorReset → (∀ f, c ≠ .externalReset f) →
    c ≠ .resetBegin → c ≠ .wdogReset → t.image = s.image) ∧
  (∀ (c : Instr) (s t : State), exec c s = .next t →
    (∀ n, c ≠ .flashOpDone n) → (∀ f, c ≠ .powerOnReset f) → (∀ f, c ≠ .externalReset f) → t.flash = s.flash) ∧
  (∀ (c : Instr) (s t : State), exec c s = .next t → (∀ b, c ≠ .confirmationWriteDone b) → t.conf = s.conf) ∧
  (∀ (c : Instr) (s t : State), exec c s = .next t → (∀ b, c ≠ .testModeEntry b) → t.fuse.opened = s.fuse.opened)
end

