-- ==== Sys2Proof/Laws/State.lean ====
section
/-! SUPPORT. State.lean: what each update of one unit writes, and that it leaves every other field of the state as it is. -/

namespace Sys2Proof.Machine

/-! ### Tables -/

@[simp] theorem updAt_length {α : Type} (l : List α) (i : Nat) (f : α → α) : (updAt l i f).length = l.length := by
  induction l generalizing i with
  | nil => rfl
  | cons x l ih => cases i <;> simp [updAt, ih]

theorem nth_updAt {α : Type} [Inhabited α] (l : List α) (i j : Nat) (f : α → α) :
    nth (updAt l i f) j = if j = i ∧ i < l.length then f (nth l i) else nth l j := by
  induction l generalizing i j with
  | nil => simp [updAt]
  | cons x l ih =>
    cases i with
    | zero => cases j <;> simp [updAt, nth]
    | succ i =>
      cases j with
      | zero => simp [updAt, nth]
      | succ j => simpa [updAt, nth] using ih i j

/-- Element i of a table after an update of it. -/
@[simp] theorem nth_updAt_self {α : Type} [Inhabited α] (l : List α) (i : Nat) (f : α → α) (h : i < l.length) :
    nth (updAt l i f) i = f (nth l i) := by simp [nth_updAt, h]

/-- An update of element i leaves every other element. -/
theorem nth_updAt_ne {α : Type} [Inhabited α] (l : List α) (i j : Nat) (f : α → α) (h : j ≠ i) :
    nth (updAt l i f) j = nth l j := by simp [nth_updAt, h]

/-- What is stored under a key reads back, and every other key reads as before. -/
theorem assoc_assocPut {α : Type} (l : List (Nat × α)) (k j : Nat) (v : α) :
    assoc (assocPut l k v) j = if j = k then some v else assoc l j := by
  induction l with
  | nil => simp [assocPut, assoc, eq_comm]
  | cons x l ih =>
    obtain ⟨a, w⟩ := x
    unfold assocPut
    split
    · simp [assoc, @eq_comm _ k j]
    · split
      · rename_i _ hk; subst hk; simp only [assoc, @eq_comm _ k j]; split <;> simp_all
      · simp only [assoc, ih]
        by_cases ha : a = j
        · subst ha; simp [Ne.symm ‹¬k = a›]
        · simp [ha]

/-! ### onSaf -/

@[simp] theorem onSaf_pending (f : SafSt → SafSt) (s : State) : (onSaf f s).pending = s.pending := rfl
@[simp] theorem onSaf_fuse (f : SafSt → SafSt) (s : State) : (onSaf f s).fuse = s.fuse := rfl
@[simp] theorem onSaf_flash (f : SafSt → SafSt) (s : State) : (onSaf f s).flash = s.flash := rfl
@[simp] theorem onSaf_conf (f : SafSt → SafSt) (s : State) : (onSaf f s).conf = s.conf := rfl
@[simp] theorem onSaf_image (f : SafSt → SafSt) (s : State) : (onSaf f s).image = s.image := rfl
@[simp] theorem onSaf_chip (f : SafSt → SafSt) (s : State) : (onSaf f s).chip = s.chip := rfl
@[simp] theorem onSaf_time (f : SafSt → SafSt) (s : State) : (onSaf f s).time = s.time := rfl
@[simp] theorem onSaf_recd (f : SafSt → SafSt) (s : State) : (onSaf f s).recd = s.recd := rfl
@[simp] theorem onSaf_ring (f : SafSt → SafSt) (s : State) : (onSaf f s).ring = s.ring := rfl
@[simp] theorem onSaf_axio (f : SafSt → SafSt) (s : State) : (onSaf f s).axio = s.axio := rfl
@[simp] theorem onSaf_mot (f : SafSt → SafSt) (s : State) : (onSaf f s).mot = s.mot := rfl
@[simp] theorem onSaf_sol (f : SafSt → SafSt) (s : State) : (onSaf f s).sol = s.sol := rfl
@[simp] theorem onSaf_trl (f : SafSt → SafSt) (s : State) : (onSaf f s).trl = s.trl := rfl
@[simp] theorem onSaf_saf (f : SafSt → SafSt) (s : State) : (onSaf f s).saf = f s.saf := rfl
@[simp] theorem onSaf_host (f : SafSt → SafSt) (s : State) : (onSaf f s).host = s.host := rfl
@[simp] theorem onSaf_pair (f : SafSt → SafSt) (s : State) : (onSaf f s).pair = s.pair := rfl
@[simp] theorem onSaf_regions (f : SafSt → SafSt) (s : State) : (onSaf f s).regions = s.regions := rfl
@[simp] theorem onSaf_mem (f : SafSt → SafSt) (s : State) : (onSaf f s).mem = s.mem := rfl
@[simp] theorem onSaf_free (f : SafSt → SafSt) (s : State) : (onSaf f s).free = s.free := rfl

/-! ### onSafG -/

@[simp] theorem onSafG_pending (g : Nat) (f : SafGroup → SafGroup) (s : State) : (onSafG g f s).pending = s.pending := rfl
@[simp] theorem onSafG_fuse (g : Nat) (f : SafGroup → SafGroup) (s : State) : (onSafG g f s).fuse = s.fuse := rfl
@[simp] theorem onSafG_flash (g : Nat) (f : SafGroup → SafGroup) (s : State) : (onSafG g f s).flash = s.flash := rfl
@[simp] theorem onSafG_conf (g : Nat) (f : SafGroup → SafGroup) (s : State) : (onSafG g f s).conf = s.conf := rfl
@[simp] theorem onSafG_image (g : Nat) (f : SafGroup → SafGroup) (s : State) : (onSafG g f s).image = s.image := rfl
@[simp] theorem onSafG_chip (g : Nat) (f : SafGroup → SafGroup) (s : State) : (onSafG g f s).chip = s.chip := rfl
@[simp] theorem onSafG_time (g : Nat) (f : SafGroup → SafGroup) (s : State) : (onSafG g f s).time = s.time := rfl
@[simp] theorem onSafG_recd (g : Nat) (f : SafGroup → SafGroup) (s : State) : (onSafG g f s).recd = s.recd := rfl
@[simp] theorem onSafG_ring (g : Nat) (f : SafGroup → SafGroup) (s : State) : (onSafG g f s).ring = s.ring := rfl
@[simp] theorem onSafG_axio (g : Nat) (f : SafGroup → SafGroup) (s : State) : (onSafG g f s).axio = s.axio := rfl
@[simp] theorem onSafG_mot (g : Nat) (f : SafGroup → SafGroup) (s : State) : (onSafG g f s).mot = s.mot := rfl
@[simp] theorem onSafG_sol (g : Nat) (f : SafGroup → SafGroup) (s : State) : (onSafG g f s).sol = s.sol := rfl
@[simp] theorem onSafG_trl (g : Nat) (f : SafGroup → SafGroup) (s : State) : (onSafG g f s).trl = s.trl := rfl
@[simp] theorem onSafG_saf (g : Nat) (f : SafGroup → SafGroup) (s : State) : (onSafG g f s).saf = { s.saf with g := updAt s.saf.g g f } := rfl
@[simp] theorem onSafG_host (g : Nat) (f : SafGroup → SafGroup) (s : State) : (onSafG g f s).host = s.host := rfl
@[simp] theorem onSafG_pair (g : Nat) (f : SafGroup → SafGroup) (s : State) : (onSafG g f s).pair = s.pair := rfl
@[simp] theorem onSafG_regions (g : Nat) (f : SafGroup → SafGroup) (s : State) : (onSafG g f s).regions = s.regions := rfl
@[simp] theorem onSafG_mem (g : Nat) (f : SafGroup → SafGroup) (s : State) : (onSafG g f s).mem = s.mem := rfl
@[simp] theorem onSafG_free (g : Nat) (f : SafGroup → SafGroup) (s : State) : (onSafG g f s).free = s.free := rfl

/-! ### onChip -/

@[simp] theorem onChip_pending (f : ChipSt → ChipSt) (s : State) : (onChip f s).pending = s.pending := rfl
@[simp] theorem onChip_fuse (f : ChipSt → ChipSt) (s : State) : (onChip f s).fuse = s.fuse := rfl
@[simp] theorem onChip_flash (f : ChipSt → ChipSt) (s : State) : (onChip f s).flash = s.flash := rfl
@[simp] theorem onChip_conf (f : ChipSt → ChipSt) (s : State) : (onChip f s).conf = s.conf := rfl
@[simp] theorem onChip_image (f : ChipSt → ChipSt) (s : State) : (onChip f s).image = s.image := rfl
@[simp] theorem onChip_chip (f : ChipSt → ChipSt) (s : State) : (onChip f s).chip = f s.chip := rfl
@[simp] theorem onChip_time (f : ChipSt → ChipSt) (s : State) : (onChip f s).time = s.time := rfl
@[simp] theorem onChip_recd (f : ChipSt → ChipSt) (s : State) : (onChip f s).recd = s.recd := rfl
@[simp] theorem onChip_ring (f : ChipSt → ChipSt) (s : State) : (onChip f s).ring = s.ring := rfl
@[simp] theorem onChip_axio (f : ChipSt → ChipSt) (s : State) : (onChip f s).axio = s.axio := rfl
@[simp] theorem onChip_mot (f : ChipSt → ChipSt) (s : State) : (onChip f s).mot = s.mot := rfl
@[simp] theorem onChip_sol (f : ChipSt → ChipSt) (s : State) : (onChip f s).sol = s.sol := rfl
@[simp] theorem onChip_trl (f : ChipSt → ChipSt) (s : State) : (onChip f s).trl = s.trl := rfl
@[simp] theorem onChip_saf (f : ChipSt → ChipSt) (s : State) : (onChip f s).saf = s.saf := rfl
@[simp] theorem onChip_host (f : ChipSt → ChipSt) (s : State) : (onChip f s).host = s.host := rfl
@[simp] theorem onChip_pair (f : ChipSt → ChipSt) (s : State) : (onChip f s).pair = s.pair := rfl
@[simp] theorem onChip_regions (f : ChipSt → ChipSt) (s : State) : (onChip f s).regions = s.regions := rfl
@[simp] theorem onChip_mem (f : ChipSt → ChipSt) (s : State) : (onChip f s).mem = s.mem := rfl
@[simp] theorem onChip_free (f : ChipSt → ChipSt) (s : State) : (onChip f s).free = s.free := rfl

/-! ### onTime -/

@[simp] theorem onTime_pending (f : TimeSt → TimeSt) (s : State) : (onTime f s).pending = s.pending := rfl
@[simp] theorem onTime_fuse (f : TimeSt → TimeSt) (s : State) : (onTime f s).fuse = s.fuse := rfl
@[simp] theorem onTime_flash (f : TimeSt → TimeSt) (s : State) : (onTime f s).flash = s.flash := rfl
@[simp] theorem onTime_conf (f : TimeSt → TimeSt) (s : State) : (onTime f s).conf = s.conf := rfl
@[simp] theorem onTime_image (f : TimeSt → TimeSt) (s : State) : (onTime f s).image = s.image := rfl
@[simp] theorem onTime_chip (f : TimeSt → TimeSt) (s : State) : (onTime f s).chip = s.chip := rfl
@[simp] theorem onTime_time (f : TimeSt → TimeSt) (s : State) : (onTime f s).time = f s.time := rfl
@[simp] theorem onTime_recd (f : TimeSt → TimeSt) (s : State) : (onTime f s).recd = s.recd := rfl
@[simp] theorem onTime_ring (f : TimeSt → TimeSt) (s : State) : (onTime f s).ring = s.ring := rfl
@[simp] theorem onTime_axio (f : TimeSt → TimeSt) (s : State) : (onTime f s).axio = s.axio := rfl
@[simp] theorem onTime_mot (f : TimeSt → TimeSt) (s : State) : (onTime f s).mot = s.mot := rfl
@[simp] theorem onTime_sol (f : TimeSt → TimeSt) (s : State) : (onTime f s).sol = s.sol := rfl
@[simp] theorem onTime_trl (f : TimeSt → TimeSt) (s : State) : (onTime f s).trl = s.trl := rfl
@[simp] theorem onTime_saf (f : TimeSt → TimeSt) (s : State) : (onTime f s).saf = s.saf := rfl
@[simp] theorem onTime_host (f : TimeSt → TimeSt) (s : State) : (onTime f s).host = s.host := rfl
@[simp] theorem onTime_pair (f : TimeSt → TimeSt) (s : State) : (onTime f s).pair = s.pair := rfl
@[simp] theorem onTime_regions (f : TimeSt → TimeSt) (s : State) : (onTime f s).regions = s.regions := rfl
@[simp] theorem onTime_mem (f : TimeSt → TimeSt) (s : State) : (onTime f s).mem = s.mem := rfl
@[simp] theorem onTime_free (f : TimeSt → TimeSt) (s : State) : (onTime f s).free = s.free := rfl

/-! ### onRing -/

@[simp] theorem onRing_pending (r : Nat) (f : RingSt → RingSt) (s : State) : (onRing r f s).pending = s.pending := rfl
@[simp] theorem onRing_fuse (r : Nat) (f : RingSt → RingSt) (s : State) : (onRing r f s).fuse = s.fuse := rfl
@[simp] theorem onRing_flash (r : Nat) (f : RingSt → RingSt) (s : State) : (onRing r f s).flash = s.flash := rfl
@[simp] theorem onRing_conf (r : Nat) (f : RingSt → RingSt) (s : State) : (onRing r f s).conf = s.conf := rfl
@[simp] theorem onRing_image (r : Nat) (f : RingSt → RingSt) (s : State) : (onRing r f s).image = s.image := rfl
@[simp] theorem onRing_chip (r : Nat) (f : RingSt → RingSt) (s : State) : (onRing r f s).chip = s.chip := rfl
@[simp] theorem onRing_time (r : Nat) (f : RingSt → RingSt) (s : State) : (onRing r f s).time = s.time := rfl
@[simp] theorem onRing_recd (r : Nat) (f : RingSt → RingSt) (s : State) : (onRing r f s).recd = s.recd := rfl
@[simp] theorem onRing_ring (r : Nat) (f : RingSt → RingSt) (s : State) : (onRing r f s).ring = updAt s.ring r f := rfl
@[simp] theorem onRing_axio (r : Nat) (f : RingSt → RingSt) (s : State) : (onRing r f s).axio = s.axio := rfl
@[simp] theorem onRing_mot (r : Nat) (f : RingSt → RingSt) (s : State) : (onRing r f s).mot = s.mot := rfl
@[simp] theorem onRing_sol (r : Nat) (f : RingSt → RingSt) (s : State) : (onRing r f s).sol = s.sol := rfl
@[simp] theorem onRing_trl (r : Nat) (f : RingSt → RingSt) (s : State) : (onRing r f s).trl = s.trl := rfl
@[simp] theorem onRing_saf (r : Nat) (f : RingSt → RingSt) (s : State) : (onRing r f s).saf = s.saf := rfl
@[simp] theorem onRing_host (r : Nat) (f : RingSt → RingSt) (s : State) : (onRing r f s).host = s.host := rfl
@[simp] theorem onRing_pair (r : Nat) (f : RingSt → RingSt) (s : State) : (onRing r f s).pair = s.pair := rfl
@[simp] theorem onRing_regions (r : Nat) (f : RingSt → RingSt) (s : State) : (onRing r f s).regions = s.regions := rfl
@[simp] theorem onRing_mem (r : Nat) (f : RingSt → RingSt) (s : State) : (onRing r f s).mem = s.mem := rfl
@[simp] theorem onRing_free (r : Nat) (f : RingSt → RingSt) (s : State) : (onRing r f s).free = s.free := rfl

/-! ### onNode -/

@[simp] theorem onNode_pending (r j : Nat) (f : NodeSt → NodeSt) (s : State) : (onNode r j f s).pending = s.pending := rfl
@[simp] theorem onNode_fuse (r j : Nat) (f : NodeSt → NodeSt) (s : State) : (onNode r j f s).fuse = s.fuse := rfl
@[simp] theorem onNode_flash (r j : Nat) (f : NodeSt → NodeSt) (s : State) : (onNode r j f s).flash = s.flash := rfl
@[simp] theorem onNode_conf (r j : Nat) (f : NodeSt → NodeSt) (s : State) : (onNode r j f s).conf = s.conf := rfl
@[simp] theorem onNode_image (r j : Nat) (f : NodeSt → NodeSt) (s : State) : (onNode r j f s).image = s.image := rfl
@[simp] theorem onNode_chip (r j : Nat) (f : NodeSt → NodeSt) (s : State) : (onNode r j f s).chip = s.chip := rfl
@[simp] theorem onNode_time (r j : Nat) (f : NodeSt → NodeSt) (s : State) : (onNode r j f s).time = s.time := rfl
@[simp] theorem onNode_recd (r j : Nat) (f : NodeSt → NodeSt) (s : State) : (onNode r j f s).recd = s.recd := rfl
@[simp] theorem onNode_ring (r j : Nat) (f : NodeSt → NodeSt) (s : State) : (onNode r j f s).ring = updAt s.ring r (fun x => { x with nodes := updAt x.nodes j f }) := rfl
@[simp] theorem onNode_axio (r j : Nat) (f : NodeSt → NodeSt) (s : State) : (onNode r j f s).axio = s.axio := rfl
@[simp] theorem onNode_mot (r j : Nat) (f : NodeSt → NodeSt) (s : State) : (onNode r j f s).mot = s.mot := rfl
@[simp] theorem onNode_sol (r j : Nat) (f : NodeSt → NodeSt) (s : State) : (onNode r j f s).sol = s.sol := rfl
@[simp] theorem onNode_trl (r j : Nat) (f : NodeSt → NodeSt) (s : State) : (onNode r j f s).trl = s.trl := rfl
@[simp] theorem onNode_saf (r j : Nat) (f : NodeSt → NodeSt) (s : State) : (onNode r j f s).saf = s.saf := rfl
@[simp] theorem onNode_host (r j : Nat) (f : NodeSt → NodeSt) (s : State) : (onNode r j f s).host = s.host := rfl
@[simp] theorem onNode_pair (r j : Nat) (f : NodeSt → NodeSt) (s : State) : (onNode r j f s).pair = s.pair := rfl
@[simp] theorem onNode_regions (r j : Nat) (f : NodeSt → NodeSt) (s : State) : (onNode r j f s).regions = s.regions := rfl
@[simp] theorem onNode_mem (r j : Nat) (f : NodeSt → NodeSt) (s : State) : (onNode r j f s).mem = s.mem := rfl
@[simp] theorem onNode_free (r j : Nat) (f : NodeSt → NodeSt) (s : State) : (onNode r j f s).free = s.free := rfl

/-! ### onChan -/

@[simp] theorem onChan_pending (c : Nat) (f : ChanSt → ChanSt) (s : State) : (onChan c f s).pending = s.pending := rfl
@[simp] theorem onChan_fuse (c : Nat) (f : ChanSt → ChanSt) (s : State) : (onChan c f s).fuse = s.fuse := rfl
@[simp] theorem onChan_flash (c : Nat) (f : ChanSt → ChanSt) (s : State) : (onChan c f s).flash = s.flash := rfl
@[simp] theorem onChan_conf (c : Nat) (f : ChanSt → ChanSt) (s : State) : (onChan c f s).conf = s.conf := rfl
@[simp] theorem onChan_image (c : Nat) (f : ChanSt → ChanSt) (s : State) : (onChan c f s).image = s.image := rfl
@[simp] theorem onChan_chip (c : Nat) (f : ChanSt → ChanSt) (s : State) : (onChan c f s).chip = s.chip := rfl
@[simp] theorem onChan_time (c : Nat) (f : ChanSt → ChanSt) (s : State) : (onChan c f s).time = s.time := rfl
@[simp] theorem onChan_recd (c : Nat) (f : ChanSt → ChanSt) (s : State) : (onChan c f s).recd = s.recd := rfl
@[simp] theorem onChan_ring (c : Nat) (f : ChanSt → ChanSt) (s : State) : (onChan c f s).ring = s.ring := rfl
@[simp] theorem onChan_axio (c : Nat) (f : ChanSt → ChanSt) (s : State) : (onChan c f s).axio = updAt s.axio c f := rfl
@[simp] theorem onChan_mot (c : Nat) (f : ChanSt → ChanSt) (s : State) : (onChan c f s).mot = s.mot := rfl
@[simp] theorem onChan_sol (c : Nat) (f : ChanSt → ChanSt) (s : State) : (onChan c f s).sol = s.sol := rfl
@[simp] theorem onChan_trl (c : Nat) (f : ChanSt → ChanSt) (s : State) : (onChan c f s).trl = s.trl := rfl
@[simp] theorem onChan_saf (c : Nat) (f : ChanSt → ChanSt) (s : State) : (onChan c f s).saf = s.saf := rfl
@[simp] theorem onChan_host (c : Nat) (f : ChanSt → ChanSt) (s : State) : (onChan c f s).host = s.host := rfl
@[simp] theorem onChan_pair (c : Nat) (f : ChanSt → ChanSt) (s : State) : (onChan c f s).pair = s.pair := rfl
@[simp] theorem onChan_regions (c : Nat) (f : ChanSt → ChanSt) (s : State) : (onChan c f s).regions = s.regions := rfl
@[simp] theorem onChan_mem (c : Nat) (f : ChanSt → ChanSt) (s : State) : (onChan c f s).mem = s.mem := rfl
@[simp] theorem onChan_free (c : Nat) (f : ChanSt → ChanSt) (s : State) : (onChan c f s).free = s.free := rfl

/-! ### onAxis -/

@[simp] theorem onAxis_pending (a : Nat) (f : AxisSt → AxisSt) (s : State) : (onAxis a f s).pending = s.pending := rfl
@[simp] theorem onAxis_fuse (a : Nat) (f : AxisSt → AxisSt) (s : State) : (onAxis a f s).fuse = s.fuse := rfl
@[simp] theorem onAxis_flash (a : Nat) (f : AxisSt → AxisSt) (s : State) : (onAxis a f s).flash = s.flash := rfl
@[simp] theorem onAxis_conf (a : Nat) (f : AxisSt → AxisSt) (s : State) : (onAxis a f s).conf = s.conf := rfl
@[simp] theorem onAxis_image (a : Nat) (f : AxisSt → AxisSt) (s : State) : (onAxis a f s).image = s.image := rfl
@[simp] theorem onAxis_chip (a : Nat) (f : AxisSt → AxisSt) (s : State) : (onAxis a f s).chip = s.chip := rfl
@[simp] theorem onAxis_time (a : Nat) (f : AxisSt → AxisSt) (s : State) : (onAxis a f s).time = s.time := rfl
@[simp] theorem onAxis_recd (a : Nat) (f : AxisSt → AxisSt) (s : State) : (onAxis a f s).recd = s.recd := rfl
@[simp] theorem onAxis_ring (a : Nat) (f : AxisSt → AxisSt) (s : State) : (onAxis a f s).ring = s.ring := rfl
@[simp] theorem onAxis_axio (a : Nat) (f : AxisSt → AxisSt) (s : State) : (onAxis a f s).axio = s.axio := rfl
@[simp] theorem onAxis_mot (a : Nat) (f : AxisSt → AxisSt) (s : State) : (onAxis a f s).mot = { s.mot with axes := updAt s.mot.axes a f } := rfl
@[simp] theorem onAxis_sol (a : Nat) (f : AxisSt → AxisSt) (s : State) : (onAxis a f s).sol = s.sol := rfl
@[simp] theorem onAxis_trl (a : Nat) (f : AxisSt → AxisSt) (s : State) : (onAxis a f s).trl = s.trl := rfl
@[simp] theorem onAxis_saf (a : Nat) (f : AxisSt → AxisSt) (s : State) : (onAxis a f s).saf = s.saf := rfl
@[simp] theorem onAxis_host (a : Nat) (f : AxisSt → AxisSt) (s : State) : (onAxis a f s).host = s.host := rfl
@[simp] theorem onAxis_pair (a : Nat) (f : AxisSt → AxisSt) (s : State) : (onAxis a f s).pair = s.pair := rfl
@[simp] theorem onAxis_regions (a : Nat) (f : AxisSt → AxisSt) (s : State) : (onAxis a f s).regions = s.regions := rfl
@[simp] theorem onAxis_mem (a : Nat) (f : AxisSt → AxisSt) (s : State) : (onAxis a f s).mem = s.mem := rfl
@[simp] theorem onAxis_free (a : Nat) (f : AxisSt → AxisSt) (s : State) : (onAxis a f s).free = s.free := rfl

/-! ### onGrp -/

@[simp] theorem onGrp_pending (g : Nat) (f : GroupSt → GroupSt) (s : State) : (onGrp g f s).pending = s.pending := rfl
@[simp] theorem onGrp_fuse (g : Nat) (f : GroupSt → GroupSt) (s : State) : (onGrp g f s).fuse = s.fuse := rfl
@[simp] theorem onGrp_flash (g : Nat) (f : GroupSt → GroupSt) (s : State) : (onGrp g f s).flash = s.flash := rfl
@[simp] theorem onGrp_conf (g : Nat) (f : GroupSt → GroupSt) (s : State) : (onGrp g f s).conf = s.conf := rfl
@[simp] theorem onGrp_image (g : Nat) (f : GroupSt → GroupSt) (s : State) : (onGrp g f s).image = s.image := rfl
@[simp] theorem onGrp_chip (g : Nat) (f : GroupSt → GroupSt) (s : State) : (onGrp g f s).chip = s.chip := rfl
@[simp] theorem onGrp_time (g : Nat) (f : GroupSt → GroupSt) (s : State) : (onGrp g f s).time = s.time := rfl
@[simp] theorem onGrp_recd (g : Nat) (f : GroupSt → GroupSt) (s : State) : (onGrp g f s).recd = s.recd := rfl
@[simp] theorem onGrp_ring (g : Nat) (f : GroupSt → GroupSt) (s : State) : (onGrp g f s).ring = s.ring := rfl
@[simp] theorem onGrp_axio (g : Nat) (f : GroupSt → GroupSt) (s : State) : (onGrp g f s).axio = s.axio := rfl
@[simp] theorem onGrp_mot (g : Nat) (f : GroupSt → GroupSt) (s : State) : (onGrp g f s).mot = { s.mot with groups := updAt s.mot.groups g f } := rfl
@[simp] theorem onGrp_sol (g : Nat) (f : GroupSt → GroupSt) (s : State) : (onGrp g f s).sol = s.sol := rfl
@[simp] theorem onGrp_trl (g : Nat) (f : GroupSt → GroupSt) (s : State) : (onGrp g f s).trl = s.trl := rfl
@[simp] theorem onGrp_saf (g : Nat) (f : GroupSt → GroupSt) (s : State) : (onGrp g f s).saf = s.saf := rfl
@[simp] theorem onGrp_host (g : Nat) (f : GroupSt → GroupSt) (s : State) : (onGrp g f s).host = s.host := rfl
@[simp] theorem onGrp_pair (g : Nat) (f : GroupSt → GroupSt) (s : State) : (onGrp g f s).pair = s.pair := rfl
@[simp] theorem onGrp_regions (g : Nat) (f : GroupSt → GroupSt) (s : State) : (onGrp g f s).regions = s.regions := rfl
@[simp] theorem onGrp_mem (g : Nat) (f : GroupSt → GroupSt) (s : State) : (onGrp g f s).mem = s.mem := rfl
@[simp] theorem onGrp_free (g : Nat) (f : GroupSt → GroupSt) (s : State) : (onGrp g f s).free = s.free := rfl

/-! ### onTrlG -/

@[simp] theorem onTrlG_pending (g : Nat) (f : TrlGroup → TrlGroup) (s : State) : (onTrlG g f s).pending = s.pending := rfl
@[simp] theorem onTrlG_fuse (g : Nat) (f : TrlGroup → TrlGroup) (s : State) : (onTrlG g f s).fuse = s.fuse := rfl
@[simp] theorem onTrlG_flash (g : Nat) (f : TrlGroup → TrlGroup) (s : State) : (onTrlG g f s).flash = s.flash := rfl
@[simp] theorem onTrlG_conf (g : Nat) (f : TrlGroup → TrlGroup) (s : State) : (onTrlG g f s).conf = s.conf := rfl
@[simp] theorem onTrlG_image (g : Nat) (f : TrlGroup → TrlGroup) (s : State) : (onTrlG g f s).image = s.image := rfl
@[simp] theorem onTrlG_chip (g : Nat) (f : TrlGroup → TrlGroup) (s : State) : (onTrlG g f s).chip = s.chip := rfl
@[simp] theorem onTrlG_time (g : Nat) (f : TrlGroup → TrlGroup) (s : State) : (onTrlG g f s).time = s.time := rfl
@[simp] theorem onTrlG_recd (g : Nat) (f : TrlGroup → TrlGroup) (s : State) : (onTrlG g f s).recd = s.recd := rfl
@[simp] theorem onTrlG_ring (g : Nat) (f : TrlGroup → TrlGroup) (s : State) : (onTrlG g f s).ring = s.ring := rfl
@[simp] theorem onTrlG_axio (g : Nat) (f : TrlGroup → TrlGroup) (s : State) : (onTrlG g f s).axio = s.axio := rfl
@[simp] theorem onTrlG_mot (g : Nat) (f : TrlGroup → TrlGroup) (s : State) : (onTrlG g f s).mot = s.mot := rfl
@[simp] theorem onTrlG_sol (g : Nat) (f : TrlGroup → TrlGroup) (s : State) : (onTrlG g f s).sol = s.sol := rfl
@[simp] theorem onTrlG_trl (g : Nat) (f : TrlGroup → TrlGroup) (s : State) : (onTrlG g f s).trl = { s.trl with g := updAt s.trl.g g f } := rfl
@[simp] theorem onTrlG_saf (g : Nat) (f : TrlGroup → TrlGroup) (s : State) : (onTrlG g f s).saf = s.saf := rfl
@[simp] theorem onTrlG_host (g : Nat) (f : TrlGroup → TrlGroup) (s : State) : (onTrlG g f s).host = s.host := rfl
@[simp] theorem onTrlG_pair (g : Nat) (f : TrlGroup → TrlGroup) (s : State) : (onTrlG g f s).pair = s.pair := rfl
@[simp] theorem onTrlG_regions (g : Nat) (f : TrlGroup → TrlGroup) (s : State) : (onTrlG g f s).regions = s.regions := rfl
@[simp] theorem onTrlG_mem (g : Nat) (f : TrlGroup → TrlGroup) (s : State) : (onTrlG g f s).mem = s.mem := rfl
@[simp] theorem onTrlG_free (g : Nat) (f : TrlGroup → TrlGroup) (s : State) : (onTrlG g f s).free = s.free := rfl

/-! ### onZone -/

@[simp] theorem onZone_pending (z : Nat) (f : ZoneSt → ZoneSt) (s : State) : (onZone z f s).pending = s.pending := rfl
@[simp] theorem onZone_fuse (z : Nat) (f : ZoneSt → ZoneSt) (s : State) : (onZone z f s).fuse = s.fuse := rfl
@[simp] theorem onZone_flash (z : Nat) (f : ZoneSt → ZoneSt) (s : State) : (onZone z f s).flash = s.flash := rfl
@[simp] theorem onZone_conf (z : Nat) (f : ZoneSt → ZoneSt) (s : State) : (onZone z f s).conf = s.conf := rfl
@[simp] theorem onZone_image (z : Nat) (f : ZoneSt → ZoneSt) (s : State) : (onZone z f s).image = s.image := rfl
@[simp] theorem onZone_chip (z : Nat) (f : ZoneSt → ZoneSt) (s : State) : (onZone z f s).chip = s.chip := rfl
@[simp] theorem onZone_time (z : Nat) (f : ZoneSt → ZoneSt) (s : State) : (onZone z f s).time = s.time := rfl
@[simp] theorem onZone_recd (z : Nat) (f : ZoneSt → ZoneSt) (s : State) : (onZone z f s).recd = s.recd := rfl
@[simp] theorem onZone_ring (z : Nat) (f : ZoneSt → ZoneSt) (s : State) : (onZone z f s).ring = s.ring := rfl
@[simp] theorem onZone_axio (z : Nat) (f : ZoneSt → ZoneSt) (s : State) : (onZone z f s).axio = s.axio := rfl
@[simp] theorem onZone_mot (z : Nat) (f : ZoneSt → ZoneSt) (s : State) : (onZone z f s).mot = s.mot := rfl
@[simp] theorem onZone_sol (z : Nat) (f : ZoneSt → ZoneSt) (s : State) : (onZone z f s).sol = s.sol := rfl
@[simp] theorem onZone_trl (z : Nat) (f : ZoneSt → ZoneSt) (s : State) : (onZone z f s).trl = { s.trl with zones := updAt s.trl.zones z f } := rfl
@[simp] theorem onZone_saf (z : Nat) (f : ZoneSt → ZoneSt) (s : State) : (onZone z f s).saf = s.saf := rfl
@[simp] theorem onZone_host (z : Nat) (f : ZoneSt → ZoneSt) (s : State) : (onZone z f s).host = s.host := rfl
@[simp] theorem onZone_pair (z : Nat) (f : ZoneSt → ZoneSt) (s : State) : (onZone z f s).pair = s.pair := rfl
@[simp] theorem onZone_regions (z : Nat) (f : ZoneSt → ZoneSt) (s : State) : (onZone z f s).regions = s.regions := rfl
@[simp] theorem onZone_mem (z : Nat) (f : ZoneSt → ZoneSt) (s : State) : (onZone z f s).mem = s.mem := rfl
@[simp] theorem onZone_free (z : Nat) (f : ZoneSt → ZoneSt) (s : State) : (onZone z f s).free = s.free := rfl

/-! ### onObj -/

@[simp] theorem onObj_pending (j : Nat) (f : ObjSt → ObjSt) (s : State) : (onObj j f s).pending = s.pending := rfl
@[simp] theorem onObj_fuse (j : Nat) (f : ObjSt → ObjSt) (s : State) : (onObj j f s).fuse = s.fuse := rfl
@[simp] theorem onObj_flash (j : Nat) (f : ObjSt → ObjSt) (s : State) : (onObj j f s).flash = s.flash := rfl
@[simp] theorem onObj_conf (j : Nat) (f : ObjSt → ObjSt) (s : State) : (onObj j f s).conf = s.conf := rfl
@[simp] theorem onObj_image (j : Nat) (f : ObjSt → ObjSt) (s : State) : (onObj j f s).image = s.image := rfl
@[simp] theorem onObj_chip (j : Nat) (f : ObjSt → ObjSt) (s : State) : (onObj j f s).chip = s.chip := rfl
@[simp] theorem onObj_time (j : Nat) (f : ObjSt → ObjSt) (s : State) : (onObj j f s).time = s.time := rfl
@[simp] theorem onObj_recd (j : Nat) (f : ObjSt → ObjSt) (s : State) : (onObj j f s).recd = s.recd := rfl
@[simp] theorem onObj_ring (j : Nat) (f : ObjSt → ObjSt) (s : State) : (onObj j f s).ring = s.ring := rfl
@[simp] theorem onObj_axio (j : Nat) (f : ObjSt → ObjSt) (s : State) : (onObj j f s).axio = s.axio := rfl
@[simp] theorem onObj_mot (j : Nat) (f : ObjSt → ObjSt) (s : State) : (onObj j f s).mot = s.mot := rfl
@[simp] theorem onObj_sol (j : Nat) (f : ObjSt → ObjSt) (s : State) : (onObj j f s).sol = s.sol := rfl
@[simp] theorem onObj_trl (j : Nat) (f : ObjSt → ObjSt) (s : State) : (onObj j f s).trl = { s.trl with objs := updAt s.trl.objs j f } := rfl
@[simp] theorem onObj_saf (j : Nat) (f : ObjSt → ObjSt) (s : State) : (onObj j f s).saf = s.saf := rfl
@[simp] theorem onObj_host (j : Nat) (f : ObjSt → ObjSt) (s : State) : (onObj j f s).host = s.host := rfl
@[simp] theorem onObj_pair (j : Nat) (f : ObjSt → ObjSt) (s : State) : (onObj j f s).pair = s.pair := rfl
@[simp] theorem onObj_regions (j : Nat) (f : ObjSt → ObjSt) (s : State) : (onObj j f s).regions = s.regions := rfl
@[simp] theorem onObj_mem (j : Nat) (f : ObjSt → ObjSt) (s : State) : (onObj j f s).mem = s.mem := rfl
@[simp] theorem onObj_free (j : Nat) (f : ObjSt → ObjSt) (s : State) : (onObj j f s).free = s.free := rfl

/-! ### onProb -/

@[simp] theorem onProb_pending (p : Nat) (f : ProbSt → ProbSt) (s : State) : (onProb p f s).pending = s.pending := rfl
@[simp] theorem onProb_fuse (p : Nat) (f : ProbSt → ProbSt) (s : State) : (onProb p f s).fuse = s.fuse := rfl
@[simp] theorem onProb_flash (p : Nat) (f : ProbSt → ProbSt) (s : State) : (onProb p f s).flash = s.flash := rfl
@[simp] theorem onProb_conf (p : Nat) (f : ProbSt → ProbSt) (s : State) : (onProb p f s).conf = s.conf := rfl
@[simp] theorem onProb_image (p : Nat) (f : ProbSt → ProbSt) (s : State) : (onProb p f s).image = s.image := rfl
@[simp] theorem onProb_chip (p : Nat) (f : ProbSt → ProbSt) (s : State) : (onProb p f s).chip = s.chip := rfl
@[simp] theorem onProb_time (p : Nat) (f : ProbSt → ProbSt) (s : State) : (onProb p f s).time = s.time := rfl
@[simp] theorem onProb_recd (p : Nat) (f : ProbSt → ProbSt) (s : State) : (onProb p f s).recd = s.recd := rfl
@[simp] theorem onProb_ring (p : Nat) (f : ProbSt → ProbSt) (s : State) : (onProb p f s).ring = s.ring := rfl
@[simp] theorem onProb_axio (p : Nat) (f : ProbSt → ProbSt) (s : State) : (onProb p f s).axio = s.axio := rfl
@[simp] theorem onProb_mot (p : Nat) (f : ProbSt → ProbSt) (s : State) : (onProb p f s).mot = s.mot := rfl
@[simp] theorem onProb_sol (p : Nat) (f : ProbSt → ProbSt) (s : State) : (onProb p f s).sol = { s.sol with probs := updAt s.sol.probs p f } := rfl
@[simp] theorem onProb_trl (p : Nat) (f : ProbSt → ProbSt) (s : State) : (onProb p f s).trl = s.trl := rfl
@[simp] theorem onProb_saf (p : Nat) (f : ProbSt → ProbSt) (s : State) : (onProb p f s).saf = s.saf := rfl
@[simp] theorem onProb_host (p : Nat) (f : ProbSt → ProbSt) (s : State) : (onProb p f s).host = s.host := rfl
@[simp] theorem onProb_pair (p : Nat) (f : ProbSt → ProbSt) (s : State) : (onProb p f s).pair = s.pair := rfl
@[simp] theorem onProb_regions (p : Nat) (f : ProbSt → ProbSt) (s : State) : (onProb p f s).regions = s.regions := rfl
@[simp] theorem onProb_mem (p : Nat) (f : ProbSt → ProbSt) (s : State) : (onProb p f s).mem = s.mem := rfl
@[simp] theorem onProb_free (p : Nat) (f : ProbSt → ProbSt) (s : State) : (onProb p f s).free = s.free := rfl

/-! ### onCore -/

@[simp] theorem onCore_pending (c : Nat) (f : CoreSt → CoreSt) (s : State) : (onCore c f s).pending = s.pending := rfl
@[simp] theorem onCore_fuse (c : Nat) (f : CoreSt → CoreSt) (s : State) : (onCore c f s).fuse = s.fuse := rfl
@[simp] theorem onCore_flash (c : Nat) (f : CoreSt → CoreSt) (s : State) : (onCore c f s).flash = s.flash := rfl
@[simp] theorem onCore_conf (c : Nat) (f : CoreSt → CoreSt) (s : State) : (onCore c f s).conf = s.conf := rfl
@[simp] theorem onCore_image (c : Nat) (f : CoreSt → CoreSt) (s : State) : (onCore c f s).image = s.image := rfl
@[simp] theorem onCore_chip (c : Nat) (f : CoreSt → CoreSt) (s : State) : (onCore c f s).chip = s.chip := rfl
@[simp] theorem onCore_time (c : Nat) (f : CoreSt → CoreSt) (s : State) : (onCore c f s).time = s.time := rfl
@[simp] theorem onCore_recd (c : Nat) (f : CoreSt → CoreSt) (s : State) : (onCore c f s).recd = s.recd := rfl
@[simp] theorem onCore_ring (c : Nat) (f : CoreSt → CoreSt) (s : State) : (onCore c f s).ring = s.ring := rfl
@[simp] theorem onCore_axio (c : Nat) (f : CoreSt → CoreSt) (s : State) : (onCore c f s).axio = s.axio := rfl
@[simp] theorem onCore_mot (c : Nat) (f : CoreSt → CoreSt) (s : State) : (onCore c f s).mot = s.mot := rfl
@[simp] theorem onCore_sol (c : Nat) (f : CoreSt → CoreSt) (s : State) : (onCore c f s).sol = s.sol := rfl
@[simp] theorem onCore_trl (c : Nat) (f : CoreSt → CoreSt) (s : State) : (onCore c f s).trl = s.trl := rfl
@[simp] theorem onCore_saf (c : Nat) (f : CoreSt → CoreSt) (s : State) : (onCore c f s).saf = s.saf := rfl
@[simp] theorem onCore_host (c : Nat) (f : CoreSt → CoreSt) (s : State) : (onCore c f s).host = { s.host with cores := updAt s.host.cores c f } := rfl
@[simp] theorem onCore_pair (c : Nat) (f : CoreSt → CoreSt) (s : State) : (onCore c f s).pair = s.pair := rfl
@[simp] theorem onCore_regions (c : Nat) (f : CoreSt → CoreSt) (s : State) : (onCore c f s).regions = s.regions := rfl
@[simp] theorem onCore_mem (c : Nat) (f : CoreSt → CoreSt) (s : State) : (onCore c f s).mem = s.mem := rfl
@[simp] theorem onCore_free (c : Nat) (f : CoreSt → CoreSt) (s : State) : (onCore c f s).free = s.free := rfl

/-! ### onFlow -/

@[simp] theorem onFlow_pending (i : Nat) (f : FlowSt → FlowSt) (s : State) : (onFlow i f s).pending = s.pending := rfl
@[simp] theorem onFlow_fuse (i : Nat) (f : FlowSt → FlowSt) (s : State) : (onFlow i f s).fuse = s.fuse := rfl
@[simp] theorem onFlow_flash (i : Nat) (f : FlowSt → FlowSt) (s : State) : (onFlow i f s).flash = s.flash := rfl
@[simp] theorem onFlow_conf (i : Nat) (f : FlowSt → FlowSt) (s : State) : (onFlow i f s).conf = s.conf := rfl
@[simp] theorem onFlow_image (i : Nat) (f : FlowSt → FlowSt) (s : State) : (onFlow i f s).image = s.image := rfl
@[simp] theorem onFlow_chip (i : Nat) (f : FlowSt → FlowSt) (s : State) : (onFlow i f s).chip = s.chip := rfl
@[simp] theorem onFlow_time (i : Nat) (f : FlowSt → FlowSt) (s : State) : (onFlow i f s).time = s.time := rfl
@[simp] theorem onFlow_recd (i : Nat) (f : FlowSt → FlowSt) (s : State) : (onFlow i f s).recd = s.recd := rfl
@[simp] theorem onFlow_ring (i : Nat) (f : FlowSt → FlowSt) (s : State) : (onFlow i f s).ring = s.ring := rfl
@[simp] theorem onFlow_axio (i : Nat) (f : FlowSt → FlowSt) (s : State) : (onFlow i f s).axio = s.axio := rfl
@[simp] theorem onFlow_mot (i : Nat) (f : FlowSt → FlowSt) (s : State) : (onFlow i f s).mot = s.mot := rfl
@[simp] theorem onFlow_sol (i : Nat) (f : FlowSt → FlowSt) (s : State) : (onFlow i f s).sol = s.sol := rfl
@[simp] theorem onFlow_trl (i : Nat) (f : FlowSt → FlowSt) (s : State) : (onFlow i f s).trl = s.trl := rfl
@[simp] theorem onFlow_saf (i : Nat) (f : FlowSt → FlowSt) (s : State) : (onFlow i f s).saf = s.saf := rfl
@[simp] theorem onFlow_host (i : Nat) (f : FlowSt → FlowSt) (s : State) : (onFlow i f s).host = { s.host with flows := updAt s.host.flows i f } := rfl
@[simp] theorem onFlow_pair (i : Nat) (f : FlowSt → FlowSt) (s : State) : (onFlow i f s).pair = s.pair := rfl
@[simp] theorem onFlow_regions (i : Nat) (f : FlowSt → FlowSt) (s : State) : (onFlow i f s).regions = s.regions := rfl
@[simp] theorem onFlow_mem (i : Nat) (f : FlowSt → FlowSt) (s : State) : (onFlow i f s).mem = s.mem := rfl
@[simp] theorem onFlow_free (i : Nat) (f : FlowSt → FlowSt) (s : State) : (onFlow i f s).free = s.free := rfl

/-! ### onQueue -/

@[simp] theorem onQueue_pending (q : Nat) (f : QueueSt → QueueSt) (s : State) : (onQueue q f s).pending = s.pending := rfl
@[simp] theorem onQueue_fuse (q : Nat) (f : QueueSt → QueueSt) (s : State) : (onQueue q f s).fuse = s.fuse := rfl
@[simp] theorem onQueue_flash (q : Nat) (f : QueueSt → QueueSt) (s : State) : (onQueue q f s).flash = s.flash := rfl
@[simp] theorem onQueue_conf (q : Nat) (f : QueueSt → QueueSt) (s : State) : (onQueue q f s).conf = s.conf := rfl
@[simp] theorem onQueue_image (q : Nat) (f : QueueSt → QueueSt) (s : State) : (onQueue q f s).image = s.image := rfl
@[simp] theorem onQueue_chip (q : Nat) (f : QueueSt → QueueSt) (s : State) : (onQueue q f s).chip = s.chip := rfl
@[simp] theorem onQueue_time (q : Nat) (f : QueueSt → QueueSt) (s : State) : (onQueue q f s).time = s.time := rfl
@[simp] theorem onQueue_recd (q : Nat) (f : QueueSt → QueueSt) (s : State) : (onQueue q f s).recd = s.recd := rfl
@[simp] theorem onQueue_ring (q : Nat) (f : QueueSt → QueueSt) (s : State) : (onQueue q f s).ring = s.ring := rfl
@[simp] theorem onQueue_axio (q : Nat) (f : QueueSt → QueueSt) (s : State) : (onQueue q f s).axio = s.axio := rfl
@[simp] theorem onQueue_mot (q : Nat) (f : QueueSt → QueueSt) (s : State) : (onQueue q f s).mot = s.mot := rfl
@[simp] theorem onQueue_sol (q : Nat) (f : QueueSt → QueueSt) (s : State) : (onQueue q f s).sol = s.sol := rfl
@[simp] theorem onQueue_trl (q : Nat) (f : QueueSt → QueueSt) (s : State) : (onQueue q f s).trl = s.trl := rfl
@[simp] theorem onQueue_saf (q : Nat) (f : QueueSt → QueueSt) (s : State) : (onQueue q f s).saf = s.saf := rfl
@[simp] theorem onQueue_host (q : Nat) (f : QueueSt → QueueSt) (s : State) : (onQueue q f s).host = { s.host with queues := updAt s.host.queues q f } := rfl
@[simp] theorem onQueue_pair (q : Nat) (f : QueueSt → QueueSt) (s : State) : (onQueue q f s).pair = s.pair := rfl
@[simp] theorem onQueue_regions (q : Nat) (f : QueueSt → QueueSt) (s : State) : (onQueue q f s).regions = s.regions := rfl
@[simp] theorem onQueue_mem (q : Nat) (f : QueueSt → QueueSt) (s : State) : (onQueue q f s).mem = s.mem := rfl
@[simp] theorem onQueue_free (q : Nat) (f : QueueSt → QueueSt) (s : State) : (onQueue q f s).free = s.free := rfl

/-! ### onPort -/

@[simp] theorem onPort_pending (p : Nat) (f : PortSt → PortSt) (s : State) : (onPort p f s).pending = s.pending := rfl
@[simp] theorem onPort_fuse (p : Nat) (f : PortSt → PortSt) (s : State) : (onPort p f s).fuse = s.fuse := rfl
@[simp] theorem onPort_flash (p : Nat) (f : PortSt → PortSt) (s : State) : (onPort p f s).flash = s.flash := rfl
@[simp] theorem onPort_conf (p : Nat) (f : PortSt → PortSt) (s : State) : (onPort p f s).conf = s.conf := rfl
@[simp] theorem onPort_image (p : Nat) (f : PortSt → PortSt) (s : State) : (onPort p f s).image = s.image := rfl
@[simp] theorem onPort_chip (p : Nat) (f : PortSt → PortSt) (s : State) : (onPort p f s).chip = s.chip := rfl
@[simp] theorem onPort_time (p : Nat) (f : PortSt → PortSt) (s : State) : (onPort p f s).time = s.time := rfl
@[simp] theorem onPort_recd (p : Nat) (f : PortSt → PortSt) (s : State) : (onPort p f s).recd = s.recd := rfl
@[simp] theorem onPort_ring (p : Nat) (f : PortSt → PortSt) (s : State) : (onPort p f s).ring = s.ring := rfl
@[simp] theorem onPort_axio (p : Nat) (f : PortSt → PortSt) (s : State) : (onPort p f s).axio = s.axio := rfl
@[simp] theorem onPort_mot (p : Nat) (f : PortSt → PortSt) (s : State) : (onPort p f s).mot = s.mot := rfl
@[simp] theorem onPort_sol (p : Nat) (f : PortSt → PortSt) (s : State) : (onPort p f s).sol = s.sol := rfl
@[simp] theorem onPort_trl (p : Nat) (f : PortSt → PortSt) (s : State) : (onPort p f s).trl = s.trl := rfl
@[simp] theorem onPort_saf (p : Nat) (f : PortSt → PortSt) (s : State) : (onPort p f s).saf = s.saf := rfl
@[simp] theorem onPort_host (p : Nat) (f : PortSt → PortSt) (s : State) : (onPort p f s).host = { s.host with ports := updAt s.host.ports p f } := rfl
@[simp] theorem onPort_pair (p : Nat) (f : PortSt → PortSt) (s : State) : (onPort p f s).pair = s.pair := rfl
@[simp] theorem onPort_regions (p : Nat) (f : PortSt → PortSt) (s : State) : (onPort p f s).regions = s.regions := rfl
@[simp] theorem onPort_mem (p : Nat) (f : PortSt → PortSt) (s : State) : (onPort p f s).mem = s.mem := rfl
@[simp] theorem onPort_free (p : Nat) (f : PortSt → PortSt) (s : State) : (onPort p f s).free = s.free := rfl

/-! ### onNet -/

@[simp] theorem onNet_pending (n : Nat) (f : NetSt → NetSt) (s : State) : (onNet n f s).pending = s.pending := rfl
@[simp] theorem onNet_fuse (n : Nat) (f : NetSt → NetSt) (s : State) : (onNet n f s).fuse = s.fuse := rfl
@[simp] theorem onNet_flash (n : Nat) (f : NetSt → NetSt) (s : State) : (onNet n f s).flash = s.flash := rfl
@[simp] theorem onNet_conf (n : Nat) (f : NetSt → NetSt) (s : State) : (onNet n f s).conf = s.conf := rfl
@[simp] theorem onNet_image (n : Nat) (f : NetSt → NetSt) (s : State) : (onNet n f s).image = s.image := rfl
@[simp] theorem onNet_chip (n : Nat) (f : NetSt → NetSt) (s : State) : (onNet n f s).chip = s.chip := rfl
@[simp] theorem onNet_time (n : Nat) (f : NetSt → NetSt) (s : State) : (onNet n f s).time = s.time := rfl
@[simp] theorem onNet_recd (n : Nat) (f : NetSt → NetSt) (s : State) : (onNet n f s).recd = s.recd := rfl
@[simp] theorem onNet_ring (n : Nat) (f : NetSt → NetSt) (s : State) : (onNet n f s).ring = s.ring := rfl
@[simp] theorem onNet_axio (n : Nat) (f : NetSt → NetSt) (s : State) : (onNet n f s).axio = s.axio := rfl
@[simp] theorem onNet_mot (n : Nat) (f : NetSt → NetSt) (s : State) : (onNet n f s).mot = s.mot := rfl
@[simp] theorem onNet_sol (n : Nat) (f : NetSt → NetSt) (s : State) : (onNet n f s).sol = s.sol := rfl
@[simp] theorem onNet_trl (n : Nat) (f : NetSt → NetSt) (s : State) : (onNet n f s).trl = s.trl := rfl
@[simp] theorem onNet_saf (n : Nat) (f : NetSt → NetSt) (s : State) : (onNet n f s).saf = s.saf := rfl
@[simp] theorem onNet_host (n : Nat) (f : NetSt → NetSt) (s : State) : (onNet n f s).host = { s.host with nets := updAt s.host.nets n f } := rfl
@[simp] theorem onNet_pair (n : Nat) (f : NetSt → NetSt) (s : State) : (onNet n f s).pair = s.pair := rfl
@[simp] theorem onNet_regions (n : Nat) (f : NetSt → NetSt) (s : State) : (onNet n f s).regions = s.regions := rfl
@[simp] theorem onNet_mem (n : Nat) (f : NetSt → NetSt) (s : State) : (onNet n f s).mem = s.mem := rfl
@[simp] theorem onNet_free (n : Nat) (f : NetSt → NetSt) (s : State) : (onNet n f s).free = s.free := rfl

/-! ### onHost -/

@[simp] theorem onHost_pending (f : HostSt → HostSt) (s : State) : (onHost f s).pending = s.pending := rfl
@[simp] theorem onHost_fuse (f : HostSt → HostSt) (s : State) : (onHost f s).fuse = s.fuse := rfl
@[simp] theorem onHost_flash (f : HostSt → HostSt) (s : State) : (onHost f s).flash = s.flash := rfl
@[simp] theorem onHost_conf (f : HostSt → HostSt) (s : State) : (onHost f s).conf = s.conf := rfl
@[simp] theorem onHost_image (f : HostSt → HostSt) (s : State) : (onHost f s).image = s.image := rfl
@[simp] theorem onHost_chip (f : HostSt → HostSt) (s : State) : (onHost f s).chip = s.chip := rfl
@[simp] theorem onHost_time (f : HostSt → HostSt) (s : State) : (onHost f s).time = s.time := rfl
@[simp] theorem onHost_recd (f : HostSt → HostSt) (s : State) : (onHost f s).recd = s.recd := rfl
@[simp] theorem onHost_ring (f : HostSt → HostSt) (s : State) : (onHost f s).ring = s.ring := rfl
@[simp] theorem onHost_axio (f : HostSt → HostSt) (s : State) : (onHost f s).axio = s.axio := rfl
@[simp] theorem onHost_mot (f : HostSt → HostSt) (s : State) : (onHost f s).mot = s.mot := rfl
@[simp] theorem onHost_sol (f : HostSt → HostSt) (s : State) : (onHost f s).sol = s.sol := rfl
@[simp] theorem onHost_trl (f : HostSt → HostSt) (s : State) : (onHost f s).trl = s.trl := rfl
@[simp] theorem onHost_saf (f : HostSt → HostSt) (s : State) : (onHost f s).saf = s.saf := rfl
@[simp] theorem onHost_host (f : HostSt → HostSt) (s : State) : (onHost f s).host = f s.host := rfl
@[simp] theorem onHost_pair (f : HostSt → HostSt) (s : State) : (onHost f s).pair = s.pair := rfl
@[simp] theorem onHost_regions (f : HostSt → HostSt) (s : State) : (onHost f s).regions = s.regions := rfl
@[simp] theorem onHost_mem (f : HostSt → HostSt) (s : State) : (onHost f s).mem = s.mem := rfl
@[simp] theorem onHost_free (f : HostSt → HostSt) (s : State) : (onHost f s).free = s.free := rfl

/-! ### onPair -/

@[simp] theorem onPair_pending (f : PairSt → PairSt) (s : State) : (onPair f s).pending = s.pending := rfl
@[simp] theorem onPair_fuse (f : PairSt → PairSt) (s : State) : (onPair f s).fuse = s.fuse := rfl
@[simp] theorem onPair_flash (f : PairSt → PairSt) (s : State) : (onPair f s).flash = s.flash := rfl
@[simp] theorem onPair_conf (f : PairSt → PairSt) (s : State) : (onPair f s).conf = s.conf := rfl
@[simp] theorem onPair_image (f : PairSt → PairSt) (s : State) : (onPair f s).image = s.image := rfl
@[simp] theorem onPair_chip (f : PairSt → PairSt) (s : State) : (onPair f s).chip = s.chip := rfl
@[simp] theorem onPair_time (f : PairSt → PairSt) (s : State) : (onPair f s).time = s.time := rfl
@[simp] theorem onPair_recd (f : PairSt → PairSt) (s : State) : (onPair f s).recd = s.recd := rfl
@[simp] theorem onPair_ring (f : PairSt → PairSt) (s : State) : (onPair f s).ring = s.ring := rfl
@[simp] theorem onPair_axio (f : PairSt → PairSt) (s : State) : (onPair f s).axio = s.axio := rfl
@[simp] theorem onPair_mot (f : PairSt → PairSt) (s : State) : (onPair f s).mot = s.mot := rfl
@[simp] theorem onPair_sol (f : PairSt → PairSt) (s : State) : (onPair f s).sol = s.sol := rfl
@[simp] theorem onPair_trl (f : PairSt → PairSt) (s : State) : (onPair f s).trl = s.trl := rfl
@[simp] theorem onPair_saf (f : PairSt → PairSt) (s : State) : (onPair f s).saf = s.saf := rfl
@[simp] theorem onPair_host (f : PairSt → PairSt) (s : State) : (onPair f s).host = s.host := rfl
@[simp] theorem onPair_pair (f : PairSt → PairSt) (s : State) : (onPair f s).pair = f s.pair := rfl
@[simp] theorem onPair_regions (f : PairSt → PairSt) (s : State) : (onPair f s).regions = s.regions := rfl
@[simp] theorem onPair_mem (f : PairSt → PairSt) (s : State) : (onPair f s).mem = s.mem := rfl
@[simp] theorem onPair_free (f : PairSt → PairSt) (s : State) : (onPair f s).free = s.free := rfl

/-! ### onRegion -/

@[simp] theorem onRegion_pending (r : Region) (f : RegionSt → RegionSt) (s : State) : (onRegion r f s).pending = s.pending := rfl
@[simp] theorem onRegion_fuse (r : Region) (f : RegionSt → RegionSt) (s : State) : (onRegion r f s).fuse = s.fuse := rfl
@[simp] theorem onRegion_flash (r : Region) (f : RegionSt → RegionSt) (s : State) : (onRegion r f s).flash = s.flash := rfl
@[simp] theorem onRegion_conf (r : Region) (f : RegionSt → RegionSt) (s : State) : (onRegion r f s).conf = s.conf := rfl
@[simp] theorem onRegion_image (r : Region) (f : RegionSt → RegionSt) (s : State) : (onRegion r f s).image = s.image := rfl
@[simp] theorem onRegion_chip (r : Region) (f : RegionSt → RegionSt) (s : State) : (onRegion r f s).chip = s.chip := rfl
@[simp] theorem onRegion_time (r : Region) (f : RegionSt → RegionSt) (s : State) : (onRegion r f s).time = s.time := rfl
@[simp] theorem onRegion_recd (r : Region) (f : RegionSt → RegionSt) (s : State) : (onRegion r f s).recd = s.recd := rfl
@[simp] theorem onRegion_ring (r : Region) (f : RegionSt → RegionSt) (s : State) : (onRegion r f s).ring = s.ring := rfl
@[simp] theorem onRegion_axio (r : Region) (f : RegionSt → RegionSt) (s : State) : (onRegion r f s).axio = s.axio := rfl
@[simp] theorem onRegion_mot (r : Region) (f : RegionSt → RegionSt) (s : State) : (onRegion r f s).mot = s.mot := rfl
@[simp] theorem onRegion_sol (r : Region) (f : RegionSt → RegionSt) (s : State) : (onRegion r f s).sol = s.sol := rfl
@[simp] theorem onRegion_trl (r : Region) (f : RegionSt → RegionSt) (s : State) : (onRegion r f s).trl = s.trl := rfl
@[simp] theorem onRegion_saf (r : Region) (f : RegionSt → RegionSt) (s : State) : (onRegion r f s).saf = s.saf := rfl
@[simp] theorem onRegion_host (r : Region) (f : RegionSt → RegionSt) (s : State) : (onRegion r f s).host = s.host := rfl
@[simp] theorem onRegion_pair (r : Region) (f : RegionSt → RegionSt) (s : State) : (onRegion r f s).pair = s.pair := rfl
@[simp] theorem onRegion_regions (r : Region) (f : RegionSt → RegionSt) (s : State) : (onRegion r f s).regions = updAt s.regions r.id f := rfl
@[simp] theorem onRegion_mem (r : Region) (f : RegionSt → RegionSt) (s : State) : (onRegion r f s).mem = s.mem := rfl
@[simp] theorem onRegion_free (r : Region) (f : RegionSt → RegionSt) (s : State) : (onRegion r f s).free = s.free := rfl

/-! ### event -/

@[simp] theorem event_pending (code detail : Nat) (s : State) : (event code detail s).pending = s.pending := rfl
@[simp] theorem event_fuse (code detail : Nat) (s : State) : (event code detail s).fuse = s.fuse := rfl
@[simp] theorem event_flash (code detail : Nat) (s : State) : (event code detail s).flash = s.flash := rfl
@[simp] theorem event_conf (code detail : Nat) (s : State) : (event code detail s).conf = s.conf := rfl
@[simp] theorem event_image (code detail : Nat) (s : State) : (event code detail s).image = s.image := rfl
@[simp] theorem event_time (code detail : Nat) (s : State) : (event code detail s).time = s.time := rfl
@[simp] theorem event_recd (code detail : Nat) (s : State) : (event code detail s).recd = s.recd := rfl
@[simp] theorem event_ring (code detail : Nat) (s : State) : (event code detail s).ring = s.ring := rfl
@[simp] theorem event_axio (code detail : Nat) (s : State) : (event code detail s).axio = s.axio := rfl
@[simp] theorem event_mot (code detail : Nat) (s : State) : (event code detail s).mot = s.mot := rfl
@[simp] theorem event_sol (code detail : Nat) (s : State) : (event code detail s).sol = s.sol := rfl
@[simp] theorem event_trl (code detail : Nat) (s : State) : (event code detail s).trl = s.trl := rfl
@[simp] theorem event_saf (code detail : Nat) (s : State) : (event code detail s).saf = s.saf := rfl
@[simp] theorem event_host (code detail : Nat) (s : State) : (event code detail s).host = s.host := rfl
@[simp] theorem event_pair (code detail : Nat) (s : State) : (event code detail s).pair = s.pair := rfl
@[simp] theorem event_regions (code detail : Nat) (s : State) : (event code detail s).regions = s.regions := rfl
@[simp] theorem event_mem (code detail : Nat) (s : State) : (event code detail s).mem = s.mem := rfl
@[simp] theorem event_free (code detail : Nat) (s : State) : (event code detail s).free = s.free := rfl

/-! ### mark -/

@[simp] theorem mark_pending (i : Nat) (m : Mask) (s : State) : (mark i m s).pending = s.pending := rfl
@[simp] theorem mark_fuse (i : Nat) (m : Mask) (s : State) : (mark i m s).fuse = s.fuse := rfl
@[simp] theorem mark_flash (i : Nat) (m : Mask) (s : State) : (mark i m s).flash = s.flash := rfl
@[simp] theorem mark_conf (i : Nat) (m : Mask) (s : State) : (mark i m s).conf = s.conf := rfl
@[simp] theorem mark_image (i : Nat) (m : Mask) (s : State) : (mark i m s).image = s.image := rfl
@[simp] theorem mark_chip (i : Nat) (m : Mask) (s : State) : (mark i m s).chip = s.chip := rfl
@[simp] theorem mark_recd (i : Nat) (m : Mask) (s : State) : (mark i m s).recd = s.recd := rfl
@[simp] theorem mark_ring (i : Nat) (m : Mask) (s : State) : (mark i m s).ring = s.ring := rfl
@[simp] theorem mark_axio (i : Nat) (m : Mask) (s : State) : (mark i m s).axio = s.axio := rfl
@[simp] theorem mark_mot (i : Nat) (m : Mask) (s : State) : (mark i m s).mot = s.mot := rfl
@[simp] theorem mark_sol (i : Nat) (m : Mask) (s : State) : (mark i m s).sol = s.sol := rfl
@[simp] theorem mark_trl (i : Nat) (m : Mask) (s : State) : (mark i m s).trl = s.trl := rfl
@[simp] theorem mark_saf (i : Nat) (m : Mask) (s : State) : (mark i m s).saf = s.saf := rfl
@[simp] theorem mark_host (i : Nat) (m : Mask) (s : State) : (mark i m s).host = s.host := rfl
@[simp] theorem mark_pair (i : Nat) (m : Mask) (s : State) : (mark i m s).pair = s.pair := rfl
@[simp] theorem mark_regions (i : Nat) (m : Mask) (s : State) : (mark i m s).regions = s.regions := rfl
@[simp] theorem mark_mem (i : Nat) (m : Mask) (s : State) : (mark i m s).mem = s.mem := rfl
@[simp] theorem mark_free (i : Nat) (m : Mask) (s : State) : (mark i m s).free = s.free := rfl

/-! ### markNext -/

@[simp] theorem markNext_pending (i : Nat) (m : Mask) (s : State) : (markNext i m s).pending = s.pending := rfl
@[simp] theorem markNext_fuse (i : Nat) (m : Mask) (s : State) : (markNext i m s).fuse = s.fuse := rfl
@[simp] theorem markNext_flash (i : Nat) (m : Mask) (s : State) : (markNext i m s).flash = s.flash := rfl
@[simp] theorem markNext_conf (i : Nat) (m : Mask) (s : State) : (markNext i m s).conf = s.conf := rfl
@[simp] theorem markNext_image (i : Nat) (m : Mask) (s : State) : (markNext i m s).image = s.image := rfl
@[simp] theorem markNext_chip (i : Nat) (m : Mask) (s : State) : (markNext i m s).chip = s.chip := rfl
@[simp] theorem markNext_recd (i : Nat) (m : Mask) (s : State) : (markNext i m s).recd = s.recd := rfl
@[simp] theorem markNext_ring (i : Nat) (m : Mask) (s : State) : (markNext i m s).ring = s.ring := rfl
@[simp] theorem markNext_axio (i : Nat) (m : Mask) (s : State) : (markNext i m s).axio = s.axio := rfl
@[simp] theorem markNext_mot (i : Nat) (m : Mask) (s : State) : (markNext i m s).mot = s.mot := rfl
@[simp] theorem markNext_sol (i : Nat) (m : Mask) (s : State) : (markNext i m s).sol = s.sol := rfl
@[simp] theorem markNext_trl (i : Nat) (m : Mask) (s : State) : (markNext i m s).trl = s.trl := rfl
@[simp] theorem markNext_saf (i : Nat) (m : Mask) (s : State) : (markNext i m s).saf = s.saf := rfl
@[simp] theorem markNext_host (i : Nat) (m : Mask) (s : State) : (markNext i m s).host = s.host := rfl
@[simp] theorem markNext_pair (i : Nat) (m : Mask) (s : State) : (markNext i m s).pair = s.pair := rfl
@[simp] theorem markNext_regions (i : Nat) (m : Mask) (s : State) : (markNext i m s).regions = s.regions := rfl
@[simp] theorem markNext_mem (i : Nat) (m : Mask) (s : State) : (markNext i m s).mem = s.mem := rfl
@[simp] theorem markNext_free (i : Nat) (m : Mask) (s : State) : (markNext i m s).free = s.free := rfl

/-! ### errorToken -/

@[simp] theorem errorToken_pending  (s : State) : (errorToken  s).pending = s.pending := rfl
@[simp] theorem errorToken_fuse  (s : State) : (errorToken  s).fuse = s.fuse := rfl
@[simp] theorem errorToken_flash  (s : State) : (errorToken  s).flash = s.flash := rfl
@[simp] theorem errorToken_conf  (s : State) : (errorToken  s).conf = s.conf := rfl
@[simp] theorem errorToken_image  (s : State) : (errorToken  s).image = s.image := rfl
@[simp] theorem errorToken_time  (s : State) : (errorToken  s).time = s.time := rfl
@[simp] theorem errorToken_recd  (s : State) : (errorToken  s).recd = s.recd := rfl
@[simp] theorem errorToken_ring  (s : State) : (errorToken  s).ring = s.ring := rfl
@[simp] theorem errorToken_axio  (s : State) : (errorToken  s).axio = s.axio := rfl
@[simp] theorem errorToken_mot  (s : State) : (errorToken  s).mot = s.mot := rfl
@[simp] theorem errorToken_sol  (s : State) : (errorToken  s).sol = s.sol := rfl
@[simp] theorem errorToken_trl  (s : State) : (errorToken  s).trl = s.trl := rfl
@[simp] theorem errorToken_saf  (s : State) : (errorToken  s).saf = s.saf := rfl
@[simp] theorem errorToken_host  (s : State) : (errorToken  s).host = s.host := rfl
@[simp] theorem errorToken_pair  (s : State) : (errorToken  s).pair = s.pair := rfl
@[simp] theorem errorToken_regions  (s : State) : (errorToken  s).regions = s.regions := rfl
@[simp] theorem errorToken_mem  (s : State) : (errorToken  s).mem = s.mem := rfl
@[simp] theorem errorToken_free  (s : State) : (errorToken  s).free = s.free := rfl

/-! ### acked -/

@[simp] theorem acked_pending  (s : State) : (acked  s).pending = s.pending := rfl
@[simp] theorem acked_fuse  (s : State) : (acked  s).fuse = s.fuse := rfl
@[simp] theorem acked_flash  (s : State) : (acked  s).flash = s.flash := rfl
@[simp] theorem acked_conf  (s : State) : (acked  s).conf = s.conf := rfl
@[simp] theorem acked_image  (s : State) : (acked  s).image = s.image := rfl
@[simp] theorem acked_time  (s : State) : (acked  s).time = s.time := rfl
@[simp] theorem acked_recd  (s : State) : (acked  s).recd = s.recd := rfl
@[simp] theorem acked_ring  (s : State) : (acked  s).ring = s.ring := rfl
@[simp] theorem acked_axio  (s : State) : (acked  s).axio = s.axio := rfl
@[simp] theorem acked_mot  (s : State) : (acked  s).mot = s.mot := rfl
@[simp] theorem acked_sol  (s : State) : (acked  s).sol = s.sol := rfl
@[simp] theorem acked_trl  (s : State) : (acked  s).trl = s.trl := rfl
@[simp] theorem acked_saf  (s : State) : (acked  s).saf = s.saf := rfl
@[simp] theorem acked_host  (s : State) : (acked  s).host = s.host := rfl
@[simp] theorem acked_pair  (s : State) : (acked  s).pair = s.pair := rfl
@[simp] theorem acked_regions  (s : State) : (acked  s).regions = s.regions := rfl
@[simp] theorem acked_mem  (s : State) : (acked  s).mem = s.mem := rfl
@[simp] theorem acked_free  (s : State) : (acked  s).free = s.free := rfl

/-! ### answer -/

@[simp] theorem answer_pending (v : Word) (s : State) : (answer v s).pending = s.pending := rfl
@[simp] theorem answer_fuse (v : Word) (s : State) : (answer v s).fuse = s.fuse := rfl
@[simp] theorem answer_flash (v : Word) (s : State) : (answer v s).flash = s.flash := rfl
@[simp] theorem answer_conf (v : Word) (s : State) : (answer v s).conf = s.conf := rfl
@[simp] theorem answer_image (v : Word) (s : State) : (answer v s).image = s.image := rfl
@[simp] theorem answer_time (v : Word) (s : State) : (answer v s).time = s.time := rfl
@[simp] theorem answer_recd (v : Word) (s : State) : (answer v s).recd = s.recd := rfl
@[simp] theorem answer_ring (v : Word) (s : State) : (answer v s).ring = s.ring := rfl
@[simp] theorem answer_axio (v : Word) (s : State) : (answer v s).axio = s.axio := rfl
@[simp] theorem answer_mot (v : Word) (s : State) : (answer v s).mot = s.mot := rfl
@[simp] theorem answer_sol (v : Word) (s : State) : (answer v s).sol = s.sol := rfl
@[simp] theorem answer_trl (v : Word) (s : State) : (answer v s).trl = s.trl := rfl
@[simp] theorem answer_saf (v : Word) (s : State) : (answer v s).saf = s.saf := rfl
@[simp] theorem answer_host (v : Word) (s : State) : (answer v s).host = s.host := rfl
@[simp] theorem answer_pair (v : Word) (s : State) : (answer v s).pair = s.pair := rfl
@[simp] theorem answer_regions (v : Word) (s : State) : (answer v s).regions = s.regions := rfl
@[simp] theorem answer_mem (v : Word) (s : State) : (answer v s).mem = s.mem := rfl
@[simp] theorem answer_free (v : Word) (s : State) : (answer v s).free = s.free := rfl

/-! ### absentAccess -/

@[simp] theorem absentAccess_pending (w : Bool) (s : State) : (absentAccess w s).pending = s.pending := by unfold absentAccess; split <;> rfl
@[simp] theorem absentAccess_fuse (w : Bool) (s : State) : (absentAccess w s).fuse = s.fuse := by unfold absentAccess; split <;> rfl
@[simp] theorem absentAccess_flash (w : Bool) (s : State) : (absentAccess w s).flash = s.flash := by unfold absentAccess; split <;> rfl
@[simp] theorem absentAccess_conf (w : Bool) (s : State) : (absentAccess w s).conf = s.conf := by unfold absentAccess; split <;> rfl
@[simp] theorem absentAccess_image (w : Bool) (s : State) : (absentAccess w s).image = s.image := by unfold absentAccess; split <;> rfl
@[simp] theorem absentAccess_time (w : Bool) (s : State) : (absentAccess w s).time = s.time := by unfold absentAccess; split <;> rfl
@[simp] theorem absentAccess_recd (w : Bool) (s : State) : (absentAccess w s).recd = s.recd := by unfold absentAccess; split <;> rfl
@[simp] theorem absentAccess_ring (w : Bool) (s : State) : (absentAccess w s).ring = s.ring := by unfold absentAccess; split <;> rfl
@[simp] theorem absentAccess_axio (w : Bool) (s : State) : (absentAccess w s).axio = s.axio := by unfold absentAccess; split <;> rfl
@[simp] theorem absentAccess_mot (w : Bool) (s : State) : (absentAccess w s).mot = s.mot := by unfold absentAccess; split <;> rfl
@[simp] theorem absentAccess_sol (w : Bool) (s : State) : (absentAccess w s).sol = s.sol := by unfold absentAccess; split <;> rfl
@[simp] theorem absentAccess_trl (w : Bool) (s : State) : (absentAccess w s).trl = s.trl := by unfold absentAccess; split <;> rfl
@[simp] theorem absentAccess_saf (w : Bool) (s : State) : (absentAccess w s).saf = s.saf := by unfold absentAccess; split <;> rfl
@[simp] theorem absentAccess_host (w : Bool) (s : State) : (absentAccess w s).host = s.host := by unfold absentAccess; split <;> rfl
@[simp] theorem absentAccess_pair (w : Bool) (s : State) : (absentAccess w s).pair = s.pair := by unfold absentAccess; split <;> rfl
@[simp] theorem absentAccess_regions (w : Bool) (s : State) : (absentAccess w s).regions = s.regions := by unfold absentAccess; split <;> rfl
@[simp] theorem absentAccess_mem (w : Bool) (s : State) : (absentAccess w s).mem = s.mem := by unfold absentAccess; split <;> rfl
@[simp] theorem absentAccess_free (w : Bool) (s : State) : (absentAccess w s).free = s.free := by unfold absentAccess; split <;> rfl

/-! ### settle: only the order of the log entries of the instant -/

@[simp] theorem settle_pending (s t : State) : (settle s t).pending = t.pending := by simp only [settle]; split <;> rfl
@[simp] theorem settle_fuse (s t : State) : (settle s t).fuse = t.fuse := by simp only [settle]; split <;> rfl
@[simp] theorem settle_flash (s t : State) : (settle s t).flash = t.flash := by simp only [settle]; split <;> rfl
@[simp] theorem settle_conf (s t : State) : (settle s t).conf = t.conf := by simp only [settle]; split <;> rfl
@[simp] theorem settle_image (s t : State) : (settle s t).image = t.image := by simp only [settle]; split <;> rfl
@[simp] theorem settle_time (s t : State) : (settle s t).time = t.time := by simp only [settle]; split <;> rfl
@[simp] theorem settle_recd (s t : State) : (settle s t).recd = t.recd := by simp only [settle]; split <;> rfl
@[simp] theorem settle_ring (s t : State) : (settle s t).ring = t.ring := by simp only [settle]; split <;> rfl
@[simp] theorem settle_axio (s t : State) : (settle s t).axio = t.axio := by simp only [settle]; split <;> rfl
@[simp] theorem settle_mot (s t : State) : (settle s t).mot = t.mot := by simp only [settle]; split <;> rfl
@[simp] theorem settle_sol (s t : State) : (settle s t).sol = t.sol := by simp only [settle]; split <;> rfl
@[simp] theorem settle_trl (s t : State) : (settle s t).trl = t.trl := by simp only [settle]; split <;> rfl
@[simp] theorem settle_saf (s t : State) : (settle s t).saf = t.saf := by simp only [settle]; split <;> rfl
@[simp] theorem settle_host (s t : State) : (settle s t).host = t.host := by simp only [settle]; split <;> rfl
@[simp] theorem settle_pair (s t : State) : (settle s t).pair = t.pair := by simp only [settle]; split <;> rfl
@[simp] theorem settle_regions (s t : State) : (settle s t).regions = t.regions := by simp only [settle]; split <;> rfl
@[simp] theorem settle_mem (s t : State) : (settle s t).mem = t.mem := by simp only [settle]; split <;> rfl
@[simp] theorem settle_free (s t : State) : (settle s t).free = t.free := by simp only [settle]; split <;> rfl

/-- Where at most one event was raised, nothing is reordered. -/
theorem settle_of_one {s t : State} (h : (t.chip.evWr + 512 - s.chip.evWr) % 512 ≤ 1) : settle s t = t := by
  simp only [settle, if_pos h]

theorem settle_chip (s t : State) : (settle s t).chip = { t.chip with ev := (settle s t).chip.ev } := by
  simp only [settle]; split <;> rfl

end Sys2Proof.Machine
end

