-- ==== Sys2Proof/Laws/Claims.lean ====
section
/-! SUPPORT. Claims.lean: how a meaning's result answers the terms of Safety.lean: one event or none, the parts that may differ, and
the elements of a table that may differ. -/

namespace Sys2Proof.Machine

theorem only_settle {ps : List Part} {s t : State} (u : State) (hc : .chip ∈ ps) (h : only ps s t) : only ps s (settle u t) := by
  intro p hp
  have := h p hp
  cases p <;> simp_all [Part.same]
theorem quiet_settle {s t : State} (h : quiet s t) : quiet s (settle s t) := by
  have h2 := h.2.1
  rw [settle_of_one (by rw [h2]; omega)]; exact h
theorem logged_settle {c d : Nat} {s t : State} (h : logged c d s t) : logged c d s (settle s t) := by
  have h2 := h.2.1
  rw [settle_of_one (by rw [h2]; omega)]; exact h
theorem logged_event {c d : Nat} {s u : State} (h : quiet s u) (h2 : u.time = s.time) : logged c d s (event c d u) := by
  obtain ⟨a, b, e⟩ := h
  simp [logged, event, entryAt, a, b, e, h2]
theorem settle_quiet {s t : State} (h : quiet s t) : settle s t = t := settle_of_one (by rw [h.2.1]; omega)
theorem settle_logged {c d : Nat} {s t : State} (h : logged c d s t) : settle s t = t := settle_of_one (by rw [h.2.1]; omega)
theorem only_refl (ps) (s : State) : only ps s s := by intro p _; cases p <;> rfl
theorem mk_only_chip {s t : State} (h : ∃ c, t = { s with chip := c }) : only [.chip] s t := by
  obtain ⟨c, rfl⟩ := h
  intro p hp; cases p <;> simp_all [Part.same]

theorem next_quiet {f : State → State} {s : State} {P : State → Prop} (h : quiet s (f s)) (hP : P (f s)) : ∃ t, run f s = .next t ∧ P t :=
  ⟨_, rfl, by rw [settle_quiet h]; exact hP⟩
theorem next_logged {c d} {f : State → State} {s : State} {P : State → Prop} (h : logged c d s (f s)) (hP : P (f s)) : ∃ t, run f s = .next t ∧ P t :=
  ⟨_, rfl, by rw [settle_logged h]; exact hP⟩

theorem onlyAt_updAt {α} [Inhabited α] (l : List α) (i f) : onlyAt i l (updAt l i f) :=
  ⟨updAt_length _ _ _, fun _ h => nth_updAt_ne _ _ _ _ h⟩
theorem onlyAt_trans {α} [Inhabited α] {l m k : List α} {i} (h : onlyAt i l m) (h' : onlyAt i m k) : onlyAt i l k :=
  ⟨h'.1.trans h.1, fun j hj => (h'.2 j hj).trans (h.2 j hj)⟩

theorem nth_map {α} [Inhabited α] (l : List α) (f : α → α) (n : Nat) (h : n < l.length) : nth (l.map f) n = f (nth l n) := by
  simp [nth, List.getD_eq_getElem?_getD, h]

end Sys2Proof.Machine
end

