-- ==== Sys2Proof/Laws/KeepUnits.lean ====
section
/-! SUPPORT. KeepUnits.lean: what the operations of the clock, the rings, the channels, the queues and the nodes leave as it is. -/

set_option linter.all false

namespace Sys2Proof.Machine

/-! ### Num -/

/-- What almost every operation leaves as it is: the queue of commands, the fuses, the flash, the confirmation records, the image
in force and memory. -/
def State.keep (s : State) : List Instr × FuseSt × Flash × List ConfRec × Image × List Host.Cell :=
  (s.pending, s.fuse, s.flash, s.conf, s.image, s.mem)

@[simp] theorem keep_mk (s : State) (chip time recd ring axio mot sol trl saf host pair regions free) :
    State.keep { s with chip := chip, time := time, recd := recd, ring := ring, axio := axio, mot := mot, sol := sol, trl := trl,
                        saf := saf, host := host, pair := pair, regions := regions, free := free } = s.keep := rfl

theorem keep_pending {s t : State} (h : t.keep = s.keep) : t.pending = s.pending := congrArg (·.1) h
theorem keep_fuse {s t : State} (h : t.keep = s.keep) : t.fuse = s.fuse := congrArg (·.2.1) h
theorem keep_flash {s t : State} (h : t.keep = s.keep) : t.flash = s.flash := congrArg (·.2.2.1) h
theorem keep_conf {s t : State} (h : t.keep = s.keep) : t.conf = s.conf := congrArg (·.2.2.2.1) h
theorem keep_image {s t : State} (h : t.keep = s.keep) : t.image = s.image := congrArg (·.2.2.2.2.1) h
theorem keep_mem {s t : State} (h : t.keep = s.keep) : t.mem = s.mem := congrArg (·.2.2.2.2.2) h

theorem foldl_keep {α : Type} (f : State → α → State) (h : ∀ t x, (f t x).keep = t.keep) (l : List α) (s : State) :
    (l.foldl f s).keep = s.keep := by
  induction l generalizing s with
  | nil => rfl
  | cons x l ih => exact (ih _).trans (h s x)


/-! ### Base -/

@[simp] theorem onSaf_keep (f : SafSt → SafSt) (s : State) : (onSaf f s).keep = s.keep := by (simp only [onSaf, apply_ite State.keep, ite_self, keep_mk, implies_true])
@[simp] theorem onSafG_keep (g : Nat) (f : SafGroup → SafGroup) (s : State) : (onSafG g f s).keep = s.keep := by (simp only [onSafG, apply_ite State.keep, ite_self, keep_mk, implies_true])
@[simp] theorem onChip_keep (f : ChipSt → ChipSt) (s : State) : (onChip f s).keep = s.keep := by (simp only [onChip, apply_ite State.keep, ite_self, keep_mk, implies_true])
@[simp] theorem onTime_keep (f : TimeSt → TimeSt) (s : State) : (onTime f s).keep = s.keep := by (simp only [onTime, apply_ite State.keep, ite_self, keep_mk, implies_true])
@[simp] theorem onRing_keep (r : Nat) (f : RingSt → RingSt) (s : State) : (onRing r f s).keep = s.keep := by (simp only [onRing, apply_ite State.keep, ite_self, keep_mk, implies_true])
@[simp] theorem onNode_keep (r j : Nat) (f : NodeSt → NodeSt) (s : State) : (onNode r j f s).keep = s.keep := by (simp only [onNode, apply_ite State.keep, ite_self, keep_mk, implies_true, onRing_keep])
@[simp] theorem onChan_keep (c : Nat) (f : ChanSt → ChanSt) (s : State) : (onChan c f s).keep = s.keep := by (simp only [onChan, apply_ite State.keep, ite_self, keep_mk, implies_true])
@[simp] theorem onAxis_keep (a : Nat) (f : AxisSt → AxisSt) (s : State) : (onAxis a f s).keep = s.keep := by (simp only [onAxis, apply_ite State.keep, ite_self, keep_mk, implies_true])
@[simp] theorem onGrp_keep (g : Nat) (f : GroupSt → GroupSt) (s : State) : (onGrp g f s).keep = s.keep := by (simp only [onGrp, apply_ite State.keep, ite_self, keep_mk, implies_true])
@[simp] theorem onTrlG_keep (g : Nat) (f : TrlGroup → TrlGroup) (s : State) : (onTrlG g f s).keep = s.keep := by (simp only [onTrlG, apply_ite State.keep, ite_self, keep_mk, implies_true])
@[simp] theorem onZone_keep (z : Nat) (f : ZoneSt → ZoneSt) (s : State) : (onZone z f s).keep = s.keep := by (simp only [onZone, apply_ite State.keep, ite_self, keep_mk, implies_true])
@[simp] theorem onObj_keep (j : Nat) (f : ObjSt → ObjSt) (s : State) : (onObj j f s).keep = s.keep := by (simp only [onObj, apply_ite State.keep, ite_self, keep_mk, implies_true])
@[simp] theorem onProb_keep (p : Nat) (f : ProbSt → ProbSt) (s : State) : (onProb p f s).keep = s.keep := by (simp only [onProb, apply_ite State.keep, ite_self, keep_mk, implies_true])
@[simp] theorem onCore_keep (c : Nat) (f : CoreSt → CoreSt) (s : State) : (onCore c f s).keep = s.keep := by (simp only [onCore, apply_ite State.keep, ite_self, keep_mk, implies_true])
@[simp] theorem onFlow_keep (i : Nat) (f : FlowSt → FlowSt) (s : State) : (onFlow i f s).keep = s.keep := by (simp only [onFlow, apply_ite State.keep, ite_self, keep_mk, implies_true])
@[simp] theorem onQueue_keep (q : Nat) (f : QueueSt → QueueSt) (s : State) : (onQueue q f s).keep = s.keep := by (simp only [onQueue, apply_ite State.keep, ite_self, keep_mk, implies_true])
@[simp] theorem onPort_keep (p : Nat) (f : PortSt → PortSt) (s : State) : (onPort p f s).keep = s.keep := by (simp only [onPort, apply_ite State.keep, ite_self, keep_mk, implies_true])
@[simp] theorem onNet_keep (n : Nat) (f : NetSt → NetSt) (s : State) : (onNet n f s).keep = s.keep := by (simp only [onNet, apply_ite State.keep, ite_self, keep_mk, implies_true])
@[simp] theorem onHost_keep (f : HostSt → HostSt) (s : State) : (onHost f s).keep = s.keep := by (simp only [onHost, apply_ite State.keep, ite_self, keep_mk, implies_true])
@[simp] theorem onPair_keep (f : PairSt → PairSt) (s : State) : (onPair f s).keep = s.keep := by (simp only [onPair, apply_ite State.keep, ite_self, keep_mk, implies_true])
@[simp] theorem onRegion_keep (r : Region) (f : RegionSt → RegionSt) (s : State) : (onRegion r f s).keep = s.keep := by (simp only [onRegion, apply_ite State.keep, ite_self, keep_mk, implies_true])
@[simp] theorem forAll_keep {α : Type} (l : List α) (f : α → State → State) (s : State) (h : ∀ x t, (f x t).keep = t.keep) : (forAll l f s).keep = s.keep := by induction l generalizing s with | nil => rfl | cons x l ih => exact (ih (f x s)).trans (h x s)
@[simp] theorem within_keep (r : Region) (f : State → State) (s : State) (h : ∀ t, (f t).keep = t.keep) : (within r f s).keep = s.keep := by (simp only [within, apply_ite State.keep, ite_self, keep_mk, implies_true, h])

/-! ### Ops -/

@[simp] theorem event_keep (code detail : Nat) (s : State) : (event code detail s).keep = s.keep := by (simp only [event, apply_ite State.keep, ite_self, keep_mk, implies_true])
@[simp] theorem eventOnce_keep (code key detail : Nat) (s : State) : (eventOnce code key detail s).keep = s.keep := by (simp only [eventOnce, apply_ite State.keep, ite_self, keep_mk, implies_true, event_keep, onChip_keep])
@[simp] theorem bbTrigger_keep (t code : Nat) (s : State) : (bbTrigger t code s).keep = s.keep := by (simp only [bbTrigger, apply_ite State.keep, ite_self, keep_mk, implies_true])
@[simp] theorem mark_keep (i : Nat) (m : Mask) (s : State) : (mark i m s).keep = s.keep := by (simp only [mark, apply_ite State.keep, ite_self, keep_mk, implies_true, onTime_keep])
@[simp] theorem markNext_keep (i : Nat) (m : Mask) (s : State) : (markNext i m s).keep = s.keep := by (simp only [markNext, apply_ite State.keep, ite_self, keep_mk, implies_true, onTime_keep])
@[simp] theorem onRec_keep (f : RecSt → RecSt) (s : State) : (onRec f s).keep = s.keep := by (simp only [onRec, apply_ite State.keep, ite_self, keep_mk, implies_true])
@[simp] theorem takeCheckpoint_keep (s : State) : (takeCheckpoint s).keep = s.keep := by (simp only [takeCheckpoint, apply_ite State.keep, ite_self, keep_mk, implies_true, onRec_keep])
@[simp] theorem recTrip_keep (s : State) : (recTrip s).keep = s.keep := by (simp only [recTrip, apply_ite State.keep, ite_self, keep_mk, implies_true])
@[simp] theorem demandStop_keep (m : Mask) (cause : Nat) (s : State) : (demandStop m cause s).keep = s.keep := by (simp only [demandStop, apply_ite State.keep, ite_self, keep_mk, implies_true, forAll_keep, onSafG_keep])
@[simp] theorem demandSto_keep (m : Mask) (cause : Nat) (s : State) : (demandSto m cause s).keep = s.keep := by (simp only [demandSto, apply_ite State.keep, ite_self, keep_mk, implies_true, forAll_keep, onSafG_keep])
@[simp] theorem latchA_keep (m : Mask) (src code : Nat) (s : State) : (latchA m src code s).keep = s.keep := by (simp only [latchA, apply_ite State.keep, ite_self, keep_mk, implies_true, bbTrigger_keep, recTrip_keep, forAll_keep, onSafG_keep, onSaf_keep])
@[simp] theorem classA_keep (m : Mask) (src code : Nat) (s : State) : (classA m src code s).keep = s.keep := by (simp only [classA, apply_ite State.keep, ite_self, keep_mk, implies_true, demandStop_keep, latchA_keep])
@[simp] theorem endA_keep (m : Mask) (src : Nat) (s : State) : (endA m src s).keep = s.keep := by (simp only [endA, apply_ite State.keep, ite_self, keep_mk, implies_true, forAll_keep, onSafG_keep])
@[simp] theorem addB_keep (src idx : Nat) (m : Mask) (code : Nat) (s : State) : (addB src idx m code s).keep = s.keep := by (simp only [addB, apply_ite State.keep, ite_self, keep_mk, implies_true, onSaf_keep])
@[simp] theorem endB_keep (src idx : Nat) (s : State) : (endB src idx s).keep = s.keep := by (simp only [endB, apply_ite State.keep, ite_self, keep_mk, implies_true, onSaf_keep])
@[simp] theorem autoHandover_keep (s : State) : (autoHandover s).keep = s.keep := by (simp only [autoHandover, apply_ite State.keep, ite_self, keep_mk, implies_true, onPair_keep])
@[simp] theorem escalate_keep (r : Region) (s : State) : (escalate r s).keep = s.keep := by (simp only [escalate, apply_ite State.keep, ite_self, keep_mk, implies_true, bbTrigger_keep, recTrip_keep, onRegion_keep, mark_keep, event_keep, onChip_keep, demandSto_keep, onSaf_keep, autoHandover_keep, demandStop_keep])
@[simp] theorem trace_keep (k f handle core result info dl : Nat) (s : State) : (trace k f handle core result info dl s).keep = s.keep := by (simp only [trace, apply_ite State.keep, ite_self, keep_mk, implies_true, eventOnce_keep, onHost_keep, onChip_keep])
@[simp] theorem loseCore_keep (c : Nat) (s : State) : (loseCore c s).keep = s.keep := by (unfold loseCore; try dsimp only; repeat' (first | with_reducible rfl | with_reducible exact keep_mk .. | split | intro _ | (simp only [apply_ite State.keep, ite_self, keep_mk, implies_true, trace_keep, onHost_keep, onCore_keep]) | refine (forAll_keep _ _ _ ?_).trans ?_))
@[simp] theorem moveFlows_keep (s : State) : (moveFlows s).keep = s.keep := by (simp only [moveFlows, apply_ite State.keep, ite_self, keep_mk, implies_true, forAll_keep, trace_keep, event_keep, onFlow_keep])
@[simp] theorem loseChan_keep (c : Nat) (s : State) : (loseChan c s).keep = s.keep := by (simp only [loseChan, apply_ite State.keep, ite_self, keep_mk, implies_true, onChan_keep])
@[simp] theorem blockReaction_keep (r : Region) (b : Nat) (s : State) : (blockReaction r b s).keep = s.keep := by (unfold blockReaction; split <;> first | with_reducible rfl | with_reducible exact keep_mk .. | (simp only [apply_ite State.keep, ite_self, keep_mk, implies_true, forAll_keep, onAxis_keep, classA_keep, mark_keep, onGrp_keep, onProb_keep, markNext_keep, addB_keep, loseChan_keep, onRing_keep, demandSto_keep, moveFlows_keep, loseCore_keep]))
@[simp] theorem quarantine_keep (r : Region) (b : Nat) (s : State) : (quarantine r b s).keep = s.keep := by (simp only [quarantine, apply_ite State.keep, ite_self, keep_mk, implies_true, escalate_keep, onRegion_keep, blockReaction_keep, event_keep])
@[simp] theorem noteFault_keep (r : Region) (b sl : Nat) (s : State) : (noteFault r b sl s).keep = s.keep := by (simp only [noteFault, apply_ite State.keep, ite_self, keep_mk, implies_true, event_keep, onRegion_keep, quarantine_keep])
@[simp] theorem errorToken_keep (s : State) : (errorToken s).keep = s.keep := by (simp only [errorToken, apply_ite State.keep, ite_self, keep_mk, implies_true, onChip_keep])
@[simp] theorem answer_keep (v : Word) (s : State) : (answer v s).keep = s.keep := by (simp only [answer, apply_ite State.keep, ite_self, keep_mk, implies_true, onChip_keep])
@[simp] theorem acked_keep (s : State) : (acked s).keep = s.keep := by (simp only [acked, apply_ite State.keep, ite_self, keep_mk, implies_true, onChip_keep])
@[simp] theorem absentAccess_keep (write : Bool) (s : State) : (absentAccess write s).keep = s.keep := by (simp only [absentAccess, apply_ite State.keep, ite_self, keep_mk, implies_true, event_keep, acked_keep, answer_keep])
@[simp] theorem settle_keep (s t : State) : (settle s t).keep = t.keep := by (simp only [settle, apply_ite State.keep, ite_self, keep_mk, implies_true])
@[simp] theorem access_keep (r : Region) (f : State → State) (s : State) (h : ∀ t, (f t).keep = t.keep) : (access r f s).keep = s.keep := by (simp only [access, apply_ite State.keep, ite_self, keep_mk, implies_true, h, errorToken_keep])
@[simp] theorem drawFree_keep (s : State) : (drawFree s).2.keep = s.keep := by (simp only [drawFree, apply_ite State.keep, ite_self, keep_mk, implies_true])

/-! ### Chip -/

@[simp] theorem onArb_keep (n : Nat) (f : ArbSt → ArbSt) (s : State) : (onArb n f s).keep = s.keep := by (simp only [onArb, apply_ite State.keep, ite_self, keep_mk, implies_true, onChip_keep])
@[simp] theorem endGrants_keep (id : Nat) (s : State) : (endGrants id s).keep = s.keep := by (simp only [endGrants, apply_ite State.keep, ite_self, keep_mk, implies_true, onChip_keep])
@[simp] theorem refuseOrder_keep (n : Nat) (s : State) : (refuseOrder n s).keep = s.keep := by (simp only [refuseOrder, apply_ite State.keep, ite_self, keep_mk, implies_true, event_keep])
@[simp] theorem raiseRequest_keep (n id : Nat) (lock : Bool) (len : Nat) (s : State) : (raiseRequest n id lock len s).keep = s.keep := by (simp only [raiseRequest, apply_ite State.keep, ite_self, keep_mk, implies_true, onArb_keep])
@[simp] theorem lockRequest_keep (n id : Nat) (s : State) : (lockRequest n id s).keep = s.keep := by (simp only [lockRequest, apply_ite State.keep, ite_self, keep_mk, implies_true, absentAccess_keep, raiseRequest_keep, endGrants_keep, refuseOrder_keep])
@[simp] theorem grantRequest_keep (n id len : Nat) (s : State) : (grantRequest n id len s).keep = s.keep := by (simp only [grantRequest, apply_ite State.keep, ite_self, keep_mk, implies_true, absentAccess_keep, raiseRequest_keep, endGrants_keep, refuseOrder_keep])
@[simp] theorem lockRelease_keep (n id : Nat) (s : State) : (lockRelease n id s).keep = s.keep := by (simp only [lockRelease, apply_ite State.keep, ite_self, keep_mk, implies_true, onArb_keep])
@[simp] theorem noteAcyclic_keep (n : Nat) (r : ArbReq) (s : State) : (noteAcyclic n r s).keep = s.keep := by (simp only [noteAcyclic, apply_ite State.keep, ite_self, keep_mk, implies_true, onRing_keep])
@[simp] theorem parkLosers_keep (n : Nat) (s : State) : (parkLosers n s).keep = s.keep := by (simp only [parkLosers, apply_ite State.keep, ite_self, keep_mk, implies_true, onArb_keep, eventOnce_keep])
@[simp] theorem passOver_keep (n : Nat) (s : State) : (passOver n s).keep = s.keep := by (simp only [passOver, apply_ite State.keep, ite_self, keep_mk, implies_true, onArb_keep])
@[simp] theorem dropAt_keep (id m : Nat) (s : State) : (dropAt id m s).keep = s.keep := by (unfold dropAt; try dsimp only; repeat' (first | with_reducible rfl | with_reducible exact keep_mk .. | split | intro _ | (simp only [apply_ite State.keep, ite_self, keep_mk, implies_true, refuseOrder_keep, onArb_keep]) | refine (forAll_keep _ _ _ ?_).trans ?_))
@[simp] theorem dropDisordered_keep (id : Nat) (s : State) : (dropDisordered id s).keep = s.keep := by (simp only [dropDisordered, apply_ite State.keep, ite_self, keep_mk, implies_true, forAll_keep, dropAt_keep])
@[simp] theorem serve_keep (n : Nat) (r : ArbReq) (s : State) : (serve n r s).keep = s.keep := by (simp only [serve, apply_ite State.keep, ite_self, keep_mk, implies_true, onArb_keep, parkLosers_keep, passOver_keep, dropDisordered_keep, errorToken_keep, noteAcyclic_keep])
@[simp] theorem displace_keep (n h : Nat) (s : State) : (displace n h s).keep = s.keep := by (simp only [displace, apply_ite State.keep, ite_self, keep_mk, implies_true, onArb_keep])
@[simp] theorem decideArb_keep (n : Nat) (s : State) : (decideArb n s).keep = s.keep := by (unfold decideArb; try dsimp only; repeat' (first | with_reducible rfl | with_reducible exact keep_mk .. | split | intro _ | (simp only [apply_ite State.keep, ite_self, keep_mk, implies_true, parkLosers_keep, onArb_keep, serve_keep, displace_keep, passOver_keep]) | refine (forAll_keep _ _ _ ?_).trans ?_))
@[simp] theorem arbiterDecision_keep (n : Nat) (s : State) : (arbiterDecision n s).keep = s.keep := by (simp only [arbiterDecision, apply_ite State.keep, ite_self, keep_mk, implies_true, absentAccess_keep, decideArb_keep])
@[simp] theorem lockTimeout_keep (n : Nat) (s : State) : (lockTimeout n s).keep = s.keep := by (unfold lockTimeout; split <;> first | with_reducible rfl | with_reducible exact keep_mk .. | (simp only [apply_ite State.keep, ite_self, keep_mk, implies_true, event_keep, onArb_keep]))
@[simp] theorem arbFreeze_keep (n : Nat) (s : State) : (arbFreeze n s).keep = s.keep := by (simp only [arbFreeze, apply_ite State.keep, ite_self, keep_mk, implies_true, absentAccess_keep, acked_keep, onArb_keep])
@[simp] theorem arbUnfreeze_keep (n : Nat) (s : State) : (arbUnfreeze n s).keep = s.keep := by (simp only [arbUnfreeze, apply_ite State.keep, ite_self, keep_mk, implies_true, absentAccess_keep, onArb_keep, acked_keep, decideArb_keep])
@[simp] theorem crossingAccess_keep (id sl dom pulses : Nat) (s : State) : (crossingAccess id sl dom pulses s).keep = s.keep := by (simp only [crossingAccess, apply_ite State.keep, ite_self, keep_mk, implies_true, onChip_keep, event_keep, addB_keep])
@[simp] theorem xFinish_keep (id : Nat) (s : State) : (xFinish id s).keep = s.keep := by (simp only [xFinish, apply_ite State.keep, ite_self, keep_mk, implies_true, onChip_keep])
@[simp] theorem crossingLateResponse_keep (_id _dom : Nat) (s : State) : (crossingLateResponse _id _dom s).keep = s.keep := by (simp only [crossingLateResponse, apply_ite State.keep, ite_self, keep_mk, implies_true])
@[simp] theorem quarantinedAccess_keep (r : Region) (b : Nat) (s : State) : (quarantinedAccess r b s).keep = s.keep := by (simp only [quarantinedAccess, apply_ite State.keep, ite_self, keep_mk, implies_true, event_keep, errorToken_keep])
@[simp] theorem decodeError_keep (addr : Nat) (dma : Bool) (s : State) : (decodeError addr dma s).keep = s.keep := by (simp only [decodeError, apply_ite State.keep, ite_self, keep_mk, implies_true, event_keep, errorToken_keep])

/-! ### Time -/

@[simp] theorem slewTo_keep (at_ : Nat) (s : State) : (slewTo at_ s).keep = s.keep := by (simp only [slewTo, apply_ite State.keep, ite_self, keep_mk, implies_true, onTime_keep])
@[simp] theorem advanceTb_keep (at_ : Nat) (s : State) : (advanceTb at_ s).keep = s.keep := by (simp only [advanceTb, apply_ite State.keep, ite_self, keep_mk, implies_true, onTime_keep, slewTo_keep])
@[simp] theorem servoTo_keep (at_ : Nat) (offset rate : Int) (s : State) : (servoTo at_ offset rate s).keep = s.keep := by (simp only [servoTo, apply_ite State.keep, ite_self, keep_mk, implies_true, onTime_keep, slewTo_keep])
@[simp] theorem onDom_keep (d at_ : Nat) (f : DomSt → DomSt) (s : State) : (onDom d at_ f s).keep = s.keep := by (simp only [onDom, apply_ite State.keep, ite_self, keep_mk, implies_true, onTime_keep])
@[simp] theorem enterHoldover_keep (at_ : Nat) (s : State) : (enterHoldover at_ s).keep = s.keep := by (simp only [enterHoldover, apply_ite State.keep, ite_self, keep_mk, implies_true, slewTo_keep, onTime_keep, event_keep])
@[simp] theorem followDom_keep (d at_ : Nat) (s : State) : (followDom d at_ s).keep = s.keep := by (simp only [followDom, apply_ite State.keep, ite_self, keep_mk, implies_true, event_keep, enterHoldover_keep, onTime_keep, servoTo_keep])
@[simp] theorem selectDomain_keep (at_ : Nat) (s : State) : (selectDomain at_ s).keep = s.keep := by (simp only [selectDomain, apply_ite State.keep, ite_self, keep_mk, implies_true, enterHoldover_keep, followDom_keep])
@[simp] theorem lockCheck_keep (d : Nat) (offset : Int) (s : State) : (lockCheck d offset s).keep = s.keep := by (simp only [lockCheck, apply_ite State.keep, ite_self, keep_mk, implies_true, onTime_keep, event_keep])
@[simp] theorem disagreeCheck_keep (s : State) : (disagreeCheck s).keep = s.keep := by (simp only [disagreeCheck, apply_ite State.keep, ite_self, keep_mk, implies_true, onTime_keep, event_keep])
@[simp] theorem acquireStep_keep (d : Nat) (offset rate : Int) (s : State) : (acquireStep d offset rate s).keep = s.keep := by (simp only [acquireStep, apply_ite State.keep, ite_self, keep_mk, implies_true, onTime_keep])
@[simp] theorem holdOffset_keep (offset : Int) (s : State) : (holdOffset offset s).keep = s.keep := by (simp only [holdOffset, apply_ite State.keep, ite_self, keep_mk, implies_true, event_keep, onTime_keep])
@[simp] theorem syncReceived_keep (domB : Bool) (time : Nat) (rate : Int) (at_ : Nat) (s : State) : (syncReceived domB time rate at_ s).keep = s.keep := by (simp only [syncReceived, apply_ite State.keep, ite_self, keep_mk, implies_true, advanceTb_keep, onDom_keep, selectDomain_keep, onTime_keep, disagreeCheck_keep, acquireStep_keep, lockCheck_keep, servoTo_keep, holdOffset_keep])
@[simp] theorem announceReceived_keep (domB : Bool) (a : GmSet) (at_ : Nat) (s : State) : (announceReceived domB a at_ s).keep = s.keep := by (simp only [announceReceived, apply_ite State.keep, ite_self, keep_mk, implies_true, selectDomain_keep, onDom_keep, advanceTb_keep])
@[simp] theorem domainTimeout_keep (domB announce : Bool) (at_ : Nat) (s : State) : (domainTimeout domB announce at_ s).keep = s.keep := by (simp only [domainTimeout, apply_ite State.keep, ite_self, keep_mk, implies_true, selectDomain_keep, onDom_keep, advanceTb_keep])
@[simp] theorem domainRevert_keep (at_ : Nat) (s : State) : (domainRevert at_ s).keep = s.keep := by (simp only [domainRevert, apply_ite State.keep, ite_self, keep_mk, implies_true, followDom_keep, advanceTb_keep])
@[simp] theorem onTrig_keep (i : Nat) (f : TrigSt → TrigSt) (s : State) : (onTrig i f s).keep = s.keep := by (simp only [onTrig, apply_ite State.keep, ite_self, keep_mk, implies_true, onTime_keep])
@[simp] theorem armTrigger_keep (i : Nat) (w : TrigWords) (src : Bool) (now : Nat) (s : State) : (armTrigger i w src now s).keep = s.keep := by (simp only [armTrigger, apply_ite State.keep, ite_self, keep_mk, implies_true, onTrig_keep, event_keep])
@[simp] theorem disarmTrigger_keep (i : Nat) (w : TrigWords) (s : State) : (disarmTrigger i w s).keep = s.keep := by (simp only [disarmTrigger, apply_ite State.keep, ite_self, keep_mk, implies_true, onTrig_keep])
@[simp] theorem applyTrigger_keep (i : Nat) (w : TrigWords) (src : Bool) (now : Nat) (s : State) : (applyTrigger i w src now s).keep = s.keep := by (simp only [applyTrigger, apply_ite State.keep, ite_self, keep_mk, implies_true, armTrigger_keep, disarmTrigger_keep])
@[simp] theorem writeTrigger_keep (i : Nat) (w : TrigWords) (src : Bool) (now : Nat) (s : State) : (writeTrigger i w src now s).keep = s.keep := by (simp only [writeTrigger, apply_ite State.keep, ite_self, keep_mk, implies_true, onTrig_keep, applyTrigger_keep])
@[simp] theorem triggerWrite_keep (who : Who) (i : Nat) (ctl : Word) (now : Nat) (s : State) : (triggerWrite who i ctl now s).keep = s.keep := by (simp only [triggerWrite, apply_ite State.keep, ite_self, keep_mk, implies_true, acked_keep, writeTrigger_keep, advanceTb_keep])
@[simp] theorem triggerEdge_keep (i : Nat) (s : State) : (triggerEdge i s).keep = s.keep := by (unfold triggerEdge; try dsimp only; repeat' (first | with_reducible rfl | with_reducible exact keep_mk .. | split | intro _ | (simp only [apply_ite State.keep, ite_self, keep_mk, implies_true, onTrig_keep, applyTrigger_keep]) | refine (forAll_keep _ _ _ ?_).trans ?_))
@[simp] theorem triggerPulseEnd_keep (i : Nat) (s : State) : (triggerPulseEnd i s).keep = s.keep := by (simp only [triggerPulseEnd, apply_ite State.keep, ite_self, keep_mk, implies_true, onTrig_keep])
@[simp] theorem onCap_keep (j : Nat) (f : CapSt → CapSt) (s : State) : (onCap j f s).keep = s.keep := by (simp only [onCap, apply_ite State.keep, ite_self, keep_mk, implies_true, onTime_keep])
@[simp] theorem listEdge_keep (j tb : Nat) (rise : Bool) (s : State) : (listEdge j tb rise s).keep = s.keep := by (simp only [listEdge, apply_ite State.keep, ite_self, keep_mk, implies_true, onCap_keep])
@[simp] theorem captureEdge_keep (j tb : Nat) (rise : Bool) (held : Nat) (s : State) : (captureEdge j tb rise held s).keep = s.keep := by (simp only [captureEdge, apply_ite State.keep, ite_self, keep_mk, implies_true, listEdge_keep, onCap_keep, eventOnce_keep])
@[simp] theorem latchWords_keep (a : Nat) (ws : List Word) (s : State) : (latchWords a ws s).keep = s.keep := by (simp only [latchWords, apply_ite State.keep, ite_self, keep_mk, implies_true, onChip_keep])
@[simp] theorem captureRead_keep (j : Nat) (s : State) : (captureRead j s).keep = s.keep := by (unfold captureRead; split <;> first | with_reducible rfl | with_reducible exact keep_mk .. | (simp only [apply_ite State.keep, ite_self, keep_mk, implies_true, answer_keep, latchWords_keep, onCap_keep]))
@[simp] theorem timeCrossCheck_keep (count : Nat) (s : State) : (timeCrossCheck count s).keep = s.keep := by (simp only [timeCrossCheck, apply_ite State.keep, ite_self, keep_mk, implies_true, onTime_keep, escalate_keep, event_keep, classA_keep])
@[simp] theorem timeStops_keep (code : Nat) (s : State) : (timeStops code s).keep = s.keep := by (simp only [timeStops, apply_ite State.keep, ite_self, keep_mk, implies_true, escalate_keep, classA_keep, event_keep, onTime_keep])
@[simp] theorem onSlack_keep (p : Nat) (f : SlackSt → SlackSt) (s : State) : (onSlack p f s).keep = s.keep := by (simp only [onSlack, apply_ite State.keep, ite_self, keep_mk, implies_true, onTime_keep])
@[simp] theorem registerToken_keep (p : Nat) (groups : Mask) (at_ : Nat) (s : State) : (registerToken p groups at_ s).keep = s.keep := by (simp only [registerToken, apply_ite State.keep, ite_self, keep_mk, implies_true, onSlack_keep])
@[simp] theorem noteMiss_keep (p : Nat) (s : State) : (noteMiss p s).keep = s.keep := by (simp only [noteMiss, apply_ite State.keep, ite_self, keep_mk, implies_true, recTrip_keep, onTime_keep])
@[simp] theorem missReaction_keep (late : Bool) (m : Mask) (s : State) : (missReaction late m s).keep = s.keep := by (simp only [missReaction, apply_ite State.keep, ite_self, keep_mk, implies_true, forAll_keep, onAxis_keep, onTime_keep, onSafG_keep])
@[simp] theorem missPhase_keep (p : Nat) (m : Mask) (s : State) : (missPhase p m s).keep = s.keep := by (simp only [missPhase, apply_ite State.keep, ite_self, keep_mk, implies_true, event_keep, mark_keep, noteMiss_keep, escalate_keep, missReaction_keep])
@[simp] theorem slackClear_keep (s : State) : (slackClear s).keep = s.keep := by (simp only [slackClear, apply_ite State.keep, ite_self, keep_mk, implies_true, acked_keep, onTime_keep])
@[simp] theorem vregNext_keep (s : State) : (vregNext s).keep = s.keep := by (unfold vregNext; split <;> first | with_reducible rfl | with_reducible exact keep_mk .. | (simp only [apply_ite State.keep, ite_self, keep_mk, implies_true, onTime_keep]))
@[simp] theorem vregSend_keep (l : List (Nat × Bool)) (s : State) : (vregSend l s).keep = s.keep := by (simp only [vregSend, apply_ite State.keep, ite_self, keep_mk, implies_true, onTime_keep, vregNext_keep])
@[simp] theorem sendRec_keep (s : State) : (sendRec s).keep = s.keep := by (simp only [sendRec, apply_ite State.keep, ite_self, keep_mk, implies_true, vregSend_keep, onTime_keep])
@[simp] theorem vrecWindow_keep (s : State) : (vrecWindow s).keep = s.keep := by (unfold vrecWindow; try dsimp only; repeat' (first | with_reducible rfl | with_reducible exact keep_mk .. | split | intro _ | (simp only [apply_ite State.keep, ite_self, keep_mk, implies_true, sendRec_keep, onTime_keep, event_keep]) | refine (forAll_keep _ _ _ ?_).trans ?_))
@[simp] theorem vregFault_keep (s : State) : (vregFault s).keep = s.keep := by (simp only [vregFault, apply_ite State.keep, ite_self, keep_mk, implies_true, event_keep, onTime_keep])
@[simp] theorem vregTransactionDone_keep (ok : Bool) (data : Nat) (s : State) : (vregTransactionDone ok data s).keep = s.keep := by (unfold vregTransactionDone; repeat' (first | with_reducible rfl | with_reducible exact keep_mk .. | (simp only [apply_ite State.keep, ite_self, keep_mk, implies_true, vregFault_keep, vregNext_keep, onTime_keep]) | (split; skip) | intro _ | refine (forAll_keep _ _ _ ?_).trans ?_ | refine (foldl_keep _ ?_ _ _).trans ?_ | refine (needsCell_keep _ _ _ _ ?_).trans ?_ | refine (withGroup_keep _ _ _ _ ?_).trans ?_))
@[simp] theorem vregReadbackCheck_keep (s : State) : (vregReadbackCheck s).keep = s.keep := by (simp only [vregReadbackCheck, apply_ite State.keep, ite_self, keep_mk, implies_true, vregFault_keep, onTime_keep])

/-! ### Queues -/

@[simp] theorem pushEntry_keep (q : Nat) (e : QEntry) (s : State) : (pushEntry q e s).keep = s.keep := by (simp only [pushEntry, apply_ite State.keep, ite_self, keep_mk, implies_true, onQueue_keep, onChip_keep])
@[simp] theorem queueAck_keep (who : Who) (q n : Nat) (s : State) : (queueAck who q n s).keep = s.keep := by (unfold queueAck; try dsimp only; repeat' (first | with_reducible rfl | with_reducible exact keep_mk .. | split | intro _ | (simp only [apply_ite State.keep, ite_self, keep_mk, implies_true, onQueue_keep, acked_keep, onSaf_keep, onHost_keep, trace_keep]) | refine (forAll_keep _ _ _ ?_).trans ?_))
@[simp] theorem noteInput_keep (t : Nat) (l : List Byte) (s : State) : (noteInput t l s).keep = s.keep := by (simp only [noteInput, apply_ite State.keep, ite_self, keep_mk, implies_true])
@[simp] theorem logPdu_keep (q : Nat) (d : Pdu) (nets : Nat) (s : State) : (logPdu q d nets s).keep = s.keep := by (simp only [logPdu, apply_ite State.keep, ite_self, keep_mk, implies_true, onChip_keep, onQueue_keep, onSaf_keep])
@[simp] theorem dropFrame_keep (p : Nat) (s : State) : (dropFrame p s).keep = s.keep := by (simp only [dropFrame, apply_ite State.keep, ite_self, keep_mk, implies_true, eventOnce_keep, onPort_keep])
@[simp] theorem sendDev_keep (p : Nat) (f : TxFrame) (s : State) : (sendDev p f s).keep = s.keep := by (simp only [sendDev, apply_ite State.keep, ite_self, keep_mk, implies_true, onPort_keep, dropFrame_keep])
@[simp] theorem sendFwd_keep (p : Nat) (f : TxFrame) (s : State) : (sendFwd p f s).keep = s.keep := by (simp only [sendFwd, apply_ite State.keep, ite_self, keep_mk, implies_true, onPort_keep, dropFrame_keep])
@[simp] theorem sendNet_keep (n : Nat) (f : TxFrame) (s : State) : (sendNet n f s).keep = s.keep := by (simp only [sendNet, apply_ite State.keep, ite_self, keep_mk, implies_true, sendDev_keep])
@[simp] theorem plantTransmitDone_keep (p : Nat) (s : State) : (plantTransmitDone p s).keep = s.keep := by (simp only [plantTransmitDone, apply_ite State.keep, ite_self, keep_mk, implies_true, onPort_keep])
@[simp] theorem keepResidue_keep (net : Nat) (m : PtpId) (c : Int) (s : State) : (keepResidue net m c s).keep = s.keep := by (simp only [keepResidue, apply_ite State.keep, ite_self, keep_mk, implies_true, onTime_keep])
@[simp] theorem takeResidue_keep (net : Nat) (m : PtpId) (s : State) : (takeResidue net m s).2.keep = s.keep := by (unfold takeResidue; split <;> first | with_reducible rfl | with_reducible exact keep_mk .. | (simp only [apply_ite State.keep, ite_self, keep_mk, implies_true, onTime_keep]))
@[simp] theorem sendPtp_keep (p : Nat) (f : TxFrame) (s : State) : (sendPtp p f s).keep = s.keep := by (simp only [sendPtp, apply_ite State.keep, ite_self, keep_mk, implies_true, onPort_keep])
@[simp] theorem clockForward_keep (port ingress len : Nat) (later : Bool) (m : PtpId) (wireEnd up : Nat) (s : State) : (clockForward port ingress len later m wireEnd up s).keep = s.keep := by (simp only [clockForward, apply_ite State.keep, ite_self, keep_mk, implies_true, keepResidue_keep, onTime_keep, sendPtp_keep])
@[simp] theorem ptpEventForward_keep (port ingress len : Nat) (fcsOk twoStep oneStepPeer : Bool) (m : PtpId) (wireEnd up : Nat) (s : State) : (ptpEventForward port ingress len fcsOk twoStep oneStepPeer m wireEnd up s).keep = s.keep := by (simp only [ptpEventForward, apply_ite State.keep, ite_self, keep_mk, implies_true, onNet_keep, sendFwd_keep, clockForward_keep])
@[simp] theorem discardIp_keep (n : Nat) (s : State) : (discardIp n s).keep = s.keep := by (simp only [discardIp, apply_ite State.keep, ite_self, keep_mk, implies_true, onNet_keep])
@[simp] theorem forwardFrom_keep (p len : Nat) (ptp : Option PtpId) (s : State) : (forwardFrom p len ptp s).keep = s.keep := by (unfold forwardFrom; split <;> first | with_reducible rfl | with_reducible exact keep_mk .. | (simp only [apply_ite State.keep, ite_self, keep_mk, implies_true, takeResidue_keep, sendFwd_keep]))
@[simp] theorem plantFrameReceived_keep (p len : Nat) (fcsOk dstOwn srcOwn multi supported : Bool) (ptp : Option PtpId) (s : State) : (plantFrameReceived p len fcsOk dstOwn srcOwn multi supported ptp s).keep = s.keep := by (simp only [plantFrameReceived, apply_ite State.keep, ite_self, keep_mk, implies_true, onNet_keep, forwardFrom_keep, discardIp_keep])
@[simp] theorem arpRequest_keep (n : Nat) (s : State) : (arpRequest n s).keep = s.keep := by (simp only [arpRequest, apply_ite State.keep, ite_self, keep_mk, implies_true, sendNet_keep])
@[simp] theorem neighbourSolicitation_keep (n : Nat) (s : State) : (neighbourSolicitation n s).keep = s.keep := by (simp only [neighbourSolicitation, apply_ite State.keep, ite_self, keep_mk, implies_true, sendNet_keep])
@[simp] theorem icmpEchoRequest_keep (n now : Nat) (s : State) : (icmpEchoRequest n now s).keep = s.keep := by (simp only [icmpEchoRequest, apply_ite State.keep, ite_self, keep_mk, implies_true, sendNet_keep, onNet_keep])
@[simp] theorem udpMailbox_keep (n : Nat) (data : List Byte) (s : State) : (udpMailbox n data s).keep = s.keep := by (unfold udpMailbox; split <;> first | with_reducible rfl | with_reducible exact keep_mk .. | (simp only [apply_ite State.keep, ite_self, keep_mk, implies_true, pushEntry_keep, discardIp_keep]))
@[simp] theorem plantLinkDown_keep (p : Nat) (s : State) : (plantLinkDown p s).keep = s.keep := by (simp only [plantLinkDown, apply_ite State.keep, ite_self, keep_mk, implies_true, event_keep, onPort_keep])
@[simp] theorem plantLinkUp_keep (p : Nat) (s : State) : (plantLinkUp p s).keep = s.keep := by (simp only [plantLinkUp, apply_ite State.keep, ite_self, keep_mk, implies_true, event_keep, onPort_keep])

/-! ### Ring -/

@[simp] theorem onRPort_keep (r : Nat) (ccw : Bool) (f : RPort → RPort) (s : State) : (onRPort r ccw f s).keep = s.keep := by (simp only [onRPort, apply_ite State.keep, ite_self, keep_mk, implies_true, onRing_keep])
@[simp] theorem sendOn_keep (r : Nat) (ccw : Bool) (f : RingTx) (s : State) : (sendOn r ccw f s).keep = s.keep := by (simp only [sendOn, apply_ite State.keep, ite_self, keep_mk, implies_true, onRing_keep])
@[simp] theorem sendBoth_keep (r : Nat) (f : RingTx) (s : State) : (sendBoth r f s).keep = s.keep := by (simp only [sendBoth, apply_ite State.keep, ite_self, keep_mk, implies_true, sendOn_keep])
@[simp] theorem passFrame_keep (r : Nat) (ccw : Bool) (at_ : Nat) (cyclic : Bool) (h : RingHead) (pay : RingPay) (s : State) : (passFrame r ccw at_ cyclic h pay s).keep = s.keep := by (simp only [passFrame, apply_ite State.keep, ite_self, keep_mk, implies_true, sendOn_keep])
@[simp] theorem heard_keep (r at_ : Nat) (s : State) : (heard r at_ s).keep = s.keep := by (simp only [heard, apply_ite State.keep, ite_self, keep_mk, implies_true, onRing_keep])
@[simp] theorem coldCollision_keep (r at_ : Nat) (s : State) : (coldCollision r at_ s).keep = s.keep := by (simp only [coldCollision, apply_ite State.keep, ite_self, keep_mk, implies_true, event_keep, onRing_keep])
@[simp] theorem badFrame_keep (r : Nat) (ccw : Bool) (at_ : Nat) (cyclic : Bool) (h : RingHead) (s : State) : (badFrame r ccw at_ cyclic h s).keep = s.keep := by 
  unfold badFrame
  dsimp only
  split
  · simp only [coldCollision_keep, eventOnce_keep, onRPort_keep]
  · split
    · simp only [passFrame_keep, eventOnce_keep, onRPort_keep]
    · simp only [eventOnce_keep, onRPort_keep]
@[simp] theorem coldStart_keep (r at_ : Nat) (s : State) : (coldStart r at_ s).keep = s.keep := by (simp only [coldStart, apply_ite State.keep, ite_self, keep_mk, implies_true, sendBoth_keep, onRing_keep])
@[simp] theorem wroteOwn_keep (r : Nat) (s : State) : (wroteOwn r s).keep = s.keep := by (simp only [wroteOwn, apply_ite State.keep, ite_self, keep_mk, implies_true, onRing_keep])
@[simp] theorem openPart_keep (r slot : Nat) (side subst : Bool) (s : State) : (openPart r slot side subst s).keep = s.keep := by (simp only [openPart, apply_ite State.keep, ite_self, keep_mk, implies_true, wroteOwn_keep, sendOn_keep])
@[simp] theorem sendDistribute_keep (r slot : Nat) (s : State) : (sendDistribute r slot s).keep = s.keep := by (simp only [sendDistribute, apply_ite State.keep, ite_self, keep_mk, implies_true, onRing_keep, forAll_keep, sendOn_keep])
@[simp] theorem sendClaim_keep (r at_ : Nat) (s : State) : (sendClaim r at_ s).keep = s.keep := by (simp only [sendClaim, apply_ite State.keep, ite_self, keep_mk, implies_true, sendBoth_keep, onRing_keep])
@[simp] theorem confirmClaim_keep (r node spare : Nat) (viaSpare : Bool) (s : State) : (confirmClaim r node spare viaSpare s).keep = s.keep := by (simp only [confirmClaim, apply_ite State.keep, ite_self, keep_mk, implies_true, onRing_keep])
@[simp] theorem denyClaim_keep (r node spare reason : Nat) (s : State) : (denyClaim r node spare reason s).keep = s.keep := by (simp only [denyClaim, apply_ite State.keep, ite_self, keep_mk, implies_true, event_keep, onRing_keep])
@[simp] theorem awaitTool_keep (r spare digest : Nat) (s : State) : (awaitTool r spare digest s).keep = s.keep := by (simp only [awaitTool, apply_ite State.keep, ite_self, keep_mk, implies_true, forAll_keep, onGrp_keep])
@[simp] theorem decideClaim_keep (r : Nat) (m : ClaimMsg) (s : State) : (decideClaim r m s).keep = s.keep := by (unfold decideClaim; try dsimp only; repeat' (first | with_reducible rfl | with_reducible exact keep_mk .. | split | intro _ | (simp only [apply_ite State.keep, ite_self, keep_mk, implies_true, confirmClaim_keep, awaitTool_keep, denyClaim_keep]) | refine (forAll_keep _ _ _ ?_).trans ?_))
@[simp] theorem decideClaims_keep (r : Nat) (s : State) : (decideClaims r s).keep = s.keep := by (unfold decideClaims; try dsimp only; repeat' (first | with_reducible rfl | with_reducible exact keep_mk .. | split | intro _ | (simp only [apply_ite State.keep, ite_self, keep_mk, implies_true, onRing_keep, decideClaim_keep]) | refine (forAll_keep _ _ _ ?_).trans ?_))
@[simp] theorem claimFrame_keep (r : Nat) (ccw : Bool) (at_ : Nat) (h : RingHead) (m : ClaimMsg) (s : State) : (claimFrame r ccw at_ h m s).keep = s.keep := by (simp only [claimFrame, apply_ite State.keep, ite_self, keep_mk, implies_true, badFrame_keep, heard_keep, onRing_keep, passFrame_keep])
@[simp] theorem claimRetry_keep (r at_ : Nat) (s : State) : (claimRetry r at_ s).keep = s.keep := by (simp only [claimRetry, apply_ite State.keep, ite_self, keep_mk, implies_true, sendClaim_keep])
@[simp] theorem rejoinClaim_keep (r at_ : Nat) (s : State) : (rejoinClaim r at_ s).keep = s.keep := by (simp only [rejoinClaim, apply_ite State.keep, ite_self, keep_mk, implies_true, sendClaim_keep, onRing_keep])
@[simp] theorem sendBeacon_keep (r : Nat) (takeover : Bool) (s : State) : (sendBeacon r takeover s).keep = s.keep := by (simp only [sendBeacon, apply_ite State.keep, ite_self, keep_mk, implies_true, onRing_keep, decideClaims_keep, forAll_keep, sendOn_keep, event_keep])
@[simp] theorem noteDelay_keep (r j d : Nat) (s : State) : (noteDelay r j d s).keep = s.keep := by (simp only [noteDelay, apply_ite State.keep, ite_self, keep_mk, implies_true, onNode_keep, onRing_keep])
@[simp] theorem probeSlot_keep (r slot : Nat) (s : State) : (probeSlot r slot s).keep = s.keep := by 
  unfold probeSlot
  refine (forAll_keep _ _ _ ?_).trans (onRing_keep _ _ _)
  intro c t
  split
  · split
    · simp only [onRPort_keep, sendOn_keep]
    · rfl
  · split
    · simp only [onRPort_keep, onRing_keep]
    · rfl
@[simp] theorem probe_keep (r : Nat) (ccw : Bool) (at_ : Nat) (h : RingHead) (m : ProbeMsg) (s : State) : (probe r ccw at_ h m s).keep = s.keep := by (unfold probe; try dsimp only; repeat' (first | with_reducible rfl | with_reducible exact keep_mk .. | split | intro _ | (simp only [apply_ite State.keep, ite_self, keep_mk, implies_true, eventOnce_keep, onRPort_keep, heard_keep, noteDelay_keep, answer_keep]) | refine (forAll_keep _ _ _ ?_).trans ?_))
@[simp] theorem planStart_keep (s : State) : (planStart s).keep = s.keep := by (simp only [planStart, apply_ite State.keep, ite_self, keep_mk, implies_true, onTime_keep])
@[simp] theorem measureDone_keep (r : Nat) (s : State) : (measureDone r s).keep = s.keep := by (simp only [measureDone, apply_ite State.keep, ite_self, keep_mk, implies_true, onRing_keep, planStart_keep, event_keep])
@[simp] theorem heartbeatSlot_keep (r slot : Nat) (s : State) : (heartbeatSlot r slot s).keep = s.keep := by (simp only [heartbeatSlot, apply_ite State.keep, ite_self, keep_mk, implies_true, sendBoth_keep, onPair_keep])
@[simp] theorem beaconSlot_keep (r : Nat) (s : State) : (beaconSlot r s).keep = s.keep := by (simp only [beaconSlot, apply_ite State.keep, ite_self, keep_mk, implies_true, onPair_keep, sendBeacon_keep])
@[simp] theorem ringSlotStart_keep (r slot : Nat) (s : State) : (ringSlotStart r slot s).keep = s.keep := by (unfold ringSlotStart; try dsimp only; repeat' (first | with_reducible rfl | with_reducible exact keep_mk .. | split | intro _ | (simp only [apply_ite State.keep, ite_self, keep_mk, implies_true, onRing_keep, probeSlot_keep, forAll_keep, openPart_keep, sendDistribute_keep, beaconSlot_keep, sendClaim_keep, heartbeatSlot_keep]) | refine (forAll_keep _ _ _ ?_).trans ?_))
@[simp] theorem substituteOpen_keep (r slot : Nat) (ccw : Bool) (at_ : Nat) (s : State) : (substituteOpen r slot ccw at_ s).keep = s.keep := by (simp only [substituteOpen, apply_ite State.keep, ite_self, keep_mk, implies_true, onRing_keep, openPart_keep])
@[simp] theorem outOfWindow_keep (r j : Nat) (early : Bool) (err : Int) (s : State) : (outOfWindow r j early err s).keep = s.keep := by (simp only [outOfWindow, apply_ite State.keep, ite_self, keep_mk, implies_true, event_keep, onNode_keep])
@[simp] theorem takeSegment_keep (r : Nat) (ccw : Bool) (h : RingHead) (u : UpSeg) (s : State) : (takeSegment r ccw h u s).keep = s.keep := by (simp only [takeSegment, apply_ite State.keep, ite_self, keep_mk, implies_true, onNode_keep])
@[simp] theorem copyPart_keep (r : Nat) (ccw : Bool) (at_ : Nat) (h : RingHead) (segs : List UpSeg) (s : State) : (copyPart r ccw at_ h segs s).keep = s.keep := by (unfold copyPart; split <;> first | with_reducible rfl | with_reducible exact keep_mk .. | (simp only [apply_ite State.keep, ite_self, keep_mk, implies_true, sendOn_keep]))
@[simp] theorem masterCollect_keep (r : Nat) (ccw : Bool) (at_ : Nat) (h : RingHead) (segs : List UpSeg) (s : State) : (masterCollect r ccw at_ h segs s).keep = s.keep := by (unfold masterCollect; try dsimp only; repeat' (first | with_reducible rfl | with_reducible exact keep_mk .. | split | intro _ | (simp only [apply_ite State.keep, ite_self, keep_mk, implies_true, copyPart_keep, forAll_keep, takeSegment_keep, outOfWindow_keep]) | refine (forAll_keep _ _ _ ?_).trans ?_))
@[simp] theorem ownMiss_keep (r : Nat) (early : Bool) (s : State) : (ownMiss r early s).keep = s.keep := by (simp only [ownMiss, apply_ite State.keep, ite_self, keep_mk, implies_true, onRing_keep])
@[simp] theorem passCollect_keep (r : Nat) (ccw : Bool) (at_ : Nat) (h : RingHead) (segs : List UpSeg) (s : State) : (passCollect r ccw at_ h segs s).keep = s.keep := by (unfold passCollect; try dsimp only; repeat' (first | with_reducible rfl | with_reducible exact keep_mk .. | split | intro _ | (simp only [apply_ite State.keep, ite_self, keep_mk, implies_true, onRing_keep, forAll_keep, takeSegment_keep, wroteOwn_keep, passFrame_keep, ownMiss_keep]) | refine (forAll_keep _ _ _ ?_).trans ?_))
@[simp] theorem takeCopy_keep (r : Nat) (ccw : Bool) (at_ : Nat) (h : RingHead) (segs : List UpSeg) (s : State) : (takeCopy r ccw at_ h segs s).keep = s.keep := by (unfold takeCopy; split <;> first | with_reducible rfl | with_reducible exact keep_mk .. | (simp only [apply_ite State.keep, ite_self, keep_mk, implies_true, forAll_keep, takeSegment_keep]))
@[simp] theorem collectFrame_keep (r : Nat) (ccw : Bool) (at_ : Nat) (h : RingHead) (segs : List UpSeg) (s : State) : (collectFrame r ccw at_ h segs s).keep = s.keep := by (simp only [collectFrame, apply_ite State.keep, ite_self, keep_mk, implies_true, badFrame_keep, heard_keep, masterCollect_keep, takeCopy_keep, passCollect_keep])
@[simp] theorem nodeLines_keep (sto : BitVec 32) (s : State) : (nodeLines sto s).keep = s.keep := by (simp only [nodeLines, apply_ite State.keep, ite_self, keep_mk, implies_true, onSaf_keep])
@[simp] theorem useDown_keep (r : Nat) (d : DownSeg) (s : State) : (useDown r d s).keep = s.keep := by (simp only [useDown, apply_ite State.keep, ite_self, keep_mk, implies_true, nodeLines_keep, onRing_keep])
@[simp] theorem passDown_keep (r : Nat) (ccw : Bool) (at_ : Nat) (h : RingHead) (segs : List DownSeg) (s : State) : (passDown r ccw at_ h segs s).keep = s.keep := by (simp only [passDown, apply_ite State.keep, ite_self, keep_mk, implies_true, passFrame_keep])
@[simp] theorem distributeFrame_keep (r : Nat) (ccw : Bool) (at_ : Nat) (h : RingHead) (segs : List DownSeg) (s : State) : (distributeFrame r ccw at_ h segs s).keep = s.keep := by (unfold distributeFrame; try dsimp only; repeat' (first | with_reducible rfl | with_reducible exact keep_mk .. | split | intro _ | (simp only [apply_ite State.keep, ite_self, keep_mk, implies_true, badFrame_keep, heard_keep, ownMiss_keep, passDown_keep]) | refine (forAll_keep _ _ _ ?_).trans ?_))
@[simp] theorem learnBreak_keep (r eff : Nat) (s : State) : (learnBreak r eff s).keep = s.keep := by (simp only [learnBreak, apply_ite State.keep, ite_self, keep_mk, implies_true, event_keep, onRing_keep])
@[simp] theorem breakAt_keep (r eff : Nat) (ccw : Bool) (j : Nat) (s : State) : (breakAt r eff ccw j s).keep = s.keep := by (simp only [breakAt, apply_ite State.keep, ite_self, keep_mk, implies_true, learnBreak_keep, onRing_keep])
@[simp] theorem portDown_keep (r : Nat) (ccw : Bool) (s : State) : (portDown r ccw s).keep = s.keep := by (simp only [portDown, apply_ite State.keep, ite_self, keep_mk, implies_true, onPair_keep, onRPort_keep, heard_keep, breakAt_keep, onRing_keep])
@[simp] theorem portUp_keep (r : Nat) (ccw : Bool) (s : State) : (portUp r ccw s).keep = s.keep := by (simp only [portUp, apply_ite State.keep, ite_self, keep_mk, implies_true, onPair_keep, onRing_keep])
@[simp] theorem linkStableTimer_keep (r : Nat) (s : State) : (linkStableTimer r s).keep = s.keep := by (unfold linkStableTimer; split <;> first | with_reducible rfl | with_reducible exact keep_mk .. | (simp only [apply_ite State.keep, ite_self, keep_mk, implies_true, onRing_keep]))
@[simp] theorem followBeacon_keep (r at_ : Nat) (off : Int) (b : Beacon) (s : State) : (followBeacon r at_ off b s).keep = s.keep := by (simp only [followBeacon, apply_ite State.keep, ite_self, keep_mk, implies_true, advanceTb_keep, onRing_keep, onTime_keep, servoTo_keep])
@[simp] theorem notePath_keep (r : Nat) (ccw : Bool) (b : Beacon) (s : State) : (notePath r ccw b s).keep = s.keep := by (simp only [notePath, apply_ite State.keep, ite_self, keep_mk, implies_true, onRing_keep])
@[simp] theorem beaconTime_keep (r : Nat) (ccw : Bool) (at_ : Nat) (b : Beacon) (s : State) : (beaconTime r ccw at_ b s).keep = s.keep := by (simp only [beaconTime, apply_ite State.keep, ite_self, keep_mk, implies_true, notePath_keep, onRing_keep, followBeacon_keep])
@[simp] theorem applyBeacon_keep (r : Nat) (ccw fresh : Bool) (b : Beacon) (s : State) : (applyBeacon r ccw fresh b s).keep = s.keep := by (simp only [applyBeacon, apply_ite State.keep, ite_self, keep_mk, implies_true, onRing_keep, onTime_keep])
@[simp] theorem standDown_keep (s : State) : (standDown s).keep = s.keep := by (simp only [standDown, apply_ite State.keep, ite_self, keep_mk, implies_true, onPair_keep])
@[simp] theorem hearMaster_keep (r : Nat) (s : State) : (hearMaster r s).keep = s.keep := by (simp only [hearMaster, apply_ite State.keep, ite_self, keep_mk, implies_true, onPair_keep, onTime_keep])
@[simp] theorem forwardBeacon_keep (r : Nat) (ccw : Bool) (at_ egress : Nat) (h : RingHead) (b : Beacon) (s : State) : (forwardBeacon r ccw at_ egress h b s).keep = s.keep := by (simp only [forwardBeacon, apply_ite State.keep, ite_self, keep_mk, implies_true, sendOn_keep, onRing_keep])
@[simp] theorem ownCopy_keep (r : Nat) (ccw : Bool) (at_ : Nat) (b : Beacon) (s : State) : (ownCopy r ccw at_ b s).keep = s.keep := by (simp only [ownCopy, apply_ite State.keep, ite_self, keep_mk, implies_true, onRing_keep, coldStart_keep, onPair_keep, breakAt_keep])
@[simp] theorem ownBeaconReturn_keep (r : Nat) (ccw : Bool) (at_ : Nat) (h : RingHead) (b : Beacon) (s : State) : (ownBeaconReturn r ccw at_ h b s).keep = s.keep := by (simp only [ownBeaconReturn, apply_ite State.keep, ite_self, keep_mk, implies_true, badFrame_keep, ownCopy_keep, heard_keep])
@[simp] theorem beaconReceived_keep (r : Nat) (ccw : Bool) (at_ egress : Nat) (h : RingHead) (b : Beacon) (s : State) : (beaconReceived r ccw at_ egress h b s).keep = s.keep := by (simp only [beaconReceived, apply_ite State.keep, ite_self, keep_mk, implies_true, badFrame_keep, heard_keep, ownCopy_keep, coldStart_keep, coldCollision_keep, standDown_keep, hearMaster_keep, applyBeacon_keep, beaconTime_keep, forwardBeacon_keep])
@[simp] theorem guardianSilence_keep (r node : Nat) (s : State) : (guardianSilence r node s).keep = s.keep := by (simp only [guardianSilence, apply_ite State.keep, ite_self, keep_mk, implies_true, event_keep, onRing_keep])
@[simp] theorem beaconLoss_keep (r : Nat) (s : State) : (beaconLoss r s).keep = s.keep := by (simp only [beaconLoss, apply_ite State.keep, ite_self, keep_mk, implies_true, event_keep, onRing_keep])
@[simp] theorem joinNodes_keep (r : Nat) (s : State) : (joinNodes r s).keep = s.keep := by (simp only [joinNodes, apply_ite State.keep, ite_self, keep_mk, implies_true, forAll_keep, onRing_keep, onAxis_keep, event_keep])
@[simp] theorem healAt_keep (r : Nat) (s : State) : (healAt r s).keep = s.keep := by (unfold healAt; split <;> first | with_reducible rfl | with_reducible exact keep_mk .. | (simp only [apply_ite State.keep, ite_self, keep_mk, implies_true, onRing_keep, addB_keep, event_keep]))
@[simp] theorem restoreAt_keep (r : Nat) (s : State) : (restoreAt r s).keep = s.keep := by (unfold restoreAt; split <;> first | with_reducible rfl | with_reducible exact keep_mk .. | (simp only [apply_ite State.keep, ite_self, keep_mk, implies_true, onRing_keep, endB_keep, event_keep]))
@[simp] theorem missingCopy_keep (r : Nat) (s : State) : (missingCopy r s).keep = s.keep := by (simp only [missingCopy, apply_ite State.keep, ite_self, keep_mk, implies_true, learnBreak_keep])
@[simp] theorem ringEdge_keep (r : Nat) (s : State) : (ringEdge r s).keep = s.keep := by (simp only [ringEdge, apply_ite State.keep, ite_self, keep_mk, implies_true, missingCopy_keep, joinNodes_keep, restoreAt_keep, healAt_keep, onRing_keep])

/-! ### Axio -/

@[simp] theorem chanAccess_keep (wr : Bool) (c : Nat) (f : State → State) (s : State) (h : ∀ t, (f t).keep = t.keep) : (chanAccess wr c f s).keep = s.keep := by (simp only [chanAccess, apply_ite State.keep, ite_self, keep_mk, implies_true, h, absentAccess_keep, acked_keep])
@[simp] theorem declareFault_keep (c : Nat) (s : State) : (declareFault c s).keep = s.keep := by (simp only [declareFault, apply_ite State.keep, ite_self, keep_mk, implies_true, event_keep, onChan_keep])
@[simp] theorem wireFault_keep (c pair samples : Nat) (s : State) : (wireFault c pair samples s).keep = s.keep := by (simp only [wireFault, apply_ite State.keep, ite_self, keep_mk, implies_true, declareFault_keep, event_keep, onChan_keep])
@[simp] theorem axioConditionClear_keep (c : Nat) (ampCond : Bool) (held : Nat) (s : State) : (axioConditionClear c ampCond held s).keep = s.keep := by (simp only [axioConditionClear, apply_ite State.keep, ite_self, keep_mk, implies_true, onChan_keep])
@[simp] theorem feedbackFaultClear_keep (c : Nat) (s : State) : (feedbackFaultClear c s).keep = s.keep := by (simp only [feedbackFaultClear, apply_ite State.keep, ite_self, keep_mk, implies_true, chanAccess_keep, onChan_keep])
@[simp] theorem sincosAmpFault_keep (c : Nat) (s : State) : (sincosAmpFault c s).keep = s.keep := by (simp only [sincosAmpFault, apply_ite State.keep, ite_self, keep_mk, implies_true, declareFault_keep, event_keep, onChan_keep])
@[simp] theorem countBy_keep (c : Nat) (d : Int) (s : State) : (countBy c d s).keep = s.keep := by (simp only [countBy, apply_ite State.keep, ite_self, keep_mk, implies_true, onChan_keep, eventOnce_keep])
@[simp] theorem quadError_keep (c : Nat) (s : State) : (quadError c s).keep = s.keep := by (simp only [quadError, apply_ite State.keep, ite_self, keep_mk, implies_true, eventOnce_keep, onChan_keep])
@[simp] theorem quadSample_keep (c : Nat) (a b : Bool) (s : State) : (quadSample c a b s).keep = s.keep := by (simp only [quadSample, apply_ite State.keep, ite_self, keep_mk, implies_true, onChan_keep, countBy_keep, quadError_keep])
@[simp] theorem scSample_keep (c : Nat) (sine cosine : Int) (s : State) : (scSample c sine cosine s).keep = s.keep := by (simp only [scSample, apply_ite State.keep, ite_self, keep_mk, implies_true, onChan_keep, quadError_keep, countBy_keep])
@[simp] theorem quadEdge_keep (c : Nat) (p : ChanSample) (s : State) : (quadEdge c p s).keep = s.keep := by (unfold quadEdge; try dsimp only; repeat' (first | with_reducible rfl | with_reducible exact keep_mk .. | split | intro _ | (simp only [apply_ite State.keep, ite_self, keep_mk, implies_true, quadSample_keep, scSample_keep]) | refine (forAll_keep _ _ _ ?_).trans ?_))
@[simp] theorem indexEvent_keep (c held : Nat) (s : State) : (indexEvent c held s).keep = s.keep := by (simp only [indexEvent, apply_ite State.keep, ite_self, keep_mk, implies_true, eventOnce_keep, onChan_keep])
@[simp] theorem armCompare_keep (c : Nat) (v : Int) (cdir : Nat) (passed : Bool) (s : State) : (armCompare c v cdir passed s).keep = s.keep := by (simp only [armCompare, apply_ite State.keep, ite_self, keep_mk, implies_true, onChan_keep, event_keep])
@[simp] theorem compareArm_keep (c cdir : Nat) (passed : Bool) (s : State) : (compareArm c cdir passed s).keep = s.keep := by (simp only [compareArm, apply_ite State.keep, ite_self, keep_mk, implies_true, chanAccess_keep, armCompare_keep])
@[simp] theorem fireDue_keep (c : Nat) (s : State) : (fireDue c s).keep = s.keep := by (simp only [fireDue, apply_ite State.keep, ite_self, keep_mk, implies_true, onChan_keep])
@[simp] theorem compareDisarm_keep (c : Nat) (s : State) : (compareDisarm c s).keep = s.keep := by (simp only [compareDisarm, apply_ite State.keep, ite_self, keep_mk, implies_true, chanAccess_keep, onChan_keep, fireDue_keep])
@[simp] theorem compareFire_keep (c : Nat) (s : State) : (compareFire c s).keep = s.keep := by (simp only [compareFire, apply_ite State.keep, ite_self, keep_mk, implies_true, fireDue_keep])
@[simp] theorem homeFail_keep (c res : Nat) (s : State) : (homeFail c res s).keep = s.keep := by (simp only [homeFail, apply_ite State.keep, ite_self, keep_mk, implies_true, event_keep, onChan_keep])
@[simp] theorem beginHoming_keep (c : Nat) (s : State) : (beginHoming c s).keep = s.keep := by (simp only [beginHoming, apply_ite State.keep, ite_self, keep_mk, implies_true, onChan_keep, forAll_keep, onAxis_keep])
@[simp] theorem homingStart_keep (c : Nat) (s : State) : (homingStart c s).keep = s.keep := by (simp only [homingStart, apply_ite State.keep, ite_self, keep_mk, implies_true, chanAccess_keep, onChan_keep, beginHoming_keep])
@[simp] theorem homeTargetEdge_keep (c : Nat) (index : Bool) (s : State) : (homeTargetEdge c index s).keep = s.keep := by (simp only [homeTargetEdge, apply_ite State.keep, ite_self, keep_mk, implies_true, onChan_keep])
@[simp] theorem homeConfirm_keep (c input : Nat) (s : State) : (homeConfirm c input s).keep = s.keep := by (simp only [homeConfirm, apply_ite State.keep, ite_self, keep_mk, implies_true, onChan_keep])
@[simp] theorem homingNoIndex_keep (c : Nat) (s : State) : (homingNoIndex c s).keep = s.keep := by (simp only [homingNoIndex, apply_ite State.keep, ite_self, keep_mk, implies_true, homeFail_keep])
@[simp] theorem shiftSteps_keep (d : Int) (c : Nat) (s : State) : (shiftSteps d c s).keep = s.keep := by (simp only [shiftSteps, apply_ite State.keep, ite_self, keep_mk, implies_true, onChan_keep])
@[simp] theorem homingComplete_keep (c : Nat) (s : State) : (homingComplete c s).keep = s.keep := by (unfold homingComplete; try dsimp only; repeat' (first | with_reducible rfl | with_reducible exact keep_mk .. | split | intro _ | (simp only [apply_ite State.keep, ite_self, keep_mk, implies_true, forAll_keep, shiftSteps_keep, event_keep, onChan_keep, onAxis_keep]) | refine (forAll_keep _ _ _ ?_).trans ?_))
@[simp] theorem homingLimit_keep (c input : Nat) (s : State) : (homingLimit c input s).keep = s.keep := by (simp only [homingLimit, apply_ite State.keep, ite_self, keep_mk, implies_true, homeFail_keep, onChan_keep])
@[simp] theorem chatter_keep (c input at_ : Nat) (s : State) : (chatter c input at_ s).keep = s.keep := by (simp only [chatter, apply_ite State.keep, ite_self, keep_mk, implies_true, onChan_keep, event_keep, homeFail_keep])
@[simp] theorem limitInputChange_keep (c input : Nat) (level : Bool) (held at_ : Nat) (s : State) : (limitInputChange c input level held at_ s).keep = s.keep := by (simp only [limitInputChange, apply_ite State.keep, ite_self, keep_mk, implies_true, onChan_keep, chatter_keep, homeConfirm_keep, homingLimit_keep])
@[simp] theorem stepSchedule_keep (c : Nat) (p : Pos) (s : State) : (stepSchedule c p s).keep = s.keep := by (simp only [stepSchedule, apply_ite State.keep, ite_self, keep_mk, implies_true, onChan_keep, eventOnce_keep])
@[simp] theorem stepStop_keep (c : Nat) (s : State) : (stepStop c s).keep = s.keep := by (simp only [stepStop, apply_ite State.keep, ite_self, keep_mk, implies_true, onChan_keep])
@[simp] theorem stepPulse_keep (c : Nat) (s : State) : (stepPulse c s).keep = s.keep := by (simp only [stepPulse, apply_ite State.keep, ite_self, keep_mk, implies_true, onChan_keep])
@[simp] theorem stallDetect_keep (c : Nat) (s : State) : (stallDetect c s).keep = s.keep := by (simp only [stallDetect, apply_ite State.keep, ite_self, keep_mk, implies_true, demandStop_keep, event_keep, onChan_keep])
@[simp] theorem chanEdge_keep (c emf : Nat) (s : State) : (chanEdge c emf s).keep = s.keep := by (simp only [chanEdge, apply_ite State.keep, ite_self, keep_mk, implies_true, onChan_keep, event_keep, declareFault_keep])

/-! ### Node -/

@[simp] theorem nodeStop_keep (c : Nat) (s : State) : (nodeStop c s).keep = s.keep := by (simp only [nodeStop, apply_ite State.keep, ite_self, keep_mk, implies_true, stepStop_keep, homeFail_keep])
@[simp] theorem nodeSto_keep (sto : BitVec 32) (s : State) : (nodeSto sto s).keep = s.keep := by (simp only [nodeSto, apply_ite State.keep, ite_self, keep_mk, implies_true, forAll_keep, nodeStop_keep])
@[simp] theorem distribute_keep (r : Nat) (ccw : Bool) (at_ : Nat) (h : RingHead) (segs : List DownSeg) (s : State) : (distribute r ccw at_ h segs s).keep = s.keep := by (unfold distribute; try dsimp only; repeat' (first | with_reducible rfl | with_reducible exact keep_mk .. | split | intro _ | (simp only [apply_ite State.keep, ite_self, keep_mk, implies_true, distributeFrame_keep, useDown_keep, nodeSto_keep]) | refine (forAll_keep _ _ _ ?_).trans ?_))
@[simp] theorem nodeArm_keep (c : Nat) (e : DownEntry) (s : State) : (nodeArm c e s).keep = s.keep := by (simp only [nodeArm, apply_ite State.keep, ite_self, keep_mk, implies_true, armCompare_keep])
@[simp] theorem nodeHome_keep (c : Nat) (s : State) : (nodeHome c s).keep = s.keep := by (simp only [nodeHome, apply_ite State.keep, ite_self, keep_mk, implies_true, homingStart_keep, onChan_keep])
@[simp] theorem nodeSearch_keep (c : Nat) (s : State) : (nodeSearch c s).keep = s.keep := by (simp only [nodeSearch, apply_ite State.keep, ite_self, keep_mk, implies_true, onChan_keep, stepSchedule_keep])
@[simp] theorem nodeChan_keep (lost fresh : Bool) (seg : Option DownSeg) (c : Nat) (s : State) : (nodeChan lost fresh seg c s).keep = s.keep := by (unfold nodeChan; split <;> first | with_reducible rfl | with_reducible exact keep_mk .. | (simp only [apply_ite State.keep, ite_self, keep_mk, implies_true, nodeArm_keep, nodeHome_keep, nodeSearch_keep, stepSchedule_keep]))
@[simp] theorem nodeEdge_keep (s : State) : (nodeEdge s).keep = s.keep := by (simp only [nodeEdge, apply_ite State.keep, ite_self, keep_mk, implies_true, forAll_keep, nodeChan_keep, onRing_keep])
@[simp] theorem nodeDlLost_keep (s : State) : (nodeDlLost s).keep = s.keep := by (simp only [nodeDlLost, apply_ite State.keep, ite_self, keep_mk, implies_true, onSaf_keep, onRing_keep, forAll_keep, nodeStop_keep, classA_keep, event_keep])

end Sys2Proof.Machine
end

