-- ==== Sys2Proof/Laws/KeepMotion.lean ====
section
/-! SUPPORT. KeepMotion.lean: what the operations of motion, kinematics, solver, Trellis and zones leave as it is. -/

set_option linter.all false

namespace Sys2Proof.Machine

/-! ### Zones -/

@[simp] theorem refuseZone_keep (g code : Nat) (s : State) : (refuseZone g code s).keep = s.keep := by (simp only [refuseZone, apply_ite State.keep, ite_self, keep_mk, implies_true, event_keep, onGrp_keep, onTrlG_keep])
@[simp] theorem withdrawZone_keep (g : Nat) (s : State) : (withdrawZone g s).keep = s.keep := by (unfold withdrawZone; split <;> first | with_reducible rfl | with_reducible exact keep_mk .. | (simp only [apply_ite State.keep, ite_self, keep_mk, implies_true, onZone_keep, onTrlG_keep]))
@[simp] theorem raiseZone_keep (g z : Nat) (s : State) : (raiseZone g z s).keep = s.keep := by (simp only [raiseZone, apply_ite State.keep, ite_self, keep_mk, implies_true, onZone_keep, onTrlG_keep])
@[simp] theorem requestZone_keep (g z : Nat) (s : State) : (requestZone g z s).keep = s.keep := by (unfold requestZone; repeat' (first | with_reducible rfl | with_reducible exact keep_mk .. | (simp only [apply_ite State.keep, ite_self, keep_mk, implies_true, onGrp_keep, raiseZone_keep, refuseZone_keep]) | (split; skip) | intro _ | refine (forAll_keep _ _ _ ?_).trans ?_ | refine (foldl_keep _ ?_ _ _).trans ?_ | refine (needsCell_keep _ _ _ _ ?_).trans ?_ | refine (withGroup_keep _ _ _ _ ?_).trans ?_))
@[simp] theorem freeZone_keep (g z : Nat) (s : State) : (freeZone g z s).keep = s.keep := by (simp only [freeZone, apply_ite State.keep, ite_self, keep_mk, implies_true, onZone_keep, onTrlG_keep])
@[simp] theorem releaseAtEnd_keep (g z : Nat) (s : State) : (releaseAtEnd g z s).keep = s.keep := by (simp only [releaseAtEnd, apply_ite State.keep, ite_self, keep_mk, implies_true, event_keep, onTrlG_keep, freeZone_keep])
@[simp] theorem deferredZones_keep (g : Nat) (s : State) : (deferredZones g s).keep = s.keep := by (simp only [deferredZones, apply_ite State.keep, ite_self, keep_mk, implies_true, forAll_keep, freeZone_keep])
@[simp] theorem frozenBoundary_keep (g : Nat) (s : State) : (frozenBoundary g s).keep = s.keep := by (simp only [frozenBoundary, apply_ite State.keep, ite_self, keep_mk, implies_true, forAll_keep, freeZone_keep, onGrp_keep, raiseZone_keep])
@[simp] theorem decideZone_keep (z : Nat) (s : State) : (decideZone z s).keep = s.keep := by (unfold decideZone; try dsimp only; repeat' (first | with_reducible rfl | with_reducible exact keep_mk .. | split | intro _ | (simp only [apply_ite State.keep, ite_self, keep_mk, implies_true, onZone_keep, onTrlG_keep]) | refine (forAll_keep _ _ _ ?_).trans ?_))
@[simp] theorem decideZones_keep (s : State) : (decideZones s).keep = s.keep := by (simp only [decideZones, apply_ite State.keep, ite_self, keep_mk, implies_true, forAll_keep, withdrawZone_keep, decideZone_keep, onSlack_keep])
@[simp] theorem zoneFreeze_keep (z : Nat) (v : Bool) (s : State) : (zoneFreeze z v s).keep = s.keep := by (simp only [zoneFreeze, apply_ite State.keep, ite_self, keep_mk, implies_true, absentAccess_keep, acked_keep, onZone_keep])
@[simp] theorem zonesEdge_keep (s : State) : (zonesEdge s).keep = s.keep := by (simp only [zonesEdge, apply_ite State.keep, ite_self, keep_mk, implies_true])

/-! ### Motion -/

@[simp] theorem enterSegs_keep (g : Nat) (segs : List Segment) (s : State) : (enterSegs g segs s).keep = s.keep := by (unfold enterSegs; split <;> first | with_reducible rfl | with_reducible exact keep_mk .. | (simp only [apply_ite State.keep, ite_self, keep_mk, implies_true, onGrp_keep, event_keep]))
@[simp] theorem setSigma_keep (g : Nat) (s : State) : (setSigma g s).keep = s.keep := by (simp only [setSigma, apply_ite State.keep, ite_self, keep_mk, implies_true, onGrp_keep])
@[simp] theorem boundary_keep (g : Nat) (seg : Segment) (s : State) : (boundary g seg s).keep = s.keep := by (simp only [boundary, apply_ite State.keep, ite_self, keep_mk, implies_true, releaseAtEnd_keep])
@[simp] theorem finishGroup_keep (g : Nat) (s : State) : (finishGroup g s).keep = s.keep := by (unfold finishGroup; try dsimp only; repeat' (first | with_reducible rfl | with_reducible exact keep_mk .. | split | intro _ | (simp only [apply_ite State.keep, ite_self, keep_mk, implies_true, deferredZones_keep, boundary_keep, onGrp_keep, frozenBoundary_keep]) | refine (forAll_keep _ _ _ ?_).trans ?_))
@[simp] theorem zoneStep_keep (g : Nat) (s : State) : (zoneStep g s).keep = s.keep := by (unfold zoneStep; repeat' (first | with_reducible rfl | with_reducible exact keep_mk .. | (simp only [apply_ite State.keep, ite_self, keep_mk, implies_true, onGrp_keep, requestZone_keep]) | (split; skip) | intro _ | refine (forAll_keep _ _ _ ?_).trans ?_ | refine (foldl_keep _ ?_ _ _).trans ?_ | refine (needsCell_keep _ _ _ _ ?_).trans ?_ | refine (withGroup_keep _ _ _ _ ?_).trans ?_))
@[simp] theorem startHead_keep (g : Nat) (s : State) : (startHead g s).keep = s.keep := by (unfold startHead; split <;> first | with_reducible rfl | with_reducible exact keep_mk .. | (simp only [apply_ite State.keep, ite_self, keep_mk, implies_true, onGrp_keep]))
@[simp] theorem keepReleased_keep (g : Nat) (s : State) : (keepReleased g s).keep = s.keep := by (simp only [keepReleased, apply_ite State.keep, ite_self, keep_mk, implies_true, onGrp_keep])
@[simp] theorem syncStretch_keep (k : Nat) (s : State) : (syncStretch k s).keep = s.keep := by (simp only [syncStretch, apply_ite State.keep, ite_self, keep_mk, implies_true, forAll_keep, onGrp_keep])
@[simp] theorem startStep_keep (g : Nat) (s : State) : (startStep g s).keep = s.keep := by (unfold startStep; split <;> first | with_reducible rfl | with_reducible exact keep_mk .. | (simp only [apply_ite State.keep, ite_self, keep_mk, implies_true, syncStretch_keep, forAll_keep, startHead_keep, onGrp_keep]))
@[simp] theorem blendStep_keep (g : Nat) (s : State) : (blendStep g s).keep = s.keep := by (unfold blendStep; try dsimp only; repeat' (first | with_reducible rfl | with_reducible exact keep_mk .. | split | intro _ | (simp only [apply_ite State.keep, ite_self, keep_mk, implies_true, onGrp_keep]) | refine (forAll_keep _ _ _ ?_).trans ?_))
@[simp] theorem moveRef_keep (a : Nat) (p : Pos) (v w : BitVec 32) (s : State) : (moveRef a p v w s).keep = s.keep := by (simp only [moveRef, apply_ite State.keep, ite_self, keep_mk, implies_true, onAxis_keep])
@[simp] theorem lastRef_keep (a : Nat) (s : State) : (lastRef a s).keep = s.keep := by (simp only [lastRef, apply_ite State.keep, ite_self, keep_mk, implies_true, onAxis_keep])
@[simp] theorem holdRef_keep (a : Nat) (s : State) : (holdRef a s).keep = s.keep := by (simp only [holdRef, apply_ite State.keep, ite_self, keep_mk, implies_true, moveRef_keep])
@[simp] theorem homeRef_keep (a c : Nat) (s : State) : (homeRef a c s).keep = s.keep := by (simp only [homeRef, apply_ite State.keep, ite_self, keep_mk, implies_true, moveRef_keep, onAxis_keep])
@[simp] theorem restRef_keep (a : Nat) (s : State) : (restRef a s).keep = s.keep := by (unfold restRef; split <;> first | with_reducible rfl | with_reducible exact keep_mk .. | (simp only [apply_ite State.keep, ite_self, keep_mk, implies_true, homeRef_keep, holdRef_keep]))
@[simp] theorem speedCap_keep (g : Nat) (s : State) : (speedCap g s).keep = s.keep := by (unfold speedCap; try dsimp only; repeat' (first | with_reducible rfl | with_reducible exact keep_mk .. | split | intro _ | (simp only [apply_ite State.keep, ite_self, keep_mk, implies_true, forAll_keep, onAxis_keep, event_keep, onGrp_keep]) | refine (forAll_keep _ _ _ ?_).trans ?_))
@[simp] theorem residualCheck_keep (g : Nat) (prev : List Pos) (s : State) : (residualCheck g prev s).keep = s.keep := by (unfold residualCheck; split <;> first | with_reducible rfl | with_reducible exact keep_mk .. | (simp only [apply_ite State.keep, ite_self, keep_mk, implies_true, event_keep, onGrp_keep]))
@[simp] theorem pathStep_keep (g : Nat) (s : State) : (pathStep g s).keep = s.keep := by (unfold pathStep; try dsimp only; repeat' (first | with_reducible rfl | with_reducible exact keep_mk .. | split | intro _ | (simp only [apply_ite State.keep, ite_self, keep_mk, implies_true, onGrp_keep, blendStep_keep, forAll_keep, restRef_keep, moveRef_keep, residualCheck_keep, speedCap_keep]) | refine (forAll_keep _ _ _ ?_).trans ?_))
@[simp] theorem rampStep_keep (g : Nat) (s : State) : (rampStep g s).keep = s.keep := by (simp only [rampStep, apply_ite State.keep, ite_self, keep_mk, implies_true, forAll_keep, moveRef_keep])
@[simp] theorem refStep_keep (g : Nat) (s : State) : (refStep g s).keep = s.keep := by (unfold refStep; split <;> first | with_reducible rfl | with_reducible exact keep_mk .. | (simp only [apply_ite State.keep, ite_self, keep_mk, implies_true, pathStep_keep, rampStep_keep, forAll_keep, restRef_keep]))
@[simp] theorem generate_keep (s : State) : (generate s).keep = s.keep := by (simp only [generate, apply_ite State.keep, ite_self, keep_mk, implies_true, forAll_keep, finishGroup_keep, zoneStep_keep, startStep_keep, setSigma_keep, onGrp_keep, refStep_keep])
@[simp] theorem grantedStart_keep (g : Nat) (s : State) : (grantedStart g s).keep = s.keep := by (simp only [grantedStart, apply_ite State.keep, ite_self, keep_mk, implies_true, startStep_keep, zoneStep_keep, refStep_keep])
@[simp] theorem zoneArbiterDecision_keep (s : State) : (zoneArbiterDecision s).keep = s.keep := by (simp only [zoneArbiterDecision, apply_ite State.keep, ite_self, keep_mk, implies_true, forAll_keep, grantedStart_keep, decideZones_keep])
@[simp] theorem toHalting_keep (g : Nat) (s : State) : (toHalting g s).keep = s.keep := by (simp only [toHalting, apply_ite State.keep, ite_self, keep_mk, implies_true, onGrp_keep])
@[simp] theorem flushGroup_keep (g : Nat) (s : State) : (flushGroup g s).keep = s.keep := by (unfold flushGroup; try dsimp only; repeat' (first | with_reducible rfl | with_reducible exact keep_mk .. | split | intro _ | (simp only [apply_ite State.keep, ite_self, keep_mk, implies_true, onGrp_keep, toHalting_keep, withdrawZone_keep]) | refine (forAll_keep _ _ _ ?_).trans ?_))
@[simp] theorem haltGroup_keep (g : Nat) (s : State) : (haltGroup g s).keep = s.keep := by (unfold haltGroup; split <;> first | with_reducible rfl | with_reducible exact keep_mk .. | (simp only [apply_ite State.keep, ite_self, keep_mk, implies_true, toHalting_keep, onGrp_keep, withdrawZone_keep]))
@[simp] theorem resumeGroup_keep (g : Nat) (s : State) : (resumeGroup g s).keep = s.keep := by (simp only [resumeGroup, apply_ite State.keep, ite_self, keep_mk, implies_true, onGrp_keep])
@[simp] theorem pairEnable_keep (g : Nat) (s : State) : (pairEnable g s).keep = s.keep := by (simp only [pairEnable, apply_ite State.keep, ite_self, keep_mk, implies_true, forAll_keep, onProb_keep, onGrp_keep])
@[simp] theorem startEnable_keep (g : Nat) (s : State) : (startEnable g s).keep = s.keep := by (simp only [startEnable, apply_ite State.keep, ite_self, keep_mk, implies_true, pairEnable_keep, onGrp_keep])
@[simp] theorem enableComplete_keep (g : Nat) (s : State) : (enableComplete g s).keep = s.keep := by (simp only [enableComplete, apply_ite State.keep, ite_self, keep_mk, implies_true, onGrp_keep])
@[simp] theorem homingStop_keep (g : Nat) (s : State) : (homingStop g s).keep = s.keep := by (unfold homingStop; repeat' (first | with_reducible rfl | with_reducible exact keep_mk .. | (simp only [apply_ite State.keep, ite_self, keep_mk, implies_true, homeFail_keep]) | (split; skip) | intro _ | refine (forAll_keep _ _ _ ?_).trans ?_ | refine (foldl_keep _ ?_ _ _).trans ?_ | refine (needsCell_keep _ _ _ _ ?_).trans ?_ | refine (withGroup_keep _ _ _ _ ?_).trans ?_))
@[simp] theorem disableGroup_keep (g : Nat) (s : State) : (disableGroup g s).keep = s.keep := by (unfold disableGroup; split <;> first | with_reducible rfl | with_reducible exact keep_mk .. | (simp only [apply_ite State.keep, ite_self, keep_mk, implies_true, onGrp_keep, withdrawZone_keep, homingStop_keep]))
@[simp] theorem syncTimeout_keep (g : Nat) (s : State) : (syncTimeout g s).keep = s.keep := by (simp only [syncTimeout, apply_ite State.keep, ite_self, keep_mk, implies_true, event_keep, onGrp_keep])
@[simp] theorem enterCloche_keep (g : Nat) (s : State) : (enterCloche g s).keep = s.keep := by (simp only [enterCloche, apply_ite State.keep, ite_self, keep_mk, implies_true, onGrp_keep, withdrawZone_keep, forAll_keep, onAxis_keep])

/-! ### Trellis -/

@[simp] theorem sensorUse_keep (k : Nat) (s : State) : (sensorUse k s).keep = s.keep := by (unfold sensorUse; try dsimp only; repeat' (first | with_reducible rfl | with_reducible exact keep_mk .. | split | intro _ | (simp only [apply_ite State.keep, ite_self, keep_mk, implies_true, event_keep]) | refine (forAll_keep _ _ _ ?_).trans ?_))
@[simp] theorem objectStale_keep (j : Nat) (s : State) : (objectStale j s).keep = s.keep := by (simp only [objectStale, apply_ite State.keep, ite_self, keep_mk, implies_true, event_keep, onObj_keep])
@[simp] theorem objectPlace_keep (j : Nat) (s : State) : (objectPlace j s).keep = s.keep := by (unfold objectPlace; try dsimp only; repeat' (first | with_reducible rfl | with_reducible exact keep_mk .. | split | intro _ | (simp only [apply_ite State.keep, ite_self, keep_mk, implies_true, onObj_keep, forAll_keep]) | refine (forAll_keep _ _ _ ?_).trans ?_))
@[simp] theorem objectEdge_keep (j : Nat) (s : State) : (objectEdge j s).keep = s.keep := by (simp only [objectEdge, apply_ite State.keep, ite_self, keep_mk, implies_true, objectStale_keep, objectPlace_keep])
@[simp] theorem hedgeCompute_keep (s : State) : (hedgeCompute s).keep = s.keep := by (simp only [hedgeCompute, apply_ite State.keep, ite_self, keep_mk, implies_true, forAll_keep, onObj_keep])
@[simp] theorem formPairs_keep (s : State) : (formPairs s).keep = s.keep := by (simp only [formPairs, apply_ite State.keep, ite_self, keep_mk, implies_true, event_keep])
@[simp] theorem lowerScale_keep (g n kind idx : Nat) (s : State) : (lowerScale g n kind idx s).keep = s.keep := by (simp only [lowerScale, apply_ite State.keep, ite_self, keep_mk, implies_true, onTrlG_keep])
@[simp] theorem noteDist_keep (g : Nat) (d : F32) (s : State) : (noteDist g d s).keep = s.keep := by (simp only [noteDist, apply_ite State.keep, ite_self, keep_mk, implies_true, onTrlG_keep])
@[simp] theorem pairResult_keep (p : PairRec) (differ : Bool) (s : State) : (pairResult p differ s).keep = s.keep := by (unfold pairResult; try dsimp only; repeat' (first | with_reducible rfl | with_reducible exact keep_mk .. | split | intro _ | (simp only [apply_ite State.keep, ite_self, keep_mk, implies_true, classA_keep, event_keep, forAll_keep, lowerScale_keep, noteDist_keep, onObj_keep, eventOnce_keep]) | refine (forAll_keep _ _ _ ?_).trans ?_))
@[simp] theorem pairBatchDone_keep (id : Nat) (differ : List Nat) (s : State) : (pairBatchDone id differ s).keep = s.keep := by (simp only [pairBatchDone, apply_ite State.keep, ite_self, keep_mk, implies_true, forAll_keep, pairResult_keep])
@[simp] theorem personRelease_keep (g : Nat) (s : State) : (personRelease g s).keep = s.keep := by (unfold personRelease; try dsimp only; repeat' (first | with_reducible rfl | with_reducible exact keep_mk .. | split | intro _ | (simp only [apply_ite State.keep, ite_self, keep_mk, implies_true, forAll_keep, onObj_keep, lowerScale_keep, eventOnce_keep]) | refine (forAll_keep _ _ _ ?_).trans ?_))
@[simp] theorem vlinkCheck_keep (g : Nat) (s : State) : (vlinkCheck g s).keep = s.keep := by (simp only [vlinkCheck, apply_ite State.keep, ite_self, keep_mk, implies_true, onTrlG_keep, classA_keep, event_keep])
@[simp] theorem scaleRelease_keep (g : Nat) (s : State) : (scaleRelease g s).keep = s.keep := by (simp only [scaleRelease, apply_ite State.keep, ite_self, keep_mk, implies_true, onTrlG_keep, vlinkCheck_keep, personRelease_keep])
@[simp] theorem trellisRelease_keep (s : State) : (trellisRelease s).keep = s.keep := by (simp only [trellisRelease, apply_ite State.keep, ite_self, keep_mk, implies_true, forAll_keep, scaleRelease_keep, onTrlG_keep, missPhase_keep])
@[simp] theorem trellisEdge_keep (s : State) : (trellisEdge s).keep = s.keep := by (simp only [trellisEdge, apply_ite State.keep, ite_self, keep_mk, implies_true, zonesEdge_keep, forAll_keep, objectEdge_keep, sensorUse_keep])

/-! ### SliceOps -/

@[simp] theorem onSlice_keep (b sl : Nat) (f : SliceSt → SliceSt) (s : State) : (onSlice b sl f s).keep = s.keep := by (simp only [onSlice, apply_ite State.keep, ite_self, keep_mk, implies_true])
@[simp] theorem onSpare_keep (b : Nat) (f : SpareSt → SpareSt) (s : State) : (onSpare b f s).keep = s.keep := by (simp only [onSpare, apply_ite State.keep, ite_self, keep_mk, implies_true])
@[simp] theorem endShadow_keep (b : Nat) (s : State) : (endShadow b s).keep = s.keep := by (simp only [endShadow, apply_ite State.keep, ite_self, keep_mk, implies_true, onSlice_keep, onSpare_keep])
@[simp] theorem failSpare_keep (b : Nat) (s : State) : (failSpare b s).keep = s.keep := by (simp only [failSpare, apply_ite State.keep, ite_self, keep_mk, implies_true, endShadow_keep, onSpare_keep, addB_keep, event_keep, quarantine_keep])
@[simp] theorem extrapolateSlice_keep (x : SliceSt) (s : State) : (extrapolateSlice x s).keep = s.keep := by (simp only [extrapolateSlice, apply_ite State.keep, ite_self, keep_mk, implies_true, forAll_keep, onAxis_keep, mark_keep])
@[simp] theorem containSlice_keep (b sl : Nat) (s : State) : (containSlice b sl s).keep = s.keep := by (unfold containSlice; try dsimp only; repeat' (first | with_reducible rfl | with_reducible exact keep_mk .. | split | intro _ | (simp only [apply_ite State.keep, ite_self, keep_mk, implies_true, escalate_keep, quarantine_keep, onSpare_keep, addB_keep, endShadow_keep]) | refine (forAll_keep _ _ _ ?_).trans ?_))
@[simp] theorem motSliceFault_keep (b sl fcause : Nat) (s : State) : (motSliceFault b sl fcause s).keep = s.keep := by (unfold motSliceFault; split <;> first | with_reducible rfl | with_reducible exact keep_mk .. | (simp only [apply_ite State.keep, ite_self, keep_mk, implies_true, failSpare_keep, event_keep, onSlice_keep, mark_keep, noteFault_keep, containSlice_keep, extrapolateSlice_keep]))
@[simp] theorem programFault_keep (b sl fcause : Nat) (s : State) : (programFault b sl fcause s).keep = s.keep := by (simp only [programFault, apply_ite State.keep, ite_self, keep_mk, implies_true, onSlice_keep, motSliceFault_keep])
@[simp] theorem correctedError_keep (b sl : Nat) (s : State) : (correctedError b sl s).keep = s.keep := by (simp only [correctedError, apply_ite State.keep, ite_self, keep_mk, implies_true, onSlice_keep])
@[simp] theorem illegalAt_keep (b sl cause : Nat) (s : State) : (illegalAt b sl cause s).keep = s.keep := by (unfold illegalAt; split <;> first | with_reducible rfl | with_reducible exact keep_mk .. | (simp only [apply_ite State.keep, ite_self, keep_mk, implies_true, programFault_keep, event_keep, onSlice_keep]))
@[simp] theorem afterInstr_keep (b sl : Nat) (pc : BitVec 11) (te ev ovf : Bool) (s : State) : (afterInstr b sl pc te ev ovf s).keep = s.keep := by (unfold afterInstr; split <;> first | with_reducible rfl | with_reducible exact keep_mk .. | (simp only [apply_ite State.keep, ite_self, keep_mk, implies_true, onSlice_keep, programFault_keep, eventOnce_keep]))
@[simp] theorem execSlice_keep (b sl : Nat) (ctl : Bool) (f : SliceSt → Eff) (fl : SliceSt → Flow) (s : State) : (execSlice b sl ctl f fl s).keep = s.keep := by (unfold execSlice; split <;> first | with_reducible rfl | with_reducible exact keep_mk .. | (simp only [apply_ite State.keep, ite_self, keep_mk, implies_true, illegalAt_keep, afterInstr_keep, onSlice_keep]))
@[simp] theorem plainInstr_keep (b sl : Nat) (f : SliceSt → Eff) (s : State) : (plainInstr b sl f s).keep = s.keep := by (simp only [plainInstr, apply_ite State.keep, ite_self, keep_mk, implies_true, execSlice_keep])
@[simp] theorem resumeSlices_keep (ff : Bool) (s : State) : (resumeSlices ff s).keep = s.keep := by (simp only [resumeSlices, apply_ite State.keep, ite_self, keep_mk, implies_true])
@[simp] theorem handSlot_keep (x : SliceSt) (j a : Nat) (s : State) : (handSlot x j a s).keep = s.keep := by (simp only [handSlot, apply_ite State.keep, ite_self, keep_mk, implies_true, onAxis_keep, demandStop_keep, event_keep])
@[simp] theorem skipCompare_keep (b : Nat) (s : State) : (skipCompare b s).keep = s.keep := by (simp only [skipCompare, apply_ite State.keep, ite_self, keep_mk, implies_true, event_keep, onSpare_keep, endShadow_keep, failSpare_keep])
@[simp] theorem divergence_keep (b : Nat) (atEnd : Bool) (s : State) : (divergence b atEnd s).keep = s.keep := by (unfold divergence; try dsimp only; repeat' (first | with_reducible rfl | with_reducible exact keep_mk .. | split | intro _ | (simp only [apply_ite State.keep, ite_self, keep_mk, implies_true, event_keep, onSpare_keep, endShadow_keep, onSlice_keep, mark_keep, forAll_keep, onAxis_keep, motSliceFault_keep]) | refine (forAll_keep _ _ _ ?_).trans ?_))
@[simp] theorem compareOut_keep (b sl : Nat) (s : State) : (compareOut b sl s).keep = s.keep := by (unfold compareOut; split <;> first | with_reducible rfl | with_reducible exact keep_mk .. | (simp only [apply_ite State.keep, ite_self, keep_mk, implies_true, divergence_keep]))
@[simp] theorem compareEnd_keep (b sl : Nat) (s : State) : (compareEnd b sl s).keep = s.keep := by (unfold compareEnd; split <;> first | with_reducible rfl | with_reducible exact keep_mk .. | (simp only [apply_ite State.keep, ite_self, keep_mk, implies_true, onSpare_keep, divergence_keep]))
@[simp] theorem skipLate_keep (s : State) : (skipLate s).keep = s.keep := by (unfold skipLate; repeat' (first | with_reducible rfl | with_reducible exact keep_mk .. | (simp only [apply_ite State.keep, ite_self, keep_mk, implies_true, skipCompare_keep]) | (split; skip) | intro _ | refine (forAll_keep _ _ _ ?_).trans ?_ | refine (foldl_keep _ ?_ _ _).trans ?_ | refine (needsCell_keep _ _ _ _ ?_).trans ?_ | refine (withGroup_keep _ _ _ _ ?_).trans ?_))
@[simp] theorem spareSelftestDone_keep (b : Nat) (ok : Bool) (s : State) : (spareSelftestDone b ok s).keep = s.keep := by (unfold spareSelftestDone; try dsimp only; repeat' (first | with_reducible rfl | with_reducible exact keep_mk .. | split | intro _ | (simp only [apply_ite State.keep, ite_self, keep_mk, implies_true, endShadow_keep, onSpare_keep, markNext_keep, motSliceFault_keep, failSpare_keep]) | refine (forAll_keep _ _ _ ?_).trans ?_))
@[simp] theorem spareFullSelftestDone_keep (b : Nat) (ok : Bool) (s : State) : (spareFullSelftestDone b ok s).keep = s.keep := by (simp only [spareFullSelftestDone, apply_ite State.keep, ite_self, keep_mk, implies_true, endShadow_keep, failSpare_keep])
@[simp] theorem spareTakeover_keep (b : Nat) (s : State) : (spareTakeover b s).keep = s.keep := by (unfold spareTakeover; try dsimp only; repeat' (first | with_reducible rfl | with_reducible exact keep_mk .. | split | intro _ | (simp only [apply_ite State.keep, ite_self, keep_mk, implies_true, onSpare_keep, onSlice_keep, onRegion_keep, event_keep]) | refine (forAll_keep _ _ _ ?_).trans ?_))
@[simp] theorem shadowUpdate_keep (b : Nat) (s : State) : (shadowUpdate b s).keep = s.keep := by (simp only [shadowUpdate, apply_ite State.keep, ite_self, keep_mk, implies_true, onSpare_keep])
@[simp] theorem blockEdge_keep (b : Nat) (s : State) : (blockEdge b s).keep = s.keep := by (simp only [blockEdge, apply_ite State.keep, ite_self, keep_mk, implies_true, skipCompare_keep, spareTakeover_keep, shadowUpdate_keep, onSpare_keep])
@[simp] theorem abortEdge_keep (x : SliceSt) (s : State) : (abortEdge x s).keep = s.keep := by (simp only [abortEdge, apply_ite State.keep, ite_self, keep_mk, implies_true, onSlice_keep, forAll_keep, onAxis_keep])
@[simp] theorem slicesEdge_keep (s : State) : (slicesEdge s).keep = s.keep := by (simp only [slicesEdge, apply_ite State.keep, ite_self, keep_mk, implies_true, forAll_keep, abortEdge_keep, blockEdge_keep])
@[simp] theorem leaveClocheSlices_keep (g : Nat) (s : State) : (leaveClocheSlices g s).keep = s.keep := by (simp only [leaveClocheSlices, apply_ite State.keep, ite_self, keep_mk, implies_true, forAll_keep, onSpare_keep, onSlice_keep, onAxis_keep])
@[simp] theorem tickAbort_keep (b sl : Nat) (s : State) : (tickAbort b sl s).keep = s.keep := by (unfold tickAbort; split <;> first | with_reducible rfl | with_reducible exact keep_mk .. | (simp only [apply_ite State.keep, ite_self, keep_mk, implies_true, skipCompare_keep, endShadow_keep, onSlice_keep, onTime_keep, markNext_keep, event_keep]))
@[simp] theorem tickAbortOverrun_keep (b sl : Nat) (s : State) : (tickAbortOverrun b sl s).keep = s.keep := by (unfold tickAbortOverrun; split <;> first | with_reducible rfl | with_reducible exact keep_mk .. | (simp only [apply_ite State.keep, ite_self, keep_mk, implies_true, motSliceFault_keep]))

/-! ### Slice -/

@[simp] theorem waitInstr_keep (b sl : Nat) (ff : Bool) (s : State) : (waitInstr b sl ff s).keep = s.keep := by (unfold waitInstr; split <;> first | with_reducible rfl | with_reducible exact keep_mk .. | (simp only [apply_ite State.keep, ite_self, keep_mk, implies_true, execSlice_keep, onSlice_keep]))
@[simp] theorem outInstr_keep (b sl : Nat) (s : State) : (outInstr b sl s).keep = s.keep := by (unfold outInstr; try dsimp only; repeat' (first | with_reducible rfl | with_reducible exact keep_mk .. | split | intro _ | (simp only [apply_ite State.keep, ite_self, keep_mk, implies_true, plainInstr_keep, onSlice_keep, handSlot_keep, compareOut_keep]) | refine (forAll_keep _ _ _ ?_).trans ?_))
@[simp] theorem endInstr_keep (b sl : Nat) (s : State) : (endInstr b sl s).keep = s.keep := by (unfold endInstr; split <;> first | with_reducible rfl | with_reducible exact keep_mk .. | (simp only [apply_ite State.keep, ite_self, keep_mk, implies_true, execSlice_keep, programFault_keep, onSlice_keep, compareEnd_keep]))
@[simp] theorem rteInstr_keep (b sl : Nat) (s : State) : (rteInstr b sl s).keep = s.keep := by (unfold rteInstr; split <;> first | with_reducible rfl | with_reducible exact keep_mk .. | (simp only [apply_ite State.keep, ite_self, keep_mk, implies_true, illegalAt_keep, programFault_keep, onSlice_keep]))
@[simp] theorem loopInstr_keep (b sl k : Nat) (endA : BitVec 11) (count : SliceSt → BitVec 14) (s : State) : (loopInstr b sl k endA count s).keep = s.keep := by (unfold loopInstr; split <;> first | with_reducible rfl | with_reducible exact keep_mk .. | (simp only [apply_ite State.keep, ite_self, keep_mk, implies_true, execSlice_keep, endA_keep, onSlice_keep]))
@[simp] theorem illegalWord_keep (b sl : Nat) (w : Word) (s : State) : (illegalWord b sl w s).keep = s.keep := by (unfold illegalWord; repeat' (first | with_reducible rfl | with_reducible exact keep_mk .. | (simp only [apply_ite State.keep, ite_self, keep_mk, implies_true, illegalAt_keep]) | (split; skip) | intro _ | refine (forAll_keep _ _ _ ?_).trans ?_ | refine (foldl_keep _ ?_ _ _).trans ?_ | refine (needsCell_keep _ _ _ _ ?_).trans ?_ | refine (withGroup_keep _ _ _ _ ?_).trans ?_))

/-! ### Kinematics -/

@[simp] theorem nullRing_keep (r : Nat) (s : State) : (nullRing r s).keep = s.keep := by (simp only [nullRing, apply_ite State.keep, ite_self, keep_mk, implies_true, onRing_keep, forAll_keep, onNode_keep, event_keep])
@[simp] theorem nullChans_keep (s : State) : (nullChans s).keep = s.keep := by (simp only [nullChans, apply_ite State.keep, ite_self, keep_mk, implies_true])
@[simp] theorem markLost_keep (src : FbSource) (s : State) : (markLost src s).keep = s.keep := by (unfold markLost; split <;> first | with_reducible rfl | with_reducible exact keep_mk .. | (simp only [apply_ite State.keep, ite_self, keep_mk, implies_true, onNode_keep, onChan_keep]))
@[simp] theorem feedbackNullLimit_keep (src : FbSource) (s : State) : (feedbackNullLimit src s).keep = s.keep := by (simp only [feedbackNullLimit, apply_ite State.keep, ite_self, keep_mk, implies_true, demandStop_keep, latchA_keep, event_keep, markLost_keep])
@[simp] theorem takeFb_keep (a : Nat) (p : Pos) (s : State) : (takeFb a p s).keep = s.keep := by (simp only [takeFb, apply_ite State.keep, ite_self, keep_mk, implies_true, onAxis_keep])
@[simp] theorem holdFb_keep (a run : Nat) (s : State) : (holdFb a run s).keep = s.keep := by (simp only [holdFb, apply_ite State.keep, ite_self, keep_mk, implies_true, onAxis_keep])
@[simp] theorem initFb_keep (a : Nat) (p : Pos) (s : State) : (initFb a p s).keep = s.keep := by (simp only [initFb, apply_ite State.keep, ite_self, keep_mk, implies_true, onAxis_keep, event_keep])
@[simp] theorem remoteReport_keep (a : Nat) (st : BitVec 16) (s : State) : (remoteReport a st s).keep = s.keep := by (simp only [remoteReport, apply_ite State.keep, ite_self, keep_mk, implies_true, onAxis_keep, event_keep])
@[simp] theorem ringFb_keep (a : Nat) (e : UpEntry) (s : State) : (ringFb a e s).keep = s.keep := by (simp only [ringFb, apply_ite State.keep, ite_self, keep_mk, implies_true, remoteReport_keep, initFb_keep, onAxis_keep, takeFb_keep, event_keep])
@[simp] theorem axisFb_keep (a : Nat) (s : State) : (axisFb a s).keep = s.keep := by (unfold axisFb; try dsimp only; repeat' (first | with_reducible rfl | with_reducible exact keep_mk .. | split | intro _ | (simp only [apply_ite State.keep, ite_self, keep_mk, implies_true, takeFb_keep, holdFb_keep, initFb_keep, ringFb_keep]) | refine (forAll_keep _ _ _ ?_).trans ?_))
@[simp] theorem followFb_keep (a : Nat) (s : State) : (followFb a s).keep = s.keep := by (unfold followFb; try dsimp only; repeat' (first | with_reducible rfl | with_reducible exact keep_mk .. | split | intro _ | (simp only [apply_ite State.keep, ite_self, keep_mk, implies_true, onAxis_keep]) | refine (forAll_keep _ _ _ ?_).trans ?_))
@[simp] theorem feedbackDeadline_keep (s : State) : (feedbackDeadline s).keep = s.keep := by (simp only [feedbackDeadline, apply_ite State.keep, ite_self, keep_mk, implies_true, nullChans_keep, forAll_keep, nullRing_keep, followFb_keep, axisFb_keep, hedgeCompute_keep, resumeSlices_keep])
@[simp] theorem remoteHomeTimeout_keep (a : Nat) (s : State) : (remoteHomeTimeout a s).keep = s.keep := by (unfold remoteHomeTimeout; split <;> first | with_reducible rfl | with_reducible exact keep_mk .. | (simp only [apply_ite State.keep, ite_self, keep_mk, implies_true, event_keep, onAxis_keep]))
@[simp] theorem reinitEdge_keep (s : State) : (reinitEdge s).keep = s.keep := by (simp only [reinitEdge, apply_ite State.keep, ite_self, keep_mk, implies_true])
@[simp] theorem kdeNan_keep (g : Nat) (s : State) : (kdeNan g s).keep = s.keep := by (simp only [kdeNan, apply_ite State.keep, ite_self, keep_mk, implies_true, event_keep])
@[simp] theorem posesDone_keep (g : Nat) (s : State) : (posesDone g s).keep = s.keep := by (simp only [posesDone, apply_ite State.keep, ite_self, keep_mk, implies_true, kdeNan_keep, onGrp_keep])
@[simp] theorem dynamicsDone_keep (g : Nat) (s : State) : (dynamicsDone g s).keep = s.keep := by (simp only [dynamicsDone, apply_ite State.keep, ite_self, keep_mk, implies_true, onGrp_keep, forAll_keep, onAxis_keep, kdeNan_keep])
@[simp] theorem posesRelease_keep (s : State) : (posesRelease s).keep = s.keep := by (unfold posesRelease; repeat' (first | with_reducible rfl | with_reducible exact keep_mk .. | (simp only [apply_ite State.keep, ite_self, keep_mk, implies_true, onTrlG_keep, onGrp_keep]) | (split; skip) | intro _ | refine (forAll_keep _ _ _ ?_).trans ?_ | refine (foldl_keep _ ?_ _ _).trans ?_ | refine (needsCell_keep _ _ _ _ ?_).trans ?_ | refine (withGroup_keep _ _ _ _ ?_).trans ?_))
@[simp] theorem tcpRelease_keep (g : Nat) (s : State) : (tcpRelease g s).keep = s.keep := by (simp only [tcpRelease, apply_ite State.keep, ite_self, keep_mk, implies_true, onGrp_keep])
@[simp] theorem dynamicsRelease_keep (m : Mask) (s : State) : (dynamicsRelease m s).keep = s.keep := by (simp only [dynamicsRelease, apply_ite State.keep, ite_self, keep_mk, implies_true, forAll_keep, tcpRelease_keep, onGrp_keep, onAxis_keep, resumeSlices_keep])

/-! ### Solver -/

@[simp] theorem badPacket_keep (s : State) : (badPacket s).keep = s.keep := by (simp only [badPacket, apply_ite State.keep, ite_self, keep_mk, implies_true, eventOnce_keep])
@[simp] theorem commitTl_keep (ks : List Packet) (s : State) : (commitTl ks s).keep = s.keep := by (simp only [commitTl, apply_ite State.keep, ite_self, keep_mk, implies_true, forAll_keep, badPacket_keep])
@[simp] theorem commitFw_keep (k : Packet) (s : State) : (commitFw k s).keep = s.keep := by (simp only [commitFw, apply_ite State.keep, ite_self, keep_mk, implies_true, badPacket_keep])
@[simp] theorem deltaCommit_keep (v : Word) (s : State) : (deltaCommit v s).keep = s.keep := by (simp only [deltaCommit, apply_ite State.keep, ite_self, keep_mk, implies_true, absentAccess_keep, acked_keep, commitFw_keep])
@[simp] theorem laneReassign_keep (s : State) : (laneReassign s).keep = s.keep := by (unfold laneReassign; repeat' (first | with_reducible rfl | with_reducible exact keep_mk .. | (simp only [apply_ite State.keep, ite_self, keep_mk, implies_true, onProb_keep]) | (split; skip) | intro _ | refine (forAll_keep _ _ _ ?_).trans ?_ | refine (foldl_keep _ ?_ _ _).trans ?_ | refine (needsCell_keep _ _ _ _ ?_).trans ?_ | refine (withGroup_keep _ _ _ _ ?_).trans ?_))
@[simp] theorem loseLane_keep (b sl : Nat) (s : State) : (loseLane b sl s).keep = s.keep := by (simp only [loseLane, apply_ite State.keep, ite_self, keep_mk, implies_true, forAll_keep, onProb_keep])
@[simp] theorem startNext_keep (p : Nat) (s : State) : (startNext p s).keep = s.keep := by (unfold startNext; try dsimp only; repeat' (first | with_reducible rfl | with_reducible exact keep_mk .. | split | intro _ | (simp only [apply_ite State.keep, ite_self, keep_mk, implies_true, onProb_keep]) | refine (forAll_keep _ _ _ ?_).trans ?_))
@[simp] theorem applyAll_keep (ks : List Packet) (s : State) : (applyAll ks s).keep = s.keep := by (simp only [applyAll, apply_ite State.keep, ite_self, keep_mk, implies_true, forAll_keep, onProb_keep])
@[simp] theorem gateControls_keep (s : State) : (gateControls s).keep = s.keep := by (simp only [gateControls, apply_ite State.keep, ite_self, keep_mk, implies_true])
@[simp] theorem loseExcess_keep (ks : List Packet) (s : State) : (loseExcess ks s).keep = s.keep := by (unfold loseExcess; split <;> first | with_reducible rfl | with_reducible exact keep_mk .. | (simp only [apply_ite State.keep, ite_self, keep_mk, implies_true, event_keep, forAll_keep, onProb_keep]))
@[simp] theorem gateCopy_keep (s : State) : (gateCopy s).keep = s.keep := by (simp only [gateCopy, apply_ite State.keep, ite_self, keep_mk, implies_true, loseExcess_keep, gateControls_keep, applyAll_keep])
@[simp] theorem graftStep_keep (p : Nat) (s : State) : (graftStep p s).keep = s.keep := by (unfold graftStep; try dsimp only; repeat' (first | with_reducible rfl | with_reducible exact keep_mk .. | split | intro _ | (simp only [apply_ite State.keep, ite_self, keep_mk, implies_true, onProb_keep, event_keep]) | refine (forAll_keep _ _ _ ?_).trans ?_))
@[simp] theorem dispatchJob_keep (p : Nat) (s : State) : (dispatchJob p s).keep = s.keep := by (simp only [dispatchJob, apply_ite State.keep, ite_self, keep_mk, implies_true, onProb_keep, event_keep, graftStep_keep])
@[simp] theorem deltaGate_keep (s : State) : (deltaGate s).keep = s.keep := by (simp only [deltaGate, apply_ite State.keep, ite_self, keep_mk, implies_true, gateCopy_keep, forAll_keep, dispatchJob_keep, startNext_keep])
@[simp] theorem finishJob_keep (p : Nat) (o : JobOut) (s : State) : (finishJob p o s).keep = s.keep := by (simp only [finishJob, apply_ite State.keep, ite_self, keep_mk, implies_true, onProb_keep, eventOnce_keep, startNext_keep])
@[simp] theorem solverJobDone_keep (p : Nat) (s : State) : (solverJobDone p s).keep = s.keep := by (simp only [solverJobDone, apply_ite State.keep, ite_self, keep_mk, implies_true, finishJob_keep])
@[simp] theorem anytimeStop_keep (p iters : Nat) (s : State) : (anytimeStop p iters s).keep = s.keep := by (simp only [anytimeStop, apply_ite State.keep, ite_self, keep_mk, implies_true, finishJob_keep])
@[simp] theorem missJob_keep (p : Nat) (s : State) : (missJob p s).keep = s.keep := by (unfold missJob; try dsimp only; repeat' (first | with_reducible rfl | with_reducible exact keep_mk .. | split | intro _ | (simp only [apply_ite State.keep, ite_self, keep_mk, implies_true, drawFree, drawFree_keep, eventOnce_keep, onProb_keep, event_keep, markNext_keep, noteMiss_keep]) | refine (forAll_keep _ _ _ ?_).trans ?_))
@[simp] theorem publishJob_keep (p : Nat) (s : State) : (publishJob p s).keep = s.keep := by (simp only [publishJob, apply_ite State.keep, ite_self, keep_mk, implies_true, onProb_keep])
@[simp] theorem releaseJob_keep (p : Nat) (s : State) : (releaseJob p s).keep = s.keep := by (unfold releaseJob; try dsimp only; repeat' (first | with_reducible rfl | with_reducible exact keep_mk .. | split | intro _ | (simp only [apply_ite State.keep, ite_self, keep_mk, implies_true, publishJob_keep, onProb_keep, missJob_keep]) | refine (forAll_keep _ _ _ ?_).trans ?_))
@[simp] theorem stopAnytime_keep (s : State) : (stopAnytime s).keep = s.keep := by (simp only [stopAnytime, apply_ite State.keep, ite_self, keep_mk, implies_true, drawFree, forAll_keep, drawFree_keep, anytimeStop_keep])
@[simp] theorem solverRelease_keep (s : State) : (solverRelease s).keep = s.keep := by (simp only [solverRelease, apply_ite State.keep, ite_self, keep_mk, implies_true, stopAnytime_keep, forAll_keep, releaseJob_keep])
@[simp] theorem solverMissLimit_keep (p : Nat) (s : State) : (solverMissLimit p s).keep = s.keep := by (simp only [solverMissLimit, apply_ite State.keep, ite_self, keep_mk, implies_true, event_keep, onTime_keep, onProb_keep])
@[simp] theorem solverEdge_keep (s : State) : (solverEdge s).keep = s.keep := by (simp only [solverEdge, apply_ite State.keep, ite_self, keep_mk, implies_true, laneReassign_keep])
@[simp] theorem problemEnableWrite_keep (p : Nat) (en : Bool) (s : State) : (problemEnableWrite p en s).keep = s.keep := by (simp only [problemEnableWrite, apply_ite State.keep, ite_self, keep_mk, implies_true, absentAccess_keep, acked_keep, onProb_keep])
@[simp] theorem problemClearLost_keep (p : Nat) (s : State) : (problemClearLost p s).keep = s.keep := by (simp only [problemClearLost, apply_ite State.keep, ite_self, keep_mk, implies_true, absentAccess_keep, acked_keep, onProb_keep])

/-! ### Finalise -/

@[simp] theorem rawStep_keep (g a : Nat) (s : State) : (rawStep g a s).keep = s.keep := by (simp only [rawStep, apply_ite State.keep, ite_self, keep_mk, implies_true, onAxis_keep])
@[simp] theorem noteClamp_keep (g a : Nat) (s : State) : (noteClamp g a s).keep = s.keep := by (unfold noteClamp; try dsimp only; repeat' (first | with_reducible rfl | with_reducible exact keep_mk .. | split | intro _ | (simp only [apply_ite State.keep, ite_self, keep_mk, implies_true, eventOnce_keep, onAxis_keep, onGrp_keep]) | refine (forAll_keep _ _ _ ?_).trans ?_))
@[simp] theorem putSp_keep (a : Nat) (p : Pos) (vff : Int) (tff : Int) (s : State) : (putSp a p vff tff s).keep = s.keep := by (simp only [putSp, apply_ite State.keep, ite_self, keep_mk, implies_true, onAxis_keep])
@[simp] theorem takeStep_keep (g a n : Nat) (stop : Bool) (s : State) : (takeStep g a n stop s).keep = s.keep := by (simp only [takeStep, apply_ite State.keep, ite_self, keep_mk, implies_true, onAxis_keep, putSp_keep, noteClamp_keep])
@[simp] theorem takeFeedback_keep (a : Nat) (s : State) : (takeFeedback a s).keep = s.keep := by (simp only [takeFeedback, apply_ite State.keep, ite_self, keep_mk, implies_true, putSp_keep])
@[simp] theorem rampRef_keep (g n : Nat) (s : State) : (rampRef g n s).keep = s.keep := by (simp only [rampRef, apply_ite State.keep, ite_self, keep_mk, implies_true, forAll_keep, onAxis_keep])
@[simp] theorem applySteps_keep (g : Nat) (s : State) : (applySteps g s).keep = s.keep := by (simp only [applySteps, apply_ite State.keep, ite_self, keep_mk, implies_true, forAll_keep, takeFeedback_keep, onAxis_keep, putSp_keep, rampRef_keep, onGrp_keep, takeStep_keep])
@[simp] theorem cmpStep_keep (g : Nat) (r : RunSeg) (s : State) : (cmpStep g r s).keep = s.keep := by (unfold cmpStep; try dsimp only; repeat' (first | with_reducible rfl | with_reducible exact keep_mk .. | split | intro _ | (simp only [apply_ite State.keep, ite_self, keep_mk, implies_true, onAxis_keep]) | refine (forAll_keep _ _ _ ?_).trans ?_))
@[simp] theorem cmpGroup_keep (g : Nat) (s : State) : (cmpGroup g s).keep = s.keep := by (unfold cmpGroup; try dsimp only; repeat' (first | with_reducible rfl | with_reducible exact keep_mk .. | split | intro _ | (simp only [apply_ite State.keep, ite_self, keep_mk, implies_true, cmpStep_keep]) | refine (forAll_keep _ _ _ ?_).trans ?_))
@[simp] theorem toStopping_keep (g : Nat) (s : State) : (toStopping g s).keep = s.keep := by (simp only [toStopping, apply_ite State.keep, ite_self, keep_mk, implies_true, onGrp_keep, withdrawZone_keep])
@[simp] theorem finalise_keep (s : State) : (finalise s).keep = s.keep := by (simp only [finalise, apply_ite State.keep, ite_self, keep_mk, implies_true, forAll_keep, rawStep_keep, cmpGroup_keep, applySteps_keep, homingStop_keep, toStopping_keep])
@[simp] theorem refinalise_keep (g : Nat) (s : State) : (refinalise g s).keep = s.keep := by (simp only [refinalise, apply_ite State.keep, ite_self, keep_mk, implies_true, applySteps_keep])

end Sys2Proof.Machine
end

