-- ==== Sys2Proof/Laws/KeepSafety.lean ====
section
/-! SUPPORT. KeepSafety.lean: what the operations of the safety region, flows, Prune and faults leave as it is. -/

set_option linter.all false

namespace Sys2Proof.Machine

/-! ### Saf -/

@[simp] theorem onLine_keep (i : Nat) (f : InPair → InPair) (s : State) : (onLine i f s).keep = s.keep := by (simp only [onLine, apply_ite State.keep, ite_self, keep_mk, implies_true, onSaf_keep])
@[simp] theorem evalLine_keep (i : Nat) (s : State) : (evalLine i s).keep = s.keep := by (simp only [evalLine, apply_ite State.keep, ite_self, keep_mk, implies_true, onLine_keep])
@[simp] theorem safetyInputChange_keep (i : Nat) (chB high : Bool) (held : Nat) (s : State) : (safetyInputChange i chB high held s).keep = s.keep := by (simp only [safetyInputChange, apply_ite State.keep, ite_self, keep_mk, implies_true, onLine_keep, onSaf_keep, evalLine_keep])
@[simp] theorem inputDiscrepancy_keep (i : Nat) (s : State) : (inputDiscrepancy i s).keep = s.keep := by (simp only [inputDiscrepancy, apply_ite State.keep, ite_self, keep_mk, implies_true, classA_keep, event_keep, onLine_keep])
@[simp] theorem checkPulse_keep (t : Nat) (rdA rdB : Bool) (i : Nat) (s : State) : (checkPulse t rdA rdB i s).keep = s.keep := by (simp only [checkPulse, apply_ite State.keep, ite_self, keep_mk, implies_true, classA_keep, event_keep, onLine_keep])
@[simp] theorem testPulse_keep (t : Nat) (lvA lvB : Mask) (s : State) : (testPulse t lvA lvB s).keep = s.keep := by (simp only [testPulse, apply_ite State.keep, ite_self, keep_mk, implies_true, forAll_keep, checkPulse_keep, onSaf_keep])
@[simp] theorem inputsEdge_keep (s : State) : (inputsEdge s).keep = s.keep := by (simp only [inputsEdge, apply_ite State.keep, ite_self, keep_mk, implies_true, onSaf_keep])
@[simp] theorem onRx_keep (p : Nat) (f : RxSt → RxSt) (s : State) : (onRx p f s).keep = s.keep := by (simp only [onRx, apply_ite State.keep, ite_self, keep_mk, implies_true, onSaf_keep])
@[simp] theorem pduBad_keep (key detail : Nat) (s : State) : (pduBad key detail s).keep = s.keep := by (simp only [pduBad, apply_ite State.keep, ite_self, keep_mk, implies_true, eventOnce_keep])
@[simp] theorem acceptPdu_keep (p : Nat) (d : Pdu) (netB one : Bool) (s : State) : (acceptPdu p d netB one s).keep = s.keep := by (simp only [acceptPdu, apply_ite State.keep, ite_self, keep_mk, implies_true, onRx_keep, logPdu_keep])
@[simp] theorem pduMismatch_keep (p : Nat) (late : Bool) (s : State) : (pduMismatch p late s).keep = s.keep := by (simp only [pduMismatch, apply_ite State.keep, ite_self, keep_mk, implies_true, classA_keep, event_keep, onRx_keep])
@[simp] theorem pduArrived_keep (p : Nat) (netB : Bool) (s : State) : (pduArrived p netB s).keep = s.keep := by (simp only [pduArrived, apply_ite State.keep, ite_self, keep_mk, implies_true, onRx_keep, endB_keep])
@[simp] theorem openWindow_keep (p : Nat) (netB : Bool) (d : Pdu) (s : State) : (openWindow p netB d s).keep = s.keep := by (simp only [openWindow, apply_ite State.keep, ite_self, keep_mk, implies_true, onRx_keep])
@[simp] theorem pduWindow_keep (p : Nat) (netB : Bool) (d : Pdu) (s : State) : (pduWindow p netB d s).keep = s.keep := by (unfold pduWindow; split <;> first | with_reducible rfl | with_reducible exact keep_mk .. | (simp only [apply_ite State.keep, ite_self, keep_mk, implies_true, openWindow_keep, acceptPdu_keep, pduMismatch_keep]))
@[simp] theorem pduCopyReceived_keep (netB : Bool) (d : Pdu) (s : State) : (pduCopyReceived netB d s).keep = s.keep := by (unfold pduCopyReceived; try dsimp only; repeat' (first | with_reducible rfl | with_reducible exact keep_mk .. | split | intro _ | (simp only [apply_ite State.keep, ite_self, keep_mk, implies_true, pduBad_keep, pduMismatch_keep, pduWindow_keep, pduArrived_keep]) | refine (forAll_keep _ _ _ ?_).trans ?_))
@[simp] theorem pduWindowExpiry_keep (p : Nat) (s : State) : (pduWindowExpiry p s).keep = s.keep := by (unfold pduWindowExpiry; split <;> first | with_reducible rfl | with_reducible exact keep_mk .. | (simp only [apply_ite State.keep, ite_self, keep_mk, implies_true, acceptPdu_keep]))
@[simp] theorem pduWatchdog_keep (p : Nat) (netB : Bool) (s : State) : (pduWatchdog p netB s).keep = s.keep := by (simp only [pduWatchdog, apply_ite State.keep, ite_self, keep_mk, implies_true, onRx_keep, classA_keep, event_keep, addB_keep])
@[simp] theorem pduEdge_keep (s : State) : (pduEdge s).keep = s.keep := by (simp only [pduEdge, apply_ite State.keep, ite_self, keep_mk, implies_true, onSaf_keep])
@[simp] theorem sendPdu_keep (i : Nat) (s : State) : (sendPdu i s).keep = s.keep := by (simp only [sendPdu, apply_ite State.keep, ite_self, keep_mk, implies_true, logPdu_keep, onSaf_keep, sendDev_keep])
@[simp] theorem slsUpdate_keep (g : Nat) (s : State) : (slsUpdate g s).keep = s.keep := by (simp only [slsUpdate, apply_ite State.keep, ite_self, keep_mk, implies_true, onSafG_keep])
@[simp] theorem stopPulses_keep (g : Nat) (s : State) : (stopPulses g s).keep = s.keep := by (unfold stopPulses; repeat' (first | with_reducible rfl | with_reducible exact keep_mk .. | (simp only [apply_ite State.keep, ite_self, keep_mk, implies_true, stepStop_keep]) | (split; skip) | intro _ | refine (forAll_keep _ _ _ ?_).trans ?_ | refine (foldl_keep _ ?_ _ _).trans ?_ | refine (needsCell_keep _ _ _ _ ?_).trans ?_ | refine (withGroup_keep _ _ _ _ ?_).trans ?_))
@[simp] theorem decideSto_keep (g stocause cause : Nat) (s : State) : (decideSto g stocause cause s).keep = s.keep := by (simp only [decideSto, apply_ite State.keep, ite_self, keep_mk, implies_true, onSafG_keep, event_keep, keepReleased_keep])
@[simp] theorem decideStop_keep (g cause : Nat) (only : Bool) (s : State) : (decideStop g cause only s).keep = s.keep := by (simp only [decideStop, apply_ite State.keep, ite_self, keep_mk, implies_true, event_keep, onSafG_keep, keepReleased_keep])
@[simp] theorem degraded_keep (g : Nat) (s : State) : (degraded g s).keep = s.keep := by (simp only [degraded, apply_ite State.keep, ite_self, keep_mk, implies_true, event_keep, onSafG_keep])
@[simp] theorem decideGroup_keep (g : Nat) (s : State) : (decideGroup g s).keep = s.keep := by (unfold decideGroup; try dsimp only; repeat' (first | with_reducible rfl | with_reducible exact keep_mk .. | split | intro _ | (simp only [apply_ite State.keep, ite_self, keep_mk, implies_true, onSafG_keep, event_keep, decideSto_keep, decideStop_keep]) | refine (forAll_keep _ _ _ ?_).trans ?_))
@[simp] theorem clearLines_keep (g : Nat) (s : State) : (clearLines g s).keep = s.keep := by (simp only [clearLines, apply_ite State.keep, ite_self, keep_mk, implies_true, forAll_keep, evalLine_keep, onLine_keep])
@[simp] theorem acknowledge_keep (g : Nat) (prior : GState) (may : Bool) (s : State) : (acknowledge g prior may s).keep = s.keep := by (simp only [acknowledge, apply_ite State.keep, ite_self, keep_mk, implies_true, clearLines_keep, onSafG_keep, onGrp_keep, event_keep, onSaf_keep])
@[simp] theorem countRestart_keep (g : Nat) (s : State) : (countRestart g s).keep = s.keep := by (simp only [countRestart, apply_ite State.keep, ite_self, keep_mk, implies_true, onSafG_keep])
@[simp] theorem autoRestart_keep (g : Nat) (s : State) : (autoRestart g s).keep = s.keep := by (simp only [autoRestart, apply_ite State.keep, ite_self, keep_mk, implies_true, onGrp_keep, onSafG_keep])
@[simp] theorem kdeCheck_keep (off : Bool) (s : State) : (kdeCheck off s).keep = s.keep := by (simp only [kdeCheck, apply_ite State.keep, ite_self, keep_mk, implies_true, classA_keep, event_keep, endA_keep])
@[simp] theorem limitTrips_keep (s : State) : (limitTrips s).keep = s.keep := by (simp only [limitTrips, apply_ite State.keep, ite_self, keep_mk, implies_true, forAll_keep, demandStop_keep, event_keep, onChan_keep])
@[simp] theorem decideMode_keep (r : Nat × Origin) (s : State) : (decideMode r s).keep = s.keep := by (simp only [decideMode, apply_ite State.keep, ite_self, keep_mk, implies_true, event_keep, onSaf_keep])
@[simp] theorem modeChange_keep (s : State) : (modeChange s).keep = s.keep := by (simp only [modeChange, apply_ite State.keep, ite_self, keep_mk, implies_true, forAll_keep, decideMode_keep, onSaf_keep])
@[simp] theorem enableMeetsStop_keep (s : State) : (enableMeetsStop s).keep = s.keep := by (simp only [enableMeetsStop, apply_ite State.keep, ite_self, keep_mk, implies_true, forAll_keep, onGrp_keep])
@[simp] theorem pairMasks_keep (s : State) : (pairMasks s).keep = s.keep := by (simp only [pairMasks, apply_ite State.keep, ite_self, keep_mk, implies_true, onPair_keep])
@[simp] theorem safDecision_keep (off : Bool) (s : State) : (safDecision off s).keep = s.keep := by (simp only [safDecision, apply_ite State.keep, ite_self, keep_mk, implies_true, limitTrips_keep, kdeCheck_keep, forAll_keep, degraded_keep, slsUpdate_keep, decideGroup_keep, onSaf_keep, acknowledge_keep, countRestart_keep, enableMeetsStop_keep, modeChange_keep, sendPdu_keep, onSlack_keep, finalise_keep, pairMasks_keep])
@[simp] theorem lateDecision_keep (g : Nat) (s : State) : (lateDecision g s).keep = s.keep := by (simp only [lateDecision, apply_ite State.keep, ite_self, keep_mk, implies_true, refinalise_keep, toStopping_keep])
@[simp] theorem standstill_keep (g : Nat) (s : State) : (standstill g s).keep = s.keep := by (simp only [standstill, apply_ite State.keep, ite_self, keep_mk, implies_true, lateDecision_keep, decideSto_keep])
@[simp] theorem ss1Timeout_keep (g : Nat) (s : State) : (ss1Timeout g s).keep = s.keep := by (simp only [ss1Timeout, apply_ite State.keep, ite_self, keep_mk, implies_true, lateDecision_keep, decideSto_keep, event_keep])
@[simp] theorem degradedExpiry_keep (g : Nat) (s : State) : (degradedExpiry g s).keep = s.keep := by (simp only [degradedExpiry, apply_ite State.keep, ite_self, keep_mk, implies_true, lateDecision_keep, decideStop_keep, event_keep, onSafG_keep])
@[simp] theorem stoLineSwitch_keep (s : State) : (stoLineSwitch s).keep = s.keep := by (simp only [stoLineSwitch, apply_ite State.keep, ite_self, keep_mk, implies_true, forAll_keep, stopPulses_keep, onPair_keep, onSaf_keep])
@[simp] theorem linesLow_keep (s : State) : (linesLow s).keep = s.keep := by (simp only [linesLow, apply_ite State.keep, ite_self, keep_mk, implies_true, event_keep, onSaf_keep, classA_keep, bbTrigger_keep, onPair_keep])
@[simp] theorem stoRefresh_keep (word : Bool) (s : State) : (stoRefresh word s).keep = s.keep := by (simp only [stoRefresh, apply_ite State.keep, ite_self, keep_mk, implies_true, linesLow_keep, onSaf_keep])
@[simp] theorem flowSignatureCheck_keep (ok : Bool) (sig : Word) (s : State) : (flowSignatureCheck ok sig s).keep = s.keep := by (simp only [flowSignatureCheck, apply_ite State.keep, ite_self, keep_mk, implies_true, onSaf_keep, escalate_keep, classA_keep, event_keep])
@[simp] theorem readbackFault_keep (g : Nat) (s : State) : (readbackFault g s).keep = s.keep := by (unfold readbackFault; try dsimp only; repeat' (first | with_reducible rfl | with_reducible exact keep_mk .. | split | intro _ | (simp only [apply_ite State.keep, ite_self, keep_mk, implies_true, onSaf_keep, latchA_keep, event_keep, onSafG_keep, lateDecision_keep, decideSto_keep]) | refine (forAll_keep _ _ _ ?_).trans ?_))
@[simp] theorem stoReadback_keep (level : Mask) (s : State) : (stoReadback level s).keep = s.keep := by (simp only [stoReadback, apply_ite State.keep, ite_self, keep_mk, implies_true, onSaf_keep, forAll_keep, readbackFault_keep])
@[simp] theorem voltageTrip_keep (vcore : Nat) (s : State) : (voltageTrip vcore s).keep = s.keep := by (simp only [voltageTrip, apply_ite State.keep, ite_self, keep_mk, implies_true, onSaf_keep, escalate_keep, classA_keep, event_keep])
@[simp] theorem temperatureTrip_keep (tj : Nat) (s : State) : (temperatureTrip tj s).keep = s.keep := by (simp only [temperatureTrip, apply_ite State.keep, ite_self, keep_mk, implies_true, onSaf_keep, escalate_keep, classA_keep, event_keep, addB_keep])
@[simp] theorem temperatureClear_keep (tj : Nat) (s : State) : (temperatureClear tj s).keep = s.keep := by (simp only [temperatureClear, apply_ite State.keep, ite_self, keep_mk, implies_true, endA_keep, endB_keep, onSaf_keep])

/-! ### People -/

@[simp] theorem samplePendant_keep (s : State) : (samplePendant s).keep = s.keep := by (simp only [samplePendant, apply_ite State.keep, ite_self, keep_mk, implies_true, onSaf_keep])
@[simp] theorem pendantPresent_keep (s : State) : (pendantPresent s).keep = s.keep := by (unfold pendantPresent; split <;> first | with_reducible rfl | with_reducible exact keep_mk .. | (simp only [apply_ite State.keep, ite_self, keep_mk, implies_true, event_keep, samplePendant_keep, onSaf_keep]))
@[simp] theorem pendantAbsent_keep (s : State) : (pendantAbsent s).keep = s.keep := by (simp only [pendantAbsent, apply_ite State.keep, ite_self, keep_mk, implies_true, onSaf_keep, event_keep, demandStop_keep])
@[simp] theorem withdrawRequest_keep (s : State) : (withdrawRequest s).keep = s.keep := by (simp only [withdrawRequest, apply_ite State.keep, ite_self, keep_mk, implies_true, onSaf_keep, event_keep])
@[simp] theorem bridgeExpiry_keep (s : State) : (bridgeExpiry s).keep = s.keep := by (simp only [bridgeExpiry, apply_ite State.keep, ite_self, keep_mk, implies_true, onSaf_keep])
@[simp] theorem toolChecked_keep (g res : Nat) (s : State) : (toolChecked g res s).keep = s.keep := by (simp only [toolChecked, apply_ite State.keep, ite_self, keep_mk, implies_true, event_keep, onGrp_keep])
@[simp] theorem toolIdentity_keep (g : Nat) (b : IdBlock) (s : State) : (toolIdentity g b s).keep = s.keep := by (simp only [toolIdentity, apply_ite State.keep, ite_self, keep_mk, implies_true, toolChecked_keep])
@[simp] theorem toolTimeout_keep (g : Nat) (s : State) : (toolTimeout g s).keep = s.keep := by (unfold toolTimeout; split <;> first | with_reducible rfl | with_reducible exact keep_mk .. | (simp only [apply_ite State.keep, ite_self, keep_mk, implies_true, toolChecked_keep]))
@[simp] theorem spareRelease_keep (r j : Nat) (s : State) : (spareRelease r j s).keep = s.keep := by (simp only [spareRelease, apply_ite State.keep, ite_self, keep_mk, implies_true, onRing_keep, forAll_keep, onGrp_keep])

/-! ### Sched -/

@[simp] theorem placeItem_keep (i : Item) (c now : Nat) (s : State) : (placeItem i c now s).keep = s.keep := by (simp only [placeItem, apply_ite State.keep, ite_self, keep_mk, implies_true, onHost_keep, onCore_keep, onFlow_keep, trace_keep])
@[simp] theorem scheduleN_keep (n now : Nat) (s : State) : (scheduleN n now s).keep = s.keep := by 
  induction n generalizing s with
  | zero => rfl
  | succ n ih =>
    unfold scheduleN
    split
    · rfl
    · split
      · exact (ih _).trans (placeItem_keep _ _ _ _)
      · rfl
@[simp] theorem schedule_keep (now : Nat) (s : State) : (schedule now s).keep = s.keep := by (simp only [schedule, apply_ite State.keep, ite_self, keep_mk, implies_true, scheduleN_keep])
@[simp] theorem addItem_keep (i : Item) (s : State) : (addItem i s).keep = s.keep := by (simp only [addItem, apply_ite State.keep, ite_self, keep_mk, implies_true, onHost_keep, trace_keep])
@[simp] theorem refuseItem_keep (f res deadline : Nat) (s : State) : (refuseItem f res deadline s).keep = s.keep := by (simp only [refuseItem, apply_ite State.keep, ite_self, keep_mk, implies_true, trace_keep, eventOnce_keep])
@[simp] theorem deviceItem_keep (f arg deadline release : Nat) (s : State) : (deviceItem f arg deadline release s).keep = s.keep := by (unfold deviceItem; split <;> first | with_reducible rfl | with_reducible exact keep_mk .. | (simp only [apply_ite State.keep, ite_self, keep_mk, implies_true, addItem_keep, refuseItem_keep]))
@[simp] theorem enqueue_keep (c now : Nat) (s : State) : (enqueue c now s).keep = s.keep := by (unfold enqueue; try dsimp only; repeat' (first | with_reducible rfl | with_reducible exact keep_mk .. | split | intro _ | (simp only [apply_ite State.keep, ite_self, keep_mk, implies_true, advanceTb_keep, onCore_keep, acked_keep, schedule_keep, addItem_keep, refuseItem_keep]) | refine (forAll_keep _ _ _ ?_).trans ?_))
@[simp] theorem timerEnqueue_keep (f m : Nat) (s : State) : (timerEnqueue f m s).keep = s.keep := by (simp only [timerEnqueue, apply_ite State.keep, ite_self, keep_mk, implies_true, advanceTb_keep, onFlow_keep, schedule_keep, deviceItem_keep])
@[simp] theorem addRaises_keep (f n : Nat) (s : State) : (addRaises f n s).keep = s.keep := by (simp only [addRaises, apply_ite State.keep, ite_self, keep_mk, implies_true, onHost_keep])
@[simp] theorem boundEnqueue_keep (f now : Nat) (s : State) : (boundEnqueue f now s).keep = s.keep := by (unfold boundEnqueue; try dsimp only; repeat' (first | with_reducible rfl | with_reducible exact keep_mk .. | split | intro _ | (simp only [apply_ite State.keep, ite_self, keep_mk, implies_true, drawFree, advanceTb_keep, onChip_keep, drawFree_keep, schedule_keep, deviceItem_keep, addRaises_keep]) | refine (forAll_keep _ _ _ ?_).trans ?_))
@[simp] theorem noteRun_keep (f run : Nat) (s : State) : (noteRun f run s).keep = s.keep := by (simp only [noteRun, apply_ite State.keep, ite_self, keep_mk, implies_true, onFlow_keep])
@[simp] theorem endItem_keep (c result now : Nat) (s : State) : (endItem c result now s).keep = s.keep := by (unfold endItem; split <;> first | with_reducible rfl | with_reducible exact keep_mk .. | (simp only [apply_ite State.keep, ite_self, keep_mk, implies_true, drawFree, noteRun_keep, onCore_keep, trace_keep, drawFree_keep, deviceItem_keep]))
@[simp] theorem removeItem_keep (h result : Nat) (s : State) : (removeItem h result s).keep = s.keep := by (unfold removeItem; split <;> first | with_reducible rfl | with_reducible exact keep_mk .. | (simp only [apply_ite State.keep, ite_self, keep_mk, implies_true, trace_keep, onHost_keep]))
@[simp] theorem endHandle_keep (h result now : Nat) (s : State) : (endHandle h result now s).keep = s.keep := by (unfold endHandle; split <;> first | with_reducible rfl | with_reducible exact keep_mk .. | (simp only [apply_ite State.keep, ite_self, keep_mk, implies_true, endItem_keep, removeItem_keep]))
@[simp] theorem lateItem_keep (i : Item) (s : State) : (lateItem i s).keep = s.keep := by (simp only [lateItem, apply_ite State.keep, ite_self, keep_mk, implies_true, trace_keep, event_keep, onFlow_keep])
@[simp] theorem disableFlow_keep (f : Nat) (s : State) : (disableFlow f s).keep = s.keep := by (simp only [disableFlow, apply_ite State.keep, ite_self, keep_mk, implies_true, trace_keep, event_keep, onFlow_keep])
@[simp] theorem itemDone_keep (c now : Nat) (s : State) : (itemDone c now s).keep = s.keep := by (unfold itemDone; try dsimp only; repeat' (first | with_reducible rfl | with_reducible exact keep_mk .. | split | intro _ | (simp only [apply_ite State.keep, ite_self, keep_mk, implies_true, advanceTb_keep, acked_keep, endItem_keep, schedule_keep, onFlow_keep, onCore_keep]) | refine (forAll_keep _ _ _ ?_).trans ?_))
@[simp] theorem tlCopyDone_keep (f now : Nat) (s : State) : (tlCopyDone f now s).keep = s.keep := by (unfold tlCopyDone; split <;> first | with_reducible rfl | with_reducible exact keep_mk .. | (simp only [apply_ite State.keep, ite_self, keep_mk, implies_true, schedule_keep, onFlow_keep, onCore_keep, advanceTb_keep]))
@[simp] theorem itemOverrun_keep (c now : Nat) (s : State) : (itemOverrun c now s).keep = s.keep := by (unfold itemOverrun; split <;> first | with_reducible rfl | with_reducible exact keep_mk .. | (simp only [apply_ite State.keep, ite_self, keep_mk, implies_true, event_keep, trace_keep, advanceTb_keep, lateItem_keep, schedule_keep, endItem_keep]))
@[simp] theorem markLate_keep (h : Nat) (s : State) : (markLate h s).keep = s.keep := by (simp only [markLate, apply_ite State.keep, ite_self, keep_mk, implies_true, onHost_keep])
@[simp] theorem itemDeadline_keep (h now : Nat) (s : State) : (itemDeadline h now s).keep = s.keep := by (unfold itemDeadline; try dsimp only; repeat' (first | with_reducible rfl | with_reducible exact keep_mk .. | split | intro _ | (simp only [apply_ite State.keep, ite_self, keep_mk, implies_true, itemOverrun_keep, markLate_keep, lateItem_keep, advanceTb_keep, schedule_keep, disableFlow_keep, endHandle_keep]) | refine (forAll_keep _ _ _ ?_).trans ?_))
@[simp] theorem trapEntry_keep (c : Nat) (s : State) : (trapEntry c s).keep = s.keep := by (simp only [trapEntry, apply_ite State.keep, ite_self, keep_mk, implies_true, drawFree, drawFree_keep, onCore_keep])
@[simp] theorem coreTrap_keep (c now : Nat) (s : State) : (coreTrap c now s).keep = s.keep := by (unfold coreTrap; split <;> first | with_reducible rfl | with_reducible exact keep_mk .. | (simp only [apply_ite State.keep, ite_self, keep_mk, implies_true, event_keep, markNext_keep, advanceTb_keep, onFlow_keep, schedule_keep, endItem_keep, trapEntry_keep]))
@[simp] theorem flowEnable_keep (f now : Nat) (s : State) : (flowEnable f now s).keep = s.keep := by (simp only [flowEnable, apply_ite State.keep, ite_self, keep_mk, implies_true, acked_keep, schedule_keep, onFlow_keep, advanceTb_keep])
@[simp] theorem flowDisable_keep (f : Nat) (s : State) : (flowDisable f s).keep = s.keep := by (simp only [flowDisable, apply_ite State.keep, ite_self, keep_mk, implies_true, acked_keep, onFlow_keep])
@[simp] theorem publishFlip_keep (b : Nat) (s : State) : (publishFlip b s).keep = s.keep := by (simp only [publishFlip, apply_ite State.keep, ite_self, keep_mk, implies_true, acked_keep, onHost_keep])
@[simp] theorem completeSnap_keep (f : Nat) (s : State) : (completeSnap f s).keep = s.keep := by (simp only [completeSnap, apply_ite State.keep, ite_self, keep_mk, implies_true, onFlow_keep])
@[simp] theorem itemReleaseTime_keep (h now : Nat) (s : State) : (itemReleaseTime h now s).keep = s.keep := by (unfold itemReleaseTime; try dsimp only; repeat' (first | with_reducible rfl | with_reducible exact keep_mk .. | split | intro _ | (simp only [apply_ite State.keep, ite_self, keep_mk, implies_true, advanceTb_keep, schedule_keep, onHost_keep, completeSnap_keep]) | refine (forAll_keep _ _ _ ?_).trans ?_))
@[simp] theorem takeSnapshot_keep (p : State) (f : Nat) (s : State) : (takeSnapshot p f s).keep = s.keep := by (unfold takeSnapshot; try dsimp only; repeat' (first | with_reducible rfl | with_reducible exact keep_mk .. | split | intro _ | (simp only [apply_ite State.keep, ite_self, keep_mk, implies_true, onFlow_keep, addItem_keep, trace_keep]) | refine (forAll_keep _ _ _ ?_).trans ?_))
@[simp] theorem snapshots_keep (p : State) (s : State) : (snapshots p s).keep = s.keep := by (simp only [snapshots, apply_ite State.keep, ite_self, keep_mk, implies_true, onHost_keep, forAll_keep, takeSnapshot_keep])
@[simp] theorem deliverRec_keep (r : OutRec) (s : State) : (deliverRec r s).keep = s.keep := by (unfold deliverRec; split <;> first | with_reducible rfl | with_reducible exact keep_mk .. | (simp only [apply_ite State.keep, ite_self, keep_mk, implies_true, commitTl_keep, enterSegs_keep, writeTrigger_keep]))
@[simp] theorem dropFlowItem_keep (f : Nat) (s : State) : (dropFlowItem f s).keep = s.keep := by (simp only [dropFlowItem, apply_ite State.keep, ite_self, keep_mk, implies_true, forAll_keep, endItem_keep, onCore_keep, removeItem_keep])
@[simp] theorem flowEffect_keep (f : Nat) (s : State) : (flowEffect f s).keep = s.keep := by (simp only [flowEffect, apply_ite State.keep, ite_self, keep_mk, implies_true, missReaction_keep, escalate_keep])
@[simp] theorem flowMiss_keep (f : Nat) (s : State) : (flowMiss f s).keep = s.keep := by (simp only [flowMiss, apply_ite State.keep, ite_self, keep_mk, implies_true, dropFlowItem_keep, onFlow_keep, flowEffect_keep, event_keep, mark_keep])
@[simp] theorem releaseFlow_keep (f : Nat) (s : State) : (releaseFlow f s).keep = s.keep := by (unfold releaseFlow; try dsimp only; repeat' (first | with_reducible rfl | with_reducible exact keep_mk .. | split | intro _ | (simp only [apply_ite State.keep, ite_self, keep_mk, implies_true, flowMiss_keep, forAll_keep, deliverRec_keep, trace_keep, onFlow_keep]) | refine (forAll_keep _ _ _ ?_).trans ?_))
@[simp] theorem flowDeadline_keep (s : State) : (flowDeadline s).keep = s.keep := by (simp only [flowDeadline, apply_ite State.keep, ite_self, keep_mk, implies_true, noteMiss_keep])
@[simp] theorem releaseFlows_keep (s : State) : (releaseFlows s).keep = s.keep := by (simp only [releaseFlows, apply_ite State.keep, ite_self, keep_mk, implies_true, forAll_keep, releaseFlow_keep])
@[simp] theorem queuePush_keep (c q len : Nat) (s : State) : (queuePush c q len s).keep = s.keep := by (unfold queuePush; try dsimp only; repeat' (first | with_reducible rfl | with_reducible exact keep_mk .. | split | intro _ | (simp only [apply_ite State.keep, ite_self, keep_mk, implies_true, onCore_keep, acked_keep, onHost_keep, onQueue_keep, pushEntry_keep]) | refine (forAll_keep _ _ _ ?_).trans ?_))
@[simp] theorem enterStaging_keep (s : State) : (enterStaging s).keep = s.keep := by (simp only [enterStaging, apply_ite State.keep, ite_self, keep_mk, implies_true, forAll_keep, enterSegs_keep, onHost_keep])
@[simp] theorem acyclicFrame_keep (r : Nat) (ccw : Bool) (at_ : Nat) (h : RingHead) (data : List Byte) (s : State) : (acyclicFrame r ccw at_ h data s).keep = s.keep := by (simp only [acyclicFrame, apply_ite State.keep, ite_self, keep_mk, implies_true, badFrame_keep, heard_keep, passFrame_keep, pushEntry_keep])
@[simp] theorem storeBy_keep (who : Who) (now : Nat) (f : State → State) (s : State) (h : ∀ t, (f t).keep = t.keep) : (storeBy who now f s).keep = s.keep := by (simp only [storeBy, apply_ite State.keep, ite_self, keep_mk, implies_true, h, coreTrap_keep])

/-! ### Replies -/

@[simp] theorem onKey_keep (k : Nat) (f : KeySt → KeySt) (s : State) : (onKey k f s).keep = s.keep := by (simp only [onKey, apply_ite State.keep, ite_self, keep_mk, implies_true, onHost_keep])
@[simp] theorem sendReplyOn_keep (r : Reply) (n : Net) (s : State) : (sendReplyOn r n s).keep = s.keep := by (simp only [sendReplyOn, apply_ite State.keep, ite_self, keep_mk, implies_true, sendNet_keep, onHost_keep])
@[simp] theorem markDecided_keep (r : Reply) (stored : Bool) (s : State) : (markDecided r stored s).keep = s.keep := by (simp only [markDecided, apply_ite State.keep, ite_self, keep_mk, implies_true, onKey_keep])
@[simp] theorem sendReply_keep (r : Reply) (s : State) : (sendReply r s).keep = s.keep := by (simp only [sendReply, apply_ite State.keep, ite_self, keep_mk, implies_true, markDecided_keep, forAll_keep, sendReplyOn_keep])
@[simp] theorem noteRefusal_keep (code key : Nat) (s : State) : (noteRefusal code key s).keep = s.keep := by (simp only [noteRefusal, apply_ite State.keep, ite_self, keep_mk, implies_true, eventOnce_keep, onHost_keep])
@[simp] theorem replyAt18_keep (o : Origin) (code detail : Nat) (body : List Byte) (s : State) : (replyAt18 o code detail body s).keep = s.keep := by (simp only [replyAt18, apply_ite State.keep, ite_self, keep_mk, implies_true, noteRefusal_keep, onHost_keep])
@[simp] theorem replyNow_keep (o : Origin) (code detail : Nat) (body : List Byte) (s : State) : (replyNow o code detail body s).keep = s.keep := by (simp only [replyNow, apply_ite State.keep, ite_self, keep_mk, implies_true, noteRefusal_keep, sendReply_keep])
@[simp] theorem refuseLimited_keep (o : Origin) (code detail now : Nat) (s : State) : (refuseLimited o code detail now s).keep = s.keep := by (simp only [refuseLimited, apply_ite State.keep, ite_self, keep_mk, implies_true, noteRefusal_keep, sendReply_keep, onNet_keep, markDecided_keep, onHost_keep, event_keep])

/-! ### Fault -/

@[simp] theorem sliceNow_keep (r : Region) (b sl : Nat) (s : State) : (sliceNow r b sl s).keep = s.keep := by (unfold sliceNow; split <;> first | with_reducible rfl | with_reducible exact keep_mk .. | (simp only [apply_ite State.keep, ite_self, keep_mk, implies_true, addB_keep, loseLane_keep, loseChan_keep, latchA_keep, event_keep, onSaf_keep, onRegion_keep, portDown_keep, schedule_keep, loseCore_keep]))
@[simp] theorem pipesShort_keep (r : Region) (s : State) : (pipesShort r s).keep = s.keep := by (simp only [pipesShort, apply_ite State.keep, ite_self, keep_mk, implies_true, escalate_keep, latchA_keep])
@[simp] theorem containOther_keep (r : Region) (b sl : Nat) (s : State) : (containOther r b sl s).keep = s.keep := by (simp only [containOther, apply_ite State.keep, ite_self, keep_mk, implies_true, noteFault_keep, sliceNow_keep, markNext_keep, pipesShort_keep])
@[simp] theorem countCorrected_keep (r : Region) (b sl : Nat) (s : State) : (countCorrected r b sl s).keep = s.keep := by (unfold countCorrected; repeat' (first | with_reducible rfl | with_reducible exact keep_mk .. | (simp only [apply_ite State.keep, ite_self, keep_mk, implies_true, correctedError_keep, onCore_keep]) | (split; skip) | intro _ | refine (forAll_keep _ _ _ ?_).trans ?_ | refine (foldl_keep _ ?_ _ _).trans ?_ | refine (needsCell_keep _ _ _ _ ?_).trans ?_ | refine (withGroup_keep _ _ _ _ ?_).trans ?_))
@[simp] theorem sliceFault_keep (r : Region) (b sl cause : Nat) (s : State) : (sliceFault r b sl cause s).keep = s.keep := by (unfold sliceFault; try dsimp only; repeat' (first | with_reducible rfl | with_reducible exact keep_mk .. | split | intro _ | (simp only [apply_ite State.keep, ite_self, keep_mk, implies_true, countCorrected_keep, escalate_keep, latchA_keep, event_keep, motSliceFault_keep, mark_keep, onRegion_keep, containOther_keep]) | refine (forAll_keep _ _ _ ?_).trans ?_))
@[simp] theorem retireOne_keep (r : Region) (f : Nat) (s : State) : (retireOne r f s).keep = s.keep := by (unfold retireOne; split <;> first | with_reducible rfl | with_reducible exact keep_mk .. | (simp only [apply_ite State.keep, ite_self, keep_mk, implies_true, event_keep, onRegion_keep, moveFlows_keep]))
@[simp] theorem retireEdge_keep (s : State) : (retireEdge s).keep = s.keep := by (simp only [retireEdge, apply_ite State.keep, ite_self, keep_mk, implies_true, forAll_keep, retireOne_keep])
@[simp] theorem unitEvent_keep (r : Region) (s : State) : (unitEvent r s).keep = s.keep := by (simp only [unitEvent, apply_ite State.keep, ite_self, keep_mk, implies_true, event_keep])
@[simp] theorem generatorLost_keep (s : State) : (generatorLost s).keep = s.keep := by (simp only [generatorLost, apply_ite State.keep, ite_self, keep_mk, implies_true, escalate_keep, forAll_keep, blockReaction_keep, unitEvent_keep])
@[simp] theorem cryptoLost_keep (s : State) : (cryptoLost s).keep = s.keep := by (simp only [cryptoLost, apply_ite State.keep, ite_self, keep_mk, implies_true, onHost_keep, unitEvent_keep, forAll_keep, markDecided_keep, noteRefusal_keep])
@[simp] theorem compatEscalates_keep (r : Region) (s : State) : (compatEscalates r s).keep = s.keep := by (simp only [compatEscalates, apply_ite State.keep, ite_self, keep_mk, implies_true, escalate_keep])
@[simp] theorem regionUnitFault_keep (u : RegionUnit) (s : State) : (regionUnitFault u s).keep = s.keep := by (unfold regionUnitFault; split <;> first | with_reducible rfl | with_reducible exact keep_mk .. | (simp only [apply_ite State.keep, ite_self, keep_mk, implies_true, escalate_keep, latchA_keep, event_keep, pipesShort_keep, quarantine_keep, unitEvent_keep, generatorLost_keep, onProb_keep, deltaGate_keep, compatEscalates_keep, cryptoLost_keep, plantLinkDown_keep, onPort_keep]))
@[simp] theorem requesterFault_keep (id sl : Nat) (s : State) : (requesterFault id sl s).keep = s.keep := by (unfold requesterFault; split <;> first | with_reducible rfl | with_reducible exact keep_mk .. | (simp only [apply_ite State.keep, ite_self, keep_mk, implies_true, sliceFault_keep, regionUnitFault_keep]))
@[simp] theorem requesterClass_keep (id sl code : Nat) (s : State) : (requesterClass id sl code s).keep = s.keep := by (unfold requesterClass; split <;> first | with_reducible rfl | with_reducible exact keep_mk .. | (simp only [apply_ite State.keep, ite_self, keep_mk, implies_true, escalate_keep, latchA_keep, classA_keep, addB_keep]))
@[simp] theorem hangAccess_keep (x : XAccess) (s : State) : (hangAccess x s).keep = s.keep := by (simp only [hangAccess, apply_ite State.keep, ite_self, keep_mk, implies_true, errorToken_keep, xFinish_keep, requesterClass_keep, event_keep, onChip_keep])
@[simp] theorem crossingWatchdog_keep (id : Nat) (s : State) : (crossingWatchdog id s).keep = s.keep := by (unfold crossingWatchdog; split <;> first | with_reducible rfl | with_reducible exact keep_mk .. | (simp only [apply_ite State.keep, ite_self, keep_mk, implies_true, hangAccess_keep]))
@[simp] theorem crossingResponse_keep (id : Nat) (v : Word) (ecc : Ecc) (s : State) : (crossingResponse id v ecc s).keep = s.keep := by (unfold crossingResponse; try dsimp only; repeat' (first | with_reducible rfl | with_reducible exact keep_mk .. | split | intro _ | (simp only [apply_ite State.keep, ite_self, keep_mk, implies_true, xFinish_keep, answer_keep, event_keep, onChip_keep, requesterFault_keep, errorToken_keep]) | refine (forAll_keep _ _ _ ?_).trans ?_))

/-! ### Prune -/

@[simp] theorem endAccesses_keep (r : Region) (s : State) : (endAccesses r s).keep = s.keep := by (simp only [endAccesses, apply_ite State.keep, ite_self, keep_mk, implies_true, errorToken_keep, onChip_keep])
@[simp] theorem stopRegion_keep (r : Region) (s : State) : (stopRegion r s).keep = s.keep := by (unfold stopRegion; split <;> first | with_reducible rfl | with_reducible exact keep_mk .. | (simp only [apply_ite State.keep, ite_self, keep_mk, implies_true, endAccesses_keep, onRegion_keep]))
@[simp] theorem pruneJob_keep (p : Nat) (s : State) : (pruneJob p s).2.keep = s.keep := by (unfold pruneJob; repeat' (first | with_reducible rfl | with_reducible exact keep_mk .. | (simp only [apply_ite State.keep, ite_self, keep_mk, implies_true, event_keep, markNext_keep, onProb_keep]) | (split; skip) | intro _ | refine (forAll_keep _ _ _ ?_).trans ?_ | refine (foldl_keep _ ?_ _ _).trans ?_ | refine (needsCell_keep _ _ _ _ ?_).trans ?_ | refine (withGroup_keep _ _ _ _ ?_).trans ?_))
@[simp] theorem pruneBatch_keep (b : Nat) (s : State) : (pruneBatch b s).2.keep = s.keep := by (unfold pruneBatch; try dsimp only; repeat' (first | with_reducible rfl | with_reducible exact keep_mk .. | split | intro _ | (simp only [apply_ite State.keep, ite_self, keep_mk, implies_true, event_keep, mark_keep]) | refine (forAll_keep _ _ _ ?_).trans ?_))
@[simp] theorem pruneItem_keep (h : Nat) (s : State) : (pruneItem h s).2.keep = s.keep := by (unfold pruneItem; split <;> first | with_reducible rfl | with_reducible exact keep_mk .. | (simp only [apply_ite State.keep, ite_self, keep_mk, implies_true, markNext_keep, endHandle_keep, trace_keep]))
@[simp] theorem pruneFlowAct_keep (f : Nat) (s : State) : (pruneFlowAct f s).2.keep = s.keep := by (unfold pruneFlowAct; try dsimp only; repeat' (first | with_reducible rfl | with_reducible exact keep_mk .. | split | intro _ | (simp only [apply_ite State.keep, ite_self, keep_mk, implies_true, disableFlow_keep, forAll_keep, removeItem_keep, endItem_keep, markNext_keep]) | refine (forAll_keep _ _ _ ?_).trans ?_))
@[simp] theorem pruneAccess_keep (id : Nat) (s : State) : (pruneAccess id s).2.keep = s.keep := by (unfold pruneAccess; repeat' (first | with_reducible rfl | with_reducible exact keep_mk .. | (simp only [apply_ite State.keep, ite_self, keep_mk, implies_true, event_keep]) | (split; skip) | intro _ | refine (forAll_keep _ _ _ ?_).trans ?_ | refine (foldl_keep _ ?_ _ _).trans ?_ | refine (needsCell_keep _ _ _ _ ?_).trans ?_ | refine (withGroup_keep _ _ _ _ ?_).trans ?_))
@[simp] theorem pruneQueue_keep (q : Nat) (s : State) : (pruneQueue q s).2.keep = s.keep := by (unfold pruneQueue; split <;> first | with_reducible rfl | with_reducible exact keep_mk .. | (simp only [apply_ite State.keep, ite_self, keep_mk, implies_true, onPort_keep]))
@[simp] theorem pruneRefused_keep (s : State) : (pruneRefused s).2.keep = s.keep := by (simp only [pruneRefused, apply_ite State.keep, ite_self, keep_mk, implies_true, event_keep])
@[simp] theorem pruneWhole_keep (signed : Bool) (id : Nat) (s : State) : (pruneWhole signed id s).2.keep = s.keep := by (unfold pruneWhole; repeat' (first | with_reducible rfl | with_reducible exact keep_mk .. | (simp only [apply_ite State.keep, ite_self, keep_mk, implies_true, pruneRefused_keep, event_keep, stopRegion_keep]) | (split; skip) | intro _ | refine (forAll_keep _ _ _ ?_).trans ?_ | refine (foldl_keep _ ?_ _ _).trans ?_ | refine (needsCell_keep _ _ _ _ ?_).trans ?_ | refine (withGroup_keep _ _ _ _ ?_).trans ?_))
@[simp] theorem pruneAct_keep (p : PruneSt) (s : State) : (pruneAct p s).2.keep = s.keep := by (unfold pruneAct; split <;> first | with_reducible rfl | with_reducible exact keep_mk .. | (simp only [apply_ite State.keep, ite_self, keep_mk, implies_true, pruneJob_keep, pruneBatch_keep, pruneItem_keep, pruneFlowAct_keep, pruneAccess_keep, pruneQueue_keep, pruneWhole_keep]))
@[simp] theorem pruneEnd_keep (p : PruneSt) (elapsed : Nat) (s : State) : (pruneEnd p elapsed s).keep = s.keep := by (unfold pruneEnd; try dsimp only; repeat' (first | with_reducible rfl | with_reducible exact keep_mk .. | split | intro _ | (simp only [apply_ite State.keep, ite_self, keep_mk, implies_true, replyNow_keep, onChip_keep]) | refine (forAll_keep _ _ _ ?_).trans ?_))
@[simp] theorem startPrunes_keep (n : Nat) (s : State) : (startPrunes n s).keep = s.keep := by 
  induction n generalizing s with
  | zero => rfl
  | succ n ih =>
    unfold startPrunes
    split
    · rfl
    · rename_i p r _
      have h := pruneAct_keep p s
      revert h
      rcases pruneAct p s with ⟨res, t⟩
      intro h
      dsimp only [drawFree] at h ⊢
      split
      · exact h
      · exact (ih _).trans ((pruneEnd_keep _ _ _).trans h)
@[simp] theorem requestPrune_keep (p : PruneSt) (s : State) : (requestPrune p s).keep = s.keep := by (simp only [requestPrune, apply_ite State.keep, ite_self, keep_mk, implies_true, onChip_keep, startPrunes_keep])
@[simp] theorem firmwarePrune_keep (kind region index : Nat) (s : State) : (firmwarePrune kind region index s).keep = s.keep := by (simp only [firmwarePrune, apply_ite State.keep, ite_self, keep_mk, implies_true, acked_keep, event_keep, requestPrune_keep])
@[simp] theorem endPrunedJob_keep (p : PruneSt) (s : State) : (endPrunedJob p s).keep = s.keep := by (simp only [endPrunedJob, apply_ite State.keep, ite_self, keep_mk, implies_true, startNext_keep, onProb_keep])
@[simp] theorem endPrunedAccess_keep (p : PruneSt) (bound : Bool) (s : State) : (endPrunedAccess p bound s).keep = s.keep := by (unfold endPrunedAccess; repeat' (first | with_reducible rfl | with_reducible exact keep_mk .. | (simp only [apply_ite State.keep, ite_self, keep_mk, implies_true, hangAccess_keep, errorToken_keep, xFinish_keep]) | (split; skip) | intro _ | refine (forAll_keep _ _ _ ?_).trans ?_ | refine (foldl_keep _ ?_ _ _).trans ?_ | refine (needsCell_keep _ _ _ _ ?_).trans ?_ | refine (withGroup_keep _ _ _ _ ?_).trans ?_))
@[simp] theorem pruneComplete_keep (signed : Bool) (elapsed : Nat) (bound : Bool) (s : State) : (pruneComplete signed elapsed bound s).keep = s.keep := by (unfold pruneComplete; split <;> first | with_reducible rfl | with_reducible exact keep_mk .. | (simp only [apply_ite State.keep, ite_self, keep_mk, implies_true, onChip_keep, endPrunedAccess_keep, endPrunedJob_keep, forAll_keep, pruneEnd_keep, schedule_keep, startPrunes_keep]))

/-! ### Load -/

@[simp] theorem loadChip_keep (s : State) : (loadChip s).keep = s.keep := by (simp only [loadChip, apply_ite State.keep, ite_self, keep_mk, implies_true, onChip_keep])
@[simp] theorem loadTime_keep (s : State) : (loadTime s).keep = s.keep := by (simp only [loadTime, apply_ite State.keep, ite_self, keep_mk, implies_true, onTime_keep])
@[simp] theorem loadVreg_keep (s : State) : (loadVreg s).keep = s.keep := by (simp only [loadVreg, apply_ite State.keep, ite_self, keep_mk, implies_true, vregSend_keep])
@[simp] theorem loadRing_keep (s : State) : (loadRing s).keep = s.keep := by (simp only [loadRing, apply_ite State.keep, ite_self, keep_mk, implies_true])
@[simp] theorem loadAxio_keep (s : State) : (loadAxio s).keep = s.keep := by (simp only [loadAxio, apply_ite State.keep, ite_self, keep_mk, implies_true])
@[simp] theorem loadMot_keep (s : State) : (loadMot s).keep = s.keep := by (simp only [loadMot, apply_ite State.keep, ite_self, keep_mk, implies_true])
@[simp] theorem loadSol_keep (s : State) : (loadSol s).keep = s.keep := by (simp only [loadSol, apply_ite State.keep, ite_self, keep_mk, implies_true])
@[simp] theorem loadTrl_keep (s : State) : (loadTrl s).keep = s.keep := by (simp only [loadTrl, apply_ite State.keep, ite_self, keep_mk, implies_true])
@[simp] theorem loadHost_keep (s : State) : (loadHost s).keep = s.keep := by (simp only [loadHost, apply_ite State.keep, ite_self, keep_mk, implies_true])
@[simp] theorem loadSaf_keep (s : State) : (loadSaf s).keep = s.keep := by (simp only [loadSaf, apply_ite State.keep, ite_self, keep_mk, implies_true, onSaf_keep])
@[simp] theorem loadAll_keep (s : State) : (loadAll s).keep = s.keep := by (simp only [loadAll, apply_ite State.keep, ite_self, keep_mk, implies_true, loadSaf_keep, loadHost_keep, loadTrl_keep, loadSol_keep, loadMot_keep, loadAxio_keep, loadRing_keep, loadVreg_keep, loadTime_keep, loadChip_keep])
@[simp] theorem loadRegion_keep (r : Region) (s : State) : (loadRegion r s).keep = s.keep := by (unfold loadRegion; split <;> first | with_reducible rfl | with_reducible exact keep_mk .. | (simp only [apply_ite State.keep, ite_self, keep_mk, implies_true, loadRing_keep, loadAxio_keep, loadMot_keep, loadSol_keep, loadTrl_keep, loadHost_keep]))
@[simp] theorem copyAreas_pending (s : State) : (copyAreas s).pending = s.pending := by (unfold copyAreas; repeat' (first | with_reducible rfl | (simp only [apply_ite State.pending, ite_self, implies_true]) | (split; skip) | intro _ | refine (forAll_pending _ _ _ ?_).trans ?_ | refine (foldl_keep _ ?_ _ _).trans ?_ | refine (needsCell_keep _ _ _ _ ?_).trans ?_ | refine (withGroup_keep _ _ _ _ ?_).trans ?_))
@[simp] theorem copyAreas_fuse (s : State) : (copyAreas s).fuse = s.fuse := by (unfold copyAreas; repeat' (first | with_reducible rfl | (simp only [apply_ite State.fuse, ite_self, implies_true]) | (split; skip) | intro _ | refine (forAll_fuse _ _ _ ?_).trans ?_ | refine (foldl_keep _ ?_ _ _).trans ?_ | refine (needsCell_keep _ _ _ _ ?_).trans ?_ | refine (withGroup_keep _ _ _ _ ?_).trans ?_))
@[simp] theorem copyAreas_flash (s : State) : (copyAreas s).flash = s.flash := by (unfold copyAreas; repeat' (first | with_reducible rfl | (simp only [apply_ite State.flash, ite_self, implies_true]) | (split; skip) | intro _ | refine (forAll_flash _ _ _ ?_).trans ?_ | refine (foldl_keep _ ?_ _ _).trans ?_ | refine (needsCell_keep _ _ _ _ ?_).trans ?_ | refine (withGroup_keep _ _ _ _ ?_).trans ?_))
@[simp] theorem copyAreas_conf (s : State) : (copyAreas s).conf = s.conf := by (unfold copyAreas; repeat' (first | with_reducible rfl | (simp only [apply_ite State.conf, ite_self, implies_true]) | (split; skip) | intro _ | refine (forAll_conf _ _ _ ?_).trans ?_ | refine (foldl_keep _ ?_ _ _).trans ?_ | refine (needsCell_keep _ _ _ _ ?_).trans ?_ | refine (withGroup_keep _ _ _ _ ?_).trans ?_))
@[simp] theorem copyAreas_image (s : State) : (copyAreas s).image = s.image := by (unfold copyAreas; repeat' (first | with_reducible rfl | (simp only [apply_ite State.image, ite_self, implies_true]) | (split; skip) | intro _ | refine (forAll_image _ _ _ ?_).trans ?_ | refine (foldl_keep _ ?_ _ _).trans ?_ | refine (needsCell_keep _ _ _ _ ?_).trans ?_ | refine (withGroup_keep _ _ _ _ ?_).trans ?_))
@[simp] theorem blackboxProgrammed_pending (ok : Bool) (s : State) : (blackboxProgrammed ok s).pending = s.pending := by (unfold blackboxProgrammed; repeat' (first | with_reducible rfl | (simp only [apply_ite State.pending, ite_self, implies_true, keep_pending (onChip_keep _ _), keep_pending (event_keep _ _ _)]) | (split; skip) | intro _ | refine (forAll_pending _ _ _ ?_).trans ?_ | refine (foldl_keep _ ?_ _ _).trans ?_ | refine (needsCell_keep _ _ _ _ ?_).trans ?_ | refine (withGroup_keep _ _ _ _ ?_).trans ?_))
@[simp] theorem blackboxProgrammed_fuse (ok : Bool) (s : State) : (blackboxProgrammed ok s).fuse = s.fuse := by (unfold blackboxProgrammed; repeat' (first | with_reducible rfl | (simp only [apply_ite State.fuse, ite_self, implies_true, keep_fuse (onChip_keep _ _), keep_fuse (event_keep _ _ _)]) | (split; skip) | intro _ | refine (forAll_fuse _ _ _ ?_).trans ?_ | refine (foldl_keep _ ?_ _ _).trans ?_ | refine (needsCell_keep _ _ _ _ ?_).trans ?_ | refine (withGroup_keep _ _ _ _ ?_).trans ?_))
@[simp] theorem blackboxProgrammed_flash (ok : Bool) (s : State) : (blackboxProgrammed ok s).flash = s.flash := by (unfold blackboxProgrammed; repeat' (first | with_reducible rfl | (simp only [apply_ite State.flash, ite_self, implies_true, keep_flash (onChip_keep _ _), keep_flash (event_keep _ _ _)]) | (split; skip) | intro _ | refine (forAll_flash _ _ _ ?_).trans ?_ | refine (foldl_keep _ ?_ _ _).trans ?_ | refine (needsCell_keep _ _ _ _ ?_).trans ?_ | refine (withGroup_keep _ _ _ _ ?_).trans ?_))
@[simp] theorem blackboxProgrammed_conf (ok : Bool) (s : State) : (blackboxProgrammed ok s).conf = s.conf := by (unfold blackboxProgrammed; repeat' (first | with_reducible rfl | (simp only [apply_ite State.conf, ite_self, implies_true, keep_conf (onChip_keep _ _), keep_conf (event_keep _ _ _)]) | (split; skip) | intro _ | refine (forAll_conf _ _ _ ?_).trans ?_ | refine (foldl_keep _ ?_ _ _).trans ?_ | refine (needsCell_keep _ _ _ _ ?_).trans ?_ | refine (withGroup_keep _ _ _ _ ?_).trans ?_))
@[simp] theorem blackboxProgrammed_image (ok : Bool) (s : State) : (blackboxProgrammed ok s).image = s.image := by (unfold blackboxProgrammed; repeat' (first | with_reducible rfl | (simp only [apply_ite State.image, ite_self, implies_true, keep_image (onChip_keep _ _), keep_image (event_keep _ _ _)]) | (split; skip) | intro _ | refine (forAll_image _ _ _ ?_).trans ?_ | refine (foldl_keep _ ?_ _ _).trans ?_ | refine (needsCell_keep _ _ _ _ ?_).trans ?_ | refine (withGroup_keep _ _ _ _ ?_).trans ?_))

end Sys2Proof.Machine
end

