-- ==== Sys2Proof/Laws/KeepDevice.lean ====
section
/-! SUPPORT. KeepDevice.lean: what start, commands, pair, tick and register access leave as it is. -/

set_option linter.all false

namespace Sys2Proof.Machine

/-! ### Start -/

@[simp] theorem onSlot_keep (b : Bool) (x : SlotSt) (s : State) : (onSlot b x s).keep = s.keep := by (simp only [onSlot, apply_ite State.keep, ite_self, keep_mk, implies_true, onChip_keep])
@[simp] theorem readHeader_keep (b : Bool) (s : State) : (readHeader b s).keep = s.keep := by (simp only [readHeader, apply_ite State.keep, ite_self, keep_mk, implies_true, onSlot_keep, event_keep])
@[simp] theorem checkSlots_keep (v : List Bool) (l : List Bool) (s : State) : (checkSlots v l s).2.keep = s.keep := by 
  induction l generalizing s with
  | nil => rfl
  | cons b r ih =>
    unfold checkSlots
    split
    · exact ih s
    · dsimp only
      split
      · exact onSlot_keep _ _ _
      · exact (ih _).trans ((event_keep _ _ _).trans (onSlot_keep _ _ _))
@[simp] theorem enterNoImage_keep (s : State) : (enterNoImage s).keep = s.keep := by (simp only [enterNoImage, apply_ite State.keep, ite_self, keep_mk, implies_true, bbTrigger_keep, event_keep, onChip_keep])
@[simp] theorem takeImage_pending (b pairId : Bool) (s : State) : (takeImage b pairId s).pending = s.pending := by (unfold takeImage; repeat' (first | with_reducible rfl | (simp only [apply_ite State.pending, ite_self, implies_true, keep_pending (onChip_keep _ _), keep_pending (event_keep _ _ _)]) | (split; skip) | intro _ | refine (forAll_pending _ _ _ ?_).trans ?_ | refine (foldl_keep _ ?_ _ _).trans ?_ | refine (needsCell_keep _ _ _ _ ?_).trans ?_ | refine (withGroup_keep _ _ _ _ ?_).trans ?_))
@[simp] theorem takeImage_fuse (b pairId : Bool) (s : State) : (takeImage b pairId s).fuse = s.fuse := by (unfold takeImage; repeat' (first | with_reducible rfl | (simp only [apply_ite State.fuse, ite_self, implies_true, keep_fuse (onChip_keep _ _), keep_fuse (event_keep _ _ _)]) | (split; skip) | intro _ | refine (forAll_fuse _ _ _ ?_).trans ?_ | refine (foldl_keep _ ?_ _ _).trans ?_ | refine (needsCell_keep _ _ _ _ ?_).trans ?_ | refine (withGroup_keep _ _ _ _ ?_).trans ?_))
@[simp] theorem takeImage_flash (b pairId : Bool) (s : State) : (takeImage b pairId s).flash = s.flash := by (unfold takeImage; repeat' (first | with_reducible rfl | (simp only [apply_ite State.flash, ite_self, implies_true, keep_flash (onChip_keep _ _), keep_flash (event_keep _ _ _)]) | (split; skip) | intro _ | refine (forAll_flash _ _ _ ?_).trans ?_ | refine (foldl_keep _ ?_ _ _).trans ?_ | refine (needsCell_keep _ _ _ _ ?_).trans ?_ | refine (withGroup_keep _ _ _ _ ?_).trans ?_))
@[simp] theorem takeImage_conf (b pairId : Bool) (s : State) : (takeImage b pairId s).conf = s.conf := by (unfold takeImage; repeat' (first | with_reducible rfl | (simp only [apply_ite State.conf, ite_self, implies_true, keep_conf (onChip_keep _ _), keep_conf (event_keep _ _ _)]) | (split; skip) | intro _ | refine (forAll_conf _ _ _ ?_).trans ?_ | refine (foldl_keep _ ?_ _ _).trans ?_ | refine (needsCell_keep _ _ _ _ ?_).trans ?_ | refine (withGroup_keep _ _ _ _ ?_).trans ?_))
@[simp] theorem takeImage_mem (b pairId : Bool) (s : State) : (takeImage b pairId s).mem = s.mem := by (unfold takeImage; repeat' (first | with_reducible rfl | (simp only [apply_ite State.mem, ite_self, implies_true, keep_mem (onChip_keep _ _), keep_mem (event_keep _ _ _)]) | (split; skip) | intro _ | refine (forAll_mem _ _ _ ?_).trans ?_ | refine (foldl_keep _ ?_ _ _).trans ?_ | refine (needsCell_keep _ _ _ _ ?_).trans ?_ | refine (withGroup_keep _ _ _ _ ?_).trans ?_))
@[simp] theorem selfTestFailure_keep (f : Region × Nat × Nat) (s : State) : (selfTestFailure f s).keep = s.keep := by (simp only [selfTestFailure, apply_ite State.keep, ite_self, keep_mk, implies_true, sliceFault_keep, spareTakeover_keep, retireEdge_keep])
@[simp] theorem selfTests_keep (failed : List (Region × Nat × Nat)) (s : State) : (selfTests failed s).keep = s.keep := by (simp only [selfTests, apply_ite State.keep, ite_self, keep_mk, implies_true, forAll_keep, selfTestFailure_keep, enterNoImage_keep, onSlot_keep])
@[simp] theorem startRings_keep (s : State) : (startRings s).keep = s.keep := by (simp only [startRings, apply_ite State.keep, ite_self, keep_mk, implies_true, onChip_keep])
@[simp] theorem enterStep8_keep (s : State) : (enterStep8 s).keep = s.keep := by (simp only [enterStep8, apply_ite State.keep, ite_self, keep_mk, implies_true, onChip_keep, startRings_keep])
@[simp] theorem lockReached_keep (s : State) : (lockReached s).keep = s.keep := by (simp only [lockReached, apply_ite State.keep, ite_self, keep_mk, implies_true, startRings_keep])
@[simp] theorem tlockwaitExpiry_keep (s : State) : (tlockwaitExpiry s).keep = s.keep := by (simp only [tlockwaitExpiry, apply_ite State.keep, ite_self, keep_mk, implies_true, event_keep, startRings_keep])
@[simp] theorem resetTo_pending (kind : Nat) (flash : Option Flash) (s : State) : (resetTo kind flash s).pending = s.pending := by (unfold resetTo; repeat' (first | with_reducible rfl | (simp only [apply_ite State.pending, ite_self, implies_true]) | (split; skip) | intro _ | refine (forAll_pending _ _ _ ?_).trans ?_ | refine (foldl_keep _ ?_ _ _).trans ?_ | refine (needsCell_keep _ _ _ _ ?_).trans ?_ | refine (withGroup_keep _ _ _ _ ?_).trans ?_))
@[simp] theorem resetTo_fuse (kind : Nat) (flash : Option Flash) (s : State) : (resetTo kind flash s).fuse = s.fuse := by (unfold resetTo; repeat' (first | with_reducible rfl | (simp only [apply_ite State.fuse, ite_self, implies_true]) | (split; skip) | intro _ | refine (forAll_fuse _ _ _ ?_).trans ?_ | refine (foldl_keep _ ?_ _ _).trans ?_ | refine (needsCell_keep _ _ _ _ ?_).trans ?_ | refine (withGroup_keep _ _ _ _ ?_).trans ?_))
@[simp] theorem resetTo_conf (kind : Nat) (flash : Option Flash) (s : State) : (resetTo kind flash s).conf = s.conf := by (unfold resetTo; repeat' (first | with_reducible rfl | (simp only [apply_ite State.conf, ite_self, implies_true]) | (split; skip) | intro _ | refine (forAll_conf _ _ _ ?_).trans ?_ | refine (foldl_keep _ ?_ _ _).trans ?_ | refine (needsCell_keep _ _ _ _ ?_).trans ?_ | refine (withGroup_keep _ _ _ _ ?_).trans ?_))
@[simp] theorem powerOnReset_pending (flash : Option Flash) (s : State) : (powerOnReset flash s).pending = s.pending := by (unfold powerOnReset; repeat' (first | with_reducible rfl | (simp only [apply_ite State.pending, ite_self, implies_true, resetTo_pending]) | (split; skip) | intro _ | refine (forAll_pending _ _ _ ?_).trans ?_ | refine (foldl_keep _ ?_ _ _).trans ?_ | refine (needsCell_keep _ _ _ _ ?_).trans ?_ | refine (withGroup_keep _ _ _ _ ?_).trans ?_))
@[simp] theorem powerOnReset_fuse (flash : Option Flash) (s : State) : (powerOnReset flash s).fuse = s.fuse := by (unfold powerOnReset; repeat' (first | with_reducible rfl | (simp only [apply_ite State.fuse, ite_self, implies_true, resetTo_fuse]) | (split; skip) | intro _ | refine (forAll_fuse _ _ _ ?_).trans ?_ | refine (foldl_keep _ ?_ _ _).trans ?_ | refine (needsCell_keep _ _ _ _ ?_).trans ?_ | refine (withGroup_keep _ _ _ _ ?_).trans ?_))
@[simp] theorem powerOnReset_conf (flash : Option Flash) (s : State) : (powerOnReset flash s).conf = s.conf := by (unfold powerOnReset; repeat' (first | with_reducible rfl | (simp only [apply_ite State.conf, ite_self, implies_true, resetTo_conf]) | (split; skip) | intro _ | refine (forAll_conf _ _ _ ?_).trans ?_ | refine (foldl_keep _ ?_ _ _).trans ?_ | refine (needsCell_keep _ _ _ _ ?_).trans ?_ | refine (withGroup_keep _ _ _ _ ?_).trans ?_))
@[simp] theorem externalReset_pending (flash : Option Flash) (s : State) : (externalReset flash s).pending = s.pending := by (unfold externalReset; repeat' (first | with_reducible rfl | (simp only [apply_ite State.pending, ite_self, implies_true, resetTo_pending]) | (split; skip) | intro _ | refine (forAll_pending _ _ _ ?_).trans ?_ | refine (foldl_keep _ ?_ _ _).trans ?_ | refine (needsCell_keep _ _ _ _ ?_).trans ?_ | refine (withGroup_keep _ _ _ _ ?_).trans ?_))
@[simp] theorem externalReset_fuse (flash : Option Flash) (s : State) : (externalReset flash s).fuse = s.fuse := by (unfold externalReset; repeat' (first | with_reducible rfl | (simp only [apply_ite State.fuse, ite_self, implies_true, resetTo_fuse]) | (split; skip) | intro _ | refine (forAll_fuse _ _ _ ?_).trans ?_ | refine (foldl_keep _ ?_ _ _).trans ?_ | refine (needsCell_keep _ _ _ _ ?_).trans ?_ | refine (withGroup_keep _ _ _ _ ?_).trans ?_))
@[simp] theorem externalReset_conf (flash : Option Flash) (s : State) : (externalReset flash s).conf = s.conf := by (unfold externalReset; repeat' (first | with_reducible rfl | (simp only [apply_ite State.conf, ite_self, implies_true, resetTo_conf]) | (split; skip) | intro _ | refine (forAll_conf _ _ _ ?_).trans ?_ | refine (foldl_keep _ ?_ _ _).trans ?_ | refine (needsCell_keep _ _ _ _ ?_).trans ?_ | refine (withGroup_keep _ _ _ _ ?_).trans ?_))
@[simp] theorem resetBegin_pending (s : State) : (resetBegin s).pending = s.pending := by (unfold resetBegin; repeat' (first | with_reducible rfl | (simp only [apply_ite State.pending, ite_self, implies_true, resetTo_pending]) | (split; skip) | intro _ | refine (forAll_pending _ _ _ ?_).trans ?_ | refine (foldl_keep _ ?_ _ _).trans ?_ | refine (needsCell_keep _ _ _ _ ?_).trans ?_ | refine (withGroup_keep _ _ _ _ ?_).trans ?_))
@[simp] theorem resetBegin_fuse (s : State) : (resetBegin s).fuse = s.fuse := by (unfold resetBegin; repeat' (first | with_reducible rfl | (simp only [apply_ite State.fuse, ite_self, implies_true, resetTo_fuse]) | (split; skip) | intro _ | refine (forAll_fuse _ _ _ ?_).trans ?_ | refine (foldl_keep _ ?_ _ _).trans ?_ | refine (needsCell_keep _ _ _ _ ?_).trans ?_ | refine (withGroup_keep _ _ _ _ ?_).trans ?_))
@[simp] theorem resetBegin_conf (s : State) : (resetBegin s).conf = s.conf := by (unfold resetBegin; repeat' (first | with_reducible rfl | (simp only [apply_ite State.conf, ite_self, implies_true, resetTo_conf]) | (split; skip) | intro _ | refine (forAll_conf _ _ _ ?_).trans ?_ | refine (foldl_keep _ ?_ _ _).trans ?_ | refine (needsCell_keep _ _ _ _ ?_).trans ?_ | refine (withGroup_keep _ _ _ _ ?_).trans ?_))
@[simp] theorem wdogKick_keep (v : BitVec 8) (s : State) : (wdogKick v s).keep = s.keep := by (simp only [wdogKick, apply_ite State.keep, ite_self, keep_mk, implies_true, acked_keep, onChip_keep])
@[simp] theorem wdogExpiry_keep (s : State) : (wdogExpiry s).keep = s.keep := by (simp only [wdogExpiry, apply_ite State.keep, ite_self, keep_mk, implies_true, onChip_keep, escalate_keep, bbTrigger_keep, latchA_keep, event_keep])
@[simp] theorem wdogReset_pending (s : State) : (wdogReset s).pending = s.pending := by (unfold wdogReset; repeat' (first | with_reducible rfl | (simp only [apply_ite State.pending, ite_self, implies_true, resetTo_pending]) | (split; skip) | intro _ | refine (forAll_pending _ _ _ ?_).trans ?_ | refine (foldl_keep _ ?_ _ _).trans ?_ | refine (needsCell_keep _ _ _ _ ?_).trans ?_ | refine (withGroup_keep _ _ _ _ ?_).trans ?_))
@[simp] theorem wdogReset_fuse (s : State) : (wdogReset s).fuse = s.fuse := by (unfold wdogReset; repeat' (first | with_reducible rfl | (simp only [apply_ite State.fuse, ite_self, implies_true, resetTo_fuse]) | (split; skip) | intro _ | refine (forAll_fuse _ _ _ ?_).trans ?_ | refine (foldl_keep _ ?_ _ _).trans ?_ | refine (needsCell_keep _ _ _ _ ?_).trans ?_ | refine (withGroup_keep _ _ _ _ ?_).trans ?_))
@[simp] theorem wdogReset_conf (s : State) : (wdogReset s).conf = s.conf := by (unfold wdogReset; repeat' (first | with_reducible rfl | (simp only [apply_ite State.conf, ite_self, implies_true, resetTo_conf]) | (split; skip) | intro _ | refine (forAll_conf _ _ _ ?_).trans ?_ | refine (foldl_keep _ ?_ _ _).trans ?_ | refine (needsCell_keep _ _ _ _ ?_).trans ?_ | refine (withGroup_keep _ _ _ _ ?_).trans ?_))
@[simp] theorem stopForPark_keep (s : State) : (stopForPark s).keep = s.keep := by (simp only [stopForPark, apply_ite State.keep, ite_self, keep_mk, implies_true])
@[simp] theorem enterPark_keep (s : State) : (enterPark s).keep = s.keep := by (simp only [enterPark, apply_ite State.keep, ite_self, keep_mk, implies_true, stopForPark_keep, onChip_keep])
@[simp] theorem enterDoze_keep (s : State) : (enterDoze s).keep = s.keep := by (simp only [enterDoze, apply_ite State.keep, ite_self, keep_mk, implies_true, stopForPark_keep, onChip_keep])
@[simp] theorem reformRings_keep (s : State) : (reformRings s).keep = s.keep := by (simp only [reformRings, apply_ite State.keep, ite_self, keep_mk, implies_true])
@[simp] theorem enterRun_keep (s : State) : (enterRun s).keep = s.keep := by (simp only [enterRun, apply_ite State.keep, ite_self, keep_mk, implies_true, onChip_keep, reformRings_keep, takeCheckpoint_keep])
@[simp] theorem powerEdge_keep (s : State) : (powerEdge s).keep = s.keep := by (unfold powerEdge; split <;> first | with_reducible rfl | with_reducible exact keep_mk .. | (simp only [apply_ite State.keep, ite_self, keep_mk, implies_true, enterPark_keep, enterDoze_keep, enterRun_keep]))
@[simp] theorem startRestart_keep (s : State) : (startRestart s).keep = s.keep := by (unfold startRestart; try dsimp only; repeat' (first | with_reducible rfl | with_reducible exact keep_mk .. | split | intro _ | (simp only [apply_ite State.keep, ite_self, keep_mk, implies_true, stopRegion_keep, onRegion_keep]) | refine (forAll_keep _ _ _ ?_).trans ?_))
@[simp] theorem requestRestart_keep (id : Nat) (o : Option Origin) (s : State) : (requestRestart id o s).keep = s.keep := by (simp only [requestRestart, apply_ite State.keep, ite_self, keep_mk, implies_true, onChip_keep, startRestart_keep])
@[simp] theorem regionRestart_keep (id : Nat) (s : State) : (regionRestart id s).keep = s.keep := by (simp only [regionRestart, apply_ite State.keep, ite_self, keep_mk, implies_true, acked_keep, requestRestart_keep, event_keep, onChip_keep])
@[simp] theorem afterReload_keep (r : Region) (s : State) : (afterReload r s).keep = s.keep := by (simp only [afterReload, apply_ite State.keep, ite_self, keep_mk, implies_true, reformRings_keep])
@[simp] theorem regionRestartDone_keep (s : State) : (regionRestartDone s).keep = s.keep := by (unfold regionRestartDone; try dsimp only; repeat' (first | with_reducible rfl | with_reducible exact keep_mk .. | split | intro _ | (simp only [apply_ite State.keep, ite_self, keep_mk, implies_true, afterReload_keep, loadRegion_keep, onRegion_keep, startRestart_keep, event_keep, onChip_keep]) | refine (forAll_keep _ _ _ ?_).trans ?_))
@[simp] theorem testModeEntry_pending (ok : Bool) (s : State) : (testModeEntry ok s).pending = s.pending := by (unfold testModeEntry; repeat' (first | with_reducible rfl | (simp only [apply_ite State.pending, ite_self, implies_true, keep_pending (onChip_keep _ _)]) | (split; skip) | intro _ | refine (forAll_pending _ _ _ ?_).trans ?_ | refine (foldl_keep _ ?_ _ _).trans ?_ | refine (needsCell_keep _ _ _ _ ?_).trans ?_ | refine (withGroup_keep _ _ _ _ ?_).trans ?_))
@[simp] theorem testModeEntry_flash (ok : Bool) (s : State) : (testModeEntry ok s).flash = s.flash := by (unfold testModeEntry; repeat' (first | with_reducible rfl | (simp only [apply_ite State.flash, ite_self, implies_true, keep_flash (onChip_keep _ _)]) | (split; skip) | intro _ | refine (forAll_flash _ _ _ ?_).trans ?_ | refine (foldl_keep _ ?_ _ _).trans ?_ | refine (needsCell_keep _ _ _ _ ?_).trans ?_ | refine (withGroup_keep _ _ _ _ ?_).trans ?_))
@[simp] theorem testModeEntry_conf (ok : Bool) (s : State) : (testModeEntry ok s).conf = s.conf := by (unfold testModeEntry; repeat' (first | with_reducible rfl | (simp only [apply_ite State.conf, ite_self, implies_true, keep_conf (onChip_keep _ _)]) | (split; skip) | intro _ | refine (forAll_conf _ _ _ ?_).trans ?_ | refine (foldl_keep _ ?_ _ _).trans ?_ | refine (needsCell_keep _ _ _ _ ?_).trans ?_ | refine (withGroup_keep _ _ _ _ ?_).trans ?_))
@[simp] theorem testModeEntry_image (ok : Bool) (s : State) : (testModeEntry ok s).image = s.image := by (unfold testModeEntry; repeat' (first | with_reducible rfl | (simp only [apply_ite State.image, ite_self, implies_true, keep_image (onChip_keep _ _)]) | (split; skip) | intro _ | refine (forAll_image _ _ _ ?_).trans ?_ | refine (foldl_keep _ ?_ _ _).trans ?_ | refine (needsCell_keep _ _ _ _ ?_).trans ?_ | refine (withGroup_keep _ _ _ _ ?_).trans ?_))
@[simp] theorem testModeEntry_mem (ok : Bool) (s : State) : (testModeEntry ok s).mem = s.mem := by (unfold testModeEntry; repeat' (first | with_reducible rfl | (simp only [apply_ite State.mem, ite_self, implies_true, keep_mem (onChip_keep _ _)]) | (split; skip) | intro _ | refine (forAll_mem _ _ _ ?_).trans ?_ | refine (foldl_keep _ ?_ _ _).trans ?_ | refine (needsCell_keep _ _ _ _ ?_).trans ?_ | refine (withGroup_keep _ _ _ _ ?_).trans ?_))

/-! ### Commands -/

@[simp] theorem duplicate_keep (net : Net) (d : Datagram) (h : HistEnt) (s : State) : (duplicate net d h s).keep = s.keep := by (unfold duplicate; try dsimp only; repeat' (first | with_reducible rfl | with_reducible exact keep_mk .. | split | intro _ | (simp only [apply_ite State.keep, ite_self, keep_mk, implies_true, onHost_keep, sendReplyOn_keep, onKey_keep]) | refine (forAll_keep _ _ _ ?_).trans ?_))
@[simp] theorem passStage1_keep (net : Net) (d : Datagram) (now : Nat) (s : State) : (passStage1 net d now s).keep = s.keep := by (simp only [passStage1, apply_ite State.keep, ite_self, keep_mk, implies_true, onKey_keep, onPair_keep, onHost_keep])
@[simp] theorem commandDatagram_keep (net : Net) (d : Datagram) (now : Nat) (s : State) : (commandDatagram net d now s).keep = s.keep := by (unfold commandDatagram; try dsimp only; repeat' (first | with_reducible rfl | with_reducible exact keep_mk .. | split | intro _ | (simp only [apply_ite State.keep, ite_self, keep_mk, implies_true, refuseLimited_keep, duplicate_keep, passStage1_keep]) | refine (forAll_keep _ _ _ ?_).trans ?_))
@[simp] theorem refuse2_keep (c : HeldCmd) (code detail now : Nat) (s : State) : (refuse2 c code detail now s).keep = s.keep := by (simp only [refuse2, apply_ite State.keep, ite_self, keep_mk, implies_true, refuseLimited_keep, replyNow_keep])
@[simp] theorem holdCommand_keep (c : HeldCmd) (now : Nat) (s : State) : (holdCommand c now s).keep = s.keep := by (unfold holdCommand; repeat' (first | with_reducible rfl | with_reducible exact keep_mk .. | (simp only [apply_ite State.keep, ite_self, keep_mk, implies_true, replyNow_keep, refuse2_keep, onHost_keep]) | (split; skip) | intro _ | refine (forAll_keep _ _ _ ?_).trans ?_ | refine (foldl_keep _ ?_ _ _).trans ?_ | refine (needsCell_keep _ _ _ _ ?_).trans ?_ | refine (withGroup_keep _ _ _ _ ?_).trans ?_))
@[simp] theorem verificationDone_keep (now : Nat) (s : State) : (verificationDone now s).keep = s.keep := by (unfold verificationDone; split <;> first | with_reducible rfl | with_reducible exact keep_mk .. | (simp only [apply_ite State.keep, ite_self, keep_mk, implies_true, onHost_keep, refuse2_keep, holdCommand_keep, onKey_keep]))
@[simp] theorem accept_keep (o : Origin) (s : State) : (accept o s).keep = s.keep := by (simp only [accept, apply_ite State.keep, ite_self, keep_mk, implies_true, replyAt18_keep])
@[simp] theorem needsCell_keep (o : Origin) (r : Nat) (s : State) (k : State → State) (h : ∀ t, (k t).keep = t.keep) : (needsCell o r s k).keep = s.keep := by (simp only [needsCell, apply_ite State.keep, ite_self, keep_mk, implies_true, h, replyAt18_keep])
@[simp] theorem withMask_keep (o : Origin) (m : Mask) (s : State) (k : State → State) (h : ∀ t, (k t).keep = t.keep) : (withMask o m s k).keep = s.keep := by (simp only [withMask, apply_ite State.keep, ite_self, keep_mk, implies_true, h, needsCell_keep, replyAt18_keep])
@[simp] theorem withGroup_keep (o : Origin) (g : Nat) (s : State) (k : State → State) (h : ∀ t, (k t).keep = t.keep) : (withGroup o g s k).keep = s.keep := by (simp only [withGroup, apply_ite State.keep, ite_self, keep_mk, implies_true, h, needsCell_keep, replyAt18_keep])
@[simp] theorem query_keep (o : Origin) (s : State) : (query o s).keep = s.keep := by (simp only [query, apply_ite State.keep, ite_self, keep_mk, implies_true, replyAt18_keep, replyNow_keep])
@[simp] theorem segmentCmd_keep (o : Origin) (g : Nat) (segs : List Segment) (s : State) : (segmentCmd o g segs s).keep = s.keep := by (unfold segmentCmd; repeat' (first | with_reducible rfl | with_reducible exact keep_mk .. | (simp only [apply_ite State.keep, ite_self, keep_mk, implies_true, replyAt18_keep, enterSegs_keep, accept_keep]) | (split; skip) | intro _ | refine (forAll_keep _ _ _ ?_).trans ?_ | refine (foldl_keep _ ?_ _ _).trans ?_ | refine (needsCell_keep _ _ _ _ ?_).trans ?_ | refine (withGroup_keep _ _ _ _ ?_).trans ?_))
@[simp] theorem flushCmd_keep (o : Origin) (m : Mask) (s : State) : (flushCmd o m s).keep = s.keep := by (simp only [flushCmd, apply_ite State.keep, ite_self, keep_mk, implies_true, withMask_keep, accept_keep, forAll_keep, flushGroup_keep])
@[simp] theorem haltCmd_keep (o : Origin) (m : Mask) (s : State) : (haltCmd o m s).keep = s.keep := by (simp only [haltCmd, apply_ite State.keep, ite_self, keep_mk, implies_true, withMask_keep, accept_keep, forAll_keep, haltGroup_keep])
@[simp] theorem resumeCmd_keep (o : Origin) (m : Mask) (s : State) : (resumeCmd o m s).keep = s.keep := by (simp only [resumeCmd, apply_ite State.keep, ite_self, keep_mk, implies_true, withMask_keep, accept_keep, forAll_keep, resumeGroup_keep, replyAt18_keep])
@[simp] theorem awaitDecision_keep (o : Origin) (op : Nat) (m : Mask) (s : State) : (awaitDecision o op m s).keep = s.keep := by (simp only [awaitDecision, apply_ite State.keep, ite_self, keep_mk, implies_true, onHost_keep])
@[simp] theorem enableCmd_keep (o : Origin) (m : Mask) (s : State) : (enableCmd o m s).keep = s.keep := by (simp only [enableCmd, apply_ite State.keep, ite_self, keep_mk, implies_true, withMask_keep, replyAt18_keep, awaitDecision_keep, forAll_keep, startEnable_keep])
@[simp] theorem disableCmd_keep (o : Origin) (m : Mask) (s : State) : (disableCmd o m s).keep = s.keep := by (simp only [disableCmd, apply_ite State.keep, ite_self, keep_mk, implies_true, withMask_keep, accept_keep, forAll_keep, disableGroup_keep, replyAt18_keep])
@[simp] theorem overrideCmd_keep (o : Origin) (m : Mask) (ovr : Nat) (s : State) : (overrideCmd o m ovr s).keep = s.keep := by (simp only [overrideCmd, apply_ite State.keep, ite_self, keep_mk, implies_true, withMask_keep, replyAt18_keep, accept_keep, forAll_keep, onGrp_keep])
@[simp] theorem homeLocal_keep (o : Origin) (c : Nat) (s : State) : (homeLocal o c s).keep = s.keep := by (simp only [homeLocal, apply_ite State.keep, ite_self, keep_mk, implies_true, replyAt18_keep, homingStart_keep, accept_keep])
@[simp] theorem homeRemote_keep (o : Origin) (a : Nat) (s : State) : (homeRemote o a s).keep = s.keep := by (simp only [homeRemote, apply_ite State.keep, ite_self, keep_mk, implies_true, replyAt18_keep, accept_keep, onAxis_keep])
@[simp] theorem homeCmd_keep (o : Origin) (a : Nat) (s : State) : (homeCmd o a s).keep = s.keep := by (unfold homeCmd; repeat' (first | with_reducible rfl | with_reducible exact keep_mk .. | (simp only [apply_ite State.keep, ite_self, keep_mk, implies_true, replyAt18_keep, homeRemote_keep, homeLocal_keep]) | (split; skip) | intro _ | refine (forAll_keep _ _ _ ?_).trans ?_ | refine (foldl_keep _ ?_ _ _).trans ?_ | refine (needsCell_keep _ _ _ _ ?_).trans ?_ | refine (withGroup_keep _ _ _ _ ?_).trans ?_))
@[simp] theorem zoneReleaseCmd_keep (o : Origin) (g z : Nat) (s : State) : (zoneReleaseCmd o g z s).keep = s.keep := by (unfold zoneReleaseCmd; repeat' (first | with_reducible rfl | with_reducible exact keep_mk .. | (simp only [apply_ite State.keep, ite_self, keep_mk, implies_true, replyAt18_keep, accept_keep, freeZone_keep]) | (split; skip) | intro _ | refine (forAll_keep _ _ _ ?_).trans ?_ | refine (foldl_keep _ ?_ _ _).trans ?_ | refine (needsCell_keep _ _ _ _ ?_).trans ?_ | refine (withGroup_keep _ _ _ _ ?_).trans ?_))
@[simp] theorem sliceParamCmd_keep (o : Origin) (b sl : Nat) (ws : List (BitVec 24)) (s : State) : (sliceParamCmd o b sl ws s).keep = s.keep := by (simp only [sliceParamCmd, apply_ite State.keep, ite_self, keep_mk, implies_true, needsCell_keep, replyAt18_keep, onSlice_keep, onSpare_keep, accept_keep])
@[simp] theorem stopCmd_keep (o : Origin) (m : Mask) (s : State) : (stopCmd o m s).keep = s.keep := by (simp only [stopCmd, apply_ite State.keep, ite_self, keep_mk, implies_true, accept_keep, withMask_keep, demandStop_keep])
@[simp] theorem ackCmd_keep (o : Origin) (m : Mask) (s : State) : (ackCmd o m s).keep = s.keep := by (simp only [ackCmd, apply_ite State.keep, ite_self, keep_mk, implies_true, withMask_keep, onSaf_keep, awaitDecision_keep, forAll_keep, onSafG_keep])
@[simp] theorem modeCmd_keep (o : Origin) (m : Nat) (s : State) : (modeCmd o m s).keep = s.keep := by (simp only [modeCmd, apply_ite State.keep, ite_self, keep_mk, implies_true, needsCell_keep, replyAt18_keep, awaitDecision_keep, onSaf_keep])
@[simp] theorem confirmCmd_keep (o : Origin) (v : Word) (s : State) : (confirmCmd o v s).keep = s.keep := by (unfold confirmCmd; repeat' (first | with_reducible rfl | with_reducible exact keep_mk .. | (simp only [apply_ite State.keep, ite_self, keep_mk, implies_true, onSaf_keep, replyAt18_keep]) | (split; skip) | intro _ | refine (forAll_keep _ _ _ ?_).trans ?_ | refine (foldl_keep _ ?_ _ _).trans ?_ | refine (needsCell_keep _ _ _ _ ?_).trans ?_ | refine (withGroup_keep _ _ _ _ ?_).trans ?_))
@[simp] theorem confirmationWriteDone_pending (ok : Bool) (s : State) : (confirmationWriteDone ok s).pending = s.pending := by (unfold confirmationWriteDone; repeat' (first | with_reducible rfl | (simp only [apply_ite State.pending, ite_self, implies_true, keep_pending (onSaf_keep _ _), keep_pending (replyNow_keep _ _ _ _ _), keep_pending (event_keep _ _ _)]) | (split; skip) | intro _ | refine (forAll_pending _ _ _ ?_).trans ?_ | refine (foldl_keep _ ?_ _ _).trans ?_ | refine (needsCell_keep _ _ _ _ ?_).trans ?_ | refine (withGroup_keep _ _ _ _ ?_).trans ?_))
@[simp] theorem confirmationWriteDone_fuse (ok : Bool) (s : State) : (confirmationWriteDone ok s).fuse = s.fuse := by (unfold confirmationWriteDone; repeat' (first | with_reducible rfl | (simp only [apply_ite State.fuse, ite_self, implies_true, keep_fuse (onSaf_keep _ _), keep_fuse (replyNow_keep _ _ _ _ _), keep_fuse (event_keep _ _ _)]) | (split; skip) | intro _ | refine (forAll_fuse _ _ _ ?_).trans ?_ | refine (foldl_keep _ ?_ _ _).trans ?_ | refine (needsCell_keep _ _ _ _ ?_).trans ?_ | refine (withGroup_keep _ _ _ _ ?_).trans ?_))
@[simp] theorem confirmationWriteDone_flash (ok : Bool) (s : State) : (confirmationWriteDone ok s).flash = s.flash := by (unfold confirmationWriteDone; repeat' (first | with_reducible rfl | (simp only [apply_ite State.flash, ite_self, implies_true, keep_flash (onSaf_keep _ _), keep_flash (replyNow_keep _ _ _ _ _), keep_flash (event_keep _ _ _)]) | (split; skip) | intro _ | refine (forAll_flash _ _ _ ?_).trans ?_ | refine (foldl_keep _ ?_ _ _).trans ?_ | refine (needsCell_keep _ _ _ _ ?_).trans ?_ | refine (withGroup_keep _ _ _ _ ?_).trans ?_))
@[simp] theorem confirmationWriteDone_image (ok : Bool) (s : State) : (confirmationWriteDone ok s).image = s.image := by (unfold confirmationWriteDone; repeat' (first | with_reducible rfl | (simp only [apply_ite State.image, ite_self, implies_true, keep_image (onSaf_keep _ _), keep_image (replyNow_keep _ _ _ _ _), keep_image (event_keep _ _ _)]) | (split; skip) | intro _ | refine (forAll_image _ _ _ ?_).trans ?_ | refine (foldl_keep _ ?_ _ _).trans ?_ | refine (needsCell_keep _ _ _ _ ?_).trans ?_ | refine (withGroup_keep _ _ _ _ ?_).trans ?_))
@[simp] theorem flowmsgCmd_keep (o : Origin) (f : Nat) (data : List Byte) (s : State) : (flowmsgCmd o f data s).keep = s.keep := by (simp only [flowmsgCmd, apply_ite State.keep, ite_self, keep_mk, implies_true, needsCell_keep, replyAt18_keep, accept_keep, onFlow_keep])
@[simp] theorem mailboxCmd_keep (o : Origin) (q : Nat) (data : List Byte) (s : State) : (mailboxCmd o q data s).keep = s.keep := by (simp only [mailboxCmd, apply_ite State.keep, ite_self, keep_mk, implies_true, needsCell_keep, replyAt18_keep, accept_keep, pushEntry_keep])
@[simp] theorem triggerCmd_keep (o : Origin) (i : Nat) (w : TrigWords) (s : State) : (triggerCmd o i w s).keep = s.keep := by (simp only [triggerCmd, apply_ite State.keep, ite_self, keep_mk, implies_true, needsCell_keep, replyAt18_keep, onTrig_keep, accept_keep, writeTrigger_keep])
@[simp] theorem pruneCmd_keep (o : Origin) (kind region index : Nat) (s : State) : (pruneCmd o kind region index s).keep = s.keep := by (simp only [pruneCmd, apply_ite State.keep, ite_self, keep_mk, implies_true, requestPrune_keep])
@[simp] theorem imageEraseCmd_keep (o : Origin) (ofs len : Nat) (s : State) : (imageEraseCmd o ofs len s).keep = s.keep := by (simp only [imageEraseCmd, apply_ite State.keep, ite_self, keep_mk, implies_true, replyNow_keep, onHost_keep])
@[simp] theorem imageWriteCmd_keep (o : Origin) (ofs : Nat) (data : List Byte) (s : State) : (imageWriteCmd o ofs data s).keep = s.keep := by (simp only [imageWriteCmd, apply_ite State.keep, ite_self, keep_mk, implies_true, replyNow_keep, onHost_keep])
@[simp] theorem putSlot_pending (b : Bool) (im : Option Image) (ps : List (Variant × Image)) (es : List FlashEdit) (s : State) : (putSlot b im ps es s).pending = s.pending := by (unfold putSlot; repeat' (first | with_reducible rfl | (simp only [apply_ite State.pending, ite_self, implies_true]) | (split; skip) | intro _ | refine (forAll_pending _ _ _ ?_).trans ?_ | refine (foldl_keep _ ?_ _ _).trans ?_ | refine (needsCell_keep _ _ _ _ ?_).trans ?_ | refine (withGroup_keep _ _ _ _ ?_).trans ?_))
@[simp] theorem putSlot_fuse (b : Bool) (im : Option Image) (ps : List (Variant × Image)) (es : List FlashEdit) (s : State) : (putSlot b im ps es s).fuse = s.fuse := by (unfold putSlot; repeat' (first | with_reducible rfl | (simp only [apply_ite State.fuse, ite_self, implies_true]) | (split; skip) | intro _ | refine (forAll_fuse _ _ _ ?_).trans ?_ | refine (foldl_keep _ ?_ _ _).trans ?_ | refine (needsCell_keep _ _ _ _ ?_).trans ?_ | refine (withGroup_keep _ _ _ _ ?_).trans ?_))
@[simp] theorem putSlot_conf (b : Bool) (im : Option Image) (ps : List (Variant × Image)) (es : List FlashEdit) (s : State) : (putSlot b im ps es s).conf = s.conf := by (unfold putSlot; repeat' (first | with_reducible rfl | (simp only [apply_ite State.conf, ite_self, implies_true]) | (split; skip) | intro _ | refine (forAll_conf _ _ _ ?_).trans ?_ | refine (foldl_keep _ ?_ _ _).trans ?_ | refine (needsCell_keep _ _ _ _ ?_).trans ?_ | refine (withGroup_keep _ _ _ _ ?_).trans ?_))
@[simp] theorem putSlot_image (b : Bool) (im : Option Image) (ps : List (Variant × Image)) (es : List FlashEdit) (s : State) : (putSlot b im ps es s).image = s.image := by (unfold putSlot; repeat' (first | with_reducible rfl | (simp only [apply_ite State.image, ite_self, implies_true]) | (split; skip) | intro _ | refine (forAll_image _ _ _ ?_).trans ?_ | refine (foldl_keep _ ?_ _ _).trans ?_ | refine (needsCell_keep _ _ _ _ ?_).trans ?_ | refine (withGroup_keep _ _ _ _ ?_).trans ?_))
@[simp] theorem putSlot_mem (b : Bool) (im : Option Image) (ps : List (Variant × Image)) (es : List FlashEdit) (s : State) : (putSlot b im ps es s).mem = s.mem := by (unfold putSlot; repeat' (first | with_reducible rfl | (simp only [apply_ite State.mem, ite_self, implies_true]) | (split; skip) | intro _ | refine (forAll_mem _ _ _ ?_).trans ?_ | refine (foldl_keep _ ?_ _ _).trans ?_ | refine (needsCell_keep _ _ _ _ ?_).trans ?_ | refine (withGroup_keep _ _ _ _ ?_).trans ?_))
@[simp] theorem slotAfter_pending (e : FlashEdit) (s : State) : (slotAfter e s).pending = s.pending := by (unfold slotAfter; repeat' (first | with_reducible rfl | (simp only [apply_ite State.pending, ite_self, implies_true, putSlot_pending]) | (split; skip) | intro _ | refine (forAll_pending _ _ _ ?_).trans ?_ | refine (foldl_keep _ ?_ _ _).trans ?_ | refine (needsCell_keep _ _ _ _ ?_).trans ?_ | refine (withGroup_keep _ _ _ _ ?_).trans ?_))
@[simp] theorem slotAfter_fuse (e : FlashEdit) (s : State) : (slotAfter e s).fuse = s.fuse := by (unfold slotAfter; repeat' (first | with_reducible rfl | (simp only [apply_ite State.fuse, ite_self, implies_true, putSlot_fuse]) | (split; skip) | intro _ | refine (forAll_fuse _ _ _ ?_).trans ?_ | refine (foldl_keep _ ?_ _ _).trans ?_ | refine (needsCell_keep _ _ _ _ ?_).trans ?_ | refine (withGroup_keep _ _ _ _ ?_).trans ?_))
@[simp] theorem slotAfter_conf (e : FlashEdit) (s : State) : (slotAfter e s).conf = s.conf := by (unfold slotAfter; repeat' (first | with_reducible rfl | (simp only [apply_ite State.conf, ite_self, implies_true, putSlot_conf]) | (split; skip) | intro _ | refine (forAll_conf _ _ _ ?_).trans ?_ | refine (foldl_keep _ ?_ _ _).trans ?_ | refine (needsCell_keep _ _ _ _ ?_).trans ?_ | refine (withGroup_keep _ _ _ _ ?_).trans ?_))
@[simp] theorem slotAfter_image (e : FlashEdit) (s : State) : (slotAfter e s).image = s.image := by (unfold slotAfter; repeat' (first | with_reducible rfl | (simp only [apply_ite State.image, ite_self, implies_true, putSlot_image]) | (split; skip) | intro _ | refine (forAll_image _ _ _ ?_).trans ?_ | refine (foldl_keep _ ?_ _ _).trans ?_ | refine (needsCell_keep _ _ _ _ ?_).trans ?_ | refine (withGroup_keep _ _ _ _ ?_).trans ?_))
@[simp] theorem slotAfter_mem (e : FlashEdit) (s : State) : (slotAfter e s).mem = s.mem := by (unfold slotAfter; repeat' (first | with_reducible rfl | (simp only [apply_ite State.mem, ite_self, implies_true, putSlot_mem]) | (split; skip) | intro _ | refine (forAll_mem _ _ _ ?_).trans ?_ | refine (foldl_keep _ ?_ _ _).trans ?_ | refine (needsCell_keep _ _ _ _ ?_).trans ?_ | refine (withGroup_keep _ _ _ _ ?_).trans ?_))
@[simp] theorem flashOpDone_pending (result : Nat) (s : State) : (flashOpDone result s).pending = s.pending := by (unfold flashOpDone; repeat' (first | with_reducible rfl | (simp only [apply_ite State.pending, ite_self, implies_true, keep_pending (onHost_keep _ _), keep_pending (replyNow_keep _ _ _ _ _), keep_pending (event_keep _ _ _), slotAfter_pending]) | (split; skip) | intro _ | refine (forAll_pending _ _ _ ?_).trans ?_ | refine (foldl_keep _ ?_ _ _).trans ?_ | refine (needsCell_keep _ _ _ _ ?_).trans ?_ | refine (withGroup_keep _ _ _ _ ?_).trans ?_))
@[simp] theorem flashOpDone_fuse (result : Nat) (s : State) : (flashOpDone result s).fuse = s.fuse := by (unfold flashOpDone; repeat' (first | with_reducible rfl | (simp only [apply_ite State.fuse, ite_self, implies_true, keep_fuse (onHost_keep _ _), keep_fuse (replyNow_keep _ _ _ _ _), keep_fuse (event_keep _ _ _), slotAfter_fuse]) | (split; skip) | intro _ | refine (forAll_fuse _ _ _ ?_).trans ?_ | refine (foldl_keep _ ?_ _ _).trans ?_ | refine (needsCell_keep _ _ _ _ ?_).trans ?_ | refine (withGroup_keep _ _ _ _ ?_).trans ?_))
@[simp] theorem flashOpDone_conf (result : Nat) (s : State) : (flashOpDone result s).conf = s.conf := by (unfold flashOpDone; repeat' (first | with_reducible rfl | (simp only [apply_ite State.conf, ite_self, implies_true, keep_conf (onHost_keep _ _), keep_conf (replyNow_keep _ _ _ _ _), keep_conf (event_keep _ _ _), slotAfter_conf]) | (split; skip) | intro _ | refine (forAll_conf _ _ _ ?_).trans ?_ | refine (foldl_keep _ ?_ _ _).trans ?_ | refine (needsCell_keep _ _ _ _ ?_).trans ?_ | refine (withGroup_keep _ _ _ _ ?_).trans ?_))
@[simp] theorem flashOpDone_image (result : Nat) (s : State) : (flashOpDone result s).image = s.image := by (unfold flashOpDone; repeat' (first | with_reducible rfl | (simp only [apply_ite State.image, ite_self, implies_true, keep_image (onHost_keep _ _), keep_image (replyNow_keep _ _ _ _ _), keep_image (event_keep _ _ _), slotAfter_image]) | (split; skip) | intro _ | refine (forAll_image _ _ _ ?_).trans ?_ | refine (foldl_keep _ ?_ _ _).trans ?_ | refine (needsCell_keep _ _ _ _ ?_).trans ?_ | refine (withGroup_keep _ _ _ _ ?_).trans ?_))
@[simp] theorem flashOpDone_mem (result : Nat) (s : State) : (flashOpDone result s).mem = s.mem := by (unfold flashOpDone; repeat' (first | with_reducible rfl | (simp only [apply_ite State.mem, ite_self, implies_true, keep_mem (onHost_keep _ _), keep_mem (replyNow_keep _ _ _ _ _), keep_mem (event_keep _ _ _), slotAfter_mem]) | (split; skip) | intro _ | refine (forAll_mem _ _ _ ?_).trans ?_ | refine (foldl_keep _ ?_ _ _).trans ?_ | refine (needsCell_keep _ _ _ _ ?_).trans ?_ | refine (withGroup_keep _ _ _ _ ?_).trans ?_))
@[simp] theorem readCmd_keep (o : Origin) (addr len : Nat) (s : State) : (readCmd o addr len s).keep = s.keep := by (simp only [readCmd, apply_ite State.keep, ite_self, keep_mk, implies_true, replyNow_keep])
@[simp] theorem whenStopped_keep (o : Origin) (m : Mask) (s : State) (k : State → State) (h : ∀ t, (k t).keep = t.keep) : (whenStopped o m s k).keep = s.keep := by (simp only [whenStopped, apply_ite State.keep, ite_self, keep_mk, implies_true, h, replyAt18_keep])
@[simp] theorem resetDeviceCmd_keep (o : Origin) (s : State) : (resetDeviceCmd o s).keep = s.keep := by (simp only [resetDeviceCmd, apply_ite State.keep, ite_self, keep_mk, implies_true, whenStopped_keep, accept_keep, onHost_keep, onChip_keep])
@[simp] theorem resetPowerCmd_keep (o : Origin) (p : PState) (s : State) : (resetPowerCmd o p s).keep = s.keep := by (simp only [resetPowerCmd, apply_ite State.keep, ite_self, keep_mk, implies_true, whenStopped_keep, awaitDecision_keep, onChip_keep])
@[simp] theorem resetRunCmd_keep (o : Origin) (s : State) : (resetRunCmd o s).keep = s.keep := by (simp only [resetRunCmd, apply_ite State.keep, ite_self, keep_mk, implies_true, whenStopped_keep, accept_keep, enterRun_keep, onChip_keep])
@[simp] theorem resetRegionCmd_keep (o : Origin) (kind : Nat) (s : State) : (resetRegionCmd o kind s).keep = s.keep := by (unfold resetRegionCmd; try dsimp only; repeat' (first | with_reducible rfl | with_reducible exact keep_mk .. | split | intro _ | (simp only [apply_ite State.keep, ite_self, keep_mk, implies_true, replyAt18_keep, event_keep, onChip_keep, accept_keep, requestRestart_keep]) | refine (forAll_keep _ _ _ ?_).trans ?_))
@[simp] theorem switchbackCmd_keep (o : Origin) (s : State) : (switchbackCmd o s).keep = s.keep := by (simp only [switchbackCmd, apply_ite State.keep, ite_self, keep_mk, implies_true, replyAt18_keep, accept_keep, onPair_keep])
@[simp] theorem actBody_keep (o : Origin) (b : CmdBody) (s : State) : (actBody o b s).keep = s.keep := by (unfold actBody; split <;> first | with_reducible rfl | with_reducible exact keep_mk .. | (simp only [apply_ite State.keep, ite_self, keep_mk, implies_true, query_keep, segmentCmd_keep, flushCmd_keep, haltCmd_keep, resumeCmd_keep, enableCmd_keep, disableCmd_keep, overrideCmd_keep, homeCmd_keep, zoneReleaseCmd_keep, sliceParamCmd_keep, stopCmd_keep, ackCmd_keep, modeCmd_keep, confirmCmd_keep, flowmsgCmd_keep, mailboxCmd_keep, triggerCmd_keep, pruneCmd_keep, imageEraseCmd_keep, imageWriteCmd_keep, readCmd_keep, resetDeviceCmd_keep, resetPowerCmd_keep, resetRunCmd_keep, resetRegionCmd_keep, switchbackCmd_keep]))
@[simp] theorem countRelease_keep (s : State) : (countRelease s).keep = s.keep := by (simp only [countRelease, apply_ite State.keep, ite_self, keep_mk, implies_true, onHost_keep])
@[simp] theorem releaseCmd_keep (h : HeldCmd) (s : State) : (releaseCmd h s).keep = s.keep := by (simp only [releaseCmd, apply_ite State.keep, ite_self, keep_mk, implies_true, countRelease_keep, noteInput_keep, replyAt18_keep, actBody_keep])
@[simp] theorem releaseCommands_keep (s : State) : (releaseCommands s).keep = s.keep := by (simp only [releaseCommands, apply_ite State.keep, ite_self, keep_mk, implies_true, onHost_keep, forAll_keep, releaseCmd_keep])
@[simp] theorem answerWait_keep (w : Origin × Nat × Mask) (s : State) : (answerWait w s).keep = s.keep := by (simp only [answerWait, apply_ite State.keep, ite_self, keep_mk, implies_true, onChip_keep, onSaf_keep, noteRefusal_keep, sendReply_keep])
@[simp] theorem sendReplies_keep (s : State) : (sendReplies s).keep = s.keep := by (simp only [sendReplies, apply_ite State.keep, ite_self, keep_mk, implies_true, onHost_keep, forAll_keep, answerWait_keep, sendReply_keep])

/-! ### Pair -/

@[simp] theorem driveVote_keep (s : State) : (driveVote s).keep = s.keep := by (simp only [driveVote, apply_ite State.keep, ite_self, keep_mk, implies_true, onPair_keep])
@[simp] theorem setUnfit_keep (c : Nat) (s : State) : (setUnfit c s).keep = s.keep := by (simp only [setUnfit, apply_ite State.keep, ite_self, keep_mk, implies_true, driveVote_keep, onPair_keep])
@[simp] theorem voteReadback_keep (level : Bool) (s : State) : (voteReadback level s).keep = s.keep := by (simp only [voteReadback, apply_ite State.keep, ite_self, keep_mk, implies_true, onPair_keep, classA_keep, setUnfit_keep])
@[simp] theorem peerVote_keep (level : Bool) (s : State) : (peerVote level s).keep = s.keep := by (simp only [peerVote, apply_ite State.keep, ite_self, keep_mk, implies_true, onPair_keep])
@[simp] theorem selftestRound_keep (ok : Bool) (s : State) : (selftestRound ok s).keep = s.keep := by (simp only [selftestRound, apply_ite State.keep, ite_self, keep_mk, implies_true, onPair_keep, setUnfit_keep])
@[simp] theorem formDigest_keep (s : State) : (formDigest s).keep = s.keep := by (simp only [formDigest, apply_ite State.keep, ite_self, keep_mk, implies_true, onPair_keep])
@[simp] theorem inputFrameSend_keep (s : State) : (inputFrameSend s).keep = s.keep := by (simp only [inputFrameSend, apply_ite State.keep, ite_self, keep_mk, implies_true, onPair_keep])
@[simp] theorem inputFrameReceived_keep (f : InputFrame) (s : State) : (inputFrameReceived f s).keep = s.keep := by (simp only [inputFrameReceived, apply_ite State.keep, ite_self, keep_mk, implies_true, onHost_keep, onPair_keep, setUnfit_keep])
@[simp] theorem feedPdus_keep (f : InputFrame) (s : State) : (feedPdus f s).keep = s.keep := by (unfold feedPdus; repeat' (first | with_reducible rfl | with_reducible exact keep_mk .. | (simp only [apply_ite State.keep, ite_self, keep_mk, implies_true, onRx_keep]) | (split; skip) | intro _ | refine (forAll_keep _ _ _ ?_).trans ?_ | refine (foldl_keep _ ?_ _ _).trans ?_ | refine (needsCell_keep _ _ _ _ ?_).trans ?_ | refine (withGroup_keep _ _ _ _ ?_).trans ?_))
@[simp] theorem feedSample_keep (f : InputFrame) (i : Nat) (s : State) : (feedSample f i s).keep = s.keep := by (simp only [feedSample, apply_ite State.keep, ite_self, keep_mk, implies_true, onPair_keep, setUnfit_keep, onLine_keep])
@[simp] theorem skipDigest_keep (s : State) : (skipDigest s).keep = s.keep := by (simp only [skipDigest, apply_ite State.keep, ite_self, keep_mk, implies_true, onPair_keep])
@[simp] theorem compareDigest_keep (f : InputFrame) (s : State) : (compareDigest f s).keep = s.keep := by (simp only [compareDigest, apply_ite State.keep, ite_self, keep_mk, implies_true, driveVote_keep, onPair_keep, event_keep, setUnfit_keep, addB_keep])
@[simp] theorem judgeDigest_keep (f : InputFrame) (s : State) : (judgeDigest f s).keep = s.keep := by (simp only [judgeDigest, apply_ite State.keep, ite_self, keep_mk, implies_true, driveVote_keep, skipDigest_keep, compareDigest_keep])
@[simp] theorem feedMasks_keep (f : InputFrame) (s : State) : (feedMasks f s).keep = s.keep := by (simp only [feedMasks, apply_ite State.keep, ite_self, keep_mk, implies_true, onPair_keep, endB_keep, addB_keep])
@[simp] theorem feedPower_keep (f : InputFrame) (s : State) : (feedPower f s).keep = s.keep := by (unfold feedPower; split <;> first | with_reducible rfl | with_reducible exact keep_mk .. | (simp only [apply_ite State.keep, ite_self, keep_mk, implies_true, onChip_keep]))
@[simp] theorem feedTick_keep (f : InputFrame) (s : State) : (feedTick f s).keep = s.keep := by (simp only [feedTick, apply_ite State.keep, ite_self, keep_mk, implies_true, onPair_keep, forAll_keep, feedSample_keep, feedPdus_keep, feedPower_keep, feedMasks_keep, judgeDigest_keep])
@[simp] theorem unfedTick_keep (s : State) : (unfedTick s).keep = s.keep := by (simp only [unfedTick, apply_ite State.keep, ite_self, keep_mk, implies_true, driveVote_keep, skipDigest_keep, onPair_keep])
@[simp] theorem feedDeadline_keep (s : State) : (feedDeadline s).keep = s.keep := by (unfold feedDeadline; repeat' (first | with_reducible rfl | with_reducible exact keep_mk .. | (simp only [apply_ite State.keep, ite_self, keep_mk, implies_true, trellisEdge_keep, feedTick_keep, unfedTick_keep]) | (split; skip) | intro _ | refine (forAll_keep _ _ _ ?_).trans ?_ | refine (foldl_keep _ ?_ _ _).trans ?_ | refine (needsCell_keep _ _ _ _ ?_).trans ?_ | refine (withGroup_keep _ _ _ _ ?_).trans ?_))
@[simp] theorem forwardFrame_keep (d : Datagram) (now : Nat) (s : State) : (forwardFrame d now s).keep = s.keep := by (simp only [forwardFrame, apply_ite State.keep, ite_self, keep_mk, implies_true, commandDatagram_keep])
@[simp] theorem statusFrameSend_keep (s : State) : (statusFrameSend s).keep = s.keep := by (simp only [statusFrameSend, apply_ite State.keep, ite_self, keep_mk, implies_true, onPair_keep])
@[simp] theorem standbyFitness_keep (bad : Bool) (s : State) : (standbyFitness bad s).keep = s.keep := by (simp only [standbyFitness, apply_ite State.keep, ite_self, keep_mk, implies_true, event_keep, addB_keep, onPair_keep, endB_keep])
@[simp] theorem statusFrameReceived_keep (at_ : Nat) (f : StatusFrame) (s : State) : (statusFrameReceived at_ f s).keep = s.keep := by (simp only [statusFrameReceived, apply_ite State.keep, ite_self, keep_mk, implies_true, onPair_keep, standbyFitness_keep])
@[simp] theorem standbyFitTimeout_keep (s : State) : (standbyFitTimeout s).keep = s.keep := by (simp only [standbyFitTimeout, apply_ite State.keep, ite_self, keep_mk, implies_true, standbyFitness_keep])
@[simp] theorem heartbeatFrame_keep (ccw : Bool) (at_ : Nat) (h : RingHead) (m : Heartbeat) (s : State) : (heartbeatFrame ccw at_ h m s).keep = s.keep := by (simp only [heartbeatFrame, apply_ite State.keep, ite_self, keep_mk, implies_true, badFrame_keep, heard_keep, onPair_keep, passFrame_keep])
@[simp] theorem judgePath_keep (i : Nat) (ok : Bool) (s : State) : (judgePath i ok s).keep = s.keep := by (simp only [judgePath, apply_ite State.keep, ite_self, keep_mk, implies_true, endB_keep, event_keep, addB_keep])
@[simp] theorem pathsGone_keep (s : State) : (pathsGone s).keep = s.keep := by (simp only [pathsGone, apply_ite State.keep, ite_self, keep_mk, implies_true, event_keep, onPair_keep, setUnfit_keep])
@[simp] theorem heartbeatCount_keep (s : State) : (heartbeatCount s).keep = s.keep := by (simp only [heartbeatCount, apply_ite State.keep, ite_self, keep_mk, implies_true, judgePath_keep, onPair_keep, pathsGone_keep])
@[simp] theorem takeRing_keep (r : Nat) (s : State) : (takeRing r s).keep = s.keep := by (simp only [takeRing, apply_ite State.keep, ite_self, keep_mk, implies_true, onRing_keep])
@[simp] theorem takeTime_keep (s : State) : (takeTime s).keep = s.keep := by (simp only [takeTime, apply_ite State.keep, ite_self, keep_mk, implies_true, onTime_keep, slewTo_keep, selectDomain_keep])
@[simp] theorem becomeActive_keep (cause : Nat) (s : State) : (becomeActive cause s).keep = s.keep := by (simp only [becomeActive, apply_ite State.keep, ite_self, keep_mk, implies_true, onPair_keep, takeTime_keep, driveVote_keep, forAll_keep, takeRing_keep, endB_keep])
@[simp] theorem takeover_keep (s : State) : (takeover s).keep = s.keep := by (simp only [takeover, apply_ite State.keep, ite_self, keep_mk, implies_true, event_keep, becomeActive_keep])
@[simp] theorem becomeFormer_keep (cause : Nat) (s : State) : (becomeFormer cause s).keep = s.keep := by (simp only [becomeFormer, apply_ite State.keep, ite_self, keep_mk, implies_true, driveVote_keep, onPair_keep])
@[simp] theorem handover_keep (s : State) : (handover s).keep = s.keep := by (simp only [handover, apply_ite State.keep, ite_self, keep_mk, implies_true, event_keep, becomeFormer_keep, becomeActive_keep])
@[simp] theorem healthReport_keep (s : State) : (healthReport s).keep = s.keep := by (simp only [healthReport, apply_ite State.keep, ite_self, keep_mk, implies_true, sendNet_keep, onPair_keep])
@[simp] theorem healthReceived_keep (h : HealthReport) (s : State) : (healthReceived h s).keep = s.keep := by (simp only [healthReceived, apply_ite State.keep, ite_self, keep_mk, implies_true, onPair_keep, pushEntry_keep])
@[simp] theorem ownFitness_keep (s : State) : (ownFitness s).keep = s.keep := by (simp only [ownFitness, apply_ite State.keep, ite_self, keep_mk, implies_true, setUnfit_keep])
@[simp] theorem hoEdge_keep (s : State) : (hoEdge s).keep = s.keep := by (simp only [hoEdge, apply_ite State.keep, ite_self, keep_mk, implies_true, onPair_keep, event_keep])
@[simp] theorem pairEdge_keep (s : State) : (pairEdge s).keep = s.keep := by (simp only [pairEdge, apply_ite State.keep, ite_self, keep_mk, implies_true, driveVote_keep, ownFitness_keep, hoEdge_keep, onPair_keep])

/-! ### Record -/

@[simp] theorem captureInputs_keep (s : State) : (captureInputs s).keep = s.keep := by (simp only [captureInputs, apply_ite State.keep, ite_self, keep_mk, implies_true, onRec_keep])
@[simp] theorem putRecord_pending (b : List Byte) (s : State) : (putRecord b s).pending = s.pending := by (unfold putRecord; repeat' (first | with_reducible rfl | (simp only [apply_ite State.pending, ite_self, implies_true, keep_pending (onRec_keep _ _)]) | (split; skip) | intro _ | refine (forAll_pending _ _ _ ?_).trans ?_ | refine (foldl_keep _ ?_ _ _).trans ?_ | refine (needsCell_keep _ _ _ _ ?_).trans ?_ | refine (withGroup_keep _ _ _ _ ?_).trans ?_))
@[simp] theorem putRecord_fuse (b : List Byte) (s : State) : (putRecord b s).fuse = s.fuse := by (unfold putRecord; repeat' (first | with_reducible rfl | (simp only [apply_ite State.fuse, ite_self, implies_true, keep_fuse (onRec_keep _ _)]) | (split; skip) | intro _ | refine (forAll_fuse _ _ _ ?_).trans ?_ | refine (foldl_keep _ ?_ _ _).trans ?_ | refine (needsCell_keep _ _ _ _ ?_).trans ?_ | refine (withGroup_keep _ _ _ _ ?_).trans ?_))
@[simp] theorem putRecord_flash (b : List Byte) (s : State) : (putRecord b s).flash = s.flash := by (unfold putRecord; repeat' (first | with_reducible rfl | (simp only [apply_ite State.flash, ite_self, implies_true, keep_flash (onRec_keep _ _)]) | (split; skip) | intro _ | refine (forAll_flash _ _ _ ?_).trans ?_ | refine (foldl_keep _ ?_ _ _).trans ?_ | refine (needsCell_keep _ _ _ _ ?_).trans ?_ | refine (withGroup_keep _ _ _ _ ?_).trans ?_))
@[simp] theorem putRecord_conf (b : List Byte) (s : State) : (putRecord b s).conf = s.conf := by (unfold putRecord; repeat' (first | with_reducible rfl | (simp only [apply_ite State.conf, ite_self, implies_true, keep_conf (onRec_keep _ _)]) | (split; skip) | intro _ | refine (forAll_conf _ _ _ ?_).trans ?_ | refine (foldl_keep _ ?_ _ _).trans ?_ | refine (needsCell_keep _ _ _ _ ?_).trans ?_ | refine (withGroup_keep _ _ _ _ ?_).trans ?_))
@[simp] theorem putRecord_image (b : List Byte) (s : State) : (putRecord b s).image = s.image := by (unfold putRecord; repeat' (first | with_reducible rfl | (simp only [apply_ite State.image, ite_self, implies_true, keep_image (onRec_keep _ _)]) | (split; skip) | intro _ | refine (forAll_image _ _ _ ?_).trans ?_ | refine (foldl_keep _ ?_ _ _).trans ?_ | refine (needsCell_keep _ _ _ _ ?_).trans ?_ | refine (withGroup_keep _ _ _ _ ?_).trans ?_))
@[simp] theorem recordWrite_pending (ok : Bool) (s : State) : (recordWrite ok s).pending = s.pending := by (unfold recordWrite; repeat' (first | with_reducible rfl | (simp only [apply_ite State.pending, ite_self, implies_true, keep_pending (onRec_keep _ _), keep_pending (event_keep _ _ _), putRecord_pending]) | (split; skip) | intro _ | refine (forAll_pending _ _ _ ?_).trans ?_ | refine (foldl_keep _ ?_ _ _).trans ?_ | refine (needsCell_keep _ _ _ _ ?_).trans ?_ | refine (withGroup_keep _ _ _ _ ?_).trans ?_))
@[simp] theorem recordWrite_fuse (ok : Bool) (s : State) : (recordWrite ok s).fuse = s.fuse := by (unfold recordWrite; repeat' (first | with_reducible rfl | (simp only [apply_ite State.fuse, ite_self, implies_true, keep_fuse (onRec_keep _ _), keep_fuse (event_keep _ _ _), putRecord_fuse]) | (split; skip) | intro _ | refine (forAll_fuse _ _ _ ?_).trans ?_ | refine (foldl_keep _ ?_ _ _).trans ?_ | refine (needsCell_keep _ _ _ _ ?_).trans ?_ | refine (withGroup_keep _ _ _ _ ?_).trans ?_))
@[simp] theorem recordWrite_flash (ok : Bool) (s : State) : (recordWrite ok s).flash = s.flash := by (unfold recordWrite; repeat' (first | with_reducible rfl | (simp only [apply_ite State.flash, ite_self, implies_true, keep_flash (onRec_keep _ _), keep_flash (event_keep _ _ _), putRecord_flash]) | (split; skip) | intro _ | refine (forAll_flash _ _ _ ?_).trans ?_ | refine (foldl_keep _ ?_ _ _).trans ?_ | refine (needsCell_keep _ _ _ _ ?_).trans ?_ | refine (withGroup_keep _ _ _ _ ?_).trans ?_))
@[simp] theorem recordWrite_conf (ok : Bool) (s : State) : (recordWrite ok s).conf = s.conf := by (unfold recordWrite; repeat' (first | with_reducible rfl | (simp only [apply_ite State.conf, ite_self, implies_true, keep_conf (onRec_keep _ _), keep_conf (event_keep _ _ _), putRecord_conf]) | (split; skip) | intro _ | refine (forAll_conf _ _ _ ?_).trans ?_ | refine (foldl_keep _ ?_ _ _).trans ?_ | refine (needsCell_keep _ _ _ _ ?_).trans ?_ | refine (withGroup_keep _ _ _ _ ?_).trans ?_))
@[simp] theorem recordWrite_image (ok : Bool) (s : State) : (recordWrite ok s).image = s.image := by (unfold recordWrite; repeat' (first | with_reducible rfl | (simp only [apply_ite State.image, ite_self, implies_true, keep_image (onRec_keep _ _), keep_image (event_keep _ _ _), putRecord_image]) | (split; skip) | intro _ | refine (forAll_image _ _ _ ?_).trans ?_ | refine (foldl_keep _ ?_ _ _).trans ?_ | refine (needsCell_keep _ _ _ _ ?_).trans ?_ | refine (withGroup_keep _ _ _ _ ?_).trans ?_))
@[simp] theorem recordingStop_keep (s : State) : (recordingStop s).keep = s.keep := by (simp only [recordingStop, apply_ite State.keep, ite_self, keep_mk, implies_true, onRec_keep])
@[simp] theorem checkpoint_keep (s : State) : (checkpoint s).keep = s.keep := by (simp only [checkpoint, apply_ite State.keep, ite_self, keep_mk, implies_true, takeCheckpoint_keep])
@[simp] theorem checkpointCopyDone_keep (s : State) : (checkpointCopyDone s).keep = s.keep := by (unfold checkpointCopyDone; split <;> first | with_reducible rfl | with_reducible exact keep_mk .. | (simp only [apply_ite State.keep, ite_self, keep_mk, implies_true, onRec_keep]))
@[simp] theorem checkpointCopyTimeout_keep (s : State) : (checkpointCopyTimeout s).keep = s.keep := by (simp only [checkpointCopyTimeout, apply_ite State.keep, ite_self, keep_mk, implies_true, event_keep, onRec_keep])

/-! ### Tick -/

@[simp] theorem slackTurn_keep (s : State) : (slackTurn s).keep = s.keep := by (simp only [slackTurn, apply_ite State.keep, ite_self, keep_mk, implies_true, onTime_keep])
@[simp] theorem tickEnds_pending (recOk : Bool) (s : State) : (tickEnds recOk s).pending = s.pending := by (unfold tickEnds; repeat' (first | with_reducible rfl | (simp only [apply_ite State.pending, ite_self, implies_true, keep_pending (onTime_keep _ _), keep_pending (slackTurn_keep _), keep_pending (flowDeadline_keep _), recordWrite_pending]) | (split; skip) | intro _ | refine (forAll_pending _ _ _ ?_).trans ?_ | refine (foldl_keep _ ?_ _ _).trans ?_ | refine (needsCell_keep _ _ _ _ ?_).trans ?_ | refine (withGroup_keep _ _ _ _ ?_).trans ?_))
@[simp] theorem tickEnds_fuse (recOk : Bool) (s : State) : (tickEnds recOk s).fuse = s.fuse := by (unfold tickEnds; repeat' (first | with_reducible rfl | (simp only [apply_ite State.fuse, ite_self, implies_true, keep_fuse (onTime_keep _ _), keep_fuse (slackTurn_keep _), keep_fuse (flowDeadline_keep _), recordWrite_fuse]) | (split; skip) | intro _ | refine (forAll_fuse _ _ _ ?_).trans ?_ | refine (foldl_keep _ ?_ _ _).trans ?_ | refine (needsCell_keep _ _ _ _ ?_).trans ?_ | refine (withGroup_keep _ _ _ _ ?_).trans ?_))
@[simp] theorem tickEnds_flash (recOk : Bool) (s : State) : (tickEnds recOk s).flash = s.flash := by (unfold tickEnds; repeat' (first | with_reducible rfl | (simp only [apply_ite State.flash, ite_self, implies_true, keep_flash (onTime_keep _ _), keep_flash (slackTurn_keep _), keep_flash (flowDeadline_keep _), recordWrite_flash]) | (split; skip) | intro _ | refine (forAll_flash _ _ _ ?_).trans ?_ | refine (foldl_keep _ ?_ _ _).trans ?_ | refine (needsCell_keep _ _ _ _ ?_).trans ?_ | refine (withGroup_keep _ _ _ _ ?_).trans ?_))
@[simp] theorem tickEnds_conf (recOk : Bool) (s : State) : (tickEnds recOk s).conf = s.conf := by (unfold tickEnds; repeat' (first | with_reducible rfl | (simp only [apply_ite State.conf, ite_self, implies_true, keep_conf (onTime_keep _ _), keep_conf (slackTurn_keep _), keep_conf (flowDeadline_keep _), recordWrite_conf]) | (split; skip) | intro _ | refine (forAll_conf _ _ _ ?_).trans ?_ | refine (foldl_keep _ ?_ _ _).trans ?_ | refine (needsCell_keep _ _ _ _ ?_).trans ?_ | refine (withGroup_keep _ _ _ _ ?_).trans ?_))
@[simp] theorem tickEnds_image (recOk : Bool) (s : State) : (tickEnds recOk s).image = s.image := by (unfold tickEnds; repeat' (first | with_reducible rfl | (simp only [apply_ite State.image, ite_self, implies_true, keep_image (onTime_keep _ _), keep_image (slackTurn_keep _), keep_image (flowDeadline_keep _), recordWrite_image]) | (split; skip) | intro _ | refine (forAll_image _ _ _ ?_).trans ?_ | refine (foldl_keep _ ?_ _ _).trans ?_ | refine (needsCell_keep _ _ _ _ ?_).trans ?_ | refine (withGroup_keep _ _ _ _ ?_).trans ?_))
@[simp] theorem clearTick_keep (s : State) : (clearTick s).keep = s.keep := by (simp only [clearTick, apply_ite State.keep, ite_self, keep_mk, implies_true])
@[simp] theorem demandsEdge_keep (s : State) : (demandsEdge s).keep = s.keep := by (simp only [demandsEdge, apply_ite State.keep, ite_self, keep_mk, implies_true, demandStop_keep, onSaf_keep, onTime_keep])
@[simp] theorem clocheGroup_keep (g : Nat) (s : State) : (clocheGroup g s).keep = s.keep := by (simp only [clocheGroup, apply_ite State.keep, ite_self, keep_mk, implies_true, enterCloche_keep, onSafG_keep])
@[simp] theorem leaveGroup_keep (g : Nat) (s : State) : (leaveGroup g s).keep = s.keep := by (simp only [leaveGroup, apply_ite State.keep, ite_self, keep_mk, implies_true, leaveClocheSlices_keep, onGrp_keep, startEnable_keep])
@[simp] theorem chansEdge_keep (emf : List Nat) (s : State) : (chansEdge emf s).keep = s.keep := by (simp only [chansEdge, apply_ite State.keep, ite_self, keep_mk, implies_true, forAll_keep, chanEdge_keep, nodeEdge_keep])
@[simp] theorem reformEdge_keep (r : Nat) (s : State) : (reformEdge r s).keep = s.keep := by (simp only [reformEdge, apply_ite State.keep, ite_self, keep_mk, implies_true, onRing_keep])
@[simp] theorem ringsEdge_keep (s : State) : (ringsEdge s).keep = s.keep := by (simp only [ringsEdge, apply_ite State.keep, ite_self, keep_mk, implies_true, forAll_keep, reformEdge_keep, ringEdge_keep])
@[simp] theorem inputEdges_keep (emf : List Nat) (s : State) : (inputEdges emf s).keep = s.keep := by (simp only [inputEdges, apply_ite State.keep, ite_self, keep_mk, implies_true, inputsEdge_keep, pduEdge_keep, within_keep, chansEdge_keep, trellisEdge_keep])
@[simp] theorem stateEdges_keep (s : State) : (stateEdges s).keep = s.keep := by (simp only [stateEdges, apply_ite State.keep, ite_self, keep_mk, implies_true, demandsEdge_keep, forAll_keep, leaveGroup_keep, clocheGroup_keep, powerEdge_keep, retireEdge_keep, reinitEdge_keep])
@[simp] theorem releases_keep (p s : State) : (releases p s).keep = s.keep := by (simp only [releases, apply_ite State.keep, ite_self, keep_mk, implies_true, captureInputs_keep, snapshots_keep, enterStaging_keep, releaseFlows_keep, releaseCommands_keep])
@[simp] theorem worksEdge_keep (s : State) : (worksEdge s).keep = s.keep := by (simp only [worksEdge, apply_ite State.keep, ite_self, keep_mk, implies_true, within_keep, solverEdge_keep, ringsEdge_keep, slicesEdge_keep, generate_keep])
@[simp] theorem startTick_keep (p : State) (emf : List Nat) (s : State) : (startTick p emf s).keep = s.keep := by (simp only [startTick, apply_ite State.keep, ite_self, keep_mk, implies_true, stateEdges_keep, inputEdges_keep, worksEdge_keep, releases_keep, schedule_keep, pairEdge_keep])
@[simp] theorem startRecording_keep (s : State) : (startRecording s).keep = s.keep := by (simp only [startRecording, apply_ite State.keep, ite_self, keep_mk, implies_true, onRec_keep])
@[simp] theorem recordAtStart_keep (s : State) : (recordAtStart s).keep = s.keep := by (simp only [recordAtStart, apply_ite State.keep, ite_self, keep_mk, implies_true, onRec_keep, startRecording_keep])
@[simp] theorem firstStart_pending (s : State) : (firstStart s).pending = s.pending := by (unfold firstStart; repeat' (first | with_reducible rfl | (simp only [apply_ite State.pending, ite_self, implies_true]) | (split; skip) | intro _ | refine (forAll_pending _ _ _ ?_).trans ?_ | refine (foldl_keep _ ?_ _ _).trans ?_ | refine (needsCell_keep _ _ _ _ ?_).trans ?_ | refine (withGroup_keep _ _ _ _ ?_).trans ?_))
@[simp] theorem firstStart_flash (s : State) : (firstStart s).flash = s.flash := by (unfold firstStart; repeat' (first | with_reducible rfl | (simp only [apply_ite State.flash, ite_self, implies_true]) | (split; skip) | intro _ | refine (forAll_flash _ _ _ ?_).trans ?_ | refine (foldl_keep _ ?_ _ _).trans ?_ | refine (needsCell_keep _ _ _ _ ?_).trans ?_ | refine (withGroup_keep _ _ _ _ ?_).trans ?_))
@[simp] theorem firstStart_conf (s : State) : (firstStart s).conf = s.conf := by (unfold firstStart; repeat' (first | with_reducible rfl | (simp only [apply_ite State.conf, ite_self, implies_true]) | (split; skip) | intro _ | refine (forAll_conf _ _ _ ?_).trans ?_ | refine (foldl_keep _ ?_ _ _).trans ?_ | refine (needsCell_keep _ _ _ _ ?_).trans ?_ | refine (withGroup_keep _ _ _ _ ?_).trans ?_))
@[simp] theorem firstStart_image (s : State) : (firstStart s).image = s.image := by (unfold firstStart; repeat' (first | with_reducible rfl | (simp only [apply_ite State.image, ite_self, implies_true]) | (split; skip) | intro _ | refine (forAll_image _ _ _ ?_).trans ?_ | refine (foldl_keep _ ?_ _ _).trans ?_ | refine (needsCell_keep _ _ _ _ ?_).trans ?_ | refine (withGroup_keep _ _ _ _ ?_).trans ?_))
@[simp] theorem firstStart_mem (s : State) : (firstStart s).mem = s.mem := by (unfold firstStart; repeat' (first | with_reducible rfl | (simp only [apply_ite State.mem, ite_self, implies_true]) | (split; skip) | intro _ | refine (forAll_mem _ _ _ ?_).trans ?_ | refine (foldl_keep _ ?_ _ _).trans ?_ | refine (needsCell_keep _ _ _ _ ?_).trans ?_ | refine (withGroup_keep _ _ _ _ ?_).trans ?_))
@[simp] theorem startServo_keep (s : State) : (startServo s).keep = s.keep := by (simp only [startServo, apply_ite State.keep, ite_self, keep_mk, implies_true, enterHoldover_keep, onTime_keep])
@[simp] theorem enterRunning_pending (s : State) : (enterRunning s).pending = s.pending := by (unfold enterRunning; repeat' (first | with_reducible rfl | (simp only [apply_ite State.pending, ite_self, implies_true, keep_pending (recordAtStart_keep _), keep_pending (startServo_keep _), keep_pending (sendRec_keep _), keep_pending (onChip_keep _ _), firstStart_pending]) | (split; skip) | intro _ | refine (forAll_pending _ _ _ ?_).trans ?_ | refine (foldl_keep _ ?_ _ _).trans ?_ | refine (needsCell_keep _ _ _ _ ?_).trans ?_ | refine (withGroup_keep _ _ _ _ ?_).trans ?_))
@[simp] theorem enterRunning_flash (s : State) : (enterRunning s).flash = s.flash := by (unfold enterRunning; repeat' (first | with_reducible rfl | (simp only [apply_ite State.flash, ite_self, implies_true, keep_flash (recordAtStart_keep _), keep_flash (startServo_keep _), keep_flash (sendRec_keep _), keep_flash (onChip_keep _ _), firstStart_flash]) | (split; skip) | intro _ | refine (forAll_flash _ _ _ ?_).trans ?_ | refine (foldl_keep _ ?_ _ _).trans ?_ | refine (needsCell_keep _ _ _ _ ?_).trans ?_ | refine (withGroup_keep _ _ _ _ ?_).trans ?_))
@[simp] theorem enterRunning_conf (s : State) : (enterRunning s).conf = s.conf := by (unfold enterRunning; repeat' (first | with_reducible rfl | (simp only [apply_ite State.conf, ite_self, implies_true, keep_conf (recordAtStart_keep _), keep_conf (startServo_keep _), keep_conf (sendRec_keep _), keep_conf (onChip_keep _ _), firstStart_conf]) | (split; skip) | intro _ | refine (forAll_conf _ _ _ ?_).trans ?_ | refine (foldl_keep _ ?_ _ _).trans ?_ | refine (needsCell_keep _ _ _ _ ?_).trans ?_ | refine (withGroup_keep _ _ _ _ ?_).trans ?_))
@[simp] theorem enterRunning_image (s : State) : (enterRunning s).image = s.image := by (unfold enterRunning; repeat' (first | with_reducible rfl | (simp only [apply_ite State.image, ite_self, implies_true, keep_image (recordAtStart_keep _), keep_image (startServo_keep _), keep_image (sendRec_keep _), keep_image (onChip_keep _ _), firstStart_image]) | (split; skip) | intro _ | refine (forAll_image _ _ _ ?_).trans ?_ | refine (foldl_keep _ ?_ _ _).trans ?_ | refine (needsCell_keep _ _ _ _ ?_).trans ?_ | refine (withGroup_keep _ _ _ _ ?_).trans ?_))
@[simp] theorem enterRunning_mem (s : State) : (enterRunning s).mem = s.mem := by (unfold enterRunning; repeat' (first | with_reducible rfl | (simp only [apply_ite State.mem, ite_self, implies_true, keep_mem (recordAtStart_keep _), keep_mem (startServo_keep _), keep_mem (sendRec_keep _), keep_mem (onChip_keep _ _), firstStart_mem]) | (split; skip) | intro _ | refine (forAll_mem _ _ _ ?_).trans ?_ | refine (foldl_keep _ ?_ _ _).trans ?_ | refine (needsCell_keep _ _ _ _ ?_).trans ?_ | refine (withGroup_keep _ _ _ _ ?_).trans ?_))
@[simp] theorem recordingRestart_keep (s : State) : (recordingRestart s).keep = s.keep := by (simp only [recordingRestart, apply_ite State.keep, ite_self, keep_mk, implies_true, startRecording_keep])
@[simp] theorem nodeNonce_keep (s : State) : (nodeNonce s).keep = s.keep := by (simp only [nodeNonce, apply_ite State.keep, ite_self, keep_mk, implies_true, drawFree, drawFree_keep, onHost_keep])
@[simp] theorem followStart_pending (s : State) : (followStart s).pending = s.pending := by (unfold followStart; repeat' (first | with_reducible rfl | (simp only [apply_ite State.pending, ite_self, implies_true, keep_pending (nodeNonce_keep _), enterRunning_pending]) | (split; skip) | intro _ | refine (forAll_pending _ _ _ ?_).trans ?_ | refine (foldl_keep _ ?_ _ _).trans ?_ | refine (needsCell_keep _ _ _ _ ?_).trans ?_ | refine (withGroup_keep _ _ _ _ ?_).trans ?_))
@[simp] theorem followStart_flash (s : State) : (followStart s).flash = s.flash := by (unfold followStart; repeat' (first | with_reducible rfl | (simp only [apply_ite State.flash, ite_self, implies_true, keep_flash (nodeNonce_keep _), enterRunning_flash]) | (split; skip) | intro _ | refine (forAll_flash _ _ _ ?_).trans ?_ | refine (foldl_keep _ ?_ _ _).trans ?_ | refine (needsCell_keep _ _ _ _ ?_).trans ?_ | refine (withGroup_keep _ _ _ _ ?_).trans ?_))
@[simp] theorem followStart_conf (s : State) : (followStart s).conf = s.conf := by (unfold followStart; repeat' (first | with_reducible rfl | (simp only [apply_ite State.conf, ite_self, implies_true, keep_conf (nodeNonce_keep _), enterRunning_conf]) | (split; skip) | intro _ | refine (forAll_conf _ _ _ ?_).trans ?_ | refine (foldl_keep _ ?_ _ _).trans ?_ | refine (needsCell_keep _ _ _ _ ?_).trans ?_ | refine (withGroup_keep _ _ _ _ ?_).trans ?_))
@[simp] theorem followStart_image (s : State) : (followStart s).image = s.image := by (unfold followStart; repeat' (first | with_reducible rfl | (simp only [apply_ite State.image, ite_self, implies_true, keep_image (nodeNonce_keep _), enterRunning_image]) | (split; skip) | intro _ | refine (forAll_image _ _ _ ?_).trans ?_ | refine (foldl_keep _ ?_ _ _).trans ?_ | refine (needsCell_keep _ _ _ _ ?_).trans ?_ | refine (withGroup_keep _ _ _ _ ?_).trans ?_))
@[simp] theorem followStart_mem (s : State) : (followStart s).mem = s.mem := by (unfold followStart; repeat' (first | with_reducible rfl | (simp only [apply_ite State.mem, ite_self, implies_true, keep_mem (nodeNonce_keep _), enterRunning_mem]) | (split; skip) | intro _ | refine (forAll_mem _ _ _ ?_).trans ?_ | refine (foldl_keep _ ?_ _ _).trans ?_ | refine (needsCell_keep _ _ _ _ ?_).trans ?_ | refine (withGroup_keep _ _ _ _ ?_).trans ?_))
@[simp] theorem countTick_keep (s : State) : (countTick s).keep = s.keep := by (simp only [countTick, apply_ite State.keep, ite_self, keep_mk, implies_true, advanceTb_keep, onTime_keep])
@[simp] theorem firstEdgeOf_pending (s : State) : (firstEdgeOf s).pending = s.pending := by (unfold firstEdgeOf; repeat' (first | with_reducible rfl | (simp only [apply_ite State.pending, ite_self, implies_true, keep_pending (onTime_keep _ _), keep_pending (advanceTb_keep _ _), keep_pending (nodeNonce_keep _), keep_pending (startNext_keep _ _), enterRunning_pending]) | (split; skip) | intro _ | refine (forAll_pending _ _ _ ?_).trans ?_ | refine (foldl_keep _ ?_ _ _).trans ?_ | refine (needsCell_keep _ _ _ _ ?_).trans ?_ | refine (withGroup_keep _ _ _ _ ?_).trans ?_))
@[simp] theorem firstEdgeOf_flash (s : State) : (firstEdgeOf s).flash = s.flash := by (unfold firstEdgeOf; repeat' (first | with_reducible rfl | (simp only [apply_ite State.flash, ite_self, implies_true, keep_flash (onTime_keep _ _), keep_flash (advanceTb_keep _ _), keep_flash (nodeNonce_keep _), keep_flash (startNext_keep _ _), enterRunning_flash]) | (split; skip) | intro _ | refine (forAll_flash _ _ _ ?_).trans ?_ | refine (foldl_keep _ ?_ _ _).trans ?_ | refine (needsCell_keep _ _ _ _ ?_).trans ?_ | refine (withGroup_keep _ _ _ _ ?_).trans ?_))
@[simp] theorem firstEdgeOf_conf (s : State) : (firstEdgeOf s).conf = s.conf := by (unfold firstEdgeOf; repeat' (first | with_reducible rfl | (simp only [apply_ite State.conf, ite_self, implies_true, keep_conf (onTime_keep _ _), keep_conf (advanceTb_keep _ _), keep_conf (nodeNonce_keep _), keep_conf (startNext_keep _ _), enterRunning_conf]) | (split; skip) | intro _ | refine (forAll_conf _ _ _ ?_).trans ?_ | refine (foldl_keep _ ?_ _ _).trans ?_ | refine (needsCell_keep _ _ _ _ ?_).trans ?_ | refine (withGroup_keep _ _ _ _ ?_).trans ?_))
@[simp] theorem firstEdgeOf_image (s : State) : (firstEdgeOf s).image = s.image := by (unfold firstEdgeOf; repeat' (first | with_reducible rfl | (simp only [apply_ite State.image, ite_self, implies_true, keep_image (onTime_keep _ _), keep_image (advanceTb_keep _ _), keep_image (nodeNonce_keep _), keep_image (startNext_keep _ _), enterRunning_image]) | (split; skip) | intro _ | refine (forAll_image _ _ _ ?_).trans ?_ | refine (foldl_keep _ ?_ _ _).trans ?_ | refine (needsCell_keep _ _ _ _ ?_).trans ?_ | refine (withGroup_keep _ _ _ _ ?_).trans ?_))
@[simp] theorem firstEdgeOf_mem (s : State) : (firstEdgeOf s).mem = s.mem := by (unfold firstEdgeOf; repeat' (first | with_reducible rfl | (simp only [apply_ite State.mem, ite_self, implies_true, keep_mem (onTime_keep _ _), keep_mem (advanceTb_keep _ _), keep_mem (nodeNonce_keep _), keep_mem (startNext_keep _ _), enterRunning_mem]) | (split; skip) | intro _ | refine (forAll_mem _ _ _ ?_).trans ?_ | refine (foldl_keep _ ?_ _ _).trans ?_ | refine (needsCell_keep _ _ _ _ ?_).trans ?_ | refine (withGroup_keep _ _ _ _ ?_).trans ?_))
@[simp] theorem tickEdge_pending (emf : List Nat) (recOk : Bool) (s : State) : (tickEdge emf recOk s).pending = s.pending := by (unfold tickEdge; repeat' (first | with_reducible rfl | (simp only [apply_ite State.pending, ite_self, implies_true, keep_pending (startTick_keep _ _ _), keep_pending (countTick_keep _), keep_pending (clearTick_keep _), firstEdgeOf_pending, followStart_pending, tickEnds_pending]) | (split; skip) | intro _ | refine (forAll_pending _ _ _ ?_).trans ?_ | refine (foldl_keep _ ?_ _ _).trans ?_ | refine (needsCell_keep _ _ _ _ ?_).trans ?_ | refine (withGroup_keep _ _ _ _ ?_).trans ?_))
@[simp] theorem tickEdge_flash (emf : List Nat) (recOk : Bool) (s : State) : (tickEdge emf recOk s).flash = s.flash := by (unfold tickEdge; repeat' (first | with_reducible rfl | (simp only [apply_ite State.flash, ite_self, implies_true, keep_flash (startTick_keep _ _ _), keep_flash (countTick_keep _), keep_flash (clearTick_keep _), firstEdgeOf_flash, followStart_flash, tickEnds_flash]) | (split; skip) | intro _ | refine (forAll_flash _ _ _ ?_).trans ?_ | refine (foldl_keep _ ?_ _ _).trans ?_ | refine (needsCell_keep _ _ _ _ ?_).trans ?_ | refine (withGroup_keep _ _ _ _ ?_).trans ?_))
@[simp] theorem tickEdge_conf (emf : List Nat) (recOk : Bool) (s : State) : (tickEdge emf recOk s).conf = s.conf := by (unfold tickEdge; repeat' (first | with_reducible rfl | (simp only [apply_ite State.conf, ite_self, implies_true, keep_conf (startTick_keep _ _ _), keep_conf (countTick_keep _), keep_conf (clearTick_keep _), firstEdgeOf_conf, followStart_conf, tickEnds_conf]) | (split; skip) | intro _ | refine (forAll_conf _ _ _ ?_).trans ?_ | refine (foldl_keep _ ?_ _ _).trans ?_ | refine (needsCell_keep _ _ _ _ ?_).trans ?_ | refine (withGroup_keep _ _ _ _ ?_).trans ?_))
@[simp] theorem tickEdge_image (emf : List Nat) (recOk : Bool) (s : State) : (tickEdge emf recOk s).image = s.image := by (unfold tickEdge; repeat' (first | with_reducible rfl | (simp only [apply_ite State.image, ite_self, implies_true, keep_image (startTick_keep _ _ _), keep_image (countTick_keep _), keep_image (clearTick_keep _), firstEdgeOf_image, followStart_image, tickEnds_image]) | (split; skip) | intro _ | refine (forAll_image _ _ _ ?_).trans ?_ | refine (foldl_keep _ ?_ _ _).trans ?_ | refine (needsCell_keep _ _ _ _ ?_).trans ?_ | refine (withGroup_keep _ _ _ _ ?_).trans ?_))
@[simp] theorem phaseResult_keep (p : Nat) (m : Mask) (s : State) : (phaseResult p m s).keep = s.keep := by (unfold phaseResult; split <;> first | with_reducible rfl | with_reducible exact keep_mk .. | (simp only [apply_ite State.keep, ite_self, keep_mk, implies_true, forAll_keep, posesDone_keep, dynamicsDone_keep]))
@[simp] theorem phaseCompletion_keep (p : Nat) (m : Mask) (at_ : Nat) (s : State) : (phaseCompletion p m at_ s).keep = s.keep := by (simp only [phaseCompletion, apply_ite State.keep, ite_self, keep_mk, implies_true, phaseResult_keep, registerToken_keep])
@[simp] theorem extrapolate_keep (fin : Bool) (a : Nat) (s : State) : (extrapolate fin a s).keep = s.keep := by (simp only [extrapolate, apply_ite State.keep, ite_self, keep_mk, implies_true, onAxis_keep])
@[simp] theorem phaseRelease_keep (p : Nat) (miss : Mask) (s : State) : (phaseRelease p miss s).keep = s.keep := by (unfold phaseRelease; split <;> first | with_reducible rfl | with_reducible exact keep_mk .. | (simp only [apply_ite State.keep, ite_self, keep_mk, implies_true, forAll_keep, lastRef_keep, formPairs_keep, posesRelease_keep, dynamicsRelease_keep, skipLate_keep, trellisRelease_keep, finalise_keep, extrapolate_keep]))
@[simp] theorem phaseDeadline_keep (p : Nat) (s : State) : (phaseDeadline p s).keep = s.keep := by (simp only [phaseDeadline, apply_ite State.keep, ite_self, keep_mk, implies_true, missPhase_keep, phaseRelease_keep, onSlack_keep])
@[simp] theorem releaseAxis_keep (a : Nat) (s : State) : (releaseAxis a s).keep = s.keep := by (unfold releaseAxis; try dsimp only; repeat' (first | with_reducible rfl | with_reducible exact keep_mk .. | split | intro _ | (simp only [apply_ite State.keep, ite_self, keep_mk, implies_true, armCompare_keep, stepSchedule_keep, onAxis_keep]) | refine (forAll_keep _ _ _ ?_).trans ?_))
@[simp] theorem releaseAxes_keep (s : State) : (releaseAxes s).keep = s.keep := by (simp only [releaseAxes, apply_ite State.keep, ite_self, keep_mk, implies_true, forAll_keep, releaseAxis_keep])
@[simp] theorem setpointRelease_keep (s : State) : (setpointRelease s).keep = s.keep := by (simp only [setpointRelease, apply_ite State.keep, ite_self, keep_mk, implies_true, sendReplies_keep, formDigest_keep, releaseAxes_keep])

/-! ### Access -/

@[simp] theorem clearOvf_keep (s : State) : (clearOvf s).keep = s.keep := by (simp only [clearOvf, apply_ite State.keep, ite_self, keep_mk, implies_true, endB_keep, onChip_keep])
@[simp] theorem writeChip_keep (o : Nat) (v : Word) (s : State) : (writeChip o v s).keep = s.keep := by (simp only [writeChip, apply_ite State.keep, ite_self, keep_mk, implies_true, wdogKick_keep, regionRestart_keep, onChip_keep, clearOvf_keep, firmwarePrune_keep, arbFreeze_keep, arbUnfreeze_keep])
@[simp] theorem writeTrigReg_keep (who : Who) (i k : Nat) (v : Word) (s : State) : (writeTrigReg who i k v s).keep = s.keep := by (simp only [writeTrigReg, apply_ite State.keep, ite_self, keep_mk, implies_true, onTrig_keep, triggerWrite_keep])
@[simp] theorem writeCapReg_keep (j k : Nat) (v : Word) (s : State) : (writeCapReg j k v s).keep = s.keep := by (simp only [writeCapReg, apply_ite State.keep, ite_self, keep_mk, implies_true, onCap_keep])
@[simp] theorem writeTime_keep (who : Who) (o : Nat) (v : Word) (s : State) : (writeTime who o v s).keep = s.keep := by (simp only [writeTime, apply_ite State.keep, ite_self, keep_mk, implies_true, writeTrigReg_keep, writeCapReg_keep, slackClear_keep, onTime_keep])
@[simp] theorem writeCmpctl_keep (c : Nat) (v : Word) (s : State) : (writeCmpctl c v s).keep = s.keep := by (simp only [writeCmpctl, apply_ite State.keep, ite_self, keep_mk, implies_true, onChan_keep, compareArm_keep, compareDisarm_keep])
@[simp] theorem writeChan_keep (c k : Nat) (v : Word) (s : State) : (writeChan c k v s).keep = s.keep := by (simp only [writeChan, apply_ite State.keep, ite_self, keep_mk, implies_true, onChan_keep, feedbackFaultClear_keep, writeCmpctl_keep, homingStart_keep])
@[simp] theorem writeSol_keep (o : Nat) (v : Word) (s : State) : (writeSol o v s).keep = s.keep := by (simp only [writeSol, apply_ite State.keep, ite_self, keep_mk, implies_true, problemEnableWrite_keep, problemClearLost_keep, deltaCommit_keep])
@[simp] theorem writeTrl_keep (o : Nat) (v : Word) (s : State) : (writeTrl o v s).keep = s.keep := by (simp only [writeTrl, apply_ite State.keep, ite_self, keep_mk, implies_true, onTrlG_keep, zoneFreeze_keep])
@[simp] theorem writePort_keep (c k : Nat) (v : Word) (s : State) : (writePort c k v s).keep = s.keep := by (simp only [writePort, apply_ite State.keep, ite_self, keep_mk, implies_true, itemDone_keep, onCore_keep, enqueue_keep, queuePush_keep])
@[simp] theorem writeHost_keep (who : Who) (o : Nat) (v : Word) (s : State) : (writeHost who o v s).keep = s.keep := by (simp only [writeHost, apply_ite State.keep, ite_self, keep_mk, implies_true, publishFlip_keep, writePort_keep, flowEnable_keep, flowDisable_keep, queueAck_keep])
@[simp] theorem writeReg_keep (who : Who) (r : Region) (o : Nat) (v : Word) (s : State) : (writeReg who r o v s).keep = s.keep := by (unfold writeReg; split <;> first | with_reducible rfl | with_reducible exact keep_mk .. | (simp only [apply_ite State.keep, ite_self, keep_mk, implies_true, writeChip_keep, writeTime_keep, writeChan_keep, writeSol_keep, writeTrl_keep, writeHost_keep]))
@[simp] theorem storeLocal_keep (who : Who) (a : Nat) (bs : List Byte) (s : State) : (storeLocal who a bs s).keep = s.keep := by (unfold storeLocal; split <;> first | with_reducible rfl | with_reducible exact keep_mk .. | (simp only [apply_ite State.keep, ite_self, keep_mk, implies_true, onCore_keep]))
@[simp] theorem registerWrite_pending (who : Who) (addr v : Word) (s : State) : (registerWrite who addr v s).pending = s.pending := by (unfold registerWrite; repeat' (first | with_reducible rfl | (simp only [apply_ite State.pending, ite_self, implies_true, keep_pending (coreTrap_keep _ _ _), keep_pending (event_keep _ _ _), keep_pending (errorToken_keep _), keep_pending (absentAccess_keep _ _), keep_pending (quarantinedAccess_keep _ _ _), keep_pending (acked_keep _), keep_pending (writeReg_keep _ _ _ _ _), keep_pending (storeLocal_keep _ _ _ _)]) | (split; skip) | intro _ | refine (forAll_pending _ _ _ ?_).trans ?_ | refine (foldl_keep _ ?_ _ _).trans ?_ | refine (needsCell_keep _ _ _ _ ?_).trans ?_ | refine (withGroup_keep _ _ _ _ ?_).trans ?_))
@[simp] theorem registerWrite_fuse (who : Who) (addr v : Word) (s : State) : (registerWrite who addr v s).fuse = s.fuse := by (unfold registerWrite; repeat' (first | with_reducible rfl | (simp only [apply_ite State.fuse, ite_self, implies_true, keep_fuse (coreTrap_keep _ _ _), keep_fuse (event_keep _ _ _), keep_fuse (errorToken_keep _), keep_fuse (absentAccess_keep _ _), keep_fuse (quarantinedAccess_keep _ _ _), keep_fuse (acked_keep _), keep_fuse (writeReg_keep _ _ _ _ _), keep_fuse (storeLocal_keep _ _ _ _)]) | (split; skip) | intro _ | refine (forAll_fuse _ _ _ ?_).trans ?_ | refine (foldl_keep _ ?_ _ _).trans ?_ | refine (needsCell_keep _ _ _ _ ?_).trans ?_ | refine (withGroup_keep _ _ _ _ ?_).trans ?_))
@[simp] theorem registerWrite_flash (who : Who) (addr v : Word) (s : State) : (registerWrite who addr v s).flash = s.flash := by (unfold registerWrite; repeat' (first | with_reducible rfl | (simp only [apply_ite State.flash, ite_self, implies_true, keep_flash (coreTrap_keep _ _ _), keep_flash (event_keep _ _ _), keep_flash (errorToken_keep _), keep_flash (absentAccess_keep _ _), keep_flash (quarantinedAccess_keep _ _ _), keep_flash (acked_keep _), keep_flash (writeReg_keep _ _ _ _ _), keep_flash (storeLocal_keep _ _ _ _)]) | (split; skip) | intro _ | refine (forAll_flash _ _ _ ?_).trans ?_ | refine (foldl_keep _ ?_ _ _).trans ?_ | refine (needsCell_keep _ _ _ _ ?_).trans ?_ | refine (withGroup_keep _ _ _ _ ?_).trans ?_))
@[simp] theorem registerWrite_conf (who : Who) (addr v : Word) (s : State) : (registerWrite who addr v s).conf = s.conf := by (unfold registerWrite; repeat' (first | with_reducible rfl | (simp only [apply_ite State.conf, ite_self, implies_true, keep_conf (coreTrap_keep _ _ _), keep_conf (event_keep _ _ _), keep_conf (errorToken_keep _), keep_conf (absentAccess_keep _ _), keep_conf (quarantinedAccess_keep _ _ _), keep_conf (acked_keep _), keep_conf (writeReg_keep _ _ _ _ _), keep_conf (storeLocal_keep _ _ _ _)]) | (split; skip) | intro _ | refine (forAll_conf _ _ _ ?_).trans ?_ | refine (foldl_keep _ ?_ _ _).trans ?_ | refine (needsCell_keep _ _ _ _ ?_).trans ?_ | refine (withGroup_keep _ _ _ _ ?_).trans ?_))
@[simp] theorem registerWrite_image (who : Who) (addr v : Word) (s : State) : (registerWrite who addr v s).image = s.image := by (unfold registerWrite; repeat' (first | with_reducible rfl | (simp only [apply_ite State.image, ite_self, implies_true, keep_image (coreTrap_keep _ _ _), keep_image (event_keep _ _ _), keep_image (errorToken_keep _), keep_image (absentAccess_keep _ _), keep_image (quarantinedAccess_keep _ _ _), keep_image (acked_keep _), keep_image (writeReg_keep _ _ _ _ _), keep_image (storeLocal_keep _ _ _ _)]) | (split; skip) | intro _ | refine (forAll_image _ _ _ ?_).trans ?_ | refine (foldl_keep _ ?_ _ _).trans ?_ | refine (needsCell_keep _ _ _ _ ?_).trans ?_ | refine (withGroup_keep _ _ _ _ ?_).trans ?_))
@[simp] theorem afterRead_keep (r : Region) (o : Nat) (s : State) : (afterRead r o s).keep = s.keep := by (simp only [afterRead, apply_ite State.keep, ite_self, keep_mk, implies_true, onChan_keep])
@[simp] theorem readTarget_keep (r : Region) (o : Nat) (s : State) : (readTarget r o s).keep = s.keep := by (unfold readTarget; try dsimp only; repeat' (first | with_reducible rfl | with_reducible exact keep_mk .. | split | intro _ | (simp only [apply_ite State.keep, ite_self, keep_mk, implies_true, drawFree, captureRead_keep, answer_keep, latchWords_keep, afterRead_keep, drawFree_keep]) | refine (forAll_keep _ _ _ ?_).trans ?_))
@[simp] theorem wideRegisterRead_keep (who : Who) (addr : Word) (s : State) : (wideRegisterRead who addr s).keep = s.keep := by (unfold wideRegisterRead; repeat' (first | with_reducible rfl | with_reducible exact keep_mk .. | (simp only [apply_ite State.keep, ite_self, keep_mk, implies_true, coreTrap_keep, event_keep, errorToken_keep, absentAccess_keep, quarantinedAccess_keep, readTarget_keep, answer_keep]) | (split; skip) | intro _ | refine (forAll_keep _ _ _ ?_).trans ?_ | refine (foldl_keep _ ?_ _ _).trans ?_ | refine (needsCell_keep _ _ _ _ ?_).trans ?_ | refine (withGroup_keep _ _ _ _ ?_).trans ?_))
@[simp] theorem accessSizeError_pending (who : Who) (addr : Word) (half : Bool) (wr : Option (BitVec 16)) (s : State) : (accessSizeError who addr half wr s).pending = s.pending := by (unfold accessSizeError; repeat' (first | with_reducible rfl | (simp only [apply_ite State.pending, ite_self, implies_true, keep_pending (coreTrap_keep _ _ _), keep_pending (event_keep _ _ _), keep_pending (errorToken_keep _), keep_pending (absentAccess_keep _ _), keep_pending (acked_keep _), keep_pending (answer_keep _ _), keep_pending (storeLocal_keep _ _ _ _)]) | (split; skip) | intro _ | refine (forAll_pending _ _ _ ?_).trans ?_ | refine (foldl_keep _ ?_ _ _).trans ?_ | refine (needsCell_keep _ _ _ _ ?_).trans ?_ | refine (withGroup_keep _ _ _ _ ?_).trans ?_))
@[simp] theorem accessSizeError_fuse (who : Who) (addr : Word) (half : Bool) (wr : Option (BitVec 16)) (s : State) : (accessSizeError who addr half wr s).fuse = s.fuse := by (unfold accessSizeError; repeat' (first | with_reducible rfl | (simp only [apply_ite State.fuse, ite_self, implies_true, keep_fuse (coreTrap_keep _ _ _), keep_fuse (event_keep _ _ _), keep_fuse (errorToken_keep _), keep_fuse (absentAccess_keep _ _), keep_fuse (acked_keep _), keep_fuse (answer_keep _ _), keep_fuse (storeLocal_keep _ _ _ _)]) | (split; skip) | intro _ | refine (forAll_fuse _ _ _ ?_).trans ?_ | refine (foldl_keep _ ?_ _ _).trans ?_ | refine (needsCell_keep _ _ _ _ ?_).trans ?_ | refine (withGroup_keep _ _ _ _ ?_).trans ?_))
@[simp] theorem accessSizeError_flash (who : Who) (addr : Word) (half : Bool) (wr : Option (BitVec 16)) (s : State) : (accessSizeError who addr half wr s).flash = s.flash := by (unfold accessSizeError; repeat' (first | with_reducible rfl | (simp only [apply_ite State.flash, ite_self, implies_true, keep_flash (coreTrap_keep _ _ _), keep_flash (event_keep _ _ _), keep_flash (errorToken_keep _), keep_flash (absentAccess_keep _ _), keep_flash (acked_keep _), keep_flash (answer_keep _ _), keep_flash (storeLocal_keep _ _ _ _)]) | (split; skip) | intro _ | refine (forAll_flash _ _ _ ?_).trans ?_ | refine (foldl_keep _ ?_ _ _).trans ?_ | refine (needsCell_keep _ _ _ _ ?_).trans ?_ | refine (withGroup_keep _ _ _ _ ?_).trans ?_))
@[simp] theorem accessSizeError_conf (who : Who) (addr : Word) (half : Bool) (wr : Option (BitVec 16)) (s : State) : (accessSizeError who addr half wr s).conf = s.conf := by (unfold accessSizeError; repeat' (first | with_reducible rfl | (simp only [apply_ite State.conf, ite_self, implies_true, keep_conf (coreTrap_keep _ _ _), keep_conf (event_keep _ _ _), keep_conf (errorToken_keep _), keep_conf (absentAccess_keep _ _), keep_conf (acked_keep _), keep_conf (answer_keep _ _), keep_conf (storeLocal_keep _ _ _ _)]) | (split; skip) | intro _ | refine (forAll_conf _ _ _ ?_).trans ?_ | refine (foldl_keep _ ?_ _ _).trans ?_ | refine (needsCell_keep _ _ _ _ ?_).trans ?_ | refine (withGroup_keep _ _ _ _ ?_).trans ?_))
@[simp] theorem accessSizeError_image (who : Who) (addr : Word) (half : Bool) (wr : Option (BitVec 16)) (s : State) : (accessSizeError who addr half wr s).image = s.image := by (unfold accessSizeError; repeat' (first | with_reducible rfl | (simp only [apply_ite State.image, ite_self, implies_true, keep_image (coreTrap_keep _ _ _), keep_image (event_keep _ _ _), keep_image (errorToken_keep _), keep_image (absentAccess_keep _ _), keep_image (acked_keep _), keep_image (answer_keep _ _), keep_image (storeLocal_keep _ _ _ _)]) | (split; skip) | intro _ | refine (forAll_image _ _ _ ?_).trans ?_ | refine (foldl_keep _ ?_ _ _).trans ?_ | refine (needsCell_keep _ _ _ _ ?_).trans ?_ | refine (withGroup_keep _ _ _ _ ?_).trans ?_))
@[simp] theorem absentUnitAccess_keep (addr : Word) (write : Bool) (s : State) : (absentUnitAccess addr write s).keep = s.keep := by (simp only [absentUnitAccess, apply_ite State.keep, ite_self, keep_mk, implies_true, absentAccess_keep])

end Sys2Proof.Machine
end

