-- ==== Sys2Proof/Laws/Memory.lean ====
section
/-! SUPPORT. Memory.lean: what the memory operations read, write and keep. -/

namespace Sys2Proof.Machine

/-- The canonical form, said over the whole list: addresses rise strictly, and no entry equals what an unlisted byte reads as. -/
theorem memory_wf_iff (m : List Host.Cell) :
    Memory.wf m = true ↔ m.Pairwise (fun a b => a.1 < b.1) ∧ ∀ c ∈ m, c.2 ≠ memDefault c.1 := by
  induction m with
  | nil => simp [Memory.wf]
  | cons c r ih =>
    cases r with
    | nil => simp [Memory.wf]
    | cons d r =>
      have hd : Memory.wf (c :: d :: r) = (c.2 != memDefault c.1 && decide (c.1 < d.1) && Memory.wf (d :: r)) := rfl
      rw [hd, Bool.and_eq_true, Bool.and_eq_true, ih, List.pairwise_cons (l := d :: r)]
      constructor
      · rintro ⟨⟨h1, h2⟩, h3, h4⟩
        have h2 := of_decide_eq_true h2
        have hr := (List.pairwise_cons.1 h3).1
        exact ⟨⟨by rintro a (_ | ⟨_, ha⟩); exacts [h2, lt_trans h2 (hr a ha)], h3⟩,
               by rintro a (_ | ⟨_, ha⟩); exacts [by simpa using h1, h4 a ha]⟩
      · rintro ⟨⟨h1, h2⟩, h3⟩
        exact ⟨⟨by simpa using h3 c (by simp), by simpa using h1 d (by simp)⟩, h2, fun a ha => h3 a (by simp [ha])⟩

theorem mem_memPut (m : List Host.Cell) (k : Nat) (v : Byte) (c : Host.Cell) (h : c ∈ memPut m k v) : c = (k, v) ∨ c ∈ m := by
  induction m with
  | nil => simpa [memPut] using h
  | cons d r ih =>
    unfold memPut at h
    split at h
    · simpa using h
    · split at h
      · simp at h ⊢; tauto
      · simp at h ⊢; rcases h with h | h
        · exact .inr (.inl h)
        · rcases ih h with h | h
          · exact .inl h
          · exact .inr (.inr h)

theorem memPut_wf (m : List Host.Cell) (k : Nat) (v : Byte) (hv : v ≠ memDefault k) (h : Memory.wf m = true) :
    Memory.wf (memPut m k v) = true := by
  rw [memory_wf_iff] at h ⊢
  refine ⟨?_, fun c hc => ?_⟩
  · obtain ⟨h, -⟩ := h
    induction m with
    | nil => simp [memPut]
    | cons d r ih =>
      have hp := List.pairwise_cons.1 h
      unfold memPut
      split
      · rename_i hk
        exact List.pairwise_cons.2 ⟨by rintro a (_ | ⟨_, ha⟩); exacts [hk, lt_trans hk (hp.1 a ha)], h⟩
      · split
        · rename_i _ hk; subst hk; exact List.pairwise_cons.2 ⟨hp.1, hp.2⟩
        · rename_i h1 h2
          refine List.pairwise_cons.2 ⟨fun a ha => ?_, ih hp.2⟩
          rcases mem_memPut _ _ _ _ ha with rfl | ha
          · simp only; omega
          · exact hp.1 a ha
  · rcases mem_memPut _ _ _ _ hc with rfl | hc
    · exact hv
    · exact h.2 c hc

theorem memDel_sublist (m : List Host.Cell) (k : Nat) : (memDel m k).Sublist m := by
  induction m with
  | nil => exact .slnil
  | cons d r ih =>
    unfold memDel
    split
    · exact List.sublist_cons_self _ _
    · exact ih.cons_cons _

/-- A part of a canonical memory is canonical. -/
theorem sublist_wf {l m : List Host.Cell} (hs : l.Sublist m) (h : Memory.wf m = true) : Memory.wf l = true := by
  rw [memory_wf_iff] at h ⊢
  exact ⟨h.1.sublist hs, fun c hc => h.2 c (hs.subset hc)⟩

theorem filter_wf (m : List Host.Cell) (p : Host.Cell → Bool) (h : Memory.wf m = true) : Memory.wf (m.filter p) = true :=
  sublist_wf List.filter_sublist h

/-- A byte write keeps the canonical form. -/
theorem memWrite_wf (m : List Host.Cell) (k : Nat) (v : Byte) (h : Memory.wf m = true) : Memory.wf (memWrite m k v) = true := by
  unfold memWrite
  split
  · exact sublist_wf (memDel_sublist m k) h
  · exact memPut_wf m k v ‹_› h

/-- A write of several bytes keeps the canonical form. -/
theorem memWrites_wf (b : List Byte) (m : List Host.Cell) (k : Nat) (h : Memory.wf m = true) :
    Memory.wf (memWrites m k b) = true := by
  induction b generalizing m k with
  | nil => exact h
  | cons v b ih => exact ih _ _ (memWrite_wf m k v h)

theorem memRead_memPut (m : List Host.Cell) (k j : Nat) (v : Byte) :
    memRead (memPut m k v) j = if j = k then v else memRead m j := by
  induction m with
  | nil => simp [memPut, memRead, eq_comm]
  | cons d r ih =>
    obtain ⟨a, w⟩ := d
    unfold memPut
    split
    · rename_i hk; simp only [memRead, @eq_comm _ k j]
    · split
      · rename_i _ hk; subst hk; simp only [memRead, @eq_comm _ k j]; split <;> simp_all
      · rename_i _ hk
        simp only [memRead, ih]
        by_cases ha : a = j
        · subst ha; simp [Ne.symm hk]
        · simp [ha]

theorem memRead_not_mem (m : List Host.Cell) (k : Nat) (h : ∀ c ∈ m, c.1 ≠ k) : memRead m k = memDefault k := by
  induction m with
  | nil => rfl
  | cons d r ih =>
    obtain ⟨a, w⟩ := d
    have : a ≠ k := h (a, w) (by simp)
    simp [memRead, this, ih (fun c hc => h c (by simp [hc]))]

theorem memRead_memDel (m : List Host.Cell) (k j : Nat) (h : Memory.wf m = true) :
    memRead (memDel m k) j = if j = k then memDefault k else memRead m j := by
  induction m with
  | nil => simp [memDel, memRead]; rintro rfl; rfl
  | cons d r ih =>
    obtain ⟨a, w⟩ := d
    have hp := List.pairwise_cons.1 ((memory_wf_iff _).1 h).1
    have hr : Memory.wf r = true := sublist_wf (List.sublist_cons_self _ _) h
    unfold memDel
    split
    · rename_i hk; subst hk
      split
      · subst_vars; exact memRead_not_mem _ _ (fun c hc => (ne_of_gt (hp.1 c hc)))
      · rename_i hj; simp [memRead, Ne.symm hj]
    · rename_i hk
      simp only [memRead, ih hr]
      split <;> simp_all

/-- A byte reads as what was written to it, and a write leaves every other byte as it reads. -/
theorem memRead_memWrite (m : List Host.Cell) (k j : Nat) (v : Byte) (h : Memory.wf m = true) :
    memRead (memWrite m k v) j = if j = k then v else memRead m j := by
  unfold memWrite
  split
  · rename_i hv; rw [memRead_memDel m k j h, hv]
  · exact memRead_memPut m k j v

/-- A write of several bytes reads back byte by byte, and leaves every other byte as it reads. -/
theorem memRead_memWrites (b : List Byte) (m : List Host.Cell) (k j : Nat) (h : Memory.wf m = true) :
    memRead (memWrites m k b) j = if k ≤ j ∧ j < k + b.length then b.getD (j - k) 0 else memRead m j := by
  induction b generalizing m k with
  | nil => simp [memWrites]
  | cons v b ih =>
    simp only [memWrites, List.length_cons]
    rw [ih _ _ (memWrite_wf m k v h), memRead_memWrite m k j v h]
    by_cases hj : j = k
    · subst hj; simp
    · by_cases h1 : k + 1 ≤ j ∧ j < k + 1 + b.length
      · have h2 : k ≤ j ∧ j < k + (b.length + 1) := by omega
        have h3 : j - k = (j - (k + 1)) + 1 := by omega
        rw [if_pos h1, if_pos h2, h3, List.getD_cons_succ]
      · have h2 : ¬ (k ≤ j ∧ j < k + (b.length + 1)) := by omega
        rw [if_neg h1, if_neg h2, if_neg hj]

theorem confToMem_wf (m : List Host.Cell) (i : Nat) (c : ConfRec) (h : Memory.wf m = true) : Memory.wf (confToMem m i c) = true := by
  unfold confToMem; split; exacts [memWrites_wf _ _ _ h, h]

theorem bbToMem_wf (m : List Host.Cell) (p : Nat) (r : BbRec) (h : Memory.wf m = true) : Memory.wf (bbToMem m p r) = true :=
  memWrites_wf _ _ _ h

end Sys2Proof.Machine
end

