-- ==== Sys2Proof/Laws/Lasting.lean ====
section
/-! SUPPORT. Lasting.lean: what a command never undoes: the queue it was taken from, the fuses, the number of confirmation records,
and the canonical form of memory. One lemma for each operation that reaches these parts. -/

namespace Sys2Proof.Machine

/-- From s to t the queue, the serial number, the variant and the number of confirmation records are as before, OPENED is not
cleared, burnt keys stay, and the canonical form of memory is kept. -/
structure Respects (s t : State) : Prop where
  pending : t.pending = s.pending
  serial : t.fuse.serial = s.fuse.serial
  variant : t.fuse.variant = s.fuse.variant
  opened : s.fuse.opened = true → t.fuse.opened = true
  key : s.fuse.keyDigest.isSome → t.fuse.keyDigest = s.fuse.keyDigest ∧ t.fuse.devPub = s.fuse.devPub
  conf : t.conf.length = s.conf.length
  mem : Memory.wf s.mem = true → Memory.wf t.mem = true

theorem Respects.refl (s : State) : Respects s s := ⟨rfl, rfl, rfl, id, fun _ => ⟨rfl, rfl⟩, rfl, id⟩
theorem Respects.trans {s t u : State} (h : Respects s t) (k : Respects t u) : Respects s u :=
  ⟨k.pending.trans h.pending, k.serial.trans h.serial, k.variant.trans h.variant, fun x => k.opened (h.opened x),
   fun x => by
     have a := h.key x
     have b := k.key (by rw [a.1]; exact x)
     exact ⟨b.1.trans a.1, b.2.trans a.2⟩,
   k.conf.trans h.conf, fun x => k.mem (h.mem x)⟩
theorem Respects.of_keep {s t : State} (h : t.keep = s.keep) : Respects s t := by
  have hf := keep_fuse h
  exact ⟨keep_pending h, by rw [hf], by rw [hf], by rw [hf]; exact id, by rw [hf]; exact fun _ => ⟨rfl, rfl⟩,
    by rw [keep_conf h], by rw [keep_mem h]; exact id⟩

theorem foldl_bb_wf (l : List (Nat × BbRec)) (m) (h : Memory.wf m = true) : Memory.wf (l.foldl (fun m p => bbToMem m p.1 p.2) m) = true := by
  induction l generalizing m with
  | nil => exact h
  | cons x l ih => exact ih _ (bbToMem_wf _ _ _ h)

theorem copyAreas_r (s : State) : Respects s (copyAreas s) :=
  ⟨rfl, rfl, rfl, id, fun _ => ⟨rfl, rfl⟩, rfl, fun h => foldl_bb_wf _ _ (confToMem_wf _ _ _ (confToMem_wf _ _ _ (filter_wf _ _ h)))⟩

theorem mem_r (s : State) (m) (h : Memory.wf s.mem = true → Memory.wf m = true) : Respects s { s with mem := m } :=
  ⟨rfl, rfl, rfl, id, fun _ => ⟨rfl, rfl⟩, rfl, h⟩

theorem blackboxProgrammed_r (ok) (s : State) : Respects s (blackboxProgrammed ok s) := by
  unfold blackboxProgrammed
  split
  · exact .refl s
  · dsimp only
    split
    · refine .trans (.of_keep (onChip_keep _ _)) (mem_r _ _ (fun h => bbToMem_wf _ _ _ h))
    · exact .of_keep (by simp)

theorem takeImage_r (b p) (s : State) : Respects s (takeImage b p s) := by
  unfold takeImage
  split
  · exact .refl s
  · dsimp only
    split
    · refine .trans (.trans ?_ (.of_keep (onChip_keep _ _))) (.of_keep (event_keep _ _ _))
      exact ⟨rfl, rfl, rfl, id, fun _ => ⟨rfl, rfl⟩, rfl, id⟩
    · refine .trans ?_ (.of_keep (onChip_keep _ _))
      exact ⟨rfl, rfl, rfl, id, fun _ => ⟨rfl, rfl⟩, rfl, id⟩

theorem startFrom_r (p f v) (s : State) : Respects s (startFrom p f v s) := by
  unfold startFrom
  split
  · exact .of_keep (by simp)
  · dsimp only
    have hk := checkSlots_keep v (candidates (readHeader true (readHeader false s))) (readHeader true (readHeader false s))
    have h0 : (readHeader true (readHeader false s)).keep = s.keep := by simp
    revert hk
    rcases checkSlots _ _ _ with ⟨_ | b, t⟩ <;> intro hk <;> dsimp only at hk ⊢
    · exact .of_keep (by simp [hk])
    · have h2 : Respects s (selfTests f (copyAreas (loadAll (takeImage b p t)))) :=
        ((((Respects.of_keep (hk.trans h0)).trans (takeImage_r b p t)).trans (.of_keep (loadAll_keep _))).trans (copyAreas_r _)).trans
          (.of_keep (selfTests_keep _ _))
      split
      · exact h2
      · exact h2.trans (.of_keep (enterStep8_keep _))

theorem startSequence_r (p f v) (s : State) : Respects s (startSequence p f v s) := by
  unfold startSequence; split; exacts [startFrom_r _ _ _ _, .refl s]

theorem resetTo_r (k f) (s : State) : Respects s (resetTo k f s) := by
  refine ⟨rfl, rfl, rfl, id, fun _ => ⟨rfl, rfl⟩, rfl, fun h => ?_⟩
  unfold resetTo
  dsimp only
  split
  · rfl
  · exact filter_wf _ _ h

theorem resetBegin_r (s : State) : Respects s (resetBegin s) := by
  unfold resetBegin
  split
  · exact .refl s
  · split; exacts [.refl s, resetTo_r _ _ _]

theorem testModeEntry_r (ok) (s : State) : Respects s (testModeEntry ok s) := by
  unfold testModeEntry
  split
  · exact ⟨rfl, rfl, rfl, fun _ => rfl, fun _ => ⟨rfl, rfl⟩, rfl, id⟩
  · exact .refl s

theorem conf_r (s : State) (i f m) (h : Memory.wf s.mem = true → Memory.wf m = true) :
    Respects s { s with conf := updAt s.conf i f, mem := m } :=
  ⟨rfl, rfl, rfl, id, fun _ => ⟨rfl, rfl⟩, updAt_length _ _ _, h⟩

theorem confirmationWriteDone_r (ok) (s : State) : Respects s (confirmationWriteDone ok s) := by
  unfold confirmationWriteDone
  split
  · exact .refl s
  · dsimp only
    split
    · exact (conf_r _ _ _ _ (confToMem_wf _ _ _)).trans (.of_keep (by simp only [replyNow_keep, event_keep, onSaf_keep]; rfl))
    · exact (conf_r s _ _ _ id).trans (.of_keep (replyNow_keep _ _ _ _ _))

theorem slotAfter_r (e) (s : State) : Respects s (slotAfter e s) := by
  unfold slotAfter
  dsimp only
  split
  · exact .refl s
  · split <;> exact ⟨rfl, rfl, rfl, id, fun _ => ⟨rfl, rfl⟩, rfl, id⟩

theorem flashOpDone_r (k) (s : State) : Respects s (flashOpDone k s) := by
  unfold flashOpDone
  split
  · exact .refl s
  · dsimp only
    rename_i o e q _
    have h : Respects s (slotAfter e (onHost (fun h => { h with flash := q }) s)) :=
      (Respects.of_keep (onHost_keep _ _)).trans (slotAfter_r _ _)
    split
    · exact h.trans (.of_keep (by simp))
    · exact h.trans (.of_keep (by simp))

theorem firstStart_r (s : State) : Respects s (firstStart s) := by
  unfold firstStart
  split
  · exact .refl s
  · exact ⟨rfl, rfl, rfl, id, fun h => absurd h ‹_›, rfl, id⟩

theorem enterRunning_r (s : State) : Respects s (enterRunning s) := by
  unfold enterRunning
  exact ((Respects.of_keep (by simp)).trans (firstStart_r _)).trans (.of_keep (recordAtStart_keep _))

@[simp] theorem freeSamples_keep (n : Nat) (s : State) : (freeSamples n s).2.keep = s.keep := by
  induction n generalizing s with
  | zero => rfl
  | succ n ih => exact (ih _).trans rfl

theorem ringForm_keep (s : State) (l : List RingSt) : State.keep { s with ring := l } = s.keep := rfl

theorem ringStart_r (n) (s : State) : Respects s (ringStart n s) := by
  unfold ringStart
  split
  · exact .refl s
  · dsimp only
    refine .trans ?_ (.of_keep (startTick_keep _ _ _))
    refine .trans ?_ (.of_keep (freeSamples_keep _ _))
    refine .trans ?_ (.of_keep (event_keep _ _ _))
    refine .trans ?_ (enterRunning_r _)
    refine .trans ?_ (.of_keep (onHost_keep _ _))
    refine .trans ?_ (.of_keep (ringForm_keep _ _))
    exact .of_keep ((onTime_keep _ _).trans (advanceTb_keep _ _))

theorem firstEdgeOf_r (s : State) : Respects s (firstEdgeOf s) := by
  unfold firstEdgeOf
  dsimp only
  refine .trans ?_ (enterRunning_r _)
  refine .trans ?_ (.of_keep (nodeNonce_keep _))
  refine .trans ?_ (.of_keep (ringForm_keep _ _))
  exact .of_keep ((onTime_keep _ _).trans (advanceTb_keep _ _))

theorem followStart_r (s : State) : Respects s (followStart s) := by
  unfold followStart
  split
  · exact .trans (.of_keep (nodeNonce_keep _)) (enterRunning_r _)
  · exact .refl _

theorem putRecord_r (b) (s : State) : Respects s (putRecord b s) := by
  unfold putRecord
  dsimp only
  split
  · exact .trans (.of_keep (onRec_keep _ _)) (mem_r _ _ (fun h => memWrites_wf _ _ _ (memWrites_wf _ _ _ h)))
  · exact .refl s

theorem recordWrite_r (ok) (s : State) : Respects s (recordWrite ok s) := by
  unfold recordWrite
  dsimp only
  split
  · exact .refl s
  · split
    · exact .trans (.trans (putRecord_r _ _) (.of_keep (onRec_keep _ _))) (.of_keep (onRec_keep _ _))
    · exact .of_keep (by simp)

theorem tickEnds_r (r) (s : State) : Respects s (tickEnds r s) :=
  .trans (.of_keep (by simp)) (recordWrite_r r _)

theorem tickEdge_r (e r) (s : State) : Respects s (tickEdge e r s) := by
  unfold tickEdge
  split
  · exact .refl s
  · split
    · split
      · exact .trans (firstEdgeOf_r s) (.of_keep (startTick_keep _ _ _))
      · exact .refl s
    · refine .trans ?_ (.of_keep (startTick_keep _ _ _))
      refine .trans ?_ (followStart_r _)
      refine .trans ?_ (.of_keep (countTick_keep _))
      exact .trans (tickEnds_r _ _) (.of_keep (clearTick_keep _))

theorem registerWrite_r (w a v) (s : State) : Respects s (registerWrite w a v s) := by
  unfold registerWrite
  dsimp only
  split
  · exact .of_keep (by simp)
  · split
    all_goals first
      | exact .of_keep (by simp)
      | (split
         · refine .trans ?_ (.of_keep (acked_keep _))
           exact mem_r _ _ (fun h => memWrites_wf _ _ _ h)
         · exact .of_keep (by simp))

theorem accessSizeError_r (w a h v) (s : State) : Respects s (accessSizeError w a h v s) := by
  unfold accessSizeError
  generalize (if h = true then 2 else 1) = n
  cases v
  · dsimp only
    split
    · exact .of_keep (by simp)
    · split
      all_goals first
        | (split <;> exact .of_keep (by simp))
        | exact .of_keep (by simp)
  · dsimp only
    split
    · exact .of_keep (by simp)
    · split
      all_goals first
        | (split
           · exact .of_keep (by simp)
           · refine .trans ?_ (.of_keep (acked_keep _))
             exact mem_r _ _ (fun h => memWrites_wf _ _ _ h))
        | exact .of_keep (by simp)

theorem run_r {f : State → State} {s t : State} (h : run f s = .next t) (k : Respects s (f s)) : Respects s t := by
  unfold run at h
  injection h with h
  subst h
  exact k.trans (.of_keep (settle_keep _ _))
theorem within_r {r : Region} {f : State → State} {s : State} (k : Respects s (f s)) : Respects s (within r f s) := by
  unfold within; split; exacts [k, .refl s]
theorem access_r {r : Region} {f : State → State} {s : State} (k : Respects s (f s)) : Respects s (access r f s) := by
  unfold access; split; exacts [.of_keep (errorToken_keep s), k]
end Sys2Proof.Machine
end

