-- ==== Sys2Proof/Tests/Slice0.lean ====
section
/-! SUPPORT. Tests/Slice0.lean: the small cell of the tests, ill-formed commands that WellFormed refuses, worked examples of the
manual, and for each statement states and operands that meet the hypotheses of each of its clauses. -/

open Sys2Proof Sys2Proof.Machine

namespace Sys2Proof.Tests

set_option Elab.async false
set_option linter.unusedVariables false

/-- The image of the small cell that witnesses stand on: two groups, a ring with two nodes, one slice, one flow of each type. -/
def cellImage : Image := {
  axes := [
    { defined := true, src := .axio 0, dst := .axio 0 },
    { defined := true, index := 1, src := .ring 0 1 0, dst := .ring 0 1 0 },
    { defined := true, group := 1 },
    { defined := true, group := 1, index := 1, src := .axio 1, dst := .axio 2 }],
  groups := [
    { defined := true, nj := 2, tsrc := 2, nstill := 2, tss1max := 100, tdeg := 5, brkdly := 2, sets := 1 },
    { defined := true, nj := 2, tss1max := 10, sets := 1 }],
  slices := [{ ax0 := 0, ax1 := 1 }, { s := 1, ax0 := 2 }],
  chans := [{ mode := 1, cpr := 4096, hmode := 1 }, { mode := 4 }, { mode := 2, maxstep := 100 }],
  rings := [
    { role := 1, nodes := [0, 1, 2],
      slots := [{}, { kind := 1, nseg := 2 }, { kind := 2, nseg := 2 }, { kind := 3 }],
      segs := [{ node := 1, nax := 1 }, { node := 2, nax := 1 }], spares := [{ id := 0, node := 3, vendor := 7, product := 9 }] },
    { role := 2 }],
  probs := [{ op := 1, n := 2, fww := true }, { id := 1, op := 5, n := 2, m := 2, anytime := true, iter := 10 }],
  sensors := [{ defined := true, pduId := 1 }], objs := [{ defined := true }],
  inputs := [{ func := 1, gmask := 1 }, { func := 5, gmask := 3 }, { func := 6, gmask := 1 }],
  rx := [{ defined := true, pduId := 1, len := 8, gmask := 1 }], tx := [{ defined := true, pduId := 2 }],
  flows := [
    { type := 1, en := true, cores := 1, maxpend := 2, reldl := 1000, maxrun := 10, tperiod := 1000 },
    { id := 1, type := 2, en := true, cores := 1, snaps := [{ skind := 6 }], gdep := 1 },
    { id := 2, type := 3, en := true, cores := 1, bind := 32 }],
  queues := List.replicate 32 { depth := 4, cons := 0, fw := true },
  keys := [{ role := .operator }, { role := .engineering }, { role := .safety }, { role := .maintenance }],
  nets := [{ mailbox := some 17 }, {}] }

/-- The small cell, running. -/
def cell : State := {
  image := cellImage,
  chip := { phase := .running, pstate := .run },
  time := { run := true, tickno := 100, tstart := 1000000, tb := 4125000, servo := 3 },
  ring := [
    { role := 1, state := .run, members := 7, ports := [{ up := true }, { up := true }] },
    { role := 2, node := 1, state := .run, ports := [{ up := true }, { up := true }] }],
  mot := {
    groups := { state := .moving, active := some {}, toolOk := true } :: { state := .idle, toolOk := true } :: List.replicate 14 {},
    slices := [
      { present := true, ax0 := 0, ax1 := 1, run := .run, pc := 0x20 },
      { s := 1, present := true, ax0 := 2, run := .run, pc := 0x20 }, { s := 8, present := true, run := .idle }] },
  saf := { lineCmd := 3, level := 3, match_ := true },
  host := { flows := { en := true } :: { en := true } :: { en := true } :: List.replicate 1021 {}, ports := List.replicate 4 { up := true }, nonce := 77 } }

/-- Slice b.sl of a witness is x. -/
def setSlice (b sl : Nat) (x : SliceSt) (s : State) : State :=
  { s with mot := { s.mot with slices := { x with b := b, s := sl } :: s.mot.slices } }

/-- Update arbiter n of a witness. -/
def onArb (n : Nat) (f : ArbSt → ArbSt) (s : State) : State :=
  { s with chip := { s.chip with arbs := updAt s.chip.arbs n f } }

/-- A table of a witness with room for element n. -/
def grow {α : Type} [Inhabited α] (l : List α) (n : Nat) : List α := l ++ List.replicate (n + 1 - l.length) default

/-- A receive copy with its check in place. -/
def okPdu (c : RxCfg) (d : Pdu) : Pdu :=
  let d := { d with id := c.pduId, len := c.len, payload := List.replicate c.len 5 }
  { d with crc := crc32c (pduBytes d) }

/-- A valid time domain. -/
def goodDom : DomSt := { best := some { cls := 6 }, annFresh := true, syncFresh := true, below := 3 }

/-- The small cell with precision time on. -/
def timed (f : TimeSt → TimeSt) : State :=
  { cell with time := f { cell.time with profile := 1, everFoll := true, sel := false, doms := [goodDom, {}] } }

/-- The receive PDU record 0 of a witness. -/
def rx0 : RxCfg := { defined := true, pduId := 1, len := 8, gmask := 1 }

/-- The small cell whose receive record 0 is x. -/
def onRx0 (x : RxSt) : State := { cell with saf := { cell.saf with rx := x :: cell.saf.rx.drop 1 } }

/-- The small cell before its image is loaded. -/
def starting : State := { cell with chip := { cell.chip with phase := .reset } }

/-! ### WellFormed: an ill-formed command per check -/

theorem test_wf_phase : (Instr.phaseDeadline 10).wf = false ∧ (Instr.phaseCompletion 10 0 0).wf = false ∧
    (Instr.phaseDeadline 9).wf = true := by decide
theorem test_wf_problem : (Instr.solverJobDone 256).wf = false ∧ (Instr.anytimeStop 256 1).wf = false ∧
    (Instr.solverMissLimit 256).wf = false ∧ (Instr.problemEnableWrite 256 true).wf = false ∧
    (Instr.problemClearLost 256).wf = false ∧ (Instr.problemClearLost 255).wf = true := by decide
theorem test_wf_object : (Instr.objectStale 32).wf = false ∧ (Instr.objectStale 31).wf = true := by decide
theorem test_wf_channel : (Instr.stepPulse 32).wf = false ∧ (Instr.quadEdge 32 default).wf = false ∧
    (Instr.compareArm 31 4 true).wf = false ∧ (Instr.limitInputChange 31 3 true 2 0).wf = false ∧
    (Instr.homingStart 32).wf = false ∧ (Instr.comparePulseEnd 32).wf = false ∧ (Instr.compareArm 31 3 true).wf = true := by decide
theorem test_wf_group : (Instr.enableComplete 16).wf = false ∧ (Instr.standstill 16).wf = false ∧
    (Instr.toolIdentity 16 default).wf = false ∧ (Instr.zoneRelease {} 16 0).wf = false ∧ (Instr.standstill 15).wf = true := by decide
theorem test_wf_axis : (Instr.remoteHomeTimeout 128).wf = false ∧ (Instr.home {} 128).wf = false ∧ (Instr.home {} 127).wf = true := by
  decide
theorem test_wf_safety_lines : (Instr.testPulse 4 0 0).wf = false ∧ (Instr.safetyInputChange 16 true true 1).wf = false ∧
    (Instr.inputDiscrepancy 16).wf = false ∧ (Instr.pduWatchdog 16 true).wf = false ∧ (Instr.pduCompareWindowExpiry 16).wf = false ∧
    (Instr.voltageMonitorTrip 256).wf = false ∧ (Instr.temperatureMonitorTrip 256).wf = false ∧
    (Instr.testPulse 3 0 0).wf = true := by decide
theorem test_wf_fault_place : (Instr.sliceFault .mot 16 0 4).wf = false ∧ (Instr.sliceFault .mot 0 16 4).wf = false ∧
    (Instr.sliceFault .mot 0 0 1).wf = false ∧
    (Instr.quarantinedAccess .sol 16).wf = false ∧ (Instr.sliceFault .mot 15 15 4).wf = true := by decide
theorem test_wf_arbiter : (Instr.lockRequest 20 0).wf = false ∧ (Instr.grantRequest 0 64 1).wf = false ∧
    (Instr.arbiterDecision 20).wf = false ∧ (Instr.crossingAccess 0 0 7 0).wf = false ∧ (Instr.crossingWatchdog 64).wf = false ∧
    (Instr.crossingResponse 64 0 default).wf = false ∧ (Instr.lockRequest 19 63).wf = true := by decide
theorem test_wf_prune : (Instr.pruneSolverJob 256).wf = false ∧ (Instr.pruneTrellisBatch 65536).wf = false ∧
    (Instr.pruneWorkItem 4096).wf = false ∧ (Instr.pruneFlow 1024).wf = false ∧ (Instr.pruneCrossingAccess 64).wf = false ∧
    (Instr.prunePlantQueue 8).wf = false ∧ (Instr.pruneRegion 256 true).wf = false ∧ (Instr.pruneKindInvalid 16).wf = false ∧
    (Instr.prune {} 16 0 0).wf = false ∧ (Instr.prune {} 15 255 65535).wf = true := by decide
theorem test_wf_time : (Instr.ptpEventForward 4 0 0 true true true default 0 0).wf = false ∧ (Instr.triggerEdge 4).wf = false ∧
    (Instr.captureRead 4).wf = false ∧ (Instr.trigger {} 4 default).wf = false ∧ (Instr.captureRead 3).wf = true := by decide
theorem test_wf_ring : (Instr.ringSlotStart 2 0).wf = false ∧ (Instr.ringSlotStart 1 256).wf = false ∧
    (Instr.portDown 3 true).wf = false ∧ (Instr.guardianSilence 0 32).wf = false ∧ (Instr.coldStart 2 0).wf = false ∧
    (Instr.portDown 2 true).wf = true := by decide
theorem test_wf_slice : (Instr.sNop 8 0).wf = false ∧ (Instr.sNop 0 9).wf = false ∧ (Instr.sAdd 8 0 0 0 0).wf = false ∧
    (Instr.illegalOperation 0 9 1).wf = false ∧ (Instr.spareSelftestDone 8 true).wf = false ∧ (Instr.sNop 7 8).wf = true := by decide
theorem test_wf_zone : (Instr.zoneFreeze 256).wf = false ∧ (Instr.zoneUnfreeze 256).wf = false ∧
    (Instr.zoneRelease {} 15 256).wf = false ∧ (Instr.zoneFreeze 255).wf = true := by decide
theorem test_wf_core : (Instr.enqueue 8 0).wf = false ∧ (Instr.coreTrap 8 0).wf = false ∧ (Instr.timerEnqueue 1024 0).wf = false ∧
    (Instr.itemDeadline 4096 0).wf = false ∧ (Instr.publishFlip 64).wf = false ∧ (Instr.queuePush 0 32 1).wf = false ∧
    (Instr.queuePush 0 31 2048).wf = false ∧ (Instr.queueAck default 31 512).wf = false ∧
    (Instr.queueAck default 31 511).wf = true := by decide
theorem test_wf_network : (Instr.plantLinkDown 4).wf = false ∧ (Instr.arpRequest 2).wf = false ∧
    (Instr.plantTransmitDone 4).wf = false ∧ (Instr.arpRequest 1).wf = true := by decide
theorem test_wf_command : (Instr.segment {} 0 []).wf = false ∧ (Instr.segment {} 0 (List.replicate 5 {})).wf = false ∧
    (Instr.override_ {} 1 65536).wf = false ∧ (Instr.sliceParam {} 0 0 []).wf = false ∧ (Instr.mode {} 256).wf = false ∧
    (Instr.flowmsg {} 1024 []).wf = false ∧ (Instr.mailbox {} 32 []).wf = false ∧ (Instr.imageWrite {} 0 (List.replicate 1017 0)).wf = false ∧
    (Instr.read {} 0 1025).wf = false ∧ (Instr.resetRegionRestart {} 256).wf = false ∧ (Instr.segment {} 0 [{}]).wf = true := by decide +kernel
theorem test_wf_restart : (Instr.regionRestart 256).wf = false ∧ (Instr.regionRestart 255).wf = true := by decide
theorem test_wf_tj : (Instr.temperatureMonitorClear 256).wf = false ∧ (Instr.spareFullSelftestDone 8 true).wf = false := by decide

/-! ### The words of the slice's instructions, written out from R188 and R189 -/

/-- LDI d3, −2 (I); ADD d1, d2, d3 (R3); LD d4, p1 + 0x123 (M); MAC a1, d2, d3 (A); B EQ 0x055; LOOPI 1 to 0x010, 5 times (L). -/
theorem test_words : decodeTableWord 32 0x05FFFFFE = some (.sLdi 0 0 3 0x7FFFFE) ∧
    decodeTableWord 32 0x40A60000 = some (.sAdd 0 0 1 2 3) ∧ decodeTableWord 32 0x0E200123 = some (.sLd 0 0 4 1 0 0x123) ∧
    decodeTableWord 32 0xA6980000 = some (.sMac 0 0 1 2 3) ∧ decodeTableWord 32 0xE042A800 = some (.sB 0 0 1 0x055) ∧
    decodeTableWord 32 0xF2040005 = some (.sLoopi 0 0 1 0x010 5) := by decide +kernel

/-- A reserved bit, a reserved opcode, a reserved COND and a word of another length spell nothing. -/
theorem test_words_reserved : decodeTableWord 32 0x40A60001 = none ∧ decodeTableWord 32 0xFC000000 = none ∧
    decodeTableWord 32 0xE1C00000 = none ∧ decodeTableWord 16 0 = none := by decide +kernel

/-! ### Worked examples of the manual -/

/-- The repair arm of 10_trellis_separation.md's worked example: group 1, sensor 0, person 3. -/
def armCell : State := {
  image := {
    groups := [{}, { defined := true, vlink := f32OfRat 2, tdrv := f32OfRat (1 / 2000), ts0 := f32OfRat (1 / 50),
                     abrk := f32OfRat 8, zr := f32OfRat (1 / 50) }],
    sensors := [{ defined := true, ageMax := 640, vhMin := 1600, cIntr := 100 }],
    objs := List.replicate 3 {} ++ [{ defined := true, person := true }] },
  trl := {
    g := List.replicate 2 { sigC := 32768 },
    objs := List.replicate 3 {} ++ [{ present := true, age := 200, speed := 1200, zd := 50 }] } }

/-- S_p(0) and S_p(1) of the example bound the distance 0.700 m, and HFULL reads 905 mm. -/
theorem test_hedge_full : mmUp (hedgeSp armCell 3 1 32768) = 905 ∧ mmUp (hedgeSp armCell 3 1 0) = 214 := by decide +kernel

/-- The pair at 0.700 m gets scale 25,190. -/
theorem test_hedge_scale : f32Le (hedgeSp armCell 3 1 25190) (metres 700) = true ∧
    f32Le (hedgeSp armCell 3 1 25191) (metres 700) = false ∧ bisect armCell 3 1 (metres 700) 16 0 32768 = 25190 := by
  decide +kernel

/-- A stale object at age 641 with the field's nearest point at 0.20 m gets scale 1,041. -/
theorem test_hedge_stale :
    bisect { armCell with trl := {
      g := List.replicate 2 { sigC := 25190 },
      objs := List.replicate 3 {} ++ [{ stale := true, age := 641 }] } } 3 1 (metres 200) 16 0 32768 = 1041 := by
  decide +kernel

/-- The coasting carriage of 11_safety_functions.md's worked example, k ticks after the decision: speeds in 2^-24 count. -/
def carriage (k : Nat) : State := {
  image := {
    axes := [{ defined := true, amon := f32OfRat (10 / 1024), etol := f32OfRat (1 / 2) }],
    groups := [{ defined := true, kdly := 2 }] },
  time := { tickno := 100 + k },
  mot := { axes := [{ used := true, fb := 786432000, fbTick := 100 + k, fbPrev := 0, fbPrevTick := 99 + k }] },
  saf := { g := [{ decTick := 100, v0 := [786432000] }] } }

/-- The coasting carriage keeps inside the envelope up to 53 ticks after the decision and leaves it at 54. -/
theorem test_envelope : envelope (carriage 53) 0 = false ∧ envelope (carriage 54) 0 = true := by decide +kernel

/-- LDI extends the sign of its immediate, from 23 bits to 24. -/
theorem test_ldi : (∃ t, exec (.sLdi 0 0 0 0x7FFFFF) cell = .next t ∧
    (sliceSt t 0 0).map (fun x => dReg (commit x) 0) = some 0xFFFFFF) := by
  exact ⟨_, rfl, by decide +kernel⟩

/-- CRC-32C of the nine ASCII digits, the check value of that polynomial. -/
theorem test_crc : crc32c [0x31, 0x32, 0x33, 0x34, 0x35, 0x36, 0x37, 0x38, 0x39] = 0xE3069283 := by decide +kernel

/-- The zone example of 10_trellis_separation.md: group 1 holds zone 9 (rank 30) and asks for zone 5 (rank 10). -/
theorem test_zone_rank :
    zoneRefusal { image.zones := [(5, 10), (9, 30)], trl := { g := List.replicate 2 { held := [9] } } } 1 5 = 1 ∧
    zoneRefusal { image.zones := [(5, 10), (9, 30)], trl := { g := List.replicate 2 { held := [5] } } } 1 9 = 0 := by decide +kernel

/-- The arbiter example of 02_fabric_hierarchy_arbitration.md: requester 5 locks plant A out (rank 12) and then asks for the
crypto engine (rank 0): CHIP_ORDER, and the lock stays held; with a bank of rank 3 locked first, rank 12 is accepted. -/
theorem test_arbiter_order :
    (∃ t, exec (.lockRequest 0 5) (onArb 12 (fun a => { a with lock := some 5 }) cell) = .next t ∧
      (assoc t.chip.ev 0).map (fun e => (e.code, e.detail)) = some (0x0110, 0) ∧ (arbSt t 12).lock = some 5 ∧
      (arbSt t 0).fresh = []) ∧
    (∃ t, exec (.lockRequest 12 5) (onArb 3 (fun a => { a with lock := some 5 }) cell) = .next t ∧
      t.chip.ev = [] ∧ (arbSt t 12).fresh = [{ id := 5, lock := true }]) :=
  ⟨⟨_, rfl, by decide +kernel⟩, _, rfl, by decide +kernel⟩

/-- A cell that gave key 0 SEQ 7,341 with digest 5. -/
def keyCell : State := { cell with host := { cell.host with keys := [{ last := 7341, hist := [{ seq := 7341, digest := 5 }] }] } }

/-- The datagram example of 14_plant_networks_commands.md: another target with the same SEQ is refused with code 4, DETAIL 7,341;
a copy with the same digest answers nothing, and the next SEQ waits for verification. -/
theorem test_command_sequence :
    (∃ t, exec (.commandDatagram .b { seq := 7341, digest := 6, body := .flush 2, nonce := 77 } 9) keyCell = .next t ∧
      t.host.vq = [] ∧ (t.host.sent.map (fun r => (r.code, r.detail))) = [(4, 7341)]) ∧
    (∃ t, exec (.commandDatagram .b { seq := 7341, digest := 5, body := .flush 2, nonce := 77 } 9) keyCell = .next t ∧
      t.host.vq = [] ∧ t.host.sent = []) ∧
    (∃ t, exec (.commandDatagram .b { seq := 7342, body := .flush 2, nonce := 77, relTick := 9 } 9) keyCell = .next t ∧
      t.host.vq.length = 1) :=
  ⟨⟨_, rfl, by decide +kernel⟩, ⟨_, rfl, by decide +kernel⟩, _, rfl, by decide +kernel⟩

/-! ### The hypotheses of the statements are met -/

/-- A mask with a check over its sixteen bits names groups. -/
theorem named_of {s : State} {m : Mask}
    (h : (!nodeMode s && (List.range 16).all fun g => !hasBit m g || (decide (g < maxGroups s) && (grpCfg s g).defined)) = true) :
    groupsNamed s m := by
  simp only [Bool.and_eq_true, Bool.not_eq_true', List.all_eq_true, List.mem_range, Bool.or_eq_true, decide_eq_true_eq] at h
  refine ⟨h.1, fun g hg => ?_⟩
  rcases h.2 g (by by_contra hc; exact absurd hg (by simp [hasBit, BitVec.getLsbD_of_ge m g (by omega)])) with h' | h'
  · simp [hg] at h'
  · exact h'

/-- A property of every group of a mask, by a check over sixteen. -/
theorem mask_all {m : Mask} {P : Nat → Prop} (h : ∀ g, g < 16 → hasBit m g = true → P g) : ∀ g, hasBit m g = true → P g := by
  intro g hg
  refine h g ?_ hg
  by_contra hc
  exact absurd hg (by simp [hasBit, BitVec.getLsbD_of_ge m g (by omega)])

/-- A property of every element of a table, by a check over its entries and the default. -/
theorem nth_all {α : Type} [Inhabited α] {P : Nat → α → Prop} (l : List α) (h : ∀ k, k < l.length → P k (nth l k))
    (hd : ∀ k, P k default) : ∀ k, P k (nth l k) := by
  intro k
  by_cases hk : k < l.length
  · exact h k hk
  · have e : nth l k = default := by simp [nth, List.getElem?_eq_none (Nat.le_of_not_lt hk)]
    rw [e]; exact hd k

theorem test_wit_Arbiters :
    (∃ (n id : Nat) (s : State), n < maxArbs s.fuse.variant ∧ n < s.chip.arbs.length ∧ (lockRanks s id).length < 4 ∧ (∀ m ∈
    lockRanks s id, m < n) ∧ isWaiting (arbSt s n) id = false) ∧
    (∃ (n id : Nat) (s : State), n < maxArbs s.fuse.variant ∧ (4 ≤ (lockRanks s id).length ∨ ∃ m ∈ lockRanks s id, n ≤ m)) ∧
    (∃ (n id len : Nat) (s : State), n < maxArbs s.fuse.variant ∧ n < s.chip.arbs.length ∧ ((arbSt s n).lock = some id ∨ ∀ m ∈
    lockRanks s id, m < n) ∧ isWaiting (arbSt s n) id = false) ∧
    (∃ (n id : Nat) (s : State), (arbSt s n).lock = some id) ∧
    (∃ (n id : Nat) (s : State), (arbSt s n).lock ≠ some id) ∧
    (∃ (n id : Nat) (s : State), (arbSt s n).lock = some id) ∧
    (∃ (n : Nat) (s : State), n < maxArbs s.fuse.variant ∧ n < s.chip.arbs.length) ∧
    (∃ (n : Nat) (s : State), n < maxArbs s.fuse.variant ∧ n < s.chip.arbs.length) ∧
    (∃ (n : Nat) (x y : ArbReq) (s : State), n < maxArbs s.fuse.variant ∧ n < s.chip.arbs.length ∧ (n < 15 ∨ 18 < n) ∧ (∀ m, (arbSt
    s m).grant ≠ some x.id) ∧ (arbSt s n).frz = false ∧ (arbSt s n).grant = none ∧ (arbSt s n).lock = none ∧ (arbSt s n).broken = [] ∧
    (arbSt s n).parked = [] ∧ ((arbSt s n).fresh = [x, y] ∨ (arbSt s n).fresh = [y, x]) ∧ x.lock = false ∧ x.id ≠ y.id ∧ (reqLevel s y <
    reqLevel s x ∨ reqLevel s y = reqLevel s x ∧ x.id < y.id)) ∧
    (∃ (n : Nat) (s : State), n < maxArbs s.fuse.variant ∧ n < s.chip.arbs.length ∧ (arbSt s n).frz = true) :=
  ⟨⟨0, 0, cell, by decide +kernel⟩,
   ⟨0, 0, ((fun (s : State) => { s with chip.arbs := updAt s.chip.arbs (0 + 1) (fun z => { z with lock := some 0 }) }) cell :
    State), by decide +kernel⟩,
   ⟨0, 0, 0, (onArb 0 (fun zz => { zz with lock := some 0 }) cell : State), by decide +kernel⟩,
   ⟨0, 0, (onArb 0 (fun zz => { zz with lock := some 0 }) cell : State), by decide +kernel⟩,
   ⟨0, 0, cell, by decide +kernel⟩,
   ⟨0, 0, (onArb 0 (fun zz => { zz with lock := some 0 }) cell : State), by decide +kernel⟩,
   ⟨0, cell, by decide +kernel⟩,
   ⟨0, cell, by decide +kernel⟩,
   ⟨0, ({ id := 1 } : ArbReq), ({ id := 2 } : ArbReq), (onArb 0 (fun z => { z with fresh := [{ id := 1 }, { id := 2 }] }) cell :
    State), by decide +kernel, by decide +kernel, by decide +kernel,
   nth_all (P := fun _ (x : ArbSt) => x.grant ≠ some 1) _ (by decide +kernel) (fun _ => by decide), by decide +kernel⟩,
   ⟨0, (onArb 0 (fun zz => { zz with frz := true }) cell : State), by decide +kernel⟩⟩

theorem test_wit_CrossingsAndAbsentUnits :
    (∃ (id sl dom pulses : Nat) (s : State), pulses ≤ 255) ∧
    (∃ (id sl dom pulses : Nat) (s : State), 255 < pulses ∧ id ≠ 34) ∧
    (∃ (id : Nat) (v : Word) (s : State), (∃ x ∈ s.chip.xPend, x.who = id)) ∧
    (∃ (id : Nat) (v : Word) (x : XAccess) (s : State), xPending s id = some x ∧ x.dom = 1) ∧
    (∃ (id : Nat) (s : State), (∃ x ∈ s.chip.xPend, x.who = id) ∧ (id < 8 ∨ 37 ≤ id)) ∧
    (∃ (r : Region) (b : Nat) (s : State), hasBit (regSt s r).quar b = true) ∧
    (∃ (w : Who) (a : Word) (half : Bool) (v : Option (BitVec 16)) (r : Region) (o : Nat) (s : State), tlFlow s w = none ∧ target
    (coreOf w) s a.toNat = .reg r o) ∧
    (∃ (w : Who) (a : Word) (half : Bool) (v : BitVec 16) (m : Nat) (s : State), tlFlow s w = none ∧ target (coreOf w) s a.toNat =
    .mem m ∧ dmaOk m = true) ∧
    (∃ (a : Nat) (s : State), ¬ (a < 0x200000000 ∨ 0x8000000000 ≤ a ∧ a < 0x8000800000)) ∧
    (∃ (a : Nat) (s : State), 0x20000 ≤ a ∧ a < 0x10000000) ∧
    (∃ (a : Word) (s : State), target none s a.toNat = .absent) ∧
    (∃ (a : Word) (s : State), target none s a.toNat = .absent) :=
  ⟨⟨0, 0, 0, 0, cell, by decide +kernel⟩,
   ⟨0, 0, 0, ((255 + 1 + 0) : Nat), cell, by decide +kernel⟩,
   ⟨0, (0 : Word), ((fun (s : State) => { s with chip.xPend := { who := 0 } :: s.chip.xPend }) cell : State), by decide +kernel⟩,
   ⟨0, (0 : Word), ({ ({ ({ ({} : XAccess) with dom := 1 } : XAccess) with dom := 1, who := 0 } : XAccess) with who := 0 } :
    XAccess), ((fun (s : State) =>
    { s with chip.xPend := ({ ({ ({ ({} : XAccess) with dom := 1 } : XAccess) with dom := 1, who := 0 } : XAccess) with who := 0 } : XAccess) :: s.chip.xPend })
    ((fun
    (s : State) => { s with chip.xPend := ({ ({ ({} : XAccess) with dom := 1 } : XAccess) with dom := 1, who := 0 } : XAccess) :: s.chip.xPend })
    cell : State) : State), by decide +kernel⟩,
   ⟨0, ((fun (s : State) => { s with chip.xPend := { who := 0 } :: s.chip.xPend }) cell : State), by decide +kernel⟩,
   ⟨(.ring : Region), 0, ((fun (s : State) =>
    { s with regions := updAt s.regions (.ring : Region).id (fun zz => { zz with quar := ((regSt s (.ring : Region)).quar ||| BitVec.ofNat _ (2 ^ 0)) }) })
    cell : State), by decide +kernel⟩,
   ⟨(.other 0 : Who), (0x10000030 : Word), false, (none : Option (BitVec 16)), (.chip : Region), 0x30, cell, by decide +kernel⟩,
   ⟨(.other 0 : Who), (0xB0000000 : Word), false, (0 : BitVec 16), 0x8000000000, cell, by decide +kernel⟩,
   ⟨(0x200000000 + 0 : Nat), cell, by decide +kernel⟩,
   ⟨((0x20000 + 0) : Nat), cell, by decide +kernel⟩,
   ⟨(0x60000000 : Word), ({ cell with image := { cellImage with compat := true } } : State), by decide +kernel⟩,
   ⟨(0x60000000 : Word), ({ cell with image := { cellImage with compat := true } } : State), by decide +kernel⟩⟩

theorem test_wit_RegisterAccess :
    (∃ (w : Who) (v : Word) (s : State), tlEscape s w 0x10000040 4 = false ∧ regionStopped .chip s = false) ∧
    (∃ (w : Who) (v : Word) (s : State), tlEscape s w 0x10000004 4 = false ∧ regionStopped .chip s = false) ∧
    (∃ (w : Who) (a v : Word) (s : State), tlEscape s w a.toNat 4 = false ∧ 0xB0000000 ≤ a.toNat ∧ a.toNat + 4 ≤ 0xB0800000 ∧
    Memory.wf s.mem = true) ∧
    (∃ (w : Who) (s : State), tlFlow s w = none ∧ regionStopped .time s = false) ∧
    (∃ (w : Who) (s : State) (a b c : Word), tlFlow s w = none ∧ regionStopped .time s = false ∧ assoc s.chip.latch 0x20000000 =
    some [a, b, c]) :=
  ⟨⟨(.other 1 : Who), (0 : Word), cell, by decide +kernel⟩,
   ⟨(.other 1 : Who), (0 : Word), cell, by decide +kernel⟩,
   ⟨(.other 1 : Who), (BitVec.ofNat 32 (0xB0000000 + (0 : Word).toNat % 0x7FFFFC) : Word), (0 : Word), cell, by decide +kernel⟩,
   ⟨(.other 0 : Who), cell, by decide +kernel⟩,
   ⟨(.other 0 : Who), ((fun (s : State) =>
    { s with chip.latch := (0x20000000, [(0 : Word), (0 : Word), (0 : Word)]) :: (s.chip.latch.filter (fun z => z.1 != 0x20000000)) })
    cell : State), (0 : Word), (0 : Word), (0 : Word), by decide +kernel⟩⟩

theorem test_wit_PrecisionTime :
    (∃ (time a : Nat) (rate off : Int) (s : State), off = (time : Int) - (a + s.time.domofs) ∧ ptpOn s = true ∧ s.time.run = true ∧
    s.time.everFoll = true ∧ s.time.sel = false ∧ (s.time.servo = 2 ∨ s.time.servo = 3) ∧ (domSt s 0).valid = true ∧ off.natAbs ≤ stepTh
    s) ∧
    (∃ (time a : Nat) (rate off : Int) (s : State), off = (time : Int) - (a + s.time.domofs) ∧ ptpOn s = true ∧ s.time.run = true ∧
    s.time.everFoll = true ∧ s.time.sel = false ∧ s.time.servo = 3 ∧ (domSt s 0).valid = true ∧ stepTh s < off.natAbs ∧ 100 ≤ off.natAbs
    ∧ a ≤ s.time.tb) ∧
    (∃ (time a : Nat) (rate off : Int) (s : State), off = (time : Int) - (a + s.time.domofs) ∧ ptpOn s = true ∧ s.time.run = false ∧
    s.time.acquired = false ∧ s.time.everFoll = true ∧ s.time.sel = false ∧ s.time.servo = 1 ∧ (domSt s 0).valid = true ∧ 1000 <
    off.natAbs) ∧
    (∃ (b : Bool) (time a : Nat) (rate : Int) (s : State), ptpOn s = false ∧ s.chip.phase ≠ .tlockWait) ∧
    (∃ (b : Bool) (g : GmSet) (a : Nat) (s : State), ptpOn s = true ∧ s.time.doms.length = 2) ∧
    (∃ (b n : Bool) (a : Nat) (s : State), ptpOn s = true ∧ s.time.doms.length = 2) ∧
    (∃ (n : Bool) (a : Nat) (s : State), ptpOn s = true ∧ s.time.doms.length = 2 ∧ s.time.run = true ∧ s.time.servo ≠ 4 ∧ (domSt s
    1).valid = false ∧ a ≤ s.time.tb) ∧
    (∃ (a : Nat) (s : State), ptpOn s = true ∧ s.time.sel = true ∧ s.time.everFoll = true ∧ s.time.servo = 3 ∧ (domSt s 0).valid =
    true ∧ 0 < s.image.revert ∧ (domSt s 0).validAt + s.image.revert * 1000000000 ≤ a ∧ (domSt s 0).offset.natAbs ≤ stepTh s ∧ a ≤
    s.time.tb) ∧
    (∃ (a : Nat) (s : State), (s.image.revert = 0 ∨ (domSt s 0).valid = false ∨ s.time.sel = false)) :=
  ⟨⟨5000, 4000, (0 : Int), (1000 : Int), timed id, by decide +kernel⟩,
   ⟨2000000, 0, (0 : Int), (2000000 : Int), timed id, by decide +kernel⟩,
   ⟨5000, 0, (0 : Int), (5000 : Int), timed (fun t => { t with run := false, acquired := false, servo := 1 }), by decide +kernel⟩,
   ⟨true, 0, 0, (0 : Int), cell, by decide +kernel⟩,
   ⟨false, ({} : GmSet), 0, timed id, by decide +kernel⟩,
   ⟨true, true, 0, ({ cell with time.stopped := false, time.profile := 1 + 0 } : State), by decide +kernel⟩,
   ⟨true, 0, ({ cell with time.stopped := false, time.profile := 1 + 0 } : State), by decide +kernel⟩,
   ⟨1000000000, ({ timed (fun t => { t with sel := true, tb := 2000000000 }) with image := { cellImage with revert := 1 } } :
    State), by decide +kernel⟩,
   ⟨0, cell, by decide +kernel⟩⟩

theorem test_wit_TransparentClock :
    (∃ (p i l w u : Nat) (f o : Bool) (m : PtpId) (s : State), p / 2 < s.host.nets.length) ∧
    (∃ (p i l w u : Nat) (o : Bool) (m : PtpId) (s : State), s.time.profile = 1 ∧ s.time.stopped = false ∧ otherPort p <
    s.time.egress.length) ∧
    (∃ (p i l w u : Nat) (o : Bool) (m : PtpId) (s : State), s.time.profile = 1 ∧ s.time.stopped = false ∧ s.pair.role ≠ 3 ∧
    otherPort p < s.time.egress.length ∧ otherPort p < s.host.ports.length ∧ (nth s.host.ports (otherPort p)).up = true ∧ (nth
    s.host.ports (otherPort p)).wire = none) ∧
    (∃ (p l : Nat) (m : PtpId) (c : Int) (s : State), regionStopped .host s = false ∧ s.pair.role ≠ 3 ∧ otherPort p <
    s.host.ports.length ∧ (nth s.host.ports (otherPort p)).up = true ∧ (nth s.host.ports (otherPort p)).wire = none ∧ l ≤ 1522 ∧
    s.time.resid = [{ net := p / 2, id := m, corr := c }]) :=
  ⟨⟨0, 0, 0, 0, 0, true, true, ({} : PtpId), cell, by decide +kernel⟩,
   ⟨0, 0, 0, 0, 0, true, ({} : PtpId), timed id, by decide +kernel⟩,
   ⟨0, 0, 0, 0, 0, true, ({} : PtpId), timed id, by decide +kernel⟩,
   ⟨0, 64, ({} : PtpId), (5 : Int), timed (fun t => { t with resid := [{ corr := 5 }] }), by decide +kernel⟩⟩

theorem test_wit_Triggers :
    (∃ (w : Who) (i : Nat) (ctl : Word) (now : Nat) (s : State), tlFlow s w = none ∧ i < s.time.trigs.length ∧ (trigSt s i).active =
    false ∧ (now + 64) * 65536 ≤ (1000000000 * (trigSt s i).pSec + (trigSt s i).pNsec) * 65536 + (trigSt s i).pStartFr % 65536) ∧
    (∃ (w : Who) (i : Nat) (ctl : Word) (now : Nat) (s : State), tlFlow s w = none ∧ i < s.time.trigs.length ∧ (trigSt s i).active =
    false ∧ (1000000000 * (trigSt s i).pSec + (trigSt s i).pNsec) * 65536 + (trigSt s i).pStartFr % 65536 < (now + 64) * 65536 ∧ now ≤
    s.time.tb ∧ (trigSt s i).pPerNs = 0 ∧ (trigSt s i).pPerFr = 0) ∧
    (∃ (w : Who) (i now : Nat) (s : State), tlFlow s w = none ∧ i < s.time.trigs.length ∧ ((trigSt s i).active = false ∨ (now + 64)
    * 65536 ≤ (trigSt s i).next)) ∧
    (∃ (i : Nat) (s : State), i < s.time.trigs.length ∧ (trigSt s i).active = true ∧ s.time.stopped = false ∧ (trigSt s i).pend =
    none) ∧
    (∃ (i : Nat) (s : State), i < s.time.trigs.length) :=
  ⟨⟨(.other 0 : Who), 0, (0 : Word), 0, ((fun (s : State) =>
    { s with time.trigs := updAt s.time.trigs 0 (fun z => { z with pSec := 0, pNsec := 0 + 64 + 0, active := false }) }) ((fun (s :
    State) => { s with time.trigs := updAt s.time.trigs 0 (fun zz => { zz with active := false }) }) cell : State) : State), by
    decide +kernel⟩,
   ⟨(.other 1 : Who), 0, (0 : Word), (cell.time.tb - 0 % 100 : Nat), ((fun (s : State) =>
    { s with time.trigs := updAt s.time.trigs 0 (fun z => { z with pSec := 0, pNsec := min (cell.time.tb - 0 % 100 : Nat) ((cell.time.tb - 0 % 100 : Nat) + 60) + 0, active := false }) })
    cell : State), by decide +kernel⟩,
   ⟨(.other 1 : Who), 0, 0, ((fun (s : State) =>
    { s with time.trigs := updAt s.time.trigs 0 (fun zz => { zz with active := false }) }) cell : State), by decide +kernel⟩,
   ⟨0, ((fun (s : State) => { s with time.trigs := updAt s.time.trigs 0 (fun zz => { zz with active := true }) }) cell : State), by
    decide +kernel⟩,
   ⟨0, cell, by decide +kernel⟩⟩

theorem test_wit_Captures :
    (∃ (j tb : Nat) (r : Bool) (h : Nat) (s : State), j < s.time.caps.length ∧ capAccepts (capSt s j) r h = true ∧ (capSt s
    j).queue.length < 16) ∧
    (∃ (j tb : Nat) (r : Bool) (h : Nat) (s : State), j < s.time.caps.length ∧ capAccepts (capSt s j) r h = true ∧ 16 ≤ (capSt s
    j).queue.length) ∧
    (∃ (j tb : Nat) (r : Bool) (h : Nat) (s : State), capAccepts (capSt s j) r h = false) ∧
    (∃ (j tb : Nat) (r : Bool) (q : List (Nat × Bool)) (s : State), j < s.time.caps.length ∧ (capSt s j).queue = (tb, r) :: q) ∧
    (∃ (j : Nat) (s : State), (capSt s j).queue = []) :=
  ⟨⟨0, 0, true, (0 + 4 : Nat), ((fun (s : State) =>
    { s with time.caps := updAt s.time.caps 0 (fun z => { z with edge := 3, filt := 2 }) }) cell : State), by decide +kernel⟩,
   ⟨0, 0, true, (0 + 4 : Nat), ((fun (s : State) =>
    { s with time.caps := updAt s.time.caps 0 (fun z => { z with edge := 3, filt := 2, queue := List.replicate (16 + 0) (5, true) }) })
    cell : State), by decide +kernel⟩,
   ⟨0, 0, true, 0, cell, by decide +kernel⟩,
   ⟨0, 0, true, ([] : List (Nat × Bool)), ((fun (s : State) =>
    { s with time.caps := updAt s.time.caps 0 (fun zz => { zz with queue := (0, true) :: ([] : List (Nat × Bool)) }) }) cell : State),
    by decide +kernel⟩,
   ⟨0, cell, by decide +kernel⟩⟩

theorem test_wit_TimeChecksAndRecording :
    (∃ (c : Nat) (s : State), 28160 ≤ c ∧ c ≤ 35840) ∧
    (∃ (c : Nat) (s : State), (c < 28160 ∨ 35840 < c) ∧ (regSt s .time).escalated = false) ∧
    (∃ (s : State), s.time.stopped = false ∧ (regSt s .time).escalated = false) ∧
    (∃ (s : State), s.time.stopped = false ∧ (regSt s .time).escalated = false) ∧
    (∃ (s : State), s.time.run = true ∧ s.time.stopped = false ∧ s.time.winMiss = true) ∧
    (∃ (m : Nat) (s : State), s.time.run = true ∧ s.time.stopped = false ∧ s.time.winMiss = false ∧ s.time.slack.filterMap (fun x =>
    x.winMin) = [m]) ∧
    (∃ (d : Nat) (x : VregTx) (s : State), s.time.vtx = some x ∧ x.wr = false ∧ x.pmb = false) ∧
    (∃ (d : Nat) (x : VregTx) (s : State), s.time.vtx = some x ∧ x.wr = false ∧ x.pmb = true ∧ x.cmd = 0x20 ∧ d / 32 % 8 ≠ 0) ∧
    (∃ (d : Nat) (s : State), s.time.vtx.isSome = true) ∧
    (∃ (ok : Bool) (d : Nat) (s : State), s.time.vtx = none) ∧
    (∃ (s : State), s.time.vmode ≠ 0 ∧ 10 < ((500 + 5 * s.time.vsent : Int) - s.time.vmv).natAbs) ∧
    (∃ (s : State), s.time.vmode ≠ 0 ∧ ((500 + 5 * s.time.vsent : Int) - s.time.vmv).natAbs ≤ 10) ∧
    (∃ (s : State), s.recd.on = true ∧ s.time.run = true ∧ s.time.tickno % 2 ^ s.image.ckptC = 0) ∧
    (∃ (n : Ckpt) (s : State), s.recd.ckptNow = some n) ∧
    (∃ (s : State), s.recd.ckptNow.isSome = true ∧ 64 ≤ s.recd.ckptAge) ∧
    (∃ (s : State), (s.recd.ckptNow = none ∨ s.recd.ckptAge < 64)) ∧
    (∃ (s : State), s.recd.on = true ∧ s.recd.stopLeft = some 0) ∧
    (∃ (s : State), s.recd.stopLeft ≠ some 0) :=
  ⟨⟨((28160 + 0) : Nat), cell, by decide +kernel⟩,
   ⟨0, ((fun (s : State) => { s with regions := updAt s.regions (Region.id .time) (fun zz => { zz with escalated := false }) }) cell
    : State), by decide +kernel⟩,
   ⟨((fun (s : State) => { s with regions := updAt s.regions (Region.id .time) (fun zz => { zz with escalated := false }) }) cell :
    State), by decide +kernel⟩,
   ⟨((fun (s : State) => { s with regions := updAt s.regions (Region.id .time) (fun zz => { zz with escalated := false }) }) cell :
    State), by decide +kernel⟩,
   ⟨({ cell with time.winMiss := true } : State), by decide +kernel⟩,
   ⟨0, ({ ((fun (s : State) => { s with time.slack := (s.time.slack.map (fun z => { z with winMin := none })).set 2 { winMin := some 0 } }) ({ cell with time.winMiss := false } : State) : State) with image.vfloor := 0 }
    : State), by decide +kernel⟩,
   ⟨0, ({} : VregTx), timed (fun t => { t with vtx := some {} }), by decide +kernel⟩,
   ⟨32, ({ pmb := true, cmd := 0x20 } : VregTx), timed (fun t => { t with vtx := some { pmb := true, cmd := 0x20 } }), by
    decide +kernel⟩,
   ⟨0, ({ cell with time.vtx := some default } : State), by decide +kernel⟩,
   ⟨true, 0, ({ cell with time.vtx := none } : State), by decide +kernel⟩,
   ⟨({ cell with time.vmode := (1) } : State), by decide +kernel⟩,
   ⟨((fun (s : State) => { s with time.vmv := 495 + 5 * s.time.vsent + 5 * 0 }) ({ cell with time.vmode := (1) } : State) : State),
    by decide +kernel⟩,
   ⟨({ cell with recd := { on := true }, time := { cell.time with tickno := 16384 } } : State), by decide +kernel⟩,
   ⟨({} : Ckpt), ({ cell with recd := { cell.recd with ckptNow := some {} } } : State), by decide +kernel⟩,
   ⟨({ ({ cell with recd.ckptNow := some default } : State) with recd.ckptAge := (64 + 0) } : State), by decide +kernel⟩,
   ⟨({ cell with recd.ckptNow := none } : State), by decide +kernel⟩,
   ⟨({ ({ cell with recd.on := true } : State) with recd.stopLeft := some 0 } : State), by decide +kernel⟩,
   ⟨cell, by decide +kernel⟩⟩

theorem test_wit_EncoderFeedback :
    (∃ (c ha hb : Nat) (a b : Bool) (s : State), regionUp .axio s = true ∧ chanLive s c = true ∧ c < s.axio.length ∧ isQuad s c =
    true ∧ (chanCfg s c).filt ≤ ha ∧ (chanCfg s c).filt ≤ hb ∧ ((quadPlace a b + 4 - quadPlace (chSt s c).lvA (chSt s c).lvB) % 4 = 1 ∨
    (quadPlace a b + 4 - quadPlace (chSt s c).lvA (chSt s c).lvB) % 4 = 3)) ∧
    (∃ (c ha hb : Nat) (s : State), regionUp .axio s = true ∧ chanLive s c = true ∧ c < s.axio.length ∧ isQuad s c = true ∧ (chanCfg
    s c).filt ≤ ha ∧ (chanCfg s c).filt ≤ hb) ∧
    (∃ (c ha hb : Nat) (a b : Bool) (s : State), regionUp .axio s = true ∧ chanLive s c = true ∧ c < s.axio.length ∧ isQuad s c =
    true ∧ ha < (chanCfg s c).filt ∧ hb < (chanCfg s c).filt) ∧
    (∃ (c : Nat) (p : ChanSample) (s : State), chanLive s c = false) ∧
    (∃ (c p n : Nat) (s : State), regionUp .axio s = true ∧ chanLive s c = true ∧ c < s.axio.length ∧ hasFb s c = true ∧ (isQuad s c
    = true ∨ p = 2) ∧ (chanCfg s c).filt < n ∧ 4 ≤ n ∧ (chSt s c).wire = false) ∧
    (∃ (c : Nat) (s : State), regionUp .axio s = true ∧ chanLive s c = true ∧ c < s.axio.length ∧ isSincos s c = true ∧ 8 ≤ (chSt s
    c).ampRun ∧ (chSt s c).amp = false) ∧
    (∃ (c h : Nat) (k : Bool) (s : State), regionUp .axio s = true ∧ c < s.axio.length ∧ 1000000 ≤ h) ∧
    (∃ (c : Nat) (s : State), regionStopped .axio s = false ∧ c < maxChans s.fuse.variant ∧ c < s.axio.length ∧ (chSt s c).wire =
    false ∧ (chSt s c).amp = false ∧ chanEnabled s c = false ∧ (chSt s c).faultTick ≠ some s.time.tickno) ∧
    (∃ (c : Nat) (s : State), regionStopped .axio s = false ∧ c < maxChans s.fuse.variant ∧ ((chSt s c).wire = true ∨ (chSt s c).amp
    = true ∨ chanEnabled s c = true ∨ (chSt s c).faultTick = some s.time.tickno)) ∧
    (∃ (c : Nat) (s : State), regionStopped .axio s = false ∧ maxChans s.fuse.variant ≤ c) :=
  ⟨⟨0, 0, (((chanCfg cell 0).filt + 0) : Nat), true, false, ((fun (s : State) =>
    { s with image.chans := updAt (grow s.image.chans 0) 0 (fun zz => { zz with mode := 1 }) }) cell : State), by decide +kernel⟩,
   ⟨0, 0, (((chanCfg cell 0).filt + 0) : Nat), ((fun (s : State) =>
    { s with image.chans := updAt (grow s.image.chans 0) 0 (fun zz => { zz with mode := 1 }) }) cell : State), by decide +kernel⟩,
   ⟨0, 0, 0, true, true, ((fun (s : State) =>
    { s with image.chans := updAt (grow s.image.chans 0) 0 (fun z => { z with filt := 3, mode := 1 }) }) ((fun (s : State) =>
    { s with image.chans := updAt (grow s.image.chans 0) 0 (fun zz => { zz with mode := 1 }) }) cell : State) : State), by
    decide +kernel⟩,
   ⟨99, (.levels true false 9 9 : ChanSample), cell, by decide +kernel⟩,
   ⟨0, 0, ((4 + 0) : Nat), (onChan 0 (fun zz => { zz with wire := false }) cell : State), by decide +kernel⟩,
   ⟨0, (onChan 0 (fun zz => { zz with amp := false }) (onChan 0 (fun zz => { zz with ampRun := (8 + 0) }) ((fun (s : State) =>
    { s with image.chans := updAt (grow s.image.chans 0) 0 (fun zz => { zz with mode := 4 }) }) cell : State) : State) : State), by
    decide +kernel⟩,
   ⟨0, 1000000, true, cell, by decide +kernel⟩,
   ⟨10, cell, by decide +kernel⟩,
   ⟨0, (onChan 0 (fun zz => { zz with wire := true }) cell : State), by decide +kernel⟩,
   ⟨((maxChans cell.fuse.variant + 0) : Nat), cell, by decide +kernel⟩⟩

theorem test_wit_DirectionOfCounts :
    (∃ (c : Nat) (p : ChanSample) (up : Bool) (s : State), regionUp .axio s = true ∧ chanLive s c = true ∧ c < s.axio.length ∧ ((∃ a
    b ha hb, p = .levels a b ha hb ∧ isQuad s c = true ∧ (chanCfg s c).filt ≤ ha ∧ (chanCfg s c).filt ≤ hb ∧ (quadPlace a b + 4 -
    quadPlace (chSt s c).lvA (chSt s c).lvB) % 4 = (if up then 1 else 3)) ∨ (∃ y x, p = .conversion y x ∧ isSincos s c = true ∧ (scPlace
    (0 ≤ (scCorrect (chanCfg s c) y x).1) (0 ≤ (scCorrect (chanCfg s c) y x).2) + 4 - (chSt s c).quad) % 4 = (if up then 1 else 3) ∧
    scPlace (0 ≤ (scCorrect (chanCfg s c) y x).1) (0 ≤ (scCorrect (chanCfg s c) y x).2) = (if up then 0 else 3)))) ∧
    (∃ (c : Nat) (p : ChanSample) (s : State), regionUp .axio s = true ∧ chanLive s c = true ∧ c < s.axio.length ∧ ((∃ a b ha hb, p
    = .levels a b ha hb ∧ (isQuad s c = false ∨ (chanCfg s c).filt ≤ ha ∧ (chanCfg s c).filt ≤ hb ∧ (quadPlace a b + 4 - quadPlace (chSt
    s c).lvA (chSt s c).lvB) % 2 = 0)) ∨ (∃ y x, p = .conversion y x ∧ (isSincos s c = false ∨ (scPlace (0 ≤ (scCorrect (chanCfg s c) y
    x).1) (0 ≤ (scCorrect (chanCfg s c) y x).2) + 4 - (chSt s c).quad) % 2 = 0)))) :=
  ⟨⟨0, (.levels true false 99 99 : ChanSample), true, cell, by decide +kernel, by decide +kernel, by decide +kernel, .inl ⟨true,
    false, 99, 99, by decide +kernel⟩⟩,
   ⟨0, (.levels false false 99 99 : ChanSample), cell, by decide +kernel, by decide +kernel, by decide +kernel, .inl ⟨false, false,
    99, 99, by decide +kernel⟩⟩⟩

theorem test_wit_IndexEvents :
    (∃ (c h : Nat) (s : State), regionUp .axio s = true ∧ chanLive s c = true ∧ c < s.axio.length ∧ hasFb s c = true ∧ (chanCfg s
    c).filt ≤ h ∧ ((chanCfg s c).zgate = false ∨ (chSt s c).lvA = true ∧ (chSt s c).lvB = true)) ∧
    (∃ (c h : Nat) (s : State), (hasFb s c = false ∨ h < (chanCfg s c).filt ∨ (chanCfg s c).zgate = true ∧ ((chSt s c).lvA = false ∨
    (chSt s c).lvB = false))) :=
  ⟨⟨0, (((chanCfg cell 0).filt + 0) : Nat), ((fun (s : State) =>
    { s with image.chans := updAt (grow s.image.chans 0) 0 (fun zz => { zz with zgate := false }) }) cell : State), by decide +kernel⟩,
   ⟨20, 0, cell, by decide +kernel⟩⟩

theorem test_wit_ChannelInputsAndHoming :
    (∃ (c d : Nat) (p : Bool) (s : State), regionStopped .axio s = false ∧ chanLive s c = true ∧ c < s.axio.length ∧ cmpFromList s c
    = false ∧ isBehind (d % 4) (chSt s c).count (chSt s c).cmpPend.toInt = false) ∧
    (∃ (c d : Nat) (p : Bool) (s : State), regionStopped .axio s = false ∧ chanLive s c = true ∧ c < s.axio.length ∧ cmpFromList s c
    = false ∧ isBehind (d % 4) (chSt s c).count (chSt s c).cmpPend.toInt = true) ∧
    (∃ (c : Nat) (s : State), regionStopped .axio s = false ∧ c < maxChans s.fuse.variant ∧ c < s.axio.length ∧ cmpFromList s c =
    false) ∧
    (∃ (c : Nat) (s : State), regionUp .axio s = true ∧ c < s.axio.length ∧ (chSt s c).arm = true ∧ crossing (chSt s c).cdir (chSt s
    c).lastCount (chSt s c).count (chSt s c).cmp = true) ∧
    (∃ (c : Nat) (s : State), (chSt s c).arm = false) ∧
    (∃ (c : Nat) (s : State), c < s.axio.length) ∧
    (∃ (c d : Nat) (p : Bool) (s : State), regionStopped .axio s = false ∧ maxChans s.fuse.variant ≤ c) ∧
    (∃ (c i h n : Nat) (l : Bool) (s : State), regionUp .axio s = true ∧ chanLive s c = true ∧ c < s.axio.length ∧ i ≤ 2 ∧ 5 *
    (chanCfg s c).filt + 1000 * (chanCfg s c).deb ≤ h ∧ (chSt s c).busy = false ∧ nth (chSt s c).filtIn i = (l != hasBit (chanCfg s
    c).lpol (2 - i))) ∧
    (∃ (c i h n : Nat) (l : Bool) (s : State), h < 5 * (chanCfg s c).filt) ∧
    (∃ (c i h n : Nat) (l : Bool) (s : State), regionUp .axio s = true ∧ chanLive s c = true ∧ c < s.axio.length ∧ i ≤ 2 ∧ 5 *
    (chanCfg s c).filt ≤ h ∧ nth (chSt s c).filtIn i ≠ (l != hasBit (chanCfg s c).lpol (2 - i)) ∧ (chanCfg s c).chn ≤ ((nth (chSt s
    c).trans i).filter (fun t => n - h + 5 * (chanCfg s c).filt < t + (chanCfg s c).chw * 1000000)).length + 1 ∧ nth (chSt s c).chatAt i
    = none ∧ (chSt s c).busy = false) ∧
    (∃ (c at_ : Nat) (up : Bool) (q : List (Nat × Bool)) (s : State), regionUp .axio s = true ∧ c < s.axio.length ∧ (chSt s c).sched
    = (at_, up) :: q) ∧
    (∃ (c : Nat) (s : State), c < s.axio.length) ∧
    (∃ (c : Nat) (s : State), regionUp .axio s = true ∧ chanLive s c = true ∧ c < s.axio.length ∧ (chSt s c).stalled = true) ∧
    (∃ (c : Nat) (s : State), regionStopped .axio s = false ∧ chanLive s c = true ∧ c < s.axio.length ∧ (chSt s c).busy = false ∧ 1
    ≤ (chanCfg s c).hmode ∧ (chanCfg s c).hmode ≤ 4 ∧ (nodeMode s = true ∨ chanEnabled s c = true)) ∧
    (∃ (c : Nat) (s : State), regionStopped .axio s = false ∧ chanLive s c = true ∧ c < s.axio.length ∧ (chSt s c).busy = false ∧
    ((chanCfg s c).hmode = 0 ∨ 4 < (chanCfg s c).hmode ∨ nodeMode s = false ∧ chanEnabled s c = false)) ∧
    (∃ (c : Nat) (s : State), regionUp .axio s = true ∧ c < s.axio.length ∧ (chSt s c).busy = true ∧ (chSt s c).hphase = 1 ∧ nth
    (chSt s c).filtIn (targetInput s c) = true) ∧
    (∃ (c : Nat) (s : State), regionUp .axio s = true ∧ c < s.axio.length ∧ (chSt s c).busy = true ∧ ((chSt s c).hphase = 2 ∨ (chSt
    s c).hphase = 3)) ∧
    (∃ (c : Nat) (s : State), regionUp .axio s = true ∧ c < s.axio.length ∧ (chSt s c).busy = true ∧ ((chSt s c).hphase = 2 ∨ (chSt
    s c).hphase = 3) ∧ cprOf s c + 4 < ((chSt s c).count - (chSt s c).hidxFrom).natAbs) ∧
    (∃ (c : Nat) (l : Int) (s : State), regionUp .axio s = true ∧ c < s.axio.length ∧ (chSt s c).hlatch = some l ∧ (chSt s c).busy =
    true ∧ (chSt s c).hphase = 4 ∧ (chSt s c).hconf = true ∧ atRest s c = true) :=
  ⟨⟨0, 0, true, cell, by decide +kernel⟩,
   ⟨0, 1, true, cell, by decide +kernel⟩,
   ⟨0, cell, by decide +kernel⟩,
   ⟨0, (onChan 0 (fun z => { z with lastCount := z.cmp - 1, count := z.cmp + 0, cdir := 0 }) (onChan 0 (fun zz =>
    { zz with arm := true }) cell : State) : State), by decide +kernel⟩,
   ⟨0, cell, by decide +kernel⟩,
   ⟨0, cell, by decide +kernel⟩,
   ⟨((maxChans cell.fuse.variant + 0) : Nat), 0, true, cell, by decide +kernel⟩,
   ⟨0, (((2) - 0) : Nat), ((5 * (chanCfg cell 0).filt + 1000 * (chanCfg cell 0).deb + 0) : Nat), 0, true, ((fun (s : State) =>
    onChan
    0 (fun zz => { zz with filtIn := (updAt (grow (chSt s 0).filtIn (((2) - 0) : Nat)) (((2) - 0) : Nat) (fun zz => (true != hasBit (chanCfg s 0).lpol (2 - (((2) - 0) : Nat))))) })
    s) (onChan 0 (fun zz => { zz with busy := false }) cell : State) : State), by decide +kernel⟩,
   ⟨0, 0, 0, 0, true, ((fun (s : State) => { s with image.chans := updAt (grow s.image.chans 0) 0 (fun z => { z with filt := 5 }) })
    cell : State), by decide +kernel⟩,
   ⟨0, (((2) - 0) : Nat), ((5 * (chanCfg cell 0).filt + 0) : Nat), 0, true, (onChan 0 (fun zz => { zz with busy := false }) ((fun (s
    : State) => onChan 0 (fun zz =>
    { zz with chatAt := (updAt (grow (chSt s 0).chatAt (((2) - 0) : Nat)) (((2) - 0) : Nat) (fun zz => none)) }) s) ((fun (s : State) =>
    { s with image.chans := updAt (grow s.image.chans 0) 0 (fun zz => { zz with chn := ((((nth (chSt s 0).trans (((2) - 0) : Nat)).filter (fun t => 0 - ((5 * (chanCfg cell 0).filt + 0) : Nat) + 5 * (chanCfg s 0).filt < t + (chanCfg s 0).chw * 1000000)).length + 1) - 0) }) })
    cell : State) : State) : State), by decide +kernel⟩,
   ⟨0, 0, true, ([] : List (Nat × Bool)), (onChan 0 (fun zz => { zz with sched := (0, true) :: ([] : List (Nat × Bool)) }) cell :
    State), by decide +kernel⟩,
   ⟨0, cell, by decide +kernel⟩,
   ⟨0, (onChan 0 (fun zz => { zz with stalled := true }) cell : State), by decide +kernel⟩,
   ⟨0, cell, by decide +kernel⟩,
   ⟨0, ((fun (s : State) => { s with image.chans := updAt (grow s.image.chans 0) 0 (fun zz => { zz with hmode := 0 }) }) (onChan 0
    (fun zz => { zz with busy := false }) cell : State) : State), by decide +kernel⟩,
   ⟨0, ((fun (s : State) => onChan 0 (fun zz =>
    { zz with filtIn := (updAt (grow (chSt s 0).filtIn (targetInput s 0)) (targetInput s 0) (fun zz => true)) }) s) (onChan 0 (fun zz =>
    { zz with hphase := 1 }) (onChan 0 (fun zz => { zz with busy := true }) cell : State) : State) : State), by decide +kernel⟩,
   ⟨0, (onChan 0 (fun zz => { zz with hphase := 2 }) (onChan 0 (fun zz => { zz with busy := true }) cell : State) : State), by
    decide +kernel⟩,
   ⟨0, ((fun (s : State) => onChan 0 (fun z => { z with hidxFrom := z.count + 5 + (cprOf s 0 : Int) + 0 }) s) (onChan 0 (fun zz =>
    { zz with hphase := 2 }) (onChan 0 (fun zz => { zz with busy := true }) cell : State) : State) : State), by decide +kernel⟩,
   ⟨0, (0 : Int), (onChan 0 (fun zz => { zz with hconf := true }) (onChan 0 (fun zz => { zz with hphase := 4 }) (onChan 0 (fun zz =>
    { zz with busy := true }) (onChan 0 (fun zz => { zz with hlatch := some (0 : Int) }) cell : State) : State) : State) : State), by
    decide +kernel⟩⟩

theorem test_wit_RingColdStart :
    (∃ (r a : Nat) (s : State), regionUp .ring s = true ∧ r < s.ring.length ∧ capable (ringSt s r) = true ∧ (ringSt s r).state =
    .listen ∧ (ringSt s r).attempts < 8 ∧ (ringSt s r).txStopped = false ∧ (ringSt s r).heardAt + 50000 + (ringSt s r).rank * 4000 ≤ a)
    ∧
    (∃ (r a : Nat) (s : State), a < (ringSt s r).heardAt + 50000 + (ringSt s r).rank * 4000) ∧
    (∃ (r a e : Nat) (ccw : Bool) (h : RingHead) (b : Beacon) (s : State), regionUp .ring s = true ∧ r < s.ring.length ∧ (ringSt s
    r).role ≠ 0 ∧ (ringSt s r).state = .coldStart ∧ (ringSt s r).txStopped = false ∧ (ringSt s r).attempts < 8 ∧ (frameOk s r h = false
    ∨ b.master ≠ (ringSt s r).node)) ∧
    (∃ (r a : Nat) (ccw : Bool) (h : RingHead) (b : Beacon) (s : State), regionUp .ring s = true ∧ r < s.ring.length ∧ (ringSt s
    r).state = .coldStart ∧ isMaster s r = true ∧ b.master = (ringSt s r).node ∧ frameOk s r h = true) ∧
    (∃ (r : Nat) (s : State), regionUp .ring s = true ∧ r < s.ring.length ∧ (ringSt s r).state = .measure ∧ probesDone s r = true ∧
    (ringSt s r).rtt ≤ (ringCfg s r).rttmax) ∧
    (∃ (r : Nat) (s : State), regionUp .ring s = true ∧ (ringSt s r).state = .measure ∧ probesDone s r = true ∧ (ringCfg s r).rttmax
    < (ringSt s r).rtt) ∧
    (∃ (r : Nat) (s : State), probesDone s r = false) ∧
    (∃ (r a e : Nat) (ccw : Bool) (h : RingHead) (b : Beacon) (s : State), regionUp .ring s = true ∧ r < s.ring.length ∧ (ringSt s
    r).role ≠ 0 ∧ (ringSt s r).state ≠ .down ∧ (ringSt s r).state ≠ .coldStart ∧ (ringSt s r).txStopped = false ∧ (ringSt s
    r).ports.length = 2 ∧ frameOk s r h = false) ∧
    (∃ (r a e : Nat) (ccw : Bool) (h : RingHead) (b : Beacon) (s : State), regionUp .ring s = true ∧ r < s.ring.length ∧ (ringSt s
    r).role ≠ 0 ∧ (ringSt s r).state ≠ .down ∧ (ringSt s r).state ≠ .coldStart ∧ (ringSt s r).txStopped = false ∧ isMaster s r = false ∧
    frameOk s r h = true ∧ obeys s r b = true) ∧
    (∃ (r a : Nat) (s : State), regionUp .ring s = true ∧ r < s.ring.length ∧ (ringSt s r).state = .silent ∧ 16 ≤ (ringSt s
    r).inSync) ∧
    (∃ (r a : Nat) (s : State), regionUp .ring s = true ∧ r < s.ring.length ∧ (ringSt s r).retry = some 0) :=
  ⟨⟨0, 90000000, (onRing 0 (fun x => { x with state := .listen }) cell : State), by decide +kernel⟩,
   ⟨0, 0, cell, by decide +kernel⟩,
   ⟨0, 0, 0, true, ({} : RingHead), ({ master := 5 } : Beacon), (onRing 0 (fun x => { x with state := .coldStart }) cell : State),
    by decide +kernel⟩,
   ⟨0, 0, true, sealed {}, ({} : Beacon), (onRing 0 (fun x => { x with state := .coldStart }) cell : State), by decide +kernel⟩,
   ⟨0, (onRing 0 (fun x => { x with state := .measure, ports := [{ up := true, rounds := 16 }, { up := true, rounds := 16 }] }) cell
    : State), by decide +kernel⟩,
   ⟨0, (onRing 0 (fun x =>
    { x with state := .measure, rtt := 1000000, ports := [{ up := true, rounds := 16 }, { up := true, rounds := 16 }] }) cell : State),
    by decide +kernel⟩,
   ⟨0, cell, by decide +kernel⟩,
   ⟨0, 0, 0, true, ({ fcsOk := false } : RingHead), ({} : Beacon), cell, by decide +kernel⟩,
   ⟨1, 0, 0, true, sealed {}, ({} : Beacon), cell, by decide +kernel⟩,
   ⟨0, 0, (onRing 0 (fun zz => { zz with inSync := (16 + 0) }) (onRing 0 (fun zz => { zz with state := .silent }) cell : State) :
    State), by decide +kernel⟩,
   ⟨0, 0, (onRing 0 (fun zz => { zz with retry := some 0 }) cell : State), by decide +kernel⟩⟩

theorem test_wit_BeaconLoss :
    (∃ (r : Nat) (s : State), r < s.ring.length) ∧
    (∃ (r a e : Nat) (ccw : Bool) (h : RingHead) (b : Beacon) (s : State), regionUp .ring s = true ∧ r < s.ring.length ∧ isFollower
    s r = true ∧ (ringSt s r).txStopped = false ∧ frameOk s r h = true ∧ obeys s r b = true) ∧
    (∃ (r : Nat) (s : State), regionUp .ring s = true ∧ r < s.ring.length ∧ isFollower s r = true ∧ 8 ≤ (ringSt s r).beaconMiss ∧
    (ringSt s r).state ≠ .silent) ∧
    (∃ (r : Nat) (s : State), ((ringSt s r).beaconMiss < 8 ∨ (ringSt s r).state = .silent)) :=
  ⟨⟨0, cell, by decide +kernel⟩,
   ⟨1, 0, 0, true, sealed {}, ({} : Beacon), cell, by decide +kernel⟩,
   ⟨1, (onRing 1 (fun zz => { zz with beaconMiss := (8 + 0) }) cell : State), by decide +kernel⟩,
   ⟨0, cell, by decide +kernel⟩⟩

theorem test_wit_RingMembersAndLinks :
    (∃ (r a : Nat) (ccw : Bool) (h : RingHead) (m : ClaimMsg) (s : State), regionUp .ring s = true ∧ r < s.ring.length ∧ isMaster s
    r = true ∧ frameOk s r h = true) ∧
    (∃ (r k : Nat) (ccw : Bool) (m : ClaimMsg) (s : State), regionUp .ring s = true ∧ r < s.ring.length ∧ (nth (ringCfg s r).slots
    k).kind = 3 ∧ isMaster s r = true ∧ s.pair.role = 0 ∧ (ringSt s r).broken < 2 ∧ (ringSt s r).claims = [(ccw, m)] ∧ (ringSt s r).out
    = [] ∧ m.type = 2 ∧ m.node ∈ (ringCfg s r).nodes ∧ (hasBit (ringSt s r).silent m.node = true ∨ hasBit (ringSt s r).members m.node =
    false)) ∧
    (∃ (r p : Nat) (m : ClaimMsg) (c : SpareCfg) (s : State), r < s.ring.length ∧ m.type ≠ 2 ∧ claimPlace s r m = some p ∧ (sparesAt
    s r p).find? (fun x => (x.vendor == m.vendor && x.product == m.product) && !(nodeSt s r x.node).spare) = some c) ∧
    (∃ (r p : Nat) (m : ClaimMsg) (c : SpareCfg) (s : State), r < s.ring.length ∧ m.type ≠ 2 ∧ claimPlace s r m = some p ∧ (sparesAt
    s r p).head? = some c ∧ (∀ x ∈ sparesAt s r p, x.vendor ≠ m.vendor ∨ x.product ≠ m.product)) ∧
    (∃ (r : Nat) (m : ClaimMsg) (s : State), r < s.ring.length ∧ m.type ≠ 2 ∧ (∀ p, claimPlace s r m = some p → sparesAt s r p =
    [])) ∧
    (∃ (r j : Nat) (s : State), regionUp .ring s = true ∧ r < s.ring.length ∧ isMaster s r = true ∧ 3 ≤ (nodeSt s r j).consec ∧
    hasBit (ringSt s r).silent j = false ∧ j < 32) ∧
    (∃ (r a t1 t2 t3 : Nat) (ccw : Bool) (h : RingHead) (s : State), regionUp .ring s = true ∧ r < s.ring.length ∧ (ringSt s r).role
    ≠ 0 ∧ frameOk s r h = true ∧ (ringSt s r).ports.length = 2 ∧ (portSt s r ccw).sentAt = some t1) ∧
    (∃ (r a t1 : Nat) (ccw : Bool) (h : RingHead) (s : State), regionUp .ring s = true ∧ r < s.ring.length ∧ (ringSt s r).role ≠ 0 ∧
    frameOk s r h = true ∧ (ringSt s r).ports.length = 2) ∧
    (∃ (r : Nat) (ccw : Bool) (s : State), r < s.ring.length ∧ r ≠ 2 ∧ isMaster s r = false ∧ (ringSt s r).ports.length = 2) ∧
    (∃ (r : Nat) (ccw : Bool) (s : State), r < s.ring.length ∧ r ≠ 2 ∧ isMaster s r = true ∧ (ringSt s r).broken = 0 ∧ (ringSt s
    r).routeAt = none ∧ (ringSt s r).healedRoutes = false ∧ (ringSt s r).ports.length = 2) ∧
    (∃ (r : Nat) (ccw : Bool) (s : State), r < s.ring.length ∧ r ≠ 2 ∧ 16 * r + (if ccw then 1 else 0) ∉ (regSt s .ring).faulted ∧
    (ringSt s r).ports.length = 2) ∧
    (∃ (r n : Nat) (s : State), regionUp .ring s = true ∧ r < s.ring.length ∧ (ringSt s r).rdyAt = some n ∧ 10000000000 ≤
    (s.time.tickno - n) * periodNs s) ∧
    (∃ (r : Nat) (s : State), (ringSt s r).rdyAt = none) :=
  ⟨⟨0, 0, true, sealed {}, ({} : ClaimMsg), cell, by decide +kernel⟩,
   ⟨0, 0, true, ({ ({ ({} : ClaimMsg) with type := 2 } : ClaimMsg) with type := 2, node := 0 } : ClaimMsg), (onRing 0 (fun z =>
    { z with claims := [(true, ({ ({ ({} : ClaimMsg) with type := 2 } : ClaimMsg) with type := 2, node := 0 } : ClaimMsg))], out := [], members := 0, broken := 0 % 2 })
    ((fun
    (s : State) => { s with image.rings := updAt s.image.rings 0 (fun z => { z with slots := [{ kind := 3 }], nodes := [0, 1, 2] }) })
    ((fun (s : State) => onRing 0 (fun zz =>
    { zz with silent := ((ringSt s 0).silent ||| BitVec.ofNat _ (2 ^ ({ ({} : ClaimMsg) with type := 2 } : ClaimMsg).node)) }) s) ((fun
    (s
    : State) => { s with image.rings := updAt (grow s.image.rings 0) 0 (fun zz => { zz with nodes := (({ ({} : ClaimMsg) with type := 2 } : ClaimMsg).node :: (ringCfg s 0).nodes) }) })
    cell : State) : State) : State) : State), by decide +kernel⟩,
   ⟨0, 2, ({ vendor := 7, product := 9, hopCcw := 2 } : ClaimMsg), ({ id := 0, node := 3, vendor := 7, product := 9 } : SpareCfg),
    cell, by decide +kernel⟩,
   ⟨0, ((claimPlace ((fun (s : State) =>
    { s with image.rings := updAt s.image.rings 0 (fun z => { z with spares := [{ id := 4, node := 1 + 0, vendor := ({ ({} : ClaimMsg) with type := 1, hopCcw := 1 + 0 } : ClaimMsg).vendor + 1, product := ({ ({} : ClaimMsg) with type := 1, hopCcw := 1 + 0 } : ClaimMsg).product }] }) })
    cell
    : State) 0 ({ ({ ({} : ClaimMsg) with type := 1, hopCcw := 1 + 0 } : ClaimMsg) with hopCcw := ((ringNodes ((fun (s : State) => { s with image.rings := updAt s.image.rings 0 (fun z => { z with spares := [{ id := 4, node := 1 + 0, vendor := ({ ({} : ClaimMsg) with type := 1, hopCcw := 1 + 0 } : ClaimMsg).vendor + 1, product := ({ ({} : ClaimMsg) with type := 1, hopCcw := 1 + 0 } : ClaimMsg).product }] }) }) cell : State) 0).filter (fun j => j != 1 + 0 && (j + 32 - (ringSt ((fun (s : State) => { s with image.rings := updAt s.image.rings 0 (fun z => { z with spares := [{ id := 4, node := 1 + 0, vendor := ({ ({} : ClaimMsg) with type := 1, hopCcw := 1 + 0 } : ClaimMsg).vendor + 1, product := ({ ({} : ClaimMsg) with type := 1, hopCcw := 1 + 0 } : ClaimMsg).product }] }) }) cell : State) 0).master) % 32 < (1 + 0 + 32 - (ringSt ((fun (s : State) => { s with image.rings := updAt s.image.rings 0 (fun z => { z with spares := [{ id := 4, node := 1 + 0, vendor := ({ ({} : ClaimMsg) with type := 1, hopCcw := 1 + 0 } : ClaimMsg).vendor + 1, product := ({ ({} : ClaimMsg) with type := 1, hopCcw := 1 + 0 } : ClaimMsg).product }] }) }) cell : State) 0).master) % 32)).length }
    : ClaimMsg)).getD 0 : Nat),
    ({ ({ ({} : ClaimMsg) with type := 1, hopCcw := 1 + 0 } : ClaimMsg) with hopCcw := ((ringNodes ((fun (s : State) => { s with image.rings := updAt s.image.rings 0 (fun z => { z with spares := [{ id := 4, node := 1 + 0, vendor := ({ ({} : ClaimMsg) with type := 1, hopCcw := 1 + 0 } : ClaimMsg).vendor + 1, product := ({ ({} : ClaimMsg) with type := 1, hopCcw := 1 + 0 } : ClaimMsg).product }] }) }) cell : State) 0).filter (fun j => j != 1 + 0 && (j + 32 - (ringSt ((fun (s : State) => { s with image.rings := updAt s.image.rings 0 (fun z => { z with spares := [{ id := 4, node := 1 + 0, vendor := ({ ({} : ClaimMsg) with type := 1, hopCcw := 1 + 0 } : ClaimMsg).vendor + 1, product := ({ ({} : ClaimMsg) with type := 1, hopCcw := 1 + 0 } : ClaimMsg).product }] }) }) cell : State) 0).master) % 32 < (1 + 0 + 32 - (ringSt ((fun (s : State) => { s with image.rings := updAt s.image.rings 0 (fun z => { z with spares := [{ id := 4, node := 1 + 0, vendor := ({ ({} : ClaimMsg) with type := 1, hopCcw := 1 + 0 } : ClaimMsg).vendor + 1, product := ({ ({} : ClaimMsg) with type := 1, hopCcw := 1 + 0 } : ClaimMsg).product }] }) }) cell : State) 0).master) % 32)).length }
    : ClaimMsg), (((sparesAt ((fun (s : State) =>
    { s with image.rings := updAt s.image.rings 0 (fun z => { z with spares := [{ id := 4, node := 1 + 0, vendor := ({ ({} : ClaimMsg) with type := 1, hopCcw := 1 + 0 } : ClaimMsg).vendor + 1, product := ({ ({} : ClaimMsg) with type := 1, hopCcw := 1 + 0 } : ClaimMsg).product }] }) })
    cell : State) 0 ((claimPlace ((fun (s : State) =>
    { s with image.rings := updAt s.image.rings 0 (fun z => { z with spares := [{ id := 4, node := 1 + 0, vendor := ({ ({} : ClaimMsg) with type := 1, hopCcw := 1 + 0 } : ClaimMsg).vendor + 1, product := ({ ({} : ClaimMsg) with type := 1, hopCcw := 1 + 0 } : ClaimMsg).product }] }) })
    cell
    : State) 0 ({ ({ ({} : ClaimMsg) with type := 1, hopCcw := 1 + 0 } : ClaimMsg) with hopCcw := ((ringNodes ((fun (s : State) => { s with image.rings := updAt s.image.rings 0 (fun z => { z with spares := [{ id := 4, node := 1 + 0, vendor := ({ ({} : ClaimMsg) with type := 1, hopCcw := 1 + 0 } : ClaimMsg).vendor + 1, product := ({ ({} : ClaimMsg) with type := 1, hopCcw := 1 + 0 } : ClaimMsg).product }] }) }) cell : State) 0).filter (fun j => j != 1 + 0 && (j + 32 - (ringSt ((fun (s : State) => { s with image.rings := updAt s.image.rings 0 (fun z => { z with spares := [{ id := 4, node := 1 + 0, vendor := ({ ({} : ClaimMsg) with type := 1, hopCcw := 1 + 0 } : ClaimMsg).vendor + 1, product := ({ ({} : ClaimMsg) with type := 1, hopCcw := 1 + 0 } : ClaimMsg).product }] }) }) cell : State) 0).master) % 32 < (1 + 0 + 32 - (ringSt ((fun (s : State) => { s with image.rings := updAt s.image.rings 0 (fun z => { z with spares := [{ id := 4, node := 1 + 0, vendor := ({ ({} : ClaimMsg) with type := 1, hopCcw := 1 + 0 } : ClaimMsg).vendor + 1, product := ({ ({} : ClaimMsg) with type := 1, hopCcw := 1 + 0 } : ClaimMsg).product }] }) }) cell : State) 0).master) % 32)).length }
    : ClaimMsg)).getD 0 : Nat)).head?).getD ({} : SpareCfg) : SpareCfg), ((fun (s : State) =>
    { s with image.rings := updAt s.image.rings 0 (fun z => { z with spares := [{ id := 4, node := 1 + 0, vendor := ({ ({} : ClaimMsg) with type := 1, hopCcw := 1 + 0 } : ClaimMsg).vendor + 1, product := ({ ({} : ClaimMsg) with type := 1, hopCcw := 1 + 0 } : ClaimMsg).product }] }) })
    cell : State), by decide +kernel⟩,
   ⟨0, ({} : ClaimMsg), cell, by decide +kernel⟩,
   ⟨0, 0, (onNode 0 0 (fun zz => { zz with consec := (3 + 0) }) cell : State), by decide +kernel⟩,
   ⟨0, 900, 5, 6, 7, false, sealed {}, (onRing 0 (fun x => { x with ports := [{ up := true, sentAt := some 5 }, { up := true }] })
    cell : State), by decide +kernel⟩,
   ⟨0, 900, 5, false, sealed {}, cell, by decide +kernel⟩,
   ⟨0, true, (onRing 0 (fun z => { z with master := z.node + 1 }) cell : State), by decide +kernel⟩,
   ⟨0, true, (onRing 0 (fun zz => { zz with healedRoutes := false }) (onRing 0 (fun zz => { zz with routeAt := none }) (onRing 0
    (fun zz => { zz with broken := 0 }) cell : State) : State) : State), by decide +kernel⟩,
   ⟨0, true, cell, by decide +kernel⟩,
   ⟨0, 5, (onRing 0 (fun z => { z with rdyAt := some 5, needStable := true })
    ({ (onRing 0 (fun zz => { zz with rdyAt := some 0 }) cell : State) with time.tickno := 1000000 } : State) : State), by
    decide +kernel⟩,
   ⟨0, (onRing 0 (fun zz => { zz with rdyAt := none }) cell : State), by decide +kernel⟩⟩

theorem test_wit_RingFrames :
    (∃ (r k : Nat) (s : State), regionUp .ring s = true ∧ r < s.ring.length ∧ (nth (ringCfg s r).slots k).kind = 2 ∧ isMaster s r =
    true ∧ inRun (ringSt s r) = true) ∧
    (∃ (r k : Nat) (s : State), regionUp .ring s = true ∧ r < s.ring.length ∧ (nth (ringCfg s r).slots k).kind = 3 ∧ isMaster s r =
    true ∧ s.pair.role = 0 ∧ (ringSt s r).broken < 2 ∧ (ringSt s r).claims = [] ∧ s.time.run = true) ∧
    (∃ (r k : Nat) (c : Bool) (s : State), regionUp .ring s = true ∧ r < s.ring.length ∧ (nth (ringCfg s r).slots k).kind = 1 ∧
    isMaster s r = false ∧ mayOpen (ringSt s r) = true ∧ inRun (ringSt s r) = true ∧ c ∈ slotSides s r k ∧ opener s r k c = some (ringSt
    s r).node ∧ (portSt s r (!c)).up = true ∧ (portSt s r (!c)).loop = false) ∧
    (∃ (r k : Nat) (s : State), regionUp .ring s = true ∧ r < s.ring.length ∧ ((ringSt s r).txStopped = true ∨ (ringSt s r).state =
    .down ∨ (ringSt s r).state = .silent ∧ (nth (ringCfg s r).slots k).kind ≠ 5)) ∧
    (∃ (r k a : Nat) (c : Bool) (s : State), regionUp .ring s = true ∧ r < s.ring.length ∧ isMaster s r = false ∧ mayOpen (ringSt s
    r) = true ∧ inRun (ringSt s r) = true ∧ (nth (ringCfg s r).slots k).kind = 1 ∧ substitute s r k c = some (ringSt s r).node ∧ (ringSt
    s r).seen.contains (k, c) = false ∧ slotAt s r k + 96 ≤ a + ownDelay s r c ∧ (portSt s r (!c)).up = true ∧ (portSt s r (!c)).loop =
    false) ∧
    (∃ (r a : Nat) (ccw : Bool) (h : RingHead) (u : UpSeg) (s : State), regionUp .ring s = true ∧ r < s.ring.length ∧ isMaster s r =
    true ∧ frameOk s r h = true ∧ windowOf (slotAt s r h.slot) a = .inside ∧ u.node < (ringSt s r).nodes.length ∧ hasBit (ringSt s
    r).members u.node = true ∧ hasBit (ringSt s r).silent u.node = false ∧ onSide s r h.slot u.node ccw = true ∧ (slotSegs s r
    h.slot).any (fun g => g.node == u.node) = true ∧ u.tchk = BitVec.ofNat 8 h.tickno ∧ u.null = false) ∧
    (∃ (r a j : Nat) (ccw : Bool) (h : RingHead) (us : List UpSeg) (s : State), regionUp .ring s = true ∧ r < s.ring.length ∧
    isMaster s r = true ∧ frameOk s r h = true ∧ opener s r h.slot ccw = some j ∧ j < (ringSt s r).nodes.length) ∧
    (∃ (r a : Nat) (ccw : Bool) (h : RingHead) (d : DownSeg) (s : State), regionUp .ring s = true ∧ r < s.ring.length ∧ (ringSt s
    r).role = 3 ∧ inRun (ringSt s r) = true ∧ frameOk s r h = true ∧ hasBit (ringSt s r).members (ringSt s r).node = true ∧ windowOf
    (slotAt s r h.slot + nth (ringSt s r).dly (portIx ccw)) a = .inside ∧ d.node = (ringSt s r).node ∧ d.tchk = BitVec.ofNat 8 h.tickno
    ∧ ((ringSt s r).dlLost = false ∨ d.sto = 0)) ∧
    (∃ (r a : Nat) (ccw : Bool) (h : RingHead) (d : DownSeg) (s : State), regionUp .ring s = true ∧ (ringSt s r).role = 3 ∧ r <
    s.ring.length ∧ frameOk s r h = true ∧ (d.node ≠ (ringSt s r).node ∨ d.tchk ≠ BitVec.ofNat 8 h.tickno)) ∧
    (∃ (s : State), nodeMode s = true ∧ dlLimit s < (ringSt s 0).dlMiss ∧ (ringSt s 0).dlLost = false ∧ 0 < s.ring.length) ∧
    (∃ (s : State), (nodeMode s = false ∨ (ringSt s 0).dlMiss ≤ dlLimit s)) :=
  ⟨⟨0, 0, ((fun (s : State) =>
    { s with image.rings := updAt (grow s.image.rings 0) 0 (fun zz => { zz with slots := (updAt (grow (ringCfg s 0).slots 0) 0 (fun zz => { zz with kind := 2 })) }) })
    cell : State), by decide +kernel⟩,
   ⟨0, 0, (onRing 0 (fun zz => { zz with claims := [] }) ((fun (s : State) =>
    { s with image.rings := updAt (grow s.image.rings 0) 0 (fun zz => { zz with slots := (updAt (grow (ringCfg s 0).slots 0) 0 (fun zz => { zz with kind := 3 })) }) })
    cell : State) : State), by decide +kernel⟩,
   ⟨0, 1, false, (onRing 0 (fun x => { x with node := 2 }) cell : State), by decide +kernel⟩,
   ⟨0, 0, (onRing 0 (fun zz => { zz with txStopped := true }) cell : State), by decide +kernel⟩,
   ⟨0, 1, 90000000, false, (onRing 0 (fun x => { x with node := 1 }) cell : State), by decide +kernel⟩,
   ⟨0, 0, false, sealed { kind := 1, slot := 1, tickno := 100 }, ({ node := 1, tchk := 100 } : UpSeg), cell, by decide +kernel⟩,
   ⟨0, 0, 2, false, sealed { kind := 1, slot := 1, tickno := 100 }, ([] : List UpSeg), cell, by decide +kernel⟩,
   ⟨0, 0, true, sealed { kind := 2, slot := 2, tickno := 100 }, ({ node := 1, tchk := 100 } : DownSeg), (onRing 0 (fun x =>
    { x with role := 3, node := 1 }) cell : State), by decide +kernel⟩,
   ⟨0, 0, true, sealed { kind := 2, slot := 2, tickno := 100 }, ({ node := 9 } : DownSeg), (onRing 0 (fun x =>
    { x with role := 3, node := 1 }) cell : State), by decide +kernel⟩,
   ⟨((fun (s : State) => onRing 0 (fun zz => { zz with dlMiss := (dlLimit s + 1 + 0) }) s) ((fun (s : State) =>
    { s with image.rings := updAt (grow s.image.rings 0) 0 (fun z => { z with role := 3 }) }) cell : State) : State), by
    decide +kernel⟩,
   ⟨cell, by decide +kernel⟩⟩

theorem test_wit_PlantNetworks :
    (∃ (p n : Nat) (a b c d : Bool) (m : Option PtpId) (s : State), regionUp .host s = true ∧ p / 2 < s.host.nets.length) ∧
    (∃ (p n : Nat) (d : Bool) (s : State), regionUp .host s = true ∧ otherPort p < s.host.ports.length ∧ (nth s.host.ports
    (otherPort p)).up = true ∧ (nth s.host.ports (otherPort p)).wire = none ∧ s.pair.role ≠ 3 ∧ n ≤ 1522) ∧
    (∃ (p : Nat) (s : State), regionUp .host s = true ∧ p < s.host.ports.length) ∧
    (∃ (p : Nat) (s : State), p < s.host.ports.length ∧ (nth s.host.ports p).up = true) ∧
    (∃ (p : Nat) (s : State), p < s.host.ports.length ∧ (nth s.host.ports p).bad = false ∧ (nth s.host.ports p).up = false) ∧
    (∃ (n : Nat) (s : State), regionUp .host s = true ∧ n < 2 ∧ 2 * n + 1 < s.host.ports.length ∧ s.pair.role ≠ 3 ∧ (nth
    s.host.ports (2 * n)).up = true ∧ (nth s.host.ports (2 * n)).wire = none ∧ (nth s.host.ports (2 * n + 1)).up = true ∧ (nth
    s.host.ports (2 * n + 1)).wire = none) ∧
    (∃ (n now : Nat) (s : State), 10 ≤ (nth s.host.nets n).echoes ∧ now < (nth s.host.nets n).echoAt + 1000000000) ∧
    (∃ (n q : Nat) (b : List Byte) (s : State), regionUp .host s = true ∧ (nth s.image.nets n).mailbox = some q ∧ qFull s q = false
    ∧ q < s.host.queues.length) ∧
    (∃ (n : Nat) (b : List Byte) (s : State), regionUp .host s = true ∧ (nth s.image.nets n).mailbox = none ∧ n <
    s.host.nets.length) ∧
    (∃ (c q n : Nat) (s : State), regionStopped .host s = false ∧ tlFlow s (.core c) = none ∧ (queueCfg s q).cons = c ∧ 1 ≤ n ∧ n ≤
    256 ∧ q ≠ 28 ∧ q ≠ 29 ∧ q ≠ 30 ∧ q < s.host.queues.length) ∧
    (∃ (c q n : Nat) (s : State), regionStopped .host s = false ∧ tlFlow s (.core c) = none ∧ (queueCfg s q).cons ≠ c) :=
  ⟨⟨0, 0, true, true, true, true, (none : Option PtpId), cell, by decide +kernel⟩,
   ⟨0, 0, true, ((fun (s : State) =>
    { s with host.ports := (updAt (grow s.host.ports (otherPort 0)) (otherPort 0) (fun zz => { zz with wire := none })) }) cell :
    State), by decide +kernel⟩,
   ⟨0, cell, by decide +kernel⟩,
   ⟨0, ((fun (s : State) => { s with host.ports := (updAt (grow s.host.ports 0) 0 (fun zz => { zz with up := true })) }) cell :
    State), by decide +kernel⟩,
   ⟨0, ((fun (s : State) => { s with host.ports := (updAt (grow s.host.ports 0) 0 (fun zz => { zz with up := false })) }) cell :
    State), by decide +kernel⟩,
   ⟨0, cell, by decide +kernel⟩,
   ⟨0, 0, ((fun (s : State) => { s with host.nets := (updAt (grow s.host.nets 0) 0 (fun zz => { zz with echoes := (10 + 0) })) })
    cell : State), by decide +kernel⟩,
   ⟨0, 0, ([] : List Byte), ((fun (s : State) =>
    { s with image.nets := (updAt (grow s.image.nets 0) 0 (fun zz => { zz with mailbox := some 0 })) }) cell : State), by
    decide +kernel⟩,
   ⟨0, ([] : List Byte), ((fun (s : State) =>
    { s with image.nets := (updAt (grow s.image.nets 0) 0 (fun zz => { zz with mailbox := none })) }) cell : State), by decide +kernel⟩,
   ⟨1, 0, (((256) - 0) : Nat), ((fun (s : State) =>
    { s with image.queues := updAt (grow s.image.queues 0) 0 (fun zz => { zz with cons := 1 }) }) cell : State), by decide +kernel⟩,
   ⟨1, 0, 0, cell, by decide +kernel⟩⟩

theorem test_wit_ZonesAndEnabling :
    (∃ (z g : Nat) (s : State), regionUp .trl s = true ∧ (slackSt s 0).missNow = false ∧ (slackSt s 0).done = 0 ∧ s.image.compat =
    false ∧ z < s.trl.zones.length ∧ g < 16 ∧ (zoneSt s z).holder = none ∧ (zoneSt s z).frzE0 = false ∧ g ∈ (zoneSt s z).fresh ∧ (trlG s
    g).wait = some z ∧ (trlG s g).reqTick < s.time.tickno ∧ (grpSt s g).state = .waitZone ∧ (∀ k, k ≠ z → g ∉ (zoneSt s k).fresh ∧ ∀ p ∈
    (zoneSt s k).parked, p.1 ≠ g)) ∧
    (∃ (z : Nat) (s : State), ((zoneSt s z).holder.isSome = true ∨ (zoneSt s z).frzE0 = true)) ∧
    (∃ (s : State), ((slackSt s 0).done ≠ 0 ∨ (slackSt s 0).missNow = true ∨ s.image.compat = true)) ∧
    (∃ (z : Nat) (s : State), regionStopped .trl s = false ∧ hasSolTrl s = true ∧ z < s.trl.zones.length) ∧
    (∃ (z : Nat) (s : State), regionStopped .trl s = false ∧ hasSolTrl s = false) ∧
    (∃ (g : Nat) (s : State), regionUp .mot s = true ∧ g < s.mot.groups.length ∧ (grpSt s g).state = .enabling ∧ (grpSt s
    g).enableTick + (grpCfg s g).brkdly + 1 ≤ s.time.tickno) ∧
    (∃ (g : Nat) (s : State), s.time.tickno < (grpSt s g).enableTick + (grpCfg s g).brkdly + 1) ∧
    (∃ (g : Nat) (s : State), regionUp .mot s = true ∧ g < s.mot.groups.length ∧ (grpSt s g).state = .waitSync ∧ (grpSt s
    g).syncRaised = false ∧ (grpCfg s g).syncTmo < (grpSt s g).syncWait) ∧
    (∃ (g : Nat) (s : State), (grpSt s g).syncRaised = true) :=
  ⟨(by refine ⟨0, 0, (onGrp 0 (fun zz => { zz with state := .waitZone }) (onTrlG 0 (fun zz => { zz with wait := some 0 }) ((fun (s :
    State) => onZone 0 (fun zz => { zz with fresh := (0 :: (zoneSt s 0).fresh) }) s) cell : State) : State) : State), ?_, ?_, ?_, ?_,
    ?_, ?_, ?_, ?_, ?_, ?_, ?_, ?_, nth_all (P := fun k (x : ZoneSt) => k ≠ 0 → 0 ∉ x.fresh ∧ ∀ p ∈ x.parked, p.1 ≠ 0) _ (by
    decide +kernel) (fun _ _ => by decide +kernel)⟩ <;> decide +kernel),
   ⟨0, (onZone 0 (fun zz => { zz with holder := some default }) cell : State), by decide +kernel⟩,
   ⟨((fun (s : State) => { s with time.slack := updAt s.time.slack 0 (fun zz => { zz with done := (1) }) }) cell : State), by
    decide +kernel⟩,
   ⟨0, cell, by decide +kernel⟩,
   ⟨0, ({ cell with image := { cellImage with compat := true } } : State), by decide +kernel⟩,
   ⟨0, (onGrp 0 (fun zz => { zz with state := .enabling }) cell : State), by decide +kernel⟩,
   ⟨0, ((fun (s : State) => { s with time.tickno := (((grpSt s 0).enableTick + (grpCfg s 0).brkdly + 1) - 1 - 0) }) cell : State),
    by decide +kernel⟩,
   ⟨0, ((fun (s : State) => onGrp 0 (fun zz => { zz with syncWait := ((grpCfg s 0).syncTmo + 1 + 0) }) s) (onGrp 0 (fun zz =>
    { zz with state := .waitSync }) cell : State) : State), by decide +kernel⟩,
   ⟨0, (onGrp 0 (fun zz => { zz with syncRaised := true }) cell : State), by decide +kernel⟩⟩

theorem test_wit_FeedbackAndPairs :
    (∃ (j : Nat) (s : State), regionUp .trl s = true ∧ hasSolTrl s = true ∧ j < s.trl.objs.length ∧ (nth s.image.objs j).defined =
    true ∧ (nth s.image.sensors (nth s.image.objs j).sensor).ageMax < (nth s.trl.objs j).age ∧ (nth s.trl.objs j).stale = false) ∧
    (∃ (j : Nat) (s : State), (nth s.trl.objs j).stale = true) ∧
    (∃ (p : PairRec) (g : Nat) (s : State), regionUp .trl s = true ∧ s.trl.pairs = [p] ∧ s.trl.batches = [(false, false)] ∧ (slackSt
    s 5).missNow = false ∧ g < 16 ∧ g < s.trl.g.length ∧ (grpCfg s g).defined = true ∧ p.groups = bitOf 16 g ∧ (p.cls = .w ∨ p.cls =
    .o)) ∧
    (∃ (p : PairRec) (g : Nat) (s : State), regionUp .trl s = true ∧ s.trl.pairs = [p] ∧ s.trl.batches = [(false, false)] ∧ (slackSt
    s 5).missNow = false ∧ g < 16 ∧ g < s.trl.g.length ∧ g < s.saf.g.length ∧ (grpCfg s g).defined = true ∧ p.groups = bitOf 16 g ∧
    (p.cls = .p ∨ p.cls = .k)) ∧
    (∃ (id : Nat) (ds : List Nat) (s : State), (s.trl.batches.length ≤ id ∨ nth s.trl.batches id ≠ (false, false) ∨ (slackSt s
    5).missNow = true)) ∧
    (∃ (s : State), nodeMode s = false ∧ s.mot.fbRel = false) ∧
    (∃ (s : State), s.mot.fbRel = true) ∧
    (∃ (src : FbSource) (s : State), nullLimit s < nullRunOf s src ∧ sourceLost s src = false ∧ sourceGroups s src ≠ 0) ∧
    (∃ (src : FbSource) (s : State), nullRunOf s src ≤ nullLimit s) ∧
    (∃ (a k : Nat) (s : State), a < s.mot.axes.length ∧ (axSt s a).hgo = some k ∧ k + 64 ≤ s.time.tickno) ∧
    (∃ (a k : Nat) (s : State), (axSt s a).hgo = some k ∧ s.time.tickno < k + 64) :=
  ⟨⟨0, ((fun (s : State) =>
    { s with trl.objs := (updAt (grow s.trl.objs 0) 0 (fun zz => { zz with age := ((nth s.image.sensors (nth s.image.objs 0).sensor).ageMax + 1 + 0) })) })
    cell : State), by decide +kernel⟩,
   ⟨0, ((fun (s : State) => { s with trl.objs := (updAt (grow s.trl.objs 0) 0 (fun zz => { zz with stale := true })) }) cell :
    State), by decide +kernel⟩,
   ⟨({ ({ ({} : PairRec) with groups := bitOf 16 0 } : PairRec) with cls := .w } : PairRec), 0,
    ({ ({ cell with trl.pairs := [({ ({ ({} : PairRec) with groups := bitOf 16 0 } : PairRec) with cls := .w } : PairRec)] } : State) with trl.batches := [(false, false)] }
    : State), by decide +kernel⟩,
   ⟨({ ({ ({} : PairRec) with groups := bitOf 16 0 } : PairRec) with cls := .p } : PairRec), 0, ((fun (s : State) =>
    { s with image.groups := updAt (grow s.image.groups 0) 0 (fun zz => { zz with defined := true }) })
    ({ ({ cell with trl.pairs := [({ ({ ({} : PairRec) with groups := bitOf 16 0 } : PairRec) with cls := .p } : PairRec)] } : State) with trl.batches := [(false, false)] }
    : State) : State), by decide +kernel⟩,
   ⟨0, ([] : List Nat), cell, by decide +kernel⟩,
   ⟨cell, by decide +kernel⟩,
   ⟨({ cell with mot.fbRel := true } : State), by decide +kernel⟩,
   ⟨(.chan 0 : FbSource), ((fun (s : State) =>
    { s with ring := s.ring.map (fun z => { z with nodes := z.nodes.map (fun y => { y with nullRun := 9 + 0, fbLost := false }) }), axio := s.axio.map (fun z => { z with nullRun := 9 + 0, fbLost := false }), image.nullLim := 8 })
    cell : State), by decide +kernel⟩,
   ⟨(.chan 0 : FbSource), cell, by decide +kernel⟩,
   ⟨0, 0, (onAxis 0 (fun zz => { zz with hgo := some 0 }) cell : State), by decide +kernel⟩,
   ⟨0, 0, ({ (onAxis 0 (fun zz => { zz with hgo := some 0 }) cell : State) with time.tickno := ((0 + 64) - 1 - 0) } : State), by
    decide +kernel⟩⟩

theorem test_wit_DeltaGate :
    (∃ (v : Word) (s : State), regionStopped .sol s = false ∧ hasSolTrl s = true ∧ packetOk s 3 (Packet.mk (s.sol.delta0.toNat %
    256) (s.sol.delta0.toNat / 256 % 256) (s.sol.delta0.toNat / 65536) v) = true) ∧
    (∃ (v : Word) (s : State), regionStopped .sol s = false ∧ hasSolTrl s = true ∧ packetOk s 3 (Packet.mk (s.sol.delta0.toNat %
    256) (s.sol.delta0.toNat / 256 % 256) (s.sol.delta0.toNat / 65536) v) = false) ∧
    (∃ (s : State), regionUp .sol s = true ∧ hasSolTrl s = true ∧ s.sol.gated = false) ∧
    (∃ (s : State), s.sol.gated = true) ∧
    (∃ (p : Nat) (e : Bool) (s : State), regionStopped .sol s = false ∧ hasSolTrl s = true ∧ p < s.sol.probs.length ∧ (probCfg s
    p).use ≠ 1 ∧ (probCfg s p).use ≠ 2) ∧
    (∃ (p : Nat) (e : Bool) (s : State), regionStopped .sol s = false ∧ hasSolTrl s = true ∧ ((probCfg s p).use = 1 ∨ (probCfg s
    p).use = 2)) ∧
    (∃ (p : Nat) (s : State), regionStopped .sol s = false ∧ hasSolTrl s = true ∧ p < s.sol.probs.length) :=
  ⟨⟨(0 : Word), cell, by decide +kernel⟩,
   ⟨(0 : Word), ({ cell with sol := { delta0 := 5 } } : State), by decide +kernel⟩,
   ⟨cell, by decide +kernel⟩,
   ⟨({ cell with sol.gated := true } : State), by decide +kernel⟩,
   ⟨0, true, cell, by decide +kernel⟩,
   ⟨0, true, ((fun (s : State) => { s with image.probs := updAt (grow s.image.probs 0) 0 (fun zz => { zz with use := 1 }) }) cell :
    State), by decide +kernel⟩,
   ⟨0, cell, by decide +kernel⟩⟩

theorem test_wit_SolverJobs :
    (∃ (p : Nat) (s : State), regionUp .sol s = true ∧ p < s.sol.probs.length ∧ (probSt s p).job = .running ∧ (probSt s p).pruned =
    false) ∧
    (∃ (p : Nat) (s : State), ((probSt s p).job ≠ .running ∨ (probSt s p).pruned = true)) ∧
    (∃ (p n : Nat) (s : State), regionUp .sol s = true ∧ p < s.sol.probs.length ∧ (probCfg s p).anytime = true ∧ (probSt s p).pruned
    = false ∧ ((probSt s p).job = .running ∨ (probSt s p).job = .waiting)) ∧
    (∃ (p n : Nat) (s : State), (probCfg s p).anytime = false) ∧
    (∃ (s : State), regionUp .sol s = true ∧ hasSolTrl s = true) ∧
    (∃ (p : Nat) (s : State), regionUp .sol s = true ∧ p < s.sol.probs.length ∧ missLimit s < (probSt s p).nvrun ∧ (probSt s
    p).limit = false) ∧
    (∃ (p : Nat) (s : State), (probSt s p).nvrun ≤ missLimit s) :=
  ⟨⟨0, (onProb 0 (fun zz => { zz with job := .running }) cell : State), by decide +kernel⟩,
   ⟨0, cell, by decide +kernel⟩,
   ⟨0, 0, (onProb 0 (fun zz => { zz with job := .running }) ((fun (s : State) =>
    { s with image.probs := updAt (grow s.image.probs 0) 0 (fun zz => { zz with anytime := true }) }) cell : State) : State), by
    decide +kernel⟩,
   ⟨0, 0, cell, by decide +kernel⟩,
   ⟨cell, by decide +kernel⟩,
   ⟨0, ((fun (s : State) => onProb 0 (fun zz => { zz with nvrun := (missLimit s + 1 + 0) }) s) cell : State), by decide +kernel⟩,
   ⟨0, cell, by decide +kernel⟩⟩

theorem test_wit_SliceResultsAndClip :
    (∃ (b sl : Nat) (rd rs rt : Fin 8) (x : SliceSt) (s : State), sliceFree b sl s x ∧ rd.val < x.d.length ∧ s.image.compat = false)
    ∧
    (∃ (b sl : Nat) (ax : Fin 2) (rd rs rt : Fin 8) (pn : Fin 4) (amm : Bool) (x : SliceSt) (s : State), sliceFree b sl s x ∧
    x.illegal = 0 ∧ rotating s b sl = false ∧ s.image.compat = true) :=
  ⟨⟨0, 0, (0 : Fin 8), (0 : Fin 8), (0 : Fin 8), ({ ({} : SliceSt) with run := .run, abortWait := false, present := true } :
    SliceSt), (setSlice 0 0 ({ ({} : SliceSt) with run := .run, abortWait := false, present := true } : SliceSt) cell : State),
    by unfold sliceFree; decide +kernel⟩,
   ⟨0, 0, (0 : Fin 2), (0 : Fin 8), (0 : Fin 8), (0 : Fin 8), (0 : Fin 4), true,
    ({ ({} : SliceSt) with run := .run, abortWait := false, present := true } : SliceSt), (setSlice 0 0
    ({ ({} : SliceSt) with run := .run, abortWait := false, present := true } : SliceSt) ({ cell with image.compat := true } : State) :
    State), by unfold sliceFree; decide +kernel⟩⟩

theorem test_wit_SliceRegisterResults : ∃ (b sl : Nat) (rd rs rt : Fin 8) (ax : Fin 2) (sh : Fin 32) (imm : BitVec 14) (imm23 :
    BitVec 23) (sat : Bool) (x : SliceSt) (s : State), sliceFree b sl s x ∧ rd.val < x.d.length :=
  ⟨0, 0, (0 : Fin 8), (0 : Fin 8), (0 : Fin 8), (0 : Fin 2), (0 : Fin 32), (3 : BitVec 14), (0 : BitVec 23), true,
    ({ ({} : SliceSt) with run := .run, abortWait := false, present := true } : SliceSt), (setSlice 0 0
    ({ ({} : SliceSt) with run := .run, abortWait := false, present := true } : SliceSt) cell : State),
    by unfold sliceFree; decide +kernel⟩

theorem test_wit_SliceAccumulators :
    (∃ (b sl : Nat) (ax : Fin 2) (rd rs rt : Fin 8) (sh : Fin 32) (x : SliceSt) (s : State), sliceFree b sl s x) ∧
    (∃ (b sl : Nat) (ax : Fin 2) (rs rt rl : Fin 8) (pn : Fin 4) (amm : Bool) (x : SliceSt) (s : State), sliceFree b sl s x ∧
    s.image.compat = false ∧ pn.val < x.p.length) ∧
    (∃ (x : SliceSt) (ax : Fin 2) (v : BitVec 56), x.pend = [{ dest := .a ax, val := v }]) :=
  ⟨⟨0, 0, (0 : Fin 2), (0 : Fin 8), (0 : Fin 8), (0 : Fin 8), (0 : Fin 32),
    ({ ({} : SliceSt) with run := .run, abortWait := false, present := true } : SliceSt), (setSlice 0 0
    ({ ({} : SliceSt) with run := .run, abortWait := false, present := true } : SliceSt) cell : State),
    by unfold sliceFree; decide +kernel⟩,
   ⟨0, 0, (0 : Fin 2), (0 : Fin 8), (0 : Fin 8), (0 : Fin 8), (0 : Fin 4), true,
    ({ ({} : SliceSt) with run := .run, abortWait := false, present := true } : SliceSt), (setSlice 0 0
    ({ ({} : SliceSt) with run := .run, abortWait := false, present := true } : SliceSt) cell : State),
    by unfold sliceFree; decide +kernel⟩,
   ⟨({ ({} : SliceSt) with pend := [{ dest := .a (0 : Fin 2), val := (0 : BitVec 56) }] } : SliceSt), (0 : Fin 2), (0 : BitVec 56),
    by decide +kernel⟩⟩

theorem test_wit_SliceMemory :
    (∃ (b sl : Nat) (rd : Fin 8) (pn am : Fin 4) (off a : BitVec 12) (u : Option (BitVec 12)) (x : SliceSt) (s : State), sliceFree b
    sl s x ∧ memOperand x pn am off = some (a, u) ∧ pn.val < x.p.length) ∧
    (∃ (b sl : Nat) (rd : Fin 8) (pn am : Fin 4) (off a : BitVec 12) (u : Option (BitVec 12)) (x : SliceSt) (s : State), sliceFree b
    sl s x ∧ memOperand x pn am off = some (a, u) ∧ pn.val < x.p.length ∧ dmemWritable a = true) ∧
    (∃ (b sl : Nat) (ax : Fin 2) (pn : Fin 4) (amm : Bool) (sh : Fin 32) (sat : Bool) (x : SliceSt) (s : State), sliceFree b sl s x
    ∧ pn.val < x.p.length ∧ dmemWritable (nth x.p pn) = true ∧ (stBit x 20 = true → (store24 (aReg x ax).toInt sh sat).ovf = false)) ∧
    (∃ (b sl : Nat) (rd : Fin 8) (cr : Fin 32) (pn : Fin 4) (imm : BitVec 16) (inc : BitVec 12) (x : SliceSt) (s : State), sliceFree
    b sl s x ∧ cr.val < 22) ∧
    (∃ (b sl : Nat) (rd : Fin 8) (pn am : Fin 4) (off : BitVec 12) (cr : Fin 32) (ax : Fin 2) (cond : Fin 16) (tgt : BitVec 11) (x :
    SliceSt) (s : State), sliceFree b sl s x ∧ x.inSlot = false ∧ atLoopEnd x = false ∧ x.illegal = 0 ∧ rotating s b sl = false ∧
    memOperand x pn am off = none ∧ 22 ≤ cr.val ∧ 7 ≤ cond.val) ∧
    (∃ (b sl : Nat) (rd : Fin 8) (pn am : Fin 4) (off a : BitVec 12) (u : Option (BitVec 12)) (x : SliceSt) (s : State), sliceFree b
    sl s x ∧ x.illegal = 0 ∧ rotating s b sl = false ∧ memOperand x pn am off = some (a, u) ∧ dmemWritable a = false) :=
  ⟨⟨0, 0, (0 : Fin 8), (0 : Fin 4), (0 : Fin 4), (0 : BitVec 12), (0 : BitVec 12), none,
    ({ ({} : SliceSt) with run := .run, abortWait := false, present := true } : SliceSt), (setSlice 0 0
    ({ ({} : SliceSt) with run := .run, abortWait := false, present := true } : SliceSt) cell : State),
    by unfold sliceFree; decide +kernel⟩,
   ⟨0, 0, (0 : Fin 8), (0 : Fin 4), (0 : Fin 4), (0 : BitVec 12), (0 : BitVec 12), none,
    ({ ({} : SliceSt) with run := .run, abortWait := false, present := true } : SliceSt), (setSlice 0 0
    ({ ({} : SliceSt) with run := .run, abortWait := false, present := true } : SliceSt) cell : State),
    by unfold sliceFree; decide +kernel⟩,
   ⟨0, 0, (0 : Fin 2), (0 : Fin 4), true, (0 : Fin 32), true,
    ({ ({} : SliceSt) with run := .run, abortWait := false, present := true } : SliceSt), (setSlice 0 0
    ({ ({} : SliceSt) with run := .run, abortWait := false, present := true } : SliceSt) cell : State),
    by unfold sliceFree; decide +kernel⟩,
   ⟨0, 0, (0 : Fin 8), (0 : Fin 32), (0 : Fin 4), (0 : BitVec 16), (0 : BitVec 12),
    ({ ({} : SliceSt) with run := .run, abortWait := false, present := true } : SliceSt), (setSlice 0 0
    ({ ({} : SliceSt) with run := .run, abortWait := false, present := true } : SliceSt) cell : State),
    by unfold sliceFree; decide +kernel⟩,
   ⟨0, 0, (0 : Fin 8), (0 : Fin 4), (1 : Fin 4), (1 : BitVec 12), (22 : Fin 32), (0 : Fin 2), (7 : Fin 16), (5 : BitVec 11),
    ({ ({} : SliceSt) with run := .run, abortWait := false, present := true } : SliceSt), (setSlice 0 0
    ({ ({} : SliceSt) with run := .run, abortWait := false, present := true } : SliceSt) cell : State),
    by unfold sliceFree; decide +kernel⟩,
   ⟨0, 0, (0 : Fin 8), (0 : Fin 4), (0 : Fin 4), (0 : BitVec 12), ((memOperand ((fun (x : SliceSt) =>
    { x with p := updAt x.p (0 : Fin 4) (fun _ => 0xFCF) }) ({ ({} : SliceSt) with run := .run, abortWait := false, present := true } :
    SliceSt) : SliceSt) (0 : Fin 4) (0 : Fin 4) (0 : BitVec 12)).getD (0, none)).1, ((memOperand ((fun (x : SliceSt) =>
    { x with p := updAt x.p (0 : Fin 4) (fun _ => 0xFCF) }) ({ ({} : SliceSt) with run := .run, abortWait := false, present := true } :
    SliceSt) : SliceSt) (0 : Fin 4) (0 : Fin 4) (0 : BitVec 12)).getD (0, none)).2, ((fun (x : SliceSt) =>
    { x with p := updAt x.p (0 : Fin 4) (fun _ => 0xFCF) }) ({ ({} : SliceSt) with run := .run, abortWait := false, present := true } :
    SliceSt) : SliceSt), (setSlice 0 0 ((fun (x : SliceSt) => { x with p := updAt x.p (0 : Fin 4) (fun _ => 0xFCF) })
    ({ ({} : SliceSt) with run := .run, abortWait := false, present := true } : SliceSt) : SliceSt) cell : State),
    by unfold sliceFree; decide +kernel⟩⟩

theorem test_wit_SliceControl :
    (∃ (b sl : Nat) (rs rt : Fin 8) (imm : BitVec 14) (x : SliceSt) (s : State), sliceFree b sl s x) ∧
    (∃ (b sl : Nat) (cond : Fin 16) (tgt : BitVec 11) (x : SliceSt) (s : State), sliceClear b sl s x ∧ cond.val < 7) ∧
    (∃ (b sl : Nat) (tgt : BitVec 11) (x : SliceSt) (s : State), sliceClear b sl s x) ∧
    (∃ (b sl : Nat) (tgt : BitVec 11) (x : SliceSt) (s : State), sliceFree b sl s x ∧ x.inSlot = true ∧ x.jump = some tgt) ∧
    (∃ (b sl : Nat) (tgt : BitVec 11) (x : SliceSt) (s : State), sliceSt s b sl = some x ∧ canRun x = true ∧ x.inSlot = true ∧
    x.illegal = 0 ∧ x.abortWait = false ∧ rotating s b sl = false) ∧
    (∃ (b sl : Nat) (k : Fin 2) (e : BitVec 11) (n : BitVec 14) (rs : Fin 8) (x : SliceSt) (s : State), sliceClear b sl s x ∧
    loopBad x k e = false ∧ x.ls.length = 2 ∧ x.le.length = 2 ∧ x.lc.length = 2) ∧
    (∃ (b sl : Nat) (x : SliceSt) (s : State), sliceFree b sl s x ∧ x.inSlot = false ∧ stBit x 21 = true ∧ stBit x 22 = false ∧ x.pc
    = nth x.le 0 ∧ x.lc.length = 2) :=
  ⟨⟨0, 0, (0 : Fin 8), (0 : Fin 8), (3 : BitVec 14), ({ ({} : SliceSt) with run := .run, abortWait := false, present := true } :
    SliceSt), (setSlice 0 0 ({ ({} : SliceSt) with run := .run, abortWait := false, present := true } : SliceSt) cell : State),
    by unfold sliceFree; decide +kernel⟩,
   ⟨0, 0, (0 : Fin 16), (5 : BitVec 11), ((fun (x : SliceSt) =>
    { x with run := .run, abortWait := false, present := true, inSlot := false, st := x.st &&& 0x9FFFFF }) ({} : SliceSt) : SliceSt),
    (setSlice 0 0 ((fun (x : SliceSt) =>
    { x with run := .run, abortWait := false, present := true, inSlot := false, st := x.st &&& 0x9FFFFF }) ({} : SliceSt) : SliceSt)
    cell : State), by unfold sliceClear; decide +kernel⟩,
   ⟨0, 0, (5 : BitVec 11), ((fun (x : SliceSt) =>
    { x with run := .run, abortWait := false, present := true, inSlot := false, st := x.st &&& 0x9FFFFF }) ({} : SliceSt) : SliceSt),
    (setSlice 0 0 ((fun (x : SliceSt) =>
    { x with run := .run, abortWait := false, present := true, inSlot := false, st := x.st &&& 0x9FFFFF }) ({} : SliceSt) : SliceSt)
    cell : State), by unfold sliceClear; decide +kernel⟩,
   ⟨0, 0, (5 : BitVec 11),
    ({ ({ ({ ({} : SliceSt) with run := .run, abortWait := false, present := true } : SliceSt) with inSlot := true } : SliceSt) with jump := some (5 : BitVec 11) }
    : SliceSt), (setSlice 0 0
    ({ ({ ({ ({} : SliceSt) with run := .run, abortWait := false, present := true } : SliceSt) with inSlot := true } : SliceSt) with jump := some (5 : BitVec 11) }
    : SliceSt) cell : State), by unfold sliceFree; decide +kernel⟩,
   ⟨0, 0, (5 : BitVec 11), ({ ({ ({} : SliceSt) with run := .run, present := true } : SliceSt) with inSlot := true } : SliceSt),
    (setSlice 0 0 ({ ({ ({} : SliceSt) with run := .run, present := true } : SliceSt) with inSlot := true } : SliceSt) cell : State), by
    decide +kernel⟩,
   ⟨0, 0, (0 : Fin 2), (5 : BitVec 11), (3 : BitVec 14), (0 : Fin 8), ((fun (x : SliceSt) =>
    { x with run := .run, abortWait := false, present := true, inSlot := false, st := x.st &&& 0x9FFFFF }) ({} : SliceSt) : SliceSt),
    (setSlice 0 0 ((fun (x : SliceSt) =>
    { x with run := .run, abortWait := false, present := true, inSlot := false, st := x.st &&& 0x9FFFFF }) ({} : SliceSt) : SliceSt)
    cell : State), by unfold sliceClear; decide +kernel⟩,
   ⟨0, 0, ((fun (x : SliceSt) => { x with st := (x.st ||| BitVec.ofNat _ (2 ^ 21)) })
    ({ ({} : SliceSt) with run := .run, abortWait := false, present := true } : SliceSt) : SliceSt), (setSlice 0 0 ((fun (x : SliceSt)
    => { x with st := (x.st ||| BitVec.ofNat _ (2 ^ 21)) }) ({ ({} : SliceSt) with run := .run, abortWait := false, present := true } :
    SliceSt) : SliceSt) cell : State), by unfold sliceFree; decide +kernel⟩⟩

theorem test_wit_SliceEvents :
    (∃ (b sl : Nat) (rd rs rt : Fin 8) (x : SliceSt) (s : State), sliceFree b sl s x ∧ rd.val < x.d.length ∧ x.inSlot = false ∧
    atLoopEnd x = false ∧ stBit x 20 = true ∧ stBit x 23 = false ∧ (wrapRes ((dReg x rs).toInt + (dReg x rt).toInt)).ovf = true ∧
    s.chip.once.contains (0x0540, 16 * b + sl) = false) ∧
    (∃ (b sl : Nat) (x : SliceSt) (s : State), sliceClear b sl s x ∧ stBit x 23 = true ∧ x.illegal = 0) ∧
    (∃ (b sl : Nat) (x : SliceSt) (s : State), sliceClear b sl s x ∧ stBit x 23 = false ∧ x.illegal = 0 ∧ rotating s b sl = false) ∧
    (∃ (b sl cause : Nat) (w : Word) (x : SliceSt) (s : State), sliceSt s b sl = some x ∧ canRun x = true ∧ x.illegal = 0 ∧
    x.abortWait = false ∧ rotating s b sl = false ∧ sliceDecode b sl w = .error cause) ∧
    (∃ (b sl : Nat) (w : Word) (i : Instr) (s : State), sliceDecode b sl w = .ok i) ∧
    (∃ (b sl cause : Nat) (w : Word) (x : SliceSt) (s : State), sl < 8 ∧ sliceSt s b sl = some x ∧ canRun x = true ∧ x.illegal ≠ 0 ∧
    x.inAbort = false ∧ sliceDecode b sl w = .error cause) ∧
    (∃ (b sl : Nat) (x : SliceSt) (s : State), sliceSt s b sl = some x ∧ x.run = .run ∧ x.sawEnd = false ∧ x.aborted = false ∧
    x.inSlot = false ∧ compared s b sl = false ∧ rotating s b sl = false) ∧
    (∃ (b sl : Nat) (x : SliceSt) (s : State), sliceSt s b sl = some x ∧ (x.sawEnd = true ∨ x.aborted = true)) ∧
    (∃ (b sl : Nat) (x : SliceSt) (s : State), sl < 8 ∧ sliceSt s b sl = some x ∧ x.aborted = true ∧ x.sawEnd = false ∧ x.run ≠
    .stopped ∧ x.run ≠ .retired) ∧
    (∃ (b sl : Nat) (x : SliceSt) (s : State), sliceSt s b sl = some x ∧ (x.aborted = false ∨ x.sawEnd = true)) :=
  ⟨⟨0, 0, (0 : Fin 8), (0 : Fin 8), (0 : Fin 8), ((fun (x : SliceSt) =>
    { x with d := updAt (updAt x.d (0 : Fin 8) (fun _ => 0x7FFFFF)) (0 : Fin 8) (fun _ => 0x7FFFF0), pend := [] }) ((fun (x : SliceSt)
    => { x with st := (x.st ||| BitVec.ofNat _ (2 ^ 20)) }) ({ ({} : SliceSt) with run := .run, abortWait := false, present := true } :
    SliceSt) : SliceSt) : SliceSt), (setSlice 0 0 ((fun (x : SliceSt) =>
    { x with d := updAt (updAt x.d (0 : Fin 8) (fun _ => 0x7FFFFF)) (0 : Fin 8) (fun _ => 0x7FFFF0), pend := [] }) ((fun (x : SliceSt)
    => { x with st := (x.st ||| BitVec.ofNat _ (2 ^ 20)) }) ({ ({} : SliceSt) with run := .run, abortWait := false, present := true } :
    SliceSt) : SliceSt) : SliceSt) cell : State), by unfold sliceFree; decide +kernel⟩,
   ⟨0, 0, ((fun (x : SliceSt) => { x with st := (x.st ||| BitVec.ofNat _ (2 ^ 23)) }) ((fun (x : SliceSt) =>
    { x with run := .run, abortWait := false, present := true, inSlot := false, st := x.st &&& 0x9FFFFF }) ({} : SliceSt) : SliceSt) :
    SliceSt), (setSlice 0 0 ((fun (x : SliceSt) => { x with st := (x.st ||| BitVec.ofNat _ (2 ^ 23)) }) ((fun (x : SliceSt) =>
    { x with run := .run, abortWait := false, present := true, inSlot := false, st := x.st &&& 0x9FFFFF }) ({} : SliceSt) : SliceSt) :
    SliceSt) cell : State), by unfold sliceClear; decide +kernel⟩,
   ⟨0, 0, ((fun (x : SliceSt) =>
    { x with run := .run, abortWait := false, present := true, inSlot := false, st := x.st &&& 0x9FFFFF }) ({} : SliceSt) : SliceSt),
    (setSlice 0 0 ((fun (x : SliceSt) =>
    { x with run := .run, abortWait := false, present := true, inSlot := false, st := x.st &&& 0x9FFFFF }) ({} : SliceSt) : SliceSt)
    cell : State), by unfold sliceClear; decide +kernel⟩,
   ⟨0, 0, 1, (0xFC000000 : Word), ({ run := .run, present := true } : SliceSt), (setSlice 0 0 { run := .run, present := true } cell
    : State), by decide +kernel⟩,
   ⟨0, 0, (0 : Word), (.sNop 0 0 : Instr), cell, by decide +kernel⟩,
   ⟨0, 0, 1, (0xFC000000 : Word), ({ run := .run, present := true, illegal := 1 } : SliceSt), (setSlice 0 0
    { run := .run, present := true, illegal := 1 } cell : State), by decide +kernel⟩,
   ⟨0, 0, ({ ({ ({ ({ ({} : SliceSt) with run := .run } : SliceSt) with aborted := false } : SliceSt) with inSlot := false } : SliceSt) with b := 0, s := 0 }
    : SliceSt), (setSlice 0 0
    ({ ({ ({ ({ ({} : SliceSt) with run := .run } : SliceSt) with aborted := false } : SliceSt) with inSlot := false } : SliceSt) with b := 0, s := 0 }
    : SliceSt) cell : State), by decide +kernel⟩,
   ⟨0, 0, ({ ({} : SliceSt) with sawEnd := true } : SliceSt), (setSlice 0 0 ({ ({} : SliceSt) with sawEnd := true } : SliceSt) cell
    : State), by decide +kernel⟩,
   ⟨0, 0, ({ ({} : SliceSt) with aborted := true } : SliceSt), (setSlice 0 0 ({ ({} : SliceSt) with aborted := true } : SliceSt)
    cell : State), by decide +kernel⟩,
   ⟨0, 0, ({} : SliceSt), (setSlice 0 0 ({} : SliceSt) cell : State), by decide +kernel⟩⟩

theorem test_wit_SliceTick :
    (∃ (b sl : Nat) (x : SliceSt) (s : State), sliceClear b sl s x ∧ x.icnt < 0xFFFF) ∧
    (∃ (b sl a : Nat) (x : SliceSt) (s : State), sliceClear b sl s x ∧ x.sawOut = false ∧ s.mot.servoRel = false ∧ compared s b sl =
    false ∧ rotating s b sl = false ∧ x.ax0 = a ∧ a < 255 ∧ x.ax1 = 255 ∧ a < s.mot.axes.length ∧ hasBit ((assoc x.dmem 0xFCB).getD 0) 2
    = false) ∧
    (∃ (b sl : Nat) (x : SliceSt) (s : State), sliceSt s b sl = some x ∧ canRun x = true ∧ x.sawOut = true ∧ x.inSlot = false ∧
    x.illegal = 0 ∧ rotating s b sl = false) ∧
    (∃ (b sl : Nat) (x : SliceSt) (s : State), sliceClear b sl s x ∧ x.illegal = 0 ∧ compared s b sl = false ∧ rotating s b sl =
    false) ∧
    (∃ (b : Nat) (x y : SliceSt) (s : State), b < s.mot.spares.length ∧ (spareSt s b).spst = 0 ∧ (spareSt s b).comparing = true ∧
    sliceSt s b (spareSt s b).rot = some x ∧ sliceSt s b 8 = some y ∧ s.image.compat = false) ∧
    (∃ (b sl : Nat) (x : SliceSt) (s : State), b < s.mot.spares.length ∧ (spareSt s b).selftest = some sl ∧ sl < 8 ∧ sliceSt s b sl
    = some x ∧ x.run ≠ .stopped ∧ x.run ≠ .retired) ∧
    (∃ (b : Nat) (s : State), b < s.mot.spares.length ∧ (spareSt s b).spst = 0 ∧ (spareSt s b).selftest.isSome = true ∧ (spareSt s
    b).takeNext = none) ∧
    (∃ (b : Nat) (s : State), b < s.mot.spares.length ∧ (spareSt s b).spst = 0 ∧ (spareSt s b).rot = 8 ∧ (spareSt s b).takeNext =
    none) :=
  ⟨⟨0, 0, ((fun (x : SliceSt) =>
    { x with run := .run, abortWait := false, present := true, inSlot := false, st := x.st &&& 0x9FFFFF }) ({} : SliceSt) : SliceSt),
    (setSlice 0 0 ((fun (x : SliceSt) =>
    { x with run := .run, abortWait := false, present := true, inSlot := false, st := x.st &&& 0x9FFFFF }) ({} : SliceSt) : SliceSt)
    cell : State), by unfold sliceClear; decide +kernel⟩,
   ⟨0, 0, 0, ({ ((fun (x : SliceSt) => { x with run := .run, abortWait := false, present := true, inSlot := false, st := x.st &&& 0x9FFFFF }) ({} : SliceSt) : SliceSt) with ax0 := 0 }
    : SliceSt), (setSlice 0 0
    ({ ((fun (x : SliceSt) => { x with run := .run, abortWait := false, present := true, inSlot := false, st := x.st &&& 0x9FFFFF }) ({} : SliceSt) : SliceSt) with ax0 := 0 }
    : SliceSt) cell : State), by unfold sliceClear; decide +kernel⟩,
   ⟨0, 0, ({ ({ ({} : SliceSt) with run := .run, present := true } : SliceSt) with sawOut := true } : SliceSt), (setSlice 0 0
    ({ ({ ({} : SliceSt) with run := .run, present := true } : SliceSt) with sawOut := true } : SliceSt) cell : State), by
    decide +kernel⟩,
   ⟨0, 0, ((fun (x : SliceSt) =>
    { x with run := .run, abortWait := false, present := true, inSlot := false, st := x.st &&& 0x9FFFFF }) ({} : SliceSt) : SliceSt),
    (setSlice 0 0 ((fun (x : SliceSt) =>
    { x with run := .run, abortWait := false, present := true, inSlot := false, st := x.st &&& 0x9FFFFF }) ({} : SliceSt) : SliceSt)
    cell : State), by unfold sliceClear; decide +kernel⟩,
   ⟨0, ({ run := .run, present := true } : SliceSt), ({ s := 8, present := true, run := .idle } : SliceSt), (setSlice 0 0
    { run := .run, present := true } { cell with mot := { cell.mot with spares := { comparing := true } :: cell.mot.spares.drop 1 } } :
    State), by decide +kernel⟩,
   ⟨0, 0, ({ ({} : SliceSt) with b := 0, s := 0 } : SliceSt), (setSlice 0 0 ({ ({} : SliceSt) with b := 0, s := 0 } : SliceSt) ((fun
    (s : State) => { s with mot.spares := updAt s.mot.spares 0 (fun zz => { zz with selftest := some 0 }) }) cell : State) : State), by
    decide +kernel⟩,
   ⟨0, ((fun (s : State) => { s with mot.spares := updAt s.mot.spares 0 (fun zz => { zz with takeNext := none }) }) ((fun (s :
    State) => { s with mot.spares := updAt s.mot.spares 0 (fun zz => { zz with selftest := some default }) }) cell : State) : State), by
    decide +kernel⟩,
   ⟨0, ((fun (s : State) => { s with mot.spares := updAt s.mot.spares 0 (fun zz => { zz with takeNext := none }) }) ((fun (s :
    State) => { s with mot.spares := updAt s.mot.spares 0 (fun zz => { zz with rot := 8 }) }) ((fun (s : State) =>
    { s with mot.spares := updAt s.mot.spares 0 (fun zz => { zz with spst := 0 }) }) cell : State) : State) : State), by
    decide +kernel⟩⟩

theorem test_wit_SafetyDecision :
    (∃ (g c : Nat) (off : Bool) (s : State), nodeMode s = false ∧ s.mot.fin = false ∧ (slackSt s 6).missNow = false ∧ g < 16 ∧ g <
    s.saf.g.length ∧ (grpCfg s g).defined = true ∧ s.pair.role ≠ 2 ∧ c < 21 ∧ hasBit (safG s g).stoReq c = true ∧ ((safG s g).state =
    .run ∨ (safG s g).state = .scaled ∨ (safG s g).state = .ss1r)) ∧
    (∃ (g c : Nat) (off : Bool) (s : State), nodeMode s = false ∧ s.mot.fin = false ∧ (slackSt s 6).missNow = false ∧ g < 16 ∧ g <
    s.saf.g.length ∧ g < s.mot.groups.length ∧ (grpCfg s g).defined = true ∧ s.pair.role ≠ 2 ∧ c < 21 ∧ hasBit (safG s g).stopReq c =
    true ∧ stoCauses s g false = [] ∧ ((safG s g).state = .run ∨ (safG s g).state = .scaled)) ∧
    (∃ (g : Nat) (off : Bool) (s : State), nodeMode s = false ∧ s.mot.fin = false ∧ (slackSt s 6).missNow = false ∧ g < 16 ∧ g <
    s.saf.g.length ∧ (grpCfg s g).defined = true ∧ stopCauses s g false = [] ∧ stoCauses s g false = [] ∧ s.time.tickno % 16 ≠ g ∧ (∀ c,
    (chSt s c).limTrip = false) ∧ classB s g = false ∧ slsSits s g = [] ∧ ((safG s g).state = .run ∨ (safG s g).state = .scaled)) ∧
    (∃ (g : Nat) (off : Bool) (s : State), nodeMode s = false ∧ s.mot.fin = false ∧ (slackSt s 6).missNow = false ∧ g < 16 ∧ g <
    s.saf.g.length ∧ g < s.mot.groups.length ∧ (grpCfg s g).defined = true ∧ (safG s g).state = .cloche ∧ (safG s g).ackEdge = true ∧
    mayLeave s g = true ∧ s.time.tickno % 16 ≠ g ∧ (∀ c, (chSt s c).limTrip = false) ∧ classB s g = false ∧ slsSits s g = []) ∧
    (∃ (off : Bool) (s : State), (nodeMode s = true ∨ s.mot.fin = true ∨ (slackSt s 6).missNow = true)) :=
  ⟨⟨0, 0, true, ((fun (s : State) => onSafG 0 (fun zz => { zz with stoReq := ((safG s 0).stoReq ||| BitVec.ofNat _ (2 ^ 0)) }) s)
    cell : State), by decide +kernel⟩,
   ⟨0, 0, true, ((fun (s : State) => onSafG 0 (fun zz => { zz with stopReq := ((safG s 0).stopReq ||| BitVec.ofNat _ (2 ^ 0)) }) s)
    cell : State), by decide +kernel⟩,
   (by refine ⟨0, true, cell, ?_, ?_, ?_, ?_, ?_, ?_, ?_, ?_, ?_, nth_all (P := fun _ (x : ChanSt) => x.limTrip = false) _ (by
    decide +kernel) (fun _ => rfl), ?_, ?_, ?_⟩ <;> decide +kernel),
   (by refine ⟨0, true, ((fun (s : State) => { s with axio := s.axio.map (fun z => { z with limTrip := false }) }) (onSafG 0 (fun zz
    => { zz with ackEdge := true }) (onSafG 0 (fun zz => { zz with state := .cloche }) ((fun (s : State) =>
    { s with image.groups := updAt (grow s.image.groups 0) 0 (fun zz => { zz with defined := true }) }) ({ cell with mot.fin := false }
    : State) : State) : State) : State) : State), ?_, ?_, ?_, ?_, ?_, ?_, ?_, ?_, ?_, ?_, ?_, nth_all (P := fun _ (x : ChanSt) =>
    x.limTrip = false) _ (by decide +kernel) (fun _ => rfl), ?_, ?_⟩ <;> decide +kernel),
   ⟨true, ((fun (s : State) => { s with image.rings := updAt (grow s.image.rings 0) 0 (fun z => { z with role := 3 }) }) cell :
    State), by decide +kernel⟩⟩

theorem test_wit_StopsAndTorqueLines :
    (∃ (g : Nat) (s : State), g < s.saf.g.length ∧ (safG s g).state = .ss1r ∧ max 1 (grpCfg s g).nstill ≤ (safG s g).still) ∧
    (∃ (g : Nat) (s : State), (safG s g).still < max 1 (grpCfg s g).nstill) ∧
    (∃ (g : Nat) (s : State), g < s.saf.g.length ∧ (safG s g).state = .ss1r ∧ (grpCfg s g).tss1max ≤ s.time.tickno - (safG s
    g).decTick) ∧
    (∃ (g : Nat) (s : State), s.time.tickno - (safG s g).decTick < (grpCfg s g).tss1max) ∧
    (∃ (g : Nat) (s : State), g < s.saf.g.length ∧ g < s.mot.groups.length ∧ restartOk s g = true ∧ max 1 (grpCfg s g).nres ≤ (safG
    s g).nres) ∧
    (∃ (g : Nat) (s : State), (grpCfg s g).autores = false) ∧
    (∃ (g : Nat) (s : State), g < s.saf.g.length ∧ (safG s g).deg = true ∧ (safG s g).tleft = 0 ∧ ((safG s g).state = .run ∨ (safG s
    g).state = .scaled)) ∧
    (∃ (g : Nat) (s : State), 0 < (safG s g).tleft) ∧
    (∃ (s : State), s.saf.dead = false ∧ nodeMode s = false ∧ s.pair.role ≠ 2) ∧
    (∃ (s : State), (s.saf.dead = true ∨ nodeMode s = true)) ∧
    (∃ (g a c : Nat) (s : State), g < 16 ∧ (grpCfg s g).defined = true ∧ (safG s g).state = .sto ∧ a ∈ axesOf s g ∧ (axisCfg s
    a).dst = .axio c ∧ c < s.axio.length) ∧
    (∃ (w : Bool) (s : State), s.saf.dead = false ∧ s.saf.withheld = false ∧ (s.saf.refreshSeen = false ∨ s.saf.refreshWord ≠ w)) ∧
    (∃ (w : Bool) (s : State), s.saf.dead = false ∧ s.saf.withheld = false ∧ s.saf.refreshSeen = true ∧ s.saf.refreshWord = w) ∧
    (∃ (s : State), s.saf.dead = false) ∧
    (∃ (l : Mask) (s : State), (l ^^^ s.saf.lineCmd) &&& defined s &&& ~~~ s.saf.rberr = 0) ∧
    (∃ (l : Mask) (g : Nat) (s : State), g < 16 ∧ g < s.saf.g.length ∧ (l ^^^ s.saf.lineCmd) &&& defined s &&& ~~~ s.saf.rberr =
    bitOf 16 g ∧ ((safG s g).state = .run ∨ (safG s g).state = .scaled ∨ (safG s g).state = .ss1r)) :=
  ⟨⟨0, ((fun (s : State) => onSafG 0 (fun zz => { zz with still := (max 1 (grpCfg s 0).nstill + 0) }) s) (onSafG 0 (fun zz =>
    { zz with state := .ss1r }) cell : State) : State), by decide +kernel⟩,
   ⟨0, cell, by decide +kernel⟩,
   ⟨0, (onSafG 0 (fun zz => { zz with state := .ss1r }) cell : State), by decide +kernel⟩,
   ⟨0, ((fun (s : State) =>
    { s with image.groups := updAt (grow s.image.groups 0) 0 (fun zz => { zz with tss1max := (s.time.tickno - (safG s 0).decTick + 1 + 0) }) })
    cell : State), by decide +kernel⟩,
   ⟨1, ((fun (s : State) =>
    { s with image.groups := [{}, { defined := true, autores := true, nres := 2 }], saf.g := updAt s.saf.g 1 (fun z => { z with state := .cloche, onlyStopreq := true, nres := 2 }) })
    cell : State), by decide +kernel⟩,
   ⟨0, cell, by decide +kernel⟩,
   ⟨0, (onSafG 0 (fun zz => { zz with deg := true }) cell : State), by decide +kernel⟩,
   ⟨0, (onSafG 0 (fun zz => { zz with tleft := (0 + 1 + 0) }) cell : State), by decide +kernel⟩,
   ⟨cell, by decide +kernel⟩,
   ⟨({ cell with saf.dead := true } : State), by decide +kernel⟩,
   ⟨0, 0, 0, ((fun (s : State) => { s with image.axes := updAt (grow s.image.axes 0) 0 (fun zz => { zz with dst := .axio 0 }) })
    (onSafG 0 (fun zz => { zz with state := .sto }) cell : State) : State), by decide +kernel⟩,
   ⟨true, cell, by decide +kernel⟩,
   ⟨true, ({ ({ cell with saf.refreshSeen := true } : State) with saf.refreshWord := true } : State), by decide +kernel⟩,
   ⟨cell, by decide +kernel⟩,
   ⟨(3 : Mask), cell, by decide +kernel⟩,
   ⟨(2 : Mask), 0, cell, by decide +kernel⟩⟩

theorem test_wit_Monitors :
    (∃ (sig : Word) (s : State), (regSt s .saf).escalated = false) ∧
    (∃ (v : Nat) (s : State), (regSt s .chip).escalated = false) ∧
    (∃ (j : Nat) (s : State), 110 < j ∧ (regSt s .chip).escalated = false) ∧
    (∃ (j : Nat) (s : State), 105 < j ∧ j ≤ 110 ∧ s.saf.bconds.any (fun c => c.src == 7) = false) ∧
    (∃ (j : Nat) (s : State), j ≤ 105) ∧
    (∃ (j : Nat) (s : State), 105 < j) :=
  ⟨⟨(0 : Word), ((fun (s : State) =>
    { s with regions := updAt s.regions (Region.id .saf) (fun zz => { zz with escalated := false }) }) cell : State), by
    decide +kernel⟩,
   ⟨0, ((fun (s : State) => { s with regions := updAt s.regions (Region.id .chip) (fun zz => { zz with escalated := false }) }) cell
    : State), by decide +kernel⟩,
   ⟨((110 + 1 + 0) : Nat), ((fun (s : State) =>
    { s with regions := updAt s.regions (Region.id .chip) (fun zz => { zz with escalated := false }) }) cell : State), by
    decide +kernel⟩,
   ⟨((105 + 1 + 0) : Nat), cell, by decide +kernel⟩,
   ⟨0, cell, by decide +kernel⟩,
   ⟨((105 + 1 + 0) : Nat), cell, by decide +kernel⟩⟩

theorem test_wit_SafetyInputs :
    (∃ (i n : Nat) (chB : Bool) (s : State), nodeMode s = false ∧ i < 12 ∧ i < s.saf.pairs.length ∧ evaluated s i = true ∧ (inputCfg
    s i).sfilt ≤ n ∧ nth s.saf.pulseUntil (sourceOf s i chB) ≤ s.time.tb) ∧
    (∃ (i n : Nat) (s : State), nodeMode s = false ∧ i < 12 ∧ i < s.saf.pairs.length ∧ evaluated s i = true ∧ (inputCfg s i).sfilt ≤
    n ∧ nth s.saf.pulseUntil (sourceOf s i true) ≤ s.time.tb ∧ (lineSt s i).a = true ∧ (lineSt s i).b = false ∧ (lineSt s i).lowA = true
    ∧ (lineSt s i).lowB = true ∧ (lineSt s i).demand = true ∧ (lineSt s i).disc = false) ∧
    (∃ (i n : Nat) (chB high : Bool) (s : State), (n < lineFilt s i ∨ s.time.tb < nth s.saf.pulseUntil (sourceOf s i chB))) ∧
    (∃ (i : Nat) (s : State), i < 12 ∧ i < s.saf.pairs.length ∧ evaluated s i = true ∧ (lineSt s i).a ≠ (lineSt s i).b ∧ differsLong
    s i = true ∧ (lineSt s i).disc = false) ∧
    (∃ (i : Nat) (s : State), ((lineSt s i).a = (lineSt s i).b ∨ differsLong s i = false)) ∧
    (∃ (p i : Nat) (lvA lvB : Mask) (s : State), nodeMode s = false ∧ s.saf.pres = false ∧ i < 12 ∧ i < s.saf.pairs.length ∧ p < 4 ∧
    (∀ k, k < 12 → k ≠ i → (inputCfg s k).func = 0) ∧ (inputCfg s i).func ≠ 0 ∧ (lineSt s i).a = true ∧ (lineSt s i).b = true ∧
    (inputCfg s i).srcA = p ∧ (inputCfg s i).srcB ≠ p ∧ hasBit lvB i = true) :=
  ⟨⟨0, 0, true, ((fun (s : State) => { s with time.tb := (nth s.saf.pulseUntil (sourceOf s 0 true) + 0) }) cell : State), by
    decide +kernel⟩,
   ⟨0, 99999, ({ cell with saf := { cell.saf with pairs := { a := true, b := false, lowA := true, lowB := true, demand := true } :: cell.saf.pairs.drop 1 } }
    : State), by decide +kernel⟩,
   ⟨0, 0, true, true, ({ cell with image := { inputs := [{ func := 1, sfilt := 5 }] } } : State), by decide +kernel⟩,
   ⟨0, ({ cell with saf := { cell.saf with pairs := { a := true, b := false, diffSince := some 0 } :: cell.saf.pairs.drop 1 } } :
    State), by decide +kernel⟩,
   ⟨0, cell, by decide +kernel⟩,
   ⟨0, 0, (1 : Mask), (1 : Mask), ({ cell with image := { inputs := [{ func := 1, srcA := 0, srcB := 1 }] } } : State), by
    decide +kernel⟩⟩

theorem test_wit_SafetyPdus :
    (∃ (nb : Bool) (p : Nat) (d : Pdu) (s : State), regionUp .host s = true ∧ nodeMode s = false ∧ rxOf s d.id = some p ∧ p <
    s.saf.rx.length ∧ copySound (rxCfg s p) d = true ∧ lateCopy (rxSt s p) nb d = false ∧ (rxSt s p).window = none ∧ (rxSt s p).lastSeq
    = none) ∧
    (∃ (nb : Bool) (p : Nat) (d w : Pdu) (s : State), regionUp .host s = true ∧ nodeMode s = false ∧ rxOf s d.id = some p ∧ p <
    s.saf.rx.length ∧ copySound (rxCfg s p) d = true ∧ lateCopy (rxSt s p) nb d = false ∧ (rxSt s p).window = some (!nb, w) ∧ sameBytes
    w d = true) ∧
    (∃ (nb : Bool) (p : Nat) (d w : Pdu) (s : State), regionUp .host s = true ∧ nodeMode s = false ∧ rxOf s d.id = some p ∧ p <
    s.saf.rx.length ∧ copySound (rxCfg s p) d = true ∧ lateCopy (rxSt s p) nb d = false ∧ (rxSt s p).window = some (!nb, w) ∧ w.seq =
    d.seq ∧ sameBytes w d = false) ∧
    (∃ (nb : Bool) (p : Nat) (d : Pdu) (s : State), regionUp .host s = true ∧ nodeMode s = false ∧ rxOf s d.id = some p ∧ copySound
    (rxCfg s p) d = false ∧ s.chip.once.contains (0x0833, p) = false) ∧
    (∃ (p : Nat) (nb : Bool) (d : Pdu) (s : State), p < s.saf.rx.length ∧ (rxSt s p).window = some (nb, d) ∧ (rxSt s p).openedAt +
    2000000 ≤ s.time.tb) ∧
    (∃ (p : Nat) (s : State), ((rxSt s p).window = none ∨ s.time.tb < (rxSt s p).openedAt + 2000000)) ∧
    (∃ (p : Nat) (s : State), nodeMode s = false ∧ p < s.saf.rx.length ∧ (rxCfg s p).defined = true ∧ pduLate s p false = true ∧
    (rxSt s p).lateA = false) ∧
    (∃ (p : Nat) (b : Bool) (s : State), pduLate s p b = false) :=
  ⟨⟨true, 0, okPdu rx0 {}, cell, by decide +kernel⟩,
   ⟨true, 0, okPdu rx0 {}, okPdu rx0 {}, onRx0 { window := some (false, okPdu rx0 {}) }, by decide +kernel⟩,
   ⟨true, 0, okPdu rx0 {}, okPdu rx0 { captick := 9 }, onRx0 { window := some (false, okPdu rx0 { captick := 9 }) }, by
    decide +kernel⟩,
   ⟨true, 0, ({ id := 1, len := 3 } : Pdu), cell, by decide +kernel⟩,
   ⟨0, true, ({} : Pdu), ((fun (s : State) => { s with time.tb := ((rxSt s 0).openedAt + 2000000 + 0) }) ((fun (s : State) =>
    { s with saf.rx := updAt s.saf.rx 0 (fun zz => { zz with window := some (true, ({} : Pdu)) }) }) cell : State) : State), by
    decide +kernel⟩,
   ⟨0, cell, by decide +kernel⟩,
   ⟨0, cell, by decide +kernel⟩,
   ⟨0, true, onRx0 { validB := 9000000 }, by decide +kernel⟩⟩

theorem test_wit_PendantAndTools :
    (∃ (k : Nat) (s : State), nodeMode s = false ∧ s.saf.pres = false ∧ s.saf.presSince = some k ∧ k + 200000000 ≤ s.time.tb) ∧
    (∃ (k : Nat) (s : State), s.saf.presSince = some k ∧ s.time.tb < k + 200000000) ∧
    (∃ (s : State), s.saf.pres = true ∧ (lineSt s 14).a = false ∧ s.saf.bridge = false) ∧
    (∃ (s : State), s.saf.pres = true ∧ (lineSt s 14).a = false ∧ s.saf.bridge = true) ∧
    (∃ (s : State), withdrawDue s = true ∧ s.saf.bridge = false ∧ withdrawOk s = true) ∧
    (∃ (s : State), withdrawDue s = true ∧ s.saf.bridge = false ∧ withdrawOk s = false) ∧
    (∃ (s : State), withdrawDue s = false) ∧
    (∃ (s : State), s.saf.bridge = true ∧ s.saf.brleft = 0) ∧
    (∃ (s : State), 0 < s.saf.brleft) ∧
    (∃ (g : Nat) (b : IdBlock) (s : State), g < s.mot.groups.length ∧ (grpSt s g).claimed = true ∧ (grpSt s g).toolWait.isSome =
    true ∧ (grpCfg s g).tsrc = 2) ∧
    (∃ (g : Nat) (b : IdBlock) (s : State), (grpSt s g).toolWait = none) ∧
    (∃ (g k : Nat) (s : State), g < s.mot.groups.length ∧ (grpSt s g).toolWait = some k ∧ k + 64 < s.time.tickno) ∧
    (∃ (g k : Nat) (s : State), (grpSt s g).toolWait = some k ∧ s.time.tickno ≤ k + 64) ∧
    (∃ (r j : Nat) (s : State), regionUp .ring s = true ∧ r < s.ring.length ∧ j < (ringSt s r).nodes.length ∧ j < 32 ∧ isMaster s r
    = true ∧ (nodeSt s r j).spare = true ∧ 32 ≤ (nodeSt s r j).quiet) :=
  ⟨⟨0, ({ ({ cell with saf.presSince := some 0 } : State) with time.tb := (0 + 200000000 + 0) } : State), by decide +kernel⟩,
   ⟨0, ({ cell with saf.presSince := some 0 } : State), by decide +kernel⟩,
   ⟨((fun (s : State) => (if 14 < 12 then { s with saf.pairs := updAt s.saf.pairs 14 (fun zz => { zz with a := false }) } else
    { s with saf.pend := updAt s.saf.pend (14 - 12) (fun zz => { zz with a := false }) })) ({ cell with saf.pres := true } : State) :
    State), by decide +kernel⟩,
   ⟨({ ((fun (s : State) => (if 14 < 12 then { s with saf.pairs := updAt s.saf.pairs 14 (fun zz => { zz with a := false }) } else { s with saf.pend := updAt s.saf.pend (14 - 12) (fun zz => { zz with a := false }) })) ({ cell with saf.pres := true } : State) : State) with saf.bridge := true }
    : State), by decide +kernel⟩,
   ⟨({ cell with saf.wdArmed := true, saf.wdSince := some 5, time.tb := 600000000, saf.mode := 0, saf.pres := true, saf.pend := [{ sampled := true }, {}, {}, {}] }
    : State), by decide +kernel⟩,
   ⟨({ cell with saf.wdArmed := true, saf.wdSince := some 5, time.tb := 600000000 } : State), by decide +kernel⟩,
   ⟨cell, by decide +kernel⟩,
   ⟨({ cell with saf.bridge := true } : State), by decide +kernel⟩,
   ⟨({ cell with saf.brleft := (0 + 1 + 0) } : State), by decide +kernel⟩,
   ⟨0, ({} : IdBlock), (onGrp 0 (fun zz => { zz with toolWait := some default }) (onGrp 0 (fun zz => { zz with claimed := true })
    cell : State) : State), by decide +kernel⟩,
   ⟨0, ({} : IdBlock), cell, by decide +kernel⟩,
   ⟨0, 0, (onGrp 0 (fun zz => { zz with toolWait := some 0 }) cell : State), by decide +kernel⟩,
   ⟨0, 0, ({ (onGrp 0 (fun zz => { zz with toolWait := some 0 }) cell : State) with time.tickno := ((0 + 64) - 0) } : State), by
    decide +kernel⟩,
   ⟨0, 0, (onNode 0 0 (fun zz => { zz with quiet := (32 + 0) }) (onNode 0 0 (fun zz => { zz with spare := true }) cell : State) :
    State), by decide +kernel⟩⟩

theorem test_wit_WorkQueues :
    (∃ (c now f dl rl : Nat) (s : State), regionStopped .host s = false ∧ c < s.host.cores.length ∧ tlFlow s (.core c) = none ∧ f =
    (nth (coreSt s c).enq 0).toNat % 1024 ∧ dl = (if (nth (coreSt s c).enq 2).toNat + (nth (coreSt s c).enq 3).toNat * 2 ^ 32 = 0 then
    now + (flowCfg s f).reldl else (nth (coreSt s c).enq 2).toNat + (nth (coreSt s c).enq 3).toNat * 2 ^ 32) ∧ rl = (if (nth (coreSt s
    c).enq 4).toNat + (nth (coreSt s c).enq 5).toNat * 2 ^ 32 = 0 then now else (nth (coreSt s c).enq 4).toNat + (nth (coreSt s c).enq
    5).toNat * 2 ^ 32)) ∧
    (∃ (f m h : Nat) (s : State), regionUp .host s = true ∧ f < s.host.flows.length ∧ s.host.cores.length = 8 ∧ (flowCfg s f).type =
    1 ∧ (flowCfg s f).tperiod ≠ 0 ∧ s.time.run = true ∧ (flowSt s f).timerNext ≤ m ∧ m < 2 ^ 32 ∧ enqResult s false f (s.time.tstart + m
    * (flowCfg s f).tperiod + (flowCfg s f).reldl) (s.time.tstart + m * (flowCfg s f).tperiod) = 0 ∧ freeHandle s = some h) ∧
    (∃ (f m : Nat) (s : State), (m < (flowSt s f).timerNext ∨ (flowCfg s f).tperiod = 0 ∨ s.time.run = false)) ∧
    (∃ (f now n h : Nat) (s : State), regionUp .host s = true ∧ s.host.cores.length = 8 ∧ (flowCfg s f).type = 3 ∧ 32 ≤ (flowCfg s
    f).bind ∧ assoc s.chip.bound f = some n ∧ pendOf s f = [] ∧ enqResult s false f (now + (flowCfg s f).reldl) now = 0 ∧ freeHandle s =
    some h) ∧
    (∃ (f now : Nat) (s : State), ((flowCfg s f).type ≠ 3 ∨ assoc s.chip.bound f = none)) :=
  ⟨⟨0, 0, 0, ((if (nth (coreSt cell 0).enq 2).toNat + (nth (coreSt cell 0).enq 3).toNat * 2 ^ 32 = 0 then 0 + (flowCfg cell 0).reldl
    else (nth (coreSt cell 0).enq 2).toNat + (nth (coreSt cell 0).enq 3).toNat * 2 ^ 32) : Nat), 0, cell, by decide +kernel⟩,
   ⟨0, 0, 0, cell, by decide +kernel⟩,
   ⟨0, 0, ((fun (s : State) => { s with image.flows := updAt (grow s.image.flows 0) 0 (fun zz => { zz with tperiod := 0 }) }) cell :
    State), by decide +kernel⟩,
   ⟨2, 0, 0, 0, ((fun (s : State) =>
    { s with image.flows := updAt s.image.flows 2 (fun z => { z with type := 3, bind := 32 + 0, maxpend := 1 }), host.flows := updAt s.host.flows 2 (fun z => { z with en := true }), chip.bound := [(2, 0)] })
    cell : State), by decide +kernel⟩,
   ⟨0, 0, cell, by decide +kernel⟩⟩

theorem test_wit_WorkItems :
    (∃ (h now : Nat) (i : Item) (s : State), regionUp .host s = true ∧ s.host.cores.length = 8 ∧ s.host.items.filter (fun j =>
    j.handle == h) = [i] ∧ i.release ≤ now ∧ snapComplete s now i.flow = true ∧ (∀ c, ∀ k ∈ (coreSt s c).item, k.handle ≠ h)) ∧
    (∃ (c now : Nat) (i : Item) (s : State), regionStopped .host s = false ∧ c < s.host.cores.length ∧ i.flow < s.host.flows.length
    ∧ (coreSt s c).item = some i ∧ (flowCfg s i.flow).type = 1 ∧ s.host.items = []) ∧
    (∃ (c now : Nat) (i : Item) (s : State), regionStopped .host s = false ∧ c < s.host.cores.length ∧ i.flow < s.host.flows.length
    ∧ (coreSt s c).item = some i ∧ (flowCfg s i.flow).type = 2) ∧
    (∃ (c f now : Nat) (i : Item) (s : State), regionUp .host s = true ∧ c < 8 ∧ c < s.host.cores.length ∧ f < s.host.flows.length ∧
    (coreSt s c).copying = some i ∧ i.flow = f ∧ (∀ k j, k < c → (coreSt s k).copying = some j → j.flow ≠ f)) ∧
    (∃ (f now : Nat) (s : State), (∀ c, (coreSt s c).copying = none)) ∧
    (∃ (c now : Nat) (i : Item) (s : State), regionUp .host s = true ∧ c < s.host.cores.length ∧ (coreSt s c).item = some i ∧
    (flowCfg s i.flow).type = 1 ∧ (flowCfg s i.flow).maxrun ≠ 0 ∧ s.host.items = [] ∧ now < i.deadline ∧ (flowCfg s i.flow).maxrun *
    1000 < now - (coreSt s c).started) ∧
    (∃ (c now : Nat) (s : State), (coreSt s c).item = none) ∧
    (∃ (h now : Nat) (i : Item) (s : State), regionUp .host s = true ∧ itemOf s h = some i ∧ i.flow < s.host.flows.length ∧ (flowCfg
    s i.flow).type ≠ 2 ∧ i.deadline ≤ now ∧ i.late = false ∧ overrunCore s h now (flowCfg s i.flow) = none) ∧
    (∃ (h now : Nat) (s : State), itemOf s h = none) :=
  ⟨(by refine ⟨5, 0, ({ handle := 5 } : Item), ({ cell with host := { cell.host with items := [{ handle := 5 }] } } : State), ?_,
    ?_, ?_, ?_, ?_, nth_all (P := fun _ (x : CoreSt) => ∀ k ∈ x.item, k.handle ≠ 5) _ (by decide +kernel) (fun _ => by decide)⟩ <;>
    decide +kernel),
   ⟨0, 0, ({ ({} : Item) with flow := 0 } : Item), (onCore 0 (fun z =>
    { z with item := some ({ ({} : Item) with flow := 0 } : Item) }) cell : State), by decide +kernel⟩,
   ⟨0, 0, ({ ({} : Item) with flow := 1 } : Item), (onCore 0 (fun z =>
    { z with item := some ({ ({} : Item) with flow := 1 } : Item) }) cell : State), by decide +kernel⟩,
   (by refine ⟨0, 1, 0, ({ ({} : Item) with flow := 1 } : Item), ((fun (s : State) =>
    { s with host.cores := (s.host.cores.map (fun z => { z with copying := none })).set 0 { copying := some ({ ({} : Item) with flow := 1 } : Item) } })
    cell : State), ?_, ?_, ?_, ?_, ?_, ?_, fun k _ h => absurd h (Nat.not_lt_zero k)⟩ <;> decide +kernel),
   ⟨0, 0, cell, nth_all (P := fun _ (x : CoreSt) => x.copying = none) _ (by decide +kernel) (fun _ => rfl)⟩,
   ⟨0, (0 + 1000000 : Nat), ({ ({} : Item) with deadline := (0 + 1000000 : Nat) + 1 + 0 } : Item), (onCore 0 (fun z =>
    { z with item := some ({ ({} : Item) with deadline := (0 + 1000000 : Nat) + 1 + 0 } : Item), started := 0 }) cell : State), by
    decide +kernel⟩,
   ⟨0, 0, cell, by decide +kernel⟩,
   ⟨0, 0, ({} : Item), ((fun (s : State) =>
    { s with host.items := ({} : Item) :: s.host.items.filter (fun z => z.handle != 0), image.flows := updAt s.image.flows 0 (fun z => { z with missact := 0 }) })
    cell : State), by decide +kernel⟩,
   ⟨0, 0, cell, by decide +kernel⟩⟩

theorem test_wit_CoresFlowsAndQueues :
    (∃ (c now : Nat) (i : Item) (s : State), regionUp .host s = true ∧ c < s.host.cores.length ∧ (coreSt s c).item = some i ∧
    (flowCfg s i.flow).type ≠ 2) ∧
    (∃ (c now : Nat) (i : Item) (s : State), regionUp .host s = true ∧ c < s.host.cores.length ∧ (coreSt s c).item = some i ∧ i.flow
    < s.host.flows.length ∧ (flowCfg s i.flow).type = 2 ∧ s.host.items = []) ∧
    (∃ (c now : Nat) (s : State), (coreSt s c).item = none) ∧
    (∃ (c q n now : Nat) (i : Item) (s : State), regionStopped .host s = false ∧ c < 8 ∧ c < s.host.cores.length ∧ (coreSt s c).item
    = some i ∧ i.flow < s.host.flows.length ∧ (flowCfg s i.flow).type = 2 ∧ s.host.items = []) ∧
    (∃ (f now : Nat) (s : State), regionStopped .host s = false ∧ f < s.host.flows.length) ∧
    (∃ (f : Nat) (s : State), regionStopped .host s = false ∧ f < s.host.flows.length) ∧
    (∃ (b : Nat) (s : State), regionStopped .host s = false ∧ b < 64) ∧
    (∃ (c q len : Nat) (s : State), regionStopped .host s = false ∧ tlFlow s (.core c) = none ∧ c < s.host.cores.length ∧ q < 16) ∧
    (∃ (c q len : Nat) (s : State), regionStopped .host s = false ∧ tlFlow s (.core c) = none ∧ c < s.host.cores.length ∧ q <
    s.host.queues.length ∧ 16 ≤ q ∧ q < 24 ∧ 1 ≤ len ∧ len ≤ 1536 ∧ qFull s q = false) ∧
    (∃ (c q len : Nat) (s : State), regionStopped .host s = false ∧ tlFlow s (.core c) = none ∧ c < s.host.cores.length ∧ 24 ≤ q) ∧
    (∃ (r q a : Nat) (ccw : Bool) (h : RingHead) (data : List Byte) (s : State), regionUp .ring s = true ∧ (ringSt s r).role ≠ 0 ∧
    (ringSt s r).state ≠ .down ∧ r < s.ring.length ∧ frameOk s r h = true ∧ (ringCfg s r).mailbox = q ∧ 16 ≤ q ∧ q < 24 ∧ q <
    s.host.queues.length ∧ qFull s q = false) ∧
    (∃ (r a : Nat) (ccw : Bool) (h : RingHead) (data : List Byte) (s : State), (ringSt s r).role = 0) :=
  ⟨⟨0, 0, ({} : Item), (onCore 0 (fun zz => { zz with item := some ({} : Item) }) cell : State), by decide +kernel⟩,
   ⟨0, 0, ({} : Item), ({ ((fun (s : State) => { s with image.flows := updAt (grow s.image.flows ({} : Item).flow) ({} : Item).flow (fun zz => { zz with type := 2 }) }) (onCore 0 (fun zz => { zz with item := some ({} : Item) }) cell : State) : State) with host.items := [] }
    : State), by decide +kernel⟩,
   ⟨0, 0, cell, by decide +kernel⟩,
   ⟨0, 0, 0, 0, ({ ({} : Item) with flow := ((cell.host.flows.length) - 1 - 0) } : Item),
    ({ ((fun (s : State) => { s with image.flows := updAt (grow s.image.flows ({ ({} : Item) with flow := ((cell.host.flows.length) - 1 - 0) } : Item).flow) ({ ({} : Item) with flow := ((cell.host.flows.length) - 1 - 0) } : Item).flow (fun zz => { zz with type := 2 }) }) (onCore 0 (fun zz => { zz with item := some ({ ({} : Item) with flow := ((cell.host.flows.length) - 1 - 0) } : Item) }) cell : State) : State) with host.items := [] }
    : State), by decide +kernel⟩,
   ⟨0, 0, cell, by decide +kernel⟩,
   ⟨0, cell, by decide +kernel⟩,
   ⟨0, cell, by decide +kernel⟩,
   ⟨0, 0, 0, cell, by decide +kernel⟩,
   ⟨0, ((16 + 0) : Nat), (((1536) - 0) : Nat), ((fun (s : State) =>
    { s with image.queues := updAt (grow s.image.queues ((16 + 0) : Nat)) ((16 + 0) : Nat) (fun zz => { zz with depth := ((queueSt s ((16 + 0) : Nat)).entries.length + 1 + 0) }) })
    cell : State), by decide +kernel⟩,
   ⟨0, ((24 + 0) : Nat), 0, cell, by decide +kernel⟩,
   ⟨0, 16, 0, true, sealed {}, ([] : List Byte), cell, by decide +kernel⟩,
   ⟨2, 0, true, ({} : RingHead), ([] : List Byte), cell, by decide +kernel⟩⟩

theorem test_wit_Prunes :
    (∃ (p : Nat) (s : State), s.chip.prunes = [] ∧ hasSolTrl s = true ∧ p < s.sol.probs.length ∧ (probCfg s p).op ≠ 0 ∧ (probSt s
    p).job = .waiting) ∧
    (∃ (p : Nat) (s : State), s.chip.prunes = [] ∧ hasSolTrl s = true ∧ (probSt s p).job = .none) ∧
    (∃ (b : Nat) (s : State), s.chip.prunes = [] ∧ hasSolTrl s = true ∧ b < s.trl.batches.length ∧ nth s.trl.batches b = (false,
    false)) ∧
    (∃ (h : Nat) (i : Item) (s : State), s.chip.prunes = [] ∧ s.host.items.find? (fun j => j.handle == h) = some i ∧ coreOfHandle s
    h = none) ∧
    (∃ (f : Nat) (s : State), s.chip.prunes = [] ∧ f < s.host.flows.length ∧ (flowCfg s f).type = 1) ∧
    (∃ (id : Nat) (a : XAccess) (s : State), s.chip.prunes = [] ∧ requesterAbsent s id = false ∧ xPending s id = some a) ∧
    (∃ (q : Nat) (s : State), s.chip.prunes = [] ∧ q < 8 ∧ q / 2 < s.host.ports.length) ∧
    (∃ (id : Nat) (r : Region) (s : State), s.chip.prunes = [] ∧ s.image.compat = false ∧ Region.ofId id = some r ∧ r ≠ .chip ∧ r ≠
    .saf ∧ r ≠ .time ∧ regionNeeded s r = false ∧ regionAbsent s r = false ∧ (regSt s r).pruned = false ∧ r.id < s.regions.length) ∧
    (∃ (id : Nat) (s : State), s.chip.prunes = []) ∧
    (∃ (k : Nat) (s : State), s.chip.prunes = [] ∧ (k % 16 = 0 ∨ 8 ≤ k % 16)) ∧
    (∃ (n : Nat) (s : State) (p : PruneSt) (i : Instr), p ∈ s.chip.prunes ∧ p.signed = false ∧ (i = .pruneSolverJob n ∨ i =
    .pruneTrellisBatch n ∨ i = .pruneWorkItem n ∨ i = .pruneFlow n ∨ i = .pruneCrossingAccess n ∨ i = .prunePlantQueue n ∨ i =
    .pruneRegion n false ∨ i = .pruneKindInvalid 0)) ∧
    (∃ (n : Nat) (b : Bool) (p : PruneSt) (s : State), s.chip.prunes = [p] ∧ p.signed = false ∧ p.kind ≠ 1 ∧ p.kind ≠ 5 ∧
    s.chip.rrst = [] ∧ s.host.items = []) ∧
    (∃ (n : Nat) (p : PruneSt) (a : XAccess) (s : State), s.chip.prunes = [p] ∧ p.signed = false ∧ p.kind = 5 ∧ s.chip.rrst = [] ∧
    s.host.items = [] ∧ xPending s p.index = some a) :=
  ⟨⟨0, (onProb 0 (fun zz => { zz with job := .waiting }) cell : State), by decide +kernel⟩,
   ⟨0, cell, by decide +kernel⟩,
   ⟨0, ((fun (s : State) => { s with trl.batches := (updAt (grow s.trl.batches 0) 0 (fun zz => (false, false))) }) cell : State), by
    decide +kernel⟩,
   ⟨0, ({} : Item), ((fun (s : State) =>
    { s with host.items := ({} : Item) :: s.host.items, host.cores := s.host.cores.map (fun z => { z with item := none }) }) cell :
    State), by decide +kernel⟩,
   ⟨0, cell, by decide +kernel⟩,
   ⟨0, ({ ({} : XAccess) with who := 0 } : XAccess), ((fun (s : State) =>
    { s with chip.xPend := ({ ({} : XAccess) with who := 0 } : XAccess) :: s.chip.xPend }) ((fun (s : State) =>
    { s with chip.xPend := ({} : XAccess) :: s.chip.xPend }) cell : State) : State), by decide +kernel⟩,
   ⟨0, cell, by decide +kernel⟩,
   ⟨7, (.trl : Region), ({ cell with image := {} } : State), by decide +kernel⟩,
   ⟨0, cell, by decide +kernel⟩,
   ⟨0, cell, by decide +kernel⟩,
   ⟨0, ((fun (s : State) => { s with chip.prunes := (({} : PruneSt) :: s.chip.prunes) }) cell : State), ({} : PruneSt),
    (.pruneSolverJob 0 : Instr), by decide +kernel⟩,
   ⟨0, true, ({} : PruneSt), ({ ({ cell with chip.prunes := [({} : PruneSt)] } : State) with chip.rrst := [] } : State), by
    decide +kernel⟩,
   ⟨0, ({ ({ ({ ({} : PruneSt) with signed := false } : PruneSt) with kind := 5 } : PruneSt) with kind := 5, signed := false, index := [0, 5, 9, 34, 42].getD 0 0 }
    :
    PruneSt), ({ ({ ({} : XAccess) with who := ({ ({ ({ ({} : PruneSt) with signed := false } : PruneSt) with kind := 5 } : PruneSt) with kind := 5, signed := false, index := [0, 5, 9, 34, 42].getD 0 0 } : PruneSt).index } : XAccess) with who := ({ ({ ({ ({} : PruneSt) with signed := false } : PruneSt) with kind := 5 } : PruneSt) with kind := 5, signed := false, index := [0, 5, 9, 34, 42].getD 0 0 } : PruneSt).index }
    : XAccess), ((fun (s : State) =>
    { s with chip.xPend := ({ ({ ({} : XAccess) with who := ({ ({ ({ ({} : PruneSt) with signed := false } : PruneSt) with kind := 5 } : PruneSt) with kind := 5, signed := false, index := [0, 5, 9, 34, 42].getD 0 0 } : PruneSt).index } : XAccess) with who := ({ ({ ({ ({} : PruneSt) with signed := false } : PruneSt) with kind := 5 } : PruneSt) with kind := 5, signed := false, index := [0, 5, 9, 34, 42].getD 0 0 } : PruneSt).index } : XAccess) :: s.chip.xPend })
    ((fun
    (s : State) => { s with chip.prunes := [({ ({ ({ ({} : PruneSt) with signed := false } : PruneSt) with kind := 5 } : PruneSt) with kind := 5, signed := false, index := [0, 5, 9, 34, 42].getD 0 0 } : PruneSt)], chip.xPend := ({ ({} : XAccess) with who := ({ ({ ({ ({} : PruneSt) with signed := false } : PruneSt) with kind := 5 } : PruneSt) with kind := 5, signed := false, index := [0, 5, 9, 34, 42].getD 0 0 } : PruneSt).index } : XAccess) :: s.chip.xPend, chip.rrst := [], host.items := [] })
    ({ ({ ({ cell with chip.prunes := [({ ({ ({} : PruneSt) with signed := false } : PruneSt) with kind := 5 } : PruneSt)] } : State) with chip.rrst := [] } : State) with host.items := [] }
    : State) : State) : State), by decide +kernel⟩⟩

theorem test_wit_Faults :
    (∃ (b sl c : Nat) (x : SliceSt) (s : State), b < 8 ∧ sl < 8 ∧ b < s.mot.spares.length ∧ sliceServes s .mot b sl = true ∧ sliceSt
    s b sl = some x ∧ x.run ≠ .stopped ∧ x.run ≠ .retired ∧ s.image.compat = false ∧ (spareSt s b).spst = 0 ∧ (spareSt s b).takeNext =
    none ∧ c ≠ 0 ∧ 5 < s.regions.length) ∧
    (∃ (b sl c : Nat) (s : State), chanBlock s.fuse.variant * b + sl < s.axio.length ∧ sliceServes s .axio b sl = true ∧
    s.image.compat = false ∧ c ≠ 0) ∧
    (∃ (c : Nat) (s : State), (regSt s .saf).escalated = false ∧ c ≠ 0 ∧ 8 < s.regions.length) ∧
    (∃ (r : Region) (b sl c : Nat) (s : State), r ≠ .chip ∧ r ≠ .time ∧ r ≠ .saf ∧ sliceServes s r b sl = false) ∧
    (∃ (b sl : Nat) (x : SliceSt) (s : State), b < 8 ∧ sliceServes s .mot b sl = true ∧ sliceSt s b sl = some x) ∧
    (∃ (p : Nat) (s : State), hasSolTrl s = true ∧ p < s.sol.probs.length ∧ (probCfg s p).op ≠ 0) ∧
    (∃ (s : State), hasSolTrl s = true ∧ s.sol.unitLost = false) ∧
    (∃ (s : State), (regSt s .host).escalated = false) ∧
    (∃ (s : State), s.host.cryptoFault = false ∧ s.image.compat = false) ∧
    (∃ (p : Nat) (s : State), p < 4 ∧ p < s.host.ports.length ∧ (nth s.host.ports p).bad = false ∧ s.image.compat = false) ∧
    (∃ (s : State), (regSt s .chip).escalated = false) :=
  ⟨⟨0, 0, 1, ({ run := .run, present := true } : SliceSt), (setSlice 0 0 { run := .run, present := true } cell : State), by
    decide +kernel⟩,
   ⟨0, 0, 1, cell, by decide +kernel⟩,
   ⟨1, cell, by decide +kernel⟩,
   ⟨(.ring : Region), 9, 0, 0, cell, by decide +kernel⟩,
   ⟨0, 0, ({ ({} : SliceSt) with b := 0, s := 0 } : SliceSt), (setSlice 0 0 ({ ({} : SliceSt) with b := 0, s := 0 } : SliceSt) cell
    : State), by decide +kernel⟩,
   ⟨0, cell, by decide +kernel⟩,
   ⟨cell, by decide +kernel⟩,
   ⟨cell, by decide +kernel⟩,
   ⟨cell, by decide +kernel⟩,
   ⟨0, ((fun (s : State) => { s with host.ports := (updAt (grow s.host.ports 0) 0 (fun zz => { zz with bad := false })) }) cell :
    State), by decide +kernel⟩,
   ⟨((fun (s : State) => { s with regions := updAt s.regions (Region.id .chip) (fun zz => { zz with escalated := false }) }) cell :
    State), by decide +kernel⟩⟩

theorem test_wit_StartAndRestart :
    (∃ (pid : Bool) (vio : List Bool) (im : Image) (s : State), s.chip.phase = .reset ∧ s.chip.escalated = false ∧ flashOk s.flash =
    true ∧ s.flash.slotA = some im ∧ s.flash.slotB = none ∧ headerOk s.flash im = true ∧ profileApplies s.fuse.variant im = false ∧
    imageReason s.fuse.variant s.fuse.keyDigest vio im im = 0 ∧ im.profile = 0) ∧
    (∃ (pid : Bool) (f : List (Region × Nat × Nat)) (vio : List Bool) (s : State), s.chip.phase = .reset ∧ flashOk s.flash = true ∧
    s.flash.slotA = none ∧ s.flash.slotB = none) ∧
    (∃ (pid : Bool) (f : List (Region × Nat × Nat)) (vio : List Bool) (s : State), s.chip.phase = .reset ∧ (s.flash.size < 16777216
    ∨ 268435456 < s.flash.size ∨ s.flash.octal = false)) ∧
    (∃ (pid : Bool) (f : List (Region × Nat × Nat)) (vio : List Bool) (s : State), s.chip.phase ≠ .reset) ∧
    (∃ (s : State), s.chip.phase = .tlockWait) ∧
    (∃ (s : State), s.chip.phase ≠ .tlockWait) ∧
    (∃ (id : Nat) (r : Region) (s : State), Region.ofId id = some r ∧ restartable s id false = true ∧ s.chip.rrst = [] ∧
    s.chip.prunes = [] ∧ (regSt s r).restarting = false ∧ r.id < s.regions.length) ∧
    (∃ (id : Nat) (s : State), restartable s id false = false) ∧
    (∃ (id : Nat) (r : Region) (o : Option Origin) (s : State), s.chip.rrst = [(id, o)] ∧ Region.ofId id = some r ∧ (regSt s
    r).restarting = true ∧ r.id < s.regions.length) ∧
    (∃ (s : State), s.chip.rrst = []) ∧
    (∃ (r : BbRec) (q : List BbRec) (s : State), s.chip.bbWait = r :: q ∧ s.chip.bbPos % 16 < 14) ∧
    (∃ (ok : Bool) (s : State), s.chip.bbWait = []) ∧
    (∃ (s : State), s.chip.phase = .reset ∧ s.chip.rstKind = 1) ∧
    (∃ (ok : Bool) (s : State), (s.chip.phase ≠ .reset ∨ s.chip.rstKind ≠ 1 ∨ ok = false)) :=
  ⟨⟨true, ([] : List Bool), ({} : Image), ({ starting with flash := { cell.flash with slotA := some {} } } : State), by
    decide +kernel⟩,
   ⟨true, ([] : List (Region × Nat × Nat)), ([] : List Bool), starting, by decide +kernel⟩,
   ⟨true, ([] : List (Region × Nat × Nat)), ([] : List Bool), ({ starting with flash := { cell.flash with octal := false } } :
    State), by decide +kernel⟩,
   ⟨true, ([] : List (Region × Nat × Nat)), ([] : List Bool), cell, by decide +kernel⟩,
   ⟨({ cell with chip.phase := .tlockWait } : State), by decide +kernel⟩,
   ⟨cell, by decide +kernel⟩,
   ⟨((.ring : Region).id : Nat), (.ring : Region), ((fun (s : State) =>
    { s with mot.groups := s.mot.groups.map (fun z => { z with state := .disabled }), regions := s.regions.map (fun z => { z with pruned := false, restarting := false, escalated := false }) })
    cell : State), by decide +kernel⟩,
   ⟨0, cell, by decide +kernel⟩,
   ⟨((.ring : Region).id : Nat), (.ring : Region), none, ((fun (s : State) =>
    { s with chip.rrst := [(((.ring : Region).id : Nat), none)], regions := updAt s.regions (.ring : Region).id (fun z => { z with restarting := true }) })
    cell : State), by decide +kernel⟩,
   ⟨cell, by decide +kernel⟩,
   ⟨({} : BbRec), ([] : List BbRec), ({ cell with chip.bbWait := ({} : BbRec) :: ([] : List BbRec) } : State), by decide +kernel⟩,
   ⟨true, cell, by decide +kernel⟩,
   ⟨({ cell with chip.phase := .reset } : State), by decide +kernel⟩,
   ⟨true, cell, by decide +kernel⟩⟩

theorem test_wit_Resets :
    (∃ (fl : Option Flash) (s : State), s.time.stopped = false) ∧
    (∃ (x : Nat × Nat × Nat) (s : State), s.chip.resetPending = some x ∧ (resetWaits s x.2.1 x.2.2 = false ∨ x.1 + 20000000 ≤
    s.time.tb)) ∧
    (∃ (x : Nat × Nat × Nat) (s : State), s.chip.resetPending = some x ∧ resetWaits s x.2.1 x.2.2 = true ∧ s.time.tb < x.1 +
    20000000) ∧
    (∃ (s : State), wdogRuns s = true ∧ s.chip.wdogExpired = false ∧ (regSt s .chip).escalated = false) ∧
    (∃ (s : State), s.chip.wdogExpired = true) ∧
    (∃ (s : State), s.chip.wdogExpired = true ∧ (s.chip.wdogAt + 60000000000 ≤ s.time.tb ∨ allStopped s (defined s) = true)) ∧
    (∃ (s : State), (s.chip.wdogExpired = false ∨ allStopped s (defined s) = false ∧ s.time.tb < s.chip.wdogAt + 60000000000)) :=
  ⟨⟨none, cell, by decide +kernel⟩,
   ⟨((0, 1, 2) : Nat × Nat × Nat), ({ cell with chip.resetPending := some ((0, 1, 2) : Nat × Nat × Nat) } : State), by
    decide +kernel⟩,
   ⟨((0, 1, 2) : Nat × Nat × Nat),
    ({ ((fun (s : State) => { s with host.ports := updAt s.host.ports 0 (fun z => { z with dev := [{ kind := .reply ((0, 1, 2) : Nat × Nat × Nat).2.1 ((0, 1, 2) : Nat × Nat × Nat).2.2 }] }) }) cell : State) with chip.resetPending := some ((0, 1, 2) : Nat × Nat × Nat) }
    : State), by decide +kernel⟩,
   ⟨({ ((fun (s : State) => { s with regions := updAt s.regions (Region.id .chip) (fun zz => { zz with escalated := false }) }) cell : State) with image.wdt := 5, chip.phase := .running }
    : State), by decide +kernel⟩,
   ⟨({ cell with chip.wdogExpired := true } : State), by decide +kernel⟩,
   ⟨({ cell with chip := { cell.chip with wdogExpired := true }, time := { cell.time with tb := 60000000000 } } : State), by
    decide +kernel⟩,
   ⟨cell, by decide +kernel⟩⟩

set_option maxRecDepth 20000 in
theorem test_wit_LastSequence :
    (∃ (i : Instr) (s : State), ((∃ fl, i = .powerOnReset fl) ∨ i = .supplyMonitorReset ∨ (∃ fl, i = .externalReset fl) ∨ (i =
    .resetBegin ∧ ∃ x, s.chip.resetPending = some x ∧ (resetWaits s x.2.1 x.2.2 = false ∨ x.1 + 20000000 ≤ s.time.tb)) ∨ (i = .wdogReset
    ∧ s.chip.wdogExpired = true ∧ (s.chip.wdogAt + 60000000000 ≤ s.time.tb ∨ allStopped s (defined s) = true)))) ∧
    (∃ (pid : Bool) (f : List (Region × Nat × Nat)) (v : List Bool) (s : State), (∀ k, (keySt s k).last = 0)) ∧
    (∃ (c : HeldCmd) (q : List HeldCmd) (now : Nat) (s : State), regionUp .host s = true ∧ s.host.vq = c :: q ∧ c.d.rsOk = true ∧
    c.d.sigOk = true ∧ (keySt s c.d.key).last < c.d.seq ∧ c.d.key < s.host.keys.length) ∧
    (∃ (c : HeldCmd) (q : List HeldCmd) (now : Nat) (s : State), regionUp .host s = true ∧ s.host.vq = c :: q ∧ c.d.rsOk = true ∧
    c.d.sigOk = true ∧ c.d.seq ≤ (keySt s c.d.key).last) ∧
    (∃ (n : Net) (d : Datagram) (now : Nat) (s : State), regionUp .host s = true ∧ takesCommands s = true ∧ d.vers = 1 ∧ d.lenOk =
    true ∧ d.reservedOk = true ∧ knownOpcode d.body = true ∧ keyRole s d.key ≠ .empty ∧ dupEntry s n d = none ∧ roleAllows (keyRole s
    d.key) d.body = true ∧ d.cellId = s.image.cellId ∧ (d.body = .query ∨ (s.host.nonce ≠ 0 ∧ d.nonce = s.host.nonce)) ∧ d.seq ≤ (keySt
    s d.key).last) :=
  ⟨⟨(.supplyMonitorReset : Instr), cell, .inr (.inl rfl)⟩,
   ⟨true, [], [], ({ cell with host := { cell.host with keys := [] } } : State), nth_all (P := fun _ (x : KeySt) => x.last = 0) []
    (by decide) (fun _ => by decide)⟩,
   ⟨((fun (c : HeldCmd) => { c with d.seq := ((keySt cell c.d.key).last + 1 + 0) }) ({} : HeldCmd) : HeldCmd), ([] : List HeldCmd),
    0,
    ({ cell with host.vq := ((fun (c : HeldCmd) => { c with d.seq := ((keySt cell c.d.key).last + 1 + 0) }) ({} : HeldCmd) : HeldCmd) :: ([] : List HeldCmd) }
    : State), by decide +kernel⟩,
   ⟨({} : HeldCmd), ([] : List HeldCmd), 0, ({ cell with host.vq := ({} : HeldCmd) :: ([] : List HeldCmd) } : State), by
    decide +kernel⟩,
   ⟨(.a : Net), ({} : Datagram), 0, cell, by decide +kernel⟩⟩

theorem test_wit_CommandArrival :
    (∃ (n : Net) (d : Datagram) (now : Nat) (s : State), regionUp .host s = true ∧ takesCommands s = true ∧ d.vers = 1 ∧ d.lenOk =
    true ∧ d.reservedOk = true ∧ knownOpcode d.body = true ∧ keyRole s d.key ≠ .empty ∧ dupEntry s n d = none ∧ roleAllows (keyRole s
    d.key) d.body = true ∧ d.cellId = s.image.cellId ∧ (d.body = .query ∨ (s.host.nonce ≠ 0 ∧ d.nonce = s.host.nonce)) ∧ (keySt s
    d.key).last < d.seq ∧ d.relTick ≤ s.time.tickno + 2 ^ 22 ∧ s.host.cryptoFault = false ∧ s.host.vq.length < 16 ∧ intakeCount s d.key
    < 256 ∧ d.key < s.host.keys.length) ∧
    (∃ (n : Net) (d : Datagram) (now : Nat) (h : HistEnt) (s : State), regionUp .host s = true ∧ takesCommands s = true ∧ d.vers = 1
    ∧ d.lenOk = true ∧ d.reservedOk = true ∧ knownOpcode d.body = true ∧ keyRole s d.key ≠ .empty ∧ dupEntry s n d = some h ∧ h.digest =
    d.digest) ∧
    (∃ (n : Net) (d : Datagram) (now : Nat) (h : HistEnt) (s : State), regionUp .host s = true ∧ takesCommands s = true ∧ d.vers = 1
    ∧ d.lenOk = true ∧ d.reservedOk = true ∧ knownOpcode d.body = true ∧ keyRole s d.key ≠ .empty ∧ dupEntry s n d = some h ∧ h.digest ≠
    d.digest) ∧
    (∃ (n : Net) (d : Datagram) (now c x : Nat) (s : State), regionUp .host s = true ∧ takesCommands s = true ∧ d.vers = 1 ∧ d.lenOk
    = true ∧ d.reservedOk = true ∧ knownOpcode d.body = true ∧ keyRole s d.key ≠ .empty ∧ dupEntry s n d = none ∧ stage1 s d = some (c,
    x)) ∧
    (∃ (d : Datagram) (s : State), roleAllows (keyRole s d.key) d.body = false) ∧
    (∃ (d : Datagram) (s : State), roleAllows (keyRole s d.key) d.body = true ∧ d.cellId ≠ s.image.cellId) ∧
    (∃ (d : Datagram) (s : State), roleAllows (keyRole s d.key) d.body = true ∧ d.cellId = s.image.cellId ∧ d.body ≠ .query ∧
    (s.host.nonce = 0 ∨ d.nonce ≠ s.host.nonce)) ∧
    (∃ (n : Net) (d : Datagram) (now c : Nat) (s : State), regionUp .host s = true ∧ takesCommands s = true ∧ ((d.vers ≠ 1 ∨ d.lenOk
    = false ∨ d.reservedOk = false) ∧ c = 1 ∨ d.vers = 1 ∧ d.lenOk = true ∧ d.reservedOk = true ∧ knownOpcode d.body = false ∧ c = 10 ∨
    d.vers = 1 ∧ d.lenOk = true ∧ d.reservedOk = true ∧ knownOpcode d.body = true ∧ keyRole s d.key = .empty ∧ c = 2)) ∧
    (∃ (n : Net) (d : Datagram) (now : Nat) (s : State), takesCommands s = false) :=
  ⟨⟨(.a : Net), ({ ((fun (d : Datagram) => { d with seq := ((keySt cell d.key).last + 1 + 0) }) ({} : Datagram) : Datagram) with key := 0, vers := 1, lenOk := true, reservedOk := true, cellId := cell.image.cellId, nonce := cell.host.nonce, relTick := 0, body := .query }
    : Datagram), 0, cell, by decide +kernel⟩,
   ⟨(.a : Net), ({} : Datagram), 0, ({} : HistEnt), ((fun (s : State) =>
    { s with host.keys := s.host.keys.map (fun z => { z with hist := ({} : HistEnt) :: z.hist }) }) cell : State), by decide +kernel⟩,
   ⟨(.a : Net), ({} : Datagram), 0, ({ ({} : HistEnt) with seq := ({} : Datagram).seq, digest := ({} : Datagram).digest + 1 } :
    HistEnt), ((fun (s : State) =>
    { s with host.keys := s.host.keys.map (fun z => { z with hist := ({ ({} : HistEnt) with seq := ({} : Datagram).seq, digest := ({} : Datagram).digest + 1 } : HistEnt) :: z.hist }) })
    cell : State), by decide +kernel⟩,
   ⟨(.a : Net), ({} : Datagram), 0, ((stage1 cell ({} : Datagram)).getD (0, 0)).1, ((stage1 cell ({} : Datagram)).getD (0, 0)).2,
    cell, by decide +kernel⟩,
   ⟨({ body := .sliceParam 0 0 [] } : Datagram), cell, by decide +kernel⟩,
   ⟨({ cellId := 1 } : Datagram), cell, by decide +kernel⟩,
   ⟨({ body := .stop 1 } : Datagram), cell, by decide +kernel⟩,
   ⟨(.a : Net), ({ vers := 2 } : Datagram), 0, 1, cell, by decide +kernel⟩,
   ⟨(.a : Net), ({} : Datagram), 0, ({ cell with chip.phase := .reset } : State), by decide +kernel⟩⟩

theorem test_wit_Verification :
    (∃ (c : HeldCmd) (q : List HeldCmd) (now : Nat) (s : State), regionUp .host s = true ∧ s.host.vq = c :: q ∧ c.d.rsOk = true ∧
    c.d.sigOk = true ∧ (keySt s c.d.key).last < c.d.seq ∧ s.time.run = true ∧ s.pair.role ≠ 1 ∧ (c.d.relTick ≠ 0 ∧ nextTickAt s now ≤
    c.d.relTick ∨ c.d.relTick = 0 ∧ allowsNow c.d.body = true) ∧ c.d.key < s.host.keys.length) ∧
    (∃ (c : HeldCmd) (q : List HeldCmd) (now : Nat) (s : State), regionUp .host s = true ∧ s.host.vq = c :: q ∧ (c.d.rsOk = false ∨
    c.d.sigOk = false)) ∧
    (∃ (c : HeldCmd) (q : List HeldCmd) (now : Nat) (s : State), regionUp .host s = true ∧ s.host.vq = c :: q ∧ c.d.rsOk = true ∧
    c.d.sigOk = true ∧ c.d.seq ≤ (keySt s c.d.key).last) ∧
    (∃ (c : HeldCmd) (q : List HeldCmd) (now : Nat) (s : State), regionUp .host s = true ∧ s.host.vq = c :: q ∧ c.d.rsOk = true ∧
    c.d.sigOk = true ∧ (keySt s c.d.key).last < c.d.seq ∧ s.time.run = true ∧ s.pair.role ≠ 1 ∧ (c.d.relTick ≠ 0 ∧ c.d.relTick <
    nextTickAt s now ∨ c.d.relTick = 0 ∧ allowsNow c.d.body = false)) ∧
    (∃ (now : Nat) (s : State), s.host.vq = []) ∧
    (∃ (o : Origin) (s : State), s.time.run = true) ∧
    (∃ (o : Origin) (s : State), s.time.run = false) :=
  ⟨⟨({ ((fun (c : HeldCmd) => { c with d.seq := ((keySt cell c.d.key).last + 1 + 0) }) ({} : HeldCmd) : HeldCmd) with d.relTick := nextTickAt cell 0 + 0 }
    : HeldCmd), ([] : List HeldCmd), 0,
    ({ cell with host.vq := ({ ((fun (c : HeldCmd) => { c with d.seq := ((keySt cell c.d.key).last + 1 + 0) }) ({} : HeldCmd) : HeldCmd) with d.relTick := nextTickAt cell 0 + 0 } : HeldCmd) :: ([] : List HeldCmd) }
    : State), by decide +kernel⟩,
   ⟨({ ({} : HeldCmd) with d.rsOk := false } : HeldCmd), ([] : List HeldCmd), 0,
    ({ cell with host.vq := ({ ({} : HeldCmd) with d.rsOk := false } : HeldCmd) :: ([] : List HeldCmd) } : State), by decide +kernel⟩,
   ⟨({} : HeldCmd), ([] : List HeldCmd), 0, ({ cell with host.vq := ({} : HeldCmd) :: ([] : List HeldCmd) } : State), by
    decide +kernel⟩,
   ⟨({ ((fun (c : HeldCmd) => { c with d.seq := ((keySt cell c.d.key).last + 1 + 0) }) ({} : HeldCmd) : HeldCmd) with d.relTick := max 1 (nextTickAt cell (cell.time.tb + 0 % 1000 : Nat) - 1 - 0) }
    : HeldCmd), ([] : List HeldCmd), (cell.time.tb + 0 % 1000 : Nat),
    ({ cell with host.vq := ({ ((fun (c : HeldCmd) => { c with d.seq := ((keySt cell c.d.key).last + 1 + 0) }) ({} : HeldCmd) : HeldCmd) with d.relTick := max 1 (nextTickAt cell (cell.time.tb + 0 % 1000 : Nat) - 1 - 0) } : HeldCmd) :: ([] : List HeldCmd) }
    : State), by decide +kernel⟩,
   ⟨0, cell, by decide +kernel⟩,
   ⟨({} : Origin), cell, by decide +kernel⟩,
   ⟨({} : Origin), ({ cell with time.run := false } : State), by decide +kernel⟩⟩

theorem test_wit_MotionCommands :
    (∃ (o : Origin) (g : Nat) (l : List Segment) (s : State), nodeMode s = false ∧ g < maxGroups s ∧ (grpCfg s g).defined = true ∧ g
    < s.mot.groups.length ∧ 1 ≤ l.length ∧ l.length ≤ 4 ∧ checkSegs s g l = none) ∧
    (∃ (o : Origin) (g i r : Nat) (l : List Segment) (s : State), nodeMode s = false ∧ g < maxGroups s ∧ (grpCfg s g).defined = true
    ∧ g < s.mot.groups.length ∧ 1 ≤ l.length ∧ l.length ≤ 4 ∧ checkSegs s g l = some (i, r)) ∧
    (∃ (o : Origin) (m : Mask) (s : State), groupsNamed s m) ∧
    (∃ (o : Origin) (m : Mask) (s : State), groupsNamed s m) ∧
    (∃ (o : Origin) (m : Mask) (s : State), groupsNamed s m ∧ (∀ g, hasBit m g = true → (grpSt s g).state = .halted)) ∧
    (∃ (o : Origin) (m : Mask) (g : Nat) (s : State), groupsNamed s m ∧ hasBit m g = true ∧ (grpSt s g).state ≠ .halted) ∧
    (∃ (o : Origin) (m : Mask) (s : State), groupsNamed s m ∧ (∀ g, hasBit m g = true → (grpSt s g).state.live = true ∨
    enableRefusal s g = 0)) ∧
    (∃ (o : Origin) (m : Mask) (g d : Nat) (s : State), groupsNamed s m ∧ hasBit m g = true ∧ (grpSt s g).state.live = false ∧
    enableRefusal s g = d ∧ d ≠ 0 ∧ (∀ k, hasBit m k = true → (grpSt s k).state.live = false → enableRefusal s k = 0 ∨ d ≤ enableRefusal
    s k)) ∧
    (∃ (o : Origin) (m : Mask) (s : State), groupsNamed s m ∧ (∀ g, hasBit m g = true → (grpSt s g).state = .idle ∨ (grpSt s
    g).state = .halted)) ∧
    (∃ (o : Origin) (m : Mask) (g : Nat) (s : State), groupsNamed s m ∧ hasBit m g = true ∧ (grpSt s g).state ≠ .idle ∧ (grpSt s
    g).state ≠ .halted) ∧
    (∃ (o : Origin) (m : Mask) (v : Nat) (s : State), groupsNamed s m ∧ v ≤ 0x8000) ∧
    (∃ (o : Origin) (m : Mask) (v : Nat) (s : State), groupsNamed s m ∧ 0x8000 < v) ∧
    (∃ (o : Origin) (m : Mask) (v : Nat) (s : State) (i : Instr), m ≠ 0 ∧ (i = .flush o m ∨ i = .halt o m ∨ i = .resume o m ∨ i =
    .enable o m ∨ i = .disable o m ∨ i = .override_ o m v ∨ i = .stop o m ∨ i = .ack o m)) :=
  ⟨⟨({} : Origin), 0, ([{ }] : List Segment), cell, by decide +kernel⟩,
   ⟨({} : Origin), 0, 0, 1, ([{ kind := 9 }] : List Segment), cell, by decide +kernel⟩,
   ⟨({} : Origin), (1 : Mask), cell, named_of (by decide +kernel)⟩,
   ⟨({} : Origin), (1 : Mask), cell, named_of (by decide +kernel)⟩,
   ⟨({} : Origin), (1 : Mask), (onGrp 0 (fun x => { x with state := .halted }) cell : State), named_of (by decide +kernel), mask_all
    (by decide +kernel)⟩,
   ⟨({} : Origin), (1 : Mask), 0, cell, named_of (by decide +kernel), by decide +kernel, by decide +kernel⟩,
   ⟨({} : Origin), (1 : Mask), cell, named_of (by decide +kernel), mask_all (by decide +kernel)⟩,
   (by refine ⟨({} : Origin), (1 : Mask), 0, 4, (onGrp 0 (fun x => { x with state := .stopping }) cell : State), named_of (by
    decide +kernel), ?_, ?_, ?_, ?_, mask_all (by decide +kernel)⟩ <;> decide +kernel),
   ⟨({} : Origin), (1 : Mask), (onGrp 0 (fun x => { x with state := .idle }) cell : State), named_of (by decide +kernel), mask_all
    (by decide +kernel)⟩,
   ⟨({} : Origin), (1 : Mask), 0, cell, named_of (by decide +kernel), by decide +kernel, by decide +kernel, by decide +kernel⟩,
   ⟨({} : Origin), (1 : Mask), 0, cell, named_of (by decide +kernel), by decide +kernel⟩,
   ⟨({} : Origin), (1 : Mask), ((0x8000 + 1 + 0) : Nat), cell, named_of (by decide +kernel), by decide +kernel⟩,
   ⟨({} : Origin), (1 : Mask), 0, cell, (.flush ({} : Origin) (1 : Mask) : Instr), by decide +kernel⟩⟩

theorem test_wit_AxisCommands :
    (∃ (o : Origin) (a c : Nat) (s : State), nodeMode s = false ∧ a < maxAxes s ∧ (axisCfg s a).defined = true ∧ (∀ r j e, (axisCfg
    s a).src ≠ .ring r j e) ∧ axisChan (axisCfg s a) = some c ∧ chanLive s c = true ∧ c < s.axio.length ∧ (chSt s c).busy = false ∧ 1 ≤
    (chanCfg s c).hmode ∧ (chanCfg s c).hmode ≤ 4 ∧ chanEnabled s c = true) ∧
    (∃ (o : Origin) (a c : Nat) (s : State), nodeMode s = false ∧ a < maxAxes s ∧ (axisCfg s a).defined = true ∧ (∀ r j e, (axisCfg
    s a).src ≠ .ring r j e) ∧ axisChan (axisCfg s a) = some c ∧ (chSt s c).busy = true) ∧
    (∃ (o : Origin) (a c : Nat) (s : State), nodeMode s = false ∧ a < maxAxes s ∧ (axisCfg s a).defined = true ∧ (∀ r j e, (axisCfg
    s a).src ≠ .ring r j e) ∧ axisChan (axisCfg s a) = some c ∧ chanLive s c = true ∧ c < s.axio.length ∧ (chSt s c).busy = false ∧
    ((chanCfg s c).hmode = 0 ∨ 4 < (chanCfg s c).hmode ∨ chanEnabled s c = false)) ∧
    (∃ (o : Origin) (a r j e : Nat) (s : State), nodeMode s = false ∧ a < maxAxes s ∧ (axisCfg s a).defined = true ∧ (axisCfg s
    a).src = .ring r j e) ∧
    (∃ (o : Origin) (a : Nat) (s : State), (nodeMode s = true ∨ maxAxes s ≤ a)) ∧
    (∃ (o : Origin) (g z : Nat) (s : State), nodeMode s = false ∧ s.image.compat = false ∧ g < maxGroups s ∧ (grpCfg s g).defined =
    true ∧ z < s.trl.zones.length ∧ g < s.trl.g.length ∧ z ∈ (trlG s g).held ∧ intrudesZone s g z = false) ∧
    (∃ (o : Origin) (g z : Nat) (s : State), nodeMode s = false ∧ s.image.compat = false ∧ g < maxGroups s ∧ (grpCfg s g).defined =
    true) ∧
    (∃ (o : Origin) (g z : Nat) (s : State), (nodeMode s = true ∨ s.image.compat = true)) ∧
    (∃ (o : Origin) (b sl : Nat) (ws : List (BitVec 24)) (x : SliceSt) (s : State), nodeMode s = false ∧ sl < 8 ∧ b < motBlocks
    s.fuse.variant ∧ sliceSt s b sl = some x) ∧
    (∃ (o : Origin) (b sl : Nat) (ws : List (BitVec 24)) (s : State), nodeMode s = false) :=
  ⟨(by refine ⟨({} : Origin), 0, 0, cell, ?_, ?_, ?_, fun r j e h => (by cases (show Port.axio 0 = Port.ring r j e from h)), ?_, ?_,
    ?_, ?_, ?_, ?_, ?_⟩ <;> decide +kernel),
   ⟨({} : Origin), 0, 0, (onChan 0 (fun zz => { zz with busy := true }) cell : State), by decide +kernel, by decide +kernel, by
    decide +kernel, fun r j e h => (by cases (show Port.axio 0 = Port.ring r j e from h)), by decide +kernel, by decide +kernel⟩,
   (by refine ⟨({} : Origin), 0, 0, ((fun (s : State) =>
    { s with image.chans := updAt (grow s.image.chans 0) 0 (fun zz => { zz with hmode := 0 }) }) cell : State), ?_, ?_, ?_, fun r j e h
    => (by cases (show Port.axio 0 = Port.ring r j e from h)), ?_, ?_, ?_, ?_, ?_⟩ <;> decide +kernel),
   ⟨({} : Origin), 0, 0, 0, 0, ((fun (s : State) =>
    { s with image.axes := updAt (grow s.image.axes 0) 0 (fun zz => { zz with src := .ring 0 0 0 }) }) cell : State), by
    decide +kernel⟩,
   ⟨({} : Origin), 0, ((fun (s : State) => { s with image.rings := updAt (grow s.image.rings 0) 0 (fun z => { z with role := 3 }) })
    cell : State), by decide +kernel⟩,
   ⟨({} : Origin), 0, 0, ((fun (s : State) => onTrlG 0 (fun zz => { zz with held := (0 :: (trlG s 0).held) }) s) cell : State), by
    decide +kernel⟩,
   ⟨({} : Origin), 0, 0, cell, by decide +kernel⟩,
   ⟨({} : Origin), 0, 0, ({ cell with image.compat := true } : State), by decide +kernel⟩,
   ⟨({} : Origin), 0, 0, ([] : List (BitVec 24)), ({} : SliceSt), (setSlice 0 0 ({} : SliceSt) cell : State), by decide +kernel⟩,
   ⟨({} : Origin), 0, 0, ([] : List (BitVec 24)), cell, by decide +kernel⟩⟩

theorem test_wit_SafetyCommands :
    (∃ (o : Origin) (m : Mask) (s : State), groupsNamed s m ∧ m ≠ 0) ∧
    (∃ (o : Origin) (m : Mask) (s : State), groupsNamed s m) ∧
    (∃ (o : Origin) (m : Nat) (s : State), nodeMode s = false ∧ m ≤ 2) ∧
    (∃ (o : Origin) (m : Nat) (s : State), nodeMode s = false ∧ 2 < m) ∧
    (∃ (o : Origin) (v : Word) (s : State), nodeMode s = false ∧ v = s.saf.check ∧ enabledSecond s = true ∧ allStopped s (defined s)
    = true ∧ s.saf.mode = 1 ∧ s.saf.pres = true ∧ s.fuse.opened = false) ∧
    (∃ (o : Origin) (v : Word) (s : State), nodeMode s = false) ∧
    (∃ (o : Origin) (v : Word) (q : List (Origin × Word)) (s : State), s.saf.confPend = (o, v) :: q ∧ s.conf.length = 2) ∧
    (∃ (o : Origin) (v : Word) (q : List (Origin × Word)) (s : State), s.saf.confPend = (o, v) :: q ∧ s.conf.length = 2) ∧
    (∃ (b : Bool) (s : State), s.saf.confPend = []) :=
  ⟨⟨({} : Origin), (1 : Mask), cell, named_of (by decide +kernel), by decide +kernel⟩,
   ⟨({} : Origin), (1 : Mask), cell, named_of (by decide +kernel)⟩,
   ⟨({} : Origin), 2, cell, by decide +kernel⟩,
   ⟨({} : Origin), 3, cell, by decide +kernel⟩,
   ⟨({} : Origin), (0 : Word),
    ({ ({ ((fun (s : State) => { s with mot.groups := s.mot.groups.map (fun z => { z with state := .disabled }) }) ((fun (s : State) => { s with saf.enabSince := 1, time.tickno := s.time.tickno + 100000 }) cell : State) : State) with saf.mode := 1 } : State) with saf.pres := true }
    : State), by decide +kernel⟩,
   ⟨({} : Origin), (0 : Word), cell, by decide +kernel⟩,
   ⟨({} : Origin), (0 : Word), [], ({ cell with saf.confPend := [(({} : Origin), (0 : Word))] } : State), by decide +kernel⟩,
   ⟨({} : Origin), (0 : Word), [], ({ cell with saf.confPend := [(({} : Origin), (0 : Word))] } : State), by decide +kernel⟩,
   ⟨true, cell, by decide +kernel⟩⟩

theorem test_wit_HostCommands :
    (∃ (o : Origin) (f : Nat) (l : List Byte) (s : State), nodeMode s = false ∧ (flowCfg s f).type = 2 ∧ ((flowCfg s f).snaps.any
    (fun e => e.skind == 6)) = true ∧ f < s.host.flows.length ∧ (flowSt s f).en = true) ∧
    (∃ (o : Origin) (f : Nat) (l : List Byte) (s : State), nodeMode s = false) ∧
    (∃ (o : Origin) (q : Nat) (l : List Byte) (s : State), nodeMode s = false ∧ 16 ≤ q ∧ q ≤ 23 ∧ q < s.host.queues.length ∧ qFull s
    q = false) ∧
    (∃ (o : Origin) (q : Nat) (l : List Byte) (s : State), nodeMode s = false) ∧
    (∃ (o : Origin) (i : Nat) (w : TrigWords) (s : State), nodeMode s = false ∧ i < 4 ∧ i < s.time.trigs.length ∧ (trigSt s
    i).active = false) ∧
    (∃ (o : Origin) (i : Nat) (w : TrigWords) (s : State), nodeMode s = false ∧ 4 ≤ i) ∧
    (∃ (o : Origin) (k r x : Nat) (s : State), s.chip.prunes ≠ []) ∧
    (∃ (o : Origin) (r q : Nat) (s : State), s.chip.prunes = [] ∧ q < 8 ∧ q / 2 < s.host.ports.length) ∧
    (∃ (o : Origin) (k r x : Nat) (s : State), s.chip.prunes = [] ∧ (k = 0 ∨ 7 < k)) :=
  ⟨⟨({} : Origin), 1, ([] : List Byte), cell, by decide +kernel⟩,
   ⟨({} : Origin), 0, ([] : List Byte), cell, by decide +kernel⟩,
   ⟨({} : Origin), ((16 + 0) : Nat), ([] : List Byte), cell, by decide +kernel⟩,
   ⟨({} : Origin), 0, ([] : List Byte), cell, by decide +kernel⟩,
   ⟨({} : Origin), 0, ({} : TrigWords), cell, by decide +kernel⟩,
   ⟨({} : Origin), ((4 + 0) : Nat), ({} : TrigWords), cell, by decide +kernel⟩,
   ⟨({} : Origin), 0, 0, 0, ({ cell with chip := { prunes := [{}] } } : State), by decide +kernel⟩,
   ⟨({} : Origin), 0, 0, cell, by decide +kernel⟩,
   ⟨({} : Origin), 0, 0, 0, cell, by decide +kernel⟩⟩

theorem test_wit_StoreCommands :
    (∃ (o : Origin) (a n : Nat) (s : State), a % 65536 = 0 ∧ n % 65536 = 0 ∧ a + n ≤ slotSize s.flash) ∧
    (∃ (o : Origin) (a : Nat) (l : List Byte) (s : State), 4 ≤ l.length ∧ l.length ≤ 1016 ∧ l.length % 4 = 0 ∧ a + l.length ≤
    slotSize s.flash) ∧
    (∃ (o : Origin) (e : FlashEdit) (r : Nat) (q : List (Origin × FlashEdit)) (s : State), s.host.flash = (o, e) :: q) ∧
    (∃ (r : Nat) (s : State), s.host.flash = []) ∧
    (∃ (o : Origin) (a n : Nat) (s : State), dmaOk a = true ∧ dmaOk (a + n - 1) = true ∧ 4 ≤ n ∧ n ≤ 1024 ∧ n % 4 = 0) :=
  ⟨⟨({} : Origin), 0, 0, cell, by decide +kernel⟩,
   ⟨({} : Origin), 0, (List.replicate (4 * (1 + 0)) 5 : List Byte), ({ cell with flash.size := 67108864 } : State), by
    decide +kernel⟩,
   ⟨({} : Origin), ({} : FlashEdit), 0, ([] : List (Origin × FlashEdit)),
    ({ cell with host := { cell.host with flash := [({}, {})] } } : State), by decide +kernel⟩,
   ⟨0, cell, by decide +kernel⟩,
   ⟨({} : Origin), 0, ((4 + 0) : Nat), cell, by decide +kernel⟩⟩

theorem test_wit_ResetCommands :
    (∃ (o : Origin) (s : State), allStopped s (defined s) = true) ∧
    (∃ (o : Origin) (s : State), allStopped s (defined s) = true ∧ (s.chip.pstate = .park ∨ s.chip.pstate = .doze)) ∧
    (∃ (o : Origin) (s : State), allStopped s (defined s) = true ∧ s.chip.pstate ≠ .park ∧ s.chip.pstate ≠ .doze) ∧
    (∃ (o : Origin) (s : State) (i : Instr), allStopped s (defined s) = false ∧ (i = .resetDevice o ∨ i = .resetPark o ∨ i =
    .resetDoze o ∨ i = .resetRun o)) ∧
    (∃ (o : Origin) (id : Nat) (r : Region) (s : State), Region.ofId id = some r ∧ restartable s id true = true ∧ s.chip.rrst = [] ∧
    s.chip.prunes = [] ∧ (regSt s r).restarting = false ∧ r.id < s.regions.length) ∧
    (∃ (o : Origin) (id : Nat) (r : Region) (s : State), Region.ofId id = some r ∧ r ≠ .chip ∧ r ≠ .time ∧ r ≠ .saf ∧ rstate s r ≠ 4
    ∧ restartable s id true = false) ∧
    (∃ (o : Origin) (k : Nat) (s : State), k < 0x80) ∧
    (∃ (o : Origin) (s : State), (s.pair.cfg = false ∨ nodeMode s = true)) ∧
    (∃ (o : Origin) (s : State), s.pair.cfg = true ∧ nodeMode s = false ∧ s.pair.role = 1 ∧ (s.pair.linkOk = true ∨ s.pair.ringOk =
    true) ∧ s.pair.pfit = true ∧ s.pair.hoReq = none) ∧
    (∃ (o : Origin) (s : State), s.pair.cfg = true ∧ nodeMode s = false ∧ s.pair.role = 1) :=
  ⟨⟨({} : Origin), ((fun (s : State) => { s with mot.groups := s.mot.groups.map (fun z => { z with state := .disabled }) }) cell :
    State), by decide +kernel⟩,
   ⟨({} : Origin), ({ ((fun (s : State) => { s with mot.groups := s.mot.groups.map (fun z => { z with state := .disabled }) }) cell : State) with chip.pstate := .park }
    : State), by decide +kernel⟩,
   ⟨({} : Origin), ((fun (s : State) => { s with mot.groups := s.mot.groups.map (fun z => { z with state := .disabled }) }) cell :
    State), by decide +kernel⟩,
   ⟨({} : Origin), cell, (.resetDevice ({} : Origin) : Instr), by decide +kernel⟩,
   ⟨({} : Origin), ((.ring : Region).id : Nat), (.ring : Region), ((fun (s : State) =>
    { s with mot.groups := s.mot.groups.map (fun z => { z with state := .disabled }) }) cell : State), by decide +kernel⟩,
   ⟨({} : Origin), ((.ring : Region).id : Nat), (.ring : Region), cell, by decide +kernel⟩,
   ⟨({} : Origin), 0, cell, by decide +kernel⟩,
   ⟨({} : Origin), cell, by decide +kernel⟩,
   ⟨({} : Origin), ({ ({ ({ ({ cell with pair.cfg := true } : State) with pair.role := 1 } : State) with pair.linkOk := true } : State) with pair.pfit := true }
    : State), by decide +kernel⟩,
   ⟨({} : Origin), ({ ({ cell with pair.cfg := true } : State) with pair.role := 1 } : State), by decide +kernel⟩⟩

theorem test_wit_PairFrames :
    (∃ (s : State), s.pair.role = 1 ∧ s.time.run = true) ∧
    (∃ (s : State), (s.pair.role ≠ 1 ∨ s.time.run = false)) ∧
    (∃ (f : InputFrame) (s : State), s.pair.role = 2 ∧ f.tick = s.time.tickno) ∧
    (∃ (f : InputFrame) (s : State), (s.pair.role ≠ 2 ∨ f.tick ≠ s.time.tickno)) ∧
    (∃ (s : State), s.pair.role = 2 ∧ s.time.run = true ∧ feeding s = none) ∧
    (∃ (f : InputFrame) (s : State), s.pair.role = 2 ∧ s.time.run = true ∧ feeding s = some f ∧ s.saf.pairs.length = 12 ∧
    s.saf.pend.length = 4) ∧
    (∃ (s : State), (s.pair.role ≠ 2 ∨ s.time.run = false)) ∧
    (∃ (d : Datagram) (now : Nat) (s : State), s.pair.role = 2 ∧ regionUp .host s = true) ∧
    (∃ (d : Datagram) (now : Nat) (s : State), s.pair.role ≠ 2) ∧
    (∃ (s : State), s.pair.role = 2 ∧ s.time.run = true) ∧
    (∃ (s : State), (s.pair.role ≠ 2 ∨ s.time.run = false)) ∧
    (∃ (a : Nat) (f : StatusFrame) (s : State), s.pair.role = 1 ∧ f.tick = s.time.tickno ∧ a ≤ s.time.e0 + 24000) ∧
    (∃ (a : Nat) (f : StatusFrame) (s : State), (s.pair.role ≠ 1 ∨ f.tick ≠ s.time.tickno ∨ s.time.e0 + 24000 < a)) :=
  ⟨⟨({ cell with pair.role := 1 } : State), by decide +kernel⟩,
   ⟨cell, by decide +kernel⟩,
   ⟨({ ({} : InputFrame) with tick := cell.time.tickno } : InputFrame), ({ cell with pair.role := 2 } : State), by decide +kernel⟩,
   ⟨({} : InputFrame), cell, by decide +kernel⟩,
   ⟨({ cell with pair.role := 2 } : State), by decide +kernel⟩,
   ⟨({ ({} : InputFrame) with tick := ({ cell with pair.role := 2 } : State).time.tickno, cmds := [] , pdus := [] } : InputFrame),
    ({ ({ cell with pair.role := 2 } : State) with pair.frame := some ({ ({} : InputFrame) with tick := ({ cell with pair.role := 2 } : State).time.tickno, cmds := [] , pdus := [] } : InputFrame) }
    : State), by decide +kernel⟩,
   ⟨cell, by decide +kernel⟩,
   ⟨({} : Datagram), 0, ({ cell with pair.role := 2 } : State), by decide +kernel⟩,
   ⟨({} : Datagram), 0, cell, by decide +kernel⟩,
   ⟨({ cell with pair.role := 2 } : State), by decide +kernel⟩,
   ⟨cell, by decide +kernel⟩,
   ⟨(((cell.time.e0 + 24000) - 0) : Nat), ({ ({} : StatusFrame) with tick := cell.time.tickno } : StatusFrame),
    ({ cell with pair.role := 1 } : State), by decide +kernel⟩,
   ⟨0, ({} : StatusFrame), cell, by decide +kernel⟩⟩

theorem test_wit_PairRoles :
    (∃ (ccw : Bool) (a : Nat) (h : RingHead) (m : Heartbeat) (s : State), (ringSt s 0).role ≠ 0 ∧ (ringSt s 0).state ≠ .down ∧
    frameOk s 0 h = true ∧ (s.pair.role = 1 ∨ s.pair.role = 2)) ∧
    (∃ (ccw : Bool) (a : Nat) (h : RingHead) (m : Heartbeat) (s : State), ((ringSt s 0).role = 0 ∨ (ringSt s 0).state = .down)) ∧
    (∃ (s : State), (s.pair.role = 1 ∨ s.pair.role = 2) ∧ (s.pair.hbIn = true ∨ s.pair.linkUp = true ∧ s.pair.linkFell = false ∧
    (s.pair.role = 2 → s.pair.fed = true) ∧ (s.pair.role = 1 → s.pair.statusIn = true))) ∧
    (∃ (s : State), s.pair.role = 1 ∧ s.pair.hbIn = false ∧ (s.pair.linkUp = false ∨ s.pair.linkFell = true ∨ s.pair.statusIn =
    false)) ∧
    (∃ (s : State), s.pair.role = 2 ∧ s.pair.hbIn = false ∧ (s.pair.linkUp = false ∨ s.pair.linkFell = true ∨ s.pair.fed = false) ∧
    max 2 s.image.pairCfg.hbn ≤ min 255 (s.pair.lost + 1)) ∧
    (∃ (s : State), s.pair.role ≠ 1 ∧ s.pair.role ≠ 2) ∧
    (∃ (s : State), s.pair.role = 2 ∧ s.pair.takeNext = true ∧ s.pair.hoBeacon = false) ∧
    (∃ (s : State), (s.pair.role ≠ 2 ∨ s.pair.takeNext = false ∨ s.pair.hoBeacon = true)) ∧
    (∃ (s : State), s.pair.role = 1 ∧ s.pair.hoAck = true ∧ s.pair.cfg = true) ∧
    (∃ (s : State), s.pair.role = 2 ∧ s.pair.hoBeacon = true) ∧
    (∃ (s : State), s.pair.hoAck = false ∧ s.pair.hoBeacon = false) ∧
    (∃ (s : State), s.pair.role = 1 ∧ s.time.run = true ∧ s.pair.pfit = false ∧ 10000000000 ≤ s.time.tickno * periodNs s ∧
    s.pair.wasUnfit = false) ∧
    (∃ (s : State), s.pair.pfit = true) ∧
    (∃ (s : State), s.pair.role = 2) ∧
    (∃ (b : Bool) (s : State), s.pair.role ≠ 2) ∧
    (∃ (s : State), s.pair.role = 2) ∧
    (∃ (s : State), s.pair.role ≠ 2) ∧
    (∃ (h : HealthReport) (s : State), s.pair.role = 1) ∧
    (∃ (h : HealthReport) (s : State), s.pair.role ≠ 1) ∧
    (∃ (v : Bool) (s : State), (v = voteLevel s ∨ s.pair.cfg = false)) ∧
    (∃ (v : Bool) (s : State), v ≠ voteLevel s ∧ s.pair.cfg = true) :=
  ⟨⟨true, 0, sealed {}, ({} : Heartbeat), ({ cell with pair := { cell.pair with role := 1 } } : State), by decide +kernel⟩,
   ⟨true, 0, ({} : RingHead), ({} : Heartbeat), (onRing 0 (fun x => { x with role := 0 }) cell : State), by decide +kernel⟩,
   ⟨({ ({ cell with pair.role := 1 } : State) with pair.hbIn := true } : State), by decide +kernel⟩,
   ⟨({ cell with pair.role := 1 } : State), by decide +kernel⟩,
   ⟨({ ({ cell with pair.role := 2 } : State) with image.pairCfg.hbn := 2, pair.lost := 1 + 0 } : State), by decide +kernel⟩,
   ⟨cell, by decide +kernel⟩,
   ⟨({ ({ ({ cell with pair.role := 2 } : State) with pair.takeNext := true } : State) with pair.hoBeacon := false } : State), by
    decide +kernel⟩,
   ⟨cell, by decide +kernel⟩,
   ⟨({ ({ ({ cell with pair.role := 1 } : State) with pair.hoAck := true } : State) with pair.cfg := true } : State), by
    decide +kernel⟩,
   ⟨({ ({ cell with pair.role := 2 } : State) with pair.hoBeacon := true } : State), by decide +kernel⟩,
   ⟨cell, by decide +kernel⟩,
   ⟨({ ({ cell with pair.role := 1 } : State) with time.tickno := 1000000 } : State), by decide +kernel⟩,
   ⟨({ cell with pair.pfit := true } : State), by decide +kernel⟩,
   ⟨({ cell with pair.role := 2 } : State), by decide +kernel⟩,
   ⟨true, cell, by decide +kernel⟩,
   ⟨({ cell with pair.role := 2 } : State), by decide +kernel⟩,
   ⟨cell, by decide +kernel⟩,
   ⟨({} : HealthReport), ({ cell with pair.role := 1 } : State), by decide +kernel⟩,
   ⟨({} : HealthReport), cell, by decide +kernel⟩,
   ⟨true, cell, by decide +kernel⟩,
   ⟨true, ({ cell with pair.cfg := true } : State), by decide +kernel⟩⟩

theorem test_wit_TicksAndRingStart :
    (∃ (v : Nat) (s : State), s.chip.phase = .ringStart ∧ s.time.run = false ∧ s.time.stopped = false ∧ v % 2 ^ 64 ≠ 0 ∧ ringsReady
    s = true) ∧
    (∃ (v : Nat) (s : State), (s.chip.phase ≠ .ringStart ∨ v % 2 ^ 64 = 0 ∨ ringsReady s = false)) ∧
    (∃ (e : List Nat) (b : Bool) (s : State), s.time.run = true ∧ s.time.stopped = false ∧ s.time.tickno + 1 < 2 ^ 64 ∧ s.time.tb ≤
    s.time.tstart + (s.time.tickno + 1) * periodNs s ∧ (∀ x ∈ s.ring, x.master = x.node ∨ x.nextE0 = none)) ∧
    (∃ (e : List Nat) (b : Bool) (i : Nat) (x : RingSt) (q : List RingSt) (s : State), s.time.run = true ∧ s.time.stopped = false ∧
    s.time.tickno + 1 < 2 ^ 64 ∧ s.ring = x :: q ∧ x.master ≠ x.node ∧ x.nextE0 = some (s.time.tickno + 1, i) ∧ s.time.tb ≤ i) ∧
    (∃ (e : List Nat) (b : Bool) (s : State), s.time.run = false ∧ s.time.stopped = false ∧ joinsStart s = true ∧ s.time.tb ≤
    s.time.tplan) ∧
    (∃ (e : List Nat) (b : Bool) (s : State), (s.time.stopped = true ∨ s.time.run = false ∧ joinsStart s = false)) ∧
    (∃ (s : State), s.recd.blocked = true ∧ s.time.run = true ∧ s.image.rechold * 1000000000 ≤ s.time.tickno * periodNs s) ∧
    (∃ (s : State), s.recd.blocked = false) :=
  ⟨⟨1, ((fun (s : State) => { s with ring := s.ring.map (fun z => { z with state := .preRun, count := 0, role := 1 }) })
    ({ ({ cell with chip.phase := .ringStart } : State) with time.run := false } : State) : State), by decide +kernel⟩,
   ⟨0, cell, by decide +kernel⟩,
   ⟨([] : List Nat), true, cell, by decide +kernel⟩,
   ⟨([] : List Nat), true, 4000, ({ role := 2, node := 1, nextE0 := some (101, 4000) } : RingSt), ([] : List RingSt),
    ({ cell with time := { cell.time with tb := 4000 }, ring := [{ role := 2, node := 1, nextE0 := some (101, 4000) }] } : State), by
    decide +kernel⟩,
   ⟨([] : List Nat), true, ((fun (s : State) =>
    { s with chip.phase := .ringStart, time.tplan := s.time.tb + 0, ring := s.ring.map (fun z => { z with role := 2, startNext := true }) })
    ((fun (s : State) => { s with time.tplan := (s.time.tb + 0) }) ({ cell with time.run := false } : State) : State) : State), by
    decide +kernel⟩,
   ⟨([] : List Nat), true, ({ cell with time := { cell.time with stopped := true } } : State), by decide +kernel⟩,
   ⟨({ cell with recd.blocked := true } : State), by decide +kernel⟩,
   ⟨cell, by decide +kernel⟩⟩

theorem test_wit_PhasesAndReplies :
    (∃ (p a : Nat) (m : Mask) (s : State), p < s.time.slack.length ∧ phaseRuns s p = true ∧ (slackSt s p).judged = false ∧ (slackSt
    s p).missNow = false ∧ a ≤ deadlineNs s p) ∧
    (∃ (p a : Nat) (m : Mask) (s : State), (phaseRuns s p = false ∨ (slackSt s p).judged = true ∨ deadlineNs s p < a)) ∧
    (∃ (p : Nat) (s : State), p < s.time.slack.length ∧ phaseRuns s p = true ∧ (slackSt s p).judged = false) ∧
    (∃ (p : Nat) (s : State), (phaseRuns s p = false ∨ (slackSt s p).judged = true)) ∧
    (∃ (s : State), s.time.run = true ∧ s.time.stopped = false) ∧
    (∃ (s : State), s.time.run = true ∧ s.time.stopped = false ∧ s.mot.spRel = true ∧ s.host.waits = [] ∧ s.host.replies = [] ∧
    s.pair.cfg = false) ∧
    (∃ (s : State), (s.time.run = false ∨ s.time.stopped = true)) :=
  ⟨⟨0, 0, (1 : Mask), cell, by decide +kernel⟩,
   ⟨0, 0, (1 : Mask), ((fun (s : State) => { s with time.slack := updAt s.time.slack 0 (fun zz => { zz with judged := true }) })
    cell : State), by decide +kernel⟩,
   ⟨0, cell, by decide +kernel⟩,
   ⟨0, ({ cell with time.run := false } : State), by decide +kernel⟩,
   ⟨cell, by decide +kernel⟩,
   ⟨({ cell with mot.spRel := true } : State), by decide +kernel⟩,
   ⟨({ cell with time.run := false } : State), by decide +kernel⟩⟩

theorem test_wit_StepRunsFrontCommand :
    (∃ (s : State), s.pending = []) ∧
    (∃ (n w : Nat) (c : Instr) (s : State), decodeTableWord n w = some c) ∧
    (∃ (n w : Nat) (s : State), decodeTableWord n w = none) ∧
    (∃ (n w : Nat) (s : State), n ≠ 32) :=
  ⟨⟨State.reset, rfl⟩,
   ⟨32, 0, (.sNop 0 0 : Instr), cell, by decide +kernel⟩,
   ⟨0, 0, cell, by decide +kernel⟩,
   ⟨0, 0, cell, by decide +kernel⟩⟩

set_option maxRecDepth 20000 in
theorem test_wit_QueueInOrder : ∃ (c : Instr) (q : List Instr) (s t : State), s.pending = c :: q ∧ step s = .next t :=
  ⟨(.recordingStop : Instr), ([] : List Instr), ({ cell with pending := [.recordingStop] } : State), (recordingStop
    { cell with pending := [] } : State), rfl, rfl⟩

set_option maxRecDepth 20000 in
theorem test_wit_StepKeepsSound : ∃ (s t : State), s.sound = true ∧ step s = .next t :=
  ⟨State.reset, State.reset, rfl, rfl⟩

set_option maxRecDepth 20000 in
theorem test_wit_FusesLast : ∃ (s t : State), step s = .next t :=
  ⟨State.reset, State.reset, rfl⟩

set_option maxRecDepth 20000 in
theorem test_wit_ConfigurationLasts :
    (∃ (c : Instr) (s t : State), exec c s = .next t ∧ (∀ b f v, c ≠ .startSequence b f v) ∧ (∀ f, c ≠ .powerOnReset f) ∧ c ≠
    .supplyMonitorReset ∧ (∀ f, c ≠ .externalReset f) ∧ c ≠ .resetBegin ∧ c ≠ .wdogReset) ∧
    (∃ (c : Instr) (s t : State), exec c s = .next t ∧ (∀ n, c ≠ .flashOpDone n) ∧ (∀ f, c ≠ .powerOnReset f) ∧ (∀ f, c ≠
    .externalReset f)) ∧
    (∃ (c : Instr) (s t : State), exec c s = .next t ∧ (∀ b, c ≠ .confirmationWriteDone b)) ∧
    (∃ (c : Instr) (s t : State), exec c s = .next t ∧ (∀ b, c ≠ .testModeEntry b)) :=
  ⟨⟨(.recordingStop : Instr), cell, (recordingStop cell : State), rfl, fun _ _ _ h => (by cases h), fun _ h => (by cases h), fun h
    => (by cases h), fun _ h => (by cases h), fun h => (by cases h), fun h => (by cases h)⟩,
   ⟨(.recordingStop : Instr), cell, (recordingStop cell : State), rfl, fun _ h => (by cases h), fun _ h => (by cases h), fun _ h =>
    (by cases h)⟩,
   ⟨(.recordingStop : Instr), cell, (recordingStop cell : State), rfl, fun _ h => (by cases h)⟩,
   ⟨(.recordingStop : Instr), cell, (recordingStop cell : State), rfl, fun _ h => (by cases h)⟩⟩

end Sys2Proof.Tests
end

/-! PROOF. RegisterAccess: where an access to CHIP, TIME or shared SRAM leads, what a write or a read does there, and O3. -/

namespace Sys2Proof.Machine

/-! ### Where an address leads (R443) -/

/-- An address outside the compatibility window, in a row of a region other than HOST, leads to that region. -/
theorem target_of_regionAt {who : Option Nat} {s : State} {a : Nat} {r : Region} (hw : ¬ (0xA0000000 ≤ a ∧ a < 0xB0000000))
    (hu : coreUnmapped a = false) (hr : regionAt a = some r) (hh : r ≠ .host) :
    target who s a = regTarget s r (a % 0x10000000) := by
  cases r with
  | host => exact absurd rfl hh
  | _ => simp [target, hw, nativeTarget, hu, hr]

/-- A register of a present unit, of no block, in a region that is not stopped is reached. -/
theorem regTarget_reg {s : State} {r : Region} {o : Nat} (ho : o < 0xF000000) (hp : unitAbsent s r o = false)
    (hs : regionStopped r s = false) (hb : blockAt s r o = none) : regTarget s r o = .reg r o := by
  simp [regTarget, hp, hs, hb, Nat.not_le.2 ho]

/-- The registers of CHIP below the arbiters' exist in every variant. -/
theorem target_chip {who : Option Nat} {s : State} {o : Nat} (ho : o < 0x400) (hs : regionStopped .chip s = false) :
    target who s (0x10000000 + o) = .reg .chip o := by
  have hu : coreUnmapped (0x10000000 + o) = false := by simp [coreUnmapped]; omega
  have hr : regionAt (0x10000000 + o) = some .chip := by
    simp [regionAt, show (0x10000000 + o) / 0x10000000 = 1 by omega]
  have hp : unitAbsent s .chip o = false := by
    have h4 : ¬ 0x400 ≤ o := by omega
    have h48 : ¬ 0x480 ≤ o := by omega
    have h6 : ¬ 0x600 ≤ o := by omega
    have hf : ¬ 0xF000000 ≤ o := by omega
    simp [unitAbsent, indexIn, beyond, h4, h48, h6, hf]
  rw [target_of_regionAt (by omega) hu hr (by decide), show (0x10000000 + o) % 0x10000000 = o by omega]
  exact regTarget_reg (by omega) hp hs rfl

theorem target_time {who : Option Nat} {s : State} {o : Nat} (ho : o < 0xF000000) (hs : regionStopped .time s = false) :
    target who s (0x20000000 + o) = .reg .time o := by
  have hu : coreUnmapped (0x20000000 + o) = false := by simp [coreUnmapped]; omega
  have hr : regionAt (0x20000000 + o) = some .time := by
    simp [regionAt, show (0x20000000 + o) / 0x10000000 = 2 by omega]
  have hp : unitAbsent s .time o = false := by simp [unitAbsent, Nat.not_le.2 ho]
  rw [target_of_regionAt (by omega) hu hr (by decide), show (0x20000000 + o) % 0x10000000 = o by omega]
  exact regTarget_reg ho hp hs rfl

/-- The window at 0xB000_0000 is shared SRAM, for every requester. -/
theorem target_sram {who : Option Nat} {s : State} {a : Nat} (hlo : 0xB0000000 ≤ a) (hhi : a < 0xB0800000) :
    target who s a = .mem (0x8000000000 + (a - 0xB0000000)) := by
  have hu : coreUnmapped a = false := by simp [coreUnmapped]; omega
  have hr : regionAt a = none := by simp [regionAt, show a / 0x10000000 = 11 by omega]
  have hd : ¬ 0xC0000000 ≤ a := by omega
  have hw : ¬ a < 0xB0000000 := by omega
  simp [target, nativeTarget, hu, hr, hd, hw, hlo]

/-! ### What a write or a read does where it leads -/

theorem registerWrite_reg {w : Who} {a v : Word} {s : State} {r : Region} {o : Nat} (he : tlEscape s w a.toNat 4 = false)
    (ht : target (coreOf w) s a.toNat = .reg r o) : registerWrite w a v s = acked (writeReg w r o v s) := by
  simp [registerWrite, he, ht]

theorem registerWrite_mem {w : Who} {a v : Word} {s : State} {m : Nat} (he : tlEscape s w a.toNat 4 = false)
    (ht : target (coreOf w) s a.toNat = .mem m) (hd : dmaOk m = true) :
    registerWrite w a v s = acked { s with mem := memWrites s.mem m (leBytes 4 v.toNat) } := by
  simp [registerWrite, he, ht, hd]

theorem wideRegisterRead_reg {w : Who} {a : Word} {s : State} {r : Region} {o : Nat} (hf : tlFlow s w = none)
    (ht : target (coreOf w) s a.toNat = .reg r o) : wideRegisterRead w a s = readTarget r o s := by
  simp [wideRegisterRead, tlLoadEscape, hf, ht]

/-- A read of a TIME register below the captures that no multi-word value begins at latches nothing. -/
theorem readTarget_time_single {o : Nat} {s : State} (ho : o < 0x200) (hw : wideWords s (0x20000000 + o) = none) :
    readTarget .time o s = answer (readReg s .time o) s := by
  have hc : ¬ 0x200 ≤ o := by omega
  simp [readTarget, rowOf, readsFree, afterRead, hc, hw]

/-- A read of word 0 of a multi-word value of TIME below the captures latches its further words (R12). -/
theorem readTarget_time_wide {o : Nat} {s : State} {v : Word} {ws : List Word} (ho : o < 0x200)
    (hw : wideWords s (0x20000000 + o) = some (v :: ws)) :
    readTarget .time o s = latchWords (0x20000000 + o) ws (answer (readReg s .time o) s) := by
  have hc : ¬ 0x200 ≤ o := by omega
  simp [readTarget, rowOf, readsFree, afterRead, hc, hw]

theorem readReg_tb {i : Nat} (hi : i < 4) (s : State) :
    readReg s .time (4 * i) = wideWord s 0x20000000 i (tbWords s.time.tb s.time.tbFr) := by
  have hf : ¬ 0xF000000 ≤ 4 * i := by omega
  have ht : 4 * i < 0x10 := by omega
  simp [readReg, readTime, hf, ht]

/-- A read of word 0 of TIME.TB answers the fraction and latches the other words of the same instant (R12, R95). -/
theorem readTarget_tb_zero (s : State) :
    readTarget .time 0 s = latchWords 0x20000000 (tbWords s.time.tb s.time.tbFr).tail (answer (w32 (s.time.tbFr % 65536)) s) := by
  rw [readTarget_time_wide (by decide) rfl, readReg_tb (i := 0) (by decide)]
  rfl

/-- A read of a further word of TIME.TB answers what is latched, and latches nothing. -/
theorem readTarget_tb_latched {i : Nat} {s : State} {ws : List Word} (h0 : 0 < i) (hi : i < 4)
    (hl : assoc s.chip.latch 0x20000000 = some ws) : readTarget .time (4 * i) s = answer (nth ws (i - 1)) s := by
  have hw : wideWords s (0x20000000 + 4 * i) = none := by
    interval_cases i <;> rfl
  have hv : readReg s .time (4 * i) = nth ws (i - 1) := by
    rw [readReg_tb hi, wideWord, if_neg (by omega), hl, Option.getD_some]
  rw [readTarget_time_single (by omega) hw, hv]

/-! ### The bytes of a word -/

/-- Byte i of the bytes of a word is its bits 8 i to 8 i + 7. -/
theorem leBytes_toNat_getD (v : Word) {n i : Nat} (hi : i < n) :
    (leBytes n v.toNat).getD i 0 = (v >>> (8 * i)).setWidth 8 := by
  rw [List.getD_eq_getElem?_getD, leBytes, List.getElem?_map, List.getElem?_range hi]
  apply BitVec.eq_of_toNat_eq
  simp [Nat.shiftRight_eq_div_pow, Nat.pow_mul]

theorem leBytes_length (n v : Nat) : (leBytes n v).length = n := by simp [leBytes]

/-! ### The clauses of O3 -/

/-- A command whose meaning is a state with no new event completes with that state. -/
theorem run_of_quiet {f : State → State} {s t : State} (hx : f s = t) (hq : quiet s t) : run f s = .next t := by
  rw [run, hx, settle_quiet hq]

theorem only_acked_mem (s : State) (m : List Host.Cell) : only [.chip, .mem] s (acked { s with mem := m }) := by
  intro p hp
  cases p <;> simp_all [Part.same]

/-- CHIP.DWIN takes what is written to it (R13). -/
theorem registerWrite_dwin {w : Who} {v : Word} {s : State} (he : tlEscape s w 0x10000040 4 = false)
    (hs : regionStopped .chip s = false) :
    registerWrite w 0x10000040 v s = acked (onChip (fun c => { c with dwin := v.setWidth 24 }) s) :=
  registerWrite_reg (a := 0x10000040) he (target_chip (o := 0x40) (by decide) hs)

/-- A write of the serial number is discarded and completes normally (R13). -/
theorem registerWrite_serial {w : Who} {v : Word} {s : State} (he : tlEscape s w 0x10000004 4 = false)
    (hs : regionStopped .chip s = false) : registerWrite w 0x10000004 v s = acked s :=
  registerWrite_reg (a := 0x10000004) he (target_chip (o := 4) (by decide) hs)

/-- A store through the SRAM window writes the bytes of the word, the lowest first (R447). -/
theorem registerWrite_sram {w : Who} {a v : Word} {s : State} (he : tlEscape s w a.toNat 4 = false)
    (hlo : 0xB0000000 ≤ a.toNat) (hhi : a.toNat + 4 ≤ 0xB0800000) :
    registerWrite w a v s =
      acked { s with mem := memWrites s.mem (0x8000000000 + (a.toNat - 0xB0000000)) (leBytes 4 v.toNat) } := by
  have hd : dmaOk (0x8000000000 + (a.toNat - 0xB0000000)) = true := by simp [dmaOk]; omega
  exact registerWrite_mem he (target_sram hlo (by omega)) hd

/-- Of a word stored in memory each byte reads back, and every other byte reads as before. -/
theorem memRead_memWrites_word {m : List Host.Cell} (hm : Memory.wf m = true) (k : Nat) (v : Word) :
    (∀ i, i < 4 → memRead (memWrites m k (leBytes 4 v.toNat)) (k + i) = (v >>> (8 * i)).setWidth 8) ∧
      ∀ j, ¬ (k ≤ j ∧ j < k + 4) → memRead (memWrites m k (leBytes 4 v.toNat)) j = memRead m j := by
  constructor
  · intro i hi
    rw [memRead_memWrites _ _ _ _ hm, leBytes_length, if_pos (by omega), Nat.add_sub_cancel_left, leBytes_toNat_getD v hi]
  · intro j hj
    rw [memRead_memWrites _ _ _ _ hm, leBytes_length, if_neg hj]

theorem wideRegisterRead_tb_zero {w : Who} {s : State} (hf : tlFlow s w = none) (hs : regionStopped .time s = false) :
    wideRegisterRead w 0x20000000 s =
      latchWords 0x20000000 (tbWords s.time.tb s.time.tbFr).tail (answer (w32 (s.time.tbFr % 65536)) s) := by
  rw [wideRegisterRead_reg hf (target_time (o := 0) (by decide) hs), readTarget_tb_zero]

/-- A read of word i of TIME.TB, i > 0, completes with the word that the last read of word 0 latched, whatever TB is now. -/
theorem exec_wideRegisterRead_tb_latched {w : Who} {s : State} {ad : Word} {ws : List Word} {i : Nat} (h0 : 0 < i) (hi : i < 4)
    (ha : ad.toNat = 0x20000000 + 4 * i) (hf : tlFlow s w = none) (hs : regionStopped .time s = false)
    (hl : assoc s.chip.latch 0x20000000 = some ws) :
    ∃ t, exec (.wideRegisterRead w ad) s = .next t ∧ t.chip.resp = .value (nth ws (i - 1)) ∧ quiet s t ∧ only [.chip] s t := by
  have ht : target (coreOf w) s ad.toNat = .reg .time (4 * i) := ha ▸ target_time (by omega) hs
  have hx : wideRegisterRead w ad s = answer (nth ws (i - 1)) s := by
    rw [wideRegisterRead_reg hf ht, readTarget_tb_latched h0 hi hl]
  have hq : quiet s (answer (nth ws (i - 1)) s) := ⟨rfl, rfl, rfl⟩
  exact ⟨_, run_of_quiet hx hq, rfl, hq, mk_only_chip ⟨_, rfl⟩⟩

/-- Settles O3: each access is followed to its target, where the write or read is one equation; the bytes in memory are those of
`memRead_memWrites`. -/
theorem registerAccess : Obligations.RegisterAccess := by
  refine ⟨fun w v s he hs => ?_, fun w v s he hs => ?_, fun w a v s he hlo hhi hm => ?_, fun w s hf hs => ?_,
    fun w s a b c hf hs hl => ⟨?_, ?_, ?_⟩⟩
  · have hq : quiet s (acked (onChip (fun c => { c with dwin := v.setWidth 24 }) s)) := ⟨rfl, rfl, rfl⟩
    exact ⟨_, run_of_quiet (registerWrite_dwin he hs) hq, rfl, rfl, hq, mk_only_chip ⟨_, rfl⟩⟩
  · exact run_of_quiet (registerWrite_serial he hs) ⟨rfl, rfl, rfl⟩
  · exact ⟨_, run_of_quiet (registerWrite_sram he hlo hhi) ⟨rfl, rfl, rfl⟩, rfl, ⟨rfl, rfl, rfl⟩, only_acked_mem s _,
      by simpa only [acked_mem] using memRead_memWrites_word hm _ v⟩
  · exact ⟨_, run_of_quiet (wideRegisterRead_tb_zero hf hs) ⟨rfl, rfl, rfl⟩, rfl,
      (assoc_assocPut _ _ _ _).trans (if_pos rfl), ⟨rfl, rfl, rfl⟩, mk_only_chip ⟨_, rfl⟩⟩
  · exact exec_wideRegisterRead_tb_latched (i := 1) (by decide) (by decide) rfl hf hs hl
  · exact exec_wideRegisterRead_tb_latched (i := 2) (by decide) (by decide) rfl hf hs hl
  · exact exec_wideRegisterRead_tb_latched (i := 3) (by decide) (by decide) rfl hf hs hl

end Sys2Proof.Machine

/-! PROOF. ResetState: the tables of the state after a power-on reset hold empty entries only, and O56. -/

namespace Sys2Proof.Machine

/-- A table of empty entries reads as the empty entry at every index, inside it and beyond it. -/
theorem nth_replicate_default {α : Type} [Inhabited α] (n i : Nat) : nth (List.replicate n (default : α)) i = default := by
  rw [nth, List.getD_eq_getElem?_getD, List.getElem?_replicate]
  split <;> rfl

theorem keySt_reset (k : Nat) : keySt State.reset k = {} := nth_replicate_default 8 k

theorem ringSt_reset (r : Nat) : ringSt State.reset r = {} := nth_replicate_default 2 r

theorem grpSt_reset (g : Nat) : grpSt State.reset g = {} := nth_replicate_default 16 g

/-- Settles O56: the scalar fields are those of `State.reset`; for the keys, rings and groups the tables are empty. -/
theorem resetState : Obligations.ResetState := by
  have hkey (k : Nat) : (keySt State.reset k).last = 0 := by rw [keySt_reset]
  have hring (r : Nat) : (ringSt State.reset r).state = .down := by rw [ringSt_reset]
  have hgrp (g : Nat) : (grpSt State.reset g).state = .disabled := by rw [grpSt_reset]
  exact ⟨rfl, rfl, rfl, rfl, rfl, rfl, hkey, rfl, rfl, rfl, rfl, hring, rfl, hgrp, rfl, rfl, rfl, rfl⟩

end Sys2Proof.Machine

/-! SUPPORT. KeepClock: where the tick stands, and that every action at the start of a tick leaves it as it is. -/

namespace Sys2Proof.Machine

/-! ### The clock, and the updates that leave it as it is -/

/-- The counters of TIME that say where the tick stands (R22, R23, R108). -/
structure Clock where
  run : Bool
  stopped : Bool
  tickno : Nat
  tstart : Nat
  tb : Nat
  e0 : Nat

def TimeSt.clock (t : TimeSt) : Clock := ⟨t.run, t.stopped, t.tickno, t.tstart, t.tb, t.e0⟩

/-- The clock, the phase of the device and the run nonce: a start sets them, and of these a tick moves the clock alone, when it is
counted. No action at E0 changes any of them (`startTick_clock`). -/
def State.clock (s : State) : Clock × Phase × Nat := (s.time.clock, s.chip.phase, s.host.nonce)

theorem time_clock {s t : State} (h : t.clock = s.clock) : t.time.clock = s.time.clock := congrArg Prod.fst h

@[simp] theorem clock_mk (s : State) (pending fuse flash conf image recd ring axio mot sol trl saf pair regions mem free) :
    State.clock { s with
      pending := pending, fuse := fuse, flash := flash, conf := conf, image := image, recd := recd, ring := ring, axio := axio,
      mot := mot, sol := sol, trl := trl, saf := saf, pair := pair, regions := regions, mem := mem, free := free } = s.clock := by
  simp only [State.clock]

@[simp] theorem ite_clock (c : Prop) [Decidable c] (s t : State) :
    (if c then s else t).clock = if c then s.clock else t.clock := apply_ite _ _ _ _

@[simp] theorem onTime_clock {f : TimeSt → TimeSt}
    (h : ∀ t, (f t).run = t.run ∧ (f t).stopped = t.stopped ∧ (f t).tickno = t.tickno ∧ (f t).tstart = t.tstart ∧
      (f t).tb = t.tb ∧ (f t).e0 = t.e0) (s : State) : (onTime f s).clock = s.clock := by
  obtain ⟨h1, h2, h3, h4, h5, h6⟩ := h s.time
  simp only [State.clock, TimeSt.clock, onTime, h1, h2, h3, h4, h5, h6]
@[simp] theorem onChip_clock {f : ChipSt → ChipSt} (h : ∀ c, (f c).phase = c.phase) (s : State) :
    (onChip f s).clock = s.clock := by
  simp only [onChip, State.clock, h]
@[simp] theorem onHost_clock {f : HostSt → HostSt} (h : ∀ x, (f x).nonce = x.nonce) (s : State) :
    (onHost f s).clock = s.clock := by
  simp only [onHost, State.clock, h]
@[simp] theorem forAll_clock {α : Type} {f : α → State → State} (h : ∀ x t, (f x t).clock = t.clock)
    (l : List α) (s : State) : (forAll l f s).clock = s.clock := by
  induction l generalizing s with
  | nil => rfl
  | cons x l ih => exact (ih (f x s)).trans (h x s)

/-! ### Updates of one unit -/

@[simp] theorem onSaf_clock (f : SafSt → SafSt) (s : State) : (onSaf f s).clock = s.clock := by simp only [onSaf, clock_mk]
@[simp] theorem onSafG_clock (g : Nat) (f : SafGroup → SafGroup) (s : State) : (onSafG g f s).clock = s.clock := by
  simp only [onSafG, clock_mk]
@[simp] theorem onRing_clock (r : Nat) (f : RingSt → RingSt) (s : State) : (onRing r f s).clock = s.clock := by
  simp only [onRing, clock_mk]
@[simp] theorem onChan_clock (c : Nat) (f : ChanSt → ChanSt) (s : State) : (onChan c f s).clock = s.clock := by
  simp only [onChan, clock_mk]
@[simp] theorem onAxis_clock (a : Nat) (f : AxisSt → AxisSt) (s : State) : (onAxis a f s).clock = s.clock := by
  simp only [onAxis, clock_mk]
@[simp] theorem onGrp_clock (g : Nat) (f : GroupSt → GroupSt) (s : State) : (onGrp g f s).clock = s.clock := by
  simp only [onGrp, clock_mk]
@[simp] theorem onTrlG_clock (g : Nat) (f : TrlGroup → TrlGroup) (s : State) : (onTrlG g f s).clock = s.clock := by
  simp only [onTrlG, clock_mk]
@[simp] theorem onZone_clock (z : Nat) (f : ZoneSt → ZoneSt) (s : State) : (onZone z f s).clock = s.clock := by
  simp only [onZone, clock_mk]
@[simp] theorem onObj_clock (j : Nat) (f : ObjSt → ObjSt) (s : State) : (onObj j f s).clock = s.clock := by
  simp only [onObj, clock_mk]
@[simp] theorem onProb_clock (p : Nat) (f : ProbSt → ProbSt) (s : State) : (onProb p f s).clock = s.clock := by
  simp only [onProb, clock_mk]
@[simp] theorem onCore_clock (c : Nat) (f : CoreSt → CoreSt) (s : State) : (onCore c f s).clock = s.clock := by
  simp only [onCore, State.clock]
@[simp] theorem onFlow_clock (i : Nat) (f : FlowSt → FlowSt) (s : State) : (onFlow i f s).clock = s.clock := by
  simp only [onFlow, State.clock]
@[simp] theorem onQueue_clock (q : Nat) (f : QueueSt → QueueSt) (s : State) : (onQueue q f s).clock = s.clock := by
  simp only [onQueue, State.clock]
@[simp] theorem onPort_clock (p : Nat) (f : PortSt → PortSt) (s : State) : (onPort p f s).clock = s.clock := by
  simp only [onPort, State.clock]
@[simp] theorem onPair_clock (f : PairSt → PairSt) (s : State) : (onPair f s).clock = s.clock := by simp only [onPair, clock_mk]
@[simp] theorem onRegion_clock (r : Region) (f : RegionSt → RegionSt) (s : State) : (onRegion r f s).clock = s.clock := by
  simp only [onRegion, clock_mk]
@[simp] theorem within_clock (r : Region) (f : State → State) (s : State) (h : ∀ t, (f t).clock = t.clock) :
    (within r f s).clock = s.clock := by
  simp [within, h]

/-! ### The shared operations -/

@[simp] theorem event_clock (code detail : Nat) (s : State) : (event code detail s).clock = s.clock := by
  simp only [event, State.clock]
@[simp] theorem eventOnce_clock (code key detail : Nat) (s : State) : (eventOnce code key detail s).clock = s.clock := by
  simp [eventOnce]
@[simp] theorem bbTrigger_clock (t code : Nat) (s : State) : (bbTrigger t code s).clock = s.clock := by
  unfold bbTrigger
  dsimp only
  split
  · rfl
  · split <;> rfl
@[simp] theorem mark_clock (i : Nat) (m : Mask) (s : State) : (mark i m s).clock = s.clock := by simp [mark]
@[simp] theorem markNext_clock (i : Nat) (m : Mask) (s : State) : (markNext i m s).clock = s.clock := by simp [markNext]
@[simp] theorem onRec_clock (f : RecSt → RecSt) (s : State) : (onRec f s).clock = s.clock := by simp only [onRec, clock_mk]
@[simp] theorem takeCheckpoint_clock (s : State) : (takeCheckpoint s).clock = s.clock := by simp [takeCheckpoint]
@[simp] theorem recTrip_clock (s : State) : (recTrip s).clock = s.clock := by simp [recTrip]
@[simp] theorem demandStop_clock (m : Mask) (cause : Nat) (s : State) : (demandStop m cause s).clock = s.clock := by
  simp [demandStop]
@[simp] theorem demandSto_clock (m : Mask) (cause : Nat) (s : State) : (demandSto m cause s).clock = s.clock := by
  simp [demandSto]
@[simp] theorem classA_clock (m : Mask) (src code : Nat) (s : State) : (classA m src code s).clock = s.clock := by
  simp [classA, latchA]
@[simp] theorem addB_clock (src idx : Nat) (m : Mask) (code : Nat) (s : State) : (addB src idx m code s).clock = s.clock := by
  simp [addB]
@[simp] theorem escalate_clock (r : Region) (s : State) : (escalate r s).clock = s.clock := by simp [escalate, autoHandover]
@[simp] theorem trace_clock (k f handle core result info dl : Nat) (s : State) :
    (trace k f handle core result info dl s).clock = s.clock := by
  simp [trace]
@[simp] theorem loseCore_clock (c : Nat) (s : State) : (loseCore c s).clock = s.clock := by
  unfold loseCore
  dsimp only
  split <;> simp
@[simp] theorem moveFlows_clock (s : State) : (moveFlows s).clock = s.clock := by simp [moveFlows]
@[simp] theorem loseChan_clock (c : Nat) (s : State) : (loseChan c s).clock = s.clock := by simp [loseChan]
@[simp] theorem blockReaction_clock (r : Region) (b : Nat) (s : State) : (blockReaction r b s).clock = s.clock := by
  unfold blockReaction
  split
  case h_1 => split <;> simp
  case h_2 => rw [clock_mk]; simp
  all_goals simp
@[simp] theorem drawFree_clock (s : State) : (drawFree s).2.clock = s.clock := by simp [drawFree]

/-! ### Triggers -/

@[simp] theorem onTrig_clock (i : Nat) (f : TrigSt → TrigSt) (s : State) : (onTrig i f s).clock = s.clock := by simp [onTrig]
@[simp] theorem writeTrigger_clock (i : Nat) (w : TrigWords) (src : Bool) (now : Nat) (s : State) :
    (writeTrigger i w src now s).clock = s.clock := by
  simp [writeTrigger, applyTrigger, armTrigger, disarmTrigger]

/-! ### Rings at E0 -/

@[simp] theorem healAt_clock (r : Nat) (s : State) : (healAt r s).clock = s.clock := by
  unfold healAt
  split <;> simp
@[simp] theorem restoreAt_clock (r : Nat) (s : State) : (restoreAt r s).clock = s.clock := by
  unfold restoreAt
  split <;> simp [endB]
@[simp] theorem missingCopy_clock (r : Nat) (s : State) : (missingCopy r s).clock = s.clock := by simp [missingCopy, learnBreak]
@[simp] theorem ringEdge_clock (r : Nat) (s : State) : (ringEdge r s).clock = s.clock := by simp [ringEdge, joinNodes]

/-! ### Servo slices at E0 -/

@[simp] theorem onSlice_clock (b sl : Nat) (f : SliceSt → SliceSt) (s : State) : (onSlice b sl f s).clock = s.clock := by
  simp only [onSlice, clock_mk]
@[simp] theorem onSpare_clock (b : Nat) (f : SpareSt → SpareSt) (s : State) : (onSpare b f s).clock = s.clock := by
  simp only [onSpare, clock_mk]
@[simp] theorem endShadow_clock (b : Nat) (s : State) : (endShadow b s).clock = s.clock := by simp [endShadow]
@[simp] theorem skipCompare_clock (b : Nat) (s : State) : (skipCompare b s).clock = s.clock := by
  simp [skipCompare, failSpare, quarantine]
@[simp] theorem spareTakeover_clock (b : Nat) (s : State) : (spareTakeover b s).clock = s.clock := by
  unfold spareTakeover
  split
  · rfl
  · split
    · rfl
    · simp
@[simp] theorem abortEdge_clock (x : SliceSt) (s : State) : (abortEdge x s).clock = s.clock := by simp [abortEdge]
@[simp] theorem slicesEdge_clock (s : State) : (slicesEdge s).clock = s.clock := by simp [slicesEdge, blockEdge, shadowUpdate]

/-! ### Channels at E0, homing -/

@[simp] theorem chanAccess_clock (wr : Bool) (c : Nat) (f : State → State) (s : State) (h : ∀ t, (f t).clock = t.clock) :
    (chanAccess wr c f s).clock = s.clock := by
  simp [chanAccess, absentAccess, answer, acked, h]
@[simp] theorem declareFault_clock (c : Nat) (s : State) : (declareFault c s).clock = s.clock := by simp [declareFault]
@[simp] theorem homeFail_clock (c res : Nat) (s : State) : (homeFail c res s).clock = s.clock := by simp [homeFail]
@[simp] theorem homingStart_clock (c : Nat) (s : State) : (homingStart c s).clock = s.clock := by simp [homingStart, beginHoming]
@[simp] theorem stepSchedule_clock (c : Nat) (p : Pos) (s : State) : (stepSchedule c p s).clock = s.clock := by
  simp [stepSchedule]
@[simp] theorem chanEdge_clock (c emf : Nat) (s : State) : (chanEdge c emf s).clock = s.clock := by simp [chanEdge]

/-! ### Zones -/

@[simp] theorem withdrawZone_clock (g : Nat) (s : State) : (withdrawZone g s).clock = s.clock := by
  unfold withdrawZone
  split <;> simp
@[simp] theorem raiseZone_clock (g z : Nat) (s : State) : (raiseZone g z s).clock = s.clock := by simp [raiseZone]
@[simp] theorem requestZone_clock (g z : Nat) (s : State) : (requestZone g z s).clock = s.clock := by
  unfold requestZone
  split
  · rfl
  · split <;> simp [refuseZone]
@[simp] theorem freeZone_clock (g z : Nat) (s : State) : (freeZone g z s).clock = s.clock := by simp [freeZone]
@[simp] theorem deferredZones_clock (g : Nat) (s : State) : (deferredZones g s).clock = s.clock := by simp [deferredZones]
@[simp] theorem frozenBoundary_clock (g : Nat) (s : State) : (frozenBoundary g s).clock = s.clock := by simp [frozenBoundary]

/-! ### Motion groups -/

@[simp] theorem enterSegs_clock (g : Nat) (segs : List Segment) (s : State) : (enterSegs g segs s).clock = s.clock := by
  unfold enterSegs
  split <;> simp
@[simp] theorem boundary_clock (g : Nat) (seg : Segment) (s : State) : (boundary g seg s).clock = s.clock := by
  simp [boundary, releaseAtEnd]
@[simp] theorem finishGroup_clock (g : Nat) (s : State) : (finishGroup g s).clock = s.clock := by
  unfold finishGroup
  dsimp only
  split <;> simp
@[simp] theorem zoneStep_clock (g : Nat) (s : State) : (zoneStep g s).clock = s.clock := by
  unfold zoneStep
  split
  · rfl
  · split <;> simp
@[simp] theorem startHead_clock (g : Nat) (s : State) : (startHead g s).clock = s.clock := by
  unfold startHead
  split <;> simp
@[simp] theorem startStep_clock (g : Nat) (s : State) : (startStep g s).clock = s.clock := by
  unfold startStep
  split <;> simp [syncStretch]
@[simp] theorem blendStep_clock (g : Nat) (s : State) : (blendStep g s).clock = s.clock := by
  unfold blendStep
  dsimp only
  split
  · split
    · split <;> simp
    · rfl
  · rfl
@[simp] theorem moveRef_clock (a : Nat) (p : Pos) (v w : BitVec 32) (s : State) : (moveRef a p v w s).clock = s.clock := by
  simp [moveRef]
@[simp] theorem restRef_clock (a : Nat) (s : State) : (restRef a s).clock = s.clock := by
  unfold restRef
  split <;> simp [holdRef, homeRef]
@[simp] theorem speedCap_clock (g : Nat) (s : State) : (speedCap g s).clock = s.clock := by
  unfold speedCap
  dsimp only
  split <;> simp
@[simp] theorem residualCheck_clock (g : Nat) (prev : List Pos) (s : State) : (residualCheck g prev s).clock = s.clock := by
  unfold residualCheck
  split <;> simp
@[simp] theorem pathStep_clock (g : Nat) (s : State) : (pathStep g s).clock = s.clock := by
  unfold pathStep
  dsimp only
  split <;> simp
@[simp] theorem refStep_clock (g : Nat) (s : State) : (refStep g s).clock = s.clock := by
  unfold refStep
  split <;> simp [rampStep]
@[simp] theorem toHalting_clock (g : Nat) (s : State) : (toHalting g s).clock = s.clock := by simp [toHalting]
@[simp] theorem flushGroup_clock (g : Nat) (s : State) : (flushGroup g s).clock = s.clock := by
  unfold flushGroup
  dsimp only
  split <;> simp
@[simp] theorem haltGroup_clock (g : Nat) (s : State) : (haltGroup g s).clock = s.clock := by
  unfold haltGroup
  split <;> simp
@[simp] theorem pairEnable_clock (g : Nat) (s : State) : (pairEnable g s).clock = s.clock := by simp [pairEnable]
@[simp] theorem startEnable_clock (g : Nat) (s : State) : (startEnable g s).clock = s.clock := by simp [startEnable]
@[simp] theorem homingStop_clock (g : Nat) (s : State) : (homingStop g s).clock = s.clock := by
  unfold homingStop
  refine forAll_clock (fun a t => ?_) _ _
  split <;> simp
@[simp] theorem disableGroup_clock (g : Nat) (s : State) : (disableGroup g s).clock = s.clock := by
  unfold disableGroup
  split <;> simp

/-! ### Tracked objects -/

@[simp] theorem sensorUse_clock (k : Nat) (s : State) : (sensorUse k s).clock = s.clock := by
  unfold sensorUse
  split
  · rfl
  · split
    · rfl
    · simp
@[simp] theorem objectPlace_clock (j : Nat) (s : State) : (objectPlace j s).clock = s.clock := by
  unfold objectPlace
  dsimp only
  split
  · rfl
  · split <;> simp

/-! ### Solver jobs -/

@[simp] theorem laneReassign_clock (s : State) : (laneReassign s).clock = s.clock := by
  unfold laneReassign
  refine forAll_clock (fun p t => ?_) _ _
  split <;> simp

/-! ### Safety inputs at E0 -/

@[simp] theorem inputsEdge_clock (s : State) : (inputsEdge s).clock = s.clock := by simp [inputsEdge]
@[simp] theorem pduEdge_clock (s : State) : (pduEdge s).clock = s.clock := by simp [pduEdge]

/-! ### Replies -/

@[simp] theorem markDecided_clock (r : Reply) (stored : Bool) (s : State) : (markDecided r stored s).clock = s.clock := by
  simp [markDecided, onKey]
@[simp] theorem sendReply_clock (r : Reply) (s : State) : (sendReply r s).clock = s.clock := by
  simp [sendReply, sendReplyOn, sendNet, sendDev, dropFrame]
@[simp] theorem noteRefusal_clock (code key : Nat) (s : State) : (noteRefusal code key s).clock = s.clock := by simp [noteRefusal]
@[simp] theorem replyAt18_clock (o : Origin) (code detail : Nat) (body : List Byte) (s : State) :
    (replyAt18 o code detail body s).clock = s.clock := by
  simp [replyAt18]
@[simp] theorem replyNow_clock (o : Origin) (code detail : Nat) (body : List Byte) (s : State) :
    (replyNow o code detail body s).clock = s.clock := by
  simp [replyNow]

/-! ### Items, snapshots and released outputs -/

@[simp] theorem placeItem_clock (i : Item) (c now : Nat) (s : State) : (placeItem i c now s).clock = s.clock := by
  simp [placeItem]
@[simp] theorem scheduleN_clock (n now : Nat) (s : State) : (scheduleN n now s).clock = s.clock := by
  induction n generalizing s with
  | zero => rfl
  | succ n ih =>
    unfold scheduleN
    split
    · rfl
    · split
      · simp [ih]
      · rfl
@[simp] theorem addItem_clock (i : Item) (s : State) : (addItem i s).clock = s.clock := by simp [addItem]
@[simp] theorem deviceItem_clock (f arg deadline release : Nat) (s : State) :
    (deviceItem f arg deadline release s).clock = s.clock := by
  unfold deviceItem
  split <;> simp [refuseItem]
@[simp] theorem endItem_clock (c result now : Nat) (s : State) : (endItem c result now s).clock = s.clock := by
  unfold endItem
  split <;> simp [noteRun]
@[simp] theorem removeItem_clock (h result : Nat) (s : State) : (removeItem h result s).clock = s.clock := by
  unfold removeItem
  split <;> simp
@[simp] theorem endHandle_clock (h result now : Nat) (s : State) : (endHandle h result now s).clock = s.clock := by
  unfold endHandle
  split <;> simp
@[simp] theorem disableFlow_clock (f : Nat) (s : State) : (disableFlow f s).clock = s.clock := by simp [disableFlow]
@[simp] theorem takeSnapshot_clock (p : State) (f : Nat) (s : State) : (takeSnapshot p f s).clock = s.clock := by
  unfold takeSnapshot
  dsimp only
  split <;> simp
@[simp] theorem deliverRec_clock (r : OutRec) (s : State) : (deliverRec r s).clock = s.clock := by
  unfold deliverRec
  split <;> simp [commitTl, badPacket]
@[simp] theorem flowEffect_clock (f : Nat) (s : State) : (flowEffect f s).clock = s.clock := by simp [flowEffect, missReaction]
@[simp] theorem releaseFlow_clock (f : Nat) (s : State) : (releaseFlow f s).clock = s.clock := by
  unfold releaseFlow
  dsimp only
  split
  · simp [flowMiss, dropFlowItem]
  · split <;> simp

/-! ### Lanes and units retired -/

@[simp] theorem retireOne_clock (r : Region) (f : Nat) (s : State) : (retireOne r f s).clock = s.clock := by
  unfold retireOne
  dsimp only
  split
  case h_1 => exact (clock_mk ..).trans (by simp)
  case h_2 => exact (clock_mk ..).trans (by simp)
  all_goals simp

/-! ### Prunes -/

@[simp] theorem endAccesses_clock (r : Region) (s : State) : (endAccesses r s).clock = s.clock := by
  simp [endAccesses, errorToken]
@[simp] theorem stopRegion_clock (r : Region) (s : State) : (stopRegion r s).clock = s.clock := by
  unfold stopRegion
  dsimp only
  split
  case h_6 => exact endAccesses_clock _ _
  all_goals simp
@[simp] theorem pruneJob_clock (p : Nat) (s : State) : (pruneJob p s).2.clock = s.clock := by simp [pruneJob, apply_ite Prod.snd]
@[simp] theorem pruneBatch_clock (b : Nat) (s : State) : (pruneBatch b s).2.clock = s.clock := by
  simp [pruneBatch, apply_ite Prod.snd]
@[simp] theorem pruneItem_clock (h : Nat) (s : State) : (pruneItem h s).2.clock = s.clock := by
  unfold pruneItem
  split <;> simp
@[simp] theorem pruneFlowAct_clock (f : Nat) (s : State) : (pruneFlowAct f s).2.clock = s.clock := by
  unfold pruneFlowAct
  split
  · rfl
  · simp only [ite_clock, markNext_clock, ite_self]
    refine (forAll_clock (fun c t => ?_) _ _).trans (by simp)
    split
    · split <;> simp
    · rfl
@[simp] theorem pruneAccess_clock (id : Nat) (s : State) : (pruneAccess id s).2.clock = s.clock := by
  unfold pruneAccess
  split
  · simp
  · split <;> rfl
@[simp] theorem pruneQueue_clock (q : Nat) (s : State) : (pruneQueue q s).2.clock = s.clock := by
  unfold pruneQueue
  split <;> simp
@[simp] theorem pruneRefused_clock (s : State) : (pruneRefused s).2.clock = s.clock := by simp [pruneRefused]
@[simp] theorem pruneWhole_clock (signed : Bool) (id : Nat) (s : State) : (pruneWhole signed id s).2.clock = s.clock := by
  unfold pruneWhole
  split
  · simp
  · split
    · rfl
    · rfl
    · simp [apply_ite Prod.snd]
@[simp] theorem pruneAct_clock (p : PruneSt) (s : State) : (pruneAct p s).2.clock = s.clock := by
  unfold pruneAct
  split <;> simp
@[simp] theorem pruneEnd_clock (p : PruneSt) (elapsed : Nat) (s : State) : (pruneEnd p elapsed s).clock = s.clock := by
  unfold pruneEnd
  dsimp only
  split
  · split <;> simp
  · simp
@[simp] theorem startPrunes_clock (n : Nat) (s : State) : (startPrunes n s).clock = s.clock := by
  induction n generalizing s with
  | zero => rfl
  | succ n ih =>
    unfold startPrunes
    split
    · rfl
    · simp [ih, apply_ite State.clock]

/-! ### Power states and restarts of a region -/

@[simp] theorem stopForPark_clock (s : State) : (stopForPark s).clock = s.clock := by simp [stopForPark]
@[simp] theorem enterPark_clock (s : State) : (enterPark s).clock = s.clock := by simp [enterPark]
@[simp] theorem enterDoze_clock (s : State) : (enterDoze s).clock = s.clock := by simp [enterDoze]
@[simp] theorem reformRings_clock (s : State) : (reformRings s).clock = s.clock := by simp [reformRings]
@[simp] theorem enterRun_clock (s : State) : (enterRun s).clock = s.clock := by
  simp only [enterRun, takeCheckpoint_clock, ite_clock, reformRings_clock, clock_mk, onChip_clock, implies_true, ite_self]
@[simp] theorem powerEdge_clock (s : State) : (powerEdge s).clock = s.clock := by
  unfold powerEdge
  split <;> simp
@[simp] theorem startRestart_clock (s : State) : (startRestart s).clock = s.clock := by
  unfold startRestart
  split
  · rfl
  · split
    · simp
    · rfl

/-! ### Commands released with the tick -/

@[simp] theorem accept_clock (o : Origin) (s : State) : (accept o s).clock = s.clock := by simp [accept]
@[simp] theorem needsCell_clock (o : Origin) (r : Nat) (s : State) (k : State → State) (h : ∀ t, (k t).clock = t.clock) :
    (needsCell o r s k).clock = s.clock := by
  simp [needsCell, h]
@[simp] theorem withMask_clock (o : Origin) (m : Mask) (s : State) (k : State → State) (h : ∀ t, (k t).clock = t.clock) :
    (withMask o m s k).clock = s.clock := by
  simp [withMask, h]
@[simp] theorem withGroup_clock (o : Origin) (g : Nat) (s : State) (k : State → State) (h : ∀ t, (k t).clock = t.clock) :
    (withGroup o g s k).clock = s.clock := by
  simp [withGroup, h]
@[simp] theorem segmentCmd_clock (o : Origin) (g : Nat) (segs : List Segment) (s : State) :
    (segmentCmd o g segs s).clock = s.clock := by
  unfold segmentCmd
  refine withGroup_clock _ _ _ _ (fun t => ?_)
  split
  · simp
  · dsimp only
    split <;> simp
@[simp] theorem homeCmd_clock (o : Origin) (a : Nat) (s : State) : (homeCmd o a s).clock = s.clock := by
  unfold homeCmd
  refine needsCell_clock _ _ _ _ (fun t => ?_)
  split
  · simp
  · split
    · simp
    · split
      · simp [homeRemote]
      · split <;> simp [homeLocal]
@[simp] theorem zoneReleaseCmd_clock (o : Origin) (g z : Nat) (s : State) : (zoneReleaseCmd o g z s).clock = s.clock := by
  unfold zoneReleaseCmd
  refine needsCell_clock _ _ _ _ (fun t => ?_)
  split
  · simp
  · refine withGroup_clock _ _ _ _ (fun u => ?_)
    split <;> simp
@[simp] theorem confirmCmd_clock (o : Origin) (v : Word) (s : State) : (confirmCmd o v s).clock = s.clock := by
  unfold confirmCmd
  refine needsCell_clock _ _ _ _ (fun t => ?_)
  split <;> simp
@[simp] theorem whenStopped_clock (o : Origin) (m : Mask) (s : State) (k : State → State) (h : ∀ t, (k t).clock = t.clock) :
    (whenStopped o m s k).clock = s.clock := by
  simp [whenStopped, h]
@[simp] theorem resetRegionCmd_clock (o : Origin) (kind : Nat) (s : State) : (resetRegionCmd o kind s).clock = s.clock := by
  unfold resetRegionCmd
  dsimp only
  split <;> simp [requestRestart]
@[simp] theorem actBody_clock (o : Origin) (b : CmdBody) (s : State) : (actBody o b s).clock = s.clock := by
  unfold actBody
  split <;> simp [query, flushCmd, haltCmd, resumeCmd, resumeGroup, enableCmd, disableCmd, overrideCmd, sliceParamCmd,
    stopCmd, ackCmd, modeCmd, flowmsgCmd, mailboxCmd, pushEntry, triggerCmd, pruneCmd, requestPrune, imageEraseCmd,
    imageWriteCmd, readCmd, resetDeviceCmd, resetPowerCmd, resetRunCmd, switchbackCmd, awaitDecision]
@[simp] theorem releaseCommands_clock (s : State) : (releaseCommands s).clock = s.clock := by
  simp [releaseCommands, releaseCmd, noteInput, countRelease]

/-! ### The pair at E0 -/

@[simp] theorem pairEdge_clock (s : State) : (pairEdge s).clock = s.clock := by
  simp [pairEdge, ownFitness, setUnfit, hoEdge, driveVote]

/-! ### Node mode -/

@[simp] theorem nodeSearch_clock (c : Nat) (s : State) : (nodeSearch c s).clock = s.clock := by simp [nodeSearch]
@[simp] theorem nodeChan_clock (lost fresh : Bool) (seg : Option DownSeg) (c : Nat) (s : State) :
    (nodeChan lost fresh seg c s).clock = s.clock := by
  unfold nodeChan
  split <;> simp [nodeArm, armCompare, nodeHome]

/-! ### The stages of a tick start -/

@[simp] theorem leaveGroup_clock (g : Nat) (s : State) : (leaveGroup g s).clock = s.clock := by
  simp [leaveGroup, leaveClocheSlices]
@[simp] theorem chansEdge_clock (emf : List Nat) (s : State) : (chansEdge emf s).clock = s.clock := by simp [chansEdge, nodeEdge]
@[simp] theorem reformEdge_clock (r : Nat) (s : State) : (reformEdge r s).clock = s.clock := by simp [reformEdge]
@[simp] theorem ringsEdge_clock (s : State) : (ringsEdge s).clock = s.clock := by simp [ringsEdge]
@[simp] theorem inputEdges_clock (emf : List Nat) (s : State) : (inputEdges emf s).clock = s.clock := by
  simp [inputEdges, trellisEdge, zonesEdge, objectEdge, objectStale]
@[simp] theorem stateEdges_clock (s : State) : (stateEdges s).clock = s.clock := by
  simp [stateEdges, reinitEdge, retireEdge, demandsEdge, clocheGroup, enterCloche]
@[simp] theorem worksEdge_clock (s : State) : (worksEdge s).clock = s.clock := by simp [worksEdge, generate, setSigma, solverEdge]
@[simp] theorem startTick_clock (p : State) (emf : List Nat) (s : State) : (startTick p emf s).clock = s.clock := by
  simp [startTick, schedule, releases, snapshots, releaseFlows, enterStaging, captureInputs]

end Sys2Proof.Machine

/-! PROOF. TicksAndRingStart: the clock after a tick edge, after the start that a device joins and after a ring start, and O53. -/

namespace Sys2Proof.Machine

/-! ### The tick that ends -/

theorem noteMiss_clock (p : Nat) (s : State) : (noteMiss p s).clock = s.clock := by
  simp [noteMiss]
theorem flowDeadline_clock (s : State) : (flowDeadline s).clock = s.clock := by
  simp [flowDeadline, noteMiss_clock]
theorem slackTurn_clock (s : State) : (slackTurn s).clock = s.clock := by
  simp [slackTurn]
theorem putRecord_clock (b : List Byte) (s : State) : (putRecord b s).clock = s.clock := by
  unfold putRecord
  dsimp only
  split <;> rfl
theorem recordWrite_clock (b : Bool) (s : State) : (recordWrite b s).clock = s.clock := by
  simp [recordWrite, putRecord_clock]
theorem tickEnds_clock (b : Bool) (s : State) : (tickEnds b s).clock = s.clock := by
  simp [tickEnds, recordWrite_clock, promiseWrite, slackTurn_clock, flowDeadline_clock]

theorem noteMiss_ring (p : Nat) (s : State) : (noteMiss p s).ring = s.ring := by
  unfold noteMiss recTrip
  split <;> rfl
theorem putRecord_ring (b : List Byte) (s : State) : (putRecord b s).ring = s.ring := by
  unfold putRecord
  dsimp only
  split <;> rfl
theorem tickEnds_ring (b : Bool) (s : State) : (tickEnds b s).ring = s.ring := by
  have hrec (u : State) : (recordWrite b u).ring = u.ring := by
    simp only [recordWrite, apply_ite State.ring, event_ring, onRec, putRecord_ring, ite_self]
  have hdue : (flowDeadline s).ring = s.ring := by
    simp only [flowDeadline, apply_ite State.ring, noteMiss_ring, ite_self]
  simp [tickEnds, hrec, slackTurn, hdue]

/-! ### The device begins to run -/

theorem slewTo_clock (a : Nat) (s : State) : (slewTo a s).clock = s.clock := by
  unfold slewTo
  refine onTime_clock (fun t => ?_) s
  dsimp only
  split <;> simp

theorem enterHoldover_clock (a : Nat) (s : State) : (enterHoldover a s).clock = s.clock := by
  unfold enterHoldover
  split
  · rfl
  · dsimp only
    split <;> simp [slewTo_clock]
theorem startServo_clock (s : State) : (startServo s).clock = s.clock := by
  simp [startServo, enterHoldover_clock]

theorem vregNext_clock (s : State) : (vregNext s).clock = s.clock := by
  unfold vregNext
  split <;> simp

theorem sendRec_clock (s : State) : (sendRec s).clock = s.clock := by
  simp [sendRec, vregSend, vregNext_clock]

/-- A device that enters RUN keeps its clock and its run nonce. -/
theorem enterRunning_clock (s : State) : (enterRunning s).clock = (s.time.clock, .running, s.host.nonce) := by
  have h : (enterRunning s).clock = (onChip (fun c => { c with phase := .running, pstate := .run }) s).clock := by
    simp [enterRunning, recordAtStart, startRecording, firstStart, startServo_clock, sendRec_clock]
  exact h

theorem enterRunning_time (s : State) : (enterRunning s).time.clock = s.time.clock := congrArg Prod.fst (enterRunning_clock s)
theorem enterRunning_phase (s : State) : (enterRunning s).chip.phase = .running :=
  congrArg (fun c => c.2.1) (enterRunning_clock s)

/-! ### The count of ticks -/

/-- A time base that has not stopped (R117) reaches the instant it is advanced to, and nothing else of the clock changes
(R94). -/
theorem advanceTb_clock {s : State} (h : s.time.stopped = false) (a : Nat) :
    (advanceTb a s).time.clock = { s.time.clock with tb := max s.time.tb a } := by
  have hs : (slewTo a s).time.clock = s.time.clock := time_clock (slewTo_clock a s)
  simp only [TimeSt.clock, Clock.mk.injEq] at hs ⊢
  simp [advanceTb, h, onTime, hs]

theorem advanceTb_stopped {s : State} (h : s.time.stopped = false) (a : Nat) : (advanceTb a s).time.stopped = false :=
  (congrArg Clock.stopped (advanceTb_clock h a)).trans h
theorem advanceTb_tb {s : State} (h : s.time.stopped = false) (a : Nat) : (advanceTb a s).time.tb = max s.time.tb a :=
  congrArg Clock.tb (advanceTb_clock h a)

/-- E0 of tick n as a ring's master has named it, if this device follows one (R137). -/
def namedE0 (s : State) (n : Nat) : Option Nat :=
  ((s.ring.filterMap (fun x => if x.master == x.node then none else x.nextE0)).find? (fun p => p.1 == n)).map (·.2)

theorem namedE0_of_masters {s : State} (h : ∀ x ∈ s.ring, x.master = x.node ∨ x.nextE0 = none) (n : Nat) :
    namedE0 s n = none := by
  have hf : s.ring.filterMap (fun x => if x.master == x.node then none else x.nextE0) = [] := by
    rw [List.filterMap_eq_nil_iff]
    intro x hx
    obtain hm | hn := h x hx
    · simp [hm]
    · simp [hn]
  rw [namedE0, hf]
  rfl

theorem namedE0_head {s : State} {x : RingSt} {q : List RingSt} {n i : Nat} (h : s.ring = x :: q) (hm : x.master ≠ x.node)
    (hx : x.nextE0 = some (n, i)) : namedE0 s n = some i := by
  simp [namedE0, h, hm, hx]

/-- E0 of tick n: as a master has named it, else n periods after T_start (R23, R108). -/
def edgeAt (s : State) (n : Nat) : Nat := (namedE0 s n).getD (s.time.tstart + n * periodNs s)

theorem countTick_clock {s : State} (h : s.time.stopped = false) {n : Nat} (hn : (s.time.tickno + 1) % 2 ^ 64 = n) :
    (countTick s).time.clock = { s.time.clock with tickno := n, e0 := edgeAt s n, tb := max s.time.tb (edgeAt s n) } := by
  subst hn
  exact advanceTb_clock
    (s := onTime (fun t => { t with tickno := _, e0 := (namedE0 s _).getD (t.tstart + _ * periodNs s) }) s) h (edgeAt s _)

theorem nodeNonce_time (s : State) : (nodeNonce s).time = s.time := by
  unfold nodeNonce
  split <;> rfl

theorem followStart_time (s : State) : (followStart s).time.clock = s.time.clock := by
  unfold followStart
  split
  · exact (enterRunning_time _).trans (congrArg TimeSt.clock (nodeNonce_time s))
  · rfl

theorem tickEdge_running {e : List Nat} {b : Bool} {s : State} (hr : s.time.run = true) (hs : s.time.stopped = false) :
    tickEdge e b s = startTick s e (followStart (countTick (clearTick (tickEnds b s)))) := by
  simp [tickEdge, hr, hs]

theorem edgeAt_congr {s u : State} (hi : u.image = s.image) (hr : u.ring = s.ring) (hc : u.time.clock = s.time.clock)
    (n : Nat) : edgeAt u n = edgeAt s n := by
  have ht : u.time.tstart = s.time.tstart := congrArg Clock.tstart hc
  rw [edgeAt, edgeAt, namedE0, namedE0, periodNs, periodNs, hi, hr, ht]

/-- The edge of a running tick (R23, R108): TICKNO rises by one and TB stands at E0 of the new tick, where it has not
passed it. -/
theorem tickEdge_clock {e : List Nat} {b : Bool} {s : State} (hr : s.time.run = true) (hs : s.time.stopped = false)
    (hn : s.time.tickno + 1 < 2 ^ 64) {i : Nat} (hi : edgeAt s (s.time.tickno + 1) = i) (hb : s.time.tb ≤ i) :
    (tickEdge e b s).time.clock = { s.time.clock with tickno := s.time.tickno + 1, tb := i, e0 := i } := by
  have hc : (clearTick (tickEnds b s)).time.clock = s.time.clock := time_clock (tickEnds_clock b s)
  have hedge (n : Nat) : edgeAt (clearTick (tickEnds b s)) n = edgeAt s n :=
    edgeAt_congr (tickEnds_image b s) (tickEnds_ring b s) hc n
  rw [tickEdge_running hr hs]
  generalize clearTick (tickEnds b s) = u at hc hedge
  have hstop : u.time.stopped = false := (congrArg Clock.stopped hc).trans hs
  have htick : u.time.tickno = s.time.tickno := congrArg Clock.tickno hc
  have htb : u.time.tb = s.time.tb := congrArg Clock.tb hc
  calc (startTick s e (followStart (countTick u))).time.clock
      = (countTick u).time.clock := (time_clock (startTick_clock _ _ _)).trans (followStart_time _)
    _ = { u.time.clock with tickno := s.time.tickno + 1, e0 := i, tb := max s.time.tb i } := by
      rw [countTick_clock hstop (by rw [htick, Nat.mod_eq_of_lt hn]), hedge, hi, htb]
    _ = { s.time.clock with tickno := s.time.tickno + 1, tb := i, e0 := i } := by rw [hc, Nat.max_eq_right hb]

/-- E0 of tick 0 in a device that joins a start (R149): T_start is the planned instant. -/
theorem firstEdgeOf_clock {s : State} (hs : s.time.stopped = false) :
    (firstEdgeOf s).time.clock = ⟨true, false, 0, s.time.tplan, max s.time.tb s.time.tplan, s.time.tplan⟩ := by
  unfold firstEdgeOf
  refine (enterRunning_time _).trans ((congrArg TimeSt.clock (nodeNonce_time _)).trans ?_)
  simp only [onTime, TimeSt.clock, advanceTb_stopped hs, advanceTb_tb hs]

theorem tickEdge_joining {e : List Nat} {b : Bool} {s : State} (hr : s.time.run = false) (hs : s.time.stopped = false)
    (hj : joinsStart s = true) : tickEdge e b s = startTick s e (firstEdgeOf s) := by
  simp [tickEdge, hr, hs, hj]

/-! ### Ring start (R108, R405, R419) -/

theorem freeSamples_clock (n : Nat) (s : State) : (freeSamples n s).2.clock = s.clock := by
  induction n generalizing s with
  | zero => rfl
  | succ n ih => exact (ih _).trans (drawFree_clock s)

theorem periodNs_pos (s : State) : 0 < periodNs s := Nat.mul_pos (by decide) (Nat.two_pow_pos _)

theorem wholePeriod_mod (s : State) (t : Nat) : wholePeriod s t % periodNs s = 0 := Nat.mul_mod_left ..

theorem le_wholePeriod (s : State) (t : Nat) : t ≤ wholePeriod s t := by
  have hp := periodNs_pos s
  have hlt := Nat.lt_div_mul_add (a := t + periodNs s - 1) hp
  rw [wholePeriod]
  omega

theorem startInstant_planned {s : State} (h : s.time.tb ≤ s.time.tplan) : startInstant s = s.time.tplan := if_pos h

theorem startInstant_late {s : State} (h : s.time.tplan < s.time.tb) :
    startInstant s % periodNs s = 0 ∧ s.time.tb + 100000 ≤ startInstant s := by
  rw [startInstant, if_neg (Nat.not_le.2 h)]
  exact ⟨wholePeriod_mod s _, le_wholePeriod s _⟩

/-- A ring start sets the clock and the run nonce, lets the device run, and then starts tick 0: what `startTick` leaves alone is
as in the state u that enters RUN. -/
theorem ringStart_of_ok {v : Nat} {s : State} (h : ringStartOk v s = true) (hs : s.time.stopped = false) :
    ∃ u : State, u.keep = s.keep ∧ u.host.nonce = v % 2 ^ 64 ∧
      u.time.clock = ⟨true, false, 0, startInstant s, max s.time.tb (startInstant s), startInstant s⟩ ∧
      (ringStart v s).clock = (enterRunning u).clock ∧ (ringStart v s).keep = (enterRunning u).keep := by
  unfold ringStart
  rw [if_neg (by simp [h])]
  refine ⟨_, ?_, ?_, ?_, (startTick_clock _ _ _).trans ((freeSamples_clock _ _).trans (event_clock _ _ _)),
    (startTick_keep _ _ _).trans ((freeSamples_keep _ _).trans (event_keep _ _ _))⟩
  · exact (onHost_keep _ _).trans ((ringForm_keep _ _).trans ((onTime_keep _ _).trans (advanceTb_keep _ _)))
  · rfl
  · simp only [onHost, onTime, TimeSt.clock, advanceTb_stopped hs, advanceTb_tb hs]

theorem enterRunning_fuse {s u : State} (h : u.keep = s.keep) : (enterRunning u).fuse = (firstStart s).fuse := by
  have hv : (startServo (sendRec (onChip (fun c => { c with phase := .running, pstate := .run }) u))).keep = s.keep := by
    simp [h]
  unfold enterRunning
  rw [keep_fuse (recordAtStart_keep _)]
  generalize startServo _ = w at hv
  simp only [firstStart, apply_ite State.fuse, keep_fuse hv, keep_image hv]

theorem firstStart_keyDigest (s : State) : (firstStart s).fuse.keyDigest.isSome = true := by
  unfold firstStart
  split
  · assumption
  · rfl

theorem firstStart_opened (s : State) : (firstStart s).fuse.opened = s.fuse.opened := by
  unfold firstStart
  split <;> rfl

/-- The first start fuses the key digest of the image and generates the identity key (R405). -/
theorem firstStart_blank {s : State} (h : s.fuse.keyDigest = none) :
    (firstStart s).fuse.keyDigest = some s.image.keyDigest ∧ (firstStart s).fuse.idKey = true := by
  simp [firstStart, h]

theorem ringStart_of_not_ok {v : Nat} {s : State} (h : ringStartOk v s = false) : ringStart v s = s := by
  simp [ringStart, h]

/-! ### The clauses of O53 -/

/-- A command that changes nothing completes with the state as it is. -/
theorem run_of_unchanged {f : State → State} {s : State} (h : f s = s) : run f s = .next s := run_of_quiet h ⟨rfl, rfl, rfl⟩

theorem settle_clock (s t : State) : (settle s t).clock = t.clock := by
  rw [State.clock, State.clock, settle_time, settle_host, settle_chip]

/-- What the state that RING_START completes with holds. -/
theorem exec_ringStart_of_ok {v : Nat} {s : State} (h : ringStartOk v s = true) (hs : s.time.stopped = false) :
    ∃ t, exec (.ringStart v) s = .next t ∧
      t.clock = (⟨true, false, 0, startInstant s, max s.time.tb (startInstant s), startInstant s⟩, .running, v % 2 ^ 64) ∧
      t.fuse = (firstStart s).fuse ∧ t.image = s.image ∧ t.conf = s.conf ∧ t.flash = s.flash := by
  obtain ⟨u, hkeep, hnonce, hclock, hc, hk⟩ := ringStart_of_ok h hs
  refine ⟨settle s (ringStart v s), rfl, ?_, ?_, ?_, ?_, ?_⟩
  · rw [settle_clock, hc, enterRunning_clock, hclock, hnonce]
  · rw [settle_fuse, keep_fuse hk, enterRunning_fuse hkeep]
  · rw [settle_image, keep_image hk, enterRunning_image, keep_image hkeep]
  · rw [settle_conf, keep_conf hk, enterRunning_conf, keep_conf hkeep]
  · rw [settle_flash, keep_flash hk, enterRunning_flash, keep_flash hkeep]

/-- What the state holds that the edge of a running tick completes with. -/
theorem exec_tickEdge_clock {e : List Nat} {b : Bool} {s : State} (hr : s.time.run = true) (hs : s.time.stopped = false)
    (hn : s.time.tickno + 1 < 2 ^ 64) {i : Nat} (hi : edgeAt s (s.time.tickno + 1) = i) (hb : s.time.tb ≤ i) :
    ∃ t, exec (.tickEdge e b) s = .next t ∧ t.time.clock = ⟨true, false, s.time.tickno + 1, s.time.tstart, i, i⟩ ∧
      t.image = s.image ∧ t.conf = s.conf ∧ t.flash = s.flash := by
  refine ⟨settle s (tickEdge e b s), rfl, ?_, ?_, ?_, ?_⟩
  · rw [settle_time, tickEdge_clock hr hs hn hi hb, TimeSt.clock, hr, hs]
  · rw [settle_image, tickEdge_image]
  · rw [settle_conf, tickEdge_conf]
  · rw [settle_flash, tickEdge_flash]

/-- What the state holds that the edge of tick 0 completes with in a device that joins a start. -/
theorem exec_tickEdge_joining {e : List Nat} {b : Bool} {s : State} (hr : s.time.run = false) (hs : s.time.stopped = false)
    (hj : joinsStart s = true) (hb : s.time.tb ≤ s.time.tplan) :
    ∃ t, exec (.tickEdge e b) s = .next t ∧ t.time.clock = ⟨true, false, 0, s.time.tplan, s.time.tplan, s.time.tplan⟩ ∧
      t.chip.phase = .running ∧ t.image = s.image := by
  have hc : (settle s (tickEdge e b s)).clock = (firstEdgeOf s).clock := by
    rw [settle_clock, tickEdge_joining hr hs hj, startTick_clock]
  refine ⟨settle s (tickEdge e b s), rfl, ?_, ?_, ?_⟩
  · rw [time_clock hc, firstEdgeOf_clock hs, Nat.max_eq_right hb]
  · exact (congrArg (fun c => c.2.1) hc).trans (enterRunning_phase _)
  · rw [settle_image, tickEdge_image]

theorem only_startRecording (s : State) : only [.recd] s (startRecording s) := by
  intro p hp
  cases p <;> simp_all [Part.same, startRecording, onRec]

/-- Settles O53: each clause reads the clock, the fuses or the kept parts off what RING_START or TICK_EDGE completes with, the
edge at the E0 that T_start or the followed master's beacon gives. -/
theorem ticksAndRingStart : Obligations.TicksAndRingStart := by
  refine ⟨fun v s hph hr hs hv hrdy => ?_, fun v s h => ?_, fun e b s hr hs hn hb hm => ?_,
    fun e b i x q s hr hs hn hq hm hx hb => ?_, fun e b s hr hs hj hb => ?_, fun e b s h => ?_,
    fun s hb hr hh => ?_, fun s hb => ?_⟩
  · have hok : ringStartOk v s = true := by simp only [ringStartOk, hph, hr, hs, hrdy, bne_iff_ne.2 hv]; rfl
    obtain ⟨t, ht, hc, hf, himage, hconf, hflash⟩ := exec_ringStart_of_ok hok hs
    simp only [State.clock, TimeSt.clock, Prod.mk.injEq, Clock.mk.injEq] at hc
    obtain ⟨⟨hrun, -, htick, hstart, -, he0⟩, hphase, hnonce⟩ := hc
    refine ⟨t, ht, hrun, htick, hnonce, fun h => ?_, fun h => ?_, he0.trans hstart.symm, hphase, ?_, fun h => ?_, ?_, himage,
      hconf, hflash⟩
    · rw [hstart, startInstant_planned h]
    · rw [hstart]; exact startInstant_late h
    · rw [hf, firstStart_keyDigest]
    · rw [hf]; exact firstStart_blank h
    · rw [hf, firstStart_opened]
  · have hno : ringStartOk v s = false := by
      obtain h | h | h := h
      · simp [ringStartOk, h]
      · simp only [ringStartOk, h, bne_self_eq_false, Bool.and_false, Bool.false_and]
      · simp [ringStartOk, h]
    exact run_of_unchanged (ringStart_of_not_ok hno)
  · have hi : edgeAt s (s.time.tickno + 1) = s.time.tstart + (s.time.tickno + 1) * periodNs s := by
      rw [edgeAt, namedE0_of_masters hm, Option.getD_none]
    obtain ⟨t, ht, hc, hkept⟩ := exec_tickEdge_clock (e := e) (b := b) hr hs hn hi hb
    exact ⟨t, ht, congrArg Clock.tickno hc, congrArg Clock.run hc, congrArg Clock.tstart hc, congrArg Clock.tb hc, hkept⟩
  · have hi : edgeAt s (s.time.tickno + 1) = i := by rw [edgeAt, namedE0_head hq hm hx, Option.getD_some]
    obtain ⟨t, ht, hc, -⟩ := exec_tickEdge_clock (e := e) (b := b) hr hs hn hi hb
    exact ⟨t, ht, congrArg Clock.tickno hc, congrArg Clock.tb hc, congrArg Clock.e0 hc⟩
  · obtain ⟨t, ht, hc, hphase, himage⟩ := exec_tickEdge_joining (e := e) (b := b) hr hs hj hb
    exact ⟨t, ht, congrArg Clock.run hc, congrArg Clock.tickno hc, congrArg Clock.tstart hc, congrArg Clock.tb hc, hphase,
      himage⟩
  · have hno : tickEdge e b s = s := by
      obtain h | ⟨hr, hj⟩ := h
      · simp [tickEdge, h]
      · simp [tickEdge, hr, hj]
    exact run_of_unchanged hno
  · have hx : recordingRestart s = startRecording s := by simp [recordingRestart, hb, hr, hh]
    have hq : quiet s (startRecording s) := ⟨rfl, rfl, rfl⟩
    exact ⟨_, run_of_quiet hx hq, rfl, rfl, hq, only_startRecording s⟩
  · exact run_of_unchanged (by simp [recordingRestart, hb])

end Sys2Proof.Machine

/-! SUPPORT. Frames: which parts of the state an update, an event, a fault class and an escalation may change, what they do to the
groups of SAF, and that they leave the accesses, the
answer and the restarts of the chip level alone. -/

namespace Sys2Proof.Machine

/-! ### The parts that may differ -/

theorem Part.same_symm {p : Part} {s t : State} (h : p.same s t) : p.same t s := by cases p <;> exact Eq.symm h

theorem Part.same_trans {p : Part} {s t u : State} (h : p.same s t) (k : p.same t u) : p.same s u := by
  cases p <;> exact Eq.trans k h

theorem only_mono {ps qs : List Part} {s t : State} (hs : ps ⊆ qs) (h : only ps s t) : only qs s t :=
  fun p hp => h p (fun hm => hp (hs hm))

theorem only_trans {ps : List Part} {s t u : State} (h : only ps s t) (k : only ps t u) : only ps s u :=
  fun p hp => Part.same_trans (h p hp) (k p hp)

/-- A step that may change listed parts only does not matter for what else has changed. -/
theorem only_iff_of_only {ps : List Part} {s t u : State} (h : only ps t u) : only ps s u ↔ only ps s t :=
  ⟨fun k p hp => Part.same_trans (k p hp) (Part.same_symm (h p hp)), fun k p hp => Part.same_trans (k p hp) (h p hp)⟩

/-- An update of one listed part does not matter for what else has changed. -/
theorem only_iff_of_part {ps : List Part} {s t u : State} (q : Part) (hq : q ∈ ps) (h : ∀ p, p = q ∨ p.same t u) :
    only ps s u ↔ only ps s t :=
  only_iff_of_only fun p hp => (h p).resolve_left fun he => hp (he ▸ hq)

@[simp] theorem only_self (ps : List Part) (s : State) : only ps s s := only_refl ps s

@[simp] theorem only_ite (ps : List Part) (s t u : State) (c : Prop) [Decidable c] :
    only ps s (if c then t else u) ↔ if c then only ps s t else only ps s u := by split <;> rfl

section
variable {ps : List Part} {s t : State}

@[simp] theorem only_onChip {f : ChipSt → ChipSt} (h : .chip ∈ ps) : only ps s (onChip f t) ↔ only ps s t :=
  only_iff_of_part .chip h (by rintro ⟨⟩ <;> simp [Part.same])
@[simp] theorem only_onTime {f : TimeSt → TimeSt} (h : .time ∈ ps) : only ps s (onTime f t) ↔ only ps s t :=
  only_iff_of_part .time h (by rintro ⟨⟩ <;> simp [Part.same])
@[simp] theorem only_onRec {f : RecSt → RecSt} (h : .recd ∈ ps) : only ps s (onRec f t) ↔ only ps s t :=
  only_iff_of_part .recd h (by rintro ⟨⟩ <;> simp [Part.same, onRec])
@[simp] theorem only_onChan {c : Nat} {f : ChanSt → ChanSt} (h : .axio ∈ ps) : only ps s (onChan c f t) ↔ only ps s t :=
  only_iff_of_part .axio h (by rintro ⟨⟩ <;> simp [Part.same])
@[simp] theorem only_onSlice {b sl : Nat} {f : SliceSt → SliceSt} (h : .mot ∈ ps) : only ps s (onSlice b sl f t) ↔ only ps s t :=
  only_iff_of_part .mot h (by rintro ⟨⟩ <;> simp [Part.same, onSlice])
@[simp] theorem only_onProb {p : Nat} {f : ProbSt → ProbSt} (h : .sol ∈ ps) : only ps s (onProb p f t) ↔ only ps s t :=
  only_iff_of_part .sol h (by rintro ⟨⟩ <;> simp [Part.same])
@[simp] theorem only_onSaf {f : SafSt → SafSt} (h : .saf ∈ ps) : only ps s (onSaf f t) ↔ only ps s t :=
  only_iff_of_part .saf h (by rintro ⟨⟩ <;> simp [Part.same])
@[simp] theorem only_onHost {f : HostSt → HostSt} (h : .host ∈ ps) : only ps s (onHost f t) ↔ only ps s t :=
  only_iff_of_part .host h (by rintro ⟨⟩ <;> simp [Part.same])
@[simp] theorem only_onCore {c : Nat} {f : CoreSt → CoreSt} (h : .host ∈ ps) : only ps s (onCore c f t) ↔ only ps s t :=
  only_iff_of_part .host h (by rintro ⟨⟩ <;> simp [Part.same])
@[simp] theorem only_onFlow {i : Nat} {f : FlowSt → FlowSt} (h : .host ∈ ps) : only ps s (onFlow i f t) ↔ only ps s t :=
  only_iff_of_part .host h (by rintro ⟨⟩ <;> simp [Part.same])
@[simp] theorem only_onPort {p : Nat} {f : PortSt → PortSt} (h : .host ∈ ps) : only ps s (onPort p f t) ↔ only ps s t :=
  only_iff_of_part .host h (by rintro ⟨⟩ <;> simp [Part.same])
@[simp] theorem only_onPair {f : PairSt → PairSt} (h : .pair ∈ ps) : only ps s (onPair f t) ↔ only ps s t :=
  only_iff_of_part .pair h (by rintro ⟨⟩ <;> simp [Part.same])
@[simp] theorem only_onRegion {r : Region} {f : RegionSt → RegionSt} (h : .regions ∈ ps) :
    only ps s (onRegion r f t) ↔ only ps s t :=
  only_iff_of_part .regions h (by rintro ⟨⟩ <;> simp [Part.same])
@[simp] theorem only_event {c d : Nat} (h : .chip ∈ ps) : only ps s (event c d t) ↔ only ps s t :=
  only_iff_of_part .chip h (by rintro ⟨⟩ <;> simp [Part.same])
@[simp] theorem only_mark {i : Nat} {m : Mask} (h : .time ∈ ps) : only ps s (mark i m t) ↔ only ps s t := only_onTime h
@[simp] theorem only_markNext {i : Nat} {m : Mask} (h : .time ∈ ps) : only ps s (markNext i m t) ↔ only ps s t := only_onTime h
@[simp] theorem only_errorToken (h : .chip ∈ ps) : only ps s (errorToken t) ↔ only ps s t := only_onChip h
@[simp] theorem only_answer {v : Word} (h : .chip ∈ ps) : only ps s (answer v t) ↔ only ps s t := only_onChip h
@[simp] theorem only_acked (h : .chip ∈ ps) : only ps s (acked t) ↔ only ps s t := only_onChip h
theorem only_free {n : Nat} (h : .free ∈ ps) : only ps s { t with free := n } ↔ only ps s t :=
  only_iff_of_part .free h (by rintro ⟨⟩ <;> simp [Part.same])
theorem only_sol {x : SolSt} (h : .sol ∈ ps) : only ps s { t with sol := x } ↔ only ps s t :=
  only_iff_of_part .sol h (by rintro ⟨⟩ <;> simp [Part.same])
theorem only_trl {x : TrlSt} (h : .trl ∈ ps) : only ps s { t with trl := x } ↔ only ps s t :=
  only_iff_of_part .trl h (by rintro ⟨⟩ <;> simp [Part.same])
@[simp] theorem only_settle_iff {u : State} (h : .chip ∈ ps) : only ps s (settle u t) ↔ only ps s t :=
  only_iff_of_part .chip h (by rintro ⟨⟩ <;> simp [Part.same])

end

/-! ### A fold of updates -/

/-- What every update of a fold leaves, the fold leaves. -/
theorem forAll_same {α β : Type} {P : State → β} {f : α → State → State} (h : ∀ x t, P (f x t) = P t) (l : List α) (s : State) :
    P (forAll l f s) = P s := by
  induction l generalizing s with
  | nil => rfl
  | cons x l ih => exact (ih (f x s)).trans (h x s)

/-- What every update of a fold preserves, the fold preserves. -/
theorem forAll_preserves {α : Type} {P : State → Prop} {f : α → State → State} (h : ∀ x t, P t → P (f x t)) (l : List α)
    {s : State} (hs : P s) : P (forAll l f s) := by
  induction l generalizing s with
  | nil => exact hs
  | cons x l ih => exact ih (h x s hs)

theorem only_forAll {α : Type} {ps : List Part} {f : α → State → State} (h : ∀ x t, only ps t (f x t)) {l : List α} {s t : State} :
    only ps s (forAll l f t) ↔ only ps s t :=
  only_iff_of_only (forAll_preserves (fun x u hu => only_trans hu (h x u)) l (only_refl ps t))

/-! ### The groups of SAF that a mask names -/

/-- The table of SAF's groups with those of a mask updated. -/
def updMask (m : Mask) (f : SafGroup → SafGroup) (l : List SafGroup) : List SafGroup :=
  (bitsOf m).foldl (fun t g => updAt t g f) l

theorem mem_bitsOf {m : Mask} {g : Nat} : g ∈ bitsOf m ↔ hasBit m g = true := by
  simp only [bitsOf, hasBit, List.mem_filter, List.mem_range, and_iff_right_iff_imp]
  exact fun h => BitVec.lt_of_getLsbD h

theorem nth_foldl_updAt {α : Type} [Inhabited α] {f : α → α} {is : List Nat} (hd : is.Nodup) (l : List α) (j : Nat) :
    nth (is.foldl (fun t i => updAt t i f) l) j = if j ∈ is ∧ j < l.length then f (nth l j) else nth l j := by
  induction is generalizing l with
  | nil => simp
  | cons i is ih =>
    obtain ⟨hi, hd⟩ := List.nodup_cons.1 hd
    rw [List.foldl_cons, ih hd, updAt_length, nth_updAt]
    by_cases hj : j = i
    · subst hj; simp [hi]
    · simp [hj]

/-- A group reads as updated where the mask names it, else as before. -/
theorem nth_updMask (m : Mask) (f : SafGroup → SafGroup) (l : List SafGroup) (g : Nat) :
    nth (updMask m f l) g = if hasBit m g = true ∧ g < l.length then f (nth l g) else nth l g := by
  have hd : (bitsOf m).Nodup := List.nodup_range.filter _
  simp only [updMask, nth_foldl_updAt hd, mem_bitsOf]

@[simp] theorem updMask_length (m : Mask) (f : SafGroup → SafGroup) (l : List SafGroup) : (updMask m f l).length = l.length := by
  rw [updMask]
  induction bitsOf m generalizing l with
  | nil => rfl
  | cons g is ih => exact (ih _).trans (updAt_length _ _ _)

theorem forAll_onSafG (m : Mask) (f : SafGroup → SafGroup) (s : State) :
    forAll (bitsOf m) (fun g => onSafG g f) s = onSaf (fun x => { x with g := updMask m f x.g }) s := by
  simp only [updMask]
  induction bitsOf m generalizing s with
  | nil => rfl
  | cons g is ih => exact ih (onSafG g f s)

/-- SS1-r of a cause demanded of one group. -/
def wantStop (cause : Nat) (x : SafGroup) : SafGroup := { x with stopReq := x.stopReq ||| bitOf 32 cause }

/-- STO of a cause demanded of one group. -/
def wantSto (cause : Nat) (x : SafGroup) : SafGroup := { x with stoReq := x.stoReq ||| bitOf 32 cause }

/-- A class A fault of a source latched in one group. -/
def latched (src : Nat) (x : SafGroup) : SafGroup := { x with aLatch := true, aActive := x.aActive ||| bitOf 16 src }

theorem demandStop_eq (m : Mask) (cause : Nat) (s : State) :
    demandStop m cause s = onSaf (fun x => { x with g := updMask m (wantStop cause) x.g }) s := forAll_onSafG m _ s
theorem demandSto_eq (m : Mask) (cause : Nat) (s : State) :
    demandSto m cause s = onSaf (fun x => { x with g := updMask m (wantSto cause) x.g }) s := forAll_onSafG m _ s
theorem latchA_eq (m : Mask) (src code : Nat) (s : State) :
    latchA m src code s =
      onSaf (fun x => { x with g := updMask m (latched src) x.g, lastA := code }) (bbTrigger 2 code (recTrip s)) :=
  congrArg (onSaf fun x => { x with lastA := code }) (forAll_onSafG m (latched src) _)

/-! ### The black box and the recording unit -/

/-- A black-box trigger moves the figures of the black box only. -/
theorem bbTrigger_eq (t code : Nat) (s : State) : ∃ w k b,
    bbTrigger t code s = onChip (fun c => { c with bbWait := w, bbSkip := k, bbTick := b }) s := by
  unfold bbTrigger
  dsimp only
  split
  · exact ⟨_, s.chip.bbSkip, s.chip.bbTick, rfl⟩
  · split
    · exact ⟨s.chip.bbWait, _, _, rfl⟩
    · exact ⟨_, s.chip.bbSkip, _, rfl⟩

@[simp] theorem only_bbTrigger {ps : List Part} {s u : State} {t code : Nat} (h : .chip ∈ ps) :
    only ps s (bbTrigger t code u) ↔ only ps s u := by
  obtain ⟨w, k, b, he⟩ := bbTrigger_eq t code u
  rw [he, only_onChip h]

@[simp] theorem only_recTrip {ps : List Part} {s t : State} (h : .recd ∈ ps) : only ps s (recTrip t) ↔ only ps s t := by
  unfold recTrip
  split
  · exact only_onRec (f := fun r => { r with stopLeft := some t.image.recStop }) h
  · rfl

/-! ### Fault classes and escalation -/

section
variable {ps : List Part} {s t : State} {m : Mask} {c d : Nat}

@[simp] theorem only_demandStop (h : .saf ∈ ps) : only ps s (demandStop m c t) ↔ only ps s t := by rw [demandStop_eq, only_onSaf h]
@[simp] theorem only_demandSto (h : .saf ∈ ps) : only ps s (demandSto m c t) ↔ only ps s t := by rw [demandSto_eq, only_onSaf h]
@[simp] theorem only_latchA (h : .saf ∈ ps) (hc : .chip ∈ ps) (hr : .recd ∈ ps) :
    only ps s (latchA m c d t) ↔ only ps s t := by
  rw [latchA_eq, only_onSaf h, only_bbTrigger hc, only_recTrip hr]
@[simp] theorem only_classA (h : .saf ∈ ps) (hc : .chip ∈ ps) (hr : .recd ∈ ps) :
    only ps s (classA m c d t) ↔ only ps s t := by
  rw [classA, only_demandStop h, only_latchA h hc hr]
@[simp] theorem only_addB {i : Nat} (h : .saf ∈ ps) : only ps s (addB i c m d t) ↔ only ps s t := by simp [addB, h]
@[simp] theorem only_autoHandover (h : .pair ∈ ps) : only ps s (autoHandover t) ↔ only ps s t := by simp [autoHandover, h]

/-- The parts that an escalation may change. -/
def escalateParts : List Part := [.chip, .time, .recd, .saf, .pair, .regions]

@[simp] theorem only_escalate {r : Region} (h : escalateParts ⊆ ps) : only ps s (escalate r t) ↔ only ps s t := by
  have hp {p : Part} (hp : p ∈ escalateParts) : p ∈ ps := h hp
  simp [escalate, hp (p := .chip) (by decide), hp (p := .time) (by decide), hp (p := .recd) (by decide),
    hp (p := .saf) (by decide), hp (p := .pair) (by decide), hp (p := .regions) (by decide)]

end

/-! ### The work of the chip level -/

/-- The accesses that wait at the crossings, the count of those that hung, the answer of the last access and the restarts that are
asked for: no event, fault class or escalation changes them. -/
def State.service (s : State) : List XAccess × Nat × Resp × List (Nat × Option Origin) :=
  (s.chip.xPend, s.chip.xHang, s.chip.resp, s.chip.rrst)

@[simp] theorem ite_service (c : Prop) [Decidable c] (s t : State) :
    (if c then s else t).service = if c then s.service else t.service := apply_ite _ _ _ _
@[simp] theorem onChip_service {f : ChipSt → ChipSt}
    (h : ∀ c, (f c).xPend = c.xPend ∧ (f c).xHang = c.xHang ∧ (f c).resp = c.resp ∧ (f c).rrst = c.rrst) (s : State) :
    (onChip f s).service = s.service := by
  obtain ⟨hp, hh, ha, hr⟩ := h s.chip
  simp only [State.service, onChip_chip, hp, hh, ha, hr]
@[simp] theorem onSaf_service (f : SafSt → SafSt) (s : State) : (onSaf f s).service = s.service := rfl
@[simp] theorem onPair_service (f : PairSt → PairSt) (s : State) : (onPair f s).service = s.service := rfl
@[simp] theorem onRegion_service (r : Region) (f : RegionSt → RegionSt) (s : State) :
    (onRegion r f s).service = s.service := rfl
@[simp] theorem mark_service (i : Nat) (m : Mask) (s : State) : (mark i m s).service = s.service := rfl
@[simp] theorem event_service (c d : Nat) (s : State) : (event c d s).service = s.service := rfl
@[simp] theorem settle_service (s t : State) : (settle s t).service = t.service := by
  rw [State.service, settle_chip]
  rfl
@[simp] theorem recTrip_service (s : State) : (recTrip s).service = s.service := by
  unfold recTrip
  split <;> rfl
@[simp] theorem bbTrigger_service (t code : Nat) (s : State) : (bbTrigger t code s).service = s.service := by
  obtain ⟨w, k, b, he⟩ := bbTrigger_eq t code s
  rw [he]
  rfl
@[simp] theorem demandStop_service (m : Mask) (c : Nat) (s : State) : (demandStop m c s).service = s.service := by
  simp [demandStop_eq]
@[simp] theorem demandSto_service (m : Mask) (c : Nat) (s : State) : (demandSto m c s).service = s.service := by
  simp [demandSto_eq]
@[simp] theorem latchA_service (m : Mask) (src code : Nat) (s : State) : (latchA m src code s).service = s.service := by
  simp [latchA_eq]
@[simp] theorem classA_service (m : Mask) (src code : Nat) (s : State) : (classA m src code s).service = s.service := by
  simp [classA]
@[simp] theorem addB_service (src i : Nat) (m : Mask) (code : Nat) (s : State) : (addB src i m code s).service = s.service := by
  simp [addB]
@[simp] theorem escalate_service (r : Region) (s : State) : (escalate r s).service = s.service := by
  simp [escalate, autoHandover]

end Sys2Proof.Machine

/-! PROOF. Arbiters: an unfreeze at the transmit arbiter of a ring port counts the frame it grants in the ring, against O1. -/

namespace Sys2Proof.Machine

/-- A device whose ring 0 stands in an ACYCLIC slot of its own node (R134), 100 steps of 8 ns long, while the transmit arbiter of a
port of that ring (rank 15) is frozen and a frame of firmware from requester 0 waits there. -/
def frozenRingPort : State := {
  image := { rings := [{ slots := [{ kind := 6, len := 100 }] }] },
  chip := { arbs := List.replicate 15 {} ++ [{ frz := true, fresh := [{}] }] } }

/-- The unfreeze makes the decision at once (R53), and the wire time of the frame it grants is noted in the ring (R134). -/
theorem acyUsed_arbUnfreeze_frozenRingPort :
    (nth frozenRingPort.ring 0).acyUsed = 0 ∧ (nth (arbUnfreeze 15 frozenRingPort).ring 0).acyUsed = 2304 := by decide +kernel

/-- The state that ARB_UNFREEZE completes with has the rings that the unfreeze leaves. -/
theorem ring_of_exec_arbUnfreeze {n : Nat} {s t : State} (h : exec (.arbUnfreeze n) s = .next t) :
    t.ring = (arbUnfreeze n s).ring := by
  have ht : settle s (arbUnfreeze n s) = t := Host.Outcome.next.inj h
  rw [← ht, settle_ring]

/-- Refutes O1: its clause on ARB_UNFREEZE lets only the chip level differ, for every arbiter. The decision that follows at a ring
port that was frozen (R53) grants firmware's frame in an ACYCLIC slot, and the ring counts the wire time it uses (R134). -/
theorem not_arbiters : ¬ Obligations.Arbiters := by
  rintro ⟨-, -, -, -, -, -, -, hunfreeze, -⟩
  obtain ⟨t, ht, -, -, honly⟩ := hunfreeze 15 frozenRingPort (by decide) (by decide)
  have hring : t.ring = frozenRingPort.ring := honly .ring (by decide)
  obtain ⟨hbefore, hafter⟩ := acyUsed_arbUnfreeze_frozenRingPort
  rw [← ring_of_exec_arbUnfreeze ht, hring, hbefore] at hafter
  exact absurd hafter (by decide)

end Sys2Proof.Machine

/-! PROOF. CrossingsAndAbsentUnits: what each access to a crossing, a quarantined block, a register of another size, no unit or no
address leaves behind, and O2. -/

namespace Sys2Proof.Machine

/-- A command whose meaning is one event on a state with no new event completes with that event. -/
theorem run_of_event {c d : Nat} {f : State → State} {s u : State} (hx : f s = event c d u) (hq : quiet s u)
    (ht : u.time = s.time) : run f s = .next (event c d u) ∧ logged c d s (event c d u) := by
  have hl : logged c d s (event c d u) := logged_event hq ht
  exact ⟨by rw [run, hx, settle_logged hl], hl⟩

/-! ### Crossings (R55 to R58) -/

/-- The access of CROSSING_ACCESS waits, and the receiver has its pulses, at most 255. -/
def crossed (id sl dom pulses : Nat) (s : State) : State :=
  onChip (fun c => { c with
    xPend := c.xPend ++ [{ who := id, sl := sl, dom := dom }],
    xPulses := updAt c.xPulses dom (fun _ => min 255 pulses) }) s

theorem crossingAccess_of_le {id sl dom pulses : Nat} {s : State} (h : pulses ≤ 255) :
    crossingAccess id sl dom pulses s = crossed id sl dom pulses s := by
  simp [crossingAccess, crossed, h]

theorem crossingAccess_of_lt {id sl dom pulses : Nat} {s : State} (h : 255 < pulses) (hi : id ≠ 34) :
    crossingAccess id sl dom pulses s =
      event 0x0121 0 (onChip (fun c => { c with xOvf := true, xOvfDom := dom }) (crossed id sl dom pulses s)) := by
  simp [crossingAccess, crossed, Nat.not_le.2 h, safId, hi]

/-- The pulses of a domain after an access. -/
theorem nth_xPulses_crossed (id sl pulses : Nat) {dom : Nat} {s : State} (h : dom < s.chip.xPulses.length) :
    nth (crossed id sl dom pulses s).chip.xPulses dom = min 255 pulses := nth_updAt_self _ _ _ h

/-- A requester with an access that waits has a first one. -/
theorem xPending_of_mem {s : State} {id : Nat} (h : ∃ x ∈ s.chip.xPend, x.who = id) : ∃ x, xPending s id = some x := by
  obtain ⟨x, hx, hid⟩ := h
  exact Option.isSome_iff_exists.1 (List.find?_isSome.2 ⟨x, hx, by simp [hid]⟩)

theorem who_of_xPending {s : State} {id : Nat} {x : XAccess} (h : xPending s id = some x) : x.who = id := by
  simpa using List.find?_some h

theorem mem_of_xPending {s : State} {id : Nat} {x : XAccess} (h : xPending s id = some x) : x ∈ s.chip.xPend :=
  List.mem_of_find?_eq_some h

/-- An access that ends leaves the list of those that wait. -/
theorem length_xFinish {s : State} {id : Nat} {x : XAccess} (h : xPending s id = some x) :
    (xFinish id s).chip.xPend.length + 1 = s.chip.xPend.length := by
  have hm : x ∈ s.chip.xPend := mem_of_xPending h
  have hl : (s.chip.xPend.eraseP (fun x => x.who == id)).length = s.chip.xPend.length - 1 :=
    List.length_eraseP_of_mem hm (by simp [who_of_xPending h])
  have hpos := List.length_pos_of_mem hm
  rw [xFinish, onChip_chip, hl]
  omega

theorem crossingResponse_ok {s : State} {id : Nat} {v : Word} {x : XAccess} (h : xPending s id = some x) :
    crossingResponse id v .ok s = answer v (xFinish id s) := by
  simp [crossingResponse, h]

theorem crossingResponse_corrected {s : State} {id : Nat} {v : Word} {x : XAccess} (h : xPending s id = some x) (hd : x.dom = 1) :
    crossingResponse id v .corrected s =
      event 0x0142 0 (answer v (onChip (fun c => { c with dramCe := c.dramCe + 1 }) (xFinish id s))) := by
  simp only [crossingResponse, h, hd]
  rfl

/-- From id 37 on a requester has no slice, and is not the trajectory generator (R449). -/
theorem requesterOf_of_ge {id : Nat} (sl : Nat) (h : 37 ≤ id) :
    requesterOf id sl = .other ∨ ∃ u, u ≠ .generator ∧ requesterOf id sl = .unit u := by
  have hn (k : Nat) (hk : k ≤ 37) : ¬ id < k := by omega
  simp only [requesterOf, hn, Nat.reduceLeDiff, if_false]
  split_ifs <;> simp

/-- A core, and a requester from id 37 on, has no class of a slice fault (R47). -/
theorem requesterClass_of_no_slice {id sl code : Nat} {s : State} (h : id < 8 ∨ 37 ≤ id) : requesterClass id sl code s = s := by
  obtain h | h := h
  · simp [requesterClass, requesterOf, h]
  · obtain he | ⟨u, hu, he⟩ := requesterOf_of_ge sl h
    · simp only [requesterClass, he]
    · cases u <;> simp_all [requesterClass]

theorem crossingWatchdog_of_no_slice {s : State} {id : Nat} {x : XAccess} (h : xPending s id = some x) (hi : id < 8 ∨ 37 ≤ id) :
    crossingWatchdog id s =
      event 0x0120 0 (onChip (fun c => { c with xHang := satAdd 0xFFFF c.xHang 1 }) (errorToken (xFinish id s))) := by
  simp only [crossingWatchdog, h, hangAccess, who_of_xPending h, requesterClass_of_no_slice hi]

/-! ### Accesses that reach no register (R3, R11, R44, R444) -/

theorem quarantinedAccess_of_quar {r : Region} {b : Nat} {s : State} (h : hasBit (regSt s r).quar b = true) :
    quarantinedAccess r b s = event (256 * r.id + 0xE3) 0 (errorToken s) := if_pos h

/-- The load or store of a byte or halfword by an issuer that runs no tick-locked item does not escape. -/
theorem accessSizeError_reg {w : Who} {a : Word} {half : Bool} {v : Option (BitVec 16)} {r : Region} {o : Nat} {s : State}
    (hf : tlFlow s w = none) (ht : target (coreOf w) s a.toNat = .reg r o) :
    accessSizeError w a half v s = event 0x0102 0 (errorToken s) := by
  cases v <;> simp [accessSizeError, tlEscape, tlLoadEscape, hf, ht]

theorem accessSizeError_mem {w : Who} {a : Word} {half : Bool} {v : BitVec 16} {m : Nat} {s : State}
    (hf : tlFlow s w = none) (ht : target (coreOf w) s a.toNat = .mem m) (hd : dmaOk m = true) :
    accessSizeError w a half (some v) s =
      acked { s with mem := memWrites s.mem m (leBytes (if half then 2 else 1) v.toNat) } := by
  simp [accessSizeError, tlEscape, tlLoadEscape, hf, ht, hd]

theorem decodeError_dma {a : Nat} {s : State} (h : ¬ (a < 0x200000000 ∨ 0x8000000000 ≤ a ∧ a < 0x8000800000)) :
    decodeError a true s = event 0x0103 0 (errorToken s) := by
  have hd : dmaOk a = false := by
    rw [Bool.eq_false_iff]
    exact fun hc => h (by simpa [dmaOk] using hc)
  simp [decodeError, hd]

theorem decodeError_core {a : Nat} {s : State} (hlo : 0x20000 ≤ a) (hhi : a < 0x10000000) :
    decodeError a false s = event 0x0103 0 (errorToken s) := by
  have hu : coreUnmapped (a % 2 ^ 32) = true := by
    rw [Nat.mod_eq_of_lt (by omega)]
    simp [coreUnmapped, hlo, hhi]
  rw [decodeError, if_neg Bool.false_ne_true, if_pos hu]

theorem absentUnitAccess_of_absent {a : Word} {w : Bool} {s : State} (h : target none s a.toNat = .absent) :
    absentUnitAccess a w s = absentAccess w s := if_pos h

/-- A command whose meaning is an error token and one event completes with them. -/
theorem exec_token {i : Instr} {f : State → State} {c d : Nat} {s : State} (hi : exec i s = run f s)
    (hx : f s = event c d (errorToken s)) :
    ∃ t, exec i s = .next t ∧ t.chip.resp = .errorToken ∧ logged c d s t ∧ only [.chip] s t := by
  obtain ⟨hrun, hl⟩ := run_of_event hx ⟨rfl, rfl, rfl⟩ rfl
  exact ⟨_, hi.trans hrun, rfl, hl, mk_only_chip ⟨_, rfl⟩⟩

/-- An access to an absent unit completes with its answer and CHIP_ABSENT (R3). -/
theorem exec_absentUnitAccess {a : Word} {w : Bool} {s : State} (h : target none s a.toNat = .absent) :
    ∃ t, exec (.absentUnitAccess a w) s = .next t ∧ t.chip.resp = (if w then .done else .value 0) ∧ logged 0x0101 0 s t ∧
      only [.chip] s t := by
  have hx : absentUnitAccess a w s = event 0x0101 0 (if w then acked s else answer 0 s) := absentUnitAccess_of_absent h
  obtain ⟨hrun, hl⟩ := run_of_event hx (by cases w <;> exact ⟨rfl, rfl, rfl⟩) (by cases w <;> rfl)
  exact ⟨_, hrun, by cases w <;> rfl, hl, by simp⟩

/-- Settles O2: each access is one equation for the state that it leaves, off which the clause is read. -/
theorem crossingsAndAbsentUnits : Obligations.CrossingsAndAbsentUnits := by
  refine ⟨fun id sl dom pulses s h => ?_, fun id sl dom pulses s h hi => ?_, fun id v s h => ?_, fun id v x s h hd => ?_,
    fun id s h hi => ?_, fun id dom s => run_of_unchanged rfl, fun r b s h => exec_token rfl (quarantinedAccess_of_quar h),
    fun w a half v r o s hf ht => exec_token rfl (accessSizeError_reg hf ht), fun w a half v m s hf ht hd => ?_,
    fun a s h => exec_token rfl (decodeError_dma h), fun a s hlo hhi => exec_token rfl (decodeError_core hlo hhi),
    fun a s h => exec_absentUnitAccess h, fun a s h => exec_absentUnitAccess h⟩
  · have hq : quiet s (crossed id sl dom pulses s) := ⟨rfl, rfl, rfl⟩
    exact ⟨_, run_of_quiet (crossingAccess_of_le h) hq, rfl,
      fun hd => (nth_xPulses_crossed id sl pulses hd).trans (Nat.min_eq_right h), rfl, hq, mk_only_chip ⟨_, rfl⟩⟩
  · obtain ⟨hrun, hl⟩ := run_of_event (crossingAccess_of_lt (sl := sl) (dom := dom) h hi) ⟨rfl, rfl, rfl⟩ rfl
    exact ⟨_, hrun, fun hd => (nth_xPulses_crossed id sl pulses hd).trans (Nat.min_eq_left h.le), rfl, rfl, hl,
      mk_only_chip ⟨_, rfl⟩⟩
  · obtain ⟨x, hx⟩ := xPending_of_mem h
    have hq : quiet s (answer v (xFinish id s)) := ⟨rfl, rfl, rfl⟩
    exact ⟨_, run_of_quiet (crossingResponse_ok hx) hq, rfl, length_xFinish hx, hq, mk_only_chip ⟨_, rfl⟩⟩
  · obtain ⟨hrun, hl⟩ := run_of_event (crossingResponse_corrected h hd) ⟨rfl, rfl, rfl⟩ rfl
    exact ⟨_, hrun, rfl, rfl, hl, mk_only_chip ⟨_, rfl⟩⟩
  · obtain ⟨x, hx⟩ := xPending_of_mem h
    obtain ⟨hrun, hl⟩ := run_of_event (crossingWatchdog_of_no_slice hx hi) ⟨rfl, rfl, rfl⟩ rfl
    exact ⟨_, hrun, rfl, length_xFinish hx, rfl, hl, mk_only_chip ⟨_, rfl⟩⟩
  · have hq : quiet s (acked { s with mem := memWrites s.mem m (leBytes (if half then 2 else 1) v.toNat) }) := ⟨rfl, rfl, rfl⟩
    exact ⟨_, run_of_quiet (accessSizeError_mem hf ht hd) hq, rfl, rfl, hq, only_acked_mem s _⟩

end Sys2Proof.Machine

/-! PROOF. Prunes: how a Prune of firmware starts and ends, what it takes out of service target by target, and O38. -/

namespace Sys2Proof.Machine

/-! ### The Prune at the head of the list (R63, R64) -/

/-- The device with one Prune, the one that runs. -/
def pruning (p : PruneSt) (s : State) : State := onChip (fun c => { c with prunes := [p] }) s

/-- The device after firmware's Prune of a kind has ended: PRUNESTAT has its result and its time, and none runs. -/
def pruned (kind result elapsed : Nat) (s : State) : State :=
  onChip (fun c => { c with prunes := [], pruneResult := result, pruneKind := kind, pruneElapsed := elapsed }) s

theorem requestPrune_of_idle {p : PruneSt} {s : State} (h : s.chip.prunes = []) :
    requestPrune p s = startPrunes 1 (pruning p s) := by
  have hl : onChip (fun c => { c with prunes := c.prunes ++ [p] }) s = pruning p s := by
    simp only [pruning, onChip, h, List.nil_append]
  rw [requestPrune]
  simp only [hl, h]
  exact if_pos rfl

theorem firmwarePrune_of_idle {k r i : Nat} {s : State} (h : s.chip.prunes = []) :
    firmwarePrune k r i s = acked (startPrunes 1 (pruning { kind := k, region := r, index := i } s)) := by
  have hb : pruneBusy s = false := by simp [pruneBusy, h]
  rw [firmwarePrune, hb, if_neg Bool.false_ne_true, requestPrune_of_idle h]

/-- A Prune that has found its target runs. -/
theorem startPrunes_of_found {p : PruneSt} {s u : State} (hp : p.result = 0) (hx : pruneAct p (pruning p s) = (0, u)) :
    startPrunes 1 (pruning p s) = pruning p u := by
  have hl : (pruning p s).chip.prunes = [p] := rfl
  have hr : { p with result := 0 } = p := by rw [← hp]
  simp only [startPrunes, hl, hx, hr, if_true]
  rfl

/-- A Prune with nothing to prune, or refused, ends at once. -/
theorem startPrunes_of_ended {p : PruneSt} {s u : State} {r : Nat} (hs : p.signed = false) (hr : r ≠ 0)
    (hx : pruneAct p (pruning p s) = (r, u)) :
    ∃ e, startPrunes 1 (pruning p s) = pruned p.kind r e { u with free := u.free + 1 } := by
  have hl : (pruning p s).chip.prunes = [p] := rfl
  simp only [startPrunes, hl, hx, hr, if_false, pruneEnd, hs]
  exact ⟨_, rfl⟩

@[simp] theorem settle_prunes (s t : State) : (settle s t).chip.prunes = t.chip.prunes := by rw [settle_chip]
@[simp] theorem settle_resp (s t : State) : (settle s t).chip.resp = t.chip.resp := by rw [settle_chip]

@[simp] theorem only_pruning {ps : List Part} {p : PruneSt} {s t : State} (h : .chip ∈ ps) :
    only ps s (pruning p t) ↔ only ps s t := only_onChip h
@[simp] theorem only_pruned {ps : List Part} {k r e : Nat} {s t : State} (h : .chip ∈ ps) :
    only ps s (pruned k r e t) ↔ only ps s t := only_onChip h

/-- Firmware's Prune that has found its target runs when the command completes. -/
theorem run_firmwarePrune_of_found {k r i : Nat} {s u : State} (h : s.chip.prunes = [])
    (hx : pruneAct { kind := k, region := r, index := i } (pruning { kind := k, region := r, index := i } s) = (0, u)) :
    ∃ t, run (firmwarePrune k r i) s = .next t ∧ t = settle s (acked (pruning { kind := k, region := r, index := i } u)) ∧
      t.chip.prunes = [{ kind := k, region := r, index := i }] ∧ t.chip.resp = .done := by
  refine ⟨_, rfl, ?_, ?_, ?_⟩ <;> rw [firmwarePrune_of_idle h, startPrunes_of_found rfl hx]
  · exact settle_prunes ..
  · exact settle_resp ..

/-- Without an event it completes with its effect on the target. -/
theorem run_firmwarePrune_of_found_quiet {k r i : Nat} {s u : State} (h : s.chip.prunes = [])
    (hx : pruneAct { kind := k, region := r, index := i } (pruning { kind := k, region := r, index := i } s) = (0, u))
    (hq : quiet s u) : run (firmwarePrune k r i) s = .next (acked (pruning { kind := k, region := r, index := i } u)) :=
  run_of_quiet ((firmwarePrune_of_idle h).trans (congrArg acked (startPrunes_of_found rfl hx))) hq

/-- Firmware's Prune that ends at once without an event leaves its result, and the Prune list empty. -/
theorem run_firmwarePrune_of_ended {k r i res : Nat} {s : State} (h : s.chip.prunes = []) (hr : res ≠ 0)
    (hx : pruneAct { kind := k, region := r, index := i } (pruning { kind := k, region := r, index := i } s) =
      (res, pruning { kind := k, region := r, index := i } s)) :
    ∃ t, run (firmwarePrune k r i) s = .next t ∧ t.chip.pruneResult = res ∧ t.chip.pruneKind = k ∧ t.chip.prunes = [] ∧
      t.chip.resp = .done ∧ quiet s t ∧ only [.chip, .free] s t := by
  obtain ⟨e, he⟩ := startPrunes_of_ended rfl hr hx
  have hq : quiet s (acked (pruned k res e { pruning { kind := k, region := r, index := i } s with free := s.free + 1 })) :=
    ⟨rfl, rfl, rfl⟩
  refine ⟨_, run_of_quiet ((firmwarePrune_of_idle h).trans (congrArg acked he)) hq, rfl, rfl, rfl, rfl, hq, ?_⟩
  rw [only_acked (by decide), only_pruned (by decide), only_free (by decide), only_pruning (by decide)]
  exact only_refl _ s

/-! ### What a Prune finds (R60, R62, R264) -/

theorem pruneJob_of_waiting {p : Nat} {s : State} (hs : hasSolTrl s = true) (ho : (probCfg s p).op ≠ 0)
    (hj : (probSt s p).job = .waiting) :
    pruneJob p s = (0, markNext 3 (probGroups s p) (onProb p (fun x => { x with
      pruned := true, warm := none, job := (if x.job = .waiting then .gone else x.job) }) s)) := by
  simp [pruneJob, hs, ho, hj]

theorem pruneJob_of_none {p : Nat} {s : State} (hs : hasSolTrl s = true) (hj : (probSt s p).job = .none) :
    pruneJob p s = (1, s) := by
  simp [pruneJob, hs, hj]

theorem pruneBatch_of_waiting {b : Nat} {s : State} (hs : hasSolTrl s = true) (hb : b < s.trl.batches.length)
    (hn : nth s.trl.batches b = (false, false)) :
    ∃ m, pruneBatch b s =
      (0, mark 3 m { s with trl := { s.trl with batches := updAt s.trl.batches b (fun _ => (false, true)) } }) := by
  simp only [pruneBatch, hs, hn, Nat.not_le.2 hb]
  exact ⟨_, rfl⟩

theorem pruneAccess_of_waiting {id : Nat} {s : State} {a : XAccess} (hr : requesterAbsent s id = false)
    (ha : xPending s id = some a) : pruneAccess id s = (0, s) := by
  simp [pruneAccess, hr, ha]

theorem pruneQueue_of_lt {q : Nat} {s : State} (h : q < 8) :
    pruneQueue q s = (0, onPort (q / 2) (fun x => if q % 2 = 0 then { x with fwd := [] } else { x with dev := [] }) s) := by
  simp [pruneQueue, Nat.not_le.2 h]

theorem pruneWhole_of_unsigned {id : Nat} {s : State} : pruneWhole false id s = (2, event 0x0130 0 s) := by
  simp [pruneWhole, pruneRefused]

theorem pruneWhole_of_region {id : Nat} {r : Region} {s : State} (hc : s.image.compat = false) (hid : Region.ofId id = some r)
    (h1 : r ≠ .chip) (h2 : r ≠ .saf) (h3 : r ≠ .time) (hn : regionNeeded s r = false) (ha : regionAbsent s r = false)
    (hp : (regSt s r).pruned = false) : pruneWhole true id s = (0, stopRegion r s) := by
  simp only [pruneWhole, hc, hid]
  cases r <;> simp_all

theorem pruneAct_of_invalid {p : PruneSt} {s : State} (h : p.kind = 0 ∨ 8 ≤ p.kind) : pruneAct p s = (2, s) := by
  unfold pruneAct
  split <;> simp_all

/-! ### Items and flows that leave service -/

@[simp] theorem eventOnce_host (c k d : Nat) (s : State) : (eventOnce c k d s).host = s.host := by
  unfold eventOnce
  split <;> rfl

/-- A record of the scheduling trace changes nothing of HOST but the trace. -/
theorem trace_host (k f handle core result info dl : Nat) (s : State) : ∃ l n,
    (trace k f handle core result info dl s).host = { s.host with trace := l, traceLost := n } := by
  simp only [trace, apply_ite State.host, eventOnce_host, onChip_host, onHost_host]
  split_ifs <;> exact ⟨_, _, rfl⟩

section
variable {ps : List Part} {s t : State} {k f handle core result info dl : Nat}

@[simp] theorem trace_items : (trace k f handle core result info dl s).host.items = s.host.items := by
  obtain ⟨l, n, h⟩ := trace_host k f handle core result info dl s
  rw [h]
@[simp] theorem trace_cores : (trace k f handle core result info dl s).host.cores = s.host.cores := by
  obtain ⟨l, n, h⟩ := trace_host k f handle core result info dl s
  rw [h]
@[simp] theorem trace_flows : (trace k f handle core result info dl s).host.flows = s.host.flows := by
  obtain ⟨l, n, h⟩ := trace_host k f handle core result info dl s
  rw [h]

@[simp] theorem only_eventOnce {c d : Nat} (h : .chip ∈ ps) : only ps s (eventOnce c k d t) ↔ only ps s t := by
  simp [eventOnce, h]
@[simp] theorem only_trace (hc : .chip ∈ ps) (hh : .host ∈ ps) :
    only ps s (trace k f handle core result info dl t) ↔ only ps s t := by
  simp [trace, hc, hh]
@[simp] theorem only_removeItem (hc : .chip ∈ ps) (hh : .host ∈ ps) : only ps s (removeItem handle result t) ↔ only ps s t := by
  unfold removeItem
  split <;> simp [hc, hh]
@[simp] theorem only_disableFlow (hc : .chip ∈ ps) (hh : .host ∈ ps) : only ps s (disableFlow f t) ↔ only ps s t := by
  simp [disableFlow, hc, hh]

end

theorem coreOfHandle_congr {s t : State} (h : t.host.cores = s.host.cores) (n : Nat) : coreOfHandle t n = coreOfHandle s n := by
  simp only [coreOfHandle, coreSt, h]

/-- An item that is removed no longer waits; the others do. -/
@[simp] theorem removeItem_items (h r : Nat) (s : State) :
    (removeItem h r s).host.items = s.host.items.filter (fun j => j.handle != h) := by
  unfold removeItem
  split
  · rw [trace_items]; rfl
  · rename_i hn
    refine (List.filter_eq_self.2 fun j hj => ?_).symm
    simpa using List.find?_eq_none.1 hn j hj

@[simp] theorem removeItem_flows (h r : Nat) (s : State) : (removeItem h r s).host.flows = s.host.flows := by
  unfold removeItem
  split
  · rw [trace_flows]; rfl
  · rfl

/-- A pending item that a Prune finds leaves the list of those that wait. -/
theorem pruneItem_of_pending {h : Nat} {i : Item} {s : State} (hi : s.host.items.find? (fun j => j.handle == h) = some i)
    (hc : coreOfHandle s h = none) :
    pruneItem h s = (0, markNext 3 (flowGroups s i.flow) (removeItem h 1 (trace 7 i.flow h 255 0 0 i.deadline s))) := by
  have ht : coreOfHandle (trace 7 i.flow h 255 0 0 i.deadline s) h = none := (coreOfHandle_congr trace_cores h).trans hc
  simp [pruneItem, itemOf, hi, hc, endHandle, ht]

/-- From s to t flow f has been disabled and has no item that waits. -/
structure FlowGone (f : Nat) (s t : State) : Prop where
  only : only [.chip, .time, .host] s t
  en : (flowSt t f).en = false
  items : ∀ i ∈ t.host.items, i.flow ≠ f

/-- The items of a list of handles are removed. -/
theorem mem_forAll_removeItem {hs : List Nat} {r : Nat} {s : State} {j : Item}
    (hj : j ∈ (forAll hs (fun h t => removeItem h r t) s).host.items) : j ∈ s.host.items ∧ j.handle ∉ hs := by
  induction hs generalizing s with
  | nil => exact ⟨hj, List.not_mem_nil⟩
  | cons h hs ih =>
    obtain ⟨hm, hn⟩ := ih (s := removeItem h r s) hj
    rw [removeItem_items, List.mem_filter] at hm
    exact ⟨hm.1, by simpa [hn] using hm.2⟩

theorem disableFlow_en {f : Nat} {s : State} (h : f < s.host.flows.length) : (flowSt (disableFlow f s) f).en = false := by
  simp [flowSt, disableFlow, h]

/-- A flow that is disabled and whose items are removed one by one has none left. -/
theorem flowGone_removeItems {f : Nat} {s : State} (h : f < s.host.flows.length) :
    FlowGone f s (forAll ((pendOf (disableFlow f s) f).map (fun i => i.handle)) (fun h t => removeItem h 1 t) (disableFlow f s)) := by
  refine ⟨(only_forAll fun h t => by simp).2 (by simp), ?_, fun i hi hf => ?_⟩
  · rw [flowSt, forAll_same (P := fun t => t.host.flows) (fun h t => removeItem_flows h 1 t)]
    exact disableFlow_en h
  · obtain ⟨hm, hn⟩ := mem_forAll_removeItem hi
    exact hn (List.mem_map_of_mem (List.mem_filter.2 ⟨hm, by simpa using hf⟩))

/-- The end of an item of a flow that no queue feeds: its core is idle, its run figures are noted, and no new item comes. -/
theorem endItem_of_unbound {c r now : Nat} {s : State} {i : Item} (hi : (coreSt s c).item = some i)
    (ht : (flowCfg s i.flow).type ≠ 3) :
    endItem c r now s = trace 4 i.flow i.handle c r ((now - (coreSt s c).started) / 8) i.deadline
      (noteRun i.flow (now - (coreSt s c).started) (onCore c (fun k => { k with item := none, mtvec := false }) s)) := by
  simp only [endItem, hi, flowCfg, keep_image (trace_keep ..), noteRun, onFlow_image, onCore_image]
  exact if_neg (by simpa [flowCfg] using fun h => absurd h ht)

theorem noteRun_en (f g run : Nat) (s : State) : (flowSt (noteRun g run s) f).en = (flowSt s f).en := by
  simp only [flowSt, noteRun, onFlow_host, nth_updAt]
  split
  · rename_i h; rw [h.1]
  · rfl

theorem FlowGone.endItem {f c now : Nat} {s t : State} {i : Item} (h : FlowGone f s t) (hi : (coreSt t c).item = some i)
    (ht : (flowCfg s i.flow).type ≠ 3) : FlowGone f s (endItem c 1 now t) := by
  obtain ⟨honly, hen, hitems⟩ := h
  have himage : t.image = s.image := honly .image (by decide)
  rw [endItem_of_unbound hi (by rwa [flowCfg, himage])]
  refine ⟨by simpa [noteRun] using honly, ?_, ?_⟩
  · rw [flowSt, trace_flows]
    exact (noteRun_en f _ _ _).trans hen
  · rw [trace_items]
    exact hitems

theorem FlowGone.markNext {f n : Nat} {m : Mask} {s t : State} (h : FlowGone f s t) : FlowGone f s (markNext n m t) :=
  ⟨(only_markNext (by decide)).2 h.only, h.en, h.items⟩

/-- A flow of ordinary items that a Prune finds is disabled, and its items are gone. -/
theorem pruneFlowAct_of_ordinary {f : Nat} {s : State} (hf : f < s.host.flows.length) (ht : (flowCfg s f).type = 1) :
    ∃ u, pruneFlowAct f s = (0, u) ∧ FlowGone f s u := by
  have hn : (flowCfg s f).type ≠ 0 := by simp [ht]
  rw [pruneFlowAct, if_neg hn]
  refine ⟨_, rfl, ?_⟩
  have hend : FlowGone f s (forAll (List.range 8) (fun c t =>
      match (coreSt t c).item with
      | some i => if i.flow = f then endItem c 1 t.time.tb t else t
      | none => t) (forAll ((pendOf (disableFlow f s) f).map (fun i => i.handle)) (fun h t => removeItem h 1 t) (disableFlow f s))) := by
    refine forAll_preserves (P := FlowGone f s) (fun c t h => ?_) _ (flowGone_removeItems hf)
    split
    · rename_i i hi
      split
      · rename_i he
        exact h.endItem hi (by rw [he, ht]; decide)
      · exact h
    · exact h
  split
  · exact hend.markNext
  · exact hend

/-! ### A region that stops (R60, R61) -/

/-- The accesses of a region end at the chip level, without an event. -/
theorem endAccesses_eq (r : Region) (s : State) : ∃ l a,
    endAccesses r s = onChip (fun c => { c with xPend := l, resp := a }) s := by
  unfold endAccesses
  split
  · exact ⟨_, _, rfl⟩
  · exact ⟨s.chip.xPend, s.chip.resp, rfl⟩

/-- What a region that is stopped leaves behind: it is marked, its rings are down, HOST has no item, and no event was raised. -/
structure Stopped (r : Region) (s t : State) : Prop where
  regions : t.regions = updAt s.regions r.id (fun x => { x with pruned := true })
  ring : r = .ring → ∀ k, k < s.ring.length → (ringSt t k).state = .down
  host : r = .host → t.host.items = []
  quiet : quiet s t

theorem stopped_stopRegion (r : Region) (s : State) : Stopped r s (stopRegion r s) := by
  obtain ⟨l, a, h⟩ := endAccesses_eq r (onRegion r (fun x => { x with pruned := true }) s)
  unfold stopRegion
  rw [h]
  cases r with
  | ring => exact ⟨rfl, fun _ k hk => by simp [ringSt, nth_map _ _ _ hk], nofun, rfl, rfl, rfl⟩
  | host => exact ⟨rfl, nofun, fun _ => rfl, rfl, rfl, rfl⟩
  | _ => exact ⟨rfl, nofun, nofun, rfl, rfl, rfl⟩

/-! ### The end of a Prune (R59, R60, R63) -/

theorem schedule_of_no_items {now : Nat} {s : State} (h : s.host.items = []) : schedule now s = s := by
  simp [schedule, scheduleN, h, chooseItem]

theorem startRestart_of_none {s : State} (h : s.chip.rrst = []) : startRestart s = s := by simp [startRestart, h]

/-- The only Prune ends, and it was firmware's: PRUNESTAT has its result, and nothing follows where no item and no restart waits. -/
theorem pruneComplete_of_lone {p : PruneSt} {n : Nat} {b : Bool} {s u : State} (hp : s.chip.prunes = [p]) (hs : p.signed = false)
    (hu : endPrunedAccess p b (endPrunedJob p s) = u) (hi : u.host.items = []) (hr : u.chip.rrst = []) :
    startRestart (pruneComplete false n b s) = pruned p.kind p.result (min 0xFFFF n) u := by
  have hend : pruneEnd p n (onChip (fun c => { c with prunes := [] }) u) = pruned p.kind p.result (min 0xFFFF n) u := by
    rw [pruneEnd, hs]
    rfl
  have hx : pruneComplete false n b s = schedule u.time.tb (pruned p.kind p.result (min 0xFFFF n) u) := by
    simp only [pruneComplete, hp, hs, bne_self_eq_false, Bool.false_eq_true, if_false, hu, List.filter_nil, List.map_nil, forAll,
      List.foldl_cons, List.foldl_nil, hend]
    rfl
  rw [hx, schedule_of_no_items (s := pruned p.kind p.result (min 0xFFFF n) u) hi, startRestart_of_none (by exact hr)]

theorem endPrunedJob_of_ne {p : PruneSt} {s : State} (h : p.kind ≠ 1) : endPrunedJob p s = s := by simp [endPrunedJob, h]

theorem endPrunedAccess_of_ne {p : PruneSt} {b : Bool} {s : State} (h : p.kind ≠ 5) : endPrunedAccess p b s = s := by
  simp [endPrunedAccess, h]

theorem endPrunedAccess_of_pending {p : PruneSt} {b : Bool} {s : State} {a : XAccess} (h : p.kind = 5)
    (ha : xPending s p.index = some a) :
    endPrunedAccess p b s = if b then hangAccess a s else errorToken (xFinish p.index s) := by
  simp only [endPrunedAccess, h, ha, who_of_xPending ha]
  rfl

@[simp] theorem requesterClass_service (id sl code : Nat) (s : State) : (requesterClass id sl code s).service = s.service := by
  unfold requesterClass
  split <;> simp

@[simp] theorem only_requesterClass {ps : List Part} {id sl code : Nat} {s t : State} (h : escalateParts ⊆ ps) :
    only ps s (requesterClass id sl code t) ↔ only ps s t := by
  have hp {p : Part} (hp : p ∈ escalateParts) : p ∈ ps := h hp
  have hc := hp (p := .chip) (by decide)
  have hr := hp (p := .recd) (by decide)
  have hs := hp (p := .saf) (by decide)
  unfold requesterClass
  split <;> simp [h, hc, hr, hs]

/-- The access that the watchdog ends leaves the list of those that wait, with an error token, and is counted (R57). -/
theorem hangAccess_chip (x : XAccess) (s : State) :
    (hangAccess x s).chip.xPend = s.chip.xPend.eraseP (fun y => y.who == x.who) ∧
      (hangAccess x s).chip.xHang = satAdd 0xFFFF s.chip.xHang 1 ∧ (hangAccess x s).chip.resp = .errorToken ∧
      (hangAccess x s).chip.rrst = s.chip.rrst := by
  have h : (hangAccess x s).service = _ := requesterClass_service ..
  simpa [State.service, xFinish, event, errorToken] using h

theorem hangAccess_items (x : XAccess) (s : State) : (hangAccess x s).host.items = s.host.items := by
  have h : only (.chip :: escalateParts) s (hangAccess x s) := by simp [hangAccess, xFinish]
  exact congrArg HostSt.items (h .host (by decide))

/-- Firmware's Prune that is refused with an event leaves its result, and the Prune list empty. -/
theorem run_firmwarePrune_of_refused {k r i res c d : Nat} {s : State} (h : s.chip.prunes = []) (hr : res ≠ 0)
    (hx : pruneAct { kind := k, region := r, index := i } (pruning { kind := k, region := r, index := i } s) =
      (res, event c d (pruning { kind := k, region := r, index := i } s))) :
    ∃ t, run (firmwarePrune k r i) s = .next t ∧ t.chip.pruneResult = res ∧ t.chip.pruneKind = k ∧ t.chip.prunes = [] ∧
      logged c d s t ∧ only [.chip, .free] s t := by
  obtain ⟨e, he⟩ := startPrunes_of_ended rfl hr hx
  have hl : logged c d s
      (acked (pruned k res e { event c d (pruning { kind := k, region := r, index := i } s) with free := s.free + 1 })) :=
    ⟨rfl, rfl, rfl⟩
  have ht := (firmwarePrune_of_idle h).trans (congrArg acked he)
  refine ⟨_, by rw [run, ht]; exact congrArg Host.Outcome.next (settle_logged hl), rfl, rfl, rfl, hl, ?_⟩
  rw [only_acked (by decide), only_pruned (by decide), only_free (by decide), only_event (by decide), only_pruning (by decide)]
  exact only_refl _ s

/-- While firmware's Prune runs or waits another one is discarded (R63). -/
theorem run_firmwarePrune_of_busy {k r i : Nat} {s : State} {p : PruneSt} (hp : p ∈ s.chip.prunes) (hs : p.signed = false) :
    ∃ t, run (firmwarePrune k r i) s = .next t ∧ t.chip.prunes = s.chip.prunes ∧ t.chip.resp = .done ∧ logged 0x0131 0 s t ∧
      only [.chip] s t := by
  have hb : pruneBusy s = true := List.any_eq_true.2 ⟨p, hp, by simp [hs]⟩
  have hx : firmwarePrune k r i s = event 0x0131 0 (acked s) := by rw [firmwarePrune, hb]; rfl
  obtain ⟨hrun, hl⟩ := run_of_event hx ⟨rfl, rfl, rfl⟩ rfl
  exact ⟨_, hrun, rfl, rfl, hl, mk_only_chip ⟨_, rfl⟩⟩

/-- Settles O38: the target that a Prune of firmware finds is one equation for each kind; the Prune then stands at the head of the
list, or ends at once with its result. -/
theorem prunes : Obligations.Prunes := by
  refine ⟨fun p s h hs hp ho hj => ?_, fun p s h hs hj => run_firmwarePrune_of_ended h (by decide) (pruneJob_of_none hs hj),
    fun b s h hs hb hn => ?_, fun n i s h hi hc => ?_, fun f s h hf ht => ?_, fun id a s h hr ha => ?_, fun q s h hq hp => ?_,
    fun id r s h hc hid h1 h2 h3 hn ha hp hr => ?_, fun id s h => ?_, fun k s h hk => ?_, fun n s p i hp hs hi => ?_,
    fun n b p s h hs h1 h5 hr hi => ?_, fun n p a s h hs hk hr hi ha => ⟨?_, ?_⟩⟩
  · have hx := pruneJob_of_waiting (s := pruning { kind := 1, index := p } s) hs ho hj
    refine ⟨_, run_firmwarePrune_of_found_quiet h hx ⟨rfl, rfl, rfl⟩, ?_, rfl, rfl, onlyAt_updAt _ _ _, ⟨rfl, rfl, rfl⟩,
      by simp⟩
    refine (nth_updAt_self _ _ _ hp).trans ?_
    have hj' : (nth s.sol.probs p).job = .waiting := hj
    simp [probSt, hj']
  · obtain ⟨m, hx⟩ := pruneBatch_of_waiting (s := pruning { kind := 2, index := b } s) hs hb hn
    refine ⟨_, run_firmwarePrune_of_found_quiet h hx ⟨rfl, rfl, rfl⟩, nth_updAt_self _ _ _ hb, rfl, rfl, onlyAt_updAt _ _ _,
      ⟨rfl, rfl, rfl⟩, ?_⟩
    rw [only_acked (by decide), only_pruning (by decide), only_mark (by decide), only_trl (by decide), only_pruning (by decide)]
    exact only_refl _ s
  · have hx := pruneItem_of_pending (s := pruning { kind := 3, index := n } s) hi hc
    obtain ⟨t, hrun, rfl, hprunes, hresp⟩ := run_firmwarePrune_of_found (k := 3) (r := 0) (i := n) h hx
    exact ⟨_, hrun, by simp [pruning], hprunes, hresp, by simp⟩
  · obtain ⟨u, hx, honly, hen, hitems⟩ := pruneFlowAct_of_ordinary (s := pruning { kind := 4, index := f } s) hf ht
    obtain ⟨t, hrun, rfl, hprunes, hresp⟩ := run_firmwarePrune_of_found (k := 4) (r := 0) (i := f) h hx
    refine ⟨_, hrun, ?_, ?_, hprunes, hresp, ?_⟩
    · simpa [flowSt, pruning] using hen
    · simpa [pruning] using hitems
    · simpa using only_trans ((only_pruning (by decide)).2 (only_refl _ s)) honly
  · have hx := pruneAccess_of_waiting (s := pruning { kind := 5, index := id } s) hr ha
    exact ⟨_, run_firmwarePrune_of_found_quiet h hx ⟨rfl, rfl, rfl⟩, rfl, rfl, rfl, ⟨rfl, rfl, rfl⟩, by simp⟩
  · have hx := pruneQueue_of_lt (s := pruning { kind := 6, index := q } s) hq
    have hport := nth_updAt_self s.host.ports (q / 2)
      (fun x => if q % 2 = 0 then { x with fwd := [] } else { x with dev := [] }) hp
    refine ⟨_, run_firmwarePrune_of_found_quiet h hx ⟨rfl, rfl, rfl⟩, ?_, ?_, rfl, rfl, onlyAt_updAt _ _ _, ⟨rfl, rfl, rfl⟩,
      by simp⟩
    · by_cases hq2 : q % 2 = 0 <;> simp_all [pruning]
    · by_cases hq2 : q % 2 = 0 <;> simp_all [pruning]
  · have hx := pruneWhole_of_region (s := pruning { kind := 7, region := id, signed := true } s) hc hid h1 h2 h3 hn ha hp
    obtain ⟨hregions, hring, hhost, hquiet⟩ := stopped_stopRegion r (pruning { kind := 7, region := id, signed := true } s)
    have hq : quiet s (pruning { kind := 7, region := id, signed := true }
      (stopRegion r (pruning { kind := 7, region := id, signed := true } s))) := hquiet
    refine ⟨_, run_of_quiet ((requestPrune_of_idle h).trans (startPrunes_of_found rfl hx)) hq, ?_, ?_, hring, hhost, hq⟩
    · exact congrArg RegionSt.pruned ((congrArg (nth · r.id) hregions).trans (nth_updAt_self _ _ _ hr))
    · exact hregions ▸ onlyAt_updAt _ _ _
  · exact run_firmwarePrune_of_refused h (by decide) pruneWhole_of_unsigned
  · have hki : ¬ (decide (1 ≤ k % 16) && decide (k % 16 ≤ 7)) = true := by simp; omega
    have hx : (if 1 ≤ k % 16 && k % 16 ≤ 7 then s else firmwarePrune (k % 16) 0 0 s) = firmwarePrune (k % 16) 0 0 s := if_neg hki
    obtain ⟨t, hrun, hres, hkind, hprunes, -, hquiet, honly⟩ :=
      run_firmwarePrune_of_ended (k := k % 16) (r := 0) (i := 0) (res := 2) h (by decide) (pruneAct_of_invalid hk)
    exact ⟨t, (congrArg (fun t => Host.Outcome.next (settle s t)) hx).trans hrun, hres, hkind, hprunes, hquiet, honly⟩
  · obtain rfl | rfl | rfl | rfl | rfl | rfl | rfl | rfl := hi <;> exact run_firmwarePrune_of_busy hp hs
  · have hx := pruneComplete_of_lone (n := n) (b := b) h hs (by rw [endPrunedJob_of_ne h1, endPrunedAccess_of_ne h5]) hi hr
    have hq : quiet s (pruned p.kind p.result (min 0xFFFF n) s) := ⟨rfl, rfl, rfl⟩
    exact ⟨_, run_of_quiet (f := fun s => startRestart (pruneComplete false n b s)) hx hq, rfl, rfl, rfl, rfl, hq,
      mk_only_chip ⟨_, rfl⟩⟩
  · have hu : endPrunedAccess p false (endPrunedJob p s) = errorToken (xFinish p.index s) := by
      rw [endPrunedJob_of_ne (by rw [hk]; decide), endPrunedAccess_of_pending hk ha, if_neg Bool.false_ne_true]
    have hq : quiet s (pruned p.kind p.result (min 0xFFFF n) (errorToken (xFinish p.index s))) := ⟨rfl, rfl, rfl⟩
    exact ⟨_, run_of_quiet (f := fun s => startRestart (pruneComplete false n false s)) (pruneComplete_of_lone h hs hu hi hr) hq,
      rfl, hk, rfl, rfl, rfl, hq, mk_only_chip ⟨_, rfl⟩⟩
  · have hu : endPrunedAccess p true (endPrunedJob p s) = hangAccess a s := by
      rw [endPrunedJob_of_ne (by rw [hk]; decide), endPrunedAccess_of_pending hk ha, if_pos rfl]
    obtain ⟨hpend, hhang, hresp, hrrst⟩ := hangAccess_chip a s
    have hx := pruneComplete_of_lone (n := n) h hs hu ((hangAccess_items a s).trans hi) (hrrst.trans hr)
    refine ⟨_, congrArg (fun t => Host.Outcome.next (settle s t)) hx, settle_prunes .., ?_, ?_, ?_⟩
    · rw [settle_chip, ← who_of_xPending ha]; exact hpend
    · rw [settle_chip]; exact hresp
    · rw [settle_chip]; exact hhang

end Sys2Proof.Machine

/-! PROOF. Faults: what an escalation, a quarantine and a fault of a slice leave in the groups, the channels, the slices and the
regions, and O39. -/

namespace Sys2Proof.Machine

/-! ### Masks -/

theorem getLsbD_bitOf (n i g : Nat) : (bitOf n i).getLsbD g = (decide (g < n) && decide (i = g)) := by
  rw [bitOf, BitVec.getLsbD_ofNat, Nat.testBit_two_pow]

theorem getLsbD_foldl_bitOf (n g : Nat) (f : Nat → Bool) (l : List Nat) (m : BitVec n) :
    (l.foldl (fun m i => if f i then m ||| bitOf n i else m) m).getLsbD g =
      (m.getLsbD g || (decide (g < n) && decide (g ∈ l) && f g)) := by
  induction l generalizing m with
  | nil => simp
  | cons i l ih =>
    rw [List.foldl_cons, ih]
    split <;> simp only [BitVec.getLsbD_or, getLsbD_bitOf, List.mem_cons] <;> grind

theorem hasBit_maskOf {n g : Nat} (h : g < n) (f : Nat → Bool) : hasBit (maskOf n f) g = f g := by
  rw [hasBit, maskOf, getLsbD_foldl_bitOf]
  simp [h]

theorem hasBit_defined {s : State} {g : Nat} (h : g < 16) : hasBit (defined s) g = (grpCfg s g).defined := hasBit_maskOf h _

theorem hasBit_or_bitOf {n i : Nat} (h : i < n) (m : BitVec n) : hasBit (m ||| bitOf n i) i = true := by
  rw [hasBit, BitVec.getLsbD_or, getLsbD_bitOf]
  simp [h]

/-- What the update of a group leaves, the update of the groups of a mask leaves. -/
theorem nth_updMask_same {β : Type} {P : SafGroup → β} {f : SafGroup → SafGroup} (h : ∀ x, P (f x) = P x) (m : Mask)
    (l : List SafGroup) (g : Nat) : P (nth (updMask m f l) g) = P (nth l g) := by
  rw [nth_updMask]
  split
  · exact h _
  · rfl

/-! ### Parts that the bookkeeping of a fault leaves -/

@[simp] theorem recTrip_chip (s : State) : (recTrip s).chip = s.chip := by unfold recTrip; split <;> rfl
@[simp] theorem recTrip_saf (s : State) : (recTrip s).saf = s.saf := by unfold recTrip; split <;> rfl
@[simp] theorem recTrip_time (s : State) : (recTrip s).time = s.time := by unfold recTrip; split <;> rfl
@[simp] theorem recTrip_regions (s : State) : (recTrip s).regions = s.regions := by unfold recTrip; split <;> rfl
@[simp] theorem bbTrigger_saf (t c : Nat) (s : State) : (bbTrigger t c s).saf = s.saf := by
  obtain ⟨w, k, b, he⟩ := bbTrigger_eq t c s
  rw [he]; rfl
@[simp] theorem bbTrigger_time (t c : Nat) (s : State) : (bbTrigger t c s).time = s.time := by
  obtain ⟨w, k, b, he⟩ := bbTrigger_eq t c s
  rw [he]; rfl
@[simp] theorem bbTrigger_regions (t c : Nat) (s : State) : (bbTrigger t c s).regions = s.regions := by
  obtain ⟨w, k, b, he⟩ := bbTrigger_eq t c s
  rw [he]; rfl
@[simp] theorem autoHandover_chip (s : State) : (autoHandover s).chip = s.chip := by unfold autoHandover; split <;> rfl
@[simp] theorem autoHandover_saf (s : State) : (autoHandover s).saf = s.saf := by unfold autoHandover; split <;> rfl
@[simp] theorem autoHandover_regions (s : State) : (autoHandover s).regions = s.regions := by unfold autoHandover; split <;> rfl
@[simp] theorem recTrip_image (s : State) : (recTrip s).image = s.image := keep_image (recTrip_keep s)
@[simp] theorem bbTrigger_image (t c : Nat) (s : State) : (bbTrigger t c s).image = s.image := keep_image (bbTrigger_keep t c s)
@[simp] theorem mark_xtrapNow (i : Nat) (m : Mask) (s : State) : (mark i m s).time.xtrapNow = s.time.xtrapNow := rfl

section
variable {t c i : Nat} {m : Mask} {r : Region} {s : State}

@[simp] theorem lent_onSaf {f : SafSt → SafSt} : lent (onSaf f s) = lent s := rfl
@[simp] theorem lent_onChip {f : ChipSt → ChipSt} : lent (onChip f s) = lent s := rfl
@[simp] theorem lent_onRegion {f : RegionSt → RegionSt} : lent (onRegion r f s) = lent s := rfl
@[simp] theorem lent_mark : lent (mark i m s) = lent s := rfl
@[simp] theorem lent_event : lent (event c i s) = lent s := rfl
@[simp] theorem lent_bbTrigger : lent (bbTrigger t c s) = lent s := by simp [lent]
@[simp] theorem lent_recTrip : lent (recTrip s) = lent s := by simp [lent]

end

/-! ### A class A fault -/

@[simp] theorem latchA_regions (m : Mask) (src code : Nat) (s : State) : (latchA m src code s).regions = s.regions := by
  simp [latchA_eq]
@[simp] theorem latchA_lastA (m : Mask) (src code : Nat) (s : State) : (latchA m src code s).saf.lastA = code := by
  simp [latchA_eq]
@[simp] theorem latchA_aNext (m : Mask) (src code : Nat) (s : State) : (latchA m src code s).saf.aNext = s.saf.aNext := by
  simp [latchA_eq]
@[simp] theorem latchA_time (m : Mask) (src code : Nat) (s : State) : (latchA m src code s).time = s.time := by
  simp [latchA_eq]
theorem latchA_g (m : Mask) (src code : Nat) (s : State) :
    (latchA m src code s).saf.g = updMask m (latched src) s.saf.g := by
  simp [latchA_eq]

@[simp] theorem classA_regions (m : Mask) (src code : Nat) (s : State) : (classA m src code s).regions = s.regions := by
  simp [classA, demandStop_eq]
@[simp] theorem classA_lastA (m : Mask) (src code : Nat) (s : State) : (classA m src code s).saf.lastA = code := by
  simp [classA, demandStop_eq]
@[simp] theorem classA_aNext (m : Mask) (src code : Nat) (s : State) : (classA m src code s).saf.aNext = s.saf.aNext := by
  simp [classA, demandStop_eq]
@[simp] theorem classA_time (m : Mask) (src code : Nat) (s : State) : (classA m src code s).time = s.time := by
  simp [classA, demandStop_eq]

/-- Of the groups of its mask that exist a class A fault latches every one. -/
theorem aLatch_classA {m : Mask} {src code g : Nat} {s : State} (hm : hasBit m g = true) (hg : g < s.saf.g.length) :
    (safG (classA m src code s) g).aLatch = true := by
  rw [classA, demandStop_eq, safG, onSaf_saf]
  refine (nth_updMask_same (P := SafGroup.aLatch) (f := wantStop 9) (fun _ => rfl) _ _ _).trans ?_
  rw [latchA_g, nth_updMask, if_pos ⟨hm, hg⟩, latched]

@[simp] theorem classA_g_length (m : Mask) (src code : Nat) (s : State) :
    (classA m src code s).saf.g.length = s.saf.g.length := by
  simp [classA, demandStop_eq, latchA_g]

/-! ### An escalation (R45, R46) -/

/-- An escalation marks its region. -/
theorem escalate_regions {r : Region} {s : State} (h : (regSt s r).escalated = false) :
    (escalate r s).regions = updAt s.regions r.id (fun x => { x with escalated := true }) := by
  simp [escalate, h, demandStop_eq, demandSto_eq, apply_ite State.regions]

theorem escalate_escalated {r : Region} {s : State} (h : (regSt s r).escalated = false) : (escalate r s).chip.escalated = true := by
  simp [escalate, h, demandStop_eq, demandSto_eq, apply_ite State.chip, event]

@[simp] theorem escalate_lastA (r : Region) (s : State) : (escalate r s).saf.lastA = s.saf.lastA := by
  simp [escalate, demandStop_eq, demandSto_eq, apply_ite State.saf, apply_ite SafSt.lastA]

@[simp] theorem escalate_aNext (r : Region) (s : State) : (escalate r s).saf.aNext = s.saf.aNext := by
  simp [escalate, demandStop_eq, demandSto_eq, apply_ite State.saf, apply_ite SafSt.aNext]

/-- A fault of SAF withholds the refresh (R301). -/
theorem escalate_saf_withheld {s : State} (h : (regSt s .saf).escalated = false) : (escalate .saf s).saf.withheld = true := by
  simp [escalate, h, demandSto_eq]

@[simp] theorem aLatch_updMask_wantStop (m : Mask) (c g : Nat) (l : List SafGroup) :
    (nth (updMask m (wantStop c) l) g).aLatch = (nth l g).aLatch :=
  nth_updMask_same (P := SafGroup.aLatch) (f := wantStop c) (fun _ => rfl) m l g
@[simp] theorem aLatch_updMask_wantSto (m : Mask) (c g : Nat) (l : List SafGroup) :
    (nth (updMask m (wantSto c) l) g).aLatch = (nth l g).aLatch :=
  nth_updMask_same (P := SafGroup.aLatch) (f := wantSto c) (fun _ => rfl) m l g

/-- An escalation leaves the latches of class A. -/
theorem aLatch_escalate (r : Region) (g : Nat) (s : State) : (safG (escalate r s) g).aLatch = (safG s g).aLatch := by
  simp [safG, escalate, demandStop_eq, demandSto_eq, apply_ite State.saf, apply_ite SafSt.g, apply_ite (nth · g),
    apply_ite SafGroup.aLatch]

theorem hasBit_wantStop {c : Nat} (h : c < 32) (x : SafGroup) : hasBit (wantStop c x).stopReq c = true := hasBit_or_bitOf h _

/-- An escalation of a region other than SAF and TIME demands SS1-r of every group but those lent their set-points (R46, R489). -/
theorem stopReq_escalate {r : Region} {s : State} {g : Nat} (h : (regSt s r).escalated = false) (h1 : r ≠ .saf) (h2 : r ≠ .time)
    (hd : hasBit (defined s) g = true) (hl : hasBit (lent s) g = false) (hg : g < s.saf.g.length) :
    hasBit (safG (escalate r s) g).stopReq 15 = true := by
  have hm : hasBit (defined s &&& ~~~ lent s) g = true := by
    simp_all [hasBit, BitVec.lt_of_getLsbD hd]
  simp [escalate, h, h1, h2, demandStop_eq, demandSto_eq, safG, nth_updMask, hm, hg, hasBit_wantStop]

/-! ### What faults and escalations leave of MOT and AXIO -/

section
variable {m : Mask} {src i code : Nat} {r : Region} {s : State}

theorem only_escalate_self : only escalateParts s (escalate r s) := (only_escalate (fun _ h => h)).2 (only_refl _ s)
theorem only_latchA_self : only [.chip, .recd, .saf] s (latchA m src code s) := by simp
theorem only_classA_self : only [.chip, .recd, .saf] s (classA m src code s) := by simp

@[simp] theorem escalate_image : (escalate r s).image = s.image := only_escalate_self .image (by decide)
@[simp] theorem escalate_mot : (escalate r s).mot = s.mot := only_escalate_self .mot (by decide)
@[simp] theorem escalate_axio : (escalate r s).axio = s.axio := only_escalate_self .axio (by decide)
@[simp] theorem classA_mot : (classA m src code s).mot = s.mot := only_classA_self .mot (by decide)
@[simp] theorem classA_axio : (classA m src code s).axio = s.axio := only_classA_self .axio (by decide)
@[simp] theorem latchA_axio : (latchA m src code s).axio = s.axio := only_latchA_self .axio (by decide)
@[simp] theorem addB_mot : (addB src i m code s).mot = s.mot := (only_addB (ps := [.saf]) (by decide)).2 (only_refl _ s) .mot (by decide)
@[simp] theorem addB_regions : (addB src i m code s).regions = s.regions :=
  (only_addB (ps := [.saf]) (by decide)).2 (only_refl _ s) .regions (by decide)

end

/-- An escalation leaves which slices have faulted. -/
@[simp] theorem escalate_faulted (r q : Region) (s : State) : (regSt (escalate r s) q).faulted = (regSt s q).faulted := by
  cases h : (regSt s r).escalated
  · rw [regSt, escalate_regions h, nth_updAt]
    split
    · rename_i hq; rw [regSt, hq.1]
    · rfl
  · rw [escalate, if_pos h]

/-! ### Slices of MOT -/

/-- A table of slices that an update of each has replaced, the places kept. -/
theorem sliceSt_of_map {g : SliceSt → SliceSt} (hg : ∀ x, (g x).b = x.b ∧ (g x).s = x.s) {s t : State}
    (h : t.mot.slices = s.mot.slices.map g) (b sl : Nat) : sliceSt t b sl = (sliceSt s b sl).map g := by
  simp [sliceSt, h, List.find?_map, hg]

theorem place_of_sliceSt {s : State} {b sl : Nat} {x : SliceSt} (h : sliceSt s b sl = some x) : x.b = b ∧ x.s = sl := by
  simpa using List.find?_some h

/-- An update of slice b.k as slice b.sl reads. -/
theorem sliceSt_onSlice {f : SliceSt → SliceSt} (hf : ∀ x, (f x).b = x.b ∧ (f x).s = x.s) {s : State} {b k sl : Nat} {x : SliceSt}
    (h : sliceSt s b sl = some x) : sliceSt (onSlice b k f s) b sl = some (if sl = k then f x else x) := by
  have hg (x : SliceSt) : (if x.b = b ∧ x.s = k then f x else x).b = x.b ∧ (if x.b = b ∧ x.s = k then f x else x).s = x.s := by
    split
    · exact hf x
    · exact ⟨rfl, rfl⟩
  rw [sliceSt_of_map hg (t := onSlice b k f s) rfl, h]
  simp [place_of_sliceSt h]

/-- From s to t the spares are as before, and so is slice b.sl where it has stopped. -/
structure StoppedKept (b sl : Nat) (s t : State) : Prop where
  spares : t.mot.spares = s.mot.spares
  slice : ∀ y, sliceSt s b sl = some y → y.run = .stopped → sliceSt t b sl = some y

theorem StoppedKept.of_mot {b sl : Nat} {s t : State} (h : t.mot = s.mot) : StoppedKept b sl s t :=
  ⟨by rw [h], fun y hy _ => by rw [sliceSt, h]; exact hy⟩

theorem StoppedKept.trans {b sl : Nat} {s t u : State} (h : StoppedKept b sl s t) (k : StoppedKept b sl t u) :
    StoppedKept b sl s u :=
  ⟨k.spares.trans h.spares, fun y hy hs => k.slice y (h.slice y hy hs) hs⟩

theorem stoppedKept_forAll_onAxis {α : Type} {b sl : Nat} (l : List α) (a : α → Nat) (f : α → AxisSt → AxisSt) (s : State) :
    StoppedKept b sl s (forAll l (fun x => onAxis (a x) (f x)) s) :=
  forAll_preserves (P := StoppedKept b sl s) (f := fun x => onAxis (a x) (f x)) (fun _ _ h => h.trans ⟨rfl, fun _ hy _ => hy⟩) l
    (.of_mot rfl)

/-- The stop of every slice of a block. -/
theorem stoppedKept_stopBlock (b c sl : Nat) (s : State) : StoppedKept b sl s
    { s with mot := { s.mot with slices := s.mot.slices.map (fun x =>
      if x.b = c ∧ x.run ≠ .retired then { x with run := .stopped } else x) } } := by
  refine ⟨rfl, fun y hy hs => ?_⟩
  rw [sliceSt_of_map (g := fun x => if x.b = c ∧ x.run ≠ .retired then { x with run := .stopped } else x)
    (fun x => by split <;> exact ⟨rfl, rfl⟩) rfl, hy, Option.map_some, ← hs, ite_self]

theorem stoppedKept_blockReaction {b sl c : Nat} (h : c < 8) (s : State) : StoppedKept b sl s (blockReaction .mot c s) := by
  simp only [blockReaction, h, if_true]
  exact (stoppedKept_forAll_onAxis _ id (fun _ x => { x with sliceBad := true }) s).trans
    ((stoppedKept_stopBlock b c sl _).trans (.of_mot classA_mot))

theorem blockReaction_mot_regions {c : Nat} (h : c < 8) (s : State) : (blockReaction .mot c s).regions = s.regions := by
  simp only [blockReaction, h, if_true, classA_regions, mark_regions]
  refine forAll_same (P := State.regions) ?_ _ _
  exact fun _ _ => rfl

theorem stoppedKept_quarantine {b sl c : Nat} (h : c < 8) (s : State) : StoppedKept b sl s (quarantine .mot c s) := by
  unfold quarantine
  dsimp only
  have hb : StoppedKept b sl s (blockReaction .mot c (event (256 * Region.mot.id + 0xE3) 0
      (onRegion .mot (fun x => { x with quar := x.quar ||| bitOf 16 c }) s))) := by
    refine (StoppedKept.of_mot ?_).trans (stoppedKept_blockReaction h _)
    rfl
  split
  · exact .of_mot escalate_mot
  · split
    · exact .of_mot rfl
    · split
      · exact hb.trans (.of_mot escalate_mot)
      · exact hb

theorem quarantine_mot_faulted {c : Nat} (h : c < 8) (s : State) :
    (regSt (quarantine .mot c s) .mot).faulted = (regSt s .mot).faulted := by
  unfold quarantine
  dsimp only
  have hb : (regSt (blockReaction .mot c (event (256 * Region.mot.id + 0xE3) 0
      (onRegion .mot (fun x => { x with quar := x.quar ||| bitOf 16 c }) s))) .mot).faulted = (regSt s .mot).faulted := by
    rw [regSt, blockReaction_mot_regions h, event_regions, onRegion_regions, nth_updAt]
    split <;> rfl
  split
  · exact escalate_faulted ..
  · split
    · rfl
    · split
      · exact (escalate_faulted ..).trans hb
      · exact hb

theorem stoppedKept_noteFault {b sl c : Nat} (h : c < 8) (s : State) : StoppedKept b sl s (noteFault .mot c sl s) := by
  unfold noteFault
  dsimp only
  split
  · refine (StoppedKept.of_mot ?_).trans (stoppedKept_quarantine h _)
    rfl
  · exact .of_mot rfl

/-- A slice of a servo block that has faulted is noted. -/
theorem mem_faulted_noteFault {c sl : Nat} {s : State} (h : c < 8) (hr : 5 < s.regions.length) :
    16 * c + sl ∈ (regSt (noteFault .mot c sl s) .mot).faulted := by
  have hu : 16 * c + sl ∈ (regSt (onRegion .mot (fun x => { x with faulted := x.faulted ++ [16 * c + sl] })
      (event (256 * Region.mot.id + 0xE0) (16 * c + sl) s)) .mot).faulted := by
    rw [regSt, onRegion_regions, event_regions, nth_updAt_self _ _ _ (show Region.mot.id < _ from hr)]
    exact List.mem_append_right _ (List.mem_singleton.2 rfl)
  unfold noteFault
  dsimp only
  split
  · rwa [quarantine_mot_faulted h]
  · exact hu

theorem stoppedKept_extrapolateSlice (b sl : Nat) (x : SliceSt) (s : State) : StoppedKept b sl s (extrapolateSlice x s) := by
  unfold extrapolateSlice
  split
  · exact .of_mot rfl
  · exact (stoppedKept_forAll_onAxis (slotAxes x) (fun p => p.2) (fun _ a => { a with xtrap := true }) s).trans (.of_mot rfl)

@[simp] theorem extrapolateSlice_regions (x : SliceSt) (s : State) : (extrapolateSlice x s).regions = s.regions := by
  unfold extrapolateSlice
  dsimp only
  split
  · rfl
  · refine forAll_same (P := State.regions) ?_ _ _
    exact fun _ _ => rfl

/-- The first fault of a block is contained by its spare (R41). -/
theorem containSlice_of_spare {b sl : Nat} {s : State} (hc : s.image.compat = false) (hp : (spareSt s b).spst = 0)
    (ht : (spareSt s b).takeNext = none) :
    containSlice b sl s = addB 1 b (groupsOfBlock s b) 0x05E0
      (onSpare b (fun y => { y with takeNext := some sl, selftest := none }) (endShadow b s)) := by
  simp [containSlice, hc, hp, ht]

/-- A slice that stops on a fault. -/
def faultAt (c : Nat) (x : SliceSt) : SliceSt := { x with run := .stopped, fcause := c, fpc := x.pc }

theorem motSliceFault_of_serving {b sl c : Nat} {s : State} {x : SliceSt} (hsl : sl < 8) (hx : sliceSt s b sl = some x)
    (h1 : x.run ≠ .stopped) (h2 : x.run ≠ .retired) :
    motSliceFault b sl c s =
      let u := noteFault .mot b sl (if c = 4 then mark 1 (sliceGroups (onSlice b sl (faultAt c) s) x)
        (onSlice b sl (faultAt c) s) else onSlice b sl (faultAt c) s)
      containSlice b sl (if c = 6 then u else extrapolateSlice x u) := by
  have h8 : sl ≠ 8 := by omega
  simp only [motSliceFault, hx]
  simp [h1, h2, h8, rotating]
  rfl

/-- The state in which the spare of block b has been given slice b.sl, which stops on a fault of cause c: the fault is contained
(R41), whatever the note of it did to the block. -/
theorem containSlice_faulted {b sl c : Nat} {s u : State} {x : SliceSt} (hsl : sl < 8) (hb : b < s.mot.spares.length)
    (hx : sliceSt s b sl = some x) (hc : u.image.compat = false) (hp : (spareSt s b).spst = 0)
    (ht : (spareSt s b).takeNext = none) (hu : StoppedKept b sl (onSlice b sl (faultAt c) s) u) :
    sliceSt (containSlice b sl u) b sl = some (faultAt c x) ∧ (spareSt (containSlice b sl u) b).takeNext = some sl ∧
      (containSlice b sl u).regions = u.regions := by
  have hspares : u.mot.spares = s.mot.spares := hu.spares
  have hslice : sliceSt u b sl = some (faultAt c x) :=
    hu.slice _ ((sliceSt_onSlice (f := faultAt c) (fun _ => ⟨rfl, rfl⟩) hx).trans (congrArg some (if_pos rfl))) rfl
  rw [containSlice_of_spare hc (by rwa [spareSt, hspares]) (by rwa [spareSt, hspares])]
  refine ⟨?_, ?_, addB_regions⟩
  · have h8 : sl ≠ 8 := by omega
    have hshadow : sliceSt (endShadow b u) b sl = some (faultAt c x) := by
      refine (sliceSt_onSlice (fun x => by split <;> exact ⟨rfl, rfl⟩) (s := onSpare b (fun p => { p with comparing := false }) u)
        hslice).trans ?_
      rw [if_neg h8]
    rw [sliceSt, addB_mot]
    exact hshadow
  · rw [spareSt, addB_mot]
    exact congrArg SpareSt.takeNext (nth_updAt_self _ _ _ (by simpa [endShadow, onSlice, onSpare, hspares] using hb))

/-- A slice that serves stops on a fault, its spare is to take over, and the fault is noted (R41). -/
theorem motSliceFault_contained {b sl c : Nat} {s : State} {x : SliceSt} (hb : b < 8) (hsl : sl < 8)
    (hsp : b < s.mot.spares.length) (hx : sliceSt s b sl = some x) (h1 : x.run ≠ .stopped) (h2 : x.run ≠ .retired)
    (hc : s.image.compat = false) (hp : (spareSt s b).spst = 0) (ht : (spareSt s b).takeNext = none)
    (hr : 5 < s.regions.length) :
    sliceSt (motSliceFault b sl c s) b sl = some (faultAt c x) ∧ (spareSt (motSliceFault b sl c s) b).takeNext = some sl ∧
      16 * b + sl ∈ (regSt (motSliceFault b sl c s) .mot).faulted := by
  rw [motSliceFault_of_serving hsl hx h1 h2]
  extract_lets u
  have hu : StoppedKept b sl (onSlice b sl (faultAt c) s) u := by
    refine StoppedKept.trans (.of_mot ?_) (stoppedKept_noteFault hb _)
    split <;> rfl
  have hfaulted : 16 * b + sl ∈ (regSt u .mot).faulted := by
    refine mem_faulted_noteFault hb ?_
    split <;> exact hr
  have himage : u.image = s.image := by
    refine (keep_image (noteFault_keep ..)).trans ?_
    split <;> rfl
  have hv : StoppedKept b sl (onSlice b sl (faultAt c) s) (if c = 6 then u else extrapolateSlice x u) := by
    split
    · exact hu
    · exact hu.trans (stoppedKept_extrapolateSlice ..)
  have hcompat : (if c = 6 then u else extrapolateSlice x u).image.compat = false := by
    split
    · rwa [himage]
    · rwa [keep_image (extrapolateSlice_keep ..), himage]
  obtain ⟨hslice, htake, hregions⟩ := containSlice_faulted hsl hsp hx hcompat hp ht hv
  refine ⟨hslice, htake, ?_⟩
  rw [regSt, hregions]
  split
  · exact hfaulted
  · rw [extrapolateSlice_regions]
    exact hfaulted

/-! ### Channels of AXIO -/

/-- Channel k is retired, and its feedback is null. -/
def ChanLost (k : Nat) (s : State) : Prop := (chSt s k).retired = true ∧ (chSt s k).fbNull = true

theorem chanLost_loseChan {k : Nat} (c : Nat) {s : State} (h : ChanLost k s) : ChanLost k (loseChan c s) := by
  unfold ChanLost at *
  simp only [chSt, loseChan, onChan_axio, nth_updAt] at *
  split
  · exact ⟨rfl, rfl⟩
  · exact h

theorem chanLost_loseChan_self {k : Nat} {s : State} (h : k < s.axio.length) : ChanLost k (loseChan k s) := by
  simp [ChanLost, chSt, loseChan, h]

theorem ChanLost.congr {k : Nat} {s t : State} (h : ChanLost k s) (ha : t.axio = s.axio) : ChanLost k t := by
  simpa only [ChanLost, chSt, ha] using h

/-- From s to t channel k stays lost, and the groups that SAF is to latch at the next E0 are as before. -/
structure LostKept (k : Nat) (s t : State) : Prop where
  chan : ChanLost k s → ChanLost k t
  aNext : t.saf.aNext = s.saf.aNext

theorem LostKept.of_eq {k : Nat} {s t : State} (ha : t.axio = s.axio) (hn : t.saf.aNext = s.saf.aNext) : LostKept k s t :=
  ⟨fun h => h.congr ha, hn⟩

theorem LostKept.trans {k : Nat} {s t u : State} (h : LostKept k s t) (g : LostKept k t u) : LostKept k s u :=
  ⟨fun hs => g.chan (h.chan hs), g.aNext.trans h.aNext⟩

theorem lostKept_escalate (k : Nat) (r : Region) (s : State) : LostKept k s (escalate r s) :=
  .of_eq escalate_axio (escalate_aNext r s)

theorem lostKept_blockReaction (k b : Nat) (s : State) : LostKept k s (blockReaction .axio b s) := by
  simp only [blockReaction]
  refine (LostKept.trans ?_ (.of_eq (mark_axio ..) (congrArg SafSt.aNext (mark_saf ..)))).trans
    (.of_eq classA_axio (classA_aNext ..))
  exact forAll_preserves (P := LostKept k s) (f := loseChan) (fun c _ h => h.trans ⟨chanLost_loseChan c, rfl⟩) _ (.of_eq rfl rfl)

theorem lostKept_quarantine (k b : Nat) (s : State) : LostKept k s (quarantine .axio b s) := by
  unfold quarantine
  dsimp only
  have hb : LostKept k s (blockReaction .axio b (event (256 * Region.axio.id + 0xE3) 0
      (onRegion .axio (fun x => { x with quar := x.quar ||| bitOf 16 b }) s))) := by
    refine LostKept.trans (.of_eq ?_ ?_) (lostKept_blockReaction k b _) <;> rfl
  split
  · exact lostKept_escalate ..
  · split
    · exact .of_eq rfl rfl
    · split
      · exact hb.trans (lostKept_escalate ..)
      · exact hb

theorem lostKept_noteFault (k b sl : Nat) (s : State) : LostKept k s (noteFault .axio b sl s) := by
  unfold noteFault
  dsimp only
  split
  · refine LostKept.trans (.of_eq ?_ ?_) (lostKept_quarantine k b _) <;> rfl
  · exact .of_eq rfl rfl

theorem pipesShort_of_ne {r : Region} (h : r ≠ .trl) (s : State) : pipesShort r s = s := by simp [pipesShort, h]

/-- A fault of channel b.sl retires it, and its groups are latched at the next E0 (R41). -/
theorem containOther_axio {b sl : Nat} {s : State} (h : chanBlock s.fuse.variant * b + sl < s.axio.length) :
    ChanLost (chanBlock s.fuse.variant * b + sl) (containOther .axio b sl s) ∧
      (containOther .axio b sl s).saf.aNext = s.saf.aNext ||| groupsOfChan s (chanBlock s.fuse.variant * b + sl) := by
  have hnow : ChanLost (chanBlock s.fuse.variant * b + sl) (sliceNow .axio b sl s) := by
    refine ChanLost.congr (chanLost_loseChan_self (s := latchA (groupsOfChan s (chanBlock s.fuse.variant * b + sl)) 16 0x04E0 s) ?_) rfl
    rwa [latchA_axio]
  have hnext : (sliceNow .axio b sl s).saf.aNext = s.saf.aNext ||| groupsOfChan s (chanBlock s.fuse.variant * b + sl) := by
    simp [sliceNow, loseChan]
  have hnote := lostKept_noteFault (chanBlock s.fuse.variant * b + sl) b sl (sliceNow .axio b sl s)
  rw [containOther, pipesShort_of_ne (by decide)]
  refine ⟨?_, ?_⟩
  · split
    · exact (hnote.chan hnow).congr rfl
    · exact hnote.chan hnow
  · rw [← hnext, ← hnote.aNext]
    split <;> rfl

/-! ### SLICE_FAULT (R41) -/

theorem sliceFault_mot {b sl c : Nat} {s : State} (hc : c ≠ 0) (hb : b < 8) (hs : sliceServes s .mot b sl = true) :
    sliceFault .mot b sl c s = motSliceFault b sl c s := by
  simp [sliceFault, hc, hb, hs]

theorem sliceFault_axio {b sl c : Nat} {s : State} (hc : c ≠ 0) (hs : sliceServes s .axio b sl = true)
    (hi : s.image.compat = false) :
    sliceFault .axio b sl c s = containOther .axio b sl (if c = 4 then mark 1 (sliceScope s .axio b sl) s else s) := by
  have hm : (if c = 4 then mark 1 (sliceScope s .axio b sl) s else s).image = s.image := by split <;> rfl
  simp [sliceFault, hc, hs, hm, hi]

theorem sliceFault_saf {c : Nat} {s : State} (hc : c ≠ 0) (h : (regSt s .saf).escalated = false) :
    sliceFault .saf 0 0 c s = escalate .saf (latchA (defined s) 16 0x08E0 (event 0x08E0 0 s)) := by
  simp [sliceFault, hc, h]

theorem sliceFault_of_not_serving {r : Region} {b sl c : Nat} {s : State} (h1 : r ≠ .chip) (h2 : r ≠ .time) (h3 : r ≠ .saf)
    (hs : sliceServes s r b sl = false) : sliceFault r b sl c s = s := by
  cases r <;> simp_all [sliceFault, countCorrected]

theorem sliceFault_corrected {b sl : Nat} {s : State} (hb : b < 8) (hs : sliceServes s .mot b sl = true) :
    sliceFault .mot b sl 0 s = correctedError b sl s := by
  simp [sliceFault, countCorrected, hb, hs]

/-! ### REGION_UNIT_FAULT (R40, R43) -/

/-- From s to t the crypto engine is out, no command waits for it, and only HOST and the chip level may have changed. -/
structure CryptoOut (s t : State) : Prop where
  fault : t.host.cryptoFault = true
  vq : t.host.vq = []
  held : t.host.held = []
  only : only [.chip, .host] s t

theorem CryptoOut.markDecided {s t : State} (h : CryptoOut s t) (r : Reply) (b : Bool) : CryptoOut s (markDecided r b t) :=
  ⟨h.fault, h.vq, h.held, (only_onHost (by decide)).2 h.only⟩

theorem CryptoOut.noteRefusal {s t : State} (h : CryptoOut s t) (c k : Nat) : CryptoOut s (noteRefusal c k t) := by
  obtain ⟨hf, hv, hh, ho⟩ := h
  refine ⟨?_, ?_, ?_, by simpa [Machine.noteRefusal] using ho⟩ <;> rw [Machine.noteRefusal, eventOnce_host] <;> assumption

theorem cryptoOut_cryptoLost (s : State) : CryptoOut s (cryptoLost s) := by
  refine forAll_preserves (P := CryptoOut s) (fun c t h => (h.noteRefusal 8 c.d.key).markDecided _ false) _ ?_
  exact ⟨rfl, rfl, rfl, by simp [unitEvent]⟩

theorem compatEscalates_of_native {r : Region} {s : State} (h : s.image.compat = false) : compatEscalates r s = s := by
  simp [compatEscalates, h]

/-- A port of the plant that has faulted is down and stays so. -/
theorem regionUnitFault_plantPort {p : Nat} {s : State} (hp : p < 4) (hb : (nth s.host.ports p).bad = false)
    (hc : s.image.compat = false) :
    regionUnitFault (.plantPort p) s =
      event 0x09E0 0 (onPort p (fun x => { x with bad := true }) (plantLinkDown p s)) := by
  have himage : (plantLinkDown p s).image = s.image := by unfold plantLinkDown; split <;> rfl
  have hdown : (if (nth s.host.ports p).up = true then plantLinkDown p s else s) = plantLinkDown p s := by
    cases hu : (nth s.host.ports p).up <;> simp [plantLinkDown, hu]
  simp [regionUnitFault, Nat.not_le.2 hp, hb, hdown, compatEscalates, himage, hc]

/-- The ports after the link of one has gone down. -/
theorem plantLinkDown_ports {p : Nat} {s : State} (h : p < s.host.ports.length) :
    (nth (plantLinkDown p s).host.ports p).up = false ∧ onlyAt p s.host.ports (plantLinkDown p s).host.ports ∧
      only [.chip, .host] s (plantLinkDown p s) := by
  unfold plantLinkDown
  split
  · rename_i hu
    exact ⟨by simpa using hu, ⟨rfl, fun _ _ => rfl⟩, only_refl _ s⟩
  · exact ⟨by simp [h], onlyAt_updAt _ _ _, by simp⟩

theorem regionUnitFault_problemStore {p : Nat} {s : State} (hs : hasSolTrl s = true) (ho : (probCfg s p).op ≠ 0) :
    regionUnitFault (.problemStore p) s = event 0x0630 p (onProb p (fun x => { x with lost := true, dead := true }) s) := by
  simp [regionUnitFault, hs, ho]

theorem regionUnitFault_deltaGate {s : State} (hs : hasSolTrl s = true) (hu : s.sol.unitLost = false) :
    regionUnitFault .deltaGate s = event 0x06E3 0 { s with sol := { s.sol with unitLost := true } } := by
  simp [regionUnitFault, hs, hu, unitEvent, Region.id]

theorem regionUnitFault_scheduler {s : State} (h : (regSt s .host).escalated = false) :
    regionUnitFault .scheduler s = escalate .host (latchA (defined s) 16 0x09E3 (unitEvent .host s)) := by
  simp [regionUnitFault, h]

theorem regionUnitFault_cryptoEngine {s : State} (h : s.host.cryptoFault = false) (hi : s.image.compat = false) :
    regionUnitFault .cryptoEngine s = cryptoLost s := by
  have himage : (cryptoLost s).image = s.image := (cryptoOut_cryptoLost s).only .image (by decide)
  simp [regionUnitFault, h, compatEscalates, himage, hi]

@[simp] theorem settle_escalated (s t : State) : (settle s t).chip.escalated = t.chip.escalated := by rw [settle_chip]

@[simp] theorem regSt_latchA (r : Region) (m : Mask) (src code : Nat) (s : State) : regSt (latchA m src code s) r = regSt s r := by
  rw [regSt, latchA_regions]; rfl

@[simp] theorem regSt_classA (r : Region) (m : Mask) (src code : Nat) (s : State) : regSt (classA m src code s) r = regSt s r := by
  rw [regSt, classA_regions]; rfl

@[simp] theorem lent_classA (m : Mask) (src code : Nat) (s : State) : lent (classA m src code s) = lent s := by
  rw [lent, classA_time, keep_image (classA_keep ..)]; rfl

@[simp] theorem defined_classA (m : Mask) (src code : Nat) (s : State) : defined (classA m src code s) = defined s := by
  rw [defined, defined]
  simp only [grpCfg, keep_image (classA_keep ..)]

/-- What a parity error of the interconnect does: a class A fault of every group, and the escalation of the chip level (R67). -/
def parityFault (s : State) : State := escalate .chip (classA (defined s) 16 0x0140 (event 0x0140 0 s))

/-- Settles O39: the fault of a servo slice is followed to the spare, that of a channel to its retirement, and those of SAF, of a unit
and of the interconnect to the class A fault and the escalation that they make. -/
theorem faults : Obligations.Faults := by
  refine ⟨fun b sl c x s hb hsl hsp hs hx h1 h2 hi hp ht hc hr => ?_, fun b sl c s hk hs hi hc => ?_, fun c s h hc hr => ?_,
    fun r b sl c s h1 h2 h3 hs => run_of_unchanged (sliceFault_of_not_serving h1 h2 h3 hs), fun b sl x s hb hs hx => ?_,
    fun p s hs hp ho => ?_, fun s hs hu => ?_, fun s h => ?_, fun s h hi => ?_, fun p s hp hl hb hi => ?_, fun s h => ?_⟩
  · obtain ⟨hslice, htake, hfaulted⟩ := motSliceFault_contained (c := c) hb hsl hsp hx h1 h2 hi hp ht hr
    rw [← sliceFault_mot hc hb hs] at hslice htake hfaulted
    refine ⟨_, faultAt c x, rfl, ?_, rfl, rfl, rfl, ?_, ?_⟩
    · rwa [sliceSt, settle_mot]
    · rwa [spareSt, settle_mot]
    · rwa [regSt, settle_regions]
  · obtain ⟨⟨hret, hnull⟩, hnext⟩ := containOther_axio (b := b) (sl := sl)
      (s := if c = 4 then mark 1 (sliceScope s .axio b sl) s else s) (by split <;> exact hk)
    rw [← sliceFault_axio hc hs hi] at hret hnull hnext
    have hfuse : (if c = 4 then mark 1 (sliceScope s .axio b sl) s else s).fuse = s.fuse := by split <;> rfl
    have hgroups (k : Nat) : groupsOfChan (if c = 4 then mark 1 (sliceScope s .axio b sl) s else s) k = groupsOfChan s k := by
      split <;> rfl
    rw [hfuse] at hret hnull
    refine ⟨_, rfl, ?_, ?_, fun g _ hg => ?_⟩
    · rwa [chSt, settle_axio]
    · rwa [chSt, settle_axio]
    · rw [settle_saf, hnext, hfuse, hgroups, hasBit, BitVec.getLsbD_or, ← hasBit, ← hasBit, hg, Bool.or_true]
  · have hu : (regSt (latchA (defined s) 16 0x08E0 (event 0x08E0 0 s)) .saf).escalated = false := by rw [regSt_latchA]; exact h
    refine ⟨_, rfl, ?_, ?_, ?_⟩ <;> rw [sliceFault_saf hc h]
    · rw [settle_saf, escalate_saf_withheld hu]
    · rw [settle_escalated, escalate_escalated hu]
    · rw [regSt, settle_regions, escalate_regions hu, nth_updAt_self]
      rw [latchA_regions]
      exact hr
  · exact ⟨_, run_of_quiet (sliceFault_corrected hb hs) ⟨rfl, rfl, rfl⟩,
      (sliceSt_onSlice (f := fun x => { x with cecnt := satAdd 0xFFFF x.cecnt 1 }) (fun _ => ⟨rfl, rfl⟩) hx).trans
        (congrArg some (if_pos rfl)), ⟨rfl, rfl, rfl⟩, by simp [correctedError]⟩
  · obtain ⟨hrun, hl⟩ := run_of_event (regionUnitFault_problemStore (p := p) hs ho) ⟨rfl, rfl, rfl⟩ rfl
    exact ⟨_, hrun, nth_updAt_self _ _ _ hp, onlyAt_updAt _ _ _, hl, by simp⟩
  · obtain ⟨hrun, hl⟩ := run_of_event (regionUnitFault_deltaGate hs hu) ⟨rfl, rfl, rfl⟩ rfl
    exact ⟨_, hrun, rfl, hl, by simp [only_sol]⟩
  · have hu : (regSt (latchA (defined s) 16 0x09E3 (unitEvent .host s)) .host).escalated = false := by rw [regSt_latchA]; exact h
    refine ⟨_, rfl, ?_, ?_⟩ <;> rw [regionUnitFault_scheduler h]
    · rw [settle_escalated, escalate_escalated hu]
    · rw [settle_saf, escalate_lastA, latchA_lastA]
  · obtain ⟨hf, hv, hh, ho⟩ := cryptoOut_cryptoLost s
    rw [← regionUnitFault_cryptoEngine h hi] at hf hv hh ho
    refine ⟨_, rfl, ?_, ?_, ?_, (only_settle_iff (by decide)).2 ho⟩ <;> rwa [settle_host]
  · obtain ⟨hup, hports, ho⟩ := plantLinkDown_ports hl
    have hx := regionUnitFault_plantPort hp hb hi
    have hlen : p < (plantLinkDown p s).host.ports.length := hports.1 ▸ hl
    have hport : nth (regionUnitFault (.plantPort p) s).host.ports p = { nth (plantLinkDown p s).host.ports p with bad := true } := by
      rw [hx]; exact nth_updAt_self _ _ _ hlen
    have hothers : onlyAt p s.host.ports (regionUnitFault (.plantPort p) s).host.ports := by
      rw [hx]; exact onlyAt_trans hports (onlyAt_updAt _ _ _)
    refine ⟨_, rfl, ?_, ?_, ?_, (only_settle_iff (by decide)).2 ?_⟩
    · rw [settle_host, hport]
    · rw [settle_host, hport, hup]
    · rwa [settle_host]
    · rw [hx]; simpa using ho
  · have hu : (regSt (classA (defined s) 16 0x0140 (event 0x0140 0 s)) .chip).escalated = false := by rw [regSt_classA]; exact h
    refine ⟨settle s (parityFault s), rfl, ?_, ?_, fun g hg hl hd => ?_, fun g hg hl hd hn => ?_, ?_⟩
    · rw [settle_escalated, parityFault, escalate_escalated hu]
    · rw [settle_saf, parityFault, escalate_lastA, classA_lastA]
    · rw [safG, settle_saf, ← safG, parityFault, aLatch_escalate]
      exact aLatch_classA ((hasBit_defined hg).trans hd) hl
    · rw [safG, settle_saf, ← safG, parityFault]
      refine stopReq_escalate hu (by decide) (by decide) ?_ ?_ ?_
      · rw [defined_classA]; exact (hasBit_defined hg).trans hd
      · rw [lent_classA]; exact hn
      · rw [classA_g_length]; exact hl
    · refine (only_settle_iff (by decide)).2 ((only_escalate (fun _ hp => hp)).2 ?_)
      exact (only_classA (by decide) (by decide) (by decide)).2 ((only_event (by decide)).2 (only_refl _ s))

end Sys2Proof.Machine

/-! PROOF. CoresFlowsAndQueues: traps of ordinary and of tick-locked items, flows and publish buffers, pushes of firmware and
acyclic frames of the ring, and O37. -/

namespace Sys2Proof.Machine

/-! ### Commands of a region that runs -/

theorem runIn_of_up {r : Region} {f : State → State} {s : State} (h : regionUp r s = true) : runIn r f s = run f s := by
  rw [runIn, run, within, if_pos h, run]

theorem runAcc_of_running {r : Region} {f : State → State} {s : State} (h : regionStopped r s = false) :
    runAcc r f s = run f s := by
  rw [runAcc, run, access, h, if_neg Bool.false_ne_true, run]

/-- Work that changes nothing completes with the state as it is, whether its region runs or not. -/
theorem runIn_of_unchanged {r : Region} {f : State → State} {s : State} (h : f s = s) : runIn r f s = .next s :=
  run_of_unchanged (by rw [within, h, ite_self])

/-! ### The parts that the clock, the scheduler and a frame that is passed on may change -/

section
variable {ps : List Part} {s t : State}

@[simp] theorem only_onQueue {q : Nat} {f : QueueSt → QueueSt} (h : .host ∈ ps) : only ps s (onQueue q f t) ↔ only ps s t :=
  only_iff_of_part .host h (by rintro ⟨⟩ <;> simp [Part.same])
theorem only_ring {l : List RingSt} (h : .ring ∈ ps) : only ps s { t with ring := l } ↔ only ps s t :=
  only_iff_of_part .ring h (by rintro ⟨⟩ <;> simp [Part.same])
@[simp] theorem only_advanceTb {a : Nat} (h : .time ∈ ps) : only ps s (advanceTb a t) ↔ only ps s t := by
  simp [advanceTb, slewTo, h]
@[simp] theorem only_noteRun {f n : Nat} (h : .host ∈ ps) : only ps s (noteRun f n t) ↔ only ps s t := only_onFlow h
@[simp] theorem only_placeItem {i : Item} {c now : Nat} (hc : .chip ∈ ps) (hh : .host ∈ ps) :
    only ps s (placeItem i c now t) ↔ only ps s t := by
  simp [placeItem, hc, hh]

end

@[simp] theorem advanceTb_host (a : Nat) (s : State) : (advanceTb a s).host = s.host :=
  (only_advanceTb (ps := [.time]) (by decide)).2 (only_refl _ s) .host (by decide)

/-- What every dispatch of an item preserves, the scheduler preserves. -/
theorem schedule_preserves {P : State → Prop} {now : Nat} (h : ∀ i c t, P t → P (placeItem i c now t)) {s : State} (hs : P s) :
    P (schedule now s) := by
  have hn (n : Nat) : P (scheduleN n now s) := by
    induction n generalizing s with
    | zero => exact hs
    | succ n ih =>
      unfold scheduleN
      split
      · exact hs
      · split
        · exact ih (h _ _ _ hs)
        · exact hs
  exact hn 8

@[simp] theorem only_schedule {ps : List Part} {now : Nat} {s t : State} (hc : .chip ∈ ps) (hh : .host ∈ ps) :
    only ps s (schedule now t) ↔ only ps s t :=
  only_iff_of_only (schedule_preserves (P := only ps t) (fun _ _ _ h => (only_placeItem hc hh).2 h) (only_refl ps t))

/-- What the update of an element leaves, the update of a table leaves of each element. -/
theorem nth_updAt_same {α β : Type} [Inhabited α] {P : α → β} {f : α → α} (h : ∀ x, P (f x) = P x) (l : List α) (i j : Nat) :
    P (nth (updAt l i f) j) = P (nth l j) := by
  rw [nth_updAt]
  split
  · rename_i hj; rw [h, hj.1]
  · rfl

/-- A dispatch leaves whether a flow is enabled. -/
theorem placeItem_en (f : Nat) (i : Item) (c now : Nat) (s : State) :
    (flowSt (placeItem i c now s) f).en = (flowSt s f).en := by
  simp only [flowSt, placeItem, trace_flows, onFlow_host, onCore_host, onHost_host]
  exact nth_updAt_same (P := FlowSt.en) (f := fun x => { x with disp := satAdd 0xFFFFFFFF x.disp 1 }) (fun _ => rfl) _ _ _

theorem schedule_en (f now : Nat) (s : State) : (flowSt (schedule now s) f).en = (flowSt s f).en :=
  schedule_preserves (P := fun t => (flowSt t f).en = (flowSt s f).en) (fun i c t h => (placeItem_en f i c now t).trans h) rfl

theorem trace_queues (k f handle core result info dl : Nat) (s : State) :
    (trace k f handle core result info dl s).host.queues = s.host.queues := by
  obtain ⟨l, n, h⟩ := trace_host k f handle core result info dl s
  rw [h]

theorem trace_staging (k f handle core result info dl : Nat) (s : State) :
    (trace k f handle core result info dl s).host.staging = s.host.staging := by
  obtain ⟨l, n, h⟩ := trace_host k f handle core result info dl s
  rw [h]

/-! ### The trap of an ordinary item (R355) -/

/-- `mstatus` after a trap: MIE is saved in MPIE and cleared, and MPP is machine mode. -/
def trapStatus (m : Word) : Word := (m &&& 0xFFFFE777) ||| (if m.getLsbD 3 then 0x1880 else 0x1800)

theorem trapStatus_mie (m : Word) : (trapStatus m).getLsbD 3 = false := by
  unfold trapStatus
  split <;> simp

theorem trapStatus_mpie (m : Word) : (trapStatus m).getLsbD 7 = m.getLsbD 3 := by
  unfold trapStatus
  split <;> simp_all

theorem trapStatus_mpp (m : Word) : (trapStatus m).extractLsb' 11 2 = 3 := by
  refine BitVec.eq_of_getLsbD_eq fun i hi => ?_
  unfold trapStatus
  split <;> interval_cases i <;> simp

theorem coreTrap_of_ordinary {c now : Nat} {i : Item} {s : State} (hi : (coreSt s c).item = some i)
    (ht : (flowCfg s i.flow).type ≠ 2) : coreTrap c now s = trapEntry c s := by
  simp only [coreTrap, hi, ht, if_false]

/-- The saved program counter, the cause and the trap value are drawn, and the core enters `mtvec`. -/
theorem coreSt_trapEntry {c : Nat} {s : State} (h : c < s.host.cores.length) : ∃ e w v,
    coreSt (trapEntry c s) c = { coreSt s c with
      mtvec := true, mepc := e, mcause := w, mtval := v, pc := s.image.mtvec &&& 0xFFFFFFFC,
      mstatus := trapStatus (coreSt s c).mstatus } := ⟨_, _, _, nth_updAt_self _ _ _ h⟩

theorem only_trapEntry (c : Nat) (s : State) : only [.host, .free] s (trapEntry c s) :=
  (only_onCore (t := { s with free := s.free + 3 }) (by decide)).2 ((only_free (by decide)).2 (only_refl _ s))

/-! ### The escape of a tick-locked item (R86, R370) -/

/-- From s to t the tick-locked item of core c, of flow f, has escaped: it has ended, the output of its flow is invalid, and no
queue has changed. -/
structure TlEscaped (c f : Nat) (s t : State) : Prop where
  item : (coreSt t c).item = none
  escaped : (flowSt t f).escaped = true
  valid : (flowSt t f).valid = false
  queues : t.host.queues = s.host.queues
  staging : t.host.staging = s.host.staging
  only : only [.chip, .time, .host] s t

theorem TlEscaped.settle {c f : Nat} {s t u : State} (h : TlEscaped c f s t) : TlEscaped c f s (settle u t) := by
  obtain ⟨hitem, hesc, hvalid, hqueues, hstaging, honly⟩ := h
  refine ⟨?_, ?_, ?_, ?_, ?_, (only_settle_iff (by decide)).2 honly⟩
  · rwa [coreSt, settle_host]
  · rwa [flowSt, settle_host]
  · rwa [flowSt, settle_host]
  · rwa [settle_host]
  · rwa [settle_host]

/-- A tick-locked item that traps: its groups are marked, HOST_TL_ESCAPE is raised, and the output of its flow is invalid. -/
def tlTrapped (now : Nat) (i : Item) (s : State) : State :=
  onFlow i.flow (fun f => { f with escaped := true, valid := false })
    (event 0x0962 i.flow (markNext 5 (flowCfg s i.flow).gdep (advanceTb now s)))

theorem tlTrapped_host (now : Nat) (i : Item) (s : State) : (tlTrapped now i s).host =
    { s.host with flows := updAt s.host.flows i.flow (fun f => { f with escaped := true, valid := false }) } := by
  simp [tlTrapped, event, markNext]

theorem only_tlTrapped (now : Nat) (i : Item) (s : State) : only [.chip, .time, .host] s (tlTrapped now i s) := by
  simp [tlTrapped]

/-- The item then ends; its flow is fed by no queue, so where no item waits none is dispatched after it. -/
theorem coreTrap_of_tickLocked {c now : Nat} {i : Item} {s : State} (hi : (coreSt s c).item = some i)
    (ht : (flowCfg s i.flow).type = 2) (h0 : s.host.items = []) :
    ∃ a b d, coreTrap c now s = trace 4 i.flow i.handle c 3 a i.deadline
      (onFlow i.flow (fun f => { f with last := b, maxseen := max f.maxseen d })
        (onCore c (fun k => { k with item := none, mtvec := false }) (tlTrapped now i s))) := by
  have himage : (tlTrapped now i s).image = s.image := only_tlTrapped now i s .image (by decide)
  have hu : (coreSt (tlTrapped now i s) c).item = some i := by rw [coreSt, tlTrapped_host]; exact hi
  have hend := endItem_of_unbound (r := 3) (now := now) hu (by rw [flowCfg, himage, ← flowCfg, ht]; decide)
  have hx : coreTrap c now s = schedule now (endItem c 3 now (tlTrapped now i s)) := by
    simp only [coreTrap, hi, ht, if_true, tlTrapped]
  have hitems : (endItem c 3 now (tlTrapped now i s)).host.items = [] := by
    rw [hend, trace_items, noteRun, onFlow_host, onCore_host, tlTrapped_host]
    exact h0
  rw [hx, schedule_of_no_items hitems, hend]
  exact ⟨_, _, _, rfl⟩

theorem tlEscaped_coreTrap {c now : Nat} {i : Item} {s : State} (hc : c < s.host.cores.length)
    (hf : i.flow < s.host.flows.length) (hi : (coreSt s c).item = some i) (ht : (flowCfg s i.flow).type = 2)
    (h0 : s.host.items = []) : TlEscaped c i.flow s (coreTrap c now s) := by
  obtain ⟨a, b, d, hx⟩ := coreTrap_of_tickLocked (now := now) hi ht h0
  rw [hx]
  refine ⟨?_, ?_, ?_, ?_, ?_, ?_⟩
  · simp [coreSt, tlTrapped_host, hc]
  · simp [flowSt, tlTrapped_host, hf]
  · simp [flowSt, tlTrapped_host, hf]
  · simp [trace_queues, tlTrapped_host]
  · simp [trace_staging, tlTrapped_host]
  · simpa using only_tlTrapped now i s

theorem storeBy_of_none {w : Who} {now : Nat} {f : State → State} {s : State} (h : tlFlow s w = none) :
    storeBy w now f s = f s := by
  simp [storeBy, h]

/-- A store to a register by a core that runs a tick-locked item is the trap of that core. -/
theorem storeBy_of_tickLocked {c now : Nat} {f : State → State} {i : Item} {s : State} (hc : c < 8)
    (hi : (coreSt s c).item = some i) (ht : (flowCfg s i.flow).type = 2) :
    storeBy (.core c) now f s = coreTrap c now s := by
  simp [storeBy, tlFlow, coreOf, Nat.mod_eq_of_lt hc, hi, ht]

/-- A command that is such a store completes with the escape of the item. -/
theorem runAcc_storeBy_of_tickLocked {c now : Nat} {f : State → State} {i : Item} {s : State} (hs : regionStopped .host s = false)
    (h8 : c < 8) (hc : c < s.host.cores.length) (hi : (coreSt s c).item = some i) (hf : i.flow < s.host.flows.length)
    (ht : (flowCfg s i.flow).type = 2) (h0 : s.host.items = []) :
    ∃ t, runAcc .host (storeBy (.core c) now f) s = .next t ∧ TlEscaped c i.flow s t := by
  refine ⟨_, runAcc_of_running hs, TlEscaped.settle ?_⟩
  rw [storeBy_of_tickLocked h8 hi ht]
  exact tlEscaped_coreTrap hc hf hi ht h0

/-! ### Pushes (R373) -/

/-- The port of core c holds the result of its push. -/
def pushAnswered (c r : Nat) (s : State) : State := onCore c (fun k => { k with pushValid := true, pushResult := r }) s

theorem coreSt_pushAnswered {c r : Nat} {s : State} (h : c < s.host.cores.length) :
    coreSt (pushAnswered c r s) c = { coreSt s c with pushValid := true, pushResult := r } := nth_updAt_self _ _ _ h

theorem pushResult_motion {q : Nat} (h : q < 16) (s : State) (len : Nat) :
    pushResult s q len =
      if maxGroups s ≤ q ∨ nodeMode s = true ∨ (queueCfg s q).fw = false then 2 else if len ≠ 160 then 3
      else if 64 ≤ (grpSt s q).queue.length + (s.host.staging.filter (fun p => p.1 == q)).length then 1 else 0 := by
  have hn : (decide (maxGroups s ≤ q) || nodeMode s || !(queueCfg s q).fw) = true ↔
      maxGroups s ≤ q ∨ nodeMode s = true ∨ (queueCfg s q).fw = false := by simp [or_assoc]
  rw [pushResult, if_pos h]
  exact if_congr hn rfl (if_congr bne_iff_ne rfl rfl)

theorem pushResult_mailbox {q len : Nat} {s : State} (h1 : 16 ≤ q) (h2 : q < 24) (h3 : 1 ≤ len) (h4 : len ≤ 1536)
    (hf : qFull s q = false) : pushResult s q len = 0 := by
  have hlen : ¬ (len = 0 ∨ 1536 < len) := by omega
  simp [pushResult, Nat.not_lt.2 h1, h2, hlen, hf]

theorem pushResult_none {q : Nat} (h : 24 ≤ q) (s : State) (len : Nat) : pushResult s q len = 2 := by
  simp [pushResult, show ¬ q < 16 by omega, Nat.not_lt.2 h]

theorem queuePush_motion_accepted {c q len : Nat} {s : State} (hq : q < 16) (h : pushResult s q len = 0) :
    queuePush c q len s = acked (onHost (fun x => { x with
      staging := x.staging ++ [(q, parseSeg (stagedBytes (coreSt s c) len))] }) (pushAnswered c 0 s)) := by
  simp only [queuePush, h, hq, if_true, pushAnswered]

theorem queuePush_motion_full {c q len : Nat} {s : State} (hq : q < 16) (h : pushResult s q len = 1) :
    queuePush c q len s =
      acked (onQueue q (fun x => { x with drops := satAdd 0xFFFF x.drops 1 }) (pushAnswered c 1 s)) := by
  simp only [queuePush, h, hq, if_true, pushAnswered]

/-- A push that its queue does not take, or of a wrong length, leaves its result only. -/
theorem queuePush_refused {c q len r : Nat} {s : State} (h : pushResult s q len = r + 2) :
    queuePush c q len s = acked (pushAnswered c (r + 2) s) := by
  simp only [queuePush, h, pushAnswered]
  split <;> rfl

theorem queuePush_mailbox {c q len : Nat} {s : State} (hq : 16 ≤ q) (h : pushResult s q len = 0) :
    queuePush c q len s = acked (pushEntry q { bytes := stagedBytes (coreSt s c) len } (pushAnswered c 0 s)) := by
  simp [queuePush, h, Nat.not_lt.2 hq, pushAnswered]

/-- A queue with room takes the entry; the flows bound to it may note that it is not empty. -/
theorem pushEntry_of_room {q : Nat} {s : State} (h : qFull s q = false) (e : QEntry) : ∃ b,
    pushEntry q e s = onQueue q (fun x => { x with entries := x.entries ++ [e] }) (onChip (fun c => { c with bound := b }) s) := by
  rw [pushEntry, h, if_neg Bool.false_ne_true]
  dsimp only
  split
  · exact ⟨_, rfl⟩
  · exact ⟨s.chip.bound, rfl⟩

/-- What a push of firmware to a motion queue leaves: its result, and in the staging list the segment that was accepted. -/
theorem exec_queuePush_motion {c q len : Nat} {s : State} (hs : regionStopped .host s = false) (hw : tlFlow s (.core c) = none)
    (hc : c < s.host.cores.length) (hq : q < 16) :
    ∃ t, exec (.queuePush c q len) s = .next t ∧ t.chip.resp = .done ∧
      coreSt t c = { coreSt s c with pushValid := true, pushResult := pushResult s q len } ∧
      t.host.staging = (if pushResult s q len = 0 then
        s.host.staging ++ [(q, parseSeg (stagedBytes (coreSt s c) len))] else s.host.staging) ∧
      quiet s t ∧ only [.chip, .host] s t := by
  have hrun {t : State} (hx : queuePush c q len s = t) (hq : quiet s t) : exec (.queuePush c q len) s = .next t :=
    (runAcc_of_running hs).trans (run_of_quiet ((storeBy_of_none hw).trans hx) hq)
  match h : pushResult s q len with
  | 0 =>
    exact ⟨_, hrun (queuePush_motion_accepted hq h) ⟨rfl, rfl, rfl⟩, rfl, coreSt_pushAnswered hc, rfl, ⟨rfl, rfl, rfl⟩,
      by simp [pushAnswered]⟩
  | 1 =>
    exact ⟨_, hrun (queuePush_motion_full hq h) ⟨rfl, rfl, rfl⟩, rfl, coreSt_pushAnswered hc, rfl, ⟨rfl, rfl, rfl⟩,
      by simp [pushAnswered]⟩
  | r + 2 =>
    exact ⟨_, hrun (queuePush_refused h) ⟨rfl, rfl, rfl⟩, rfl, coreSt_pushAnswered hc, rfl, ⟨rfl, rfl, rfl⟩,
      by simp [pushAnswered]⟩

/-! ### Acyclic frames of the ring (R134) -/

/-- A frame that leaves a port changes no more than its ring. -/
theorem sendOn_ring (r : Nat) (ccw : Bool) (f : RingTx) (s : State) :
    ∃ l, sendOn r ccw f s = { s with ring := l } ∧ onlyAt r s.ring l := by
  unfold sendOn
  split
  · exact ⟨_, rfl, onlyAt_updAt _ _ _⟩
  · exact ⟨s.ring, rfl, rfl, fun _ _ => rfl⟩

theorem passFrame_ring (r : Nat) (ccw : Bool) (a : Nat) (cyclic : Bool) (h : RingHead) (pay : RingPay) (s : State) :
    ∃ l, passFrame r ccw a cyclic h pay s = { s with ring := l } ∧ onlyAt r s.ring l := by
  unfold passFrame
  dsimp only
  split
  · exact sendOn_ring ..
  · split
    · exact ⟨s.ring, rfl, rfl, fun _ _ => rfl⟩
    · exact sendOn_ring ..

/-- A sound acyclic frame enters the mailbox that the image names; it has been heard in its ring, and a node passes it on. -/
theorem acyclicFrame_of_mailbox {r a : Nat} {ccw : Bool} {h : RingHead} {data : List Byte} {s : State}
    (h0 : (ringSt s r).role ≠ 0) (hd : (ringSt s r).state ≠ .down) (hok : frameOk s r h = true)
    (h1 : 16 ≤ (ringCfg s r).mailbox) (h2 : (ringCfg s r).mailbox < 24) :
    ∃ l, acyclicFrame r ccw a h data s = pushEntry (ringCfg s r).mailbox { bytes := data } { s with ring := l } ∧
      onlyAt r s.ring l := by
  have hq : ¬ ((ringCfg s r).mailbox < 16 ∨ 24 ≤ (ringCfg s r).mailbox) := by omega
  have hx : acyclicFrame r ccw a h data s = pushEntry (ringCfg s r).mailbox { bytes := data }
      (if isMaster (heard r a s) r then heard r a s else passFrame r ccw a false h .other (heard r a s)) := by
    simp [acyclicFrame, h0, hd, hok, hq]
  have hheard : onlyAt r s.ring (heard r a s).ring := onlyAt_updAt _ _ _
  obtain ⟨l, hl, hpass⟩ := passFrame_ring r ccw a false h .other (heard r a s)
  rw [hx, hl]
  split
  · exact ⟨_, rfl, hheard⟩
  · exact ⟨l, rfl, onlyAt_trans hheard hpass⟩

/-- Settles O37: a trap is the entry of `mtvec` or the escape of a tick-locked item, which a store to a register is too; a push is
split at its RESULT, and an entry that finds room in its queue is one equation for firmware and for the ring. -/
theorem coresFlowsAndQueues : Obligations.CoresFlowsAndQueues := by
  refine ⟨fun c now i s hu hc hi ht => ?_, fun c now i s hu hc hi hf ht h0 => ?_,
    fun c now s h => runIn_of_unchanged (by simp only [coreTrap, h]), fun c q n now i s hs h8 hc hi hf ht h0 j hj => ?_,
    fun f now s hs hf => ?_, fun f s hs hf => ?_, fun b s hs hb => ?_, fun c q len s hs hw hc hq => ?_,
    fun c q len s hs hw hc hq h1 h2 h3 h4 hfull => ?_, fun c q len s hs hw hc hq => ?_,
    fun r q a ccw h data s hu h0 hd hr hok hm h1 h2 hq hfull => ?_,
    fun r a ccw h data s h0 => runIn_of_unchanged (by simp [acyclicFrame, h0])⟩
  · obtain ⟨e, w, v, hcore⟩ := coreSt_trapEntry hc
    have hq : quiet s (trapEntry c s) := ⟨rfl, rfl, rfl⟩
    refine ⟨_, (runIn_of_up hu).trans (run_of_quiet (coreTrap_of_ordinary hi ht) hq), ?_⟩
    rw [hcore]
    exact ⟨rfl, hi, rfl, trapStatus_mie _, trapStatus_mpie _, trapStatus_mpp _, onlyAt_updAt _ _ _, hq, only_trapEntry c s⟩
  · obtain ⟨hitem, hescaped, hvalid, -, -, honly⟩ := (tlEscaped_coreTrap (now := now) hc hf hi ht h0).settle (u := s)
    exact ⟨_, runIn_of_up hu, hitem, hescaped, hvalid, honly⟩
  · have hescape (n : Nat) (f : State → State) := runAcc_storeBy_of_tickLocked (now := n) (f := f) hs h8 hc hi hf ht h0
    have hexec : ∃ t, exec j s = .next t ∧ TlEscaped c i.flow s t := by
      simp only [List.mem_cons, List.not_mem_nil, or_false] at hj
      obtain rfl | rfl | rfl := hj
      · exact hescape now (enqueue c now)
      · exact hescape s.time.tb (queuePush c q n)
      · exact hescape s.time.tb (queueAck (.core c) q n)
    obtain ⟨t, ht, hitem, hescaped, hvalid, hqueues, hstaging, honly⟩ := hexec
    exact ⟨t, ht, hitem, hescaped, hvalid, hqueues, hstaging, honly⟩
  · refine ⟨_, runAcc_of_running hs, ?_, settle_resp _ _, by simp [flowEnable]⟩
    rw [flowSt, settle_host]
    refine (schedule_en f now _).trans ?_
    simp [flowSt, hf]
  · have hq : quiet s (flowDisable f s) := ⟨rfl, rfl, rfl⟩
    exact ⟨_, (runAcc_of_running hs).trans (run_of_quiet rfl hq), nth_updAt_self _ _ _ hf, rfl, rfl, rfl, onlyAt_updAt _ _ _, hq,
      by simp [flowDisable]⟩
  · have hq : quiet s (publishFlip b s) := ⟨rfl, rfl, rfl⟩
    exact ⟨_, (runAcc_of_running hs).trans (run_of_quiet rfl hq), rfl, rfl, hq, by simp [publishFlip]⟩
  · obtain ⟨t, hrun, hresp, hcore, hstaging, hquiet, honly⟩ := exec_queuePush_motion (len := len) hs hw hc hq
    have hresult : (coreSt t c).pushResult = pushResult s q len := by rw [hcore]
    exact ⟨t, hrun, hresp, by rw [hcore], hresult.trans (pushResult_motion hq s len), by rw [hresult, hstaging], hquiet, honly⟩
  · obtain ⟨b, hb⟩ := pushEntry_of_room (s := pushAnswered c 0 s) hfull { bytes := stagedBytes (coreSt s c) len }
    have hx := (queuePush_mailbox h1 (pushResult_mailbox h1 h2 h3 h4 hfull)).trans (congrArg acked hb)
    exact ⟨_, (runAcc_of_running hs).trans (run_of_quiet ((storeBy_of_none hw).trans hx) ⟨rfl, rfl, rfl⟩), rfl,
      congrArg CoreSt.pushResult (coreSt_pushAnswered hc), congrArg QueueSt.entries (nth_updAt_self _ _ _ hq),
      onlyAt_updAt _ _ _, rfl, ⟨rfl, rfl, rfl⟩, by simp [pushAnswered]⟩
  · have hx := queuePush_refused (c := c) (pushResult_none hq s len)
    exact ⟨_, (runAcc_of_running hs).trans (run_of_quiet ((storeBy_of_none hw).trans hx) ⟨rfl, rfl, rfl⟩), rfl,
      congrArg CoreSt.pushResult (coreSt_pushAnswered hc), rfl, rfl, ⟨rfl, rfl, rfl⟩, by simp [pushAnswered]⟩
  · subst hm
    obtain ⟨l, hl, hring⟩ := acyclicFrame_of_mailbox (ccw := ccw) (a := a) (data := data) h0 hd hok h1 h2
    obtain ⟨b, hb⟩ := pushEntry_of_room (s := { s with ring := l }) hfull { bytes := data }
    refine ⟨_, (runIn_of_up hu).trans (run_of_quiet (hl.trans hb) ⟨rfl, rfl, rfl⟩),
      congrArg QueueSt.entries (nth_updAt_self _ _ _ hq), onlyAt_updAt _ _ _, hring, ⟨rfl, rfl, rfl⟩, ?_⟩
    rw [only_onQueue (by decide), only_onChip (by decide), only_ring (by decide)]
    exact only_refl _ s

end Sys2Proof.Machine

/-! SUPPORT. Instants: a command that raises one event, or one that is suppressed within its tick, and updates of a table in
sequence. -/

namespace Sys2Proof.Machine

/-! ### Events at the instant of a command -/

/-- An event on a state that has raised none and whose clock stands is the only one of the command, at its instant. -/
theorem logged_event_of_clock {c d : Nat} {s u : State} (hq : quiet s u) (hc : u.time.clock = s.time.clock) :
    logged c d s (event c d u) := by
  obtain ⟨hev, hwr, htotal⟩ := hq
  have htb : u.time.tb = s.time.tb := congrArg Clock.tb hc
  have htick : u.time.tickno = s.time.tickno := congrArg Clock.tickno hc
  simp [logged, event, entryAt, hev, hwr, htotal, htb, htick]

/-- A command whose meaning is a state with one new event completes with that state. -/
theorem run_of_logged {c d : Nat} {f : State → State} {s t : State} (hx : f s = t) (hl : logged c d s t) : run f s = .next t := by
  rw [run, hx, settle_logged hl]

/-- An event that is raised at most once per tick is the only one of its command, or is suppressed (R454). -/
theorem eventOnce_quiet_or_logged {c k d : Nat} {s u : State} (hq : quiet s u) (ht : u.time.clock = s.time.clock)
    (ho : u.chip.once = s.chip.once) :
    (s.chip.once.contains (c, k) = false → logged c d s (eventOnce c k d u)) ∧
      (s.chip.once.contains (c, k) = true → quiet s (eventOnce c k d u)) := by
  rw [← ho]
  refine ⟨fun h => ?_, fun h => ?_⟩
  · rw [eventOnce, h, if_neg Bool.false_ne_true]
    exact logged_event_of_clock hq ht
  · rw [eventOnce, if_pos h]
    exact hq

/-- A command whose meaning ends in such an event completes with it, without a reordering. -/
theorem run_of_eventOnce {c k d : Nat} {f : State → State} {s u : State} (hx : f s = eventOnce c k d u) (hq : quiet s u)
    (ht : u.time.clock = s.time.clock) (ho : u.chip.once = s.chip.once) : run f s = .next (eventOnce c k d u) := by
  obtain ⟨hlog, hsup⟩ := eventOnce_quiet_or_logged (c := c) (k := k) (d := d) hq ht ho
  cases h : s.chip.once.contains (c, k)
  · exact run_of_logged hx (hlog h)
  · exact run_of_quiet hx (hsup h)

@[simp] theorem eventOnce_time (c k d : Nat) (s : State) : (eventOnce c k d s).time = s.time := by
  unfold eventOnce
  split <;> rfl

/-! ### Tables -/

theorem updAt_id {α : Type} (l : List α) (i : Nat) : updAt l i (fun x => x) = l := by
  induction l generalizing i with
  | nil => rfl
  | cons x l ih => cases i <;> simp [updAt, ih]

theorem updAt_updAt {α : Type} (l : List α) (i : Nat) (f g : α → α) : updAt (updAt l i f) i g = updAt l i (fun x => g (f x)) := by
  induction l generalizing i with
  | nil => rfl
  | cons x l ih => cases i <;> simp [updAt, ih]

end Sys2Proof.Machine

/-! PROOF. PrecisionTime: what the clock servo, the choice of the followed domain and the best master clock algorithm leave in
TIME, and O4. -/

namespace Sys2Proof.Machine

/-! ### The counter and its rate (R94, R99) -/

/-- RATE slews: of TIME the rate and the account of its slewing change. -/
theorem slewTo_eq (a : Nat) (s : State) : ∃ r x y,
    slewTo a s = onTime (fun t => { t with rate := r, slewAt := x, slewAcc := y }) s := by
  simp only [slewTo, onTime]
  split <;> exact ⟨_, _, _, rfl⟩

theorem advanceTb_eq {s : State} (h : s.time.stopped = false) (a : Nat) : ∃ r x y z, advanceTb a s =
    onTime (fun t => { t with tb := max s.time.tb a, holdSec := z, rate := r, slewAt := x, slewAcc := y }) s := by
  obtain ⟨r, x, y, hs⟩ := slewTo_eq a s
  rw [advanceTb, h, if_neg Bool.false_ne_true, hs]
  exact ⟨r, x, y, _, rfl⟩

theorem servoTo_eq (a : Nat) (offset rate : Int) (s : State) : ∃ r x y, servoTo a offset rate s = onTime (fun t => { t with
    rate := r, slewAt := x, slewAcc := y, target := clampRate (rate + phaseTerm s offset) }) s := by
  obtain ⟨r, x, y, hs⟩ := slewTo_eq a s
  rw [servoTo, hs]
  exact ⟨r, x, y, rfl⟩

theorem stopped_of_ptpOn {s : State} (h : ptpOn s = true) : s.time.stopped = false := by
  simp only [ptpOn, Bool.and_eq_true, Bool.not_eq_true'] at h
  exact h.2

section
variable {ps : List Part} {s t : State} {a d : Nat}

@[simp] theorem only_slewTo (h : .time ∈ ps) : only ps s (slewTo a t) ↔ only ps s t := by simp [slewTo, h]
@[simp] theorem only_servoTo {o r : Int} (h : .time ∈ ps) : only ps s (servoTo a o r t) ↔ only ps s t := by simp [servoTo, h]
@[simp] theorem only_enterHoldover (hc : .chip ∈ ps) (h : .time ∈ ps) : only ps s (enterHoldover a t) ↔ only ps s t := by
  unfold enterHoldover
  dsimp only
  split_ifs <;> simp [hc, h]
@[simp] theorem only_followDom (hc : .chip ∈ ps) (h : .time ∈ ps) : only ps s (followDom d a t) ↔ only ps s t := by
  simp [followDom, hc, h]
@[simp] theorem only_selectDomain (hc : .chip ∈ ps) (h : .time ∈ ps) : only ps s (selectDomain a t) ↔ only ps s t := by
  simp [selectDomain, hc, h]
@[simp] theorem only_onDom {f : DomSt → DomSt} (h : .time ∈ ps) : only ps s (onDom d a f t) ↔ only ps s t := only_onTime h
@[simp] theorem only_lockCheck {o : Int} (hc : .chip ∈ ps) (h : .time ∈ ps) : only ps s (lockCheck d o t) ↔ only ps s t := by
  simp [lockCheck, hc, h]

end

/-! ### The domains (R97, R98) -/

/-- A new count of offsets below 100 ns leaves the rest of each domain. -/
theorem doms_of_below {β : Type} {P : DomSt → β} (hP : ∀ x n, P { x with below := n } = P x) (l : List DomSt) (d e n : Nat) :
    P (nth (updAt l d (fun y => { y with below := n })) e) = P (nth l e) :=
  nth_updAt_same (fun x => hP x n) l d e

theorem enterHoldover_doms (a : Nat) (s : State) : (enterHoldover a s).time.doms = s.time.doms := by
  obtain ⟨r, x, y, hs⟩ := slewTo_eq a s
  simp only [enterHoldover, hs]
  split_ifs <;> rfl

theorem servoTo_doms (a : Nat) (o r : Int) (s : State) : (servoTo a o r s).time.doms = s.time.doms := by
  obtain ⟨_, _, _, hs⟩ := servoTo_eq a o r s
  rw [hs]
  rfl

theorem domSt_of_doms {s t : State} (h : t.time.doms = s.time.doms) (e : Nat) : domSt t e = domSt s e := by rw [domSt, h, domSt]

/-- To follow a domain leaves of each domain all but the count of offsets below 100 ns. -/
theorem domSt_followDom {β : Type} {P : DomSt → β} (hP : ∀ x n, P { x with below := n } = P x) (d a e : Nat) (s : State) :
    P (domSt (followDom d a s) e) = P (domSt s e) := by
  unfold followDom
  dsimp only
  split
  · split
    · rfl
    · exact congrArg P (domSt_of_doms (enterHoldover_doms a s) e)
  · split
    · refine (congrArg P (domSt_of_doms (servoTo_doms ..) e)).trans ?_
      refine (doms_of_below hP _ d e 0).trans ?_
      split <;> rfl
    · exact congrArg P (domSt_of_doms (servoTo_doms ..) e)

/-- So does the choice of the followed domain. -/
theorem domSt_selectDomain {β : Type} {P : DomSt → β} (hP : ∀ x n, P { x with below := n } = P x) (a e : Nat) (s : State) :
    P (domSt (selectDomain a s) e) = P (domSt s e) := by
  have hhold : P (domSt (enterHoldover a s) e) = P (domSt s e) := congrArg P (domSt_of_doms (enterHoldover_doms a s) e)
  simp only [selectDomain]
  split_ifs <;> simp only [domSt_followDom hP, hhold]

/-- An update of a domain leaves it updated, but for the instant since when it has been valid. -/
theorem domSt_onDom {d : Nat} {s : State} (a : Nat) (f : DomSt → DomSt) (h : d < s.time.doms.length) :
    ∃ v, domSt (onDom d a f s) d = { f (domSt s d) with validAt := v } := by
  simp only [domSt, onDom, onTime_time, nth_updAt_self _ _ _ h]
  split
  · exact ⟨a, rfl⟩
  · exact ⟨_, rfl⟩

theorem domSt_onDom_ne {d e : Nat} (h : e ≠ d) (a : Nat) (f : DomSt → DomSt) (s : State) :
    domSt (onDom d a f s) e = domSt s e := nth_updAt_ne _ _ _ _ h

theorem advanceTb_doms {s : State} (h : s.time.stopped = false) (a : Nat) : (advanceTb a s).time.doms = s.time.doms := by
  obtain ⟨_, _, _, _, ha⟩ := advanceTb_eq h a
  rw [ha]
  rfl

theorem domSt_settle (d : Nat) (s t : State) : domSt (settle s t) d = domSt t d := by rw [domSt, settle_time, domSt]

/-- A domain whose table entry does not exist is not valid. -/
theorem lt_doms_of_valid {d : Nat} {s : State} (h : (domSt s d).valid = true) : d < s.time.doms.length := by
  by_contra hd
  rw [domSt, nth, List.getD_eq_default _ _ (Nat.not_lt.1 hd)] at h
  exact absurd h (by decide)

/-! ### The best master clock (R96) -/

theorem keyBefore_self (l : List Nat) : keyBefore l l = false := by
  induction l with
  | nil => rfl
  | cons a l ih => simp [keyBefore, ih]

theorem keyBefore_trans {l m k : List Nat} (h : keyBefore l m = true) (g : keyBefore m k = true) : keyBefore l k = true := by
  induction l generalizing m k with
  | nil => simp [keyBefore] at h
  | cons a l ih =>
    match m, k with
    | [], _ => simp [keyBefore] at h
    | _ :: _, [] => simp [keyBefore] at g
    | b :: m, c :: k =>
      simp only [keyBefore, Bool.or_eq_true, Bool.and_eq_true, decide_eq_true_eq, beq_iff_eq] at h g ⊢
      obtain h | ⟨rfl, h⟩ := h
      · obtain g | ⟨rfl, -⟩ := g
        · exact .inl (h.trans g)
        · exact .inl h
      · obtain g | ⟨rfl, g⟩ := g
        · exact .inl g
        · exact .inr ⟨rfl, ih h g⟩

/-- One of a list of grandmasters, none of which comes before it. -/
def Best (l : List GmSet) (h : GmSet) : Prop := h ∈ l ∧ ∀ k ∈ l, keyBefore (gmKey k) (gmKey h) = false

/-- The better of the best so far and a grandmaster heard after it. -/
def better (o : Option GmSet) (g : GmSet) : Option GmSet :=
  match o with
  | none => some g
  | some h => if keyBefore (gmKey g) (gmKey h) then some g else some h

theorem bestOf_append_singleton (l : List GmSet) (g : GmSet) : bestOf (l ++ [g]) = better (bestOf l) g := by
  rw [bestOf, List.foldl_append]
  rfl

theorem best_append_of_before {l : List GmSet} {g h : GmSet} (hl : Best l h) (hg : keyBefore (gmKey g) (gmKey h) = true) :
    Best (l ++ [g]) g := by
  refine ⟨by simp, fun k hk => ?_⟩
  obtain hk | rfl : k ∈ l ∨ k = g := by simpa using hk
  · rw [Bool.eq_false_iff]
    exact fun hb => Bool.noConfusion ((keyBefore_trans hb hg).symm.trans (hl.2 k hk))
  · exact keyBefore_self _

theorem best_append_of_not_before {l : List GmSet} {g h : GmSet} (hl : Best l h) (hg : keyBefore (gmKey g) (gmKey h) = false) :
    Best (l ++ [g]) h := by
  refine ⟨List.mem_append_left _ hl.1, fun k hk => ?_⟩
  obtain hk | rfl : k ∈ l ∨ k = g := by simpa using hk
  · exact hl.2 k hk
  · exact hg

/-- The grandmaster chosen from those heard is the best of them. -/
theorem best_bestOf (l : List GmSet) (g : GmSet) : ∃ h, bestOf (l ++ [g]) = some h ∧ Best (l ++ [g]) h := by
  induction l using List.reverseRecOn generalizing g with
  | nil => exact ⟨g, rfl, by simp [Best, keyBefore_self]⟩
  | append_singleton l k ih =>
    obtain ⟨h, hb, hbest⟩ := ih k
    rw [bestOf_append_singleton, hb, better]
    split
    · rename_i hg
      exact ⟨g, rfl, best_append_of_before hbest hg⟩
    · rename_i hg
      exact ⟨h, rfl, best_append_of_not_before hbest (Bool.eq_false_iff.2 hg)⟩

/-- A domain that has heard an Announce: its sender's data set is among those heard, the best of which is chosen. -/
theorem hearAnnounce_best (g : GmSet) (x : DomSt) : g ∈ (hearAnnounce g x).masters ∧
    (∃ h, (hearAnnounce g x).best = some h ∧ Best (hearAnnounce g x).masters h) ∧
    ((hearAnnounce g x).best = some g → (hearAnnounce g x).annFresh = true) := by
  refine ⟨List.mem_append_right _ (List.mem_singleton_self g), best_bestOf _ g, fun h => ?_⟩
  have hb : bestOf (x.masters.filter (fun k => k.sender != g.sender) ++ [g]) = some g := h
  simp [hearAnnounce, hb]

/-! ### The choice of the followed domain (R98, R103) -/

/-- While A is valid and followed the choice stands. -/
theorem selectDomain_of_followed {a : Nat} {s : State} (hv : (domSt s 0).valid = true) (h4 : s.time.servo ≠ 4)
    (hf : s.time.everFoll = true) (hs : s.time.sel = false) : selectDomain a s = s := by
  simp [selectDomain, hv, h4, hf, hs]

/-- Without a valid domain a device that runs is in holdover. -/
theorem selectDomain_of_none {a : Nat} {s : State} (h0 : (domSt s 0).valid = false) (h1 : (domSt s 1).valid = false)
    (hr : s.time.run = true) : selectDomain a s = enterHoldover a s := by
  simp [selectDomain, h0, h1, hr]

theorem enterHoldover_of_run {s : State} (h4 : s.time.servo ≠ 4) (hr : s.time.run = true) (a : Nat) : ∃ r x,
    enterHoldover a s = event 0x0204 0 (onTime (fun t => { t with
      rate := r, target := r, slewAt := x, slewAcc := 0, servo := 4, holdAt := a, holdSec := 0 }) s) := by
  obtain ⟨r, x, y, hs⟩ := slewTo_eq a s
  refine ⟨r, x, ?_⟩
  simp only [enterHoldover, beq_iff_eq, h4, if_false, hs, onTime_time, hr, if_true]
  rfl

/-- Domain d is followed from now on. -/
def switched (d : Nat) (s : State) : State := onTime (fun t => { t with
  sel := d == 1, servo := 3, doms := updAt t.doms d (fun y => { y with below := 0 }) }) s

/-- A change to a domain within STEPTH, from a state that is not locked. -/
theorem followDom_of_change {d : Nat} {s : State} (hf : s.time.everFoll = true) (hd : selDom s ≠ d) (h3 : s.time.servo = 3)
    (ho : (domSt s d).offset.natAbs ≤ stepTh s) (a : Nat) :
    followDom d a s = servoTo a (domSt s d).offset (domSt s d).rate (event 0x0203 0 (switched d s)) := by
  simp [followDom, hf, hd, h3, Nat.not_lt.2 ho, switched]

theorem domainRevert_of_due {a : Nat} {s : State} (hp : ptpOn s = true) (hs : s.time.sel = true) (hf : s.time.everFoll = true)
    (hv : (domSt s 0).valid = true) (hr : 0 < s.image.revert)
    (hd : (domSt s 0).validAt + s.image.revert * 1000000000 ≤ a) : domainRevert a s = followDom 0 a (advanceTb a s) := by
  simp [domainRevert, hp, hs, hf, hv, hr, hd]

theorem domainRevert_of_not_due {a : Nat} {s : State}
    (h : s.image.revert = 0 ∨ (domSt s 0).valid = false ∨ s.time.sel = false) : domainRevert a s = s := by
  obtain h | h | h := h <;> simp [domainRevert, h]

/-! ### A Sync (R97, R99 to R101) -/

theorem syncReceived_of_ptp_off {b : Bool} {time a : Nat} {rate : Int} {s : State} (h : ptpOn s = false) :
    syncReceived b time rate a s = s := by
  simp [syncReceived, h]

/-- A Sync of domain A has been heard: TB has reached its instant, and the domain has its offset and rate. -/
def syncHeard (offset rate : Int) (a : Nat) (s : State) : State :=
  onTime (fun t => { t with lastSync := a })
    (onDom 0 a (fun x => { x with offset := offset, rate := rate, syncFresh := true }) (advanceTb a s))

/-- What a Sync of domain A that is heard leaves in TIME, and in the domain when that was valid. -/
structure SyncHeard (offset rate : Int) (a : Nat) (s u : State) : Prop where
  time : ∃ l r x y z, u.time = { s.time with
    doms := l, tb := max s.time.tb a, rate := r, slewAt := x, slewAcc := y, holdSec := z, lastSync := a }
  valid : (domSt u 0).valid = true
  offset : (domSt u 0).offset = offset
  rate : (domSt u 0).rate = rate
  only : only [.time] s u

/-- A valid domain stays valid when a Sync of it is heard. -/
theorem valid_of_sync {x : DomSt} (h : x.valid = true) (offset rate : Int) (v : Nat) :
    ({ x with offset := offset, rate := rate, syncFresh := true, validAt := v } : DomSt).valid = true := by
  simp only [DomSt.valid] at h ⊢
  split at h <;> simp_all

theorem syncHeard_spec {s : State} (hs : s.time.stopped = false) (hv : (domSt s 0).valid = true) (offset rate : Int) (a : Nat) :
    SyncHeard offset rate a s (syncHeard offset rate a s) := by
  obtain ⟨r, x, y, z, ha⟩ := advanceTb_eq hs a
  have hlen : 0 < (advanceTb a s).time.doms.length := by
    rw [advanceTb_doms hs]
    exact lt_doms_of_valid hv
  obtain ⟨v, hd⟩ := domSt_onDom a (fun x => { x with offset := offset, rate := rate, syncFresh := true }) hlen
  rw [domSt_of_doms (advanceTb_doms hs a)] at hd
  have hd' : domSt (syncHeard offset rate a s) 0 = _ := hd
  refine ⟨?_, ?_, ?_, ?_, ?_⟩
  · rw [syncHeard, ha]
    exact ⟨_, r, x, y, z, rfl⟩
  · rw [hd']
    exact valid_of_sync hv offset rate v
  · rw [hd']
  · rw [hd']
  · simp [syncHeard]

/-- The servo at work on a Sync of the followed domain A (R99 to R101): TB steps once before ring start; an offset beyond STEPTH
is held while the ring runs; any other sets the target rate. -/
def followSync (offset rate : Int) (a : Nat) (s : State) : State :=
  if !s.time.run && !s.time.acquired && 1000 < offset.natAbs then acquireStep 0 offset rate s
  else if (lockCheck 0 offset s).time.run && stepTh (lockCheck 0 offset s) < offset.natAbs then
    servoTo a 0 rate (holdOffset offset (lockCheck 0 offset s))
  else servoTo a offset rate (lockCheck 0 offset s)

/-- The device follows domain A, which is valid (R98). -/
structure FollowsA (s : State) : Prop where
  ptp : ptpOn s = true
  everFoll : s.time.everFoll = true
  sel : s.time.sel = false
  valid : (domSt s 0).valid = true

/-- A Sync of the domain that the device follows, out of holdover, is heard and followed. -/
theorem syncReceived_of_followed {time a : Nat} {rate offset : Int} {s : State} (h : FollowsA s)
    (ho : offset = (time : Int) - (a + s.time.domofs)) (h4 : s.time.servo ≠ 4) :
    SyncHeard offset rate a s (syncHeard offset rate a s) ∧
      syncReceived false time rate a s = followSync offset rate a (syncHeard offset rate a s) := by
  obtain ⟨hp, hf, hs, hv⟩ := h
  have hheard := syncHeard_spec (stopped_of_ptpOn hp) hv offset rate a
  refine ⟨hheard, ?_⟩
  obtain ⟨⟨l, r, x, y, z, htime⟩, hvalid, -, -, -⟩ := hheard
  have h4' : (syncHeard offset rate a s).time.servo ≠ 4 := by rw [htime]; exact h4
  have hs' : (syncHeard offset rate a s).time.sel = false := by rw [htime]; exact hs
  have hf' : (syncHeard offset rate a s).time.everFoll = true := by rw [htime]; exact hf
  have hsel := selectDomain_of_followed (a := a) hvalid h4' hf' hs'
  have hx : syncReceived false time rate a s =
      if !(domSt (syncHeard offset rate a s) 0).valid || selDom (syncHeard offset rate a s) != 0 ||
          (syncHeard offset rate a s).time.servo == 4 then syncHeard offset rate a s
      else followSync offset rate a (syncHeard offset rate a s) := by
    rw [syncReceived, hp, offsetAt, ← ho]
    simp only [syncHeard] at hsel
    simp only [Bool.not_true, Bool.false_eq_true, if_false, hsel]
    rfl
  rw [hx, if_neg]
  simp [hvalid, selDom, hs', h4']

/-- The count of offsets below 100 ns and the state of the servo are all that a look at the lock changes in TIME. -/
theorem lockCheck_time (d : Nat) (offset : Int) (s : State) : ∃ n v, (lockCheck d offset s).time =
    { s.time with doms := updAt s.time.doms d (fun y => { y with below := n }), servo := v } := by
  unfold lockCheck
  extract_lets n u
  split
  · exact ⟨n, _, rfl⟩
  · split
    · exact ⟨n, _, rfl⟩
    · exact ⟨n, s.time.servo, rfl⟩

theorem lockCheck_clock (d : Nat) (offset : Int) (s : State) : (lockCheck d offset s).clock = s.clock := by
  simp [lockCheck]

/-- An offset of 100 ns or more does not count towards the lock, and ends none that is not there. -/
theorem lockCheck_of_far {d : Nat} {offset : Int} {s : State} (ho : 100 ≤ offset.natAbs) (h2 : s.time.servo ≠ 2) :
    lockCheck d offset s = onTime (fun t => { t with doms := updAt t.doms d (fun y => { y with below := 0 }) }) s := by
  simp [lockCheck, Nat.not_lt.2 ho, h2]

@[simp] theorem lockReached_time (s : State) : (lockReached s).time = s.time := by
  unfold lockReached
  split <;> rfl

theorem lockReached_of_phase {s : State} (h : s.chip.phase ≠ .tlockWait) : lockReached s = s := by simp [lockReached, h]

theorem lockReached_of_unlocked {s : State} (h : s.time.servo ≠ 2) : lockReached s = s := by simp [lockReached, h]

@[simp] theorem only_lockReached {ps : List Part} {s t : State} (hc : .chip ∈ ps) (hr : .ring ∈ ps) :
    only ps s (lockReached t) ↔ only ps s t := by
  unfold lockReached
  split
  · exact (only_ring hr).trans (only_onChip hc)
  · rfl

/-- What the servo leaves of a Sync whose offset it works on. -/
structure SyncFollowed (offset rate : Int) (a : Nat) (s t : State) : Prop where
  target : t.time.target = clampRate (rate + phaseTerm s offset)
  offset : (domSt t 0).offset = offset
  rate : (domSt t 0).rate = rate
  tb : t.time.tb = max s.time.tb a
  domofs : t.time.domofs = s.time.domofs
  phase : t.chip.phase = s.chip.phase
  only : only [.chip, .time] s t

theorem syncFollowed_of_heard {offset rate : Int} {a : Nat} {s u : State} (h : SyncHeard offset rate a s u)
    (hr : s.time.run = true) (ho : offset.natAbs ≤ stepTh s) : SyncFollowed offset rate a s (followSync offset rate a u) := by
  obtain ⟨⟨l, r, x, y, z, htime⟩, -, hoffset, hrate, honly⟩ := h
  obtain ⟨n, v, hlock⟩ := lockCheck_time 0 offset u
  have hsame : only [.chip, .time] s (lockCheck 0 offset u) :=
    (only_lockCheck (by decide) (by decide)).2 (only_mono (by decide) honly)
  have himage : (lockCheck 0 offset u).image = s.image := hsame .image (by decide)
  have hchip : u.chip = s.chip := honly .chip (by decide)
  have hstep : stepTh (lockCheck 0 offset u) = stepTh s := by rw [stepTh, himage, stepTh]
  have hrun : u.time.run = true := by rw [htime]; exact hr
  have hx : followSync offset rate a u = servoTo a offset rate (lockCheck 0 offset u) := by
    simp [followSync, hrun, hstep, Nat.not_lt.2 ho]
  have hbelow {β : Type} {P : DomSt → β} (hP : ∀ x n, P { x with below := n } = P x) :
      P (domSt (followSync offset rate a u) 0) = P (domSt u 0) := by
    rw [hx, domSt_of_doms (servoTo_doms ..), domSt, hlock]
    exact doms_of_below hP ..
  have hphase : (lockCheck 0 offset u).chip.phase = u.chip.phase := congrArg (fun c => c.2.1) (lockCheck_clock 0 offset u)
  obtain ⟨r', x', y', hservo⟩ := servoTo_eq a offset rate (lockCheck 0 offset u)
  refine ⟨?_, (hbelow fun _ _ => rfl).trans hoffset, (hbelow fun _ _ => rfl).trans hrate, ?_, ?_, ?_, ?_⟩
  · rw [hx, hservo, onTime_time, phaseTerm, himage, phaseTerm]
  · rw [hx, hservo, onTime_time, hlock, htime]
  · rw [hx, hservo, onTime_time, hlock, htime]
  · rw [hx, hservo, onTime_chip, hphase, hchip]
  · rw [hx]
    exact (only_servoTo (by decide)).2 hsame

/-- While the ring runs an offset within STEPTH sets the target rate (R99). -/
theorem run_syncReceived_of_followed {time a : Nat} {rate offset : Int} {s : State} (h : FollowsA s)
    (ho : offset = (time : Int) - (a + s.time.domofs)) (hr : s.time.run = true) (h4 : s.time.servo ≠ 4)
    (hstep : offset.natAbs ≤ stepTh s) :
    ∃ t, exec (.syncReceived false time rate a) s = .next t ∧ t.time.target = clampRate (rate + phaseTerm s offset) ∧
      (domSt t 0).offset = offset ∧ (domSt t 0).rate = rate ∧ t.time.tb = max s.time.tb a ∧ t.time.domofs = s.time.domofs ∧
      (s.chip.phase ≠ .tlockWait → t.ring = s.ring) ∧ only [.chip, .time, .ring] s t := by
  obtain ⟨hheard, hx⟩ := syncReceived_of_followed (rate := rate) h ho h4
  obtain ⟨htarget, hoffset, hrate, htb, hdomofs, hphase, honly⟩ := syncFollowed_of_heard hheard hr hstep
  rw [← hx] at htarget hoffset hrate htb hdomofs hphase honly
  have htime : (settle s (lockReached (syncReceived false time rate a s))).time = (syncReceived false time rate a s).time := by
    rw [settle_time, lockReached_time]
  refine ⟨_, rfl, ?_, ?_, ?_, ?_, ?_, fun hwait => ?_, ?_⟩
  · rwa [htime]
  · rwa [domSt, htime]
  · rwa [domSt, htime]
  · rwa [htime]
  · rwa [htime]
  · have hsame : lockReached (syncReceived false time rate a s) = syncReceived false time rate a s :=
      lockReached_of_phase (by rw [hphase]; exact hwait)
    rw [settle_ring]
    exact (congrArg State.ring hsame).trans (honly .ring (by decide))
  · exact (only_settle_iff (by decide)).2 ((only_lockReached (by decide) (by decide)).2 (only_mono (by decide) honly))

/-- The count of offsets below 100 ns of domain A begins anew. -/
def countedOut (s : State) : State := onTime (fun t => { t with doms := updAt t.doms 0 (fun y => { y with below := 0 }) }) s

/-- While the ring runs an offset beyond STEPTH is held in DOMOFS, and the servo works on what remains (R101). -/
theorem followSync_of_held {offset rate : Int} {a : Nat} {u : State} (hr : u.time.run = true) (h3 : u.time.servo = 3)
    (hstep : stepTh u < offset.natAbs) (hfar : 100 ≤ offset.natAbs) :
    followSync offset rate a u = servoTo a 0 rate (holdOffset offset (countedOut u)) := by
  have hlock : lockCheck 0 offset u = countedOut u := lockCheck_of_far hfar (by rw [h3]; decide)
  have hr' : (countedOut u).time.run = true := hr
  have hstep' : stepTh (countedOut u) < offset.natAbs := hstep
  simp only [followSync, hlock, hr, hr', hstep', Bool.not_true, Bool.false_and, Bool.false_eq_true, if_false, Bool.true_and,
    decide_true, if_true]

theorem domSt_holdOffset {offset : Int} {d : Nat} {s : State} (h : d < s.time.doms.length) :
    domSt (holdOffset offset s) d = { domSt s d with offset := (domSt s d).offset - offset } :=
  nth_map _ (fun y : DomSt => { y with offset := y.offset - offset }) _ h

/-- The step of TB before ring start (R100). -/
theorem followSync_of_step {offset rate : Int} {a : Nat} {u : State} (hr : u.time.run = false) (ha : u.time.acquired = false)
    (hfar : 1000 < offset.natAbs) : followSync offset rate a u = acquireStep 0 offset rate u := by
  simp [followSync, hr, ha, hfar]

/-- A Sync heard at an instant that TB has passed leaves the clock. -/
theorem SyncHeard.clock {offset rate : Int} {a : Nat} {s u : State} (h : SyncHeard offset rate a s u) (ha : a ≤ s.time.tb) :
    u.time.clock = s.time.clock := by
  obtain ⟨l, r, x, y, z, htime⟩ := h.time
  rw [htime, TimeSt.clock, TimeSt.clock, Nat.max_eq_left ha]

theorem quiet_of_chip {s t : State} (h : t.chip = s.chip) : quiet s t := by
  rw [quiet, h]
  exact ⟨rfl, rfl, rfl⟩

theorem run_syncReceived_of_held {time a : Nat} {rate offset : Int} {s : State} (h : FollowsA s)
    (ho : offset = (time : Int) - (a + s.time.domofs)) (hr : s.time.run = true) (h3 : s.time.servo = 3)
    (hstep : stepTh s < offset.natAbs) (hfar : 100 ≤ offset.natAbs) (ha : a ≤ s.time.tb) :
    ∃ t, exec (.syncReceived false time rate a) s = .next t ∧ t.time.domofs = s.time.domofs + offset ∧ t.time.tb = s.time.tb ∧
      (domSt t 0).offset = 0 ∧ t.time.target = clampRate (rate + phaseTerm s 0) ∧ logged 0x0206 0 s t ∧
      only [.chip, .time] s t := by
  obtain ⟨hheard, hx⟩ := syncReceived_of_followed (rate := rate) h ho (by rw [h3]; decide)
  generalize syncHeard offset rate a s = u at hheard hx
  have hclock : u.time.clock = s.time.clock := hheard.clock ha
  obtain ⟨⟨l, r, x, y, z, htime⟩, hvalid, hoffset, -, honly⟩ := hheard
  have himage : u.image = s.image := honly .image (by decide)
  have h3' : u.time.servo = 3 := by rw [htime]; exact h3
  have hdomofs : u.time.domofs = s.time.domofs := by rw [htime]
  rw [followSync_of_held (by rw [htime]; exact hr) h3' (by rw [stepTh, himage]; exact hstep) hfar] at hx
  obtain ⟨r', x', y', hservo⟩ := servoTo_eq a 0 rate (holdOffset offset (countedOut u))
  have hlock : lockReached (syncReceived false time rate a s) = servoTo a 0 rate (holdOffset offset (countedOut u)) := by
    rw [hx]
    refine lockReached_of_unlocked ?_
    rw [hservo]
    exact ne_of_eq_of_ne h3' (by decide)
  have hlog : logged 0x0206 0 s (servoTo a 0 rate (holdOffset offset (countedOut u))) := by
    rw [hservo]
    exact logged_event_of_clock (quiet_of_chip (honly .chip (by decide))) hclock
  refine ⟨_, run_of_logged (f := fun s => lockReached (syncReceived false time rate a s)) hlock hlog, ?_, ?_, ?_, ?_, hlog, ?_⟩
  · rw [hservo]
    exact congrArg (· + offset) hdomofs
  · rw [hservo]
    exact congrArg Clock.tb hclock
  · have hbelow : (domSt (countedOut u) 0).offset = (domSt u 0).offset :=
      doms_of_below (P := DomSt.offset) (fun _ _ => rfl) u.time.doms 0 0 0
    have hlen : 0 < (countedOut u).time.doms.length :=
      (lt_doms_of_valid hvalid).trans_eq (updAt_length u.time.doms 0 (fun y => { y with below := 0 })).symm
    rw [domSt_of_doms (servoTo_doms ..), domSt_holdOffset hlen, hbelow, hoffset, sub_self]
  · have himage' : (holdOffset offset (countedOut u)).image = s.image := himage
    rw [hservo, onTime_time, phaseTerm, himage', phaseTerm]
  · have hheld : only [.chip, .time] u (servoTo a 0 rate (holdOffset offset (countedOut u))) := by
      simp [holdOffset, countedOut]
    exact only_trans (only_mono (by decide) honly) hheld

/-- Before ring start TB is stepped once to the followed domain's time (R100). -/
theorem run_syncReceived_of_step {time a : Nat} {rate offset : Int} {s : State} (h : FollowsA s)
    (ho : offset = (time : Int) - (a + s.time.domofs)) (hr : s.time.run = false) (hacq : s.time.acquired = false)
    (h1 : s.time.servo = 1) (hfar : 1000 < offset.natAbs) :
    ∃ t, exec (.syncReceived false time rate a) s = .next t ∧ t.time.tb = ((max s.time.tb a : Int) + offset).toNat ∧
      t.time.acquired = true ∧ t.time.rate = clampRate rate ∧ quiet s t ∧ only [.time] s t := by
  obtain ⟨⟨⟨l, r, x, y, z, htime⟩, -, -, -, honly⟩, hx⟩ :=
    syncReceived_of_followed (rate := rate) h ho (by rw [h1]; decide)
  generalize syncHeard offset rate a s = u at htime honly hx
  rw [followSync_of_step (by rw [htime]; exact hr) (by rw [htime]; exact hacq) hfar] at hx
  have h1' : u.time.servo = 1 := by rw [htime]; exact h1
  have hlock : lockReached (syncReceived false time rate a s) = acquireStep 0 offset rate u := by
    rw [hx]
    exact lockReached_of_unlocked (ne_of_eq_of_ne h1' (by decide))
  have hq : quiet s (acquireStep 0 offset rate u) := quiet_of_chip (honly .chip (by decide))
  refine ⟨_, run_of_quiet (f := fun s => lockReached (syncReceived false time rate a s)) hlock hq, ?_, rfl, rfl, hq, ?_⟩
  · have htb : u.time.tb = max s.time.tb a := by rw [htime]
    rw [← Nat.cast_max, ← htb]
    rfl
  · exact (only_onTime (by decide)).2 honly

/-! ### Announces, timeouts and the return to A -/

/-- A domain that a message or a timeout has changed is so after the choice of the followed domain, but for its count of offsets
below 100 ns and the instant since when it has been valid. -/
theorem domSt_heard {β : Type} {P : DomSt → β} (hP : ∀ x n v, P { x with below := n, validAt := v } = P x) {d a : Nat} {s : State}
    (hs : s.time.stopped = false) (hd : d < s.time.doms.length) (f : DomSt → DomSt) :
    P (domSt (selectDomain a (onDom d a f (advanceTb a s))) d) = P (f (domSt s d)) := by
  have hlen : d < (advanceTb a s).time.doms.length := by rwa [advanceTb_doms hs]
  obtain ⟨v, hv⟩ := domSt_onDom a f hlen
  rw [domSt_selectDomain (fun x n => hP x n x.validAt), hv, domSt_of_doms (advanceTb_doms hs a)]
  exact hP _ _ v

theorem announceReceived_of_ptp {b : Bool} {g : GmSet} {a : Nat} {s : State} (h : ptpOn s = true) :
    announceReceived b g a s = selectDomain a (onDom (if b then 1 else 0) a (hearAnnounce g) (advanceTb a s)) := by
  rw [announceReceived, h]
  rfl

/-- A domain whose Announce or Sync timeout has expired (R97). -/
def timedOut (announce : Bool) (x : DomSt) : DomSt :=
  if announce then { x with annFresh := false, best := none, masters := [] } else { x with syncFresh := false }

theorem valid_timedOut (announce : Bool) (x : DomSt) : (timedOut announce x).valid = false := by
  cases announce
  · simp only [DomSt.valid, timedOut]
    split <;> simp
  · rfl

theorem domainTimeout_of_ptp {b n : Bool} {a : Nat} {s : State} (h : ptpOn s = true) :
    domainTimeout b n a s = selectDomain a (onDom (if b then 1 else 0) a (timedOut n) (advanceTb a s)) := by
  rw [domainTimeout, h]
  rfl

theorem run_announceReceived {b : Bool} {g : GmSet} {a d : Nat} {s : State} (hp : ptpOn s = true) (hb : (if b then 1 else 0) = d)
    (hd : d < s.time.doms.length) : ∃ t, run (announceReceived b g a) s = .next t ∧ g ∈ (domSt t d).masters ∧
      (∃ h ∈ (domSt t d).masters, (domSt t d).best = some h ∧ ∀ k ∈ (domSt t d).masters, keyBefore (gmKey k) (gmKey h) = false) ∧
      ((domSt t d).best = some g → (domSt t d).annFresh = true) ∧ only [.chip, .time] s t := by
  have hs := stopped_of_ptpOn hp
  have hx := announceReceived_of_ptp (b := b) (g := g) (a := a) hp
  rw [hb] at hx
  have hmasters := domSt_heard (P := DomSt.masters) (fun _ _ _ => rfl) (a := a) hs hd (hearAnnounce g)
  have hbest := domSt_heard (P := DomSt.best) (fun _ _ _ => rfl) (a := a) hs hd (hearAnnounce g)
  have hfresh := domSt_heard (P := DomSt.annFresh) (fun _ _ _ => rfl) (a := a) hs hd (hearAnnounce g)
  rw [← hx, ← domSt_settle d s] at hmasters hbest hfresh
  obtain ⟨hmem, ⟨h, hh, hin, hleast⟩, hgood⟩ := hearAnnounce_best g (domSt s d)
  rw [← hmasters] at hmem hin hleast
  rw [← hbest] at hh hgood
  rw [← hfresh] at hgood
  refine ⟨_, rfl, hmem, ⟨h, hin, hh, hleast⟩, hgood, (only_settle_iff (by decide)).2 ?_⟩
  rw [hx]
  simp

theorem run_domainTimeout {b n : Bool} {a : Nat} {s : State} (hp : ptpOn s = true)
    (hd : (if b then 1 else 0) < s.time.doms.length) :
    ∃ t, run (domainTimeout b n a) s = .next t ∧ (domSt t (if b then 1 else 0)).valid = false ∧ only [.chip, .time] s t := by
  have hx := domainTimeout_of_ptp (b := b) (n := n) (a := a) hp
  have hvalid := domSt_heard (P := DomSt.valid) (fun _ _ _ => rfl) (a := a) (stopped_of_ptpOn hp) hd (timedOut n)
  rw [← hx, ← domSt_settle _ s, valid_timedOut] at hvalid
  refine ⟨_, rfl, hvalid, (only_settle_iff (by decide)).2 ?_⟩
  rw [hx]
  simp

/-- When the last valid domain is lost the device that runs enters holdover, and RATE stays (R103). -/
theorem run_domainTimeout_of_last {n : Bool} {a : Nat} {s : State} (hp : ptpOn s = true) (hd : 0 < s.time.doms.length)
    (hr : s.time.run = true) (h4 : s.time.servo ≠ 4) (hv : (domSt s 1).valid = false) (ha : a ≤ s.time.tb) :
    ∃ t, run (domainTimeout false n a) s = .next t ∧ t.time.servo = 4 ∧ t.time.target = t.time.rate ∧ logged 0x0204 0 s t ∧
      only [.chip, .time] s t := by
  have hs := stopped_of_ptpOn hp
  have hlen : 0 < (advanceTb a s).time.doms.length := by rwa [advanceTb_doms hs]
  obtain ⟨v, hv0⟩ := domSt_onDom a (timedOut n) hlen
  have h0 : (domSt (onDom 0 a (timedOut n) (advanceTb a s)) 0).valid = false := by
    rw [hv0]
    exact valid_timedOut n _
  have h1 : (domSt (onDom 0 a (timedOut n) (advanceTb a s)) 1).valid = false := by
    rw [domSt_onDom_ne (by decide), domSt_of_doms (advanceTb_doms hs a), hv]
  obtain ⟨r, x, y, z, hadv⟩ := advanceTb_eq hs a
  have h4' : (onDom 0 a (timedOut n) (advanceTb a s)).time.servo ≠ 4 := by rw [hadv]; exact h4
  have hr' : (onDom 0 a (timedOut n) (advanceTb a s)).time.run = true := by rw [hadv]; exact hr
  obtain ⟨r', x', hhold⟩ := enterHoldover_of_run h4' hr' a
  have hx := (domainTimeout_of_ptp (b := false) (n := n) (a := a) hp).trans ((selectDomain_of_none h0 h1 hr').trans hhold)
  have hclock : (advanceTb a s).time.clock = s.time.clock := by
    rw [advanceTb_clock hs, Nat.max_eq_left ha]
    rfl
  have hchip : (advanceTb a s).chip = s.chip := by rw [hadv]; rfl
  have hlog := logged_event_of_clock (c := 0x0204) (d := 0) (s := s) (u := onTime (fun t => { t with
    rate := r', target := r', slewAt := x', slewAcc := 0, servo := 4, holdAt := a, holdSec := 0 })
      (onDom 0 a (timedOut n) (advanceTb a s))) (quiet_of_chip hchip) hclock
  exact ⟨_, run_of_logged hx hlog, rfl, rfl, hlog, by simp⟩

/-- A domain A that has been valid for REVERT seconds is followed again (R98). -/
theorem run_domainRevert_of_due {a : Nat} {s : State} (hp : ptpOn s = true) (hs : s.time.sel = true) (hf : s.time.everFoll = true)
    (h3 : s.time.servo = 3) (hv : (domSt s 0).valid = true) (hr : 0 < s.image.revert)
    (hd : (domSt s 0).validAt + s.image.revert * 1000000000 ≤ a) (ho : (domSt s 0).offset.natAbs ≤ stepTh s)
    (ha : a ≤ s.time.tb) :
    ∃ t, run (domainRevert a) s = .next t ∧ t.time.sel = false ∧ logged 0x0203 0 s t ∧ only [.chip, .time] s t := by
  have hstop := stopped_of_ptpOn hp
  obtain ⟨r, x, y, z, hadv⟩ := advanceTb_eq hstop a
  have hdom : domSt (advanceTb a s) 0 = domSt s 0 := domSt_of_doms (advanceTb_doms hstop a) 0
  have hsel : selDom (advanceTb a s) ≠ 0 := by
    rw [hadv, selDom, onTime_time, if_pos hs]
    decide
  have ho' : (domSt (advanceTb a s) 0).offset.natAbs ≤ stepTh (advanceTb a s) := by
    rw [hdom, stepTh, keep_image (advanceTb_keep a s)]
    exact ho
  have hx := (domainRevert_of_due hp hs hf hv hr hd).trans
    (followDom_of_change (d := 0) (by rw [hadv]; exact hf) hsel (by rw [hadv]; exact h3) ho' a)
  obtain ⟨r', x', y', hservo⟩ := servoTo_eq a (domSt (advanceTb a s) 0).offset (domSt (advanceTb a s) 0).rate
    (event 0x0203 0 (switched 0 (advanceTb a s)))
  have hclock : (advanceTb a s).time.clock = s.time.clock := by
    rw [advanceTb_clock hstop, Nat.max_eq_left ha]
    rfl
  have hchip : (advanceTb a s).chip = s.chip := by rw [hadv]; rfl
  have hlog : logged 0x0203 0 s (event 0x0203 0 (switched 0 (advanceTb a s))) :=
    logged_event_of_clock (quiet_of_chip hchip) hclock
  exact ⟨_, run_of_logged (hx.trans hservo) hlog, rfl, hlog, by simp [switched]⟩

/-- Settles O4: a Sync is heard and then followed, and its clauses are read off what the servo leaves of it; an Announce or a
timeout changes its domain before the choice of the followed one, which leaves what was heard; that the best master is the first
in the order of R96 is an induction over those heard. -/
theorem precisionTime : Obligations.PrecisionTime := by
  refine ⟨fun time a rate off s ho hp hr hf hs h23 hv hstep => ?_, fun time a rate off s ho hp hr hf hs h3 hv hstep hfar ha => ?_,
    fun time a rate off s ho hp hr hacq hf hs h1 hv hfar => ?_,
    fun b time a rate s hp hph => run_of_unchanged (f := fun s => lockReached (syncReceived b time rate a s)) ?_,
    fun b g a s hp hl => run_announceReceived hp rfl ?_, fun b n a s hp hl => run_domainTimeout hp ?_,
    fun n a s hp hl hr h4 hv ha => run_domainTimeout_of_last hp ?_ hr h4 hv ha,
    fun a s hp hs hf h3 hv hr hd ho ha => run_domainRevert_of_due hp hs hf h3 hv hr hd ho ha,
    fun a s h => run_of_unchanged (domainRevert_of_not_due h)⟩
  · exact run_syncReceived_of_followed ⟨hp, hf, hs, hv⟩ ho hr (by omega) hstep
  · exact run_syncReceived_of_held ⟨hp, hf, hs, hv⟩ ho hr h3 hstep hfar ha
  · exact run_syncReceived_of_step ⟨hp, hf, hs, hv⟩ ho hr hacq h1 hfar
  · rw [syncReceived_of_ptp_off hp, lockReached_of_phase hph]
  · rw [hl]
    split <;> decide
  · rw [hl]
    split <;> decide
  · rw [hl]
    decide

end Sys2Proof.Machine

/-! PROOF. TransparentClock: how an event message and the general message that follows it pass the plant ports, and O5. -/

namespace Sys2Proof.Machine

/-! ### Frames that leave a port (R377, R378) -/

/-- Port p sends a frame at once: it is up, nothing is on its wire, and the device is not the former active of a pair (R399). -/
structure Idle (p : Nat) (s : State) : Prop where
  up : (nth s.host.ports p).up = true
  wire : (nth s.host.ports p).wire = none
  role : s.pair.role ≠ 3

theorem sendFwd_of_idle {p : Nat} {f : TxFrame} {s : State} (h : Idle p s) :
    sendFwd p f s = onPort p (fun x => { x with wire := some f }) s := by
  obtain ⟨hup, hwire, hrole⟩ := h
  simp [sendFwd, hup, hrole, hwire]

theorem sendPtp_wire_of_idle {p : Nat} {f : TxFrame} {s : State} (h : Idle p s) (hp : p < s.host.ports.length) :
    (nth (sendPtp p f s).host.ports p).wire = some f := by
  obtain ⟨hup, hwire, hrole⟩ := h
  simp [sendPtp, hup, hrole, hwire, hp]

section
variable (p : Nat) (f : TxFrame) (s : State)

@[simp] theorem sendPtp_chip : (sendPtp p f s).chip = s.chip := by unfold sendPtp; split <;> rfl
@[simp] theorem sendPtp_time : (sendPtp p f s).time = s.time := by unfold sendPtp; split <;> rfl

end

section
variable {ps : List Part} {s t : State}

@[simp] theorem only_onNet {n : Nat} {f : NetSt → NetSt} (h : .host ∈ ps) : only ps s (onNet n f t) ↔ only ps s t :=
  only_iff_of_part .host h (by rintro ⟨⟩ <;> simp [Part.same])
@[simp] theorem only_sendPtp {p : Nat} {f : TxFrame} (h : .host ∈ ps) : only ps s (sendPtp p f t) ↔ only ps s t := by
  simp [sendPtp, h]
theorem quiet_sendPtp {p : Nat} {f : TxFrame} : quiet s (sendPtp p f t) ↔ quiet s t := by rw [quiet, sendPtp_chip, quiet]

end

/-! ### An event message (R104 to R107) -/

/-- The egress of an event message of l bytes that leaves at instant e is scheduled at its port. -/
def scheduled (out e l : Nat) (s : State) : State :=
  onTime (fun t => { t with egress := updAt t.egress out (fun _ => e + 8 * (l + 8)) }) s

section
variable {p i l w u : Nat} {o f : Bool} {m : PtpId} {s : State}

/-- In profile 1 a good event message passes the transparent clock, and a two-step one leaves its residence to its follower. -/
theorem ptpEventForward_of_profile1 (h1 : s.time.profile = 1) (hs : s.time.stopped = false) :
    ptpEventForward p i l true f o m w u s = clockForward p i l f m w u s := by
  simp [ptpEventForward, ptpOn, h1, hs]

/-- The residence of a two-step message waits (R105). -/
theorem clockForward_twoStep : clockForward p i l true m w u s =
    sendPtp (otherPort p) { kind := .ptp, len := l } (scheduled (otherPort p) (egressAt s (otherPort p) i w) l
      (keepResidue (p / 2) m (residence s p i (egressAt s (otherPort p) i w) m.domain u) s)) := rfl

/-- The residence of a one-step message goes into it (R105). -/
theorem clockForward_oneStep : clockForward p i l false m w u s =
    sendPtp (otherPort p) { kind := .ptp, len := l, corr := residence s p i (egressAt s (otherPort p) i w) m.domain u }
      (scheduled (otherPort p) (egressAt s (otherPort p) i w) l s) := rfl

end

/-! ### The general message that follows (R105) -/

theorem regionUp_host {s : State} (h : regionStopped .host s = false) : regionUp .host s = true := by
  rw [regionStopped, Bool.or_eq_false_iff] at h
  have ha : asleep .host s = false := by unfold asleep; split <;> rfl
  simp [regionUp, h, ha]

/-- The only residence that waits leaves with the message that it is for. -/
theorem takeResidue_of_only {n : Nat} {m : PtpId} {c : Int} {s : State} (h : s.time.resid = [{ net := n, id := m, corr := c }]) :
    takeResidue n m s = (c, onTime (fun t => { t with resid := [] }) s) := by
  simp [takeResidue, h, onTime]

theorem plantFrameReceived_of_residue {p l : Nat} {m : PtpId} {c : Int} {s : State} (hi : Idle (otherPort p) s) (hl : l ≤ 1522)
    (hr : s.time.resid = [{ net := p / 2, id := m, corr := c }]) :
    plantFrameReceived p l true false false false true (some m) s =
      onPort (otherPort p) (fun x => { x with wire := some { kind := .forward, len := l, corr := c } })
        (onTime (fun t => { t with resid := [] }) s) := by
  have hi' : Idle (otherPort p) (onTime (fun t => { t with resid := [] }) s) := ⟨hi.up, hi.wire, hi.role⟩
  simp [plantFrameReceived, forwardFrom, takeResidue_of_only hr, sendFwd_of_idle hi', Nat.not_lt.2 hl]

/-- Settles O5: an event message is one update of TIME, its scheduled egress and the residence that waits, and one frame at the
partner port; the general message takes the residence that waits for it. -/
theorem transparentClock : Obligations.TransparentClock := by
  refine ⟨fun p i l w u f o m s hn => ?_, fun p i l w u o m s h1 hs he => ?_, fun p i l w u o m s h1 hs hr he hp hup hw => ?_,
    fun p l m c s hs hr hp hup hw hl hres => ?_⟩
  · exact ⟨_, run_of_quiet rfl ⟨rfl, rfl, rfl⟩, congrArg NetSt.fcserr (nth_updAt_self _ _ _ hn), ⟨rfl, rfl, rfl⟩,
      (only_onNet (by decide)).2 (only_refl _ s)⟩
  · have hx := (ptpEventForward_of_profile1 (p := p) (i := i) (l := l) (w := w) (u := u) (o := o) (m := m) h1 hs).trans
      clockForward_twoStep
    refine ⟨_, run_of_quiet hx (quiet_sendPtp.2 ⟨rfl, rfl, rfl⟩), ?_, ?_, quiet_sendPtp.2 ⟨rfl, rfl, rfl⟩,
      by simp [scheduled, keepResidue]⟩
    · rw [sendPtp_time]; exact nth_updAt_self _ _ _ he
    · rw [sendPtp_time]; rfl
  · have hx := (ptpEventForward_of_profile1 (p := p) (i := i) (l := l) (w := w) (u := u) (o := o) (m := m) h1 hs).trans
      clockForward_oneStep
    refine ⟨_, run_of_quiet hx (quiet_sendPtp.2 ⟨rfl, rfl, rfl⟩), sendPtp_wire_of_idle ⟨hup, hw, hr⟩ hp, ?_,
      quiet_sendPtp.2 ⟨rfl, rfl, rfl⟩, by simp [scheduled]⟩
    rw [sendPtp_time]
    rfl
  · have hx := plantFrameReceived_of_residue (p := p) ⟨hup, hw, hr⟩ hl hres
    exact ⟨_, (runIn_of_up (regionUp_host hs)).trans (run_of_quiet hx ⟨rfl, rfl, rfl⟩), rfl,
      congrArg PortSt.wire (nth_updAt_self _ _ _ hp), ⟨rfl, rfl, rfl⟩, by simp⟩

end Sys2Proof.Machine

/-! PROOF. Captures: what an edge leaves in the queue and the lists of its input, what a read of CAPTS0 takes, and O7. -/

namespace Sys2Proof.Machine

/-! ### The edges of a capture input (R113 to R115) -/

theorem onCap_onCap (j : Nat) (f g : CapSt → CapSt) (s : State) : onCap j g (onCap j f s) = onCap j (fun c => g (f c)) s := by
  simp only [onCap, onTime, updAt_updAt]

theorem capSt_onCap {j : Nat} {s : State} (f : CapSt → CapSt) (h : j < s.time.caps.length) :
    capSt (onCap j f s) j = f (capSt s j) := nth_updAt_self _ _ _ h

/-- An edge enters one of the per-tick lists of its input, or none. -/
theorem listEdge_eq (j tb : Nat) (r : Bool) (s : State) : ∃ a b, listEdge j tb r s =
    onCap j (fun c => { c with tickList := c.tickList ++ a, lastList := c.lastList ++ b }) s := by
  have hnone : s = onCap j (fun c => { c with tickList := c.tickList ++ [], lastList := c.lastList ++ [] }) s := by
    simp only [List.append_nil, onCap, onTime, updAt_id]
  unfold listEdge
  split
  · exact ⟨[], [], hnone⟩
  · split
    · exact ⟨[(tb, r)], [], by simp only [List.append_nil]⟩
    · split
      · exact ⟨[], [], hnone⟩
      · exact ⟨[], [(tb, r)], by simp only [List.append_nil]⟩

theorem captureEdge_of_rejected {j tb h : Nat} {r : Bool} {s : State} (ha : capAccepts (capSt s j) r h = false) :
    captureEdge j tb r h s = s := by
  simp [captureEdge, ha]

theorem captureEdge_of_room {j tb h : Nat} {r : Bool} {s : State} (ha : capAccepts (capSt s j) r h = true)
    (hq : (capSt s j).queue.length < 16) : ∃ a b, captureEdge j tb r h s = onCap j (fun c => { c with
      tickList := c.tickList ++ a, lastList := c.lastList ++ b, queue := c.queue ++ [(tb, r)] }) s := by
  obtain ⟨a, b, hl⟩ := listEdge_eq j tb r s
  refine ⟨a, b, ?_⟩
  simp [captureEdge, ha, hq, hl, onCap_onCap]

/-- The state in which an edge into a full queue is lost and counted (R114). -/
def edgeLost (j : Nat) (a b : List (Nat × Bool)) (s : State) : State :=
  onCap j (fun c => { c with
    tickList := c.tickList ++ a, lastList := c.lastList ++ b, lost := satAdd 0xFFFF c.lost 1, ovf := true }) s

theorem captureEdge_of_full {j tb h : Nat} {r : Bool} {s : State} (ha : capAccepts (capSt s j) r h = true)
    (hq : 16 ≤ (capSt s j).queue.length) : ∃ a b, captureEdge j tb r h s = eventOnce 0x0211 j j (edgeLost j a b s) := by
  obtain ⟨a, b, hl⟩ := listEdge_eq j tb r s
  refine ⟨a, b, ?_⟩
  simp [captureEdge, ha, Nat.not_lt.2 hq, hl, onCap_onCap, edgeLost]

theorem captureRead_of_cons {j tb : Nat} {r : Bool} {q : List (Nat × Bool)} {s : State} (h : (capSt s j).queue = (tb, r) :: q) :
    ∃ ws, captureRead j s = answer (0x80000000 ||| (if r then 0x40000000 else 0) ||| BitVec.ofNat 32 (tb % 1000000000))
      (latchWords (captsAddr j) ws (onCap j (fun c => { c with queue := q }) s)) := by
  simp only [captureRead, h]
  exact ⟨_, rfl⟩

theorem captureRead_of_empty {j : Nat} {s : State} (h : (capSt s j).queue = []) :
    captureRead j s = answer 0 (latchWords (captsAddr j) [0, 0] s) := by
  simp only [captureRead, h]

/-- Settles O7: an edge is one update of its input, whatever per-tick list it enters, and a read takes the head of the queue. -/
theorem captures : Obligations.Captures := by
  refine ⟨fun j tb r h s hj ha hroom => ?_, fun j tb r h s hj ha hfull => ?_,
    fun j tb r h s ha => run_of_unchanged (captureEdge_of_rejected ha), fun j tb r q s hj h => ?_, fun j s h => ?_⟩
  · obtain ⟨a, b, hx⟩ := captureEdge_of_room (tb := tb) ha hroom
    refine ⟨_, run_of_quiet hx ⟨rfl, rfl, rfl⟩, ?_, ?_, onlyAt_updAt _ _ _, ⟨rfl, rfl, rfl⟩, by simp [onCap]⟩ <;>
      rw [capSt_onCap _ hj]
  · obtain ⟨a, b, hx⟩ := captureEdge_of_full (tb := tb) ha hfull
    have hcap : capSt (eventOnce 0x0211 j j (edgeLost j a b s)) j = { capSt s j with
        tickList := (capSt s j).tickList ++ a, lastList := (capSt s j).lastList ++ b, ovf := true,
        lost := satAdd 0xFFFF (capSt s j).lost 1 } := by
      rw [capSt, eventOnce_time]
      exact capSt_onCap _ hj
    have hq : quiet s (edgeLost j a b s) := ⟨rfl, rfl, rfl⟩
    obtain ⟨hlog, hsup⟩ := eventOnce_quiet_or_logged (c := 0x0211) (k := j) (d := j) hq rfl rfl
    refine ⟨_, run_of_eventOnce hx hq rfl rfl, by rw [hcap], by rw [hcap], by rw [hcap], ?_,
      hlog, hsup, by simp [edgeLost, onCap]⟩
    rw [eventOnce_time]
    exact onlyAt_updAt _ _ _
  · obtain ⟨ws, hx⟩ := captureRead_of_cons h
    exact ⟨_, run_of_quiet hx ⟨rfl, rfl, rfl⟩, congrArg CapSt.queue (capSt_onCap _ hj), rfl, onlyAt_updAt _ _ _,
      ⟨rfl, rfl, rfl⟩, by simp [latchWords, onCap]⟩
  · exact ⟨_, run_of_quiet (captureRead_of_empty h) ⟨rfl, rfl, rfl⟩, rfl, rfl, ⟨rfl, rfl, rfl⟩, mk_only_chip ⟨_, rfl⟩⟩

end Sys2Proof.Machine

/-! PROOF. TimeChecksAndRecording: what a fault of the time base leaves, the voltage recommendation and its regulator, the
checkpoints, and O8. -/

namespace Sys2Proof.Machine

/-! ### A fault of the time base (R116, R117) -/

/-- From s to t a fault of the time base has been answered: class A with its code, the escalation, and the refresh withheld; of
TIME only the marks of the tick have changed. -/
structure TimeFault (code : Nat) (s t : State) : Prop where
  escalated : t.chip.escalated = true
  withheld : t.saf.withheld = true
  lastA : t.saf.lastA = code
  time : ∃ l, t.time = { s.time with causeNow := l }
  only : only [.chip, .time, .recd, .saf, .regions] s t

theorem TimeFault.settle {code : Nat} {s t u : State} (h : TimeFault code s t) : TimeFault code s (settle u t) := by
  obtain ⟨hescalated, hwithheld, hlast, htime, honly⟩ := h
  refine ⟨?_, ?_, ?_, ?_, (only_settle_iff (by decide)).2 honly⟩
  · rwa [settle_escalated]
  · rwa [settle_saf]
  · rwa [settle_saf]
  · rwa [settle_time]

/-- An escalation of TIME changes there the marks of the tick only. -/
theorem escalate_time_time {s : State} (h : (regSt s .time).escalated = false) :
    (escalate .time s).time = { s.time with causeNow := updAt s.time.causeNow 4 (· ||| defined s) } := by
  simp [escalate, h, demandSto_eq, mark]

/-- An escalation of TIME withholds the refresh (R301), and hands nothing over. -/
theorem timeFault_escalate {code : Nat} {s u : State} (he : (regSt u .time).escalated = false) (hl : u.saf.lastA = code)
    (ht : u.time = s.time) (ho : only [.chip, .time, .recd, .saf, .regions] s u) : TimeFault code s (escalate .time u) := by
  refine ⟨escalate_escalated he, ?_, ?_, ?_, ?_⟩
  · simp [escalate, he, demandSto_eq]
  · rw [escalate_lastA, hl]
  · rw [← ht]; exact ⟨_, escalate_time_time he⟩
  · simp [escalate, he, ho]

/-- The count that the cross-check has read is noted (R116). -/
def counted (c : Nat) (s : State) : State := onTime (fun t => { t with xchk := c % 65536 }) s

theorem timeCrossCheck_of_inside {c : Nat} {s : State} (hlo : 28160 ≤ c) (hhi : c ≤ 35840) :
    timeCrossCheck c s = counted c s := by
  simp [timeCrossCheck, counted, Nat.not_lt.2 hlo, Nat.not_lt.2 hhi]

theorem timeFault_timeCrossCheck {c : Nat} {s : State} (hc : c < 28160 ∨ 35840 < c) (he : (regSt s .time).escalated = false) :
    TimeFault 0x0222 (counted c s) (timeCrossCheck c s) := by
  have hx : timeCrossCheck c s = escalate .time (event 0x0222 0 (classA (defined (counted c s)) 16 0x0222 (counted c s))) := by
    simp [timeCrossCheck, counted, hc]
  rw [hx]
  refine timeFault_escalate ?_ ?_ ?_ (by simp)
  · rw [regSt, event_regions, classA_regions]; exact he
  · rw [event_saf, classA_lastA]
  · rw [event_time, classA_time]

/-- The time base stands (R117). -/
def stopped (s : State) : State := onTime (fun t => { t with stopped := true }) s

theorem timeFault_timeStops {code : Nat} {s : State} (hs : s.time.stopped = false) (he : (regSt s .time).escalated = false) :
    TimeFault code (stopped s) (timeStops code s) := by
  have hx : timeStops code s = escalate .time (classA (defined s) 16 code (event code 0 (stopped s))) := by
    simp [timeStops, hs, stopped]
  rw [hx]
  refine timeFault_escalate ?_ (classA_lastA ..) ?_ (by simp)
  · rw [regSt_classA]; exact he
  · rw [classA_time, event_time]

/-- A time base that stops keeps its instant and its tick. -/
theorem run_timeStops {code : Nat} {s : State} (hs : s.time.stopped = false) (he : (regSt s .time).escalated = false) :
    ∃ t, run (timeStops code) s = .next t ∧ t.time.stopped = true ∧ t.chip.escalated = true ∧ t.saf.withheld = true ∧
      t.saf.lastA = code ∧ t.time.tb = s.time.tb ∧ t.time.tickno = s.time.tickno ∧
      only [.chip, .time, .recd, .saf, .regions] s t := by
  obtain ⟨hescalated, hwithheld, hlast, ⟨l, htime⟩, honly⟩ := (timeFault_timeStops (code := code) hs he).settle (u := s)
  have hstop : only [.chip, .time, .recd, .saf, .regions] s (stopped s) := by simp [stopped]
  refine ⟨_, rfl, ?_, hescalated, hwithheld, hlast, ?_, ?_, only_trans hstop honly⟩ <;> rw [htime] <;> rfl

/-! ### The voltage recommendation (R82, R83) -/

/-- From s to t transactions of the regulator have begun or wait; nothing else has changed. -/
def BusMoved (s t : State) : Prop := ∃ x q, t = onTime (fun m => { m with vtx := x, vqueue := q }) s

theorem busMoved_vregNext (s : State) : BusMoved s (vregNext s) := by
  unfold vregNext
  split
  · exact ⟨none, s.time.vqueue, rfl⟩
  · exact ⟨_, _, rfl⟩

theorem busMoved_vregSend (l : List (Nat × Bool)) (s : State) : BusMoved s (vregSend l s) := by
  unfold vregSend
  dsimp only
  split
  · obtain ⟨x, q, h⟩ := busMoved_vregNext (onTime (fun t => { t with vqueue := t.vqueue ++ l }) s)
    exact ⟨x, q, h⟩
  · exact ⟨s.time.vtx, _, rfl⟩

/-- The recommendation that a window leaves (R82): REC, and the lowest slack of the millisecond begins anew. -/
def recommended (r : Nat) (s : State) : State :=
  onTime (fun t => { t with vrec := r, winMiss := false, slack := t.slack.map (fun x => { x with winMin := none }) }) s

/-- REC from the lowest slack m of a window without a miss (R82). -/
def recFrom (m : Nat) (s : State) : Nat :=
  if 2 * m < s.image.vfloor then s.image.vmax
  else if m < s.image.vfloor then min (s.time.vrec + 2) s.image.vmax
  else if 2 * s.image.vfloor < m then max (s.time.vrec - 1) s.image.vmin
  else s.time.vrec

theorem vrecWindow_of_miss {s : State} (hr : s.time.run = true) (hs : s.time.stopped = false) (hm : s.time.winMiss = true) :
    vrecWindow s = sendRec (recommended s.image.vmax s) ∨
      vrecWindow s = event 0x02D2 0 (sendRec (recommended s.image.vmax s)) := by
  simp only [vrecWindow, hr, hs, hm]
  cases (s.time.slack.filterMap (fun x => x.winMin)).foldl (fun a n => some (min n (a.getD n))) none with
  | none => exact .inl rfl
  | some n =>
    by_cases hn : n < s.image.vfloor
    · exact .inr (if_pos hn)
    · exact .inl (if_neg hn)

theorem vrecWindow_of_slack {m : Nat} {s : State} (hr : s.time.run = true) (hs : s.time.stopped = false)
    (hm : s.time.winMiss = false) (hl : s.time.slack.filterMap (fun x => x.winMin) = [m]) :
    vrecWindow s = if m < s.image.vfloor then event 0x02D2 0 (sendRec (recommended (recFrom m s) s))
      else sendRec (recommended (recFrom m s) s) := by
  simp [vrecWindow, hr, hs, hm, hl, recommended, recFrom]

/-- The recommendation is sent, where a regulator is used (R83). -/
theorem sendRec_eq (s : State) : ∃ x q, sendRec s = if s.time.vmode = 0 then s else
    onTime (fun t => { t with vsent := t.vrec, recValid := false, vtx := x, vqueue := q }) s := by
  obtain ⟨x, q, h⟩ := busMoved_vregSend (if s.time.vmode = 2 then [(0x21, true), (0x8B, false)] else [(0, true), (0, false)])
    (onTime (fun t => { t with vsent := t.vrec, recValid := false }) s)
  refine ⟨x, q, ?_⟩
  rw [sendRec, h]
  rfl

/-- What the sending of a recommendation r leaves in TIME. -/
structure RecSent (r : Nat) (s t : State) : Prop where
  vrec : t.time.vrec = r
  winMiss : t.time.winMiss = false
  sent : s.time.vmode ≠ 0 → t.time.vsent = t.time.vrec ∧ t.time.recValid = false
  quiet : quiet s t
  clock : t.time.clock = s.time.clock
  only : only [.time] s t

theorem recSent_sendRec (r : Nat) (s : State) : RecSent r s (sendRec (recommended r s)) := by
  obtain ⟨x, q, h⟩ := sendRec_eq (recommended r s)
  rw [h]
  split
  · rename_i h0
    exact ⟨rfl, rfl, fun hn => absurd h0 hn, ⟨rfl, rfl, rfl⟩, rfl, by simp [recommended]⟩
  · exact ⟨rfl, rfl, fun _ => ⟨rfl, rfl⟩, ⟨rfl, rfl, rfl⟩, rfl, by simp [recommended]⟩

/-- A window whose lowest slack is m leaves REC and its sending in TIME, and raises TIME_SLACK_LOW below the floor (R82). -/
theorem run_vrecWindow_of_slack {m : Nat} {s : State} (hr : s.time.run = true) (hs : s.time.stopped = false)
    (hm : s.time.winMiss = false) (hl : s.time.slack.filterMap (fun x => x.winMin) = [m]) :
    ∃ t, run vrecWindow s = .next t ∧ only [.chip, .time] s t ∧ t.time.vrec = recFrom m s ∧
      (s.time.vmode ≠ 0 → t.time.vsent = t.time.vrec ∧ t.time.recValid = false) ∧
      (m < s.image.vfloor → logged 0x02D2 0 s t) ∧ (s.image.vfloor ≤ m → quiet s t) := by
  obtain ⟨hrec, -, hsent, hq, hclock, honly⟩ := recSent_sendRec (recFrom m s) s
  have hx := vrecWindow_of_slack hr hs hm hl
  by_cases hlow : m < s.image.vfloor
  · rw [if_pos hlow] at hx
    have hlog := logged_event_of_clock (c := 0x02D2) (d := 0) hq hclock
    exact ⟨_, run_of_logged hx hlog, (only_event (by decide)).2 (only_mono (by decide) honly), hrec, hsent, fun _ => hlog,
      fun h => absurd hlow (Nat.not_lt.2 h)⟩
  · rw [if_neg hlow] at hx
    exact ⟨_, run_of_quiet hx hq, only_mono (by decide) honly, hrec, hsent, fun h => absurd h hlow, fun _ => hq⟩

/-! ### The regulator (R83) -/

/-- A command that finds the transport failed completes with MODE 0 and TIME_VREG_FAULT. -/
theorem run_of_vregFault {f : State → State} {s : State} (h : f s = vregFault s) :
    ∃ t, run f s = .next t ∧ t.time.vmode = 0 ∧ logged 0x02D3 0 s t ∧ only [.chip, .time] s t := by
  have hl : logged 0x02D3 0 s (vregFault s) := logged_event_of_clock ⟨rfl, rfl, rfl⟩ rfl
  exact ⟨_, run_of_logged h hl, rfl, hl, by simp [vregFault]⟩

theorem vregTransactionDone_of_none {ok : Bool} {d : Nat} {s : State} (h : s.time.vtx = none) :
    vregTransactionDone ok d s = s := by
  simp [vregTransactionDone, h]

theorem vregTransactionDone_of_error {d : Nat} {s : State} (h : s.time.vtx.isSome = true) :
    vregTransactionDone false d s = vregFault s := by
  obtain ⟨x, hx⟩ := Option.isSome_iff_exists.1 h
  simp [vregTransactionDone, hx]

theorem vregTransactionDone_of_format {d : Nat} {x : VregTx} {s : State} (hx : s.time.vtx = some x) (hw : x.wr = false)
    (hp : x.pmb = true) (hc : x.cmd = 0x20) (hd : d / 32 % 8 ≠ 0) : vregTransactionDone true d s = vregFault s := by
  simp [vregTransactionDone, hx, hw, hp, hc, voutExp, hd]

theorem vregTransactionDone_of_read {d : Nat} {x : VregTx} {s : State} (hx : s.time.vtx = some x) (hw : x.wr = false)
    (hp : x.pmb = false) : vregTransactionDone true d s = vregNext (onTime (fun t => { t with vmv := d }) s) := by
  simp [vregTransactionDone, hx, hw, hp]

/-- The voltage of the recommendation sent, less the one read back, in mV. -/
theorem vregReadbackCheck_eq {s : State} (h : s.time.vmode ≠ 0) : vregReadbackCheck s =
    if 10 < ((500 + 5 * s.time.vsent : Int) - s.time.vmv).natAbs then vregFault s
    else onTime (fun t => { t with recValid := true }) s := by
  simp [vregReadbackCheck, h, vcodeMv]

/-! ### Checkpoints (R90, R91) -/

theorem length_keepLast_le {α : Type} (n : Nat) (l : List α) (x : α) : (keepLast n l x).length ≤ n := by
  simp only [keepLast, List.length_drop, List.length_append, List.length_singleton]
  omega

/-- Of a list that keeps something the newest element stays. -/
theorem mem_keepLast {α : Type} {n : Nat} (h : 0 < n) (l : List α) (x : α) : x ∈ keepLast n l x := by
  rw [keepLast, List.drop_append_of_le_length (by omega)]
  exact List.mem_append_right _ (List.mem_singleton_self x)

/-- Settles O8: a fault of the time base is a class A fault and an escalation of TIME; the other commands are one update of TIME
or of the recording, with one event at most. -/
theorem timeChecksAndRecording : Obligations.TimeChecksAndRecording := by
  refine ⟨fun c s hlo hhi => ?_, fun c s hc he => ?_, fun s hs he => run_timeStops hs he, fun s hs he => run_timeStops hs he,
    fun s => ?_, fun s hr hs hm => ?_, fun m s hr hs hm hl => ?_, fun d x s hx hw hp => ?_,
    fun d x s hx hw hp hc hd => run_of_vregFault (vregTransactionDone_of_format hx hw hp hc hd),
    fun d s h => run_of_vregFault (vregTransactionDone_of_error h),
    fun ok d s h => run_of_unchanged (vregTransactionDone_of_none h),
    fun s hv hd => run_of_vregFault ((vregReadbackCheck_eq hv).trans (if_pos hd)), fun s hv hd => ?_, fun s ho hr ht => ?_,
    fun n s h => ?_, fun s hn ha => ?_, fun s h => run_of_unchanged ?_, fun s ho hl => ?_, fun s h => run_of_unchanged ?_⟩
  · refine ⟨_, run_of_quiet (timeCrossCheck_of_inside hlo hhi) ⟨rfl, rfl, rfl⟩, ?_, ⟨rfl, rfl, rfl⟩, by simp [counted]⟩
    exact Nat.mod_eq_of_lt (by omega)
  · obtain ⟨hescalated, hwithheld, hlast, ⟨l, htime⟩, honly⟩ := (timeFault_timeCrossCheck hc he).settle (u := s)
    have hcount : only [.chip, .time, .recd, .saf, .regions] s (counted c s) := by simp [counted]
    refine ⟨_, rfl, ?_, hescalated, hwithheld, hlast, ?_, only_trans hcount honly⟩ <;> rw [htime] <;> rfl
  · refine ⟨_, run_of_quiet rfl ⟨rfl, rfl, rfl⟩, ?_, ?_, rfl, ⟨rfl, rfl, rfl⟩, by simp [slackClear]⟩
    · simp [slackClear, acked]
    · simp [slackClear, acked]
  · obtain ⟨hrec, hmiss, -, hq, hclock, honly⟩ := recSent_sendRec s.image.vmax s
    obtain hx | hx := vrecWindow_of_miss hr hs hm
    · exact ⟨_, run_of_quiet hx hq, hrec, hmiss, only_mono (by decide) honly⟩
    · exact ⟨_, run_of_logged hx (logged_event_of_clock hq hclock), hrec, hmiss,
        (only_event (by decide)).2 (only_mono (by decide) honly)⟩
  · obtain ⟨t, hrun, honly, hrec, hsent, hlog, hquiet⟩ := run_vrecWindow_of_slack hr hs hm hl
    refine ⟨t, hrun, honly, fun h1 => ?_, fun h1 h2 => ?_, fun h1 h2 => ?_, fun h1 h2 => ?_, hsent, hlog, hquiet⟩ <;>
      rw [hrec, recFrom]
    · rw [if_pos h1]
    · rw [if_neg (Nat.not_lt.2 h1), if_pos h2]
    · rw [if_neg (by omega), if_neg (by omega), if_neg (by omega)]
    · rw [if_neg (by omega), if_neg (by omega), if_pos h1]
  · obtain ⟨y, q, hn⟩ := busMoved_vregNext (onTime (fun t => { t with vmv := d }) s)
    exact ⟨_, run_of_quiet ((vregTransactionDone_of_read hx hw hp).trans hn) ⟨rfl, rfl, rfl⟩, rfl, rfl, ⟨rfl, rfl, rfl⟩, by simp⟩
  · exact ⟨_, run_of_quiet ((vregReadbackCheck_eq hv).trans (if_neg (Nat.not_lt.2 hd))) ⟨rfl, rfl, rfl⟩, rfl, rfl,
      ⟨rfl, rfl, rfl⟩, by simp⟩
  · have hx : checkpoint s = onRec (fun r => { r with ckptNow := some (persistent s), ckptAge := 0, ckptMark := true }) s := by
      simp [checkpoint, takeCheckpoint, ho, hr, ht]
    exact ⟨_, run_of_quiet hx ⟨rfl, rfl, rfl⟩, rfl, ⟨rfl, rfl, rfl⟩, by simp⟩
  · have hx : checkpointCopyDone s = onRec (fun r => { r with ckpts := keepLast 4 r.ckpts n, ckptNow := none }) s := by
      simp [checkpointCopyDone, h]
    exact ⟨_, run_of_quiet hx ⟨rfl, rfl, rfl⟩, rfl, mem_keepLast (by decide) _ _, length_keepLast_le _ _ _, ⟨rfl, rfl, rfl⟩,
      by simp⟩
  · have hx : checkpointCopyTimeout s =
        event 0x0961 0 (onRec (fun r => { r with ckptNow := none, ckptDrop := satAdd 0xFFFF r.ckptDrop 1 }) s) := by
      simp [checkpointCopyTimeout, hn, ha]
    have hlog := logged_event_of_clock (c := 0x0961) (d := 0) (s := s)
      (u := onRec (fun r => { r with ckptNow := none, ckptDrop := satAdd 0xFFFF r.ckptDrop 1 }) s) ⟨rfl, rfl, rfl⟩ rfl
    exact ⟨_, run_of_logged hx hlog, rfl, rfl, hlog, by simp⟩
  · obtain h | h := h <;> simp [checkpointCopyTimeout, h]
  · have hx : recordingStop s = onRec (fun r => { r with on := false }) s := by simp [recordingStop, ho, hl]
    exact ⟨_, run_of_quiet hx ⟨rfl, rfl, rfl⟩, rfl, ⟨rfl, rfl, rfl⟩, by simp⟩
  · simp [recordingStop, h]

end Sys2Proof.Machine

/-! PROOF. HostCommands: what a reply leaves, at 18.0 µs or at once, the words of a trigger, a signed Prune, and O48. -/

namespace Sys2Proof.Machine

/-! ### Replies at 18.0 µs (R390, R392) -/

/-- The refusal of a command has been counted (R392). -/
def refusalCounted (code key : Nat) (s : State) : State :=
  onHost (fun h => { h with refcnt := satAdd 0xFFFF h.refcnt 1, lastCode := code, lastKey := key }) s

theorem mkReply_congr {s t : State} (h : t.time = s.time) (o : Origin) (code detail : Nat) (body : List Byte) :
    mkReply o code detail body t = mkReply o code detail body s := by
  simp only [mkReply, h]

theorem replyAt18_of_refusal {o : Origin} {code detail : Nat} {s : State} (h : code ≠ 0) : replyAt18 o code detail [] s =
    onHost (fun x => { x with replies := x.replies ++ [mkReply o code detail [] s] })
      (eventOnce 0x0970 0 0 (refusalCounted code o.key s)) := by
  simp only [replyAt18, if_neg h, noteRefusal, refusalCounted, mkReply_congr (eventOnce_time ..)]
  rfl

/-- A command whose meaning is a refusal completes with it. -/
theorem run_of_refusal {f : State → State} {o : Origin} {code detail : Nat} {s : State} (hc : code ≠ 0)
    (hx : f s = replyAt18 o code detail [] s) : ∃ t, run f s = .next t ∧ refused18 o code detail s t := by
  rw [replyAt18_of_refusal hc] at hx
  obtain ⟨hlog, hsup⟩ := eventOnce_quiet_or_logged (c := 0x0970) (k := 0) (d := 0) (s := s) (u := refusalCounted code o.key s)
    ⟨rfl, rfl, rfl⟩ rfl rfl
  have hrun : run f s = .next (onHost (fun x => { x with replies := x.replies ++ [mkReply o code detail [] s] })
      (eventOnce 0x0970 0 0 (refusalCounted code o.key s))) := by
    cases h : s.chip.once.contains (0x0970, 0)
    · exact run_of_logged hx (hlog h)
    · exact run_of_quiet hx (hsup h)
  refine ⟨_, hrun, ?_, ⟨hsup, hlog⟩, by simp [refusalCounted]⟩
  rw [onHost_host, eventOnce_host]
  rfl

/-- A command that is accepted leaves its reply beside its effect. -/
theorem accept_eq (o : Origin) (s : State) :
    accept o s = onHost (fun h => { h with replies := h.replies ++ [mkReply o 0 0 [] s] }) s := rfl

theorem needsCell_of_cell {o : Origin} {r : Nat} {s : State} {k : State → State} (h : nodeMode s = false) :
    needsCell o r s k = k s := by
  simp [needsCell, h]

/-! ### FLOWMSG and MAILBOX (R367, R393) -/

section
variable {o : Origin} {f q : Nat} {l : List Byte} {s : State}

theorem flowmsgCmd_of_enabled (hn : nodeMode s = false) (ht : (flowCfg s f).type = 2)
    (hk : ((flowCfg s f).snaps.any (fun e => e.skind == 6)) = true) (he : (flowSt s f).en = true) :
    flowmsgCmd o f l s = accept o (onFlow f (fun x => { x with msgs := x.msgs ++ [l] }) s) := by
  simp only [flowmsgCmd, needsCell_of_cell hn, ht, hk, he]
  rfl

theorem flowmsgCmd_of_type (hn : nodeMode s = false) (ht : (flowCfg s f).type ≠ 2) :
    flowmsgCmd o f l s = replyAt18 o 11 0 [] s := by
  simp [flowmsgCmd, needsCell_of_cell hn, ht]

theorem flowmsgCmd_of_disabled (hn : nodeMode s = false) (ht : (flowCfg s f).type = 2)
    (hk : ((flowCfg s f).snaps.any (fun e => e.skind == 6)) = true) (he : (flowSt s f).en = false) :
    flowmsgCmd o f l s = replyAt18 o 13 1 [] s := by
  simp only [flowmsgCmd, needsCell_of_cell hn, ht, hk, he]
  rfl

theorem mailboxCmd_of_room (hn : nodeMode s = false) (hlo : 16 ≤ q) (hhi : q ≤ 23) (hq : qFull s q = false) :
    mailboxCmd o q l s = accept o (pushEntry q { bytes := l } s) := by
  simp [mailboxCmd, needsCell_of_cell hn, Nat.not_lt.2 hlo, Nat.not_lt.2 hhi, canPush, hq]

theorem mailboxCmd_of_no_mailbox (hn : nodeMode s = false) (h : q < 16 ∨ 23 < q) :
    mailboxCmd o q l s = replyAt18 o 11 0 [] s := by
  simp [mailboxCmd, needsCell_of_cell hn, h]

theorem mailboxCmd_of_full (hn : nodeMode s = false) (hlo : 16 ≤ q) (hhi : q ≤ 23) (hq : qFull s q = true)
    (ho : (queueCfg s q).overwrite = false) : mailboxCmd o q l s = replyAt18 o 13 1 [] s := by
  simp [mailboxCmd, needsCell_of_cell hn, Nat.not_lt.2 hlo, Nat.not_lt.2 hhi, canPush, hq, ho]

end

/-! ### TRIGGER (R110 to R112) -/

/-- START and PERIOD of the command are the pending words of the trigger. -/
def withWords (w : TrigWords) (x : TrigSt) : TrigSt :=
  { x with
    pSec := w.startNs / 1000000000, pNsec := w.startNs % 1000000000, pStartFr := w.startFr, pPerNs := w.perNs, pPerFr := w.perFr }

/-- START lies less than 64 ns after the instant of the write, or before it (R111). -/
def startsLate (w : TrigWords) (now : Nat) : Bool := w.startNs * fr + w.startFr % fr < (now + 64) * fr

/-- A trigger that words arm at an instant (R110, R111). -/
def armedBy (w : TrigWords) (src : Bool) (now : Nat) (x : TrigSt) : TrigSt :=
  { x with
    ctl := w.ctl, start := w.startNs * fr + w.startFr % fr, per := trigPer w, width := trigWidth w, pol := w.ctl.getLsbD 30,
    left := w.ctl.toNat / 65536 % 4096, fired := 0, src := src, pend := none,
    next := firstEdge (w.startNs * fr + w.startFr % fr) (trigPer w) ((now + 64) * fr),
    active := !(startsLate w now && trigPer w = 0), late := x.late || startsLate w now }

/-- A trigger that takes a control write at an instant: armed with ARM 1, disarmed with ARM 0. -/
def taken (w : TrigWords) (src : Bool) (now : Nat) (x : TrigSt) : TrigSt :=
  if w.ctl.getLsbD 31 then armedBy w src now x else { x with ctl := w.ctl, active := false, pend := none }

/-- A control write is kept as CTL, and leaves the pending words. -/
theorem taken_words (w : TrigWords) (src : Bool) (now : Nat) (x : TrigSt) : (taken w src now x).ctl = w.ctl ∧
    (taken w src now x).pSec = x.pSec ∧ (taken w src now x).pNsec = x.pNsec ∧ (taken w src now x).pStartFr = x.pStartFr ∧
    (taken w src now x).pPerNs = x.pPerNs ∧ (taken w src now x).pPerFr = x.pPerFr := by
  unfold taken
  split <;> exact ⟨rfl, rfl, rfl, rfl, rfl, rfl⟩

theorem taken_of_disarm {w : TrigWords} (h : w.ctl.getLsbD 31 = false) (src : Bool) (now : Nat) (x : TrigSt) :
    taken w src now x = { x with ctl := w.ctl, active := false, pend := none } := by
  rw [taken, h, if_neg Bool.false_ne_true]

theorem taken_of_arm {w : TrigWords} (h : w.ctl.getLsbD 31 = true) (src : Bool) (now : Nat) (x : TrigSt) :
    taken w src now x = armedBy w src now x := by
  rw [taken, if_pos h]

/-- Arming changes its trigger, and raises TIME_TRIG_LATE when it comes late. -/
theorem armTrigger_eq (i : Nat) (w : TrigWords) (src : Bool) (now : Nat) (s : State) :
    armTrigger i w src now s = onTrig i (armedBy w src now) s ∨
      armTrigger i w src now s = event 0x0210 i (onTrig i (armedBy w src now) s) := by
  unfold armTrigger
  dsimp only
  split
  · exact .inr rfl
  · exact .inl rfl

/-- A control write that takes effect at once changes its trigger, and raises TIME_TRIG_LATE when it arms late. -/
theorem applyTrigger_eq (i : Nat) (w : TrigWords) (src : Bool) (now : Nat) (s : State) :
    applyTrigger i w src now s = onTrig i (taken w src now) s ∨
      w.ctl.getLsbD 31 = true ∧ applyTrigger i w src now s = event 0x0210 i (onTrig i (taken w src now) s) := by
  cases hb : w.ctl.getLsbD 31
  · have ht : taken w src now = fun x => { x with ctl := w.ctl, active := false, pend := none } :=
      funext (taken_of_disarm hb src now)
    rw [applyTrigger, hb, ht]
    exact .inl rfl
  · have ht : taken w src now = armedBy w src now := funext (taken_of_arm hb src now)
    rw [applyTrigger, hb, ht, if_pos rfl]
    exact (armTrigger_eq i w src now s).imp_right fun h => ⟨rfl, h⟩

theorem writeTrigger_of_idle {i now : Nat} {w : TrigWords} {src : Bool} {s : State} (h : (trigSt s i).active = false) :
    writeTrigger i w src now s = applyTrigger i w src now s := by
  simp [writeTrigger, h]

theorem onTrig_onTrig (i : Nat) (f g : TrigSt → TrigSt) (s : State) :
    onTrig i g (onTrig i f s) = onTrig i (fun x => g (f x)) s := by
  simp only [onTrig, onTime, updAt_updAt]

theorem trigSt_onTrig {i : Nat} {s : State} (f : TrigSt → TrigSt) (h : i < s.time.trigs.length) :
    trigSt (onTrig i f s) i = f (trigSt s i) := nth_updAt_self _ _ _ h

/-- A trigger after the command: its words pending and taken at E0 of the release tick (R112). -/
def commanded (w : TrigWords) (i : Nat) (s : State) : State := onTrig i (fun x => taken w false (e0Of s) (withWords w x)) s

theorem triggerCmd_of_idle {o : Origin} {i : Nat} {w : TrigWords} {s : State} (hn : nodeMode s = false) (hi : i < 4)
    (ha : (trigSt s i).active = false) : triggerCmd o i w s = accept o (commanded w i s) ∨
      w.ctl.getLsbD 31 = true ∧ triggerCmd o i w s = accept o (event 0x0210 i (commanded w i s)) := by
  have hidle : (trigSt (onTrig i (withWords w) s) i).active = false :=
    (nth_updAt_same (P := TrigSt.active) (f := withWords w) (fun _ => rfl) s.time.trigs i i).trans ha
  have hx : triggerCmd o i w s = accept o (applyTrigger i w false (e0Of s) (onTrig i (withWords w) s)) := by
    rw [triggerCmd, needsCell_of_cell hn, if_neg (Nat.not_le.2 hi), ← writeTrigger_of_idle hidle]
    rfl
  rw [hx, commanded, ← onTrig_onTrig i (withWords w) (taken w false (e0Of s))]
  obtain h | ⟨hb, h⟩ := applyTrigger_eq i w false (e0Of s) (onTrig i (withWords w) s)
  · exact .inl (by rw [h])
  · exact .inr ⟨hb, by rw [h]⟩

theorem triggerCmd_of_absent {o : Origin} {i : Nat} {w : TrigWords} {s : State} (hn : nodeMode s = false) (hi : 4 ≤ i) :
    triggerCmd o i w s = replyAt18 o 11 0 [] s := by
  rw [triggerCmd, needsCell_of_cell hn, if_pos hi]

/-- The command on an idle trigger completes with its effect on the trigger and its acceptance; only arming can raise an event. -/
theorem run_triggerCmd_of_idle {o : Origin} {i : Nat} {w : TrigWords} {s : State} (hn : nodeMode s = false) (hi : i < 4)
    (ha : (trigSt s i).active = false) : ∃ t, run (triggerCmd o i w) s = .next t ∧ t.time = (commanded w i s).time ∧
      (w.ctl.getLsbD 31 = false → quiet s t) ∧ accepted18 o s t ∧ only [.chip, .time, .host] s t := by
  have hq : quiet s (commanded w i s) := ⟨rfl, rfl, rfl⟩
  obtain hx | ⟨hb, hx⟩ := triggerCmd_of_idle (o := o) hn hi ha
  · exact ⟨_, run_of_quiet hx hq, rfl, fun _ => hq, rfl, by simp [accept_eq, commanded, onTrig]⟩
  · have hlog : logged 0x0210 i s (event 0x0210 i (commanded w i s)) := logged_event_of_clock hq rfl
    exact ⟨_, run_of_logged hx hlog, rfl, fun h => Bool.noConfusion (hb.symm.trans h), rfl,
      by simp [accept_eq, commanded, onTrig]⟩

/-! ### Replies sent at once (R390, R398) -/

/-- What the sending of frames and the counting of a refusal leave: the replies sent so far, the Prunes and the result of
firmware's last one. -/
def State.sentAndPrunes (s : State) : List Reply × List PruneSt × Nat := (s.host.sent, s.chip.prunes, s.chip.pruneResult)

@[simp] theorem eventOnce_sentAndPrunes (c k d : Nat) (s : State) : (eventOnce c k d s).sentAndPrunes = s.sentAndPrunes := by
  unfold eventOnce
  split <;> rfl

@[simp] theorem sendDev_sentAndPrunes (p : Nat) (f : TxFrame) (s : State) : (sendDev p f s).sentAndPrunes = s.sentAndPrunes := by
  simp only [sendDev, dropFrame]
  split_ifs
  · rfl
  · rfl
  · rw [eventOnce_sentAndPrunes]; rfl
  · rfl

@[simp] theorem sendNet_sentAndPrunes (n : Nat) (f : TxFrame) (s : State) : (sendNet n f s).sentAndPrunes = s.sentAndPrunes := by
  unfold sendNet
  split <;> simp

theorem sendReplyOn_sentAndPrunes (r : Reply) (n : Net) (s : State) : (sendReplyOn r n s).sentAndPrunes =
    (s.host.sent ++ [{ r with net := n }], s.chip.prunes, s.chip.pruneResult) := sendNet_sentAndPrunes ..

theorem forAll_sendReplyOn_sentAndPrunes (r : Reply) (ns : List Net) (s : State) :
    (forAll ns (sendReplyOn r) s).sentAndPrunes =
      (s.host.sent ++ ns.map (fun n => { r with net := n }), s.chip.prunes, s.chip.pruneResult) := by
  induction ns generalizing s with
  | nil => simp [forAll, State.sentAndPrunes]
  | cons n ns ih =>
    have hn := sendReplyOn_sentAndPrunes r n s
    simp only [State.sentAndPrunes, Prod.mk.injEq] at hn
    obtain ⟨hsent, hprunes, hresult⟩ := hn
    refine (ih (sendReplyOn r n s)).trans ?_
    simp [hsent, hprunes, hresult]

/-- The replies that leave for a reply formed at s. -/
def repliesTo (r : Reply) (s : State) : List Reply :=
  if repliesOut s then (replyNets s r).map (fun n => { r with net := n }) else []

theorem sendReply_sentAndPrunes (r : Reply) (s : State) : (sendReply r s).sentAndPrunes =
    (s.host.sent ++ repliesTo r s, s.chip.prunes, s.chip.pruneResult) := by
  simp only [sendReply, repliesTo]
  split
  · exact forAll_sendReplyOn_sentAndPrunes ..
  · simp [State.sentAndPrunes, markDecided, onKey]

/-- A refusal that is counted does not change which replies leave. -/
theorem repliesTo_noteRefusal (r : Reply) (code key : Nat) (s : State) :
    repliesTo r (noteRefusal code key s) = repliesTo r s := by
  simp only [noteRefusal, eventOnce]
  split <;> rfl

theorem noteRefusal_sentAndPrunes (code key : Nat) (s : State) : (noteRefusal code key s).sentAndPrunes = s.sentAndPrunes :=
  eventOnce_sentAndPrunes 0x0970 0 0 _

/-- A refusal that is answered at once leaves by the networks of its command, and the list of Prunes as it is. -/
theorem replyNow_of_refusal_sentAndPrunes {o : Origin} {code detail : Nat} {body : List Byte} {s : State} (h : code ≠ 0) :
    (replyNow o code detail body s).sentAndPrunes =
      (s.host.sent ++ repliesTo (mkReply o code detail body s) s, s.chip.prunes, s.chip.pruneResult) := by
  have hview := noteRefusal_sentAndPrunes code o.key s
  simp only [State.sentAndPrunes, Prod.mk.injEq] at hview
  obtain ⟨hsent, hprunes, hresult⟩ := hview
  have htime : (noteRefusal code o.key s).time = s.time := eventOnce_time ..
  simp only [replyNow, if_neg h, mkReply_congr htime]
  rw [sendReply_sentAndPrunes, repliesTo_noteRefusal, hsent, hprunes, hresult]

section
variable {ps : List Part} {s t : State}

@[simp] theorem only_sendDev {p : Nat} {f : TxFrame} (hc : .chip ∈ ps) (hh : .host ∈ ps) :
    only ps s (sendDev p f t) ↔ only ps s t := by
  simp [sendDev, dropFrame, hc, hh]
@[simp] theorem only_sendReplyOn {r : Reply} {n : Net} (hc : .chip ∈ ps) (hh : .host ∈ ps) :
    only ps s (sendReplyOn r n t) ↔ only ps s t := by
  simp [sendReplyOn, sendNet, hc, hh]
@[simp] theorem only_sendReply {r : Reply} (hc : .chip ∈ ps) (hh : .host ∈ ps) : only ps s (sendReply r t) ↔ only ps s t := by
  have hall (ns : List Net) (u : State) : only ps s (forAll ns (sendReplyOn r) u) ↔ only ps s u :=
    only_forAll fun n u => (only_sendReplyOn hc hh).2 (only_refl ps u)
  simp [sendReply, markDecided, onKey, hall, hh]
@[simp] theorem only_replyNow {o : Origin} {code detail : Nat} {body : List Byte} (hc : .chip ∈ ps) (hh : .host ∈ ps) :
    only ps s (replyNow o code detail body t) ↔ only ps s t := by
  simp [replyNow, noteRefusal, hc, hh]

end

/-! ### PRUNE (R397) -/

/-- A signed Prune that is refused ends at once, with the answer of code 16. -/
theorem startPrunes_of_refused {p : PruneSt} {o : Origin} {s u : State} (hs : p.signed = true) (ho : p.origin = some o)
    (hx : pruneAct p (pruning p s) = (2, u)) : ∃ e, startPrunes 1 (pruning p s) =
      replyNow o 16 p.kind (leBytes 1 2 ++ leBytes 1 p.kind ++ leBytes 2 e)
        { onChip (fun c => { c with prunes := [] }) u with free := u.free + 1 } := by
  have hl : (pruning p s).chip.prunes = [p] := rfl
  simp only [startPrunes, hl, hx, pruneEnd, hs, ho]
  exact ⟨_, rfl⟩

/-- The Prune that a signed command asks for. -/
def signedPrune (o : Origin) (k r x : Nat) : PruneSt := { kind := k, region := r, index := x, signed := true, origin := some o }

theorem pruneCmd_of_busy {o : Origin} {k r x : Nat} {s : State} (h : s.chip.prunes ≠ []) :
    pruneCmd o k r x s = onChip (fun c => { c with prunes := c.prunes ++ [signedPrune o k r x] }) s := by
  simp [pruneCmd, requestPrune, signedPrune, h]

theorem pruneCmd_of_idle {o : Origin} {k r x : Nat} {s : State} (h : s.chip.prunes = []) :
    pruneCmd o k r x s = startPrunes 1 (pruning (signedPrune o k r x) s) := requestPrune_of_idle h

/-- A Prune of a plant queue empties it and runs (R60). -/
theorem pruneCmd_of_queue {o : Origin} {r q : Nat} {s : State} (h : s.chip.prunes = []) (hq : q < 8) :
    pruneCmd o 6 r q s = pruning (signedPrune o 6 r q)
      (onPort (q / 2) (fun x => if q % 2 = 0 then { x with fwd := [] } else { x with dev := [] })
        (pruning (signedPrune o 6 r q) s)) :=
  (pruneCmd_of_idle h).trans (startPrunes_of_found rfl (pruneQueue_of_lt hq))

/-- A Prune of an unknown KIND completes with its answer and leaves no other trace at the chip level than events and the draw of
its elapsed time. -/
theorem run_pruneCmd_of_unknown {o : Origin} {k r x : Nat} {s : State} (h : s.chip.prunes = []) (hk : k = 0 ∨ 7 < k) :
    ∃ t e, run (pruneCmd o k r x) s = .next t ∧ t.chip.prunes = [] ∧
      answered o 16 k (leBytes 1 2 ++ leBytes 1 k ++ leBytes 2 e) s t ∧ t.chip.pruneResult = s.chip.pruneResult ∧
      only [.chip, .host, .free] s t := by
  obtain ⟨e, he⟩ := startPrunes_of_refused (p := signedPrune o k r x) (s := s) rfl rfl (pruneAct_of_invalid hk)
  have hx := (pruneCmd_of_idle h).trans he
  have hview := replyNow_of_refusal_sentAndPrunes (o := o) (code := 16) (detail := k)
    (body := leBytes 1 2 ++ leBytes 1 k ++ leBytes 2 e)
    (s := { onChip (fun c => { c with prunes := [] }) (pruning (signedPrune o k r x) s) with free := s.free + 1 }) (by decide)
  rw [State.sentAndPrunes, Prod.mk.injEq, Prod.mk.injEq] at hview
  obtain ⟨hsent, hprunes, hresult⟩ := hview
  refine ⟨_, e, congrArg (fun t => Host.Outcome.next (settle s t)) hx, ?_, ?_, ?_, ?_⟩
  · rw [settle_prunes]; exact hprunes
  · rw [answered, settle_host]; exact hsent
  · rw [settle_chip]; exact hresult
  · rw [only_settle_iff (by decide), only_replyNow (by decide) (by decide), only_free (by decide)]
    simp

/-- Settles O48: each command is one equation for its effect and its reply; a trigger takes its words at once, and a signed Prune
waits, runs, or is answered. -/
theorem hostCommands : Obligations.HostCommands := by
  refine ⟨fun o f l s hn ht hk hf he => ?_, fun o f l s hn => ⟨fun ht => ?_, fun ht hk he => ?_⟩,
    fun o q l s hn hlo hhi hq hr => ?_, fun o q l s hn => ⟨fun h => ?_, fun hlo hhi hq ho => ?_⟩,
    fun o i w s hn h4 hi ha => ?_, fun o i w s hn hi => run_of_refusal (by decide) (triggerCmd_of_absent hn hi),
    fun o k r x s h => ?_, fun o r q s h hq hp => ?_, fun o k r x s h hk => run_pruneCmd_of_unknown h hk⟩
  · have hflow := nth_updAt_self s.host.flows f (fun x => { x with msgs := x.msgs ++ [l] }) hf
    exact ⟨_, run_of_quiet (flowmsgCmd_of_enabled hn ht hk he) ⟨rfl, rfl, rfl⟩, hflow, onlyAt_updAt _ _ _, rfl, ⟨rfl, rfl, rfl⟩,
      by simp [accept_eq]⟩
  · exact run_of_refusal (by decide) (flowmsgCmd_of_type hn ht)
  · exact run_of_refusal (by decide) (flowmsgCmd_of_disabled hn ht hk he)
  · obtain ⟨b, hb⟩ := pushEntry_of_room hr { bytes := l }
    have hx := (mailboxCmd_of_room (o := o) (l := l) hn hlo hhi hr).trans (congrArg (accept o) hb)
    have hqueue := nth_updAt_self s.host.queues q (fun x => { x with entries := x.entries ++ [{ bytes := l }] }) hq
    exact ⟨_, run_of_quiet hx ⟨rfl, rfl, rfl⟩, hqueue, onlyAt_updAt _ _ _, rfl, ⟨rfl, rfl, rfl⟩, by simp [accept_eq]⟩
  · exact run_of_refusal (by decide) (mailboxCmd_of_no_mailbox hn h)
  · exact run_of_refusal (by decide) (mailboxCmd_of_full hn hlo hhi hq ho)
  · obtain ⟨t, hrun, htime, hquiet, haccepted, honly⟩ := run_triggerCmd_of_idle (o := o) (w := w) hn h4 ha
    have htrig : trigSt t i = taken w false (e0Of s) (withWords w (trigSt s i)) := by
      rw [trigSt, htime]
      exact trigSt_onTrig _ hi
    obtain ⟨hctl, hsec, hnsec, hfr, hper, hperfr⟩ := taken_words w false (e0Of s) (withWords w (trigSt s i))
    rw [← htrig] at hctl hsec hnsec hfr hper hperfr
    refine ⟨t, hrun, hctl, hsec, hnsec, hfr, hper, hperfr, fun hb => ⟨?_, hquiet hb⟩, fun hb => ?_, ?_, ?_, haccepted, honly⟩
    · rw [htrig, taken_of_disarm hb]
    · rw [htrig, taken_of_arm hb]
      exact ⟨rfl, rfl, rfl⟩
    · rw [htime]
      exact onlyAt_updAt _ _ _
    · rw [htime]
      rfl
  · exact ⟨_, run_of_quiet (pruneCmd_of_busy h) ⟨rfl, rfl, rfl⟩, rfl, ⟨rfl, rfl, rfl⟩, by simp⟩
  · refine ⟨_, run_of_quiet (pruneCmd_of_queue h hq) ⟨rfl, rfl, rfl⟩, ?_, rfl, rfl, ⟨rfl, rfl, rfl⟩, by simp⟩
    split
    · exact congrArg PortSt.fwd (nth_updAt_self _ _ _ hp)
    · exact congrArg PortSt.dev (nth_updAt_self _ _ _ hp)

end Sys2Proof.Machine

/-! SUPPORT. RingUpdates: the update of one ring, the frames that it sends, the commands that change no more than one ring, and
what of a ring its routes depend on. -/

namespace Sys2Proof.Machine

/-! ### The update of one ring -/

section
variable {r : Nat} {f g : RingSt → RingSt} {s : State}

theorem ringSt_onRing (h : r < s.ring.length) (f : RingSt → RingSt) : ringSt (onRing r f s) r = f (ringSt s r) :=
  nth_updAt_self _ _ _ h

theorem onRing_onRing (r : Nat) (f g : RingSt → RingSt) (s : State) :
    onRing r f (onRing r g s) = onRing r (fun x => f (g x)) s := by
  simp only [onRing, updAt_updAt]

theorem onRing_id (r : Nat) (s : State) : onRing r (fun x => x) s = s := by
  simp only [onRing, updAt_id]

theorem updAt_congr {α : Type} [Inhabited α] {l : List α} {i : Nat} {f g : α → α} (h : f (nth l i) = g (nth l i)) :
    updAt l i f = updAt l i g := by
  induction l generalizing i with
  | nil => rfl
  | cons x l ih =>
    cases i with
    | zero => exact congrArg (· :: l) h
    | succ i => exact congrArg (x :: ·) (ih h)

/-- Updates that agree on ring r as it stands have the same effect. -/
theorem onRing_congr (h : f (ringSt s r) = g (ringSt s r)) : onRing r f s = onRing r g s := by
  rw [onRing, updAt_congr h, onRing]

/-- What an update leaves of a ring is as it was, in every ring. -/
theorem ringSt_onRing_same {β : Type} {P : RingSt → β} (h : ∀ x, P (f x) = P x) (j : Nat) :
    P (ringSt (onRing r f s) j) = P (ringSt s j) := nth_updAt_same h _ _ _

@[simp] theorem eventOnce_ring (c k d : Nat) (s : State) : (eventOnce c k d s).ring = s.ring := by
  unfold eventOnce
  split <;> rfl

@[simp] theorem ringSt_event (c d j : Nat) (s : State) : ringSt (event c d s) j = ringSt s j := rfl

/-- Present master of its ring: what decides it stays as it was. -/
theorem isMaster_onRing (hr : r < s.ring.length)
    (h : ∀ x, (f x).role = x.role ∧ (f x).master = x.master ∧ (f x).node = x.node ∧ (f x).txStopped = x.txStopped ∧
      (f x).state = x.state) : isMaster (onRing r f s) r = isMaster s r := by
  obtain ⟨h1, h2, h3, h4, h5⟩ := h (ringSt s r)
  simp only [isMaster, capable, ringSt_onRing hr, h1, h2, h3, h4, h5]

end

theorem portSt_onRing {r : Nat} {s : State} (h : r < s.ring.length) (f : RingSt → RingSt) (c : Bool) :
    portSt (onRing r f s) r c = nth (f (ringSt s r)).ports (portIx c) := by rw [portSt, ringSt_onRing h]

theorem portIx_lt {l : List RPort} (h : l.length = 2) (c : Bool) : portIx c < l.length := by
  rw [h]
  cases c <;> decide

/-! ### What a command that works on one ring leaves -/

/-- From s to t no event was raised, and of the listed parts only ring r differs in RING. -/
def ringKept (r : Nat) (ps : List Part) (s t : State) : Prop := onlyAt r s.ring t.ring ∧ quiet s t ∧ only ps s t

section
variable {r : Nat} {ps : List Part} {s t u : State}

theorem quiet_trans (h : quiet s t) (k : quiet t u) : quiet s u := by
  obtain ⟨hev, hwr, htotal⟩ := h
  obtain ⟨kev, kwr, ktotal⟩ := k
  exact ⟨kev.trans hev, kwr.trans hwr, ktotal.trans htotal⟩

theorem ringKept.length (h : ringKept r ps s t) : t.ring.length = s.ring.length := h.1.1

theorem ringKept.quiet (h : ringKept r ps s t) : quiet s t := h.2.1

theorem ringKept.only (h : ringKept r ps s t) : only ps s t := h.2.2

theorem ringKept_refl (r : Nat) (ps : List Part) (s : State) : ringKept r ps s s :=
  ⟨⟨rfl, fun _ _ => rfl⟩, ⟨rfl, rfl, rfl⟩, only_refl ps s⟩

theorem ringKept_trans (h : ringKept r ps s t) (k : ringKept r ps t u) : ringKept r ps s u := by
  obtain ⟨hring, hquiet, honly⟩ := h
  obtain ⟨kring, kquiet, konly⟩ := k
  exact ⟨onlyAt_trans hring kring, quiet_trans hquiet kquiet, only_trans honly konly⟩

@[simp] theorem only_onRing {f : RingSt → RingSt} (h : .ring ∈ ps) : only ps s (onRing r f t) ↔ only ps s t :=
  only_iff_of_part .ring h (by rintro ⟨⟩ <;> simp [Part.same])

/-- A step that leaves all but listed parts does not matter for what else was left. -/
theorem ringKept_iff (h : ringKept r ps t u) : ringKept r ps s u ↔ ringKept r ps s t := by
  obtain ⟨⟨hlen, hring⟩, ⟨hev, hwr, htotal⟩, honly⟩ := id h
  have hback : ringKept r ps u t :=
    ⟨⟨hlen.symm, fun j hj => (hring j hj).symm⟩, ⟨hev.symm, hwr.symm, htotal.symm⟩,
      fun p hp => Part.same_symm (honly p hp)⟩
  exact ⟨fun k => ringKept_trans k hback, fun k => ringKept_trans k h⟩

@[simp] theorem ringKept_self : ringKept r ps s s := ringKept_refl r ps s
@[simp] theorem ringKept_ite (c : Prop) [Decidable c] :
    ringKept r ps s (if c then t else u) ↔ if c then ringKept r ps s t else ringKept r ps s u := by split <;> rfl
@[simp] theorem ringKept_onRing {f : RingSt → RingSt} (h : .ring ∈ ps) : ringKept r ps s (onRing r f t) ↔ ringKept r ps s t :=
  ringKept_iff ⟨onlyAt_updAt _ _ _, ⟨rfl, rfl, rfl⟩, (only_onRing h).2 (only_refl ps t)⟩
@[simp] theorem ringKept_onTime {f : TimeSt → TimeSt} (h : .time ∈ ps) : ringKept r ps s (onTime f t) ↔ ringKept r ps s t :=
  ringKept_iff ⟨⟨rfl, fun _ _ => rfl⟩, ⟨rfl, rfl, rfl⟩, (only_onTime h).2 (only_refl ps t)⟩
@[simp] theorem ringKept_onPair {f : PairSt → PairSt} (h : .pair ∈ ps) : ringKept r ps s (onPair f t) ↔ ringKept r ps s t :=
  ringKept_iff ⟨⟨rfl, fun _ _ => rfl⟩, ⟨rfl, rfl, rfl⟩, (only_onPair h).2 (only_refl ps t)⟩

/-- A command that updates one ring. -/
theorem run_onRing {f : State → State} {g : RingSt → RingSt} (hx : f s = onRing r g s) (hr : r < s.ring.length) :
    ∃ t, run f s = .next t ∧ ringSt t r = g (ringSt s r) ∧ ringKept r [.ring] s t :=
  ⟨_, run_of_quiet hx ⟨rfl, rfl, rfl⟩, ringSt_onRing hr g, by simp⟩

/-- A command that updates one ring and raises one event. -/
theorem run_event_onRing {f : State → State} {g : RingSt → RingSt} {c d : Nat} (hx : f s = event c d (onRing r g s))
    (hr : r < s.ring.length) : ∃ t, run f s = .next t ∧ ringSt t r = g (ringSt s r) ∧ logged c d s t ∧
      onlyAt r s.ring t.ring ∧ only [.chip, .ring] s t := by
  have hl : logged c d s (event c d (onRing r g s)) := logged_event ⟨rfl, rfl, rfl⟩ rfl
  exact ⟨_, run_of_logged hx hl, ringSt_onRing hr g, hl, onlyAt_updAt _ _ _, by simp⟩

/-- A command that updates one ring and raises events. -/
theorem run_events_onRing {f : State → State} {g : RingSt → RingSt} (hring : (f s).ring = updAt s.ring r g)
    (ho : only [.chip, .ring] s (f s)) (hr : r < s.ring.length) : ∃ t, run f s = .next t ∧ ringSt t r = g (ringSt s r) ∧
      onlyAt r s.ring t.ring ∧ only [.chip, .ring] s t := by
  refine ⟨_, rfl, ?_, ?_, (only_settle_iff (by decide)).2 ho⟩
  · rw [ringSt, settle_ring, hring]
    exact nth_updAt_self _ _ _ hr
  · rw [settle_ring, hring]
    exact onlyAt_updAt _ _ _

end

/-! ### Frames that leave the ports of a ring -/

/-- From s to t frames have left ports of ring r, and nothing else has changed. -/
def Sends (r : Nat) (s t : State) : Prop := ∃ l, t = onRing r (fun x => { x with tx := x.tx ++ l }) s

section
variable {r : Nat} {s t u : State}

theorem Sends.refl (r : Nat) (s : State) : Sends r s s := ⟨[], by simp only [List.append_nil, onRing_id]⟩

theorem Sends.trans (h : Sends r s t) (k : Sends r t u) : Sends r s u := by
  obtain ⟨l, rfl⟩ := h
  obtain ⟨m, rfl⟩ := k
  exact ⟨l ++ m, by simp only [onRing_onRing, List.append_assoc]⟩

/-- What is sent after an update of the ring. -/
theorem Sends.after {g : RingSt → RingSt} (h : Sends r (onRing r g s) t) :
    ∃ l, t = onRing r (fun x => { g x with tx := (g x).tx ++ l }) s := by
  obtain ⟨l, rfl⟩ := h
  exact ⟨l, onRing_onRing ..⟩

theorem sends_sendOn (r : Nat) (c : Bool) (f : RingTx) (s : State) : Sends r s (sendOn r c f s) := by
  unfold sendOn
  split
  · exact ⟨_, rfl⟩
  · exact .refl r s

theorem sends_sendBoth (r : Nat) (f : RingTx) (s : State) : Sends r s (sendBoth r f s) :=
  (sends_sendOn ..).trans (sends_sendOn ..)

theorem sends_passFrame (r : Nat) (c : Bool) (a : Nat) (cyclic : Bool) (h : RingHead) (pay : RingPay) (s : State) :
    Sends r s (passFrame r c a cyclic h pay s) := by
  unfold passFrame
  dsimp only
  split
  · exact sends_sendOn ..
  · split
    · exact .refl r s
    · exact sends_sendOn ..

theorem Sends.ringKept_iff {ps : List Part} (h : Sends r t u) (hp : .ring ∈ ps) :
    ringKept r ps s u ↔ ringKept r ps s t := by
  obtain ⟨l, rfl⟩ := h
  exact ringKept_onRing hp

/-- What the frames sent leave of the ring. -/
theorem Sends.ringSt_same {β : Type} {P : RingSt → β} (h : Sends r s t) (hP : ∀ x l, P { x with tx := l } = P x) :
    P (ringSt t r) = P (ringSt s r) := by
  obtain ⟨l, rfl⟩ := h
  exact ringSt_onRing_same (f := fun x => { x with tx := x.tx ++ l }) (fun _ => hP _ _) r

/-- A frame leaves a port that is up and returns nothing. -/
theorem mem_tx_sendOn {c : Bool} {f : RingTx} (hr : r < s.ring.length) (hup : (portSt s r c).up = true)
    (hloop : (portSt s r c).loop = false) : { f with ccw := c } ∈ (ringSt (sendOn r c f s) r).tx := by
  simp [sendOn, hup, hloop, ringSt_onRing hr]

end

end Sys2Proof.Machine

/-! PROOF. RingColdStart: how a starter sends its beacon, meets another, measures its ring; what a follower takes from a beacon; what a
frame that fails the checks leaves; and O13. -/

namespace Sys2Proof.Machine

/-! ### The start and its collisions (R148, R149) -/

/-- The beacon of a starter. -/
def startBeacon (s : State) (r a : Nat) : Beacon :=
  { state := 5, master := (ringSt s r).node, tx := a, sched := (ringCfg s r).sched }

/-- After the quiet time a listening device sends the beacon of a starter on both ports. -/
theorem coldStart_of_quiet {r a : Nat} {s : State} (hc : capable (ringSt s r) = true) (hl : (ringSt s r).state = .listen)
    (hn : (ringSt s r).attempts < 8) (hx : (ringSt s r).txStopped = false)
    (ha : (ringSt s r).heardAt + 50000 + (ringSt s r).rank * 4000 ≤ a) :
    ∃ l, coldStart r a s = onRing r (fun x => { x with
      state := .coldStart, attempts := x.attempts + 1, master := x.node, sentBeacon := some (startBeacon s r a),
      tx := x.tx ++ l }) s := by
  have hsend : coldStart r a s = sendBoth r { at_ := a, head := sealed (newHead s r 3 0 128), pay := .beacon (startBeacon s r a) }
      (onRing r (fun x => { x with
        state := .coldStart, attempts := x.attempts + 1, master := x.node, sentBeacon := some (startBeacon s r a) }) s) := by
    simp [coldStart, startBeacon, hc, hl, hn, hx, ha]
  rw [hsend]
  exact (sends_sendBoth ..).after

theorem coldStart_of_heard {r a : Nat} {s : State} (h : a < (ringSt s r).heardAt + 50000 + (ringSt s r).rank * 4000) :
    coldStart r a s = s := by
  simp [coldStart, Nat.not_le.2 h]

/-- A starter that hears another falls silent. -/
def fallenSilent (a : Nat) (x : RingSt) : RingSt :=
  { x with state := .listen, coll := satAdd 255 x.coll 1, sentBeacon := none, heardAt := a }

/-- Before its eighth attempt it will listen for the quiet time again. -/
theorem coldCollision_of_attempts {r a : Nat} {s : State} (hr : r < s.ring.length) (h : (ringSt s r).attempts < 8) :
    coldCollision r a s = event 0x0302 0 (onRing r (fallenSilent a) s) := by
  have hx : (ringSt (event 0x0302 0 (onRing r (fallenSilent a) s)) r).attempts = (ringSt s r).attempts := by
    rw [ringSt_event, ringSt_onRing hr]
    rfl
  exact if_neg (Nat.not_le.2 (hx ▸ h))

/-! ### A frame that fails the checks (R121) -/

/-- FCSERR of a port counts. -/
def countedFcs (ccw : Bool) (x : RingSt) : RingSt :=
  { x with ports := updAt x.ports (portIx ccw) (fun q => { q with fcserr := satAdd 0xFFFF q.fcserr 1 }) }

/-- The frame is counted, with RING_FCS once in a tick on each port. -/
def notedFcs (r : Nat) (ccw : Bool) (s : State) : State :=
  eventOnce 0x0341 (2 * r + portIx ccw) 0 (onRing r (countedFcs ccw) s)

theorem notedFcs_ring (r : Nat) (ccw : Bool) (s : State) : (notedFcs r ccw s).ring = updAt s.ring r (countedFcs ccw) :=
  eventOnce_ring ..

theorem only_notedFcs (r : Nat) (ccw : Bool) (s : State) : only [.chip, .ring] s (notedFcs r ccw s) := by simp [notedFcs]

theorem ringSt_notedFcs {r : Nat} {s : State} (hr : r < s.ring.length) (ccw : Bool) :
    ringSt (notedFcs r ccw s) r = countedFcs ccw (ringSt s r) := by
  rw [ringSt, notedFcs_ring]
  exact nth_updAt_self _ _ _ hr

theorem badFrame_eq (r a : Nat) (ccw cyc : Bool) (h : RingHead) (s : State) : badFrame r ccw a cyc h s =
    if (ringSt (notedFcs r ccw s) r).state == .coldStart then coldCollision r a (notedFcs r ccw s)
    else if isFollower (notedFcs r ccw s) r then passFrame r ccw a cyc h .other (notedFcs r ccw s)
    else notedFcs r ccw s := rfl

/-- It is a collision of a starter (R148). -/
theorem badFrame_of_coldStart {r a : Nat} {ccw cyc : Bool} {h : RingHead} {s : State} (hr : r < s.ring.length)
    (hs : (ringSt s r).state = .coldStart) : badFrame r ccw a cyc h s = coldCollision r a (notedFcs r ccw s) := by
  have hx : (ringSt (notedFcs r ccw s) r).state = .coldStart := by rw [ringSt_notedFcs hr]; exact hs
  rw [badFrame_eq, hx]
  rfl

/-- Any other device does not use it; a node may pass it on. -/
theorem badFrame_of_not_coldStart {r a : Nat} {ccw cyc : Bool} {h : RingHead} {s : State} (hr : r < s.ring.length)
    (hs : (ringSt s r).state ≠ .coldStart) : Sends r (notedFcs r ccw s) (badFrame r ccw a cyc h s) := by
  have hx : ((ringSt (notedFcs r ccw s) r).state == .coldStart) = false := by
    rw [ringSt_notedFcs hr]
    exact beq_eq_false_iff_ne.2 hs
  rw [badFrame_eq, hx, if_neg Bool.false_ne_true]
  split
  · exact sends_passFrame ..
  · exact .refl ..

theorem Sends.ring {r : Nat} {s t : State} (h : Sends r s t) :
    ∃ l, t.ring = updAt s.ring r (fun x => { x with tx := x.tx ++ l }) := by
  obtain ⟨l, rfl⟩ := h
  exact ⟨l, rfl⟩

theorem Sends.only {r : Nat} {s t u : State} {ps : List Part} (h : Sends r t u) (hp : .ring ∈ ps) (k : only ps s t) :
    only ps s u := by
  obtain ⟨l, rfl⟩ := h
  exact (only_onRing hp).2 k

/-- A collision that a frame with a failed check causes. -/
theorem run_badFrame_of_coldStart {r a : Nat} {ccw cyc : Bool} {h : RingHead} {f : State → State} {s : State}
    (hx : f s = badFrame r ccw a cyc h s) (hr : r < s.ring.length) (hs : (ringSt s r).state = .coldStart)
    (hn : (ringSt s r).attempts < 8) : ∃ t, run f s = .next t ∧
      ringSt t r = fallenSilent a (countedFcs ccw (ringSt s r)) ∧ onlyAt r s.ring t.ring ∧ only [.chip, .ring] s t := by
  have hr' : r < (notedFcs r ccw s).ring.length := by rwa [notedFcs_ring, updAt_length]
  have hn' : (ringSt (notedFcs r ccw s) r).attempts < 8 := by rwa [ringSt_notedFcs hr]
  have hf : f s = event 0x0302 0 (onRing r (fallenSilent a) (notedFcs r ccw s)) :=
    hx.trans ((badFrame_of_coldStart hr hs).trans (coldCollision_of_attempts hr' hn'))
  refine run_events_onRing (g := fun x => fallenSilent a (countedFcs ccw x)) ?_ ?_ hr
  · simp [hf, notedFcs_ring, updAt_updAt]
  · simp [hf, only_notedFcs]

/-- A frame with a failed check at a device that is no starter. -/
theorem run_badFrame_of_not_coldStart {r a : Nat} {ccw cyc : Bool} {h : RingHead} {f : State → State} {s : State}
    (hx : f s = badFrame r ccw a cyc h s) (hr : r < s.ring.length) (hs : (ringSt s r).state ≠ .coldStart) :
    ∃ t l, run f s = .next t ∧ ringSt t r = { countedFcs ccw (ringSt s r) with tx := (ringSt s r).tx ++ l } ∧
      onlyAt r s.ring t.ring ∧ only [.chip, .ring] s t := by
  have hsends : Sends r (notedFcs r ccw s) (f s) := hx ▸ badFrame_of_not_coldStart hr hs
  obtain ⟨l, hl⟩ := hsends.ring
  obtain ⟨t, ht⟩ := run_events_onRing (f := f) (g := fun x => { countedFcs ccw x with tx := x.tx ++ l })
    (by rw [hl, notedFcs_ring, updAt_updAt]; rfl) (hsends.only (by decide) (only_notedFcs r ccw s)) hr
  exact ⟨t, l, ht⟩

/-! ### The round trip (R149) -/

theorem heard_eq (r a : Nat) (s : State) : heard r a s = onRing r (fun x => { x with heardAt := a }) s := rfl

theorem isMaster_heard {r a : Nat} {s : State} (hr : r < s.ring.length) : isMaster (heard r a s) r = isMaster s r :=
  isMaster_onRing hr (fun _ => ⟨rfl, rfl, rfl, rfl, rfl⟩)

/-- A starter whose own beacon has come back measures. -/
def measuring (ccw : Bool) (a tx : Nat) (x : RingSt) : RingSt :=
  { x with
    heardAt := a, back := updAt x.back (portIx ccw) (fun _ => true), rtt := min 0xFFFF (a - tx), state := .measure,
    ports := x.ports.map (fun p => { p with rounds := 0 }) }

/-- In a pair the starter of ring 0 becomes the active. -/
theorem ownBeaconReturn_of_coldStart {r a : Nat} {ccw : Bool} {h : RingHead} {b : Beacon} {s : State} (hr : r < s.ring.length)
    (hs : (ringSt s r).state = .coldStart) (hm : isMaster s r = true) (hb : b.master = (ringSt s r).node)
    (hok : frameOk s r h = true) :
    ∃ p, ownBeaconReturn r ccw a h b s = onPair (fun _ => p) (onRing r (measuring ccw a b.tx) s) := by
  have hown : ownBeaconReturn r ccw a h b s = ownCopy r ccw a b (heard r a s) := by simp [ownBeaconReturn, hm, hb, hok]
  rw [hown, ownCopy]
  simp only [heard_eq, onRing_onRing, ringSt_onRing hr, hs, beq_self_eq_true, if_true]
  split
  · exact ⟨_, rfl⟩
  · exact ⟨s.pair, rfl⟩

/-- The ring that has measured enters PRE-RUN. -/
def preRunning (n : Nat) (x : RingSt) : RingSt := { x with state := .preRun, count := n }

theorem measureDone_of_run {r : Nat} {s : State} (hs : (ringSt s r).state = .measure) (hp : probesDone s r = true)
    (ht : (ringSt s r).rtt ≤ (ringCfg s r).rttmax) (hrun : s.time.run = true) :
    measureDone r s = onRing r (preRunning s.image.precnt) s := by
  simp [measureDone, hs, hp, ht, hrun]
  rfl

theorem measureDone_of_not_run {r : Nat} {s : State} (hs : (ringSt s r).state = .measure) (hp : probesDone s r = true)
    (ht : (ringSt s r).rtt ≤ (ringCfg s r).rttmax) (hrun : s.time.run = false) :
    measureDone r s = planStart (onRing r (preRunning s.image.precnt) s) := by
  simp [measureDone, hs, hp, ht, hrun]
  rfl

theorem measureDone_of_long {r : Nat} {s : State} (hs : (ringSt s r).state = .measure) (hp : probesDone s r = true)
    (ht : (ringCfg s r).rttmax < (ringSt s r).rtt) : measureDone r s = event 0x0304 0 s := by
  simp [measureDone, hs, hp, Nat.not_le.2 ht]

theorem measureDone_of_probing {r : Nat} {s : State} (hp : probesDone s r = false) : measureDone r s = s := by
  simp [measureDone, hp]

/-- The planned start: T_start lies a whole number of periods on, and all rings in PRE-RUN count down to it. -/
theorem planStart_facts (s : State) :
    (planStart s).time.tplan = wholePeriod s (s.time.tb + max 100000 (s.image.precnt * periodNs s)) ∧
      quiet s (planStart s) ∧ only [.ring, .time] s (planStart s) := by
  refine ⟨rfl, ⟨rfl, rfl, rfl⟩, ?_⟩
  rw [planStart, only_ring (by decide), only_onTime (by decide)]
  exact only_refl _ s

theorem ringSt_planStart {r : Nat} {s : State} (hr : r < s.ring.length) (hs : (ringSt s r).state = .preRun) :
    ringSt (planStart s) r = { ringSt s r with count := s.image.precnt } := by
  have hn : ringSt (planStart s) r = if (ringSt s r).state == .preRun then { ringSt s r with count := s.image.precnt }
      else ringSt s r := nth_map _ _ _ hr
  rw [hn, hs]
  rfl
/-! ### A beacon at a device that obeys it (R136, R137, R140) -/

section
variable {r : Nat} {ps : List Part} {s t : State}

@[simp] theorem ringSt_onTime (f : TimeSt → TimeSt) (s : State) (j : Nat) : ringSt (onTime f s) j = ringSt s j := rfl
@[simp] theorem ringSt_onPair (f : PairSt → PairSt) (s : State) (j : Nat) : ringSt (onPair f s) j = ringSt s j := rfl

@[simp] theorem ringKept_advanceTb {a : Nat} (h : .time ∈ ps) : ringKept r ps s (advanceTb a t) ↔ ringKept r ps s t := by
  simp [advanceTb, slewTo, h]
@[simp] theorem ringKept_servoTo {a : Nat} {o d : Int} (h : .time ∈ ps) :
    ringKept r ps s (servoTo a o d t) ↔ ringKept r ps s t := by
  simp [servoTo, slewTo, h]
@[simp] theorem ringKept_followBeacon {a : Nat} {o : Int} {b : Beacon} (hr : .ring ∈ ps) (ht : .time ∈ ps) :
    ringKept r ps s (followBeacon r a o b t) ↔ ringKept r ps s t := by
  simp [followBeacon, hr, ht]
@[simp] theorem ringKept_beaconTime {a : Nat} {c : Bool} {b : Beacon} (hr : .ring ∈ ps) (ht : .time ∈ ps) :
    ringKept r ps s (beaconTime r c a b t) ↔ ringKept r ps s t := by
  simp [beaconTime, notePath, hr, ht]
@[simp] theorem ringKept_applyBeacon {c fr : Bool} {b : Beacon} (hr : .ring ∈ ps) (ht : .time ∈ ps) :
    ringKept r ps s (applyBeacon r c fr b t) ↔ ringKept r ps s t := by
  simp [applyBeacon, hr, ht]
@[simp] theorem ringKept_hearMaster (hp : .pair ∈ ps) (ht : .time ∈ ps) :
    ringKept r ps s (hearMaster r t) ↔ ringKept r ps s t := by
  simp [hearMaster, hp, ht]
@[simp] theorem ringKept_forwardBeacon {a e : Nat} {c : Bool} {h : RingHead} {b : Beacon} (hr : .ring ∈ ps) :
    ringKept r ps s (forwardBeacon r c a e h b t) ↔ ringKept r ps s t := by
  have hsend {c : Bool} {f : RingTx} {t : State} := (sends_sendOn r c f t).ringKept_iff (s := s) hr
  simp [forwardBeacon, hr, hsend]

end

/-- What a device takes from a beacon that it obeys. -/
def RingSt.membership (x : RingSt) : BitVec 32 × BitVec 32 × Nat × Nat := (x.members, x.silent, x.master, x.beaconMiss)

@[simp] theorem advanceTb_ring (a : Nat) (s : State) : (advanceTb a s).ring = s.ring :=
  (only_advanceTb (ps := [.time]) (by decide)).2 (only_refl _ s) .ring (by decide)
@[simp] theorem servoTo_ring (a : Nat) (o d : Int) (s : State) : (servoTo a o d s).ring = s.ring :=
  (only_servoTo (ps := [.time]) (by decide)).2 (only_refl _ s) .ring (by decide)

theorem followBeacon_inSync {r : Nat} {s : State} (hr : r < s.ring.length) (a : Nat) (o : Int) (b : Beacon) :
    (ringSt (followBeacon r a o b s) r).inSync = (ringSt s r).inSync := by
  unfold followBeacon
  dsimp only
  split_ifs <;> simp [ringSt, hr]

/-- The first copy of a beacon counts as in sync by the offset of its arrival (R137). -/
theorem beaconTime_inSync {r a : Nat} {ccw : Bool} {b : Beacon} {s : State} (hr : r < s.ring.length)
    (hn : newBeacon (ringSt s r) b = true) : (ringSt (beaconTime r ccw a b s) r).inSync =
      if (beaconOffset s r ccw a b).natAbs ≤ 320 then min 16 ((ringSt s r).inSync + 1) else 0 := by
  have hlow : lowerCopy (ringSt s r) b = true := by rw [lowerCopy, hn, Bool.true_or]
  have hn' : newBeacon (ringSt (notePath r ccw b s) r) b = true := by rw [notePath, ringSt_onRing hr]; exact hn
  have hoff : beaconOffset (notePath r ccw b s) r ccw a b = beaconOffset s r ccw a b := by
    simp only [beaconOffset, portDelay, notePath, ringSt_onRing hr, portSt]
  have hlen : r < (notePath r ccw b s).ring.length := by simpa [notePath] using hr
  have hsync : (ringSt (notePath r ccw b s) r).inSync = (ringSt s r).inSync := by rw [notePath, ringSt_onRing hr]
  simp only [beaconTime, hlow, if_true, onRing_onRing]
  rw [followBeacon_inSync (by simpa using hlen), ringSt_onRing hlen]
  simp only [countSync, hn', hoff, hsync, if_true]

theorem breakOf_inSync (c : Bool) (b : Beacon) (x : RingSt) : (breakOf c b (takeoverOf b x)).inSync = x.inSync := by
  unfold breakOf takeoverOf setEnd
  split_ifs <;> rfl

theorem ringSt_ite (c : Prop) [Decidable c] (s t : State) (j : Nat) :
    ringSt (if c then s else t) j = if c then ringSt s j else ringSt t j := apply_ite (ringSt · j) _ _ _

theorem applyBeacon_ringSt {r : Nat} {s : State} (hr : r < s.ring.length) (ccw fr : Bool) (b : Beacon) :
    (ringSt (applyBeacon r ccw fr b s) r).membership = (b.members, b.silent, b.master, 0) ∧
      (ringSt (applyBeacon r ccw fr b s) r).inSync = (ringSt s r).inSync := by
  unfold applyBeacon
  dsimp only
  rw [ringSt_ite, ringSt_ite]
  simp only [ringSt_onTime, ite_self]
  rw [ringSt_onRing (by simpa using hr)]
  refine ⟨rfl, ?_⟩
  dsimp only
  rw [ringSt_onRing (by simpa using hr), ringSt_onRing hr]
  exact breakOf_inSync ..

/-- A beacon that goes on, or is returned at a break, leaves what has been taken from it. -/
theorem forwardBeacon_ringSt {β : Type} {P : RingSt → β} (hP : ∀ x l n, P { x with tx := l, routeAt := n } = P x) (r a e : Nat)
    (c : Bool) (h : RingHead) (b : Beacon) (s : State) : P (ringSt (forwardBeacon r c a e h b s) r) = P (ringSt s r) := by
  have hsend (c : Bool) (f : RingTx) (u : State) : P (ringSt (sendOn r c f u) r) = P (ringSt u r) :=
    (sends_sendOn r c f u).ringSt_same (fun x l => hP x l x.routeAt)
  unfold forwardBeacon
  dsimp only
  split_ifs
  · exact hsend ..
  · rfl
  · exact (hsend ..).trans (ringSt_onRing_same (f := fun x => { x with routeAt := _ }) (fun x => hP x x.tx _) r)
  · exact hsend ..

/-- The device has heard a master: while it listened it begins to follow the ring's time (R109). -/
def listened (r a : Nat) (s : State) : State :=
  if (ringSt s r).state == .listen then hearMaster r (heard r a s) else heard r a s

theorem listened_eq (r a : Nat) (s : State) :
    ∃ p t, listened r a s = onPair (fun _ => p) (onTime (fun _ => t) (heard r a s)) := by
  refine ⟨(listened r a s).pair, (listened r a s).time, ?_⟩
  unfold listened hearMaster
  dsimp only
  split_ifs <;> rfl

theorem beaconReceived_of_obeyed {r a e : Nat} {ccw : Bool} {h : RingHead} {b : Beacon} {s : State} (hr : r < s.ring.length)
    (h0 : (ringSt s r).role ≠ 0) (hd : (ringSt s r).state ≠ .down) (hc : (ringSt s r).state ≠ .coldStart)
    (hx : (ringSt s r).txStopped = false) (hm : isMaster s r = false) (hok : frameOk s r h = true) (ho : obeys s r b = true) :
    beaconReceived r ccw a e h b s = forwardBeacon r ccw a e h b
      (applyBeacon r ccw (newBeacon (ringSt s r) b) b (beaconTime r ccw a b (listened r a s))) := by
  have ho' : obeys (heard r a s) r b = true := by
    rw [← ho]
    simp only [obeys, heard_eq, ringSt_onRing hr, ringCfg, onRing_image]
  simp [beaconReceived, h0, hd, hc, hx, hm, hok, ho', isMaster_heard hr, listened]

/-- What such a beacon leaves: the membership and the master that it names, and the count of beacons in sync. -/
theorem beaconReceived_facts {r a e : Nat} {ccw : Bool} {h : RingHead} {b : Beacon} {s t : State} (hr : r < s.ring.length)
    (ht : t = forwardBeacon r ccw a e h b
      (applyBeacon r ccw (newBeacon (ringSt s r) b) b (beaconTime r ccw a b (listened r a s)))) :
    (ringSt t r).membership = (b.members, b.silent, b.master, 0) ∧ (newBeacon (ringSt s r) b = true → (ringSt t r).inSync =
      if (beaconOffset s r ccw a b).natAbs ≤ 320 then min 16 ((ringSt s r).inSync + 1) else 0) ∧
      ringKept r [.ring, .time, .pair] s t := by
  obtain ⟨p, c, hl⟩ := listened_eq r a s
  have hring : ringSt (listened r a s) r = { ringSt s r with heardAt := a } := by
    rw [hl, ringSt_onPair, ringSt_onTime, heard_eq, ringSt_onRing hr]
  have hkept : ringKept r [.ring, .time, .pair] s (listened r a s) := by simp [hl, heard_eq]
  have hoff : beaconOffset (listened r a s) r ccw a b = beaconOffset s r ccw a b := by
    simp only [beaconOffset, portDelay, portSt, hring]
  have hlen : r < (listened r a s).ring.length := by simpa [hl, heard_eq] using hr
  have htime : r < (beaconTime r ccw a b (listened r a s)).ring.length := by
    have hk : ringKept r [.ring, .time] (listened r a s) (beaconTime r ccw a b (listened r a s)) := by simp
    rwa [hk.length]
  obtain ⟨hmem, hsync⟩ := applyBeacon_ringSt htime ccw (newBeacon (ringSt s r) b) b
  subst ht
  refine ⟨(forwardBeacon_ringSt (P := RingSt.membership) (fun _ _ _ => rfl) ..).trans hmem, fun hn => ?_, by simp [hkept]⟩
  refine (forwardBeacon_ringSt (P := RingSt.inSync) (fun _ _ _ => rfl) ..).trans (hsync.trans ?_)
  rw [beaconTime_inSync hlen (by rw [hring]; exact hn), hoff, hring]

/-- A starter hears another's beacon: a collision (R148). -/
theorem beaconReceived_of_foreign {r a e : Nat} {ccw : Bool} {h : RingHead} {b : Beacon} {s : State} (hr : r < s.ring.length)
    (h0 : (ringSt s r).role ≠ 0) (hs : (ringSt s r).state = .coldStart) (hx : (ringSt s r).txStopped = false)
    (hn : (ringSt s r).attempts < 8) (hok : frameOk s r h = true) (hb : b.master ≠ (ringSt s r).node) :
    beaconReceived r ccw a e h b s = event 0x0302 0 (onRing r (fallenSilent a) s) := by
  have hf : beaconReceived r ccw a e h b s = coldCollision r a (heard r a s) := by simp [beaconReceived, h0, hs, hx, hok, hb]
  rw [hf, coldCollision_of_attempts (by simpa [heard_eq] using hr) (by rwa [heard_eq, ringSt_onRing hr]), heard_eq, onRing_onRing]
  rfl

/-! ### Claims of a node (R140, R142) -/

/-- The claim of this device has gone out, and its backoff is over. -/
theorem sendClaim_eq (r a : Nat) (s : State) : ∃ l, sendClaim r a s = onRing r (fun x => { x with
    claimSent := true, retry := none, tx := x.tx ++ l }) s := by
  unfold sendClaim
  exact (sends_sendBoth ..).after

theorem claimRetry_of_due {r a : Nat} {s : State} (h : (ringSt s r).retry = some 0) : claimRetry r a s = sendClaim r a s :=
  if_pos (by rw [h]; rfl)

theorem rejoinClaim_of_sync {r a : Nat} {s : State} (hs : (ringSt s r).state = .silent) (h : 16 ≤ (ringSt s r).inSync) :
    rejoinClaim r a s = sendClaim r a (onRing r (fun x => { x with rejoin := true }) s) := by
  simp [rejoinClaim, hs, h]

/-- Settles O13: a beacon or a claim that goes out, a collision and a measured ring are each one update of the ring with its event; a
follower's beacon is read through the stages that take it, its time and its membership. -/
theorem ringColdStart : Obligations.RingColdStart := by
  refine ⟨fun r a s hu hr hc hl hn hx ha => ?_, fun r a s ha => runIn_of_unchanged (coldStart_of_heard ha),
    fun r a e ccw h b s hu hr h0 hs hx hn hbad => ?_, fun r a ccw h b s hu hr hs hm hb hok => ?_,
    fun r s hu hr hs hp ht => ?_, fun r s hu hs hp ht => ?_, fun r s hp => runIn_of_unchanged (measureDone_of_probing hp),
    fun r a e ccw h b s hu hr h0 hd hc hx hports hbad => ?_,
    fun r a e ccw h b s hu hr h0 hd hc hx hm hok ho => ?_, fun r a s hu hr hs hn => ?_, fun r a s hu hr hd => ?_⟩
  · obtain ⟨l, hf⟩ := coldStart_of_quiet hc hl hn hx ha
    obtain ⟨t, hrun, hring, hkept⟩ := run_onRing hf hr
    exact ⟨t, (runIn_of_up hu).trans hrun, by rw [hring], by rw [hring]; rfl, by rw [hring], hkept⟩
  · cases hok : frameOk s r h
    · have hf : beaconReceived r ccw a e h b s = badFrame r ccw a false h s := by simp [beaconReceived, h0, hs, hx, hok]
      obtain ⟨t, hrun, hring, hat, honly⟩ := run_badFrame_of_coldStart hf hr hs hn
      exact ⟨t, (runIn_of_up hu).trans hrun, by rw [hring]; rfl, by rw [hring]; rfl, nofun, hat, honly⟩
    · have hf := beaconReceived_of_foreign (ccw := ccw) (a := a) (e := e) hr h0 hs hx hn hok
        (hbad.resolve_left (by rw [hok]; decide))
      obtain ⟨t, hrun, hring, hlog, hat, honly⟩ := run_event_onRing hf hr
      exact ⟨t, (runIn_of_up hu).trans hrun, by rw [hring]; rfl, by rw [hring]; rfl, fun _ => hlog, hat, honly⟩
  · obtain ⟨p, hf⟩ := ownBeaconReturn_of_coldStart (ccw := ccw) (a := a) hr hs hm hb hok
    have hring := ringSt_onRing hr (measuring ccw a b.tx)
    exact ⟨_, (runIn_of_up hu).trans (run_of_quiet hf ⟨rfl, rfl, rfl⟩), congrArg RingSt.state hring, congrArg RingSt.rtt hring,
      onlyAt_updAt _ _ _, ⟨rfl, rfl, rfl⟩, by simp⟩
  · have hpre : ringSt (onRing r (preRunning s.image.precnt) s) r = preRunning s.image.precnt (ringSt s r) := ringSt_onRing hr _
    cases hrun : s.time.run
    · obtain ⟨hplan, hquiet, honly⟩ := planStart_facts (onRing r (preRunning s.image.precnt) s)
      have hring : ringSt (planStart (onRing r (preRunning s.image.precnt) s)) r = preRunning s.image.precnt (ringSt s r) := by
        rw [ringSt_planStart (by simpa using hr) (by rw [hpre]; rfl), hpre]
        rfl
      exact ⟨_, (runIn_of_up hu).trans (run_of_quiet (measureDone_of_not_run hs hp ht hrun) hquiet),
        congrArg RingSt.state hring, congrArg RingSt.count hring, nofun, fun _ => hplan, hquiet,
        only_trans ((only_onRing (by decide)).2 (only_refl _ s)) honly⟩
    · exact ⟨_, (runIn_of_up hu).trans (run_of_quiet (measureDone_of_run hs hp ht hrun) ⟨rfl, rfl, rfl⟩),
        congrArg RingSt.state hpre, congrArg RingSt.count hpre, fun _ => ⟨rfl, onlyAt_updAt _ _ _⟩, nofun, ⟨rfl, rfl, rfl⟩,
        (only_onRing (by decide)).2 (only_refl _ s)⟩
  · have hl : logged 0x0304 0 s (event 0x0304 0 s) := logged_event ⟨rfl, rfl, rfl⟩ rfl
    exact ⟨_, (runIn_of_up hu).trans (run_of_logged (measureDone_of_long hs hp ht) hl), hl, by simp⟩
  · have hf : beaconReceived r ccw a e h b s = badFrame r ccw a false h s := by simp [beaconReceived, h0, hd, hx, hbad]
    obtain ⟨t, l, hrun, hring, hat, honly⟩ := run_badFrame_of_not_coldStart hf hr hc
    refine ⟨t, (runIn_of_up hu).trans hrun, ?_, by rw [hring]; rfl, hat, honly⟩
    rw [portSt, hring]
    exact congrArg RPort.fcserr (nth_updAt_self _ _ _ (portIx_lt hports ccw))
  · have hf := beaconReceived_of_obeyed (ccw := ccw) (a := a) (e := e) hr h0 hd hc hx hm hok ho
    obtain ⟨hmem, hsync, hkept⟩ := beaconReceived_facts hr hf
    simp only [RingSt.membership, Prod.mk.injEq] at hmem
    obtain ⟨hmembers, hsilent, hmaster, hmiss⟩ := hmem
    exact ⟨_, (runIn_of_up hu).trans (run_of_quiet rfl hkept.quiet), hmembers, hsilent, hmaster, hmiss, hsync, hkept⟩
  · obtain ⟨l, hf⟩ := sendClaim_eq r a (onRing r (fun x => { x with rejoin := true }) s)
    rw [onRing_onRing] at hf
    obtain ⟨t, hrun, hring, hkept⟩ := run_onRing ((rejoinClaim_of_sync hs hn).trans hf) hr
    exact ⟨t, (runIn_of_up hu).trans hrun, by rw [hring], by rw [hring], hkept⟩
  · obtain ⟨l, hf⟩ := sendClaim_eq r a s
    obtain ⟨t, hrun, hring, hkept⟩ := run_onRing ((claimRetry_of_due hd).trans hf) hr
    exact ⟨t, (runIn_of_up hu).trans hrun, by rw [hring], by rw [hring], hkept⟩

end Sys2Proof.Machine

/-! PROOF. BeaconLoss: a cycle counts as one without a beacon, a node silences itself after eight of them, and O14. -/

namespace Sys2Proof.Machine

/-! ### The count of cycles without a beacon (R139) -/

/-- How many rings there are, and the count of cycles in which ring r has had no valid beacon. -/
def missCount (r : Nat) (s : State) : Nat × Nat := (s.ring.length, (ringSt s r).beaconMiss)

section
variable (r : Nat) (s : State)

@[simp] theorem onRing_missCount {f : RingSt → RingSt} (h : ∀ x, (f x).beaconMiss = x.beaconMiss) (j : Nat) :
    missCount r (onRing j f s) = missCount r s := by
  rw [missCount, onRing_ring, updAt_length, ringSt_onRing_same h, missCount]
@[simp] theorem ite_missCount (c : Prop) [Decidable c] (t : State) :
    missCount r (if c then s else t) = if c then missCount r s else missCount r t := apply_ite _ _ _ _
@[simp] theorem event_missCount (c d : Nat) : missCount r (event c d s) = missCount r s := by
  simp only [missCount, ringSt, event_ring]
@[simp] theorem onSaf_missCount (f : SafSt → SafSt) : missCount r (onSaf f s) = missCount r s := by
  simp only [missCount, ringSt, onSaf_ring]
@[simp] theorem onAxis_missCount (a : Nat) (f : AxisSt → AxisSt) : missCount r (onAxis a f s) = missCount r s := by
  simp only [missCount, ringSt, onAxis_ring]
@[simp] theorem forAll_missCount {α : Type} {f : α → State → State} (h : ∀ x t, missCount r (f x t) = missCount r t)
    (l : List α) : missCount r (forAll l f s) = missCount r s := forAll_same h l s

theorem healAt_missCount (j : Nat) : missCount r (healAt j s) = missCount r s := by
  unfold healAt
  split <;> simp [addB]

theorem restoreAt_missCount (j : Nat) : missCount r (restoreAt j s) = missCount r s := by
  unfold restoreAt
  split <;> simp [endB]

theorem joinNodes_missCount (j : Nat) : missCount r (joinNodes j s) = missCount r s := by simp [joinNodes]

theorem missingCopy_missCount (j : Nat) : missCount r (missingCopy j s) = missCount r s := by simp [missingCopy, learnBreak]

end

theorem cycleEnd_beaconMiss (s : State) (r : Nat) (x : RingSt) : (cycleEnd s r x).beaconMiss = x.beaconMiss + 1 := rfl

theorem ringEdge_beaconMiss {r : Nat} {s : State} (hr : r < s.ring.length) :
    (ringSt (ringEdge r s) r).beaconMiss = (ringSt s r).beaconMiss + 1 := by
  have hcount : missCount r (missingCopy r (joinNodes r (restoreAt r (healAt r s)))) = missCount r s := by
    rw [missingCopy_missCount, joinNodes_missCount, restoreAt_missCount, healAt_missCount]
  obtain ⟨hlen, hmiss⟩ := Prod.mk.inj hcount
  rw [ringEdge, ringSt_onRing (by rwa [hlen]), cycleEnd_beaconMiss, hmiss]

/-! ### A node silences itself -/

theorem isFollower_facts {r : Nat} {s : State} (h : isFollower s r = true) :
    (ringSt s r).role ≠ 0 ∧ (ringSt s r).state ≠ .down ∧ (ringSt s r).state ≠ .coldStart ∧ isMaster s r = false := by
  simp only [isFollower, Bool.and_eq_true, bne_iff_ne, Bool.not_eq_true'] at h
  obtain ⟨⟨⟨h0, hm⟩, hd⟩, hc⟩ := h
  exact ⟨h0, hd, hc, hm⟩

theorem beaconLoss_of_eight {r : Nat} {s : State} (hf : isFollower s r = true) (h8 : 8 ≤ (ringSt s r).beaconMiss)
    (hs : (ringSt s r).state ≠ .silent) : beaconLoss r s =
      event 0x0324 (32 * r + (ringSt s r).node) (onRing r (fun x => { x with state := .silent, inSync := 0 }) s) := by
  simp [beaconLoss, hf, h8, hs, nodeDetail]

theorem beaconLoss_of_fewer {r : Nat} {s : State} (h : (ringSt s r).beaconMiss < 8 ∨ (ringSt s r).state = .silent) :
    beaconLoss r s = s := by
  obtain h | h := h
  · simp [beaconLoss, Nat.not_le.2 h]
  · simp [beaconLoss, h]

end Sys2Proof.Machine

namespace Sys2Proof

open Machine

/-- Settles O14: the count rises at every edge and a beacon that the node obeys clears it; at eight the loss is one update of the
ring and one event. -/
theorem beaconLoss : Obligations.BeaconLoss := by
  refine ⟨fun r s hr => ringEdge_beaconMiss hr, fun r a e ccw h b s hu hr hfol hx hok ho => ?_,
    fun r s hu hr hfol h8 hs => ?_, fun r s h => runIn_of_unchanged (beaconLoss_of_fewer h)⟩
  · obtain ⟨h0, hd, hc, hm⟩ := isFollower_facts hfol
    have hf := beaconReceived_of_obeyed (ccw := ccw) (a := a) (e := e) hr h0 hd hc hx hm hok ho
    obtain ⟨hmem, -, hkept⟩ := beaconReceived_facts hr hf
    simp only [RingSt.membership, Prod.mk.injEq] at hmem
    obtain ⟨-, -, -, hmiss⟩ := hmem
    exact ⟨_, (runIn_of_up hu).trans (run_of_quiet rfl hkept.quiet), hmiss, hkept⟩
  · obtain ⟨t, hrun, hring, hlog, hat, honly⟩ := run_event_onRing (beaconLoss_of_eight hfol h8 hs) hr
    exact ⟨t, (runIn_of_up hu).trans hrun, by rw [hring], by rw [hring], hlog, hat, honly⟩

end Sys2Proof

/-! PROOF. RingMembersAndLinks: how the master keeps and decides claims, the guardian, what probes and ports leave of the links, and
O15. -/

namespace Sys2Proof.Machine

/-! ### The master (R119, R138) -/

/-- The present master takes part in its ring and may send. -/
theorem isMaster_facts {r : Nat} {s : State} (h : isMaster s r = true) :
    (ringSt s r).role ≠ 0 ∧ (ringSt s r).state ≠ .down ∧ mayOpen (ringSt s r) = true := by
  simp only [isMaster, capable, Bool.and_eq_true, Bool.or_eq_true, beq_iff_eq, Bool.not_eq_true'] at h
  obtain ⟨⟨⟨hrole, -⟩, hx⟩, hstate⟩ := h
  have h0 : (ringSt s r).role ≠ 0 := by omega
  have hd : (ringSt s r).state ≠ .down := by intro hd; simp [hd] at hstate
  have hs : (ringSt s r).state ≠ .silent := by intro hs; simp [hs] at hstate
  exact ⟨h0, hd, by simp [mayOpen, h0, hd, hs, hx]⟩

/-! ### Claims (R141, R142) -/

/-- A claim of a port waits, unless one of that port waits already. -/
def keptClaim (ccw : Bool) (a : Nat) (m : ClaimMsg) (x : RingSt) : RingSt :=
  { x with heardAt := a, claims := if x.claims.any (fun c => c.1 == ccw) then x.claims else x.claims ++ [(ccw, m)] }

theorem claimFrame_of_master {r a : Nat} {ccw : Bool} {h : RingHead} {m : ClaimMsg} {s : State} (hr : r < s.ring.length)
    (hm : isMaster s r = true) (hok : frameOk s r h = true) : claimFrame r ccw a h m s = onRing r (keptClaim ccw a m) s := by
  obtain ⟨h0, hd, -⟩ := isMaster_facts hm
  have hf : claimFrame r ccw a h m s = if (ringSt s r).claims.any (fun c => c.1 == ccw) then heard r a s
      else onRing r (fun x => { x with claims := x.claims ++ [(ccw, m)] }) (heard r a s) := by
    simp [claimFrame, h0, hd, hok, isMaster_heard hr, hm]
  rw [hf, heard_eq, onRing_onRing]
  split <;> rename_i hc <;> exact onRing_congr (by simp [keptClaim, hc])

/-- The claim of a listed node that is silenced or no member is confirmed. -/
theorem decideClaim_of_listed {r : Nat} {m : ClaimMsg} {s : State} (ht : m.type = 2) (hn : m.node ∈ (ringCfg s r).nodes)
    (hs : hasBit (ringSt s r).silent m.node = true ∨ hasBit (ringSt s r).members m.node = false) :
    decideClaim r m s = confirmClaim r m.node 0 false s := by
  have hout : (hasBit (ringSt s r).silent m.node || !hasBit (ringSt s r).members m.node) = true := by
    obtain h | h := hs <;> simp [h]
  simp [decideClaim, ht, hn, hout]

theorem decideClaim_of_spare {r p : Nat} {m : ClaimMsg} {c : SpareCfg} {s : State} (ht : m.type ≠ 2)
    (hp : claimPlace s r m = some p) (hc : (sparesAt s r p).find? (fun x =>
      (x.vendor == m.vendor && x.product == m.product) && !(nodeSt s r x.node).spare) = some c) :
    decideClaim r m s = awaitTool r c.id m.idDig (confirmClaim r c.node c.id true s) := by
  simp [decideClaim, ht, hp, hc]

theorem decideClaim_of_other_product {r p : Nat} {m : ClaimMsg} {c : SpareCfg} {s : State} (ht : m.type ≠ 2)
    (hp : claimPlace s r m = some p) (hc : (sparesAt s r p).head? = some c)
    (hall : ∀ x ∈ sparesAt s r p, x.vendor ≠ m.vendor ∨ x.product ≠ m.product) :
    decideClaim r m s = denyClaim r m.node c.id 2 s := by
  have hkind : ∀ x ∈ sparesAt s r p, (x.vendor == m.vendor && x.product == m.product) = false := fun x hx => by
    obtain h | h := hall x hx <;> simp [h]
  have hany : (sparesAt s r p).find? (fun x => x.vendor == m.vendor && x.product == m.product) = none :=
    List.find?_eq_none.2 fun x hx => by rw [hkind x hx]; decide
  have hfree : (sparesAt s r p).find? (fun x =>
      (x.vendor == m.vendor && x.product == m.product) && !(nodeSt s r x.node).spare) = none :=
    List.find?_eq_none.2 fun x hx => by rw [hkind x hx, Bool.false_and]; decide
  simp only [decideClaim, ht, if_false, hp, hany, hfree, hc]

theorem decideClaim_of_no_place {r : Nat} {m : ClaimMsg} {s : State} (ht : m.type ≠ 2)
    (hp : ∀ p, claimPlace s r m = some p → sparesAt s r p = []) : decideClaim r m s = denyClaim r m.node 0 1 s := by
  cases hc : claimPlace s r m with
  | none => simp [decideClaim, ht, hc]
  | some p => simp [decideClaim, ht, hc, hp p hc]

@[simp] theorem ringKept_onGrp {r g : Nat} {ps : List Part} {s t : State} {f : GroupSt → GroupSt} (h : .mot ∈ ps) :
    ringKept r ps s (onGrp g f t) ↔ ringKept r ps s t :=
  ringKept_iff ⟨⟨rfl, fun _ _ => rfl⟩, ⟨rfl, rfl, rfl⟩,
    (only_iff_of_part .mot h (by rintro ⟨⟩ <;> simp [Part.same])).2 (only_refl ps t)⟩

theorem ringKept_forAll {α : Type} {r : Nat} {ps : List Part} {f : α → State → State} (h : ∀ x t, ringKept r ps t (f x t))
    {l : List α} {s t : State} : ringKept r ps s (forAll l f t) ↔ ringKept r ps s t :=
  ringKept_iff (forAll_preserves (fun x u hu => ringKept_trans hu (h x u)) l (ringKept_refl r ps t))

/-- The groups of a tool that joins wait for its identity block (R350); the ring is as it was. -/
theorem awaitTool_ring (r spare digest : Nat) (s : State) : (awaitTool r spare digest s).ring = s.ring :=
  forAll_same (P := State.ring) (fun g t => by dsimp only; split <;> rfl) _ s

theorem ringKept_awaitTool {r q spare digest : Nat} {ps : List Part} {s t : State} (h : .mot ∈ ps) :
    ringKept r ps s (awaitTool q spare digest t) ↔ ringKept r ps s t :=
  ringKept_forAll fun g u => by dsimp only; split <;> simp [h]

/-- A claim is confirmed: the entry for the next beacon, and the node that joins with it. -/
def confirmed (node spare tick : Nat) (via : Bool) (x : RingSt) : RingSt :=
  { x with
    out := x.out ++ [.confirm node spare], clValid := true, clDenied := false, clSpare := spare, clTick := tick,
    nodes := updAt x.nodes node (fun n => { n with joinNext := true, viaSpare := via, spare := n.spare || via }) }

theorem confirmClaim_eq (r node spare : Nat) (via : Bool) (s : State) :
    confirmClaim r node spare via s = onRing r (confirmed node spare (s.time.tickno % 65536) via) s := rfl

/-- The claims of a cycle end with its beacon. -/
def unclaimed (x : RingSt) : RingSt := { x with claims := [] }

theorem confirmed_unclaimed (node spare tick : Nat) (via : Bool) (x : RingSt) :
    (confirmed node spare tick via (unclaimed x)).broken = x.broken ∧
      (confirmed node spare tick via (unclaimed x)).claims = [] ∧
      (confirmed node spare tick via (unclaimed x)).members = x.members ∧
      (confirmed node spare tick via (unclaimed x)).out = x.out ++ [.confirm node spare] := ⟨rfl, rfl, rfl, rfl⟩

theorem decideClaims_of_none {r : Nat} {s : State} (h : (ringSt s r).claims = []) :
    decideClaims r s = onRing r unclaimed s := by
  simp only [decideClaims, h]
  rfl

theorem decideClaims_of_one {r : Nat} {ccw : Bool} {m : ClaimMsg} {s : State} (h : (ringSt s r).claims = [(ccw, m)]) :
    decideClaims r s = decideClaim r m (onRing r unclaimed s) := by
  cases ccw <;> simp only [decideClaims, h] <;> rfl

/-- What a confirmed claim leaves of the ring, and a denied one. -/
theorem confirmClaim_facts {r : Nat} {s : State} (hr : r < s.ring.length) (node spare : Nat) (via : Bool) :
    (ringSt (confirmClaim r node spare via s) r).out = (ringSt s r).out ++ [.confirm node spare] ∧
      ringKept r [.ring, .mot] s (confirmClaim r node spare via s) := by
  refine ⟨?_, by simp [confirmClaim]⟩
  rw [confirmClaim, ringSt_onRing hr]

theorem denyClaim_facts {r : Nat} {s : State} (hr : r < s.ring.length) (node spare reason : Nat) :
    (ringSt (denyClaim r node spare reason s) r).out = (ringSt s r).out ++ [.deny node spare reason] ∧
      logged 0x0331 0 s (denyClaim r node spare reason s) ∧ onlyAt r s.ring (denyClaim r node spare reason s).ring ∧
      only [.chip, .ring] s (denyClaim r node spare reason s) := by
  refine ⟨?_, logged_event ⟨rfl, rfl, rfl⟩ rfl, onlyAt_updAt _ _ _, by simp [denyClaim]⟩
  rw [denyClaim, ringSt_event, ringSt_onRing hr]

/-! ### The master's beacon (R122, R138, R142) -/

/-- A slot begins (R123). -/
def atSlot (k : Nat) (x : RingSt) : RingSt := { x with slot := k, acyUsed := 0 }

theorem isMaster_atSlot {r : Nat} {s : State} (hr : r < s.ring.length) (k : Nat) :
    isMaster (onRing r (atSlot k) s) r = isMaster s r := isMaster_onRing hr (fun _ => ⟨rfl, rfl, rfl, rfl, rfl⟩)

theorem ringSlotStart_eq (r k : Nat) (s : State) : ringSlotStart r k s =
    let u := onRing r (atSlot k) s
    let x := ringSt u r
    if (nth (ringCfg s r).slots k).kind = 5 && x.role != 0 && !x.txStopped && x.state != .down then probeSlot r k u
    else if !mayOpen x then u
    else
      match (nth (ringCfg s r).slots k).kind with
      | 1 =>
        if isMaster u r || !inRun x then u
        else forAll (slotSides u r k) (fun c s => if opener s r k c == some x.node then openPart r k c false s else s) u
      | 2 => if isMaster u r && inRun x then sendDistribute r k u else u
      | 3 => beaconSlot r u
      | 4 =>
        if !isMaster u r && x.state == .join && x.retry.isNone && !x.claimSent && !(nth x.nodes x.node).joinNext &&
            !forwarding u r (slotAt u r k) then sendClaim r (slotAt u r k) u
        else u
      | 7 => if (nth (ringCfg s r).slots k).owner = x.node && r = 0 then heartbeatSlot r k u else u
      | _ => u := by
  unfold ringSlotStart
  rfl

/-- The master's beacon has gone out. -/
def beaconSent (b : Beacon) (x : RingSt) : RingSt :=
  { x with
    sentBeacon := some b, back := [false, false], out := [], count := x.count - 1,
    nodes := x.nodes.map (fun n => { n with consec := (if n.outNow then min 3 (n.consec + 1) else 0), outNow := false }) }

/-- The ring whose beacon goes out: a restoration may have been announced. -/
def announcing (l : List RingTx) (e : Option Nat) (x : RingSt) : RingSt := { x with tx := l, restEff := e }

/-- The answer to a claim goes out with the beacon, before the RESYNC entries. -/
theorem confirm_mem_entries {r : Nat} {takeover : Bool} {e : BeaconEntry} {w : State} (h : (ringSt w r).out = [e]) :
    e ∈ (makeBeacon w r takeover).entries := by
  simp [makeBeacon, h]

theorem beaconState_of_whole {x : RingSt} (h : x.broken < 2) : beaconState x ≠ 4 := by
  unfold beaconState
  split
  · decide
  · decide
  · decide
  · rw [if_neg (Nat.not_le.2 h)]
    split_ifs <;> decide

theorem sends_forAll_sendOn (r : Nat) (f : RingTx) (cs : List Bool) (s : State) :
    Sends r s (forAll cs (fun c => sendOn r c f) s) :=
  forAll_preserves (fun c _ hu => hu.trans (sends_sendOn r c f _)) cs (.refl r s)

/-- A ring whose beacon is due announces its restoration, where the ends of its break are ready (R147). -/
def announced (r : Nat) (w : State) : State :=
  let x := ringSt w r
  if x.broken = 1 && x.restEff.isNone && x.healedRoutes && !x.needStable && endsReady w r then
    onRing r (fun x => { x with restEff := some (w.time.tickno + 2) }) w else w

theorem announced_eq (r : Nat) (w : State) : ∃ e, announced r w = onRing r (fun x => { x with restEff := e }) w := by
  unfold announced
  dsimp only
  split
  · exact ⟨_, rfl⟩
  · exact ⟨(ringSt w r).restEff, (onRing_id r w).symm.trans (onRing_congr rfl)⟩

/-- Before ring start the frames of the last cycle end with a beacon slot. -/
def beaconDue (r : Nat) (run : Bool) (u : State) : State :=
  announced r (onRing r (fun x => { x with tx := if run then x.tx else [] }) u)

theorem beaconDue_eq (r : Nat) (run : Bool) (u : State) : ∃ l e, beaconDue r run u = onRing r (announcing l e) u := by
  obtain ⟨e, he⟩ := announced_eq r (onRing r (fun x => { x with tx := if run then x.tx else [] }) u)
  rw [beaconDue, he, onRing_onRing]
  exact ⟨_, e, onRing_congr rfl⟩

theorem sendBeacon_eq (r : Nat) (takeover : Bool) (s : State) :
    ∃ split v, Sends r (beaconDue r s.time.run (decideClaims r s)) v ∧
    sendBeacon r takeover s =
      let b := makeBeacon (beaconDue r s.time.run (decideClaims r s)) r takeover
      if b.state = 4 && split then
        event 0x0313 0 (onRing r (fun x => { x with splitSent := true, state := .split }) (onRing r (beaconSent b) v))
      else onRing r (beaconSent b) v := ⟨_, _, sends_forAll_sendOn .., rfl⟩

/-- While the ring is not split the beacon of a cycle, with the claim decided, is one update of the ring. -/
theorem sendBeacon_of_whole {r : Nat} {s u : State} (takeover : Bool) (hu : decideClaims r s = u) (hr : r < u.ring.length)
    (hb : (ringSt u r).broken < 2) : ∃ l l' e, sendBeacon r takeover s = onRing r (fun x =>
      beaconSent (makeBeacon (onRing r (announcing l e) u) r takeover) (announcing l' e x)) u := by
  obtain ⟨split, v, hv, hf⟩ := sendBeacon_eq r takeover s
  obtain ⟨l, e, hw⟩ := beaconDue_eq r s.time.run u
  rw [hu, hw] at hv hf
  have hstate : (makeBeacon (onRing r (announcing l e) u) r takeover).state ≠ 4 := by
    have hx : (makeBeacon (onRing r (announcing l e) u) r takeover).state =
        beaconState (ringSt (onRing r (announcing l e) u) r) := rfl
    rw [hx, ringSt_onRing hr]
    exact beaconState_of_whole hb
  obtain ⟨l', hl⟩ := hv.after
  simp only [hstate, decide_false, Bool.false_and, Bool.false_eq_true, if_false] at hf
  exact ⟨l, l ++ l', e, hf.trans (by rw [hl, onRing_onRing]; rfl)⟩

/-! ### The guardian (R138) -/

theorem guardianSilence_of_master {r j : Nat} {s : State} (hm : isMaster s r = true) (h3 : 3 ≤ (nodeSt s r j).consec)
    (hs : hasBit (ringSt s r).silent j = false) : guardianSilence r j s =
      event 0x0322 (32 * r + j) (onRing r (fun x => { x with silent := x.silent ||| bitOf 32 j }) s) := by
  rw [nodeSt] at h3
  simp [guardianSilence, hm, h3, hs, nodeDetail]

/-! ### Probes (R135) -/

/-- A link delay is noted with the nodes. -/
theorem noteDelay_eq (r j d : Nat) (s : State) : ∃ ns, noteDelay r j d s = onRing r (fun x => { x with nodes := ns }) s := by
  have hnode : onNode r j (fun n => { n with upDelay := min 0xFFFF d, wrote := true }) s =
      onRing r (fun x => { x with nodes := updAt x.nodes j (fun n => { n with upDelay := min 0xFFFF d, wrote := true }) }) s := rfl
  unfold noteDelay
  dsimp only
  split
  · rw [hnode, onRing_onRing]
    exact ⟨_, onRing_congr rfl⟩
  · exact ⟨_, onRing_congr rfl⟩

/-- A port whose own probe, sent at t1, has been answered. -/
def answeredPort (t1 t2 t3 a : Nat) (p : RPort) : RPort :=
  { p with
    sentAt := none, rounds := min 16 (p.rounds + 1),
    probes := (p.probes ++ [linkDelay t1 t2 t3 a]).drop (p.probes.length + 1 - 8) }

theorem probe_of_answer {r a t1 t2 t3 : Nat} {ccw : Bool} {h : RingHead} {s : State} (hr : r < s.ring.length)
    (h0 : (ringSt s r).role ≠ 0) (hok : frameOk s r h = true) (ht : (portSt s r ccw).sentAt = some t1) :
    ∃ ns, probe r ccw a h (.answer t2 t3) s = onRing r (fun x => { x with
      heardAt := a, ports := updAt x.ports (portIx ccw) (answeredPort t1 t2 t3 a), nodes := ns }) s := by
  have ht' : (portSt (heard r a s) r ccw).sentAt = some t1 := by
    rw [heard_eq, portSt_onRing hr]
    exact ht
  have hf : ∃ ns, probe r ccw a h (.answer t2 t3) s =
      onRing r (fun x => { x with nodes := ns }) (onRPort r ccw (answeredPort t1 t2 t3 a) (heard r a s)) := by
    have hnone : ∃ ns, onRPort r ccw (answeredPort t1 t2 t3 a) (heard r a s) =
        onRing r (fun x => { x with nodes := ns }) (onRPort r ccw (answeredPort t1 t2 t3 a) (heard r a s)) :=
      ⟨_, (onRing_id r _).symm.trans (onRing_congr rfl)⟩
    simp only [probe, h0, hok, ht', if_false, Bool.not_true, Bool.false_eq_true]
    split
    · split
      · exact noteDelay_eq ..
      · exact hnone
    · exact hnone
  obtain ⟨ns, hf⟩ := hf
  exact ⟨ns, by rw [hf, onRPort, heard_eq, onRing_onRing, onRing_onRing]⟩

theorem probe_of_request {r a t1 : Nat} {ccw : Bool} {h : RingHead} {s : State} (h0 : (ringSt s r).role ≠ 0)
    (hok : frameOk s r h = true) : probe r ccw a h (.request t1) s = onRing r (fun x => { x with
      heardAt := a, ports := updAt x.ports (portIx ccw) (fun p => { p with heard := some a }) }) s := by
  have hf : probe r ccw a h (.request t1) s = onRPort r ccw (fun p => { p with heard := some a }) (heard r a s) := by
    simp [probe, h0, hok]
  rw [hf, onRPort, heard_eq, onRing_onRing]

/-! ### Ports that go down and come up (R144, R147) -/

/-- A port that went down returns frames, and nothing is known of its link. -/
def downPort (q : RPort) : RPort :=
  { q with up := false, loop := true, probes := [], rounds := 0, sentAt := none, heard := none }

/-- A ring with such a port. -/
def fallenPort (ccw : Bool) (x : RingSt) : RingSt := { x with ports := updAt x.ports (portIx ccw) downPort }

theorem nth_fallenPort {x : RingSt} (h : x.ports.length = 2) (ccw : Bool) :
    nth (fallenPort ccw x).ports (portIx ccw) = downPort (nth x.ports (portIx ccw)) :=
  nth_updAt_self _ _ _ (portIx_lt h ccw)

/-- The master has learnt of a break, with healed routes from a tick on. -/
def learntBreak (again : Bool) (eff : Nat) (x : RingSt) : RingSt :=
  { x with
    sawBreak := true, broken := x.broken + 1, restEff := none, rdyAt := none, needStable := x.needStable || again,
    routeAt := (if x.healedRoutes then x.routeAt else some (x.routeAt.getD eff)) }

theorem learnBreak_eq (r eff : Nat) (s : State) :
    ∃ again, learnBreak r eff s = event 0x0310 0 (onRing r (learntBreak again eff) s) := ⟨_, rfl⟩

/-- Of the ends of a break one is set. -/
theorem setEnd_eq (ccw : Bool) (j : Nat) (x : RingSt) :
    ∃ a b, setEnd ccw j x = { x with brkA := a, brkB := b } ∧ (if ccw then b else a) = j := by
  cases ccw
  · exact ⟨j, x.brkB, rfl, rfl⟩
  · exact ⟨x.brkA, j, rfl, rfl⟩

theorem portDown_eq {r : Nat} (h2 : r ≠ 2) (ccw : Bool) (s : State) : portDown r ccw s =
    let u := onRing r (fallenPort ccw) s
    if (ringSt u r).role = 0 then u
    else if isMaster u r then
      breakAt r (u.time.tickno + (if (ringSt u r).sentBeacon.isSome then 2 else 1)) ccw (ringSt u r).node
        (onRing r (fun x => { x with restEff := none }) u)
    else onRing r (setEnd (!ccw) (ringSt u r).node) u := if_neg h2

theorem breakAt_of_whole {r eff j : Nat} {ccw : Bool} {s : State} (hb : (ringSt s r).broken = 0) :
    breakAt r eff ccw j s = learnBreak r eff (onRing r (setEnd ccw j) s) := if_pos hb

theorem isMaster_fallenPort {r : Nat} {s : State} (hr : r < s.ring.length) (ccw : Bool) :
    isMaster (onRing r (fallenPort ccw) s) r = isMaster s r := isMaster_onRing hr (fun _ => ⟨rfl, rfl, rfl, rfl, rfl⟩)

theorem portDown_of_node {r : Nat} {ccw : Bool} {s : State} (hr : r < s.ring.length) (h2 : r ≠ 2) (hm : isMaster s r = false) :
    portDown r ccw s = onRing r (fun x =>
      if x.role = 0 then fallenPort ccw x else setEnd (!ccw) x.node (fallenPort ccw x)) s := by
  have hf : portDown r ccw s = if (ringSt s r).role = 0 then onRing r (fallenPort ccw) s
      else onRing r (setEnd (!ccw) (ringSt s r).node) (onRing r (fallenPort ccw) s) := by
    rw [portDown_eq h2]
    dsimp only
    rw [isMaster_fallenPort hr, hm, ringSt_onRing hr]
    rfl
  rw [hf, onRing_onRing]
  split <;> rename_i h0 <;> exact onRing_congr (by simp [h0])

theorem portDown_of_master {r : Nat} {ccw : Bool} {s : State} (hr : r < s.ring.length) (h2 : r ≠ 2) (hm : isMaster s r = true)
    (hb : (ringSt s r).broken = 0) : ∃ again, portDown r ccw s = event 0x0310 0 (onRing r (fun x =>
      learntBreak again (s.time.tickno + (if x.sentBeacon.isSome then 2 else 1))
        (setEnd ccw x.node { fallenPort ccw x with restEff := none })) s) := by
  obtain ⟨h0, -, -⟩ := isMaster_facts hm
  have hf : portDown r ccw s = breakAt r (s.time.tickno + (if (ringSt s r).sentBeacon.isSome then 2 else 1)) ccw (ringSt s r).node
      (onRing r (fun x => { fallenPort ccw x with restEff := none }) s) := by
    rw [portDown_eq h2]
    dsimp only
    rw [isMaster_fallenPort hr, hm, ringSt_onRing hr, if_neg (show (fallenPort ccw (ringSt s r)).role ≠ 0 from h0), if_pos rfl,
      onRing_onRing]
    rfl
  rw [hf, breakAt_of_whole (by rw [ringSt_onRing hr]; exact hb), onRing_onRing]
  obtain ⟨again, hl⟩ := learnBreak_eq r (s.time.tickno + (if (ringSt s r).sentBeacon.isSome then 2 else 1))
    (onRing r (fun x => setEnd ccw (ringSt s r).node { fallenPort ccw x with restEff := none }) s)
  rw [hl, onRing_onRing]
  exact ⟨again, congrArg (event 0x0310 0) (onRing_congr rfl)⟩

theorem portUp_of_sound {r : Nat} {ccw : Bool} {s : State} (h2 : r ≠ 2)
    (hf : 16 * r + (if ccw then 1 else 0) ∉ (regSt s .ring).faulted) :
    ∃ n st, portUp r ccw s = onRing r (fun x => { x with
      ports := updAt x.ports (portIx ccw) (fun q => { up := true, loop := q.loop && x.broken != 0, fcserr := q.fcserr }),
      heardAt := n, state := st }) s := by
  have hc : (regSt s .ring).faulted.contains (16 * r + portIx ccw) = false := by simpa [portIx] using hf
  rw [portUp, if_neg h2, hc, if_neg Bool.false_ne_true]
  exact ⟨_, _, onRing_congr rfl⟩

theorem linkStableTimer_of_stable {r n : Nat} {s : State} (hn : (ringSt s r).rdyAt = some n)
    (ht : 10000000000 ≤ (s.time.tickno - n) * periodNs s) :
    linkStableTimer r s = onRing r (fun x => { x with needStable := false }) s := by
  simp [linkStableTimer, hn, ht]

theorem linkStableTimer_of_not_ready {r : Nat} {s : State} (hn : (ringSt s r).rdyAt = none) : linkStableTimer r s = s := by
  simp [linkStableTimer, hn]

/-! ### The clauses of O15 -/

/-- A beacon slot of the master of a device that is in no pair. -/
theorem ringSlotStart_of_beacon {r k : Nat} {s : State} (hr : r < s.ring.length) (hk : (nth (ringCfg s r).slots k).kind = 3)
    (hm : isMaster s r = true) (hp : s.pair.role = 0) :
    ringSlotStart r k s = sendBeacon r false (onRing r (atSlot k) s) := by
  obtain ⟨-, -, hmay⟩ := isMaster_facts hm
  have hm' := (isMaster_atSlot hr k).trans hm
  have hmay' : mayOpen (ringSt (onRing r (atSlot k) s) r) = true := by rw [ringSt_onRing hr]; exact hmay
  rw [ringSlotStart_eq]
  simp [hk, hmay', beaconSlot, hp, hm']

/-- That slot leaves the ring with its beacon sent. -/
theorem run_beaconSlot {r k : Nat} {s : State} {g : RingSt → RingSt} (hr : r < s.ring.length)
    (hk : (nth (ringCfg s r).slots k).kind = 3) (hm : isMaster s r = true) (hp : s.pair.role = 0)
    (hd : decideClaims r (onRing r (atSlot k) s) = onRing r g s) (hg : (g (ringSt s r)).broken = (ringSt s r).broken)
    (hb : (ringSt s r).broken < 2) : ∃ t l e, run (ringSlotStart r k) s = .next t ∧
      (ringSt t r).sentBeacon = some (makeBeacon (onRing r (announcing l e) (onRing r g s)) r false) ∧
      (ringSt t r).claims = (g (ringSt s r)).claims ∧ (ringSt t r).members = (g (ringSt s r)).members ∧
      ringKept r [.ring] s t := by
  obtain ⟨l, l', e, hf⟩ := sendBeacon_of_whole false hd (by simpa using hr) (by rwa [ringSt_onRing hr, hg])
  rw [onRing_onRing] at hf
  obtain ⟨t, hrun, hring, hkept⟩ := run_onRing ((ringSlotStart_of_beacon hr hk hm hp).trans hf) hr
  exact ⟨t, l, e, hrun, by rw [hring]; rfl, by rw [hring]; rfl, by rw [hring]; rfl, hkept⟩

/-- Settles O15: a kept claim, a silenced node, a probe and a port are each one update of the ring, with its event where it has one;
the claim that is decided goes out with the one update of the beacon slot. -/
theorem ringMembersAndLinks : Obligations.RingMembersAndLinks := by
  refine ⟨fun r a ccw h m s hu hr hm hok => ?_, fun r k ccw m s hu hr hk hm hp hb hc ho ht hn hs => ?_,
    fun r p m c s hr ht hp hc => ?_, fun r p m c s hr ht hp hc hall => ?_, fun r m s hr ht hp => ?_,
    fun r j s hu hr hm h3 hs hj => ?_, fun r a t1 t2 t3 ccw h s hu hr h0 hok hports ht => ?_,
    fun r a t1 ccw h s hu hr h0 hok hports => ?_, fun r ccw s hr h2 hm hports => ?_,
    fun r ccw s hr h2 hm hb hroute hheal hports => ?_, fun r ccw s hr h2 hf hports => ?_, fun ccw s => ?_,
    fun r n s hu hr hn ht => ?_, fun r s hn => runIn_of_unchanged (linkStableTimer_of_not_ready hn)⟩
  · obtain ⟨t, hrun, hring, hkept⟩ := run_onRing (claimFrame_of_master (a := a) (ccw := ccw) (m := m) hr hm hok) hr
    exact ⟨t, (runIn_of_up hu).trans hrun, by rw [hring]; rfl, by rw [hring]; rfl, hkept⟩
  · have hclaims : (ringSt (onRing r (atSlot k) s) r).claims = [(ccw, m)] := by rw [ringSt_onRing hr]; exact hc
    have hlisted : hasBit (ringSt (onRing r unclaimed (onRing r (atSlot k) s)) r).silent m.node = true ∨
        hasBit (ringSt (onRing r unclaimed (onRing r (atSlot k) s)) r).members m.node = false := by
      rw [onRing_onRing, ringSt_onRing hr]
      exact hs
    have hd := (decideClaims_of_one hclaims).trans (decideClaim_of_listed ht hn hlisted)
    simp only [confirmClaim_eq, onRing_onRing, onRing_time] at hd
    obtain ⟨hbroken, hcl, hmem, hout⟩ := confirmed_unclaimed m.node 0 (s.time.tickno % 65536) false (atSlot k (ringSt s r))
    obtain ⟨t, l, e, hrun, hbeacon, hnone, hmembers, hkept⟩ := run_beaconSlot hr hk hm hp hd hbroken hb
    refine ⟨t, _, (runIn_of_up hu).trans hrun, hbeacon, confirm_mem_entries ?_, hnone.trans hcl, hmembers.trans hmem, hkept⟩
    rw [onRing_onRing, ringSt_onRing hr]
    exact hout.trans (congrArg (· ++ [BeaconEntry.confirm m.node 0]) ho)
  · have hf := decideClaim_of_spare ht hp hc
    obtain ⟨hout, hkept⟩ := confirmClaim_facts hr c.node c.id true
    rw [hf]
    refine ⟨?_, ?_⟩
    · rw [ringSt, awaitTool_ring]
      exact hout
    · obtain ⟨hat, hquiet, honly⟩ := (ringKept_awaitTool (q := r) (spare := c.id) (digest := m.idDig) (by decide)).2 hkept
      exact ⟨hquiet, hat, honly⟩
  · rw [decideClaim_of_other_product ht hp hc hall]
    exact denyClaim_facts hr m.node c.id 2
  · rw [decideClaim_of_no_place ht hp]
    exact denyClaim_facts hr m.node 0 1
  · obtain ⟨t, hrun, hring, hlog, hat, honly⟩ := run_event_onRing (guardianSilence_of_master hm h3 hs) hr
    exact ⟨t, (runIn_of_up hu).trans hrun, by rw [hring]; exact hasBit_or_bitOf hj _, hlog, hat, honly⟩
  · obtain ⟨ns, hf⟩ := probe_of_answer (a := a) (t2 := t2) (t3 := t3) hr h0 hok ht
    obtain ⟨t, hrun, hring, hkept⟩ := run_onRing hf hr
    have hport : portSt t r ccw = answeredPort t1 t2 t3 a (portSt s r ccw) := by
      rw [portSt, hring]
      exact nth_updAt_self _ _ _ (portIx_lt hports ccw)
    exact ⟨t, (runIn_of_up hu).trans hrun, by rw [hport]; rfl, by rw [hport]; rfl, hkept⟩
  · obtain ⟨t, hrun, hring, hkept⟩ := run_onRing (probe_of_request (a := a) (t1 := t1) (ccw := ccw) h0 hok) hr
    have hport : portSt t r ccw = { portSt s r ccw with heard := some a } := by
      rw [portSt, hring]
      exact nth_updAt_self _ _ _ (portIx_lt hports ccw)
    exact ⟨t, (runIn_of_up hu).trans hrun, by rw [hport], by rw [hport], hkept⟩
  · obtain ⟨t, hrun, hring, hkept⟩ := run_onRing (portDown_of_node (ccw := ccw) hr h2 hm) hr
    have hport : portSt t r ccw = downPort (portSt s r ccw) := by
      obtain ⟨x, y, hend, -⟩ := setEnd_eq (!ccw) (ringSt s r).node (fallenPort ccw (ringSt s r))
      rw [portSt, hring, hend, portSt, ← nth_fallenPort hports]
      split <;> rfl
    exact ⟨t, hrun, by rw [hport]; rfl, by rw [hport]; rfl, hkept⟩
  · obtain ⟨again, hf⟩ := portDown_of_master (ccw := ccw) hr h2 hm hb
    obtain ⟨t, hrun, hring, hlog, hat, honly⟩ := run_event_onRing hf hr
    obtain ⟨x, y, hend, hnode⟩ := setEnd_eq ccw (ringSt s r).node { fallenPort ccw (ringSt s r) with restEff := none }
    rw [hend] at hring
    have hport : portSt t r ccw = downPort (portSt s r ccw) := by
      rw [portSt, hring, portSt, ← nth_fallenPort hports]
      rfl
    refine ⟨t, hrun, by rw [hport]; rfl, ?_, ?_, by rw [hring]; exact hnode, hlog, hat, honly⟩
    · rw [hring]
      exact congrArg (· + 1) hb
    · rw [hring]
      simp [learntBreak, fallenPort, hroute, hheal]
  · obtain ⟨n, st, hx⟩ := portUp_of_sound (ccw := ccw) h2 hf
    obtain ⟨t, hrun, hring, hkept⟩ := run_onRing hx hr
    have hport := nth_updAt_self (ringSt s r).ports (portIx ccw)
      (fun q => { up := true, loop := q.loop && (ringSt s r).broken != 0, fcserr := q.fcserr }) (portIx_lt hports ccw)
    refine ⟨t, hrun, ?_, ?_, hkept⟩ <;> rw [portSt, hring, hport]
  · have hpair (f : PairSt → PairSt) : only [.pair] s (onPair f s) := by simp
    exact ⟨⟨_, run_of_quiet (if_pos rfl) ⟨rfl, rfl, rfl⟩, rfl, ⟨rfl, rfl, rfl⟩, hpair _⟩,
      ⟨_, run_of_quiet (if_pos rfl) ⟨rfl, rfl, rfl⟩, rfl, ⟨rfl, rfl, rfl⟩, hpair _⟩⟩
  · obtain ⟨t, hrun, hring, hkept⟩ := run_onRing (linkStableTimer_of_stable hn ht) hr
    exact ⟨t, (runIn_of_up hu).trans hrun, by rw [hring], hkept⟩

end Sys2Proof.Machine

/-! PROOF. RingFrames: the slots of a cycle at the master and at a node, a substitute, the parts that the master takes, the downlink of
a device in node mode, and O16. -/

namespace Sys2Proof.Machine

/-! ### What the routes of a ring depend on (R126) -/

/-- What of a ring decides which nodes its parts carry. -/
def RingSt.layout (x : RingSt) : Nat × BitVec 32 × BitVec 32 × Nat × Nat × Bool :=
  (x.master, x.members, x.absent, x.brkA, x.brkB, x.healedRoutes)

section
variable {r : Nat} {s t : State}

theorem ringNodes_congr (hi : t.image = s.image) (hl : (ringSt t r).layout = (ringSt s r).layout) :
    ringNodes t r = ringNodes s r := by
  simp only [RingSt.layout, Prod.mk.injEq] at hl
  obtain ⟨hmaster, hmembers, habsent, -⟩ := hl
  have hnow : onRingNow t r = onRingNow s r := by
    funext j
    simp only [onRingNow, ringCfg, hi, hmaster, hmembers, habsent]
  rw [ringNodes, hnow, hmaster, ringNodes]

theorem onSide_congr (hi : t.image = s.image) (hl : (ringSt t r).layout = (ringSt s r).layout) (k j : Nat) (c : Bool) :
    onSide t r k j c = onSide s r k j c := by
  have hnodes := ringNodes_congr hi hl
  simp only [RingSt.layout, Prod.mk.injEq] at hl
  obtain ⟨hmaster, -, -, hA, hB, hheal⟩ := hl
  have hplace (i : Nat) : placeOf t r i = placeOf s r i := by rw [placeOf, hmaster, hnodes, placeOf]
  have hcw : lastCw t r = lastCw s r := by simp only [lastCw, hplace, hnodes, hmaster, hA, hB]
  have hccw : lastCcw t r = lastCcw s r := by simp only [lastCcw, hcw, hplace, hnodes, hmaster, hB]
  rw [onSide, reached, hplace, hcw, hccw, hheal, ringCfg, hi, onSide, reached, ringCfg]

theorem partMembers_congr (hi : t.image = s.image) (hl : (ringSt t r).layout = (ringSt s r).layout) (k : Nat) (c : Bool) :
    partMembers t r k c = partMembers s r k c := by
  have hside := onSide_congr hi hl
  have hmembers : (ringSt t r).members = (ringSt s r).members := congrArg (fun y => y.2.1) hl
  simp only [partMembers, ringNodes_congr hi hl, hside, slotSegs, ringCfg, hi, hmembers]

theorem opener_congr (hi : t.image = s.image) (hl : (ringSt t r).layout = (ringSt s r).layout) (k : Nat) (c : Bool) :
    opener t r k c = opener s r k c := by
  rw [opener, partMembers_congr hi hl, opener]

theorem slotSides_congr (hi : t.image = s.image) (hl : (ringSt t r).layout = (ringSt s r).layout) (k : Nat) :
    slotSides t r k = slotSides s r k := by
  simp only [slotSides, partMembers_congr hi hl]

end

/-- What every step of a fold relates, a chosen one is reached through and left through. -/
theorem forAll_reaches {α : Type} {P : State → State → Prop} {f : α → State → State} (hrefl : ∀ s, P s s)
    (htrans : ∀ {s t u}, P s t → P t u → P s u) (h : ∀ x t, P t (f x t)) {l : List α} {c : α} (hc : c ∈ l) (s : State) :
    ∃ u, P s u ∧ P (f c u) (forAll l f s) := by
  have hfold (m : List α) (t : State) : P t (forAll m f t) := forAll_preserves (fun x u hu => htrans hu (h x u)) m (hrefl t)
  obtain ⟨m, n, rfl⟩ := List.append_of_mem hc
  refine ⟨forAll m f s, hfold m s, ?_⟩
  have happ : forAll (m ++ c :: n) f s = forAll n f (f c (forAll m f s)) := by simp [forAll]
  rw [happ]
  exact hfold n _

/-- Frames that are in an update of the ring stay. -/
theorem tx_subset_onRing {r : Nat} {f : RingSt → RingSt} (h : ∀ x, x.tx ⊆ (f x).tx) (s : State) :
    (ringSt s r).tx ⊆ (ringSt (onRing r f s) r).tx := by
  have hx : ringSt (onRing r f s) r = if r = r ∧ r < s.ring.length then f (ringSt s r) else ringSt s r := nth_updAt ..
  rw [hx]
  split
  · exact h _
  · exact fun _ hf => hf

theorem Sends.tx_subset {r : Nat} {s t : State} (h : Sends r s t) : (ringSt s r).tx ⊆ (ringSt t r).tx := by
  obtain ⟨l, rfl⟩ := h
  exact tx_subset_onRing (fun x => List.subset_append_left x.tx l) s

/-! ### The downlink of the master (R128) -/

theorem downSeg_atSlot {r : Nat} {s : State} (hr : r < s.ring.length) (k : Nat) (g : SegCfg) :
    downSeg (onRing r (atSlot k) s) r g = downSeg s r g := by
  have hnode : nodeSt (onRing r (atSlot k) s) r g.node = nodeSt s r g.node := by rw [nodeSt, ringSt_onRing hr]; rfl
  rw [downSeg, hnode]
  rfl

theorem ringSlotStart_of_distribute {r k : Nat} {s : State} (hr : r < s.ring.length)
    (hk : (nth (ringCfg s r).slots k).kind = 2) (hm : isMaster s r = true) (hi : inRun (ringSt s r) = true) :
    ringSlotStart r k s = sendDistribute r k (onRing r (atSlot k) s) := by
  obtain ⟨-, -, hmay⟩ := isMaster_facts hm
  have hm' := (isMaster_atSlot hr k).trans hm
  have hmay' : mayOpen (ringSt (onRing r (atSlot k) s) r) = true := by rw [ringSt_onRing hr]; exact hmay
  have hi' : inRun (ringSt (onRing r (atSlot k) s) r) = true := by rw [ringSt_onRing hr]; exact hi
  rw [ringSlotStart_eq]
  simp [hk, hmay', hm', hi']

/-- The frame of a downlink slot. -/
def downFrame (s : State) (r k : Nat) : RingTx :=
  { at_ := slotAt s r k, head := sealed (newHead s r 2 k (nth (ringCfg s r).slots k).plen),
    pay := .distribute ((slotSegs s r k).map (downSeg s r)) }

/-- The segments for the nodes are noted with them. -/
def notedDown (ds : List DownSeg) (x : RingSt) : RingSt :=
  { x with nodes := ds.foldl (fun ns d => updAt ns d.node (fun n => { n with prev := some d })) x.nodes }

/-- The frame leaves each side of the slot. -/
theorem sendDistribute_eq (r k : Nat) (s : State) : sendDistribute r k s =
    forAll (slotSides s r k) (fun c => sendOn r c (downFrame s r k))
      (onRing r (notedDown ((slotSegs s r k).map (downSeg s r))) s) := by
  have hlayout : (ringSt (onRing r (notedDown ((slotSegs s r k).map (downSeg s r))) s) r).layout = (ringSt s r).layout :=
    ringSt_onRing_same (P := RingSt.layout) (f := notedDown _) (fun _ => rfl) r
  rw [← slotSides_congr (s := s) (t := onRing r (notedDown ((slotSegs s r k).map (downSeg s r))) s) rfl hlayout k]
  rfl

/-- A frame that leaves every side of a list leaves each side whose port is up and returns nothing. -/
theorem mem_tx_forAll_sendOn {r : Nat} {f : RingTx} {cs : List Bool} {c : Bool} {s : State} (hr : r < s.ring.length) (hc : c ∈ cs)
    (hup : (portSt s r c).up = true) (hloop : (portSt s r c).loop = false) :
    { f with ccw := c } ∈ (ringSt (forAll cs (fun c => sendOn r c f) s) r).tx := by
  obtain ⟨u, hbefore, hafter⟩ := forAll_reaches (P := Sends r) (.refl r) Sends.trans (fun c t => sends_sendOn r c f t) hc s
  apply hafter.tx_subset
  have hports : portSt u r c = portSt s r c :=
    hbefore.ringSt_same (P := fun x => nth x.ports (portIx c)) (fun _ _ => rfl)
  obtain ⟨l, rfl⟩ := hbefore
  exact mem_tx_sendOn (by simpa using hr) (by rwa [hports]) (by rwa [hports])

/-! ### A part that a node opens (R127, R129) -/

/-- What of a ring its ports, its routes and their delays depend on, and the parts that have passed in the tick. -/
def RingSt.routing (x : RingSt) := (x.layout, x.ports, x.dly, x.seen)

/-- From s to t parts have been opened: frames of this device have left, its flags have gone out with them, and its channels have
reported REFJ (R150). -/
structure Opens (r : Nat) (s t : State) : Prop where
  kept : ringKept r [.ring, .axio] s t
  routing : (ringSt t r).routing = (ringSt s r).routing
  tx : (ringSt s r).tx ⊆ (ringSt t r).tx

section
variable {r : Nat} {s t u : State}

theorem Opens.refl (r : Nat) (s : State) : Opens r s s := ⟨ringKept_refl .., rfl, fun _ h => h⟩

theorem Opens.trans (h : Opens r s t) (k : Opens r t u) : Opens r s u :=
  ⟨ringKept_trans h.kept k.kept, k.routing.trans h.routing, fun _ hf => k.tx (h.tx hf)⟩

theorem Opens.image (h : Opens r s t) : t.image = s.image := h.kept.only .image (by decide)

theorem Opens.time (h : Opens r s t) : t.time = s.time := h.kept.only .time (by decide)

theorem Opens.layout (h : Opens r s t) : (ringSt t r).layout = (ringSt s r).layout := congrArg Prod.fst h.routing

theorem Opens.ports (h : Opens r s t) : (ringSt t r).ports = (ringSt s r).ports := congrArg (fun y => y.2.1) h.routing

theorem Opens.dly (h : Opens r s t) : (ringSt t r).dly = (ringSt s r).dly := congrArg (fun y => y.2.2.1) h.routing

theorem opens_onRing {f : RingSt → RingSt} (h : ∀ x, (f x).routing = x.routing) (htx : ∀ x, x.tx ⊆ (f x).tx) (s : State) :
    Opens r s (onRing r f s) :=
  ⟨(ringKept_onRing (by decide)).2 (ringKept_refl ..), ringSt_onRing_same h r, tx_subset_onRing htx s⟩

theorem opens_sends (h : Sends r s t) : Opens r s t := by
  obtain ⟨l, rfl⟩ := h
  refine opens_onRing (fun x => ?_) (fun x => ?_) s
  · rfl
  · exact List.subset_append_left x.tx l

theorem opens_axio (r : Nat) (s : State) (l : List ChanSt) : Opens r s { s with axio := l } :=
  ⟨⟨⟨rfl, fun _ _ => rfl⟩, ⟨rfl, rfl, rfl⟩, by rintro ⟨⟩ hp <;> simp_all [Part.same]⟩, rfl, fun _ h => h⟩

/-- The flags of the last cycle have gone out, and the segment counts as written. -/
def wrote (x : RingSt) : RingSt :=
  { x with ownEarly := false, ownLate := false, nodes := updAt x.nodes x.node (fun n => { n with wrote := true }) }

theorem opens_wroteOwn (r : Nat) (s : State) : Opens r s (wroteOwn r s) := by
  have hwrote (u : State) : Opens r u (onRing r wrote u) := opens_onRing (f := wrote) (fun _ => rfl) (fun _ _ h => h) u
  have hf : wroteOwn r s = onRing r wrote (if nodeMode s then { s with axio := s.axio.map (fun c => { c with refj := false }) }
      else s) := rfl
  rw [hf]
  split
  · exact (opens_axio ..).trans (hwrote _)
  · exact hwrote s

theorem opens_openPart (r k : Nat) (c sub : Bool) (s : State) : Opens r s (openPart r k c sub s) :=
  (opens_sends (sends_sendOn ..)).trans (opens_wroteOwn ..)

/-- The part leaves the port that faces the master. -/
theorem mem_tx_openPart {k : Nat} {c : Bool} (sub : Bool) (hr : r < s.ring.length) (hup : (portSt s r (!c)).up = true)
    (hloop : (portSt s r (!c)).loop = false) : ∃ f ∈ (ringSt (openPart r k c sub s) r).tx, f.ccw = !c ∧ f.head.kind = 1 ∧
      f.head.subst = sub ∧ f.at_ = slotAt s r k - ownDelay s r c :=
  ⟨_, (opens_wroteOwn ..).tx (mem_tx_sendOn hr hup hloop), rfl, rfl, rfl, rfl⟩

end

theorem ringSlotStart_of_collect {r k : Nat} {s : State} (hr : r < s.ring.length)
    (hk : (nth (ringCfg s r).slots k).kind = 1) (hm : isMaster s r = false) (hmay : mayOpen (ringSt s r) = true)
    (hi : inRun (ringSt s r) = true) : ringSlotStart r k s = forAll (slotSides s r k) (fun c u =>
      if opener u r k c == some (ringSt s r).node then openPart r k c false u else u) (onRing r (atSlot k) s) := by
  have hm' := (isMaster_atSlot hr k).trans hm
  have hring := ringSt_onRing hr (atSlot k)
  have hmay' : mayOpen (ringSt (onRing r (atSlot k) s) r) = true := by rw [hring]; exact hmay
  have hi' : inRun (ringSt (onRing r (atSlot k) s) r) = true := by rw [hring]; exact hi
  have hsides : slotSides (onRing r (atSlot k) s) r k = slotSides s r k := 
    slotSides_congr (s := s) (t := onRing r (atSlot k) s) rfl (by rw [hring]; rfl) k
  have hnode : (ringSt (onRing r (atSlot k) s) r).node = (ringSt s r).node := by rw [hring]; rfl
  rw [ringSlotStart_eq]
  simp [hk, hmay', hm', hi', hsides, hnode]

/-- In its slot the farthest member opens its part, whatever it has opened for the other side. -/
theorem ringSlotStart_opens {r k : Nat} {c : Bool} {s : State} (hr : r < s.ring.length)
    (hk : (nth (ringCfg s r).slots k).kind = 1) (hm : isMaster s r = false) (hmay : mayOpen (ringSt s r) = true)
    (hi : inRun (ringSt s r) = true) (hc : c ∈ slotSides s r k) (hopen : opener s r k c = some (ringSt s r).node)
    (hup : (portSt s r (!c)).up = true) (hloop : (portSt s r (!c)).loop = false) :
    Opens r s (ringSlotStart r k s) ∧ ∃ f ∈ (ringSt (ringSlotStart r k s) r).tx, f.ccw = !c ∧ f.head.kind = 1 ∧
      f.head.subst = false ∧ f.at_ = slotAt s r k - ownDelay s r c := by
  have hslot : Opens r s (onRing r (atSlot k) s) := opens_onRing (f := atSlot k) (fun _ => rfl) (fun _ _ h => h) s
  have hstep (c : Bool) (u : State) :
      Opens r u (if opener u r k c == some (ringSt s r).node then openPart r k c false u else u) := by
    split
    · exact opens_openPart ..
    · exact .refl ..
  rw [ringSlotStart_of_collect hr hk hm hmay hi]
  obtain ⟨u, hbefore, hafter⟩ := forAll_reaches (P := Opens r) (.refl r) Opens.trans hstep hc (onRing r (atSlot k) s)
  have hu := hslot.trans hbefore
  have hlen : r < u.ring.length := by rw [hu.kept.length]; exact hr
  have hport : portSt u r (!c) = portSt s r (!c) := by rw [portSt, hu.ports, portSt]
  have hat : slotAt u r k = slotAt s r k := by rw [slotAt, hu.time, ringCfg, hu.image]; rfl
  have hdly : ownDelay u r c = ownDelay s r c := by rw [ownDelay, hu.dly, ownDelay]
  rw [if_pos (by rw [opener_congr hu.image hu.layout, hopen]; exact beq_self_eq_true _)] at hafter
  obtain ⟨f, hf, hccw, hkind, hsub, hfat⟩ := mem_tx_openPart (k := k) (c := c) false hlen (by rwa [hport]) (by rwa [hport])
  refine ⟨(hu.trans (opens_openPart r k c false u)).trans hafter, f, hafter.tx hf, hccw, hkind, hsub, ?_⟩
  rw [hfat, hat, hdly]

/-- The first member after the opener opens the part that has not begun to arrive in time (R129). -/
theorem substituteOpen_of_late {r k a : Nat} {c : Bool} {s : State} (hm : isMaster s r = false)
    (hmay : mayOpen (ringSt s r) = true) (hi : inRun (ringSt s r) = true) (hk : (nth (ringCfg s r).slots k).kind = 1)
    (hsub : substitute s r k c = some (ringSt s r).node) (hseen : (ringSt s r).seen.contains (k, c) = false)
    (ha : slotAt s r k + 96 ≤ a + ownDelay s r c) :
    substituteOpen r k c a s = onRing r (fun x => { x with seen := x.seen ++ [(k, c)] }) (openPart r k c true s) := by
  simp only [List.contains_eq_mem] at hseen
  simp [substituteOpen, hm, hmay, hi, hk, hsub, hseen, ha]

/-- A silenced or stopped device sends nothing in a slot but answers to probes (R138). -/
theorem ringSlotStart_of_mute {r k : Nat} {s : State} (hr : r < s.ring.length)
    (h : (ringSt s r).txStopped = true ∨ (ringSt s r).state = .down ∨
      (ringSt s r).state = .silent ∧ (nth (ringCfg s r).slots k).kind ≠ 5) :
    ringSlotStart r k s = onRing r (atSlot k) s := by
  have hring := ringSt_onRing hr (atSlot k)
  have hx : (ringSt (onRing r (atSlot k) s) r).txStopped = (ringSt s r).txStopped := by rw [hring]; rfl
  have hst : (ringSt (onRing r (atSlot k) s) r).state = (ringSt s r).state := by rw [hring]; rfl
  rw [ringSlotStart_eq]
  obtain h | h | ⟨h, hk⟩ := h
  · simp [mayOpen, hx, h]
  · simp [mayOpen, hst, h]
  · simp [mayOpen, hst, h, hk]

/-! ### The parts that the master takes (R127, R131 to R133) -/

theorem windowOf_of_early {e a : Nat} (h : a + 100 < e) : windowOf e a = .early := if_pos h

theorem windowOf_of_late {e a : Nat} (h : e + 100 < a) : windowOf e a = .late := by
  rw [windowOf, if_neg (by omega), if_pos h]

theorem sends_copyPart (r a : Nat) (ccw : Bool) (h : RingHead) (us : List UpSeg) (s : State) :
    Sends r s (copyPart r ccw a h us s) := by
  unfold copyPart
  split
  · split
    · exact .refl r s
    · exact sends_sendOn ..
  · exact .refl r s

theorem collectFrame_of_master {r a : Nat} {ccw : Bool} {h : RingHead} {us : List UpSeg} {s : State} (hr : r < s.ring.length)
    (hm : isMaster s r = true) (hok : frameOk s r h = true) :
    collectFrame r ccw a h us s = masterCollect r ccw a h us (heard r a s) := by
  obtain ⟨h0, hd, -⟩ := isMaster_facts hm
  simp [collectFrame, h0, hd, hok, isMaster_heard hr, hm]

/-- A frame has been heard, and frames of this device have left. -/
def heardSent (a : Nat) (l : List RingTx) (x : RingSt) : RingSt := { x with heardAt := a, tx := x.tx ++ l }

theorem copyPart_heard (r a : Nat) (ccw : Bool) (h : RingHead) (us : List UpSeg) (s : State) :
    ∃ l, copyPart r ccw a h us (heard r a s) = onRing r (heardSent a l) s := (sends_copyPart ..).after

/-- A segment is noted with its node. -/
def takenSeg (ccw : Bool) (u : UpSeg) (x : RingSt) : RingSt :=
  { x with nodes := updAt x.nodes u.node (fun n => { n with up := some u, wrote := true, rdy := u.rdy, route := ccw }) }

/-- The segment of a member is taken (R122, R133). -/
theorem takeSegment_of_member {r : Nat} {ccw : Bool} {h : RingHead} {u : UpSeg} {s : State}
    (hmem : hasBit (ringSt s r).members u.node = true) (hsil : hasBit (ringSt s r).silent u.node = false)
    (hside : onSide s r h.slot u.node ccw = true) (hslot : (slotSegs s r h.slot).any (fun g => g.node == u.node) = true)
    (ht : u.tchk = BitVec.ofNat 8 h.tickno) (hn : u.null = false) : takeSegment r ccw h u s =
      onRing r (takenSeg ccw u) s := by
  simp only [takeSegment, hmem, hsil, hside, hslot, ht, hn, beq_self_eq_true, Bool.not_false, Bool.and_self, if_true]
  rfl

/-- A part that arrives in its window, with the segment of a member. -/
theorem collectFrame_of_inside {r a : Nat} {ccw : Bool} {h : RingHead} {u : UpSeg} {s : State} (hr : r < s.ring.length)
    (hm : isMaster s r = true) (hok : frameOk s r h = true) (hw : windowOf (slotAt s r h.slot) a = .inside)
    (hmem : hasBit (ringSt s r).members u.node = true) (hsil : hasBit (ringSt s r).silent u.node = false)
    (hside : onSide s r h.slot u.node ccw = true) (hslot : (slotSegs s r h.slot).any (fun g => g.node == u.node) = true)
    (ht : u.tchk = BitVec.ofNat 8 h.tickno) (hn : u.null = false) : ∃ l, collectFrame r ccw a h [u] s =
      onRing r (fun x => takenSeg ccw u (heardSent a l x)) s := by
  obtain ⟨l, hl⟩ := copyPart_heard r a ccw h [u] s
  have hring := ringSt_onRing hr (heardSent a l)
  have hw' : windowOf (slotAt (onRing r (heardSent a l) s) r h.slot) a = .inside := hw
  have hf : masterCollect r ccw a h [u] (heard r a s) = takeSegment r ccw h u (onRing r (heardSent a l) s) := by
    simp only [masterCollect, hl, hw']
    rfl
  have hlayout : (ringSt (onRing r (heardSent a l) s) r).layout = (ringSt s r).layout := by rw [hring]; rfl
  have htake : takeSegment r ccw h u (onRing r (heardSent a l) s) = onRing r (takenSeg ccw u) (onRing r (heardSent a l) s) :=
    takeSegment_of_member (by rw [hring]; exact hmem) (by rw [hring]; exact hsil)
      ((onSide_congr (s := s) (t := onRing r (heardSent a l) s) rfl hlayout h.slot u.node ccw).trans hside) hslot ht hn
  exact ⟨l, by rw [collectFrame_of_master hr hm hok, hf, htake, onRing_onRing]⟩

/-- An out-of-window part is counted with its opener (R132, R138). -/
def missedNode (early : Bool) (err : Int) (n : NodeSt) : NodeSt :=
  { n with
    early := (if early then satAdd 255 n.early 1 else n.early), late := (if early then n.late else satAdd 255 n.late 1),
    outNow := true, err := err }

def missedPart (j : Nat) (early : Bool) (err : Int) (x : RingSt) : RingSt :=
  { x with nodes := updAt x.nodes j (missedNode early err) }

theorem collectFrame_of_outside {r a j : Nat} {ccw early : Bool} {h : RingHead} {us : List UpSeg} {s : State}
    (hr : r < s.ring.length) (hm : isMaster s r = true) (hok : frameOk s r h = true)
    (hw : windowOf (slotAt s r h.slot) a = if early then .early else .late) (hj : opener s r h.slot ccw = some j) :
    ∃ l e, collectFrame r ccw a h us s = event (if early then 0x0320 else 0x0321) (32 * r + j)
      (onRing r (fun x => missedPart j early e (heardSent a l x)) s) := by
  obtain ⟨l, hl⟩ := copyPart_heard r a ccw h us s
  have hring := ringSt_onRing hr (heardSent a l)
  have hw' : windowOf (slotAt (onRing r (heardSent a l) s) r h.slot) a = if early then .early else .late := hw
  have hlayout : (ringSt (onRing r (heardSent a l) s) r).layout = (ringSt s r).layout := by rw [hring]; rfl
  have hj' : opener (onRing r (heardSent a l) s) r h.slot ccw = some j :=
    (opener_congr (s := s) (t := onRing r (heardSent a l) s) rfl hlayout h.slot ccw).trans hj
  have hf : ∃ e, masterCollect r ccw a h us (heard r a s) = outOfWindow r j early e (onRing r (heardSent a l) s) := by
    cases early <;> simp only [masterCollect, hl, hw', hj', Bool.false_eq_true, if_false, if_true] <;> exact ⟨_, rfl⟩
  obtain ⟨e, hf⟩ := hf
  rw [collectFrame_of_master hr hm hok, hf]
  exact ⟨l, e, congrArg (event _ _) (onRing_onRing ..)⟩

/-! ### The downlink of a device in node mode (R128, R131 to R133, R150, R151) -/

theorem isMaster_of_role_three {r : Nat} {s : State} (h : (ringSt s r).role = 3) : isMaster s r = false := by
  simp [isMaster, capable, h]

theorem sends_passDown (r a : Nat) (ccw : Bool) (h : RingHead) (ds : List DownSeg) (s : State) :
    Sends r s (passDown r ccw a h ds s) := by
  unfold passDown
  split
  · exact .refl r s
  · exact sends_passFrame ..

/-- A frame of the downlink has been heard and passed on, outside its window with a flag for the next segment (R132). -/
def passedDown (n : Nat) (early late bad : Bool) (l : List RingTx) (x : RingSt) : RingSt :=
  { x with heardAt := n, ownEarly := early, ownLate := late, winBad := bad, tx := x.tx ++ l }

theorem heard_passedDown (r a : Nat) (s : State) : ∃ e d w, heard r a s = onRing r (passedDown a e d w []) s :=
  ⟨_, _, _, onRing_congr (by rw [passedDown, List.append_nil])⟩

theorem ownMiss_heard (r a : Nat) (early : Bool) (s : State) :
    ∃ e d w, ownMiss r early (heard r a s) = onRing r (passedDown a e d w []) s :=
  ⟨_, _, _, (onRing_onRing ..).trans (onRing_congr (by rw [passedDown, List.append_nil]))⟩

/-- A frame of the downlink, but for the use of its segment, updates the ring, and of it nothing of the downlink in use. -/
theorem distributeFrame_eq {r a : Nat} {ccw : Bool} {h : RingHead} {ds : List DownSeg} {s : State} (hr : r < s.ring.length)
    (h3 : (ringSt s r).role = 3) (hok : frameOk s r h = true) :
    ∃ n e d w l, distributeFrame r ccw a h ds s = onRing r (passedDown n e d w l) s := by
  have hm : isMaster (heard r a s) r = false := (isMaster_heard hr).trans (isMaster_of_role_three h3)
  by_cases hd : (ringSt s r).state = .down
  · have hf : distributeFrame r ccw a h ds s = s := by simp [distributeFrame, hd]
    exact ⟨_, _, _, _, [], hf.trans ((onRing_id r s).symm.trans (onRing_congr (by rw [passedDown, List.append_nil])))⟩
  · have hpass (u : State) (hu : ∃ e d w, u = onRing r (passedDown a e d w []) s) :
        ∃ n e d w l, passDown r ccw a h ds u = onRing r (passedDown n e d w l) s := by
      obtain ⟨e, d, w, rfl⟩ := hu
      obtain ⟨l, hl⟩ := (sends_passDown r a ccw h ds (onRing r (passedDown a e d w []) s)).after
      exact ⟨a, e, d, w, l, hl.trans (onRing_congr (by rw [passedDown, passedDown, List.append_nil]))⟩
    cases hw : windowOf (slotAt (heard r a s) r h.slot + nth (ringSt s r).dly (portIx ccw)) a
    case inside =>
      have hf : distributeFrame r ccw a h ds s = passDown r ccw a h ds (heard r a s) := by
        simp [distributeFrame, h3, hd, hok, hm, hw]
      exact hf ▸ hpass _ (heard_passedDown r a s)
    case early =>
      have hf : distributeFrame r ccw a h ds s = passDown r ccw a h ds (ownMiss r true (heard r a s)) := by
        simp [distributeFrame, h3, hd, hok, hm, hw]
      exact hf ▸ hpass _ (ownMiss_heard r a true s)
    case late =>
      have hf : distributeFrame r ccw a h ds s = passDown r ccw a h ds (ownMiss r (Window.late == .early) (heard r a s)) := by
        simp [distributeFrame, h3, hd, hok, hm, hw]
      exact hf ▸ hpass _ (ownMiss_heard r a _ s)

theorem usedDown_of_own {r a : Nat} {ccw : Bool} {h : RingHead} {d : DownSeg} {s : State} (h3 : (ringSt s r).role = 3)
    (hi : inRun (ringSt s r) = true) (hmem : hasBit (ringSt s r).members (ringSt s r).node = true)
    (hw : windowOf (slotAt s r h.slot + nth (ringSt s r).dly (portIx ccw)) a = .inside) (hd : d.node = (ringSt s r).node)
    (ht : d.tchk = BitVec.ofNat 8 h.tickno) : usedDown s r ccw a h [d] = some d := by
  simp [usedDown, h3, hi, hmem, hw, hd, ht]

theorem usedDown_of_other {r a : Nat} {ccw : Bool} {h : RingHead} {d : DownSeg} {s : State}
    (hd : d.node ≠ (ringSt s r).node ∨ d.tchk ≠ BitVec.ofNat 8 h.tickno) : usedDown s r ccw a h [d] = none := by
  have hf : (d.node == (ringSt s r).node && d.tchk == BitVec.ofNat 8 h.tickno) = false := by
    obtain h | h := hd <;> simp [h]
  simp [usedDown, hf]

section
variable {ps : List Part} {s t : State} {c : Nat}

/-- A channel without torque: of the state its channel and the log change. -/
@[simp] theorem only_nodeStop (hc : .chip ∈ ps) (ha : .axio ∈ ps) : only ps s (nodeStop c t) ↔ only ps s t := by
  have hstop : only ps s (stepStop c t) ↔ only ps s t := only_onChan ha
  unfold nodeStop
  dsimp only
  split
  · rw [homeFail, only_event hc, only_onChan ha, hstop]
  · exact hstop

theorem only_nodeSto {sto : BitVec 32} (hc : .chip ∈ ps) (ha : .axio ∈ ps) : only ps s (nodeSto sto t) ↔ only ps s t :=
  only_forAll fun _ u => (only_nodeStop hc ha).2 (only_refl _ u)

end

theorem nodeLines_onRing (sto : BitVec 32) (r : Nat) (f : RingSt → RingSt) (s : State) :
    nodeLines sto (onRing r f s) = onRing r f (nodeLines sto s) := rfl

/-- A used segment, where the lines follow it. -/
def segInUse (d : DownSeg) (x : RingSt) : RingSt :=
  { x with
    dlUsed := true, dlLost := false, dlFresh := !(d.hold || d.null), dlNow := if !(d.hold || d.null) then some d else x.dlNow }

theorem useDown_of_followed {r : Nat} {d : DownSeg} {s : State} (h : (ringSt s r).dlLost = false ∨ d.sto = 0) :
    useDown r d s = onRing r (segInUse d) (nodeLines d.sto s) := by
  have hlost : ((ringSt s r).dlLost && d.sto != 0) = false := by
    obtain h | h := h <;> simp [h]
  simp only [useDown, hlost, Bool.false_eq_true, if_false]
  rfl

/-- The downlink is lost. -/
def lostDown (x : RingSt) : RingSt := { x with dlLost := true }

/-- NODE_DL_LOST (R151): the lines go active, every step generator stops, and a class A fault is latched. -/
theorem nodeDlLost_reaches {s : State} (hn : nodeMode s = true) (hm : dlLimit s < (ringSt s 0).dlMiss)
    (hl : (ringSt s 0).dlLost = false) : ∃ u, nodeDlLost s = classA (defined u) 16 0x0350 (event 0x0350 0 u) ∧
      only [.chip, .axio] (nodeLines 0xFFFFFFFF (onRing 0 lostDown s)) u := by
  refine ⟨forAll (List.range (maxChans s.fuse.variant)) nodeStop (nodeLines 0xFFFFFFFF (onRing 0 lostDown s)), ?_,
    (only_forAll fun _ u => (only_nodeStop (by decide) (by decide)).2 (only_refl _ u)).2 (only_refl _ _)⟩
  simp only [nodeDlLost, hn, hm, hl, decide_true, Bool.not_false, Bool.and_self, if_true]
  rfl

theorem nodeDlLost_of_in_time {s : State} (h : nodeMode s = false ∨ (ringSt s 0).dlMiss ≤ dlLimit s) : nodeDlLost s = s := by
  obtain h | h := h
  · simp [nodeDlLost, h]
  · simp [nodeDlLost, Nat.not_lt.2 h]

@[simp] theorem classA_lineCmd (m : Mask) (src code : Nat) (s : State) :
    (classA m src code s).saf.lineCmd = s.saf.lineCmd := by
  simp [classA, demandStop_eq, latchA_eq]

/-! ### The clauses of O16 -/

/-- In a downlink slot the frame leaves each side of the master whose port is up and returns nothing. -/
theorem ringSlotStart_distributes {r k : Nat} {s : State} (hr : r < s.ring.length)
    (hk : (nth (ringCfg s r).slots k).kind = 2) (hm : isMaster s r = true) (hi : inRun (ringSt s r) = true) :
    (∃ ds l, ringSlotStart r k s = onRing r (fun x => { notedDown ds (atSlot k x) with tx := x.tx ++ l }) s) ∧
    ∀ c ∈ slotSides s r k, (portSt s r c).up = true → (portSt s r c).loop = false →
      ∃ f ∈ (ringSt (ringSlotStart r k s) r).tx, f.ccw = c ∧ f.at_ = slotAt s r k ∧ f.head.kind = 2 ∧
        f.pay = .distribute ((slotSegs s r k).map (downSeg s r)) := by
  have hring := ringSt_onRing hr (atSlot k)
  have hlayout : (ringSt (onRing r (atSlot k) s) r).layout = (ringSt s r).layout := by rw [hring]; rfl
  have hsides := slotSides_congr (s := s) (t := onRing r (atSlot k) s) rfl hlayout k
  have hpay : (slotSegs (onRing r (atSlot k) s) r k).map (downSeg (onRing r (atSlot k) s) r) =
      (slotSegs s r k).map (downSeg s r) := List.map_congr_left fun g _ => downSeg_atSlot hr k g
  rw [ringSlotStart_of_distribute hr hk hm hi, sendDistribute_eq, onRing_onRing, hsides]
  refine ⟨?_, fun c hc hup hloop => ?_⟩
  · obtain ⟨l, hl⟩ := (sends_forAll_sendOn r (downFrame (onRing r (atSlot k) s) r k) (slotSides s r k) (onRing r (fun x =>
      notedDown ((slotSegs (onRing r (atSlot k) s) r k).map (downSeg (onRing r (atSlot k) s) r)) (atSlot k x)) s)).after
    exact ⟨_, l, hl⟩
  · have hport (ds : List DownSeg) : portSt (onRing r (fun x => notedDown ds (atSlot k x)) s) r c = portSt s r c := by
      rw [portSt_onRing hr]
      rfl
    exact ⟨_, mem_tx_forAll_sendOn (by simpa using hr) hc (by rwa [hport]) (by rwa [hport]), rfl, rfl, rfl,
      congrArg RingPay.distribute hpay⟩

/-- What a slot without claims and an announcement leave of the ring. -/
theorem unclaimed_atSlot (k : Nat) (x : RingSt) : (unclaimed (atSlot k x)).broken = x.broken := rfl

theorem announcing_unclaimed (l : List RingTx) (e : Option Nat) (k : Nat) (x : RingSt) :
    (announcing l e (unclaimed (atSlot k x))).node = x.node ∧ (announcing l e (unclaimed (atSlot k x))).members = x.members ∧
      (announcing l e (unclaimed (atSlot k x))).silent = x.silent := ⟨rfl, rfl, rfl⟩

/-- The beacon of a ring that runs names its master, the next tick and the members (R122). -/
theorem makeBeacon_facts {r : Nat} {takeover : Bool} {w : State} (h : w.time.run = true) :
    (makeBeacon w r takeover).next = w.time.tickno + 1 ∧ (makeBeacon w r takeover).e0 = w.time.e0 + periodNs w ∧
      (makeBeacon w r takeover).master = (ringSt w r).node ∧ (makeBeacon w r takeover).members = (ringSt w r).members ∧
      (makeBeacon w r takeover).silent = (ringSt w r).silent ∧ (makeBeacon w r takeover).takeover = takeover :=
  ⟨if_pos h, if_pos h, rfl, rfl, rfl, rfl⟩

/-- A device in node mode that uses a segment: the lines follow its STO mask, and the channels without torque stop. -/
theorem distribute_of_own {r a : Nat} {ccw : Bool} {h : RingHead} {d : DownSeg} {s : State} (hr : r < s.ring.length)
    (h3 : (ringSt s r).role = 3) (hok : frameOk s r h = true) (hused : usedDown s r ccw a h [d] = some d)
    (hlost : (ringSt s r).dlLost = false ∨ d.sto = 0) : ∃ n e late w l,
      only [.chip, .axio] (nodeLines d.sto (onRing r (fun x => segInUse d (passedDown n e late w l x)) s))
        (distribute r ccw a h [d] s) := by
  obtain ⟨n, e, late, w, l, hf⟩ := distributeFrame_eq (ccw := ccw) (a := a) (ds := [d]) hr h3 hok
  have hlost' : (ringSt (onRing r (passedDown n e late w l) s) r).dlLost = false ∨ d.sto = 0 := by
    rw [ringSt_onRing hr]
    exact hlost
  have huse : useDown r d (onRing r (passedDown n e late w l) s) =
      nodeLines d.sto (onRing r (fun x => segInUse d (passedDown n e late w l x)) s) := by
    rw [useDown_of_followed hlost', ← nodeLines_onRing, onRing_onRing]
  refine ⟨n, e, late, w, l, ?_⟩
  simp only [distribute, hok, isMaster_of_role_three h3, Bool.not_false, Bool.and_self, if_true, hused, hf, huse, only_ite,
    only_nodeSto (List.mem_cons_self ..) (by decide : Part.axio ∈ [Part.chip, .axio]), only_self, ite_self]

/-- Settles O16: the frames of a slot are those that each side has sent when the fold over the sides has passed it; a part or a
segment that is used is one update of the ring, and after a used or a lost downlink only the channels and the log still change. -/
theorem ringFrames : Obligations.RingFrames := by
  refine ⟨fun r k s hu hr hk hm hi => ?_, fun r k s hu hr hk hm hp hb hc hrun => ?_,
    fun r k c s hu hr hk hm hmay hi hc hopen hup hloop => ?_, fun r k s hu hr hmute => ?_,
    fun r k a c s hu hr hm hmay hi hk hsub hseen ha hup hloop => ?_,
    fun r a ccw h u s hu hr hm hok hw hlen hmem hsil hside hslot ht hn => ?_,
    fun r a j ccw h us s hu hr hm hok hj hlen => ⟨fun ha => ?_, fun ha => ?_⟩,
    fun r a ccw h d s hu hr h3 hi hok hmem hw hd ht hlost => ?_, fun r a ccw h d s hu h3 hr hok hd => ?_,
    fun s hn hm hl hr => ?_, fun s h => run_of_unchanged (nodeDlLost_of_in_time h)⟩
  · obtain ⟨⟨ds, l, hf⟩, hframes⟩ := ringSlotStart_distributes hr hk hm hi
    have hkept : ringKept r [.ring] s (ringSlotStart r k s) := by rw [hf, ringKept_onRing (by decide)]; exact ringKept_refl ..
    refine ⟨_, (runIn_of_up hu).trans (run_of_quiet rfl hkept.quiet), hframes, ?_, hkept⟩
    rw [hf, ringSt_onRing hr]
    rfl
  · have hclaims : (ringSt (onRing r (atSlot k) s) r).claims = [] := by rw [ringSt_onRing hr]; exact hc
    have hd := decideClaims_of_none hclaims
    rw [onRing_onRing] at hd
    obtain ⟨t, l, e, hstep, hbeacon, -, -, hkept⟩ := run_beaconSlot hr hk hm hp hd (unclaimed_atSlot k (ringSt s r)) hb
    have hring := ringSt_onRing hr (fun x => announcing l e (unclaimed (atSlot k x)))
    rw [onRing_onRing] at hbeacon
    obtain ⟨hnext, he0, hmaster, hmembers, hsilent, htake⟩ := makeBeacon_facts (r := r) (takeover := false)
      (w := onRing r (fun x => announcing l e (unclaimed (atSlot k x))) s) hrun
    obtain ⟨hnode, hmem, hsil⟩ := announcing_unclaimed l e k (ringSt s r)
    rw [hring] at hmaster hmembers hsilent
    exact ⟨t, _, (runIn_of_up hu).trans hstep, hbeacon, hmaster.trans hnode, hnext, he0, hmembers.trans hmem,
      hsilent.trans hsil, htake, hkept⟩
  · obtain ⟨hopens, hframe⟩ := ringSlotStart_opens hr hk hm hmay hi hc hopen hup hloop
    exact ⟨_, (runIn_of_up hu).trans (run_of_quiet rfl hopens.kept.quiet), hframe, hopens.kept⟩
  · obtain ⟨t, hrun, hring, hkept⟩ := run_onRing (ringSlotStart_of_mute hr hmute) hr
    exact ⟨t, (runIn_of_up hu).trans hrun, by rw [hring]; rfl, by rw [hring]; rfl, by rw [hring]; rfl, by rw [hring]; rfl, hkept⟩
  · have hx := substituteOpen_of_late hm hmay hi hk hsub hseen ha
    have hopens : Opens r s (openPart r k c true s) := opens_openPart ..
    obtain ⟨f, hf, hccw, hkind, hs, -⟩ := mem_tx_openPart (k := k) true hr hup hloop
    have hring := ringSt_onRing (s := openPart r k c true s) (by rw [hopens.kept.length]; exact hr)
      (fun x => { x with seen := x.seen ++ [(k, c)] })
    have hkept := (ringKept_onRing (f := fun x => { x with seen := x.seen ++ [(k, c)] }) (by decide)).2 hopens.kept
    refine ⟨_, (runIn_of_up hu).trans (run_of_quiet hx hkept.quiet), ?_, ⟨f, ?_, hccw, hkind, hs⟩, hkept⟩
    · rw [hring]
      simp
    · rw [hring]
      exact hf
  · obtain ⟨l, hf⟩ := collectFrame_of_inside hr hm hok hw hmem hsil hside hslot ht hn
    obtain ⟨t, hrun, hring, hkept⟩ := run_onRing hf hr
    refine ⟨t, (runIn_of_up hu).trans hrun, ?_, hkept⟩
    rw [nodeSt, hring]
    exact congrArg NodeSt.up (nth_updAt_self _ _ _ hlen)
  · obtain ⟨l, e, hf⟩ := collectFrame_of_outside (early := true) (us := us) hr hm hok (windowOf_of_early ha) hj
    obtain ⟨t, hrun, hring, hlog, hat, honly⟩ := run_event_onRing hf hr
    have hnode : nodeSt t r j = missedNode true e (nodeSt s r j) := by
      rw [nodeSt, hring]
      exact nth_updAt_self _ _ _ hlen
    exact ⟨t, (runIn_of_up hu).trans hrun, by rw [hnode]; rfl, by rw [hnode]; rfl, by rw [hnode]; rfl, hlog, hat, honly⟩
  · obtain ⟨l, e, hf⟩ := collectFrame_of_outside (early := false) (us := us) hr hm hok (windowOf_of_late ha) hj
    obtain ⟨t, hrun, hring, hlog, hat, honly⟩ := run_event_onRing hf hr
    have hnode : nodeSt t r j = missedNode false e (nodeSt s r j) := by
      rw [nodeSt, hring]
      exact nth_updAt_self _ _ _ hlen
    exact ⟨t, (runIn_of_up hu).trans hrun, by rw [hnode]; rfl, by rw [hnode]; rfl, by rw [hnode]; rfl, hlog, hat, honly⟩
  · obtain ⟨n, e, late, w, l, honly⟩ := distribute_of_own hr h3 hok (usedDown_of_own h3 hi hmem hw hd ht) hlost
    have hring : ringSt (settle s (distribute r ccw a h [d] s)) r = segInUse d (passedDown n e late w l (ringSt s r)) := by
      rw [ringSt, settle_ring, honly .ring (by decide)]
      exact ringSt_onRing hr (fun x => segInUse d (passedDown n e late w l x))
    refine ⟨_, runIn_of_up hu, ?_, ?_, ?_, fun hh hn => ?_, fun hhn => ?_, ?_, ?_⟩
    · rw [settle_saf, honly .saf (by decide)]
      rfl
    · rw [hring]; rfl
    · rw [hring]; rfl
    · rw [hring]
      simp [segInUse, hh, hn]
    · rw [hring]
      obtain h | h := hhn <;> simp [segInUse, passedDown, h]
    · rw [settle_ring, honly .ring (by decide)]
      exact onlyAt_updAt _ _ _
    · refine (only_settle_iff (by decide)).2 (only_trans ?_ (only_mono (by decide) honly))
      rw [nodeLines, only_onSaf (by decide), only_onRing (by decide)]
      exact only_refl _ s
  · obtain ⟨n, e, late, w, l, hf⟩ := distributeFrame_eq (ccw := ccw) (a := a) (ds := [d]) hr h3 hok
    have hx : distribute r ccw a h [d] s = onRing r (passedDown n e late w l) s := by
      simp only [distribute, usedDown_of_other hd, ite_self, hf]
    obtain ⟨t, hrun, hring, hkept⟩ := run_onRing hx hr
    exact ⟨t, (runIn_of_up hu).trans hrun, by rw [hring]; rfl, by rw [hring]; rfl, hkept⟩
  · obtain ⟨u, hx, honly⟩ := nodeDlLost_reaches hn hm hl
    have hclass : only [.chip, .recd, .saf] u (nodeDlLost s) := by rw [hx]; simp
    have hring : (settle s (nodeDlLost s)).ring = updAt s.ring 0 lostDown := by
      rw [settle_ring, hclass .ring (by decide), honly .ring (by decide)]
      rfl
    refine ⟨_, rfl, ?_, ?_, ?_, ?_, ?_⟩
    · rw [settle_saf, hx, classA_lineCmd, event_saf, honly .saf (by decide)]
      rfl
    · rw [ringSt, hring]
      exact congrArg RingSt.dlLost (nth_updAt_self _ _ _ hr)
    · rw [settle_saf, hx, classA_lastA]
    · rw [hring]
      exact onlyAt_updAt _ _ _
    · refine (only_settle_iff (by decide)).2 (only_trans (only_trans ?_ (only_mono (by decide) honly))
        (only_mono (by decide) hclass))
      rw [nodeLines, only_onSaf (by decide), only_onRing (by decide)]
      exact only_refl _ s

end Sys2Proof.Machine

/-! SUPPORT. ChannelUpdates: the update of one channel, the commands that change no more than one channel, and the registers of a
channel. -/

namespace Sys2Proof.Machine

/-! ### The update of one channel -/

section
variable {c : Nat} {f g : ChanSt → ChanSt} {s : State}

theorem chSt_onChan (h : c < s.axio.length) (f : ChanSt → ChanSt) : chSt (onChan c f s) c = f (chSt s c) :=
  nth_updAt_self _ _ _ h

theorem onChan_onChan (c : Nat) (f g : ChanSt → ChanSt) (s : State) :
    onChan c f (onChan c g s) = onChan c (fun x => f (g x)) s := by
  simp only [onChan, updAt_updAt]

theorem onChan_id (c : Nat) (s : State) : onChan c (fun x => x) s = s := by
  simp only [onChan, updAt_id]

/-- Updates that agree on channel c as it stands have the same effect. -/
theorem onChan_congr (h : f (chSt s c) = g (chSt s c)) : onChan c f s = onChan c g s := by
  rw [onChan, updAt_congr h, onChan]

theorem onChan_event (c k d : Nat) (f : ChanSt → ChanSt) (s : State) :
    onChan c f (event k d s) = event k d (onChan c f s) := rfl

@[simp] theorem eventOnce_axio (k i d : Nat) (s : State) : (eventOnce k i d s).axio = s.axio := by
  unfold eventOnce
  split <;> rfl

end

/-- An event of a tick that is not suppressed is noted (R454). -/
theorem eventOnce_once {k i d : Nat} {s : State} (h : s.chip.once.contains (k, i) = false) :
    (eventOnce k i d s).chip.once.contains (k, i) = true := by
  simp only [eventOnce, h, Bool.false_eq_true, if_false]
  simp [event]

/-! ### Commands that update one channel -/

section
variable {c k : Nat} {F : State → State} {f : ChanSt → ChanSt} {s : State}

theorem run_onChan (hx : F s = onChan c f s) (hc : c < s.axio.length) : ∃ t, run F s = .next t ∧ chSt t c = f (chSt s c) ∧
    onlyAt c s.axio t.axio ∧ quiet s t ∧ only [.axio] s t := by
  have hq : quiet s (onChan c f s) := ⟨rfl, rfl, rfl⟩
  exact ⟨_, run_of_quiet hx hq, chSt_onChan hc f, onlyAt_updAt _ _ _, hq, by simp⟩

/-- A register write that updates the channel. -/
theorem run_acked_onChan (hx : F s = acked (onChan c f s)) (hc : c < s.axio.length) : ∃ t, run F s = .next t ∧
    chSt t c = f (chSt s c) ∧ t.chip.resp = .done ∧ onlyAt c s.axio t.axio ∧ quiet s t ∧ only [.chip, .axio] s t := by
  have hq : quiet s (acked (onChan c f s)) := ⟨rfl, rfl, rfl⟩
  exact ⟨_, run_of_quiet hx hq, chSt_onChan hc f, rfl, onlyAt_updAt _ _ _, hq, by simp⟩

theorem run_event_onChan {d : Nat} (hx : F s = event k d (onChan c f s)) (hc : c < s.axio.length) : ∃ t, run F s = .next t ∧
    chSt t c = f (chSt s c) ∧ logged k d s t ∧ onlyAt c s.axio t.axio ∧ only [.chip, .axio] s t := by
  have hl : logged k d s (event k d (onChan c f s)) := logged_event ⟨rfl, rfl, rfl⟩ rfl
  exact ⟨_, run_of_logged hx hl, chSt_onChan hc f, hl, onlyAt_updAt _ _ _, by simp⟩

/-- A register write that updates the channel and raises an event. -/
theorem run_acked_event_onChan {d : Nat} (hx : F s = acked (event k d (onChan c f s))) (hc : c < s.axio.length) :
    ∃ t, run F s = .next t ∧ chSt t c = f (chSt s c) ∧ logged k d s t ∧ onlyAt c s.axio t.axio ∧ only [.chip, .axio] s t := by
  have hl : logged k d s (acked (event k d (onChan c f s))) := logged_event (u := onChan c f s) ⟨rfl, rfl, rfl⟩ rfl
  exact ⟨_, run_of_logged hx hl, chSt_onChan hc f, hl, onlyAt_updAt _ _ _, by simp⟩

/-- A command that updates the channel and raises an event that is raised at most once in a tick. -/
theorem run_eventOnce_onChan (hx : F s = eventOnce k c c (onChan c f s)) (hc : c < s.axio.length) : ∃ t, run F s = .next t ∧
    chSt t c = f (chSt s c) ∧ (s.chip.once.contains (k, c) = true → quiet s t) ∧
    (s.chip.once.contains (k, c) = false → logged k c s t ∧ t.chip.once.contains (k, c) = true) ∧
    onlyAt c s.axio t.axio ∧ only [.chip, .axio] s t := by
  have hq : quiet s (onChan c f s) := ⟨rfl, rfl, rfl⟩
  obtain ⟨hlog, hsup⟩ := eventOnce_quiet_or_logged (c := k) (k := c) (d := c) hq rfl rfl
  refine ⟨_, run_of_eventOnce hx hq rfl rfl, ?_, hsup, fun h => ⟨hlog h, eventOnce_once h⟩, ?_, by simp⟩
  · rw [chSt, eventOnce_axio]
    exact chSt_onChan hc f
  · rw [eventOnce_axio]
    exact onlyAt_updAt _ _ _

/-- A command that updates the channel and raises events. -/
theorem run_events_onChan (hx : (F s).axio = updAt s.axio c f) (ho : only [.chip, .axio] s (F s)) (hc : c < s.axio.length) :
    ∃ t, run F s = .next t ∧ chSt t c = f (chSt s c) ∧ onlyAt c s.axio t.axio ∧ only [.chip, .axio] s t := by
  refine ⟨_, rfl, ?_, ?_, (only_settle_iff (by decide)).2 ho⟩
  · rw [chSt, settle_axio, hx]
    exact nth_updAt_self _ _ _ hc
  · rw [settle_axio, hx]
    exact onlyAt_updAt _ _ _

end

/-! ### The registers of a channel (R3) -/

theorem chanLive_present {s : State} {c : Nat} (h : chanLive s c = true) : c < maxChans s.fuse.variant := by
  simp only [chanLive, Bool.and_eq_true, decide_eq_true_eq] at h
  exact h.1

theorem chanAccess_of_present {wr : Bool} {c : Nat} {f : State → State} {s : State} (h : c < maxChans s.fuse.variant) :
    chanAccess wr c f s = acked (f s) := if_neg (Nat.not_le.2 h)

/-- A write to a register of an absent channel is discarded with CHIP_ABSENT. -/
theorem run_chanAccess_of_absent {c : Nat} {f g : State → State} {s : State} (hx : f s = chanAccess true c g s)
    (h : maxChans s.fuse.variant ≤ c) :
    ∃ t, run f s = .next t ∧ logged 0x0101 0 s t ∧ t.chip.resp = .done ∧ only [.chip] s t := by
  have hf : f s = event 0x0101 0 (acked s) := hx.trans (if_pos h)
  obtain ⟨hrun, hlog⟩ := run_of_event hf ⟨rfl, rfl, rfl⟩ rfl
  exact ⟨_, hrun, hlog, rfl, by simp⟩

end Sys2Proof.Machine

/-! PROOF. EncoderFeedback: what a sample of a channel counts, how its feedback is declared faulty and how the fault is cleared, and
O9. -/

namespace Sys2Proof.Machine

/-! ### A count (R158, R160) -/

/-- Both counts have moved by one line, DIR follows, a change of DIR is counted. -/
def lineCounted (cpr : Nat) (up : Bool) (x : ChanSt) : ChanSt :=
  { x with
    lastCount := x.count, count := wrap64 (x.count + if up then 1 else -1),
    single := (((x.single : Int) + if up then 1 else -1) % (cpr : Int)).toNat,
    dir := up, dircnt := if x.dir = up then x.dircnt else satAdd 0xFFFF x.dircnt 1 }

/-- What counting reads and moves of a channel. -/
def ChanSt.counting (x : ChanSt) : Int × Nat × Bool × Nat × Bool := (x.count, x.single, x.dir, x.dircnt, x.dirie)

theorem countBy_eq (c : Nat) (up : Bool) (s : State) : countBy c (if up then 1 else -1) s =
    if (chSt s c).dir ≠ up ∧ (chSt s c).dirie = true then eventOnce 0x0404 c c (onChan c (lineCounted (cprOf s c) up) s)
    else onChan c (lineCounted (cprOf s c) up) s := by
  have hpos : decide ((0 : Int) < if up then 1 else -1) = up := by cases up <;> rfl
  have hupd : onChan c (fun x => { x with
      lastCount := x.count, count := wrap64 (x.count + if up then 1 else -1),
      single := (((x.single : Int) + if up then 1 else -1) % (cprOf s c : Int)).toNat,
      dir := up, dircnt := if (chSt s c).dir != up then satAdd 0xFFFF x.dircnt 1 else x.dircnt }) s =
      onChan c (lineCounted (cprOf s c) up) s := by
    apply onChan_congr
    by_cases h : (chSt s c).dir = up <;> simp [lineCounted, h]
  simp only [countBy, hpos, hupd]
  simp

/-- A command that counts by one line: DIR reads as counted, and with DIRIE a change of it is an event of the tick. -/
theorem run_countBy {c : Nat} {up : Bool} {F : State → State} {g : ChanSt → ChanSt} {s : State}
    (hx : F s = countBy c (if up then 1 else -1) (onChan c g s)) (hg : ∀ x, (g x).counting = x.counting)
    (hc : c < s.axio.length) : ∃ t, run F s = .next t ∧ chSt t c = lineCounted (cprOf s c) up (g (chSt s c)) ∧
      ((chSt s c).dir ≠ up → (chSt s c).dirie = true → s.chip.once.contains (0x0404, c) = false →
        logged 0x0404 c s t ∧ t.chip.once.contains (0x0404, c) = true) ∧
      ((chSt s c).dir = up ∨ (chSt s c).dirie = false ∨ s.chip.once.contains (0x0404, c) = true → quiet s t) ∧
      onlyAt c s.axio t.axio ∧ only [.chip, .axio] s t := by
  have hkeep := hg (chSt s c)
  simp only [ChanSt.counting, Prod.mk.injEq] at hkeep
  obtain ⟨-, -, hdir, -, hdirie⟩ := hkeep
  have hcpr : cprOf (onChan c g s) c = cprOf s c := rfl
  rw [countBy_eq, chSt_onChan hc, hdir, hdirie, hcpr, onChan_onChan] at hx
  by_cases hev : (chSt s c).dir ≠ up ∧ (chSt s c).dirie = true
  · rw [if_pos hev] at hx
    obtain ⟨t, hrun, hch, hsup, hlog, hkept⟩ := run_eventOnce_onChan hx hc
    obtain ⟨hd, hi⟩ := hev
    refine ⟨t, hrun, hch, fun _ _ => hlog, fun h => hsup ?_, hkept⟩
    simpa [hd, hi] using h
  · rw [if_neg hev] at hx
    obtain ⟨t, hrun, hch, hat, hq, honly⟩ := run_onChan hx hc
    exact ⟨t, hrun, hch, fun hd hi => absurd ⟨hd, hi⟩ hev, fun _ => hq, hat, only_mono (by decide) honly⟩

/-! ### A sample of the levels (R153, R155) -/

/-- The levels that a sample leaves as the filtered ones. -/
def sampled (a b : Bool) (x : ChanSt) : ChanSt := { x with lvA := a, lvB := b }

/-- A quadrature error has been counted. -/
def errorCounted (x : ChanSt) : ChanSt := { x with qNow := x.qNow + 1, qTotal := satAdd 0xFFFF x.qTotal 1 }

theorem quadError_onChan (c : Nat) (g : ChanSt → ChanSt) (s : State) :
    quadError c (onChan c g s) = eventOnce 0x0401 c c (onChan c (fun x => errorCounted (g x)) s) :=
  congrArg (eventOnce 0x0401 c c) (onChan_onChan c errorCounted g s)

/-- A command that counts an error. -/
theorem run_quadError {c : Nat} {F : State → State} {g : ChanSt → ChanSt} {s : State}
    (hx : F s = quadError c (onChan c g s)) (hc : c < s.axio.length) : ∃ t, run F s = .next t ∧
      chSt t c = errorCounted (g (chSt s c)) ∧ onlyAt c s.axio t.axio ∧ only [.chip, .axio] s t := by
  obtain ⟨t, hrun, hch, -, -, hkept⟩ := run_eventOnce_onChan (hx.trans (quadError_onChan c g s)) hc
  exact ⟨t, hrun, hch, hkept⟩

section
variable {c : Nat} {a b : Bool} {s : State}

theorem quadSample_of_edge {up : Bool}
    (h : (quadPlace a b + 4 - quadPlace (chSt s c).lvA (chSt s c).lvB) % 4 = if up then 1 else 3) :
    quadSample c a b s = countBy c (if up then 1 else -1) (onChan c (sampled a b) s) := by
  cases up <;> simp only [quadSample, h] <;> rfl

theorem quadSample_of_jump (h : (quadPlace a b + 4 - quadPlace (chSt s c).lvA (chSt s c).lvB) % 4 = 2) :
    quadSample c a b s = quadError c (onChan c (sampled a b) s) := by
  simp only [quadSample, h]
  rfl

theorem quadSample_of_stay (h : (quadPlace a b + 4 - quadPlace (chSt s c).lvA (chSt s c).lvB) % 4 = 0) :
    quadSample c a b s = onChan c (sampled a b) s := by
  simp only [quadSample, h]
  rfl

theorem quadEdge_of_held {ha hb : Nat} (hl : chanLive s c = true) (hq : isQuad s c = true) (h : (chanCfg s c).filt ≤ ha)
    (k : (chanCfg s c).filt ≤ hb) : quadEdge c (.levels a b ha hb) s = quadSample c a b s := by
  simp [quadEdge, hl, hq, filtered, h, k]

/-- Levels that have held for less than FILT samples leave the channel as it is. -/
theorem quadEdge_of_short {ha hb : Nat} (hl : chanLive s c = true) (hq : isQuad s c = true) (h : ha < (chanCfg s c).filt)
    (k : hb < (chanCfg s c).filt) : quadEdge c (.levels a b ha hb) s = onChan c (fun x => x) s := by
  have hstay : quadEdge c (.levels a b ha hb) s = quadSample c (chSt s c).lvA (chSt s c).lvB s := by
    simp [quadEdge, hl, hq, filtered, Nat.not_le.2 h, Nat.not_le.2 k]
  rw [hstay, quadSample_of_stay (by simp)]
  exact onChan_congr rfl

end

theorem quadPlace_not (a b : Bool) : (quadPlace (!a) (!b) + 4 - quadPlace a b) % 4 = 2 := by cases a <;> cases b <;> rfl

theorem quadEdge_of_absent {c : Nat} {p : ChanSample} {s : State} (h : chanLive s c = false) : quadEdge c p s = s := by
  simp [quadEdge, h]

/-- The single-turn count of a counted channel stays within one turn. -/
theorem lineCounted_single (s : State) (c : Nat) (up : Bool) (x : ChanSt) :
    ((lineCounted (cprOf s c) up x).single : Int) = ((x.single : Int) + if up then 1 else -1) % (cprOf s c : Int) := by
  have hpos : (cprOf s c : Int) ≠ 0 := by
    unfold cprOf
    split <;> omega
  exact Int.toNat_of_nonneg (Int.emod_nonneg _ hpos)

/-- A sample of a quadrature channel one place on in the sequence, or one place back. -/
theorem run_quadEdge_of_edge {c ha hb : Nat} {a b up : Bool} {s : State} (hc : c < s.axio.length) (hl : chanLive s c = true)
    (hq : isQuad s c = true) (h : (chanCfg s c).filt ≤ ha) (k : (chanCfg s c).filt ≤ hb)
    (hd : (quadPlace a b + 4 - quadPlace (chSt s c).lvA (chSt s c).lvB) % 4 = if up then 1 else 3) :
    ∃ t, run (quadEdge c (.levels a b ha hb)) s = .next t ∧
      (chSt t c).count = wrap64 ((chSt s c).count + if up then 1 else -1) ∧
      ((chSt t c).single : Int) = ((chSt s c).single + if up then 1 else -1) % (cprOf s c : Int) ∧
      (chSt t c).dir = up ∧ (chSt t c).lvA = a ∧ (chSt t c).lvB = b ∧ (chSt t c).qTotal = (chSt s c).qTotal ∧
      onlyAt c s.axio t.axio ∧ only [.chip, .axio] s t := by
  obtain ⟨t, hrun, hch, -, -, hkept⟩ :=
    run_countBy ((quadEdge_of_held hl hq h k).trans (quadSample_of_edge hd)) (fun _ => rfl) hc
  refine ⟨t, hrun, ?_, ?_, ?_, ?_, ?_, ?_, hkept⟩ <;> rw [hch]
  · rfl
  · exact lineCounted_single ..
  all_goals rfl

/-! ### Faults of the feedback (R154, R156, R157, R177) -/

/-- The feedback of a channel has been declared faulty in tick n. -/
def faulty (n : Nat) (x : ChanSt) : ChanSt := { x with fault := true, refd := false, hofs := 0, faultTick := some n }

/-- A command that declares the feedback faulty for a condition that it has found and logged. -/
theorem run_declareFault {c k : Nat} {F : State → State} {g : ChanSt → ChanSt} {s : State}
    (hx : F s = declareFault c (event k c (onChan c g s))) (hc : c < s.axio.length) : ∃ t, run F s = .next t ∧
      chSt t c = faulty s.time.tickno (g (chSt s c)) ∧ onlyAt c s.axio t.axio ∧ only [.chip, .axio] s t := by
  have hf : F s = event 0x0402 c (event k c (onChan c (fun x => faulty s.time.tickno (g x)) s)) :=
    hx.trans (congrArg (fun u => event 0x0402 c (event k c u)) (onChan_onChan c (faulty s.time.tickno) g s))
  exact run_events_onChan (F := F) (congrArg State.axio hf) (by simp [hf]) hc

theorem wireFault_of_long {c p n : Nat} {s : State} (hl : chanLive s c = true) (hb : hasFb s c = true)
    (hp : isQuad s c = true ∨ p = 2) (hf : (chanCfg s c).filt < n) (h4 : 4 ≤ n) (hw : (chSt s c).wire = false) :
    wireFault c p n s = declareFault c (event 0x0403 c (onChan c (fun x => { x with wire := true }) s)) := by
  simp [wireFault, hl, hb, hp, hf, h4, hw]

theorem sincosAmpFault_of_eight {c : Nat} {s : State} (hl : chanLive s c = true) (hs : isSincos s c = true)
    (h8 : 8 ≤ (chSt s c).ampRun) (ha : (chSt s c).amp = false) :
    sincosAmpFault c s = declareFault c (event 0x0407 c (onChan c (fun x => { x with amp := true }) s)) := by
  simp [sincosAmpFault, hl, hs, h8, ha]

/-- The condition of a channel after 1 ms of good signals. -/
def conditionCleared (amplitude : Bool) (x : ChanSt) : ChanSt :=
  if amplitude then { x with amp := x.amp && x.ampRun != 0 } else { x with wire := false }

theorem axioConditionClear_of_good {c h : Nat} {k : Bool} {s : State} (hh : 1000000 ≤ h) :
    axioConditionClear c k h s = onChan c (conditionCleared k) s := if_neg (Nat.not_lt.2 hh)

/-- FAULT stands against a write: a condition stands, the group is enabled for motion, or the fault is of this tick. -/
def faultStands (s : State) (c : Nat) : Prop :=
  (chSt s c).wire = true ∨ (chSt s c).amp = true ∨ chanEnabled s c = true ∨ (chSt s c).faultTick = some s.time.tickno

theorem feedbackFaultClear_of_stands {c : Nat} {s : State} (hm : c < maxChans s.fuse.variant) (h : faultStands s c) :
    feedbackFaultClear c s = acked s := by
  rw [feedbackFaultClear, chanAccess_of_present hm]
  refine congrArg acked (if_pos ?_)
  simpa [faultStands, or_assoc] using h

theorem feedbackFaultClear_of_clear {c : Nat} {s : State} (hm : c < maxChans s.fuse.variant) (h : ¬ faultStands s c) :
    feedbackFaultClear c s = acked (onChan c (fun x => { x with fault := false, faultTick := none }) s) := by
  rw [feedbackFaultClear, chanAccess_of_present hm]
  refine congrArg acked (if_neg ?_)
  simpa [faultStands, or_assoc] using h

/-- Settles O9: a sample counts a place on or back, counts an error for a jump of two, or leaves the channel; each command on the
feedback's fault is one update of the channel, with the events of the fault. -/
theorem encoderFeedback : Obligations.EncoderFeedback := by
  refine ⟨fun c ha hb a b s hu hl hc hq h k hd => ?_, fun c ha hb s hu hl hc hq h k => ?_,
    fun c ha hb a b s hu hl hc hq h k => ?_, fun c p s hl => runIn_of_unchanged (quadEdge_of_absent hl),
    fun c p n s hu hl hc hfb hp hf h4 hw => ?_, fun c s hu hl hc hs h8 hamp => ?_, fun c h k s hu hc hh => ?_,
    fun c s hr hm hc hw ha he ht => ?_, fun c s hr hm h => ?_,
    fun c s hr hm => by
      obtain ⟨t, hrun, h⟩ := run_chanAccess_of_absent rfl hm
      exact ⟨t, (runAcc_of_running hr).trans hrun, h⟩⟩
  · obtain hd | hd := hd
    · obtain ⟨t, hrun, hcount, hsingle, hdir, hkept⟩ := run_quadEdge_of_edge (up := true) hc hl hq h k hd
      simp only [hd, if_true]
      exact ⟨t, (runIn_of_up hu).trans hrun, hcount, hsingle, by simp [hdir], hkept⟩
    · obtain ⟨t, hrun, hcount, hsingle, hdir, hkept⟩ := run_quadEdge_of_edge (up := false) hc hl hq h k hd
      simp only [hd]
      exact ⟨t, (runIn_of_up hu).trans hrun, hcount, hsingle, by simp [hdir], hkept⟩
  · obtain ⟨t, hrun, hch, hkept⟩ :=
      run_quadError ((quadEdge_of_held hl hq h k).trans (quadSample_of_jump (quadPlace_not _ _))) hc
    exact ⟨t, (runIn_of_up hu).trans hrun, by rw [hch]; rfl, by rw [hch]; rfl, by rw [hch]; rfl, hkept⟩
  · obtain ⟨t, hrun, h⟩ := run_onChan (quadEdge_of_short hl hq h k) hc
    exact ⟨t, (runIn_of_up hu).trans hrun, h⟩
  · obtain ⟨t, hrun, hch, hkept⟩ := run_declareFault (wireFault_of_long hl hfb hp hf h4 hw) hc
    refine ⟨t, (runIn_of_up hu).trans hrun, ?_, ?_, ?_, ?_, ?_, hkept⟩ <;> rw [hch] <;> rfl
  · obtain ⟨t, hrun, hch, hkept⟩ := run_declareFault (sincosAmpFault_of_eight hl hs h8 hamp) hc
    refine ⟨t, (runIn_of_up hu).trans hrun, ?_, ?_, ?_, ?_, hkept⟩ <;> rw [hch] <;> rfl
  · obtain ⟨t, hrun, hch, hkept⟩ := run_onChan (axioConditionClear_of_good hh) hc
    refine ⟨t, (runIn_of_up hu).trans hrun, fun hk h0 => ?_, fun hk => ?_, ?_, hkept⟩ <;> rw [hch]
    · simp [conditionCleared, hk, h0]
    · simp [conditionCleared, hk]
    · unfold conditionCleared
      split <;> rfl
  · have hclear : ¬ faultStands s c := by simp [faultStands, hw, ha, he, ht]
    obtain ⟨t, hrun, hch, hkept⟩ := run_acked_onChan (feedbackFaultClear_of_clear hm hclear) hc
    exact ⟨t, (runAcc_of_running hr).trans hrun, by rw [hch], hkept⟩
  · exact (runAcc_of_running hr).trans (run_of_quiet (feedbackFaultClear_of_stands hm h) ⟨rfl, rfl, rfl⟩)

end Sys2Proof.Machine

/-! PROOF. DirectionOfCounts: the samples that count a line and those that count nothing, of either kind of signal, and O10. -/

namespace Sys2Proof.Machine

/-! ### A conversion of a sine and cosine channel (R176) -/

/-- The quadrant of a conversion. -/
def quadrantOf (f : ChanCfg) (y x : Int) : Nat := scPlace (0 ≤ (scCorrect f y x).1) (0 ≤ (scCorrect f y x).2)

/-- What a conversion leaves of the signal: its quadrant, its corrected values and how its radius is judged. -/
def converted (f : ChanCfg) (y x : Int) (z : ChanSt) : ChanSt :=
  { z with
    quad := quadrantOf f y x, scS := (scCorrect f y x).1, scC := (scCorrect f y x).2,
    rlow := min z.rlow (scRadius f (scCorrect f y x).1 (scCorrect f y x).2),
    ampRun := if scRadius f (scCorrect f y x).1 (scCorrect f y x).2 < f.rmin ∨
        f.rmax < scRadius f (scCorrect f y x).1 (scCorrect f y x).2 then min 8 (z.ampRun + 1) else 0 }

section
variable {c : Nat} {y x : Int} {s : State}

theorem scSample_eq (c : Nat) (y x : Int) (s : State) : scSample c y x s =
    if (quadrantOf (chanCfg s c) y x + 4 - (chSt s c).quad) % 4 = 2 then
      quadError c (onChan c (converted (chanCfg s c) y x) s)
    else if (quadrantOf (chanCfg s c) y x + 4 - (chSt s c).quad) % 4 = 1 ∧ quadrantOf (chanCfg s c) y x = 0 then
      countBy c 1 (onChan c (converted (chanCfg s c) y x) s)
    else if (quadrantOf (chanCfg s c) y x + 4 - (chSt s c).quad) % 4 = 3 ∧ quadrantOf (chanCfg s c) y x = 3 then
      countBy c (-1) (onChan c (converted (chanCfg s c) y x) s)
    else onChan c (converted (chanCfg s c) y x) s := by
  simp only [scSample, Bool.and_eq_true, Bool.or_eq_true, decide_eq_true_eq]
  rfl

/-- A line ends where the quadrant passes between 3 and 0. -/
theorem scSample_of_line {up : Bool} (hd : (quadrantOf (chanCfg s c) y x + 4 - (chSt s c).quad) % 4 = if up then 1 else 3)
    (hp : quadrantOf (chanCfg s c) y x = if up then 0 else 3) :
    scSample c y x s = countBy c (if up then 1 else -1) (onChan c (converted (chanCfg s c) y x) s) := by
  rw [scSample_eq, hd, hp]
  cases up <;> rfl

theorem quadEdge_of_conversion (hl : chanLive s c = true) (hs : isSincos s c = true) :
    quadEdge c (.conversion y x) s = scSample c y x s := by
  simp [quadEdge, hl, hs]

end

/-! ### Samples that count, and samples that do not (R155, R160) -/

section
variable {c : Nat} {s : State}

theorem run_quadEdge_of_line {p : ChanSample} {up : Bool} {g : ChanSt → ChanSt} (hc : c < s.axio.length)
    (hx : quadEdge c p s = countBy c (if up then 1 else -1) (onChan c g s)) (hg : ∀ x, (g x).counting = x.counting) :
    ∃ t, run (quadEdge c p) s = .next t ∧ (chSt t c).dir = up ∧
      (chSt t c).dircnt = (if (chSt s c).dir = up then (chSt s c).dircnt else min 0xFFFF ((chSt s c).dircnt + 1)) ∧
      ((chSt s c).dir ≠ up → (chSt s c).dirie = true → s.chip.once.contains (0x0404, c) = false →
        logged 0x0404 c s t ∧ t.chip.once.contains (0x0404, c) = true) ∧
      ((chSt s c).dir = up ∨ (chSt s c).dirie = false ∨ s.chip.once.contains (0x0404, c) = true → quiet s t) ∧
      onlyAt c s.axio t.axio ∧ only [.chip, .axio] s t := by
  obtain ⟨t, hrun, hch, hkept⟩ := run_countBy hx hg hc
  have hkeep := hg (chSt s c)
  simp only [ChanSt.counting, Prod.mk.injEq] at hkeep
  obtain ⟨-, -, hdir, hdircnt, -⟩ := hkeep
  refine ⟨t, hrun, by rw [hch]; rfl, ?_, hkept⟩
  rw [hch, lineCounted, hdir, hdircnt]
  rfl

/-- A sample counts nothing: it leaves the counts and DIR, and is at most an error. -/
def CountsNothing (c : Nat) (p : ChanSample) (s : State) : Prop :=
  ∃ g : ChanSt → ChanSt, (∀ x, (g x).counting = x.counting) ∧
    (quadEdge c p s = onChan c g s ∨ quadEdge c p s = quadError c (onChan c g s))

theorem countsNothing_of_unchanged {p : ChanSample} (h : quadEdge c p s = s) : CountsNothing c p s :=
  ⟨fun x => x, fun _ => rfl, .inl (h.trans (onChan_id c s).symm)⟩

theorem countsNothing_of_levels {a b : Bool} {ha hb : Nat} (hl : chanLive s c = true) (hq : isQuad s c = true)
    (h : (chanCfg s c).filt ≤ ha) (k : (chanCfg s c).filt ≤ hb)
    (hd : (quadPlace a b + 4 - quadPlace (chSt s c).lvA (chSt s c).lvB) % 2 = 0) : CountsNothing c (.levels a b ha hb) s := by
  refine ⟨sampled a b, fun _ => rfl, ?_⟩
  rw [quadEdge_of_held hl hq h k]
  obtain h0 | h2 : (quadPlace a b + 4 - quadPlace (chSt s c).lvA (chSt s c).lvB) % 4 = 0 ∨
      (quadPlace a b + 4 - quadPlace (chSt s c).lvA (chSt s c).lvB) % 4 = 2 := by omega
  · exact .inl (quadSample_of_stay h0)
  · exact .inr (quadSample_of_jump h2)

theorem countsNothing_of_conversion {y x : Int} (hl : chanLive s c = true) (hs : isSincos s c = true)
    (hd : (quadrantOf (chanCfg s c) y x + 4 - (chSt s c).quad) % 2 = 0) : CountsNothing c (.conversion y x) s := by
  refine ⟨converted (chanCfg s c) y x, fun _ => rfl, ?_⟩
  rw [quadEdge_of_conversion hl hs, scSample_eq]
  obtain h0 | h2 : (quadrantOf (chanCfg s c) y x + 4 - (chSt s c).quad) % 4 = 0 ∨
      (quadrantOf (chanCfg s c) y x + 4 - (chSt s c).quad) % 4 = 2 := by omega
  · exact .inl (by simp [h0])
  · exact .inr (if_pos h2)

theorem run_quadEdge_of_nothing {p : ChanSample} (h : CountsNothing c p s) (hc : c < s.axio.length) :
    ∃ t, run (quadEdge c p) s = .next t ∧ (chSt t c).dir = (chSt s c).dir ∧ (chSt t c).dircnt = (chSt s c).dircnt ∧
      (chSt t c).count = (chSt s c).count ∧ onlyAt c s.axio t.axio ∧ only [.chip, .axio] s t := by
  obtain ⟨g, hg, hx⟩ := h
  have hkeep := hg (chSt s c)
  simp only [ChanSt.counting, Prod.mk.injEq] at hkeep
  obtain ⟨hcount, -, hdir, hdircnt, -⟩ := hkeep
  obtain hx | hx := hx
  · obtain ⟨t, hrun, hch, hat, -, honly⟩ := run_onChan hx hc
    exact ⟨t, hrun, by rw [hch, hdir], by rw [hch, hdircnt], by rw [hch, hcount], hat, only_mono (by decide) honly⟩
  · obtain ⟨t, hrun, hch, hkept⟩ := run_quadError hx hc
    exact ⟨t, hrun, by rw [hch, ← hdir]; rfl, by rw [hch, ← hdircnt]; rfl, by rw [hch, ← hcount]; rfl, hkept⟩

end

/-- Settles O10: levels one place on or back and a quadrant that passes a line count alike, by `run_countBy`; levels and quadrants
an even number of places on count nothing. -/
theorem directionOfCounts : Obligations.DirectionOfCounts := by
  refine ⟨fun c p up s hu hl hc h => ?_, fun c p s hu hl hc h => ?_⟩
  · obtain ⟨a, b, ha, hb, rfl, hq, hfa, hfb, hd⟩ | ⟨y, x, rfl, hs, hd, hp⟩ := h
    · obtain ⟨t, hrun, hkept⟩ :=
        run_quadEdge_of_line hc ((quadEdge_of_held hl hq hfa hfb).trans (quadSample_of_edge hd)) fun _ => rfl
      exact ⟨t, (runIn_of_up hu).trans hrun, hkept⟩
    · obtain ⟨t, hrun, hkept⟩ :=
        run_quadEdge_of_line hc ((quadEdge_of_conversion hl hs).trans (scSample_of_line hd hp)) fun _ => rfl
      exact ⟨t, (runIn_of_up hu).trans hrun, hkept⟩
  · have hnothing : CountsNothing c p s := by
      obtain ⟨a, b, ha, hb, rfl, hq | ⟨hfa, hfb, hd⟩⟩ | ⟨y, x, rfl, hs | hd⟩ := h
      · exact countsNothing_of_unchanged (by simp [quadEdge, hq])
      · by_cases hq : isQuad s c = true
        · exact countsNothing_of_levels hl hq hfa hfb hd
        · exact countsNothing_of_unchanged (by simp [quadEdge, hq])
      · exact countsNothing_of_unchanged (by simp [quadEdge, hs])
      · by_cases hs : isSincos s c = true
        · exact countsNothing_of_conversion hl hs hd
        · exact countsNothing_of_unchanged (by simp [quadEdge, hs])
    obtain ⟨t, hrun, hkept⟩ := run_quadEdge_of_nothing hnothing hc
    exact ⟨t, (runIn_of_up hu).trans hrun, hkept⟩

end Sys2Proof.Machine

/-! PROOF. IndexEvents: what an index of a channel latches, and O11. -/

namespace Sys2Proof.Machine

/-! ### The index (R161) -/

/-- The multi-turn count has been latched at an index. -/
def indexLatched (x : ChanSt) : ChanSt := { x with idx := true, idxVal := x.count }

/-- With ZGATE 1 an index counts only while A and B are both 1. -/
def indexOpen (s : State) (c : Nat) : Prop :=
  (chanCfg s c).zgate = false ∨ (chSt s c).lvA = true ∧ (chSt s c).lvB = true

section
variable {c h : Nat} {s : State}

theorem indexEvent_of_open (hl : chanLive s c = true) (hb : hasFb s c = true) (hf : (chanCfg s c).filt ≤ h)
    (ho : indexOpen s c) : indexEvent c h s = eventOnce 0x0406 c c (onChan c indexLatched s) := by
  have hgate : (chanCfg s c).zgate = true → (chSt s c).lvA = true ∧ (chSt s c).lvB = true := by
    obtain hz | hab := ho
    · simp [hz]
    · exact fun _ => hab
  refine if_neg ?_
  simpa [hl, hb, Nat.not_lt.2 hf] using hgate

theorem indexEvent_of_none (hn : hasFb s c = false ∨ h < (chanCfg s c).filt ∨ ¬ indexOpen s c) : indexEvent c h s = s := by
  refine if_pos ?_
  obtain hb | hf | ho := hn
  · simp [hb]
  · simp [hf]
  · simp only [indexOpen, not_or, not_and, Bool.not_eq_true, Bool.not_eq_false] at ho
    obtain ⟨hz, hab⟩ := ho
    cases ha : (chSt s c).lvA <;> simp_all

end

/-- Settles O11: an index that its gate lets pass is one update of the channel with an event of the tick; any other is no event. -/
theorem indexEvents : Obligations.IndexEvents := by
  refine ⟨fun c h s hu hl hc hb hf ho => ?_, fun c h s hn => runIn_of_unchanged (indexEvent_of_none ?_)⟩
  · obtain ⟨t, hrun, hkept⟩ := run_eventOnce_onChan (indexEvent_of_open hl hb hf ho) hc
    exact ⟨t, (runIn_of_up hu).trans hrun, hkept⟩
  · refine hn.imp_right (Or.imp_right fun ⟨hz, hab⟩ ho => ?_)
    obtain hz' | ⟨ha, hb⟩ := ho
    · simp [hz] at hz'
    · simp [ha, hb] at hab

end Sys2Proof.Machine

/-! PROOF. ChannelInputsAndHoming: the compare unit, the inputs, the step pulses, a stall and the homing of a channel, and O12. -/

namespace Sys2Proof.Machine

/-! ### The compare unit (R162 to R164) -/

/-- The unit has been armed with a value. -/
def armedWith (v : Int) (cdir : Nat) (passed behind : Bool) (x : ChanSt) : ChanSt :=
  { x with cmp := v, cdir := cdir, passed := passed, behind := behind, arm := true, lastCount := x.count }

/-- The last sample has crossed the value of an armed unit. -/
def fireIsDue (x : ChanSt) : Bool := x.arm && crossing x.cdir x.lastCount x.count x.cmp

/-- A unit whose crossing is due has fired. -/
def firedIfDue (x : ChanSt) : ChanSt := if fireIsDue x then fireCompare x else x

section
variable {c d : Nat} {p : Bool} {s : State}

theorem compareArm_eq (hl : chanLive s c = true) (hf : cmpFromList s c = false) :
    compareArm c d p s = acked (armCompare c (chSt s c).cmpPend.toInt (d % 4) p s) := by
  rw [compareArm, chanAccess_of_present (chanLive_present hl)]
  simp [hl, hf]

theorem armCompare_of_ahead {v : Int} (h : isBehind d (chSt s c).count v = false) :
    armCompare c v d p s = onChan c (armedWith v d p false) s := by
  simp only [armCompare, h]
  rfl

theorem armCompare_of_behind {v : Int} (h : isBehind d (chSt s c).count v = true) : armCompare c v d p s =
    event 0x0410 c (onChan c (fun x => if p then fireCompare (armedWith v d p true x) else armedWith v d p true x) s) := by
  simp only [armCompare, h]
  rfl

theorem fireDue_eq (c : Nat) (s : State) : fireDue c s = onChan c firedIfDue s := by
  cases h : fireIsDue (chSt s c)
  · have hkeep : onChan c firedIfDue s = onChan c (fun x => x) s := onChan_congr (by simp [firedIfDue, h])
    rw [hkeep, onChan_id]
    exact if_neg (Bool.eq_false_iff.1 h)
  · have hfire : onChan c firedIfDue s = onChan c fireCompare s := onChan_congr (by simp [firedIfDue, h])
    rw [hfire]
    exact if_pos h

theorem compareDisarm_eq (hm : c < maxChans s.fuse.variant) (hf : cmpFromList s c = false) :
    compareDisarm c s = acked (onChan c (fun x => { firedIfDue x with arm := false }) s) := by
  rw [compareDisarm, chanAccess_of_present hm, hf, if_neg Bool.false_ne_true, fireDue_eq, onChan_onChan]

theorem fireDue_of_idle (h : (chSt s c).arm = false) : fireDue c s = s := by
  simp [fireDue, h]

end

/-! ### The inputs (R166 to R168) -/

/-- The filtered view of an input has taken a level. -/
def filteredTo (i : Nat) (act : Bool) (x : ChanSt) : ChanSt := { x with filtIn := updAt x.filtIn i (fun _ => act) }

/-- The debounced view of an input has taken a level that has held for long enough. -/
def settledTo (long : Bool) (i : Nat) (act : Bool) (x : ChanSt) : ChanSt :=
  if long && debounced x i != act then setDebounced i act x else x

theorem debounced_setDebounced (i : Nat) (act : Bool) (x : ChanSt) : debounced (setDebounced i act x) i = act :=
  match i with
  | 0 => rfl
  | 1 => rfl
  | _ + 2 => rfl

theorem debounced_settledTo (i : Nat) (act : Bool) (x : ChanSt) : debounced (settledTo true i act x) i = act := by
  unfold settledTo
  split
  · exact debounced_setDebounced i act x
  · simp_all

/-- A level of an input changes neither CHAT nor BUSY. -/
theorem settledTo_keeps (long : Bool) (i : Nat) (act : Bool) (x : ChanSt) :
    (settledTo long i act x).chat = x.chat ∧ (settledTo long i act x).busy = x.busy := by
  have hset : (setDebounced i act x).chat = x.chat ∧ (setDebounced i act x).busy = x.busy := by
    unfold setDebounced
    split <;> exact ⟨rfl, rfl⟩
  unfold settledTo
  split
  · exact hset
  · exact ⟨rfl, rfl⟩

/-- The transitions within the window before an instant, with the one at it (R168). -/
def recentTrans (s : State) (c i n : Nat) : List Nat :=
  (nth (chSt s c).trans i).filter (fun t => n < t + (chanCfg s c).chw * 1000000) ++ [n]

/-- CHAT stands for the transitions of an input, from an instant on. -/
def chattering (i n : Nat) (l : List Nat) (x : ChanSt) : ChanSt :=
  { x with trans := updAt x.trans i (fun _ => l), chat := true, chatAt := updAt x.chatAt i (fun _ => some n) }

section
variable {c i h n : Nat} {l : Bool} {s : State}

theorem homeConfirm_of_idle (hb : (chSt s c).busy = false) : homeConfirm c i s = s := by
  simp [homeConfirm, hb]

/-- CHN transitions of an input in a window that no chatter has opened, while the channel is not homing. -/
theorem chatter_of_many (hc : c < s.axio.length) (hl : (chanCfg s c).chn ≤ (recentTrans s c i n).length)
    (hn : nth (chSt s c).chatAt i = none) (hb : (chSt s c).busy = false) :
    chatter c i n s = event 0x0421 c (onChan c (chattering i n (recentTrans s c i n)) s) := by
  unfold chatter
  extract_lets f w l s1 quiet s2 s3
  have hl' : l = recentTrans s c i n := rfl
  have hs1 : s1 = onChan c (fun x => { x with trans := updAt x.trans i (fun _ => l) }) s := rfl
  have hquiet : quiet = true := by
    simp only [quiet, hs1, chSt_onChan hc, hn]
  have hs3 : s3 = event 0x0421 c (onChan c (chattering i n l) s) := by
    simp only [s3, s2, hquiet, if_true, hs1, onChan_onChan]
    rfl
  have hb3 : (chSt s3 c).busy = false := by
    rw [hs3]
    exact (congrArg ChanSt.busy (chSt_onChan hc _)).trans hb
  rw [if_neg (Nat.not_lt.2 (hl' ▸ hl)), if_neg (Bool.eq_false_iff.1 hb3), hs3, hl']

/-- A level makes the input active, with its polarity. -/
def inputActive (s : State) (c i : Nat) (l : Bool) : Bool := l != hasBit (chanCfg s c).lpol (2 - i)

/-- The filtered view has taken a level at the instant FILT samples after its edge, and a transition may be chatter. -/
def afterFilter (c i : Nat) (l : Bool) (h n : Nat) (s : State) : State :=
  if nth (chSt s c).filtIn i != inputActive s c i l then
    chatter c i (n - h + 5 * (chanCfg s c).filt) (onChan c (filteredTo i (inputActive s c i l)) s)
  else onChan c (filteredTo i (inputActive s c i l)) s

theorem afterFilter_of_same (h' : nth (chSt s c).filtIn i = inputActive s c i l) :
    afterFilter c i l h n s = onChan c (filteredTo i (inputActive s c i l)) s := by
  simp [afterFilter, h']

theorem afterFilter_of_chatter (hc : c < s.axio.length) (hnew : nth (chSt s c).filtIn i ≠ inputActive s c i l)
    (hl : (chanCfg s c).chn ≤ (recentTrans s c i (n - h + 5 * (chanCfg s c).filt)).length)
    (hn : nth (chSt s c).chatAt i = none) (hb : (chSt s c).busy = false) :
    ∃ g : ChanSt → ChanSt, afterFilter c i l h n s = event 0x0421 c (onChan c g s) ∧
      (∀ x, (g x).chat = true ∧ (g x).busy = x.busy) := by
  have hx : chSt (onChan c (filteredTo i (inputActive s c i l)) s) c = filteredTo i (inputActive s c i l) (chSt s c) :=
    chSt_onChan hc _
  have htrans (m : Nat) : recentTrans (onChan c (filteredTo i (inputActive s c i l)) s) c i m = recentTrans s c i m := by
    simp only [recentTrans, hx]
    rfl
  refine ⟨fun x => chattering i (n - h + 5 * (chanCfg s c).filt) (recentTrans s c i (n - h + 5 * (chanCfg s c).filt))
    (filteredTo i (inputActive s c i l) x), ?_, fun _ => ⟨rfl, rfl⟩⟩
  rw [afterFilter, if_pos (by simpa using hnew), chatter_of_many (by simpa using hc) (by rw [htrans]; exact hl)
    (by rw [hx]; exact hn) (by rw [hx]; exact hb), htrans, onChan_onChan]

/-- A level that has held for FILT samples at a channel that is not homing: after the filtered view the debounced view takes it,
where it has held DEB µs longer. -/
theorem limitInputChange_of_held (hlive : chanLive s c = true) (hi : i ≤ 2) (hf : 5 * (chanCfg s c).filt ≤ h)
    (hc : c < (afterFilter c i l h n s).axio.length) (hb : (chSt (afterFilter c i l h n s) c).busy = false) :
    limitInputChange c i l h n s =
      onChan c (settledTo (5 * (chanCfg s c).filt + 1000 * (chanCfg s c).deb ≤ h) i (inputActive s c i l))
        (afterFilter c i l h n s) := by
  rw [limitInputChange, hlive, if_neg (by simpa using hi)]
  extract_lets f act new s1 s2 rises s3 s4
  have hs2 : s2 = afterFilter c i l h n s := rfl
  have hs3 : s3 = onChan c (settledTo (5 * (chanCfg s c).filt + 1000 * (chanCfg s c).deb ≤ h) i act) s2 := by
    cases hr : rises
    · have hkeep : onChan c (settledTo (5 * (chanCfg s c).filt + 1000 * (chanCfg s c).deb ≤ h) i act) s2 =
          onChan c (fun x => x) s2 := onChan_congr (if_neg (Bool.eq_false_iff.1 hr))
      rw [hkeep, onChan_id]
      exact if_neg (Bool.eq_false_iff.1 hr)
    · have hset : onChan c (settledTo (5 * (chanCfg s c).filt + 1000 * (chanCfg s c).deb ≤ h) i act) s2 =
          onChan c (setDebounced i act) s2 := onChan_congr (if_pos hr)
      rw [hset]
      exact if_pos hr
  have hb3 : (chSt s3 c).busy = false := by
    rw [hs3, chSt_onChan (s := s2) hc, (settledTo_keeps ..).2]
    exact hb
  have hs4 : s4 = s3 := homeConfirm_of_idle hb3
  have hlimit : ¬ (rises && (chSt s4 c).busy && act && decide (i < 2)) = true := by simp [hs4, hb3]
  exact (if_neg (Nat.not_lt.2 hf)).trans ((if_neg hlimit).trans (hs4.trans hs3))

theorem limitInputChange_of_short (h' : h < 5 * (chanCfg s c).filt) : limitInputChange c i l h n s = s := by
  simp [limitInputChange, h']

end

/-! ### Step pulses (R171) and a stall (R175) -/

/-- A pulse has left. -/
def pulsed (up : Bool) (q : List (Nat × Bool)) (x : ChanSt) : ChanSt :=
  { x with sched := q, stepOut := true, stepDir := up, lastDir := up, issued := x.issued + if up then 1 else -1 }

theorem stepPulse_of_scheduled {c e : Nat} {up : Bool} {q : List (Nat × Bool)} {s : State}
    (h : (chSt s c).sched = (e, up) :: q) : stepPulse c s = onChan c (pulsed up q) s :=
  onChan_congr (by simp only [h]; rfl)

/-- A stalled channel stops its groups and loses its reference. -/
theorem run_stallDetect {c : Nat} {s : State} (hl : chanLive s c = true) (hc : c < s.axio.length)
    (hst : (chSt s c).stalled = true) : ∃ t, run (stallDetect c) s = .next t ∧ (chSt t c).refd = false ∧
      (∀ g, hasBit (groupsOfChan s c) g = true → g < s.saf.g.length → hasBit (safG t g).stopReq 13 = true) ∧
      logged 0x0431 c s t ∧ onlyAt c s.axio t.axio ∧ only [.chip, .axio, .saf] s t := by
  have hx : stallDetect c s = onSaf (fun x => { x with g := updMask (groupsOfChan s c) (wantStop 13) x.g })
      (event 0x0431 c (onChan c (fun x => { x with refd := false, stalled := false }) s)) := by
    rw [stallDetect, hl, hst, ← demandStop_eq]
    rfl
  have hlog : logged 0x0431 c s (event 0x0431 c (onChan c (fun x => { x with refd := false, stalled := false }) s)) :=
    logged_event ⟨rfl, rfl, rfl⟩ rfl
  refine ⟨_, run_of_logged hx hlog, ?_, fun g hg hlen => ?_, hlog, onlyAt_updAt _ _ _, by simp⟩
  · exact congrArg ChanSt.refd (chSt_onChan hc _)
  · simp [safG, nth_updMask, hg, hlen, hasBit_wantStop]

/-! ### Homing (R169, R170) -/

/-- The same update of axes leaves all of MOT but the table of axes. -/
theorem forAll_onAxis (l : List Nat) (f : AxisSt → AxisSt) (s : State) :
    ∃ as, forAll l (fun a => onAxis a f) s = { s with mot := { s.mot with axes := as } } := by
  induction l generalizing s with
  | nil => exact ⟨s.mot.axes, rfl⟩
  | cons a l ih =>
    obtain ⟨as, h⟩ := ih (onAxis a f s)
    exact ⟨as, h⟩

theorem only_axes (as : List AxisSt) (s : State) : only [.mot] s { s with mot := { s.mot with axes := as } } := by
  rintro ⟨⟩ <;> simp [Part.same]

/-- The search of a channel has begun. -/
def homingBegun (f : ChanCfg) (x : ChanSt) : ChanSt :=
  { x with
    busy := true, hres := 0, hdir := f.hdir, hrev := false, hstop := false, refd := false, hlatch := none, hconf := true,
    hphase := (if f.hmode = 4 then 2 else 1), hidxFrom := x.count }

/-- The count has been latched at the target of mode m, input i. -/
def targetLatched (m i : Nat) (x : ChanSt) : ChanSt :=
  { x with
    hlatch := some x.count, hidxFrom := x.count, hconf := debounced x i,
    hphase := (if m = 1 then 4 else if m = 2 then 2 else 3), hdir := (if m = 3 then !x.hdir else x.hdir) }

/-- Homing has failed with a result. -/
def homingFailed (res : Nat) (x : ChanSt) : ChanSt :=
  { x with busy := false, hres := res, hphase := 0, hstop := true, hlatch := none }

/-- Homing has set the offset. -/
def homed (ofs : Int) (sh : Pos) (x : ChanSt) : ChanSt :=
  { x with
    hofs := ofs, pos := x.pos + sh, refd := true, hres := 1, busy := false, hphase := 0, refj := true, hlatch := none }

section
variable {c : Nat} {s : State}

theorem homingStart_of_ready (hl : chanLive s c = true) (hb : (chSt s c).busy = false) (h1 : 1 ≤ (chanCfg s c).hmode)
    (h4 : (chanCfg s c).hmode ≤ 4) (he : nodeMode s = true ∨ chanEnabled s c = true) : ∃ as, homingStart c s =
      acked { onChan c (homingBegun (chanCfg s c)) s with mot := { s.mot with axes := as } } := by
  obtain ⟨as, has⟩ := forAll_onAxis (axesFrom (onChan c (homingBegun (chanCfg s c)) s) c)
    (fun x => { x with homing := true }) (onChan c (homingBegun (chanCfg s c)) s)
  refine ⟨as, ?_⟩
  have hopen : ¬ ((chanCfg s c).hmode = 0 ∨ 4 < (chanCfg s c).hmode ∨ ¬ (nodeMode s = true ∨ chanEnabled s c = true)) := by
    simp only [he, not_true_eq_false, or_false]
    omega
  rw [homingStart, chanAccess_of_present (chanLive_present hl), hl, hb]
  refine congrArg acked ((if_neg (by decide)).trans ((if_neg ?_).trans has))
  simpa [or_assoc] using hopen

theorem homingStart_of_refused (hl : chanLive s c = true) (hb : (chSt s c).busy = false)
    (h : (chanCfg s c).hmode = 0 ∨ 4 < (chanCfg s c).hmode ∨ nodeMode s = false ∧ chanEnabled s c = false) :
    homingStart c s = acked (onChan c (fun x => { x with hres := 6 }) s) := by
  rw [homingStart, chanAccess_of_present (chanLive_present hl), hl, hb]
  refine congrArg acked ((if_neg (by decide)).trans (if_pos ?_))
  simpa [or_assoc] using h

theorem homeTargetEdge_of_target (hb : (chSt s c).busy = true) (hp : (chSt s c).hphase = 1)
    (ht : nth (chSt s c).filtIn (targetInput s c) = true) :
    homeTargetEdge c false s = onChan c (targetLatched (chanCfg s c).hmode (targetInput s c)) s := by
  simp only [homeTargetEdge, hb, hp, ht]
  rfl

theorem homeTargetEdge_of_index (hb : (chSt s c).busy = true) (hp : (chSt s c).hphase = 2 ∨ (chSt s c).hphase = 3) :
    homeTargetEdge c true s = onChan c (fun x => { x with hlatch := some x.count, hphase := 4 }) s := by
  obtain hp | hp := hp <;> simp [homeTargetEdge, hb, hp]

theorem homingNoIndex_of_far (hb : (chSt s c).busy = true) (hp : (chSt s c).hphase = 2 ∨ (chSt s c).hphase = 3)
    (hf : cprOf s c + 4 < ((chSt s c).count - (chSt s c).hidxFrom).natAbs) :
    homingNoIndex c s = event 0x0423 c (onChan c (homingFailed 4) s) := by
  refine if_pos ?_
  simp [hb, hp, hf]

/-- The step generators of channel c have shifted with a new offset. -/
def stepsShifted (s : State) (c : Nat) (ofs : Int) : State := forAll (stepsFrom s c) (shiftSteps (ofs - (chSt s c).hofs)) s

/-- The positions of an axis have shifted with the offset of its channel. -/
def axisShifted (sh : Pos) (y : AxisSt) : AxisSt :=
  { y with
    ref := y.ref + sh, refPrev := y.refPrev + sh, refOld := y.refOld + sh, spt := y.spt + sh, fb := y.fb + sh,
    fbPrev := y.fbPrev + sh, homing := false, reinit := false }

/-- Channel c has taken its offset, after its step generators. -/
def homedAt (s : State) (c : Nat) (ofs : Int) : State :=
  event 0x0422 c (onChan c (homed ofs (posOf ((ofs - (chSt s c).hofs) * 16777216))) (stepsShifted s c ofs))

theorem homingComplete_of_rest {l : Int} (hl : (chSt s c).hlatch = some l) (hb : (chSt s c).busy = true)
    (hp : (chSt s c).hphase = 4) (hf : (chSt s c).hconf = true) (hr : atRest s c = true) :
    ∃ as, homingComplete c s = { homedAt s c (wrap64 ((chanCfg s c).homepos.toInt - l)) with
      mot := { (homedAt s c (wrap64 ((chanCfg s c).homepos.toInt - l))).mot with axes := as } } := by
  simp only [homingComplete, hl, hb, hp, hf, hr]
  exact forAll_onAxis _ (axisShifted _) (homedAt s c (wrap64 ((chanCfg s c).homepos.toInt - l)))

theorem stepsShifted_length (s : State) (c : Nat) (ofs : Int) : (stepsShifted s c ofs).axio.length = s.axio.length :=
  forAll_same (P := fun t => t.axio.length) (fun _ _ => updAt_length _ _ _) _ s

theorem only_stepsShifted (s : State) (c : Nat) (ofs : Int) : only [.axio] s (stepsShifted s c ofs) :=
  (only_forAll fun _ _ => by simp [shiftSteps]).2 (only_refl _ s)

/-- Homing completes at rest: the step generators, the channel and its axes shift with the offset. -/
theorem run_homingComplete {l : Int} (hc : c < s.axio.length) (hl : (chSt s c).hlatch = some l) (hb : (chSt s c).busy = true)
    (hp : (chSt s c).hphase = 4) (hf : (chSt s c).hconf = true) (hr : atRest s c = true) :
    ∃ t x, run (homingComplete c) s = .next t ∧
      chSt t c = homed (wrap64 ((chanCfg s c).homepos.toInt - l))
        (posOf ((wrap64 ((chanCfg s c).homepos.toInt - l) - (chSt s c).hofs) * 16777216)) x ∧
      logged 0x0422 c s t ∧ only [.chip, .axio, .mot] s t := by
  obtain ⟨as, hx⟩ := homingComplete_of_rest hl hb hp hf hr
  have hu := only_stepsShifted s c (wrap64 ((chanCfg s c).homepos.toInt - l))
  have hlog : logged 0x0422 c s (homedAt s c (wrap64 ((chanCfg s c).homepos.toInt - l))) :=
    logged_event (quiet_of_chip (hu .chip (by decide))) (hu .time (by decide))
  refine ⟨_, _, run_of_logged hx hlog, chSt_onChan ?_ _, hlog, ?_⟩
  · rw [stepsShifted_length]
    exact hc
  · have hmot : only [.mot] (homedAt s c (wrap64 ((chanCfg s c).homepos.toInt - l))) _ := only_axes as _
    exact only_trans ((only_event (by decide)).2 ((only_onChan (by decide)).2 (only_mono (by decide) hu)))
      (only_mono (by decide) hmot)

end

/-! ### The clauses of O12 -/

/-- Homing that starts at a channel set up for it, in a group enabled for motion. -/
theorem run_homingStart_of_ready {c : Nat} {s : State} (hl : chanLive s c = true) (hc : c < s.axio.length)
    (hb : (chSt s c).busy = false) (h1 : 1 ≤ (chanCfg s c).hmode) (h4 : (chanCfg s c).hmode ≤ 4)
    (he : nodeMode s = true ∨ chanEnabled s c = true) : ∃ t, run (homingStart c) s = .next t ∧
      chSt t c = homingBegun (chanCfg s c) (chSt s c) ∧ t.chip.resp = .done ∧ onlyAt c s.axio t.axio ∧ quiet s t ∧
      only [.chip, .axio, .mot] s t := by
  obtain ⟨as, hx⟩ := homingStart_of_ready hl hb h1 h4 he
  have hmot : only [.mot] (onChan c (homingBegun (chanCfg s c)) s) _ := only_axes as _
  have hq : quiet s (homingStart c s) := by
    rw [hx]
    exact ⟨rfl, rfl, rfl⟩
  rw [hx] at hq
  refine ⟨_, run_of_quiet hx hq, chSt_onChan hc _, rfl, onlyAt_updAt _ _ _, hq, (only_acked (by decide)).2 ?_⟩
  exact only_trans ((only_onChan (by decide)).2 (only_refl _ s)) (only_mono (by decide) hmot)

/-- Settles O12: each command is one update of the channel, of the compare unit, an input, the pulses or the homing, with its event;
a stall stops the groups beside it, and homing shifts the axes beside it. -/
theorem channelInputsAndHoming : Obligations.ChannelInputsAndHoming := by
  refine ⟨fun c d p s hr hl hc hf hb => ?_, fun c d p s hr hl hc hf hb => ?_, fun c s hr hm hc hf => ?_,
    fun c s hu hc ha hx => ?_, fun c s ha => runIn_of_unchanged (fireDue_of_idle ha), fun c s hc => ?_,
    fun c d p s hr hm => ?_, fun c i h n l s hu hl hc hi hh hb hsame => ?_,
    fun c i h n l s hh => runIn_of_unchanged (limitInputChange_of_short hh),
    fun c i h n l s hu hl hc hi hh hnew hchn hat hb => ?_, fun c e up q s hu hc hq => ?_, fun c s hc => ?_,
    fun c s hu hl hc hst => ?_, fun c s hr hl hc hb h1 h4 he => ?_, fun c s hr hl hc hb h => ?_,
    fun c s hu hc hb hp ht => ?_, fun c s hu hc hb hp => ?_, fun c s hu hc hb hp hf => ?_,
    fun c l s hu hc hl hb hp hf hrest => ?_⟩
  · obtain ⟨t, hrun, hch, hkept⟩ :=
      run_acked_onChan ((compareArm_eq hl hf).trans (congrArg acked (armCompare_of_ahead hb))) hc
    refine ⟨t, (runAcc_of_running hr).trans hrun, ?_, ?_, ?_, ?_, hkept⟩ <;> rw [hch] <;> rfl
  · obtain ⟨t, hrun, hch, hkept⟩ :=
      run_acked_event_onChan ((compareArm_eq hl hf).trans (congrArg acked (armCompare_of_behind hb))) hc
    refine ⟨t, (runAcc_of_running hr).trans hrun, ?_, ?_, fun hp => ?_, hkept⟩ <;> rw [hch]
    · cases p <;> rfl
    · cases p <;> rfl
    · simp [hp, fireCompare]
  · obtain ⟨t, hrun, hch, hkept⟩ := run_acked_onChan (compareDisarm_eq hm hf) hc
    refine ⟨t, (runAcc_of_running hr).trans hrun, by rw [hch], fun ha hx => ?_, fun h => ?_, hkept⟩ <;> rw [hch]
    · simp [firedIfDue, fireIsDue, ha, hx, fireCompare]
    · obtain h | h := h <;> simp [firedIfDue, fireIsDue, h]
  · obtain ⟨t, hrun, hch, hkept⟩ := run_onChan (F := compareFire c) (fireDue_eq c s) hc
    have hdue : firedIfDue (chSt s c) = fireCompare (chSt s c) := if_pos (by simp [fireIsDue, ha, hx])
    exact ⟨t, (runIn_of_up hu).trans hrun, by rw [hch, hdue]; rfl, by rw [hch, hdue]; rfl, by rw [hch, hdue]; rfl, hkept⟩
  · obtain ⟨t, hrun, hch, hkept⟩ := run_onChan (F := onChan c fun x => { x with cmpOut := false }) rfl hc
    exact ⟨t, hrun, by rw [hch], by rw [hch], hkept⟩
  · have habsent {f g : State → State} (hx : f s = chanAccess true c g s) : ∃ t, runAcc .axio f s = .next t ∧
        logged 0x0101 0 s t ∧ t.chip.resp = .done ∧ only [.chip] s t := by
      rw [runAcc_of_running hr]
      exact run_chanAccess_of_absent hx hm
    exact ⟨habsent (f := compareArm c d p) rfl, habsent (f := compareDisarm c) rfl, habsent (f := homingStart c) rfl⟩
  · have hafter := afterFilter_of_same (h := h) (n := n) hsame
    have hx : limitInputChange c i l h n s = onChan c (fun x =>
        settledTo true i (inputActive s c i l) (filteredTo i (inputActive s c i l) x)) s := by
      rw [limitInputChange_of_held hl hi (by omega) (by simpa [hafter] using hc)
        (by rw [hafter, chSt_onChan hc]; exact hb), hafter, onChan_onChan, decide_eq_true hh]
    obtain ⟨t, hrun, hch, hkept⟩ := run_onChan hx hc
    have hview : debounced (chSt t c) i = inputActive s c i l := by
      rw [hch]
      exact debounced_settledTo ..
    exact ⟨t, (runIn_of_up hu).trans hrun, by rintro rfl; exact hview, by rintro rfl; exact hview, by rintro rfl; exact hview,
      by rw [hch]; exact (settledTo_keeps ..).1, hkept⟩
  · obtain ⟨g, hafter, hg⟩ := afterFilter_of_chatter (h := h) (n := n) hc hnew
      (by rw [recentTrans, List.length_append]; exact hchn) hat hb
    have hx : limitInputChange c i l h n s = event 0x0421 c (onChan c (fun x =>
        settledTo (5 * (chanCfg s c).filt + 1000 * (chanCfg s c).deb ≤ h) i (inputActive s c i l) (g x)) s) := by
      rw [limitInputChange_of_held hl hi hh (by simpa [hafter] using hc)
        (by rw [hafter]; exact (congrArg ChanSt.busy (chSt_onChan hc g)).trans ((hg _).2.trans hb)), hafter, onChan_event,
        onChan_onChan]
    obtain ⟨t, hrun, hch, hkept⟩ := run_event_onChan hx hc
    exact ⟨t, (runIn_of_up hu).trans hrun, by rw [hch, (settledTo_keeps ..).1, (hg _).1], hkept⟩
  · obtain ⟨t, hrun, hch, hkept⟩ := run_onChan (stepPulse_of_scheduled hq) hc
    refine ⟨t, (runIn_of_up hu).trans hrun, ?_, ?_, ?_, ?_, ?_, hkept⟩ <;> rw [hch] <;> rfl
  · obtain ⟨t, hrun, hch, hkept⟩ := run_onChan (F := onChan c fun x => { x with stepOut := false }) rfl hc
    exact ⟨t, hrun, by rw [hch], by rw [hch], hkept⟩
  · obtain ⟨t, hrun, h⟩ := run_stallDetect hl hc hst
    exact ⟨t, (runIn_of_up hu).trans hrun, h⟩
  · obtain ⟨t, hrun, hch, hkept⟩ := run_homingStart_of_ready hl hc hb h1 h4 he
    exact ⟨t, (runAcc_of_running hr).trans hrun, by rw [hch]; rfl, by rw [hch]; rfl, by rw [hch]; rfl, hkept⟩
  · obtain ⟨t, hrun, hch, -, hkept⟩ := run_acked_onChan (homingStart_of_refused hl hb h) hc
    exact ⟨t, (runAcc_of_running hr).trans hrun, by rw [hch]; exact hb, by rw [hch], by rw [hch], hkept⟩
  · obtain ⟨t, hrun, hch, hkept⟩ := run_onChan (homeTargetEdge_of_target hb hp ht) hc
    refine ⟨t, (runIn_of_up hu).trans hrun, by rw [hch]; rfl, fun hm => ?_, fun hm => ?_, fun hm => ?_, hkept⟩ <;>
      simp [hch, targetLatched, hm]
  · obtain ⟨t, hrun, hch, hkept⟩ := run_onChan (homeTargetEdge_of_index hb hp) hc
    exact ⟨t, (runIn_of_up hu).trans hrun, by rw [hch], by rw [hch], hkept⟩
  · obtain ⟨t, hrun, hch, hkept⟩ := run_event_onChan (homingNoIndex_of_far hb hp hf) hc
    exact ⟨t, (runIn_of_up hu).trans hrun, by rw [hch]; rfl, by rw [hch]; rfl, by rw [hch]; rfl, hkept⟩
  · obtain ⟨t, x, hrun, hch, hkept⟩ := run_homingComplete hc hl hb hp hf hrest
    refine ⟨t, (runIn_of_up hu).trans hrun, ?_, ?_, ?_, ?_, hkept⟩ <;> rw [hch] <;> rfl

end Sys2Proof.Machine

/-! PROOF. AxisCommands: HOME of a local and of a ring axis, ZONE_RELEASE and SLICE_PARAM, and O46. -/

namespace Sys2Proof.Machine

/-! ### A command that is accepted (R390) -/

/-- A command that is accepted after a silent effect outside HOST and TIME completes with its reply. -/
theorem run_of_accept {f : State → State} {o : Origin} {s u : State} (hx : f s = accept o u) (hq : quiet s u)
    (hh : u.host = s.host) (ht : u.time = s.time) :
    run f s = .next (accept o u) ∧ accepted18 o s (accept o u) ∧ quiet s (accept o u) := by
  have hq' : quiet s (accept o u) := hq
  refine ⟨run_of_quiet hx hq', ?_, hq'⟩
  rw [accepted18, accept_eq, onHost_host, hh, mkReply_congr ht]

theorem only_accept {ps : List Part} {o : Origin} {s t : State} (h : .host ∈ ps) : only ps s (accept o t) ↔ only ps s t :=
  only_onHost h

/-! ### HOME (R169, R213) -/

section
variable {o : Origin} {a c : Nat} {s : State}

theorem homeCmd_of_local (hn : nodeMode s = false) (ha : a < maxAxes s) (hd : (axisCfg s a).defined = true)
    (hr : ∀ r j e, (axisCfg s a).src ≠ .ring r j e) (hx : axisChan (axisCfg s a) = some c) :
    homeCmd o a s = homeLocal o c s := by
  rw [homeCmd, needsCell_of_cell hn, if_neg (Nat.not_le.2 ha), hd, if_neg (by decide)]
  split
  · exact absurd ‹_› (hr _ _ _)
  · rw [hx]

theorem homeCmd_of_ring {r j e : Nat} (hn : nodeMode s = false) (ha : a < maxAxes s) (hd : (axisCfg s a).defined = true)
    (hr : (axisCfg s a).src = .ring r j e) : homeCmd o a s = homeRemote o a s := by
  rw [homeCmd, needsCell_of_cell hn, if_neg (Nat.not_le.2 ha), hd, if_neg (by decide), hr]

theorem homeCmd_of_absent (h : nodeMode s = true ∨ maxAxes s ≤ a) : homeCmd o a s = replyAt18 o 12 5 [] s := by
  rw [homeCmd, needsCell]
  split
  · rfl
  · exact if_pos (h.resolve_left ‹_›)

theorem homeLocal_of_busy (hb : (chSt s c).busy = true) : homeLocal o c s = replyAt18 o 13 7 [] s := if_pos hb

theorem homeLocal_of_ready (hl : chanLive s c = true) (hc : c < s.axio.length) (hb : (chSt s c).busy = false)
    (h1 : 1 ≤ (chanCfg s c).hmode) (h4 : (chanCfg s c).hmode ≤ 4) (he : chanEnabled s c = true) : ∃ as, homeLocal o c s =
      accept o (acked { onChan c (homingBegun (chanCfg s c)) s with mot := { s.mot with axes := as } }) := by
  obtain ⟨as, hx⟩ := homingStart_of_ready hl hb h1 h4 (.inr he)
  have hbusy : (chSt (homingStart c s) c).busy = true := by
    rw [hx]
    exact congrArg ChanSt.busy (chSt_onChan hc _)
  refine ⟨as, ?_⟩
  rw [homeLocal, if_neg (Bool.eq_false_iff.1 hb), if_pos hbusy, hx]

theorem homeLocal_of_refused (hl : chanLive s c = true) (hc : c < s.axio.length) (hb : (chSt s c).busy = false)
    (h : (chanCfg s c).hmode = 0 ∨ 4 < (chanCfg s c).hmode ∨ nodeMode s = false ∧ chanEnabled s c = false) :
    homeLocal o c s = replyAt18 o 13 6 [] (acked (onChan c (fun x => { x with hres := 6 }) s)) := by
  have hbusy : (chSt (homingStart c s) c).busy = false := by
    rw [homingStart_of_refused hl hb h]
    exact (congrArg ChanSt.busy (chSt_onChan hc _)).trans hb
  rw [homeLocal, if_neg (Bool.eq_false_iff.1 hb), if_neg (Bool.eq_false_iff.1 hbusy), homingStart_of_refused hl hb h]

/-- A command that is refused after a silent effect outside HOST and TIME completes with that effect and the refusal. -/
theorem run_of_refusal_after {f : State → State} {code detail : Nat} {u : State} (hcode : code ≠ 0)
    (hx : f s = replyAt18 o code detail [] u) (hq : quiet s u) (hh : u.host = s.host) (ht : u.time = s.time)
    (ho : u.chip.once = s.chip.once) : ∃ t, run f s = .next t ∧ t.axio = u.axio ∧
      t.host.replies = s.host.replies ++ [mkReply o code detail [] s] ∧ refusalEvent s t ∧ only [.chip, .host] u t := by
  rw [replyAt18_of_refusal hcode, mkReply_congr ht] at hx
  obtain ⟨hlog, hsup⟩ := eventOnce_quiet_or_logged (c := 0x0970) (k := 0) (d := 0) (s := s)
    (u := refusalCounted code o.key u) hq (congrArg TimeSt.clock ht) ho
  have hrun : run f s = .next (onHost (fun x => { x with replies := x.replies ++ [mkReply o code detail [] s] })
      (eventOnce 0x0970 0 0 (refusalCounted code o.key u))) := by
    cases h : s.chip.once.contains (0x0970, 0)
    · exact run_of_logged hx (hlog h)
    · exact run_of_quiet hx (hsup h)
  refine ⟨_, hrun, ?_, ?_, ⟨hsup, hlog⟩, by simp [refusalCounted]⟩
  · rw [onHost_axio, eventOnce_axio]
    rfl
  · rw [onHost_host, eventOnce_host, refusalCounted, onHost_host, hh]

theorem homeRemote_of_idle (hg : (grpSt s (axisCfg s a).group).state = .idle) (hb : (axisCfg s a).abs = false) :
    homeRemote o a s = accept o (onAxis a (fun x => { x with hgo := some s.time.tickno, hbusy := false }) s) := by
  simp [homeRemote, hg, hb]

theorem homeRemote_of_moving (hg : (grpSt s (axisCfg s a).group).state ≠ .idle) :
    homeRemote o a s = replyAt18 o 13 8 [] s := by
  simp [homeRemote, hg]

theorem homeRemote_of_absolute (hg : (grpSt s (axisCfg s a).group).state = .idle) (hb : (axisCfg s a).abs = true) :
    homeRemote o a s = replyAt18 o 13 9 [] s := by
  simp [homeRemote, hg, hb]

end

/-! ### ZONE_RELEASE (R292) -/

section
variable {o : Origin} {g z : Nat} {s : State}

/-- The release is tried at a group that exists: its code is the DETAIL of the refusal. -/
theorem zoneReleaseCmd_of_group (hn : nodeMode s = false) (hk : s.image.compat = false) (hg : g < maxGroups s)
    (hd : (grpCfg s g).defined = true) : zoneReleaseCmd o g z s =
      if zoneReleaseCode s g z = 0 then accept o (freeZone g z s) else replyAt18 o 13 (zoneReleaseCode s g z) [] s := by
  simp only [zoneReleaseCmd, withGroup, needsCell_of_cell hn, hk, hd, Bool.false_eq_true, if_false, if_neg (Nat.not_le.2 hg),
    Bool.not_true]
  cases zoneReleaseCode s g z <;> rfl

theorem zoneReleaseCode_of_not_held (hz : z ∉ (trlG s g).held) : zoneReleaseCode s g z = 1 := by
  simp [zoneReleaseCode, hz]

theorem zoneReleaseCode_of_held (hz : z ∈ (trlG s g).held) :
    zoneReleaseCode s g z = if intrudesZone s g z then 2 else 0 := by
  simp [zoneReleaseCode, hz]

theorem zoneReleaseCmd_of_no_trellis (h : nodeMode s = true ∨ s.image.compat = true) :
    zoneReleaseCmd o g z s = replyAt18 o 12 7 [] s := by
  rw [zoneReleaseCmd, needsCell]
  split
  · rfl
  · exact if_pos (h.resolve_left ‹_›)

end

theorem only_freeZone (g z : Nat) (s : State) : only [.trl] s (freeZone g z s) := by
  rintro ⟨⟩ <;> simp [Part.same, freeZone]

/-! ### SLICE_PARAM (R199) -/

/-- An update of slice b.sl leaves every other slice. -/
theorem sliceSt_onSlice_ne {f : SliceSt → SliceSt} (hf : ∀ x, (f x).b = x.b ∧ (f x).s = x.s) {b sl c k : Nat}
    (h : c ≠ b ∨ k ≠ sl) (s : State) : sliceSt (onSlice b sl f s) c k = sliceSt s c k := by
  have hg (x : SliceSt) : (if x.b = b ∧ x.s = sl then f x else x).b = x.b ∧
      (if x.b = b ∧ x.s = sl then f x else x).s = x.s := by
    split
    · exact hf x
    · exact ⟨rfl, rfl⟩
  rw [sliceSt_of_map hg (t := onSlice b sl f s) rfl]
  cases hx : sliceSt s c k with
  | none => rfl
  | some x =>
    obtain ⟨hb, hs⟩ := place_of_sliceSt hx
    have hne : ¬ (x.b = b ∧ x.s = sl) := by
      rintro ⟨rfl, rfl⟩
      simp [hb, hs] at h
    simp [hne]

/-- The sixteen parameter words stand in the data memory of a slice. -/
def withParams (ws : List (BitVec 24)) (x : SliceSt) : SliceSt := { x with dmem := putParams x.dmem ws }

theorem withParams_place (ws : List (BitVec 24)) (x : SliceSt) :
    (withParams ws x).b = x.b ∧ (withParams ws x).s = x.s := ⟨rfl, rfl⟩

/-- The parameter words stand in slice b.sl, in its shadow, and in a spare that serves for it. -/
def paramsPut (b sl : Nat) (ws : List (BitVec 24)) (s : State) : State :=
  let u := onSpare b (fun p => { p with shadow := updAt p.shadow sl (fun m => putParams m ws) })
    (onSlice b sl (withParams ws) s)
  if (spareSt u b).spst = 1 && (spareSt u b).spfor = sl then onSlice b 8 (withParams ws) u else u

section
variable {o : Origin} {b sl : Nat} {ws : List (BitVec 24)} {s : State}

theorem sliceParamCmd_of_slice (hn : nodeMode s = false) (hsl : sl < 8) (hb : b < motBlocks s.fuse.variant) :
    sliceParamCmd o b sl ws s = accept o (paramsPut b sl ws s) := by
  have hb8 : b < 8 := by
    unfold motBlocks at hb
    split at hb <;> omega
  rw [sliceParamCmd, needsCell_of_cell hn, if_neg (Nat.not_le.2 hb8), if_neg (Nat.not_le.2 hsl), if_neg (Nat.not_le.2 hb)]
  rfl

theorem sliceSt_paramsPut {x : SliceSt} (hsl : sl < 8) (hx : sliceSt s b sl = some x) :
    sliceSt (paramsPut b sl ws s) b sl = some (withParams ws x) := by
  have hput : sliceSt (onSlice b sl (withParams ws) s) b sl = some (withParams ws x) := by
    rw [sliceSt_onSlice (withParams_place ws) hx, if_pos rfl]
  rw [paramsPut]
  split
  · exact (sliceSt_onSlice_ne (withParams_place ws) (.inr (Nat.ne_of_lt hsl)) _).trans hput
  · exact hput

theorem sliceSt_paramsPut_ne {c k : Nat} (h : c ≠ b ∨ k ≠ sl) (h8 : k ≠ 8) :
    sliceSt (paramsPut b sl ws s) c k = sliceSt s c k := by
  have hput : sliceSt (onSlice b sl (withParams ws) s) c k = sliceSt s c k :=
    sliceSt_onSlice_ne (withParams_place ws) h s
  rw [paramsPut]
  split
  · exact (sliceSt_onSlice_ne (withParams_place ws) (.inr h8) _).trans hput
  · exact hput

/-- Only the slices and the spares of MOT differ. -/
theorem paramsPut_mot (b sl : Nat) (ws : List (BitVec 24)) (s : State) :
    ∃ l p, paramsPut b sl ws s = { s with mot := { s.mot with slices := l, spares := p } } := by
  rw [paramsPut]
  split <;> exact ⟨_, _, rfl⟩

end

/-- Settles O46: a command acts and is accepted, or is refused; what it does is one update of a channel, an axis, a zone with its
group, or a slice. -/
theorem axisCommands : Obligations.AxisCommands := by
  refine ⟨fun o a c s hn ha hd hr hx hl hc hb h1 h4 he => ?_,
    fun o a c s hn ha hd hr hx hb =>
      run_of_refusal (by decide) ((homeCmd_of_local hn ha hd hr hx).trans (homeLocal_of_busy hb)),
    fun o a c s hn ha hd hr hx hl hc hb h => ?_,
    fun o a r j e s hn ha hd hr => ⟨fun hg hb hlen => ?_,
      fun hg => run_of_refusal (by decide) ((homeCmd_of_ring hn ha hd hr).trans (homeRemote_of_moving hg)),
      fun hg hb => run_of_refusal (by decide) ((homeCmd_of_ring hn ha hd hr).trans (homeRemote_of_absolute hg hb))⟩,
    fun o a s h => run_of_refusal (by decide) (homeCmd_of_absent h),
    fun o g z s hn hk hg hd hz hlen hz' hin => ?_,
    fun o g z s hn hk hg hd => ⟨fun hz => run_of_refusal (by decide) ?_, fun hz hi => run_of_refusal (by decide) ?_⟩,
    fun o g z s h => run_of_refusal (by decide) (zoneReleaseCmd_of_no_trellis h),
    fun o b sl ws x s hn hsl hb hx => ?_, fun o b sl ws s hn => ⟨fun hb => ?_, fun hb hsl => ?_, fun hb hsl hm => ?_⟩⟩
  · obtain ⟨as, hx'⟩ := homeLocal_of_ready (o := o) hl hc hb h1 h4 he
    obtain ⟨hrun, hacc, hq⟩ := run_of_accept ((homeCmd_of_local hn ha hd hr hx).trans hx') ⟨rfl, rfl, rfl⟩ rfl rfl
    have hch := chSt_onChan hc (homingBegun (chanCfg s c))
    have hmot : only [.mot] (onChan c (homingBegun (chanCfg s c)) s) _ := only_axes as _
    refine ⟨_, hrun, congrArg ChanSt.busy hch, congrArg ChanSt.hres hch, congrArg ChanSt.refd hch,
      (congrArg ChanSt.count hch).trans rfl, onlyAt_updAt _ _ _, rfl, hacc, hq,
      (only_accept (by decide)).2 ((only_acked (by decide)).2 ?_)⟩
    exact only_trans ((only_onChan (by decide)).2 (only_refl _ s)) (only_mono (by decide) hmot)
  · obtain ⟨t, hrun, haxio, hreply, hev, honly⟩ := run_of_refusal_after (s := s) (by decide)
      ((homeCmd_of_local hn ha hd hr hx).trans
        (homeLocal_of_refused (o := o) hl hc hb (h.imp_right (Or.imp_right fun he => ⟨hn, he⟩))))
      ⟨rfl, rfl, rfl⟩ rfl rfl rfl
    refine ⟨t, hrun, ?_, ?_, hreply, hev, only_trans ?_ (only_mono (by decide) honly)⟩
    · rw [chSt, haxio]
      exact chSt_onChan hc _
    · rw [haxio]
      exact onlyAt_updAt _ _ _
    · simp
  · obtain ⟨hrun, hacc, hq⟩ := run_of_accept ((homeCmd_of_ring (o := o) hn ha hd hr).trans (homeRemote_of_idle hg hb))
      ⟨rfl, rfl, rfl⟩ rfl rfl
    exact ⟨_, hrun, nth_updAt_self _ _ _ hlen, onlyAt_updAt _ _ _, hacc, hq,
      (only_accept (by decide)).2 (only_mono (by decide) (only_axes _ s))⟩
  · have hx : zoneReleaseCmd o g z s = accept o (freeZone g z s) := by
      simp [zoneReleaseCmd_of_group hn hk hg hd, zoneReleaseCode_of_held hz', hin]
    obtain ⟨hrun, hacc, hq⟩ := run_of_accept hx ⟨rfl, rfl, rfl⟩ rfl rfl
    exact ⟨_, hrun, nth_updAt_self _ _ _ hz, nth_updAt_self _ _ _ hlen, onlyAt_updAt _ _ _, onlyAt_updAt _ _ _, hacc, hq,
      (only_accept (by decide)).2 (only_mono (by decide) (only_freeZone g z s))⟩
  · simp [zoneReleaseCmd_of_group hn hk hg hd, zoneReleaseCode_of_not_held hz]
  · simp [zoneReleaseCmd_of_group hn hk hg hd, zoneReleaseCode_of_held hz, hi]
  · obtain ⟨l, p, hput⟩ := paramsPut_mot b sl ws s
    have hslice := sliceSt_paramsPut (ws := ws) hsl hx
    have hother {c k : Nat} (h : c ≠ b ∨ k ≠ sl) (h8 : k ≠ 8) := sliceSt_paramsPut_ne (ws := ws) (s := s) h h8
    have hcmd := sliceParamCmd_of_slice (o := o) (ws := ws) hn hsl hb
    rw [hput] at hslice hcmd hother
    obtain ⟨hrun, hacc, hq⟩ := run_of_accept hcmd ⟨rfl, rfl, rfl⟩ rfl rfl
    refine ⟨_, hrun, hslice, fun c k h h8 => hother h h8, rfl, rfl, hacc, hq, (only_accept (by decide)).2 ?_⟩
    rintro ⟨⟩ <;> simp [Part.same]
  · exact run_of_refusal (by decide) (by rw [sliceParamCmd, needsCell_of_cell hn, if_pos hb])
  · exact run_of_refusal (by decide) (by rw [sliceParamCmd, needsCell_of_cell hn, if_neg (Nat.not_le.2 hb), if_pos hsl])
  · exact run_of_refusal (by decide) (by
      rw [sliceParamCmd, needsCell_of_cell hn, if_neg (Nat.not_le.2 hb), if_neg (Nat.not_le.2 hsl), if_pos hm])

end Sys2Proof.Machine

/-! PROOF. SliceRules: what landing a result, completing an instruction and an illegal operation do to a servo slice, and the state
that an instruction leaves. -/

namespace Sys2Proof.Machine

/-! ### Results in flight (R184, R186, R187) -/

/-- A slice without the registers that a result in flight may write, and without the results in flight. -/
def SliceSt.standing (x : SliceSt) : SliceSt :=
  { x with d := [], a0 := 0, a1 := 0, p := [], m := [], l := [], lc := [], ls := [], le := [], st := 0, epc := 0, estat := 0,
           lr := 0, pend := [] }

/-- What landing results keeps: all that is no register, the number of the registers, and EV, L1 and L0. -/
structure Landed (x y : SliceSt) : Prop where
  standing : y.standing = x.standing
  d_length : y.d.length = x.d.length
  p_length : y.p.length = x.p.length
  lc_length : y.lc.length = x.lc.length
  ls_length : y.ls.length = x.ls.length
  le_length : y.le.length = x.le.length
  loops : y.st &&& 0xE00000 = x.st &&& 0xE00000

theorem Landed.refl (x : SliceSt) : Landed x x := ⟨rfl, rfl, rfl, rfl, rfl, rfl, rfl⟩

theorem Landed.trans {x y z : SliceSt} (h : Landed x y) (k : Landed y z) : Landed x z :=
  ⟨k.standing.trans h.standing, k.d_length.trans h.d_length, k.p_length.trans h.p_length, k.lc_length.trans h.lc_length,
    k.ls_length.trans h.ls_length, k.le_length.trans h.le_length, k.loops.trans h.loops⟩

/-- Two fields of a word that do not overlap: the first reads back. -/
theorem and_or_and_and {n : Nat} {m k : BitVec n} (h : k &&& m = 0) (a b : BitVec n) : (a &&& m ||| b &&& k) &&& m = a &&& m := by
  refine BitVec.eq_of_getLsbD_eq fun i _ => ?_
  have hi := congrArg (fun v : BitVec n => v.getLsbD i) h
  simp only [BitVec.getLsbD_and, BitVec.getLsbD_or] at hi ⊢
  cases hm : m.getLsbD i
  · simp
  · simp_all

theorem landed_crWrite (x : SliceSt) (cr : Nat) (v : BitVec 56) : Landed x (crWrite x cr v) := by
  unfold crWrite
  split
  · exact ⟨rfl, rfl, updAt_length .., rfl, rfl, rfl, rfl⟩
  · split
    · exact ⟨rfl, rfl, rfl, rfl, rfl, rfl, rfl⟩
    · split
      · exact ⟨rfl, rfl, rfl, rfl, rfl, rfl, rfl⟩
      · split
        case h_7 => exact ⟨rfl, rfl, rfl, rfl, rfl, rfl, and_or_and_and (by decide) ..⟩
        all_goals constructor <;> simp [SliceSt.standing]

theorem landed_land (x : SliceSt) (p : SPend) : Landed x (land x p) := by
  unfold land
  split
  · exact ⟨rfl, updAt_length .., rfl, rfl, rfl, rfl, rfl⟩
  · split <;> exact ⟨rfl, rfl, rfl, rfl, rfl, rfl, rfl⟩
  · exact landed_crWrite ..

theorem landed_landAll (x : SliceSt) (ps : List SPend) : Landed x (landAll x ps) := by
  induction ps generalizing x with
  | nil => exact .refl x
  | cons p ps ih => exact (landed_land x p).trans (ih _)

theorem landed_commit (x : SliceSt) : Landed x (commit x) :=
  Landed.trans (y := { x with pend := [] }) ⟨rfl, rfl, rfl, rfl, rfl, rfl, rfl⟩ (landed_landAll ..)

theorem commit_of_empty {x : SliceSt} (h : x.pend = []) : commit x = x := by
  obtain ⟨⟩ := x
  cases h
  rfl

theorem pend_land (x : SliceSt) (p : SPend) : (land x p).pend = x.pend := by
  unfold land crWrite
  repeat' split
  all_goals rfl

@[simp] theorem commit_pend (x : SliceSt) : (commit x).pend = [] := by
  suffices h : ∀ (ps : List SPend) (y : SliceSt), y.pend = [] → (landAll y ps).pend = [] from h _ _ rfl
  intro ps
  induction ps with
  | nil => exact fun _ h => h
  | cons p ps ih => exact fun y h => ih _ ((pend_land y p).trans h)

section
variable (x : SliceSt)

@[simp] theorem commit_b : (commit x).b = x.b := (congrArg SliceSt.b (landed_commit x).standing :)
@[simp] theorem commit_s : (commit x).s = x.s := (congrArg SliceSt.s (landed_commit x).standing :)
@[simp] theorem commit_run : (commit x).run = x.run := (congrArg SliceSt.run (landed_commit x).standing :)
@[simp] theorem commit_pc : (commit x).pc = x.pc := (congrArg SliceSt.pc (landed_commit x).standing :)
@[simp] theorem commit_icnt : (commit x).icnt = x.icnt := (congrArg SliceSt.icnt (landed_commit x).standing :)
@[simp] theorem commit_dmem : (commit x).dmem = x.dmem := (congrArg SliceSt.dmem (landed_commit x).standing :)
@[simp] theorem commit_trapcnt : (commit x).trapcnt = x.trapcnt := (congrArg SliceSt.trapcnt (landed_commit x).standing :)

end

/-- EV, L1 and L0 are what no landing changes (R184). -/
theorem stBit_commit {x : SliceSt} {i : Nat} (h : (0xE00000 : BitVec 24).getLsbD i = true) : stBit (commit x) i = stBit x i := by
  have hi := congrArg (fun v : BitVec 24 => v.getLsbD i) (landed_commit x).loops
  simpa only [BitVec.getLsbD_and, h, Bool.and_true, stBit] using hi

/-! ### Flags of ST -/

/-- A flag in a word of ST. -/
def withFlag (i : Nat) (v : Bool) (st : BitVec 24) : BitVec 24 := if v then st ||| bitOf 24 i else st &&& ~~~ bitOf 24 i

theorem stSet_eq (x : SliceSt) (i : Nat) (v : Bool) : stSet x i v = { x with st := withFlag i v x.st } := rfl

theorem getLsbD_withFlag {i : Nat} (hi : i < 24) (j : Nat) (v : Bool) (st : BitVec 24) :
    (withFlag i v st).getLsbD j = if j = i then v else st.getLsbD j := by
  by_cases hj : j < 24
  · by_cases hji : j = i
    · subst hji
      cases v <;> simp [withFlag, getLsbD_bitOf, hj]
    · have hij : i ≠ j := Ne.symm hji
      cases v <;> simp only [withFlag, if_true, if_false, Bool.false_eq_true, BitVec.getLsbD_or, BitVec.getLsbD_and,
        BitVec.getLsbD_not, getLsbD_bitOf] <;> simp [hj, hji, hij]
  · have hji : j ≠ i := by omega
    simp [hji, BitVec.getLsbD_of_ge _ j (Nat.le_of_not_lt hj)]

theorem stBit_stSet {i : Nat} (hi : i < 24) (x : SliceSt) (j : Nat) (v : Bool) :
    stBit (stSet x i v) j = if j = i then v else stBit x j := getLsbD_withFlag hi j v x.st

/-- A mask that leaves out a flag does not see it. -/
theorem withFlag_and {i : Nat} {m : BitVec 24} (hi : i < 24) (h : m.getLsbD i = false) (v : Bool) (st : BitVec 24) :
    withFlag i v st &&& m = st &&& m := by
  refine BitVec.eq_of_getLsbD_eq fun j _ => ?_
  rw [BitVec.getLsbD_and, BitVec.getLsbD_and, getLsbD_withFlag hi]
  split
  · next hj => rw [hj, h, Bool.and_false, Bool.and_false]
  · rfl

/-- Words that agree under a mask have the same bits there. -/
theorem getLsbD_of_and_eq {a b m : BitVec 24} (h : a &&& m = b &&& m) {i : Nat} (hi : m.getLsbD i = true) :
    a.getLsbD i = b.getLsbD i := by
  simpa only [BitVec.getLsbD_and, hi, Bool.and_true] using congrArg (fun v : BitVec 24 => v.getLsbD i) h

/-- ST after the flags of an effect. -/
def flagged (e : Eff) (st : BitVec 24) : BitVec 24 :=
  let st := if e.ovf then withFlag 2 true st else st
  let st := if e.sat then withFlag 3 true st else st
  match e.nz with | some (n, z) => withFlag 0 z (withFlag 1 n st) | none => st

theorem getLsbD_flagged (e : Eff) (st : BitVec 24) (j : Nat) : (flagged e st).getLsbD j =
    if j = 0 then (e.nz.map (·.2)).getD (st.getLsbD 0)
    else if j = 1 then (e.nz.map (·.1)).getD (st.getLsbD 1)
    else if j = 2 then st.getLsbD 2 || e.ovf
    else if j = 3 then st.getLsbD 3 || e.sat
    else st.getLsbD j := by
  have h (i : Nat) (hi : i < 4) := @getLsbD_withFlag i (by omega) j
  obtain ⟨_, _, o, a, nz, _, _⟩ := e
  unfold flagged
  cases nz <;> cases o <;> cases a <;> simp only [h 0, h 1, h 2, h 3, Nat.reduceLT, if_true] <;> grind

/-- The flags of an effect are N, Z, V and SAT: a mask that leaves these out does not see it. -/
theorem flagged_and {m : BitVec 24} (h : ∀ i < 4, m.getLsbD i = false) (e : Eff) (st : BitVec 24) :
    flagged e st &&& m = st &&& m := by
  refine BitVec.eq_of_getLsbD_eq fun j _ => ?_
  rw [BitVec.getLsbD_and, BitVec.getLsbD_and, getLsbD_flagged]
  by_cases hj : j < 4
  · rw [h j hj, Bool.and_false, Bool.and_false]
  · rw [if_neg (by omega), if_neg (by omega), if_neg (by omega), if_neg (by omega)]

/-! ### Completing an instruction (R186 to R191) -/

theorem landed_imm (e : Eff) (x : SliceSt) : Landed x (landAll (commit x) e.imm) := (landed_commit x).trans (landed_landAll ..)

/-- What an effect leaves in the slice, before control goes on. -/
def effected (e : Eff) (x : SliceSt) : SliceSt :=
  let y := landAll (commit x) e.imm
  let y := if e.ovf then stSet y 2 true else y
  let y := if e.sat then stSet y 3 true else y
  let y := match e.nz with | some (n, z) => stSet (stSet y 1 n) 0 z | none => y
  let y := match e.store with
    | some (a, v) => { y with dmem := dmemPut y.dmem a.toNat v, log := y.log ++ [(a.toNat, v)] }
    | none => y
  { y with pend := e.late, icnt := satAdd 0xFFFF y.icnt 1 }

/-- The store of an effect in a data memory. -/
def stored (e : Eff) (m : List (Nat × BitVec 24)) : List (Nat × BitVec 24) :=
  match e.store with | some (a, v) => dmemPut m a.toNat v | none => m

/-- The store of an effect in the list of writes. -/
def noted (e : Eff) (l : List (Nat × BitVec 24)) : List (Nat × BitVec 24) :=
  match e.store with | some (a, v) => l ++ [(a.toNat, v)] | none => l

theorem effected_eq (e : Eff) (x : SliceSt) : effected e x = { landAll (commit x) e.imm with
    st := flagged e (landAll (commit x) e.imm).st, pend := e.late, icnt := satAdd 0xFFFF x.icnt 1, dmem := stored e x.dmem,
    log := noted e x.log } := by
  have hl := landed_imm e x
  have hicnt : (landAll (commit x) e.imm).icnt = x.icnt := (congrArg SliceSt.icnt hl.standing :)
  have hdmem : (landAll (commit x) e.imm).dmem = x.dmem := (congrArg SliceSt.dmem hl.standing :)
  have hlog : (landAll (commit x) e.imm).log = x.log := (congrArg SliceSt.log hl.standing :)
  unfold effected
  rw [← hicnt, ← hdmem, ← hlog]
  generalize landAll (commit x) e.imm = y
  obtain ⟨i, l, o, a, nz, m, k⟩ := e
  obtain ⟨⟩ := y
  cases nz <;> cases o <;> cases a <;> cases m <;> rfl

/-- Where control goes from x, with the slice otherwise as y (R190, R191). -/
def followed (fl : Flow) (x y : SliceSt) : SliceSt :=
  match fl with
  | .goto pc => { y with pc := pc, inSlot := false, jump := none, jumpClr := false }
  | .transfer t c => { y with pc := x.pc + 1, inSlot := true, jump := t, jumpClr := c }
  | .next =>
    if x.inSlot then
      match x.jump with
      | some t => { (if x.jumpClr then clearLoops y t else y) with pc := t, inSlot := false, jump := none, jumpClr := false }
      | none => { y with pc := x.pc + 1, inSlot := false }
    else
      let r := loopNext { x with pc := x.pc } (x.pc + 1) [1, 0]
      { y with
        pc := r.2, lc := mapIdx (fun k c => if nth r.1.lc k = nth x.lc k then c else nth r.1.lc k) 0 y.lc,
        st := (y.st &&& 0x9FFFFF) ||| (if atLoopEnd x then r.1.st &&& 0x600000 else y.st &&& 0x600000) }

theorem complete_eq (e : Eff) (fl : Flow) (x : SliceSt) : complete e fl x = followed fl x (effected e x) := rfl

/-- From y to z only L1 and L0 may differ. -/
def OnlyLoops (y z : SliceSt) : Prop := ∃ st, z = { y with st := st } ∧ st &&& 0x9FFFFF = y.st &&& 0x9FFFFF

theorem onlyLoops_stSet {y z : SliceSt} (h : OnlyLoops y z) {i : Nat} (hi : i = 21 ∨ i = 22) (v : Bool) :
    OnlyLoops y (stSet z i v) := by
  obtain ⟨st, rfl, hst⟩ := h
  refine ⟨withFlag i v st, rfl, (withFlag_and ?_ ?_ v st).trans hst⟩ <;> obtain rfl | rfl := hi <;> decide

/-- A transfer clears loop bits and nothing else (R190). -/
theorem onlyLoops_clearLoops (y : SliceSt) (t : BitVec 11) : OnlyLoops y (clearLoops y t) := by
  unfold clearLoops
  refine List.foldlRecOn _ _ ⟨_, rfl, rfl⟩ fun z hz k hk => ?_
  have hk : 21 + k = 21 ∨ 21 + k = 22 := by
    simp only [List.mem_cons, List.not_mem_nil, or_false] at hk
    omega
  split
  · exact onlyLoops_stSet hz hk false
  · exact hz

theorem length_mapIdx {α β : Type} (f : Nat → α → β) (n : Nat) (l : List α) : (mapIdx f n l).length = l.length := by
  induction l generalizing n with
  | nil => rfl
  | cons a l ih => simp [mapIdx, ih]

/-- Control changes the program counter, the delay slot, the loop counts and L1 and L0. -/
theorem followed_eq (fl : Flow) (x y : SliceSt) : ∃ pc slot j jc lc st, followed fl x y =
    { y with pc := pc, inSlot := slot, jump := j, jumpClr := jc, lc := lc, st := st } ∧
      lc.length = y.lc.length ∧ st &&& 0x9FFFFF = y.st &&& 0x9FFFFF := by
  cases fl with
  | goto pc => exact ⟨_, _, _, _, _, _, rfl, rfl, rfl⟩
  | transfer t c => exact ⟨_, _, _, _, _, _, rfl, rfl, rfl⟩
  | next =>
    unfold followed
    cases x.inSlot with
    | false =>
      refine ⟨_, _, _, _, _, _, rfl, length_mapIdx .., ?_⟩
      split <;> exact and_or_and_and (by decide) ..
    | true =>
      cases x.jump with
      | none => exact ⟨_, _, _, _, _, _, rfl, rfl, rfl⟩
      | some t =>
        cases x.jumpClr with
        | false => exact ⟨_, _, _, _, _, _, rfl, rfl, rfl⟩
        | true =>
          obtain ⟨st, hst, hand⟩ := onlyLoops_clearLoops y t
          refine ⟨t, false, none, false, y.lc, st, ?_, rfl, hand⟩
          simp only [if_true, hst]

/-- What completing an instruction leaves: its results, and where control went. -/
theorem complete_frame (e : Eff) (fl : Flow) (x : SliceSt) : ∃ pc slot j jc lc st, complete e fl x =
    { landAll (commit x) e.imm with
      pc := pc, inSlot := slot, jump := j, jumpClr := jc, lc := lc, st := st, pend := e.late, icnt := satAdd 0xFFFF x.icnt 1,
      dmem := stored e x.dmem, log := noted e x.log } ∧
      lc.length = x.lc.length ∧ st &&& 0x9FFFFF = flagged e (landAll (commit x) e.imm).st &&& 0x9FFFFF := by
  obtain ⟨pc, slot, j, jc, lc, st, hy, hlc, hst⟩ := followed_eq fl x (effected e x)
  have hl := landed_imm e x
  rw [← complete_eq] at hy
  rw [effected_eq] at hy hlc hst
  exact ⟨pc, slot, j, jc, lc, st, hy, hlc.trans hl.lc_length, hst⟩

/-- The immediate results of an effect are data registers and pointers: what the instruction leaves (R186 to R189). -/
structure Completed (e : Eff) (d : List (BitVec 24)) (p : List (BitVec 12)) (x y : SliceSt) : Prop where
  d_eq : y.d = d
  p_eq : y.p = p
  pend : y.pend = e.late
  dmem : y.dmem = stored e x.dmem
  icnt : y.icnt = satAdd 0xFFFF x.icnt 1
  flags : flagsAre ((e.nz.map (·.1)).getD (stBit (commit x) 1)) ((e.nz.map (·.2)).getD (stBit (commit x) 0))
    (stBit (commit x) 2 || e.ovf) (stBit (commit x) 3 || e.sat) x y
  kept : p = (commit x).p → e.store = none → registersKept x y
  a0 : y.a0 = (commit x).a0
  a1 : y.a1 = (commit x).a1

theorem completed_complete {e : Eff} {d : List (BitVec 24)} {p : List (BitVec 12)} {x : SliceSt}
    (h : landAll (commit x) e.imm = { commit x with d := d, p := p }) (fl : Flow) : Completed e d p x (complete e fl x) := by
  obtain ⟨pc, slot, j, jc, lc, st, hy, hlc, hst⟩ := complete_frame e fl x
  rw [h] at hy hst
  have hbit {i : Nat} (hi : (0x9FFFFF : BitVec 24).getLsbD i = true) :
      stBit (complete e fl x) i = (flagged e (commit x).st).getLsbD i := by
    rw [hy]
    exact getLsbD_of_and_eq hst hi
  refine ⟨by rw [hy], by rw [hy], by rw [hy], by rw [hy], by rw [hy], ⟨?_, ?_, ?_, ?_, ?_⟩, fun hp hm => ?_, by rw [hy], by rw [hy]⟩
  · exact (hbit (by decide)).trans (getLsbD_flagged ..)
  · exact (hbit (by decide)).trans (getLsbD_flagged ..)
  · exact (hbit (by decide)).trans (getLsbD_flagged ..)
  · exact (hbit (by decide)).trans (getLsbD_flagged ..)
  · have hmask : (0x9FFFF0 : BitVec 24) = 0x9FFFFF &&& 0x9FFFF0 := by decide
    have hst' := congrArg (· &&& (0x9FFFF0 : BitVec 24)) hst
    simp only [BitVec.and_assoc, ← hmask] at hst'
    rw [hy]
    exact hst'.trans (flagged_and (by decide) e _)
  · have hdmem : stored e x.dmem = (commit x).dmem := by rw [stored, hm, commit_dmem]
    have hlog : noted e x.log = (commit x).log := by
      rw [noted, hm]
      exact (congrArg SliceSt.log (landed_commit x).standing :).symm
    rw [registersKept, hy, hp, hdmem, hlog]

/-! ### The next address (R186, R190, R191) -/

theorem atLoopEnd_eq_false {x : SliceSt} (h : atLoopEnd x = false) :
    (stBit x 21 && x.pc = nth x.le 0) = false ∧ (stBit x 22 && x.pc = nth x.le 1) = false := by
  simpa [atLoopEnd, Bool.or_eq_false_iff] using h

/-- Away from a loop end control falls through. -/
theorem loopNext_of_no_end {x : SliceSt} (h : atLoopEnd x = false) : loopNext x (x.pc + 1) [1, 0] = (x, x.pc + 1) := by
  obtain ⟨h0, h1⟩ := atLoopEnd_eq_false h
  simp only [loopNext, h0, h1, Bool.false_eq_true, if_false]

/-- An instruction that falls through. -/
theorem executed_next {e : Eff} (x : SliceSt) : executed x (complete e .next x) := by
  obtain ⟨pc, slot, j, jc, lc, st, hy, -, -⟩ := complete_frame e .next x
  refine ⟨by rw [hy], fun hs hl => ?_⟩
  rw [complete_eq, followed]
  simp only [hs, Bool.false_eq_true, if_false]
  exact congrArg Prod.snd (loopNext_of_no_end hl)

/-! ### The immediate results of an instruction (R187) -/

theorem landAll_toD (y : SliceSt) (rd : Nat) (v : BitVec 24) :
    landAll y [toD rd v] = { y with d := updAt y.d rd (fun _ => v), p := y.p } := by
  have hv : (v.setWidth 56).setWidth 24 = v := BitVec.setWidth_setWidth_of_le v (by decide)
  simp only [landAll, List.foldl_cons, List.foldl_nil, land, toD, hv]

theorem landAll_toP (y : SliceSt) (pn : Fin 4) (v : BitVec 12) :
    landAll y [toP pn v] = { y with d := y.d, p := updAt y.p pn (fun _ => v) } := by
  have hv : (v.setWidth 56).setWidth 12 = v := BitVec.setWidth_setWidth_of_le v (by decide)
  simp only [landAll, List.foldl_cons, List.foldl_nil, land, toP, crWrite, pn.isLt, if_true, hv]

/-- A data register of a slice after a result in it. -/
theorem completed_effRes {x : SliceSt} {rd : Nat} (h : rd < x.d.length) (r : Res24) :
    dReg (complete (effRes rd r) .next x) rd = r.val ∧ onlyD rd x (complete (effRes rd r) .next x) ∧
      flagsAre (stBit (commit x) 1) (stBit (commit x) 0) (stBit (commit x) 2 || r.ovf) (stBit (commit x) 3 || r.sat) x
        (complete (effRes rd r) .next x) ∧ registersKept x (complete (effRes rd r) .next x) := by
  have hy : Completed (effRes rd r) (updAt (commit x).d rd fun _ => r.val) (commit x).p x _ :=
    completed_complete (landAll_toD ..) .next
  refine ⟨?_, fun i hi => ?_, hy.flags, hy.kept rfl rfl⟩
  · rw [dReg, hy.d_eq, nth_updAt_self _ _ _ (by rwa [(landed_commit x).d_length])]
  · rw [dReg, hy.d_eq, nth_updAt_ne _ _ _ _ hi, dReg]

/-- An instruction without immediate results. -/
theorem completed_of_late {e : Eff} (h : e.imm = []) (fl : Flow) (x : SliceSt) :
    Completed e (commit x).d (commit x).p x (complete e fl x) :=
  completed_complete (by rw [h]; rfl) fl

/-! ### The update of one slice -/

/-- A slice without its place in the program and its writes. -/
def SliceSt.unplaced (x : SliceSt) : SliceSt :=
  { x with pc := 0, inSlot := false, jump := none, jumpClr := false, icnt := 0, dmem := [], log := [] }

/-- A slice without all that an instruction may change. -/
def SliceSt.unexecuted (x : SliceSt) : SliceSt := x.standing.unplaced

theorem complete_unexecuted (e : Eff) (fl : Flow) (x : SliceSt) : (complete e fl x).unexecuted = x.unexecuted := by
  obtain ⟨_, _, _, _, _, _, hy, -, -⟩ := complete_frame e fl x
  rw [hy]
  exact (congrArg SliceSt.unplaced (landed_imm e x).standing :)

theorem complete_run (e : Eff) (fl : Flow) (x : SliceSt) : (complete e fl x).run = x.run :=
  (congrArg SliceSt.run (complete_unexecuted e fl x) :)

theorem complete_abortWait (e : Eff) (fl : Flow) (x : SliceSt) : (complete e fl x).abortWait = x.abortWait :=
  (congrArg SliceSt.abortWait (complete_unexecuted e fl x) :)

theorem complete_trapcnt (e : Eff) (fl : Flow) (x : SliceSt) : (complete e fl x).trapcnt = x.trapcnt :=
  (congrArg SliceSt.trapcnt (complete_unexecuted e fl x) :)

theorem complete_place (e : Eff) (fl : Flow) (x : SliceSt) : (complete e fl x).b = x.b ∧ (complete e fl x).s = x.s :=
  ⟨(congrArg SliceSt.b (complete_unexecuted e fl x) :), (congrArg SliceSt.s (complete_unexecuted e fl x) :)⟩

section
variable {b sl : Nat} {x : SliceSt} {s : State} {f g : SliceSt → SliceSt}

theorem sliceSt_onSlice_self (hg : ∀ x, (g x).b = x.b ∧ (g x).s = x.s) (hx : sliceSt s b sl = some x) :
    sliceSt (onSlice b sl g s) b sl = some (g x) := (sliceSt_onSlice hg hx).trans (congrArg some (if_pos rfl))

theorem sliceStep_onSlice (hg : ∀ x, (g x).b = x.b ∧ (g x).s = x.s) (hx : sliceSt s b sl = some x) :
    sliceStep b sl s (onSlice b sl g s) (g x) :=
  ⟨sliceSt_onSlice_self hg hx, fun _ _ h => sliceSt_onSlice_ne hg h s, rfl, by simp⟩

theorem sliceStep_trans {y z : SliceSt} {t u : State} (h : sliceStep b sl s t y) (k : sliceStep b sl t u z) :
    sliceStep b sl s u z := by
  obtain ⟨-, hne, hmot, honly⟩ := h
  obtain ⟨hz, hne', hmot', honly'⟩ := k
  exact ⟨hz, fun c k h => (hne' c k h).trans (hne c k h), by rw [hmot', hmot], only_trans honly honly'⟩

/-- Two updates of one slice in turn. -/
theorem sliceStep_onSlice_twice (hf : ∀ x, (f x).b = x.b ∧ (f x).s = x.s) (hg : ∀ x, (g x).b = x.b ∧ (g x).s = x.s)
    (hx : sliceSt s b sl = some x) : sliceStep b sl s (onSlice b sl g (onSlice b sl f s)) (g (f x)) :=
  sliceStep_trans (sliceStep_onSlice hf hx) (sliceStep_onSlice hg (sliceSt_onSlice_self hf hx))

theorem quiet_of_sliceStep {y : SliceSt} {t : State} (h : sliceStep b sl s t y) : quiet s t := by
  obtain ⟨-, -, -, honly⟩ := h
  exact quiet_of_chip (honly .chip (by decide))

/-- A command whose meaning is a step of one slice completes with it. -/
theorem run_of_sliceStep {F : State → State} {y : SliceSt} (h : sliceStep b sl s (F s) y) :
    ∃ t, run F s = .next t ∧ sliceStep b sl s t y :=
  ⟨F s, run_of_quiet rfl (quiet_of_sliceStep h), h⟩

/-! ### Executing an instruction (R186 to R192) -/

theorem sliceFree_of_clear (h : sliceClear b sl s x) : sliceFree b sl s x := by
  obtain ⟨hx, hrun, hab, hslot, hend⟩ := h
  exact ⟨hx, hrun, hab, by rw [hslot, Bool.false_and]⟩

variable {ctl : Bool} {F : SliceSt → Eff} {G : SliceSt → Flow}

/-- Where an instruction of a free slice may stand (R190). -/
theorem position_of_free (h : sliceFree b sl s x) (hctl : ctl = true → x.inSlot = false ∧ atLoopEnd x = false) :
    (ctl && (x.inSlot || atLoopEnd x) || x.inSlot && atLoopEnd x) = false := by
  obtain ⟨-, -, -, hpos⟩ := h
  cases ctl with
  | false => simpa using hpos
  | true => simp [hctl rfl]

/-- An instruction that is legal where it stands and traps nothing completes. -/
theorem execSlice_of_legal (h : sliceFree b sl s x) (hctl : ctl = true → x.inSlot = false ∧ atLoopEnd x = false)
    (hill : (F x).ill = 0) (htrap : stBit x 20 = true → (F x).ovf = false) :
    execSlice b sl ctl F G s = onSlice b sl (complete (F x) (G x)) s := by
  have hlegal := position_of_free h hctl
  obtain ⟨hx, hrun, hab, -⟩ := h
  have hno : ((F x).ovf && stBit x 20) = false := by
    cases h20 : stBit x 20
    · exact Bool.and_false _
    · rw [htrap h20, Bool.false_and]
  have hx' := sliceSt_onSlice_self (complete_place (F x) (G x)) hx
  simp [execSlice, hx, hrun, hlegal, hill, afterInstr, hx', hno, complete_abortWait, hab]

theorem sliceStep_execSlice (h : sliceFree b sl s x) (hctl : ctl = true → x.inSlot = false ∧ atLoopEnd x = false)
    (hill : (F x).ill = 0) (htrap : stBit x 20 = true → (F x).ovf = false) :
    sliceStep b sl s (execSlice b sl ctl F G s) (complete (F x) (G x) x) := by
  rw [execSlice_of_legal h hctl hill htrap]
  exact sliceStep_onSlice (complete_place _ _) h.1

/-- An instruction that falls through completes. -/
theorem run_plainInstr {e : Eff} (h : sliceFree b sl s x) (hF : F x = e) (hill : e.ill = 0)
    (htrap : stBit x 20 = true → e.ovf = false) :
    ∃ t, run (plainInstr b sl F) s = .next t ∧ sliceStep b sl s t (complete e .next x) := by
  subst hF
  exact run_of_sliceStep (sliceStep_execSlice h (by simp) hill htrap)

/-- A control instruction completes. -/
theorem run_control {e : Eff} (h : sliceClear b sl s x) (hF : F x = e) (hill : e.ill = 0) (hovf : e.ovf = false) :
    ∃ t, run (execSlice b sl true F G) s = .next t ∧ sliceStep b sl s t (complete e (G x) x) := by
  subst hF
  have hfree := sliceFree_of_clear h
  obtain ⟨hx, hrun, hab, hslot, hend⟩ := h
  exact run_of_sliceStep (sliceStep_execSlice hfree (fun _ => ⟨hslot, hend⟩) hill fun _ => hovf)

/-! ### Illegal operations (R194) -/

/-- The handler of an illegal operation is entered, behind it the tick abort that waited for the delay slot (R192, R194). -/
def illegalEntry (cause : Nat) (x : SliceSt) : SliceSt :=
  let y := { enterEvent 2 0x008 x.pc x with illegal := cause, evCause := cause }
  if x.abortWait then { enterEvent 3 0x00C 0x008 y with abortWait := false } else y

theorem enterEvent_place (kind : Nat) (vector epc : BitVec 11) (x : SliceSt) :
    (enterEvent kind vector epc x).b = x.b ∧ (enterEvent kind vector epc x).s = x.s := ⟨commit_b x, commit_s x⟩

theorem illegalEntry_place (cause : Nat) (x : SliceSt) : (illegalEntry cause x).b = x.b ∧ (illegalEntry cause x).s = x.s := by
  unfold illegalEntry
  split <;> constructor <;> simp [enterEvent]

theorem illegalEntry_illegal (cause : Nat) (x : SliceSt) : (illegalEntry cause x).illegal = cause := by
  unfold illegalEntry
  split
  · exact (congrArg SliceSt.illegal (landed_commit _).standing :)
  · rfl

/-- ST on entry of an event has EV set. -/
theorem enterEvent_ev (kind : Nat) (vector epc : BitVec 11) (x : SliceSt) : stBit (enterEvent kind vector epc x) 23 = true := by
  simp [stBit, enterEvent]

/-- What the handler of an illegal operation finds (R192, R194). -/
theorem illegalEntry_of_no_abort {cause : Nat} {x : SliceSt} (h : x.abortWait = false) :
    (illegalEntry cause x).pc = 0x008 ∧ (illegalEntry cause x).epc = x.pc ∧ (illegalEntry cause x).estat = (commit x).st ∧
      stBit (illegalEntry cause x) 23 = true ∧ (illegalEntry cause x).d = (commit x).d ∧ (illegalEntry cause x).dmem = x.dmem := by
  simp only [illegalEntry, h, Bool.false_eq_true, if_false]
  exact ⟨rfl, rfl, rfl, enterEvent_ev 2 0x008 x.pc x, rfl, commit_dmem x⟩

/-- The first illegal operation of a tick enters its handler and raises MOT_SLICE_ILLEGAL. -/
theorem illegalAt_of_first {cause : Nat} (hx : sliceSt s b sl = some x) (hill : x.illegal = 0) (hrot : rotating s b sl = false) :
    illegalAt b sl cause s = event 0x0541 (16 * b + sl) (onSlice b sl (illegalEntry cause) s) := by
  simp only [illegalAt, hx, hill, hrot, bne_self_eq_false, Bool.false_and, Bool.or_false, Bool.false_eq_true, if_false]
  rfl

theorem run_of_illegal {K : State → State} {cause : Nat} (hK : K s = illegalAt b sl cause s) (hx : sliceSt s b sl = some x)
    (hill : x.illegal = 0) (hrot : rotating s b sl = false) :
    ∃ t, run K s = .next t ∧ sliceSt t b sl = some (illegalEntry cause x) ∧ logged 0x0541 (16 * b + sl) s t ∧
      only [.chip, .mot] s t ∧ t.mot.axes = s.mot.axes := by
  have hl : logged 0x0541 (16 * b + sl) s (event 0x0541 (16 * b + sl) (onSlice b sl (illegalEntry cause) s)) :=
    logged_event (u := onSlice b sl (illegalEntry cause) s) ⟨rfl, rfl, rfl⟩ rfl
  exact ⟨_, run_of_logged (hK.trans (illegalAt_of_first hx hill hrot)) hl, sliceSt_onSlice_self (illegalEntry_place cause) hx, hl,
    by simp, rfl⟩

/-- An instruction that is illegal of itself. -/
theorem execSlice_of_illegal (hx : sliceSt s b sl = some x) (hrun : canRun x = true)
    (hpos : (ctl && (x.inSlot || atLoopEnd x) || x.inSlot && atLoopEnd x) = false) (hill : (F x).ill ≠ 0) :
    execSlice b sl ctl F G s = illegalAt b sl (F x).ill s := by
  simp [execSlice, hx, hrun, hpos, hill]

/-- A control instruction in a delay slot is illegal (R190). -/
theorem execSlice_of_slot (hx : sliceSt s b sl = some x) (hrun : canRun x = true) (hslot : x.inSlot = true) :
    execSlice b sl true F G s = illegalAt b sl 4 s := by
  simp [execSlice, hx, hrun, hslot]

end

end Sys2Proof.Machine

/-! PROOF. SliceResults: the results of the slice's arithmetic, the instructions with one result in a data register, and O22 and O23. -/

namespace Sys2Proof.Machine

/-! ### Exact values and what fits (R181 to R183) -/

theorem fits24_eq_false {v : Int} : fits24 v = false ↔ v < -(2 ^ 23) ∨ 2 ^ 23 ≤ v := by
  simp [fits24]
  omega

theorem wrapRes_ovf (v : Int) : (wrapRes v).ovf = true ↔ v < -(2 ^ 23) ∨ 2 ^ 23 ≤ v := by
  rw [wrapRes, Bool.not_eq_true', fits24_eq_false]

theorem wrapAcc_ovf (v : Int) : (wrapAcc v).ovf = true ↔ v < -(2 ^ 55) ∨ 2 ^ 55 ≤ v := by
  simp [wrapAcc, fits56]
  omega

/-- A value that fits 24 bits is its word. -/
theorem toInt_ofInt_of_fits {v : Int} (h : -(2 ^ 23) ≤ v ∧ v < 2 ^ 23) : (BitVec.ofInt 24 v).toInt = v := by
  rw [BitVec.toInt_ofInt, Int.bmod_eq_of_le] <;> omega

theorem satRes_of_fits {v : Int} (h : fits24 v = true) : satRes v = { val := BitVec.ofInt 24 v } := if_pos h

theorem satRes_val (v : Int) : (satRes v).val.toInt = max (-(2 ^ 23)) (min (2 ^ 23 - 1) v) := by
  cases h : fits24 v with
  | true =>
    have hv : ¬ (v < -(2 ^ 23) ∨ 2 ^ 23 ≤ v) := by rw [← fits24_eq_false, h]; decide
    rw [satRes_of_fits h, toInt_ofInt_of_fits (by omega)]
    omega
  | false =>
    have hv := fits24_eq_false.1 h
    simp only [satRes, h, Bool.false_eq_true, if_false]
    split
    · have : (0x7FFFFF : BitVec 24).toInt = 2 ^ 23 - 1 := by decide
      omega
    · have : (0x800000 : BitVec 24).toInt = -(2 ^ 23) := by decide
      omega

theorem satRes_flags (v : Int) : (satRes v).ovf = false ∧ ((satRes v).sat = true ↔ v < -(2 ^ 23) ∨ 2 ^ 23 ≤ v) := by
  rw [← fits24_eq_false]
  cases h : fits24 v <;> simp [satRes, h]

/-- Division by 2^(n + 1) rounded half up (R182). -/
theorem shiftRound_succ (a : Int) (n : Nat) : shiftRound a (n + 1) = (a + 2 ^ n) / 2 ^ (n + 1) := by
  have h : 2 * a + 2 ^ (n + 1) = 2 * (a + 2 ^ n) := by ring
  rw [shiftRound, if_neg (Nat.succ_ne_zero n), h, pow_succ' 2 (n + 1), Int.mul_ediv_mul_of_pos _ _ (by decide)]

/-- CLIP limits to the magnitude and says whether it clamped. -/
theorem clipRes_eq (a b : BitVec 24) :
    (clipRes a b).val.toInt = max (-(min 8388607 |b.toInt|)) (min (min 8388607 |b.toInt|) a.toInt) ∧
      (clipRes a b).sat = decide (min 8388607 |b.toInt| < |a.toInt|) := by
  have hm : magOf b = min 8388607 |b.toInt| := by rw [magOf, Int.natCast_natAbs]
  have ha : -(2 ^ 23) ≤ a.toInt ∧ a.toInt < 2 ^ 23 := ⟨BitVec.le_toInt a, BitVec.toInt_lt⟩
  have hb : 0 ≤ |b.toInt| := abs_nonneg _
  have hm0 : 0 ≤ min 8388607 |b.toInt| := by omega
  have hm1 : min 8388607 |b.toInt| < 2 ^ 23 := by omega
  simp only [clipRes, hm, clampI]
  generalize min 8388607 |b.toInt| = m at hm0 hm1
  refine ⟨toInt_ofInt_of_fits (by omega), ?_⟩
  rw [Bool.eq_iff_iff, bne_iff_ne, decide_eq_true_iff]
  rcases abs_cases a.toInt with ⟨h, _⟩ | ⟨h, _⟩ <;> omega

/-! ### Instructions with one result in a data register (R187 to R189) -/

section
variable {b sl : Nat} {rd : Fin 8} {x : SliceSt} {s : State}

/-- An instruction that writes a data register at once. -/
theorem run_effRes {F : SliceSt → Eff} {r : Res24} (h : sliceFree b sl s x) (hrd : rd.val < x.d.length) (hF : F x = effRes rd r)
    (htrap : stBit x 20 = true → r.ovf = false) :
    ∃ t y, run (plainInstr b sl F) s = .next t ∧ sliceStep b sl s t y ∧ executed x y ∧ dReg y rd = r.val ∧ onlyD rd x y ∧
      flagsAre (stBit (commit x) 1) (stBit (commit x) 0) (stBit (commit x) 2 || r.ovf) (stBit (commit x) 3 || r.sat) x y ∧
      registersKept x y := by
  obtain ⟨t, hrun, hstep⟩ := run_plainInstr h hF rfl htrap
  exact ⟨t, _, hrun, hstep, executed_next x, completed_effRes hrd r⟩

/-- An instruction that is illegal of itself, where it may stand. -/
theorem run_illegal {ctl : Bool} {F : SliceSt → Eff} {G : SliceSt → Flow} {cause : Nat} (h : sliceFree b sl s x)
    (hctl : ctl = true → x.inSlot = false ∧ atLoopEnd x = false) (hill : x.illegal = 0) (hrot : rotating s b sl = false)
    (hF : (F x).ill = cause) (hc : cause ≠ 0) :
    ∃ t y, run (execSlice b sl ctl F G) s = .next t ∧ sliceSt t b sl = some y ∧ y.illegal = cause ∧ y.pc = 0x008 ∧
      y.epc = x.pc ∧ y.estat = (commit x).st ∧ y.dmem = x.dmem ∧ logged 0x0541 (16 * b + sl) s t ∧ only [.chip, .mot] s t := by
  have hlegal := position_of_free h hctl
  obtain ⟨hx, hrun, hab, -⟩ := h
  have hK : execSlice b sl ctl F G s = illegalAt b sl cause s := by
    rw [execSlice_of_illegal hx hrun hlegal (by rwa [hF]), hF]
  obtain ⟨t, ht, hy, hlog, honly, -⟩ := run_of_illegal hK hx hill hrot
  obtain ⟨hpc, hepc, hestat, -, -, hdmem⟩ := illegalEntry_of_no_abort (cause := cause) hab
  exact ⟨t, _, ht, hy, illegalEntry_illegal cause x, hpc, hepc, hestat, hdmem, hlog, honly⟩

/-! ### Compatibility mode (R209) -/

theorem notInCompat_of_native {f : SliceSt → Eff} (h : s.image.compat = false) : notInCompat s f = f := by
  rw [notInCompat, h, if_neg Bool.false_ne_true]

theorem notInCompat_of_compat {f : SliceSt → Eff} (h : s.image.compat = true) : notInCompat s f = fun _ => { ill := 8 } := by
  rw [notInCompat, h, if_pos rfl]

end

/-- Settles O22, by the arithmetic of the results, the one result of CLIP, and the illegal operation in compatibility mode. -/
theorem sliceResultsAndClip : Obligations.SliceResultsAndClip := by
  unfold Obligations.SliceResultsAndClip
  refine ⟨fun v => ⟨BitVec.toInt_ofInt v, rfl, wrapRes_ovf v⟩, fun v => ⟨satRes_val v, satRes_flags v⟩, fun a n => ⟨?_, ?_, ?_⟩,
    fun v => ⟨BitVec.toInt_ofInt v, wrapAcc_ovf v⟩, ?_, ?_⟩
  · rw [store24, shiftRound_succ]
    exact satRes_val _
  · rw [store24, shiftRound_succ]
    exact BitVec.toInt_ofInt _
  · exact satRes_val _
  · intro b sl rd rs rt x s hfree hrd hcompat
    obtain ⟨t, y, hrun, hstep, hexec, hval, hd, hflags, hkept⟩ := run_effRes (r := clipRes (dReg x rs) (dReg x rt)) hfree hrd
      (congrFun (notInCompat_of_native (f := fun x => effRes rd (clipRes (dReg x rs) (dReg x rt))) hcompat) x) fun _ => rfl
    obtain ⟨hclip, hsat⟩ := clipRes_eq (dReg x rs) (dReg x rt)
    refine ⟨t, y, hrun, hstep, hexec, (congrArg BitVec.toInt hval).trans hclip, hd, ?_, hkept⟩
    rwa [hsat, show (clipRes (dReg x rs) (dReg x rt)).ovf = false from rfl, Bool.or_false] at hflags
  · intro b sl ax rd rs rt pn amm x s hfree hill hrot hcompat
    have hillegal (f : SliceSt → Eff) : ∃ t y, run (plainInstr b sl (notInCompat s f)) s = .next t ∧ sliceSt t b sl = some y ∧
        y.illegal = 8 ∧ y.pc = 0x008 ∧ y.epc = x.pc ∧ y.estat = (commit x).st ∧ logged 0x0541 (16 * b + sl) s t ∧
        only [.chip, .mot] s t := by
      obtain ⟨t, y, ht, hy, hcause, hpc, hepc, hestat, -, hlog, honly⟩ := run_illegal (ctl := false) (F := notInCompat s f)
        (G := fun _ => .next) (cause := 8) hfree (by simp) hill hrot (by rw [notInCompat_of_compat hcompat]) (by decide)
      exact ⟨t, y, ht, hy, hcause, hpc, hepc, hestat, hlog, honly⟩
    simp only [List.forall_mem_cons]
    exact ⟨hillegal _, hillegal _, hillegal _, fun i hi => absurd hi List.not_mem_nil⟩

/-! ### The values of R189 -/

/-- An arithmetic shift right is the floor of the quotient. -/
theorem ofInt_toInt_div {w : Nat} (v : BitVec w) (n : Nat) : BitVec.ofInt w (v.toInt / 2 ^ n) = v.sshiftRight n := by
  rw [BitVec.sshiftRight, Int.shiftRight_eq_div_pow]
  norm_cast

theorem shrlRes_eq (v : BitVec 24) (n : Nat) : shrlRes v n = v >>> n := by
  refine BitVec.eq_of_toNat_eq ?_
  have hlt : v.toNat / 2 ^ n < 2 ^ 24 := Nat.lt_of_le_of_lt (Nat.div_le_self ..) v.isLt
  rw [shrlRes, BitVec.toNat_ofNat, Nat.mod_eq_of_lt hlt, BitVec.toNat_ushiftRight, Nat.shiftRight_eq_div_pow]

/-- MAX may take either operand when they are equal. -/
theorem max_of_regs (a b : BitVec 24) : (if b.toInt ≤ a.toInt then a else b) = if a.toInt ≤ b.toInt then b else a := by
  by_cases h : a.toInt ≤ b.toInt <;> by_cases h' : b.toInt ≤ a.toInt
  · rw [if_pos h, if_pos h']
    exact BitVec.eq_of_toInt_eq (le_antisymm h h')
  · rw [if_pos h, if_neg h']
  · rw [if_neg h, if_pos h']
  · omega

theorem accPart_low (a : BitVec 56) : accPart a 0 = a.extractLsb' 0 24 := by
  ext i hi
  simp [accPart]

theorem accPart_middle (a : BitVec 56) : accPart a 1 = a.extractLsb' 24 24 := by
  ext i hi
  simp [accPart]

theorem accPart_high (a : BitVec 56) : accPart a 2 = (a.extractLsb' 48 8).signExtend 24 := by
  have h : (a >>> 48).setWidth 8 = a.extractLsb' 48 8 := by
    ext i hi
    simp
  exact congrArg (BitVec.signExtend 24) h

/-- Settles O23: every instruction of the list has the effect of one result in RD. -/
theorem sliceRegisterResults : Obligations.SliceRegisterResults := by
  unfold Obligations.SliceRegisterResults
  intro b sl rd rs rt ax sh imm imm23 sat x s hfree hrd p hp htrap
  suffices hF : ∃ F, exec p.1 s = run (plainInstr b sl F) s ∧ F x = effRes rd p.2 by
    obtain ⟨F, hexec, hF⟩ := hF
    rw [hexec]
    exact run_effRes hfree hrd hF htrap
  clear htrap
  revert p
  simp only [List.forall_mem_cons]
  refine ⟨⟨_, rfl, rfl⟩, ⟨_, rfl, rfl⟩, ⟨_, rfl, rfl⟩, ⟨_, rfl, rfl⟩, ⟨_, rfl, rfl⟩, ⟨_, rfl, rfl⟩, ⟨_, rfl, ?_⟩, ⟨_, rfl, rfl⟩,
    ⟨_, rfl, rfl⟩, ⟨_, rfl, rfl⟩, ⟨_, rfl, rfl⟩, ⟨_, rfl, ?_⟩, ⟨_, rfl, ?_⟩, ⟨_, rfl, rfl⟩, ⟨_, rfl, ?_⟩, ⟨_, rfl, rfl⟩,
    ⟨_, rfl, rfl⟩, ⟨_, rfl, rfl⟩, ⟨_, rfl, ?_⟩, ⟨_, rfl, ?_⟩, ⟨_, rfl, ?_⟩, fun i hi => absurd hi List.not_mem_nil⟩
  · rw [Int.natCast_natAbs]
  · exact congrArg (effVal rd) (ofInt_toInt_div _ _)
  · exact congrArg (effVal rd) (shrlRes_eq _ _)
  · exact congrArg (effVal rd) (max_of_regs _ _)
  · exact congrArg (effVal rd) (accPart_low _)
  · exact congrArg (effVal rd) (accPart_middle _)
  · exact congrArg (effVal rd) (accPart_high _)

end Sys2Proof.Machine

/-! PROOF. SliceAccumulators: the instructions with a result in an accumulator, and O24. -/

namespace Sys2Proof.Machine

/-! ### Instructions with a result in an accumulator (R181, R186, R189) -/

section
variable {b sl : Nat} {x : SliceSt} {s : State} {F : SliceSt → Eff} {r : Res56}

/-- An instruction whose result is in flight to an accumulator. -/
theorem run_effAcc {ax : Nat} (h : sliceFree b sl s x) (hF : F x = effAcc ax r) (htrap : stBit x 20 = true → r.ovf = false) :
    ∃ t y, run (plainInstr b sl F) s = .next t ∧ sliceStep b sl s t y ∧ executed x y ∧
      y.pend = [{ dest := .a ax, val := r.val }] ∧
      y.d = (commit x).d ∧ y.a0 = (commit x).a0 ∧ y.a1 = (commit x).a1 ∧
      flagsAre (stBit (commit x) 1) (stBit (commit x) 0) (stBit (commit x) 2 || r.ovf) (stBit (commit x) 3) x y ∧
      registersKept x y := by
  obtain ⟨t, hrun, hstep⟩ := run_plainInstr h hF rfl htrap
  have hy := completed_of_late (e := effAcc ax r) rfl .next x
  have hflags := hy.flags
  rw [show (effAcc ax r).sat = false from rfl, Bool.or_false] at hflags
  exact ⟨t, _, hrun, hstep, executed_next x, hy.pend, hy.d_eq, hy.a0, hy.a1, hflags, hy.kept rfl rfl⟩

/-- MACL and MSUL: the accumulate and the load in flight, the pointer at once. -/
theorem run_effLoadAcc {ax : Nat} {rl : Fin 8} {pn : Fin 4} {amm : Bool} {v : Int} (h : sliceFree b sl s x)
    (hp : pn.val < x.p.length) (hF : F x = effLoadAcc ax pn rl amm v x) (hr : accum x ax v = r)
    (htrap : stBit x 20 = true → r.ovf = false) :
    ∃ t y, run (plainInstr b sl F) s = .next t ∧ sliceStep b sl s t y ∧ executed x y ∧
      y.pend = [{ dest := .a ax, val := r.val }, { dest := .d rl, val := (dmemRead x (nth x.p pn)).setWidth 56 }] ∧
      nth y.p pn = ammUpdate x pn amm ∧ (∀ i, i ≠ pn.val → nth y.p i = nth (commit x).p i) ∧ y.d = (commit x).d ∧
      y.dmem = x.dmem ∧ stBit y 2 = (stBit (commit x) 2 || r.ovf) := by
  subst hr
  obtain ⟨t, hrun, hstep⟩ := run_plainInstr h hF rfl htrap
  have hy : Completed (effLoadAcc ax pn rl amm v x) (commit x).d (updAt (commit x).p pn fun _ => ammUpdate x pn amm) x _ :=
    completed_complete (landAll_toP ..) .next
  obtain ⟨-, -, hv, -, -⟩ := hy.flags
  refine ⟨t, _, hrun, hstep, executed_next x, hy.pend, ?_, fun i hi => ?_, hy.d_eq, hy.dmem, hv⟩
  · rw [hy.p_eq, nth_updAt_self _ _ _ (by rwa [(landed_commit x).p_length])]
  · rw [hy.p_eq, nth_updAt_ne _ _ _ _ hi]

end

/-- A subtraction is the accumulate of the opposite. -/
theorem accum_neg (x : SliceSt) (ax : Nat) (v : Int) : accum x ax (-v) = wrapAcc ((aFwd x ax).toInt - v) := by
  rw [accum, Int.sub_eq_add_neg]

/-- One result in flight to an accumulator is what an accumulate finds and what lands (R186). -/
theorem aReg_commit_of_flight {x : SliceSt} {ax : Fin 2} {v : BitVec 56} (h : x.pend = [{ dest := .a ax, val := v }]) :
    aReg (commit x) ax = v ∧ aFwd x ax = v ∧ (commit x).d = x.d := by
  have hc : commit x = land { x with pend := [] } { dest := .a ax, val := v } := by
    rw [commit, h]
    rfl
  refine ⟨?_, by simp [aFwd, h], ?_⟩
  · rw [hc]
    simp only [land, aReg]
    split <;> rfl
  · rw [hc]
    simp only [land]
    split <;> rfl

/-- Settles O24, by the effect of one accumulator result, that of MACL and MSUL, and the landing of a result in flight. -/
theorem sliceAccumulators : Obligations.SliceAccumulators := by
  unfold Obligations.SliceAccumulators
  refine ⟨?_, ?_, fun x ax v h => aReg_commit_of_flight h⟩
  · intro b sl ax rd rs rt sh x s hfree p hp htrap
    suffices hF : ∃ F, exec p.1 s = run (plainInstr b sl F) s ∧ F x = effAcc ax p.2 by
      obtain ⟨F, hexec, hF⟩ := hF
      rw [hexec]
      exact run_effAcc hfree hF htrap
    clear htrap
    revert p
    simp only [List.forall_mem_cons]
    refine ⟨⟨_, rfl, rfl⟩, ⟨_, rfl, rfl⟩, ⟨_, rfl, ?_⟩, ⟨_, rfl, rfl⟩, ⟨_, rfl, rfl⟩, ⟨_, rfl, ?_⟩, ⟨_, rfl, rfl⟩, ⟨_, rfl, rfl⟩,
      ⟨_, rfl, rfl⟩, ⟨_, rfl, rfl⟩, ⟨_, rfl, rfl⟩, fun i hi => absurd hi List.not_mem_nil⟩
    · exact congrArg (effAcc ax) (accum_neg ..)
    · exact congrArg (fun v => effAcc ax { val := v }) (ofInt_toInt_div _ _)
  · intro b sl ax rs rt rl pn amm x s hfree hcompat hpn p hp htrap
    suffices hF : ∃ F v, exec p.1 s = run (plainInstr b sl F) s ∧ F x = effLoadAcc ax pn rl amm v x ∧ accum x ax v = p.2 by
      obtain ⟨F, v, hexec, hF, hv⟩ := hF
      rw [hexec]
      exact run_effLoadAcc hfree hpn hF hv htrap
    clear htrap
    revert p
    simp only [List.forall_mem_cons]
    refine ⟨⟨_, _, rfl, ?_, rfl⟩, ⟨_, _, rfl, ?_, accum_neg ..⟩, fun i hi => absurd hi List.not_mem_nil⟩ <;>
      rw [notInCompat_of_native hcompat] <;> rfl

end Sys2Proof.Machine

/-! PROOF. SliceMemory: loads, stores, pointers and control registers of a slice, and O25. -/

namespace Sys2Proof.Machine

/-! ### Data memory (R194, R196, R197) -/

theorem assoc_assocDel {α : Type} (l : List (Nat × α)) (k j : Nat) : assoc (assocDel l k) j = if j = k then none else assoc l j := by
  induction l with
  | nil => simp [assocDel, assoc]
  | cons p l ih =>
    obtain ⟨a, v⟩ := p
    by_cases ha : a = k <;> simp_all [assocDel, assoc] <;> grind

/-- A word of data memory after a store. -/
theorem assoc_dmemPut (m : List (Nat × BitVec 24)) (a k : Nat) (v : BitVec 24) :
    (assoc (dmemPut m a v) k).getD 0 = if k = a then v else (assoc m k).getD 0 := by
  by_cases hv : v = 0
  · rw [dmemPut, if_pos hv, assoc_assocDel, hv]
    split <;> rfl
  · rw [dmemPut, if_neg hv, assoc_assocPut]
    split <;> rfl

theorem noAxis_complete (e : Eff) (fl : Flow) (x : SliceSt) (a : BitVec 12) : noAxis (complete e fl x) a = noAxis x a := by
  have h := complete_unexecuted e fl x
  have h0 : (complete e fl x).ax0 = x.ax0 := (congrArg SliceSt.ax0 h :)
  have h1 : (complete e fl x).ax1 = x.ax1 := (congrArg SliceSt.ax1 h :)
  rw [noAxis, h0, h1, noAxis]

/-- A store reads back where the slot has an axis, and changes no other word. -/
theorem dmemRead_complete {e : Eff} {a : BitVec 12} {v : BitVec 24} {fl : Flow} {x : SliceSt} (he : e.store = some (a, v))
    (hm : (complete e fl x).dmem = stored e x.dmem) :
    dmemRead (complete e fl x) a = (if noAxis x a then 0 else v) ∧ ∀ k, k ≠ a → dmemRead (complete e fl x) k = dmemRead x k := by
  simp only [stored, he] at hm
  refine ⟨?_, fun k hk => ?_⟩
  · rw [dmemRead, noAxis_complete, hm, assoc_dmemPut, if_pos rfl]
  · have hne : k.toNat ≠ a.toNat := fun h => hk (BitVec.eq_of_toNat_eq h)
    rw [dmemRead, noAxis_complete, hm, assoc_dmemPut, if_neg hne, dmemRead]

/-! ### Pointers (R185, R186) -/

/-- The update of a pointer, if any, as an immediate result. -/
def pointerResults (pn : Nat) (u : Option (BitVec 12)) : List SPend := match u with | some v => [toP pn v] | none => []

/-- The pointers after it. -/
def pointed (pn : Nat) (u : Option (BitVec 12)) (p : List (BitVec 12)) : List (BitVec 12) :=
  match u with | some v => updAt p pn (fun _ => v) | none => p

theorem landAll_pointerResults (y : SliceSt) (pn : Fin 4) (u : Option (BitVec 12)) :
    landAll y (pointerResults pn u) = { y with d := y.d, p := pointed pn u y.p } := by
  cases u with
  | none => rfl
  | some v => exact landAll_toP y pn v

theorem nth_pointed {pn : Nat} (u : Option (BitVec 12)) {p : List (BitVec 12)} (h : pn < p.length) :
    nth (pointed pn u p) pn = u.getD (nth p pn) := by
  cases u with
  | none => rfl
  | some v => exact nth_updAt_self _ _ _ h

theorem nth_pointed_ne {pn i : Nat} (u : Option (BitVec 12)) (p : List (BitVec 12)) (h : i ≠ pn) : nth (pointed pn u p) i = nth p i := by
  cases u with
  | none => rfl
  | some v => exact nth_updAt_ne _ _ _ _ h

/-- An instruction that writes data memory or a pointer besides its late results. -/
theorem completed_of_pointer {e : Eff} {pn : Fin 4} {u : Option (BitVec 12)} (h : e.imm = pointerResults pn u) (fl : Flow) (x : SliceSt) :
    Completed e (commit x).d (pointed pn u (commit x).p) x (complete e fl x) :=
  completed_complete (by rw [h]; exact landAll_pointerResults ..) fl

section
variable {rd : Fin 8} {pn am : Fin 4} {off a : BitVec 12} {u : Option (BitVec 12)} {x : SliceSt}

theorem effLd_of_operand (h : memOperand x pn am off = some (a, u)) :
    effLd rd pn am off x = { imm := pointerResults pn u, late := [toD rd (dmemRead x a)] } := by
  rw [effLd, h]
  cases u <;> rfl

theorem effSt_of_operand (h : memOperand x pn am off = some (a, u)) :
    effSt rd pn am off x = effStore a (dReg x rd) { imm := pointerResults pn u } := by
  rw [effSt, h]
  cases u <;> rfl

theorem effStore_of_writable {v : BitVec 24} {e : Eff} (h : dmemWritable a = true) : effStore a v e = { e with store := some (a, v) } :=
  if_pos h

theorem effStore_of_not_writable {v : BitVec 24} {e : Eff} (h : dmemWritable a = false) : effStore a v e = { ill := 3 } := by
  rw [effStore, h, if_neg Bool.false_ne_true]

theorem effLd_of_reserved (h : memOperand x pn am off = none) : effLd rd pn am off x = { ill := 2 } := by rw [effLd, h]

theorem effSt_of_reserved (h : memOperand x pn am off = none) : effSt rd pn am off x = { ill := 2 } := by rw [effSt, h]

end

section
variable {b sl : Nat} {x : SliceSt} {s : State} {F : SliceSt → Eff}

/-- A store, where the program may write, with a pointer update. -/
theorem run_store {e : Eff} {a : BitVec 12} {v : BitVec 24} {pn : Fin 4} {u : Option (BitVec 12)} (h : sliceFree b sl s x)
    (hpn : pn.val < x.p.length) (hF : F x = { e with store := some (a, v) }) (himm : e.imm = pointerResults pn u) (hill : e.ill = 0)
    (htrap : stBit x 20 = true → e.ovf = false) :
    ∃ t y, run (plainInstr b sl F) s = .next t ∧ sliceStep b sl s t y ∧ executed x y ∧
      dmemRead y a = (if noAxis x a then 0 else v) ∧ (∀ k, k ≠ a → dmemRead y k = dmemRead x k) ∧
      nth y.p pn = u.getD (nth (commit x).p pn) ∧ (∀ i, i ≠ pn.val → nth y.p i = nth (commit x).p i) ∧ y.d = (commit x).d ∧
      flagsAre ((e.nz.map (·.1)).getD (stBit (commit x) 1)) ((e.nz.map (·.2)).getD (stBit (commit x) 0))
        (stBit (commit x) 2 || e.ovf) (stBit (commit x) 3 || e.sat) x y := by
  obtain ⟨t, hrun, hstep⟩ := run_plainInstr h hF hill htrap
  have hy := completed_of_pointer (e := { e with store := some (a, v) }) himm .next x
  obtain ⟨hread, hother⟩ := dmemRead_complete rfl hy.dmem
  refine ⟨t, _, hrun, hstep, executed_next x, hread, hother, ?_, fun i hi => ?_, hy.d_eq, hy.flags⟩
  · rw [hy.p_eq, nth_pointed u (by rwa [(landed_commit x).p_length])]
  · rw [hy.p_eq, nth_pointed_ne u _ hi]

/-- An instruction whose only result is in flight. -/
theorem run_late {p : SPend} (h : sliceFree b sl s x) (hF : F x = { late := [p] }) :
    ∃ t y, run (plainInstr b sl F) s = .next t ∧ sliceStep b sl s t y ∧ executed x y ∧ y.pend = [p] ∧ y.d = (commit x).d ∧
      registersKept x y := by
  obtain ⟨t, hrun, hstep⟩ := run_plainInstr h hF rfl fun _ => rfl
  have hy := completed_of_late (e := { late := [p] }) rfl .next x
  exact ⟨t, _, hrun, hstep, executed_next x, hy.pend, hy.d_eq, hy.kept rfl rfl⟩

end

/-- A control register that exists is not reserved (R184). -/
theorem ite_crOk {cr : Nat} (h : cr < 22) (e e' : Eff) : (if crOk cr then e else e') = e := by
  rw [crOk, if_pos (decide_eq_true h)]

theorem ite_crOk_of_reserved {cr : Nat} (h : 22 ≤ cr) (e e' : Eff) : (if crOk cr then e else e') = e' := by
  rw [crOk, if_neg (by simpa using h)]

/-- Settles O25, by the rules of a load, a store, a result in flight to a control register, and an illegal operation. -/
theorem sliceMemory : Obligations.SliceMemory := by
  unfold Obligations.SliceMemory
  refine ⟨?_, ?_, ?_, ?_, ?_, ?_⟩
  · intro b sl rd pn am off a u x s hfree hop hpn
    obtain ⟨t, hrun, hstep⟩ := run_plainInstr hfree (effLd_of_operand (rd := rd) hop) rfl fun _ => rfl
    have hy := completed_of_pointer (e := { imm := pointerResults pn u, late := [toD rd (dmemRead x a)] }) rfl .next x
    have hflags := hy.flags
    rw [Bool.or_false, Bool.or_false] at hflags
    refine ⟨t, _, hrun, hstep, executed_next x, hy.pend, ?_, fun i hi => ?_, hy.d_eq, hy.dmem, hflags⟩
    · rw [hy.p_eq, nth_pointed u (by rwa [(landed_commit x).p_length])]
    · rw [hy.p_eq, nth_pointed_ne u _ hi]
  · intro b sl rd pn am off a u x s hfree hop hpn hw
    have h := run_store (e := { imm := pointerResults pn u }) hfree hpn
      ((effSt_of_operand (rd := rd) hop).trans (effStore_of_writable hw)) rfl rfl fun _ => rfl
    rwa [Bool.or_false, Bool.or_false] at h
  · intro b sl ax pn amm sh sat x s hfree hpn hw htrap
    obtain ⟨t, y, hrun, hstep, hexec, hread, hother, hp, -, hd, -, -, hv, hsat, -⟩ := run_store
      (F := effStr ax pn amm sh sat) (u := some (ammUpdate x pn amm))
      (e := { imm := pointerResults pn (some (ammUpdate x pn amm)), ovf := (store24 (aReg x ax).toInt sh sat).ovf,
              sat := (store24 (aReg x ax).toInt sh sat).sat }) hfree hpn
      (effStore_of_writable (v := (store24 (aReg x ax).toInt sh sat).val) hw) rfl rfl htrap
    exact ⟨t, y, hrun, hstep, hexec, hread, hother, hp, hd, hv, hsat⟩
  · intro b sl rd cr pn imm inc x s hfree hcr
    refine ⟨run_late hfree (ite_crOk hcr ..), ?_, run_late hfree rfl, fun hrd => ?_⟩
    · have himm : (imm.setWidth 24).setWidth 56 = imm.setWidth 56 := by
        refine BitVec.eq_of_toNat_eq ?_
        simp only [BitVec.toNat_setWidth]
        omega
      rw [← himm]
      exact run_late hfree (ite_crOk hcr ..)
    · obtain ⟨t, y, hrun, hstep, hexec, hval, hd, -, hkept⟩ := run_effRes (r := { val := crRead x cr }) hfree hrd
        (F := fun x => if crOk cr then effVal rd (crRead x cr) else { ill := 2 }) (ite_crOk hcr ..) fun _ => rfl
      exact ⟨t, y, hrun, hstep, hexec, hval, hd, hkept⟩
  · intro b sl rd pn am off cr ax cond tgt x s hfree hslot hend hill hrot hop hcr hcond i hi
    suffices hF : ∃ ctl F G, exec i s = run (execSlice b sl ctl F G) s ∧ (F x).ill = 2 by
      obtain ⟨ctl, F, G, hexec, hF⟩ := hF
      obtain ⟨t, y, hrun, hy, hcause, hpc, hepc, -, hdmem, hlog, honly⟩ :=
        run_illegal (G := G) hfree (fun _ => ⟨hslot, hend⟩) hill hrot hF (by decide)
      exact ⟨t, y, hexec.trans hrun, hy, hcause, hpc, hepc, hdmem, hlog, honly⟩
    revert i
    simp only [List.forall_mem_cons]
    refine ⟨⟨_, _, _, rfl, ?_⟩, ⟨_, _, _, rfl, ?_⟩, ⟨_, _, _, rfl, ?_⟩, ⟨_, _, _, rfl, ?_⟩, ⟨_, _, _, rfl, ?_⟩, ⟨_, _, _, rfl, rfl⟩,
      ⟨_, _, _, rfl, rfl⟩, ⟨_, _, _, rfl, ?_⟩, fun i hi => absurd hi List.not_mem_nil⟩
    · rw [effLd_of_reserved hop]
    · rw [effSt_of_reserved hop]
    · rw [ite_crOk_of_reserved hcr]
    · rw [ite_crOk_of_reserved hcr]
    · rw [ite_crOk_of_reserved hcr]
    · rw [if_pos hcond]
  · intro b sl rd pn am off a u x s hfree hill hrot hop hw
    obtain ⟨t, y, hrun, hy, hcause, hpc, hepc, -, hdmem, hlog, honly⟩ := run_illegal (ctl := false) (F := effSt rd pn am off)
      (G := fun _ => .next) hfree (by simp) hill hrot
      (congrArg Eff.ill ((effSt_of_operand hop).trans (effStore_of_not_writable hw))) (by decide)
    exact ⟨t, y, hrun, hy, hcause, hpc, hepc, hdmem, hlog, honly⟩

end Sys2Proof.Machine

/-! PROOF. SliceControl: compares, transfers, delay slots and loops of a slice, and O26. -/

namespace Sys2Proof.Machine

/-! ### Compares (R189) -/

/-- N and Z of an exact difference say how the operands compare. -/
theorem nzOf_sub (u v : Int) : nzOf (u - v) = (decide (u < v), decide (u = v)) := by
  simp only [nzOf, Prod.mk.injEq, decide_eq_decide]
  omega

/-- CMP and CMPI. -/
theorem run_compare {b sl : Nat} {x : SliceSt} {s : State} {F : SliceSt → Eff} {n z : Bool} (h : sliceFree b sl s x)
    (hF : F x = { nz := some (n, z) }) :
    ∃ t y, run (plainInstr b sl F) s = .next t ∧ sliceStep b sl s t y ∧ executed x y ∧ y.d = (commit x).d ∧
      flagsAre n z (stBit (commit x) 2) (stBit (commit x) 3) x y ∧ registersKept x y := by
  obtain ⟨t, hrun, hstep⟩ := run_plainInstr h hF rfl fun _ => rfl
  have hy := completed_of_late (e := { nz := some (n, z) }) rfl .next x
  have hflags := hy.flags
  rw [Bool.or_false, Bool.or_false] at hflags
  exact ⟨t, _, hrun, hstep, executed_next x, hy.d_eq, hflags, hy.kept rfl rfl⟩

/-! ### Transfers and delay slots (R190) -/

section
variable {b sl : Nat} {x : SliceSt} {s : State} {F : SliceSt → Eff} {G : SliceSt → Flow}

/-- A transfer goes to its delay slot, its target set. -/
theorem run_transfer {l : List SPend} {j : Option (BitVec 11)} {c : Bool} (h : sliceClear b sl s x) (hF : F x = { late := l })
    (hG : G x = .transfer j c) :
    ∃ t y, run (execSlice b sl true F G) s = .next t ∧ sliceStep b sl s t y ∧ y.inSlot = true ∧ y.pc = x.pc + 1 ∧ y.jump = j ∧
      y.d = (commit x).d ∧ registersKept x y ∧ y.pend = l := by
  obtain ⟨t, hrun, hstep⟩ := run_control (G := G) h hF rfl rfl
  have hy := completed_of_late (e := { late := l }) rfl (G x) x
  rw [hG] at hy hstep
  exact ⟨t, _, hrun, hstep, rfl, rfl, rfl, hy.d_eq, hy.kept rfl rfl, hy.pend⟩

/-- LR once the result of CALL has landed. -/
theorem commit_lr_of_flight {y : SliceSt} {a : BitVec 11} (h : y.pend = [toCr 21 (a.setWidth 24)]) : (commit y).lr = a := by
  have ha : ((a.setWidth 24).setWidth 56).setWidth 11 = a := by
    refine BitVec.eq_of_toNat_eq ?_
    simp only [BitVec.toNat_setWidth]
    omega
  rw [commit, h]
  exact ha

/-- The instruction of a delay slot goes on at the target. -/
theorem complete_next_of_jump {e : Eff} {a : BitVec 11} (hs : x.inSlot = true) (hj : x.jump = some a) :
    (complete e .next x).pc = a ∧ (complete e .next x).inSlot = false ∧ (complete e .next x).jump = none := by
  simp only [complete_eq, followed, hs, hj, if_true, and_self]

/-! ### Loops (R191) -/

/-- A loop that has been started. -/
def loopStarted (k : Nat) (e : BitVec 11) (a : BitVec 11) (c : BitVec 14) (y : SliceSt) : SliceSt :=
  stSet { y with ls := updAt y.ls k (fun _ => a), le := updAt y.le k (fun _ => e), lc := updAt y.lc k (fun _ => c) } (21 + k) (c != 0)

/-- A loop instruction that is legal starts its loop. -/
theorem loopInstr_of_legal {k : Nat} {e : BitVec 11} {count : SliceSt → BitVec 14} (h : sliceClear b sl s x)
    (hbad : loopBad x k e = false) :
    loopInstr b sl k e count s = onSlice b sl (loopStarted k e (x.pc + 1) (count x))
      (onSlice b sl (complete {} (.goto (if count x = 0 then e + 1 else x.pc + 1))) s) := by
  have hfree := sliceFree_of_clear h
  obtain ⟨hx, hrun, -, hslot, hend⟩ := h
  have hlegal := execSlice_of_legal (ctl := true) (F := fun x => if loopBad x k e then { ill := 5 } else {})
    (G := fun x' => .goto (if count x = 0 then e + 1 else x'.pc + 1)) hfree (fun _ => ⟨hslot, hend⟩) (by simp [hbad]) (by simp [hbad])
  simp only [loopInstr, hx, hlegal]
  simp only [hrun, hslot, hend, hbad, Bool.not_true, Bool.or_false, Bool.false_eq_true, if_false]
  rfl

theorem run_loopInstr {k : Fin 2} {e : BitVec 11} {count : SliceSt → BitVec 14} (h : sliceClear b sl s x)
    (hbad : loopBad x k e = false) (hls : x.ls.length = 2) (hle : x.le.length = 2) (hlc : x.lc.length = 2) :
    ∃ t y, run (loopInstr b sl k e count) s = .next t ∧ sliceStep b sl s t y ∧ nth y.ls k = x.pc + 1 ∧ nth y.le k = e ∧
      nth y.lc k = count x ∧ stBit y (21 + k) = decide (count x ≠ 0) ∧ y.pc = (if count x = 0 then e + 1 else x.pc + 1) ∧
      y.d = (commit x).d := by
  have hstep : sliceStep b sl s (loopInstr b sl k e count s) (loopStarted k e (x.pc + 1) (count x)
      (complete {} (.goto (if count x = 0 then e + 1 else x.pc + 1)) x)) := by
    rw [loopInstr_of_legal h hbad]
    obtain ⟨hx, -⟩ := h
    exact sliceStep_onSlice_twice (complete_place {} (.goto (if count x = 0 then e + 1 else x.pc + 1))) (fun _ => ⟨rfl, rfl⟩) hx
  obtain ⟨t, hrun, hstep⟩ := run_of_sliceStep hstep
  have hl := landed_commit x
  refine ⟨t, _, hrun, hstep, nth_updAt_self _ _ _ ?_, nth_updAt_self _ _ _ ?_, nth_updAt_self _ _ _ ?_, ?_, rfl, rfl⟩
  · exact (hl.ls_length.trans hls).symm ▸ k.isLt
  · exact (hl.le_length.trans hle).symm ▸ k.isLt
  · exact (hl.lc_length.trans hlc).symm ▸ k.isLt
  · rw [loopStarted, stBit_stSet (by omega), if_pos rfl]
    rw [Bool.eq_iff_iff, bne_iff_ne, decide_eq_true_iff]

theorem nth_mapIdx {α : Type} [Inhabited α] (f : Nat → α → α) (n : Nat) {l : List α} {i : Nat} (h : i < l.length) :
    nth (mapIdx f n l) i = f (n + i) (nth l i) := by
  induction l generalizing n i with
  | nil => exact absurd h (Nat.not_lt_zero i)
  | cons a l ih =>
    cases i with
    | zero => rfl
    | succ i =>
      have := ih (n + 1) (Nat.lt_of_succ_lt_succ h)
      rw [Nat.add_right_comm] at this
      exact this

/-- The decision at the end of loop 0 alone: on at its start while the count lasts, then out of it. -/
theorem loopNext_of_end {pc : BitVec 11} (h0 : stBit x 21 = true) (h1 : stBit x 22 = false) (hpc : x.pc = nth x.le 0)
    (hlc : x.lc.length = 2) :
    nth (loopNext x pc [1, 0]).1.lc 0 = nth x.lc 0 - 1 ∧
      (loopNext x pc [1, 0]).2 = (if nth x.lc 0 - 1 ≠ 0 then nth x.ls 0 else x.pc + 1) ∧
      stBit (loopNext x pc [1, 0]).1 21 = decide (nth x.lc 0 - 1 ≠ 0) := by
  have hlen : 0 < x.lc.length := hlc.symm ▸ Nat.two_pos
  simp only [loopNext, h0, h1, ← hpc, decide_true, Bool.and_self, Bool.false_and, Bool.false_eq_true, if_false, if_true, bne_iff_ne]
  by_cases hc : nth x.lc 0 - 1 ≠ 0
  · simp only [if_pos hc, decide_eq_true hc]
    exact ⟨nth_updAt_self _ _ _ hlen, trivial, h0⟩
  · simp only [if_neg hc, decide_eq_false hc]
    exact ⟨nth_updAt_self _ _ _ hlen, trivial, (stBit_stSet (by decide) ..).trans (if_pos rfl)⟩

/-- The instruction at the end of loop 0 counts it down, and goes back while the count lasts. -/
theorem complete_next_of_loopEnd {e : Eff} (hs : x.inSlot = false) (h0 : stBit x 21 = true) (h1 : stBit x 22 = false)
    (hpc : x.pc = nth x.le 0) (hlc : x.lc.length = 2) :
    nth (complete e .next x).lc 0 = nth x.lc 0 - 1 ∧
      (complete e .next x).pc = (if nth x.lc 0 - 1 ≠ 0 then nth x.ls 0 else x.pc + 1) ∧
      stBit (complete e .next x) 21 = decide (nth x.lc 0 - 1 ≠ 0) := by
  have hend : atLoopEnd x = true := by simp [atLoopEnd, h0, hpc]
  have hlen : 0 < (effected e x).lc.length := by
    rw [effected_eq]
    exact ((landed_imm e x).lc_length.trans hlc).symm ▸ Nat.two_pos
  have hne : nth x.lc 0 - 1 ≠ nth x.lc 0 := by
    intro h
    bv_omega
  obtain ⟨hcount, hnext, hbit⟩ := loopNext_of_end (pc := x.pc + 1) h0 h1 hpc hlc
  rw [complete_eq]
  simp only [followed, hs, hend, Bool.false_eq_true, if_false, if_true]
  rw [show ({ x with pc := x.pc } : SliceSt) = x from rfl]
  generalize loopNext x (x.pc + 1) [1, 0] = r at hcount hnext hbit
  refine ⟨?_, hnext, ?_⟩
  · rw [nth_mapIdx _ _ hlen]
    simp only [Nat.add_zero, hcount, hne, if_false]
  · rw [← hbit, stBit, stBit, BitVec.getLsbD_or, BitVec.getLsbD_and, BitVec.getLsbD_and]
    simp

end

/-- Settles O26, by the rules of a compare, a transfer, a delay slot, a loop's start and a loop's end. -/
theorem sliceControl : Obligations.SliceControl := by
  unfold Obligations.SliceControl
  refine ⟨?_, ?_, ?_, ?_, ?_, ?_, ?_⟩
  · intro b sl rs rt imm x s hfree
    refine ⟨?_, run_compare hfree ?_, run_compare hfree ?_⟩
    · obtain ⟨t, hrun, hstep⟩ := run_plainInstr (F := fun _ => {}) hfree rfl rfl fun _ => rfl
      have hy := completed_of_late (e := {}) rfl .next x
      have hflags := hy.flags
      rw [Bool.or_false, Bool.or_false] at hflags
      exact ⟨t, _, hrun, hstep, executed_next x, hy.d_eq, hy.pend, hflags, hy.kept rfl rfl⟩
    · rw [nzOf_sub]
      simp only [BitVec.toInt_inj]
    · rw [nzOf_sub]
  · intro b sl cond tgt x s hclear hcond
    obtain ⟨t, y, hrun, hstep, hslot, hpc, hjump, hd, hkept, -⟩ := run_transfer
      (F := fun _ => if 7 ≤ cond.val then { ill := 2 } else {})
      (G := fun x => .transfer (if condHolds cond (stBit x 1) (stBit x 0) then some tgt else none) true)
      hclear (if_neg (Nat.not_le.2 hcond)) rfl
    exact ⟨t, y, hrun, hstep, hslot, hpc, hjump, hd, hkept⟩
  · intro b sl tgt x s hclear
    refine ⟨?_, ?_, ?_⟩
    · obtain ⟨t, y, hrun, hstep, hslot, hpc, hjump, hd, hkept, -⟩ := run_transfer (F := fun _ => {})
        (G := fun _ => .transfer (some tgt) true) hclear rfl rfl
      exact ⟨t, y, hrun, hstep, hslot, hpc, hjump, hd, hkept⟩
    · obtain ⟨t, y, hrun, hstep, hslot, hpc, hjump, hd, hkept, hpend⟩ := run_transfer
        (F := fun x => { late := [toCr 21 ((x.pc + 2).setWidth 24)] }) (G := fun _ => .transfer (some tgt) false) hclear rfl rfl
      exact ⟨t, y, hrun, hstep, hslot, hpc, hjump, commit_lr_of_flight hpend, hd, hkept⟩
    · obtain ⟨t, y, hrun, hstep, hslot, hpc, hjump, hd, hkept, -⟩ := run_transfer (F := fun _ => {})
        (G := fun x => .transfer (some x.lr) false) hclear rfl rfl
      exact ⟨t, y, hrun, hstep, hslot, hpc, hjump, hd, hkept⟩
  · intro b sl tgt x s hfree hslot hjump
    obtain ⟨t, hrun, hstep⟩ := run_plainInstr (F := fun _ => {}) hfree rfl rfl fun _ => rfl
    exact ⟨t, _, hrun, hstep, complete_next_of_jump hslot hjump⟩
  · intro b sl tgt x s hx hrun hslot hill hab hrot i hi
    suffices hK : ∃ K, exec i s = run K s ∧ K s = illegalAt b sl 4 s by
      obtain ⟨K, hexec, hK⟩ := hK
      obtain ⟨t, ht, hy, hlog, -, -⟩ := run_of_illegal hK hx hill hrot
      obtain ⟨hpc, hepc, -⟩ := illegalEntry_of_no_abort (cause := 4) hab
      exact ⟨t, _, hexec.trans ht, hy, illegalEntry_illegal 4 x, hpc, hepc, hlog⟩
    revert i
    simp only [List.forall_mem_cons]
    exact ⟨⟨_, rfl, execSlice_of_slot hx hrun hslot⟩, ⟨_, rfl, execSlice_of_slot hx hrun hslot⟩,
      ⟨_, rfl, execSlice_of_slot hx hrun hslot⟩, ⟨_, rfl, execSlice_of_slot hx hrun hslot⟩,
      ⟨_, rfl, by simp [rteInstr, hx, hrun, hslot]⟩, fun i hi => absurd hi List.not_mem_nil⟩
  · intro b sl k e n rs x s hclear hbad hls hle hlc p hp
    suffices hK : ∃ count, exec p.1 s = run (loopInstr b sl k e count) s ∧ count x = p.2 by
      obtain ⟨count, hexec, hcount⟩ := hK
      rw [hexec, ← hcount]
      exact run_loopInstr hclear hbad hls hle hlc
    revert p
    simp only [List.forall_mem_cons]
    exact ⟨⟨_, rfl, rfl⟩, ⟨_, rfl, rfl⟩, fun i hi => absurd hi List.not_mem_nil⟩
  · intro b sl x s hfree hslot h0 h1 hpc hlc
    obtain ⟨t, hrun, hstep⟩ := run_plainInstr (F := fun _ => {}) hfree rfl rfl fun _ => rfl
    exact ⟨t, _, hrun, hstep, complete_next_of_loopEnd hslot h0 h1 hpc hlc⟩

end Sys2Proof.Machine

/-! PROOF. SliceEvents: the overflow trap, RTE, illegal words and the tick abort of a slice, and O27. -/

namespace Sys2Proof.Machine

/-! ### Entering an event (R192) -/

/-- ST on entry of an event has both loops inactive. -/
theorem enterEvent_loops (kind : Nat) (vector epc : BitVec 11) (x : SliceSt) :
    stBit (enterEvent kind vector epc x) 22 = false ∧ stBit (enterEvent kind vector epc x) 21 = false := by
  simp [stBit, enterEvent]

/-- Two updates of one slice are one. -/
theorem onSlice_onSlice {f : SliceSt → SliceSt} (hf : ∀ x, (f x).b = x.b ∧ (f x).s = x.s) (b sl : Nat)
    (g : SliceSt → SliceSt) (s : State) : onSlice b sl g (onSlice b sl f s) = onSlice b sl (fun x => g (f x)) s := by
  simp only [onSlice, List.map_map]
  congr 3
  funext x
  by_cases h : x.b = b ∧ x.s = sl <;> simp [h, hf]

/-! ### The overflow trap (R183, R193) -/

/-- A trap is counted. -/
def trapCounted (x : SliceSt) : SliceSt := { x with trapcnt := satAdd 0xFFFF x.trapcnt 1 }

/-- A trap that is counted and whose handler is entered, raised by the instruction at an address. -/
def overflowEntry (pc : BitVec 11) (x : SliceSt) : SliceSt :=
  { enterEvent 1 0x004 x.pc (trapCounted x) with trapped := true, evPc := pc }

theorem overflowEntry_place (pc : BitVec 11) (x : SliceSt) :
    (overflowEntry pc x).b = x.b ∧ (overflowEntry pc x).s = x.s := ⟨commit_b _, commit_s _⟩

section
variable {b sl : Nat} {x : SliceSt} {s : State} {F : SliceSt → Eff} {e : Eff}

/-- An overflow with TE set outside an event completes its instruction and enters the handler. -/
theorem plainInstr_of_trap (h : sliceFree b sl s x) (hF : F x = e) (hill : e.ill = 0) (hovf : e.ovf = true) (hte : stBit x 20 = true)
    (hev : stBit x 23 = false) :
    plainInstr b sl F s = eventOnce 0x0540 (16 * b + sl) (16 * b + sl)
      (onSlice b sl (fun y => overflowEntry x.pc (complete e .next y)) s) := by
  obtain ⟨hx, hrun, hab, hpos⟩ := h
  have hx' := sliceSt_onSlice_self (complete_place e .next) hx
  have hab' := (complete_abortWait e .next x).trans hab
  rw [← onSlice_onSlice (complete_place e .next)]
  simp only [plainInstr, execSlice, hx, hrun, hF, hill, hpos, afterInstr, hx', hab', hovf, hte, hev, Bool.not_true, Bool.and_self,
    bne_self_eq_false, Bool.false_eq_true, Bool.false_and,
    Bool.or_self, if_false, if_true, sliceDetail]
  rw [onSlice_onSlice (f := fun x => { x with trapcnt := satAdd 0xFFFF x.trapcnt 1 }) fun _ => ⟨rfl, rfl⟩]
  rfl

/-- What the handler of an overflow of a 24-bit result finds. -/
theorem overflowEntry_effRes {rd : Nat} {r : Res24} (hrd : rd < x.d.length) (hs : x.inSlot = false) (hend : atLoopEnd x = false)
    (hev : stBit x 23 = false) (hovf : r.ovf = true) (y : SliceSt) (hy : y = overflowEntry x.pc (complete (effRes rd r) .next x)) :
    y.pc = 0x004 ∧ y.epc = x.pc + 1 ∧ dReg y rd = r.val ∧ stBit y 23 = true ∧ stBit y 22 = false ∧ stBit y 21 = false ∧
      y.estat.getLsbD 2 = true ∧ y.estat.getLsbD 23 = false ∧ y.trapcnt = satAdd 0xFFFF x.trapcnt 1 := by
  obtain ⟨hval, -, ⟨-, -, hv, -, hrest⟩, -⟩ := completed_effRes hrd r
  have hpc := (executed_next (e := effRes rd r) x).2 hs hend
  have hcount := complete_trapcnt (effRes rd r) .next x
  have hpend : (complete (effRes rd r) .next x).pend = [] := by
    obtain ⟨_, _, _, _, _, _, hframe, -, -⟩ := complete_frame (effRes rd r) .next x
    rw [hframe]
    rfl
  have hev' : stBit (complete (effRes rd r) .next x) 23 = false :=
    ((getLsbD_of_and_eq hrest (by decide)).trans (stBit_commit (by decide))).trans hev
  generalize complete (effRes rd r) .next x = z at hval hv hpc hcount hpend hev' hy
  subst hy
  have hz : commit (trapCounted z) = trapCounted z := commit_of_empty hpend
  obtain ⟨h22, h21⟩ := enterEvent_loops 1 0x004 z.pc (trapCounted z)
  refine ⟨rfl, hpc, ?_, enterEvent_ev 1 0x004 z.pc (trapCounted z), h22, h21, ?_, ?_, ?_⟩ <;>
    simp only [dReg, overflowEntry, enterEvent, hz]
  · exact hval
  · exact hv.trans (by rw [hovf, Bool.or_true])
  · exact hev'
  · exact congrArg (satAdd 0xFFFF · 1) hcount

/-- The trap of an overflow is raised once per tick (R454). -/
theorem run_trap {rd : Nat} {r : Res24} (h : sliceFree b sl s x) (hF : F x = effRes rd r) (hovf : r.ovf = true)
    (hte : stBit x 20 = true) (hev : stBit x 23 = false) (honce : s.chip.once.contains (0x0540, 16 * b + sl) = false) :
    ∃ t, run (plainInstr b sl F) s = .next t ∧ sliceSt t b sl = some (overflowEntry x.pc (complete (effRes rd r) .next x)) ∧
      logged 0x0540 (16 * b + sl) s t ∧ only [.chip, .mot] s t := by
  have hK := plainInstr_of_trap h hF rfl hovf hte hev
  obtain ⟨hx, -, -, -⟩ := h
  have hplace (y : SliceSt) : (overflowEntry x.pc (complete (effRes rd r) .next y)).b = y.b ∧
      (overflowEntry x.pc (complete (effRes rd r) .next y)).s = y.s :=
    ⟨(overflowEntry_place ..).1.trans (complete_place ..).1, (overflowEntry_place ..).2.trans (complete_place ..).2⟩
  have hslice := sliceSt_onSlice_self hplace hx
  obtain ⟨hlog, -⟩ := eventOnce_quiet_or_logged (s := s) (c := 0x0540) (k := 16 * b + sl) (d := 16 * b + sl)
    (u := onSlice b sl (fun y => overflowEntry x.pc (complete (effRes rd r) .next y)) s) ⟨rfl, rfl, rfl⟩ rfl rfl
  refine ⟨_, run_of_logged hK (hlog honce), ?_, hlog honce, ?_⟩
  · unfold eventOnce
    split <;> exact hslice
  · simp [eventOnce]

/-! ### RTE and illegal words (R192, R194) -/

/-- The return from an event. -/
def returned (x : SliceSt) : SliceSt := { commit (complete {} (.goto x.epc) x) with st := x.estat, inAbort := false }

theorem rteInstr_of_handler (h : sliceClear b sl s x) (hev : stBit x 23 = true) (hill : x.illegal = 0) :
    rteInstr b sl s = onSlice b sl returned s := by
  obtain ⟨hx, hrun, -, hslot, hend⟩ := h
  simp only [rteInstr, hx, hrun, hslot, hend, hev, hill, Bool.not_true, Bool.or_self, bne_self_eq_false, Bool.false_and,
    Bool.false_eq_true, if_false]
  rfl

theorem rteInstr_of_no_event (h : sliceClear b sl s x) (hev : stBit x 23 = false) : rteInstr b sl s = illegalAt b sl 7 s := by
  obtain ⟨hx, hrun, -, hslot, hend⟩ := h
  simp [rteInstr, hx, hrun, hslot, hend, hev]

/-- What RTE leaves. -/
theorem returned_eq (x : SliceSt) : (returned x).pc = x.epc ∧ (returned x).d = (commit x).d ∧
    (returned x).icnt = satAdd 0xFFFF x.icnt 1 := by
  have hy := completed_of_late (e := {}) rfl (.goto x.epc) x
  have hc : commit (complete {} (.goto x.epc) x) = complete {} (.goto x.epc) x := commit_of_empty hy.pend
  simp only [returned, hc, hy.d_eq, hy.icnt, and_self, and_true]
  rfl

theorem returned_place (x : SliceSt) : (returned x).b = x.b ∧ (returned x).s = x.s := by
  obtain ⟨hb, hs⟩ := complete_place {} (.goto x.epc) x
  exact ⟨(commit_b _).trans hb, (commit_s _).trans hs⟩

theorem illegalWord_of_error {cause : Nat} {w : Word} (hx : sliceSt s b sl = some x) (hrun : canRun x = true)
    (hw : sliceDecode b sl w = .error cause) : illegalWord b sl w s = illegalAt b sl cause s := by
  simp [illegalWord, hx, hrun, hw]

theorem illegalWord_of_ok {w : Word} {i : Instr} (hw : sliceDecode b sl w = .ok i) : illegalWord b sl w s = s := by
  simp only [illegalWord, hw]
  split
  · split <;> rfl
  · rfl

/-- A second illegal operation while the first is handled is a fault of the program. -/
theorem illegalAt_of_second {cause : Nat} (hsl : sl < 8) (hx : sliceSt s b sl = some x) (hill : x.illegal ≠ 0)
    (hab : x.inAbort = false) : illegalAt b sl cause s = motSliceFault b sl 1 s := by
  have h8 : sl ≠ 8 := Nat.ne_of_lt hsl
  simp [illegalAt, hx, hill, hab, programFault, rotating, h8]

end

/-! ### A slice that stops on a fault (R41 to R43, R195) -/

/-- The reaction to the loss of any block of MOT, a servo block or a block of the KDE, keeps a stopped slice. -/
theorem stoppedKept_blockReaction_mot (b sl c : Nat) (s : State) : StoppedKept b sl s (blockReaction .mot c s) := by
  by_cases h : c < 8
  · exact stoppedKept_blockReaction h s
  · simp only [blockReaction, h, if_false]
    have hposes : StoppedKept b sl s (forAll (bitsOf (groupsOfKde s (c - 8)))
        (fun g => onGrp g (fun x => { x with frozenPoses := true })) s) :=
      forAll_preserves (P := StoppedKept b sl s) (f := fun g => onGrp g (fun x => { x with frozenPoses := true }))
        (fun _ _ h => h.trans ⟨rfl, fun _ hy _ => hy⟩) _ (.of_mot rfl)
    exact hposes.trans (.of_mot classA_mot)

theorem stoppedKept_quarantine_mot (b sl c : Nat) (s : State) : StoppedKept b sl s (quarantine .mot c s) := by
  have hb : StoppedKept b sl s (blockReaction .mot c (event (256 * Region.mot.id + 0xE3) 0
      (onRegion .mot (fun x => { x with quar := x.quar ||| bitOf 16 c }) s))) :=
    StoppedKept.trans (t := event (256 * Region.mot.id + 0xE3) 0 (onRegion .mot (fun x => { x with quar := x.quar ||| bitOf 16 c }) s))
      (.of_mot rfl) (stoppedKept_blockReaction_mot b sl c _)
  unfold quarantine
  split
  · exact .of_mot escalate_mot
  · split
    · exact .of_mot rfl
    · dsimp only
      split
      · exact hb.trans (.of_mot escalate_mot)
      · exact hb

theorem stoppedKept_noteFault_mot (b sl c k : Nat) (s : State) : StoppedKept b sl s (noteFault .mot c k s) := by
  unfold noteFault
  dsimp only
  split
  · refine StoppedKept.trans (StoppedKept.of_mot ?_) (stoppedKept_quarantine_mot b sl c _)
    rfl
  · exact .of_mot rfl

/-- The end of a shadow run touches no slice but the spare. -/
theorem sliceSt_endShadow {b c k : Nat} (h : c ≠ b ∨ k ≠ 8) (s : State) : sliceSt (endShadow b s) c k = sliceSt s c k :=
  sliceSt_onSlice_ne (fun x => by split <;> exact ⟨rfl, rfl⟩) h _

/-- Containment keeps the slice that has stopped. -/
theorem sliceSt_containSlice {b sl : Nat} {s : State} {y : SliceSt} (hsl : sl < 8) (hy : sliceSt s b sl = some y)
    (hr : y.run = .stopped) : sliceSt (containSlice b sl s) b sl = some y := by
  unfold containSlice
  dsimp only
  split
  · rw [sliceSt, escalate_mot]
    exact hy
  · split
    · exact (stoppedKept_quarantine_mot b sl b s).slice y hy hr
    · split
      · exact (stoppedKept_quarantine_mot b sl b _).slice y hy hr
      · rw [sliceSt, addB_mot]
        exact (sliceSt_endShadow (.inr (Nat.ne_of_lt hsl)) s).trans hy

/-- A slice that runs stops with the cause of its fault, whatever the fault does to its block. -/
theorem sliceSt_motSliceFault {b sl c : Nat} {s : State} {x : SliceSt} (hsl : sl < 8) (hx : sliceSt s b sl = some x)
    (h1 : x.run ≠ .stopped) (h2 : x.run ≠ .retired) : sliceSt (motSliceFault b sl c s) b sl = some (faultAt c x) := by
  rw [motSliceFault_of_serving hsl hx h1 h2]
  extract_lets u
  have hstop : sliceSt (onSlice b sl (faultAt c) s) b sl = some (faultAt c x) := sliceSt_onSlice_self (fun _ => ⟨rfl, rfl⟩) hx
  have hu : sliceSt u b sl = some (faultAt c x) := by
    refine (stoppedKept_noteFault_mot b sl b sl _).slice _ ?_ rfl
    split <;> exact hstop
  refine sliceSt_containSlice hsl ?_ rfl
  split
  · exact hu
  · exact (stoppedKept_extrapolateSlice b sl x u).slice _ hu rfl

/-- A command whose meaning is such a fault. -/
theorem run_motSliceFault {K : State → State} {b sl c : Nat} {s : State} {x : SliceSt} (hK : K s = motSliceFault b sl c s)
    (hsl : sl < 8) (hx : sliceSt s b sl = some x) (h1 : x.run ≠ .stopped) (h2 : x.run ≠ .retired) :
    ∃ t, run K s = .next t ∧ sliceSt t b sl = some (faultAt c x) := by
  refine ⟨_, rfl, ?_⟩
  rw [sliceSt, settle_mot, hK]
  exact sliceSt_motSliceFault hsl hx h1 h2

/-! ### The tick abort (R193, R201) -/

section
variable {b sl : Nat} {x : SliceSt} {s : State}

/-- The handler of a tick abort is entered. -/
def abortEntry (x : SliceSt) : SliceSt := enterEvent 3 0x00C x.pc { x with aborted := true }

theorem tickAbort_of_running (hx : sliceSt s b sl = some x) (hrun : x.run = .run) (hend : x.sawEnd = false)
    (hab : x.aborted = false) (hslot : x.inSlot = false) (hcmp : compared s b sl = false) (hrot : rotating s b sl = false) :
    tickAbort b sl s = onTime (fun t => { t with ss1Next := t.ss1Next ||| sliceGroups s x })
      (markNext 0 (sliceGroups s x) (event 0x0542 (16 * b + sl) (onSlice b sl abortEntry s))) := by
  have hcmp' : compared (onSlice b sl (fun x => { x with aborted := true }) s) b sl = false := hcmp
  have htwice := onSlice_onSlice (f := fun x => { x with aborted := true }) (fun _ => ⟨rfl, rfl⟩) b sl
    (fun x => enterEvent 3 0x00C x.pc x) s
  simp only [tickAbort, hx, hrun, hend, hab, hslot, hrot, hcmp', Bool.or_self, beq_self_eq_true, Bool.true_or, Bool.not_true,
    Bool.false_eq_true, if_false, sliceDetail]
  rw [show abortEntry = fun x => enterEvent 3 0x00C x.pc { x with aborted := true } from rfl]
  exact congrArg (fun u => onTime (fun t => { t with ss1Next := t.ss1Next ||| sliceGroups s x })
    (markNext 0 (sliceGroups s x) (event 0x0542 (16 * b + sl) u))) htwice

theorem tickAbort_of_ended (hx : sliceSt s b sl = some x) (h : x.sawEnd = true ∨ x.aborted = true) : tickAbort b sl s = s := by
  rcases h with h | h <;> simp [tickAbort, hx, h]

theorem tickAbortOverrun_of_pending (hx : sliceSt s b sl = some x) (hab : x.aborted = true) (hend : x.sawEnd = false) :
    tickAbortOverrun b sl s = motSliceFault b sl 3 s := by simp [tickAbortOverrun, hx, hab, hend]

theorem tickAbortOverrun_of_ended (hx : sliceSt s b sl = some x) (h : x.aborted = false ∨ x.sawEnd = true) :
    tickAbortOverrun b sl s = s := by
  rcases h with h | h <;> simp [tickAbortOverrun, hx, h]

end

theorem run_eq_run_of_canRun {x : SliceSt} (h : canRun x = true) : x.run = .run := by
  simp only [canRun, Bool.and_eq_true, beq_iff_eq] at h
  exact h.1

/-- Settles O27, by the overflow trap, RTE, the two illegal words, the fault of a slice and the tick abort. -/
theorem sliceEvents : Obligations.SliceEvents := by
  unfold Obligations.SliceEvents
  refine ⟨?_, ?_, ?_, ?_, ?_, ?_, ?_, ?_, ?_, ?_⟩
  · intro b sl rd rs rt x s hfree hrd hslot hend hte hev hovf honce
    obtain ⟨t, hrun, hy, hlog, honly⟩ := run_trap (r := wrapRes ((dReg x rs).toInt + (dReg x rt).toInt))
      (F := fun x => effRes rd (addRes (dReg x rs) (dReg x rt))) hfree rfl hovf hte hev honce
    obtain ⟨hpc, hepc, hval, h23, h22, h21, hv, hev', hcount⟩ := overflowEntry_effRes hrd hslot hend hev hovf _ rfl
    exact ⟨t, _, hrun, hy, hpc, hepc, hval, h23, h22, h21, hv, hev', hcount, hlog, honly⟩
  · intro b sl x s hclear hev hill
    have hK := rteInstr_of_handler hclear hev hill
    obtain ⟨hx, -⟩ := hclear
    obtain ⟨t, hrun, hstep⟩ := run_of_sliceStep (F := rteInstr b sl) (hK ▸ sliceStep_onSlice returned_place hx)
    obtain ⟨hpc, hd, hicnt⟩ := returned_eq x
    exact ⟨t, _, hrun, hstep, rfl, hpc, hd, hicnt⟩
  · intro b sl x s hclear hev hill hrot
    have hK := rteInstr_of_no_event hclear hev
    obtain ⟨hx, -, hab, -⟩ := hclear
    obtain ⟨t, hrun, hy, hlog, -, -⟩ := run_of_illegal hK hx hill hrot
    obtain ⟨hpc, -⟩ := illegalEntry_of_no_abort (cause := 7) hab
    exact ⟨t, _, hrun, hy, illegalEntry_illegal 7 x, hpc, hlog⟩
  · intro b sl cause w x s hx hrun hill hab hrot hw
    obtain ⟨t, ht, hy, hlog, honly, -⟩ := run_of_illegal (illegalWord_of_error hx hrun hw) hx hill hrot
    obtain ⟨hpc, hepc, hestat, hev, hd, hdmem⟩ := illegalEntry_of_no_abort (cause := cause) hab
    exact ⟨t, _, ht, hy, illegalEntry_illegal cause x, hpc, hepc, hestat, hev, hd, hdmem, hlog, honly⟩
  · exact fun b sl w i s hw => run_of_unchanged (illegalWord_of_ok hw)
  · intro b sl cause w x s hsl hx hrun hill hab hw
    have hr := run_eq_run_of_canRun hrun
    obtain ⟨t, ht, hy⟩ := run_motSliceFault ((illegalWord_of_error hx hrun hw).trans (illegalAt_of_second hsl hx hill hab)) hsl hx
      (by rw [hr]; decide) (by rw [hr]; decide)
    exact ⟨t, _, ht, hy, rfl, rfl, rfl⟩
  · intro b sl x s hx hrun hend hab hslot hcmp hrot
    have hK := tickAbort_of_running hx hrun hend hab hslot hcmp hrot
    have hlog : logged 0x0542 (16 * b + sl) s (event 0x0542 (16 * b + sl) (onSlice b sl abortEntry s)) :=
      logged_event (u := onSlice b sl abortEntry s) ⟨rfl, rfl, rfl⟩ rfl
    have hy := sliceSt_onSlice_self (g := abortEntry) (fun x => ⟨commit_b _, commit_s _⟩) hx
    have haborted : (abortEntry x).aborted = true := (congrArg SliceSt.aborted (landed_commit { x with aborted := true }).standing :)
    exact ⟨_, abortEntry x, run_of_logged hK hlog, hy, haborted, rfl, rfl, rfl, hlog, by simp⟩
  · exact fun b sl x s hx h => run_of_unchanged (tickAbort_of_ended hx h)
  · intro b sl x s hsl hx hab hend h1 h2
    obtain ⟨t, ht, hy⟩ := run_motSliceFault (tickAbortOverrun_of_pending hx hab hend) hsl hx h1 h2
    exact ⟨t, _, ht, hy, rfl, rfl⟩
  · exact fun b sl x s hx h => run_of_unchanged (tickAbortOverrun_of_ended hx h)

end Sys2Proof.Machine

/-! PROOF. SliceTick: WAIT, OUT, END, the shadow compare and the self-tests of the spare, and O28. -/

namespace Sys2Proof.Machine

/-! ### WAIT (R197) -/

/-- The words of an axis window are written into the data memory and nowhere else. -/
theorem foldl_dmem {α : Type} {f : SliceSt → α → SliceSt} (hf : ∀ x p, ∃ m, f x p = { x with dmem := m }) (l : List α)
    (x : SliceSt) : ∃ m, l.foldl f x = { x with dmem := m } := by
  induction l generalizing x with
  | nil => exact ⟨x.dmem, rfl⟩
  | cons p l ih =>
    obtain ⟨m, hm⟩ := hf x p
    obtain ⟨m', hm'⟩ := ih (f x p)
    exact ⟨m', by rw [List.foldl_cons, hm', hm]⟩

/-- The feedback half of the windows, which is filled once. -/
theorem fbWindows_eq (s : State) (x : SliceSt) :
    ∃ m, (if x.fbDone then x else { (slotAxes x).foldl (fun y p => fbWindow s p.1 p.2 y) x with fbDone := true }) =
      { x with dmem := m, fbDone := true } := by
  split
  case isTrue h => exact ⟨x.dmem, congrArg (fun v => { x with fbDone := v }) h⟩
  case isFalse =>
    obtain ⟨m, hm⟩ := foldl_dmem (f := fun y p => fbWindow s p.1 p.2 y) (fun _ _ => ⟨_, rfl⟩) (slotAxes x) x
    exact ⟨m, by rw [hm]⟩

/-- The feed-forward half of the windows, which is filled once and by WAIT FF alone. -/
theorem ffWindows_eq (s : State) (ff : Bool) (x : SliceSt) :
    ∃ m, (if ff && !x.ffDone then { (slotAxes x).foldl (fun y p => ffWindow s p.1 p.2 y) x with ffDone := true } else x) =
      { x with dmem := m, ffDone := ff || x.ffDone } := by
  split
  case isTrue h =>
    obtain ⟨m, hm⟩ := foldl_dmem (f := fun y p => ffWindow s p.1 p.2 y) (fun _ _ => ⟨_, rfl⟩) (slotAxes x) x
    obtain ⟨rfl, -⟩ := Bool.and_eq_true_iff.1 h
    exact ⟨m, by rw [hm]; rfl⟩
  case isFalse h =>
    have hv : x.ffDone = (ff || x.ffDone) := by cases ff <;> simp_all
    exact ⟨x.dmem, congrArg (fun v => { x with ffDone := v }) hv⟩

/-- A released WAIT fills the axis windows and notes which of their halves are done. -/
theorem waitUpdate_eq (s : State) (ff : Bool) (x : SliceSt) :
    ∃ m, waitUpdate s ff x = { x with dmem := m, fbDone := true, ffDone := ff || x.ffDone } := by
  obtain ⟨m, hm⟩ := fbWindows_eq s x
  obtain ⟨m', hm'⟩ := ffWindows_eq s ff { x with dmem := m, fbDone := true }
  refine ⟨m', ?_⟩
  simp only [waitUpdate, hm]
  exact hm'

section
variable {b sl : Nat} {x : SliceSt} {s : State} {ff : Bool}

/-- What a WAIT leaves before it waits or goes on: the instruction after it is next. -/
theorem waitInstr_of_clear (h : sliceClear b sl s x) : waitInstr b sl ff s =
    if (if ff then s.mot.ffRel else s.mot.fbRel) then
      onSlice b sl (waitUpdate (onSlice b sl (complete {} .next) s) ff) (onSlice b sl (complete {} .next) s)
    else onSlice b sl (fun y => { y with run := if ff then .waitFf else .waitFb }) (onSlice b sl (complete {} .next) s) := by
  have hfree := sliceFree_of_clear h
  obtain ⟨hx, hrun, -, hslot, hend⟩ := h
  have hs1 : execSlice b sl true (fun _ => {}) (fun _ => .next) s = onSlice b sl (complete {} .next) s :=
    execSlice_of_legal hfree (fun _ => ⟨hslot, hend⟩) rfl fun _ => rfl
  simp only [waitInstr, hx, hs1, hrun, hslot, hend, Bool.or_self, Bool.not_false, Bool.and_self, if_true]
  rfl

/-- A WAIT that is not released holds the slice. -/
theorem run_waitInstr_of_held (h : sliceClear b sl s x) (hrel : (if ff then s.mot.ffRel else s.mot.fbRel) = false) :
    ∃ t, run (waitInstr b sl ff) s = .next t ∧
      sliceStep b sl s t { complete {} .next x with run := if ff then .waitFf else .waitFb } := by
  have hw := waitInstr_of_clear (ff := ff) h
  obtain ⟨hx, -⟩ := h
  rw [hrel, if_neg Bool.false_ne_true] at hw
  exact run_of_sliceStep (hw ▸ sliceStep_onSlice_twice (g := fun y => { y with run := if ff then .waitFf else .waitFb })
    (complete_place {} .next) (fun _ => ⟨rfl, rfl⟩) hx)

/-- A WAIT that is released goes on with the axis windows updated. -/
theorem run_waitInstr_of_released (h : sliceClear b sl s x) (hrel : (if ff then s.mot.ffRel else s.mot.fbRel) = true) :
    ∃ t m, run (waitInstr b sl ff) s = .next t ∧
      sliceStep b sl s t { complete {} .next x with dmem := m, fbDone := true, ffDone := ff || (complete {} .next x).ffDone } := by
  have hw := waitInstr_of_clear (ff := ff) h
  obtain ⟨hx, -⟩ := h
  rw [hrel, if_pos rfl] at hw
  have hplace (y : SliceSt) : (waitUpdate (onSlice b sl (complete {} .next) s) ff y).b = y.b ∧
      (waitUpdate (onSlice b sl (complete {} .next) s) ff y).s = y.s := by
    obtain ⟨m, hm⟩ := waitUpdate_eq (onSlice b sl (complete {} .next) s) ff y
    rw [hm]
    exact ⟨rfl, rfl⟩
  have h := sliceStep_onSlice_twice (complete_place {} .next) hplace hx
  obtain ⟨m, hm⟩ := waitUpdate_eq (onSlice b sl (complete {} .next) s) ff (complete {} .next x)
  rw [hm] at h
  obtain ⟨t, ht, hstep⟩ := run_of_sliceStep (hw ▸ h)
  exact ⟨t, m, ht, hstep⟩

end

/-! ### OUT (R198, R203) -/

section
variable {b sl : Nat} {x : SliceSt} {s : State}

/-- A slice that the spare does not shadow is not compared. -/
theorem no_compare (hx : x.s = (spareSt s b).rot) (hcmp : compared s b sl = false) (hrot : rotating s b sl = false) :
    (compared s b (spareSt s b).rot && (sl == 8 || sl == x.s)) = false := by
  by_cases h : sl = x.s
  · rw [← hx, ← h, hcmp, Bool.false_and]
  · by_cases h8 : sl = 8
    · have hspst : (spareSt s b).spst ≠ 0 := by simpa [rotating, h8] using hrot
      simp [compared, hspst]
    · simp [h, h8]

theorem compareOut_of_not_compared (hcmp : compared s b sl = false) (hrot : rotating s b sl = false) : compareOut b sl s = s := by
  unfold compareOut
  split
  case h_1 hx _ => simp [no_compare (place_of_sliceSt hx).2 hcmp hrot]
  case h_2 => rfl

theorem compareEnd_of_not_compared (hcmp : compared s b sl = false) (hrot : rotating s b sl = false) : compareEnd b sl s = s := by
  unfold compareEnd
  split
  case h_1 hx _ => simp [no_compare (place_of_sliceSt hx).2 hcmp hrot]
  case h_2 => rfl

/-- What an axis takes from the output words of its slot. -/
def handedOut (x : SliceSt) (j : Nat) (y : AxisSt) : AxisSt :=
  { y with
    dsp := (assoc x.dmem (winAddr j 8)).getD 0, vffo := (assoc x.dmem (winAddr j 9)).getD 0,
    tffo := (assoc x.dmem (winAddr j 10)).getD 0, oflags := (assoc x.dmem (winAddr j 11)).getD 0, handed := true }

theorem handSlot_of_no_fexc {j : Nat} (h : hasBit ((assoc x.dmem (winAddr j 11)).getD 0) 2 = false) (a : Nat) (s : State) :
    handSlot x j a s = onAxis a (handedOut x j) s := by
  have h' : ((assoc x.dmem (winAddr j 11)).getD 0).getLsbD 2 = false := h
  simp only [handSlot, h', Bool.false_and, Bool.false_eq_true, if_false]
  rfl

/-- The output words are noted for the compare. -/
def outNoted (y : SliceSt) : SliceSt := { y with sawOut := true, outW := outWords y }

theorem slotAxes_of_one {a : Nat} (h0 : x.ax0 = a) (ha : a < 255) (h1 : x.ax1 = 255) : slotAxes x = [(0, a)] := by
  simp [slotAxes, h0, ha, h1]

/-- What OUT does of itself: a second one is illegal. -/
def outEffect (y : SliceSt) : Eff := if y.sawOut then { ill := 6 } else {}

/-- The output words go to the axes of the slots until phase 6 has closed; a rotating spare has none. -/
def handedOver (b sl : Nat) (x : SliceSt) (s t : State) : State :=
  if t.mot.servoRel || rotating s b sl then t else (slotAxes x).foldl (fun t p => handSlot x p.1 p.2 t) t

theorem outInstr_eq (hx : sliceSt s b sl = some x) : outInstr b sl s =
    if !canRun x || x.sawOut || (x.inSlot && atLoopEnd x) then plainInstr b sl outEffect s
    else compareOut b sl (handedOver b sl x s (onSlice b sl outNoted (plainInstr b sl outEffect s))) := by
  simp only [outInstr, hx]
  rfl

/-- The first OUT of a slice with one axis, in time and without FEXC, hands its output words over. -/
theorem outInstr_of_first {a : Nat} (h : sliceFree b sl s x) (hout : x.sawOut = false) (hrel : s.mot.servoRel = false)
    (hcmp : compared s b sl = false) (hrot : rotating s b sl = false) (hax : slotAxes x = [(0, a)])
    (hfexc : hasBit ((assoc x.dmem (winAddr 0 11)).getD 0) 2 = false) :
    outInstr b sl s = onAxis a (handedOut x 0) (onSlice b sl outNoted (onSlice b sl (complete {} .next) s)) := by
  have hF : outEffect x = {} := by rw [outEffect, hout, if_neg Bool.false_ne_true]
  have hs1 : plainInstr b sl outEffect s = onSlice b sl (complete (outEffect x) .next) s :=
    execSlice_of_legal h (by simp) (by rw [hF]) fun _ => by rw [hF]
  have hhand : handedOver b sl x s (onSlice b sl outNoted (onSlice b sl (complete {} .next) s)) =
      onAxis a (handedOut x 0) (onSlice b sl outNoted (onSlice b sl (complete {} .next) s)) := by
    rw [handedOver, show (onSlice b sl outNoted (onSlice b sl (complete {} .next) s)).mot.servoRel = false from hrel, hrot, hax]
    exact handSlot_of_no_fexc hfexc a _
  obtain ⟨hx, hrun, -, hpos⟩ := h
  rw [outInstr_eq hx, hrun, hout, hpos, hs1, hF, hhand]
  exact compareOut_of_not_compared hcmp hrot

/-- A second OUT is illegal. -/
theorem outInstr_of_second (hx : sliceSt s b sl = some x) (hrun : canRun x = true) (hout : x.sawOut = true)
    (hslot : x.inSlot = false) : outInstr b sl s = illegalAt b sl 6 s := by
  have hF : outEffect x = { ill := 6 } := by rw [outEffect, hout, if_pos rfl]
  have hK : plainInstr b sl outEffect s = illegalAt b sl (outEffect x).ill s :=
    execSlice_of_illegal hx hrun (by simp [hslot]) (by simp [hF])
  rw [outInstr_eq hx, hout, Bool.or_true, Bool.true_or, if_pos rfl, hK, hF]

/-! ### END (R200) -/

/-- The slice has executed END: what it still had in flight lands, and its flags stand in its record. -/
def ended (y : SliceSt) : SliceSt :=
  { commit y with
    sawEnd := true, run := .idle, sat := stBit (commit y) 3, v := stBit (commit y) 2, stTrap := (commit y).trapped,
    stAbort := (commit y).aborted, icntLast := (commit y).icnt }

theorem endInstr_of_clear (h : sliceClear b sl s x) (hill : x.illegal = 0) (hcmp : compared s b sl = false)
    (hrot : rotating s b sl = false) :
    endInstr b sl s = onSlice b sl ended (onSlice b sl (complete {} .next) s) := by
  have hfree := sliceFree_of_clear h
  obtain ⟨hx, hrun, -, hslot, hend⟩ := h
  have hs1 : execSlice b sl true (fun _ => {}) (fun _ => .next) s = onSlice b sl (complete {} .next) s :=
    execSlice_of_legal hfree (fun _ => ⟨hslot, hend⟩) rfl fun _ => rfl
  have hnot : compareEnd b sl (onSlice b sl ended (onSlice b sl (complete {} .next) s)) =
      onSlice b sl ended (onSlice b sl (complete {} .next) s) := compareEnd_of_not_compared hcmp hrot
  simp only [endInstr, hx, hs1, hrun, hslot, hend, hill, Bool.not_true, Bool.or_self, bne_self_eq_false, Bool.false_eq_true, if_false]
  split
  · rfl
  · exact hnot

theorem ended_place (y : SliceSt) : (ended y).b = y.b ∧ (ended y).s = y.s := ⟨commit_b y, commit_s y⟩

end

/-! ### The shadow compare (R203, R204) -/

/-- Whether an entry was logged is in the chip's part of the state. -/
theorem logged_of_chip {c d : Nat} {s t u : State} (h : t.chip = u.chip) (hl : logged c d s u) : logged c d s t := by
  rw [logged, h]
  exact hl

/-- The feedback of an axis is not trusted for its set-point. -/
def distrusted (a : AxisSt) : AxisSt := { a with xtrap := true }

/-- The set-points of a slice that diverged at OUT are extrapolated. -/
def outDistrusted (b sl : Nat) (s : State) : State :=
  match sliceSt s b sl with
  | some x => mark 2 (sliceGroups s x) (forAll (slotAxes x) (fun p => onAxis p.2 distrusted) s)
  | none => s

/-- What the reaction to a divergence reads of the state it leaves. -/
def spareView (s : State) : List SpareSt × ChipSt × Image := (s.mot.spares, s.chip, s.image)

theorem spareView_outDistrusted (b sl : Nat) (s : State) : spareView (outDistrusted b sl s) = spareView s := by
  unfold outDistrusted
  split
  case h_1 x _ => exact forAll_same (P := spareView) (f := fun p : Nat × Nat => onAxis p.2 distrusted) (fun _ _ => rfl) (slotAxes x) s
  case h_2 => rfl

/-- The divergence is logged and the spare tests itself. -/
def divergenceNoted (b : Nat) (s : State) : State :=
  onSlice b 8 (fun x => { x with run := .selftest }) (event 0x0543 (sliceDetail b (spareSt s b).rot)
    (onSpare b (fun p => { p with divcnt := satAdd 255 p.divcnt 1, skips := 0, selftest := some (spareSt s b).rot }) (endShadow b s)))

/-- The whole reaction to a divergence in native mode. -/
def divergenceReacted (b : Nat) (atEnd : Bool) (s : State) : State :=
  if atEnd then divergenceNoted b s else outDistrusted b (spareSt s b).rot (divergenceNoted b s)

theorem spareView_divergenceReacted (b : Nat) (atEnd : Bool) (s : State) :
    spareView (divergenceReacted b atEnd s) = spareView (divergenceNoted b s) := by
  cases atEnd with
  | true => rfl
  | false => exact spareView_outDistrusted ..

theorem divergence_of_native {b : Nat} {atEnd : Bool} {s : State} (h : s.image.compat = false) :
    divergence b atEnd s = divergenceReacted b atEnd s := by
  have hcompat : (divergenceReacted b atEnd s).image.compat = false :=
    (congrArg (·.2.2.compat) (spareView_divergenceReacted b atEnd s) :).trans h
  have heq : divergence b atEnd s = if (divergenceReacted b atEnd s).image.compat then
      motSliceFault b (spareSt s b).rot 6 (divergenceReacted b atEnd s) else divergenceReacted b atEnd s := by
    cases atEnd <;> rfl
  rw [heq, hcompat, if_neg Bool.false_ne_true]

/-- A divergence counts, starts the self-test and is logged. -/
theorem divergence_spare {b : Nat} (atEnd : Bool) {s : State} (hb : b < s.mot.spares.length) (h : s.image.compat = false) :
    spareSt (divergence b atEnd s) b = { spareSt s b with
      comparing := false, divcnt := satAdd 255 (spareSt s b).divcnt 1, skips := 0, selftest := some (spareSt s b).rot } ∧
      logged 0x0543 (16 * b + (spareSt s b).rot) s (divergence b atEnd s) := by
  have hview := spareView_divergenceReacted b atEnd s
  rw [← divergence_of_native h] at hview
  obtain ⟨hspares, hrest⟩ := Prod.mk.inj hview
  obtain ⟨hchip, -⟩ := Prod.mk.inj hrest
  constructor
  · rw [spareSt, hspares, show (divergenceNoted b s).mot.spares = updAt s.mot.spares b (fun p => { p with
      comparing := false, divcnt := satAdd 255 p.divcnt 1, skips := 0, selftest := some (spareSt s b).rot }) from updAt_updAt ..]
    exact nth_updAt_self _ _ _ hb
  · exact logged_of_chip (u := event 0x0543 (16 * b + (spareSt s b).rot) s) (hchip.trans rfl) (logged_event ⟨rfl, rfl, rfl⟩ rfl)

section
variable {b : Nat} {x y : SliceSt} {s : State}

theorem compared_of_shadow (hspst : (spareSt s b).spst = 0) (hcmp : (spareSt s b).comparing = true) :
    compared s b (spareSt s b).rot = true := by simp [compared, hspst, hcmp]

theorem compareOut_of_equal {sl : Nat} (hx : sliceSt s b (spareSt s b).rot = some x) (hy : sliceSt s b 8 = some y)
    (h : x.outW = y.outW) : compareOut b sl s = s := by simp [compareOut, hx, hy, h]

theorem compareOut_of_different (hspst : (spareSt s b).spst = 0) (hcmp : (spareSt s b).comparing = true)
    (hx : sliceSt s b (spareSt s b).rot = some x) (hy : sliceSt s b 8 = some y) (hox : x.sawOut = true) (hoy : y.sawOut = true)
    (h : x.outW ≠ y.outW) : compareOut b 8 s = divergence b false s := by
  simp [compareOut, hx, hy, compared_of_shadow hspst hcmp, hox, hoy, h]

/-- Both have executed END: the digests decide. -/
theorem compareEnd_of_both (hspst : (spareSt s b).spst = 0) (hcmp : (spareSt s b).comparing = true)
    (hx : sliceSt s b (spareSt s b).rot = some x) (hy : sliceSt s b 8 = some y) (hex : x.sawEnd = true) (hey : y.sawEnd = true) :
    compareEnd b 8 s = if endDigest x = endDigest y then
      onSpare b (fun p => { p with cmpcnt := satAdd 0xFFFFFFFF p.cmpcnt 1, skips := 0, comparing := false }) s
    else divergence b true s := by
  simp [compareEnd, hx, hy, compared_of_shadow hspst hcmp, hex, hey]

end

/-! ### The self-tests of a spare (R205) -/

section
variable {b : Nat} {s : State}

/-- A spare as it fails: its shadow run and its self-test end. -/
def failedSpare (p : SpareSt) : SpareSt :=
  { p with comparing := false, spst := 2, failed := true, takeNext := none, selftest := none }

/-- The state in which a spare has failed and nothing is reported yet. -/
def spareFailed (b : Nat) (s : State) : State :=
  onSpare b (fun p => { p with spst := 2, failed := true, takeNext := none, selftest := none }) (endShadow b s)

theorem spareFailed_spares (b : Nat) (s : State) : (spareFailed b s).mot.spares = updAt s.mot.spares b failedSpare := updAt_updAt ..

/-- A spare that takes no slice over in the next tick fails with an event and a class B condition. -/
theorem failSpare_of_no_takeover (hspst : (spareSt s b).spst ≠ 2) (htake : (spareSt s b).takeNext = none) :
    failSpare b s = addB 1 b (groupsOfBlock (spareFailed b s) b) 0x0545 (event 0x0545 (16 * b + 8) (spareFailed b s)) := by
  simp only [failSpare, hspst, htake, if_false, Option.isSome_none, Bool.false_eq_true]
  rfl

@[simp] theorem only_onSpare {ps : List Part} {f : SpareSt → SpareSt} {t : State} (h : .mot ∈ ps) :
    only ps s (onSpare b f t) ↔ only ps s t := only_iff_of_part .mot h (by rintro ⟨⟩ <;> simp [Part.same, onSpare])

@[simp] theorem only_endShadow {ps : List Part} {t : State} (h : .mot ∈ ps) : only ps s (endShadow b t) ↔ only ps s t := by
  simp [endShadow, h]

/-- A spare that takes no slice over in the next tick is failed, and its failure is logged. -/
theorem failSpare_leaves (hb : b < s.mot.spares.length) (hspst : (spareSt s b).spst ≠ 2) (htake : (spareSt s b).takeNext = none) :
    spareSt (failSpare b s) b = failedSpare (spareSt s b) ∧ logged 0x0545 (16 * b + 8) s (failSpare b s) ∧
      onlyAt b s.mot.spares (failSpare b s).mot.spares ∧ (failSpare b s).mot.axes = s.mot.axes ∧
      only [.chip, .mot, .saf] s (failSpare b s) := by
  rw [failSpare_of_no_takeover hspst htake]
  have hspares := spareFailed_spares b s
  have hchip : (addB 1 b (groupsOfBlock (spareFailed b s) b) 0x0545 (event 0x0545 (16 * b + 8) (spareFailed b s))).chip =
      (event 0x0545 (16 * b + 8) (spareFailed b s)).chip := (only_addB (ps := [.saf]) (by decide)).2 (only_refl _ _) .chip (by decide)
  refine ⟨?_, logged_of_chip hchip (logged_event ⟨rfl, rfl, rfl⟩ rfl), ?_, ?_, ?_⟩
  · rw [spareSt, addB_mot, event_mot, hspares]
    exact nth_updAt_self _ _ _ hb
  · rw [addB_mot, event_mot, hspares]
    exact onlyAt_updAt ..
  · rw [addB_mot]
    rfl
  · simp [spareFailed]

/-- The self-test after a divergence ends: so does the shadow run. -/
def selftestEnded (b : Nat) (s : State) : State := endShadow b (onSpare b (fun p => { p with selftest := none }) s)

theorem selftestEnded_spares (b : Nat) (s : State) :
    (selftestEnded b s).mot.spares = updAt s.mot.spares b (fun p => { p with selftest := none, comparing := false }) := updAt_updAt ..

/-- The spare passes: the slice that it differed from has the fault. -/
theorem spareSelftestDone_of_pass {sl : Nat} {x : SliceSt} (htest : (spareSt s b).selftest = some sl) (hsl : sl < 8)
    (hx : sliceSt s b sl = some x) :
    sliceSt (selftestEnded b s) b sl = some x ∧ spareSelftestDone b true s =
      markNext 2 (sliceGroups (selftestEnded b s) x) (motSliceFault b sl 6 (selftestEnded b s)) := by
  have hx' : sliceSt (selftestEnded b s) b sl = some x := (sliceSt_endShadow (.inr (Nat.ne_of_lt hsl)) _).trans hx
  refine ⟨hx', ?_⟩
  simp only [spareSelftestDone, htest, ← selftestEnded.eq_1, hx', if_true]

theorem spareSelftestDone_of_fail (htest : (spareSt s b).selftest.isSome = true) :
    spareSelftestDone b false s = failSpare b (selftestEnded b s) := by
  obtain ⟨sl, hsl⟩ := Option.isSome_iff_exists.1 htest
  simp only [spareSelftestDone, hsl]
  rfl

theorem spareFullSelftestDone_of_rotating (ok : Bool) (hspst : (spareSt s b).spst = 0) (hrot : (spareSt s b).rot = 8) :
    spareFullSelftestDone b ok s = if ok then endShadow b s else failSpare b s := by
  simp [spareFullSelftestDone, hspst, hrot]

end

/-- Settles O28, by what WAIT, OUT and END leave, the two compares, and the ends of the self-tests of a spare. -/
theorem sliceTick : Obligations.SliceTick := by
  unfold Obligations.SliceTick
  refine ⟨?_, ?_, ?_, ?_, ?_, ?_, ?_, ?_⟩
  · intro b sl x s h _
    obtain ⟨-, hrun, -, hslot, hend⟩ := id h
    have hpc := (executed_next (e := {}) x).2 hslot hend
    have hr : (complete {} .next x).run = .run := (complete_run ..).trans (run_eq_run_of_canRun hrun)
    refine ⟨fun hrel => ?_, fun hrel => ?_, fun hrel => ?_, fun hrel => ?_⟩
    · obtain ⟨t, ht, hstep⟩ := run_waitInstr_of_held (ff := false) h hrel
      exact ⟨t, _, ht, hstep, rfl, hpc, (completed_of_late (e := {}) rfl .next x).dmem⟩
    · obtain ⟨t, m, ht, hstep⟩ := run_waitInstr_of_released (ff := false) h hrel
      exact ⟨t, _, ht, hstep, hr, hpc, rfl⟩
    · obtain ⟨t, ht, hstep⟩ := run_waitInstr_of_held (ff := true) h hrel
      exact ⟨t, _, ht, hstep, rfl, hpc⟩
    · obtain ⟨t, m, ht, hstep⟩ := run_waitInstr_of_released (ff := true) h hrel
      exact ⟨t, _, ht, hstep, hr, hpc, rfl, rfl⟩
  · intro b sl a x s h hout hrel hcmp hrot h0 ha h1 hlen hfexc
    have hfree := sliceFree_of_clear h
    have hK := outInstr_of_first hfree hout hrel hcmp hrot (slotAxes_of_one h0 ha h1) hfexc
    obtain ⟨hx, -, -, hslot, hend⟩ := h
    obtain ⟨hy, -, -, honly⟩ := sliceStep_onSlice_twice (g := outNoted) (complete_place {} .next) (fun _ => ⟨rfl, rfl⟩) hx
    have hpc := (executed_next (e := {}) x).2 hslot hend
    have haxis : axSt (onAxis a (handedOut x 0) (onSlice b sl outNoted (onSlice b sl (complete {} .next) s))) a =
        handedOut x 0 (axSt s a) := nth_updAt_self s.mot.axes a (handedOut x 0) hlen
    refine ⟨_, _, run_of_quiet hK (quiet_of_chip rfl), hy, rfl, hpc, ?_, ?_, ?_, ?_, ?_, onlyAt_updAt ..,
      only_trans honly (only_axes _ _)⟩
    · exact congrArg AxisSt.handed haxis
    · exact congrArg AxisSt.dsp haxis
    · exact congrArg AxisSt.vffo haxis
    · exact congrArg AxisSt.tffo haxis
    · exact (congrArg AxisSt.ref haxis :)
  · intro b sl x s hx hrun hout hslot hill hrot
    obtain ⟨t, ht, hy, hlog, -, haxes⟩ := run_of_illegal (outInstr_of_second hx hrun hout hslot) hx hill hrot
    exact ⟨t, _, ht, hy, illegalEntry_illegal 6 x, haxes, hlog⟩
  · intro b sl x s h hill hcmp hrot
    have hK := endInstr_of_clear h hill hcmp hrot
    obtain ⟨hx, -⟩ := h
    have hstep := sliceStep_onSlice_twice (g := ended) (complete_place {} .next) ended_place hx
    have hy := completed_of_late (e := {}) rfl .next x
    have hc : commit (complete {} .next x) = complete {} .next x := commit_of_empty hy.pend
    obtain ⟨hsl, -, -, honly⟩ := hstep
    obtain ⟨-, -, hv, hsat, -⟩ := hy.flags
    refine ⟨_, _, run_of_quiet hK (quiet_of_chip rfl), hsl, rfl, rfl, ?_, ?_, ?_, rfl, honly⟩ <;> simp only [ended, hc]
    · exact hsat.trans (Bool.or_false _)
    · exact hv.trans (Bool.or_false _)
    · exact hy.dmem
  · intro b x y s hb hspst hcmp hx hy hcompat
    refine ⟨fun hox hoy hne => ?_, compareOut_of_equal hx hy, fun hex hey heq => ?_, fun hex hey hne => ?_⟩
    · obtain ⟨hspare, hlog⟩ := divergence_spare false hb hcompat
      rw [compareOut_of_different hspst hcmp hx hy hox hoy hne, hspare]
      exact ⟨rfl, rfl, hlog⟩
    · have hspare := nth_updAt_self s.mot.spares b
        (fun p => { p with cmpcnt := satAdd 0xFFFFFFFF p.cmpcnt 1, skips := 0, comparing := false }) hb
      rw [compareEnd_of_both hspst hcmp hx hy hex hey, if_pos heq]
      exact ⟨congrArg SpareSt.cmpcnt hspare, congrArg SpareSt.comparing hspare, quiet_of_chip rfl⟩
    · obtain ⟨hspare, hlog⟩ := divergence_spare true hb hcompat
      rw [compareEnd_of_both hspst hcmp hx hy hex hey, if_neg hne, hspare]
      exact ⟨rfl, hlog⟩
  · intro b sl x s _ htest hsl hx h1 h2
    obtain ⟨hx', hK⟩ := spareSelftestDone_of_pass htest hsl hx
    refine ⟨_, faultAt 6 x, rfl, ?_, rfl, rfl⟩
    rw [sliceSt, settle_mot, hK]
    exact sliceSt_motSliceFault hsl hx' h1 h2
  · intro b s hb hspst htest htake
    have hself := nth_updAt_self s.mot.spares b (fun p => { p with selftest := none, comparing := false }) hb
    have hended : onlyAt b s.mot.spares (selftestEnded b s).mot.spares := selftestEnded_spares b s ▸ onlyAt_updAt ..
    rw [← selftestEnded_spares] at hself
    have hspst' : (spareSt (selftestEnded b s) b).spst = 0 := (congrArg SpareSt.spst hself).trans hspst
    obtain ⟨hspare, hlog, hat, haxes, honly⟩ :=
      failSpare_leaves (hended.1 ▸ hb) (by rw [hspst']; decide) ((congrArg SpareSt.takeNext hself).trans htake)
    exact ⟨_, run_of_logged (spareSelftestDone_of_fail htest) hlog, congrArg SpareSt.spst hspare, congrArg SpareSt.failed hspare,
      hlog, onlyAt_trans hended hat, haxes, only_trans (t := selftestEnded b s) (by simp [selftestEnded]) honly⟩
  · intro b s hb hspst hrot htake
    have hK (ok : Bool) := spareFullSelftestDone_of_rotating ok hspst hrot
    have hself := nth_updAt_self s.mot.spares b (fun p => { p with comparing := false }) hb
    obtain ⟨hspare, hlog, hat, haxes, honly⟩ := failSpare_leaves hb (by simp [hspst]) htake
    exact ⟨⟨_, run_of_quiet (hK true) (quiet_of_chip rfl), (congrArg SpareSt.spst hself).trans hspst,
      congrArg SpareSt.comparing hself, fun c k h => sliceSt_endShadow h s, rfl, quiet_of_chip rfl, by simp⟩,
      failSpare b s, run_of_logged (hK false) hlog, congrArg SpareSt.spst hspare, congrArg SpareSt.failed hspare, hlog, hat,
      haxes, honly⟩

end Sys2Proof.Machine

/-! PROOF. MotionCommands: DISABLE of an idle group whose axis is being homed ends the homing as a failure, against O45. -/

namespace Sys2Proof.Machine

/-- Group 0 is IDLE and its one axis takes its feedback from channel 0, which homes by its index (R169). -/
def idleCell : State := {
  image := {
    axes := [{ defined := true, src := .axio 0 }], groups := [{ defined := true }],
    chans := [{ mode := 1, cpr := 4096, hmode := 4 }] },
  chip := { phase := .running, pstate := .run },
  time := { run := true },
  mot := { groups := [{ state := .idle }] } }

/-- The idle cell after a signed HOME of its axis (R169, R393). -/
def homingCell : State := homeCmd {} 0 idleCell

/-- The HOME is accepted: it starts the homing, and the group that it moves stays IDLE. -/
theorem homeCmd_idleCell : homeCmd {} 0 idleCell = accept {} (homingStart 0 idleCell) ∧
    (chSt homingCell 0).busy = true ∧ (grpSt homingCell 0).state = .idle := by decide +kernel

theorem groupsNamed_homingCell : groupsNamed homingCell 1 :=
  ⟨by decide +kernel, fun _ hg => (by decide +kernel :
    ∀ g ∈ bitsOf (1 : Mask), g < maxGroups homingCell ∧ (grpCfg homingCell g).defined = true) _ (mem_bitsOf.2 hg)⟩

theorem allIdle_homingCell (g : Nat) (hg : hasBit (1 : Mask) g = true) :
    (grpSt homingCell g).state = .idle ∨ (grpSt homingCell g).state = .halted :=
  (by decide +kernel : ∀ g ∈ bitsOf (1 : Mask),
    (grpSt homingCell g).state = .idle ∨ (grpSt homingCell g).state = .halted) g (mem_bitsOf.2 hg)

/-- The group leaves motion enable, so the homing fails with HRES 5 (R169). -/
theorem disableCmd_homingCell :
    (grpSt (disableCmd {} 1 homingCell) 0).state = .disabled ∧ (chSt (disableCmd {} 1 homingCell) 0).busy = false ∧
      (chSt (disableCmd {} 1 homingCell) 0).hres = 5 := by decide +kernel

/-- The state that DISABLE completes with has the channels that its effect leaves. -/
theorem axio_of_exec_disable {o : Origin} {m : Mask} {s t : State} (h : exec (.disable o m) s = .next t) :
    t.axio = (disableCmd o m s).axio := by
  have ht : settle s (disableCmd o m s) = t := Host.Outcome.next.inj h
  rw [← ht, settle_axio]

/-- Refutes O45: its clause on DISABLE lets no channel of AXIO differ and no event be raised, whatever the axes of the group do. A group
stays IDLE while HOME moves one of its axes, and the homing fails when DISABLE takes the group out of motion enable (R169). -/
theorem not_motionCommands : ¬ Obligations.MotionCommands := by
  rintro ⟨-, -, -, -, -, -, -, -, hdisable, -⟩
  obtain ⟨t, ht, -, -, -, -, -, honly⟩ := hdisable {} 1 homingCell groupsNamed_homingCell allIdle_homingCell
  have haxio : t.axio = homingCell.axio := honly .axio (by decide)
  obtain ⟨-, hbusy, -⟩ := homeCmd_idleCell
  obtain ⟨-, hended, -⟩ := disableCmd_homingCell
  rw [chSt, ← axio_of_exec_disable ht, haxio, ← chSt, hbusy] at hended
  exact absurd hended (by decide)

end Sys2Proof.Machine

/-! PROOF. DeltaGate: what the packets of firmware, the gate with the dispatch after it, and the writes of PCTL leave of the problems,
and O20. -/

namespace Sys2Proof.Machine

/-! ### Updates of one problem -/

section
variable {s : State} {p q : Nat} {f : ProbSt → ProbSt}

theorem probSt_onProb_self (h : p < s.sol.probs.length) : probSt (onProb p f s) p = f (probSt s p) := nth_updAt_self _ _ _ h

/-- What an update leaves of every problem, it leaves of each. -/
theorem probSt_onProb_same {β : Type} {P : ProbSt → β} (h : ∀ x, P (f x) = P x) :
    P (probSt (onProb p f s) q) = P (probSt s q) := nth_updAt_same h _ _ _

@[simp] theorem probSt_settle (s t : State) (p : Nat) : probSt (settle s t) p = probSt t p := by rw [probSt, settle_sol, probSt]

@[simp] theorem eventOnce_sol (c k d : Nat) (s : State) : (eventOnce c k d s).sol = s.sol := by
  unfold eventOnce
  split <;> rfl

/-- A write of a register of one problem completes, raises no event and leaves the other problems (R260). -/
theorem run_acked_onProb {F : State → State} (hF : F s = acked (onProb p f s)) (hp : p < s.sol.probs.length) :
    ∃ t, run F s = .next t ∧ probSt t p = f (probSt s p) ∧ t.chip.resp = .done ∧ onlyAt p s.sol.probs t.sol.probs ∧
      quiet s t ∧ only [.chip, .sol] s t :=
  ⟨_, run_of_quiet hF ⟨rfl, rfl, rfl⟩, probSt_onProb_self hp, rfl, onlyAt_updAt _ _ _, ⟨rfl, rfl, rfl⟩, by simp⟩

/-- A table element after a map that leaves the default record, within the table or beyond its end. -/
theorem nth_map_of_default {α : Type} [Inhabited α] {f : α → α} (h : f default = default) (l : List α) (i : Nat) :
    nth (l.map f) i = f (nth l i) := by
  by_cases hi : i < l.length
  · exact nth_map l f i hi
  · simp [nth, List.getD_eq_getElem?_getD, hi, h]

end

/-! ### Packets of firmware (R257) -/

/-- The packet that a write of DELTA1 completes. -/
def deltaPacket (v : Word) (s : State) : Packet :=
  { prob := s.sol.delta0.toNat % 256, tgt := s.sol.delta0.toNat / 256 % 256, index := s.sol.delta0.toNat / 65536, value := v }

section
variable {s : State} {v : Word} (hs : hasSolTrl s = true)
include hs

theorem deltaCommit_of_ok (hk : packetOk s 3 (deltaPacket v s) = true) :
    deltaCommit v s = acked { s with sol := { s.sol with fwPk := s.sol.fwPk ++ [deltaPacket v s] } } := by
  rw [deltaPacket] at hk ⊢
  simp [deltaCommit, hs, commitFw, hk]

theorem deltaCommit_of_malformed (hk : packetOk s 3 (deltaPacket v s) = false) :
    deltaCommit v s = acked (badPacket s) := by
  rw [deltaPacket] at hk
  simp [deltaCommit, hs, commitFw, hk]

end

theorem badPacket_sol (s : State) : (badPacket s).sol = { s.sol with bad := true } := by simp [badPacket]

theorem only_badPacket (s : State) : only [.chip, .sol] s (badPacket s) := by simp [badPacket, only_sol]

/-! ### What dispatch leaves of the gate's work -/

/-- What the gate sets of a problem: the working copy, the pending values, and EN. -/
def ProbSt.loaded (x : ProbSt) : ProbVals × ProbVals × Bool := (x.work, x.pend, x.en)

/-- What the gate sets of the unit: that it has run, and the packets that wait. -/
def SolSt.waiting (x : SolSt) : Bool × List Packet × List Packet := (x.gated, x.tlPk, x.fwPk)

/-- From s to t the gate's work stands, and nothing outside the solver and the chip level has changed. -/
structure GateKept (s t : State) : Prop where
  waiting : t.sol.waiting = s.sol.waiting
  loaded : ∀ p, (probSt t p).loaded = (probSt s p).loaded
  parts : only [.chip, .sol] s t

namespace GateKept
variable {s t u : State}

theorem refl (s : State) : GateKept s s := ⟨rfl, fun _ => rfl, only_refl _ s⟩

theorem trans (h : GateKept s t) (k : GateKept t u) : GateKept s u :=
  ⟨k.waiting.trans h.waiting, fun p => (k.loaded p).trans (h.loaded p), only_trans h.parts k.parts⟩

theorem onProb {p : Nat} {f : ProbSt → ProbSt} (h : GateKept s t)
    (hf : ∀ x, (f x).loaded = x.loaded := by exact fun _ => rfl) : GateKept s (onProb p f t) :=
  h.trans ⟨rfl, fun _ => probSt_onProb_same hf, by simp⟩

theorem event (c d : Nat) (h : GateKept s t) : GateKept s (event c d t) := h.trans ⟨rfl, fun _ => rfl, by simp⟩

/-- What every update of a fold leaves, the fold leaves. -/
theorem forAll {α : Type} {f : α → State → State} (hf : ∀ x t, GateKept t (f x t)) (l : List α) (h : GateKept s t) :
    GateKept s (forAll l f t) :=
  forAll_preserves (fun x u hu => hu.trans (hf x u)) l h

theorem work (h : GateKept s t) (p : Nat) : (probSt t p).work = (probSt s p).work := congrArg (·.1) (h.loaded p)
theorem en (h : GateKept s t) (p : Nat) : (probSt t p).en = (probSt s p).en := congrArg (·.2.2) (h.loaded p)
theorem pend (h : GateKept s t) (p : Nat) : (probSt t p).pend = (probSt s p).pend := congrArg (·.2.1) (h.loaded p)

end GateKept

theorem startNext_gateKept (p : Nat) (s : State) : GateKept s (startNext p s) := by
  unfold startNext
  dsimp only
  split
  · exact .refl s
  · split
    · exact (GateKept.refl s).onProb
    · exact .refl s

theorem graftStep_gateKept (p : Nat) (s : State) : GateKept s (graftStep p s) := by
  unfold graftStep
  dsimp only
  split
  · exact .refl s
  · split
    · exact .refl s
    · split
      · exact (GateKept.refl s).onProb
      · exact ((GateKept.refl s).onProb).event _ _

theorem dispatchJob_gateKept (p : Nat) (s : State) : GateKept s (dispatchJob p s) := by
  unfold dispatchJob
  dsimp only
  split
  · exact (GateKept.refl s).onProb
  · split
    · exact ((GateKept.refl s).onProb).onProb
    · split
      · exact (((GateKept.refl s).onProb).onProb).event _ _
      · exact (((GateKept.refl s).onProb).onProb).trans (graftStep_gateKept p _)

theorem loseExcess_gateKept (ks : List Packet) (s : State) : GateKept s (loseExcess ks s) := by
  cases ks with
  | nil => exact .refl s
  | cons k ks =>
    unfold loseExcess
    have hovf : GateKept s { s with sol := { s.sol with ovf := true } } :=
      ⟨rfl, fun _ => rfl, (only_sol (by decide)).2 (only_refl _ s)⟩
    exact (GateKept.forAll (fun _ t => (GateKept.refl t).onProb) _ hovf).event _ _

/-! ### The gate (R258 to R260) -/

section
variable (s : State) (p : Nat)

theorem probSt_gateControls : probSt (gateControls s) p = { probSt s p with
    en := (probSt s p).enNext.getD (probSt s p).en, enNext := none,
    lost := (probSt s p).dead || ((probSt s p).lost && !(probSt s p).clr), clr := false } := nth_map_of_default rfl _ _

theorem applyAll_en (ks : List Packet) : (probSt (applyAll ks s) p).en = (probSt s p).en :=
  forAll_same (P := fun t => (probSt t p).en) (fun _ _ => by exact probSt_onProb_same (P := ProbSt.en) fun _ => rfl) ks s

theorem applyAll_gated (ks : List Packet) : (applyAll ks s).sol.gated = s.sol.gated :=
  forAll_same (P := fun t => t.sol.gated) (fun _ _ => by exact rfl) ks s

theorem only_applyAll (ks : List Packet) : only [.chip, .sol] s (applyAll ks s) :=
  (only_forAll (fun _ _ => by simp)).2 (only_refl _ s)

/-- The packets beyond the gate's room, which are lost (R259). -/
def gateExcess : List Packet := (s.sol.tlPk ++ s.sol.fwPk).drop (gateCap - (devicePackets s).length)

/-- The packets that the gate applies, in the order of R258. -/
def gateTaken : List Packet :=
  devicePackets s ++ (s.sol.tlPk ++ s.sol.fwPk).take (gateCap - (devicePackets s).length)

/-- The gate before it copies: EN, CLR, the excess and the packets applied. -/
def gateApplied : State := applyAll (gateTaken s) (loseExcess (gateExcess s) (gateControls s))

/-- Every problem's working copy is its pending copy, and the two lists are empty. -/
theorem gateCopy_eq : gateCopy s = { gateApplied s with sol := { (gateApplied s).sol with
    applied := min 0xFFFF (gateTaken s).length, tlPk := [], fwPk := [],
    probs := (gateApplied s).sol.probs.map (fun x => { x with work := x.pend }) } } := rfl

theorem probSt_gateCopy : probSt (gateCopy s) p = { probSt (gateApplied s) p with work := (probSt (gateApplied s) p).pend } :=
  nth_map_of_default rfl _ _

theorem gateCopy_gated : (gateCopy s).sol.gated = s.sol.gated :=
  (applyAll_gated _ _).trans (congrArg (·.1) (loseExcess_gateKept (gateExcess s) (gateControls s)).waiting)

theorem gateCopy_work : (probSt (gateCopy s) p).work = (probSt (gateCopy s) p).pend := by rw [probSt_gateCopy]

theorem gateCopy_en : (probSt (gateCopy s) p).en = (probSt s p).enNext.getD (probSt s p).en := by
  rw [probSt_gateCopy, gateApplied]
  dsimp only
  rw [applyAll_en, (loseExcess_gateKept _ _).en, probSt_gateControls]

theorem only_gateCopy : only [.chip, .sol] s (gateCopy s) := by
  have hcontrols : only [.chip, .sol] s (gateControls s) := (only_sol (by decide)).2 (only_refl _ s)
  rw [gateCopy_eq, only_sol (by decide)]
  exact only_trans hcontrols (only_trans (loseExcess_gateKept _ _).parts (only_applyAll _ _))

variable {s}

/-- A packet of firmware that comes alone is written into its problem. -/
theorem gateCopy_of_one {k : Packet} (hdev : devicePackets s = []) (htl : s.sol.tlPk = []) (hfw : s.sol.fwPk = [k])
    (hk : k.prob < s.sol.probs.length) : (probSt (gateCopy s) k.prob).work = applyPacket k (probSt s k.prob).pend := by
  have happlied : gateApplied s = applyAll [k] (gateControls s) := by
    simp [gateApplied, gateTaken, gateExcess, hdev, htl, hfw, gateCap, loseExcess]
  have hlen : k.prob < (gateControls s).sol.probs.length := by simpa [gateControls] using hk
  rw [probSt_gateCopy, happlied]
  simp only [applyAll, forAll, List.foldl_cons, List.foldl_nil, probSt_onProb_self hlen, probSt_gateControls]

end

/-! ### The gate and the dispatch after it -/

/-- The state as the gate of the tick begins. -/
def gateBegun (s : State) : State := { s with sol := { s.sol with gated := true } }

theorem devicePackets_gateBegun (s : State) : devicePackets (gateBegun s) = devicePackets s := rfl

/-- After the gate jobs are dispatched and started, which leaves its work. -/
theorem deltaGate_of_first {s : State} (hs : hasSolTrl s = true) (hg : s.sol.gated = false) :
    GateKept (gateCopy (gateBegun s)) (deltaGate s) := by
  rw [deltaGate, hs, hg]
  exact .forAll startNext_gateKept _ (.forAll dispatchJob_gateKept _ (.refl _))

section
variable {s : State} (hs : hasSolTrl s = true) (hg : s.sol.gated = false)
include hs hg

theorem deltaGate_waiting : (deltaGate s).sol.waiting = (true, [], []) := by
  rw [(deltaGate_of_first hs hg).waiting, SolSt.waiting, gateCopy_gated]
  rfl

theorem deltaGate_work (p : Nat) : (probSt (deltaGate s) p).work = (probSt (deltaGate s) p).pend := by
  have hkept := deltaGate_of_first hs hg
  rw [hkept.work, hkept.pend, gateCopy_work]

theorem deltaGate_en (p : Nat) : (probSt (deltaGate s) p).en = (probSt s p).enNext.getD (probSt s p).en :=
  ((deltaGate_of_first hs hg).en p).trans (gateCopy_en _ p)

theorem deltaGate_of_one {k : Packet} (hdev : devicePackets s = []) (htl : s.sol.tlPk = []) (hfw : s.sol.fwPk = [k])
    (hk : k.prob < s.sol.probs.length) : (probSt (deltaGate s) k.prob).work = applyPacket k (probSt s k.prob).pend :=
  ((deltaGate_of_first hs hg).work k.prob).trans (gateCopy_of_one ((devicePackets_gateBegun s).trans hdev) htl hfw hk)

theorem only_deltaGate : only [.chip, .sol] s (deltaGate s) := by
  have hbegun : only [.chip, .sol] s (gateBegun s) := (only_sol (by decide)).2 (only_refl _ s)
  exact only_trans hbegun (only_trans (only_gateCopy _) (deltaGate_of_first hs hg).parts)

end

theorem deltaGate_of_gated {s : State} (hg : s.sol.gated = true) : deltaGate s = s := by simp [deltaGate, hg]

/-! ### Writes of PCTL (R259, R260) -/

theorem problemEnableWrite_of_free {p : Nat} {e : Bool} {s : State} (hs : hasSolTrl s = true) (h1 : (probCfg s p).use ≠ 1)
    (h2 : (probCfg s p).use ≠ 2) : problemEnableWrite p e s = acked (onProb p (fun x => { x with enNext := some e }) s) := by
  simp [problemEnableWrite, hs, h1, h2]

theorem problemEnableWrite_of_used {p : Nat} {e : Bool} {s : State} (hs : hasSolTrl s = true)
    (hu : (probCfg s p).use = 1 ∨ (probCfg s p).use = 2) : problemEnableWrite p e s = acked s := by
  simp [problemEnableWrite, hs, hu]

theorem problemClearLost_of_present {p : Nat} {s : State} (hs : hasSolTrl s = true) :
    problemClearLost p s = acked (onProb p (fun x => { x with clr := true }) s) := by
  simp [problemClearLost, hs]

end Sys2Proof.Machine

/-! The name of the obligation's theorem is that of the gate in the model, so the theorem stands beside the model's namespace. -/

namespace Sys2Proof
open Machine

/-- Settles O20, by what the gate makes of the problems and that the dispatch of the tick's jobs leaves it. -/
theorem deltaGate : Obligations.DeltaGate := by
  unfold Obligations.DeltaGate
  refine ⟨?_, ?_, ?_, ?_, ?_, ?_, ?_⟩
  · intro v s hr hs hk
    exact ⟨_, (runAcc_of_running hr).trans (run_of_quiet (deltaCommit_of_ok hs hk) ⟨rfl, rfl, rfl⟩), rfl, rfl, ⟨rfl, rfl, rfl⟩,
      by simp [only_sol]⟩
  · intro v s hr hs hk
    refine ⟨_, runAcc_of_running hr, ?_, ?_, ?_⟩ <;> rw [deltaCommit_of_malformed hs hk]
    · exact (settle_sol _ _).trans (badPacket_sol s)
    · exact settle_resp _ _
    · simp [only_badPacket]
  · intro s hr hs hg
    have hwaiting := (congrArg SolSt.waiting (settle_sol s _)).trans (deltaGate_waiting hs hg)
    refine ⟨_, runIn_of_up hr, congrArg (·.1) hwaiting, congrArg (·.2.1) hwaiting, congrArg (·.2.2) hwaiting, fun p => ?_,
      fun p e _ he => ?_, fun p he => ?_, fun k hdev htl hfw hk => ?_, only_settle s (by decide) (only_deltaGate hs hg)⟩
    · rw [probSt_settle, deltaGate_work hs hg]
    · rw [probSt_settle, deltaGate_en hs hg, he, Option.getD_some]
    · rw [probSt_settle, deltaGate_en hs hg, he, Option.getD_none]
    · rw [probSt_settle, deltaGate_of_one hs hg hdev htl hfw hk]
  · exact fun s hg => runIn_of_unchanged (deltaGate_of_gated hg)
  · intro p e s hr hs hp h1 h2
    obtain ⟨t, ht, h⟩ := run_acked_onProb (problemEnableWrite_of_free (e := e) hs h1 h2) hp
    exact ⟨t, (runAcc_of_running hr).trans ht, h⟩
  · exact fun p e s hr hs hu => (runAcc_of_running hr).trans (run_of_quiet (problemEnableWrite_of_used hs hu) ⟨rfl, rfl, rfl⟩)
  · intro p s hr hs hp
    obtain ⟨t, ht, h⟩ := run_acked_onProb (problemClearLost_of_present hs) hp
    exact ⟨t, (runAcc_of_running hr).trans ht, h⟩

end Sys2Proof

/-! PROOF. SolverJobs: how a job ends, what its end, a miss and the release leave of the other problems, and O21. -/

namespace Sys2Proof.Machine

/-! ### The outcome of a job (R251 to R256) -/

theorem actStep_n_le (c : ProbCfg) (v : ProbVals) (x : ActSet) : (actStep c v x).n ≤ x.n + 1 := by
  unfold actStep
  split
  · exact Nat.le_succ _
  · dsimp only
    split
    · exact le_rfl
    · split <;> exact le_rfl

theorem iterate_actStep_n_le (c : ProbCfg) (v : ProbVals) (k : Nat) (x : ActSet) : (iterate (actStep c v) k x).n ≤ x.n + k := by
  induction k generalizing x with
  | zero => exact le_rfl
  | succ k ih =>
    calc (iterate (actStep c v) k (actStep c v x)).n
      _ ≤ (actStep c v x).n + k := ih _
      _ ≤ x.n + 1 + k := Nat.add_le_add_right (actStep_n_le c v x) k
      _ = x.n + (k + 1) := by omega

/-- An anytime job ran at most the iterations that it had (R256). -/
theorem activeJob_iters_le (c : ProbCfg) (v : ProbVals) (seed : Option (List F32 × List F32)) (n : Nat) :
    (activeJob c v seed n).iters ≤ n := by
  cases seed <;> exact (iterate_actStep_n_le c v n _).trans_eq (Nat.zero_add n)

theorem solveJob_iters_le (c : ProbCfg) (v : ProbVals) (seed : Option (List F32 × List F32)) (n : Nat) :
    (solveJob c v seed n).iters ≤ n := by
  unfold solveJob
  split
  case h_5 =>
    split
    · exact activeJob_iters_le c v seed n
    · exact le_rfl
  all_goals exact Nat.zero_le n

theorem jobOutcome_iters_le (s : State) (p n : Nat) : (jobOutcome s p n).iters ≤ n := solveJob_iters_le ..

/-- After a pivot fault every component is NaN (R252). -/
theorem jobOutcome_nan {s : State} {p n : Nat} (h : (jobOutcome s p n).pivot.isSome = true) :
    ∀ v ∈ (jobOutcome s p n).x, v = f32NaN := by
  have hx : (jobOutcome s p n).x = List.replicate (outLen (probCfg s p)) f32NaN := if_pos h
  rw [hx]
  exact fun _ => List.eq_of_mem_replicate

/-! ### What an operation leaves of one problem -/

/-- From s to t problem q, the size of the table, the tick and the image stand. -/
structure ProblemKept (q : Nat) (s t : State) : Prop where
  prob : probSt t q = probSt s q
  length : t.sol.probs.length = s.sol.probs.length
  tickno : t.time.tickno = s.time.tickno
  image : t.image = s.image

namespace ProblemKept
variable {q : Nat} {s t u : State}

theorem refl (q : Nat) (s : State) : ProblemKept q s s := ⟨rfl, rfl, rfl, rfl⟩

theorem trans (h : ProblemKept q s t) (k : ProblemKept q t u) : ProblemKept q s u :=
  ⟨k.prob.trans h.prob, k.length.trans h.length, k.tickno.trans h.tickno, k.image.trans h.image⟩

theorem onProb {p : Nat} (f : ProbSt → ProbSt) (hq : q ≠ p) (h : ProblemKept q s t) : ProblemKept q s (onProb p f t) :=
  h.trans ⟨nth_updAt_ne _ _ _ _ hq, updAt_length _ _ _, rfl, rfl⟩

theorem cfg (h : ProblemKept q s t) (p : Nat) : probCfg t p = probCfg s p := by rw [probCfg, h.image, probCfg]

end ProblemKept

/-- From s to t of the solver only problem p has changed, and the tick and the image stand. -/
structure AtProblem (p : Nat) (s t : State) : Prop where
  probs : ∃ f, t.sol.probs = updAt s.sol.probs p f
  tickno : t.time.tickno = s.time.tickno
  image : t.image = s.image

namespace AtProblem
variable {p : Nat} {s t u : State}

theorem trans (h : AtProblem p s t) (k : AtProblem p t u) : AtProblem p s u := by
  obtain ⟨f, hf⟩ := h.probs
  obtain ⟨g, hg⟩ := k.probs
  exact ⟨⟨fun x => g (f x), by rw [hg, hf, updAt_updAt]⟩, k.tickno.trans h.tickno, k.image.trans h.image⟩

theorem onProb (f : ProbSt → ProbSt) (h : AtProblem p s t) : AtProblem p s (onProb p f t) := h.trans ⟨⟨f, rfl⟩, rfl, rfl⟩

theorem refl (p : Nat) (s : State) : AtProblem p s s := ⟨⟨fun x => x, (updAt_id _ _).symm⟩, rfl, rfl⟩

theorem length (h : AtProblem p s t) : t.sol.probs.length = s.sol.probs.length := by
  obtain ⟨f, hf⟩ := h.probs
  rw [hf, updAt_length]

theorem kept {q : Nat} (hq : q ≠ p) (h : AtProblem p s t) : ProblemKept q s t := by
  obtain ⟨f, hf⟩ := h.probs
  exact ⟨by rw [probSt, hf, nth_updAt_ne _ _ _ _ hq, probSt], h.length, h.tickno, h.image⟩

end AtProblem

/-! ### The end of a job (R251, R256) -/

/-- A problem whose job has ended with an outcome. -/
def jobEnded (c : ProbCfg) (o : JobOut) (x : ProbSt) : ProbSt :=
  { x with job := .done, out := o, factor := c.refact && !c.anytime && outOk o }

/-- Only a waiting job is started. -/
theorem startNext_problemKept {q : Nat} {s : State} (hq : (probSt s q).job ≠ .waiting) (p : Nat) :
    ProblemKept q s (startNext p s) := by
  unfold startNext
  dsimp only
  split
  · exact .refl q s
  · split
    case h_1 r hr =>
      have hwait : (probSt s r).job = .waiting := by simpa using List.find?_some hr
      exact (ProblemKept.refl q s).onProb _ fun h => hq (h ▸ hwait)
    case h_2 => exact .refl q s

theorem only_startNext (p : Nat) (s : State) : only [.chip, .sol] s (startNext p s) := (startNext_gateKept p s).parts

/-- A job that ends is noted at its problem and counted; an event may follow, and then the next job is started. -/
theorem finishJob_eq (p : Nat) (o : JobOut) (s : State) : ∃ u, finishJob p o s = startNext p u ∧
    u.sol.probs = updAt s.sol.probs p (jobEnded (probCfg s p) o) ∧ only [.chip, .sol] s u := by
  refine ⟨_, rfl, ?_, ?_⟩
  · simp only [apply_ite State.sol, eventOnce_sol, ite_self, onProb_sol]
    rfl
  · simp [only_sol]

theorem only_finishJob (p : Nat) (o : JobOut) (s : State) : only [.chip, .sol] s (finishJob p o s) := by
  obtain ⟨u, hu, -, honly⟩ := finishJob_eq p o s
  exact hu ▸ only_trans honly (only_startNext p u)

theorem probSt_finishJob_self {p : Nat} {s : State} (hp : p < s.sol.probs.length) (o : JobOut) :
    probSt (finishJob p o s) p = jobEnded (probCfg s p) o (probSt s p) := by
  obtain ⟨u, hu, hprobs, -⟩ := finishJob_eq p o s
  have hend : probSt u p = jobEnded (probCfg s p) o (probSt s p) := by rw [probSt, hprobs, nth_updAt_self _ _ _ hp, probSt]
  have hdone : (probSt u p).job ≠ .waiting := by simp [hend, jobEnded]
  rw [hu, (startNext_problemKept hdone p).prob, hend]

theorem finishJob_problemKept {p q : Nat} {s : State} (hq : q ≠ p) (hj : (probSt s q).job ≠ .waiting) (o : JobOut) :
    ProblemKept q s (finishJob p o s) := by
  obtain ⟨u, hu, hprobs, honly⟩ := finishJob_eq p o s
  have hat : AtProblem p s u := ⟨⟨_, hprobs⟩, congrArg TimeSt.tickno (honly .time (by decide)), honly .image (by decide)⟩
  have hkept := hat.kept hq
  exact hu ▸ hkept.trans (startNext_problemKept (hkept.prob ▸ hj) p)

theorem solverJobDone_of_running {p : Nat} {s : State} (hj : (probSt s p).job = .running) (hp : (probSt s p).pruned = false) :
    solverJobDone p s = finishJob p (jobOutcome s p (probCfg s p).iter) s := by
  simp [solverJobDone, hj, hp]

theorem solverJobDone_of_none {p : Nat} {s : State} (h : (probSt s p).job ≠ .running ∨ (probSt s p).pruned = true) :
    solverJobDone p s = s := by
  rcases h with h | h <;> simp [solverJobDone, h]

theorem anytimeStop_of_unended {p n : Nat} {s : State} (ha : (probCfg s p).anytime = true) (hp : (probSt s p).pruned = false)
    (hj : (probSt s p).job = .running ∨ (probSt s p).job = .waiting) :
    anytimeStop p n s = finishJob p { jobOutcome s p (min n (probCfg s p).iter) with conv := false } s := by
  rcases hj with hj | hj <;> simp [anytimeStop, ha, hp, hj]

theorem anytimeStop_of_fixed {p : Nat} {s : State} (ha : (probCfg s p).anytime = false) (n : Nat) : anytimeStop p n s = s := by
  simp [anytimeStop, ha]

/-! ### The stop of anytime jobs (R256) -/

/-- The stop of an anytime job leaves a problem that has none and whose job does not wait. -/
theorem anytimeStop_problemKept {q : Nat} {s : State} (ha : (probCfg s q).anytime = false) (hj : (probSt s q).job ≠ .waiting)
    (p n : Nat) : ProblemKept q s (anytimeStop p n s) := by
  by_cases hp : q = p
  · subst hp
    rw [anytimeStop_of_fixed ha]
    exact .refl q s
  · unfold anytimeStop
    split
    · exact finishJob_problemKept hp hj _
    · exact .refl q s

theorem stopAnytime_problemKept {q : Nat} {s : State} (ha : (probCfg s q).anytime = false) (hj : (probSt s q).job ≠ .waiting) :
    ProblemKept q s (stopAnytime s) := by
  refine forAll_preserves (P := ProblemKept q s) (fun p t ht => ?_) _ (.refl q s)
  have hat : (probCfg t q).anytime = false := ht.cfg q ▸ ha
  have hjt : (probSt t q).job ≠ .waiting := ht.prob ▸ hj
  split
  · have hdraw : ProblemKept q t (drawFree t).2 := ⟨rfl, rfl, rfl, rfl⟩
    exact ht.trans (hdraw.trans (anytimeStop_problemKept (s := (drawFree t).2) hat hjt p (drawFree t).1.toNat))
  · exact ht.trans (anytimeStop_problemKept hat hjt p 0)

/-! ### The release of one job (R261 to R263) -/

/-- A problem whose job has missed the release (R263). -/
def jobMissed (pivot : Bool) (x : ProbSt) : ProbSt :=
  { x with pivot := pivot, miss := true, misscnt := satAdd 0xFFFF x.misscnt 1, nanout := false, bounds := false, conv := false }

theorem noteMiss_sol (p : Nat) (s : State) : (noteMiss p s).sol = s.sol := by
  simp only [noteMiss, recTrip]
  split <;> rfl

theorem missJob_probs (p : Nat) (s : State) : ∃ b, (missJob p s).sol.probs = updAt s.sol.probs p (jobMissed b) := by
  unfold missJob
  split
  next v u hu =>
    have hsol : u.sol = s.sol := by
      obtain rfl := congrArg Prod.snd hu
      split <;> rfl
    refine ⟨hasBit v 0, ?_⟩
    simp only [event_sol, markNext_sol, noteMiss_sol, onProb_sol]
    cases hasBit v 0 <;> simp [updAt_updAt, hsol] <;> rfl

theorem missJob_clock (p : Nat) (s : State) : (missJob p s).clock = s.clock := by
  unfold missJob
  split
  next v u hu =>
    have hclock : u.clock = s.clock := by
      obtain rfl := congrArg Prod.snd hu
      split <;> rfl
    simp [noteMiss_clock, hclock]

theorem missJob_atProblem (p : Nat) (s : State) : AtProblem p s (missJob p s) := by
  obtain ⟨b, hb⟩ := missJob_probs p s
  exact ⟨⟨_, hb⟩, congrArg Clock.tickno (time_clock (missJob_clock p s)), keep_image (missJob_keep p s)⟩

theorem probSt_missJob_self {p : Nat} {s : State} (hp : p < s.sol.probs.length) :
    ∃ b, probSt (missJob p s) p = jobMissed b (probSt s p) := by
  obtain ⟨b, hb⟩ := missJob_probs p s
  exact ⟨b, by rw [probSt, hb, nth_updAt_self _ _ _ hp, probSt]⟩

/-- The status of a job that completed in time (R261). -/
def jobNoted (x : ProbSt) : ProbSt :=
  { x with
    miss := false, pivot := x.out.pivot.isSome, nanout := nanOut x.out, bounds := x.out.bounds, conv := x.out.conv,
    iterdone := (if x.out.bounds then x.iterdone else x.out.iters), pividx := x.out.pivot.getD 0xFFFF }

/-- A valid result published in a tick, with its warm-start state (R261, R267). -/
def jobPublished (c : ProbCfg) (tick : Nat) (x : ProbSt) : ProbSt :=
  { x with
    pub := x.out, pubTick := tick, warm := if c.op = 5 then some (c.shash, x.out.z, x.out.y) else x.warm }

/-- A job at the release, the last of its tick (R261, R263). -/
def jobReleased (ok graft : Bool) (x : ProbSt) : ProbSt :=
  let y := { x with
    valid := ok, graft := graft, nvrun := (if ok then 0 else satAdd 31 x.nvrun 1), limit := x.limit && !ok,
    factor := x.factor && ok, due := false, job := .none }
  { y with pubStat := if ok then pstatWord y else y.pubStat }

theorem publishJob_atProblem (p : Nat) (s : State) : AtProblem p s (publishJob p s) := by
  unfold publishJob
  dsimp only
  split
  · exact ((AtProblem.refl p s).onProb _).onProb _
  · exact (AtProblem.refl p s).onProb _

theorem probSt_publishJob_self {p : Nat} {s : State} (hp : p < s.sol.probs.length) (ho : outOk (probSt s p).out = true) :
    probSt (publishJob p s) p = jobPublished (probCfg s p) s.time.tickno (jobNoted (probSt s p)) := by
  rw [publishJob, ho, if_pos rfl, probSt_onProb_self ((updAt_length _ _ _).symm ▸ hp), probSt_onProb_self hp]
  rfl

theorem releaseJob_atProblem (p : Nat) (s : State) : AtProblem p s (releaseJob p s) := by
  unfold releaseJob
  dsimp only
  refine .onProb _ ?_
  split
  · exact publishJob_atProblem p s
  · exact (AtProblem.refl p s).onProb _
  · exact (AtProblem.refl p s).onProb _
  · exact missJob_atProblem p s

theorem releaseJob_of_done {p : Nat} {s : State} (hj : (probSt s p).job = .done) (ho : outOk (probSt s p).out = true) :
    releaseJob p s = onProb p (jobReleased true (probSt s p).seed.isSome) (publishJob p s) := by
  simp only [releaseJob, hj, ho]
  rfl

theorem releaseJob_of_running {p : Nat} {s : State} (hj : (probSt s p).job = .running) :
    releaseJob p s = onProb p (jobReleased false (probSt s p).seed.isSome) (missJob p s) := by
  simp only [releaseJob, hj]
  rfl

/-- A valid result that was done in time is what the problem publishes. -/
theorem probSt_releaseJob_of_done {p : Nat} {s : State} (hp : p < s.sol.probs.length) (hj : (probSt s p).job = .done)
    (ho : outOk (probSt s p).out = true) : probSt (releaseJob p s) p =
      jobReleased true (probSt s p).seed.isSome (jobPublished (probCfg s p) s.time.tickno (jobNoted (probSt s p))) := by
  rw [releaseJob_of_done hj ho, probSt_onProb_self ((publishJob_atProblem p s).length.symm ▸ hp), probSt_publishJob_self hp ho]

/-- A job that has not ended is a miss, and what its problem last published stands. -/
theorem probSt_releaseJob_of_running {p : Nat} {s : State} (hp : p < s.sol.probs.length) (hj : (probSt s p).job = .running) :
    ∃ b, probSt (releaseJob p s) p = jobReleased false (probSt s p).seed.isSome (jobMissed b (probSt s p)) := by
  obtain ⟨b, hb⟩ := probSt_missJob_self hp
  exact ⟨b, by rw [releaseJob_of_running hj, probSt_onProb_self ((missJob_atProblem p s).length.symm ▸ hp), hb]⟩

/-! ### The release of all jobs (R261) -/

/-- Updates of other problems leave a problem. -/
theorem forAll_problemKept {q : Nat} {l : List Nat} {f : Nat → State → State} (hf : ∀ p t, q ≠ p → ProblemKept q t (f p t))
    (hq : q ∉ l) (s : State) : ProblemKept q s (forAll l f s) := by
  induction l generalizing s with
  | nil => exact .refl q s
  | cons p l ih =>
    obtain ⟨hp, hl⟩ := not_or.1 (mt List.mem_cons.2 hq)
    exact (hf p s hp).trans (ih hl (f p s))

/-- Of a fold over different problems, what matters to one of them is its own update. -/
theorem forAll_problemKept_around {q : Nat} {l : List Nat} {f : Nat → State → State}
    (hf : ∀ p t, q ≠ p → ProblemKept q t (f p t)) (hl : l.Nodup) (hq : q ∈ l) (s : State) : ∃ u, ProblemKept q s u ∧ ProblemKept q (f q u) (forAll l f s) := by
  obtain ⟨a, b, rfl⟩ := List.append_of_mem hq
  obtain ⟨-, hqb, hab⟩ := List.nodup_append.1 hl
  have ha : q ∉ a := fun h => hab q h q (List.mem_cons_self ..) rfl
  have hsplit : forAll (a ++ q :: b) f s = forAll b f (f q (forAll a f s)) := List.foldl_append
  exact ⟨_, forAll_problemKept hf ha s, hsplit ▸ forAll_problemKept hf (List.nodup_cons.1 hqb).1 _⟩

theorem mem_allProbs {s : State} {p : Nat} (hp : p < s.image.probs.length) (ho : (probCfg s p).op ≠ 0) : p ∈ allProbs s := by
  simp [allProbs, hp, ho]

/-- The release comes to a problem once, as it stood: with fixed iterations and a job that is due and does not wait. -/
theorem solverRelease_at {p : Nat} {s : State} (hs : hasSolTrl s = true) (hp : p < s.image.probs.length)
    (ho : (probCfg s p).op ≠ 0) (ha : (probCfg s p).anytime = false) (hdue : (probSt s p).due = true)
    (hj : (probSt s p).job ≠ .waiting) :
    ∃ u, ProblemKept p s u ∧ probSt (solverRelease s) p = probSt (releaseJob p u) p := by
  have hstop := stopAnytime_problemKept ha hj
  have hmem : p ∈ (allProbs (stopAnytime s)).filter (fun q => (probSt (stopAnytime s) q).due) := by
    refine List.mem_filter.2 ⟨mem_allProbs (hstop.image ▸ hp) (hstop.cfg p ▸ ho), ?_⟩
    rw [hstop.prob, hdue]
  obtain ⟨u, hu, ht⟩ := forAll_problemKept_around (fun q t hq => (releaseJob_atProblem q t).kept hq)
    ((List.nodup_range.filter _).filter _) hmem (stopAnytime s)
  refine ⟨u, hstop.trans hu, ?_⟩
  rw [solverRelease, hs]
  exact ht.prob

/-! ### Misses in a row (R262) -/

/-- SS1-r is demanded of the groups that use the problem, once until it has a valid result. -/
theorem solverMissLimit_of_more {p : Nat} {s : State} (hn : missLimit s < (probSt s p).nvrun) (hl : (probSt s p).limit = false) :
    solverMissLimit p s = event 0x06D0 (p + 32768)
      (onTime (fun t => { t with ss1Next := t.ss1Next ||| probGroups s p }) (onProb p (fun x => { x with limit := true }) s)) := by
  simp [solverMissLimit, hn, hl]

theorem solverMissLimit_of_le {p : Nat} {s : State} (hn : (probSt s p).nvrun ≤ missLimit s) : solverMissLimit p s = s := by
  simp [solverMissLimit, Nat.not_lt.2 hn]

/-- Settles O21, by what the end of a job, its release and its misses make of its problem, and what they leave of the others. -/
theorem solverJobs : Obligations.SolverJobs := by
  unfold Obligations.SolverJobs
  refine ⟨?_, ?_, ?_, ?_, ?_, ?_, ?_⟩
  · intro p s hr hp hj hpr
    refine ⟨_, runIn_of_up hr, ?_⟩
    simp only [probSt_settle, solverJobDone_of_running hj hpr, probSt_finishJob_self hp]
    exact ⟨rfl, jobOutcome_nan, rfl, only_settle s (by decide) (only_finishJob p _ s)⟩
  · exact fun p s h => runIn_of_unchanged (solverJobDone_of_none h)
  · intro p n s hr hp ha hpr hj
    refine ⟨_, runIn_of_up hr, ?_⟩
    simp only [probSt_settle, anytimeStop_of_unended ha hpr hj, probSt_finishJob_self hp]
    have hiters := jobOutcome_iters_le s p (min n (probCfg s p).iter)
    exact ⟨rfl, rfl, hiters.trans (min_le_left _ _), hiters.trans (min_le_right _ _),
      only_settle s (by decide) (only_finishJob p _ s)⟩
  · exact fun p n s ha => runIn_of_unchanged (anytimeStop_of_fixed ha n)
  · intro s hr hs
    refine ⟨_, runIn_of_up hr, fun p hi hp ho ha hdue hj hok => ?_, fun p hi hp ho ha hdue hj => ?_⟩
    · obtain ⟨u, hu, ht⟩ := solverRelease_at hs hi ho ha hdue (by simp [hj])
      have hrel := probSt_releaseJob_of_done (hu.length ▸ hp) (hu.prob ▸ hj) (hu.prob ▸ hok)
      rw [probSt_settle, ht, hrel, hu.prob, hu.tickno]
      exact ⟨rfl, rfl, rfl, rfl, rfl, rfl⟩
    · obtain ⟨u, hu, ht⟩ := solverRelease_at hs hi ho ha hdue (by simp [hj])
      obtain ⟨b, hrel⟩ := probSt_releaseJob_of_running (hu.length ▸ hp) (hu.prob ▸ hj)
      rw [probSt_settle, ht, hrel, hu.prob]
      exact ⟨rfl, rfl, rfl, rfl, rfl⟩
  · intro p s hr hp hn hl
    have hx := solverMissLimit_of_more hn hl
    have hlog := logged_event_of_clock (c := 0x06D0) (d := p + 32768) (s := s)
      (u := onTime (fun t => { t with ss1Next := t.ss1Next ||| probGroups s p }) (onProb p (fun x => { x with limit := true }) s))
      ⟨rfl, rfl, rfl⟩ rfl
    exact ⟨_, (runIn_of_up hr).trans (run_of_logged hx hlog), probSt_onProb_self hp, rfl, hlog, onlyAt_updAt _ _ _, by simp⟩
  · exact fun p s hn => runIn_of_unchanged (solverMissLimit_of_le hn)

end Sys2Proof.Machine

/-! PROOF. FeedbackAndPairs: a stale object, what a batch of pairs does to the scales, a source that is lost, a homing that the far
end does not confirm, what the feedback of a tick leaves of each axis and slice, and O19. -/

namespace Sys2Proof.Machine

/-! ### The parts that may differ -/

section
variable {ps : List Part} {s t : State}

@[simp] theorem only_onAxis {a : Nat} {f : AxisSt → AxisSt} (h : .mot ∈ ps) : only ps s (onAxis a f t) ↔ only ps s t :=
  only_iff_of_part .mot h (by rintro ⟨⟩ <;> simp [Part.same])
@[simp] theorem only_onNode {r j : Nat} {f : NodeSt → NodeSt} (h : .ring ∈ ps) : only ps s (onNode r j f t) ↔ only ps s t :=
  only_onRing h
@[simp] theorem only_onTrlG {g : Nat} {f : TrlGroup → TrlGroup} (h : .trl ∈ ps) : only ps s (onTrlG g f t) ↔ only ps s t :=
  only_trl h
@[simp] theorem only_onObj {j : Nat} {f : ObjSt → ObjSt} (h : .trl ∈ ps) : only ps s (onObj j f t) ↔ only ps s t := only_trl h

end

@[simp] theorem eventOnce_trl (c k d : Nat) (s : State) : (eventOnce c k d s).trl = s.trl := by
  unfold eventOnce
  split <;> rfl

/-! ### Stale objects (R278) -/

/-- An object older than AGEMAX is replaced once. -/
theorem objectStale_of_older {j : Nat} {s : State} (hd : (nth s.image.objs j).defined = true) (hs : hasSolTrl s = true)
    (ha : (nth s.image.sensors (nth s.image.objs j).sensor).ageMax < (nth s.trl.objs j).age)
    (hf : (nth s.trl.objs j).stale = false) :
    objectStale j s = event 0x0701 j (onObj j (fun x => { x with stale := true }) s) := by
  simp [objectStale, hd, hs, ha, hf]

theorem objectStale_of_stale {j : Nat} {s : State} (h : (nth s.trl.objs j).stale = true) : objectStale j s = s := by
  simp [objectStale, h]

/-! ### Batches of pairs (R282, R284, R285) -/

theorem bitsOf_bitOf {g : Nat} (h : g < 16) : bitsOf (bitOf 16 g) = [g] := by
  revert g
  decide

/-- The one batch of a tick has arrived. -/
def batchDone (s : State) : State := { s with trl := { s.trl with batches := [(true, false)] } }

/-- The batch of a tick with one pair gives the result of that pair. -/
theorem pairBatchDone_of_one {p : PairRec} {s : State} (hp : s.trl.pairs = [p]) (hb : s.trl.batches = [(false, false)])
    (hm : (slackSt s 5).missNow = false) (ds : List Nat) :
    pairBatchDone 0 ds s = pairResult p (ds.contains 0) (batchDone s) := by
  simp [pairBatchDone, hp, hb, hm, nth, updAt, mapIdx, forAll, batchDone]

/-- A batch that does not exist, is not open or comes late is discarded. -/
theorem pairBatchDone_of_discarded {id : Nat} {s : State} (h : s.trl.batches.length ≤ id ∨ nth s.trl.batches id ≠ (false, false) ∨
    (slackSt s 5).missNow = true) (ds : List Nat) : pairBatchDone id ds s = s := by
  rcases h with h | h | h <;> simp [pairBatchDone, h]

section
variable {p : PairRec} {g : Nat} {s : State}

/-- The groups of a pair of one group. -/
theorem groups_of_one (hg : g < 16) (hd : (grpCfg s g).defined = true) (hp : p.groups = bitOf 16 g) :
    (bitsOf p.groups).filter (fun k => (grpCfg s k).defined) = [g] := by
  simp [hp, bitsOf_bitOf hg, hd]

/-- The scale of group g after a W or O pair that concerns it alone. -/
def clearanceNoted (p : PairRec) (g : Nat) (s : State) : State :=
  lowerScale g (clearScale p p.d) (limKind p.cls) (if g = p.g then p.o else p.g) (noteDist g p.d s)

/-- A W or O pair lowers the scale of its group, with an event where it clashes. -/
theorem pairResult_of_clearance (hg : g < 16) (hd : (grpCfg s g).defined = true) (hp : p.groups = bitOf 16 g)
    (hc : p.cls = .w ∨ p.cls = .o) : pairResult p false s =
      if f32Lt p.d p.clr then eventOnce (clashEvent p.cls) g g (clearanceNoted p g s) else clearanceNoted p g s := by
  rcases hc with hc | hc <;> simp [pairResult, groups_of_one hg hd hp, hc, forAll, clearanceNoted]

/-- A P or K pair whose copies differ stops its group and faults (R282). -/
theorem pairResult_of_differ (hg : g < 16) (hd : (grpCfg s g).defined = true) (hp : p.groups = bitOf 16 g)
    (hc : p.cls = .p ∨ p.cls = .k) : pairResult p true s =
      classA p.groups 16 0x0731 (event 0x0731 0 (lowerScale g 0 (limKind p.cls) p.o s)) := by
  rcases hc with hc | hc <;> simp [pairResult, groups_of_one hg hd hp, hc, forAll]

/-- A scale given to a group stands where it is lower. -/
theorem minScale_lowerScale (hg : g < s.trl.g.length) (n kind idx : Nat) :
    (trlG (lowerScale g n kind idx s) g).minScale = min (trlG s g).minScale n := by
  have hx : trlG (lowerScale g n kind idx s) g = if scaleBefore n kind (idx % 32) (trlG s g) then
      { trlG s g with minScale := n, minKind := kind, minIdx := idx % 32 } else trlG s g := nth_updAt_self _ _ _ hg
  have hlower (h : scaleBefore n kind (idx % 32) (trlG s g) = true) : n ≤ (trlG s g).minScale := by
    simp only [scaleBefore] at h
    grind
  have hstays (h : ¬ scaleBefore n kind (idx % 32) (trlG s g) = true) : (trlG s g).minScale ≤ n := by
    simp only [scaleBefore] at h
    grind
  rw [hx]
  split
  case isTrue h => exact (min_eq_right (hlower h)).symm
  case isFalse h => exact (min_eq_left (hstays h)).symm

theorem minScale_clearanceNoted (hg : g < s.trl.g.length) :
    (trlG (clearanceNoted p g s) g).minScale = min (trlG s g).minScale (clearScale p p.d) := by
  have hdist : (trlG (noteDist g p.d s) g).minScale = (trlG s g).minScale :=
    nth_updAt_same (P := TrlGroup.minScale) (fun _ => by rfl) _ _ _
  rw [clearanceNoted, minScale_lowerScale ((updAt_length _ _ _).symm ▸ hg), hdist]

end

/-! ### A source that is lost (R31) -/

/-- SS1-r that is demanded after an event raises none. -/
theorem logged_demandStop {m : Mask} {c d cause : Nat} {s t : State} (h : logged c d s t) : logged c d s (demandStop m cause t) := by
  rw [demandStop_eq]
  exact h

/-- A class A fault that is latched after its event raises no other. -/
theorem logged_latchA {m : Mask} {c d src code : Nat} {s t : State} (h : logged c d s t) : logged c d s (latchA m src code t) := by
  obtain ⟨w, k, b, hbb⟩ := bbTrigger_eq 2 code (recTrip t)
  rw [latchA_eq, hbb]
  simpa [logged] using h

theorem feedbackNullLimit_of_more {src : FbSource} {s : State} (hn : nullLimit s < nullRunOf s src) (hl : sourceLost s src = false)
    (hg : sourceGroups s src ≠ 0) : feedbackNullLimit src s = demandStop (sourceGroups s src) 12
      (latchA (sourceGroups s src) 16 0x0501 (event 0x0501 (maskDetail (sourceGroups s src)) (markLost src s))) := by
  have hg' : sourceGroups s src ≠ 0#16 := hg
  simp [feedbackNullLimit, Nat.not_le.2 hn, hl, hg']

theorem feedbackNullLimit_of_le {src : FbSource} {s : State} (h : nullRunOf s src ≤ nullLimit s) : feedbackNullLimit src s = s := by
  simp [feedbackNullLimit, h]

theorem only_markLost (src : FbSource) (s : State) : only [.ring, .axio] s (markLost src s) := by
  cases src <;> simp [markLost]

/-- The groups of a lost source are stopped with cause 12 and latch a class A fault, the others are as before. -/
theorem feedbackNullLimit_g {src : FbSource} {s : State} (hn : nullLimit s < nullRunOf s src) (hl : sourceLost s src = false)
    (hg : sourceGroups s src ≠ 0) : (feedbackNullLimit src s).saf.g =
      updMask (sourceGroups s src) (wantStop 12) (updMask (sourceGroups s src) (latched 16) s.saf.g) := by
  have hsaf : (markLost src s).saf = s.saf := only_markLost src s .saf (by decide)
  simp [feedbackNullLimit_of_more hn hl hg, demandStop_eq, latchA_g, hsaf]

/-! ### A homing that the far end does not confirm (R213) -/

theorem remoteHomeTimeout_of_late {a k : Nat} {s : State} (hk : (axSt s a).hgo = some k) (ht : k + 64 ≤ s.time.tickno) :
    remoteHomeTimeout a s = event 0x0504 a (onAxis a (fun x => { x with hgo := none }) s) := by
  simp [remoteHomeTimeout, hk, ht]

theorem remoteHomeTimeout_of_early {a k : Nat} {s : State} (hk : (axSt s a).hgo = some k) (ht : s.time.tickno < k + 64) :
    remoteHomeTimeout a s = s := by
  simp [remoteHomeTimeout, hk, Nat.not_le.2 ht]

/-! ### Null feedback of a tick (R31, R133, R157) -/

/-- The null segments of the rings and the null feedback of the channels have been counted. -/
def nullsCounted (s : State) : State := nullChans (forAll (List.range (maxRings s.fuse.variant)) nullRing s)

theorem only_nullRing (r : Nat) (s : State) : only [.chip, .ring] s (nullRing r s) := by
  unfold nullRing
  dsimp only
  rw [only_forAll fun j t => by simp]
  simp

theorem only_nullChans (s : State) : only [.axio] s (nullChans s) := by
  rintro ⟨⟩ <;> simp [nullChans, Part.same]

theorem only_nullsCounted (s : State) : only [.chip, .ring, .axio] s (nullsCounted s) :=
  only_trans (only_mono (by decide) ((only_forAll only_nullRing).2 (only_refl _ s))) (only_mono (by decide) (only_nullChans _))

/-- Counting leaves which channels are null. -/
theorem fbNull_nullsCounted (s : State) (c : Nat) : (chSt (nullsCounted s) c).fbNull = (chSt s c).fbNull := by
  have haxio : (forAll (List.range (maxRings s.fuse.variant)) nullRing s).axio = s.axio :=
    (only_forAll only_nullRing).2 (only_refl _ s) .axio (by decide)
  rw [chSt, nullsCounted, nullChans, nth_map_of_default (by rfl), haxio, chSt]
  split <;> rfl

@[simp] theorem nullsCounted_mot (s : State) : (nullsCounted s).mot = s.mot := only_nullsCounted s .mot (by decide)
@[simp] theorem nullsCounted_image (s : State) : (nullsCounted s).image = s.image := only_nullsCounted s .image (by decide)
@[simp] theorem axSt_nullsCounted (s : State) (a : Nat) : axSt (nullsCounted s) a = axSt s a := by simp [axSt]
@[simp] theorem axisCfg_nullsCounted (s : State) (a : Nat) : axisCfg (nullsCounted s) a = axisCfg s a := by simp [axisCfg]

/-! ### What the work on one axis leaves -/

/-- From s to t the parts of CHIP and MOT may differ, and in MOT only axis a. -/
def AtAxis (a : Nat) (s t : State) : Prop :=
  onlyAt a s.mot.axes t.mot.axes ∧ t.mot = { s.mot with axes := t.mot.axes } ∧ only [.chip, .mot] s t

section
variable {a : Nat} {s t u : State}

theorem AtAxis.refl (a : Nat) (s : State) : AtAxis a s s := ⟨⟨rfl, fun _ _ => rfl⟩, rfl, only_refl _ s⟩

theorem AtAxis.trans (h : AtAxis a s t) (k : AtAxis a t u) : AtAxis a s u := by
  obtain ⟨hax, hmot, honly⟩ := h
  obtain ⟨kax, kmot, konly⟩ := k
  exact ⟨onlyAt_trans hax kax, by rw [kmot, hmot], only_trans honly konly⟩

/-- A step on axis a does not matter for what else has changed. -/
theorem atAxis_iff (h : AtAxis a t u) : AtAxis a s u ↔ AtAxis a s t := by
  obtain ⟨⟨hlen, hax⟩, hmot, honly⟩ := id h
  have hback : AtAxis a u t :=
    ⟨⟨hlen.symm, fun j hj => (hax j hj).symm⟩, by rw [hmot], fun p hp => Part.same_symm (honly p hp)⟩
  exact ⟨fun k => k.trans hback, fun k => k.trans h⟩

@[simp] theorem atAxis_self : AtAxis a s s := .refl a s
@[simp] theorem atAxis_ite (c : Prop) [Decidable c] :
    AtAxis a s (if c then t else u) ↔ if c then AtAxis a s t else AtAxis a s u := by split <;> rfl
@[simp] theorem atAxis_onAxis {f : AxisSt → AxisSt} : AtAxis a s (onAxis a f t) ↔ AtAxis a s t :=
  atAxis_iff ⟨onlyAt_updAt _ _ _, rfl, by simp⟩
@[simp] theorem atAxis_event {c d : Nat} : AtAxis a s (event c d t) ↔ AtAxis a s t :=
  atAxis_iff ⟨⟨rfl, fun _ _ => rfl⟩, rfl, by simp⟩

end

/-! ### The feedback of one axis (R31, R210 to R213, R220) -/

section
variable {a : Nat} {s : State}

@[simp] theorem atAxis_takeFb {p : Pos} {t : State} : AtAxis a s (takeFb a p t) ↔ AtAxis a s t := by simp [takeFb]
@[simp] theorem atAxis_holdFb {n : Nat} {t : State} : AtAxis a s (holdFb a n t) ↔ AtAxis a s t := by simp [holdFb]
@[simp] theorem atAxis_initFb {p : Pos} {t : State} : AtAxis a s (initFb a p t) ↔ AtAxis a s t := by simp [initFb]
@[simp] theorem atAxis_remoteReport {v : BitVec 16} {t : State} : AtAxis a s (remoteReport a v t) ↔ AtAxis a s t := by
  simp [remoteReport]
@[simp] theorem atAxis_ringFb {e : UpEntry} {t : State} : AtAxis a s (ringFb a e t) ↔ AtAxis a s t := by simp [ringFb]

theorem atAxis_axisFb (a : Nat) (s : State) : AtAxis a s (axisFb a s) := by
  unfold axisFb
  dsimp only
  split
  case h_1 => simp
  case h_2 => simp
  case h_3 => split <;> simp

theorem atAxis_followFb (a : Nat) (s : State) : AtAxis a s (followFb a s) := by
  unfold followFb
  dsimp only
  split <;> simp

/-- What the feedback of a tick gives an axis: its position, the one before, and whether it was used or null. -/
def AxisSt.measured (x : AxisSt) : Pos × Pos × Bool × Bool := (x.fb, x.fbPrev, x.used, x.nullfb)

theorem measured_onAxis {f : AxisSt → AxisSt} (h : ∀ x, (f x).measured = x.measured) (b : Nat) (s : State) :
    (axSt (onAxis b f s) a).measured = (axSt s a).measured := nth_updAt_same h _ _ _

/-- An axis whose references are at its feedback. -/
def atFeedback (y : AxisSt) : AxisSt :=
  { y with ref := y.fb, refPrev := y.fb, refOld := y.fb, vel := 0, velOld := 0, acc := 0, accOld := 0 }

theorem measured_atFeedback (b : Nat) (s : State) : (axSt (onAxis b atFeedback s) a).measured = (axSt s a).measured :=
  measured_onAxis (f := atFeedback) (fun _ => rfl) b s

/-- References that follow the feedback leave it. -/
theorem measured_followFb (b : Nat) (s : State) : (axSt (followFb b s) a).measured = (axSt s a).measured := by
  unfold followFb
  dsimp only
  split
  case h_1 => exact (measured_onAxis (fun _ => by rfl) b _).trans (measured_atFeedback b s)
  case h_2 => exact (measured_onAxis (fun _ => by rfl) b _).trans (measured_atFeedback b s)
  case h_3 =>
    split
    · exact (measured_onAxis (fun _ => by rfl) b _).trans (measured_atFeedback b s)
    · rfl
  case h_4 =>
    split
    · exact measured_atFeedback b s
    · rfl

theorem measured_axisFb_of_none (ha : a < s.mot.axes.length) (hsrc : (axisCfg s a).src = .none) :
    (axSt (axisFb a s) a).measured = ((axSt s a).spt, (axSt s a).fb, true, false) := by
  have hx : axisFb a s = takeFb a (axSt s a).spt s := by simp only [axisFb, hsrc]
  rw [hx, axSt, takeFb, onAxis_mot, nth_updAt_self _ _ _ ha]
  rfl

theorem measured_axisFb_of_null {c : Nat} (ha : a < s.mot.axes.length) (hsrc : (axisCfg s a).src = .axio c)
    (hn : (chSt s c).fbNull = true) :
    (axSt (axisFb a s) a).measured = ((axSt s a).fb, (axSt s a).fbPrev, false, true) := by
  have hx : axisFb a s = holdFb a (chSt s c).nullRun s := by simp only [axisFb, hsrc, hn, if_true]
  rw [hx, axSt, holdFb, onAxis_mot, nth_updAt_self _ _ _ ha]
  rfl

end

/-! ### The feedback of every axis -/

/-- From s to t axis a and the size of the table of axes stand, and only CHIP and MOT may differ. -/
def AxisKept (a : Nat) (s t : State) : Prop :=
  axSt t a = axSt s a ∧ t.mot.axes.length = s.mot.axes.length ∧ only [.chip, .mot] s t

theorem AxisKept.refl (a : Nat) (s : State) : AxisKept a s s := ⟨rfl, rfl, only_refl _ s⟩

theorem AxisKept.trans {a : Nat} {s t u : State} (h : AxisKept a s t) (k : AxisKept a t u) : AxisKept a s u := by
  obtain ⟨hax, hlen, honly⟩ := h
  obtain ⟨kax, klen, konly⟩ := k
  exact ⟨kax.trans hax, klen.trans hlen, only_trans honly konly⟩

theorem AtAxis.kept {a b : Nat} {s t : State} (hab : a ≠ b) (h : AtAxis b s t) : AxisKept a s t := by
  obtain ⟨⟨hlen, hax⟩, -, honly⟩ := h
  exact ⟨hax a hab, hlen, honly⟩

/-- Of a fold over different elements, what matters to a relation that every other step keeps is the step of one of them. -/
theorem forAll_around {α : Type} {P : State → State → Prop} {f : α → State → State} {c : α} (hrefl : ∀ s, P s s)
    (htrans : ∀ {s t u}, P s t → P t u → P s u) (h : ∀ x t, c ≠ x → P t (f x t)) {l : List α} (hl : l.Nodup) (hc : c ∈ l)
    (s : State) : ∃ u, P s u ∧ P (f c u) (forAll l f s) := by
  have hfold (m : List α) (hm : c ∉ m) (t : State) : P t (forAll m f t) := by
    induction m generalizing t with
    | nil => exact hrefl t
    | cons x m ih =>
      obtain ⟨hx, hm⟩ := not_or.1 (mt List.mem_cons.2 hm)
      exact htrans (h x t hx) (ih hm (f x t))
  obtain ⟨m, n, rfl⟩ := List.append_of_mem hc
  obtain ⟨-, hcn, hmn⟩ := List.nodup_append.1 hl
  have hm : c ∉ m := fun hmem => hmn c hmem c (List.mem_cons_self ..) rfl
  have hsplit : forAll (m ++ c :: n) f s = forAll n f (f c (forAll m f s)) := List.foldl_append
  exact ⟨_, hfold m hm s, hsplit ▸ hfold n (List.nodup_cons.1 hcn).1 _⟩

/-- Axis a has its feedback, and its references follow it where they have to. -/
def axisFed (a : Nat) (s : State) : State := followFb a (axisFb a s)

/-- Every axis of the image has its feedback. -/
def axesFed (s : State) : State := forAll (allAxes s) axisFed s

theorem atAxis_axisFed (a : Nat) (s : State) : AtAxis a s (axisFed a s) := (atAxis_axisFb a s).trans (atAxis_followFb a _)

theorem measured_axisFed (a : Nat) (s : State) : (axSt (axisFed a s) a).measured = (axSt (axisFb a s) a).measured :=
  measured_followFb a _

/-- In MOT the feedback changes axes alone. -/
theorem axesFed_kept (s : State) :
    (axesFed s).mot = { s.mot with axes := (axesFed s).mot.axes } ∧ only [.chip, .mot] s (axesFed s) := by
  refine forAll_preserves (P := fun t => t.mot = { s.mot with axes := t.mot.axes } ∧ only [.chip, .mot] s t)
    (fun a t ht => ?_) _ ⟨rfl, only_refl _ s⟩
  obtain ⟨hmot, honly⟩ := ht
  obtain ⟨-, kmot, konly⟩ := atAxis_axisFed a t
  exact ⟨by rw [kmot, hmot], only_trans honly konly⟩

section
variable {a : Nat} {s : State}

/-- The work on the axes comes to an axis once, as it stood. -/
theorem axesFed_at (hi : a < s.image.axes.length) (hd : (axisCfg s a).defined = true) :
    ∃ u, AxisKept a s u ∧ (axSt (axesFed s) a).measured = (axSt (axisFb a u) a).measured := by
  have hmem : a ∈ allAxes s := by simp [allAxes, hi, hd]
  obtain ⟨u, hu, hax, -⟩ := forAll_around (AxisKept.refl a) AxisKept.trans (fun b t hb => (atAxis_axisFed b t).kept hb)
    (List.nodup_range.filter _) hmem s
  exact ⟨u, hu, (congrArg AxisSt.measured hax).trans (measured_axisFed a u)⟩

/-- An axis without a source follows its set-point. -/
theorem measured_axesFed_of_none (ha : a < s.mot.axes.length) (hi : a < s.image.axes.length) (hd : (axisCfg s a).defined = true)
    (hsrc : (axisCfg s a).src = .none) :
    (axSt (axesFed s) a).measured = ((axSt s a).spt, (axSt s a).fb, true, false) := by
  obtain ⟨u, ⟨hax, hlen, honly⟩, hm⟩ := axesFed_at hi hd
  have himage : u.image = s.image := honly .image (by decide)
  rw [hm, measured_axisFb_of_none (hlen ▸ ha) (by rw [axisCfg, himage]; exact hsrc), hax]

/-- An axis with null feedback holds its position. -/
theorem measured_axesFed_of_null {c : Nat} (ha : a < s.mot.axes.length) (hi : a < s.image.axes.length)
    (hd : (axisCfg s a).defined = true) (hsrc : (axisCfg s a).src = .axio c) (hn : (chSt s c).fbNull = true) :
    (axSt (axesFed s) a).measured = ((axSt s a).fb, (axSt s a).fbPrev, false, true) := by
  obtain ⟨u, ⟨hax, hlen, honly⟩, hm⟩ := axesFed_at hi hd
  have himage : u.image = s.image := honly .image (by decide)
  have haxio : u.axio = s.axio := honly .axio (by decide)
  rw [hm, measured_axisFb_of_null (hlen ▸ ha) (by rw [axisCfg, himage]; exact hsrc) (by rw [chSt, haxio]; exact hn), hax]

end

/-! ### The release of the feedback (R31, R200) -/

/-- A slice at the release of the feedback. -/
def resumed (s : State) (x : SliceSt) : SliceSt :=
  if x.run == .waitFb then { waitUpdate s false x with run := .run } else x

theorem resumed_place (s : State) (x : SliceSt) : (resumed s x).b = x.b ∧ (resumed s x).s = x.s := by
  obtain ⟨m, hm⟩ := waitUpdate_eq s false x
  unfold resumed
  split
  · rw [hm]
    exact ⟨rfl, rfl⟩
  · exact ⟨rfl, rfl⟩

/-- A slice at WAIT FB goes on where it stands. -/
theorem resumed_of_waiting {x : SliceSt} (h : x.run = .waitFb) (s : State) :
    (resumed s x).run = .run ∧ (resumed s x).pc = x.pc := by
  obtain ⟨m, hm⟩ := waitUpdate_eq s false x
  rw [resumed, if_pos (beq_iff_eq.2 h), hm]
  exact ⟨rfl, rfl⟩

theorem only_hedgeCompute (s : State) : only [.trl] s (hedgeCompute s) := by
  unfold hedgeCompute
  split
  · exact only_refl _ s
  · exact (only_forAll fun j t => (only_forAll fun g u => by simp).2 (only_refl _ t)).2 (only_refl _ s)

/-- The terms of the Hedge are computed, and the feedback goes to the slices. -/
def feedbackReleased (s : State) : State :=
  resumeSlices false { hedgeCompute s with mot := { (hedgeCompute s).mot with fbRel := true } }

/-- The release resumes slices, and leaves the rest of MOT. -/
theorem feedbackReleased_mot (s : State) :
    ∃ u, (feedbackReleased s).mot = { s.mot with fbRel := true, slices := s.mot.slices.map (resumed u) } := by
  have hmot : (hedgeCompute s).mot = s.mot := only_hedgeCompute s .mot (by decide)
  exact ⟨_, by rw [feedbackReleased, resumeSlices, hmot]; rfl⟩

theorem only_feedbackReleased (s : State) : only [.mot, .trl] s (feedbackReleased s) := by
  refine only_trans (only_mono (by decide) (only_hedgeCompute s)) ?_
  rintro ⟨⟩ <;> simp [feedbackReleased, resumeSlices, Part.same]

theorem feedbackDeadline_of_open {s : State} (hn : nodeMode s = false) (hf : s.mot.fbRel = false) :
    feedbackDeadline s = feedbackReleased (axesFed (nullsCounted s)) := by
  simp only [feedbackDeadline, hn, hf]
  rfl

theorem feedbackDeadline_of_released {s : State} (h : s.mot.fbRel = true) : feedbackDeadline s = s := by
  simp [feedbackDeadline, h]

/-! ### The deadline of the feedback (R25, R31) -/

section
variable {s : State} (hn : nodeMode s = false) (hf : s.mot.fbRel = false)
include hn hf

theorem only_feedbackDeadline : only [.chip, .ring, .axio, .mot, .trl] s (feedbackDeadline s) := by
  rw [feedbackDeadline_of_open hn hf]
  have hnulls := only_nullsCounted s
  obtain ⟨-, haxes⟩ := axesFed_kept (nullsCounted s)
  exact only_trans (only_mono (by decide) hnulls)
    (only_trans (only_mono (by decide) haxes) (only_mono (by decide) (only_feedbackReleased _)))

/-- Of MOT the deadline changes the axes, the slices that wait, and that the feedback has been released. -/
theorem feedbackDeadline_mot : ∃ u, (feedbackDeadline s).mot =
    { s.mot with axes := (axesFed (nullsCounted s)).mot.axes, fbRel := true, slices := s.mot.slices.map (resumed u) } := by
  obtain ⟨u, hu⟩ := feedbackReleased_mot (axesFed (nullsCounted s))
  obtain ⟨haxes, -⟩ := axesFed_kept (nullsCounted s)
  exact ⟨u, by rw [feedbackDeadline_of_open hn hf, hu, haxes, nullsCounted_mot]⟩

theorem axSt_feedbackDeadline (a : Nat) : axSt (feedbackDeadline s) a = axSt (axesFed (nullsCounted s)) a := by
  obtain ⟨u, hu⟩ := feedbackDeadline_mot hn hf
  rw [axSt, hu, axSt]

theorem sliceSt_feedbackDeadline {b sl : Nat} {x : SliceSt} (hx : sliceSt s b sl = some x) (hw : x.run = .waitFb) :
    ∃ y, sliceSt (feedbackDeadline s) b sl = some y ∧ y.run = .run ∧ y.pc = x.pc := by
  obtain ⟨u, hu⟩ := feedbackDeadline_mot hn hf
  have hmap := sliceSt_of_map (resumed_place u) (congrArg MotSt.slices hu) b sl
  exact ⟨resumed u x, by rw [hmap, hx, Option.map_some], resumed_of_waiting hw u⟩

variable {a : Nat} (ha : a < s.mot.axes.length) (hi : a < s.image.axes.length) (hd : (axisCfg s a).defined = true)
include ha hi hd

theorem measured_feedbackDeadline_of_none (hsrc : (axisCfg s a).src = .none) :
    (axSt (feedbackDeadline s) a).measured = ((axSt s a).spt, (axSt s a).fb, true, false) := by
  rw [axSt_feedbackDeadline hn hf, ← axSt_nullsCounted s a]
  exact measured_axesFed_of_none (by simpa) (by simpa) (by simpa) (by simpa)

theorem measured_feedbackDeadline_of_null {c : Nat} (hsrc : (axisCfg s a).src = .axio c) (hnull : (chSt s c).fbNull = true) :
    (axSt (feedbackDeadline s) a).measured = ((axSt s a).fb, (axSt s a).fbPrev, false, true) := by
  rw [axSt_feedbackDeadline hn hf, ← axSt_nullsCounted s a]
  exact measured_axesFed_of_null (by simpa) (by simpa) (by simpa) (by simpa) ((fbNull_nullsCounted s c).trans hnull)

end

/-! ### The clauses of O19 -/

/-- A W or O pair of one group at the end of its batch. -/
theorem execPairBatchDone_of_clearance {p : PairRec} {g : Nat} {s : State} (hr : regionUp .trl s = true)
    (hp : s.trl.pairs = [p]) (hb : s.trl.batches = [(false, false)]) (hm : (slackSt s 5).missNow = false) (hg : g < 16)
    (hl : g < s.trl.g.length) (hd : (grpCfg s g).defined = true) (hgs : p.groups = bitOf 16 g) (hc : p.cls = .w ∨ p.cls = .o) :
    ∃ t, exec (.pairBatchDone 0 []) s = .next t ∧ t.trl.batches = [(true, false)] ∧ t.trl.pairs = s.trl.pairs ∧
      (trlG t g).minScale = min (trlG s g).minScale (clearScale p p.d) ∧
      onlyAt g s.trl.g t.trl.g ∧ t.trl.objs = s.trl.objs ∧ t.trl.zones = s.trl.zones ∧ only [.chip, .trl] s t := by
  have hx : pairBatchDone 0 [] s = if f32Lt p.d p.clr then
      eventOnce (clashEvent p.cls) g g (clearanceNoted p g (batchDone s)) else clearanceNoted p g (batchDone s) :=
    (pairBatchDone_of_one hp hb hm []).trans (pairResult_of_clearance hg hd hgs hc)
  have htrl : (pairBatchDone 0 [] s).trl = (clearanceNoted p g (batchDone s)).trl := by
    rw [hx]
    split
    · exact eventOnce_trl ..
    · rfl
  refine ⟨_, runIn_of_up hr, ?_, ?_, ?_, ?_, ?_, ?_, ?_⟩
  · rw [settle_trl, htrl]; rfl
  · rw [settle_trl, htrl]; rfl
  · rw [trlG, settle_trl, htrl]
    exact minScale_clearanceNoted (s := batchDone s) hl
  · rw [settle_trl, htrl]
    exact onlyAt_trans (onlyAt_updAt _ _ _) (onlyAt_updAt _ _ _)
  · rw [settle_trl, htrl]; rfl
  · rw [settle_trl, htrl]; rfl
  · refine (only_settle_iff (by decide)).2 ?_
    simp [hx, clearanceNoted, lowerScale, noteDist, batchDone, only_trl]

/-- A P or K pair of one group whose copies differ at the end of its batch. -/
theorem execPairBatchDone_of_differ {p : PairRec} {g : Nat} {s : State} (hr : regionUp .trl s = true)
    (hp : s.trl.pairs = [p]) (hb : s.trl.batches = [(false, false)]) (hm : (slackSt s 5).missNow = false) (hg : g < 16)
    (hl : g < s.trl.g.length) (hsl : g < s.saf.g.length) (hd : (grpCfg s g).defined = true) (hgs : p.groups = bitOf 16 g)
    (hc : p.cls = .p ∨ p.cls = .k) :
    ∃ t, exec (.pairBatchDone 0 [0]) s = .next t ∧ t.trl.batches = [(true, false)] ∧ (trlG t g).minScale = 0 ∧
      (safG t g).aLatch = true ∧ t.saf.lastA = 0x0731 ∧ onlyAt g s.trl.g t.trl.g ∧ t.trl.objs = s.trl.objs ∧
      only [.chip, .saf, .trl, .recd] s t := by
  have hx : pairBatchDone 0 [0] s =
      classA p.groups 16 0x0731 (event 0x0731 0 (lowerScale g 0 (limKind p.cls) p.o (batchDone s))) :=
    (pairBatchDone_of_one hp hb hm [0]).trans (pairResult_of_differ hg hd hgs hc)
  have htrl : (pairBatchDone 0 [0] s).trl = (lowerScale g 0 (limKind p.cls) p.o (batchDone s)).trl := by
    rw [hx]
    exact only_classA_self .trl (by decide)
  have hbit : hasBit p.groups g = true := by
    rw [← mem_bitsOf, hgs, bitsOf_bitOf hg]
    exact List.mem_singleton_self g
  refine ⟨_, runIn_of_up hr, ?_, ?_, ?_, ?_, ?_, ?_, ?_⟩
  · rw [settle_trl, htrl]; rfl
  · rw [trlG, settle_trl, htrl]
    exact (minScale_lowerScale (s := batchDone s) hl 0 _ _).trans (Nat.min_zero _)
  · rw [safG, settle_saf, hx]
    exact aLatch_classA hbit hsl
  · rw [settle_saf, hx, classA_lastA]
  · rw [settle_trl, htrl]
    exact onlyAt_updAt _ _ _
  · rw [settle_trl, htrl]; rfl
  · refine (only_settle_iff (by decide)).2 ?_
    simp [hx, lowerScale, batchDone, only_trl]

/-- A source that is null for longer than the limit. -/
theorem execFeedbackNullLimit_of_more {src : FbSource} {s : State} (hn : nullLimit s < nullRunOf s src)
    (hl : sourceLost s src = false) (hg : sourceGroups s src ≠ 0) :
    ∃ t, exec (.feedbackNullLimit src) s = .next t ∧
      (∀ g, g < s.saf.g.length → hasBit (sourceGroups s src) g = true →
        hasBit (safG t g).stopReq 12 = true ∧ (safG t g).aLatch = true) ∧
      (∀ g, hasBit (sourceGroups s src) g = false → safG t g = safG s g) ∧ t.saf.lastA = 0x0501 ∧
      logged 0x0501 (maskDetail (sourceGroups s src)) s t ∧ only [.chip, .ring, .axio, .saf, .recd] s t := by
  have hx := feedbackNullLimit_of_more hn hl hg
  have hgs := feedbackNullLimit_g hn hl hg
  have hlost := only_markLost src s
  have hchip : (markLost src s).chip = s.chip := hlost .chip (by decide)
  have htime : (markLost src s).time = s.time := hlost .time (by decide)
  have hlog : logged 0x0501 (maskDetail (sourceGroups s src)) s (feedbackNullLimit src s) := by
    rw [hx]
    exact logged_demandStop (logged_latchA (logged_event (quiet_of_chip hchip) htime))
  refine ⟨_, run_of_logged rfl hlog, fun g hlen hbit => ?_, fun g hbit => ?_, ?_, hlog, ?_⟩
  · simp only [safG, hgs, nth_updMask, hbit, updMask_length, hlen, and_self, if_true]
    exact ⟨hasBit_wantStop (by decide) _, rfl⟩
  · simp only [safG, hgs, nth_updMask, hbit, Bool.false_eq_true, false_and, if_false]
  · simp [hx, demandStop_eq]
  · rw [hx]
    simpa using only_mono (by decide) hlost

/-- The deadline of the feedback of a tick. -/
theorem execFeedbackDeadline_of_open {s : State} (hn : nodeMode s = false) (hf : s.mot.fbRel = false) :
    ∃ t, exec .feedbackDeadline s = .next t ∧ t.mot.fbRel = true ∧
      (∀ b sl x, sliceSt s b sl = some x → x.run = .waitFb → ∃ y, sliceSt t b sl = some y ∧ y.run = .run ∧ y.pc = x.pc) ∧
      (∀ a, a < s.mot.axes.length → a < s.image.axes.length → (axisCfg s a).defined = true → (axisCfg s a).src = .none →
        (axSt t a).fb = (axSt s a).spt ∧ (axSt t a).fbPrev = (axSt s a).fb ∧ (axSt t a).used = true) ∧
      (∀ a c, a < s.mot.axes.length → a < s.image.axes.length → (axisCfg s a).defined = true →
        (axisCfg s a).src = .axio c → (chSt s c).fbNull = true →
        (axSt t a).fb = (axSt s a).fb ∧ (axSt t a).nullfb = true ∧ (axSt t a).used = false) ∧
      only [.chip, .ring, .axio, .mot, .trl] s t := by
  obtain ⟨u, hu⟩ := feedbackDeadline_mot hn hf
  have hmot : (settle s (feedbackDeadline s)).mot = (feedbackDeadline s).mot := settle_mot _ _
  refine ⟨_, rfl, by rw [hmot, hu], fun b sl x hx hw => ?_, fun a ha hi hd hsrc => ?_, fun a c ha hi hd hsrc hnull => ?_,
    (only_settle_iff (by decide)).2 (only_feedbackDeadline hn hf)⟩
  · rw [sliceSt, hmot]
    exact sliceSt_feedbackDeadline hn hf hx hw
  · have hm := measured_feedbackDeadline_of_none hn hf ha hi hd hsrc
    simp only [AxisSt.measured, Prod.mk.injEq] at hm
    obtain ⟨hfb, hprev, hused, -⟩ := hm
    rw [axSt, hmot]
    exact ⟨hfb, hprev, hused⟩
  · have hm := measured_feedbackDeadline_of_null hn hf ha hi hd hsrc hnull
    simp only [AxisSt.measured, Prod.mk.injEq] at hm
    obtain ⟨hfb, -, hused, hnullfb⟩ := hm
    rw [axSt, hmot]
    exact ⟨hfb, hnullfb, hused⟩

/-- Settles O19, by what a batch gives the scale of its group, what a lost source demands of its groups, and what the deadline of
the feedback leaves of each axis and slice. -/
theorem feedbackAndPairs : Obligations.FeedbackAndPairs := by
  unfold Obligations.FeedbackAndPairs
  refine ⟨?_, fun j s h => runIn_of_unchanged (objectStale_of_stale h),
    fun p g s => execPairBatchDone_of_clearance, fun p g s => execPairBatchDone_of_differ,
    fun id ds s h => runIn_of_unchanged (pairBatchDone_of_discarded h ds), fun s => execFeedbackDeadline_of_open,
    fun s h => run_of_unchanged (feedbackDeadline_of_released h), fun src s => execFeedbackNullLimit_of_more,
    fun src s h => run_of_unchanged (feedbackNullLimit_of_le h), ?_,
    fun a k s hk ht => run_of_unchanged (remoteHomeTimeout_of_early hk ht)⟩
  · intro j s hr hs hj hd ha hf
    obtain ⟨ht, hlog⟩ := run_of_event (objectStale_of_older hd hs ha hf) ⟨rfl, rfl, rfl⟩ rfl
    exact ⟨_, (runIn_of_up hr).trans ht, nth_updAt_self _ _ _ hj, hlog, onlyAt_updAt _ _ _, by simp⟩
  · intro a k s ha hk ht
    obtain ⟨hrun, hlog⟩ := run_of_event (remoteHomeTimeout_of_late hk ht) ⟨rfl, rfl, rfl⟩ rfl
    exact ⟨_, hrun, nth_updAt_self _ _ _ ha, hlog, onlyAt_updAt _ _ _, by simp⟩

end Sys2Proof.Machine

/-! PROOF. Lasting: every command completes, and what it leaves of the queue, the fuses, the confirmation records, the flash, the
image in use and the canonical form of memory; O55, O57, O58, O59 and O60. -/

namespace Sys2Proof.Machine

/-! ### Every command completes -/

theorem exec_completes (c : Instr) (s : State) : ∃ t, exec c s = .next t := by
  cases c <;> exact ⟨_, rfl⟩

theorem step_cons (c : Instr) (q : List Instr) (s : State) : step { s with pending := c :: q } = exec c { s with pending := q } := rfl

theorem step_eq_exec {c : Instr} {q : List Instr} {s : State} (h : s.pending = c :: q) :
    step s = exec c { s with pending := q } := by
  simp [step, h]

/-! ### The commands that reach the queue, the fuses, the flash, the confirmation records, the image or memory -/

/-- The commands that change some of what `State.keep` holds. -/
def Instr.reachesKept : Instr → Bool
  | .tickEdge .. | .ringStart .. | .startSequence .. | .powerOnReset .. | .externalReset .. | .supplyMonitorReset | .resetBegin
  | .wdogReset | .flashOpDone .. | .confirmationWriteDone .. | .testModeEntry .. | .blackboxProgrammed .. | .registerWrite ..
  | .accessSizeError .. => true
  | _ => false

/-- Every other command keeps them: the operation it runs does. -/
theorem exec_keep {c : Instr} (s : State) (hc : Instr.reachesKept c = false) : ∃ t, exec c s = .next t ∧ t.keep = s.keep := by
  cases c
  case tickEdge => cases hc
  case ringStart => cases hc
  case startSequence => cases hc
  case powerOnReset => cases hc
  case externalReset => cases hc
  case supplyMonitorReset => cases hc
  case resetBegin => cases hc
  case wdogReset => cases hc
  case flashOpDone => cases hc
  case confirmationWriteDone => cases hc
  case testModeEntry => cases hc
  case blackboxProgrammed => cases hc
  case registerWrite => cases hc
  case accessSizeError => cases hc
  case pruneRegion r signed => cases signed <;> exact ⟨_, rfl, by simp⟩
  case pruneKindInvalid k => exact ⟨_, rfl, by simp [apply_ite State.keep]⟩
  all_goals exact ⟨_, rfl, by simp⟩

theorem wdogReset_r (s : State) : Respects s (wdogReset s) := by
  unfold wdogReset
  split
  · exact resetTo_r _ _ s
  · exact .refl s

/-- No command puts anything into the queue, undoes a fuse, drops a confirmation record or breaks the form of memory. -/
theorem exec_respects {c : Instr} {s t : State} (h : exec c s = .next t) : Respects s t := by
  cases hc : Instr.reachesKept c with
  | false =>
    obtain ⟨u, hu, hk⟩ := exec_keep s hc
    cases hu.symm.trans h
    exact .of_keep hk
  | true =>
    cases c
    case tickEdge => exact run_r h (tickEdge_r _ _ s)
    case ringStart => exact run_r h (ringStart_r _ s)
    case startSequence => exact run_r h (startSequence_r _ _ _ s)
    case powerOnReset => exact run_r h (resetTo_r _ _ s)
    case externalReset => exact run_r h (resetTo_r _ _ s)
    case supplyMonitorReset => exact run_r h (resetTo_r _ _ s)
    case resetBegin => exact run_r h (resetBegin_r s)
    case wdogReset => exact run_r h (wdogReset_r s)
    case flashOpDone => exact run_r h (flashOpDone_r _ s)
    case confirmationWriteDone => exact run_r h (confirmationWriteDone_r _ s)
    case testModeEntry => exact run_r h (testModeEntry_r _ s)
    case blackboxProgrammed => exact run_r h (blackboxProgrammed_r _ s)
    case registerWrite => exact run_r h (registerWrite_r _ _ _ s)
    case accessSizeError => exact run_r h (accessSizeError_r _ _ _ _ s)
    all_goals cases hc

theorem step_respects {c : Instr} {q : List Instr} {s t : State} (hq : s.pending = c :: q) (h : step s = .next t) :
    Respects { s with pending := q } t :=
  exec_respects ((step_eq_exec hq).symm.trans h)

/-- A step takes the front command out of the queue and undoes nothing else; on an empty queue it changes nothing. -/
theorem step_cases {s t : State} (h : step s = .next t) : t = s ∨ ∃ q, Respects { s with pending := q } t := by
  cases hq : s.pending with
  | nil => simp only [step, hq] at h; cases h; exact .inl rfl
  | cons c q => exact .inr ⟨q, step_respects hq h⟩

/-! ### What a command leaves of the configuration in use -/

/-- The image in use, the flash, the confirmation records and the OPENED fuse. -/
def State.config (s : State) : Image × Flash × List ConfRec × Bool := (s.image, s.flash, s.conf, s.fuse.opened)

theorem config_eq {s t : State} (hi : t.image = s.image) (hl : t.flash = s.flash) (hc : t.conf = s.conf) (hf : t.fuse = s.fuse) :
    t.config = s.config := by
  simp only [State.config, hi, hl, hc, hf]

theorem config_of_keep {s t : State} (h : t.keep = s.keep) : t.config = s.config :=
  config_eq (keep_image h) (keep_flash h) (keep_conf h) (keep_fuse h)

/-- The key fused at the first start is no part of the configuration. -/
theorem firstStart_config (s : State) : (firstStart s).config = s.config := by
  unfold firstStart
  split <;> rfl

theorem enterRunning_config (s : State) : (enterRunning s).config = s.config := by
  unfold enterRunning
  exact (config_of_keep (recordAtStart_keep _)).trans ((firstStart_config _).trans (config_of_keep (by simp)))

theorem followStart_config (s : State) : (followStart s).config = s.config := by
  unfold followStart
  split
  · exact (enterRunning_config _).trans (config_of_keep (nodeNonce_keep _))
  · rfl

theorem firstEdgeOf_config (s : State) : (firstEdgeOf s).config = s.config := by
  unfold firstEdgeOf
  refine (enterRunning_config _).trans ((config_of_keep (nodeNonce_keep _)).trans ?_)
  exact config_of_keep ((ringForm_keep _ _).trans ((onTime_keep _ _).trans (advanceTb_keep _ _)))

theorem ringStart_config (n : Nat) (s : State) : (ringStart n s).config = s.config := by
  unfold ringStart
  split
  · rfl
  · refine (config_of_keep ((startTick_keep _ _ _).trans ((freeSamples_keep _ _).trans (event_keep _ _ _)))).trans ?_
    refine (enterRunning_config _).trans ((config_of_keep (onHost_keep _ _)).trans ?_)
    exact config_of_keep ((ringForm_keep _ _).trans ((onTime_keep _ _).trans (advanceTb_keep _ _)))

theorem tickEdge_config (e : List Nat) (r : Bool) (s : State) : (tickEdge e r s).config = s.config := by
  unfold tickEdge
  split
  · rfl
  · split
    · split
      · exact (config_of_keep (startTick_keep _ _ _)).trans (firstEdgeOf_config s)
      · rfl
    · refine (config_of_keep (startTick_keep _ _ _)).trans ((followStart_config _).trans ?_)
      refine (config_of_keep ((countTick_keep _).trans (clearTick_keep _))).trans ?_
      exact config_eq (tickEnds_image _ _) (tickEnds_flash _ _) (tickEnds_conf _ _) (tickEnds_fuse _ _)

/-- The commands that change some of the configuration. -/
def Instr.configures : Instr → Bool
  | .startSequence .. | .powerOnReset .. | .externalReset .. | .supplyMonitorReset | .resetBegin | .wdogReset | .flashOpDone ..
  | .confirmationWriteDone .. | .testModeEntry .. => true
  | _ => false

theorem config_of_run {f : State → State} {s t : State} (h : run f s = .next t) (k : (f s).config = s.config) :
    t.config = s.config := by
  cases h
  exact (config_of_keep (settle_keep _ _)).trans k

theorem exec_config {c : Instr} {s t : State} (hc : Instr.configures c = false) (h : exec c s = .next t) :
    t.config = s.config := by
  cases hr : Instr.reachesKept c with
  | false =>
    obtain ⟨u, hu, hk⟩ := exec_keep s hr
    cases hu.symm.trans h
    exact config_of_keep hk
  | true =>
    cases c
    case tickEdge => exact config_of_run h (tickEdge_config _ _ s)
    case ringStart => exact config_of_run h (ringStart_config _ s)
    case blackboxProgrammed => exact config_of_run h (config_eq (by simp) (by simp) (by simp) (by simp))
    case registerWrite => exact config_of_run h (config_eq (by simp) (by simp) (by simp) (by simp))
    case accessSizeError => exact config_of_run h (config_eq (by simp) (by simp) (by simp) (by simp))
    all_goals cases hr <;> cases hc

/-- What the start sequence reads and never writes: the flash, the confirmation records and the fuses. -/
def State.stored (s : State) : Flash × List ConfRec × FuseSt := (s.flash, s.conf, s.fuse)

theorem stored_of_keep {s t : State} (h : t.keep = s.keep) : t.stored = s.stored := by
  simp only [State.stored, keep_flash h, keep_conf h, keep_fuse h]

theorem startFrom_stored (p : Bool) (f : List (Region × Nat × Nat)) (v : List Bool) (s : State) :
    (startFrom p f v s).stored = s.stored := by
  unfold startFrom
  split
  · exact stored_of_keep (by simp)
  · dsimp only
    have hslots := checkSlots_keep v (candidates (readHeader true (readHeader false s))) (readHeader true (readHeader false s))
    have hheaders : (readHeader true (readHeader false s)).keep = s.keep := by simp
    revert hslots
    rcases checkSlots _ _ _ with ⟨_ | b, t⟩ <;> intro hslots <;> dsimp only at hslots ⊢
    · exact stored_of_keep (by simp [hslots])
    · have htaken : (selfTests f (copyAreas (loadAll (takeImage b p t)))).stored = s.stored := by
        have hload := loadAll_keep (takeImage b p t)
        calc (selfTests f (copyAreas (loadAll (takeImage b p t)))).stored
            = (copyAreas (loadAll (takeImage b p t))).stored := stored_of_keep (selfTests_keep _ _)
          _ = (loadAll (takeImage b p t)).stored := by simp only [State.stored, copyAreas_flash, copyAreas_conf, copyAreas_fuse]
          _ = (takeImage b p t).stored := stored_of_keep hload
          _ = t.stored := by simp only [State.stored, takeImage_flash, takeImage_conf, takeImage_fuse]
          _ = s.stored := stored_of_keep (hslots.trans hheaders)
      split
      · exact htaken
      · exact (stored_of_keep (enterStep8_keep _)).trans htaken

theorem startSequence_stored (p : Bool) (f : List (Region × Nat × Nat)) (v : List Bool) (s : State) :
    (startSequence p f v s).stored = s.stored := by
  unfold startSequence
  split
  · exact startFrom_stored p f v s
  · rfl

/-- A reset without programming keeps what is stored. -/
theorem resetTo_stored (k : Nat) (s : State) : (resetTo k none s).stored = s.stored := rfl

theorem resetBegin_stored (s : State) : (resetBegin s).stored = s.stored := by
  unfold resetBegin
  split
  · rfl
  · split
    · rfl
    · exact resetTo_stored 4 s

theorem wdogReset_stored (s : State) : (wdogReset s).stored = s.stored := by
  unfold wdogReset
  split
  · exact resetTo_stored 3 s
  · rfl

theorem flash_of_stored {s t : State} (h : t.stored = s.stored) : t.flash = s.flash := congrArg (·.1) h
theorem conf_of_stored {s t : State} (h : t.stored = s.stored) : t.conf = s.conf := congrArg (·.2.1) h
theorem fuse_of_stored {s t : State} (h : t.stored = s.stored) : t.fuse = s.fuse := congrArg (·.2.2) h

/-- A part of the state that the order of the log does not touch is after a run what the operation leaves of it. -/
theorem part_of_run {α : Type} {P : State → α} (hP : ∀ u v, P (settle u v) = P v) {f : State → State} {s t : State}
    (h : run f s = .next t) (k : P (f s) = P s) : P t = P s := by
  cases h
  exact (hP _ _).trans k

theorem exec_image {c : Instr} {s t : State} (h : exec c s = .next t) (hstart : ∀ b f v, c ≠ .startSequence b f v)
    (hpower : ∀ f, c ≠ .powerOnReset f) (hsupply : c ≠ .supplyMonitorReset) (hext : ∀ f, c ≠ .externalReset f)
    (hcmd : c ≠ .resetBegin) (hwdog : c ≠ .wdogReset) : t.image = s.image := by
  cases hc : Instr.configures c with
  | false => exact congrArg (·.1) (exec_config hc h)
  | true =>
    cases c
    case startSequence => exact absurd rfl (hstart _ _ _)
    case powerOnReset => exact absurd rfl (hpower _)
    case supplyMonitorReset => exact absurd rfl hsupply
    case externalReset => exact absurd rfl (hext _)
    case resetBegin => exact absurd rfl hcmd
    case wdogReset => exact absurd rfl hwdog
    case flashOpDone => exact part_of_run settle_image h (flashOpDone_image _ s)
    case confirmationWriteDone => exact part_of_run settle_image h (confirmationWriteDone_image _ s)
    case testModeEntry => exact part_of_run settle_image h (testModeEntry_image _ s)
    all_goals cases hc

theorem exec_flash {c : Instr} {s t : State} (h : exec c s = .next t) (hop : ∀ n, c ≠ .flashOpDone n)
    (hpower : ∀ f, c ≠ .powerOnReset f) (hext : ∀ f, c ≠ .externalReset f) : t.flash = s.flash := by
  cases hc : Instr.configures c with
  | false => exact congrArg (·.2.1) (exec_config hc h)
  | true =>
    cases c
    case flashOpDone => exact absurd rfl (hop _)
    case powerOnReset => exact absurd rfl (hpower _)
    case externalReset => exact absurd rfl (hext _)
    case startSequence => exact part_of_run settle_flash h (flash_of_stored (startSequence_stored _ _ _ s))
    case supplyMonitorReset => exact part_of_run settle_flash h (flash_of_stored (resetTo_stored 1 s))
    case resetBegin => exact part_of_run settle_flash h (flash_of_stored (resetBegin_stored s))
    case wdogReset => exact part_of_run settle_flash h (flash_of_stored (wdogReset_stored s))
    case confirmationWriteDone => exact part_of_run settle_flash h (confirmationWriteDone_flash _ s)
    case testModeEntry => exact part_of_run settle_flash h (testModeEntry_flash _ s)
    all_goals cases hc

theorem exec_conf {c : Instr} {s t : State} (h : exec c s = .next t) (hconf : ∀ b, c ≠ .confirmationWriteDone b) :
    t.conf = s.conf := by
  cases hc : Instr.configures c with
  | false => exact congrArg (·.2.2.1) (exec_config hc h)
  | true =>
    cases c
    case confirmationWriteDone => exact absurd rfl (hconf _)
    case startSequence => exact part_of_run settle_conf h (conf_of_stored (startSequence_stored _ _ _ s))
    case powerOnReset => exact part_of_run settle_conf h (powerOnReset_conf _ s)
    case externalReset => exact part_of_run settle_conf h (externalReset_conf _ s)
    case supplyMonitorReset => exact part_of_run settle_conf h (resetTo_conf _ _ s)
    case resetBegin => exact part_of_run settle_conf h (resetBegin_conf s)
    case wdogReset => exact part_of_run settle_conf h (wdogReset_conf s)
    case flashOpDone => exact part_of_run settle_conf h (flashOpDone_conf _ s)
    case testModeEntry => exact part_of_run settle_conf h (testModeEntry_conf _ s)
    all_goals cases hc

theorem exec_opened {c : Instr} {s t : State} (h : exec c s = .next t) (htest : ∀ b, c ≠ .testModeEntry b) :
    t.fuse.opened = s.fuse.opened := by
  cases hc : Instr.configures c with
  | false => exact congrArg (·.2.2.2) (exec_config hc h)
  | true =>
    refine congrArg FuseSt.opened ?_
    cases c
    case testModeEntry => exact absurd rfl (htest _)
    case startSequence => exact part_of_run settle_fuse h (fuse_of_stored (startSequence_stored _ _ _ s))
    case powerOnReset => exact part_of_run settle_fuse h (powerOnReset_fuse _ s)
    case externalReset => exact part_of_run settle_fuse h (externalReset_fuse _ s)
    case supplyMonitorReset => exact part_of_run settle_fuse h (resetTo_fuse _ _ s)
    case resetBegin => exact part_of_run settle_fuse h (resetBegin_fuse s)
    case wdogReset => exact part_of_run settle_fuse h (wdogReset_fuse s)
    case flashOpDone => exact part_of_run settle_fuse h (flashOpDone_fuse _ s)
    case confirmationWriteDone => exact part_of_run settle_fuse h (confirmationWriteDone_fuse _ s)
    all_goals cases hc

/-! ### The statements -/

/-- Settles O55: a step is the meaning of the front command by definition, and every command completes. -/
theorem stepRunsFrontCommand : Obligations.StepRunsFrontCommand := by
  unfold Obligations.StepRunsFrontCommand
  refine ⟨fun c s => rfl, fun s h => by simp [step, h], fun c s => ?_, fun n w c s h => ?_, fun n w s h => ?_, fun n w s h => ?_⟩
  · obtain ⟨t, ht⟩ := exec_completes c s
    exact ⟨t, ht, ht⟩
  · have hw : s.withFetchWord n w = { s with pending := c :: s.pending } := by simp only [State.withFetchWord, h]
    exact ⟨hw, by rw [hw]; rfl⟩
  · simp only [State.withFetchWord, h]
  · simp only [State.withFetchWord, decodeTableWord, if_neg h]

/-- Settles O57: no command reaches the queue behind it, and every command completes. -/
theorem queueInOrder : Obligations.QueueInOrder :=
  ⟨fun _ _ _ _ hq h => (step_respects hq h).pending, exec_completes⟩

/-- Settles O58, by what every command keeps of memory and of the confirmation records. -/
theorem stepKeepsSound : Obligations.StepKeepsSound := by
  intro s t hs h
  rcases step_cases h with rfl | ⟨q, hk⟩
  · exact hs
  · simp only [State.sound, Bool.and_eq_true, beq_iff_eq] at hs ⊢
    exact ⟨hk.mem hs.1, hk.conf.trans hs.2⟩

/-- Settles O59, by what every command keeps of the fuses. -/
theorem step_fusesLast : Obligations.FusesLast := by
  intro s t h
  rcases step_cases h with rfl | ⟨q, hk⟩
  · exact ⟨rfl, rfl, id, fun _ => ⟨rfl, rfl⟩⟩
  · exact ⟨hk.serial, hk.variant, hk.opened, hk.key⟩

/-- Settles O60, by the commands that reach each part of the configuration. -/
theorem configurationLasts : Obligations.ConfigurationLasts :=
  ⟨fun _ _ _ => exec_image, fun _ _ _ => exec_flash, fun _ _ _ => exec_conf, fun _ _ _ => exec_opened⟩

end Sys2Proof.Machine

/-! PROOF. Monitors: what class A faults, the end of their sources and escalations leave of SAF's groups, and O31. -/

namespace Sys2Proof.Machine

/-! ### The requests and latches of a group -/

/-- The source of a class A fault has ended in one group. -/
def sourceEnded (src : Nat) (x : SafGroup) : SafGroup := { x with aActive := x.aActive &&& ~~~ bitOf 16 src }

theorem endA_eq (m : Mask) (src : Nat) (s : State) :
    endA m src s = onSaf (fun x => { x with g := updMask m (sourceEnded src) x.g }) s := forAll_onSafG m _ s

theorem classA_saf (m : Mask) (src code : Nat) (s : State) : (classA m src code s).saf =
    { s.saf with g := updMask m (wantStop 9) (updMask m (latched src) s.saf.g), lastA := code } := by
  simp [classA, demandStop_eq, latchA_eq]

/-- A class A fault latches the groups it names and demands their stop. -/
theorem safG_classA {m : Mask} {g : Nat} (src code : Nat) {s : State} (hm : hasBit m g = true) (hg : g < s.saf.g.length) :
    safG (classA m src code s) g = wantStop 9 (latched src (safG s g)) := by
  simp [safG, classA_saf, nth_updMask, hm, hg]

theorem latched_and_stopped {m : Mask} {g : Nat} (src code : Nat) {s : State} (hm : hasBit m g = true)
    (hg : g < s.saf.g.length) :
    (safG (classA m src code s) g).aLatch = true ∧ hasBit (safG (classA m src code s) g).stopReq 9 = true := by
  rw [safG_classA src code hm hg]
  exact ⟨rfl, hasBit_wantStop (by decide) _⟩

theorem logged_classA {m : Mask} {c d src code : Nat} {s t : State} (h : logged c d s t) : logged c d s (classA m src code t) :=
  logged_demandStop (logged_latchA h)

theorem hasBit_or_left {n i : Nat} {m k : BitVec n} (h : hasBit m i = true) : hasBit (m ||| k) i = true := by
  simp only [hasBit, BitVec.getLsbD_or, Bool.or_eq_true] at h ⊢
  exact .inl h

theorem hasBit_and {n i : Nat} (m k : BitVec n) : hasBit (m &&& k) i = (hasBit m i && hasBit k i) := by
  simp only [hasBit, BitVec.getLsbD_and]

theorem hasBit_andNot_bitOf {n i : Nat} (m : BitVec n) : hasBit (m &&& ~~~ bitOf n i) i = false := by
  simp only [hasBit, BitVec.getLsbD_and, BitVec.getLsbD_not, getLsbD_bitOf]
  by_cases h : i < n <;> simp [h]

/-- A demand for a stop takes back no other. -/
theorem stopReq_updMask_wantStop {m : Mask} {cause c g : Nat} {l : List SafGroup} (h : hasBit (nth l g).stopReq c = true) :
    hasBit (nth (updMask m (wantStop cause) l) g).stopReq c = true := by
  rw [nth_updMask]
  split
  · exact hasBit_or_left h
  · exact h

@[simp] theorem stopReq_updMask_wantSto (m : Mask) (cause g : Nat) (l : List SafGroup) :
    (nth (updMask m (wantSto cause) l) g).stopReq = (nth l g).stopReq :=
  nth_updMask_same (P := SafGroup.stopReq) (f := wantSto cause) (fun _ => rfl) m l g

/-! ### Escalations -/

/-- SAF's state but for its groups and the withholding of the refresh. -/
def SafSt.monitors (x : SafSt) : SafSt := { x with g := [], withheld := false }

/-- An escalation reaches of SAF the groups and the withholding of the refresh. -/
theorem escalate_monitors (r : Region) (s : State) : (escalate r s).saf.monitors = s.saf.monitors := by
  unfold escalate
  split
  · rfl
  · dsimp only
    split
    · simp [demandSto_eq, SafSt.monitors]
    · simp [demandStop_eq, demandSto_eq, SafSt.monitors]

@[simp] theorem escalate_sig (r : Region) (s : State) : (escalate r s).saf.sig = s.saf.sig :=
  (congrArg SafSt.sig (escalate_monitors r s) :)
@[simp] theorem escalate_vcore (r : Region) (s : State) : (escalate r s).saf.vcore = s.saf.vcore :=
  (congrArg SafSt.vcore (escalate_monitors r s) :)
@[simp] theorem escalate_tj (r : Region) (s : State) : (escalate r s).saf.tj = s.saf.tj :=
  (congrArg SafSt.tj (escalate_monitors r s) :)

/-- An escalation takes back no demand for a stop. -/
theorem stopReq_escalate_of_demanded {r : Region} {c g : Nat} {s : State} (h : hasBit (safG s g).stopReq c = true) :
    hasBit (safG (escalate r s) g).stopReq c = true := by
  unfold escalate
  split
  · exact h
  · have h' : hasBit (nth s.saf.g g).stopReq c = true := h
    dsimp only
    split
    · simpa [safG, demandSto_eq] using h'
    · simp only [safG, autoHandover_saf, demandStop_eq, demandSto_eq, onSaf_saf, mark_saf, event_saf, bbTrigger_saf, recTrip_saf,
        onRegion_saf, onChip_saf]
      exact stopReq_updMask_wantStop (by simpa using h')

theorem hasBit_wantSto {c : Nat} (h : c < 32) (x : SafGroup) : hasBit (wantSto c x).stoReq c = true := hasBit_or_bitOf h _

/-- An escalation of SAF demands STO of every group (R301). -/
theorem stoReq_escalate_saf {g : Nat} {s : State} (h : (regSt s .saf).escalated = false) (hd : hasBit (defined s) g = true)
    (hg : g < s.saf.g.length) : hasBit (safG (escalate .saf s) g).stoReq 15 = true := by
  simp [escalate, h, demandSto_eq, safG, nth_updMask, hd, hg, hasBit_wantSto]

/-- An escalation of SAF asks for no handover. -/
theorem only_escalate_saf (s : State) : only [.chip, .time, .recd, .saf, .regions] s (escalate .saf s) := by
  unfold escalate
  split
  · exact only_refl _ s
  · simp

/-- A class A fault of every group, then an escalation: each group is latched and stopped. -/
theorem latched_and_stopped_escalate {r : Region} {src code g : Nat} {s : State} (hd : hasBit (defined s) g = true)
    (hg : g < s.saf.g.length) :
    (safG (escalate r (classA (defined s) src code s)) g).aLatch = true ∧
      hasBit (safG (escalate r (classA (defined s) src code s)) g).stopReq 9 = true := by
  obtain ⟨hlatch, hstop⟩ := latched_and_stopped src code hd hg
  exact ⟨(aLatch_escalate _ _ _).trans hlatch, stopReq_escalate_of_demanded hstop⟩

theorem regSt_congr {s t : State} (h : t.regions = s.regions) (r : Region) : regSt t r = regSt s r := by
  simp only [regSt, h]

/-! ### The monitors (R301, R302) -/

section
variable {s : State}

theorem flowSignatureCheck_good (sig : Word) (s : State) :
    flowSignatureCheck true sig s = onSaf (fun f => { f with sig := sig }) s := rfl

theorem flowSignatureCheck_wrong (sig : Word) (s : State) : flowSignatureCheck false sig s =
    escalate .saf (classA (defined s) 16 0x0850 (event 0x0850 0 (onSaf (fun f => { f with sig := sig }) s))) := rfl

/-- Above 105 °C a first class B condition of source 7 begins (R302). -/
theorem temperatureTrip_of_hot {j : Nat} (hlo : 105 < j) (hhi : j ≤ 110) (hb : s.saf.bconds.any (fun c => c.src == 7) = false) :
    temperatureTrip j s = onSaf (fun f => { f with
        bconds := f.bconds ++ [{ src := 7, idx := 0, scope := defined s }], lastB := 0x0852 })
      (event 0x0852 0 (onSaf (fun f => { f with tj := (j + 64) % 256 }) s)) := by
  have hidx : s.saf.bconds.any (fun c => c.src == 7 && c.idx == 0) = false := by
    simp only [List.any_eq_false, Bool.and_eq_true, not_and] at hb ⊢
    exact fun c hc h7 => absurd h7 (hb c hc)
  simp only [temperatureTrip, if_neg (Nat.not_lt.2 hhi), if_pos hlo, onSaf_saf, hb, addB, event_saf, hidx,
    Bool.false_eq_true, if_false]
  rfl

theorem temperatureTrip_of_critical {j : Nat} (hj : 110 < j) : temperatureTrip j s =
    escalate .chip (classA (defined s) 2 0x0852
      (event 0x0852 0 (addB 7 0 (defined s) 0x0852 (onSaf (fun f => { f with tj := (j + 64) % 256 }) s)))) := by
  simp only [temperatureTrip, if_pos hj]
  rfl

theorem temperatureClear_of_cool {j : Nat} (hj : j ≤ 105) : temperatureClear j s =
    endA (defined s) 2 (endB 7 0 (onSaf (fun f => { f with tj := (j + 64) % 256 }) s)) := if_pos hj

@[simp] theorem addB_tj (src i code : Nat) (m : Mask) (s : State) : (addB src i m code s).saf.tj = s.saf.tj := by
  unfold addB
  split <;> rfl

theorem aActive_sourceEnded (src : Nat) (x : SafGroup) : hasBit (sourceEnded src x).aActive src = false := hasBit_andNot_bitOf _

end

/-! ### A trip (R301, R302): a class A fault of every group, and an escalation -/

/-- The device after a trip in region r, from the state u that its event and its own registers leave. -/
def tripped (r : Region) (src code : Nat) (s u : State) : State := settle s (escalate r (classA (defined s) src code u))

/-- What the event and the own registers of a trip leave as it was. -/
structure TripFrom (s u : State) : Prop where
  image : u.image = s.image
  time : u.time = s.time
  regions : u.regions = s.regions
  groups : u.saf.g = s.saf.g

section
variable {r : Region} {src code g : Nat} {s u : State}

theorem defined_congr (h : u.image = s.image) : defined u = defined s := by simp only [defined, grpCfg, h]

theorem lent_congr (h : u.image = s.image) (ht : u.time = s.time) : lent u = lent s := by simp only [lent, h, ht]

theorem tripped_rest : (tripped r src code s u).saf.monitors = SafSt.monitors { u.saf with lastA := code } := by
  rw [tripped, settle_saf, escalate_monitors, classA_saf]
  rfl

theorem tripped_sig : (tripped r src code s u).saf.sig = u.saf.sig := (congrArg SafSt.sig tripped_rest :)
theorem tripped_vcore : (tripped r src code s u).saf.vcore = u.saf.vcore := (congrArg SafSt.vcore tripped_rest :)
theorem tripped_tj : (tripped r src code s u).saf.tj = u.saf.tj := (congrArg SafSt.tj tripped_rest :)
theorem tripped_lastA : (tripped r src code s u).saf.lastA = code := (congrArg SafSt.lastA tripped_rest :)

theorem safG_tripped : safG (tripped r src code s u) g = safG (escalate r (classA (defined s) src code u)) g := by
  simp only [safG, tripped, settle_saf]

theorem only_tripped (ho : only [.chip, .time, .recd, .saf, .pair, .regions] s u) :
    only [.chip, .time, .recd, .saf, .pair, .regions] s (tripped r src code s u) := by
  refine only_settle s (by decide) ((only_escalate (by decide)).2 ?_)
  rwa [only_classA (by decide) (by decide) (by decide)]

theorem only_tripped_saf (ho : only [.chip, .time, .recd, .saf, .regions] s u) :
    only [.chip, .time, .recd, .saf, .regions] s (tripped .saf src code s u) := by
  refine only_settle s (by decide) (only_trans ?_ (only_escalate_saf _))
  rwa [only_classA (by decide) (by decide) (by decide)]

section
variable (h : TripFrom s u)
include h

theorem escalated_before_trip (he : (regSt s r).escalated = false) :
    (regSt (classA (defined s) src code u) r).escalated = false := by
  rwa [regSt_congr ((classA_regions _ _ _ _).trans h.regions)]

theorem tripped_escalated (he : (regSt s r).escalated = false) : (tripped r src code s u).chip.escalated = true :=
  (settle_escalated _ _).trans (escalate_escalated (escalated_before_trip h he))

theorem tripped_withheld (he : (regSt s .saf).escalated = false) : (tripped .saf src code s u).saf.withheld = true := by
  rw [tripped, settle_saf]
  exact escalate_saf_withheld (escalated_before_trip h he)

variable (hg : g < s.saf.g.length) (h16 : g < 16) (hd : (grpCfg s g).defined = true)
include hg h16 hd

theorem tripped_latched : (safG (tripped r src code s u) g).aLatch = true := by
  rw [safG_tripped, aLatch_escalate]
  exact (latched_and_stopped src code ((hasBit_defined h16).trans hd) (h.groups ▸ hg)).1

theorem tripped_stopped : hasBit (safG (tripped r src code s u) g).stopReq 9 = true := by
  rw [safG_tripped]
  exact stopReq_escalate_of_demanded (latched_and_stopped src code ((hasBit_defined h16).trans hd) (h.groups ▸ hg)).2

/-- A trip in SAF demands STO of every group. -/
theorem tripped_sto (he : (regSt s .saf).escalated = false) : hasBit (safG (tripped .saf src code s u) g).stoReq 15 = true := by
  rw [safG_tripped]
  refine stoReq_escalate_saf (escalated_before_trip h he) ?_ (by rwa [classA_g_length, h.groups])
  rw [defined_classA, defined_congr h.image, hasBit_defined h16, hd]

/-- A trip in the chip demands SS1-r of every group that is not lent its set-points. -/
theorem tripped_ss1r (he : (regSt s .chip).escalated = false) (hl : hasBit (lent s) g = false) :
    hasBit (safG (tripped .chip src code s u) g).stopReq 15 = true := by
  rw [safG_tripped]
  refine stopReq_escalate (escalated_before_trip h he) (by decide) (by decide) ?_ ?_ (by rwa [classA_g_length, h.groups])
  · rw [defined_classA, defined_congr h.image, hasBit_defined h16, hd]
  · rwa [lent_classA, lent_congr h.image h.time]

end
end

/-- Settles O31: a trip is a class A fault of every group and an escalation, whose effects on SAF are known; the condition of a high
temperature begins and ends as a class B condition does. -/
theorem monitors : Obligations.Monitors := by
  unfold Obligations.Monitors
  refine ⟨fun sig s => ?_, fun sig s he => ?_, fun v s he => ?_, fun j s hj he => ?_, fun j s hlo hhi hb => ?_, fun j s hj => ?_,
    fun j s hj => run_of_unchanged (if_neg (Nat.not_le.2 hj))⟩
  · have hq : quiet s (onSaf (fun f => { f with sig := sig }) s) := ⟨rfl, rfl, rfl⟩
    exact ⟨_, run_of_quiet (flowSignatureCheck_good sig s) hq, rfl, hq, by simp⟩
  · have hrun : exec (.flowSignatureCheck false sig) s =
        .next (tripped .saf 16 0x0850 s (event 0x0850 0 (onSaf (fun f => { f with sig := sig }) s))) := rfl
    have hu : TripFrom s (event 0x0850 0 (onSaf (fun f => { f with sig := sig }) s)) := ⟨rfl, rfl, rfl, rfl⟩
    exact ⟨_, hrun, tripped_sig, tripped_withheld hu he, tripped_lastA, tripped_escalated hu he, fun g hg h16 hd =>
      ⟨tripped_latched hu hg h16 hd, tripped_stopped hu hg h16 hd, tripped_sto hu hg h16 hd he⟩, only_tripped_saf (by simp)⟩
  · have hrun : exec (.voltageMonitorTrip v) s =
        .next (tripped .chip 3 0x0851 s (event 0x0851 0 (onSaf (fun f => { f with vcore := v % 256 }) s))) := rfl
    have hu : TripFrom s (event 0x0851 0 (onSaf (fun f => { f with vcore := v % 256 }) s)) := ⟨rfl, rfl, rfl, rfl⟩
    exact ⟨_, hrun, tripped_vcore, tripped_lastA, tripped_escalated hu he, fun g hg h16 hd =>
      ⟨tripped_latched hu hg h16 hd, tripped_stopped hu hg h16 hd, tripped_ss1r hu hg h16 hd he⟩, only_tripped (by simp)⟩
  · obtain ⟨u, hu⟩ : ∃ u, u = addB 7 0 (defined s) 0x0852 (onSaf (fun f => { f with tj := (j + 64) % 256 }) s) :=
      ⟨_, rfl⟩
    have hrun : exec (.temperatureMonitorTrip j) s = .next (tripped .chip 2 0x0852 s (event 0x0852 0 u)) := by
      rw [hu, tripped, ← temperatureTrip_of_critical hj]
      rfl
    have htj : u.saf.tj = (j + 64) % 256 := by rw [hu, addB_tj, onSaf_saf]
    have hfrom : TripFrom s (event 0x0852 0 u) := by
      rw [hu]
      unfold addB
      split <;> constructor <;> simp
    exact ⟨_, hrun, tripped_tj.trans htj, tripped_lastA, tripped_escalated hfrom he, only_tripped (by simp [hu])⟩
  · have hx := temperatureTrip_of_hot hlo hhi hb
    have hlog : logged 0x0852 0 s (temperatureTrip j s) := by
      rw [hx]
      have hq : quiet s (onSaf (fun f => { f with tj := (j + 64) % 256 }) s) := ⟨rfl, rfl, rfl⟩
      exact logged_of_chip (onSaf_chip _ _) (logged_event hq rfl)
    refine ⟨_, run_of_logged rfl hlog, ?_⟩
    rw [hx] at hlog ⊢
    exact ⟨rfl, rfl, rfl, hlog, by simp⟩
  · have hx := (temperatureClear_of_cool (s := s) hj).trans (endA_eq _ _ _)
    have hq : quiet s (temperatureClear j s) := by rw [hx]; exact ⟨rfl, rfl, rfl⟩
    refine ⟨_, run_of_quiet rfl hq, ?_⟩
    rw [hx] at hq ⊢
    refine ⟨rfl, fun c hc => ?_, fun g hg h16 hd => ?_, hq, by simp [endB]⟩
    · rintro ⟨hsrc, hidx⟩
      simpa [hsrc, hidx] using (List.mem_filter.1 hc).2
    · have hgroup : safG (onSaf (fun x => { x with g := updMask (defined s) (sourceEnded 2) x.g })
          (endB 7 0 (onSaf (fun f => { f with tj := (j + 64) % 256 }) s))) g = sourceEnded 2 (safG s g) := by
        have hbit : hasBit (defined s) g = true := (hasBit_defined h16).trans hd
        simp [safG, endB, nth_updMask, hbit, hg]
      rw [hgroup]
      exact ⟨aActive_sourceEnded 2 _, rfl⟩

end Sys2Proof.Machine

/-! PROOF. SafetyPdus: what a copy, the end of a compare window and the watchdog make of a receive record, and O33. -/

namespace Sys2Proof.Machine

/-! ### Equal bytes carry equal sequence numbers (R323, R325) -/

theorem word_eq_of_leBytes {v w : Word} (h : leBytes 4 v.toNat = leBytes 4 w.toNat) : v = w := by
  apply BitVec.eq_of_getLsbD_eq
  intro j hj
  have hbyte : (v >>> (8 * (j / 8))).setWidth 8 = (w >>> (8 * (j / 8))).setWidth 8 := by
    have hi : j / 8 < 4 := by omega
    rw [← leBytes_toNat_getD v hi, h, leBytes_toNat_getD w hi]
  have hbit := congrArg (fun x => x.getLsbD (j % 8)) hbyte
  have h8 : j % 8 < 8 := Nat.mod_lt _ (by decide)
  simpa [h8, Nat.div_add_mod] using hbit

theorem seq_eq_of_sameBytes {a b : Pdu} (h : sameBytes a b = true) : a.seq = b.seq := by
  have hbytes : pduBytes a = pduBytes b := by simpa [sameBytes] using h
  simp only [pduBytes] at hbytes
  have htick := List.append_inj_left hbytes (by simp [leBytes_length])
  have hseq := List.append_inj_left htick (by simp [leBytes_length])
  exact word_eq_of_leBytes (List.append_inj_right hseq (by simp [leBytes_length]))

/-! ### The receive record -/

section
variable {p : Nat} {f : RxSt → RxSt} {s : State}

@[simp] theorem onRx_saf : (onRx p f s).saf = { s.saf with rx := updAt s.saf.rx p f } := rfl

@[simp] theorem only_onRx {ps : List Part} {t : State} (h : .saf ∈ ps) : only ps s (onRx p f t) ↔ only ps s t := only_onSaf h

theorem rxSt_onRx_self (hp : p < s.saf.rx.length) : rxSt (onRx p f s) p = f (rxSt s p) := nth_updAt_self _ _ _ hp

theorem rxSt_of_updAt {t : State} (h : t.saf.rx = updAt s.saf.rx p f) (hp : p < s.saf.rx.length) : rxSt t p = f (rxSt s p) := by
  rw [rxSt, h, nth_updAt_self _ _ _ hp]
  rfl

theorem onlyAt_of_updAt {t : State} (h : t.saf.rx = updAt s.saf.rx p f) : onlyAt p s.saf.rx t.saf.rx := h ▸ onlyAt_updAt _ _ _

end

/-- A valid copy has arrived at a receive record: its network is in time (R326). -/
def copyArrived (netB : Bool) (now : Nat) (x : RxSt) : RxSt :=
  if netB then { x with lateB := false, validB := now } else { x with lateA := false, validA := now }

/-- A receive record that has accepted a PDU (R325). -/
def pduAccepted (d : Pdu) (netB one : Bool) (tick : Nat) (x : RxSt) : RxSt := { x with
  lastSeq := some d.seq, window := none, accepted := some d, accNet := netB, accTick := tick, oneCopy := one,
  onecnt := if one then satAdd 0xFFFF x.onecnt 1 else x.onecnt }

section
variable {p : Nat} {nb : Bool} {d w : Pdu} {s : State}

@[simp] theorem copyArrived_window (now : Nat) (x : RxSt) : (copyArrived nb now x).window = x.window := by cases nb <;> rfl
@[simp] theorem copyArrived_accepted (now : Nat) (x : RxSt) : (copyArrived nb now x).accepted = x.accepted := by cases nb <;> rfl
@[simp] theorem copyArrived_mism (now : Nat) (x : RxSt) : (copyArrived nb now x).mism = x.mism := by cases nb <;> rfl

theorem pduArrived_eq (p : Nat) (nb : Bool) (s : State) : pduArrived p nb s =
    (let u := onRx p (copyArrived nb s.time.tb) s
     if (rxSt u p).lateA || (rxSt u p).lateB then u else endB 5 p u) := rfl

theorem pduArrived_rx (p : Nat) (nb : Bool) (s : State) :
    (pduArrived p nb s).saf.rx = updAt s.saf.rx p (copyArrived nb s.time.tb) := by
  rw [pduArrived_eq]
  dsimp only
  split <;> rfl

theorem only_pduArrived (p : Nat) (nb : Bool) (s : State) : only [.saf] s (pduArrived p nb s) := by
  rw [pduArrived_eq]
  simp [endB]

theorem logPdu_saf (nets : Nat) : (logPdu 28 d nets s).saf =
    { s.saf with q28 := keepLast 256 s.saf.q28 (d, nets, s.time.tickno) } := by
  simp only [logPdu, if_true, onSaf_saf, apply_ite State.saf, onQueue_saf, onChip_saf, ite_self]

theorem quiet_logPdu (nets : Nat) : quiet s (logPdu 28 d nets s) := by
  simp only [logPdu, if_true]
  split <;> split <;> exact ⟨rfl, rfl, rfl⟩

theorem only_logPdu (nets : Nat) : only [.chip, .saf, .host] s (logPdu 28 d nets s) := by
  simp [logPdu]

theorem acceptPdu_rx (p : Nat) (d : Pdu) (nb one : Bool) (s : State) :
    (acceptPdu p d nb one s).saf.rx = updAt s.saf.rx p (pduAccepted d nb one s.time.tickno) := by
  rw [acceptPdu, logPdu_saf]
  rfl

theorem quiet_acceptPdu (p : Nat) (d : Pdu) (nb one : Bool) (s : State) : quiet s (acceptPdu p d nb one s) :=
  quiet_trans (t := onRx p (pduAccepted d nb one s.time.tickno) s) ⟨rfl, rfl, rfl⟩ (quiet_logPdu _)

theorem only_acceptPdu (p : Nat) (d : Pdu) (nb one : Bool) (s : State) :
    only [.chip, .saf, .host] s (acceptPdu p d nb one s) :=
  only_trans ((only_onRx (by decide)).2 (only_refl _ s)) (only_logPdu _)

/-! ### A copy (R324, R325) -/

/-- A sound copy that is not late reaches the compare window where its SEQ is valid. -/
theorem pduCopyReceived_of_sound (hn : nodeMode s = false) (hr : rxOf s d.id = some p) (hc : copySound (rxCfg s p) d = true)
    (hl : lateCopy (rxSt s p) nb d = false) (hv : seqValid (rxSt s p) d = true) :
    pduCopyReceived nb d s = pduWindow p nb d (pduArrived p nb s) := by
  simp [pduCopyReceived, hn, hr, hc, hl, hv]

theorem pduCopyReceived_of_unsound (hn : nodeMode s = false) (hr : rxOf s d.id = some p)
    (hc : copySound (rxCfg s p) d = false) : pduCopyReceived nb d s = eventOnce 0x0833 p p s := by
  simp [pduCopyReceived, hn, hr, hc, pduBad]

/-- Where a copy on the other network meets the window's own SEQ, its bytes decide. -/
theorem pduWindow_of_other {n : Bool} (hw : (rxSt s p).window = some (n, w)) (hn : n ≠ nb) (hq : w.seq = d.seq) :
    pduWindow p nb d s = if sameBytes w d then acceptPdu p w n false s else pduMismatch p false s := by
  simp [pduWindow, hw, hn, hq]

theorem pduWindow_of_none (hw : (rxSt s p).window = none) : pduWindow p nb d s = openWindow p nb d s := by
  simp [pduWindow, hw]

/-- A receive record whose copies differ (R325). -/
def copiesDiffered (x : RxSt) : RxSt := { x with window := none, mism := satAdd 255 x.mism 1 }

theorem pduMismatch_eq (p : Nat) (s : State) : pduMismatch p false s =
    classA ((rxCfg s p).gmask &&& defined s) 16 0x0830 (event 0x0830 p (onRx p copiesDiffered s)) := rfl

theorem pduMismatch_rx (p : Nat) (s : State) : (pduMismatch p false s).saf.rx = updAt s.saf.rx p copiesDiffered := by
  rw [pduMismatch_eq, classA_saf]
  rfl

/-! ### The end of a window and the watchdog (R325, R326) -/

theorem pduWindowExpiry_of_due (hw : (rxSt s p).window = some (nb, d)) (ht : (rxSt s p).openedAt + 2000000 ≤ s.time.tb) :
    pduWindowExpiry p s = acceptPdu p d nb true s := by
  simp [pduWindowExpiry, hw, ht]

theorem pduWindowExpiry_of_not_due (h : (rxSt s p).window = none ∨ s.time.tb < (rxSt s p).openedAt + 2000000) :
    pduWindowExpiry p s = s := by
  unfold pduWindowExpiry
  rcases h with hw | ht
  · simp [hw]
  · split
    · exact if_neg (Nat.not_le.2 ht)
    · rfl

/-- Network A of a receive record is late (R326). -/
def lateOnA (x : RxSt) : RxSt := { x with lateA := true }

theorem pduWatchdog_of_late (hn : nodeMode s = false) (hd : (rxCfg s p).defined = true) (hl : pduLate s p false = true)
    (ha : (rxSt s p).lateA = false) : pduWatchdog p false s =
      if (rxSt s p).lateB then classA ((rxCfg s p).gmask &&& defined s) 16 0x0832 (event 0x0832 p (onRx p lateOnA s))
      else addB 5 p ((rxCfg s p).gmask &&& defined s) 0x0831 (event 0x0831 p (onRx p lateOnA s)) := by
  simp only [pduWatchdog, hn, hd, hl, ha, Bool.false_or, Bool.not_true, Bool.false_eq_true, if_false]
  rfl

theorem pduWatchdog_of_in_time (h : pduLate s p nb = false) : pduWatchdog p nb s = s := by
  simp [pduWatchdog, h]

/-- After its beginning a class B condition stands in the list. -/
theorem mem_bconds_addB (src idx : Nat) (m : Mask) (code : Nat) (s : State) :
    ∃ c ∈ (addB src idx m code s).saf.bconds, c.src = src ∧ c.idx = idx := by
  unfold addB
  split
  · next h => simpa using h
  · exact ⟨_, List.mem_append_right _ (List.mem_singleton_self _), rfl, rfl⟩

theorem addB_rx (src idx : Nat) (m : Mask) (code : Nat) (s : State) : (addB src idx m code s).saf.rx = s.saf.rx := by
  unfold addB
  split <;> rfl

theorem addB_g (src idx : Nat) (m : Mask) (code : Nat) (s : State) : (addB src idx m code s).saf.g = s.saf.g := by
  unfold addB
  split <;> rfl

theorem addB_chip (src idx : Nat) (m : Mask) (code : Nat) (s : State) : (addB src idx m code s).chip = s.chip := by
  unfold addB
  split <;> rfl

end

/-! ### The statement -/

/-- Settles O33: what the compare window does with a copy is decided by what it holds; the arrival itself reaches the times
of its record only. -/
theorem safetyPdus : Obligations.SafetyPdus := by
  unfold Obligations.SafetyPdus
  refine ⟨?_, ?_, ?_, ?_, ?_, ?_, ?_, ?_⟩
  · intro nb p d s hr hn hx hp hc hl hw hq
    have hv : seqValid (rxSt s p) d = true := by simp [seqValid, hw, anySeq, hq]
    have hrx := rxSt_of_updAt (pduArrived_rx p nb s) hp
    have hx := pduCopyReceived_of_sound hn hx hc hl hv
    rw [pduWindow_of_none (by rw [hrx, copyArrived_window, hw])] at hx
    have ho : only [.saf] s (openWindow p nb d (pduArrived p nb s)) := (only_onRx (by decide)).2 (only_pduArrived p nb s)
    have hq := quiet_of_chip (ho .chip (by decide))
    refine ⟨_, (runIn_of_up hr).trans (run_of_quiet hx hq), ?_, ?_, ?_, hq, ho⟩
    · rw [openWindow, rxSt_onRx_self (by rwa [pduArrived_rx, updAt_length])]
    · rw [openWindow, rxSt_onRx_self (by rwa [pduArrived_rx, updAt_length]), hrx, copyArrived_accepted]
    · exact onlyAt_trans (onlyAt_of_updAt (pduArrived_rx p nb s)) (onlyAt_updAt _ _ _)
  · intro nb p d w s hr hn hx hp hc hl hw hb
    have hv : seqValid (rxSt s p) d = true := by simp [seqValid, hw, seq_eq_of_sameBytes hb]
    have hrx := rxSt_of_updAt (pduArrived_rx p nb s) hp
    have hx := pduCopyReceived_of_sound hn hx hc hl hv
    rw [pduWindow_of_other (by rw [hrx, copyArrived_window, hw]) (by simp) (seq_eq_of_sameBytes hb), if_pos hb] at hx
    have ho : only [.chip, .saf, .host] s (acceptPdu p w (!nb) false (pduArrived p nb s)) :=
      only_trans (only_mono (by decide) (only_pduArrived p nb s)) (only_acceptPdu _ _ _ _ _)
    have hq := quiet_trans (quiet_of_chip (only_pduArrived p nb s .chip (by decide))) (quiet_acceptPdu p w (!nb) false _)
    have hacc := rxSt_of_updAt (acceptPdu_rx p w (!nb) false (pduArrived p nb s)) (by rwa [pduArrived_rx, updAt_length])
    refine ⟨_, (runIn_of_up hr).trans (run_of_quiet hx hq), ?_, ?_, ?_, ?_, ?_, hq, ho⟩
    · rw [hacc]; rfl
    · rw [hacc]; rfl
    · rw [hacc]; rfl
    · rw [hacc]; rfl
    · exact onlyAt_trans (onlyAt_of_updAt (pduArrived_rx p nb s)) (onlyAt_of_updAt (acceptPdu_rx _ _ _ _ _))
  · intro nb p d w s hr hn hx hp hc hl hw hs hb
    have hv : seqValid (rxSt s p) d = true := by simp [seqValid, hw, hs]
    have hrx := rxSt_of_updAt (pduArrived_rx p nb s) hp
    have hx := pduCopyReceived_of_sound hn hx hc hl hv
    rw [pduWindow_of_other (by rw [hrx, copyArrived_window, hw]) (by simp) hs, hb, if_neg Bool.false_ne_true] at hx
    have hu := only_pduArrived p nb s
    have hlog : logged 0x0830 p s (pduMismatch p false (pduArrived p nb s)) := by
      rw [pduMismatch_eq]
      exact logged_classA (logged_event (u := onRx p copiesDiffered (pduArrived p nb s)) (quiet_of_chip (hu .chip (by decide)))
        (hu .time (by decide)))
    have hmis := rxSt_of_updAt (pduMismatch_rx p (pduArrived p nb s)) (by rwa [pduArrived_rx, updAt_length])
    refine ⟨_, (runIn_of_up hr).trans (run_of_logged hx hlog), ?_, ?_, ?_, ?_, ?_, hlog, ?_⟩
    · rw [hmis]; rfl
    · rw [hmis, hrx]; exact copyArrived_accepted _ _
    · rw [hmis, hrx]; exact congrArg (satAdd 255 · 1) (copyArrived_mism _ _)
    · rw [pduMismatch_eq, classA_lastA]
    · exact onlyAt_trans (onlyAt_of_updAt (pduArrived_rx p nb s)) (onlyAt_of_updAt (pduMismatch_rx _ _))
    · rw [pduMismatch_eq]
      simpa using only_mono (by decide) hu
  · intro nb p d s hr hn hx hc ho
    have hlog := (eventOnce_quiet_or_logged (c := 0x0833) (k := p) (d := p) (s := s) (u := s) ⟨rfl, rfl, rfl⟩ rfl rfl).1 ho
    refine ⟨_, (runIn_of_up hr).trans (run_of_logged (pduCopyReceived_of_unsound hn hx hc) hlog), ?_, hlog, by simp⟩
    exact (only_eventOnce (ps := [.chip]) (by decide)).2 (only_refl _ s) .saf (by decide)
  · intro p nb d s hp hw ht
    have hq := quiet_acceptPdu p d nb true s
    have hacc := rxSt_of_updAt (acceptPdu_rx p d nb true s) hp
    refine ⟨_, run_of_quiet (pduWindowExpiry_of_due hw ht) hq, ?_, ?_, ?_, ?_, onlyAt_of_updAt (acceptPdu_rx _ _ _ _ _), hq,
      only_acceptPdu _ _ _ _ _⟩
    · rw [hacc]; rfl
    · rw [hacc]; rfl
    · rw [hacc]; rfl
    · rw [hacc]; rfl
  · exact fun p s h => run_of_unchanged (pduWindowExpiry_of_not_due h)
  · intro p s hn hp hd hl ha
    have hx := pduWatchdog_of_late hn hd hl ha
    have hraised (c : Nat) : logged c p s (event c p (onRx p lateOnA s)) := logged_event ⟨rfl, rfl, rfl⟩ rfl
    refine ⟨fun hb => ?_, fun hb => ?_⟩
    · rw [hb, if_neg Bool.false_ne_true] at hx
      have hlog := logged_of_chip (addB_chip 5 p ((rxCfg s p).gmask &&& defined s) 0x0831 _) (hraised 0x0831)
      have hrx := (addB_rx 5 p ((rxCfg s p).gmask &&& defined s) 0x0831 (event 0x0831 p (onRx p lateOnA s)))
      have hrec := rxSt_of_updAt hrx hp
      refine ⟨_, run_of_logged hx hlog, ?_, ?_, mem_bconds_addB _ _ _ _ _, onlyAt_of_updAt hrx, addB_g _ _ _ _ _, hlog, by simp⟩
      · rw [hrec]; rfl
      · rw [hrec]; exact hb
    · rw [hb, if_pos rfl] at hx
      have hlog := logged_classA (m := (rxCfg s p).gmask &&& defined s) (src := 16) (code := 0x0832) (hraised 0x0832)
      have hrx : (classA ((rxCfg s p).gmask &&& defined s) 16 0x0832 (event 0x0832 p (onRx p lateOnA s))).saf.rx =
          updAt s.saf.rx p lateOnA := by rw [classA_saf]; rfl
      refine ⟨_, run_of_logged hx hlog, ?_, classA_lastA _ _ _ _, fun g hg _ hm => latched_and_stopped 16 0x0832 hm hg,
        onlyAt_of_updAt hrx, hlog, by simp⟩
      rw [rxSt_of_updAt hrx hp]
      rfl
  · exact fun p b s hl => run_of_unchanged (pduWatchdog_of_in_time hl)

end Sys2Proof.Machine

/-! PROOF. SafetyInputs: what an accepted level, a discrepancy and a test pulse make of a line, and O32. -/

namespace Sys2Proof.Machine

/-- A fold in which only one element acts does what that element does. -/
theorem forAll_single {α : Type} {Q : State → Prop} {f : α → State → State} {c : α} {l : List α} {s : State} (hl : l.Nodup)
    (hc : c ∈ l) (h : ∀ x t, c ≠ x → Q t → f x t = t) (hs : Q s) (hf : Q (f c s)) : forAll l f s = f c s := by
  obtain ⟨u, hu, ht⟩ := forAll_around (P := fun s t => Q s → t = s) (fun _ _ => rfl)
    (fun hst htu hq => by have h1 := hst hq; subst h1; exact htu hq) h hl hc s
  obtain rfl := hu hs
  exact ht hf

/-! ### The lines of the pairs (R305) -/

section
variable {i : Nat} {f : InPair → InPair} {s : State}

theorem lineSt_of_pair (hi : i < 12) (s : State) : lineSt s i = nth s.saf.pairs i := if_pos hi

theorem onLine_of_pair (hi : i < 12) (f : InPair → InPair) (s : State) :
    onLine i f s = onSaf (fun x => { x with pairs := updAt x.pairs i f }) s := if_pos hi

theorem lineSt_of_updAt {t : State} (hi : i < 12) (hl : i < s.saf.pairs.length) (h : t.saf.pairs = updAt s.saf.pairs i f) :
    lineSt t i = f (lineSt s i) := by
  rw [lineSt_of_pair hi, h, nth_updAt_self _ _ _ hl, lineSt_of_pair hi]

theorem onLine_pairs (hi : i < 12) (f : InPair → InPair) (s : State) : (onLine i f s).saf.pairs = updAt s.saf.pairs i f := by
  rw [onLine_of_pair hi, onSaf_saf]

@[simp] theorem onLine_chip (i : Nat) (f : InPair → InPair) (s : State) : (onLine i f s).chip = s.chip := by
  unfold onLine
  split <;> rfl

@[simp] theorem onLine_time (i : Nat) (f : InPair → InPair) (s : State) : (onLine i f s).time = s.time := by
  unfold onLine
  split <;> rfl

@[simp] theorem onLine_g (i : Nat) (f : InPair → InPair) (s : State) : (onLine i f s).saf.g = s.saf.g := by
  unfold onLine
  split <;> rfl

@[simp] theorem onLine_pres (i : Nat) (f : InPair → InPair) (s : State) : (onLine i f s).saf.pres = s.saf.pres := by
  unfold onLine
  split <;> rfl

@[simp] theorem only_onLine {ps : List Part} {t : State} (h : .saf ∈ ps) : only ps s (onLine i f t) ↔ only ps s t := by
  unfold onLine
  split <;> exact only_onSaf h

/-- Only the configuration and the pendant's presence say whether a line is evaluated. -/
theorem evaluated_congr {t : State} (himage : t.image = s.image) (hpres : t.saf.pres = s.saf.pres) (k : Nat) :
    evaluated t k = evaluated s k := by
  have hn : nodeMode t = nodeMode s := by simp only [nodeMode, himage]
  simp only [evaluated, inputCfg, hn, himage, hpres]

end

/-- A channel of a line has taken a level. -/
def levelTaken (chB high : Bool) (now : Nat) (x : InPair) : InPair :=
  noteDiff now (if chB then { x with b := high } else { x with a := high })

section
variable {i n : Nat} {chB high : Bool} {s : State}

/-- An accepted level of an evaluated pair is taken and the pair judged. -/
theorem safetyInputChange_of_accepted (hn : nodeMode s = false) (hi : i < 12) (he : evaluated s i = true)
    (hf : (inputCfg s i).sfilt ≤ n) (hp : nth s.saf.pulseUntil (sourceOf s i chB) ≤ s.time.tb) :
    safetyInputChange i chB high n s = onLine i (fun x => pairEval (levelTaken chB high s.time.tb x)) s := by
  have hfilt : ¬ n < lineFilt s i := by rw [lineFilt, if_pos hi]; exact Nat.not_lt.2 hf
  have hline : onLine i (fun x => noteDiff s.time.tb (if i < 14 then (if chB then { x with b := high } else { x with a := high })
      else { x with a := high, b := high })) s = onLine i (levelTaken chB high s.time.tb) s := by
    simp only [if_pos (show i < 14 by omega)]
    rfl
  have heval : evaluated (onLine i (levelTaken chB high s.time.tb) s) i = true := by
    rw [onLine_of_pair hi]
    exact (evaluated_congr rfl rfl i).trans he
  simp only [safetyInputChange, hn, hfilt, Nat.not_lt.2 hp, decide_false, Bool.or_self, Bool.false_eq_true, if_false, hline,
    if_neg (show i ≠ 14 by omega), evalLine, heval, if_true]
  simp only [onLine_of_pair hi, onSaf, updAt_updAt]

theorem safetyInputChange_of_refused (h : n < lineFilt s i ∨ s.time.tb < nth s.saf.pulseUntil (sourceOf s i chB)) :
    safetyInputChange i chB high n s = s := by
  rw [safetyInputChange, if_pos]
  simpa [or_assoc] using Or.inr h

/-! ### The demand of a pair (R305) -/

@[simp] theorem pairEval_a (x : InPair) : (pairEval x).a = x.a := by simp only [pairEval]; split <;> split <;> rfl
@[simp] theorem pairEval_b (x : InPair) : (pairEval x).b = x.b := by simp only [pairEval]; split <;> split <;> rfl
@[simp] theorem pairEval_flt (x : InPair) : (pairEval x).flt = x.flt := by simp only [pairEval]; split <;> split <;> rfl

/-- A low channel is a demand at once. -/
theorem demand_pairEval_of_low {x : InPair} (h : x.a = false ∨ x.b = false) : (pairEval x).demand = true := by
  cases hd : x.demand <;> rcases h with h | h <;> simp [pairEval, h, hd]

/-- With both channels high again after both have been low, the demand ends. -/
theorem demand_pairEval_of_high {x : InPair} (ha : x.a = true) (hb : x.b = true) (hla : x.lowA = true) (hlb : x.lowB = true)
    (hd : x.demand = true) (hdisc : x.disc = false) : (pairEval x).demand = false := by
  simp [pairEval, ha, hb, hla, hlb, hd, hdisc]

/-! ### A discrepancy (R305) -/

/-- A line whose channels have differed too long. -/
def discrepant (x : InPair) : InPair := { x with
  disc := true, flt := true, demand := true, lowBoth := false, highBoth := false }

theorem inputDiscrepancy_of_long (hi : i < 12) (he : evaluated s i = true) (hd : differsLong s i = true)
    (hab : (lineSt s i).a ≠ (lineSt s i).b) (hdisc : (lineSt s i).disc = false) : inputDiscrepancy i s =
      classA (lineGroups s i) 16 0x0821 (event 0x0821 i (onLine i discrepant s)) := by
  have hsrc : (lineSrc s i).2.isNone = false := by simp [lineSrc, hi]
  simp only [inputDiscrepancy, he, hd, hdisc, hsrc, beq_false_of_ne hab, Bool.not_true, Bool.or_self, Bool.false_eq_true, if_false]
  rfl

theorem inputDiscrepancy_of_equal_or_short (h : (lineSt s i).a = (lineSt s i).b ∨ differsLong s i = false) :
    inputDiscrepancy i s = s := by
  rw [inputDiscrepancy, if_pos]
  rcases h with h | h <;> simp [h]

end

/-! ### Test pulses (R304) -/

/-- A line that read a pulse of source t wrong. -/
def pulseFailed (t : Nat) (x : InPair) : InPair := { x with test := x.test ||| bitOf 4 t, flt := true }

/-- A line that read a pulse of source t right. -/
def pulsePassed (t : Nat) (x : InPair) : InPair := { x with test := x.test &&& ~~~ bitOf 4 t }

/-- The pulse of source p lasts until then for its channels. -/
def pulseNoted (p : Nat) (s : State) : State :=
  onSaf (fun f => { f with pulseUntil := updAt f.pulseUntil p (fun _ => s.time.tb + (s.image.tpw + s.image.tps) * 1000) }) s

section
variable {p i : Nat} {lvA lvB : Mask} {s : State}

theorem checkPulse_of_unevaluated {rdA rdB : Bool} {k : Nat} {t : State} (h : evaluated t k = false) :
    checkPulse p rdA rdB k t = t := by
  simp [checkPulse, h]

/-- A pair with its first channel on the source, both high, of which the second reads the pulse high: the first decides. -/
theorem checkPulse_of_first (hi : i < 12) (he : evaluated s i = true) (ha : (lineSt s i).a = true) (hb : (lineSt s i).b = true)
    (hsA : (inputCfg s i).srcA = p) (hsB : (inputCfg s i).srcB ≠ p) (rdA : Bool) : checkPulse p rdA true i s =
      if rdA then classA (lineGroups s i) 16 0x0820 (event 0x0820 i (onLine i (pulseFailed p) s))
      else onLine i (pulsePassed p) s := by
  have hsrc : lineSrc s i = ((inputCfg s i).srcA, some (inputCfg s i).srcB) := if_pos hi
  simp only [checkPulse, he, hsrc, ha, hb, hsA, pulseWrong, beq_self_eq_true, beq_false_of_ne hsB, Bool.not_true, Bool.and_false,
    Bool.or_false, Bool.true_and, if_true, Bool.false_eq_true, if_false]
  rfl

theorem classA_pres (m : Mask) (src code : Nat) (s : State) : (classA m src code s).saf.pres = s.saf.pres := by rw [classA_saf]

theorem checkPulse_pres {rdA rdB : Bool} : (checkPulse p rdA rdB i s).saf.pres = s.saf.pres := by
  simp only [checkPulse, apply_ite State.saf, apply_ite SafSt.pres, classA_pres, event_saf, onLine_pres, ite_self]

/-- Where no other pair is used and no pendant is present, a pulse checks this pair alone. -/
theorem testPulse_of_single (hn : nodeMode s = false) (hpres : s.saf.pres = false) (hi : i < 12)
    (hother : ∀ k, k < 12 → k ≠ i → (inputCfg s k).func = 0) :
    testPulse p lvA lvB s = checkPulse p (hasBit lvA i) (hasBit lvB i) i (pulseNoted p s) := by
  have hmem : i ∈ List.range 16 := List.mem_range.2 (by omega)
  have hkept : (checkPulse p (hasBit lvA i) (hasBit lvB i) i (pulseNoted p s)).saf.pres = s.saf.pres := checkPulse_pres
  have hx : testPulse p lvA lvB s = forAll (List.range 16) (fun k => checkPulse p (hasBit lvA k) (hasBit lvB k) k)
      (pulseNoted p s) := by
    simp only [testPulse, hn, Bool.false_eq_true, if_false]
    rfl
  rw [hx]
  refine forAll_single (Q := fun t => t.image = s.image ∧ t.saf.pres = false) List.nodup_range hmem (fun k t hk ht => ?_)
    ⟨rfl, hpres⟩ ⟨keep_image (checkPulse_keep ..), hkept.trans hpres⟩
  obtain ⟨himage, hpres'⟩ := ht
  refine checkPulse_of_unevaluated ?_
  by_cases h12 : k < 12
  · have hfunc : (inputCfg t k).func = 0 := by
      rw [inputCfg, himage]
      exact hother k h12 (Ne.symm hk)
    simp [evaluated, h12, hfunc]
  · simp [evaluated, h12, hpres']

end

/-! ### The statement -/

theorem lineGroups_of_pair {i : Nat} (hi : i < 12) (s : State) : lineGroups s i = (inputCfg s i).gmask &&& defined s := if_pos hi

/-- Settles O32: a level, a discrepancy and a pulse each update one line, which alone decides what becomes of it. -/
theorem safetyInputs : Obligations.SafetyInputs := by
  unfold Obligations.SafetyInputs
  refine ⟨?_, ?_, fun i n chB high s h => run_of_unchanged (safetyInputChange_of_refused h), ?_,
    fun i s h => run_of_unchanged (inputDiscrepancy_of_equal_or_short h), ?_⟩
  · intro i n chB s hn hi hl he hf hp
    have hx := safetyInputChange_of_accepted (high := false) hn hi he hf hp
    have hq : quiet s (onLine i (fun x => pairEval (levelTaken chB false s.time.tb x)) s) := quiet_of_chip (onLine_chip _ _ _)
    refine ⟨_, run_of_quiet hx hq, ?_, ?_, ?_, ?_, onLine_g _ _ _, hq, by simp⟩
    · rw [lineSt_of_updAt hi hl (onLine_pairs hi _ s)]
      exact demand_pairEval_of_low (by cases chB <;> simp [levelTaken, noteDiff])
    · rw [lineSt_of_updAt hi hl (onLine_pairs hi _ s)]
      cases chB <;> simp [levelTaken, noteDiff]
    · rw [lineSt_of_updAt hi hl (onLine_pairs hi _ s)]
      cases chB <;> simp [levelTaken, noteDiff]
    · rw [onLine_pairs hi]
      exact onlyAt_updAt _ _ _
  · intro i n s hn hi hl he hf hp ha hb hla hlb hd hdisc
    have hx := safetyInputChange_of_accepted (high := true) hn hi he hf hp
    have hq : quiet s (onLine i (fun x => pairEval (levelTaken true true s.time.tb x)) s) := quiet_of_chip (onLine_chip _ _ _)
    refine ⟨_, run_of_quiet hx hq, ?_, ?_, ?_, hq, by simp⟩
    · rw [lineSt_of_updAt hi hl (onLine_pairs hi _ s)]
      exact demand_pairEval_of_high ha rfl hla hlb hd hdisc
    · rw [lineSt_of_updAt hi hl (onLine_pairs hi _ s), pairEval_b]
      rfl
    · rw [onLine_pairs hi]
      exact onlyAt_updAt _ _ _
  · intro i s hi hl he hab hd hdisc
    have hx := inputDiscrepancy_of_long hi he hd hab hdisc
    have hlog := logged_classA (m := lineGroups s i) (src := 16) (code := 0x0821)
      (logged_event (c := 0x0821) (d := i) (u := onLine i discrepant s) (quiet_of_chip (onLine_chip _ _ _)) (onLine_time _ _ _))
    have hpairs : (classA (lineGroups s i) 16 0x0821 (event 0x0821 i (onLine i discrepant s))).saf.pairs =
        updAt s.saf.pairs i discrepant := by rw [classA_saf]; exact onLine_pairs hi _ s
    have hline := lineSt_of_updAt hi hl hpairs
    refine ⟨_, run_of_logged hx hlog, ?_, ?_, ?_, classA_lastA _ _ _ _, fun g hg _ hm => ?_, ?_, hlog, by simp⟩
    · rw [hline]; rfl
    · rw [hline]; rfl
    · rw [hline]; rfl
    · exact latched_and_stopped 16 0x0821 (by rwa [lineGroups_of_pair hi]) (by simpa using hg)
    · rw [hpairs]
      exact onlyAt_updAt _ _ _
  · intro p i lvA lvB s hn hpres hi hl hp hother hfunc ha hb hsA hsB hrdB
    have he : evaluated s i = true := by simp [evaluated, hn, hi, hfunc]
    have hx := testPulse_of_single (p := p) (lvA := lvA) (lvB := lvB) hn hpres hi hother
    rw [hrdB, checkPulse_of_first (s := pulseNoted p s) hi ((evaluated_congr rfl rfl i).trans he) ha hb hsA hsB] at hx
    refine ⟨fun hrdA => ?_, fun hrdA => ?_⟩
    · rw [hrdA, if_pos rfl] at hx
      have hlog := logged_classA (m := lineGroups (pulseNoted p s) i) (src := 16) (code := 0x0820)
        (logged_event (s := s) (c := 0x0820) (d := i) (u := onLine i (pulseFailed p) (pulseNoted p s))
          (quiet_of_chip (onLine_chip _ _ _)) (onLine_time _ _ _))
      have hpairs : (classA (lineGroups (pulseNoted p s) i) 16 0x0820
          (event 0x0820 i (onLine i (pulseFailed p) (pulseNoted p s)))).saf.pairs = updAt s.saf.pairs i (pulseFailed p) := by
        rw [classA_saf]
        exact onLine_pairs hi _ _
      have hline := lineSt_of_updAt hi hl hpairs
      refine ⟨_, run_of_logged hx hlog, ?_, ?_, classA_lastA _ _ _ _, ?_, hlog, by simp [pulseNoted]⟩
      · rw [hline]; exact hasBit_or_bitOf hp _
      · rw [hline]; rfl
      · rw [hpairs]; exact onlyAt_updAt _ _ _
    · rw [hrdA, if_neg Bool.false_ne_true] at hx
      have hq : quiet s (onLine i (pulsePassed p) (pulseNoted p s)) := quiet_of_chip (onLine_chip _ _ _)
      have hpairs : (onLine i (pulsePassed p) (pulseNoted p s)).saf.pairs = updAt s.saf.pairs i (pulsePassed p) :=
        onLine_pairs hi _ _
      have hline := lineSt_of_updAt hi hl hpairs
      refine ⟨_, run_of_quiet hx hq, ?_, ?_, ?_, onLine_g _ _ _, hq, by simp [pulseNoted]⟩
      · rw [hline]; exact hasBit_andNot_bitOf _
      · rw [hline]; rfl
      · rw [hpairs]; exact onlyAt_updAt _ _ _

end Sys2Proof.Machine

/-! PROOF. Intake: what refusals and replies leave of HOST's intake of commands, the last SEQ of each key, and the obligations on
the arrival and the verification of signed commands (R383 to R392). -/

namespace Sys2Proof.Machine

/-! ### The start leaves the run-time state of every key (R385, R409) -/

/-- The run-time state of the keys. -/
def State.keySts (s : State) : List KeySt := s.host.keys

@[simp] theorem ite_keySts (c : Prop) [Decidable c] (s t : State) :
    (if c then s else t).keySts = if c then s.keySts else t.keySts := apply_ite ..

theorem keySts_of_host {s t : State} (h : t.host = s.host) : t.keySts = s.keySts := congrArg HostSt.keys h

@[simp] theorem forAll_keySts {α : Type} (l : List α) (f : α → State → State) (s : State)
    (h : ∀ x t, (f x t).keySts = t.keySts) : (forAll l f s).keySts = s.keySts := forAll_same (P := State.keySts) h l s

@[simp] theorem onHost_keySts {f : HostSt → HostSt} (s : State) (h : ∀ x, (f x).keys = x.keys) :
    (onHost f s).keySts = s.keySts := h s.host
@[simp] theorem onChip_keySts (f : ChipSt → ChipSt) (s : State) : (onChip f s).keySts = s.keySts := (rfl)
@[simp] theorem onTime_keySts (f : TimeSt → TimeSt) (s : State) : (onTime f s).keySts = s.keySts := (rfl)
@[simp] theorem onSaf_keySts (f : SafSt → SafSt) (s : State) : (onSaf f s).keySts = s.keySts := (rfl)
@[simp] theorem onPair_keySts (f : PairSt → PairSt) (s : State) : (onPair f s).keySts = s.keySts := (rfl)
@[simp] theorem onRing_keySts (r : Nat) (f : RingSt → RingSt) (s : State) : (onRing r f s).keySts = s.keySts := (rfl)
@[simp] theorem onRegion_keySts (r : Region) (f : RegionSt → RegionSt) (s : State) : (onRegion r f s).keySts = s.keySts := (rfl)
@[simp] theorem onSlice_keySts (b k : Nat) (f : SliceSt → SliceSt) (s : State) : (onSlice b k f s).keySts = s.keySts := (rfl)
@[simp] theorem onSpare_keySts (b : Nat) (f : SpareSt → SpareSt) (s : State) : (onSpare b f s).keySts = s.keySts := (rfl)
@[simp] theorem onAxis_keySts (a : Nat) (f : AxisSt → AxisSt) (s : State) : (onAxis a f s).keySts = s.keySts := (rfl)
@[simp] theorem onGrp_keySts (g : Nat) (f : GroupSt → GroupSt) (s : State) : (onGrp g f s).keySts = s.keySts := (rfl)
@[simp] theorem onChan_keySts (c : Nat) (f : ChanSt → ChanSt) (s : State) : (onChan c f s).keySts = s.keySts := (rfl)
@[simp] theorem onProb_keySts (p : Nat) (f : ProbSt → ProbSt) (s : State) : (onProb p f s).keySts = s.keySts := (rfl)
@[simp] theorem onCore_keySts (c : Nat) (f : CoreSt → CoreSt) (s : State) : (onCore c f s).keySts = s.keySts := (rfl)
@[simp] theorem onFlow_keySts (i : Nat) (f : FlowSt → FlowSt) (s : State) : (onFlow i f s).keySts = s.keySts := (rfl)
@[simp] theorem event_keySts (c d : Nat) (s : State) : (event c d s).keySts = s.keySts := keySts_of_host (event_host ..)
@[simp] theorem eventOnce_keySts (c k d : Nat) (s : State) : (eventOnce c k d s).keySts = s.keySts :=
  keySts_of_host (eventOnce_host ..)
@[simp] theorem mark_keySts (i : Nat) (m : Mask) (s : State) : (mark i m s).keySts = s.keySts := (rfl)
@[simp] theorem markNext_keySts (i : Nat) (m : Mask) (s : State) : (markNext i m s).keySts = s.keySts := (rfl)

@[simp] theorem trace_keySts (k f h c r i d : Nat) (s : State) : (trace k f h c r i d s).keySts = s.keySts := by
  simp [trace]
@[simp] theorem escalate_keySts (r : Region) (s : State) : (escalate r s).keySts = s.keySts :=
  keySts_of_host (only_escalate_self .host (by decide))
@[simp] theorem classA_keySts (m : Mask) (src code : Nat) (s : State) : (classA m src code s).keySts = s.keySts :=
  keySts_of_host ((by simp : only [.chip, .recd, .saf] s (classA m src code s)) .host (by decide))
@[simp] theorem addB_keySts (src idx : Nat) (m : Mask) (ev : Nat) (s : State) : (addB src idx m ev s).keySts = s.keySts := by
  simp [addB]
@[simp] theorem loseCore_keySts (c : Nat) (s : State) : (loseCore c s).keySts = s.keySts := by
  unfold loseCore
  dsimp only
  split <;> simp
@[simp] theorem moveFlows_keySts (s : State) : (moveFlows s).keySts = s.keySts :=
  forAll_keySts _ _ s (fun f t => by simp)

@[simp] theorem latchA_keySts (m : Mask) (src code : Nat) (s : State) : (latchA m src code s).keySts = s.keySts :=
  keySts_of_host ((by simp : only [.chip, .recd, .saf] s (latchA m src code s)) .host (by decide))
@[simp] theorem demandSto_keySts (m : Mask) (c : Nat) (s : State) : (demandSto m c s).keySts = s.keySts :=
  keySts_of_host ((by simp : only [.saf] s (demandSto m c s)) .host (by decide))
@[simp] theorem bbTrigger_keySts (k c : Nat) (s : State) : (bbTrigger k c s).keySts = s.keySts :=
  keySts_of_host ((by simp : only [.chip] s (bbTrigger k c s)) .host (by decide))
@[simp] theorem loseChan_keySts (c : Nat) (s : State) : (loseChan c s).keySts = s.keySts := (rfl)

@[simp] theorem blockReaction_keySts (r : Region) (b : Nat) (s : State) : (blockReaction r b s).keySts = s.keySts := by
  cases r with
  | mot =>
    simp only [blockReaction]
    split
    · rw [classA_keySts, mark_keySts]
      exact forAll_keySts _ _ s (fun a t => onAxis_keySts a _ t)
    · simp
  | sol => exact forAll_keySts _ _ s (fun p t => onProb_keySts p _ t)
  | trl => simp only [blockReaction, addB_keySts]; rfl
  | axio => simp [blockReaction]
  | host => simp [blockReaction]
  | ring => simp [blockReaction]
  | chip | time | saf => rfl

@[simp] theorem quarantine_keySts (r : Region) (b : Nat) (s : State) : (quarantine r b s).keySts = s.keySts := by
  simp [quarantine]
@[simp] theorem noteFault_keySts (r : Region) (b sl : Nat) (s : State) : (noteFault r b sl s).keySts = s.keySts := by
  simp [noteFault]
@[simp] theorem endShadow_keySts (b : Nat) (s : State) : (endShadow b s).keySts = s.keySts := (rfl)
@[simp] theorem failSpare_keySts (b : Nat) (s : State) : (failSpare b s).keySts = s.keySts := by simp [failSpare]
@[simp] theorem containSlice_keySts (b sl : Nat) (s : State) : (containSlice b sl s).keySts = s.keySts := by
  unfold containSlice
  dsimp only
  split_ifs
  · simp
  · simp
  · split <;> simp
@[simp] theorem extrapolateSlice_keySts (x : SliceSt) (s : State) : (extrapolateSlice x s).keySts = s.keySts := by
  simp [extrapolateSlice]
@[simp] theorem motSliceFault_keySts (b sl c : Nat) (s : State) : (motSliceFault b sl c s).keySts = s.keySts := by
  unfold motSliceFault
  split <;> simp
@[simp] theorem loseLane_keySts (b sl : Nat) (s : State) : (loseLane b sl s).keySts = s.keySts :=
  forAll_keySts _ _ _ (fun p t => onProb_keySts p _ t)
@[simp] theorem learnBreak_keySts (r eff : Nat) (s : State) : (learnBreak r eff s).keySts = s.keySts := by simp [learnBreak]
@[simp] theorem breakAt_keySts (r eff : Nat) (ccw : Bool) (j : Nat) (s : State) :
    (breakAt r eff ccw j s).keySts = s.keySts := by simp [breakAt]
@[simp] theorem portDown_keySts (r : Nat) (ccw : Bool) (s : State) : (portDown r ccw s).keySts = s.keySts := by
  unfold portDown
  dsimp only
  split_ifs <;> simp [onRPort]
@[simp] theorem placeItem_keySts (i : Item) (c now : Nat) (s : State) : (placeItem i c now s).keySts = s.keySts := by
  simp [placeItem]
@[simp] theorem scheduleN_keySts (n now : Nat) (s : State) : (scheduleN n now s).keySts = s.keySts := by
  induction n generalizing s with
  | zero => rfl
  | succ n ih =>
    unfold scheduleN
    split
    · rfl
    · split
      · rw [ih, placeItem_keySts]
      · rfl
@[simp] theorem sliceNow_keySts (r : Region) (b sl : Nat) (s : State) : (sliceNow r b sl s).keySts = s.keySts := by
  cases r <;> simp [sliceNow, schedule]
@[simp] theorem containOther_keySts (r : Region) (b sl : Nat) (s : State) : (containOther r b sl s).keySts = s.keySts := by
  simp [containOther, pipesShort]
@[simp] theorem countCorrected_keySts (r : Region) (b sl : Nat) (s : State) : (countCorrected r b sl s).keySts = s.keySts := by
  cases r <;> simp [countCorrected, correctedError]
@[simp] theorem sliceFault_keySts (r : Region) (b sl c : Nat) (s : State) : (sliceFault r b sl c s).keySts = s.keySts := by
  cases r <;> simp [sliceFault]
@[simp] theorem retireOne_keySts (r : Region) (f : Nat) (s : State) : (retireOne r f s).keySts = s.keySts := by
  cases r with
  | mot | trl =>
    simp only [retireOne, State.keySts, event_host, onRegion_host]
  | _ => simp [retireOne]
@[simp] theorem retireEdge_keySts (s : State) : (retireEdge s).keySts = s.keySts :=
  forAll_keySts _ _ s (fun r t => forAll_keySts _ _ t (fun f u => retireOne_keySts r f u))
@[simp] theorem spareTakeover_keySts (b : Nat) (s : State) : (spareTakeover b s).keySts = s.keySts := by
  unfold spareTakeover
  split
  · rfl
  · split <;> simp
@[simp] theorem selfTestFailure_keySts (f : Region × Nat × Nat) (s : State) : (selfTestFailure f s).keySts = s.keySts := by
  simp [selfTestFailure]
@[simp] theorem enterNoImage_keySts (s : State) : (enterNoImage s).keySts = s.keySts := by simp [enterNoImage]
@[simp] theorem onSlot_keySts (b : Bool) (x : SlotSt) (s : State) : (onSlot b x s).keySts = s.keySts := (rfl)
@[simp] theorem selfTests_keySts (f : List (Region × Nat × Nat)) (s : State) : (selfTests f s).keySts = s.keySts := by
  simp [selfTests]
@[simp] theorem readHeader_keySts (b : Bool) (s : State) : (readHeader b s).keySts = s.keySts := by simp [readHeader]
theorem checkSlots_keySts (vio : List Bool) (l : List Bool) (s : State) : (checkSlots vio l s).2.keySts = s.keySts := by
  induction l generalizing s with
  | nil => rfl
  | cons b r ih =>
    unfold checkSlots
    split
    · exact ih s
    · dsimp only
      split
      · rfl
      · simp [ih]
@[simp] theorem takeImage_keySts (b p : Bool) (s : State) : (takeImage b p s).keySts = s.keySts := by
  unfold takeImage
  split
  · rfl
  · simp only [ite_keySts, event_keySts, ite_self]
    rfl
@[simp] theorem loadVreg_keySts (s : State) : (loadVreg s).keySts = s.keySts := by
  have hnext (u : State) : (vregNext u).keySts = u.keySts := by
    unfold vregNext
    split <;> rfl
  simp [loadVreg, vregSend, hnext]
@[simp] theorem loadAll_keySts (s : State) : (loadAll s).keySts = s.keySts := by
  have hsaf (u : State) : (loadSaf u).keySts = u.keySts := rfl
  have hhost (u : State) : (loadHost u).keySts = u.keySts := rfl
  have htrl (u : State) : (loadTrl u).keySts = u.keySts := rfl
  have hsol (u : State) : (loadSol u).keySts = u.keySts := rfl
  have hmot (u : State) : (loadMot u).keySts = u.keySts := rfl
  have haxio (u : State) : (loadAxio u).keySts = u.keySts := rfl
  have hring (u : State) : (loadRing u).keySts = u.keySts := rfl
  have htime (u : State) : (loadTime u).keySts = u.keySts := rfl
  have hchip (u : State) : (loadChip u).keySts = u.keySts := rfl
  simp only [loadAll, hsaf, hhost, htrl, hsol, hmot, haxio, hring, loadVreg_keySts, htime, hchip]
@[simp] theorem enterStep8_keySts (s : State) : (enterStep8 s).keySts = s.keySts := by
  unfold enterStep8
  split <;> rfl

theorem startFrom_keySts (p : Bool) (f : List (Region × Nat × Nat)) (v : List Bool) (s : State) :
    (startFrom p f v s).keySts = s.keySts := by
  unfold startFrom
  split
  · simp
  · dsimp only
    have hslots := checkSlots_keySts v (candidates (readHeader true (readHeader false s))) (readHeader true (readHeader false s))
    revert hslots
    rcases checkSlots _ _ _ with ⟨_ | b, t⟩ <;> intro hslots <;> dsimp only at hslots ⊢
    · simp [hslots]
    · have hcopy (u : State) : (copyAreas u).keySts = u.keySts := rfl
      simp [hcopy, hslots]

theorem startSequence_keySts (p : Bool) (f : List (Region × Nat × Nat)) (v : List Bool) (s : State) :
    (startSequence p f v s).keySts = s.keySts := by
  unfold startSequence
  split
  · exact startFrom_keySts p f v s
  · rfl

/-! ### What refusals and replies leave of the intake (R383, R390 to R392) -/

/-- HOST without what the sending of a reply changes: the ports, the counts of a network, the replies sent, the histories of the
keys and the limit of refusals. -/
def HostSt.intake (h : HostSt) : HostSt :=
  { h with ports := [], nets := [], sent := [], keys := [], ratecnt := 0, rateAt := 0 }

/-- The intake of commands: HOST without what the sending of a reply changes, and the last SEQ of each key. -/
def State.intake (s : State) : HostSt × (Nat → Nat) := (s.host.intake, fun k => (keySt s k).last)

/-- A refusal was counted: of the intake nothing else changed. -/
def countedRefusal (code key : Nat) (s t : State) : Prop :=
  t.intake = ({ s.host.intake with refcnt := satAdd 0xFFFF s.host.refcnt 1, lastCode := code, lastKey := key }, s.intake.2)

theorem intake_congr {s t : State} (h : t.host = s.host) : t.intake = s.intake := by simp only [State.intake, keySt, h]

@[simp] theorem ite_intake (c : Prop) [Decidable c] (s t : State) :
    (if c then s else t).intake = if c then s.intake else t.intake := apply_ite ..
@[simp] theorem event_intake (c d : Nat) (s : State) : (event c d s).intake = s.intake := intake_congr (event_host ..)
@[simp] theorem eventOnce_intake (c k d : Nat) (s : State) : (eventOnce c k d s).intake = s.intake :=
  intake_congr (eventOnce_host ..)
@[simp] theorem onPort_intake (p : Nat) (f : PortSt → PortSt) (s : State) : (onPort p f s).intake = s.intake := (rfl)
@[simp] theorem onNet_intake (n : Nat) (f : NetSt → NetSt) (s : State) : (onNet n f s).intake = s.intake := (rfl)
@[simp] theorem onHost_intake {f : HostSt → HostSt} (s : State) (hf : (f s.host).intake = s.host.intake)
    (hk : (f s.host).keys = s.host.keys) : (onHost f s).intake = s.intake := by
  simp only [State.intake, keySt, onHost, hf, hk]
@[simp] theorem sendDev_intake (p : Nat) (f : TxFrame) (s : State) : (sendDev p f s).intake = s.intake := by
  simp [sendDev, dropFrame]
@[simp] theorem sendNet_intake (n : Nat) (f : TxFrame) (s : State) : (sendNet n f s).intake = s.intake := by simp [sendNet]
@[simp] theorem sendReplyOn_intake (r : Reply) (n : Net) (s : State) : (sendReplyOn r n s).intake = s.intake :=
  (sendNet_intake ..).trans (onHost_intake s rfl rfl)
/-- A history of a key that changes leaves its last SEQ. -/
theorem onKey_intake {k : Nat} {f : KeySt → KeySt} (s : State) (hf : ∀ x, (f x).last = x.last) :
    (onKey k f s).intake = s.intake :=
  Prod.ext rfl (funext fun i => nth_updAt_same hf s.host.keys k i)
@[simp] theorem markDecided_intake (r : Reply) (stored : Bool) (s : State) : (markDecided r stored s).intake = s.intake :=
  onKey_intake s fun _ => rfl
@[simp] theorem sendReply_intake (r : Reply) (s : State) : (sendReply r s).intake = s.intake := by
  simp [sendReply, forAll_same (P := State.intake) (sendReplyOn_intake r)]

theorem countedRefusal_noteRefusal (code key : Nat) (s : State) : countedRefusal code key s (noteRefusal code key s) :=
  eventOnce_intake ..

theorem countedRefusal_congr {code key : Nat} {s t u : State} (h : u.intake = t.intake) (hc : countedRefusal code key s t) :
    countedRefusal code key s u := h.trans hc

theorem countedRefusal_replyNow {o : Origin} {code detail : Nat} {body : List Byte} (s : State) (hc : code ≠ 0) :
    countedRefusal code o.key s (replyNow o code detail body s) := by
  simp only [replyNow, if_neg hc]
  exact countedRefusal_congr (sendReply_intake ..) (countedRefusal_noteRefusal ..)

theorem countedRefusal_refuseLimited (o : Origin) (code detail now : Nat) (s : State) :
    countedRefusal code o.key s (refuseLimited o code detail now s) := by
  refine countedRefusal_congr ?_ (countedRefusal_noteRefusal code o.key s)
  have hcount (u : State) : (onHost (fun h => { h with ratecnt := satAdd 0xFFFF h.ratecnt 1 }) u).intake = u.intake :=
    onHost_intake u rfl rfl
  have hat (u : State) : (onHost (fun h => { h with rateAt := now }) u).intake = u.intake := onHost_intake u rfl rfl
  unfold refuseLimited
  dsimp only
  split_ifs <;> simp only [sendReply_intake, onNet_intake, event_intake, hcount, hat, markDecided_intake]

section
variable {code key : Nat} {s t : State}

theorem lastCode_of_countedRefusal (h : countedRefusal code key s t) : t.host.lastCode = code :=
  (congrArg (fun x : HostSt × (Nat → Nat) => x.1.lastCode) h :)
theorem lastKey_of_countedRefusal (h : countedRefusal code key s t) : t.host.lastKey = key :=
  (congrArg (fun x : HostSt × (Nat → Nat) => x.1.lastKey) h :)
theorem refcnt_of_countedRefusal (h : countedRefusal code key s t) : t.host.refcnt = satAdd 0xFFFF s.host.refcnt 1 :=
  (congrArg (fun x : HostSt × (Nat → Nat) => x.1.refcnt) h :)
theorem vq_of_countedRefusal (h : countedRefusal code key s t) : t.host.vq = s.host.vq :=
  (congrArg (fun x : HostSt × (Nat → Nat) => x.1.vq) h :)
theorem held_of_countedRefusal (h : countedRefusal code key s t) : t.host.held = s.host.held :=
  (congrArg (fun x : HostSt × (Nat → Nat) => x.1.held) h :)
theorem last_of_countedRefusal (h : countedRefusal code key s t) (k : Nat) : (keySt t k).last = (keySt s k).last :=
  congrFun (congrArg Prod.snd h) k

theorem countedRefusal_settle (h : countedRefusal code key s t) : countedRefusal code key s (settle s t) :=
  countedRefusal_congr (intake_congr (settle_host ..)) h

end

/-! ### Replies sent at once (R384, R390, R391) -/

theorem sent_sendReply (r : Reply) (s : State) : (sendReply r s).host.sent = s.host.sent ++ repliesTo r s :=
  congrArg Prod.fst (sendReply_sentAndPrunes r s)

theorem sent_noteRefusal (code key : Nat) (s : State) : (noteRefusal code key s).host.sent = s.host.sent :=
  congrArg Prod.fst (noteRefusal_sentAndPrunes code key s)

theorem noteRefusal_time (code key : Nat) (s : State) : (noteRefusal code key s).time = s.time := eventOnce_time ..

/-- The networks of a reply depend on the histories of the keys and on what the device may send. -/
theorem repliesTo_congr {r : Reply} {s t : State} (hh : ∀ k n, histOf t k n = histOf s k n) (ho : repliesOut t = repliesOut s) :
    repliesTo r t = repliesTo r s := by
  simp only [repliesTo, replyNets, hh, ho]

theorem answered_settle {o : Origin} {code detail : Nat} {body : List Byte} {s t : State} (h : answered o code detail body s t) :
    answered o code detail body s (settle s t) := (congrArg HostSt.sent (settle_host s t)).trans h

/-- What a change that touches neither the time, the replies sent nor the networks of a reply is answered with. -/
theorem answered_replyNow {o : Origin} {code detail : Nat} {body : List Byte} {s u : State} (hs : u.host.sent = s.host.sent)
    (ht : u.time = s.time) (hr : ∀ r, repliesTo r u = repliesTo r s) :
    answered o code detail body s (replyNow o code detail body u) := by
  rw [answered]
  by_cases hc : code = 0
  · simp only [replyNow, if_pos hc, sent_sendReply, mkReply_congr ht, hs, hr]
    rfl
  · simp only [replyNow, if_neg hc, sent_sendReply, sent_noteRefusal, mkReply_congr (noteRefusal_time ..), mkReply_congr ht,
      repliesTo_noteRefusal, hs, hr]
    rfl

/-- The first refusal on a network is answered. -/
theorem answered_refuseLimited {o : Origin} {code detail now : Nat} {s : State}
    (h : (nth s.host.nets (netNum o.net)).refusals = 0) :
    answered o code detail [] s (refuseLimited o code detail now s) := by
  have hnet (r : Reply) (f : NetSt → NetSt) (u : State) : repliesTo r (onNet (netNum o.net) f u) = repliesTo r u := rfl
  have hsent (f : NetSt → NetSt) (u : State) : (onNet (netNum o.net) f u).host.sent = u.host.sent := rfl
  simp only [answered, refuseLimited, h, decide_true, Bool.true_or, if_true, Nat.zero_lt_succ, sent_sendReply, hsent, hnet,
    sent_noteRefusal, repliesTo_noteRefusal, mkReply_congr (noteRefusal_time ..)]
  rfl

@[simp] theorem only_refuseLimited {o : Origin} {code detail now : Nat} {ps : List Part} {s t : State} (hc : .chip ∈ ps)
    (hh : .host ∈ ps) : only ps s (refuseLimited o code detail now t) ↔ only ps s t := by
  simp only [refuseLimited, noteRefusal, markDecided, onKey]
  split_ifs <;> simp [hc, hh]

/-! ### Arrival (R383 to R386) -/

/-- The checks of a datagram before the duplicate stage. -/
def wellFormed (s : State) (d : Datagram) : Prop :=
  takesCommands s = true ∧ d.vers = 1 ∧ d.lenOk = true ∧ d.reservedOk = true ∧ knownOpcode d.body = true ∧
    keyRole s d.key ≠ .empty

section
variable {n : Net} {d : Datagram} {now : Nat} {s : State}

theorem commandDatagram_of_wellFormed (h : wellFormed s d) : commandDatagram n d now s =
    match dupEntry s n d with
    | some h => if h.digest = d.digest then duplicate n d h s
      else refuseLimited (originOf n d 0) 4 ((keySt s d.key).last % 65536) now s
    | none => match stage1 s d with
      | some (c, x) => refuseLimited (originOf n d 0) c x now s
      | none => passStage1 n d now s := by
  obtain ⟨htakes, hvers, hlen, hres, hop, hkey⟩ := h
  simp [commandDatagram, htakes, hvers, hlen, hres, hop, hkey] <;> rfl

theorem commandDatagram_of_copy {h : HistEnt} (hw : wellFormed s d) (hd : dupEntry s n d = some h) (he : h.digest = d.digest) :
    commandDatagram n d now s = duplicate n d h s := by
  simp only [commandDatagram_of_wellFormed hw, hd, if_pos he]

theorem commandDatagram_of_clash {h : HistEnt} (hw : wellFormed s d) (hd : dupEntry s n d = some h) (he : h.digest ≠ d.digest) :
    commandDatagram n d now s = refuseLimited (originOf n d 0) 4 ((keySt s d.key).last % 65536) now s := by
  simp only [commandDatagram_of_wellFormed hw, hd, if_neg he]

theorem commandDatagram_of_stage1 {c x : Nat} (hw : wellFormed s d) (hd : dupEntry s n d = none) (h1 : stage1 s d = some (c, x)) :
    commandDatagram n d now s = refuseLimited (originOf n d 0) c x now s := by
  simp only [commandDatagram_of_wellFormed hw, hd, h1]

theorem commandDatagram_of_passed (hw : wellFormed s d) (hd : dupEntry s n d = none) (h1 : stage1 s d = none) :
    commandDatagram n d now s = passStage1 n d now s := by
  simp only [commandDatagram_of_wellFormed hw, hd, h1]

/-- A datagram that is not well formed, of an unknown opcode or of an empty key is refused with code 1, 10 or 2. -/
theorem commandDatagram_of_malformed {c : Nat} (htakes : takesCommands s = true)
    (h : (d.vers ≠ 1 ∨ d.lenOk = false ∨ d.reservedOk = false) ∧ c = 1 ∨
      d.vers = 1 ∧ d.lenOk = true ∧ d.reservedOk = true ∧ knownOpcode d.body = false ∧ c = 10 ∨
      d.vers = 1 ∧ d.lenOk = true ∧ d.reservedOk = true ∧ knownOpcode d.body = true ∧ keyRole s d.key = .empty ∧ c = 2) :
    ∃ x, commandDatagram n d now s = refuseLimited (originOf n d 0) c x now s := by
  rcases h with ⟨hbad, rfl⟩ | ⟨hvers, hlen, hres, hop, rfl⟩ | ⟨hvers, hlen, hres, hop, hkey, rfl⟩
  · have hcheck : (d.vers != 1 || !d.lenOk || !d.reservedOk) = true := by
      rcases hbad with h | h | h <;> simp [h]
    exact ⟨d.badOfs, by simp only [commandDatagram, htakes, hcheck]; rfl⟩
  · exact ⟨0, by simp [commandDatagram, htakes, hvers, hlen, hres, hop]⟩
  · exact ⟨0, by simp [commandDatagram, htakes, hvers, hlen, hres, hop, hkey]⟩

theorem stage1_of_role (h : roleAllows (keyRole s d.key) d.body = false) : stage1 s d = some (6, roleCode (keyRole s d.key)) := by
  simp [stage1, h]

theorem stage1_of_cell (hr : roleAllows (keyRole s d.key) d.body = true) (hc : d.cellId ≠ s.image.cellId) :
    stage1 s d = some (7, 1) := by
  simp [stage1, hr, hc]

theorem stage1_of_nonce (hr : roleAllows (keyRole s d.key) d.body = true) (hc : d.cellId = s.image.cellId) (hq : d.body ≠ .query)
    (hn : s.host.nonce = 0 ∨ d.nonce ≠ s.host.nonce) : stage1 s d = some (7, 2) := by
  rcases hn with hn | hn <;> simp [stage1, hr, hc, hq, hn]

/-- The check of the nonce passes. -/
theorem nonceFails_eq_false (hn : d.body = .query ∨ (s.host.nonce ≠ 0 ∧ d.nonce = s.host.nonce)) :
    (d.body != .query && (s.host.nonce = 0 || d.nonce != s.host.nonce)) = false := by
  rcases hn with hn | ⟨hn, he⟩
  · simp [hn]
  · simp [hn, he]

theorem stage1_of_oldSeq (hr : roleAllows (keyRole s d.key) d.body = true) (hc : d.cellId = s.image.cellId)
    (hn : d.body = .query ∨ (s.host.nonce ≠ 0 ∧ d.nonce = s.host.nonce)) (hq : d.seq ≤ (keySt s d.key).last) :
    stage1 s d = some (4, (keySt s d.key).last % 65536) := by
  simp only [stage1, nonceFails_eq_false hn]
  simp [hr, hc, hq]

theorem stage1_of_passing (hr : roleAllows (keyRole s d.key) d.body = true) (hc : d.cellId = s.image.cellId)
    (hn : d.body = .query ∨ (s.host.nonce ≠ 0 ∧ d.nonce = s.host.nonce)) (hq : (keySt s d.key).last < d.seq)
    (ht : d.relTick ≤ s.time.tickno + 2 ^ 22) (hf : s.host.cryptoFault = false) (hv : s.host.vq.length < 16)
    (hi : intakeCount s d.key < 256) : stage1 s d = none := by
  simp only [stage1, nonceFails_eq_false hn]
  simp only [hr, hc, hf, not_le.2 hq, not_lt.2 ht, not_le.2 hv, not_le.2 hi]
  simp

/-- A refusal at arrival: its code is counted, and of the intake nothing else changes. -/
theorem run_refusedArrival {c x : Nat} (hup : regionUp .host s = true)
    (hx : commandDatagram n d now s = refuseLimited (originOf n d 0) c x now s) :
    ∃ t, exec (.commandDatagram n d now) s = .next t ∧ countedRefusal c d.key s t ∧
      ((nth s.host.nets (netNum n)).refusals = 0 → answered (originOf n d 0) c x [] s t) ∧ only [.chip, .host] s t := by
  refine ⟨_, runIn_of_up hup, ?_⟩
  rw [hx]
  exact ⟨countedRefusal_settle (countedRefusal_refuseLimited (originOf n d 0) c x now s),
    fun h => answered_settle (answered_refuseLimited h), (only_settle_iff (by decide)).2 (by simp)⟩

end

section
variable {n : Net} {d : Datagram} {now : Nat} {s : State}

/-- A command that passes stage 1. -/
theorem passStage1_host : (passStage1 n d now s).host = { s.host with
    keys := updAt s.host.keys d.key (fun k => { k with
      hist := keepLast 64 k.hist { seq := d.seq, digest := d.digest, nets := [n] } }),
    vq := s.host.vq ++ [{ d := d, net := n, at_ := now }] } := by
  simp only [passStage1]
  split <;> rfl

theorem passStage1_pair : (passStage1 n d now s).pair =
    if s.pair.role = 1 then { s.pair with forwarded := s.pair.forwarded ++ [(d.key, d.seq)] } else s.pair := by
  have hrole : (s.pair.role == 1) = decide (s.pair.role = 1) := rfl
  have hkey (f : KeySt → KeySt) : (onKey d.key f s).pair = s.pair := rfl
  simp only [passStage1, hkey, hrole, decide_eq_true_eq]
  split <;> rfl

theorem only_passStage1 : only [.host, .pair] s (passStage1 n d now s) := by
  simp [passStage1, onKey]

theorem passStage1_chip : (passStage1 n d now s).chip = s.chip := only_passStage1 .chip (by decide)

/-- A copy of a command in the history is counted; the stored reply of a decided one leaves by the network of the copy. -/
theorem sent_duplicate (h : HistEnt) : (duplicate n d h s).host.sent =
    s.host.sent ++ (match h.reply with
      | some r => if h.decided = true ∧ repliesOut s = true then [{ r with net := n }] else []
      | none => []) := by
  have hout : repliesOut (onHost (fun x => { x with dupcnt := satAdd 0xFFFF x.dupcnt 1 }) s) = repliesOut s := rfl
  have hsent (r : Reply) (u : State) : (sendReplyOn r n u).host.sent = u.host.sent ++ [{ r with net := n }] :=
    congrArg Prod.fst (sendReplyOn_sentAndPrunes r n u)
  unfold duplicate
  dsimp only
  by_cases hd : h.decided = true
  · rw [if_pos hd]
    cases hr : h.reply with
    | none => exact (List.append_nil _).symm
    | some r =>
      dsimp only
      rw [hout]
      by_cases ho : repliesOut s = true
      · rw [if_pos ho, if_pos ⟨hd, ho⟩, hsent]
        rfl
      · rw [if_neg ho, if_neg fun h => ho h.2]
        exact (List.append_nil _).symm
  · rw [if_neg hd]
    cases h.reply with
    | none => exact (List.append_nil _).symm
    | some r =>
      dsimp only
      rw [if_neg fun h => hd h.1]
      exact (List.append_nil _).symm

theorem duplicate_intake (h : HistEnt) : (duplicate n d h s).intake =
    ({ s.host.intake with dupcnt := satAdd 0xFFFF s.host.dupcnt 1 }, s.intake.2) := by
  unfold duplicate
  dsimp only
  split
  · split
    · simp only [ite_intake, sendReplyOn_intake, ite_self]
      rfl
    · rfl
  · exact onKey_intake _ fun _ => rfl

theorem only_duplicate (h : HistEnt) : only [.chip, .host] s (duplicate n d h s) := by
  unfold duplicate
  dsimp only
  split
  · split <;> simp
  · simp [onKey]

end

/-- Settles O43, by the checks of arrival in their order: each check that fails names its code, and a datagram that passes them all
enters the queue and the history. -/
theorem commandArrival : Obligations.CommandArrival := by
  unfold Obligations.CommandArrival
  refine ⟨?_, ?_, ?_, ?_, fun d s => stage1_of_role, fun d s => stage1_of_cell, fun d s => stage1_of_nonce, ?_, ?_⟩
  · intro n d now s hup htakes hvers hlen hres hop hkey hdup hrole hcell hnonce hseq htick hcrypto hvq hin hk
    have hx := commandDatagram_of_passed (now := now) ⟨htakes, hvers, hlen, hres, hop, hkey⟩ hdup
      (stage1_of_passing hrole hcell hnonce hseq htick hcrypto hvq hin)
    have hq : quiet s (passStage1 n d now s) := quiet_of_chip passStage1_chip
    refine ⟨_, (runIn_of_up hup).trans (run_of_quiet hx hq), ?_, ?_, ?_, fun h => ?_, fun h => ?_, hq, only_passStage1⟩
    · rw [passStage1_host]
    · rw [keySt, passStage1_host, nth_updAt_self _ _ _ hk]
      rfl
    · rw [passStage1_host]
      exact onlyAt_updAt ..
    · rw [passStage1_pair, if_pos h]
    · rw [passStage1_pair, if_neg h]
  · intro n d now h s hup htakes hvers hlen hres hop hkey hdup he
    have hx := commandDatagram_of_copy (now := now) ⟨htakes, hvers, hlen, hres, hop, hkey⟩ hdup he
    have hin := duplicate_intake (n := n) (d := d) (s := s) h
    refine ⟨_, runIn_of_up hup, ?_⟩
    rw [hx, settle_host]
    exact ⟨(congrArg (fun x : HostSt × (Nat → Nat) => x.1.dupcnt) hin :),
      (congrArg (fun x : HostSt × (Nat → Nat) => x.1.vq) hin :),
      (congrArg (fun x : HostSt × (Nat → Nat) => x.1.refcnt) hin :), sent_duplicate h,
      (only_settle_iff (by decide)).2 (only_duplicate h)⟩
  · intro n d now h s hup htakes hvers hlen hres hop hkey hdup he
    obtain ⟨t, ht, hcount, -, ho⟩ :=
      run_refusedArrival (now := now) hup (commandDatagram_of_clash ⟨htakes, hvers, hlen, hres, hop, hkey⟩ hdup he)
    exact ⟨t, ht, lastCode_of_countedRefusal hcount, lastKey_of_countedRefusal hcount, refcnt_of_countedRefusal hcount,
      vq_of_countedRefusal hcount, ho⟩
  · intro n d now c x s hup htakes hvers hlen hres hop hkey hdup h1
    obtain ⟨t, ht, hcount, hans, ho⟩ :=
      run_refusedArrival (now := now) hup (commandDatagram_of_stage1 ⟨htakes, hvers, hlen, hres, hop, hkey⟩ hdup h1)
    exact ⟨t, ht, lastCode_of_countedRefusal hcount, lastKey_of_countedRefusal hcount, refcnt_of_countedRefusal hcount,
      vq_of_countedRefusal hcount, hans, ho⟩
  · intro n d now c s hup htakes hbad
    obtain ⟨x, hx⟩ := commandDatagram_of_malformed (n := n) (now := now) htakes hbad
    obtain ⟨t, ht, hcount, -, ho⟩ := run_refusedArrival hup hx
    exact ⟨t, ht, lastCode_of_countedRefusal hcount, lastKey_of_countedRefusal hcount, refcnt_of_countedRefusal hcount,
      vq_of_countedRefusal hcount, ho⟩
  · intro n d now s htakes
    exact runIn_of_unchanged (by simp [commandDatagram, htakes])

/-! ### Verification (R383, R387, R388) -/

/-- The head of the verification queue is taken. -/
def headTaken (c : HeldCmd) (q : List HeldCmd) (now : Nat) (s : State) : State :=
  onHost (fun h => { h with vq := q, vwaits := keepLast 64 h.vwaits (now, now - c.at_) }) s

/-- The SEQ of a command becomes the last SEQ of its key. -/
def seqTaken (c : HeldCmd) (s : State) : State := onKey c.d.key (fun k => { k with last := c.d.seq }) s

section
variable {c : HeldCmd} {q : List HeldCmd} {now : Nat} {s : State}

theorem verificationDone_of_badSignature (hv : s.host.vq = c :: q) (h : c.d.rsOk = false ∨ c.d.sigOk = false) :
    verificationDone now s = refuseLimited (originOf c.net c.d 0) 3 0 now (headTaken c q now s) := by
  have hbad : (!c.d.rsOk || !c.d.sigOk) = true := by rcases h with h | h <;> simp [h]
  simp only [verificationDone, hv, hbad, if_true, refuse2, headTaken]

/-- A command with a good signature: its SEQ decides. -/
theorem verificationDone_of_signed (hv : s.host.vq = c :: q) (hrs : c.d.rsOk = true) (hsig : c.d.sigOk = true) :
    verificationDone now s =
      if c.d.seq ≤ (keySt s c.d.key).last
      then replyNow (originOf c.net c.d 0) 4 ((keySt s c.d.key).last % 65536) [] (headTaken c q now s)
      else holdCommand c now (seqTaken c (headTaken c q now s)) := by
  have hgood : (!c.d.rsOk || !c.d.sigOk) = false := by simp [hrs, hsig]
  have hrefuse (x : Nat) (u : State) : refuse2 c 4 x now u = replyNow (originOf c.net c.d 0) 4 x [] u := by simp [refuse2]
  simp only [verificationDone, hv, hgood, hrefuse, Bool.false_eq_true, if_false]
  exact if_congr Iff.rfl rfl rfl

/-- Outside an active, a command that comes in time is held for its tick. -/
theorem holdCommand_of_inTime (hrun : s.time.run = true) (hrole : s.pair.role ≠ 1)
    (ht : c.d.relTick ≠ 0 ∧ nextTickAt s now ≤ c.d.relTick ∨ c.d.relTick = 0 ∧ allowsNow c.d.body = true) :
    holdCommand c now s = onHost (fun h => { h with
      held := h.held ++ [{ c with rel := if c.d.relTick = 0 then nextTickAt s now else c.d.relTick }] }) s := by
  rcases ht with ⟨h0, htick⟩ | ⟨h0, hnow⟩
  · simp [holdCommand, releaseTick, hrun, hrole, h0, htick]
  · simp [holdCommand, releaseTick, hrun, hrole, h0, hnow]

/-- Outside an active, a command that comes late is refused with code 5. -/
theorem holdCommand_of_late (hrun : s.time.run = true) (hrole : s.pair.role ≠ 1)
    (ht : c.d.relTick ≠ 0 ∧ c.d.relTick < nextTickAt s now ∨ c.d.relTick = 0 ∧ allowsNow c.d.body = false) :
    holdCommand c now s = replyNow (originOf c.net c.d 0) 5 0 [] s := by
  rcases ht with ⟨h0, htick⟩ | ⟨h0, hnow⟩
  · simp [holdCommand, releaseTick, refuse2, hrun, hrole, h0, not_le.2 htick]
  · simp [holdCommand, releaseTick, refuse2, hrun, h0, hnow]

theorem repliesTo_headTaken (r : Reply) : repliesTo r (headTaken c q now s) = repliesTo r s := rfl

theorem repliesTo_seqTaken (r : Reply) : repliesTo r (seqTaken c s) = repliesTo r s := by
  refine repliesTo_congr (fun k n => ?_) rfl
  simp only [histOf]
  have hhist : (keySt (seqTaken c s) k).hist = (keySt s k).hist :=
    nth_updAt_same (f := fun k => { k with last := c.d.seq }) (P := KeySt.hist) (fun _ => rfl) s.host.keys c.d.key k
  rw [hhist]

theorem only_headTaken : only [.host] s (headTaken c q now s) := by simp [headTaken]

theorem only_seqTaken : only [.host] s (seqTaken c s) := by simp [seqTaken, onKey]

theorem last_seqTaken (hk : c.d.key < s.host.keys.length) : (keySt (seqTaken c s) c.d.key).last = c.d.seq := by
  simp [keySt, seqTaken, onKey, onHost, hk]

theorem last_seqTaken_ne {k : Nat} (h : k ≠ c.d.key) : keySt (seqTaken c s) k = keySt s k :=
  nth_updAt_ne _ _ _ _ h

/-- Whatever becomes of a verified command, its SEQ stays the last one of its key. -/
theorem last_holdCommand (k : Nat) : (keySt (holdCommand c now s) k).last = (keySt s k).last := by
  have hrefuse (code detail : Nat) (hc : code ≠ 0) (h3 : code ≠ 3) (k : Nat) :
      (keySt (refuse2 c code detail now s) k).last = (keySt s k).last := by
    simp only [refuse2, if_neg h3]
    exact last_of_countedRefusal (countedRefusal_replyNow s hc) k
  have hreply (o : Origin) (b : List Byte) (k : Nat) : (keySt (replyNow o 0 0 b s) k).last = (keySt s k).last :=
    congrFun (congrArg Prod.snd (sendReply_intake _ s)) k
  unfold holdCommand
  split
  · exact hreply _ _ k
  · split
    · exact hrefuse 5 0 (by decide) (by decide) k
    · split
      · exact hrefuse 8 _ (by decide) (by decide) k
      · rfl

end

theorem queryBody_length (s : State) : (queryBody s).length = 208 := by
  have hkeys : (((List.range 8).map (fun k => leBytes 8 (keySt s k).last)).flatten).length = 64 := by
    simp [List.length_flatten, Function.comp_def, leBytes_length]
  have hpub : (((List.range 16).map (fun i => leBytes 4 (nth s.fuse.devPub i).toNat)).flatten).length = 64 := by
    simp [List.length_flatten, Function.comp_def, leBytes_length]
  simp only [queryBody, List.length_append, hkeys, hpub, leBytes_length, List.length_cons, List.length_nil]

/-- Settles O44, by the checks of stage 2 in their order. -/
theorem verification : Obligations.Verification := by
  unfold Obligations.Verification
  refine ⟨?_, ?_, ?_, ?_, ?_, ?_, ?_, queryBody_length⟩
  · intro c q now s hup hv hrs hsig hseq hrun hrole ht hk
    have hx := (verificationDone_of_signed (now := now) hv hrs hsig).trans ((if_neg (not_le.2 hseq)).trans
      (holdCommand_of_inTime (s := seqTaken c (headTaken c q now s)) hrun hrole ht))
    refine ⟨_, (runIn_of_up hup).trans (run_of_quiet hx ⟨rfl, rfl, rfl⟩), rfl, rfl, ?_, onlyAt_updAt ..,
      rfl, rfl, ⟨rfl, rfl, rfl⟩, ?_⟩
    · exact nth_updAt_self _ _ _ hk
    · exact (only_onHost (by decide)).2 (only_trans only_headTaken only_seqTaken)
  · intro c q now s hup hv hbad
    have hcount : countedRefusal 3 c.d.key (headTaken c q now s)
        (settle s (refuseLimited (originOf c.net c.d 0) 3 0 now (headTaken c q now s))) :=
      countedRefusal_congr (intake_congr (settle_host ..)) (countedRefusal_refuseLimited ..)
    refine ⟨_, runIn_of_up hup, ?_⟩
    rw [verificationDone_of_badSignature hv hbad]
    exact ⟨vq_of_countedRefusal hcount, (held_of_countedRefusal hcount :), lastCode_of_countedRefusal hcount,
      (last_of_countedRefusal hcount :), (refcnt_of_countedRefusal hcount :),
      (only_settle_iff (by decide)).2 ((only_refuseLimited (by decide) (by decide)).2 (only_mono (by decide) only_headTaken))⟩
  · intro c q now s hup hv hrs hsig hseq
    have hcount : countedRefusal 4 c.d.key (headTaken c q now s)
        (settle s (replyNow (originOf c.net c.d 0) 4 ((keySt s c.d.key).last % 65536) [] (headTaken c q now s))) :=
      countedRefusal_congr (intake_congr (settle_host ..)) (countedRefusal_replyNow _ (by decide))
    refine ⟨_, runIn_of_up hup, ?_⟩
    rw [verificationDone_of_signed hv hrs hsig, if_pos hseq]
    exact ⟨vq_of_countedRefusal hcount, (held_of_countedRefusal hcount :),
      answered_settle (answered_replyNow rfl rfl repliesTo_headTaken),
      (only_settle_iff (by decide)).2 ((only_replyNow (by decide) (by decide)).2 (only_mono (by decide) only_headTaken))⟩
  · intro c q now s hup hv hrs hsig hseq hrun hrole ht
    have hcount : countedRefusal 5 c.d.key (seqTaken c (headTaken c q now s))
        (settle s (replyNow (originOf c.net c.d 0) 5 0 [] (seqTaken c (headTaken c q now s)))) :=
      countedRefusal_congr (intake_congr (settle_host ..)) (countedRefusal_replyNow _ (by decide))
    refine ⟨_, runIn_of_up hup, ?_⟩
    rw [verificationDone_of_signed hv hrs hsig, if_neg (not_le.2 hseq),
      holdCommand_of_late (s := seqTaken c (headTaken c q now s)) hrun hrole ht]
    exact ⟨vq_of_countedRefusal hcount, (held_of_countedRefusal hcount :),
      answered_settle (answered_replyNow rfl rfl fun r => (repliesTo_seqTaken r).trans (repliesTo_headTaken r)),
      (only_settle_iff (by decide)).2 ((only_replyNow (by decide) (by decide)).2
        (only_mono (by decide) (only_trans only_headTaken only_seqTaken)))⟩
  · intro now s hv
    exact runIn_of_unchanged (by simp only [verificationDone, hv])
  · intro o s hrun
    have hx : query o s = replyAt18 o 0 0 (queryBody s) s := by simp [query, hrun]
    exact ⟨_, run_of_quiet hx ⟨rfl, rfl, rfl⟩, rfl, ⟨rfl, rfl, rfl⟩, (only_onHost (by decide)).2 (only_refl _ s)⟩
  · intro o s hrun
    refine ⟨_, rfl, ?_⟩
    rw [query, if_neg (by simp [hrun])]
    exact ⟨answered_settle (answered_replyNow rfl rfl fun _ => rfl), (only_settle_iff (by decide)).2 (by simp)⟩

/-! ### The last SEQ of a key (R385) -/

theorem last_resetTo (kind : Nat) (fl : Option Flash) (s : State) (k : Nat) :
    (keySt (settle s (resetTo kind fl s)) k).last = 0 := by
  rw [keySt, settle_host]
  exact congrArg KeySt.last (keySt_reset k)

theorem resetBegin_of_due {x : Nat × Nat × Nat} {s : State} (hp : s.chip.resetPending = some x)
    (hd : resetWaits s x.2.1 x.2.2 = false ∨ x.1 + 20000000 ≤ s.time.tb) : resetBegin s = resetTo 4 none s := by
  have hwait : ¬ (resetWaits s x.2.1 x.2.2 && decide (s.time.tb < x.1 + 20000000)) = true := by
    rcases hd with h | h <;> simp [h]
  obtain ⟨t, key, seq⟩ := x
  simp only [resetBegin, hp]
  exact if_neg hwait

theorem wdogReset_of_due {s : State} (he : s.chip.wdogExpired = true)
    (hd : s.chip.wdogAt + 60000000000 ≤ s.time.tb ∨ allStopped s (defined s) = true) : wdogReset s = resetTo 3 none s := by
  rcases hd with h | h <;> simp [wdogReset, he, h]

/-- Settles O42: a reset leaves the keys of `State.reset`, a start touches none, and stage 2 alone sets the last SEQ. -/
theorem lastSequence : Obligations.LastSequence := by
  unfold Obligations.LastSequence
  refine ⟨?_, ?_, ?_, ?_, ?_⟩
  · rintro i s (⟨fl, rfl⟩ | rfl | ⟨fl, rfl⟩ | ⟨rfl, x, hp, hd⟩ | ⟨rfl, he, hd⟩)
    · exact ⟨_, rfl, last_resetTo 1 fl s⟩
    · exact ⟨_, rfl, last_resetTo 1 none s⟩
    · exact ⟨_, rfl, last_resetTo 2 fl s⟩
    · refine ⟨_, rfl, ?_⟩
      rw [resetBegin_of_due hp hd]
      exact last_resetTo 4 none s
    · refine ⟨_, rfl, ?_⟩
      rw [wdogReset_of_due he hd]
      exact last_resetTo 3 none s
  · intro p f v s hk
    refine ⟨_, rfl, fun k => ?_⟩
    have hkeys := (keySts_of_host (settle_host s _)).trans (startSequence_keySts p f v s)
    exact (congrArg (fun l => (nth l k).last) hkeys).trans (hk k)
  · intro c q now s hup hv hrs hsig hseq hk
    refine ⟨_, runIn_of_up hup, ?_⟩
    rw [verificationDone_of_signed hv hrs hsig, if_neg (not_le.2 hseq)]
    simp only [keySt, settle_host]
    refine ⟨(last_holdCommand _).trans (last_seqTaken hk), fun k hne => (last_holdCommand k).trans ?_⟩
    rw [last_seqTaken_ne hne]
    rfl
  · intro c q now s hup hv hrs hsig hseq
    have hcount : countedRefusal 4 c.d.key (headTaken c q now s)
        (settle s (replyNow (originOf c.net c.d 0) 4 ((keySt s c.d.key).last % 65536) [] (headTaken c q now s))) :=
      countedRefusal_congr (intake_congr (settle_host ..)) (countedRefusal_replyNow _ (by decide))
    refine ⟨_, runIn_of_up hup, ?_⟩
    rw [verificationDone_of_signed hv hrs hsig, if_pos hseq]
    exact ⟨lastCode_of_countedRefusal hcount, lastKey_of_countedRefusal hcount, (held_of_countedRefusal hcount :),
      (last_of_countedRefusal hcount :)⟩
  · intro n d now s hup htakes hvers hlen hres hop hkey hdup hrole hcell hnonce hseq
    obtain ⟨t, ht, hcount, -, -⟩ := run_refusedArrival (now := now) hup
      (commandDatagram_of_stage1 ⟨htakes, hvers, hlen, hres, hop, hkey⟩ hdup (stage1_of_oldSeq hrole hcell hnonce hseq))
    exact ⟨t, ht, lastCode_of_countedRefusal hcount, lastKey_of_countedRefusal hcount, vq_of_countedRefusal hcount,
      (last_of_countedRefusal hcount :)⟩

end Sys2Proof.Machine

/-! PROOF. Resets: what a reset keeps, the chip watchdog, and the obligation on resets (R396, R412, R413, R419). -/

namespace Sys2Proof.Machine

/-! ### The kind of a reset -/

section
variable {kind : Nat} {fl : Option Flash} {s : State}

theorem settle_rstKind (s t : State) : (settle s t).chip.rstKind = t.chip.rstKind := by rw [settle_chip]
theorem settle_rstCount (s t : State) : (settle s t).chip.rstCount = t.chip.rstCount := by rw [settle_chip]
theorem settle_phase (s t : State) : (settle s t).chip.phase = t.chip.phase := by rw [settle_chip]
theorem settle_escReset (s t : State) : (settle s t).chip.escReset = t.chip.escReset := by rw [settle_chip]

/-- What every reset leaves: its kind, the phase of reset, and the stores outside the part. -/
theorem kept_resetTo : (resetTo kind none s).chip.rstKind = kind ∧ (resetTo kind none s).chip.phase = .reset ∧
    (resetTo kind none s).fuse = s.fuse ∧ (resetTo kind none s).conf = s.conf ∧ (resetTo kind none s).flash = s.flash ∧
    (resetTo kind none s).saf = State.reset.saf := ⟨rfl, rfl, rfl, rfl, rfl, rfl⟩

theorem resetTo_powerOn_tb : (resetTo 1 fl s).time.tb = 0 := by simp [resetTo]

theorem resetTo_powerOn_mem : (resetTo 1 fl s).mem = [] := by simp [resetTo]

theorem resetTo_powerOn_recd : (resetTo 1 fl s).recd = {} := by simp [resetTo]

/-- A reset other than power-on keeps the time base, DRAM, the count of resets and what is recorded. -/
theorem resetTo_warm (hk : kind ≠ 1) (hs : s.time.stopped = false) :
    (resetTo kind fl s).mem = s.mem.filter (fun c => c.1 < 0x8000000000) ∧
      (resetTo kind fl s).chip.rstCount = satAdd 0xFFFF s.chip.rstCount 1 ∧ (resetTo kind fl s).time.tb = s.time.tb ∧
      (resetTo kind fl s).recd.recs = s.recd.recs ∧ (resetTo kind fl s).recd.ckpts = s.recd.ckpts := by
  simp [resetTo, hk, hs]

theorem resetBegin_of_waiting {x : Nat × Nat × Nat} (hp : s.chip.resetPending = some x) (hw : resetWaits s x.2.1 x.2.2 = true)
    (ht : s.time.tb < x.1 + 20000000) : resetBegin s = s := by
  obtain ⟨t, key, seq⟩ := x
  have hwait : (resetWaits s key seq && decide (s.time.tb < t + 20000000)) = true := by
    rw [Bool.and_eq_true]
    exact ⟨hw, decide_eq_true ht⟩
  simp only [resetBegin, hp]
  exact if_pos hwait

end

/-! ### The chip watchdog (R413) -/

/-- Whether the watchdog has expired, and when: no event, fault class or escalation changes them. -/
def State.wdog (s : State) : Bool × Nat := (s.chip.wdogExpired, s.chip.wdogAt)

@[simp] theorem ite_wdog (c : Prop) [Decidable c] (s t : State) : (if c then s else t).wdog = if c then s.wdog else t.wdog :=
  apply_ite ..
@[simp] theorem event_wdog (c d : Nat) (s : State) : (event c d s).wdog = s.wdog := (rfl)
@[simp] theorem onSaf_wdog (f : SafSt → SafSt) (s : State) : (onSaf f s).wdog = s.wdog := (rfl)
@[simp] theorem onTime_wdog (f : TimeSt → TimeSt) (s : State) : (onTime f s).wdog = s.wdog := (rfl)
@[simp] theorem onPair_wdog (f : PairSt → PairSt) (s : State) : (onPair f s).wdog = s.wdog := (rfl)
@[simp] theorem onRegion_wdog (r : Region) (f : RegionSt → RegionSt) (s : State) : (onRegion r f s).wdog = s.wdog := (rfl)
@[simp] theorem bbTrigger_wdog (t code : Nat) (s : State) : (bbTrigger t code s).wdog = s.wdog := by
  obtain ⟨w, k, b, he⟩ := bbTrigger_eq t code s
  rw [he]
  rfl
@[simp] theorem recTrip_wdog (s : State) : (recTrip s).wdog = s.wdog := by
  unfold recTrip
  split <;> rfl
@[simp] theorem latchA_wdog (m : Mask) (src code : Nat) (s : State) : (latchA m src code s).wdog = s.wdog := by simp [latchA_eq]
@[simp] theorem demandSto_wdog (m : Mask) (c : Nat) (s : State) : (demandSto m c s).wdog = s.wdog := by simp [demandSto_eq]
@[simp] theorem demandStop_wdog (m : Mask) (c : Nat) (s : State) : (demandStop m c s).wdog = s.wdog := by simp [demandStop_eq]
@[simp] theorem mark_wdog (i : Nat) (m : Mask) (s : State) : (mark i m s).wdog = s.wdog := (rfl)
@[simp] theorem escalate_wdog (r : Region) (s : State) : (escalate r s).wdog = s.wdog := by
  have hesc (u : State) : (onChip (fun c => { c with escalated := true }) u).wdog = u.wdog := rfl
  simp only [escalate, autoHandover, ite_wdog, demandSto_wdog, demandStop_wdog, onSaf_wdog, onPair_wdog, mark_wdog, event_wdog, hesc,
    bbTrigger_wdog, recTrip_wdog, onRegion_wdog, ite_self]
@[simp] theorem settle_wdog (s t : State) : (settle s t).wdog = t.wdog := by rw [State.wdog, settle_chip, State.wdog]

theorem wdogKick_inTurn {v : BitVec 8} {s : State} (hr : wdogRuns s = true) (hv : v = s.chip.wdogNext) :
    wdogKick v s = acked (onChip (fun c => { c with wdogNext := ~~~ v, wdogLeft := s.image.wdt }) s) := by
  simp [wdogKick, hr, hv]

theorem wdogKick_outOfTurn {v : BitVec 8} {s : State} (h : wdogRuns s = false ∨ v ≠ s.chip.wdogNext) :
    wdogKick v s = acked s := by
  rcases h with h | h <;> simp [wdogKick, h]

theorem wdogExpiry_eq {s : State} (hr : wdogRuns s = true) (he : s.chip.wdogExpired = false) : wdogExpiry s =
    escalate .chip (bbTrigger 3 0 (latchA (defined s) 16 0x0170 (event 0x0170 0
      (onChip (fun c => { c with wdogExpired := true, wdogAt := s.time.tb, wdogLeft := 0 }) s)))) := by
  simp only [wdogExpiry, hr, he]
  rfl

theorem wdogReset_of_waiting {s : State} (h : s.chip.wdogExpired = false ∨
    allStopped s (defined s) = false ∧ s.time.tb < s.chip.wdogAt + 60000000000) : wdogReset s = s := by
  rcases h with h | ⟨ha, ht⟩
  · simp [wdogReset, h]
  · simp only [wdogReset, ha, not_le.2 ht]
    simp

/-- Settles O41: every reset is `State.reset` with what its kind keeps, and what waits for it is told by its own condition. -/
theorem resets : Obligations.Resets := by
  unfold Obligations.Resets
  refine ⟨fun fl s => ?_, fun s => ?_, fun fl s hs => ?_, fun x s hp hd => ?_, fun x s hp hw ht => ?_, fun v s => ?_,
    fun s hr he hesc => ?_, fun s he => run_of_unchanged (by simp [wdogExpiry, he]), fun s he hd => ?_, fun s h => ?_⟩
  · refine ⟨_, rfl, ?_⟩
    simp only [settle_mem, settle_fuse, settle_conf, settle_flash, settle_rstKind, settle_rstCount, settle_phase, settle_time,
      settle_image, settle_saf, settle_mot, settle_host, settle_ring, settle_axio, settle_recd]
    exact ⟨resetTo_powerOn_mem, rfl, rfl, rfl, rfl, rfl, rfl, resetTo_powerOn_tb, rfl, rfl, rfl, rfl, rfl, rfl,
      congrArg RecSt.on resetTo_powerOn_recd⟩
  · refine ⟨_, rfl, ?_⟩
    simp only [settle_mem, settle_fuse, settle_conf, settle_flash, settle_rstKind, settle_phase, settle_saf]
    exact ⟨resetTo_powerOn_mem, rfl, rfl, rfl, rfl, rfl, rfl⟩
  · refine ⟨_, rfl, ?_⟩
    obtain ⟨hmem, hcount, htb, hrecs, hckpts⟩ := resetTo_warm (kind := 2) (fl := fl) (by decide) hs
    simp only [settle_mem, settle_fuse, settle_conf, settle_flash, settle_rstKind, settle_rstCount, settle_phase, settle_time,
      settle_saf, settle_mot, settle_recd]
    exact ⟨hmem, rfl, rfl, rfl, rfl, hcount, rfl, htb, hrecs, hckpts, rfl, rfl⟩
  · refine ⟨_, rfl, ?_⟩
    rw [resetBegin_of_due hp hd]
    simp only [settle_rstKind, settle_phase, settle_fuse, settle_conf, settle_flash, settle_saf]
    exact kept_resetTo
  · exact run_of_unchanged (resetBegin_of_waiting hp hw ht)
  · by_cases h : wdogRuns s = true ∧ v = s.chip.wdogNext
    · obtain ⟨hr, hv⟩ := h
      exact ⟨_, run_of_quiet (wdogKick_inTurn hr hv) ⟨rfl, rfl, rfl⟩, rfl, fun _ _ => ⟨rfl, rfl⟩, fun hne => absurd hv hne,
        ⟨rfl, rfl, rfl⟩, by simp⟩
    · have hx := wdogKick_outOfTurn (v := v) (s := s) (by simpa [imp_iff_not_or] using h)
      exact ⟨_, run_of_quiet hx ⟨rfl, rfl, rfl⟩, rfl, fun hr hv => absurd ⟨hr, hv⟩ h, fun _ => ⟨rfl, rfl⟩, ⟨rfl, rfl, rfl⟩,
        by simp⟩
  · refine ⟨_, rfl, ?_⟩
    rw [wdogExpiry_eq hr he]
    have hwdog := (settle_wdog s _).trans (escalate_wdog .chip (bbTrigger 3 0 (latchA (defined s) 16 0x0170 (event 0x0170 0
      (onChip (fun c => { c with wdogExpired := true, wdogAt := s.time.tb, wdogLeft := 0 }) s)))))
    simp only [bbTrigger_wdog, latchA_wdog, event_wdog] at hwdog
    refine ⟨congrArg Prod.fst hwdog, congrArg Prod.snd hwdog, ?_, ?_, (only_settle_iff (by decide)).2 ?_⟩
    · rw [settle_escalated]
      refine escalate_escalated ?_
      rwa [regSt_congr (t := bbTrigger 3 0 _) (s := s) (by simp [latchA_eq])]
    · rw [settle_saf]
      exact (congrArg SafSt.lastA (escalate_monitors ..) :).trans (by simp [latchA_eq, SafSt.monitors])
    · exact (only_escalate (fun _ h => h)).2 (by simp [escalateParts])
  · refine ⟨_, rfl, ?_⟩
    rw [wdogReset_of_due he hd]
    simp only [settle_rstKind, settle_phase, settle_escReset, settle_fuse, settle_saf]
    exact ⟨rfl, rfl, rfl, rfl, rfl⟩
  · exact run_of_unchanged (wdogReset_of_waiting h)

end Sys2Proof.Machine

/-! PROOF. Starting: the start of the device, region restarts and black-box records, and their obligation (R401 to R421, R485). -/

namespace Sys2Proof.Machine

section
variable {ps : List Part} {s t : State}

theorem only_memPart {x : List Host.Cell} (h : .mem ∈ ps) : only ps s { t with mem := x } ↔ only ps s t :=
  only_iff_of_part .mem h (by rintro ⟨⟩ <;> simp [Part.same])
theorem only_fusePart {x : FuseSt} (h : .fuse ∈ ps) : only ps s { t with fuse := x } ↔ only ps s t :=
  only_iff_of_part .fuse h (by rintro ⟨⟩ <;> simp [Part.same])

end

/-! ### The start without a valid image (R401, R407) -/

theorem settle_rrst (s t : State) : (settle s t).chip.rrst = t.chip.rrst := by rw [settle_chip]

theorem flashOk_eq_false {f : Flash} (h : f.size < 16777216 ∨ 268435456 < f.size ∨ f.octal = false) : flashOk f = false := by
  rcases h with h | h | h
  · simp [flashOk, not_le.2 h]
  · simp [flashOk, not_le.2 h]
  · simp [flashOk, h]

section
variable {p : Bool} {f : List (Region × Nat × Nat)} {v : List Bool} {s : State}

theorem startSequence_of_reset (h : s.chip.phase = .reset) : startSequence p f v s = startFrom p f v s := by
  simp [startSequence, h]

theorem startSequence_of_running (h : s.chip.phase ≠ .reset) : startSequence p f v s = s := by
  simp [startSequence, h]

theorem enterNoImage_phase (s : State) : (enterNoImage s).chip.phase = .noImage := by
  obtain ⟨w, k, b, hbb⟩ := bbTrigger_eq 5 0 (event 0x0156 0 (onChip (fun c => { c with phase := .noImage }) s))
  rw [enterNoImage, hbb]
  rfl

theorem only_enterNoImage (s : State) : only [.chip] s (enterNoImage s) := by simp [enterNoImage]

theorem logged_bbTrigger {c d k code : Nat} {s t : State} (h : logged c d s t) : logged c d s (bbTrigger k code t) := by
  obtain ⟨w, n, b, hbb⟩ := bbTrigger_eq k code t
  rw [hbb]
  exact h

theorem logged_enterNoImage {u : State} (hq : quiet s u) (ht : u.time = s.time) : logged 0x0156 0 s (enterNoImage u) :=
  logged_bbTrigger (logged_event (u := onChip (fun c => { c with phase := .noImage }) u) hq ht)

theorem startFrom_of_badFlash (h : flashOk s.flash = false) : startFrom p f v s = enterNoImage (event 0x0181 0 s) := by
  simp [startFrom, h]

/-- Both headers as they are read, when no event comes of it. -/
theorem readHeader_of_good {b : Bool} (h : (slotHeader s b).state ≠ 2) : readHeader b s = onSlot b (slotHeader s b) s := by
  simp [readHeader, h]

/-- The slots are blank, and no image is a candidate. -/
theorem startFrom_of_blank (hf : flashOk s.flash = true) (ha : s.flash.slotA = none) (hb : s.flash.slotB = none) :
    startFrom p f v s = enterNoImage (onSlot true {} (onSlot false {} s)) := by
  have hheader (b : Bool) (u : State) (hu : u.flash = s.flash) : slotHeader u b = {} := by
    cases b <;> simp [slotHeader, slotImage, hu, ha, hb]
  have hreadA : readHeader false s = onSlot false {} s := by
    rw [readHeader_of_good (by simp [hheader false s rfl]), hheader false s rfl]
  have hreadB : readHeader true (onSlot false {} s) = onSlot true {} (onSlot false {} s) := by
    rw [readHeader_of_good (by simp [hheader true (onSlot false {} s) rfl]), hheader true (onSlot false {} s) rfl]
  have hnone : candidates (onSlot true {} (onSlot false {} s)) = [] := by
    refine List.filter_eq_nil_iff.2 fun b _ => ?_
    cases b <;> simp [slotSt, onSlot, onChip]
  simp only [startFrom, hf, hreadA, hreadB, hnone, checkSlots]
  rfl

end

/-! ### The start with a valid image (R406, R409, R411) -/

theorem loadVreg_chip (s : State) : (loadVreg s).chip = s.chip := by
  unfold loadVreg
  split
  · unfold vregSend vregNext
    dsimp only
    split
    · split <;> rfl
    · rfl
  · rfl

theorem loadVreg_profile (s : State) : (loadVreg s).time.profile = s.time.profile := by
  unfold loadVreg
  split
  · unfold vregSend vregNext
    dsimp only
    split
    · split <;> rfl
    · rfl
  · rfl

theorem loadAll_chip (s : State) : (loadAll s).chip = (loadChip s).chip := by
  have hsaf (u : State) : (loadSaf u).chip = u.chip := rfl
  have hhost (u : State) : (loadHost u).chip = u.chip := rfl
  have htrl (u : State) : (loadTrl u).chip = u.chip := rfl
  have hsol (u : State) : (loadSol u).chip = u.chip := rfl
  have hmot (u : State) : (loadMot u).chip = u.chip := rfl
  have haxio (u : State) : (loadAxio u).chip = u.chip := rfl
  have hring (u : State) : (loadRing u).chip = u.chip := rfl
  have htime (u : State) : (loadTime u).chip = u.chip := rfl
  rw [loadAll, hsaf, hhost, htrl, hsol, hmot, haxio, hring, loadVreg_chip, htime]

theorem loadAll_profile (s : State) : (loadAll s).time.profile = startProfile s := by
  have hsaf (u : State) : (loadSaf u).time = u.time := rfl
  have hhost (u : State) : (loadHost u).time = u.time := rfl
  have htrl (u : State) : (loadTrl u).time = u.time := rfl
  have hsol (u : State) : (loadSol u).time = u.time := rfl
  have hmot (u : State) : (loadMot u).time = u.time := rfl
  have haxio (u : State) : (loadAxio u).time = u.time := rfl
  have hring (u : State) : (loadRing u).time = u.time := rfl
  rw [loadAll, hsaf, hhost, htrl, hsol, hmot, haxio, hring, loadVreg_profile]
  rfl

/-- Image im of slot b is taken into use as it is, the other slot not having been refused. -/
def imageTaken (b p : Bool) (im : Image) (s : State) : State :=
  onChip (fun c => { c with
      slot := b, fallback := false, first := s.fuse.keyDigest.isNone, profile := profileApplies s.fuse.variant im })
    { s with image := im, pair := { s.pair with cfg := pairCfgOf s.fuse.variant im, pid := pairCfgOf s.fuse.variant im && p } }

theorem takeImage_of_whole {b p : Bool} {im : Image} {s : State} (hi : slotImage s b = some im) (ha : appliedImage s b im = im)
    (hb : (slotSt s (!b)).state ≠ 2) : takeImage b p s = imageTaken b p im s := by
  simp only [takeImage, hi, ha, hb, decide_false, imageTaken]
  rfl

/-- The device after the checks that found the image of slot A valid and slot B blank. -/
def slotAValid (s : State) : State := onSlot false { state := 1 } (onSlot true {} (onSlot false { state := 3 } s))

/-- The phase, whether the chip has escalated, and the log: reading headers, taking an image and loading it leave them. -/
def State.progress (s : State) : Phase × Bool × List (Nat × EvEntry) × Nat × Nat :=
  (s.chip.phase, s.chip.escalated, s.chip.ev, s.chip.evWr, s.chip.evTotal)

theorem onSlot_progress (b : Bool) (x : SlotSt) (s : State) : (onSlot b x s).progress = s.progress := by cases b <;> rfl
theorem slotAValid_progress (s : State) : (slotAValid s).progress = s.progress := by simp only [slotAValid, onSlot_progress]
theorem imageTaken_progress (b p : Bool) (im : Image) (s : State) : (imageTaken b p im s).progress = s.progress := rfl
theorem loadAll_progress (s : State) : (loadAll s).progress = s.progress := by
  rw [State.progress, loadAll_chip]
  rfl

/-- The device is as before the start but for what the image in slot A gives. -/
def startedFromA (p : Bool) (im : Image) (s : State) : State :=
  copyAreas (loadAll (imageTaken false p im (slotAValid s)))

theorem startedFromA_progress (p : Bool) (im : Image) (s : State) : (startedFromA p im s).progress = s.progress := by
  have hcopy (u : State) : (copyAreas u).progress = u.progress := rfl
  rw [startedFromA, hcopy, loadAll_progress, imageTaken_progress, slotAValid_progress]

section
variable {p : Bool} {v : List Bool} {im : Image} {s : State}

/-- With the image of slot A alone, and good, the checks find it valid. -/
theorem checkSlots_of_slotA (ha : s.flash.slotA = some im) (hb : s.flash.slotB = none) (hh : headerOk s.flash im = true)
    (hp : profileApplies s.fuse.variant im = false) (hr : imageReason s.fuse.variant s.fuse.keyDigest v im im = 0) :
    checkSlots v (candidates (readHeader true (readHeader false s))) (readHeader true (readHeader false s)) =
      (some false, slotAValid s) := by
  have hreadA : readHeader false s = onSlot false { state := 3 } s := by
    have hheader : slotHeader s false = { state := 3 } := by simp [slotHeader, slotImage, ha, hh]
    rw [readHeader_of_good (by simp [hheader]), hheader]
  have hreadB : readHeader true (onSlot false { state := 3 } s) = onSlot true {} (onSlot false { state := 3 } s) := by
    have hheader : slotHeader (onSlot false { state := 3 } s) true = {} := by
      simp only [slotHeader, slotImage, onSlot, onChip_flash, hb, if_true]
    rw [readHeader_of_good (by simp [hheader]), hheader]
  have hcand : candidates (onSlot true {} (onSlot false { state := 3 } s)) = [false] := by
    have hseq : slotSeq (onSlot true {} (onSlot false { state := 3 } s)) true = 0 := by
      simp only [slotSeq, slotImage, onSlot, onChip_flash, hb, if_true]
    rw [candidates, hseq, if_neg (Nat.not_lt_zero _)]
    simp [slotSt, onSlot, onChip]
  have himage : slotImage (onSlot true {} (onSlot false { state := 3 } s)) false = some im := ha
  have happlied : appliedImage (onSlot true {} (onSlot false { state := 3 } s)) false im = im :=
    if_neg (Bool.eq_false_iff.1 hp)
  have hreason : imageReason (onSlot true {} (onSlot false { state := 3 } s)).fuse.variant
      (onSlot true {} (onSlot false { state := 3 } s)).fuse.keyDigest v im im = 0 := hr
  rw [hreadA, hreadB, hcand]
  simp only [checkSlots, himage, happlied, hreason, if_true, slotAValid]

/-- Without a failure of a self-test the device goes on to step 8. -/
theorem startFrom_of_slotA (hf : flashOk s.flash = true) (ha : s.flash.slotA = some im) (hb : s.flash.slotB = none)
    (hh : headerOk s.flash im = true) (hp : profileApplies s.fuse.variant im = false)
    (hr : imageReason s.fuse.variant s.fuse.keyDigest v im im = 0) (hphase : s.chip.phase = .reset)
    (he : s.chip.escalated = false) :
    startFrom p [] v s = enterStep8 (startedFromA p im s) := by
  have htake : takeImage false p (slotAValid s) = imageTaken false p im (slotAValid s) :=
    takeImage_of_whole (im := im) ha (if_neg (Bool.eq_false_iff.1 hp)) (by simp [slotAValid, slotSt, onSlot, onChip])
  have hprogress := startedFromA_progress p im s
  have hesc : (startedFromA p im s).chip.escalated = false := (congrArg (·.2.1) hprogress :).trans he
  have hgoes : ((startedFromA p im s).chip.phase == .noImage) = false :=
    beq_false_of_ne (ne_of_eq_of_ne ((congrArg (·.1) hprogress :).trans hphase) (by decide))
  have htests (w : State) (hw : w.chip.escalated = false) : selfTests [] w = w := by simp [selfTests, forAll, hw]
  simp only [startFrom, hf, checkSlots_of_slotA ha hb hh hp hr, htake, ← startedFromA.eq_1, htests _ hesc, hgoes]
  rfl

/-- With profile 0, or in node mode, the rings listen at once. -/
theorem enterStep8_of_noServo {u : State} (h : u.image.profile = 0) :
    enterStep8 (copyAreas (loadAll u)) = startRings (copyAreas (loadAll u)) := by
  have hprofile : (copyAreas (loadAll u)).time.profile = startProfile u := loadAll_profile u
  have hstart : startProfile u = 3 ∨ startProfile u = 0 := by
    unfold startProfile
    split
    · exact .inl rfl
    · exact .inr h
  have hwait : waitsForLock (copyAreas (loadAll u)) = false := by
    rcases hstart with h | h <;> simp [waitsForLock, hprofile, h]
  simp [enterStep8, hwait]

end

theorem startRings_listen {r : Nat} {s : State} (hr : r < s.ring.length) (hrole : (ringSt s r).role ≠ 0) :
    (ringSt (startRings s) r).state = .listen := by
  have hring : ringSt (startRings s) r =
      if (ringSt s r).role != 0 then { ringSt s r with state := .listen, heardAt := s.time.tb } else ringSt s r :=
    nth_map s.ring _ r hr
  rw [hring, if_pos (by simpa using hrole)]

theorem quiet_startRings {s u : State} (h : u.progress = s.progress) : quiet s (startRings u) :=
  ⟨(congrArg (·.2.2.1) h :), (congrArg (·.2.2.2.1) h :), (congrArg (·.2.2.2.2) h :)⟩

theorem only_startRings (s : State) : only [.chip, .ring] s (startRings s) :=
  (only_ring (by decide)).2
    ((only_onChip (by decide)).2 (only_refl _ s) : only _ s (onChip (fun c => { c with phase := .ringStart }) s))

theorem startRings_image (s : State) : (startRings s).image = s.image := rfl
theorem startRings_chip (s : State) : (startRings s).chip = { s.chip with phase := .ringStart } := rfl

theorem startRings_role {r : Nat} {s : State} (hr : r < s.ring.length) : (ringSt (startRings s) r).role = (ringSt s r).role := by
  have hring : ringSt (startRings s) r =
      if (ringSt s r).role != 0 then { ringSt s r with state := .listen, heardAt := s.time.tb } else ringSt s r :=
    nth_map s.ring _ r hr
  rw [hring]
  split <;> rfl

theorem tlockwaitExpiry_of_waiting {s : State} (h : s.chip.phase = .tlockWait) :
    tlockwaitExpiry s = event 0x0160 0 (startRings s) := by
  simp [tlockwaitExpiry, h]

section
variable {p : Bool} {im : Image} {s : State}

theorem loadAll_ring_length (s : State) : (loadAll s).ring.length = 2 := by
  have hsaf (u : State) : (loadSaf u).ring = u.ring := rfl
  have hhost (u : State) : (loadHost u).ring = u.ring := rfl
  have htrl (u : State) : (loadTrl u).ring = u.ring := rfl
  have hsol (u : State) : (loadSol u).ring = u.ring := rfl
  have hmot (u : State) : (loadMot u).ring = u.ring := rfl
  have haxio (u : State) : (loadAxio u).ring = u.ring := rfl
  rw [loadAll, hsaf, hhost, htrl, hsol, hmot, haxio]
  simp [loadRing]

theorem startedFromA_image : (startedFromA p im s).image = im := by
  rw [startedFromA, copyAreas_image, keep_image (loadAll_keep _)]
  rfl

theorem startedFromA_ring_length : (startedFromA p im s).ring.length = 2 := by
  have hcopy (u : State) : (copyAreas u).ring = u.ring := rfl
  rw [startedFromA, hcopy, loadAll_ring_length]

theorem startedFromA_slot : (startedFromA p im s).chip.slot = false ∧ (startedFromA p im s).chip.fallback = false := by
  have hcopy (u : State) : (copyAreas u).chip = u.chip := rfl
  rw [startedFromA, hcopy, loadAll_chip]
  exact ⟨rfl, rfl⟩

end

/-! ### Region restarts (R415) -/

section
variable {id : Nat} {r : Region} {s : State}

theorem regionRestart_of_refused (h : restartable s id false = false) : regionRestart id s =
    acked (event 0x0173 0 (onChip (fun c => { c with rrstRefused := true }) s)) := by
  simp [regionRestart, h]

/-- A region that is stopped leaves the list of restarts. -/
theorem stopRegion_rrst (r : Region) (s : State) : (stopRegion r s).chip.rrst = s.chip.rrst := by
  obtain ⟨l, a, h⟩ := endAccesses_eq r (onRegion r (fun x => { x with pruned := true }) s)
  unfold stopRegion
  rw [h]
  cases r <;> rfl

/-- The region of a restart is stopped unless a Prune has stopped it. -/
def stoppedForRestart (r : Region) (s : State) : State := if (regSt s r).pruned then s else stopRegion r s

theorem stoppedForRestart_rrst (r : Region) (s : State) : (stoppedForRestart r s).chip.rrst = s.chip.rrst := by
  unfold stoppedForRestart
  split
  · rfl
  · exact stopRegion_rrst r s

theorem quiet_stoppedForRestart (r : Region) (s : State) : quiet s (stoppedForRestart r s) := by
  unfold stoppedForRestart
  split
  · exact ⟨rfl, rfl, rfl⟩
  · exact (stopped_stopRegion r s).quiet

theorem stoppedForRestart_regions (r : Region) (s : State) : onlyAt r.id s.regions (stoppedForRestart r s).regions := by
  unfold stoppedForRestart
  split
  · exact ⟨rfl, fun _ _ => rfl⟩
  · rw [(stopped_stopRegion r s).regions]
    exact onlyAt_updAt ..

theorem startRestart_of_head {o : Option Origin} {q : List (Nat × Option Origin)} (hl : s.chip.rrst = (id, o) :: q)
    (hr : Region.ofId id = some r) (hp : s.chip.prunes = []) (hn : (regSt s r).restarting = false) :
    startRestart s = onRegion r (fun x => { x with restarting := true }) (stoppedForRestart r s) := by
  simp [startRestart, hl, hr, pruneOfRegion, hp, hn, stoppedForRestart]

/-- The only request of a restart has taken its place. -/
def requestedAlone (id : Nat) (s : State) : State := onChip (fun c => { c with rrst := [(id, none)], rrstRefused := false }) s

/-- A request that is the only one runs at once. -/
theorem regionRestart_of_lone (hr : Region.ofId id = some r) (ha : restartable s id false = true) (hl : s.chip.rrst = [])
    (hp : s.chip.prunes = []) (hn : (regSt s r).restarting = false) :
    regionRestart id s = acked (onRegion r (fun x => { x with restarting := true }) (stoppedForRestart r (requestedAlone id s))) := by
  have hx : requestRestart id none s = startRestart (requestedAlone id s) := by
    simp [requestRestart, requestedAlone, hl, onChip]
  rw [regionRestart, if_pos ha, hx, startRestart_of_head (s := requestedAlone id s) rfl hr hp hn]

theorem regSt_onRegion_same {f : RegionSt → RegionSt} (h : r.id < s.regions.length) : regSt (onRegion r f s) r = f (regSt s r) := by
  simp [regSt, h]

theorem loadRegion_regions (r : Region) (s : State) : (loadRegion r s).regions = s.regions := by cases r <;> rfl

theorem loadRegion_chip (r : Region) (s : State) : (loadRegion r s).chip = s.chip := by cases r <;> rfl

theorem loadRegion_time (r : Region) (s : State) : (loadRegion r s).time = s.time := by cases r <;> rfl

/-- A region after its reload: the rings of RING are formed again. -/
def regionReloaded (r : Region) (s : State) : State := afterReload r (loadRegion r s)

theorem regionReloaded_regions (r : Region) (s : State) : (regionReloaded r s).regions = s.regions := by
  rw [← loadRegion_regions r s]
  unfold regionReloaded afterReload
  split <;> rfl

theorem regionReloaded_chip (r : Region) (s : State) : (regionReloaded r s).chip = s.chip := by
  rw [← loadRegion_chip r s]
  unfold regionReloaded afterReload
  split <;> rfl

theorem regionReloaded_time (r : Region) (s : State) : (regionReloaded r s).time = s.time := by
  rw [← loadRegion_time r s]
  unfold regionReloaded afterReload
  split <;> rfl

/-- The last restart ends: the region has its reload and runs. -/
theorem regionRestartDone_of_last {o : Option Origin} (hl : s.chip.rrst = [(id, o)]) (hr : Region.ofId id = some r)
    (hn : (regSt s r).restarting = true) :
    regionRestartDone s = event 0x0172 0 (onChip (fun c => { c with rrst := [], rrstRefused := false })
      (onRegion r (fun x => { x with restarting := false, pruned := false }) (regionReloaded r s))) := by
  have hx : regionRestartDone s = startRestart (event 0x0172 0 (onChip (fun c => { c with rrst := [], rrstRefused := false })
      (onRegion r (fun x => { x with restarting := false, pruned := false }) (regionReloaded r s)))) := by
    simp only [regionRestartDone, hl, hr, hn]
    rfl
  rw [hx, startRestart_of_none rfl]

end

/-! ### Black-box records (R421) -/

/-- The record at the head of those that wait, as it is written. -/
def numbered (r : BbRec) (s : State) : BbRec := { r with rseq := newestRseq s + 1, num := s.chip.bbRec + 1 }

theorem bbAdvance_of_room {c : ChipSt} (h : c.bbPos % 16 < 14) : bbAdvance c = { c with bbPos := (c.bbPos + 1) % 480 } := by
  have hpos : ¬ (c.bbPos + 1) % 480 % 16 = 15 := by omega
  unfold bbAdvance
  dsimp only
  rw [if_neg hpos]

section
variable {r : BbRec} {q : List BbRec} {s : State}

theorem blackboxProgrammed_done (hw : s.chip.bbWait = r :: q) (hp : s.chip.bbPos % 16 < 14) : blackboxProgrammed true s =
    { (onChip (fun c => { c with
        bbWait := q, bbRec := min 16 (c.bbRec + 1), bbDone := assocPut c.bbDone c.bbPos (numbered r s),
        bbPos := (c.bbPos + 1) % 480 }) s) with mem := bbToMem s.mem s.chip.bbPos (numbered r s) } := by
  have hadvance := bbAdvance_of_room (c := { s.chip with
    bbWait := q, bbRec := min 16 (s.chip.bbRec + 1), bbDone := assocPut s.chip.bbDone s.chip.bbPos (numbered r s) }) hp
  simp only [numbered] at hadvance
  simp only [blackboxProgrammed, hw, onChip, if_true, hadvance, numbered]

theorem blackboxProgrammed_failed (hw : s.chip.bbWait = r :: q) (hp : s.chip.bbPos % 16 < 14) : blackboxProgrammed false s =
    event 0x0181 0 (onChip (fun c => { c with
        bbWait := q, bbRec := min 16 (c.bbRec + 1), bbPos := (c.bbPos + 1) % 480 }) s) := by
  have hadvance := bbAdvance_of_room (c := { s.chip with bbWait := q, bbRec := min 16 (s.chip.bbRec + 1) }) hp
  simp only [blackboxProgrammed, hw, onChip, Bool.false_eq_true, if_false, hadvance]

end

theorem testModeEntry_of_other {ok : Bool} {s : State} (h : s.chip.phase ≠ .reset ∨ s.chip.rstKind ≠ 1 ∨ ok = false) :
    testModeEntry ok s = s := by
  rcases h with h | h | h <;> simp [testModeEntry, h]

/-- Settles O40: the start by the checks of its steps, a restart by what stops and reloads a region. -/
theorem startAndRestart : Obligations.StartAndRestart := by
  unfold Obligations.StartAndRestart
  refine ⟨?_, ?_, ?_, fun p f v s h => run_of_unchanged (startSequence_of_running h), ?_,
    fun s h => run_of_unchanged (by simp [tlockwaitExpiry, h]), ?_, ?_, ?_,
    fun s h => run_of_unchanged (by simp [regionRestartDone, h]), ?_, fun ok s h => run_of_unchanged (by simp [blackboxProgrammed, h]),
    ?_, fun ok s h => run_of_unchanged (testModeEntry_of_other h)⟩
  · intro p v im s hphase he hf ha hb hh hp hr hprofile
    have hx : startSequence p [] v s = startRings (startedFromA p im s) := by
      rw [startSequence_of_reset hphase, startFrom_of_slotA hf ha hb hh hp hr hphase he]
      exact enterStep8_of_noServo hprofile
    have hq : quiet s (startRings (startedFromA p im s)) := quiet_startRings (startedFromA_progress p im s)
    have hlen : (startedFromA p im s).ring.length = 2 := startedFromA_ring_length
    have hstored : (startRings (startedFromA p im s)).stored = s.stored := by rw [← hx]; exact startSequence_stored p [] v s
    obtain ⟨hslot, hfallback⟩ := startedFromA_slot (p := p) (im := im) (s := s)
    refine ⟨_, run_of_quiet hx hq, ?_, ?_, ?_, ?_, fun r hr2 hrole => ?_, (congrArg (·.2.2) hstored :),
      (congrArg (·.1) hstored :), (congrArg (·.2.1) hstored :), hq⟩
    · rw [startRings_image, startedFromA_image]
    · rw [startRings_chip]
    · rw [startRings_chip]
      exact hslot
    · rw [startRings_chip]
      exact hfallback
    · rw [← hlen] at hr2
      rw [startRings_role hr2] at hrole
      exact startRings_listen hr2 hrole
  · intro p f v s hphase hf ha hb
    have hx : startSequence p f v s = enterNoImage (onSlot true {} (onSlot false {} s)) := by
      rw [startSequence_of_reset hphase, startFrom_of_blank hf ha hb]
    have hl : logged 0x0156 0 s (enterNoImage (onSlot true {} (onSlot false {} s))) := logged_enterNoImage ⟨rfl, rfl, rfl⟩ rfl
    have ho : only [.chip] s (enterNoImage (onSlot true {} (onSlot false {} s))) :=
      only_trans (by simp [onSlot]) (only_enterNoImage _)
    exact ⟨_, run_of_logged hx hl, enterNoImage_phase _, ho .image (by decide), hl, ho⟩
  · intro p f v s hphase hf
    have hx : startSequence p f v s = enterNoImage (event 0x0181 0 s) := by
      rw [startSequence_of_reset hphase, startFrom_of_badFlash (flashOk_eq_false hf)]
    have ho : only [.chip] s (settle s (enterNoImage (event 0x0181 0 s))) :=
      (only_settle_iff (by decide)).2 (only_trans (by simp) (only_enterNoImage _))
    refine ⟨_, rfl, ?_⟩
    rw [hx]
    exact ⟨(settle_phase _ _).trans (enterNoImage_phase _), ho .image (by decide), ho⟩
  · intro s h
    have hl : logged 0x0160 0 s (event 0x0160 0 (startRings s)) := logged_event ⟨rfl, rfl, rfl⟩ rfl
    exact ⟨_, run_of_logged (tlockwaitExpiry_of_waiting h) hl, rfl, fun r hr hrole => startRings_listen hr hrole, hl,
      (only_event (by decide)).2 (only_startRings s)⟩
  · intro id r s hr ha hl hp hn hid
    have hq := quiet_stoppedForRestart r (requestedAlone id s)
    have hregions := stoppedForRestart_regions r (requestedAlone id s)
    have hlen : r.id < (stoppedForRestart r (requestedAlone id s)).regions.length := hregions.1 ▸ hid
    refine ⟨_, run_of_quiet (regionRestart_of_lone hr ha hl hp hn) hq, ?_, stoppedForRestart_rrst r (requestedAlone id s), rfl,
      onlyAt_trans hregions (onlyAt_updAt ..), hq⟩
    exact congrArg RegionSt.restarting (regSt_onRegion_same hlen)
  · intro id s h
    have hl : logged 0x0173 0 s (acked (event 0x0173 0 (onChip (fun c => { c with rrstRefused := true }) s))) := ⟨rfl, rfl, rfl⟩
    exact ⟨_, run_of_logged (regionRestart_of_refused h) hl, rfl, rfl, rfl, hl, by simp⟩
  · intro id r o s hl hr hn hid
    have hx := regionRestartDone_of_last hl hr hn
    have hlog : logged 0x0172 0 s (event 0x0172 0 (onChip (fun c => { c with rrst := [], rrstRefused := false })
        (onRegion r (fun x => { x with restarting := false, pruned := false }) (regionReloaded r s)))) := by
      refine logged_event ?_ (regionReloaded_time r s)
      have hchip := regionReloaded_chip r s
      exact ⟨(congrArg ChipSt.ev hchip :), (congrArg ChipSt.evWr hchip :), (congrArg ChipSt.evTotal hchip :)⟩
    have hsame := regSt_onRegion_same (f := fun x => { x with restarting := false, pruned := false })
      (s := regionReloaded r s) ((regionReloaded_regions r s).symm ▸ hid)
    refine ⟨_, run_of_logged hx hlog, (congrArg RegionSt.restarting hsame :), (congrArg RegionSt.pruned hsame :), rfl, ?_, hlog⟩
    simp only [event_regions, onChip_regions, onRegion_regions, regionReloaded_regions]
    exact onlyAt_updAt ..
  · intro r q s hw hp
    refine ⟨⟨_, numbered r s, run_of_quiet (blackboxProgrammed_done hw hp) ⟨rfl, rfl, rfl⟩, rfl, rfl, ?_, rfl, rfl, rfl,
      ⟨rfl, rfl, rfl⟩, ?_⟩, ?_⟩
    · exact (assoc_assocPut ..).trans (if_pos rfl)
    · exact (only_memPart (by decide)).2 ((only_onChip (by decide)).2 (only_refl _ s))
    · have hl : logged 0x0181 0 s (event 0x0181 0 (onChip (fun c => { c with
          bbWait := q, bbRec := min 16 (c.bbRec + 1), bbPos := (c.bbPos + 1) % 480 }) s)) := logged_event ⟨rfl, rfl, rfl⟩ rfl
      exact ⟨_, run_of_logged (blackboxProgrammed_failed hw hp) hl, rfl, rfl, rfl, hl, by simp⟩
  · intro s hphase hkind
    have hx : testModeEntry true s = { (onChip (fun c => { c with testMode := true }) s) with
        fuse := { s.fuse with opened := true } } := by
      simp [testModeEntry, hphase, hkind]
    refine ⟨_, run_of_quiet hx ⟨rfl, rfl, rfl⟩, rfl, rfl, ⟨rfl, rfl, rfl⟩, ?_⟩
    exact (only_fusePart (by decide)).2 ((only_onChip (by decide)).2 (only_refl _ s))

end Sys2Proof.Machine

/-! PROOF. StoreCommands: the flash and the memory commands, and the obligations on them and on RESET (R393 to R396). -/

namespace Sys2Proof.Machine

/-! ### Commands that are answered at completion (R390) -/

theorem flash_of_countedRefusal {code key : Nat} {s t : State} (h : countedRefusal code key s t) : t.host.flash = s.host.flash :=
  (congrArg (fun x : HostSt × (Nat → Nat) => x.1.flash) h :)

/-- A command that is refused at once is answered, and the work of the flash stays. -/
theorem run_of_replyNow {f : State → State} {o : Origin} {code detail : Nat} {body : List Byte} {s : State}
    (hx : f s = replyNow o code detail body s) :
    ∃ t, run f s = .next t ∧ answered o code detail body s t ∧ t.host.flash = s.host.flash ∧ only [.chip, .host] s t := by
  refine ⟨_, rfl, ?_⟩
  rw [hx, settle_host]
  refine ⟨answered_settle (answered_replyNow rfl rfl fun _ => rfl), ?_, (only_settle_iff (by decide)).2 (by simp)⟩
  by_cases hc : code = 0
  · simp only [replyNow, if_pos hc]
    exact (congrArg (fun x : HostSt × (Nat → Nat) => x.1.flash) (sendReply_intake _ s) :)
  · exact flash_of_countedRefusal (countedRefusal_replyNow s hc)

/-! ### The work of the flash (R395) -/

section
variable {o : Origin} {a n r : Nat} {l : List Byte} {e : FlashEdit} {s : State}

theorem imageEraseCmd_of_range (ha : a % 65536 = 0) (hn : n % 65536 = 0) (h : a + n ≤ slotSize s.flash) :
    imageEraseCmd o a n s = onHost (fun h => { h with flash := h.flash ++ [(o, { ofs := a, len := n })] }) s := by
  simp [imageEraseCmd, ha, hn, inSlot, h]

theorem imageWriteCmd_of_range (h4 : 4 ≤ l.length) (hmax : l.length ≤ 1016) (hl : l.length % 4 = 0)
    (h : a + l.length ≤ slotSize s.flash) : imageWriteCmd o a l s =
      onHost (fun h => { h with flash := h.flash ++ [(o, { ofs := a, len := l.length, data := l })] }) s := by
  simp [imageWriteCmd, not_lt.2 h4, not_lt.2 hmax, hl, inSlot, h]

theorem imageWriteCmd_of_badLength (h : l.length < 4 ∨ 1016 < l.length ∨ l.length % 4 ≠ 0) :
    imageWriteCmd o a l s = replyNow o 11 4 [] s := by
  rcases h with h | h | h <;> simp [imageWriteCmd, h]

theorem imageWriteCmd_of_outside (h4 : 4 ≤ l.length) (hmax : l.length ≤ 1016) (hl : l.length % 4 = 0)
    (h : slotSize s.flash < a + l.length) : imageWriteCmd o a l s = replyNow o 17 1 [] s := by
  simp [imageWriteCmd, not_lt.2 h4, not_lt.2 hmax, hl, inSlot, not_le.2 h]

/-- The other slot stays, as do the properties of the flash. -/
def activeSlotKept (s t : State) : Prop :=
  (s.chip.slot = false → t.flash.slotA = s.flash.slotA ∧ t.flash.replA = s.flash.replA) ∧
  (s.chip.slot = true → t.flash.slotB = s.flash.slotB ∧ t.flash.replB = s.flash.replB) ∧
  t.flash.size = s.flash.size ∧ t.flash.octal = s.flash.octal

theorem activeSlotKept_putSlot {im : Option Image} {ps : List (Variant × Image)} {es : List FlashEdit} :
    activeSlotKept s (putSlot (!s.chip.slot) im ps es s) := by
  cases h : s.chip.slot <;> simp [activeSlotKept, putSlot, h]

theorem activeSlotKept_slotAfter : activeSlotKept s (slotAfter e s) := by
  unfold slotAfter
  dsimp only
  split
  · exact ⟨fun _ => ⟨rfl, rfl⟩, fun _ => ⟨rfl, rfl⟩, rfl, rfl⟩
  · split
    · exact activeSlotKept_putSlot
    · exact activeSlotKept_putSlot

/-- An erase from the start of the inactive slot leaves it blank. -/
theorem slotAfter_of_header (hd : e.data = []) (ho : e.ofs = 0) (hl : e.len ≠ 0) :
    if s.chip.slot = true then (slotAfter e s).flash.slotA = none else (slotAfter e s).flash.slotB = none := by
  have hx : slotAfter e s = putSlot (!s.chip.slot) none []
      ((if !s.chip.slot then s.flash.editsB else s.flash.editsA) ++ [e]) s := by
    simp [slotAfter, hd, ho, hl]
  rw [hx]
  cases h : s.chip.slot <;> simp [putSlot]

/-- What an erase or a write of the inactive slot leaves: the chip, HOST and the time. -/
theorem slotAfter_rest : (slotAfter e s).chip = s.chip ∧ (slotAfter e s).host = s.host ∧ (slotAfter e s).time = s.time ∧
    (slotAfter e s).pair = s.pair := by
  unfold slotAfter putSlot
  dsimp only
  split_ifs <;> exact ⟨rfl, rfl, rfl, rfl⟩

theorem only_slotAfter : only [.flash, .free] s (slotAfter e s) := by
  have hput (b : Bool) (im : Option Image) (ps : List (Variant × Image)) (es : List FlashEdit) :
      only [.flash, .free] s (putSlot b im ps es s) :=
    (only_iff_of_part .flash (by decide) (by rintro ⟨⟩ <;> simp [Part.same, putSlot])).2 (only_refl _ s)
  unfold slotAfter
  dsimp only
  split
  · exact only_refl _ s
  · split
    · exact hput _ _ _ _
    · exact (only_free (by decide)).2 (hput _ _ _ _)

/-- The flash after an operation: the head of its list is done, and the inactive slot is what the edits form. -/
def flashDone (e : FlashEdit) (q : List (Origin × FlashEdit)) (s : State) : State :=
  slotAfter e (onHost (fun h => { h with flash := q }) s)

theorem flashOpDone_of_head {q : List (Origin × FlashEdit)} (h : s.host.flash = (o, e) :: q) : flashOpDone r s =
    if r = 0 then replyNow o 0 0 [] (flashDone e q s)
    else replyNow o 17 (if r = 3 then 3 else 2) [] (event 0x0976 0 (flashDone e q s)) := by
  simp only [flashOpDone, h, flashDone]

/-- The flash of a state that only a reply follows. -/
theorem flash_replyNow (o : Origin) (code detail : Nat) (body : List Byte) (s : State) :
    (replyNow o code detail body s).flash = s.flash := keep_flash (replyNow_keep ..)

theorem host_flash_replyNow (o : Origin) (code detail : Nat) (body : List Byte) (s : State) :
    (replyNow o code detail body s).host.flash = s.host.flash := by
  obtain ⟨t, ht, -, hflash, -⟩ := run_of_replyNow (f := replyNow o code detail body) (o := o) (code := code) (detail := detail)
    (body := body) (s := s) rfl
  cases ht
  rwa [settle_host] at hflash

theorem answered_flashDone {code detail : Nat} {q : List (Origin × FlashEdit)} {u : State} (hu : u.host = (flashDone e q s).host)
    (ht : u.time = (flashDone e q s).time) (hp : u.pair = (flashDone e q s).pair) :
    answered o code detail [] s (replyNow o code detail [] u) := by
  obtain ⟨-, hhost, htime, hpair⟩ := slotAfter_rest (e := e) (s := onHost (fun h => { h with flash := q }) s)
  have hh : u.host = { s.host with flash := q } := hu.trans hhost
  have hkeys : u.host.keys = s.host.keys := by rw [hh]
  refine answered_replyNow (by rw [hh]) (ht.trans htime) fun r => repliesTo_congr (fun k n => ?_) ?_
  · simp only [histOf, keySt, hkeys]
  · simp only [repliesOut, hp.trans hpair, hh]
    rfl

end

theorem readCmd_of_absent {o : Origin} {a n : Nat} {s : State} (h : dmaOk a = false) : readCmd o a n s = replyNow o 11 0 [] s := by
  simp [readCmd, h]

theorem readCmd_of_badLength {o : Origin} {a n : Nat} {s : State} (h1 : dmaOk a = true) (h2 : dmaOk (a + n - 1) = true)
    (h : n < 4 ∨ 1024 < n ∨ n % 4 ≠ 0) : readCmd o a n s = replyNow o 11 6 [] s := by
  rcases h with h | h | h <;> simp [readCmd, h1, h2, h]

theorem readCmd_of_range {o : Origin} {a n : Nat} {s : State} (h1 : dmaOk a = true) (h2 : dmaOk (a + n - 1) = true) (h4 : 4 ≤ n)
    (hmax : n ≤ 1024) (hn : n % 4 = 0) : readCmd o a n s = replyNow o 0 0 (memBytes s.mem a n) s := by
  simp [readCmd, h1, h2, not_lt.2 h4, not_lt.2 hmax, hn]

/-- Settles O49, by the range that each command names. -/
theorem storeCommands : Obligations.StoreCommands := by
  unfold Obligations.StoreCommands
  refine ⟨?_, ?_, fun o a n s => ⟨fun ha => ?_, fun ha hn => ?_, fun ha hn h => ?_⟩, fun o a l s => ⟨fun h => ?_, ?_⟩, ?_,
    fun r s h => run_of_unchanged (by simp [flashOpDone, h]), ?_, fun o a n s => ⟨fun h => ?_, fun h1 h2 h => ?_⟩⟩
  · intro o a n s ha hn h
    exact ⟨_, run_of_quiet (imageEraseCmd_of_range ha hn h) ⟨rfl, rfl, rfl⟩, rfl, ⟨rfl, rfl, rfl⟩, by simp⟩
  · intro o a l s h4 hmax hl h
    exact ⟨_, run_of_quiet (imageWriteCmd_of_range h4 hmax hl h) ⟨rfl, rfl, rfl⟩, rfl, ⟨rfl, rfl, rfl⟩, by simp⟩
  · exact run_of_replyNow (by simp [imageEraseCmd, ha])
  · exact run_of_replyNow (by simp [imageEraseCmd, ha, hn])
  · exact run_of_replyNow (by simp [imageEraseCmd, ha, hn, inSlot, not_le.2 h])
  · exact run_of_replyNow (imageWriteCmd_of_badLength h)
  · exact fun h4 hmax hl h => run_of_replyNow (imageWriteCmd_of_outside h4 hmax hl h)
  · intro o e r q s h
    obtain ⟨hchip, hhost, -, -⟩ := slotAfter_rest (e := e) (s := onHost (fun h => { h with flash := q }) s)
    obtain ⟨hA, hB, hsize, hoctal⟩ := activeSlotKept_slotAfter (e := e) (s := onHost (fun h => { h with flash := q }) s)
    have hflash : (flashOpDone r s).flash = (flashDone e q s).flash := by
      rw [flashOpDone_of_head h]
      split <;> simp only [flash_replyNow, event_flash]
    have hq : (flashOpDone r s).host.flash = q := by
      rw [flashOpDone_of_head h]
      split <;> simp only [host_flash_replyNow, event_host, flashDone, hhost, onHost_host]
    have ho : only [.chip, .flash, .host, .free] s (flashOpDone r s) := by
      have hdone : only [.chip, .flash, .host, .free] s (flashDone e q s) :=
        only_trans (by simp) (only_mono (by decide) only_slotAfter)
      rw [flashOpDone_of_head h]
      split <;> simp [hdone]
    refine ⟨_, rfl, ?_, fun hd hofs hlen => ?_, fun h0 => ?_, fun h0 => ?_, fun hs => ?_, fun hs => ?_, ?_, ?_,
      (only_settle_iff (by decide)).2 ho⟩
    · rw [settle_host, hq]
    · rw [settle_flash, hflash]
      exact slotAfter_of_header (s := onHost (fun h => { h with flash := q }) s) hd hofs hlen
    · refine answered_settle ?_
      rw [flashOpDone_of_head h, if_pos h0]
      exact answered_flashDone rfl rfl rfl
    · refine answered_settle ?_
      rw [flashOpDone_of_head h, if_neg h0]
      exact answered_flashDone (event_host ..) (event_time ..) (event_pair ..)
    · rw [settle_flash, hflash]
      exact hA hs
    · rw [settle_flash, hflash]
      exact hB hs
    · rw [settle_flash, hflash]
      exact hsize
    · rw [settle_flash, hflash]
      exact hoctal
  · intro o a n s h1 h2 h4 hmax hn
    obtain ⟨t, ht, hans, -, ho⟩ := run_of_replyNow (readCmd_of_range (o := o) (s := s) h1 h2 h4 hmax hn)
    exact ⟨t, ht, hans, ho⟩
  · obtain ⟨t, ht, hans, -, ho⟩ := run_of_replyNow (readCmd_of_absent (o := o) (n := n) (s := s) h)
    exact ⟨t, ht, hans, ho⟩
  · obtain ⟨t, ht, hans, -, ho⟩ := run_of_replyNow (readCmd_of_badLength (o := o) (s := s) h1 h2 h)
    exact ⟨t, ht, hans, ho⟩

/-! ### A refused region restart, where the log's write index is out of range -/

/-- A device whose log index EV_WR is 512, beyond its 512 entries, and whose RING has escalated. No run leads there: each event leaves
EV_WR below 512. -/
def logIndexOut : State :=
  { chip := { evWr := 512 }, regions := List.replicate 10 { escalated := true } }

/-- Refutes O50: the clause on a refused region restart does not ask that EV_WR is an index of the log. In a state whose EV_WR is 512
the step's two events, CHIP_RRST_REFUSED and HOST_CMD_REFUSED, are not both found again when they are put in order, and the second
overwrites the first. -/
theorem not_resetCommands : ¬ Obligations.ResetCommands := by
  unfold Obligations.ResetCommands
  rintro ⟨-, -, -, -, -, hrefused, -⟩
  obtain ⟨t, ht, -, ⟨-, hlogged⟩, -⟩ :=
    hrefused {} 3 .ring logIndexOut rfl (by decide) (by decide) (by decide) (by decide) (by decide)
  obtain ⟨hev, -⟩ := hlogged (by decide)
  have htrue : settle logIndexOut (resetRegionCmd {} (0x80 + 3) logIndexOut) = t := Host.Outcome.next.inj ht
  subst htrue
  have hcode := congrArg (fun l => (assoc l 512).map (·.code)) hev
  have hfirst : (assoc (settle logIndexOut (resetRegionCmd {} (0x80 + 3) logIndexOut)).chip.ev 512).map (·.code) = some 0x0970 := by
    decide +kernel
  have hother : (assoc (assocPut (event 0x0173 0 logIndexOut).chip.ev (event 0x0173 0 logIndexOut).chip.evWr
      (entryAt (event 0x0173 0 logIndexOut) 0x0970 0)) 512).map (·.code) = some 0x0173 := by decide +kernel
  exact absurd (hfirst.symm.trans (hcode.trans hother)) (by decide)

end Sys2Proof.Machine

/-! PROOF. SafetyCommands: STOP, ACK, MODE and CONFIRM, and their obligation (R307, R315, R332, R346). -/

namespace Sys2Proof.Machine

/-! ### Commands of groups that exist -/

section
variable {o : Origin} {m : Mask} {s : State} {k : State → State}

theorem withMask_of_named (h : groupsNamed s m) : withMask o m s k = k s := by
  obtain ⟨hcell, hgroups⟩ := h
  have habsent : (bitsOf m).any (fun g => maxGroups s ≤ g) = false := by
    simp only [List.any_eq_false, decide_eq_true_eq, Nat.not_le]
    exact fun g hg => (hgroups g (mem_bitsOf.1 hg)).1
  have hundefined : (bitsOf m).any (fun g => !(grpCfg s g).defined) = false := by
    simp only [List.any_eq_false, Bool.not_eq_true', Bool.not_eq_false]
    exact fun g hg => (hgroups g (mem_bitsOf.1 hg)).2
  rw [withMask, needsCell_of_cell hcell, habsent, hundefined]
  rfl

end

/-- A group in a mask after an update of every group of the mask, and one outside it. -/
theorem safG_of_updMask {m : Mask} {f : SafGroup → SafGroup} {s t : State} (h : t.saf.g = updMask m f s.saf.g) :
    (∀ g, g < s.saf.g.length → hasBit m g = true → safG t g = f (safG s g)) ∧
      (∀ g, hasBit m g = false → safG t g = safG s g) := by
  refine ⟨fun g hg hm => ?_, fun g hm => ?_⟩ <;> simp only [safG, h, nth_updMask]
  · rw [if_pos ⟨hm, hg⟩]
  · rw [if_neg fun hc => Bool.false_ne_true (hm.symm.trans hc.1)]

/-! ### STOP, ACK and MODE (R307, R315, R346) -/

section
variable {o : Origin} {m : Mask} {s : State}

theorem stopCmd_of_named (h : groupsNamed s m) (hm : m ≠ 0) : stopCmd o m s =
    accept o (onSaf (fun x => { x with g := updMask m (wantStop 17) x.g }) s) := by
  rw [stopCmd, if_neg hm, withMask_of_named h, demandStop_eq]

theorem ackCmd_of_named (h : groupsNamed s m) : ackCmd o m s = awaitDecision o 0x21 m
    (onSaf (fun x => { x with gack := m, g := updMask m (fun y => { y with ackEdge := true }) x.g }) s) := by
  simp only [ackCmd, withMask_of_named h, forAll_onSafG]
  rfl

theorem modeCmd_of_known {k : Nat} (hn : nodeMode s = false) (hk : k ≤ 2) : modeCmd o k s =
    awaitDecision o 0x22 0 (onSaf (fun f => { f with modeReq := f.modeReq ++ [(k, o)] }) s) := by
  rw [modeCmd, needsCell_of_cell hn, if_neg (not_lt.2 hk)]

theorem modeCmd_of_unknown {k : Nat} (hn : nodeMode s = false) (hk : 2 < k) : modeCmd o k s = replyAt18 o 11 0 [] s := by
  rw [modeCmd, needsCell_of_cell hn, if_pos hk]

end

/-! ### CONFIRM (R332, R485) -/

section
variable {o : Origin} {v : Word} {s : State}

theorem confirmCode_of_value (h : v ≠ s.saf.check) : confirmCode s v = 1 := by simp [confirmCode, h]

theorem confirmCode_of_enabling (hv : v = s.saf.check) (h : enabledSecond s = false) : confirmCode s v = 2 := by
  simp [confirmCode, hv, h]

theorem confirmCode_of_moving (hv : v = s.saf.check) (he : enabledSecond s = true) (h : allStopped s (defined s) = false) :
    confirmCode s v = 3 := by
  simp [confirmCode, hv, he, h]

theorem confirmCode_of_opened (hv : v = s.saf.check) (he : enabledSecond s = true) (hs : allStopped s (defined s) = true)
    (hm : s.saf.mode = 1) (hp : s.saf.pres = true) (h : s.fuse.opened = true) : confirmCode s v = 4 := by
  simp [confirmCode, hv, he, hs, hm, hp, h]

theorem confirmCode_of_allowed (hv : v = s.saf.check) (he : enabledSecond s = true) (hs : allStopped s (defined s) = true)
    (hm : s.saf.mode = 1) (hp : s.saf.pres = true) (h : s.fuse.opened = false) : confirmCode s v = 0 := by
  simp [confirmCode, hv, he, hs, hm, hp, h]

theorem confirmCmd_of_code {d : Nat} (hn : nodeMode s = false) (hd : d ≠ 0) (h : confirmCode s v = d) :
    confirmCmd o v s = replyAt18 o 15 d [] s := by
  rw [confirmCmd, needsCell_of_cell hn, h]
  cases d with
  | zero => exact absurd rfl hd
  | succ n => rfl

theorem confirmCmd_of_allowed (hn : nodeMode s = false) (h : confirmCode s v = 0) :
    confirmCmd o v s = onSaf (fun f => { f with confPend := f.confPend ++ [(o, v)] }) s := by
  rw [confirmCmd, needsCell_of_cell hn, h]
  rfl

/-- The record that a confirmation writes. -/
def confirmation (o : Origin) (v : Word) (s : State) : ConfRec :=
  { check := v, digest := s.image.digest % 2 ^ 64, serial := s.fuse.serial, tb := s.time.tb, count := s.saf.confCount + 1, key := o.key,
    crcOk := true }

/-- The device once the record of a confirmation stands in place of the older copy. -/
def confirmationStored (o : Origin) (v : Word) (q : List (Origin × Word)) (s : State) : State :=
  onSaf (fun f => { f with match_ := true, present := true, confCount := f.confCount + 1 })
    { (onSaf (fun f => { f with confPend := q }) s) with
      conf := updAt s.conf (olderCopy s) (fun _ => confirmation o v s),
      mem := confToMem s.mem (olderCopy s) (confirmation o v s) }

/-- The device once the write of a confirmation has failed: the older copy is spoilt. -/
def confirmationSpoilt (q : List (Origin × Word)) (s : State) : State :=
  { (onSaf (fun f => { f with confPend := q }) s) with
    conf := updAt s.conf (olderCopy s) (fun c => { c with crcOk := false }) }

theorem confirmationWriteDone_done {q : List (Origin × Word)} (h : s.saf.confPend = (o, v) :: q) :
    confirmationWriteDone true s = replyNow o 0 0 [] (event 0x0860 0 (confirmationStored o v q s)) := by
  simp only [confirmationWriteDone, h]
  rfl

theorem confirmationWriteDone_failed {q : List (Origin × Word)} (h : s.saf.confPend = (o, v) :: q) :
    confirmationWriteDone false s = replyNow o 15 4 [] (confirmationSpoilt q s) := by
  simp only [confirmationWriteDone, h]
  rfl

theorem only_confPart {ps : List Part} {s t : State} {x : List ConfRec} (h : .conf ∈ ps) :
    only ps s { t with conf := x } ↔ only ps s t :=
  only_iff_of_part .conf h (by rintro ⟨⟩ <;> simp [Part.same])

theorem only_confirmationSpoilt {q : List (Origin × Word)} : only [.conf, .saf] s (confirmationSpoilt q s) :=
  (only_confPart (by decide)).2 ((only_onSaf (by decide)).2 (only_refl _ s))

theorem only_confirmationStored {q : List (Origin × Word)} :
    only [.chip, .conf, .mem, .saf, .host] s (confirmationStored o v q s) :=
  (only_onSaf (by decide)).2 ((only_memPart (t := { (onSaf (fun f => { f with confPend := q }) s) with
    conf := updAt s.conf (olderCopy s) (fun _ => confirmation o v s) }) (by decide)).2
      ((only_confPart (by decide)).2 ((only_onSaf (by decide)).2 (only_refl _ s))))

theorem olderCopy_lt (s : State) : olderCopy s < 2 := by
  unfold olderCopy
  dsimp only
  split_ifs <;> decide

/-- A reply leaves the safety functions and the confirmation records. -/
theorem replyNow_saf (code detail : Nat) (body : List Byte) (u : State) : (replyNow o code detail body u).saf = u.saf :=
  (only_replyNow (ps := [.chip, .host]) (by decide) (by decide)).2 (only_refl _ u) .saf (by decide)
theorem replyNow_conf (code detail : Nat) (body : List Byte) (u : State) : (replyNow o code detail body u).conf = u.conf :=
  (only_replyNow (ps := [.chip, .host]) (by decide) (by decide)).2 (only_refl _ u) .conf (by decide)

end

/-! ### A reply while every plant port is down (R378) -/

/-- The plant ports are down, and the chip is as given. -/
def portsDownWith (c : ChipSt) (s : State) : Prop := (∀ p, p < 4 → (nth s.host.ports p).up = false) ∧ s.chip = c

theorem sendDev_of_down {p : Nat} {f : TxFrame} {s : State} (h : (nth s.host.ports p).up = false) : sendDev p f s = s := by
  simp [sendDev, h]

theorem sendNet_of_down {n : Nat} {f : TxFrame} {s : State} (h : ∀ p, p < 4 → (nth s.host.ports p).up = false) :
    sendNet n f s = s := by
  unfold sendNet
  split
  · rw [sendDev_of_down (h (2 * n) (by omega)), sendDev_of_down (h (2 * n + 1) (by omega))]
  · rfl

theorem portsDownWith_sendReply {c : ChipSt} {r : Reply} {s : State} (h : portsDownWith c s) : portsDownWith c (sendReply r s) := by
  have hsend (n : Net) (u : State) (hu : portsDownWith c u) : portsDownWith c (sendReplyOn r n u) := by
    have hx : sendReplyOn r n u = onHost (fun h => { h with sent := h.sent ++ [{ r with net := n }] }) u := sendNet_of_down hu.1
    rw [hx]
    exact hu
  have hmark : portsDownWith c (markDecided r (repliesOut s) s) := h
  unfold sendReply
  dsimp only
  split
  · exact forAll_preserves hsend _ hmark
  · exact hmark

/-- Settles O47, by the checks of each command. -/
theorem safetyCommands : Obligations.SafetyCommands := by
  unfold Obligations.SafetyCommands
  refine ⟨?_, fun o s => ?_, ?_, ?_, fun o k s hn hk => run_of_refusal (by decide) (modeCmd_of_unknown hn hk), ?_, ?_, ?_, ?_,
    fun b s h => run_of_unchanged (by simp [confirmationWriteDone, h])⟩
  · intro o m s h hm
    have hg := safG_of_updMask (m := m) (f := wantStop 17) (s := s)
      (t := onSaf (fun x => { x with g := updMask m (wantStop 17) x.g }) s) rfl
    exact ⟨_, run_of_quiet (stopCmd_of_named h hm) ⟨rfl, rfl, rfl⟩, hg.1, hg.2, rfl, rfl, ⟨rfl, rfl, rfl⟩,
      (only_accept (by decide)).2 (by simp)⟩
  · exact ⟨_, run_of_quiet (if_pos rfl) ⟨rfl, rfl, rfl⟩, rfl, ⟨rfl, rfl, rfl⟩, (only_accept (by decide)).2 (only_refl _ s)⟩
  · intro o m s h
    have hg := safG_of_updMask (m := m) (f := fun y => { y with ackEdge := true }) (s := s)
      (t := onSaf (fun x => { x with gack := m, g := updMask m (fun y => { y with ackEdge := true }) x.g }) s) rfl
    exact ⟨_, run_of_quiet (ackCmd_of_named h) ⟨rfl, rfl, rfl⟩, hg.1, hg.2, rfl, rfl, ⟨rfl, rfl, rfl⟩, by simp [awaitDecision]⟩
  · intro o k s hn hk
    exact ⟨_, run_of_quiet (modeCmd_of_known hn hk) ⟨rfl, rfl, rfl⟩, rfl, rfl, ⟨rfl, rfl, rfl⟩, by simp [awaitDecision]⟩
  · intro o v s hn hv he hs hm hp hf
    exact ⟨_, run_of_quiet (confirmCmd_of_allowed hn (confirmCode_of_allowed hv he hs hm hp hf)) ⟨rfl, rfl, rfl⟩, rfl,
      ⟨rfl, rfl, rfl⟩, by simp⟩
  · intro o v s hn
    have hrefused {d : Nat} (hd : d ≠ 0) (h : confirmCode s v = d) := run_of_refusal (by decide) (confirmCmd_of_code (o := o) hn hd h)
    exact ⟨fun hv => hrefused (by decide) (confirmCode_of_value hv),
      fun hv he => hrefused (by decide) (confirmCode_of_enabling hv he),
      fun hv he hs => hrefused (by decide) (confirmCode_of_moving hv he hs),
      fun hv he hs hm hp hf => hrefused (by decide) (confirmCode_of_opened hv he hs hm hp hf)⟩
  · intro o v q s h hlen
    have hx := confirmationWriteDone_done h
    refine ⟨_, rfl, ?_, ?_, ?_, ?_, fun hdown => ?_, (only_settle_iff (by decide)).2 ?_⟩
    · rw [settle_conf, hx, replyNow_conf, event_conf]
      exact nth_updAt_self _ _ _ (hlen ▸ olderCopy_lt s)
    · rw [settle_conf, hx, replyNow_conf, event_conf]
      exact onlyAt_updAt ..
    · rw [settle_saf, hx, replyNow_saf, event_saf]
      rfl
    · refine answered_settle ?_
      rw [hx]
      exact answered_replyNow rfl rfl fun _ => rfl
    · have hlog : logged 0x0860 0 s (confirmationWriteDone true s) := by
        rw [hx]
        have hports : portsDownWith (event 0x0860 0 (confirmationStored o v q s)).chip (event 0x0860 0 (confirmationStored o v q s)) :=
          ⟨hdown, rfl⟩
        exact logged_of_chip (portsDownWith_sendReply hports).2 (logged_event ⟨rfl, rfl, rfl⟩ rfl)
      exact logged_settle hlog
    · rw [hx]
      exact (only_replyNow (by decide) (by decide)).2 ((only_event (by decide)).2 only_confirmationStored)
  · intro o v q s h hlen
    have hx := confirmationWriteDone_failed h
    refine ⟨_, rfl, ?_, ?_, ?_, ?_, (only_settle_iff (by decide)).2 ?_⟩
    · rw [settle_conf, hx, replyNow_conf]
      exact nth_updAt_self _ _ _ (hlen ▸ olderCopy_lt s)
    · rw [settle_conf, hx, replyNow_conf]
      exact onlyAt_updAt ..
    · rw [settle_saf, hx, replyNow_saf]
      rfl
    · refine answered_settle ?_
      rw [hx]
      exact answered_replyNow rfl rfl fun _ => rfl
    · rw [hx]
      exact (only_replyNow (by decide) (by decide)).2 (only_mono (by decide) only_confirmationSpoilt)

end Sys2Proof.Machine

/-! PROOF. People: the pendant, the withdraw requests and the tools, and their obligation (R341 to R351). -/

namespace Sys2Proof.Machine

/-! ### Updates of a group of MOT -/

@[simp] theorem only_onGrp {ps : List Part} {g : Nat} {f : GroupSt → GroupSt} {s t : State} (h : .mot ∈ ps) :
    only ps s (onGrp g f t) ↔ only ps s t :=
  only_iff_of_part .mot h (by rintro ⟨⟩ <;> simp [Part.same])

theorem grpSt_onGrp {g : Nat} {f : GroupSt → GroupSt} {s : State} (h : g < s.mot.groups.length) :
    grpSt (onGrp g f s) g = f (grpSt s g) := nth_updAt_self _ _ _ h

theorem onlyAt_onGrp (g : Nat) (f : GroupSt → GroupSt) (s : State) : onlyAt g s.mot.groups (onGrp g f s).mot.groups :=
  onlyAt_updAt ..

/-- An update of each group of a list is one update of the table of groups. -/
theorem groups_forAll_onGrp (f : GroupSt → GroupSt) (gs : List Nat) (s : State) :
    (forAll gs (fun g => onGrp g f) s).mot.groups = gs.foldl (fun l g => updAt l g f) s.mot.groups := by
  induction gs generalizing s with
  | nil => rfl
  | cons g gs ih => exact ih (onGrp g f s)

theorem grpSt_forAll_onGrp {f : GroupSt → GroupSt} {gs : List Nat} {g : Nat} {s : State} (hd : gs.Nodup) (hg : g ∈ gs)
    (hl : g < s.mot.groups.length) : grpSt (forAll gs (fun g => onGrp g f) s) g = f (grpSt s g) := by
  rw [grpSt, groups_forAll_onGrp, nth_foldl_updAt hd, if_pos ⟨hg, hl⟩]
  rfl

/-! ### The pendant (R341, R342) -/

section
variable {k : Nat} {s : State}

/-- The pendant counts as present from now on, and its lines are sampled. -/
def penPresent (s : State) : State := samplePendant (onSaf (fun f => { f with pres := true, bridge := false, presLost := false }) s)

theorem pendantPresent_of_closed (hn : nodeMode s = false) (hp : s.saf.pres = false) (hk : s.saf.presSince = some k)
    (ht : k + 200000000 ≤ s.time.tb) : pendantPresent s = event 0x0870 0 (penPresent s) := by
  simp only [pendantPresent, hn, hp, hk, not_lt.2 ht]
  rfl

theorem pendantPresent_of_early (hk : s.saf.presSince = some k) (ht : s.time.tb < k + 200000000) : pendantPresent s = s := by
  simp only [pendantPresent, hk, ht]
  simp

theorem only_penPresent : only [.saf] s (penPresent s) := by simp [penPresent, samplePendant]

/-- Presence ends. -/
def penGone (f : SafSt) : SafSt := { f with pres := false, bridge := false, brleft := 0, presSince := none }

theorem pendantAbsent_of_lost (hp : s.saf.pres = true) (hl : (lineSt s 14).a = false) (hb : s.saf.bridge = false) :
    pendantAbsent s = event 0x0871 0 (demandStop (defined s) 16 (onSaf (fun f => { penGone f with presLost := true }) s)) := by
  simp only [pendantAbsent, hp, hl, hb]
  rfl

theorem pendantAbsent_of_bridged (hp : s.saf.pres = true) (hl : (lineSt s 14).a = false) (hb : s.saf.bridge = true) :
    pendantAbsent s = onSaf penGone s := by
  simp only [pendantAbsent, hp, hl, hb]
  rfl

/-- A demanded stop is noted with each group of the mask. -/
theorem stopReq_demandStop {m : Mask} {cause g : Nat} (hm : hasBit m g = true) (hg : g < s.saf.g.length) (hc : cause < 32) :
    hasBit (safG (demandStop m cause s) g).stopReq cause = true := by
  have hgroup : safG (demandStop m cause s) g = wantStop cause (safG s g) := by
    rw [demandStop_eq]
    exact (safG_of_updMask rfl).1 g hg hm
  rw [hgroup]
  simp [wantStop, hasBit, getLsbD_bitOf, hc]

end

/-! ### Withdraw requests and bridges (R343, R344) -/

section
variable {s : State}

/-- The request is over. -/
def requestEnded (s : State) : State := onSaf (fun f => { f with wdArmed := false }) s

theorem withdrawRequest_granted (hd : withdrawDue s = true) (hb : s.saf.bridge = false) (ho : withdrawOk s = true) :
    withdrawRequest s = event 0x0872 0 (onSaf (fun f => { f with bridge := true, brleft := 30000000000 }) (requestEnded s)) := by
  simp only [withdrawRequest, hd, hb, ho]
  rfl

theorem withdrawRequest_refused (hd : withdrawDue s = true) (hb : s.saf.bridge = false) (ho : withdrawOk s = false) :
    withdrawRequest s = event 0x0873 0 (requestEnded s) := by
  simp only [withdrawRequest, hd, hb, ho]
  rfl

theorem bridgeExpiry_of_due (hb : s.saf.bridge = true) (h0 : s.saf.brleft = 0) :
    bridgeExpiry s = onSaf (fun f => { f with bridge := false }) s := by
  simp [bridgeExpiry, hb, h0]

theorem bridgeExpiry_of_running (h : 0 < s.saf.brleft) : bridgeExpiry s = s := by
  simp [bridgeExpiry, Nat.ne_of_gt h]

end

/-! ### Tools (R349 to R351) -/

section
variable {g : Nat} {b : IdBlock} {s : State}

/-- Group g after a check of its tool with a result. -/
def checkedTool (res : Nat) (x : GroupSt) : GroupSt := { x with toolOk := res == 1, tres := res, toolWait := none }

/-- A check of a tool writes its result and raises its event. -/
theorem run_of_toolChecked {f : State → State} {res : Nat} (hx : f s = toolChecked g res s) (hg : g < s.mot.groups.length) :
    ∃ t, run f s = .next t ∧ grpSt t g = checkedTool res (grpSt s g) ∧ onlyAt g s.mot.groups t.mot.groups ∧
      logged (if res = 1 then 0x0530 else 0x0531) g s t ∧ only [.chip, .mot] s t := by
  have hl : logged (if res = 1 then 0x0530 else 0x0531) g s (toolChecked g res s) := logged_event ⟨rfl, rfl, rfl⟩ rfl
  exact ⟨_, run_of_logged hx hl, grpSt_onGrp hg, onlyAt_onGrp _ _ s, hl, by simp [toolChecked]⟩

theorem toolIdentity_of_waiting (hc : (grpSt s g).claimed = true) (hw : (grpSt s g).toolWait.isSome = true)
    (ht : (grpCfg s g).tsrc = 2) : toolIdentity g b s = toolChecked g (toolResult (grpCfg s g) (grpSt s g).toolDig b) s := by
  simp [toolIdentity, hc, hw, ht]

theorem toolResult_of_digest {c : GroupCfg} {dig : Nat} (h : b.digest ≠ dig) : toolResult c dig b = 3 := by
  simp [toolResult, h]

theorem toolResult_of_vendor {c : GroupCfg} {dig : Nat} (hd : b.digest = dig) (h : b.id.vendor ≠ c.toolId.vendor) :
    toolResult c dig b = 4 := by
  simp [toolResult, hd, h]

theorem toolResult_of_match {c : GroupCfg} {dig : Nat} (hd : b.digest = dig) (hv : b.id.vendor = c.toolId.vendor)
    (hp : b.id.product = c.toolId.product) (ht : b.id.toolType = c.toolId.toolType) (hh : c.toolId.hw ≤ b.id.hw)
    (hn : b.id.nax = c.toolId.nax) (hs : c.toolId.serial = 0 ∨ b.id.serial = c.toolId.serial) : toolResult c dig b = 1 := by
  simp [toolResult, hd, hv, hp, ht, hh, hn, hs]

theorem toolTimeout_of_late {k : Nat} (hk : (grpSt s g).toolWait = some k) (h : k + 64 < s.time.tickno) :
    toolTimeout g s = toolChecked g 2 s := by
  simp [toolTimeout, hk, h]

theorem toolTimeout_of_early {k : Nat} (hk : (grpSt s g).toolWait = some k) (h : s.time.tickno ≤ k + 64) : toolTimeout g s = s := by
  simp [toolTimeout, hk, not_lt.2 h]

/-- The groups whose tool is reached by a spare of node j of ring r. -/
def toolGroups (r j : Nat) (s : State) : List Nat :=
  (List.range 16).filter (fun g => (grpCfg s g).defined && (grpCfg s g).tsrc = 2 && (grpCfg s g).toolRing = r &&
    (((ringCfg s r).spares.filter (fun c => c.node = j)).map (fun c => c.id)).contains (grpCfg s g).toolSpare)

/-- Node j of a ring is a free spare, no member of it. -/
def spareFreed (j : Nat) (x : RingSt) : RingSt :=
  { x with
    members := x.members &&& ~~~ bitOf 32 j, silent := x.silent &&& ~~~ bitOf 32 j,
    nodes := updAt x.nodes j (fun n => { n with spare := false, joinNext := false, viaSpare := false, up := none }) }

/-- A group whose tool has gone. -/
def toolLost (x : GroupSt) : GroupSt := { x with claimed := false, toolOk := false, toolWait := none }

theorem spareRelease_of_silent {r j : Nat} (hm : isMaster s r = true) (hsp : (nodeSt s r j).spare = true)
    (hq : 32 ≤ (nodeSt s r j).quiet) :
    spareRelease r j s = forAll (toolGroups r j s) (fun g => onGrp g toolLost) (onRing r (spareFreed j) s) := by
  simp only [spareRelease, hm, hsp, hq]
  rfl

theorem mem_toolGroups {r j : Nat} {c : SpareCfg} (hg : g < 16) (hd : (grpCfg s g).defined = true) (ht : (grpCfg s g).tsrc = 2)
    (hr : (grpCfg s g).toolRing = r) (hc : c ∈ (ringCfg s r).spares) (hn : c.node = j) (hi : c.id = (grpCfg s g).toolSpare) :
    g ∈ toolGroups r j s := by
  have hid : (((ringCfg s r).spares.filter (fun c => c.node = j)).map (fun c => c.id)).contains (grpCfg s g).toolSpare = true :=
    List.contains_iff_mem.2 (List.mem_map.2 ⟨c, List.mem_filter.2 ⟨hc, decide_eq_true hn⟩, hi⟩)
  simp only [toolGroups, List.mem_filter, List.mem_range, hg, hd, ht, hr, hid, decide_true, Bool.and_self, and_self]

end

/-- Settles O34: each condition of the pendant, of a withdraw request and of a tool decides its own command. -/
theorem pendantAndTools : Obligations.PendantAndTools := by
  unfold Obligations.PendantAndTools
  refine ⟨?_, fun k s hk ht => run_of_unchanged (pendantPresent_of_early hk ht), ?_, ?_, ?_, ?_,
    fun s h => run_of_unchanged (by simp [withdrawRequest, h]), ?_, fun s h => run_of_unchanged (bridgeExpiry_of_running h), ?_,
    fun g b s h => run_of_unchanged (by simp [toolIdentity, h]), ?_, fun g k s hk ht => run_of_unchanged (toolTimeout_of_early hk ht),
    ?_⟩
  · intro k s hn hp hk ht
    have hl : logged 0x0870 0 s (event 0x0870 0 (penPresent s)) := logged_event ⟨rfl, rfl, rfl⟩ rfl
    exact ⟨_, run_of_logged (pendantPresent_of_closed hn hp hk ht) hl, rfl, rfl, rfl, rfl, hl,
      (only_event (by decide)).2 (only_mono (by decide) only_penPresent)⟩
  · intro s hp hl hb
    have hlog : logged 0x0871 0 s (event 0x0871 0
        (demandStop (defined s) 16 (onSaf (fun f => { penGone f with presLost := true }) s))) := by
      rw [demandStop_eq]
      exact logged_event ⟨rfl, rfl, rfl⟩ rfl
    refine ⟨_, run_of_logged (pendantAbsent_of_lost hp hl hb) hlog, ?_, ?_, fun g hg h16 hd => ?_, hlog, by simp⟩
    · rw [event_saf, demandStop_eq]
      rfl
    · rw [event_saf, demandStop_eq]
      rfl
    · exact stopReq_demandStop (s := onSaf (fun f => { penGone f with presLost := true }) s) ((hasBit_defined h16).trans hd) hg
        (by decide)
  · intro s hp hl hb
    exact ⟨_, run_of_quiet (pendantAbsent_of_bridged hp hl hb) ⟨rfl, rfl, rfl⟩, rfl, rfl, rfl, rfl, ⟨rfl, rfl, rfl⟩, by simp⟩
  · intro s hd hb ho
    have hl : logged 0x0872 0 s (event 0x0872 0
        (onSaf (fun f => { f with bridge := true, brleft := 30000000000 }) (requestEnded s))) := logged_event ⟨rfl, rfl, rfl⟩ rfl
    exact ⟨_, run_of_logged (withdrawRequest_granted hd hb ho) hl, rfl, rfl, rfl, hl, by simp [requestEnded]⟩
  · intro s hd hb ho
    have hl : logged 0x0873 0 s (event 0x0873 0 (requestEnded s)) := logged_event ⟨rfl, rfl, rfl⟩ rfl
    exact ⟨_, run_of_logged (withdrawRequest_refused hd hb ho) hl, rfl, hl, by simp [requestEnded]⟩
  · intro s hb h0
    exact ⟨_, run_of_quiet (bridgeExpiry_of_due hb h0) ⟨rfl, rfl, rfl⟩, rfl, ⟨rfl, rfl, rfl⟩, by simp⟩
  · intro g b s hg hc hw ht
    have hx := toolIdentity_of_waiting (b := b) hc hw ht
    refine ⟨fun hd hv hp hty hh hn hs => ?_, fun hd => ?_, fun hd hv => ?_⟩
    · rw [toolResult_of_match hd hv hp hty hh hn hs] at hx
      exact run_of_toolChecked hx hg
    · rw [toolResult_of_digest hd] at hx
      exact run_of_toolChecked hx hg
    · rw [toolResult_of_vendor hd hv] at hx
      exact run_of_toolChecked hx hg
  · intro g k s hg hk ht
    exact run_of_toolChecked (toolTimeout_of_late hk ht) hg
  · intro r j s hup hr hj hj32 hm hsp hq
    have hall : only [.mot] (onRing r (spareFreed j) s)
        (forAll (toolGroups r j s) (fun g => onGrp g toolLost) (onRing r (spareFreed j) s)) :=
      (only_forAll fun g u => (only_onGrp (by decide)).2 (only_refl _ u)).2 (only_refl _ _)
    have hring := hall .ring (by decide)
    have hqu : quiet s (forAll (toolGroups r j s) (fun g => onGrp g toolLost) (onRing r (spareFreed j) s)) :=
      quiet_of_chip (hall .chip (by decide))
    have hst : ringSt (forAll (toolGroups r j s) (fun g => onGrp g toolLost) (onRing r (spareFreed j) s)) r =
        spareFreed j (ringSt s r) := by
      rw [ringSt, hring]
      exact ringSt_onRing hr _
    refine ⟨_, (runIn_of_up hup).trans (run_of_quiet (spareRelease_of_silent hm hsp hq) hqu), ?_, ?_,
      fun g c h16 hg hd ht htr hc hn hi => ?_, ?_, hqu, only_trans (by simp) (only_mono (by decide) hall)⟩
    · rw [nodeSt, hst]
      exact congrArg NodeSt.spare (nth_updAt_self _ _ _ hj)
    · rw [hst]
      exact hasBit_andNot_bitOf _
    · have hnodup : (toolGroups r j s).Nodup := List.nodup_range.filter _
      rw [grpSt_forAll_onGrp (s := onRing r (spareFreed j) s) hnodup (mem_toolGroups h16 hd ht htr hc hn hi) hg]
      exact ⟨rfl, rfl⟩
    · rw [hring]
      exact onlyAt_updAt ..

end Sys2Proof.Machine

/-! PROOF. WorkQueues: where an item with a handle is, what an enqueue does, and the obligation on the work queues (R358, R360). -/

namespace Sys2Proof.Machine

/-! ### The item with a handle -/

theorem find?_of_unique {α : Type} {p : α → Bool} {x : α} {l : List α} (hu : ∀ y ∈ l, p y = true → y = x) (hx : x ∈ l)
    (hp : p x = true) : l.find? p = some x := by
  cases h : l.find? p with
  | none => exact absurd hp (List.find?_eq_none.1 h x hx)
  | some y => rw [hu y (List.mem_of_find?_eq_some h) (List.find?_some h)]

/-- Item i is the only one with its handle, and it is pending or in service. -/
structure Holds (i : Item) (s : State) : Prop where
  pending : ∀ j ∈ s.host.items, j.handle = i.handle → j = i
  served : ∀ c j, (coreSt s c).item = some j → j.handle = i.handle → j = i
  found : i ∈ s.host.items ∨ ∃ c < s.host.cores.length, (coreSt s c).item = some i

theorem coreSt_getElem {s : State} {c : Nat} (h : c < s.host.cores.length) : s.host.cores[c] = coreSt s c :=
  (List.getD_eq_getElem _ _ h).symm

theorem itemOf_of_holds {i : Item} {s : State} (h : Holds i s) : itemOf s i.handle = some i := by
  have hserved (j : Item) (hj : j ∈ s.host.cores.filterMap (fun k => k.item)) (he : (j.handle == i.handle) = true) : j = i := by
    obtain ⟨k, hk, hi⟩ := List.mem_filterMap.1 hj
    obtain ⟨c, hc, rfl⟩ := List.mem_iff_getElem.1 hk
    exact h.served c j ((congrArg CoreSt.item (coreSt_getElem hc)).symm.trans hi) (beq_iff_eq.1 he)
  by_cases hin : i ∈ s.host.items
  · rw [itemOf, find?_of_unique (x := i) (fun j hj he => h.pending j hj (beq_iff_eq.1 he)) hin (beq_self_eq_true _)]
  · obtain ⟨c, hc, hi⟩ := h.found.resolve_left hin
    have hnone : s.host.items.find? (fun j => j.handle == i.handle) = none :=
      List.find?_eq_none.2 fun j hj he => hin (h.pending j hj (beq_iff_eq.1 he) ▸ hj)
    have hmem : i ∈ s.host.cores.filterMap (fun k => k.item) :=
      List.mem_filterMap.2 ⟨s.host.cores[c], List.getElem_mem hc, (congrArg CoreSt.item (coreSt_getElem hc)).trans hi⟩
    rw [itemOf, hnone]
    exact find?_of_unique hserved hmem (beq_self_eq_true _)

/-! ### A dispatch -/

section
variable {i j : Item} {c now : Nat} {s : State}

theorem placeItem_items : (placeItem j c now s).host.items = s.host.items.filter (fun k => k.handle != j.handle) := by
  simp only [placeItem, trace_items]
  rfl

/-- A dispatch gives core c the item, and leaves the figures of the core's last commit. -/
theorem placeItem_cores : ∃ f : CoreSt → CoreSt, (placeItem j c now s).host.cores = updAt s.host.cores c f ∧
    ∀ k, (f k).item = some j ∧ (f k).enqValid = k.enqValid ∧ (f k).enqResult = k.enqResult ∧ (f k).enqHandle = k.enqHandle := by
  simp only [placeItem, trace_cores]
  exact ⟨_, rfl, fun k => ⟨rfl, rfl, rfl, rfl⟩⟩

theorem placeItem_cores_length : (placeItem j c now s).host.cores.length = s.host.cores.length := by
  obtain ⟨f, hf, -⟩ := placeItem_cores (j := j) (c := c) (now := now) (s := s)
  rw [hf, updAt_length]

theorem placeItem_item (d : Nat) : (coreSt (placeItem j c now s) d).item =
    if d = c ∧ c < s.host.cores.length then some j else (coreSt s d).item := by
  obtain ⟨f, hf, hitem⟩ := placeItem_cores (j := j) (c := c) (now := now) (s := s)
  rw [coreSt, hf, nth_updAt]
  split
  · exact (hitem _).1
  · rfl

/-- The result that a commit left with a core. -/
def enqueued (s : State) (c : Nat) : Bool × Nat × Nat :=
  ((coreSt s c).enqValid, (coreSt s c).enqResult, (coreSt s c).enqHandle)

theorem placeItem_enqueued (d : Nat) : enqueued (placeItem j c now s) d = enqueued s d := by
  obtain ⟨f, hf, hkept⟩ := placeItem_cores (j := j) (c := c) (now := now) (s := s)
  have hx (k : CoreSt) : ((f k).enqValid, (f k).enqResult, (f k).enqHandle) = (k.enqValid, k.enqResult, k.enqHandle) := by
    obtain ⟨-, hvalid, hresult, hhandle⟩ := hkept k
    rw [hvalid, hresult, hhandle]
  simp only [enqueued, coreSt, hf]
  exact nth_updAt_same (P := fun k : CoreSt => (k.enqValid, k.enqResult, k.enqHandle)) hx _ _ _

theorem placeItem_timerNext (f : Nat) : (flowSt (placeItem j c now s) f).timerNext = (flowSt s f).timerNext := by
  simp only [flowSt, placeItem, trace_flows, onFlow_host, onCore_host, onHost_host]
  exact nth_updAt_same (P := FlowSt.timerNext) (f := fun x => { x with disp := satAdd 0xFFFFFFFF x.disp 1 }) (fun _ => rfl) _ _ _

/-- A dispatch of a pending item on an idle core moves it there. -/
theorem holds_placeItem (h : Holds i s) (hj : j ∈ s.host.items) (hc : c < s.host.cores.length) (hidle : (coreSt s c).item = none) :
    Holds i (placeItem j c now s) := by
  refine ⟨fun k hk => h.pending k ?_, fun d k hk hh => ?_, ?_⟩
  · rw [placeItem_items] at hk
    exact List.mem_of_mem_filter hk
  · rw [placeItem_item] at hk
    split at hk
    · cases hk
      exact h.pending j hj hh
    · exact h.served d k hk hh
  · by_cases hji : j.handle = i.handle
    · refine .inr ⟨c, lt_of_lt_of_eq hc placeItem_cores_length.symm, ?_⟩
      rw [placeItem_item, if_pos ⟨rfl, hc⟩, h.pending j hj hji]
    · rcases h.found with hin | ⟨d, hd, hi⟩
      · refine .inl ?_
        rw [placeItem_items]
        exact List.mem_filter.2 ⟨hin, bne_iff_ne.2 (Ne.symm hji)⟩
      · have hne : d ≠ c := by
          rintro rfl
          rw [hidle] at hi
          cases hi
        refine .inr ⟨d, lt_of_lt_of_eq hd placeItem_cores_length.symm, ?_⟩
        rw [placeItem_item, if_neg fun hx => hne hx.1, hi]

end

/-! ### The scheduler places pending items on idle cores -/

theorem chooseItem_mem {l : List Item} {i : Item} (h : chooseItem l = some i) : i ∈ l := by
  have hfold (l : List Item) (o : Option Item) (i : Item) (h : l.foldl (fun o i => match o with
      | none => some i
      | some j => if i.deadline < j.deadline || (i.deadline == j.deadline && i.flow < j.flow) then some i else some j) o = some i) :
      i ∈ l ∨ o = some i := by
    induction l generalizing o with
    | nil => exact .inr h
    | cons x l ih =>
      rcases ih _ h with hl | ho
      · exact .inl (List.mem_cons_of_mem _ hl)
      · cases o with
        | none => exact .inl (by cases ho; exact List.mem_cons_self)
        | some j =>
          dsimp only at ho
          split at ho
          · exact .inl (by cases ho; exact List.mem_cons_self)
          · exact .inr ho
  exact (hfold l none i h).resolve_right (by simp)

theorem idle_of_idleCore {s : State} {f c : Nat} (h : idleCore s f = some c) : c < 8 ∧ (coreSt s c).item = none := by
  have hidle : idle s c = true := List.find?_some h
  have hmem : c ∈ bitsOf (flowCores s f) := List.mem_of_find?_eq_some h
  simp only [idle, Bool.and_eq_true, Option.isNone_iff_eq_none] at hidle
  obtain ⟨⟨⟨-, hitem⟩, -⟩, -⟩ := hidle
  exact ⟨List.mem_range.1 (List.mem_of_mem_filter hmem), hitem⟩

/-- What each dispatch of a pending item on an idle core preserves, the scheduler preserves. -/
theorem schedule_places {P : State → Prop} {now : Nat}
    (h : ∀ i c t, P t → i ∈ t.host.items → c < 8 → (coreSt t c).item = none → P (placeItem i c now t)) {s : State} (hs : P s) :
    P (schedule now s) := by
  have hn (n : Nat) : P (scheduleN n now s) := by
    induction n generalizing s with
    | zero => exact hs
    | succ n ih =>
      unfold scheduleN
      split
      · exact hs
      · next i hi =>
        split
        · next c hc =>
          obtain ⟨hc8, hitem⟩ := idle_of_idleCore hc
          exact ih (h _ _ _ hs (List.mem_of_mem_filter (chooseItem_mem hi)) hc8 hitem)
        · exact hs
  exact hn 8

theorem holds_schedule {i : Item} {now : Nat} {s : State} (h : Holds i s) (hlen : s.host.cores.length = 8) :
    Holds i (schedule now s) :=
  (schedule_places (P := fun t => Holds i t ∧ t.host.cores.length = 8) (fun _ _ _ ht hj hc hitem =>
    ⟨holds_placeItem ht.1 hj (ht.2.symm ▸ hc) hitem, placeItem_cores_length.trans ht.2⟩) ⟨h, hlen⟩).1

theorem schedule_enqueued (now : Nat) (s : State) (d : Nat) : enqueued (schedule now s) d = enqueued s d :=
  schedule_preserves (P := fun t => enqueued t d = enqueued s d) (fun _ _ _ ht => (placeItem_enqueued d).trans ht) rfl

theorem schedule_timerNext (now : Nat) (s : State) (f : Nat) : (flowSt (schedule now s) f).timerNext = (flowSt s f).timerNext :=
  schedule_preserves (P := fun t => (flowSt t f).timerNext = (flowSt s f).timerNext)
    (fun _ _ _ ht => (placeItem_timerNext f).trans ht) rfl

/-! ### An item that is added (R360) -/

section
variable {i : Item} {h : Nat} {s t : State}

/-- No item has handle h. -/
def Fresh (h : Nat) (s : State) : Prop :=
  (∀ j ∈ s.host.items, j.handle ≠ h) ∧ ∀ c j, (coreSt s c).item = some j → j.handle ≠ h

theorem fresh_of_freeHandle (hf : freeHandle s = some h) : Fresh h s := by
  have hunused : h ∉ usedHandles s := by
    have hp := List.find?_some hf
    simpa using hp
  refine ⟨fun j hj he => hunused (List.mem_append_left _ (List.mem_map.2 ⟨j, hj, he⟩)), fun c j hj he => hunused ?_⟩
  have hc : c < s.host.cores.length := by
    by_contra hc
    have hnone : coreSt s c = default := List.getD_eq_default _ _ (not_lt.1 hc)
    rw [hnone] at hj
    cases hj
  refine List.mem_append_right _ (List.mem_filterMap.2 ⟨s.host.cores[c], List.getElem_mem hc, ?_⟩)
  rw [coreSt_getElem hc, hj, ← he]
  rfl

theorem addItem_items : (addItem i s).host.items = s.host.items ++ [{ i with order := s.host.order }] := by
  simp [addItem]

theorem addItem_cores : (addItem i s).host.cores = s.host.cores := by simp [addItem]

theorem addItem_flows : (addItem i s).host.flows = s.host.flows := by simp [addItem]

@[simp] theorem only_addItem {ps : List Part} (hc : .chip ∈ ps) (hh : .host ∈ ps) :
    only ps s (addItem i t) ↔ only ps s t := by simp [addItem, hc, hh]

@[simp] theorem only_refuseItem {ps : List Part} {f r d : Nat} (hc : .chip ∈ ps) (hh : .host ∈ ps) :
    only ps s (refuseItem f r d t) ↔ only ps s t := by simp [refuseItem, hc, hh]

theorem holds_addItem (hf : Fresh i.handle s) : Holds { i with order := s.host.order } (addItem i s) := by
  obtain ⟨hpending, hserved⟩ := hf
  refine ⟨fun j hj he => ?_, fun c j hj he => ?_, .inl ?_⟩
  · rw [addItem_items, List.mem_append, List.mem_singleton] at hj
    exact hj.resolve_left fun hj => hpending j hj he
  · rw [coreSt, addItem_cores] at hj
    exact absurd he (hserved c j hj)
  · rw [addItem_items]
    exact List.mem_append_right _ (List.mem_singleton.2 rfl)

theorem freeHandle_congr (hi : t.host.items = s.host.items) (hc : t.host.cores = s.host.cores) : freeHandle t = freeHandle s := by
  simp only [freeHandle, usedHandles, hi, hc]

/-- The RESULT of a commit depends on the image, the items, the cores and whether the flow is enabled. -/
theorem enqResult_congr {f : Nat} (him : t.image = s.image) (hi : t.host.items = s.host.items) (hc : t.host.cores = s.host.cores)
    (hen : (flowSt t f).en = (flowSt s f).en) (fw : Bool) (dl rl : Nat) : enqResult t fw f dl rl = enqResult s fw f dl rl := by
  have hcfg (k : Nat) : flowCfg t k = flowCfg s k := by simp only [flowCfg, him]
  have hpend (k : Nat) : pendOf t k = pendOf s k := by simp only [pendOf, hi]
  have hbusy (k : Nat) : flowBusy t k = flowBusy s k := by simp only [flowBusy, hc]
  have hroom : noRoom t = noRoom s := by
    simp only [noRoom, usedHandles, flowsOf, hi, hc, him, hcfg, hpend, hbusy]
    rfl
  simp only [enqResult, hcfg, hroom, hen, hpend]

/-- The RESULT that firmware gets. -/
theorem enqResult_firmware (f dl rl : Nat) : enqResult s true f dl rl =
    (if (flowCfg s f).type ≠ 1 then 4 else if noRoom s then 1 else if (flowSt s f).en = false then 2
     else if (flowCfg s f).maxpend ≤ (pendOf s f).length then 3 else if dl < rl then 5 else 0) := by
  simp only [enqResult, if_true, bne_iff_ne, Bool.not_eq_true']

end

/-! ### An item that the device enqueues (R358) -/

section
variable {f arg dl rl h now : Nat} {s : State}

/-- The item that is enqueued. -/
def newItem (h f : Nat) (arg : Word) (dl rl : Nat) (s : State) : Item :=
  { handle := h, flow := f, arg := arg, deadline := dl, release := rl, order := s.host.order }

theorem deviceItem_accepted (hr : enqResult s false f dl rl = 0) (hf : freeHandle s = some h) : deviceItem f arg dl rl s =
    addItem { handle := h, flow := f, arg := BitVec.ofNat 32 arg, deadline := dl, release := rl } s := by
  simp only [deviceItem, hr, hf]

/-- An item that is accepted is there after the scheduler has run. -/
theorem itemOf_deviceItem (hr : enqResult s false f dl rl = 0) (hf : freeHandle s = some h) (hlen : s.host.cores.length = 8) :
    itemOf (schedule now (deviceItem f arg dl rl s)) h = some (newItem h f (BitVec.ofNat 32 arg) dl rl s) := by
  rw [deviceItem_accepted hr hf]
  exact itemOf_of_holds (holds_schedule (holds_addItem (fresh_of_freeHandle hf)) ((congrArg List.length addItem_cores).trans hlen))

@[simp] theorem only_deviceItem {ps : List Part} {t : State} (hc : .chip ∈ ps) (hh : .host ∈ ps) :
    only ps s (deviceItem f arg dl rl t) ↔ only ps s t := by
  unfold deviceItem
  split
  · exact only_addItem hc hh
  · exact only_refuseItem hc hh

theorem deviceItem_timerNext (hr : enqResult s false f dl rl = 0) (hf : freeHandle s = some h) (k : Nat) :
    (flowSt (deviceItem f arg dl rl s) k).timerNext = (flowSt s k).timerNext := by
  rw [deviceItem_accepted hr hf, flowSt, addItem_flows, flowSt]

end

/-! ### ENQUEUE, TIMER_ENQUEUE and BOUND_ENQUEUE (R358, R360) -/

theorem advanceTb_image (a : Nat) (s : State) : (advanceTb a s).image = s.image :=
  (only_advanceTb (ps := [.time]) (by decide)).2 (only_refl _ s) .image (by decide)

section
variable {c now f dl rl h : Nat} {s : State}

/-- Core c at its commit: the result and the handle of the item. -/
def answeredCore (r h : Nat) (k : CoreSt) : CoreSt := { k with enqValid := true, enqResult := r, enqHandle := h }

theorem enqueued_onCore (hc : c < s.host.cores.length) (r h : Nat) : enqueued (onCore c (answeredCore r h) s) c = (true, r, h) := by
  have hk : coreSt (onCore c (answeredCore r h) s) c = answeredCore r h (coreSt s c) := nth_updAt_self _ _ _ hc
  rw [enqueued, hk]
  rfl

/-- A commit's answer leaves the items of the cores. -/
theorem fresh_onCore (hf : Fresh h s) (r k : Nat) : Fresh h (onCore c (answeredCore r k) s) := by
  obtain ⟨hpending, hserved⟩ := hf
  refine ⟨hpending, fun d j hj => hserved d j ?_⟩
  exact (nth_updAt_same (P := CoreSt.item) (f := answeredCore r k) (fun _ => rfl) s.host.cores c d).symm.trans hj

theorem fresh_congr {t : State} (hf : Fresh h s) (ht : t.host = s.host) : Fresh h t := by
  simpa only [Fresh, coreSt, ht] using hf

theorem itemOf_congr {t : State} (ht : t.host = s.host) : itemOf t h = itemOf s h := by simp only [itemOf, ht]

theorem enqueued_congr {t : State} (h : t.host.cores = s.host.cores) : enqueued t c = enqueued s c := by
  simp only [enqueued, coreSt, h]

theorem refuseItem_host (f r d : Nat) (s : State) :
    (refuseItem f r d s).host.items = s.host.items ∧ (refuseItem f r d s).host.cores = s.host.cores := by
  unfold refuseItem
  dsimp only
  split <;> simp

/-- The deadline and the release time that a core's words name, with the defaults of 0. -/
def commitTime (lo hi dflt : Nat) : Nat := if lo + hi * 2 ^ 32 = 0 then dflt else lo + hi * 2 ^ 32

/-- The item of a core's commit. -/
def commitItem (c h f dl rl : Nat) (s : State) : Item :=
  { handle := h, flow := f, arg := nth (coreSt s c).enq 1, deadline := dl, release := rl, ptr := nth (coreSt s c).enq 6 }

section
variable (hf : f = (nth (coreSt s c).enq 0).toNat % 1024)
  (hdl : dl = commitTime (nth (coreSt s c).enq 2).toNat (nth (coreSt s c).enq 3).toNat (now + (flowCfg s f).reldl))
  (hrl : rl = commitTime (nth (coreSt s c).enq 4).toNat (nth (coreSt s c).enq 5).toNat now)
include hf hdl hrl

theorem enqueue_eq : enqueue c now s =
    match enqResult (advanceTb now s) true f dl rl, freeHandle (advanceTb now s) with
    | 0, some h => acked (schedule now (addItem (commitItem c h f dl rl (onCore c (answeredCore 0 h) (advanceTb now s)))
        (onCore c (answeredCore 0 h) (advanceTb now s))))
    | r, _ => acked (refuseItem f r dl (onCore c (answeredCore r 0) (advanceTb now s))) := by
  subst hf hdl hrl
  rfl

theorem enqueue_accepted (hr : enqResult s true f dl rl = 0) (hh : freeHandle s = some h) : enqueue c now s =
    acked (schedule now (addItem (commitItem c h f dl rl (onCore c (answeredCore 0 h) (advanceTb now s)))
      (onCore c (answeredCore 0 h) (advanceTb now s)))) := by
  have hhost := advanceTb_host now s
  rw [enqueue_eq hf hdl hrl, enqResult_congr (advanceTb_image now s) (by rw [hhost]) (by rw [hhost]) (by rw [flowSt, hhost, flowSt]), hr,
    freeHandle_congr (t := advanceTb now s) (s := s) (by rw [hhost]) (by rw [hhost]), hh]
  rfl

theorem enqueue_refused (hr : enqResult s true f dl rl ≠ 0 ∨ freeHandle s = none) : enqueue c now s =
    acked (refuseItem f (enqResult s true f dl rl) dl (onCore c (answeredCore (enqResult s true f dl rl) 0) (advanceTb now s))) := by
  have hhost := advanceTb_host now s
  rw [enqueue_eq hf hdl hrl, enqResult_congr (advanceTb_image now s) (by rw [hhost]) (by rw [hhost]) (by rw [flowSt, hhost, flowSt]),
    freeHandle_congr (t := advanceTb now s) (s := s) (by rw [hhost]) (by rw [hhost])]
  split
  · next h0 hsome => exact absurd hr (by simp [h0, hsome])
  · rfl

end

/-- A timer flow enqueues the item of period m at its instant. -/
theorem timerEnqueue_due {m : Nat} (ht : (flowCfg s f).type = 1) (hp : (flowCfg s f).tperiod ≠ 0) (hrun : s.time.run = true)
    (hm : (flowSt s f).timerNext ≤ m) (hm32 : m < 2 ^ 32) : timerEnqueue f m s =
      schedule (s.time.tstart + m * (flowCfg s f).tperiod) (deviceItem f m
        (s.time.tstart + m * (flowCfg s f).tperiod + (flowCfg s f).reldl) (s.time.tstart + m * (flowCfg s f).tperiod)
        (advanceTb (s.time.tstart + m * (flowCfg s f).tperiod) (onFlow f (fun x => { x with timerNext := m + 1 }) s))) := by
  have hmod : m % 4294967296 = m := Nat.mod_eq_of_lt hm32
  simp [timerEnqueue, ht, hp, hrun, not_lt.2 hm, hmod]

theorem timerEnqueue_other {m : Nat} (h : m < (flowSt s f).timerNext ∨ (flowCfg s f).tperiod = 0 ∨ s.time.run = false) :
    timerEnqueue f m s = s := by
  rcases h with h | h | h <;> simp [timerEnqueue, h]

/-- A bound flow without an item enqueues one with its event code and the raises. -/
theorem boundEnqueue_due {n : Nat} (ht : (flowCfg s f).type = 3) (hb : 32 ≤ (flowCfg s f).bind)
    (hn : assoc s.chip.bound f = some n) (hp : pendOf s f = []) : boundEnqueue f now s =
      schedule now (deviceItem f ((flowCfg s f).bind + 65536 * min 0xFFFF n) (now + (flowCfg s f).reldl) now
        (advanceTb now (onChip (fun x => { x with bound := assocDel x.bound f }) s))) := by
  have hpend : pendOf (advanceTb now (onChip (fun x => { x with bound := assocDel x.bound f }) s)) f = [] := by
    rw [pendOf, advanceTb_host]
    exact hp
  simp [boundEnqueue, ht, hn, not_lt.2 hb, hpend]

theorem boundEnqueue_other (h : (flowCfg s f).type ≠ 3 ∨ assoc s.chip.bound f = none) : boundEnqueue f now s = s := by
  rcases h with h | h <;> simp [boundEnqueue, h]

end

/-- Settles O35: a commit or an enqueue of the device by its RESULT, and the item that the scheduler then finds. -/
theorem workQueues : Obligations.WorkQueues := by
  unfold Obligations.WorkQueues
  refine ⟨?_, ?_, fun f m s h => runIn_of_unchanged (timerEnqueue_other h), ?_,
    fun f now s h => runIn_of_unchanged (boundEnqueue_other h)⟩
  · intro c now f dl rl s hreg hc htl hf hdl hrl
    have hrun : exec (.enqueue c now) s = .next (settle s (enqueue c now s)) := by
      have hstore : storeBy (.core c) now (enqueue c now) s = enqueue c now s := by simp [storeBy, htl]
      exact (runAcc_of_running hreg).trans (congrArg (fun t => Host.Outcome.next (settle s t)) hstore)
    have hlen : c < (advanceTb now s).host.cores.length := by rwa [advanceTb_host]
    have hresult := enqResult_firmware (s := s) f dl rl
    by_cases hr : enqResult s true f dl rl ≠ 0 ∨ freeHandle s = none
    · have hx := enqueue_refused (now := now) hf hdl hrl hr
      obtain ⟨hitems, hcores⟩ := refuseItem_host f (enqResult s true f dl rl) dl
        (onCore c (answeredCore (enqResult s true f dl rl) 0) (advanceTb now s))
      have hhost : (settle s (enqueue c now s)).host.cores =
          (onCore c (answeredCore (enqResult s true f dl rl) 0) (advanceTb now s)).host.cores := by
        rw [settle_host, hx]
        exact hcores
      have hleft := (enqueued_congr (c := c) hhost).trans (enqueued_onCore hlen _ 0)
      have hcode : (coreSt (settle s (enqueue c now s)) c).enqResult = enqResult s true f dl rl := (congrArg (·.2.1) hleft :)
      refine ⟨_, hrun, ?_, congrArg (·.1) hleft, hcode.trans hresult, fun _ => ?_, fun h h0 hh => ?_, ?_⟩
      · rw [hx, settle_resp]; rfl
      · rw [hx, settle_host]
        exact hitems.trans (congrArg HostSt.items (advanceTb_host now s) :)
      · exact absurd hr (by simp [← hcode, h0, hh])
      · rw [hx, only_settle_iff (by decide)]
        simp
    · obtain ⟨hr, hsome⟩ := not_or.1 hr
      obtain ⟨h, hh⟩ := Option.ne_none_iff_exists'.1 hsome
      have hr := not_not.1 hr
      have hx := enqueue_accepted (now := now) hf hdl hrl hr hh
      obtain ⟨u, hu⟩ : ∃ u, u = onCore c (answeredCore 0 h) (advanceTb now s) := ⟨_, rfl⟩
      have hfresh : Fresh h u := by
        rw [hu]
        exact fresh_onCore (fresh_congr (fresh_of_freeHandle hh) (advanceTb_host now s)) 0 h
      rw [← hu] at hx
      have hhost : (settle s (enqueue c now s)).host = (schedule now (addItem (commitItem c h f dl rl u) u)).host := by
        rw [settle_host, hx]
        rfl
      have hleft : enqueued (settle s (enqueue c now s)) c = (true, 0, h) := by
        rw [enqueued_congr (congrArg HostSt.cores hhost), schedule_enqueued, enqueued_congr addItem_cores, hu, enqueued_onCore hlen]
      have hcode : (coreSt (settle s (enqueue c now s)) c).enqResult = 0 := (congrArg (·.2.1) hleft :)
      refine ⟨_, hrun, ?_, congrArg (·.1) hleft, (hcode.trans hr.symm).trans hresult, fun h0 => absurd hcode h0,
        fun k _ hk h8 => ?_, ?_⟩
      · rw [hx, settle_resp]; rfl
      · cases hh.symm.trans hk
        have hcores : u.host.cores.length = 8 := by
          rw [hu]
          exact (updAt_length ..).trans ((congrArg (fun x : HostSt => x.cores.length) (advanceTb_host now s)).trans h8)
        have hitem := itemOf_of_holds (holds_schedule (now := now) (holds_addItem (i := commitItem c h f dl rl u) hfresh)
          ((congrArg List.length addItem_cores).trans hcores))
        refine ⟨(congrArg (·.2.2) hleft :), { commitItem c h f dl rl u with order := u.host.order }, ?_, rfl, rfl, rfl, ?_⟩
        · exact (itemOf_congr hhost).trans hitem
        · have henq : (coreSt u c).enq = (coreSt s c).enq := by
            rw [hu]
            refine (congrArg CoreSt.enq (nth_updAt_self _ _ _ hlen)).trans ?_
            exact (congrArg (fun x : HostSt => (nth x.cores c).enq) (advanceTb_host now s) :)
          exact congrArg (nth · 1) henq
      · rw [hx, only_settle_iff (by decide), hu]
        simp
  · intro f m h s hup hf h8 ht hp hrun hm hm32 hr hh
    have hx := timerEnqueue_due ht hp hrun hm hm32
    obtain ⟨u, hu⟩ : ∃ u, u = advanceTb (s.time.tstart + m * (flowCfg s f).tperiod) (onFlow f (fun x => { x with timerNext := m + 1 }) s) :=
      ⟨_, rfl⟩
    rw [← hu] at hx
    have hhost : u.host = (onFlow f (fun x => { x with timerNext := m + 1 }) s).host := by rw [hu, advanceTb_host]
    have hen : (flowSt u f).en = (flowSt s f).en := by
      rw [flowSt, hhost]
      exact nth_updAt_same (P := FlowSt.en) (f := fun x => { x with timerNext := m + 1 }) (fun _ => rfl) _ _ _
    have hru := (enqResult_congr (s := s) (t := u) (by rw [hu, advanceTb_image]; rfl) (by rw [hhost]; rfl) (by rw [hhost]; rfl) hen false
      (s.time.tstart + m * (flowCfg s f).tperiod + (flowCfg s f).reldl) (s.time.tstart + m * (flowCfg s f).tperiod)).trans hr
    have hfu := (freeHandle_congr (s := s) (t := u) (by rw [hhost]; rfl) (by rw [hhost]; rfl)).trans hh
    refine ⟨_, newItem h f (BitVec.ofNat 32 m) (s.time.tstart + m * (flowCfg s f).tperiod + (flowCfg s f).reldl)
      (s.time.tstart + m * (flowCfg s f).tperiod) u, runIn_of_up hup, ?_, ?_, rfl, rfl, rfl, rfl, ?_⟩
    · rw [hx, flowSt, settle_host, ← flowSt, schedule_timerNext, deviceItem_timerNext hru hfu, flowSt, hhost]
      exact congrArg FlowSt.timerNext (nth_updAt_self _ _ _ hf)
    · rw [hx, itemOf_congr (settle_host ..)]
      exact itemOf_deviceItem hru hfu ((congrArg (fun x : HostSt => x.cores.length) hhost).trans h8)
    · rw [hx, only_settle_iff (by decide), hu]
      simp
  · intro f now n h s hup h8 ht hb hn hp hr hh
    have hx := boundEnqueue_due (now := now) ht hb hn hp
    obtain ⟨u, hu⟩ : ∃ u, u = advanceTb now (onChip (fun x => { x with bound := assocDel x.bound f }) s) := ⟨_, rfl⟩
    rw [← hu] at hx
    have hhost : u.host = s.host := by rw [hu, advanceTb_host]; rfl
    have hru := (enqResult_congr (s := s) (t := u) (by rw [hu, advanceTb_image]; rfl) (by rw [hhost]) (by rw [hhost])
      (by rw [flowSt, hhost, flowSt]) false (now + (flowCfg s f).reldl) now).trans hr
    have hfu := (freeHandle_congr (s := s) (t := u) (by rw [hhost]) (by rw [hhost])).trans hh
    refine ⟨_, newItem h f (BitVec.ofNat 32 ((flowCfg s f).bind + 65536 * min 0xFFFF n)) (now + (flowCfg s f).reldl) now u,
      runIn_of_up hup, ?_, rfl, rfl, rfl, ?_⟩
    · rw [hx, itemOf_congr (settle_host ..)]
      exact itemOf_deviceItem hru hfu ((congrArg (fun x : HostSt => x.cores.length) hhost).trans h8)
    · rw [hx, only_settle_iff (by decide), hu]
      simp

end Sys2Proof.Machine

/-! PROOF. PlantPorts: frames of the device, forwarded frames, links and queues of the plant ports, and their obligation
(R373, R376 to R379). -/

namespace Sys2Proof.Machine

/-! ### Frames of the device on the ports of a network (R379) -/

section
variable {n p : Nat} {f : TxFrame} {s : State}

/-- A frame of the device with the tag of its network. -/
def tagged (s : State) (n : Nat) (f : TxFrame) : TxFrame := { f with len := f.len + vidTag s n }

theorem sendDev_of_idle (h : Idle p s) : sendDev p f s = onPort p (fun x => { x with wire := some (tagged s (p / 2) f) }) s := by
  simp [sendDev, h.up, h.wire, h.role, tagged]

/-- Both ports of a network send at once. -/
structure IdleNet (n : Nat) (s : State) : Prop where
  net : n < 2
  ports : 2 * n + 1 < s.host.ports.length
  inward : Idle (2 * n) s
  outward : Idle (2 * n + 1) s

theorem sendNet_of_idle (h : IdleNet n s) : sendNet n f s =
    onPort (2 * n + 1) (fun x => { x with wire := some (tagged s n f) })
      (onPort (2 * n) (fun x => { x with wire := some (tagged s n f) }) s) := by
  have hother : Idle (2 * n + 1) (onPort (2 * n) (fun x => { x with wire := some (tagged s (2 * n / 2) f) }) s) :=
    ⟨by rw [← h.outward.up]; exact congrArg PortSt.up (nth_updAt_ne _ _ _ _ (by omega)),
      by rw [← h.outward.wire]; exact congrArg PortSt.wire (nth_updAt_ne _ _ _ _ (by omega)), h.outward.role⟩
  rw [sendNet, if_pos h.net, sendDev_of_idle h.inward, sendDev_of_idle hother, show (2 * n + 1) / 2 = n by omega,
    show 2 * n / 2 = n by omega]
  rfl

/-- A frame of the device leaves by both ports of its network. -/
theorem wires_sendNet (h : IdleNet n s) : (nth (sendNet n f s).host.ports (2 * n)).wire = some (tagged s n f) ∧
    (nth (sendNet n f s).host.ports (2 * n + 1)).wire = some (tagged s n f) := by
  have hlen := h.ports
  rw [sendNet_of_idle h]
  constructor
  · refine (congrArg PortSt.wire (nth_updAt_ne _ _ _ _ (by omega))).trans ?_
    exact congrArg PortSt.wire (nth_updAt_self _ _ _ (by omega))
  · exact congrArg PortSt.wire (nth_updAt_self _ _ _ ((updAt_length ..).symm ▸ hlen))

/-- The device answers on both ports of an idle network, whatever else of its host region it notes. -/
theorem run_of_sentNet {F : State → State} {u : State} (hr : regionUp .host s = true) (hx : F s = sendNet n f u)
    (hu : IdleNet n u) (htag : vidTag u n = vidTag s n) (hq : quiet s u) (ho : only [.host] s u) :
    ∃ t, runIn .host F s = .next t ∧ (nth t.host.ports (2 * n)).wire = some (tagged s n f) ∧
      (nth t.host.ports (2 * n + 1)).wire = some (tagged s n f) ∧ quiet s t ∧ only [.host] s t := by
  have hquiet : quiet s (sendNet n f u) := by rw [sendNet_of_idle hu]; exact hq
  have hwires := wires_sendNet (f := f) hu
  rw [show tagged u n f = tagged s n f by rw [tagged, tagged, htag]] at hwires
  exact ⟨_, (runIn_of_up hr).trans (run_of_quiet hx hquiet), hwires.1, hwires.2, hquiet, by
    rw [sendNet_of_idle hu]
    simpa using ho⟩

/-- The count of echoes answered leaves the ports and the tag of the network as they are. -/
theorem icmpEchoRequest_of_few {now : Nat} (h : (nth s.host.nets n).echoes < 10) :
    ∃ k, icmpEchoRequest n now s = sendNet n { kind := .echo, len := 64 } (onNet n k s) := by
  have hcnt (b : Bool) : ¬ 10 ≤ (if b then 0 else (nth s.host.nets n).echoes) := by
    cases b
    · simpa using h
    · simp
  exact ⟨_, by rw [icmpEchoRequest, if_neg (hcnt _)]⟩

theorem icmpEchoRequest_of_many {now : Nat} (h : 10 ≤ (nth s.host.nets n).echoes)
    (hn : now < (nth s.host.nets n).echoAt + 1000000000) : icmpEchoRequest n now s = s := by
  simp [icmpEchoRequest, not_le.2 hn, Nat.ne_of_gt (Nat.lt_of_lt_of_le (by decide : 0 < 10) h), h]

end

/-! ### Frames received and sent (R377, R378) -/

section
variable {p n : Nat} {s : State}

/-- The frame that goes first at a frame boundary, and the others in the order they will go. -/
theorem plantTransmitDone_port (hp : p < s.host.ports.length) :
    (nth (plantTransmitDone p s).host.ports p).wire =
      ((nth s.host.ports p).ptp ++ (nth s.host.ports p).dev ++ (nth s.host.ports p).fwd).head? ∧
    (nth (plantTransmitDone p s).host.ports p).ptp ++ (nth (plantTransmitDone p s).host.ports p).dev ++
        (nth (plantTransmitDone p s).host.ports p).fwd =
      ((nth s.host.ports p).ptp ++ (nth s.host.ports p).dev ++ (nth s.host.ports p).fwd).tail := by
  rw [show (plantTransmitDone p s).host.ports = updAt s.host.ports p _ from rfl, nth_updAt_self _ _ _ hp]
  rcases hptp : (nth s.host.ports p).ptp with - | ⟨a, as⟩
  · rcases hdev : (nth s.host.ports p).dev with - | ⟨b, bs⟩
    · rcases hfwd : (nth s.host.ports p).fwd with - | ⟨c, cs⟩
      · simp
      · simp
    · simp
  · simp

theorem plantFrameReceived_bad (a b c d : Bool) (m : Option PtpId) : plantFrameReceived p n false a b c d m s =
    onNet (p / 2) (fun x => { x with fcserr := satAdd 0xFFFF x.fcserr 1 }) s := rfl

theorem plantFrameReceived_passing (d : Bool) (h : n ≤ 1522) : plantFrameReceived p n true false false false d none s =
    sendFwd (otherPort p) { kind := .forward, len := n } s := by
  simp [plantFrameReceived, forwardFrom, not_lt.2 h]

/-- Port p with its link down: nothing waits. -/
def linkDropped (x : PortSt) : PortSt := { x with up := false, ptp := [], dev := [], fwd := [], wire := none }

theorem plantLinkDown_of_up (h : (nth s.host.ports p).up = true) :
    plantLinkDown p s = event 0x0972 0 (onPort p linkDropped s) := by
  simp only [plantLinkDown, h]
  rfl

theorem plantLinkDown_of_down (h : (nth s.host.ports p).up = false) : plantLinkDown p s = s := by
  simp [plantLinkDown, h]

theorem plantLinkUp_of_down (hb : (nth s.host.ports p).bad = false) (h : (nth s.host.ports p).up = false) :
    plantLinkUp p s = event 0x0973 0 (onPort p (fun x => { x with up := true }) s) := by
  simp [plantLinkUp, hb, h]

theorem plantLinkUp_of_up (h : (nth s.host.ports p).up = true) : plantLinkUp p s = s := by
  simp [plantLinkUp, h]

/-! ### Mailboxes and acknowledged entries (R373, R379) -/

theorem udpMailbox_of_none {b : List Byte} (h : (nth s.image.nets n).mailbox = none) : udpMailbox n b s = discardIp n s := by
  rw [udpMailbox, h]

theorem udpMailbox_of_some {q : Nat} {b : List Byte} (h : (nth s.image.nets n).mailbox = some q) :
    udpMailbox n b s = pushEntry q { bytes := b } s := by
  rw [udpMailbox, h]

/-- The consumer frees entries of a queue of HOST; the rest of the state is the response. -/
theorem queueAck_of_consumer {c q : Nat} (hc : (queueCfg s q).cons = c) (h1 : 1 ≤ n) (h256 : n ≤ 256) (h28 : q ≠ 28)
    (h29 : q ≠ 29) (h30 : q ≠ 30) : queueAck (.core c) q n s = acked (onQueue q (fun x => { x with
      entries := x.entries.drop n, index := (x.index + min n (qCount s q)) % max 1 (queueCfg s q).depth }) s) := by
  simp [queueAck, hc, h1, h256]

theorem queueAck_of_other {c q : Nat} (hc : (queueCfg s q).cons ≠ c) : queueAck (.core c) q n s = acked s := by
  simp [queueAck, hc]

end

/-- Settles O17: each command is one update of a port, a network or a queue, and a link adds its event. -/
theorem plantNetworks : Obligations.PlantNetworks := by
  refine ⟨fun p n a b c d m s hr hp => ?_, fun p n d s hr hp hup hwire hrole hn => ?_, fun p s hr hp => ?_,
    fun p s hp hup => ?_, fun p s hp hbad hup => ?_, fun p s => ⟨fun h => run_of_unchanged (plantLinkDown_of_down h),
      fun h => run_of_unchanged (plantLinkUp_of_up h)⟩, fun n s hr hn hlen hrole hup hwire hup' hwire' => ?_,
    fun n now s h hn => runIn_of_unchanged (icmpEchoRequest_of_many h hn), fun n q b s hr hm hroom hq => ?_,
    fun n b s hr hm hn => ?_, fun c q n s hr hw hc h1 h256 h28 h29 h30 hq => ?_, fun c q n s hr hw hc => ?_⟩
  · exact ⟨_, (runIn_of_up hr).trans (run_of_quiet (plantFrameReceived_bad a b c d m) ⟨rfl, rfl, rfl⟩),
      congrArg NetSt.fcserr (nth_updAt_self _ _ _ hp), rfl, onlyAt_updAt .., ⟨rfl, rfl, rfl⟩, by simp⟩
  · exact ⟨_, (runIn_of_up hr).trans (run_of_quiet
      ((plantFrameReceived_passing d hn).trans (sendFwd_of_idle ⟨hup, hwire, hrole⟩)) ⟨rfl, rfl, rfl⟩),
      congrArg PortSt.wire (nth_updAt_self _ _ _ hp), rfl, onlyAt_updAt .., ⟨rfl, rfl, rfl⟩, by simp⟩
  · obtain ⟨hwire, hrest⟩ := plantTransmitDone_port hp
    exact ⟨_, (runIn_of_up hr).trans (run_of_quiet rfl ⟨rfl, rfl, rfl⟩), hwire, hrest, onlyAt_updAt .., ⟨rfl, rfl, rfl⟩,
      (only_onPort (by decide)).2 (only_refl _ s)⟩
  · have hport : nth (onPort p linkDropped s).host.ports p = linkDropped (nth s.host.ports p) := nth_updAt_self _ _ _ hp
    have hlog : logged 0x0972 0 s (event 0x0972 0 (onPort p linkDropped s)) := logged_event ⟨rfl, rfl, rfl⟩ rfl
    exact ⟨_, run_of_logged (plantLinkDown_of_up hup) hlog, congrArg PortSt.up hport, congrArg PortSt.wire hport,
      congrArg PortSt.dev hport, congrArg PortSt.fwd hport, hlog, onlyAt_updAt .., by simp⟩
  · have hlog : logged 0x0973 0 s (event 0x0973 0 (onPort p (fun x => { x with up := true }) s)) :=
      logged_event ⟨rfl, rfl, rfl⟩ rfl
    exact ⟨_, run_of_logged (plantLinkUp_of_down hbad hup) hlog, congrArg PortSt.up (nth_updAt_self _ _ _ hp), hlog,
      onlyAt_updAt .., by simp⟩
  · have hidle : IdleNet n s := ⟨hn, hlen, ⟨hup, hwire, hrole⟩, ⟨hup', hwire', hrole⟩⟩
    refine ⟨run_of_sentNet hr rfl hidle rfl ⟨rfl, rfl, rfl⟩ (only_refl _ s),
      run_of_sentNet hr rfl hidle rfl ⟨rfl, rfl, rfl⟩ (only_refl _ s), fun now hfew => ?_⟩
    obtain ⟨k, hk⟩ := icmpEchoRequest_of_few (now := now) hfew
    exact run_of_sentNet hr hk ⟨hn, hlen, ⟨hup, hwire, hrole⟩, ⟨hup', hwire', hrole⟩⟩ rfl ⟨rfl, rfl, rfl⟩ (by simp)
  · obtain ⟨k, hk⟩ := pushEntry_of_room hroom { bytes := b }
    exact ⟨_, (runIn_of_up hr).trans (run_of_quiet ((udpMailbox_of_some hm).trans hk) ⟨rfl, rfl, rfl⟩),
      congrArg QueueSt.entries (nth_updAt_self _ _ _ hq), onlyAt_updAt .., ⟨rfl, rfl, rfl⟩, by simp⟩
  · exact ⟨_, (runIn_of_up hr).trans (run_of_quiet (udpMailbox_of_none hm) ⟨rfl, rfl, rfl⟩),
      congrArg NetSt.ipdisc (nth_updAt_self _ _ _ hn), rfl, ⟨rfl, rfl, rfl⟩, (only_onNet (by decide)).2 (only_refl _ s)⟩
  · exact ⟨_, (runAcc_of_running hr).trans (run_of_quiet
      ((storeBy_of_none hw).trans (queueAck_of_consumer hc h1 h256 h28 h29 h30)) ⟨rfl, rfl, rfl⟩),
      congrArg QueueSt.entries (nth_updAt_self _ _ _ hq), rfl, onlyAt_updAt .., ⟨rfl, rfl, rfl⟩, by simp⟩
  · exact (runAcc_of_running hr).trans (run_of_quiet ((storeBy_of_none hw).trans (queueAck_of_other hc)) ⟨rfl, rfl, rfl⟩)

end Sys2Proof.Machine

/-! PROOF. Finalisation: what the set-points of a group, a withdrawn zone request and a failed homing leave as they are
(R213, R232 to R236, R295). -/

namespace Sys2Proof.Machine

section
variable {ps : List Part} {s t : State} {g a c : Nat}

@[simp] theorem only_onSafG {f : SafGroup → SafGroup} (h : .saf ∈ ps) : only ps s (onSafG g f t) ↔ only ps s t :=
  only_onSaf (f := fun x => { x with g := updAt x.g g f }) h

@[simp] theorem only_onZone {z : Nat} {f : ZoneSt → ZoneSt} (h : .trl ∈ ps) : only ps s (onZone z f t) ↔ only ps s t :=
  only_trl h

@[simp] theorem only_withdrawZone (h : .trl ∈ ps) : only ps s (withdrawZone g t) ↔ only ps s t := by
  unfold withdrawZone
  split
  · rfl
  · simp [h]

@[simp] theorem only_keepReleased (h : .mot ∈ ps) : only ps s (keepReleased g t) ↔ only ps s t := only_onGrp h

/-! ### Steps of a group (R232 to R235) -/

@[simp] theorem only_putSp {p : Pos} {v w : Int} (h : .mot ∈ ps) : only ps s (putSp a p v w t) ↔ only ps s t := only_onAxis h

@[simp] theorem only_takeFeedback (h : .mot ∈ ps) : only ps s (takeFeedback a t) ↔ only ps s t := only_putSp h

@[simp] theorem only_rampRef {n : Nat} (h : .mot ∈ ps) : only ps s (rampRef g n t) ↔ only ps s t :=
  only_forAll (fun _ u => (only_onAxis h).2 (only_refl ps u))

@[simp] theorem only_noteClamp (hc : .chip ∈ ps) (h : .mot ∈ ps) : only ps s (noteClamp g a t) ↔ only ps s t := by
  unfold noteClamp
  dsimp only
  split <;> simp [hc, h]

@[simp] theorem only_takeStep {n : Nat} {b : Bool} (hc : .chip ∈ ps) (h : .mot ∈ ps) :
    only ps s (takeStep g a n b t) ↔ only ps s t := by
  unfold takeStep
  dsimp only
  split <;> split <;> simp [hc, h]

/-- A group that is not torque-on takes its feedback as set-point. -/
theorem applySteps_of_off (h : (safG s g).state = .sto ∨ (safG s g).state = .cloche) : applySteps g s =
    forAll (axesOf s g) (fun a s => takeFeedback a (onAxis a (fun y => { y with homing := false }) s)) s := by
  unfold applySteps
  dsimp only
  rw [if_pos (by rcases h with h | h <;> simp [h])]

theorem only_applySteps_of_off (h : (safG t g).state = .sto ∨ (safG t g).state = .cloche) : only [.mot] t (applySteps g t) := by
  rw [applySteps_of_off h]
  exact (only_forAll fun _ u => by simp).2 (only_refl _ t)

@[simp] theorem only_applySteps (hc : .chip ∈ ps) (h : .mot ∈ ps) : only ps s (applySteps g t) ↔ only ps s t := by
  unfold applySteps
  dsimp only
  split
  · exact only_forAll fun _ u => by simp [h]
  · split
    · exact only_forAll fun _ u => by simp [h]
    · refine (only_forAll fun a u => ?_).trans ?_
      · split <;> simp [hc, h]
      · split <;> split <;> simp [h]

@[simp] theorem only_refinalise (hc : .chip ∈ ps) (h : .mot ∈ ps) : only ps s (refinalise g t) ↔ only ps s t := by
  unfold refinalise
  split
  · exact only_applySteps hc h
  · rfl

@[simp] theorem only_toStopping (hm : .mot ∈ ps) (h : .trl ∈ ps) : only ps s (toStopping g t) ↔ only ps s t := by
  unfold toStopping
  split
  · simp [hm, h]
  · rfl

end

/-! ### A decision after the finalisation of the tick (R232, R234) -/

section
variable {s : State} {g : Nat}

theorem only_lateDecision (g : Nat) (s : State) : only [.chip, .mot, .trl] s (lateDecision g s) := by
  unfold lateDecision
  dsimp only
  split <;> simp

/-- After STO the group takes its feedback, and nothing else follows. -/
theorem only_lateDecision_of_sto (h : (safG s g).state = .sto) : only [.mot] s (lateDecision g s) := by
  have ho : only [.mot] s (refinalise g s) := by
    unfold refinalise
    split
    · exact only_applySteps_of_off (.inl h)
    · exact only_refl _ s
  have hsaf : (safG (refinalise g s) g).state = .sto :=
    (congrArg (fun x : SafSt => (nth x.g g).state) (ho .saf (by decide))).trans h
  unfold lateDecision
  dsimp only
  rw [hsaf, if_neg (by simp)]
  exact ho

@[simp] theorem lateDecision_saf (g : Nat) (s : State) : (lateDecision g s).saf = s.saf := only_lateDecision g s .saf (by decide)

@[simp] theorem safG_lateDecision (g k : Nat) (s : State) : safG (lateDecision g s) k = safG s k := by
  rw [safG, lateDecision_saf, safG]

end

end Sys2Proof.Machine

/-! PROOF. Stops: a decision for one group, the torque-off lines and their refresh, and the obligation on them
(R173, R300, R301, R307, R310 to R316, R321). -/

namespace Sys2Proof.Machine

/-! ### A decision for one group (R307) -/

section
variable {g stocause cause : Nat} {only_ : Bool} {s : State}

/-- A group that STO is decided for in a tick. -/
def stoDecided (stocause cause tick : Nat) (x : SafGroup) : SafGroup :=
  { x with
    state := .sto, stocause := stocause, tsto := tick % 2 ^ 24,
    cause := (if x.state == .ss1r then x.cause else cause),
    onlyStopreq := (x.state == .ss1r && x.onlyStopreq && stocause = 18) }

theorem decideSto_eq (g stocause cause : Nat) (s : State) : decideSto g stocause cause s =
    event 0x0802 g (keepReleased g (onSafG g (stoDecided stocause cause s.time.tickno) s)) := rfl

/-- A group that SS1-r is decided for, with the speeds of its axes at the decision. -/
def stopDecided (cause tick : Nat) (v0 : List Nat) (only_ : Bool) (x : SafGroup) : SafGroup :=
  { x with state := .ss1r, cause := cause, decTick := tick, v0 := v0, still := 0, onlyStopreq := only_ }

theorem decideStop_eq (g cause : Nat) (only_ : Bool) (s : State) : decideStop g cause only_ s = event 0x0801 g
    (onSafG g (stopDecided cause s.time.tickno ((axesOf (keepReleased g s) g).map (startSpeed (keepReleased g s))) only_)
      (keepReleased g s)) := rfl

@[simp] theorem safG_settle (s t : State) (g : Nat) : safG (settle s t) g = safG t g := by rw [safG, settle_saf, safG]

theorem safG_onSafG {f : SafGroup → SafGroup} (hg : g < s.saf.g.length) : safG (onSafG g f s) g = f (safG s g) :=
  nth_updAt_self _ _ _ hg

theorem onlyAt_onSafG (g : Nat) (f : SafGroup → SafGroup) (s : State) : onlyAt g s.saf.g (onSafG g f s).saf.g := onlyAt_updAt ..

theorem safG_decideSto (hg : g < s.saf.g.length) :
    safG (decideSto g stocause cause s) g = stoDecided stocause cause s.time.tickno (safG s g) := safG_onSafG hg

theorem decideSto_saf (g stocause cause : Nat) (s : State) : (decideSto g stocause cause s).saf =
    { s.saf with g := updAt s.saf.g g (stoDecided stocause cause s.time.tickno) } := rfl

theorem onlyAt_decideSto (g stocause cause : Nat) (s : State) : onlyAt g s.saf.g (decideSto g stocause cause s).saf.g :=
  onlyAt_onSafG ..

theorem only_decideSto (g stocause cause : Nat) (s : State) : only [.chip, .mot, .saf] s (decideSto g stocause cause s) := by
  simp [decideSto_eq]

theorem logged_decideSto (g stocause cause : Nat) (s : State) : logged 0x0802 g s (decideSto g stocause cause s) :=
  logged_event ⟨rfl, rfl, rfl⟩ rfl

theorem safG_decideStop (hg : g < s.saf.g.length) : ∃ v0,
    safG (decideStop g cause only_ s) g = stopDecided cause s.time.tickno v0 only_ (safG s g) := ⟨_, safG_onSafG hg⟩

theorem onlyAt_decideStop (g cause : Nat) (only_ : Bool) (s : State) : onlyAt g s.saf.g (decideStop g cause only_ s).saf.g :=
  onlyAt_updAt ..

theorem only_decideStop (g cause : Nat) (only_ : Bool) (s : State) :
    only [.chip, .mot, .saf] s (decideStop g cause only_ s) := by
  simp [decideStop_eq]

/-- STO decided after the finalisation: the decision is all that is left of it but for the set-points. -/
theorem lateSto (hg : g < s.saf.g.length) :
    (lateDecision g (decideSto g stocause cause s)).saf = (decideSto g stocause cause s).saf ∧
    only [.chip, .mot, .saf] s (lateDecision g (decideSto g stocause cause s)) ∧
    logged 0x0802 g s (lateDecision g (decideSto g stocause cause s)) := by
  have ho : only [.mot] (decideSto g stocause cause s) (lateDecision g (decideSto g stocause cause s)) :=
    only_lateDecision_of_sto (congrArg SafGroup.state (safG_decideSto hg))
  exact ⟨ho .saf (by decide), only_trans (only_decideSto g stocause cause s) (only_mono (by decide) ho),
    logged_of_chip (ho .chip (by decide)) (logged_decideSto ..)⟩

/-! ### The ends of a stop (R310, R316, R321) -/

theorem standstill_of_still (hs : (safG s g).state = .ss1r) (h : max 1 (grpCfg s g).nstill ≤ (safG s g).still) :
    standstill g s = lateDecision g (decideSto g 18 (safG s g).cause s) := by
  simp only [standstill, hs, h]
  rfl

theorem standstill_of_moving (h : (safG s g).still < max 1 (grpCfg s g).nstill) : standstill g s = s := by
  unfold standstill
  dsimp only
  rw [if_neg (by simp only [Bool.and_eq_true, decide_eq_true_eq, not_and]; omega)]

theorem ss1Timeout_of_late (hs : (safG s g).state = .ss1r) (h : (grpCfg s g).tss1max ≤ s.time.tickno - (safG s g).decTick) :
    ss1Timeout g s = lateDecision g (decideSto g 19 (safG s g).cause (event 0x0811 g s)) := by
  simp only [ss1Timeout, hs, h]
  rfl

theorem ss1Timeout_of_early (h : s.time.tickno - (safG s g).decTick < (grpCfg s g).tss1max) : ss1Timeout g s = s := by
  simp [ss1Timeout, not_le.2 h]

/-- A group that its automatic restart takes to RUN. -/
def restarted (x : SafGroup) : SafGroup := { x with state := .run, cause := 0, nres := 0, aLatch := false }

theorem autoRestart_of_ready (hr : restartOk s g = true) (h : max 1 (grpCfg s g).nres ≤ (safG s g).nres) :
    autoRestart g s = onGrp g (fun y => { y with leave := 2 }) (onSafG g restarted s) := by
  simp only [autoRestart, hr, h]
  rfl

theorem autoRestart_of_manual (h : (grpCfg s g).autores = false) : autoRestart g s = s := by
  simp [autoRestart, restartOk, h]

/-- The state of an expired degraded mode before its stop is decided (R321). -/
def expiryNoted (g : Nat) (s : State) : State := event 0x0841 g (onSafG g (fun y => { y with expBlock := true }) s)

theorem degradedExpiry_of_expired (hd : (safG s g).deg = true) (ht : (safG s g).tleft = 0)
    (hr : (safG s g).state = .run ∨ (safG s g).state = .scaled) :
    degradedExpiry g s = lateDecision g (decideStop g 10 false (expiryNoted g s)) := by
  rcases hr with hr | hr <;> simp only [degradedExpiry, hd, ht, hr] <;> rfl

theorem degradedExpiry_of_left (h : 0 < (safG s g).tleft) : degradedExpiry g s = s := by
  simp [degradedExpiry, Nat.ne_of_gt h]

end

/-! ### The step generators of a group in STO (R173, R311) -/

/-- A step generator that issues no further pulse. -/
def StepsStopped (x : ChanSt) : Prop := x.sched = [] ∧ x.schedNext = [] ∧ x.stepped = x.issued

/-- From s to t channels changed only, and channel c, once stopped, stays stopped. -/
structure KeepsStopped (c : Nat) (s t : State) : Prop where
  parts : only [.axio] s t
  channels : t.axio.length = s.axio.length
  issued : (chSt t c).issued = (chSt s c).issued
  stopped : StepsStopped (chSt s c) → StepsStopped (chSt t c)

namespace KeepsStopped
variable {c : Nat} {s t u : State}

theorem refl (c : Nat) (s : State) : KeepsStopped c s s := ⟨only_refl _ s, rfl, rfl, id⟩

theorem trans (h : KeepsStopped c s t) (k : KeepsStopped c t u) : KeepsStopped c s u :=
  ⟨only_trans h.parts k.parts, k.channels.trans h.channels, k.issued.trans h.issued, k.stopped ∘ h.stopped⟩

theorem axesOf (h : KeepsStopped c s t) (g : Nat) : Machine.axesOf t g = Machine.axesOf s g := by
  have hi : t.image = s.image := h.parts .image (by decide)
  simp only [Machine.axesOf, axisCfg, hi]

theorem axisCfg (h : KeepsStopped c s t) (a : Nat) : Machine.axisCfg t a = Machine.axisCfg s a :=
  congrArg (fun i : Image => nth i.axes a) (h.parts .image (by decide) : t.image = s.image)

end KeepsStopped

/-- The step generator stops for the destination of one axis. -/
def stopAxis (a : Nat) (s : State) : State := match (axisCfg s a).dst with | .axio c => stepStop c s | _ => s

theorem stopPulses_eq (g : Nat) (s : State) : stopPulses g s = forAll (axesOf s g) stopAxis s := rfl

section
variable {g a c : Nat} {s : State}

theorem stepsStopped_stepStop (hc : c < s.axio.length) : StepsStopped (chSt (stepStop c s) c) := by
  rw [show chSt (stepStop c s) c = _ from nth_updAt_self _ _ _ hc]
  exact ⟨rfl, rfl, rfl⟩

theorem keepsStopped_stepStop (c k : Nat) (s : State) : KeepsStopped c s (stepStop k s) := by
  have hissued : (chSt (stepStop k s) c).issued = (chSt s c).issued :=
    nth_updAt_same (P := ChanSt.issued) (f := fun x => { x with sched := [], schedNext := [], stepped := x.issued })
      (fun _ => rfl) ..
  refine ⟨(only_onChan (by decide)).2 (only_refl _ s), updAt_length .., hissued, fun h => ?_⟩
  by_cases hk : c = k ∧ c < s.axio.length
  · obtain ⟨rfl, hlen⟩ := hk
    exact stepsStopped_stepStop hlen
  · have hsame : chSt (stepStop k s) c = chSt s c := by
      refine (nth_updAt ..).trans (if_neg ?_)
      exact fun h => hk ⟨h.1 ▸ rfl, h.1 ▸ h.2⟩
    rw [hsame]
    exact h

theorem keepsStopped_stopAxis (c a : Nat) (s : State) : KeepsStopped c s (stopAxis a s) := by
  unfold stopAxis
  split
  · exact keepsStopped_stepStop ..
  · exact .refl ..

theorem keepsStopped_stopPulses (c g : Nat) (s : State) : KeepsStopped c s (stopPulses g s) :=
  forAll_preserves (P := KeepsStopped c s) (fun a _ h => h.trans (keepsStopped_stopAxis c a _)) _ (.refl ..)

theorem stopPulses_reaches (ha : a ∈ axesOf s g) (hd : (axisCfg s a).dst = .axio c) (hc : c < s.axio.length) :
    StepsStopped (chSt (stopPulses g s) c) := by
  obtain ⟨u, hu, hend⟩ := forAll_reaches (P := KeepsStopped c) (.refl c) KeepsStopped.trans (keepsStopped_stopAxis c) ha s
  rw [stopPulses_eq]
  refine hend.stopped ?_
  rw [stopAxis, hu.axisCfg, hd]
  exact stepsStopped_stepStop (hu.channels ▸ hc)

/-- The pulses of every group in STO. -/
def stoPulses (s : State) : State := forAll ((bitsOf (defined s)).filter (fun g => (safG s g).state == .sto)) stopPulses s

theorem keepsStopped_stoPulses (c : Nat) (s : State) : KeepsStopped c s (stoPulses s) :=
  forAll_preserves (P := KeepsStopped c s) (fun g _ h => h.trans (keepsStopped_stopPulses c g _)) _ (.refl ..)

theorem only_stoPulses (s : State) : only [.axio] s (stoPulses s) := (keepsStopped_stoPulses 0 s).parts

theorem stoPulses_reaches (hg : g < 16) (hdef : (grpCfg s g).defined = true) (hsto : (safG s g).state = .sto)
    (ha : a ∈ axesOf s g) (hd : (axisCfg s a).dst = .axio c) (hc : c < s.axio.length) : StepsStopped (chSt (stoPulses s) c) := by
  have hmem : g ∈ (bitsOf (defined s)).filter (fun g => (safG s g).state == .sto) := by
    simp [mem_bitsOf, hasBit_defined hg, hdef, hsto]
  obtain ⟨u, hu, hend⟩ := forAll_reaches (P := KeepsStopped c) (.refl c) KeepsStopped.trans (keepsStopped_stopPulses c) hmem s
  exact hend.stopped (stopPulses_reaches (hu.axesOf g ▸ ha) ((hu.axisCfg a).symm ▸ hd) (hu.channels ▸ hc))

/-! ### The lines (R300, R311, R313, R314) -/

/-- The lines take levels m, but for those that read back wrong. -/
def linesSet (m : Mask) (s : State) : State :=
  onPair (fun p => { p with lineHold := m })
    (onSaf (fun f => { f with lineCmd := m &&& ~~~ f.rberr, pattern := m &&& ~~~ f.rberr }) s)

theorem stoLineSwitch_eq (s : State) : stoLineSwitch s =
    (if (stoPulses s).saf.dead || nodeMode (stoPulses s) then stoPulses s
    else linesSet (if (stoPulses s).pair.role = 2 && !(stoPulses s).pair.fed then (stoPulses s).pair.lineHold
      else torqueMask (stoPulses s)) (stoPulses s)) := rfl

theorem stoPulses_saf (s : State) : (stoPulses s).saf = s.saf := only_stoPulses s .saf (by decide)

theorem nodeMode_stoPulses (s : State) : nodeMode (stoPulses s) = nodeMode s :=
  congrArg (fun i : Image => (nth i.rings 0).role == 3) (only_stoPulses s .image (by decide) : (stoPulses s).image = s.image)

theorem torqueMask_stoPulses (s : State) : torqueMask (stoPulses s) = torqueMask s := by
  have himage : (stoPulses s).image = s.image := only_stoPulses s .image (by decide)
  have hchip : (stoPulses s).chip = s.chip := only_stoPulses s .chip (by decide)
  simp only [torqueMask, hchip, grpCfg, himage, safG, stoPulses_saf]

theorem stoLineSwitch_of_dead (h : s.saf.dead = true ∨ nodeMode s = true) : stoLineSwitch s = stoPulses s := by
  rw [stoLineSwitch_eq, stoPulses_saf, nodeMode_stoPulses, if_pos (by simpa using h)]

theorem stoLineSwitch_of_driven (hd : s.saf.dead = false) (hn : nodeMode s = false) (hr : s.pair.role ≠ 2) :
    stoLineSwitch s = linesSet (torqueMask s) (stoPulses s) := by
  have hpair : (stoPulses s).pair = s.pair := only_stoPulses s .pair (by decide)
  rw [stoLineSwitch_eq, stoPulses_saf, nodeMode_stoPulses, if_neg (by simp [hd, hn]), hpair, if_neg (by simp [hr]),
    torqueMask_stoPulses]

theorem hasBit_torqueMask (hg : g < 16) : hasBit (torqueMask s) g = true ↔
    s.chip.pstate = .run ∧ (grpCfg s g).defined = true ∧
      ((safG s g).state = .run ∨ (safG s g).state = .scaled ∨ (safG s g).state = .ss1r) := by
  unfold torqueMask
  by_cases hp : s.chip.pstate = .run
  · simp [hp, hasBit_maskOf hg, or_assoc]
  · simp [hp, hasBit]

/-- Every line is low, and the refresh of PAIR_VOTE has ended. -/
def linesDropped (s : State) : State :=
  bbTrigger 4 0 (onPair (fun p => { p with vote := false })
    (event 0x0804 0 (onSaf (fun f => { f with dead := true, lineCmd := 0, pattern := 0 }) s)))

theorem linesLow_of_live (h : s.saf.dead = false) : linesLow s = classA (defined s) 16 0x0804 (linesDropped s) := by
  simp only [linesLow, h]
  rfl

theorem linesDropped_saf (s : State) : (linesDropped s).saf = { s.saf with dead := true, lineCmd := 0, pattern := 0 } :=
  bbTrigger_saf ..

theorem linesDropped_pair (s : State) : (linesDropped s).pair = { s.pair with vote := false } := by
  obtain ⟨w, k, b, hbb⟩ := bbTrigger_eq 4 0 (onPair (fun p => { p with vote := false })
    (event 0x0804 0 (onSaf (fun f => { f with dead := true, lineCmd := 0, pattern := 0 }) s)))
  rw [linesDropped, hbb]
  rfl

/-- A refresh that fails drives every line low and stops every group (R300). -/
theorem run_of_linesLow {F : State → State} (hx : F s = linesLow s) (hd : s.saf.dead = false) : ∃ t, run F s = .next t ∧
    t.saf.dead = true ∧ t.saf.lineCmd = 0 ∧ t.saf.lastA = 0x0804 ∧ t.pair.vote = false ∧
    (∀ g, g < s.saf.g.length → g < 16 → (grpCfg s g).defined = true →
      (safG t g).aLatch = true ∧ hasBit (safG t g).stopReq 9 = true) ∧
    logged 0x0804 0 s t ∧ only [.chip, .recd, .saf, .pair] s t := by
  have hlog : logged 0x0804 0 s (classA (defined s) 16 0x0804 (linesDropped s)) :=
    logged_classA (logged_bbTrigger (logged_event (u := onSaf _ s) ⟨rfl, rfl, rfl⟩ rfl))
  refine ⟨_, run_of_logged (hx.trans (linesLow_of_live hd)) hlog, ?_, ?_, ?_, ?_, fun g hg h16 hdef => ?_, hlog, ?_⟩
  · rw [classA_saf, linesDropped_saf]
  · rw [classA_saf, linesDropped_saf]
  · rw [classA_saf]
  · have hpair : (classA (defined s) 16 0x0804 (linesDropped s)).pair = (linesDropped s).pair :=
      only_classA_self .pair (by decide)
    rw [hpair, linesDropped_pair]
  · exact latched_and_stopped 16 0x0804 ((hasBit_defined h16).trans hdef) (by rw [linesDropped_saf]; exact hg)
  · simp [linesDropped]

theorem stoRefresh_of_fresh {w : Bool} (hd : s.saf.dead = false) (hw : s.saf.withheld = false)
    (h : s.saf.refreshSeen = false ∨ s.saf.refreshWord ≠ w) :
    stoRefresh w s = onSaf (fun f => { f with refreshSeen := true, refreshWord := w }) s := by
  unfold stoRefresh
  rw [hd, hw]
  rcases h with h | h <;> simp [h]

theorem stoRefresh_of_repeated {w : Bool} (hd : s.saf.dead = false) (hw : s.saf.withheld = false)
    (h : s.saf.refreshSeen = true) (he : s.saf.refreshWord = w) : stoRefresh w s = linesLow s := by
  simp [stoRefresh, hd, hw, h, he]

/-! ### The read-back of the lines (R314) -/

/-- The fault of one line before STO is decided for its group. -/
def faultNoted (g : Nat) (s : State) : State :=
  onSafG g (fun x => { x with rbBlock := true }) (latchA (bitOf 16 g) 16 0x0822 (event 0x0822 g
    (onSaf (fun f => { f with rberr := f.rberr ||| bitOf 16 g, lineCmd := f.lineCmd &&& ~~~ bitOf 16 g }) s)))

theorem faultNoted_saf (hg : g < 16) (s : State) : (faultNoted g s).saf =
    { s.saf with
      rberr := s.saf.rberr ||| bitOf 16 g, lineCmd := s.saf.lineCmd &&& ~~~ bitOf 16 g, lastA := 0x0822
      g := updAt (updAt s.saf.g g (latched 16)) g (fun x => { x with rbBlock := true }) } := by
  simp [faultNoted, latchA_eq, updMask, bitsOf_bitOf hg, onSafG]

theorem safG_faultNoted (hg : g < 16) (hlen : g < s.saf.g.length) :
    safG (faultNoted g s) g = { latched 16 (safG s g) with rbBlock := true } := by
  rw [safG, faultNoted_saf hg, nth_updAt_self _ _ _ (by simpa using hlen), nth_updAt_self _ _ _ hlen]
  rfl

theorem readbackFault_of_torqueOn (hg : g < 16) (hlen : g < s.saf.g.length)
    (h : (safG s g).state = .run ∨ (safG s g).state = .scaled ∨ (safG s g).state = .ss1r) :
    readbackFault g s = lateDecision g (decideSto g 20 20 (faultNoted g s)) := by
  have hstate : (safG (faultNoted g s) g).state = (safG s g).state := by rw [safG_faultNoted hg hlen]; rfl
  change (match (safG (faultNoted g s) g).state with
    | .sto | .cloche => faultNoted g s
    | _ => lateDecision g (decideSto g 20 20 (faultNoted g s))) = _
  rw [hstate]
  rcases h with h | h | h <;> rw [h]

end

theorem stoReadback_of_bad {l : Mask} {g : Nat} {s : State} (hg : g < 16)
    (h : (l ^^^ s.saf.lineCmd) &&& defined s &&& ~~~ s.saf.rberr = bitOf 16 g) :
    stoReadback l s = readbackFault g (onSaf (fun f => { f with level := l }) s) := by
  have hmask : (l ^^^ s.saf.lineCmd) &&& defined s &&& ~~~ s.saf.rberr = bitOf 16 g → stoReadback l s =
      forAll (bitsOf (bitOf 16 g)) readbackFault (onSaf (fun f => { f with level := l }) s) := fun h => by rw [← h]; rfl
  rw [hmask h, bitsOf_bitOf hg]
  rfl

theorem stoReadback_of_good {l : Mask} {s : State} (h : (l ^^^ s.saf.lineCmd) &&& defined s &&& ~~~ s.saf.rberr = 0) :
    stoReadback l s = onSaf (fun f => { f with level := l }) s := by
  have hmask : (l ^^^ s.saf.lineCmd) &&& defined s &&& ~~~ s.saf.rberr = 0 → stoReadback l s =
      forAll (bitsOf (0 : Mask)) readbackFault (onSaf (fun f => { f with level := l }) s) := fun h => by rw [← h]; rfl
  rw [hmask h]
  rfl

/-- Settles O30: each command is one decision for a group, one command of the lines, or the failure of their refresh. -/
theorem stopsAndTorqueLines : Obligations.StopsAndTorqueLines := by
  refine ⟨fun g s hg hs hstill => ?_, fun g s h => run_of_unchanged (standstill_of_moving h), fun g s hg hs hlate => ?_,
    fun g s h => run_of_unchanged (ss1Timeout_of_early h), fun g s hg hm hr hn => ?_,
    fun g s h => run_of_unchanged (autoRestart_of_manual h), fun g s hg hd ht hr => ?_,
    fun g s h => run_of_unchanged (degradedExpiry_of_left h), fun s hd hn hr => ?_, fun s h => ?_,
    fun g a c s hg hdef hsto ha hdst hc => ?_, fun w s hd hw h => ?_, fun w s hd hw hseen hword => ?_,
    fun s hd => run_of_linesLow rfl hd, fun l s h => ?_, fun l g s hg hlen h hr => ?_⟩
  · obtain ⟨hsaf, ho, hlog⟩ := lateSto (stocause := 18) (cause := (safG s g).cause) hg
    have hgroup : safG (lateDecision g (decideSto g 18 (safG s g).cause s)) g =
        stoDecided 18 (safG s g).cause s.time.tickno (safG s g) := (safG_lateDecision ..).trans (safG_decideSto hg)
    refine ⟨_, run_of_logged (standstill_of_still hs hstill) hlog, ?_, ?_, ?_, ?_, hsaf ▸ onlyAt_decideSto .., hlog, ho⟩ <;>
      simp [hgroup, stoDecided]
  · have hgroup : safG (lateDecision g (decideSto g 19 (safG s g).cause (event 0x0811 g s))) g =
        stoDecided 19 (safG s g).cause s.time.tickno (safG s g) := (safG_lateDecision ..).trans (safG_decideSto hg)
    obtain ⟨hsaf, ho, -⟩ := lateSto (s := event 0x0811 g s) (stocause := 19) (cause := (safG s g).cause) hg
    refine ⟨_, congrArg (fun t => Host.Outcome.next (settle s t)) (ss1Timeout_of_late hs hlate), ?_, ?_, ?_, ?_, ?_⟩
    · rw [safG_settle, hgroup]
      rfl
    · rw [safG_settle, hgroup]
      rfl
    · rw [safG_settle, hgroup]
      simp [stoDecided]
    · rw [settle_saf, hsaf]
      exact onlyAt_decideSto ..
    · exact (only_settle_iff (by decide)).2 (only_trans ((only_event (by decide)).2 (only_refl _ s)) ho)
  · exact ⟨_, run_of_quiet (autoRestart_of_ready hr hn) ⟨rfl, rfl, rfl⟩, congrArg SafGroup.state (safG_onSafG hg),
      congrArg SafGroup.cause (safG_onSafG hg), grpSt_onGrp hm, onlyAt_onSafG .., onlyAt_onGrp .., ⟨rfl, rfl, rfl⟩,
      by simp⟩
  · obtain ⟨v0, hstop⟩ := safG_decideStop (s := expiryNoted g s) (cause := 10) (only_ := false)
      (g := g) (by simpa [expiryNoted, onSafG] using hg)
    have hnoted : safG (expiryNoted g s) g = { safG s g with expBlock := true } := safG_onSafG hg
    have hgroup : safG (settle s (lateDecision g (decideStop g 10 false (expiryNoted g s)))) g =
        stopDecided 10 s.time.tickno v0 false { safG s g with expBlock := true } := by
      rw [safG_settle, safG_lateDecision, hstop, hnoted]
      rfl
    refine ⟨_, congrArg (fun t => Host.Outcome.next (settle s t)) (degradedExpiry_of_expired hd ht hr),
      congrArg SafGroup.state hgroup,
      congrArg SafGroup.cause hgroup, congrArg SafGroup.expBlock hgroup, congrArg SafGroup.decTick hgroup, ?_, ?_⟩
    · rw [settle_saf, lateDecision_saf]
      exact onlyAt_trans (onlyAt_onSafG ..) (onlyAt_decideStop ..)
    · refine (only_settle_iff (by decide)).2 (only_trans ?_ (only_mono (by decide) (only_lateDecision g _)))
      refine only_trans (t := expiryNoted g s) (by simp [expiryNoted]) (only_mono (by decide) (only_decideStop g 10 false _))
  · have hchip : (stoPulses s).chip = s.chip := only_stoPulses s .chip (by decide)
    refine ⟨_, run_of_quiet (stoLineSwitch_of_driven hd hn hr) (quiet_of_chip hchip), fun g hg => ?_, ?_, quiet_of_chip hchip,
      ?_⟩
    · have hcmd : (linesSet (torqueMask s) (stoPulses s)).saf.lineCmd = torqueMask s &&& ~~~ s.saf.rberr := by
        rw [← stoPulses_saf s]
        rfl
      rw [hcmd, hasBit_and, Bool.and_eq_true, hasBit_torqueMask hg]
      simp [hasBit, hg, and_assoc]
    · exact (congrArg SafSt.g (stoPulses_saf s) :)
    · simpa [linesSet] using only_mono (by decide) (only_stoPulses s)
  · have hquiet : quiet s (stoPulses s) := quiet_of_chip (only_stoPulses s .chip (by decide))
    exact ⟨_, run_of_quiet (stoLineSwitch_of_dead h) hquiet, hquiet, only_stoPulses s⟩
  · have hstop := stoPulses_reaches hg hdef hsto ha hdst hc
    have hissued := (keepsStopped_stoPulses c s).issued
    have haxio : (stoLineSwitch s).axio = (stoPulses s).axio := by
      rw [stoLineSwitch_eq]
      split <;> rfl
    have hchan : chSt (settle s (stoLineSwitch s)) c = chSt (stoPulses s) c := by rw [chSt, settle_axio, haxio, chSt]
    obtain ⟨hsched, hnext, hstepped⟩ := hstop
    exact ⟨_, rfl, hchan ▸ hsched, hchan ▸ hnext, hchan ▸ hstepped.trans hissued⟩
  · exact ⟨_, run_of_quiet (stoRefresh_of_fresh hd hw h) ⟨rfl, rfl, rfl⟩, rfl, ⟨rfl, rfl, rfl⟩, by simp⟩
  · obtain ⟨t, ht, hdead, hcmd, hlast, hvote, -, hlog, ho⟩ := run_of_linesLow (stoRefresh_of_repeated hd hw hseen hword) hd
    exact ⟨t, ht, hdead, hcmd, hlast, hvote, hlog, ho⟩
  · exact ⟨_, run_of_quiet (stoReadback_of_good h) ⟨rfl, rfl, rfl⟩, rfl, ⟨rfl, rfl, rfl⟩, by simp⟩
  · obtain ⟨u, hu⟩ : ∃ u, u = onSaf (fun f => { f with level := l }) s := ⟨_, rfl⟩
    have hx : stoReadback l s = lateDecision g (decideSto g 20 20 (faultNoted g u)) := by
      rw [stoReadback_of_bad hg h, ← hu]
      exact readbackFault_of_torqueOn hg (by simpa [hu] using hlen) (by simpa [hu, safG] using hr)
    have hg_noted : g < (faultNoted g u).saf.g.length := by simpa [faultNoted_saf hg, hu] using hlen
    obtain ⟨hsaf, ho, -⟩ := lateSto (s := faultNoted g u) (stocause := 20) (cause := 20) hg_noted
    have hgroup : safG (settle s (lateDecision g (decideSto g 20 20 (faultNoted g u)))) g =
        stoDecided 20 20 (faultNoted g u).time.tickno { latched 16 (safG u g) with rbBlock := true } := by
      rw [safG_settle, safG_lateDecision, safG_decideSto hg_noted, safG_faultNoted hg (by simpa [hu] using hlen)]
    refine ⟨_, congrArg (fun t => Host.Outcome.next (settle s t)) hx, ?_, ?_, congrArg SafGroup.state hgroup,
      congrArg SafGroup.stocause hgroup, congrArg SafGroup.aLatch hgroup, congrArg SafGroup.rbBlock hgroup, ?_, ?_⟩
    · rw [settle_saf, hsaf, decideSto_saf, faultNoted_saf hg]
      exact hasBit_or_bitOf hg _
    · rw [settle_saf, hsaf, decideSto_saf, faultNoted_saf hg]
      exact hasBit_andNot_bitOf _
    · rw [settle_saf, hsaf]
      refine onlyAt_trans ?_ (onlyAt_decideSto ..)
      rw [faultNoted_saf hg, hu]
      exact onlyAt_trans (onlyAt_updAt ..) (onlyAt_updAt ..)
    · refine (only_settle_iff (by decide)).2 (only_trans ?_ (only_mono (by decide) ho))
      simp [faultNoted, hu]

end Sys2Proof.Machine

/-! PROOF. PairRoles: the heartbeat, takeover, handover and fitness of a pair, and the obligation on its roles
(R425, R433 to R438, R441). -/

namespace Sys2Proof.Machine

/-! ### The fitness of a standby (R433) -/

section
variable {c : Nat} {s : State}

/-- A pair record with an unfit cause latched: the first stays. -/
def unfitFor (c : Nat) (p : PairSt) : PairSt := { p with unfit := if p.unfit = 0 then c else p.unfit, fit := false }

/-- Of the pair an unfit cause moves the cause, the fitness and the vote. -/
theorem setUnfit_of_standby (hr : s.pair.role = 2) (c : Nat) :
    ∃ v, setUnfit c s = onPair (fun p => { unfitFor c p with vote := v }) s := by
  rw [setUnfit, hr]
  exact ⟨voteLevel (onPair (unfitFor c) s), rfl⟩

@[simp] theorem only_driveVote {ps : List Part} {t : State} (h : .pair ∈ ps) : only ps s (driveVote t) ↔ only ps s t :=
  only_onPair h

theorem driveVote_pair (s : State) : (driveVote s).pair = { s.pair with vote := voteLevel s } := rfl

@[simp] theorem only_setUnfit {ps : List Part} {t : State} (h : .pair ∈ ps) : only ps s (setUnfit c t) ↔ only ps s t := by
  simp [setUnfit, h]

@[simp] theorem only_endB {ps : List Part} {t : State} {src i : Nat} (h : .saf ∈ ps) :
    only ps s (endB src i t) ↔ only ps s t := only_onSaf h

theorem selftestRound_good (hr : s.pair.role = 2) :
    selftestRound true s = onPair (fun p => { p with rounds := satAdd 0xFFFFFFFF p.rounds 1 }) s := by
  rw [selftestRound, hr]
  rfl

theorem selftestRound_bad (hr : s.pair.role = 2) : selftestRound false s = setUnfit 2 s := by
  rw [selftestRound, hr]
  rfl

theorem selftestRound_of_other (hr : s.pair.role ≠ 2) (b : Bool) : selftestRound b s = s := by
  simp [selftestRound, hr]

/-! ### The fitness as the active has it (R433, R434) -/

/-- The active notes that its standby is unfit, as a class B condition. -/
def unfitNoted (s : State) : State := addB 9 0 (defined s) 0x0193 (onPair (fun p => { p with wasUnfit := true }) s)

theorem standbyFitness_of_unfit (h : s.pair.wasUnfit = false) : standbyFitness true s = event 0x0193 0 (unfitNoted s) := by
  simp only [standbyFitness, h]
  rfl

theorem standbyFitness_of_noted (h : s.pair.wasUnfit = true) : standbyFitness true s = s := by
  simp [standbyFitness, h]

theorem standbyFitness_of_fit (h : s.pair.wasUnfit = true) : standbyFitness false s =
    event 0x0194 0 (endB 9 0 (onPair (fun p => { p with wasUnfit := false }) s)) := by
  simp [standbyFitness, h]

theorem standbyFitness_of_good (h : s.pair.wasUnfit = false) : standbyFitness false s = s := by
  simp [standbyFitness, h]

theorem only_addB_self (src i code : Nat) (m : Mask) (s : State) : only [.saf] s (addB src i m code s) := by simp

theorem unfitNoted_pair (s : State) : (unfitNoted s).pair = { s.pair with wasUnfit := true } :=
  only_addB_self 9 0 0x0193 (defined s) (onPair (fun p => { p with wasUnfit := true }) s) .pair (by decide)

theorem logged_unfitNoted (s : State) : logged 0x0193 0 s (event 0x0193 0 (unfitNoted s)) := by
  have ho : only [.saf, .pair] s (unfitNoted s) := by simp [unfitNoted]
  exact logged_event (quiet_of_chip (ho .chip (by decide))) (ho .time (by decide))

theorem standbyFitTimeout_of_late (hr : s.pair.role = 1) (hrun : s.time.run = true) (hp : s.pair.pfit = false)
    (h : 10000000000 ≤ s.time.tickno * periodNs s) (hw : s.pair.wasUnfit = false) :
    standbyFitTimeout s = event 0x0193 0 (unfitNoted s) := by
  rw [← standbyFitness_of_unfit hw]
  simp [standbyFitTimeout, hr, hrun, hp, h]

theorem standbyFitTimeout_of_fit (hp : s.pair.pfit = true) : standbyFitTimeout s = s := by
  simp [standbyFitTimeout, hp]

/-! ### The vote (R425) -/

theorem voteReadback_of_good {v : Bool} (h : v = voteLevel s ∨ s.pair.cfg = false) :
    voteReadback v s = onPair (fun p => { p with vote := v }) s := by
  refine if_pos ?_
  rcases h with h | h
  · simp [h]
  · simp [h]

theorem voteReadback_of_active {v : Bool} (h : v ≠ voteLevel s) (hc : s.pair.cfg = true) (hr : s.pair.role = 1) :
    voteReadback v s = classA (defined s) 16 0x0822 (onPair (fun p => { p with vote := v }) s) :=
  (if_neg (by simp [h, hc])).trans (if_pos hr)

theorem voteReadback_of_standby {v : Bool} (h : v ≠ voteLevel s) (hc : s.pair.cfg = true) (hr : s.pair.role = 2) :
    voteReadback v s = onPair (fun p => { p with vote := v }) (setUnfit 8 (onPair (fun p => { p with vote := v }) s)) :=
  (if_neg (by simp [h, hc])).trans (if_neg (by simp [hr]))

theorem quiet_classA (m : Mask) (src code : Nat) (s : State) : quiet s (classA m src code s) := by
  obtain ⟨w, k, b, hbb⟩ := bbTrigger_eq 2 code (recTrip s)
  rw [classA, demandStop_eq, latchA_eq, hbb]
  unfold recTrip
  split <;> exact ⟨rfl, rfl, rfl⟩

/-! ### Health reports (R441) -/

theorem healthReport_of_standby (hr : s.pair.role = 2) : ∃ f, healthReport s = sendNet 1 f (sendNet 0 f
    (onPair (fun p => { p with healthOut := some (healthOf s), healthSent := p.healthSent + 1, unfed := 0 }) s)) := by
  rw [healthReport, if_pos hr]
  exact ⟨_, rfl⟩

theorem healthReport_of_other (hr : s.pair.role ≠ 2) : healthReport s = s := if_neg hr

theorem only_sendNet (n : Nat) (f : TxFrame) (s : State) : only [.chip, .host] s (sendNet n f s) := by
  unfold sendNet
  split
  · simp
  · exact only_refl _ s

theorem healthReceived_of_other {h : HealthReport} (hr : s.pair.role ≠ 1) : healthReceived h s = s := if_neg hr

theorem healthReceived_of_active (hr : s.pair.role = 1) (h : HealthReport) : healthReceived h s =
    if 16 ≤ s.image.pairCfg.hmbox && s.image.pairCfg.hmbox ≤ 23 then
      pushEntry s.image.pairCfg.hmbox { bytes := healthBytes h } (onPair (fun p => { p with health := some h }) s)
    else onPair (fun p => { p with health := some h }) s := if_pos hr

/-- A push raises no event and reaches HOST and the bound flows only. -/
theorem pushEntry_kept (q : Nat) (e : QEntry) (s : State) : quiet s (pushEntry q e s) ∧
    only [.chip, .host] s (pushEntry q e s) := by
  unfold pushEntry
  split
  · exact ⟨⟨rfl, rfl, rfl⟩, by simp⟩
  · dsimp only
    split
    · exact ⟨⟨rfl, rfl, rfl⟩, by simp⟩
    · exact ⟨⟨rfl, rfl, rfl⟩, by simp⟩

end

/-! ### Heartbeats (R435) -/

section
variable {a : Nat} {ccw : Bool} {h : RingHead} {m : Heartbeat} {s : State}

theorem heartbeatFrame_of_off (hr : (ringSt s 0).role = 0 ∨ (ringSt s 0).state = .down) : heartbeatFrame ccw a h m s = s := by
  rcases hr with hr | hr <;> simp [heartbeatFrame, hr]

/-- A valid frame at an end of the pair: its heartbeat counts when it is one of this tick with data. -/
theorem heartbeatFrame_of_end (hr : (ringSt s 0).role ≠ 0) (hs : (ringSt s 0).state ≠ .down) (hf : frameOk s 0 h = true)
    (hp : s.pair.role = 1 ∨ s.pair.role = 2) : heartbeatFrame ccw a h m s =
      if m.tick = s.time.tickno && !h.null then onPair (fun p => { p with hbIn := true, pfit := m.fit }) (heard 0 a s)
      else heard 0 a s := by
  unfold heartbeatFrame
  rw [if_neg (by simp [hr, hs]), hf, if_neg (by decide)]
  exact if_pos (by rcases hp with hp | hp <;> simp [heard_eq, hp])

end

section
variable {i : Nat} {s : State}

/-- Path i of the pair is lost, as a class B condition. -/
def lostPath (i : Nat) (s : State) : Bool := s.saf.bconds.any (fun c => c.src == 8 && c.idx == i)

theorem judgePath_of_lost (h : lostPath i s = true) : judgePath i false s = s := by
  have h' : s.saf.bconds.any (fun c => c.src == 8 && c.idx == i) = true := h
  simp only [judgePath, h']
  rfl

theorem judgePath_of_new (h : lostPath i s = false) : judgePath i false s = event 0x0190 i (onSaf (fun f => { f with
    bconds := f.bconds ++ [{ src := 8, idx := i, scope := defined s }], lastB := 0x0190 }) s) := by
  have h' : s.saf.bconds.any (fun c => c.src == 8 && c.idx == i) = false := h
  simp only [judgePath, addB, h']
  rfl

theorem lostPath_judgePath (i : Nat) (s : State) : lostPath i (judgePath i false s) = true := by
  cases h : lostPath i s
  · rw [judgePath_of_new h]
    simp [lostPath]
  · rwa [judgePath_of_lost h]

theorem lostPath_judgePath_of_lost {j : Nat} (hj : lostPath j s = true) : lostPath j (judgePath i false s) = true := by
  cases h : lostPath i s
  · rw [judgePath_of_new h]
    have hj' : s.saf.bconds.any (fun c => c.src == 8 && c.idx == j) = true := hj
    simp [lostPath, hj']
  · rwa [judgePath_of_lost h]

theorem only_judgePath (i : Nat) (ok : Bool) (s : State) : only [.chip, .saf] s (judgePath i ok s) := by
  unfold judgePath
  split
  · simp
  · split
    · exact only_refl _ s
    · simp

/-- The heartbeat has come over the pair link in this tick (R435). -/
def linkLives (s : State) : Bool :=
  s.pair.linkUp && !s.pair.linkFell && (if s.pair.role = 2 then s.pair.fed else s.pair.statusIn)

/-- Both paths of the tick judged. -/
def pathsJudged (s : State) : State := judgePath 1 s.pair.hbIn (judgePath 0 (linkLives s) s)

/-- The pair record with the paths of the tick counted. -/
def withPaths (link ring : Bool) (p : PairSt) : PairSt :=
  { p with
    linkOk := link, ringOk := ring, lost := (if link || ring then 0 else min 255 (p.lost + 1)),
    lostRaised := p.lostRaised && !(link || ring) }

/-- The count of the ticks with both paths lost. -/
def pathsCounted (s : State) : State := onPair (withPaths (linkLives s) s.pair.hbIn) (pathsJudged s)

theorem only_pathsJudged (s : State) : only [.chip, .saf] s (pathsJudged s) :=
  only_trans (only_judgePath 0 (linkLives s) s) (only_judgePath 1 s.pair.hbIn _)

theorem pathsCounted_pair (s : State) : (pathsCounted s).pair = withPaths (linkLives s) s.pair.hbIn s.pair :=
  congrArg (withPaths (linkLives s) s.pair.hbIn) (only_pathsJudged s .pair (by decide))

theorem only_pathsCounted (s : State) : only [.chip, .saf, .pair] s (pathsCounted s) :=
  (only_onPair (by decide)).2 (only_mono (by decide) (only_pathsJudged s))

theorem heartbeatCount_of_end (hr : s.pair.role = 1 ∨ s.pair.role = 2) : heartbeatCount s =
    if max 2 s.image.pairCfg.hbn ≤ (pathsCounted s).pair.lost then pathsGone (pathsCounted s) else pathsCounted s := by
  have himage : s.image = (pathsCounted s).image := (only_pathsCounted s .image (by decide)).symm
  rw [himage]
  exact if_neg (by rcases hr with hr | hr <;> simp [hr])

theorem heartbeatCount_of_other (h1 : s.pair.role ≠ 1) (h2 : s.pair.role ≠ 2) : heartbeatCount s = s := by
  simp [heartbeatCount, h1, h2]

theorem linkLives_of_silent (h : s.pair.linkUp = false ∨ s.pair.linkFell = true ∨
    (if s.pair.role = 2 then s.pair.fed else s.pair.statusIn) = false) : linkLives s = false := by
  rw [linkLives]
  rcases h with h | h | h <;> rw [h] <;> simp

/-- With both paths lost both stand as class B conditions. -/
theorem lostPath_pathsJudged (hl : linkLives s = false) (hh : s.pair.hbIn = false) (hi : i < 2) :
    lostPath i (pathsJudged s) = true := by
  rw [pathsJudged, hl, hh]
  match i, hi with
  | 0, _ => exact lostPath_judgePath_of_lost (lostPath_judgePath 0 s)
  | 1, _ => exact lostPath_judgePath 1 _

/-- The active notes the loss of both paths once, and keeps its role. -/
theorem pathsGone_of_active (hr : s.pair.role = 1) : (pathsGone s).pair = { s.pair with lostRaised := true } ∧
    (pathsGone s).saf = s.saf ∧ only [.chip, .pair] s (pathsGone s) := by
  unfold pathsGone
  rw [if_pos hr]
  cases h : s.pair.lostRaised
  · exact ⟨rfl, rfl, by simp⟩
  · exact ⟨(congrArg (fun b => { s.pair with lostRaised := b }) h :), rfl, only_refl _ s⟩

theorem pathsGone_of_voted (hr : s.pair.role = 2) (hv : s.pair.pvoteHigh = true) : pathsGone s =
    if s.pair.unfit = 5 then s else event 0x0198 0 (setUnfit 5 s) := by
  simp [pathsGone, hr, hv]

theorem pathsGone_of_unvoted (hr : s.pair.role = 2) (hv : s.pair.pvoteHigh = false) : pathsGone s =
    if s.pair.fit then onPair (fun p => { p with takeNext := true }) s else s := by
  simp [pathsGone, hr, hv]

theorem only_pathsGone (s : State) : only [.chip, .pair] s (pathsGone s) := by
  unfold pathsGone
  split
  · split
    · exact only_refl _ s
    · simp
  · split
    · split
      · exact only_refl _ s
      · simp
    · split
      · simp
      · exact only_refl _ s

end

/-! ### Takeover and handover (R437, R438) -/

section
variable {r : Nat} {s : State}

/-- Ring r with this node as its master, its links to the former one a break. -/
def ringTaken (tick : Nat) (x : RingSt) : RingSt :=
  { x with
    members := x.members &&& ~~~ bitOf 32 x.master, absent := x.absent ||| bitOf 32 x.master, master := x.node,
    broken := max 1 x.broken, restEff := none, routeAt := some (tick + 1) }

theorem takeRing_of_off (h : (ringSt s r).role = 0 ∨ (ringSt s r).state = .down) : takeRing r s = s := by
  rcases h with h | h <;> simp [takeRing, h]

theorem takeRing_of_on (hr : (ringSt s r).role ≠ 0) (hs : (ringSt s r).state ≠ .down) :
    ∃ a b : RingSt → Nat, takeRing r s = onRing r (fun x => { ringTaken s.time.tickno x with brkA := a x, brkB := b x }) s := by
  have hoff : ¬ ((ringSt s r).role = 0 || (ringSt s r).state == .down) = true := by simp [hr, hs]
  cases hup : neighbour s r true == some (ringSt s r).master
  · refine ⟨fun x => x.node, fun x => (ringNodes (onRing r (ringTaken s.time.tickno) s) r).head?.getD x.node, ?_⟩
    refine (if_neg hoff).trans ?_
    rw [hup]
    exact onRing_onRing ..
  · refine ⟨fun x => (ringNodes (onRing r (ringTaken s.time.tickno) s) r).getLast?.getD x.node, fun x => x.node, ?_⟩
    refine (if_neg hoff).trans ?_
    rw [hup]
    exact onRing_onRing ..

theorem takeRing_kept (r : Nat) (s : State) : only [.ring] s (takeRing r s) ∧ onlyAt r s.ring (takeRing r s).ring := by
  by_cases h : (ringSt s r).role = 0 ∨ (ringSt s r).state = .down
  · rw [takeRing_of_off h]
    exact ⟨only_refl _ s, rfl, fun _ _ => rfl⟩
  · obtain ⟨a, b, hx⟩ := takeRing_of_on (fun h0 => h (.inl h0)) (fun h0 => h (.inr h0))
    rw [hx]
    exact ⟨by simp, onlyAt_updAt ..⟩

/-- Both rings of the device taken. -/
def ringsTaken (s : State) : State := takeRing 1 (takeRing 0 s)

theorem only_ringsTaken (s : State) : only [.ring] s (ringsTaken s) := only_trans (takeRing_kept 0 s).1 (takeRing_kept ..).1

theorem ringSt_ringsTaken (h2 : r < 2) (hlen : r < s.ring.length) (hr : (ringSt s r).role ≠ 0)
    (hs : (ringSt s r).state ≠ .down) : ∃ a b,
      ringSt (ringsTaken s) r = { ringTaken s.time.tickno (ringSt s r) with brkA := a, brkB := b } := by
  match r, h2 with
  | 0, _ =>
    obtain ⟨a, b, hx⟩ := takeRing_of_on hr hs
    refine ⟨a (ringSt s 0), b (ringSt s 0), ((takeRing_kept 1 (takeRing 0 s)).2.2 0 (by decide)).trans ?_⟩
    rw [hx]
    exact ringSt_onRing hlen _
  | 1, _ =>
    obtain ⟨ho, hlen', hother⟩ := takeRing_kept 0 s
    have hsame : ringSt (takeRing 0 s) 1 = ringSt s 1 := hother 1 (by decide)
    have htime : (takeRing 0 s).time = s.time := ho .time (by decide)
    obtain ⟨a, b, hx⟩ := takeRing_of_on (s := takeRing 0 s) (hsame ▸ hr) (hsame ▸ hs)
    refine ⟨a (ringSt s 1), b (ringSt s 1), ?_⟩
    rw [ringsTaken, hx, ringSt_onRing (hlen' ▸ hlen), hsame, htime]

/-- The clock and PROFILE of the time base. -/
def TimeSt.base (t : TimeSt) : Clock × Nat := (t.clock, t.profile)

@[simp] theorem slewTo_base (a : Nat) (s : State) : (slewTo a s).time.base = s.time.base := by
  obtain ⟨r, x, y, hs⟩ := slewTo_eq a s
  rw [hs]
  rfl

@[simp] theorem servoTo_base (a : Nat) (o d : Int) (s : State) : (servoTo a o d s).time.base = s.time.base := by
  obtain ⟨r, x, y, hs⟩ := servoTo_eq a o d s
  rw [hs]
  rfl

@[simp] theorem enterHoldover_base (a : Nat) (s : State) : (enterHoldover a s).time.base = s.time.base := by
  unfold enterHoldover
  split
  · rfl
  · dsimp only
    split <;> exact slewTo_base a s

@[simp] theorem followDom_base (d a : Nat) (s : State) : (followDom d a s).time.base = s.time.base := by
  unfold followDom
  dsimp only
  split
  · split
    · rfl
    · exact enterHoldover_base a s
  · split
    · rw [servoTo_base]
      split <;> rfl
    · rw [servoTo_base]
      rfl

@[simp] theorem selectDomain_base (a : Nat) (s : State) : (selectDomain a s).time.base = s.time.base := by
  unfold selectDomain
  simp [apply_ite State.time, apply_ite TimeSt.base]

/-- A new active takes the PROFILE of the image, and its clock runs on. -/
theorem takeTime_base (s : State) : (takeTime s).time.base = (s.time.clock, s.image.profile) := by
  unfold takeTime
  dsimp only
  split
  · exact slewTo_base _ (onTime (fun t => { t with profile := s.image.profile, servo := _, everFoll := false }) s)
  · exact selectDomain_base ..

theorem only_takeTime (s : State) : only [.chip, .time] s (takeTime s) := by
  unfold takeTime
  dsimp only
  split <;> simp

/-- The pair record of a new active. -/
def activePair (cause tick : Nat) (p : PairSt) : PairSt :=
  { p with
    role := 1, takeNext := false, lost := 0, hoCause := cause, hoTick := tick % 2 ^ 28, hoAck := false, hoBeacon := false,
    hoReq := none, hoEsc := false, lstop := 0, ldeg := 0 }

/-- The new active before its time base is taken. -/
def ringsTakenOver (cause : Nat) (s : State) : State :=
  driveVote (ringsTaken (endB 10 0 (onPair (activePair cause s.time.tickno) s)))

theorem becomeActive_eq (cause : Nat) (s : State) : becomeActive cause s = takeTime (ringsTakenOver cause s) := rfl

theorem only_ringsTakenOver (cause : Nat) (s : State) : only [.ring, .saf, .pair] s (ringsTakenOver cause s) := by
  refine (only_driveVote (by decide)).2 (only_trans ?_ (only_mono (by decide) (only_ringsTaken _)))
  simp

theorem becomeActive_pair (cause : Nat) (s : State) :
    ∃ v, (becomeActive cause s).pair = { activePair cause s.time.tickno s.pair with vote := v } := by
  have hrings := only_ringsTaken (endB 10 0 (onPair (activePair cause s.time.tickno) s)) .pair (by decide)
  have htime : (becomeActive cause s).pair = (ringsTakenOver cause s).pair := only_takeTime _ .pair (by decide)
  refine ⟨voteLevel (ringsTaken (endB 10 0 (onPair (activePair cause s.time.tickno) s))), htime.trans ?_⟩
  rw [ringsTakenOver, driveVote_pair, hrings]
  rfl

theorem becomeActive_base (cause : Nat) (s : State) : (becomeActive cause s).time.base = (s.time.clock, s.image.profile) := by
  have htime : (ringsTakenOver cause s).time = s.time := only_ringsTakenOver cause s .time (by decide)
  have himage : (ringsTakenOver cause s).image = s.image := only_ringsTakenOver cause s .image (by decide)
  rw [becomeActive_eq, takeTime_base, htime, himage]

theorem becomeActive_host (cause : Nat) (s : State) : (becomeActive cause s).host = s.host :=
  (only_takeTime _ .host (by decide) : _ = _).trans (only_ringsTakenOver cause s .host (by decide))

theorem ringSt_becomeActive {cause : Nat} (h2 : r < 2) (hlen : r < s.ring.length) (hr : (ringSt s r).role ≠ 0)
    (hs : (ringSt s r).state ≠ .down) : ∃ a b, ringSt (becomeActive cause s) r =
      { ringTaken s.time.tickno (ringSt s r) with brkA := a, brkB := b } := by
  have htime : (becomeActive cause s).ring = (ringsTakenOver cause s).ring := only_takeTime _ .ring (by decide)
  rw [ringSt, htime]
  exact ringSt_ringsTaken (s := endB 10 0 (onPair (activePair cause s.time.tickno) s)) h2 hlen hr hs

theorem takeover_of_due (hr : s.pair.role = 2) (ht : s.pair.takeNext = true) (hb : s.pair.hoBeacon = false) :
    takeover s = event 0x0195 0 (becomeActive 1 s) := by
  simp [takeover, hr, ht, hb]

theorem takeover_of_other (h : s.pair.role ≠ 2 ∨ s.pair.takeNext = false ∨ s.pair.hoBeacon = true) : takeover s = s := by
  rcases h with h | h | h <;> simp [takeover, h]

/-- The cause code of a handover. -/
def handoverCause (s : State) : Nat := if s.pair.hoEsc = true then 2 else 3

theorem handover_of_active (hr : s.pair.role = 1) (ha : s.pair.hoAck = true) :
    handover s = event 0x0196 0 (becomeFormer (handoverCause s) s) := by
  simp [handover, hr, ha, handoverCause]

theorem handover_of_standby (hr : s.pair.role = 2) (hb : s.pair.hoBeacon = true) :
    handover s = event 0x0196 0 (becomeActive (handoverCause s) s) := by
  simp [handover, hr, hb, handoverCause]

theorem handover_of_none (ha : s.pair.hoAck = false) (hb : s.pair.hoBeacon = false) : handover s = s := by
  simp [handover, ha, hb]

/-- A former active drives no vote. -/
theorem voteLevel_of_former (hc : s.pair.cfg = true) (hr : s.pair.role = 3) : voteLevel s = false := by
  simp [voteLevel, hc, hr]

end

section
variable {s : State}

/-- The active whose paths are both lost counts the tick, and notes the loss at HBN ticks. -/
theorem heartbeatCount_of_active_alone (hr : s.pair.role = 1) (hl : linkLives s = false) (hh : s.pair.hbIn = false) :
    ∃ b, (heartbeatCount s).pair = { withPaths false false s.pair with lostRaised := b } ∧
      (max 2 s.image.pairCfg.hbn ≤ min 255 (s.pair.lost + 1) → b = true) ∧ (heartbeatCount s).saf = (pathsJudged s).saf ∧
      only [.chip, .saf, .pair] s (heartbeatCount s) := by
  have hpair : (pathsCounted s).pair = withPaths false false s.pair := by rw [pathsCounted_pair, hl, hh]
  have hlost : (pathsCounted s).pair.lost = min 255 (s.pair.lost + 1) := by rw [hpair]; rfl
  rw [heartbeatCount_of_end (.inl hr), hlost]
  by_cases hlate : max 2 s.image.pairCfg.hbn ≤ min 255 (s.pair.lost + 1)
  · obtain ⟨hgone, hsaf, ho⟩ := pathsGone_of_active (s := pathsCounted s) (by rw [hpair]; exact hr)
    rw [if_pos hlate]
    exact ⟨true, by rw [hgone, hpair], fun _ => rfl, hsaf, only_trans (only_pathsCounted s) (only_mono (by decide) ho)⟩
  · rw [if_neg hlate]
    exact ⟨_, hpair, fun h => absurd h hlate, rfl, only_pathsCounted s⟩

/-- The standby at HBN ticks without a path. -/
theorem heartbeatCount_of_standby_alone (hr : s.pair.role = 2) (hl : linkLives s = false) (hh : s.pair.hbIn = false)
    (hlate : max 2 s.image.pairCfg.hbn ≤ min 255 (s.pair.lost + 1)) : ∃ u, u.pair = withPaths false false s.pair ∧
      heartbeatCount s = pathsGone u ∧ only [.chip, .saf, .pair] s u := by
  have hpair : (pathsCounted s).pair = withPaths false false s.pair := by rw [pathsCounted_pair, hl, hh]
  refine ⟨pathsCounted s, hpair, ?_, only_pathsCounted s⟩
  rw [heartbeatCount_of_end (.inr hr), if_pos]
  rw [hpair]
  exact hlate

/-- A standby whose peer voted keeps its role, and becomes unfit with cause 5. -/
theorem pathsGone_pair_of_voted (hr : s.pair.role = 2) (hv : s.pair.pvoteHigh = true) :
    (pathsGone s).pair.role = 2 ∧ (pathsGone s).pair.takeNext = s.pair.takeNext ∧
      (s.pair.unfit = 0 → (pathsGone s).pair.unfit = 5 ∧ (pathsGone s).pair.fit = false) := by
  rw [pathsGone_of_voted hr hv]
  by_cases h5 : s.pair.unfit = 5
  · rw [if_pos h5]
    exact ⟨hr, rfl, fun h => by omega⟩
  · obtain ⟨v, hx⟩ := setUnfit_of_standby hr 5
    rw [if_neg h5, event_pair, hx]
    exact ⟨hr, rfl, fun h => ⟨if_pos h, rfl⟩⟩

/-- A standby whose peer did not vote keeps its role in the tick, and a fit one takes over at the next E0. -/
theorem pathsGone_pair_of_unvoted (hr : s.pair.role = 2) (hv : s.pair.pvoteHigh = false) :
    (pathsGone s).pair.role = 2 ∧
      (s.pair.fit = true → (pathsGone s).pair.takeNext = true ∧ (pathsGone s).pair.unfit = s.pair.unfit) := by
  rw [pathsGone_of_unvoted hr hv]
  split
  · exact ⟨hr, fun _ => ⟨rfl, rfl⟩⟩
  · exact ⟨hr, fun h => absurd h ‹_›⟩

end

/-- Settles O52: each command is one update of the pair record; a takeover also takes the rings and the time base. -/
theorem pairRoles : Obligations.PairRoles := by
  refine ⟨fun ccw a h m s hr hs hf hp => ⟨fun htick hnull => ?_, fun hother => ?_⟩,
    fun ccw a h m s hoff => run_of_unchanged (heartbeatFrame_of_off hoff), fun s hr hlive => ?_, fun s hr hh hsilent => ?_,
    fun s hr hh hsilent hlate => ?_, fun s h1 h2 => run_of_unchanged (heartbeatCount_of_other h1 h2), fun s hr ht hb => ?_,
    fun s h => run_of_unchanged (takeover_of_other h), fun s hr ha hc => ?_, fun s hr hb => ?_,
    fun s ha hb => run_of_unchanged (handover_of_none ha hb), fun s hr hrun hp h hw => ?_,
    fun s hp => run_of_unchanged (standbyFitTimeout_of_fit hp), fun s hr => ⟨?_, ?_⟩,
    fun b s hr => run_of_unchanged (selftestRound_of_other hr b), fun s hr => ?_,
    fun s hr => run_of_unchanged (healthReport_of_other hr), fun h s hr => ?_,
    fun h s hr => run_of_unchanged (healthReceived_of_other hr), fun v s hv => ?_,
    fun v s hv hc => ⟨fun hr => ?_, fun hr => ?_⟩, fun v s => ?_⟩
  · have hx := (heartbeatFrame_of_end (a := a) (ccw := ccw) (m := m) hr hs hf hp).trans (if_pos (by simp [htick, hnull]))
    exact ⟨_, run_of_quiet hx ⟨rfl, rfl, rfl⟩, rfl, ⟨rfl, rfl, rfl⟩, by simp [heard_eq]⟩
  · have hx := (heartbeatFrame_of_end (a := a) (ccw := ccw) (m := m) hr hs hf hp).trans
      (if_neg (by rcases hother with h | h <;> simp [h]))
    exact ⟨_, run_of_quiet hx ⟨rfl, rfl, rfl⟩, ⟨rfl, rfl, rfl⟩, by simp [heard_eq]⟩
  · have hlives : (linkLives s || s.pair.hbIn) = true := by
      rcases hlive with h | ⟨hup, hfell, hfed, hstatus⟩
      · simp [h]
      · rcases hr with hr | hr <;> simp [linkLives, hup, hfell, hr, hfed, hstatus]
    have hpair := pathsCounted_pair s
    have hlost : (pathsCounted s).pair.lost = 0 := by simp [hpair, withPaths, hlives]
    have hx := (heartbeatCount_of_end hr).trans (if_neg (by rw [hlost]; omega))
    have hafter : (settle s (pathsCounted s)).pair = withPaths (linkLives s) s.pair.hbIn s.pair := by rw [settle_pair, hpair]
    exact ⟨_, congrArg (fun t => Host.Outcome.next (settle s t)) hx, (settle_pair .. ▸ hlost :),
      (congrArg PairSt.role hafter :), (congrArg PairSt.takeNext hafter :), congrArg PairSt.ringOk hafter,
      (only_settle_iff (by decide)).2 (only_pathsCounted s)⟩
  · have hl : linkLives s = false := linkLives_of_silent (by simpa [hr] using hsilent)
    obtain ⟨b, hpair, hraised, hsaf, ho⟩ := heartbeatCount_of_active_alone hr hl hh
    have hafter : (settle s (heartbeatCount s)).pair = { withPaths false false s.pair with lostRaised := b } := by
      rw [settle_pair, hpair]
    refine ⟨_, rfl, congrArg PairSt.lost hafter, congrArg PairSt.linkOk hafter, congrArg PairSt.ringOk hafter,
      (congrArg PairSt.role hafter).trans hr, (congrArg PairSt.takeNext hafter :),
      fun hlate => (congrArg PairSt.lostRaised hafter).trans (hraised hlate), fun i hi => ?_, (only_settle_iff (by decide)).2 ho⟩
    rw [settle_saf, hsaf]
    exact lostPath_pathsJudged hl hh hi
  · have hl : linkLives s = false := linkLives_of_silent (by simpa [hr] using hsilent)
    obtain ⟨u, hpair, hx, ho⟩ := heartbeatCount_of_standby_alone hr hl hh hlate
    have hrole : u.pair.role = 2 := by rw [hpair]; exact hr
    refine ⟨_, congrArg (fun t => Host.Outcome.next (settle s t)) hx, ?_, fun hv hfit => ?_, fun hv => ?_, ?_⟩
    · rw [settle_pair]
      cases hv : u.pair.pvoteHigh
      · exact (pathsGone_pair_of_unvoted hrole hv).1
      · exact (pathsGone_pair_of_voted hrole hv).1
    · obtain ⟨-, htake⟩ := pathsGone_pair_of_unvoted hrole (by rw [hpair]; exact hv)
      rw [settle_pair]
      rw [hpair] at htake
      exact htake hfit
    · obtain ⟨-, htake, hunfit⟩ := pathsGone_pair_of_voted hrole (by rw [hpair]; exact hv)
      rw [settle_pair]
      rw [hpair] at htake hunfit
      exact ⟨htake, hunfit⟩
    · exact (only_settle_iff (by decide)).2 (only_trans ho (only_mono (by decide) (only_pathsGone u)))
  · obtain ⟨v, hpair⟩ := becomeActive_pair 1 s
    have hbase := becomeActive_base 1 s
    have hring (r : Nat) : ringSt (settle s (event 0x0195 0 (becomeActive 1 s))) r = ringSt (becomeActive 1 s) r := by
      rw [ringSt, settle_ring, event_ring, ringSt]
    have hafter : (settle s (event 0x0195 0 (becomeActive 1 s))).pair =
        { activePair 1 s.time.tickno s.pair with vote := v } := by rw [settle_pair, event_pair, hpair]
    refine ⟨_, congrArg (fun t => Host.Outcome.next (settle s t)) (takeover_of_due hr ht hb), congrArg PairSt.role hafter,
      congrArg PairSt.takeNext hafter, congrArg PairSt.hoCause hafter, ?_, ?_, ?_, fun r hlen h2 hrole hs => ?_⟩
    · rw [settle_time, event_time]
      exact congrArg (fun b => b.1.tickno) hbase
    · rw [settle_host, event_host, becomeActive_host]
    · rw [settle_time, event_time]
      exact congrArg Prod.snd hbase
    · obtain ⟨a, b, hx⟩ := ringSt_becomeActive (cause := 1) h2 hlen hrole hs
      rw [hring, hx]
      exact ⟨rfl, le_max_left .., rfl⟩
  · have hquiet : quiet s (becomeFormer (handoverCause s) s) := ⟨rfl, rfl, rfl⟩
    have hlog : logged 0x0196 0 s (event 0x0196 0 (becomeFormer (handoverCause s) s)) := logged_event hquiet rfl
    refine ⟨_, run_of_logged (handover_of_active hr ha) hlog, rfl, ?_, fun x hx => ?_, rfl, hlog, ?_⟩
    · exact voteLevel_of_former hc rfl
    · obtain ⟨y, -, rfl⟩ := List.mem_map.1 hx
      rfl
    · simp [becomeFormer, only_ring]
  · obtain ⟨v, hpair⟩ := becomeActive_pair (handoverCause s) s
    have hafter : (settle s (event 0x0196 0 (becomeActive (handoverCause s) s))).pair =
        { activePair (handoverCause s) s.time.tickno s.pair with vote := v } := by rw [settle_pair, event_pair, hpair]
    refine ⟨_, congrArg (fun t => Host.Outcome.next (settle s t)) (handover_of_standby hr hb), congrArg PairSt.role hafter,
      congrArg PairSt.hoCause hafter, ?_, ?_⟩
    · rw [settle_time, event_time]
      exact congrArg (fun b => b.1.tickno) (becomeActive_base (handoverCause s) s)
    · rw [settle_host, event_host, becomeActive_host]
  · have hlog := logged_unfitNoted s
    exact ⟨_, run_of_logged (standbyFitTimeout_of_late hr hrun hp h hw) hlog, unfitNoted_pair s, hlog, by simp [unfitNoted]⟩
  · exact ⟨_, run_of_quiet (selftestRound_good hr) ⟨rfl, rfl, rfl⟩, rfl, ⟨rfl, rfl, rfl⟩, by simp⟩
  · obtain ⟨v, hx⟩ := setUnfit_of_standby hr 2
    exact ⟨_, run_of_quiet ((selftestRound_bad hr).trans hx) ⟨rfl, rfl, rfl⟩, rfl, rfl, rfl, ⟨rfl, rfl, rfl⟩, by simp⟩
  · obtain ⟨f, hx⟩ := healthReport_of_standby hr
    have ho (u : State) : only [.chip, .host] u (sendNet 1 f (sendNet 0 f u)) :=
      only_trans (only_sendNet 0 f u) (only_sendNet 1 f _)
    have hpair (u : State) : (sendNet 1 f (sendNet 0 f u)).pair = u.pair := ho u .pair (by decide)
    have hafter := (settle_pair s _).trans (hpair (onPair (fun p => { p with
      healthOut := some (healthOf s), healthSent := p.healthSent + 1, unfed := 0 }) s))
    refine ⟨_, healthOf s, congrArg (fun t => Host.Outcome.next (settle s t)) hx, congrArg PairSt.healthOut hafter,
      congrArg PairSt.unfed hafter, congrArg PairSt.healthSent hafter, rfl, rfl, rfl, rfl, rfl, rfl, rfl, ?_⟩
    exact (only_settle_iff (by decide)).2 (only_trans (by simp) (only_mono (by decide) (ho _)))
  · have hx := healthReceived_of_active hr h
    split at hx
    · obtain ⟨hq, ho⟩ := pushEntry_kept s.image.pairCfg.hmbox { bytes := healthBytes h }
        (onPair (fun p => { p with health := some h }) s)
      refine ⟨_, run_of_quiet hx hq, ho .pair (by decide), fun _ _ hlen hroom => ?_, hq,
        only_trans (by simp) (only_mono (by decide) ho)⟩
      obtain ⟨b, hb⟩ := pushEntry_of_room (s := onPair (fun p => { p with health := some h }) s) hroom
        { bytes := healthBytes h }
      rw [hb]
      exact congrArg QueueSt.entries (nth_updAt_self _ _ _ hlen)
    · next hrange =>
      refine ⟨_, run_of_quiet hx ⟨rfl, rfl, rfl⟩, rfl, fun hlo hhi => absurd ?_ hrange, ⟨rfl, rfl, rfl⟩, by simp⟩
      simp [hlo, hhi]
  · exact ⟨_, run_of_quiet (voteReadback_of_good hv) ⟨rfl, rfl, rfl⟩, rfl, ⟨rfl, rfl, rfl⟩, by simp⟩
  · have hquiet : quiet s (classA (defined s) 16 0x0822 (onPair (fun p => { p with vote := v }) s)) := quiet_classA ..
    refine ⟨_, run_of_quiet (voteReadback_of_active hv hc hr) hquiet, classA_lastA .., fun g h16 hg hdef => ?_, hquiet, by simp⟩
    exact latched_and_stopped 16 0x0822 ((hasBit_defined h16).trans hdef) hg
  · obtain ⟨w, hx⟩ := setUnfit_of_standby (s := onPair (fun p => { p with vote := v }) s) hr 8
    have hx' := (voteReadback_of_standby hv hc hr).trans (congrArg (onPair (fun p => { p with vote := v })) hx)
    exact ⟨_, run_of_quiet hx' ⟨rfl, rfl, rfl⟩, rfl, rfl, ⟨rfl, rfl, rfl⟩, by simp⟩
  · exact ⟨_, run_of_quiet rfl ⟨rfl, rfl, rfl⟩, rfl, ⟨rfl, rfl, rfl⟩, by simp [peerVote]⟩

end Sys2Proof.Machine

/-! PROOF. PairFrames: the INPUT and STATUS frames of a pair, and their obligation (R427 to R430, R432 to R434). -/

namespace Sys2Proof.Machine

/-! ### The Trellis at E0 -/

section
variable {ps : List Part} {s t : State}

@[simp] theorem only_sensorUse {k : Nat} (hc : .chip ∈ ps) (h : .trl ∈ ps) : only ps s (sensorUse k t) ↔ only ps s t := by
  unfold sensorUse
  split
  · rfl
  · split
    · rfl
    · dsimp only
      split
      · exact only_event hc
      · split
        · rw [only_event hc, only_trl h]
        · exact only_trl h

@[simp] theorem only_objectPlace {j : Nat} (h : .trl ∈ ps) : only ps s (objectPlace j t) ↔ only ps s t := by
  unfold objectPlace
  dsimp only
  split
  · rfl
  · split
    · exact only_onObj h
    · rw [only_forAll fun _ u => (only_onObj h).2 (only_refl ps u), only_onObj h]

@[simp] theorem only_objectStale {j : Nat} (hc : .chip ∈ ps) (h : .trl ∈ ps) : only ps s (objectStale j t) ↔ only ps s t := by
  unfold objectStale
  dsimp only
  split
  · simp [hc, h]
  · rfl

theorem only_trellisEdge (s : State) : only [.chip, .trl] s (trellisEdge s) := by
  unfold trellisEdge zonesEdge
  dsimp only
  split
  · exact (only_trl (by decide)).2 (only_refl _ s)
  · rw [only_trl (by decide), only_forAll fun j u => by simp [objectEdge], only_forAll fun k u => by simp, only_trl (by decide)]
    exact only_refl _ s

end

/-! ### INPUT frames of the active and at the standby (R427, R428) -/

section
variable {f : InputFrame} {s : State}

theorem inputFrameSend_of_active (hr : s.pair.role = 1) (hrun : s.time.run = true) : inputFrameSend s =
    onPair (fun p => { p with sent := some (inputFrame s), hoFlag := hoDue s, rstSent := p.rstSent || rstDue s }) s := by
  simp [inputFrameSend, hr, hrun]

theorem inputFrameSend_of_other (h : s.pair.role ≠ 1 ∨ s.time.run = false) : inputFrameSend s = s := by
  rcases h with h | h <;> simp [inputFrameSend, h]

/-- The standby holds a frame of its tick. -/
def frameTaken (f : InputFrame) (s : State) : State := onPair (fun p => { p with frame := some f, rst := p.rst || f.rst }) s

/-- The standby takes the run nonce of its first frame. -/
def nonceTaken (f : InputFrame) (s : State) : State := onHost (fun h => { h with nonce := f.nonce }) s

theorem inputFrameReceived_of_other (h : s.pair.role ≠ 2 ∨ f.tick ≠ s.time.tickno) : inputFrameReceived f s = s := by
  rcases h with h | h <;> simp [inputFrameReceived, h]

theorem inputFrameReceived_of_run (hr : s.pair.role = 2) (ht : f.tick = s.time.tickno) (h0 : s.host.nonce ≠ 0)
    (hn : f.nonce = s.host.nonce) : inputFrameReceived f s =
      if f.imgDig != s.image.digest % 2 ^ 64 then setUnfit 3 (frameTaken f s) else frameTaken f s := by
  unfold inputFrameReceived
  rw [if_neg (by simp [hr, ht]), if_neg h0, if_neg (by simp [hn])]
  rfl

theorem inputFrameReceived_of_otherRun (hr : s.pair.role = 2) (ht : f.tick = s.time.tickno) (h0 : s.host.nonce ≠ 0)
    (hn : f.nonce ≠ s.host.nonce) : inputFrameReceived f s = s := by
  unfold inputFrameReceived
  rw [if_neg (by simp [hr, ht]), if_neg h0, if_pos (by simp [hn])]

theorem inputFrameReceived_of_first (hr : s.pair.role = 2) (ht : f.tick = s.time.tickno) (h0 : s.host.nonce = 0) :
    inputFrameReceived f s =
      if f.imgDig != s.image.digest % 2 ^ 64 then setUnfit 3 (frameTaken f (nonceTaken f s))
      else frameTaken f (nonceTaken f s) := by
  unfold inputFrameReceived
  rw [if_neg (by simp [hr, ht]), if_pos h0]
  exact if_neg (by simp)

end

/-! ### The feed of a tick (R429) -/

section
variable {f : InputFrame} {s : State}

/-- Every line of SAF. -/
def State.lines (s : State) : List InPair × List InPair := (s.saf.pairs, s.saf.pend)

theorem lineSt_congr {t : State} (h : t.lines = s.lines) (i : Nat) : lineSt t i = lineSt s i := by
  obtain ⟨hpairs, hpend⟩ := Prod.mk.inj h
  rw [lineSt, hpairs, hpend, lineSt]

theorem lines_of_saf {t : State} (h : t.saf = s.saf) : t.lines = s.lines := by rw [State.lines, h, State.lines]

@[simp] theorem lines_onPair (g : PairSt → PairSt) (s : State) : (onPair g s).lines = s.lines := (rfl)
@[simp] theorem lines_driveVote (s : State) : (driveVote s).lines = s.lines := (rfl)
@[simp] theorem lines_skipDigest (s : State) : (skipDigest s).lines = s.lines := (rfl)
@[simp] theorem lines_event (c d : Nat) (s : State) : (event c d s).lines = s.lines := (rfl)
@[simp] theorem lines_endB (i j : Nat) (s : State) : (endB i j s).lines = s.lines := (rfl)
@[simp] theorem lines_onRx (p : Nat) (g : RxSt → RxSt) (s : State) : (onRx p g s).lines = s.lines := (rfl)

@[simp] theorem lines_setUnfit (c : Nat) (s : State) : (setUnfit c s).lines = s.lines := by
  unfold setUnfit
  split <;> rfl

@[simp] theorem lines_addB (i j code : Nat) (m : Mask) (s : State) : (addB i j m code s).lines = s.lines := by
  unfold addB
  split <;> rfl

@[simp] theorem lines_feedPdus (f : InputFrame) (s : State) : (feedPdus f s).lines = s.lines :=
  forAll_same (P := State.lines) (fun p u => by split <;> [split <;> simp; simp]) _ s

@[simp] theorem lines_judgeDigest (f : InputFrame) (s : State) : (judgeDigest f s).lines = s.lines := by
  unfold judgeDigest compareDigest
  dsimp only
  split
  · simp
  · split <;> simp

@[simp] theorem lines_feedMasks (f : InputFrame) (s : State) : (feedMasks f s).lines = s.lines := by
  unfold feedMasks
  dsimp only
  split <;> simp

@[simp] theorem lines_feedPower (f : InputFrame) (s : State) : (feedPower f s).lines = s.lines := by
  unfold feedPower
  dsimp only
  split
  · split <;> rfl
  · rfl

@[simp] theorem lines_trellisEdge (s : State) : (trellisEdge s).lines = s.lines :=
  lines_of_saf (only_trellisEdge s .saf (by decide))

@[simp] theorem fed_setUnfit (c : Nat) (s : State) : (setUnfit c s).pair.fed = s.pair.fed := by
  unfold setUnfit
  split <;> rfl

@[simp] theorem fed_judgeDigest (f : InputFrame) (s : State) : (judgeDigest f s).pair.fed = s.pair.fed := by
  have hb (u : State) : (addB 9 1 0 0x0192 u).pair = u.pair := only_addB_self 9 1 0x0192 0 u .pair (by decide)
  unfold judgeDigest compareDigest
  dsimp only
  split
  · rfl
  · split
    · rfl
    · rw [fed_setUnfit, hb]
      rfl

theorem feedMasks_pair (f : InputFrame) (s : State) :
    (feedMasks f s).pair = { s.pair with lstop := f.lstop, hoEsc := f.esc, pendCmds := f.cmds } := by
  unfold feedMasks
  dsimp only
  split
  · exact only_addB_self 10 0 0 f.ldeg _ .pair (by decide)
  · rfl

theorem fed_feedMasks (f : InputFrame) (s : State) : (feedMasks f s).pair.fed = s.pair.fed := by rw [feedMasks_pair]

theorem feedPower_pair (f : InputFrame) (s : State) : (feedPower f s).pair = s.pair := by
  unfold feedPower
  dsimp only
  split
  · split <;> rfl
  · rfl

/-- From s to t the tables of lines keep their lengths, line i its state, and the tick its feed. -/
structure LineKept (i : Nat) (s t : State) : Prop where
  pairs : t.saf.pairs.length = s.saf.pairs.length
  pend : t.saf.pend.length = s.saf.pend.length
  line : lineSt t i = lineSt s i
  fed : t.pair.fed = s.pair.fed

theorem LineKept.refl (i : Nat) (s : State) : LineKept i s s := ⟨rfl, rfl, rfl, rfl⟩

theorem LineKept.trans {i : Nat} {s t u : State} (h : LineKept i s t) (k : LineKept i t u) : LineKept i s u :=
  ⟨k.pairs.trans h.pairs, k.pend.trans h.pend, k.line.trans h.line, k.fed.trans h.fed⟩

theorem lineKept_of_lines {i : Nat} {t : State} (h : t.lines = s.lines) (hf : t.pair.fed = s.pair.fed) : LineKept i s t := by
  obtain ⟨hpairs, hpend⟩ := Prod.mk.inj h
  exact ⟨by rw [hpairs], by rw [hpend], lineSt_congr h i, hf⟩

/-- An update of another line. -/
theorem lineKept_onLine {i j : Nat} (h : i ≠ j) (g : InPair → InPair) (s : State) : LineKept i s (onLine j g s) := by
  unfold onLine
  by_cases hj : j < 12
  · rw [if_pos hj]
    refine ⟨updAt_length .., rfl, ?_, rfl⟩
    unfold lineSt
    split
    · exact nth_updAt_ne _ _ _ _ h
    · rfl
  · rw [if_neg hj]
    refine ⟨rfl, updAt_length .., ?_, rfl⟩
    unfold lineSt
    split
    · rfl
    · exact nth_updAt_ne _ _ _ _ (by omega)

theorem lineSt_onLine {i : Nat} (hi : i < 16) (hpairs : s.saf.pairs.length = 12) (hpend : s.saf.pend.length = 4)
    (g : InPair → InPair) : lineSt (onLine i g s) i = g (lineSt s i) := by
  unfold onLine lineSt
  by_cases h : i < 12
  · simp only [if_pos h]
    exact nth_updAt_self _ _ _ (hpairs ▸ h)
  · simp only [if_neg h]
    exact nth_updAt_self _ _ _ (by omega)

theorem lines_unfitIf (c : Nat) (b : Bool) (s : State) : (if b then setUnfit c s else s).lines = s.lines := by
  cases b
  · rfl
  · exact lines_setUnfit c s

theorem fed_unfitIf (c : Nat) (b : Bool) (s : State) : (if b then setUnfit c s else s).pair.fed = s.pair.fed := by
  cases b
  · rfl
  · exact fed_setUnfit c s

/-- Of the lines a sample of the frame reaches its own, which takes the level of the active. -/
theorem feedSample_eq (f : InputFrame) (i : Nat) (s : State) : ∃ u, u.lines = s.lines ∧ u.pair.fed = s.pair.fed ∧
    feedSample f i s = onLine i (fun x => { x with sampled := hasBit f.samples i }) u := by
  refine ⟨_, ?_, ?_, rfl⟩
  · exact (lines_unfitIf ..).trans rfl
  · exact (fed_unfitIf ..).trans rfl

theorem lineKept_feedSample {i j : Nat} (h : i ≠ j) (f : InputFrame) (s : State) : LineKept i s (feedSample f j s) := by
  obtain ⟨u, hu, hfed, hx⟩ := feedSample_eq f j s
  rw [hx]
  exact (lineKept_of_lines hu hfed).trans (lineKept_onLine h _ u)

theorem fed_onLine (i : Nat) (g : InPair → InPair) (s : State) : (onLine i g s).pair.fed = s.pair.fed := by
  unfold onLine
  split <;> rfl

/-- Every sample of the frame. -/
def samplesFed (f : InputFrame) (s : State) : State := forAll (List.range 16) (feedSample f) s

theorem fed_samplesFed (f : InputFrame) (s : State) : (samplesFed f s).pair.fed = s.pair.fed := by
  refine forAll_same (P := fun s => s.pair.fed) (fun i u => ?_) _ s
  obtain ⟨v, -, hfed, hx⟩ := feedSample_eq f i u
  rw [hx, fed_onLine, hfed]

theorem sampled_samplesFed {i : Nat} (hi : i < 16) (hpairs : s.saf.pairs.length = 12) (hpend : s.saf.pend.length = 4) :
    (lineSt (samplesFed f s) i).sampled = hasBit f.samples i := by
  obtain ⟨u, hu, hend⟩ := forAll_around (LineKept.refl i) LineKept.trans (fun j t h => lineKept_feedSample h f t)
    List.nodup_range (List.mem_range.2 hi) s
  obtain ⟨v, hv, -, hx⟩ := feedSample_eq f i u
  have hlines : v.saf.pairs.length = 12 ∧ v.saf.pend.length = 4 := by
    obtain ⟨hp, hq⟩ := Prod.mk.inj hv
    rw [hp, hq, hu.pairs, hu.pend]
    exact ⟨hpairs, hpend⟩
  rw [samplesFed, hend.line, hx, lineSt_onLine hi hlines.1 hlines.2]

/-- The tick is fed. -/
def tickFed (s : State) : State := onPair (fun p => { p with fed := true }) s

theorem tickFed_lines (s : State) : (tickFed s).lines = s.lines := rfl

theorem feedTick_eq (f : InputFrame) (s : State) :
    feedTick f s = feedPower f (feedMasks f (judgeDigest f (samplesFed f (feedPdus f (tickFed s))))) := rfl

theorem fed_feedPdus (f : InputFrame) (s : State) : (feedPdus f s).pair.fed = s.pair.fed :=
  forAll_same (P := fun s => s.pair.fed) (fun p u => by split <;> [split <;> rfl; rfl]) _ s

/-- The pair after a fed tick: its masks and commands are those of the frame. -/
theorem feedTick_pair (f : InputFrame) (s : State) : (feedTick f s).pair.fed = true ∧ (feedTick f s).pair.pendCmds = f.cmds ∧
    (feedTick f s).pair.lstop = f.lstop := by
  rw [feedTick_eq, feedPower_pair]
  refine ⟨?_, by rw [feedMasks_pair], by rw [feedMasks_pair]⟩
  rw [fed_feedMasks, fed_judgeDigest, fed_samplesFed, fed_feedPdus]
  rfl

theorem sampled_feedTick {i : Nat} (hi : i < 16) (hpairs : s.saf.pairs.length = 12) (hpend : s.saf.pend.length = 4) :
    (lineSt (feedTick f s) i).sampled = hasBit f.samples i := by
  have hlines : (feedPdus f (tickFed s)).lines = s.lines := (lines_feedPdus ..).trans (tickFed_lines s)
  obtain ⟨hp, hq⟩ := Prod.mk.inj hlines
  rw [feedTick_eq, lineSt_congr (s := samplesFed f (feedPdus f (tickFed s))) (by simp)]
  exact sampled_samplesFed hi (hp ▸ hpairs) (hq ▸ hpend)

theorem feedDeadline_of_other (h : s.pair.role ≠ 2 ∨ s.time.run = false) : feedDeadline s = s := by
  rcases h with h | h <;> simp [feedDeadline, h]

theorem feedDeadline_of_fed (hr : s.pair.role = 2) (hrun : s.time.run = true) (h : feeding s = some f) :
    feedDeadline s = trellisEdge (feedTick f s) := by
  rw [feedDeadline, if_neg (by simp [hr, hrun]), h]

theorem feedDeadline_of_unfed (hr : s.pair.role = 2) (hrun : s.time.run = true) (h : feeding s = none) :
    feedDeadline s = trellisEdge (unfedTick s) := by
  rw [feedDeadline, if_neg (by simp [hr, hrun]), h]

end

/-! ### Forwarded datagrams and STATUS frames (R430, R434) -/

section
variable {s : State}

theorem forwardFrame_of_standby (hr : s.pair.role = 2) (d : Datagram) (now : Nat) :
    forwardFrame d now s = commandDatagram .a d now s := if_pos hr

theorem forwardFrame_of_other (hr : s.pair.role ≠ 2) (d : Datagram) (now : Nat) : forwardFrame d now s = s := if_neg hr

/-- The STATUS frame of the tick. -/
def statusOf (s : State) : StatusFrame :=
  { tick := s.time.tickno, fit := s.pair.fit, unfit := s.pair.unfit, fed := s.pair.fed, ackHo := acksHo s,
    digest := s.pair.digest }

theorem statusFrameSend_of_standby (hr : s.pair.role = 2) (hrun : s.time.run = true) : statusFrameSend s =
    onPair (fun p => { p with statusSent := some (statusOf s), hoAck := acksHo s }) s :=
  if_pos (by simp [hr, hrun])

theorem statusFrameSend_of_other (h : s.pair.role ≠ 2 ∨ s.time.run = false) : statusFrameSend s = s := by
  rcases h with h | h <;> simp [statusFrameSend, h]

/-- The active has its standby's STATUS of the tick. -/
def statusTaken (f : StatusFrame) (s : State) : State := onPair (fun p => { p with
  statusIn := true, pfit := f.fit, hoAck := p.hoAck || (p.hoFlag && f.ackHo && f.fit) }) s

theorem statusFrameReceived_of_active {a : Nat} {f : StatusFrame} (hr : s.pair.role = 1) (ht : f.tick = s.time.tickno)
    (ha : a ≤ s.time.e0 + 24000) : statusFrameReceived a f s =
      if f.unfit != 0 then standbyFitness true (statusTaken f s)
      else if f.fit then standbyFitness false (statusTaken f s) else statusTaken f s := by
  unfold statusFrameReceived
  rw [if_neg (by simp [hr, ht, ha])]
  rfl

theorem statusFrameReceived_of_other {a : Nat} {f : StatusFrame}
    (h : s.pair.role ≠ 1 ∨ f.tick ≠ s.time.tickno ∨ s.time.e0 + 24000 < a) : statusFrameReceived a f s = s := by
  rcases h with h | h | h <;> simp [statusFrameReceived, h]

/-- The standby's fitness moves what the active notes of it and its class B condition, with an event on a change. -/
theorem standbyFitness_noted (b : Bool) (s : State) : (standbyFitness b s).pair = { s.pair with wasUnfit := b } ∧
    (s.pair.wasUnfit = b → quiet s (standbyFitness b s)) ∧
    (s.pair.wasUnfit = !b → logged (if b then 0x0193 else 0x0194) 0 s (standbyFitness b s)) ∧
    only [.chip, .saf, .pair] s (standbyFitness b s) := by
  cases hw : s.pair.wasUnfit <;> cases b
  · rw [standbyFitness_of_good hw]
    exact ⟨(congrArg (fun b => { s.pair with wasUnfit := b }) hw :), fun _ => ⟨rfl, rfl, rfl⟩, by simp, only_refl _ s⟩
  · rw [standbyFitness_of_unfit hw]
    exact ⟨unfitNoted_pair s, by simp, fun _ => logged_unfitNoted s, by simp [unfitNoted]⟩
  · rw [standbyFitness_of_fit hw]
    exact ⟨rfl, by simp, fun _ => logged_event ⟨rfl, rfl, rfl⟩ rfl, by simp⟩
  · rw [standbyFitness_of_noted hw]
    exact ⟨(congrArg (fun b => { s.pair with wasUnfit := b }) hw :), fun _ => ⟨rfl, rfl, rfl⟩, by simp, only_refl _ s⟩

theorem run_of_fitness {F : State → State} {f : StatusFrame} {b : Bool} (hx : F s = standbyFitness b (statusTaken f s)) :
    ∃ t, run F s = .next t ∧ t.pair = { (statusTaken f s).pair with wasUnfit := b } ∧ (s.pair.wasUnfit = b → quiet s t) ∧
      (s.pair.wasUnfit = !b → logged (if b then 0x0193 else 0x0194) 0 s t) ∧ only [.chip, .saf, .pair] s t := by
  obtain ⟨hpair, hquiet, hlog, ho⟩ := standbyFitness_noted b (statusTaken f s)
  have honly : only [.chip, .saf, .pair] s (standbyFitness b (statusTaken f s)) := only_trans (by simp [statusTaken]) ho
  by_cases hb : s.pair.wasUnfit = b
  · exact ⟨_, run_of_quiet hx (hquiet hb), hpair, hquiet, hlog, honly⟩
  · exact ⟨_, run_of_logged hx (hlog (Bool.eq_not.2 hb)), hpair, hquiet, hlog, honly⟩

end

/-- Settles O51: a frame is one update of the pair record; a fed tick takes the samples of the frame one line at a time. -/
theorem pairFrames : Obligations.PairFrames := by
  refine ⟨fun s hr hrun => ?_, fun s h => run_of_unchanged (inputFrameSend_of_other h),
    fun f s hr ht => ⟨fun h0 hn hd => ?_, fun h0 hn hd => ?_, fun h0 => ?_,
      fun h0 hn => run_of_unchanged (inputFrameReceived_of_otherRun hr ht h0 hn)⟩,
    fun f s h => run_of_unchanged (inputFrameReceived_of_other h), fun s hr hrun hf => ?_,
    fun f s hr hrun hf hpairs hpend => ?_, fun s h => run_of_unchanged (feedDeadline_of_other h), fun d now s hr hh => ?_,
    fun d now s hr => run_of_unchanged (forwardFrame_of_other hr d now), fun s hr hrun => ?_,
    fun s h => run_of_unchanged (statusFrameSend_of_other h), fun a f s hr ht ha => ?_,
    fun a f s h => run_of_unchanged (statusFrameReceived_of_other h)⟩
  · exact ⟨_, inputFrame s, run_of_quiet (inputFrameSend_of_active hr hrun) ⟨rfl, rfl, rfl⟩, rfl, rfl, rfl, rfl, rfl, rfl,
      rfl, rfl, rfl, rfl, ⟨rfl, rfl, rfl⟩, by simp⟩
  · have hx := (inputFrameReceived_of_run hr ht h0 hn).trans (if_neg (by simp [hd]))
    exact ⟨_, run_of_quiet hx ⟨rfl, rfl, rfl⟩, rfl, ⟨rfl, rfl, rfl⟩, by simp [frameTaken]⟩
  · obtain ⟨v, hv⟩ := setUnfit_of_standby (s := frameTaken f s) hr 3
    have hx := ((inputFrameReceived_of_run hr ht h0 hn).trans (if_pos (by simpa using hd))).trans hv
    exact ⟨_, run_of_quiet hx ⟨rfl, rfl, rfl⟩, rfl, rfl, rfl, ⟨rfl, rfl, rfl⟩, by simp [frameTaken]⟩
  · have hx := inputFrameReceived_of_first (f := f) hr ht h0
    split at hx
    · obtain ⟨v, hv⟩ := setUnfit_of_standby (s := frameTaken f (nonceTaken f s)) hr 3
      exact ⟨_, run_of_quiet (hx.trans hv) ⟨rfl, rfl, rfl⟩, rfl, rfl, ⟨rfl, rfl, rfl⟩, by simp [frameTaken, nonceTaken]⟩
    · exact ⟨_, run_of_quiet hx ⟨rfl, rfl, rfl⟩, rfl, rfl, ⟨rfl, rfl, rfl⟩, by simp [frameTaken, nonceTaken]⟩
  · have hpair : (settle s (trellisEdge (unfedTick s))).pair = (unfedTick s).pair :=
      (settle_pair ..).trans (only_trellisEdge _ .pair (by decide))
    refine ⟨_, congrArg (fun t => Host.Outcome.next (settle s t)) (feedDeadline_of_unfed hr hrun hf),
      congrArg PairSt.fed hpair, (congrArg PairSt.fit hpair :), congrArg PairSt.eqrun hpair, congrArg PairSt.unfed hpair,
      congrArg PairSt.skips hpair, (congrArg PairSt.compares hpair :), fun i => ?_⟩
    exact lineSt_congr ((lines_of_saf (settle_saf ..)).trans (lines_trellisEdge _)) i
  · obtain ⟨hfed, hcmds, hstop⟩ := feedTick_pair f s
    have hpair : (settle s (trellisEdge (feedTick f s))).pair = (feedTick f s).pair :=
      (settle_pair ..).trans (only_trellisEdge _ .pair (by decide))
    refine ⟨_, congrArg (fun t => Host.Outcome.next (settle s t)) (feedDeadline_of_fed hr hrun hf),
      (congrArg PairSt.fed hpair).trans hfed, (congrArg PairSt.pendCmds hpair).trans hcmds,
      (congrArg PairSt.lstop hpair).trans hstop, fun i hi => ?_⟩
    rw [lineSt_congr ((lines_of_saf (settle_saf ..)).trans (lines_trellisEdge _))]
    exact sampled_feedTick hi hpairs hpend
  · exact ⟨_, congrArg (fun t => Host.Outcome.next (settle s t)) (forwardFrame_of_standby hr d now), runIn_of_up hh⟩
  · exact ⟨_, run_of_quiet (statusFrameSend_of_standby hr hrun) ⟨rfl, rfl, rfl⟩, rfl, ⟨rfl, rfl, rfl⟩, by simp⟩
  · have hx := statusFrameReceived_of_active (f := f) hr ht ha
    by_cases hu : f.unfit = 0
    · rw [if_neg (by simp [hu])] at hx
      cases hfit : f.fit
      · rw [hfit, if_neg (by decide)] at hx
        exact ⟨_, run_of_quiet hx ⟨rfl, rfl, rfl⟩, rfl, hfit, fun h => absurd hu h, fun _ h => absurd h (by decide),
          fun _ _ => ⟨⟨rfl, rfl, rfl⟩, rfl⟩, by simp [statusTaken]⟩
      · rw [hfit, if_pos rfl] at hx
        obtain ⟨t, hrun, hpair, hquiet, hlog, ho⟩ := run_of_fitness hx
        exact ⟨t, hrun, congrArg PairSt.statusIn hpair, (congrArg PairSt.pfit hpair).trans hfit, fun h => absurd hu h,
          fun _ _ => ⟨congrArg PairSt.wasUnfit hpair, hlog, hquiet⟩, fun _ h => absurd h (by decide), ho⟩
    · rw [if_pos (by simpa using hu)] at hx
      obtain ⟨t, hrun, hpair, hquiet, hlog, ho⟩ := run_of_fitness hx
      exact ⟨t, hrun, congrArg PairSt.statusIn hpair, congrArg PairSt.pfit hpair,
        fun _ => ⟨congrArg PairSt.wasUnfit hpair, hlog, hquiet⟩, fun h => absurd h hu, fun h => absurd h hu, ho⟩

end Sys2Proof.Machine

/-! PROOF. Decided: what everything that SAF does in a tick after its decisions leaves of the decision for one group: the end of
the requests, the mode, the PDUs sent, and the finalisation of the set-points (R232 to R236, R307, R346, R399). -/

namespace Sys2Proof.Machine

/-! ### Parts that the work of a tick after the decisions may change -/

section
variable {ps : List Part} {s t : State} {g a c : Nat}

@[simp] theorem only_onMot {f : MotSt → MotSt} (h : .mot ∈ ps) : only ps s { t with mot := f t.mot } ↔ only ps s t :=
  only_iff_of_part .mot h (by rintro ⟨⟩ <;> simp [Part.same])

@[simp] theorem only_rawStep (h : .mot ∈ ps) : only ps s (rawStep g a t) ↔ only ps s t := only_onAxis h

@[simp] theorem only_cmpStep {r : RunSeg} (h : .mot ∈ ps) : only ps s (cmpStep g r t) ↔ only ps s t := by
  unfold cmpStep
  split
  · split
    · exact only_onAxis h
    · rfl
  · rfl

@[simp] theorem only_cmpGroup (h : .mot ∈ ps) : only ps s (cmpGroup g t) ↔ only ps s t := by
  unfold cmpGroup
  dsimp only
  split
  · split <;> split <;> simp [h]
  · rfl

@[simp] theorem only_homingStop (hc : .chip ∈ ps) (h : .axio ∈ ps) : only ps s (homingStop g t) ↔ only ps s t := by
  refine only_forAll fun a u => ?_
  split
  · split
    · simp [homeFail, hc, h]
    · exact only_refl ps u
  · exact only_refl ps u

@[simp] theorem only_onSlack {p : Nat} {f : SlackSt → SlackSt} (h : .time ∈ ps) : only ps s (onSlack p f t) ↔ only ps s t :=
  only_onTime h

@[simp] theorem only_sendPdu {i : Nat} (hc : .chip ∈ ps) (hs : .saf ∈ ps) (hh : .host ∈ ps) :
    only ps s (sendPdu i t) ↔ only ps s t := by
  have hl (q : Nat) (d : Pdu) (n : Nat) (u v : State) : only ps u (logPdu q d n v) ↔ only ps u v := by
    unfold logPdu
    dsimp only
    split <;> split <;> split <;> simp [hc, hs, hh]
  unfold sendPdu
  dsimp only
  split
  · rfl
  · split
    · rw [hl, only_onSaf hs]
    · rw [only_sendDev hc hh, only_sendDev hc hh, hl, only_onSaf hs]

@[simp] theorem only_modeChange (hc : .chip ∈ ps) (hs : .saf ∈ ps) : only ps s (modeChange t) ↔ only ps s t := by
  unfold modeChange
  rw [only_forAll fun r u => by unfold decideMode; dsimp only; split <;> simp [hc, hs], only_onSaf hs]

@[simp] theorem only_enableMeetsStop (h : .mot ∈ ps) : only ps s (enableMeetsStop t) ↔ only ps s t := by
  refine only_forAll fun w u => ?_
  split
  · exact (only_forAll fun g v => (only_onGrp h).2 (only_refl ps v)).2 (only_refl ps u)
  · exact only_refl ps u

end

/-! ### The decision for one group lasts through the tick -/

/-- A group of SAF but for its requests and the count towards its restart. -/
def SafGroup.outcome (x : SafGroup) : SafGroup := { x with nres := 0, stopReq := 0, stoReq := 0, ackEdge := false }

/-- A group that was moving at the decision, before it is STOPPING. -/
def MState.moves (m : MState) : Prop := m = .moving ∨ m = .halted

/-- From s to t the decision for group g stands, and no other group's work has reached its motion. -/
structure Stands (g : Nat) (s t : State) : Prop where
  outcome : (safG t g).outcome = (safG s g).outcome
  groups : t.mot.groups.length = s.mot.groups.length
  leave : (grpSt t g).leave = (grpSt s g).leave
  moves : (grpSt s g).state.moves → (grpSt t g).state.moves

namespace Stands
variable {g : Nat} {s t u : State}

theorem refl (g : Nat) (s : State) : Stands g s s := ⟨rfl, rfl, rfl, id⟩

theorem trans (h : Stands g s t) (k : Stands g t u) : Stands g s u :=
  ⟨k.outcome.trans h.outcome, k.groups.trans h.groups, k.leave.trans h.leave, k.moves ∘ h.moves⟩

/-- What leaves SAF's groups and the groups of MOT. -/
theorem of_groups (hs : t.saf.g = s.saf.g) (hm : t.mot.groups = s.mot.groups) : Stands g s t := by
  have hgrp : grpSt t g = grpSt s g := congrArg (fun l : List GroupSt => nth l g) hm
  exact ⟨congrArg (fun l : List SafGroup => (nth l g).outcome) hs, by rw [hm], by rw [hgrp], by rw [hgrp]; exact id⟩

theorem ite {P : Prop} [Decidable P] (ht : Stands g s t) (hu : Stands g s u) : Stands g s (if P then t else u) := by
  split
  · exact ht
  · exact hu

theorem forAll {α : Type} {f : α → State → State} (h : ∀ x t, Stands g t (f x t)) (l : List α) (s : State) :
    Stands g s (Machine.forAll l f s) :=
  forAll_preserves (P := Stands g s) (fun x t hs => hs.trans (h x t)) l (refl g s)

end Stands

section
variable {g k a c : Nat} {s t : State}

/-- An update of a group of MOT that keeps how the group leaves Cloche and whether it moves. -/
theorem stands_onGrp {f : GroupSt → GroupSt} (hl : ∀ x, (f x).leave = x.leave)
    (hm : ∀ x, x.state.moves → (f x).state.moves) (g k : Nat) (s : State) : Stands g s (onGrp k f s) := by
  refine ⟨rfl, updAt_length .., nth_updAt_same (P := GroupSt.leave) hl _ _ _, fun h => ?_⟩
  by_cases hk : g = k ∧ g < s.mot.groups.length
  · obtain ⟨rfl, hg⟩ := hk
    rw [grpSt_onGrp hg]
    exact hm _ h
  · have hsame : grpSt (onGrp k f s) g = grpSt s g := 
      (nth_updAt ..).trans (if_neg fun (he : g = k ∧ k < s.mot.groups.length) => hk ⟨he.1, he.1 ▸ he.2⟩)
    rw [hsame]
    exact h

/-- An update of a group of SAF that leaves its outcome. -/
theorem stands_onSafG {f : SafGroup → SafGroup} (h : ∀ x, (f x).outcome = x.outcome) (g k : Nat) (s : State) :
    Stands g s (onSafG k f s) :=
  ⟨nth_updAt_same (P := SafGroup.outcome) h _ _ _, rfl, rfl, id⟩

theorem stands_countRestart (g k : Nat) (s : State) : Stands g s (countRestart k s) :=
  stands_onSafG (f := fun x => { x with nres := if restartOk s k then x.nres + 1 else 0 }) (fun _ => rfl) g k s

/-- The requests of the tick end. -/
def requestsEnded (gs : List Nat) (s : State) : State := onSaf (fun f => { f with
  g := f.g.map (fun x => { x with stopReq := 0, stoReq := 0, ackEdge := false }),
  presLost := f.presLost && !gs.all (fun g => (nth f.g g).state == .cloche) }) s

theorem stands_requestsEnded (g : Nat) (gs : List Nat) (s : State) : Stands g s (requestsEnded gs s) := by
  refine ⟨?_, rfl, rfl, id⟩
  have hmap : safG (requestsEnded gs s) g = { safG s g with stopReq := 0, stoReq := 0, ackEdge := false } :=
    nth_map_of_default rfl s.saf.g g
  rw [hmap]
  rfl

theorem decideMode_g (r : Nat × Origin) (s : State) : (decideMode r s).saf.g = s.saf.g := by
  unfold decideMode
  dsimp only
  split <;> rfl

theorem stands_modeChange (g : Nat) (s : State) : Stands g s (modeChange s) := by
  have hm : (modeChange s).mot = s.mot :=
    (only_modeChange (ps := [.chip, .saf]) (by decide) (by decide)).2 (only_refl _ s) .mot (by decide)
  refine .of_groups ?_ (by rw [hm])
  rw [modeChange, forAll_same (P := fun s => s.saf.g) decideMode_g]
  rfl

theorem stands_enableMeetsStop (g : Nat) (s : State) : Stands g s (enableMeetsStop s) := by
  refine .forAll (fun w u => ?_) _ s
  split
  · refine .forAll (fun k v => stands_onGrp (fun x => ?_) (fun x hx => ?_) g k v) _ u
    · split <;> rfl
    · rcases hx with hx | hx
      · simp [hx, MState.moves]
      · simp [hx, MState.moves]
  · exact .refl g u

theorem logPdu_g (q : Nat) (d : Pdu) (n : Nat) (s : State) : (logPdu q d n s).saf.g = s.saf.g := by
  unfold logPdu
  dsimp only
  split <;> split <;> split <;> simp

theorem stands_sendPdu (g i : Nat) (s : State) : Stands g s (sendPdu i s) := by
  have hm : (sendPdu i s).mot = s.mot :=
    (only_sendPdu (ps := [.chip, .saf, .host]) (by decide) (by decide) (by decide)).2 (only_refl _ s) .mot (by decide)
  have hd (p : Nat) (f : TxFrame) (u : State) : (sendDev p f u).saf = u.saf :=
    (only_sendDev (ps := [.chip, .host]) (by decide) (by decide)).2 (only_refl _ u) .saf (by decide)
  refine .of_groups ?_ (by rw [hm])
  unfold sendPdu
  dsimp only
  split
  · rfl
  · split
    · exact logPdu_g ..
    · rw [hd, hd]
      exact logPdu_g ..

/-! ### The finalisation -/

theorem stands_onAxis (g a : Nat) (f : AxisSt → AxisSt) (s : State) : Stands g s (onAxis a f s) := .of_groups rfl rfl

theorem stands_noteClamp (g k a : Nat) (s : State) : Stands g s (noteClamp k a s) := by
  have hevent (u : State) : Stands g u (eventOnce 0x0512 k k u) := by
    unfold eventOnce
    split
    · exact .refl g u
    · exact .of_groups rfl rfl
  have hhalt (u : State) : Stands g u (match (grpSt u k).state with
      | .moving | .waitZone | .waitSync | .halting => onGrp k (fun x => { x with state := .halted }) u
      | _ => u) := by
    split
    case h_5 => exact .refl g u
    all_goals exact stands_onGrp (f := fun x => { x with state := .halted }) (fun _ => rfl) (fun _ _ => .inr rfl) g k u
  exact ((stands_onAxis g a _ s).trans (hevent _)).trans (hhalt _)

theorem stands_takeStep (g k a n : Nat) (b : Bool) (s : State) : Stands g s (takeStep k a n b s) := by
  have hlimit (P : Prop) [Decidable P] : Stands g s (if P then onAxis a (fun y => { y with lclamp := true }) s else s) :=
    .ite (stands_onAxis ..) (.refl g s)
  have hput (P : Prop) [Decidable P] (q : Pos) (v w : Int) := (hlimit P).trans (stands_onAxis g a (fun x => { x with
    spt := q, step := posDiff q x.spPrev, outVff := clampI (-2147483648) 2147483647 v, outTff := w }) _)
  exact .ite (hput ..) ((hput ..).trans (stands_noteClamp ..))

theorem stands_applySteps (g k : Nat) (s : State) : Stands g s (applySteps k s) := by
  have hramp (n : Nat) (u : State) : Stands g u (rampRef k n u) := .forAll (fun a v => stands_onAxis ..) _ u
  have hratio (r : Nat) (u : State) : Stands g u (onGrp k (fun y => { y with ratio := r }) u) :=
    stands_onGrp (f := fun y => { y with ratio := r }) (fun _ => rfl) (fun _ h => h) g k u
  have hback (b : RunSeg → RunSeg) (u : State) :
      Stands g u (onGrp k (fun y => { y with active := y.active.map b, blend := y.blend.map b }) u) :=
    stands_onGrp (f := fun y => { y with active := y.active.map b, blend := y.blend.map b }) (fun _ => rfl) (fun _ h => h) g k u
  have hstart (P Q : Prop) [Decidable P] [Decidable Q] (n : Nat) (b : RunSeg → RunSeg) :=
    have hfirst := Stands.ite (P := P) (hramp n s) (.refl g s)
    Stands.ite (P := Q) (hfirst.trans (hback b _)) hfirst
  unfold applySteps
  dsimp only
  split
  · exact .forAll (fun a u => (stands_onAxis g a _ u).trans (stands_onAxis ..)) _ s
  · split
    · exact .forAll (fun a u => stands_onAxis ..) _ s
    · refine ((hstart ..).trans (hratio ..)).trans (.forAll (fun a u => ?_) _ _)
      exact .ite (stands_onAxis ..) (stands_takeStep ..)

theorem stands_cmpGroup (g k : Nat) (s : State) : Stands g s (cmpGroup k s) := by
  have hcmp (r : RunSeg) (u : State) : Stands g u (cmpStep k r u) := by
    unfold cmpStep
    split
    · split
      · exact stands_onAxis ..
      · exact .refl g u
    · exact .refl g u
  unfold cmpGroup
  dsimp only
  split
  · split <;> split
    · exact (hcmp _ s).trans (hcmp _ _)
    · exact hcmp _ s
    · exact hcmp _ s
    · exact .refl g s
  · exact .refl g s

theorem stands_homingStop (g k : Nat) (s : State) : Stands g s (homingStop k s) := by
  refine .forAll (fun a u => ?_) _ s
  split
  · split
    · exact .of_groups rfl rfl
    · exact .refl g u
  · exact .refl g u

/-- The finalisation before the groups that stop pass to STOPPING. -/
def stepsFormed (s : State) : State :=
  forAll (bitsOf (defined s)) (fun g s => if (safG s g).state == .ss1r || (safG s g).state == .sto then homingStop g s else s)
    (forAll (bitsOf (defined s)) (fun g s => cmpGroup g (applySteps g s))
      (forAll (bitsOf (defined s)) (fun g s => forAll (axesOf s g) (fun a => rawStep g a) s) s))

/-- A group that SS1-r is decided for passes to STOPPING. -/
def stopIfDecided (g : Nat) (s : State) : State := if (safG s g).state == .ss1r then toStopping g s else s

/-- The set-points of the tick are final. -/
def setFinal (s : State) : State := { s with mot := { s.mot with fin := true } }

theorem finalise_eq (s : State) : finalise s = setFinal (forAll (bitsOf (defined s)) stopIfDecided (stepsFormed s)) := rfl

theorem stands_stepsFormed (g : Nat) (s : State) : Stands g s (stepsFormed s) := by
  refine ((Stands.forAll (fun k u => ?_) _ s).trans (.forAll (fun k u => ?_) _ _)).trans (.forAll (fun k u => ?_) _ _)
  · exact .forAll (fun a v => stands_onAxis ..) _ u
  · exact (stands_applySteps ..).trans (stands_cmpGroup ..)
  · split
    · exact stands_homingStop ..
    · exact .refl g u

theorem withdrawZone_mot (k : Nat) (s : State) : (withdrawZone k s).mot = s.mot :=
  (only_withdrawZone (ps := [.trl]) (by decide)).2 (only_refl _ s) .mot (by decide)

theorem withdrawZone_saf (k : Nat) (s : State) : (withdrawZone k s).saf = s.saf :=
  (only_withdrawZone (ps := [.trl]) (by decide)).2 (only_refl _ s) .saf (by decide)

/-- What passing to STOPPING leaves: SAF, how each group leaves Cloche, and the groups that are not concerned. -/
theorem toStopping_kept (g k : Nat) (s : State) : (toStopping k s).saf = s.saf ∧
    (toStopping k s).mot.groups.length = s.mot.groups.length ∧ (grpSt (toStopping k s) g).leave = (grpSt s g).leave ∧
    (g ≠ k → grpSt (toStopping k s) g = grpSt s g) := by
  unfold toStopping
  split
  · refine ⟨withdrawZone_saf k s, ?_, ?_, fun h => ?_⟩
    · rw [onGrp_mot]
      exact (updAt_length ..).trans (by rw [withdrawZone_mot])
    · refine (nth_updAt_same (P := GroupSt.leave) (f := fun x => { x with state := .stopping }) (fun _ => rfl) _ _ _).trans ?_
      rw [withdrawZone_mot]
      rfl
    · refine (nth_updAt_ne _ _ _ _ h).trans ?_
      rw [withdrawZone_mot]
      rfl
  · exact ⟨rfl, rfl, rfl, fun _ => rfl⟩

theorem toStopping_state (hg : g < s.mot.groups.length) (h : (grpSt s g).state.moves) :
    (grpSt (toStopping g s) g).state = .stopping := by
  have hlive : (grpSt s g).state.live = true := by rcases h with h | h <;> rw [h] <;> rfl
  unfold toStopping
  rw [if_pos hlive]
  exact congrArg GroupSt.state (nth_updAt_self _ _ _ (by rw [withdrawZone_mot]; exact hg))

end

end Sys2Proof.Machine

/-! PROOF. Causes: what SAF's work of a tick before the decision for a group leaves of what the decision rests on, and the
decision of one group (R303, R307, R309, R315, R317, R320). -/

namespace Sys2Proof.Machine

/-! ### Work that leaves what the decision for a group rests on -/

/-- SAF's state but for its groups, the last class A fault and the refused acknowledges. -/
def SafSt.around (f : SafSt) : SafSt := { f with g := [], lastA := 0, ackBad := 0 }

/-- From s to t nothing has changed that the causes of group g rest on, but for the state of the group in SAF. -/
structure Around (g : Nat) (s t : State) : Prop where
  parts : only [.chip, .recd, .axio, .mot, .saf] s t
  escalated : t.chip.escalated = s.chip.escalated
  retired : ∀ c, (chSt t c).retired = (chSt s c).retired
  axes : t.mot.axes = s.mot.axes
  groups : t.mot.groups.length = s.mot.groups.length
  group : grpSt t g = grpSt s g
  saf : t.saf.around = s.saf.around
  safGroups : t.saf.g.length = s.saf.g.length

namespace Around
variable {g : Nat} {s t u : State}

theorem refl (g : Nat) (s : State) : Around g s s := ⟨only_refl _ s, rfl, fun _ => rfl, rfl, rfl, rfl, rfl, rfl⟩

theorem trans (h : Around g s t) (k : Around g t u) : Around g s u :=
  ⟨only_trans h.parts k.parts, k.escalated.trans h.escalated, fun c => (k.retired c).trans (h.retired c),
    k.axes.trans h.axes, k.groups.trans h.groups, k.group.trans h.group, k.saf.trans h.saf, k.safGroups.trans h.safGroups⟩

theorem image (h : Around g s t) : t.image = s.image := h.parts .image (by decide)
theorem time (h : Around g s t) : t.time = s.time := h.parts .time (by decide)
theorem trl (h : Around g s t) : t.trl = s.trl := h.parts .trl (by decide)
theorem pair (h : Around g s t) : t.pair = s.pair := h.parts .pair (by decide)
theorem regions (h : Around g s t) : t.regions = s.regions := h.parts .regions (by decide)
theorem pairs (h : Around g s t) : t.saf.pairs = s.saf.pairs := (congrArg SafSt.pairs h.saf :)
theorem pend (h : Around g s t) : t.saf.pend = s.saf.pend := (congrArg SafSt.pend h.saf :)
theorem pres (h : Around g s t) : t.saf.pres = s.saf.pres := (congrArg SafSt.pres h.saf :)
theorem mode (h : Around g s t) : t.saf.mode = s.saf.mode := (congrArg SafSt.mode h.saf :)

theorem axesOf (h : Around g s t) (k : Nat) : Machine.axesOf t k = Machine.axesOf s k := by
  simp only [Machine.axesOf, axisCfg, h.image]

theorem lineSt (h : Around g s t) (i : Nat) : Machine.lineSt t i = Machine.lineSt s i := by
  simp only [Machine.lineSt, h.pairs, h.pend]

theorem evaluated (h : Around g s t) (i : Nat) : Machine.evaluated t i = Machine.evaluated s i := evaluated_congr h.image h.pres i

theorem funcDemand (h : Around g s t) (k f : Nat) (ack : Bool) : Machine.funcDemand t k f ack = Machine.funcDemand s k f ack := by
  simp only [Machine.funcDemand, lineDemand, inputCfg, h.image, h.lineSt, h.evaluated]
  congr!

theorem takenReq (h : Around g s t) (m : BitVec 32) : Machine.takenReq t m = Machine.takenReq s m := by
  simp only [Machine.takenReq, h.pair]

theorem hasSolTrl (h : Around g s t) : Machine.hasSolTrl t = Machine.hasSolTrl s := by
  simp only [Machine.hasSolTrl, nodeMode, h.image]

theorem trlG (h : Around g s t) (k : Nat) : Machine.trlG t k = Machine.trlG s k := by simp only [Machine.trlG, h.trl]

theorem grpCfg (h : Around g s t) (k : Nat) : Machine.grpCfg t k = Machine.grpCfg s k := by simp only [Machine.grpCfg, h.image]

theorem defined (h : Around g s t) : Machine.defined t = Machine.defined s := defined_congr h.image

theorem classB (h : Around g s t) (k : Nat) : Machine.classB t k = Machine.classB s k := by
  have hconds : t.saf.bconds = s.saf.bconds := (congrArg SafSt.bconds h.saf :)
  simp only [Machine.classB, hasB, h.pair, hconds]

theorem escStop (h : Around g s t) : Machine.escStop t = Machine.escStop s := by
  simp only [Machine.escStop, h.escalated, h.pair]

theorem estop (h : Around g s t) : Machine.estop t = Machine.estop s := by
  have hbridge : t.saf.bridge = s.saf.bridge := (congrArg SafSt.bridge h.saf :)
  simp only [Machine.estop, h.pres, hbridge, h.pend]

theorem enabReleased (h : Around g s t) : Machine.enabReleased t = Machine.enabReleased s := by
  simp only [Machine.enabReleased, h.mode, h.pres, h.pend]

theorem slsSits (h : Around g s t) (hd : (safG t g).deg = (safG s g).deg) : Machine.slsSits t g = Machine.slsSits s g := by
  simp only [Machine.slsSits, slsDemand, h.mode, h.pairs, h.image, hd, h.axesOf, axSt, h.axes]
  congr!

/-- Without a speed limit of R317 that group g stands under, it keeps to a stop cause only what it had. -/
theorem stopCauses_eq_nil (h : Around g s t) (hreq : (safG t g).stopReq = (safG s g).stopReq) (hsls : (safG t g).sls = [])
    {ack : Bool} (hn : stopCauses s g ack = []) : stopCauses t g ack = [] := by
  have hlost : t.saf.presLost = s.saf.presLost := (congrArg SafSt.presLost h.saf :)
  have hslow : slsExceeded t g = false := by simp [slsExceeded, hsls]
  refine List.eq_nil_iff_forall_not_mem.2 fun c hc => List.eq_nil_iff_forall_not_mem.1 hn c ?_
  simp only [stopCauses, List.mem_filter, hreq, h.takenReq, h.funcDemand, h.hasSolTrl, h.trlG, hslow, h.escStop, lent, h.image,
    h.time, pairStop, h.pair, h.estop, hlost, h.group, h.enabReleased, Bool.or_eq_true] at hc ⊢
  refine ⟨hc.1, hc.2.imp_right fun hc => ?_⟩
  split at hc
  case h_5 => exact absurd hc (by decide)
  case h_8 => exact absurd hc (by decide)
  all_goals exact hc

/-- Outside SS1-r the STO causes are the demands and the withheld refresh. -/
theorem stoCauses_eq (h : Around g s t) (hreq : (safG t g).stoReq = (safG s g).stoReq) (hs : (safG s g).state ≠ .ss1r)
    (ht : (safG t g).state ≠ .ss1r) (ack : Bool) : stoCauses t g ack = stoCauses s g ack := by
  have hheld : t.saf.withheld = s.saf.withheld := (congrArg SafSt.withheld h.saf :)
  have hramp (u : State) (hu : (safG u g).state ≠ .ss1r) (c : Nat) : rampCause u g c = false := by simp [rampCause, hu]
  simp only [stoCauses, hreq, h.takenReq, hramp t ht, hramp s hs, h.funcDemand, hheld]

theorem faultPresent (h : Around g s t) (hact : (safG t g).aActive = (safG s g).aActive) :
    Machine.faultPresent t g = Machine.faultPresent s g := by
  have hrb : t.saf.rberr = s.saf.rberr := (congrArg SafSt.rberr h.saf :)
  have hrx : t.saf.rx = s.saf.rx := (congrArg SafSt.rx h.saf :)
  simp only [Machine.faultPresent, hact, lineGroups, h.defined, inputCfg, h.image, h.evaluated, h.lineSt, hrb, h.axesOf, axSt,
    h.axes, rxCfg, rxSt, hrx, regSt, h.regions, groupsOfBlock, groupsOfKde, groupsOfRing, groupsOf, sliceOfAxis, axisCfg, h.retired,
    Machine.grpCfg]

end Around

/-! ### The work before the decisions -/

/-- A group of SAF but for its class A faults, its stop requests, its degraded mode and its speed limits. -/
def SafGroup.core (x : SafGroup) : SafGroup :=
  { x with aLatch := false, aActive := 0, stopReq := 0, deg := false, tleft := 0, expBlock := false, sls := [] }

/-- From s to t the work before the decision for group g has taken no request of the group back. -/
structure Before (g : Nat) (s t : State) : Prop where
  around : Around g s t
  core : (safG t g).core = (safG s g).core
  stops : ∀ c, hasBit (safG s g).stopReq c = true → hasBit (safG t g).stopReq c = true

namespace Before
variable {g : Nat} {s t u : State}

theorem refl (g : Nat) (s : State) : Before g s s := ⟨.refl g s, rfl, fun _ => id⟩

theorem trans (h : Before g s t) (k : Before g t u) : Before g s u :=
  ⟨h.around.trans k.around, k.core.trans h.core, fun c hc => k.stops c (h.stops c hc)⟩

theorem forAll {α : Type} {f : α → State → State} (h : ∀ x t, Before g t (f x t)) (l : List α) (s : State) :
    Before g s (Machine.forAll l f s) :=
  forAll_preserves (P := Before g s) (fun x t hs => hs.trans (h x t)) l (refl g s)

theorem state (h : Before g s t) : (safG t g).state = (safG s g).state := (congrArg SafGroup.state h.core :)

theorem stoReq (h : Before g s t) : (safG t g).stoReq = (safG s g).stoReq := (congrArg SafGroup.stoReq h.core :)

end Before

section
variable {g k : Nat} {s : State}

theorem around_onSafG (g k : Nat) (f : SafGroup → SafGroup) (s : State) : Around g s (onSafG k f s) :=
  ⟨by simp, rfl, fun _ => rfl, rfl, rfl, rfl, rfl, updAt_length ..⟩

theorem around_event (g c d : Nat) (s : State) : Around g s (event c d s) :=
  ⟨by simp, rfl, fun _ => rfl, rfl, rfl, rfl, rfl, rfl⟩

theorem around_demandStop (g c : Nat) (m : Mask) (s : State) : Around g s (demandStop m c s) := by
  rw [demandStop_eq]
  exact ⟨by simp, rfl, fun _ => rfl, rfl, rfl, rfl, rfl, updMask_length ..⟩

theorem around_latchA (g src code : Nat) (m : Mask) (s : State) : Around g s (latchA m src code s) := by
  obtain ⟨w, n, b, hbb⟩ := bbTrigger_eq 2 code (recTrip s)
  have hrec : ∃ r, recTrip s = { s with recd := r } := by
    unfold recTrip
    split
    · exact ⟨_, rfl⟩
    · exact ⟨s.recd, rfl⟩
  obtain ⟨r, hr⟩ := hrec
  have hx : latchA m src code s = onSaf (fun x => { x with g := updMask m (latched src) x.g, lastA := code })
      (onChip (fun c => { c with bbWait := w, bbSkip := n, bbTick := b }) { s with recd := r }) := by
    rw [latchA_eq, hbb, hr]
  exact ⟨by simp, by rw [hx]; rfl, fun c => by rw [hx]; rfl, by rw [hx]; rfl, by rw [hx]; rfl, by rw [hx]; rfl, by rw [hx]; rfl,
    by rw [hx]; exact updMask_length ..⟩

theorem around_classA (g src code : Nat) (m : Mask) (s : State) : Around g s (classA m src code s) :=
  (around_latchA g src code m s).trans (around_demandStop ..)

theorem around_endA (g src : Nat) (m : Mask) (s : State) : Around g s (endA m src s) := by
  rw [endA_eq]
  exact ⟨by simp, rfl, fun _ => rfl, rfl, rfl, rfl, rfl, updMask_length ..⟩

/-- An update of a group of SAF that keeps its core and its stop requests. -/
theorem before_onSafG {f : SafGroup → SafGroup} (hc : ∀ x, (f x).core = x.core) (hs : ∀ x, (f x).stopReq = x.stopReq)
    (g k : Nat) (s : State) : Before g s (onSafG k f s) := by
  refine ⟨around_onSafG .., nth_updAt_same (P := SafGroup.core) hc _ _ _, fun c h => ?_⟩
  have hreq : (safG (onSafG k f s) g).stopReq = (safG s g).stopReq := nth_updAt_same (P := SafGroup.stopReq) hs _ _ _
  rwa [hreq]

theorem before_event (g c d : Nat) (s : State) : Before g s (event c d s) := ⟨around_event .., rfl, fun _ => id⟩

theorem before_demandStop (g c : Nat) (m : Mask) (s : State) : Before g s (demandStop m c s) := by
  refine ⟨around_demandStop .., ?_, fun i h => ?_⟩ <;> rw [demandStop_eq]
  · exact nth_updMask_same (P := SafGroup.core) (f := wantStop c) (fun _ => rfl) m s.saf.g g
  · exact stopReq_updMask_wantStop h

theorem before_classA (g src code : Nat) (m : Mask) (s : State) : Before g s (classA m src code s) := by
  refine ⟨around_classA .., ?_, fun i h => ?_⟩ <;> rw [safG, classA_saf]
  · exact (nth_updMask_same (P := SafGroup.core) (f := wantStop 9) (fun _ => rfl) ..).trans
      (nth_updMask_same (P := SafGroup.core) (f := latched src) (fun _ => rfl) m s.saf.g g)
  · refine stopReq_updMask_wantStop ?_
    rw [nth_updMask_same (P := SafGroup.stopReq) (f := latched src) (fun _ => rfl) m s.saf.g g]
    exact h

theorem before_endA (g src : Nat) (m : Mask) (s : State) : Before g s (endA m src s) := by
  have hsame {β : Type} (P : SafGroup → β) (h : ∀ x, P (sourceEnded src x) = P x) :
      P (safG (endA m src s) g) = P (safG s g) := by
    rw [endA_eq]
    exact nth_updMask_same h m s.saf.g g
  refine ⟨around_endA .., hsame SafGroup.core fun _ => rfl, fun c h => ?_⟩
  rwa [hsame SafGroup.stopReq fun _ => rfl]

/-- The cross-check of the KDE: nothing, a class A fault of its group with its event, or the end of one. -/
theorem kdeCheck_eq (off : Bool) (s : State) : kdeCheck off s = s ∨
    kdeCheck off s = classA (bitOf 16 (s.time.tickno % 16)) 1 0x0823 (event 0x0823 (s.time.tickno % 16) s) ∨
    kdeCheck off s = endA (bitOf 16 (s.time.tickno % 16)) 1 s := by
  unfold kdeCheck
  dsimp only
  split
  · exact .inl rfl
  · split
    · exact .inr (.inl rfl)
    · exact .inr (.inr rfl)

theorem before_kdeCheck (g : Nat) (off : Bool) (s : State) : Before g s (kdeCheck off s) := by
  rcases kdeCheck_eq off s with h | h | h <;> rw [h]
  · exact .refl g s
  · exact (before_event ..).trans (before_classA ..)
  · exact before_endA ..

theorem hasBit_bitOf_ne {i j : Nat} (h : i ≠ j) : hasBit (bitOf 16 j) i = false := by
  rw [hasBit, getLsbD_bitOf]
  simp [h.symm]

/-- The cross-check reaches the group of its tick only. -/
theorem safG_kdeCheck (off : Bool) (hk : s.time.tickno % 16 ≠ g) : safG (kdeCheck off s) g = safG s g := by
  have hbit := hasBit_bitOf_ne hk.symm
  rcases kdeCheck_eq off s with h | h | h <;> rw [h]
  · rw [safG, classA_saf]
    simp [nth_updMask, hbit, safG]
  · rw [endA_eq]
    exact (safG_of_updMask (s := s) rfl).2 g hbit

theorem before_limitTrips (g : Nat) (s : State) : Before g s (limitTrips s) := by
  refine .forAll (fun c u => ?_) _ s
  have hchan : Before g u (onChan c (fun x => { x with limTrip := false }) u) := by
    refine ⟨⟨by simp, rfl, fun i => ?_, rfl, rfl, rfl, rfl, rfl⟩, rfl, fun _ => id⟩
    exact nth_updAt_same (P := ChanSt.retired) (f := fun x => { x with limTrip := false }) (fun _ => rfl) ..
  exact (hchan.trans (before_event ..)).trans (before_demandStop ..)

theorem limitTrips_of_none (h : ∀ c, (chSt s c).limTrip = false) : limitTrips s = s := by
  simp [limitTrips, h, forAll]

/-- Degraded mode of one group: an update of its degraded mode, with an event where it begins. -/
theorem before_degraded (g k : Nat) (s : State) : Before g s (degraded k s) := by
  unfold degraded
  dsimp only
  split
  · exact (before_onSafG (f := fun y => { y with deg := true, tleft := _ }) (fun _ => rfl) (fun _ => rfl) g k s).trans
      (before_event ..)
  · split
    · exact before_onSafG (f := fun y => { y with tleft := 0 }) (fun _ => rfl) (fun _ => rfl) g k s
    · split
      · exact before_onSafG (f := fun y => { y with deg := false, tleft := _, expBlock := false }) (fun _ => rfl) (fun _ => rfl)
          g k s
      · split
        · exact before_onSafG (f := fun y => { y with tleft := y.tleft - periodNs s }) (fun _ => rfl) (fun _ => rfl) g k s
        · exact .refl g s

/-- The speed limits of a group for the situations of a tick: those that last keep their speeds, new ones begin. -/
def limitsRenewed (now : List Nat) (begin_ : Nat → SlsRec) (x : SafGroup) : SafGroup :=
  { x with sls := x.sls.filter (fun r => now.contains r.sit) ++
    (now.filter (fun k => !x.sls.any (fun r => r.sit == k))).map begin_ }

theorem slsUpdate_eq (k : Nat) (s : State) : ∃ b, slsUpdate k s = onSafG k (limitsRenewed (slsSits s k) b) s := ⟨_, rfl⟩

theorem before_slsUpdate (g k : Nat) (s : State) : Before g s (slsUpdate k s) := by
  obtain ⟨b, hx⟩ := slsUpdate_eq k s
  rw [hx]
  exact before_onSafG (f := limitsRenewed (slsSits s k) b) (fun _ => rfl) (fun _ => rfl) g k s

/-! ### A group that no condition holds in -/

theorem degraded_of_sound (hb : classB s g = false) (hd : (safG s g).deg = false) : degraded g s =
    onSafG g (fun y => { y with deg := false, tleft := (grpCfg s g).tdeg * 1000000000, expBlock := false }) s := by
  simp [degraded, hb, hd]

theorem safG_slsUpdate_of_none (hg : g < s.saf.g.length) (h : slsSits s g = []) :
    safG (slsUpdate g s) g = { safG s g with sls := [] } := by
  obtain ⟨b, hx⟩ := slsUpdate_eq g s
  rw [hx, safG_onSafG hg, h]
  simp [limitsRenewed]

theorem deg_of_slsSits (h : slsSits s g = []) : (safG s g).deg = false := by
  by_contra hd
  simp [slsSits, hd] at h

theorem safG_degraded_ne {j : Nat} (h : j ≠ k) : safG (degraded k s) j = safG s j := by
  have hset (f : SafGroup → SafGroup) : safG (onSafG k f s) j = safG s j := nth_updAt_ne _ _ _ _ h
  unfold degraded
  dsimp only
  split
  · exact hset _
  · split
    · exact hset _
    · split
      · exact hset _
      · split
        · exact hset _
        · rfl

/-! ### The decision for one group (R307) -/

/-- Work on group k of SAF, its motion, and the log leaves what the decision for another group rests on. -/
theorem around_decideSto (h : g ≠ k) (a b : Nat) (s : State) :
    Around g s (decideSto k a b s) ∧ safG (decideSto k a b s) g = safG s g := by
  have hgrp : Around g (onSafG k (stoDecided a b s.time.tickno) s) (keepReleased k (onSafG k (stoDecided a b s.time.tickno) s)) :=
    ⟨by simp, rfl, fun _ => rfl, rfl, updAt_length .., nth_updAt_ne _ _ _ _ h, rfl, rfl⟩
  exact ⟨((around_onSafG g k _ s).trans hgrp).trans (around_event ..), nth_updAt_ne _ _ _ _ h⟩

theorem around_decideStop (h : g ≠ k) (a : Nat) (b : Bool) (s : State) :
    Around g s (decideStop k a b s) ∧ safG (decideStop k a b s) g = safG s g := by
  have hgrp : Around g s (keepReleased k s) :=
    ⟨by simp, rfl, fun _ => rfl, rfl, updAt_length .., nth_updAt_ne _ _ _ _ h, rfl, rfl⟩
  exact ⟨(hgrp.trans (around_onSafG ..)).trans (around_event ..), nth_updAt_ne _ _ _ _ h⟩

/-- The group with the scale of the tick, and with its right to an automatic restart as its causes leave it. -/
def scaled (s : State) (k : Nat) (y : SafGroup) : SafGroup :=
  { y with
    scale := groupScale s k,
    onlyStopreq := y.onlyStopreq && !foreignCause (stopCauses s k false ++ stoCauses s k false) }

/-- The decision for group k after its scale. -/
theorem decideGroup_eq (k : Nat) (s : State) : decideGroup k s =
    match (safG s k).state with
    | .sto | .cloche => onSafG k (scaled s k) s
    | _ =>
      if stoCauses s k false != [] then
        decideSto k (lowest (stoCauses s k false))
          (min (lowest (stoCauses s k false)) (if stopCauses s k false = [] then 255 else lowest (stopCauses s k false)))
          (if (stoCauses s k false).contains 7 then event 0x0810 k (onSafG k (scaled s k) s) else onSafG k (scaled s k) s)
      else if (safG s k).state == .ss1r then
        onSafG k (fun y => { y with still :=
          if (safG s k).decTick < (onSafG k (scaled s k) s).time.tickno && stillTick (onSafG k (scaled s k) s) k then y.still + 1
          else 0 }) (onSafG k (scaled s k) s)
      else if stopCauses s k false != [] then
        decideStop k (lowest (stopCauses s k false)) (stopCauses s k false == [6])
          (if (stopCauses s k false).contains 8 then event 0x0812 k (onSafG k (scaled s k) s) else onSafG k (scaled s k) s)
      else onSafG k (fun y => { y with state := if groupScale s k < 32768 then .scaled else .run }) (onSafG k (scaled s k) s) :=
  rfl

/-- The decision for another group. -/
theorem around_decideGroup (h : g ≠ k) (s : State) : Around g s (decideGroup k s) ∧ safG (decideGroup k s) g = safG s g := by
  have hset (f : SafGroup → SafGroup) (u : State) : Around g u (onSafG k f u) ∧ safG (onSafG k f u) g = safG u g :=
    ⟨around_onSafG .., nth_updAt_ne _ _ _ _ h⟩
  have hthen {t u v : State} (a : Around g t u ∧ safG u g = safG t g) (b : Around g u v ∧ safG v g = safG u g) :
      Around g t v ∧ safG v g = safG t g := ⟨a.1.trans b.1, b.2.trans a.2⟩
  have hevent (P : Prop) [Decidable P] (c d : Nat) (u : State) :
      Around g u (if P then event c d u else u) ∧ safG (if P then event c d u else u) g = safG u g := by
    split
    · exact ⟨around_event .., rfl⟩
    · exact ⟨.refl g u, rfl⟩
  rw [decideGroup_eq]
  split
  · exact hset _ s
  · exact hset _ s
  · split
    · exact hthen (hthen (hset _ s) (hevent ..)) (around_decideSto h ..)
    · split
      · exact hthen (hset _ s) (hset ..)
      · split
        · exact hthen (hthen (hset _ s) (hevent ..)) (around_decideStop h ..)
        · exact hthen (hset _ s) (hset ..)

/-- A group that is torque-on with an STO cause is decided STO for the lowest of them. -/
theorem decideGroup_of_sto (hs : (safG s g).state = .run ∨ (safG s g).state = .scaled ∨ (safG s g).state = .ss1r)
    (h : stoCauses s g false ≠ []) (hg : g < s.saf.g.length) : ∃ b,
      safG (decideGroup g s) g = stoDecided (lowest (stoCauses s g false)) b s.time.tickno (scaled s g (safG s g)) := by
  have hif (c : Bool) (cause : Nat) : safG (decideSto g (lowest (stoCauses s g false)) cause
      (if c then event 0x0810 g (onSafG g (scaled s g) s) else onSafG g (scaled s g) s)) g =
        stoDecided (lowest (stoCauses s g false)) cause s.time.tickno (scaled s g (safG s g)) := by
    have hlen : g < (onSafG g (scaled s g) s).saf.g.length := by simpa [onSafG] using hg
    cases c
    · exact (safG_decideSto hlen).trans (congrArg _ (safG_onSafG hg))
    · exact (safG_decideSto (s := event 0x0810 g (onSafG g (scaled s g) s)) hlen).trans (congrArg _ (safG_onSafG hg))
  rw [decideGroup_eq]
  rcases hs with hs | hs | hs <;> rw [hs, if_pos (by simpa using h)] <;> exact ⟨_, hif ..⟩

/-- A group that runs with a stop cause and no STO cause is decided SS1-r for the lowest of them. -/
theorem decideGroup_of_stop (hs : (safG s g).state = .run ∨ (safG s g).state = .scaled) (hn : stoCauses s g false = [])
    (h : stopCauses s g false ≠ []) : ∃ u b, decideGroup g s = decideStop g (lowest (stopCauses s g false)) b u ∧
      u.saf.g.length = s.saf.g.length ∧ u.time = s.time ∧ u.mot = s.mot := by
  have hif (c : Bool) : ∃ u b, decideStop g (lowest (stopCauses s g false)) (stopCauses s g false == [6])
      (if c then event 0x0812 g (onSafG g (scaled s g) s) else onSafG g (scaled s g) s) =
        decideStop g (lowest (stopCauses s g false)) b u ∧ u.saf.g.length = s.saf.g.length ∧ u.time = s.time ∧
          u.mot = s.mot := by
    refine ⟨_, _, rfl, ?_⟩
    cases c <;> exact ⟨updAt_length .., rfl, rfl⟩
  rw [decideGroup_eq]
  rcases hs with hs | hs <;>
    rw [hs, if_neg (by simp [hn]), if_neg (by decide), if_pos (by simpa using h)] <;> exact hif _

theorem decideGroup_of_none (hs : (safG s g).state = .run ∨ (safG s g).state = .scaled) (hn : stoCauses s g false = [])
    (h : stopCauses s g false = []) : decideGroup g s =
      onSafG g (fun y => { y with state := if groupScale s g < 32768 then .scaled else .run }) (onSafG g (scaled s g) s) := by
  rw [decideGroup_eq]
  rcases hs with hs | hs <;> rw [hs, if_neg (by simp [hn]), if_neg (by decide), if_neg (by simp [h])]

theorem decideGroup_of_cloche (hs : (safG s g).state = .cloche) : decideGroup g s = onSafG g (scaled s g) s := by
  rw [decideGroup_eq, hs]

/-! ### The lowest cause -/

theorem lowest_le {p : Nat → Bool} {c n : Nat} (hc : c ∈ (List.range n).filter p) : lowest ((List.range n).filter p) ≤ c := by
  have hsorted : ((List.range n).filter p).Pairwise (· < ·) := List.pairwise_lt_range.filter p
  cases hl : (List.range n).filter p with
  | nil => simp [hl] at hc
  | cons a l =>
    rw [hl] at hc hsorted
    rcases List.mem_cons.1 hc with rfl | hm
    · exact le_rfl
    · exact (List.rel_of_pairwise_cons hsorted hm).le

theorem takenReq_of_own (h : s.pair.role ≠ 2) (m : BitVec 32) : takenReq s m = m := if_neg h

theorem mem_stoCauses {c : Nat} {ack : Bool} (hr : s.pair.role ≠ 2) (hc : c < 21) (h : hasBit (safG s g).stoReq c = true) :
    c ∈ stoCauses s g ack := by
  simp [stoCauses, hc, takenReq_of_own hr, h]

theorem mem_stopCauses {c : Nat} {ack : Bool} (hr : s.pair.role ≠ 2) (hc : c < 21) (h : hasBit (safG s g).stopReq c = true) :
    c ∈ stopCauses s g ack := by
  simp [stopCauses, hc, takenReq_of_own hr, h]

end

end Sys2Proof.Machine

/-! PROOF. SafetyDecision: the acknowledges of a tick, the end of its decisions, and the obligation on the decision of SAF
(R307, R309, R311, R315, R346). -/

namespace Sys2Proof.Machine

/-! ### The finalisation, for one group -/

section
variable {g k : Nat} {s t u : State}

/-- From s to t SAF stands, and of MOT the groups but for other ones than g. -/
structure OthersStop (g : Nat) (s t : State) : Prop where
  saf : t.saf = s.saf
  groups : t.mot.groups.length = s.mot.groups.length
  group : grpSt t g = grpSt s g

theorem OthersStop.refl (g : Nat) (s : State) : OthersStop g s s := ⟨rfl, rfl, rfl⟩

theorem OthersStop.trans (h : OthersStop g s t) (k : OthersStop g t u) : OthersStop g s u :=
  ⟨k.saf.trans h.saf, k.groups.trans h.groups, k.group.trans h.group⟩

theorem othersStop_stopIfDecided (h : g ≠ k) (s : State) : OthersStop g s (stopIfDecided k s) := by
  obtain ⟨hsaf, hlen, -, hgrp⟩ := toStopping_kept g k s
  unfold stopIfDecided
  split
  · exact ⟨hsaf, hlen, hgrp h⟩
  · exact .refl g s

theorem leave_stopIfDecided (g k : Nat) (s : State) : (grpSt (stopIfDecided k s) g).leave = (grpSt s g).leave := by
  unfold stopIfDecided
  split
  · exact (toStopping_kept g k s).2.2.1
  · rfl

theorem saf_stopIfDecided (k : Nat) (s : State) : (stopIfDecided k s).saf = s.saf := by
  unfold stopIfDecided
  split
  · exact (toStopping_kept 0 k s).1
  · rfl

theorem outcome_finalise (g : Nat) (s : State) : (safG (finalise s) g).outcome = (safG s g).outcome := by
  have hsaf : (finalise s).saf = (stepsFormed s).saf := forAll_same (P := State.saf) saf_stopIfDecided _ _
  rw [safG, hsaf]
  exact (stands_stepsFormed g s).outcome

theorem leave_finalise (g : Nat) (s : State) : (grpSt (finalise s) g).leave = (grpSt s g).leave :=
  (forAll_same (P := fun s => (grpSt s g).leave) (leave_stopIfDecided g) _ (stepsFormed s)).trans (stands_stepsFormed g s).leave

theorem state_of_outcome (h : (safG t g).outcome = (safG s g).outcome) : (safG t g).state = (safG s g).state :=
  (congrArg SafGroup.state h :)

theorem state_finalise (g : Nat) (s : State) : (safG (finalise s) g).state = (safG s g).state :=
  state_of_outcome (outcome_finalise g s)

/-- A moving group that SS1-r is decided for is STOPPING after the finalisation. -/
theorem stopping_finalise (hd : hasBit (defined s) g = true) (hg : g < s.mot.groups.length) (hs : (safG s g).state = .ss1r)
    (hm : (grpSt s g).state.moves) : (grpSt (finalise s) g).state = .stopping := by
  have hformed := stands_stepsFormed g s
  obtain ⟨u, hu, hend⟩ := forAll_around (OthersStop.refl g) OthersStop.trans (fun k t h => othersStop_stopIfDecided h t)
    (List.nodup_range.filter _) (mem_bitsOf.2 hd) (stepsFormed s)
  have hstate : (safG u g).state = .ss1r := by
    rw [safG, hu.saf]
    exact (state_of_outcome hformed.outcome).trans hs
  have hstop : grpSt (stopIfDecided g u) g = grpSt (toStopping g u) g := by rw [stopIfDecided, hstate]; rfl
  have hlast : (grpSt (toStopping g u) g).state = .stopping :=
    toStopping_state (hu.groups.trans hformed.groups ▸ hg) (hu.group ▸ hformed.moves hm)
  exact (congrArg GroupSt.state (hend.group.trans hstop)).trans hlast

theorem only_finalise (s : State) : only [.chip, .axio, .mot, .trl] s (finalise s) := by
  have hraw : only [.chip, .axio, .mot, .trl] s (stepsFormed s) := by
    unfold stepsFormed
    rw [only_forAll fun k u => by split <;> simp, only_forAll fun k u => by simp,
      only_forAll fun k u => (only_forAll fun a v => by simp).2 (only_refl _ u)]
    exact only_refl _ s
  rw [finalise_eq, setFinal, only_onMot (f := fun m => { m with fin := true }) (by decide),
    only_forAll fun k u => by unfold stopIfDecided; split <;> simp]
  exact hraw

/-! ### The acknowledges of a tick (R315) -/

theorem clearLines_g (k : Nat) (s : State) : (clearLines k s).saf.g = s.saf.g := by
  refine forAll_same (P := fun s => s.saf.g) (fun i u => ?_) _ s
  unfold evalLine
  split <;> simp

theorem only_clearLines (k : Nat) (s : State) : only [.saf] s (clearLines k s) := by
  refine (only_forAll fun i u => ?_).2 (only_refl _ s)
  unfold evalLine
  split <;> simp

theorem safG_clearLines (k g : Nat) (s : State) : safG (clearLines k s) g = safG s g := by rw [safG, clearLines_g, safG]

theorem mot_clearLines (k : Nat) (s : State) : (clearLines k s).mot = s.mot := only_clearLines k s .mot (by decide)

/-- The class A latch of a group and the faults of its lines end. -/
def faultsCleared (k : Nat) (s : State) : State := clearLines k (onSafG k (fun x => { x with aLatch := false }) s)

/-- The group leaves Cloche. -/
def clocheLeft (k : Nat) (s : State) : State :=
  onGrp k (fun y => { y with leave := 1 })
    (onSafG k (fun x => { x with state := .run, cause := 0, nres := 0, onlyStopreq := false }) s)

theorem acknowledge_eq (k : Nat) (prior : GState) (may : Bool) (s : State) : acknowledge k prior may s =
    if !((safG s k).ackEdge || resetEdge s k) then s
    else if may && (prior == .cloche || prior == .run || prior == .scaled) then
      (if prior == .cloche then clocheLeft k (faultsCleared k s) else faultsCleared k s)
    else event 0x0803 k (onSaf (fun f => { f with ackBad := f.ackBad ||| bitOf 16 k }) s) := rfl

theorem safG_faultsCleared_ne (h : g ≠ k) (s : State) : safG (faultsCleared k s) g = safG s g :=
  (safG_clearLines ..).trans (nth_updAt_ne _ _ _ _ h)

theorem mot_faultsCleared (k : Nat) (s : State) : (faultsCleared k s).mot = s.mot := mot_clearLines ..

/-- An acknowledge of another group. -/
theorem acknowledge_ne (h : g ≠ k) (prior : GState) (may : Bool) (s : State) :
    safG (acknowledge k prior may s) g = safG s g ∧ Stands g s (acknowledge k prior may s) := by
  have hsame {u : State} (hs : safG u g = safG s g) (hl : u.mot.groups.length = s.mot.groups.length)
      (hm : grpSt u g = grpSt s g) : safG u g = safG s g ∧ Stands g s u :=
    ⟨hs, by rw [hs], hl, by rw [hm], by rw [hm]; exact id⟩
  rw [acknowledge_eq]
  split
  · exact hsame rfl rfl rfl
  · split
    · split
      · refine hsame ((nth_updAt_ne _ _ _ _ h).trans (safG_faultsCleared_ne h s)) ?_ ((nth_updAt_ne _ _ _ _ h).trans ?_)
        · exact (updAt_length ..).trans (by rw [onSafG_mot, mot_faultsCleared])
        · rw [onSafG_mot, mot_faultsCleared]
          rfl
      · exact hsame (safG_faultsCleared_ne h s) (by rw [mot_faultsCleared]) (by rw [grpSt, mot_faultsCleared, grpSt])
    · exact hsame rfl rfl rfl

/-- What is decided for a group. -/
def SafGroup.decision (x : SafGroup) : GState × Nat × Nat × Nat × Nat := (x.state, x.cause, x.stocause, x.tsto, x.decTick)

/-- From s to t the decision for group g lasts, but for an acknowledge of its faults. -/
structure Lasts (g : Nat) (s t : State) : Prop where
  decision : (safG t g).decision = (safG s g).decision
  groups : t.mot.groups.length = s.mot.groups.length
  moves : (grpSt s g).state.moves → (grpSt t g).state.moves

theorem Lasts.refl (g : Nat) (s : State) : Lasts g s s := ⟨rfl, rfl, id⟩

theorem Lasts.trans (h : Lasts g s t) (k : Lasts g t u) : Lasts g s u :=
  ⟨k.decision.trans h.decision, k.groups.trans h.groups, k.moves ∘ h.moves⟩

theorem Stands.lasts (h : Stands g s t) : Lasts g s t := ⟨(congrArg SafGroup.decision h.outcome :), h.groups, h.moves⟩

/-- An acknowledge outside Cloche ends faults only. -/
theorem lasts_acknowledge {prior : GState} (hp : prior ≠ .cloche) (g k : Nat) (may : Bool) (s : State) :
    Lasts g s (acknowledge k prior may s) := by
  have hcleared : Lasts g s (faultsCleared k s) := by
    have hdec : (safG (faultsCleared k s) g).decision = (safG s g).decision :=
      (congrArg SafGroup.decision (safG_clearLines ..)).trans
        (nth_updAt_same (P := SafGroup.decision) (f := fun x => { x with aLatch := false }) (fun _ => rfl) ..)
    refine ⟨hdec, by rw [mot_faultsCleared], ?_⟩
    rw [grpSt, grpSt, mot_faultsCleared]
    exact id
  rw [acknowledge_eq]
  split
  · exact .refl g s
  · split
    · rw [if_neg (by simpa using hp)]
      exact hcleared
    · exact ⟨rfl, rfl, id⟩

/-- An acknowledge in Cloche whose conditions hold. -/
theorem acknowledge_of_cloche (hg : g < s.saf.g.length) (hm : g < s.mot.groups.length) (ha : (safG s g).ackEdge = true) :
    safG (acknowledge g .cloche true s) g =
      { safG s g with aLatch := false, state := .run, cause := 0, nres := 0, onlyStopreq := false } ∧
      (grpSt (acknowledge g .cloche true s) g).leave = 1 := by
  have hx : acknowledge g .cloche true s = clocheLeft g (faultsCleared g s) := by
    rw [acknowledge_eq, ha]
    rfl
  have hcleared : safG (faultsCleared g s) g = { safG s g with aLatch := false } :=
    (safG_clearLines ..).trans (nth_updAt_self _ _ _ hg)
  have hlen : g < (faultsCleared g s).saf.g.length := by
    rw [faultsCleared, clearLines_g]
    exact (updAt_length ..).symm ▸ hg
  rw [hx]
  refine ⟨(nth_updAt_self _ _ _ hlen).trans ?_, congrArg GroupSt.leave (nth_updAt_self _ _ _ ?_)⟩
  · rw [← safG, hcleared]
  · rw [onSafG_mot, mot_faultsCleared]
    exact hm

end

/-! ### The stages of the decision -/

section
variable {g : Nat} {off : Bool} {s t u : State}

/-- Faults, limits, degraded mode and speed limits of the tick are judged. -/
def groupsJudged (off : Bool) (s : State) : State :=
  forAll (bitsOf (defined s)) slsUpdate (forAll (bitsOf (defined s)) degraded (limitTrips (kdeCheck off s)))

/-- Every group is decided. -/
def groupsDecided (off : Bool) (s : State) : State := forAll (bitsOf (defined s)) decideGroup (groupsJudged off s)

/-- The acknowledges of the tick begin. -/
def ackOpen (off : Bool) (s : State) : State := onSaf (fun f => { f with ackBad := 0 }) (groupsDecided off s)

/-- The acknowledges of the tick have been taken. -/
def acknowledged (off : Bool) (s : State) : State :=
  forAll (bitsOf (defined s)) (fun k => acknowledge k (safG s k).state (mayLeave (ackOpen off s) k)) (ackOpen off s)

/-- The other work of SAF in the tick. -/
def decisionsClosed (gs : List Nat) (s : State) : State :=
  onSlack 6 (fun x => { x with done := 0xFFFF }) (forAll (List.range 8) sendPdu (enableMeetsStop (modeChange
    (requestsEnded gs (forAll gs countRestart s)))))

/-- The active notes the masks of its pair. -/
def masksNoted (s : State) : State := if s.pair.role = 1 then pairMasks s else s

/-- The state that the set-points are formed in. -/
def decided (off : Bool) (s : State) : State := masksNoted (decisionsClosed (bitsOf (defined s)) (acknowledged off s))

/-- The groups of the tick with their states before the decision and whether an acknowledge may be taken. -/
def asked (off : Bool) (s : State) : List (Nat × GState × Bool) :=
  ((bitsOf (defined s)).map (fun g => (g, (safG s g).state))).map (fun p => (p.1, p.2, mayLeave (ackOpen off s) p.1))

theorem acknowledged_eq (off : Bool) (s : State) :
    acknowledged off s = forAll (asked off s) (fun p => acknowledge p.1 p.2.1 p.2.2) (ackOpen off s) := by
  simp only [acknowledged, asked, forAll, List.foldl_map]

theorem safDecision_eq (off : Bool) (s : State) : safDecision off s =
    if nodeMode s || s.mot.fin || (slackSt s 6).missNow then s
    else finalise (masksNoted (decisionsClosed (bitsOf (defined s))
      (forAll (asked off s) (fun p => acknowledge p.1 p.2.1 p.2.2) (ackOpen off s)))) := by
  unfold safDecision masksNoted decisionsClosed asked ackOpen groupsDecided groupsJudged requestsEnded
  with_reducible rfl

theorem safDecision_of_due (hn : nodeMode s = false) (hf : s.mot.fin = false) (hm : (slackSt s 6).missNow = false) :
    safDecision off s = finalise (decided off s) := by
  rw [safDecision_eq, if_neg (by simp [hn, hf, hm]), decided, acknowledged_eq]

theorem safDecision_of_none (h : nodeMode s = true ∨ s.mot.fin = true ∨ (slackSt s 6).missNow = true) :
    safDecision off s = s := by
  rcases h with h | h | h <;> simp [safDecision, h]

theorem stands_onSlack (g p : Nat) (f : SlackSt → SlackSt) (s : State) : Stands g s (onSlack p f s) := .of_groups rfl rfl

theorem stands_masksNoted (g : Nat) (s : State) : Stands g s (masksNoted s) := .ite (.of_groups rfl rfl) (.refl g s)

theorem stands_decisionsClosed (g : Nat) (gs : List Nat) (s : State) : Stands g s (decisionsClosed gs s) := by
  have hcount : Stands g s (forAll gs countRestart s) := .forAll (fun k v => stands_countRestart g k v) gs s
  have hmode := (hcount.trans (stands_requestsEnded g gs _)).trans (stands_modeChange g _)
  have hsent := (hmode.trans (stands_enableMeetsStop g _)).trans (.forAll (fun i v => stands_sendPdu g i v) (List.range 8) _)
  exact hsent.trans (stands_onSlack g 6 _ _)

theorem stands_decided (g : Nat) (off : Bool) (s : State) : Stands g (acknowledged off s) (decided off s) :=
  (stands_decisionsClosed g (bitsOf (defined s)) _).trans (stands_masksNoted g _)

theorem before_groupsJudged (g : Nat) (off : Bool) (s : State) : Before g s (groupsJudged off s) :=
  (((before_kdeCheck g off s).trans (before_limitTrips g _)).trans (.forAll (fun k u => before_degraded g k u) _ _)).trans
    (.forAll (fun k u => before_slsUpdate g k u) _ _)

/-- From s to t only other groups than g were worked on. -/
def Apart (g : Nat) (s t : State) : Prop := Around g s t ∧ safG t g = safG s g

theorem Apart.refl (g : Nat) (s : State) : Apart g s s := ⟨.refl g s, rfl⟩

theorem Apart.trans (h : Apart g s t) (k : Apart g t u) : Apart g s u := ⟨h.1.trans k.1, k.2.trans h.2⟩

/-- The decision for group g, after that for some groups and before that for the others. -/
theorem decideGroup_reached (hd : hasBit (defined s) g = true) : ∃ u, Apart g (groupsJudged off s) u ∧
    Apart g (decideGroup g u) (groupsDecided off s) :=
  forAll_around (Apart.refl g) Apart.trans (fun _ t h => around_decideGroup h t) (List.nodup_range.filter _) (mem_bitsOf.2 hd)
    (groupsJudged off s)

/-- Outside Cloche the decision for a group lasts until the set-points are formed. -/
theorem lasts_decided (hp : (safG s g).state ≠ .cloche) : Lasts g (groupsDecided off s) (decided off s) := by
  have hacks : Lasts g (ackOpen off s) (acknowledged off s) := by
    refine forAll_preserves (P := Lasts g (ackOpen off s)) (fun k u hu => hu.trans ?_) _ (.refl g _)
    by_cases hk : g = k
    · subst hk
      exact lasts_acknowledge hp ..
    · exact (acknowledge_ne hk ..).2.lasts
  have hopen : Lasts g (groupsDecided off s) (ackOpen off s) := ⟨rfl, rfl, id⟩
  exact (hopen.trans hacks).trans (stands_decided g off s).lasts

theorem decision_finalise (g : Nat) (s : State) : (safG (finalise s) g).decision = (safG s g).decision :=
  (congrArg SafGroup.decision (outcome_finalise g s) :)

theorem only_decideGroup (k : Nat) (s : State) : only [.chip, .mot, .saf] s (decideGroup k s) := by
  rw [decideGroup_eq]
  split
  · simp
  · simp
  · split
    · simp only [decideSto_eq]
      split <;> simp
    · split
      · simp
      · split
        · simp only [decideStop_eq]
          split <;> simp
        · simp

theorem only_acknowledge (k : Nat) (prior : GState) (may : Bool) (s : State) :
    only [.chip, .mot, .saf] s (acknowledge k prior may s) := by
  have hcleared : only [.chip, .mot, .saf] s (faultsCleared k s) :=
    only_trans (by simp) (only_mono (by decide) (only_clearLines k _))
  rw [acknowledge_eq]
  split
  · exact only_refl _ s
  · split
    · split
      · simpa [clocheLeft] using hcleared
      · exact hcleared
    · simp

/-- The parts that the decisions of a tick may change. -/
def decisionParts : List Part := [.chip, .time, .recd, .axio, .mot, .trl, .saf, .host, .pair]

theorem only_decided (off : Bool) (s : State) : only decisionParts s (decided off s) := by
  have hjudged : only decisionParts s (groupsJudged off s) := only_mono (by decide) (before_groupsJudged 0 off s).around.parts
  have hgroups : only decisionParts s (groupsDecided off s) :=
    (only_forAll fun k u => only_mono (by decide) (only_decideGroup k u)).2 hjudged
  have hacks : only decisionParts s (acknowledged off s) :=
    (only_forAll fun k u => only_mono (by decide) (only_acknowledge k _ _ u)).2 ((only_onSaf (by decide)).2 hgroups)
  have hcount : only decisionParts s (forAll (bitsOf (defined s)) countRestart (acknowledged off s)) :=
    (only_forAll fun k u => (only_onSafG (by decide)).2 (only_refl _ u)).2 hacks
  have hclosed : only decisionParts s (decisionsClosed (bitsOf (defined s)) (acknowledged off s)) := by
    rw [decisionsClosed, only_onSlack (by decide),
      only_forAll fun i u => (only_sendPdu (by decide) (by decide) (by decide)).2 (only_refl _ u),
      only_enableMeetsStop (by decide), only_modeChange (by decide) (by decide), requestsEnded, only_onSaf (by decide)]
    exact hcount
  unfold decided masksNoted
  split
  · exact (only_onPair (by decide)).2 hclosed
  · exact hclosed

/-! ### A decision to stop -/

/-- From the decision of a group outside Cloche to the end of the tick. -/
theorem decision_of_reached {x : SafGroup} (hp : (safG s g).state ≠ .cloche) (hx : (safG u g).decision = x.decision)
    (hend : Apart g u (groupsDecided off s)) : (safG (finalise (decided off s)) g).decision = x.decision := by
  rw [decision_finalise, (lasts_decided hp).decision, hend.2, hx]

theorem state_onGrp {f : GroupSt → GroupSt} (h : ∀ x, (f x).state = x.state) (g k : Nat) (s : State) :
    (grpSt (onGrp k f s) g).state = (grpSt s g).state := nth_updAt_same (P := GroupSt.state) h _ _ _

theorem keepReleased_state (g : Nat) (s : State) : (grpSt (keepReleased g s) g).state = (grpSt s g).state := by
  unfold keepReleased
  refine state_onGrp (fun x => ?_) g g s
  split
  · split <;> rfl
  · rfl

/-- A group whose STO is requested is decided STO, for the lowest of its STO causes. -/
theorem sto_decided {c : Nat} (hd : hasBit (defined s) g = true) (hlen : g < s.saf.g.length) (hr : s.pair.role ≠ 2) (hc : c < 21)
    (hreq : hasBit (safG s g).stoReq c = true)
    (hs : (safG s g).state = .run ∨ (safG s g).state = .scaled ∨ (safG s g).state = .ss1r) :
    (safG (finalise (decided off s)) g).state = .sto ∧ (safG (finalise (decided off s)) g).stocause ≤ c ∧
      (safG (finalise (decided off s)) g).tsto = s.time.tickno % 2 ^ 24 := by
  have hbefore := before_groupsJudged g off s
  obtain ⟨u, hu, hend⟩ := decideGroup_reached (off := off) hd
  have haround := hbefore.around.trans hu.1
  have hstate : (safG u g).state = (safG s g).state := by rw [hu.2, hbefore.state]
  have hmem : c ∈ stoCauses u g false := by
    refine mem_stoCauses (haround.pair ▸ hr) hc ?_
    rw [hu.2, hbefore.stoReq]
    exact hreq
  obtain ⟨b, hx⟩ := decideGroup_of_sto (hstate ▸ hs) (List.ne_nil_of_mem hmem) (haround.safGroups ▸ hlen)
  have hdec := decision_of_reached (by rcases hs with h | h | h <;> simp [h]) (congrArg SafGroup.decision hx) hend
  refine ⟨(congrArg Prod.fst hdec :), ?_, ?_⟩
  · have hsto : (safG (finalise (decided off s)) g).stocause = lowest (stoCauses u g false) := (congrArg (·.2.2.1) hdec :)
    rw [hsto]
    exact lowest_le hmem
  · have htick : (safG (finalise (decided off s)) g).tsto = u.time.tickno % 2 ^ 24 := (congrArg (·.2.2.2.1) hdec :)
    rw [htick, haround.time]

/-- A running group whose stop is requested is decided SS1-r, for the lowest of its stop causes; a moving one is STOPPING. -/
theorem stop_decided {c : Nat} (hd : hasBit (defined s) g = true) (hlen : g < s.saf.g.length) (hm : g < s.mot.groups.length)
    (hr : s.pair.role ≠ 2) (hc : c < 21) (hreq : hasBit (safG s g).stopReq c = true) (hn : stoCauses s g false = [])
    (hs : (safG s g).state = .run ∨ (safG s g).state = .scaled) :
    (safG (finalise (decided off s)) g).state = .ss1r ∧ (safG (finalise (decided off s)) g).cause ≤ c ∧
      (safG (finalise (decided off s)) g).decTick = s.time.tickno ∧
      ((grpSt s g).state = .moving → (grpSt (finalise (decided off s)) g).state = .stopping) := by
  have hbefore := before_groupsJudged g off s
  obtain ⟨u, hu, hend⟩ := decideGroup_reached (off := off) hd
  have haround := hbefore.around.trans hu.1
  have hstate : (safG u g).state = (safG s g).state := by rw [hu.2, hbefore.state]
  have hrun : (safG s g).state ≠ .ss1r := by rcases hs with h | h <;> simp [h]
  have hnone : stoCauses u g false = [] := by
    rw [haround.stoCauses_eq (by rw [hu.2, hbefore.stoReq]) hrun (hstate ▸ hrun), hn]
  have hmem : c ∈ stopCauses u g false := by
    refine mem_stopCauses (haround.pair ▸ hr) hc ?_
    rw [hu.2]
    exact hbefore.stops c hreq
  obtain ⟨w, b, hx, hwlen, hwtime, hwmot⟩ := decideGroup_of_stop (hstate ▸ hs) hnone (List.ne_nil_of_mem hmem)
  obtain ⟨v0, hgroup⟩ := safG_decideStop (cause := lowest (stopCauses u g false)) (only_ := b)
    (hwlen.trans haround.safGroups ▸ hlen : g < w.saf.g.length)
  have hp : (safG s g).state ≠ .cloche := by rcases hs with h | h <;> simp [h]
  have hdec := decision_of_reached hp (congrArg SafGroup.decision ((congrArg (safG · g) hx).trans hgroup)) hend
  have hsafstate : (safG (finalise (decided off s)) g).state = .ss1r := (congrArg Prod.fst hdec :)
  refine ⟨hsafstate, ?_, ?_, fun hmoving => ?_⟩
  · have hcause : (safG (finalise (decided off s)) g).cause = lowest (stopCauses u g false) := (congrArg (·.2.1) hdec :)
    rw [hcause]
    exact lowest_le hmem
  · have htick : (safG (finalise (decided off s)) g).decTick = w.time.tickno := (congrArg (·.2.2.2.2) hdec :)
    rw [htick, hwtime, haround.time]
  · have hlasts := lasts_decided (off := off) hp
    have hkept : (grpSt (decideGroup g u) g).state = (grpSt s g).state := by
      have hgrp : grpSt w g = grpSt s g := by rw [grpSt, hwmot, ← grpSt, haround.group]
      rw [hx]
      exact (keepReleased_state g w).trans (congrArg GroupSt.state hgrp)
    have hklen : (decideGroup g u).mot.groups.length = s.mot.groups.length := by
      rw [hx]
      exact (updAt_length ..).trans (by rw [hwmot, haround.groups])
    have himage : (decided off s).image = s.image := only_decided off s .image (by decide)
    refine stopping_finalise ?_ ?_ ?_ (hlasts.moves ?_)
    · rw [defined_congr himage]
      exact hd
    · rw [hlasts.groups, hend.1.groups, hklen]
      exact hm
    · exact (state_finalise g (decided off s)).symm.trans hsafstate
    · rw [hend.1.group, hkept]
      exact .inl hmoving

/-! ### A group that no cause stands against -/

theorem only_kdeCheck (off : Bool) (s : State) : only [.chip, .recd, .saf] s (kdeCheck off s) := by
  rcases kdeCheck_eq off s with h | h | h <;> rw [h]
  · exact only_refl _ s
  · simp
  · simp [endA_eq]

/-- A group as a tick without conditions leaves it before its decision. -/
def soundGroup (tleft : Nat) (x : SafGroup) : SafGroup := { x with deg := false, tleft := tleft, expBlock := false, sls := [] }

theorem safG_groupsJudged_of_sound (hd : hasBit (defined s) g = true) (hlen : g < s.saf.g.length)
    (hk : s.time.tickno % 16 ≠ g) (hlim : ∀ c, (chSt s c).limTrip = false) (hb : classB s g = false)
    (hsits : slsSits s g = []) : ∃ n, safG (groupsJudged off s) g = soundGroup n (safG s g) := by
  have hdeg := deg_of_slsSits hsits
  have hmem := mem_bitsOf.2 hd
  have hnodup : (bitsOf (defined s)).Nodup := List.nodup_range.filter _
  have haxio : (kdeCheck off s).axio = s.axio := only_kdeCheck off s .axio (by decide)
  have hcheck : Apart g s (limitTrips (kdeCheck off s)) := by
    rw [limitTrips_of_none fun c => by rw [chSt, haxio]; exact hlim c]
    exact ⟨(before_kdeCheck g off s).around, safG_kdeCheck off hk⟩
  obtain ⟨u, hu, huend⟩ := forAll_around (Apart.refl g) Apart.trans
    (fun k t h => ⟨(before_degraded g k t).around, safG_degraded_ne h⟩) hnodup hmem (limitTrips (kdeCheck off s))
  have hu := hcheck.trans hu
  have hdegraded : safG (degraded g u) g =
      { safG s g with deg := false, tleft := (grpCfg u g).tdeg * 1000000000, expBlock := false } := by
    rw [degraded_of_sound (hu.1.classB g ▸ hb) (hu.2 ▸ hdeg), safG_onSafG (hu.1.safGroups ▸ hlen), hu.2]
  obtain ⟨v, hv, hvend⟩ := forAll_around (Apart.refl g) Apart.trans (f := slsUpdate)
    (fun k t h => ⟨(before_slsUpdate g k t).around, nth_updAt_ne _ _ _ _ h⟩) hnodup hmem
    (forAll (bitsOf (defined s)) degraded (limitTrips (kdeCheck off s)))
  have haround : Around g s v := ((hu.1.trans (before_degraded g g u).around).trans huend.1).trans hv.1
  have hgroup : safG v g = safG (degraded g u) g := hv.2.trans huend.2
  have hnow : slsSits v g = [] := by rw [haround.slsSits (by rw [hgroup, hdegraded, hdeg]), hsits]
  refine ⟨(grpCfg u g).tdeg * 1000000000, hvend.2.trans ?_⟩
  rw [safG_slsUpdate_of_none (haround.safGroups ▸ hlen) hnow, hgroup, hdegraded]
  rfl

/-- The state that a sound group is decided in. -/
theorem sound_reached (hd : hasBit (defined s) g = true) (hlen : g < s.saf.g.length) (hk : s.time.tickno % 16 ≠ g)
    (hlim : ∀ c, (chSt s c).limTrip = false) (hb : classB s g = false) (hsits : slsSits s g = []) :
    ∃ u n, Around g s u ∧ safG u g = soundGroup n (safG s g) ∧ Apart g (decideGroup g u) (groupsDecided off s) := by
  obtain ⟨n, hn⟩ := safG_groupsJudged_of_sound (off := off) hd hlen hk hlim hb hsits
  obtain ⟨u, hu, hend⟩ := decideGroup_reached (off := off) hd
  exact ⟨u, n, (before_groupsJudged g off s).around.trans hu.1, hu.2.trans hn, hend⟩

/-- A running group without a cause is SCALED below scale 1 and RUN otherwise. -/
theorem run_decided (hd : hasBit (defined s) g = true) (hlen : g < s.saf.g.length) (hk : s.time.tickno % 16 ≠ g)
    (hlim : ∀ c, (chSt s c).limTrip = false) (hb : classB s g = false) (hsits : slsSits s g = [])
    (hstop : stopCauses s g false = []) (hsto : stoCauses s g false = [])
    (hs : (safG s g).state = .run ∨ (safG s g).state = .scaled) : (safG (finalise (decided off s)) g).state =
      (if hasSolTrl s = true ∧ (trlG s g).scale < 32768 then .scaled else .run) := by
  obtain ⟨u, n, hu, hgroup, hend⟩ := sound_reached (off := off) hd hlen hk hlim hb hsits
  have hstate : (safG u g).state = (safG s g).state := by rw [hgroup]; rfl
  have hrun : (safG s g).state ≠ .ss1r := by rcases hs with h | h <;> simp [h]
  have hx := decideGroup_of_none (hstate ▸ hs)
    ((hu.stoCauses_eq (by rw [hgroup]; rfl) hrun (hstate ▸ hrun) false).trans hsto)
    (hu.stopCauses_eq_nil (by rw [hgroup]; rfl) (by rw [hgroup]; rfl) hstop)
  have hscale : groupScale u g = if hasSolTrl s then (trlG s g).scale else 32768 := by
    rw [groupScale, hu.hasSolTrl, hu.trlG, hgroup]
    rfl
  have hset : (safG (decideGroup g u) g).state = if groupScale u g < 32768 then .scaled else .run := by
    rw [hx, safG_onSafG (by simpa [onSafG] using hu.safGroups ▸ hlen)]
  have hp : (safG s g).state ≠ .cloche := by rcases hs with h | h <;> simp [h]
  have hdec := decision_of_reached (x := safG (decideGroup g u) g) hp rfl hend
  rw [show (safG (finalise (decided off s)) g).state = _ from congrArg Prod.fst hdec]
  refine hset.trans ?_
  rw [hscale]
  cases hasSolTrl s <;> simp

/-! ### An acknowledge that takes a group out of Cloche -/

/-- The conditions of an acknowledge rest neither on the scale nor on the right to an automatic restart. -/
theorem mayLeave_of_sound {n k : Nat} {b : Bool} (hu : Around g s u)
    (hgroup : safG u g = { soundGroup n (safG s g) with scale := k, onlyStopreq := b }) (hs : (safG s g).state = .cloche)
    (h : mayLeave s g = true) : mayLeave u g = true := by
  simp only [mayLeave, Bool.and_eq_true, Bool.not_eq_true', beq_iff_eq] at h ⊢
  obtain ⟨⟨⟨⟨⟨hstop, hsto⟩, hfault⟩, hblock⟩, -⟩, hmatch⟩ := h
  refine ⟨⟨⟨⟨⟨?_, ?_⟩, ?_⟩, ?_⟩, ?_⟩, ?_⟩
  · exact hu.stopCauses_eq_nil (by rw [hgroup]; rfl) (by rw [hgroup]; rfl) hstop
  · exact (hu.stoCauses_eq (by rw [hgroup]; rfl) (by simp [hs]) (by rw [hgroup]; simp [soundGroup, hs]) true).trans hsto
  · exact (hu.faultPresent (by rw [hgroup]; rfl)).trans hfault
  · rw [hgroup]
    exact hblock
  · rw [hgroup]
    rfl
  · exact ((congrArg SafSt.match_ hu.saf :) : u.saf.match_ = s.saf.match_).trans hmatch

theorem length_acknowledge (k : Nat) (prior : GState) (may : Bool) (s : State) :
    (acknowledge k prior may s).saf.g.length = s.saf.g.length := by
  have hcleared : (faultsCleared k s).saf.g.length = s.saf.g.length := by
    rw [faultsCleared, clearLines_g]
    exact updAt_length ..
  rw [acknowledge_eq]
  split
  · rfl
  · split
    · split
      · exact (updAt_length ..).trans hcleared
      · exact hcleared
    · rfl

/-- From s to t other groups than g were acknowledged. -/
structure OthersAcked (g : Nat) (s t : State) : Prop where
  group : safG t g = safG s g
  safGroups : t.saf.g.length = s.saf.g.length
  stands : Stands g s t

theorem OthersAcked.refl (g : Nat) (s : State) : OthersAcked g s s := ⟨rfl, rfl, .refl g s⟩

theorem OthersAcked.trans (h : OthersAcked g s t) (k : OthersAcked g t u) : OthersAcked g s u :=
  ⟨k.group.trans h.group, k.safGroups.trans h.safGroups, h.stands.trans k.stands⟩

/-- An acknowledge whose conditions hold takes a group from Cloche to RUN. -/
theorem cloche_left (hd : hasBit (defined s) g = true) (hlen : g < s.saf.g.length) (hm : g < s.mot.groups.length)
    (hk : s.time.tickno % 16 ≠ g) (hlim : ∀ c, (chSt s c).limTrip = false) (hb : classB s g = false)
    (hsits : slsSits s g = []) (hs : (safG s g).state = .cloche) (hack : (safG s g).ackEdge = true)
    (hmay : mayLeave s g = true) : (safG (finalise (decided off s)) g).state = .run ∧
      (safG (finalise (decided off s)) g).cause = 0 ∧ (safG (finalise (decided off s)) g).aLatch = false ∧
      (grpSt (finalise (decided off s)) g).leave = 1 := by
  obtain ⟨u, n, hu, hgroup, hend⟩ := sound_reached (off := off) hd hlen hk hlim hb hsits
  have hx := decideGroup_of_cloche (s := u) (g := g) (by rw [hgroup]; exact hs)
  have hopened : Around g (groupsDecided off s) (ackOpen off s) :=
    ⟨by simp [ackOpen], rfl, fun _ => rfl, rfl, rfl, rfl, rfl, rfl⟩
  have haround : Around g s (ackOpen off s) :=
    ((hu.trans (hx ▸ around_onSafG g g (scaled u g) u)).trans hend.1).trans hopened
  have hsafG : safG (ackOpen off s) g = scaled u g (soundGroup n (safG s g)) := by
    have hset : safG (decideGroup g u) g = scaled u g (safG u g) := by rw [hx, safG_onSafG (hu.safGroups ▸ hlen)]
    exact hend.2.trans (hset.trans (by rw [hgroup]))
  have hconditions : mayLeave (ackOpen off s) g = true := mayLeave_of_sound haround hsafG hs hmay
  obtain ⟨v, hv, hvend⟩ := forAll_around (OthersAcked.refl g) OthersAcked.trans
    (f := fun k => acknowledge k (safG s k).state (mayLeave (ackOpen off s) k))
    (fun k t h => ⟨(acknowledge_ne h ..).1, length_acknowledge .., (acknowledge_ne h ..).2⟩) (List.nodup_range.filter _)
    (mem_bitsOf.2 hd) (ackOpen off s)
  have hown := acknowledge_of_cloche (s := v) (g := g) (by rw [hv.safGroups, haround.safGroups]; exact hlen)
    (by rw [hv.stands.groups, haround.groups]; exact hm) (by rw [hv.group, hsafG]; exact hack)
  have hlast : Stands g (acknowledge g .cloche true v) (decided off s) := by
    have hstands := hvend.stands
    simp only [hs, hconditions] at hstands
    exact hstands.trans (stands_decided g off s)
  have houtcome := (outcome_finalise g (decided off s)).trans hlast.outcome
  rw [hown.1] at houtcome
  exact ⟨(congrArg SafGroup.state houtcome :), (congrArg SafGroup.cause houtcome :), (congrArg SafGroup.aLatch houtcome :),
    (leave_finalise g _).trans (hlast.leave.trans hown.2)⟩

end

/-- Settles O29: every phase of the tick's decisions leaves the decision for a group but for the one that takes it. -/
theorem safetyDecision : Obligations.SafetyDecision := by
  have hrun {off : Bool} {s : State} (hn : nodeMode s = false) (hf : s.mot.fin = false) (hm : (slackSt s 6).missNow = false) :
      exec (.safDecision off) s = .next (settle s (finalise (decided off s))) :=
    congrArg (fun t => Host.Outcome.next (settle s t)) (safDecision_of_due hn hf hm)
  refine ⟨fun g c off s hn hf hm hg hlen hdef hr hc hreq hs => ?_,
    fun g c off s hn hf hm hg hlen hml hdef hr hc hreq hnone hs => ?_,
    fun g off s hn hf hm hg hlen hdef hstop hsto hk hlim hb hsits hs => ?_,
    fun g off s hn hf hm hg hlen hml hdef hs hack hmay hk hlim hb hsits => ?_,
    fun off s h => run_of_unchanged (safDecision_of_none h)⟩
  all_goals have hd := (hasBit_defined hg).trans hdef
  · obtain ⟨hstate, hcause, htick⟩ := sto_decided (off := off) hd hlen hr hc hreq hs
    refine ⟨_, hrun hn hf hm, (safG_settle ..).symm ▸ hstate, (safG_settle ..).symm ▸ hcause,
      (safG_settle ..).symm ▸ htick, ?_, ?_⟩
    · rw [settle_mot]
      rfl
    · exact (only_settle_iff (by decide)).2 (only_trans (only_decided off s) (only_mono (by decide) (only_finalise _)))
  · obtain ⟨hstate, hcause, htick, hstopping⟩ := stop_decided (off := off) hd hlen hml hr hc hreq hnone hs
    refine ⟨_, hrun hn hf hm, (safG_settle ..).symm ▸ hstate, (safG_settle ..).symm ▸ hcause,
      (safG_settle ..).symm ▸ htick, fun hmoving => ?_⟩
    rw [grpSt, settle_mot]
    exact hstopping hmoving
  · exact ⟨_, hrun hn hf hm, (safG_settle ..).symm ▸ run_decided hd hlen hk hlim hb hsits hstop hsto hs⟩
  · obtain ⟨hstate, hcause, hlatch, hleave⟩ := cloche_left (off := off) hd hlen hml hk hlim hb hsits hs hack hmay
    refine ⟨_, hrun hn hf hm, (safG_settle ..).symm ▸ hstate, (safG_settle ..).symm ▸ hcause,
      (safG_settle ..).symm ▸ hlatch, ?_⟩
    rw [grpSt, settle_mot]
    exact hleave

end Sys2Proof.Machine
